-- ==== Sys2Proof/Word.lean ====
section
/-! DEFINITION. The word types of the OLX9640, bit fields of naturals, and the sparse map in one canonical form. -/
namespace Sys2Proof

/-- A byte (R6). -/
abbrev Byte := BitVec 8

/-- A register word: every register is 64 bits wide (R14, R570). -/
abbrev Word := BitVec 64

/-- The header vector, metadata and result windows of a packet: 1,024 nibbles (R115). Nibble `a` is the
four bits from `4 * (1023 - a)` up, so that an operand whose most significant nibble lies at the lowest
address is one contiguous slice. -/
abbrev Vect := BitVec 4096

/-- A 64 B table line (R190), byte 0 in bits [7:0]. -/
abbrev Line := BitVec 512

/-- The `w`-bit field of `n` whose lowest bit is `lo` (R10). -/
def bitsGet (n lo w : Nat) : Nat := n / 2 ^ lo % 2 ^ w

/-- `n` with its `w`-bit field at `lo` replaced by the low `w` bits of `x`. -/
def bitsSet (n lo w x : Nat) : Nat :=
  n % 2 ^ lo + (x % 2 ^ w) * 2 ^ lo + n / 2 ^ (lo + w) * 2 ^ (lo + w)

/-- One bit of a natural. -/
def bitAt (n i : Nat) : Bool := n.testBit i

/-- A Boolean as one bit. -/
def b2n (b : Bool) : Nat := if b then 1 else 0

/-- Adding a constant to a value held modulo `2 ^ w` (R548, fields that wrap). -/
def wrapAdd (w x k : Nat) : Nat := (x + k) % 2 ^ w

/-- Adding to a field that saturates at its largest value. -/
def satAdd (w x k : Nat) : Nat := min (x + k) (2 ^ w - 1)

/-- A field in two's complement, as an integer. -/
def signed (w x : Nat) : Int := if x % 2 ^ w < 2 ^ (w - 1) then (x % 2 ^ w : Nat) else (x % 2 ^ w : Nat) - (2 ^ w : Nat)

/-- An integer encoded in `w` bits of two's complement. -/
def twos (w : Nat) (x : Int) : Nat := (x % ((2 ^ w : Nat) : Int)).toNat

/-- Rounding a quotient up. -/
def ceilDiv (a b : Nat) : Nat := (a + b - 1) / b

/-- The unsigned value of bytes, first byte least significant (R12). -/
def leVal : List Byte → Nat
  | [] => 0
  | b :: bs => b.toNat + 256 * leVal bs

/-- `n` bytes of `x`, least significant first (R12). -/
def leBytes : Nat → Nat → List Byte
  | 0, _ => []
  | n + 1, x => BitVec.ofNat 8 x :: leBytes n (x / 256)

/-- The unsigned value of bytes in network order (R12). -/
def beVal (bs : List Byte) : Nat := leVal bs.reverse

/-- `n` bytes of `x` in network order (R12). -/
def beBytes (n x : Nat) : List Byte := (leBytes n x).reverse

/-- The bytes `off` to `off + n - 1` of a block, bytes beyond its end reading as 0. -/
def slice (bs : List Byte) (off n : Nat) : List Byte :=
  let t := (bs.drop off).take n
  t ++ List.replicate (n - t.length) 0

/-- A little-endian field of a block (R12, R13). -/
def leAt (bs : List Byte) (off n : Nat) : Nat := leVal (bs.drop off |>.take n)

/-- A network-order field of a block (R12, R13). -/
def beAt (bs : List Byte) (off n : Nat) : Nat := beVal (slice bs off n)

/-- A sparse map from naturals, held in one canonical form: keys strictly rising, and no entry equal to
what an unlisted key reads as. The default is given to each operation as a function of the key. -/
abbrev SMap (α : Type) := List (Nat × α)

/-- What key `k` reads as. -/
def SMap.find {α : Type} (d : Nat → α) : SMap α → Nat → α
  | [], k => d k
  | e :: m, k => if e.1 = k then e.2 else SMap.find d m k

/-- The map with key `k` set to `v`: the entries below it, its own entry unless that is what an unlisted key reads as, and the
entries above it. -/
def SMap.put {α : Type} [DecidableEq α] (d : Nat → α) (m : SMap α) (k : Nat) (v : α) : SMap α :=
  m.filter (fun e => decide (e.1 < k)) ++ ((if v = d k then [] else [(k, v)]) ++ m.filter (fun e => decide (k < e.1)))

/-- The canonical form: keys rise strictly, and no entry equals what its key reads as when unlisted. -/
abbrev SMap.wf {α : Type} [DecidableEq α] (d : Nat → α) (m : SMap α) : Prop :=
  (m.map fun e => e.1).Pairwise (· < ·) ∧ ∀ e ∈ m, e.2 ≠ d e.1

/-- The first element of a list that satisfies `p`, replaced through `f`; the list unchanged when none does. -/
def updFirst {α : Type} (p : α → Bool) (f : α → α) : List α → List α
  | [] => []
  | a :: as => if p a then f a :: as else a :: updFirst p f as

/-- An event FIFO of `cap` items takes an arrival: when full, the oldest item is overwritten and one item
is lost (R63). The head is the oldest item; the second component is the number lost. -/
def fifoPush {α : Type} (cap : Nat) (q : List α) (a : α) : List α × Nat :=
  if q.length < cap then (q ++ [a], 0) else (q.drop 1 ++ [a], 1)

end Sys2Proof
end

