-- ==== Sys2Proof/Syntax.lean ====
section
/-! DEFINITION. The commands and events the OLX9640 takes, one constructor per row of the opcode table, each
with the operands that come from outside the device: written values, received bytes, data the host or a memory
returns, measured levels. -/
namespace Sys2Proof

/-- The host function that makes an access: endpoint H0 or H1 (R433), and the function coded as HOST_Q.FUNC
(bit 12 set: VF in bits [11:0]; clear: PF in bits [2:0]). -/
structure HostSrc where
  ep : Nat
  func : Nat
  deriving DecidableEq, Repr

/-- How a host reads a register (R571): a half, the whole word, or a longer read that starts `before` words
below the register and has `words` words. -/
inductive ReadForm where
  | lo32
  | hi32
  | full
  | long (before words : Nat)
  deriving DecidableEq, Repr

/-- The transfers of SMBus 3.1 that carry a command code. -/
inductive SmbKind where
  | writeByte | readByte | writeWord | readWord | processCall | blockWrite | blockRead | blockProcess
  deriving DecidableEq, Repr

/-- An SMBus transaction (R584): its 7-bit address, its transfer, its data bytes, and whether its PEC is good. -/
structure SmbTx where
  addr : Nat
  kind : SmbKind
  data : List Byte
  pecGood : Bool
  deriving DecidableEq, Repr

/-- The held frame of a port, and the places of its chain whose cells fail as they are read (R282, R288). -/
structure CutStart where
  port : Nat
  bad : List Nat
  deriving DecidableEq, Repr

/-- What an image gives that the spec says comes from the image and gives no section layout for: the byte address of the aperture
records in table SRAM; the placement records (endpoint, place, epoch, device, queue); the shapers (key, RATE, BURST, weight,
credit); the output and class of each group and the group of each endpoint; the prism of each source from 96 on (R25);
the role masks of service facets and the exception facet of each prism; the VFs of each PF; the lines that each trie may use in
each tier; the first dynamic address of the spill region, the dynamic ranges that are no spill region, and the first dynamic addresses of the lens
shadows and of the prefix shadow; the regions that it reserves in table SRAM, beside the aperture records and the counter store, and in
the far space; the wheel slots of each
user of packet memory (R283). -/
structure ImagePlan where
  apertureBase : Nat
  placements : List (Nat × Nat × Nat × Nat × Nat)
  shapers : List (Nat × Nat × Nat × Nat)
  groupOut : List (Nat × Nat)
  epGroup : List (Nat × Nat)
  assigned : List (Nat × Nat)
  roles : List (Nat × Nat)
  share : List (Nat × Nat)
  vfs : List Nat
  regions : List (Nat × Nat)
  spillBase : Nat
  reserved : List (Nat × Nat) := []
  shadowBase : Nat := 0
  prefixBase : Nat := 0
  sram : List (Nat × Nat) := []
  far : List (Nat × Nat) := []
  wheel : List Nat := []
  deriving DecidableEq, Repr


/-- The commands and events of the opcode table. The comment of each constructor names the rule that governs it. -/
inductive Instr where
  /-- CMD_DOORBELL (R459). -/
  | cmdDoorbell (src : HostSrc) (ring value : Nat)
  /-- COMMAND_ACCEPT (R466). -/
  | commandAccept (fails : Nat)
  /-- COMMAND_COMPLETE (R466). -/
  | commandComplete (seq fails : Nat)
  /-- GATE_PULSE (R474). -/
  | gatePulse
  /-- GATE_TIMEOUT (R474). -/
  | gateTimeout (seq : Nat)
  /-- TBL_INSERT (R217). -/
  | tblInsert (seq : Nat) (images : List Byte)
  /-- TBL_DELETE (R217). -/
  | tblDelete (seq : Nat) (images : List Byte)
  /-- TBL_SEARCH (R218). -/
  | tblSearch (seq : Nat) (image : List Byte)
  /-- TBL_NEXT (R219). -/
  | tblNext (seq : Nat)
  /-- TBL_FLUSH_PORT (R220). -/
  | tblFlushPort (seq : Nat)
  /-- LENS_WRITE (R182). -/
  | lensWrite (seq : Nat) (block : List Byte)
  /-- LENS_DEATH (R182). -/
  | lensDeath (seq : Nat) (block : List Byte)
  /-- LENS_REVIVE (R182). -/
  | lensRevive (seq : Nat) (block : List Byte)
  /-- LENS_INVALIDATE (R187). -/
  | lensInvalidate (seq : Nat)
  /-- VERSION_STAGE_OPEN (R224). -/
  | versionStageOpen (seq : Nat)
  /-- VERSION_STAGE_ABANDON (R224). -/
  | versionStageAbandon (seq : Nat)
  /-- ABANDON_SWEEP_COMPLETE (R225). -/
  | abandonSweepComplete
  /-- VERSION_COMMIT (R226). -/
  | versionCommit (seq : Nat)
  /-- COMMIT_TAKEOVER (R228). -/
  | commitTakeover
  /-- MCODE_PATCH (R145). -/
  | mcodePatch (seq : Nat) (patch : List Byte)
  /-- SHAPER_SET (R329). -/
  | shaperSet (seq : Nat)
  /-- SHAPER_QUERY (R329). -/
  | shaperQuery (seq : Nat)
  /-- GATE_LIST_SET (R328). -/
  | gateListSet (seq : Nat) (entries : List Byte)
  /-- GATE_LIST_STOP (R328). -/
  | gateListStop (seq : Nat)
  /-- METER_SET (R301). -/
  | meterSet (seq : Nat)
  /-- EP_MIGRATE_LOCAL (R252). -/
  | epMigrateLocal (seq : Nat)
  /-- EP_MIGRATE_OUT (R254). -/
  | epMigrateOut (seq : Nat)
  /-- EP_MIGRATE_IN (R255). -/
  | epMigrateIn (seq : Nat)
  /-- MIG_TOKEN_ARRIVAL (R252). -/
  | migTokenArrival (idx : Nat)
  /-- FENCE_LIMIT_EXPIRY (R253). -/
  | fenceLimitExpiry (idx : Nat)
  /-- TAIL_WINDOW_END (R254). -/
  | tailWindowEnd (idx : Nat)
  /-- MARKER_LIMIT_EXPIRY (R255). -/
  | markerLimitExpiry (idx : Nat)
  /-- EP_PARK (R452). -/
  | epPark (seq : Nat)
  /-- PARK_COMPLETE (R452). -/
  | parkComplete (ep : Nat)
  /-- EP_UNPARK (R452). -/
  | epUnpark (seq : Nat)
  /-- EXPOSE (R558). -/
  | expose (seq : Nat)
  /-- EXPOSURE_SEAL (R557). -/
  | exposureSeal
  /-- EXPOSURE_TIMEOUT (R557). -/
  | exposureTimeout
  /-- COUNTER_CLEAR (R554). -/
  | counterClear (seq : Nat)
  /-- MIRROR_SET (R566). -/
  | mirrorSet (seq : Nat)
  /-- FAB_ADDRESS_QUERY (R362). -/
  | fabAddressQuery (seq : Nat)
  /-- FAB_ADDRESS_SET (R362). -/
  | fabAddressSet (seq : Nat)
  /-- FAB_ADDRESS_CLAIM (R362). -/
  | fabAddressClaim (seq : Nat)
  /-- CLAIM_TIMEOUT (R362). -/
  | claimTimeout (seq : Nat)
  /-- FAB_LINK_DISABLE (R352). -/
  | fabLinkDisable (seq : Nat)
  /-- FAB_LINK_ENABLE (R352). -/
  | fabLinkEnable (seq : Nat)
  /-- FAB_LINK_RETRAIN (R352). -/
  | fabLinkRetrain (seq : Nat)
  /-- FAB_LINK_WIDTH (R352). -/
  | fabLinkWidth (seq : Nat)
  /-- FAB_LINK_AUTO_OFF (R352). -/
  | fabLinkAutoOff (seq : Nat)
  /-- FAB_LINK_AUTO_ON (R352). -/
  | fabLinkAutoOn (seq : Nat)
  /-- MODE_REQUEST_QUERY (R505). -/
  | modeRequestQuery (seq : Nat)
  /-- MODE_REQUEST_RESTART (R505). -/
  | modeRequestRestart (seq : Nat)
  /-- MODE_REQUEST_SAFE (R505). -/
  | modeRequestSafe (seq : Nat)
  /-- MODE_REQUEST_TAKEOVER (R505). -/
  | modeRequestTakeover
  /-- NOP (R463). -/
  | nop (seq : Nat)
  /-- UNKNOWN_CODE (R463). -/
  | unknownCode (seq : Nat)
  /-- REGISTER_WRITE (R572). -/
  | registerWrite (src : HostSrc) (bar off : Nat) (words : List (Nat × Nat))
  /-- PACE_TARGET_WRITE (R77). -/
  | paceTargetWrite (src : HostSrc) (value : Nat)
  /-- PACE_XOFF_IN_WRITE (R78). -/
  | paceXoffInWrite (src : HostSrc) (idx value : Nat)
  /-- PACE_XOFF_OUT_WRITE (R67). -/
  | paceXoffOutWrite (src : HostSrc) (idx value : Nat)
  /-- BUF_WM_WRITE (R66). -/
  | bufWmWrite (src : HostSrc) (n value : Nat)
  /-- APR_RES_WRITE (R312). -/
  | aprResWrite (src : HostSrc) (r value : Nat)
  /-- SWC_DQ_WRITE (R290). -/
  | swcDqWrite (src : HostSrc) (q value : Nat)
  /-- HOST_Q_WRITE (R441). -/
  | hostQWrite (src : HostSrc) (q value : Nat)
  /-- HOST_QBASE_WRITE (R441). -/
  | hostQbaseWrite (src : HostSrc) (q value : Nat)
  /-- QUEUE_DOORBELL (R443). -/
  | queueDoorbell (src : HostSrc) (q value : Nat)
  /-- DMA_RING_WRITE (R454). -/
  | dmaRingWrite (src : HostSrc) (value : Nat)
  /-- DMA_DOORBELL (R454). -/
  | dmaDoorbell (src : HostSrc) (value : Nat)
  /-- CMD_RING_WRITE (R458). -/
  | cmdRingWrite (src : HostSrc) (ring value : Nat)
  /-- CMD_POST_WRITE (R458). -/
  | cmdPostWrite (src : HostSrc) (ring value : Nat)
  /-- TIME_ADJ_WRITE (R400). -/
  | timeAdjWrite (src : HostSrc) (value : Nat)
  /-- TIME_OFFSET_WRITE (R401). -/
  | timeOffsetWrite (src : HostSrc) (value : Nat)
  /-- MSA_INSTALL (R405). -/
  | msaInstall (src : HostSrc) (value : Nat)
  /-- MSA_INVALIDATE (R405). -/
  | msaInvalidate (src : HostSrc) (value : Nat)
  /-- MSA_READ_PN (R405). -/
  | msaReadPn (src : HostSrc) (value : Nat)
  /-- MSEC_PORT_WRITE (R403). -/
  | msecPortWrite (src : HostSrc) (n value : Nat)
  /-- MAC_PREEMPT_WRITE (R396). -/
  | macPreemptWrite (src : HostSrc) (n value : Nat)
  /-- CNT_PROBE_WRITE (R549). -/
  | cntProbeWrite (src : HostSrc) (value : Nat)
  /-- BIST_WINDOW_OPEN (R542). -/
  | bistWindowOpen (src : HostSrc) (value : Nat)
  /-- BIST_WINDOW_READY (R542). -/
  | bistWindowReady
  /-- BIST_START (R543). -/
  | bistStart (src : HostSrc) (value : Nat)
  /-- BIST_WINDOW_CLOSE (R546). -/
  | bistWindowClose (src : HostSrc) (value : Nat)
  /-- FLT_FORCE_WRITE (R533). -/
  | fltForceWrite (src : HostSrc) (w value : Nat)
  /-- FLT_STATUS_CLEAR (R527). -/
  | fltStatusClear (src : HostSrc) (w value : Nat)
  /-- TOP_MODE_REQ_RESTART (R506). -/
  | topModeReqRestart (src : HostSrc) (value : Nat)
  /-- KEEP_TOD_WRITE (R514). -/
  | keepTodWrite (src : HostSrc) (value : Nat)
  /-- HOST_WAKE_CLEAR (R453). -/
  | hostWakeClear (src : HostSrc) (w value : Nat)
  /-- CAPTURE_REARM (R100). -/
  | captureRearm (src : HostSrc) (off value : Nat)
  /-- CNT_XRING_WRITE (R564). -/
  | cntXringWrite (src : HostSrc) (value : Nat)
  /-- APR_BQ_READ (R311). -/
  | aprBqRead (src : HostSrc) (form : ReadForm)
  /-- FLT_EVQ_READ (R534). -/
  | fltEvqRead (src : HostSrc) (form : ReadForm)
  /-- CNT_LOUPE_READ (R562). -/
  | cntLoupeRead (src : HostSrc) (form : ReadForm)
  /-- MAC_PTP_TS_READ (R398). -/
  | macPtpTsRead (src : HostSrc) (n : Nat) (form : ReadForm)
  /-- CONFIG_REQUEST (R434). -/
  | configRequest (src : HostSrc) (reg : Nat) (write : Bool) (value : Nat)
  /-- SMB_JRN_POINTER (R481). -/
  | smbJrnPointer (tx : SmbTx)
  /-- SMB_JRN_READ (R481). -/
  | smbJrnRead (tx : SmbTx)
  /-- SMB_JRN_STATUS (R481). -/
  | smbJrnStatus (tx : SmbTx)
  /-- SMB_LOG_POINTER (R536). -/
  | smbLogPointer (tx : SmbTx)
  /-- SMB_LOG_READ (R536). -/
  | smbLogRead (tx : SmbTx)
  /-- SMB_MODE_QUERY (R506). -/
  | smbModeQuery (tx : SmbTx)
  /-- SMB_MODE_RESTART (R506). -/
  | smbModeRestart (tx : SmbTx)
  /-- SMB_MODE_SAFE (R506). -/
  | smbModeSafe (tx : SmbTx)
  /-- SMB_UNLISTED_COMMAND (R584). -/
  | smbUnlistedCommand (code : Nat) (tx : SmbTx)
  /-- FRAME_RECEIVE (R383). -/
  | frameReceive (n : Nat) (bytes : List Byte) (firstNs : Nat) (fcs : Bool) (kind : Nat) (preemptable : Bool)
  /-- CELL_WRITE (R270). -/
  | cellWrite (src bank : Nat)
  /-- PAUSE_REFRESH (R390). -/
  | pauseRefresh (n : Nat)
  /-- PAUSE_FRAME (R389). -/
  | pauseFrame (n quanta : Nat)
  /-- PRIORITY_PAUSE_FRAME (R389). -/
  | priorityPauseFrame (n enable : Nat) (quanta : List Nat)
  /-- PAUSE_EXPIRY (R389). -/
  | pauseExpiry (n prio : Nat)
  /-- XOFF_IN_CHANGE (R69). -/
  | xoffInChange (idx : Nat) (level : Bool)
  /-- CUT_SEGMENT_PRESENT (R164). -/
  | cutSegmentPresent (n : Nat)
  /-- PARSE_CUT (R165). -/
  | parseCut (k : Nat)
  /-- FRAME_END_REPORT (R154). -/
  | frameEndReport (n : Nat)
  /-- APERTURE_DECISION (R303). -/
  | apertureDecision (src : Nat)
  /-- PRISM_STEP (R79). -/
  | prismStep (k : Nat) (late : Bool)
  /-- RETURN_READY (R89). -/
  | returnReady (k : Nat)
  /-- FAR_LATE (R93). -/
  | farLate (k : Nat)
  /-- ENQUEUE (R284). -/
  | enqueue
  /-- SWITCH_CUT_START (R288). -/
  | switchCutStart (cut : CutStart)
  /-- SPILL_WRITE_COMPLETE (R278). -/
  | spillWriteComplete (leaf : Nat)
  /-- SPILL_BLOCK_FLUSH (R278). -/
  | spillBlockFlush (block : Nat) (far : Bool)
  /-- REFILL_START (R279). -/
  | refillStart (leaf : Nat)
  /-- REFILL_COMPLETE (R279). -/
  | refillComplete (leaf failures : Nat)
  /-- COLLIMATOR_SELECT (R320). -/
  | collimatorSelect (o : Nat) (bad : List Nat)
  /-- SHAPER_TICK (R317). -/
  | shaperTick (key : Nat)
  /-- STARVE (R325). -/
  | starve (leaf : Nat)
  /-- GATE_TRANSITION (R326). -/
  | gateTransition (o : Nat)
  /-- GATE_CHANGE (R328). -/
  | gateChange (o : Nat)
  /-- LINK_UP (R382). -/
  | linkUp (n : Nat)
  /-- MAC_LINK (R382). -/
  | macLink (n : Nat) (aligned localFault remoteFault : Bool)
  /-- BREACH_LINK (R309). -/
  | breachLink (leaf : Nat)
  /-- BREACH_PAUSE (R309). -/
  | breachPause (leaf : Nat)
  /-- CELL_FREE (R262). -/
  | cellFree (cell requester : Nat) (asOwner : Bool)
  /-- CHAIN_HANDOFF (R266). -/
  | chainHandoff (cell requester owner : Nat)
  /-- VERIFY_TIMER (R392): whether the peer has answered the last verify frame. -/
  | verifyTimer (n : Nat) (answered : Bool)
  /-- VERSION_RETIRE (R233). -/
  | versionRetire
  /-- SETTLE_PASS_COMPLETE (R175). -/
  | settlePassComplete (a : Nat)
  /-- PACE_WINDOW_END (R50): the beats that loop 0 and the further 63 loops have counted. -/
  | paceWindowEnd (first : Nat) (others : List Nat)
  /-- PACE_VGOOD (R54). -/
  | paceVgood (level : Bool)
  /-- PACE_VMAX_N (R55). -/
  | paceVmaxN (level : Bool)
  /-- VGOOD_TIMEOUT (R56). -/
  | vgoodTimeout
  /-- SERVICE_WORK_ARRIVAL (R139). -/
  | serviceWorkArrival (sf role : Nat)
  /-- SERVICE_WORD_ISSUE (R113). -/
  | serviceWordIssue (sf : Nat)
  /-- SERVICE_RESULT (R142). -/
  | serviceResult (sf : Nat) (data : List Byte)
  /-- BLOCK_RESET_COMPLETE (R138). -/
  | blockResetComplete (b : Nat)
  /-- BLOCK_RESET_FAIL (R528). -/
  | blockResetFail (b : Nat)
  /-- LEARN_INSERT (R213). -/
  | learnInsert
  /-- AGING_VISIT (R214). -/
  | agingVisit (t : Nat)
  /-- HIT_WRITE (R211). -/
  | hitWrite
  /-- LENS_COMPARE (R189). -/
  | lensCompare (a : Nat) (shadowLost : Bool)
  /-- IRIS_CELL_RECEIVE (R339). -/
  | irisCellReceive (idx : Nat) (bytes : List Byte)
  /-- RT_READY_SEND (R350). -/
  | rtReadySend (idx : Nat)
  /-- IRIS_CTRL_SEND (R338). -/
  | irisCtrlSend (idx : Nat)
  /-- ACK_TIMEOUT (R342). -/
  | ackTimeout (idx : Nat)
  /-- RETRY_BUDGET (R343). -/
  | retryBudget (idx : Nat)
  /-- CALL_SEND (R346). -/
  | callSend (idx : Nat)
  /-- ECHO_MISSED (R346). -/
  | echoMissed (idx : Nat)
  /-- IRIS_TRAINED (R333). -/
  | irisTrained (idx width lanes : Nat)
  /-- LANE_LOCK_LOSS (R349). -/
  | laneLockLoss (idx lane : Nat)
  /-- LANE_THRESHOLD (R349). -/
  | laneThreshold (idx lane rate : Nat)
  /-- RT_REQ_REPEAT (R350). -/
  | rtReqRepeat (idx : Nat)
  /-- RETRAIN_COMPLETE (R350). -/
  | retrainComplete (idx : Nat)
  /-- RETRAIN_TIMEOUT (R347). -/
  | retrainTimeout (idx : Nat)
  /-- GASP_REPEAT (R353). -/
  | gaspRepeat (idx : Nat)
  /-- ADVERT_RECEIVE (R357). -/
  | advertReceive
  /-- ADVERT_SEND (R356). -/
  | advertSend
  /-- ADVERT_EXPIRY (R358). -/
  | advertExpiry
  /-- ADDRESS_CLAIM (R359). -/
  | addressClaim
  /-- CLAIM_HOLD_END (R359). -/
  | claimHoldEnd
  /-- ROUTE_COMPUTE (R363). -/
  | routeCompute
  /-- SPRAY_EPOCH (R368). -/
  | sprayEpoch
  /-- REORDER_TIMEOUT (R371). -/
  | reorderTimeout (device cls : Nat)
  /-- GAP_LIMIT (R372). -/
  | gapLimit (device cls : Nat)
  /-- IRIS_DEADLINE (R374). -/
  | irisDeadline (device cls : Nat)
  /-- TSYNC_SEND (R377). -/
  | tsyncSend
  /-- TREPLY_RECEIVE (R377). -/
  | treplyReceive
  /-- FAB_TIME_LOST (R378). -/
  | fabTimeLost
  /-- DYNAMIC_REQUEST (R418). -/
  | dynamicRequest (q bank : Nat)
  /-- HBM_REFRESH (R422). -/
  | hbmRefresh (q bank : Nat) (begins : Bool)
  /-- HBM_SCRUB (R423). -/
  | hbmScrub (q line errors : Nat)
  /-- HBM_RETRAIN_START (R424). -/
  | hbmRetrainStart (m : Nat)
  /-- HBM_RETRAIN_COMPLETE (R424). -/
  | hbmRetrainComplete (m : Nat)
  /-- HBM_RETRAIN (R424). -/
  | hbmRetrain (m : Nat)
  /-- SKEW_WINDOW (R426). -/
  | skewWindow
  /-- FAR_COMPLETION (R432). -/
  | farCompletion (f id status latency : Nat) (data : List Byte)
  /-- FAR_LINK (R432). -/
  | farLink (f : Nat)
  /-- DESCRIPTOR_READ_COMPLETE (R444). -/
  | descriptorReadComplete (q : Nat) (data : List Byte) (poison : Bool)
  /-- DESCRIPTOR_REREAD (R444). -/
  | descriptorReread (q : Nat)
  /-- TX_DESCRIPTOR (R447). -/
  | txDescriptor (q : Nat) (data : List Byte) (poison : Bool)
  /-- COMPLETION_TIMEOUT (R438). -/
  | completionTimeout (idx : Nat) (answered : Bool)
  /-- MSIX_MODERATION (R449). -/
  | msixModeration (func vec : Nat)
  /-- FUNCTION_LEVEL_RESET (R435). -/
  | functionLevelReset (src : HostSrc)
  /-- HX_PERST_N (R586). -/
  | hxPerstN (ep : Nat) (level : Bool)
  /-- DMA_DESCRIPTOR_START (R456). -/
  | dmaDescriptorStart
  /-- DMA_PULSE (R457). -/
  | dmaPulse (number : Nat) (data : List Byte) (status : List Nat) (arrived : Bool)
  /-- EXPORT_RECORD (R564). -/
  | exportRecord (loupe : Bool)
  /-- CAPTURE_WRITE (R567). -/
  | captureWrite (written : Bool)
  /-- PPS_OUT (R586). -/
  | ppsOut
  /-- CHIP_RESET_COMPLETE (R529). -/
  | chipResetComplete
  /-- RESET_N_LOW (R503). -/
  | resetNLow
  /-- DORMANT_EXIT (R503). -/
  | dormantExit
  /-- RAIL_GROUP_GOOD (R510). -/
  | railGroupGood (g : Nat)
  /-- RAIL_FAIL (R510). -/
  | railFail (g good : Nat)
  /-- RAIL_RETRY (R510). -/
  | railRetry
  /-- PWRFAIL_N (R516). -/
  | pwrfailN
  /-- CORE_SUPPLY_LOST (R516). -/
  | coreSupplyLost
  /-- HOLD_UP_ISOLATION (R517). -/
  | holdUpIsolation
  /-- HOLD_UP_EXIT (R503). -/
  | holdUpExit
  /-- KEEPER_SWITCH (R513). -/
  | keeperSwitch (mainMv auxMv : Nat)
  /-- KEEPER_RETURN_MAIN (R513). -/
  | keeperReturnMain (mainMv auxMv dipNs : Nat)
  /-- KEEPER_BROWNOUT (R515). -/
  | keeperBrownout (mainMv auxMv : Nat)
  /-- THERMAL_SAMPLE (R521). -/
  | thermalSample (temps : List Nat)
  /-- FLASH_DISCOVERY (R484). -/
  | flashDiscovery (sfdpValid octal : Bool) (densityMib : Nat)
  /-- SLOT_AUTHENTICATE (R491). -/
  | slotAuthenticate (image : List Byte)
  /-- BIST_UNIT_COMPLETE (R544). -/
  | bistUnitComplete (g sig : Nat) (restored : Bool)
  /-- BIST_PLAN_END (R541). -/
  | bistPlanEnd
  /-- FAR_PORT_ENUMERATE (R428). -/
  | farPortEnumerate (ports : List (Nat × Nat × Nat))
  /-- LOAD_APPLY (R493). -/
  | loadApply (image : List Byte) (plan : ImagePlan)
  /-- LOAD_SCHED (R98). -/
  | loadSched
  /-- JOURNAL_SCAN (R477). -/
  | journalScan (fails : Nat)
  /-- SERVE_ENTRY (R478). -/
  | serveEntry (fails : Nat)
  /-- KEEPER_START (R513). -/
  | keeperStart (mainMv auxMv : Nat)
  /-- RAIL_SEQUENCE_START (R510). -/
  | railSequenceStart
  /-- RESET_N_HIGH (R510). -/
  | resetNHigh
  /-- PWRFAIL_N_HIGH (R512). -/
  | pwrfailNHigh
  /-- BIST_GROUP_START (R539). -/
  | bistGroupStart (g : Nat)
  /-- PREVIOUS_ADDRESS_EXPIRY (R362). -/
  | previousAddressExpiry
  /-- OPEN_ROW_TIMEOUT (R421). -/
  | openRowTimeout (q bank : Nat)
  /-- SET_AND_HOLD_MAC (R394). -/
  | setAndHoldMac (o : Nat)
  /-- SPILL_RATE_WINDOW (R281). -/
  | spillRateWindow
  /-- HOST_LINK_TRAINED (R433). -/
  | hostLinkTrained (ep : Nat) (half : Bool) (rate width : Nat)
  deriving DecidableEq, Repr

end Sys2Proof
end

