-- ==== Sys2Proof/Config.lean ====
section
/-! DEFINITION. What the device fixes and the spec leaves open: free values (constants without a body, so that no
proof can rest on one) and the cryptographic functions the spec names by their standards. -/
namespace Sys2Proof.Config

/-- The fused 64-bit unique id (TOP_UID, "fuse"). -/
opaque uid : Word

/-- The 48 bytes of the fused key hash (BOOT_KEYHASH, "fuse"), byte 0 first. -/
opaque keyHash : Nat → Byte

/-- A fresh open value; State.free numbers the draws. -/
opaque open_ : Nat → Nat

/-- How a rate that is no whole number of Mbeat/s is shown in PACE_BEAT_RATE.MIN_RATE: rounded down or up (the spec
gives the rate as n × 3.125 and the field as whole Mbeat/s). -/
opaque rateRoundsUp : Nat → Bool

/-- SHA-384 of a byte string, 48 bytes (R145, R491). -/
opaque sha384 : List Byte → List Byte

/-- ECDSA P-384 verification of a digest under a 96 B public key and a 96 B signature (R145, R491). -/
opaque ecdsaVerifies : (key digest sig : List Byte) → Bool

/-- The iris of the peer that a local iris is cabled to: the spec has a device list it (R356) and gives no way to learn it. -/
opaque peerIris : Nat → Nat

/-- The bank and the row of a line of a pseudo-channel (the spec gives neither). -/
opaque hbmBank : Nat → Nat
opaque hbmRow : Nat → Nat

/-- The length of a controller cycle, in units of 2^-40 ns (the spec gives no controller clock). -/
opaque controllerCycle : Nat

/-- The offset in a function's configuration space of the word that holds its Device Control register, whose bits [7:5] and [14:12] are Max
Payload Size and Max Read Request Size (PCI Express; the spec gives no layout of the space). -/
opaque deviceControl : Fin 4096

end Sys2Proof.Config
end

