-- ==== Sys2Proof/Machine/RegMap.lean ====
section
/-! DEFINITION. The register map (R575): the registers of BAR0 with their offsets, reset values, writable and
image-settable fields, written out from the register tables of the spec's chapters. -/
namespace Sys2Proof.Machine

/-- Where one field of one register lies: the register's BAR0 offset, the field's lowest bit, its width (R10, R14). -/
structure Loc where
  off : Nat
  lo : Nat
  w : Nat
  deriving DecidableEq, Repr

/-- How software writes a field (R16). -/
inductive Access where
  | rw | w1c | wo | sc
  deriving DecidableEq, Repr

/-- A field that software or the image may set: its bits, its access code, and the values that are no
reserved encoding of it (R18). `load` marks a field that an image record may set (R499). -/
structure WField where
  lo : Nat
  w : Nat
  acc : Option Access
  least : Nat
  most : Nat
  load : Bool
  deriving DecidableEq, Repr

/-- A family of registers of one layout: base offset, dimensions as (count, stride), and the fields that
can be written or set. -/
structure RegDef where
  base : Nat
  dims : List (Nat × Nat)
  fields : List WField
  deriving DecidableEq, Repr

namespace R

def TOP_ID.PART : Loc := ⟨0x0, 16, 16⟩
def TOP_ID.STEPPING : Loc := ⟨0x0, 0, 8⟩
def TOP_UID.UID : Loc := ⟨0x8, 0, 64⟩
def TOP_MODE.SAFE_CAUSE : Loc := ⟨0x10, 8, 4⟩
def TOP_MODE.PREV : Loc := ⟨0x10, 4, 3⟩
def TOP_MODE.STATE : Loc := ⟨0x10, 0, 3⟩
def TOP_MODE_REQ.OP : Loc := ⟨0x18, 0, 2⟩
def TOP_REGLOG.VALID : Loc := ⟨0x20, 63, 1⟩
def TOP_REGLOG.KIND : Loc := ⟨0x20, 60, 3⟩
def TOP_REGLOG.BAR : Loc := ⟨0x20, 58, 2⟩
def TOP_REGLOG.EP : Loc := ⟨0x20, 57, 1⟩
def TOP_REGLOG.FUNC : Loc := ⟨0x20, 44, 13⟩
def TOP_REGLOG.OFFSET : Loc := ⟨0x20, 0, 26⟩
def TOP_REGLOG_VAL.VALUE : Loc := ⟨0x28, 0, 64⟩
def TOP_REGLOG_CNT.COUNT : Loc := ⟨0x30, 0, 64⟩
def KEEP_SUPPLY.SWITCHES : Loc := ⟨0x100000, 48, 16⟩
def KEEP_SUPPLY.MAIN_MV : Loc := ⟨0x100000, 36, 12⟩
def KEEP_SUPPLY.AUX_MV : Loc := ⟨0x100000, 24, 12⟩
def KEEP_SUPPLY.BROWNOUTS : Loc := ⟨0x100000, 16, 8⟩
def KEEP_SUPPLY.SEL : Loc := ⟨0x100000, 0, 1⟩
def KEEP_RAIL.GOOD : Loc := ⟨0x100008, 56, 8⟩
def KEEP_RAIL.EN : Loc := ⟨0x100008, 52, 4⟩
def KEEP_RAIL.FAIL_GROUP : Loc := ⟨0x100008, 50, 2⟩
def KEEP_RAIL.ATTEMPTS : Loc := ⟨0x100008, 48, 2⟩
def KEEP_RAIL.HOLD_OFF : Loc := ⟨0x100008, 0, 1⟩
def KEEP_THERM.PEAK : Loc := ⟨0x100010, 40, 8⟩
def KEEP_THERM.TJ : Loc := ⟨0x100010, 32, 8⟩
def KEEP_THERM.SENSOR : Loc := ⟨0x100010, 16, 5⟩
def KEEP_THERM.TRIP : Loc := ⟨0x100010, 8, 8⟩
def KEEP_THERM.WARN : Loc := ⟨0x100010, 0, 8⟩
def KEEP_EVENT.CAUSE : Loc := ⟨0x100018, 54, 2⟩
def KEEP_EVENT.TIME : Loc := ⟨0x100018, 0, 48⟩
def KEEP_TOD.VALID : Loc := ⟨0x100020, 63, 1⟩
def KEEP_TOD.SECONDS : Loc := ⟨0x100020, 0, 48⟩
def FLT_STATUS.LATCHED (w : Nat) : Loc := ⟨0x200000 + 0x8 * w, 0, 64⟩
def FLT_FORCE.FORCE (w : Nat) : Loc := ⟨0x200020 + 0x8 * w, 0, 64⟩
def FLT_CFG.VEC : Loc := ⟨0x200040, 29, 11⟩
def FLT_CFG.PF : Loc := ⟨0x200040, 26, 3⟩
def FLT_CFG.FAULT_N_OUT : Loc := ⟨0x200040, 0, 1⟩
def FLT_EVQ_LOST.COUNT : Loc := ⟨0x200060, 0, 64⟩
def FLT_LOG.HEAD : Loc := ⟨0x200068, 0, 32⟩
def FLT_REACT.COUNT (n : Nat) : Loc := ⟨0x201000 + 0x8 * n, 32, 16⟩
def FLT_REACT.ESC (n : Nat) : Loc := ⟨0x201000 + 0x8 * n, 24, 8⟩
def FLT_REACT.HOLD (n : Nat) : Loc := ⟨0x201000 + 0x8 * n, 5, 1⟩
def FLT_REACT.PIN (n : Nat) : Loc := ⟨0x201000 + 0x8 * n, 4, 1⟩
def FLT_REACT.CHIP (n : Nat) : Loc := ⟨0x201000 + 0x8 * n, 3, 1⟩
def FLT_REACT.BLOCK (n : Nat) : Loc := ⟨0x201000 + 0x8 * n, 2, 1⟩
def FLT_REACT.NMI (n : Nat) : Loc := ⟨0x201000 + 0x8 * n, 1, 1⟩
def FLT_REACT.IRQ (n : Nat) : Loc := ⟨0x201000 + 0x8 * n, 0, 1⟩
def FLT_LOG_REC.RECORD (j : Nat) : Loc := ⟨0x208000 + 0x20 * j, 0, 256⟩
def JRN_HEAD.HEAD : Loc := ⟨0x300000, 0, 48⟩
def JRN_TAIL.TAIL : Loc := ⟨0x300008, 0, 48⟩
def JRN_EPOCH.COUNT : Loc := ⟨0x300010, 0, 48⟩
def JRN_LAST_EPOCH.SEQ : Loc := ⟨0x300018, 0, 48⟩
def JRN_ACK.GUARD : Loc := ⟨0x300020, 63, 1⟩
def JRN_ACK.ACK : Loc := ⟨0x300020, 0, 48⟩
def JRN_STAT.UNKNOWN : Loc := ⟨0x300028, 48, 16⟩
def JRN_STAT.REEXEC : Loc := ⟨0x300028, 32, 16⟩
def JRN_STAT.INDET : Loc := ⟨0x300028, 16, 16⟩
def JRN_STAT.WRITE_FAIL : Loc := ⟨0x300028, 0, 16⟩
def CMD_RING.ENABLE (r : Nat) : Loc := ⟨0x400000 + 0x20 * r, 63, 1⟩
def CMD_RING.PF (r : Nat) : Loc := ⟨0x400000 + 0x20 * r, 60, 3⟩
def CMD_RING.SIZE (r : Nat) : Loc := ⟨0x400000 + 0x20 * r, 56, 4⟩
def CMD_RING.VEC (r : Nat) : Loc := ⟨0x400000 + 0x20 * r, 44, 11⟩
def CMD_POST.BASE (r : Nat) : Loc := ⟨0x400008 + 0x20 * r, 6, 58⟩
def CMD_STAT.STOPPED (r : Nat) : Loc := ⟨0x400010 + 0x20 * r, 63, 1⟩
def CMD_STAT.ERROR (r : Nat) : Loc := ⟨0x400010 + 0x20 * r, 61, 2⟩
def CMD_STAT.T (r : Nat) : Loc := ⟨0x400010 + 0x20 * r, 32, 16⟩
def CMD_STAT.C (r : Nat) : Loc := ⟨0x400010 + 0x20 * r, 16, 16⟩
def CMD_STAT.OPEN (r : Nat) : Loc := ⟨0x400010 + 0x20 * r, 0, 16⟩
def CMD_CFG.GATE_TIMEOUT : Loc := ⟨0x401000, 0, 16⟩
def CMD_ERR.DOORBELL : Loc := ⟨0x401008, 32, 32⟩
def CMD_ERR.NOT_ACCEPTED : Loc := ⟨0x401008, 16, 16⟩
def BOOT_STATUS.STEP : Loc := ⟨0x500000, 4, 4⟩
def BOOT_STATUS.SLOT : Loc := ⟨0x500000, 0, 2⟩
def BOOT_FLASH.DENSITY : Loc := ⟨0x500008, 32, 16⟩
def BOOT_FLASH.FREQ : Loc := ⟨0x500008, 8, 8⟩
def BOOT_FLASH.MODE : Loc := ⟨0x500008, 0, 2⟩
def BOOT_SLOT.VERSION (s : Nat) : Loc := ⟨0x500010 + 0x10 * s, 32, 32⟩
def BOOT_SLOT.REASON (s : Nat) : Loc := ⟨0x500010 + 0x10 * s, 28, 4⟩
def BOOT_SLOT.CHECK (s : Nat) : Loc := ⟨0x500010 + 0x10 * s, 16, 8⟩
def BOOT_SLOT.SECTION (s : Nat) : Loc := ⟨0x500010 + 0x10 * s, 8, 8⟩
def BOOT_SLOT.INSTANCE (s : Nat) : Loc := ⟨0x500010 + 0x10 * s, 0, 8⟩
def BOOT_SLOT_OFF.OFFSET (s : Nat) : Loc := ⟨0x500018 + 0x10 * s, 0, 28⟩
def BOOT_KEYHASH.HASH (i : Nat) : Loc := ⟨0x500040 + 0x8 * i, 0, 64⟩
def PACE_CTRL.SETTLE : Loc := ⟨0x600000, 4, 4⟩
def PACE_CTRL.HOLD : Loc := ⟨0x600000, 0, 1⟩
def PACE_STATUS.CLEAR_RUN : Loc := ⟨0x600008, 16, 16⟩
def PACE_STATUS.VMAX_N_IN : Loc := ⟨0x600008, 3, 1⟩
def PACE_STATUS.AT_CEILING : Loc := ⟨0x600008, 2, 1⟩
def PACE_STATUS.ADMIT_HOLD : Loc := ⟨0x600008, 1, 1⟩
def PACE_STATUS.VGOOD_IN : Loc := ⟨0x600008, 0, 1⟩
def PACE_BEAT_RATE.SLOWEST : Loc := ⟨0x600010, 32, 6⟩
def PACE_BEAT_RATE.LOW_WATER : Loc := ⟨0x600010, 16, 16⟩
def PACE_BEAT_RATE.MIN_RATE : Loc := ⟨0x600010, 0, 16⟩
def PACE_FLOOR.FLOOR_COUNT : Loc := ⟨0x600018, 16, 16⟩
def PACE_FLOOR.FLOOR : Loc := ⟨0x600018, 0, 16⟩
def PACE_TARGET.GUARD : Loc := ⟨0x600020, 32, 16⟩
def PACE_TARGET.TARGET : Loc := ⟨0x600020, 16, 16⟩
def PACE_TARGET.BAND : Loc := ⟨0x600020, 0, 16⟩
def PACE_VREQ.VMAX : Loc := ⟨0x600028, 24, 8⟩
def PACE_VREQ.VMIN : Loc := ⟨0x600028, 16, 8⟩
def PACE_VREQ.CODE : Loc := ⟨0x600028, 0, 8⟩
def PACE_DEFICIT.LIMIT : Loc := ⟨0x600030, 32, 8⟩
def PACE_DEFICIT.PEAK : Loc := ⟨0x600030, 16, 16⟩
def PACE_DEFICIT.CURRENT : Loc := ⟨0x600030, 0, 16⟩
def PACE_XOFF_OUT.ENABLE (i : Nat) : Loc := ⟨0x600100 + 0x8 * i, 15, 1⟩
def PACE_XOFF_OUT.FORCE (i : Nat) : Loc := ⟨0x600100 + 0x8 * i, 14, 1⟩
def PACE_XOFF_OUT.WM (i : Nat) : Loc := ⟨0x600100 + 0x8 * i, 0, 12⟩
def PACE_XOFF_IN.ENABLE (i : Nat) : Loc := ⟨0x600140 + 0x8 * i, 31, 1⟩
def PACE_XOFF_IN.LEVEL (i : Nat) : Loc := ⟨0x600140 + 0x8 * i, 30, 1⟩
def PACE_XOFF_IN.CLASS_MASK (i : Nat) : Loc := ⟨0x600140 + 0x8 * i, 16, 8⟩
def PACE_XOFF_IN.LAST_PORT (i : Nat) : Loc := ⟨0x600140 + 0x8 * i, 8, 7⟩
def PACE_XOFF_IN.FIRST_PORT (i : Nat) : Loc := ⟨0x600140 + 0x8 * i, 0, 7⟩
def TIME_NOW.NS : Loc := ⟨0x700000, 16, 48⟩
def TIME_NOW.FRAC : Loc := ⟨0x700000, 0, 16⟩
def TIME_ADJ.FREQ : Loc := ⟨0x700008, 32, 32⟩
def TIME_ADJ.SLEW : Loc := ⟨0x700008, 0, 32⟩
def TIME_OFFSET.OFFSET : Loc := ⟨0x700010, 0, 64⟩
def PRISM_SCHED.FAR_OFFSET (k b : Nat) : Loc := ⟨0x800000 + 0x100000 * k + 0x8 * b, 32, 16⟩
def PRISM_SCHED.DEPTH (k b : Nat) : Loc := ⟨0x800000 + 0x100000 * k + 0x8 * b, 16, 16⟩
def PRISM_SCHED.CAL_SAME (k b : Nat) : Loc := ⟨0x800000 + 0x100000 * k + 0x8 * b, 8, 1⟩
def PRISM_SCHED.II (k b : Nat) : Loc := ⟨0x800000 + 0x100000 * k + 0x8 * b, 0, 4⟩
def PRISM_ALLOW.S_CUT (k : Nat) : Loc := ⟨0x800010 + 0x100000 * k, 16, 16⟩
def PRISM_ALLOW.A_PARSE (k : Nat) : Loc := ⟨0x800010 + 0x100000 * k, 0, 16⟩
def PRISM_GUARD_CAP.VALID (k : Nat) : Loc := ⟨0x800018 + 0x100000 * k, 63, 1⟩
def PRISM_GUARD_CAP.BANK (k : Nat) : Loc := ⟨0x800018 + 0x100000 * k, 62, 1⟩
def PRISM_GUARD_CAP.FACET (k : Nat) : Loc := ⟨0x800018 + 0x100000 * k, 57, 5⟩
def PRISM_GUARD_CAP.MICROADDR (k : Nat) : Loc := ⟨0x800018 + 0x100000 * k, 44, 13⟩
def PRISM_GUARD_CAP.PHASE (k : Nat) : Loc := ⟨0x800018 + 0x100000 * k, 33, 11⟩
def PRISM_GUARD_CAP.GUARD (k : Nat) : Loc := ⟨0x800018 + 0x100000 * k, 22, 11⟩
def PRISM_GUARD_COUNT.COUNT (k : Nat) : Loc := ⟨0x800020 + 0x100000 * k, 0, 64⟩
def PRISM_FAR_LATE.COUNT (k : Nat) : Loc := ⟨0x800028 + 0x100000 * k, 0, 64⟩
def PRISM_WAIT.STALL_PEAK (k : Nat) : Loc := ⟨0x800030 + 0x100000 * k, 32, 32⟩
def PRISM_WAIT.RETURN_WAITS (k : Nat) : Loc := ⟨0x800030 + 0x100000 * k, 0, 32⟩
def PRISM_DEEP.COUNT (k : Nat) : Loc := ⟨0x800038 + 0x100000 * k, 0, 64⟩
def PRISM_EDGE.COUNT (k : Nat) : Loc := ⟨0x800040 + 0x100000 * k, 0, 64⟩
def PRISM_CUT_ABORT.COUNT (k : Nat) : Loc := ⟨0x800048 + 0x100000 * k, 0, 64⟩
def PRISM_PROFILE.LAST_PARSE (k j : Nat) : Loc := ⟨0x800100 + 0x100000 * k + 0x8 * j, 19, 5⟩
def PRISM_PROFILE.FIELDS (k j : Nat) : Loc := ⟨0x800100 + 0x100000 * k + 0x8 * j, 8, 6⟩
def PRISM_PROFILE.CUT (k j : Nat) : Loc := ⟨0x800100 + 0x100000 * k + 0x8 * j, 1, 1⟩
def PRISM_PROFILE.XTR (k j : Nat) : Loc := ⟨0x800100 + 0x100000 * k + 0x8 * j, 0, 1⟩
def PRISM_PORTMAP.SERVICE (k : Nat) : Loc := ⟨0x800180 + 0x100000 * k, 28, 4⟩
def PRISM_PORTMAP.HOST (k : Nat) : Loc := ⟨0x800180 + 0x100000 * k, 24, 4⟩
def PRISM_PORTMAP.PORT5 (k : Nat) : Loc := ⟨0x800180 + 0x100000 * k, 20, 4⟩
def PRISM_PORTMAP.PORT4 (k : Nat) : Loc := ⟨0x800180 + 0x100000 * k, 16, 4⟩
def PRISM_PORTMAP.PORT3 (k : Nat) : Loc := ⟨0x800180 + 0x100000 * k, 12, 4⟩
def PRISM_PORTMAP.PORT2 (k : Nat) : Loc := ⟨0x800180 + 0x100000 * k, 8, 4⟩
def PRISM_PORTMAP.PORT1 (k : Nat) : Loc := ⟨0x800180 + 0x100000 * k, 4, 4⟩
def PRISM_PORTMAP.PORT0 (k : Nat) : Loc := ⟨0x800180 + 0x100000 * k, 0, 4⟩
def PRISM_XTR.DST (k j f : Nat) : Loc := ⟨0x801000 + 0x100000 * k + 0x100 * j + 0x8 * f, 22, 10⟩
def PRISM_XTR.LEN (k j f : Nat) : Loc := ⟨0x801000 + 0x100000 * k + 0x100 * j + 0x8 * f, 16, 4⟩
def PRISM_XTR.SRC (k j f : Nat) : Loc := ⟨0x801000 + 0x100000 * k + 0x100 * j + 0x8 * f, 0, 9⟩
def SVC_STATE.LOST (s : Nat) : Loc := ⟨0x1800000 + 0x8 * s, 48, 16⟩
def SVC_STATE.MICROADDR (s : Nat) : Loc := ⟨0x1800000 + 0x8 * s, 16, 13⟩
def SVC_STATE.STATE (s : Nat) : Loc := ⟨0x1800000 + 0x8 * s, 13, 3⟩
def SVC_STATE.BANK (s : Nat) : Loc := ⟨0x1800000 + 0x8 * s, 12, 1⟩
def SVC_STATE.DEPTH (s : Nat) : Loc := ⟨0x1800000 + 0x8 * s, 10, 2⟩
def SVC_STATE.PRIO (s : Nat) : Loc := ⟨0x1800000 + 0x8 * s, 8, 2⟩
def SVC_STATE.SP (s : Nat) : Loc := ⟨0x1800000 + 0x8 * s, 4, 4⟩
def LENS_PROFILE.MISS_PTR (a j : Nat) : Loc := ⟨0x1900000 + 0x80 * a + 0x8 * j, 40, 18⟩
def LENS_PROFILE.PF_EN (a j : Nat) : Loc := ⟨0x1900000 + 0x80 * a + 0x8 * j, 39, 1⟩
def LENS_PROFILE.PF2 (a j : Nat) : Loc := ⟨0x1900000 + 0x80 * a + 0x8 * j, 32, 7⟩
def LENS_PROFILE.PF1 (a j : Nat) : Loc := ⟨0x1900000 + 0x80 * a + 0x8 * j, 24, 7⟩
def LENS_PROFILE.PF0 (a j : Nat) : Loc := ⟨0x1900000 + 0x80 * a + 0x8 * j, 16, 7⟩
def LENS_PROFILE.KLEN (a j : Nat) : Loc := ⟨0x1900000 + 0x80 * a + 0x8 * j, 8, 7⟩
def LENS_PROFILE.LAST_BLOCK (a j : Nat) : Loc := ⟨0x1900000 + 0x80 * a + 0x8 * j, 4, 4⟩
def LENS_PROFILE.FIRST_BLOCK (a j : Nat) : Loc := ⟨0x1900000 + 0x80 * a + 0x8 * j, 0, 4⟩
def LENS_VERSION.SETTLING : Loc := ⟨0x1900800, 16, 16⟩
def LENS_VERSION.OLDEST : Loc := ⟨0x1900800, 0, 4⟩
def LENS_SCRUB.FIXES (a : Nat) : Loc := ⟨0x1901000 + 0x8 * a, 32, 32⟩
def LENS_SCRUB.LAST_PASS (a : Nat) : Loc := ⟨0x1901000 + 0x8 * a, 16, 16⟩
def LENS_SCRUB.ROW (a : Nat) : Loc := ⟨0x1901000 + 0x8 * a, 0, 14⟩
def LENS_SCRUB_CAP.VALID : Loc := ⟨0x1901080, 63, 1⟩
def LENS_SCRUB_CAP.KIND : Loc := ⟨0x1901080, 62, 1⟩
def LENS_SCRUB_CAP.ARRAY : Loc := ⟨0x1901080, 58, 4⟩
def LENS_SCRUB_CAP.ROW : Loc := ⟨0x1901080, 44, 14⟩
def LENS_SCRUB_CAP.CELLS : Loc := ⟨0x1901080, 37, 7⟩
def LENS_SCRUB_CAP.META : Loc := ⟨0x1901080, 36, 1⟩
def LENS_ERR.PARITY (a : Nat) : Loc := ⟨0x1901100 + 0x8 * a, 32, 32⟩
def LENS_ERR.FORCED (a : Nat) : Loc := ⟨0x1901100 + 0x8 * a, 16, 16⟩
def LENS_ERR.SHADOW (a : Nat) : Loc := ⟨0x1901100 + 0x8 * a, 0, 16⟩
def LENS_PWR.PEAK (a : Nat) : Loc := ⟨0x1901180 + 0x8 * a, 16, 10⟩
def LENS_PWR.FRACTION (a : Nat) : Loc := ⟨0x1901180 + 0x8 * a, 0, 10⟩
def TBL_DESC.BASE (t : Nat) : Loc := ⟨0x1A00000 + 0x20 * t, 25, 39⟩
def TBL_DESC.BBITS (t : Nat) : Loc := ⟨0x1A00000 + 0x20 * t, 19, 6⟩
def TBL_DESC.REPL (t : Nat) : Loc := ⟨0x1A00000 + 0x20 * t, 17, 2⟩
def TBL_DESC.TIER (t : Nat) : Loc := ⟨0x1A00000 + 0x20 * t, 15, 2⟩
def TBL_DESC.KIND (t : Nat) : Loc := ⟨0x1A00000 + 0x20 * t, 12, 3⟩
def TBL_DESC.AGE (t : Nat) : Loc := ⟨0x1A00000 + 0x20 * t, 11, 1⟩
def TBL_DESC.FLUSH (t : Nat) : Loc := ⟨0x1A00000 + 0x20 * t, 10, 1⟩
def TBL_DESC.KEYN (t : Nat) : Loc := ⟨0x1A00000 + 0x20 * t, 3, 7⟩
def TBL_FILL.USED (t : Nat) : Loc := ⟨0x1A00008 + 0x20 * t, 32, 32⟩
def TBL_FILL.MOVES (t : Nat) : Loc := ⟨0x1A00008 + 0x20 * t, 0, 32⟩
def TBL_AGE.REMOVED (t : Nat) : Loc := ⟨0x1A00010 + 0x20 * t, 32, 32⟩
def TBL_AGE.PERIOD (t : Nat) : Loc := ⟨0x1A00010 + 0x20 * t, 0, 16⟩
def TBL_ERRC.PARITY (t : Nat) : Loc := ⟨0x1A00018 + 0x20 * t, 32, 32⟩
def TBL_ERRC.REPAIRED (t : Nat) : Loc := ⟨0x1A00018 + 0x20 * t, 16, 16⟩
def TBL_ERRC.UNREPAIRED (t : Nat) : Loc := ⟨0x1A00018 + 0x20 * t, 0, 16⟩
def TBL_PLAN.HBASE (t : Nat) : Loc := ⟨0x1A02000 + 0x8 * t, 31, 33⟩
def TBL_PLAN.R (t : Nat) : Loc := ⟨0x1A02000 + 0x8 * t, 28, 3⟩
def TBL_PLAN.L (t : Nat) : Loc := ⟨0x1A02000 + 0x8 * t, 24, 4⟩
def TBL_PLAN.LEVELS (t : Nat) : Loc := ⟨0x1A02000 + 0x8 * t, 0, 24⟩
def TBL_TRIE.PLEN_MAX (t : Nat) : Loc := ⟨0x1A02800 + 0x8 * t, 0, 8⟩
def TBL_PROF.LEARN_SRC (k j : Nat) : Loc := ⟨0x1A03000 + 0x80 * k + 0x8 * j, 40, 10⟩
def TBL_PROF.OWN_EP (k j : Nat) : Loc := ⟨0x1A03000 + 0x80 * k + 0x8 * j, 39, 1⟩
def TBL_PROF.KEYN (k j : Nat) : Loc := ⟨0x1A03000 + 0x80 * k + 0x8 * j, 32, 7⟩
def TBL_PROF.LEVEL (k j : Nat) : Loc := ⟨0x1A03000 + 0x80 * k + 0x8 * j, 28, 4⟩
def TBL_PROF.OP (k j : Nat) : Loc := ⟨0x1A03000 + 0x80 * k + 0x8 * j, 20, 4⟩
def TBL_PROF.TABLE (k j : Nat) : Loc := ⟨0x1A03000 + 0x80 * k + 0x8 * j, 0, 8⟩
def TBL_LEARN.FULL : Loc := ⟨0x1A03200, 32, 16⟩
def TBL_LEARN.DUP : Loc := ⟨0x1A03200, 16, 16⟩
def TBL_LEARN.DEPTH : Loc := ⟨0x1A03200, 0, 14⟩
def TBL_PARITY_CAP.VALID : Loc := ⟨0x1A03208, 63, 1⟩
def TBL_PARITY_CAP.TIER : Loc := ⟨0x1A03208, 61, 2⟩
def TBL_PARITY_CAP.REPLICA : Loc := ⟨0x1A03208, 58, 3⟩
def TBL_PARITY_CAP.TABLE : Loc := ⟨0x1A03208, 50, 8⟩
def TBL_PARITY_CAP.KIND : Loc := ⟨0x1A03208, 49, 1⟩
def TBL_PARITY_CAP.LINE : Loc := ⟨0x1A03208, 10, 39⟩
def TBL_SETTLE.SETTLING : Loc := ⟨0x1A03210, 0, 1⟩
def TBL_POOL.V6_USED : Loc := ⟨0x1A03218, 32, 32⟩
def TBL_POOL.V4_USED : Loc := ⟨0x1A03218, 0, 32⟩
def TBL_LEARN_LOST.COUNT : Loc := ⟨0x1A03220, 0, 64⟩
def BUF_POOL.SHARED : Loc := ⟨0x1B00000, 40, 20⟩
def BUF_POOL.RESERVED : Loc := ⟨0x1B00000, 20, 20⟩
def BUF_POOL.FREE : Loc := ⟨0x1B00000, 0, 20⟩
def BUF_CLASS.SHARED_USED (c : Nat) : Loc := ⟨0x1B00100 + 0x8 * c, 20, 20⟩
def BUF_CLASS.SPILL (c : Nat) : Loc := ⟨0x1B00100 + 0x8 * c, 4, 2⟩
def BUF_CLASS.ALPHA (c : Nat) : Loc := ⟨0x1B00100 + 0x8 * c, 0, 4⟩
def BUF_SPILL_SIZE.HBM_BLOCKS : Loc := ⟨0x1B00200, 30, 28⟩
def BUF_SPILL_SIZE.FAR_EXTENTS : Loc := ⟨0x1B00200, 0, 30⟩
def BUF_SPILL_USED.HBM_BLOCKS : Loc := ⟨0x1B00208, 30, 28⟩
def BUF_SPILL_USED.FAR_EXTENTS : Loc := ⟨0x1B00208, 0, 30⟩
def BUF_SPILL_CTRL.REFILL_RES : Loc := ⟨0x1B00210, 16, 20⟩
def BUF_SPILL_CTRL.REFILL : Loc := ⟨0x1B00210, 0, 16⟩
def BUF_SPILL_RATE.HBM_OUT : Loc := ⟨0x1B00218, 48, 16⟩
def BUF_SPILL_RATE.FAR_OUT : Loc := ⟨0x1B00218, 32, 16⟩
def BUF_SPILL_RATE.REFILLED : Loc := ⟨0x1B00218, 16, 16⟩
def BUF_SPILL_RATE.WAITING : Loc := ⟨0x1B00218, 0, 16⟩
def BUF_ERR.DOUBLE_FREE : Loc := ⟨0x1B00300, 48, 16⟩
def BUF_ERR.OWNER : Loc := ⟨0x1B00300, 32, 16⟩
def BUF_ERR.UNCORR : Loc := ⟨0x1B00300, 16, 16⟩
def BUF_ERR.OVERRUN : Loc := ⟨0x1B00300, 0, 16⟩
def BUF_FREE_CAP.VALID : Loc := ⟨0x1B00308, 63, 1⟩
def BUF_FREE_CAP.KIND : Loc := ⟨0x1B00308, 62, 1⟩
def BUF_FREE_CAP.REQUESTER : Loc := ⟨0x1B00308, 50, 12⟩
def BUF_FREE_CAP.OWNER : Loc := ⟨0x1B00308, 38, 12⟩
def BUF_FREE_CAP.CELL : Loc := ⟨0x1B00308, 0, 20⟩
def BUF_ACCT.MIN (a : Nat) : Loc := ⟨0x1B01000 + 0x8 * a, 40, 20⟩
def BUF_ACCT.USED (a : Nat) : Loc := ⟨0x1B01000 + 0x8 * a, 20, 20⟩
def BUF_ACCT.PEAK (a : Nat) : Loc := ⟨0x1B01000 + 0x8 * a, 0, 20⟩
def BUF_WM.STATE (n : Nat) : Loc := ⟨0x1B04000 + 0x8 * n, 63, 1⟩
def BUF_WM.HIGH (n : Nat) : Loc := ⟨0x1B04000 + 0x8 * n, 28, 28⟩
def BUF_WM.LOW (n : Nat) : Loc := ⟨0x1B04000 + 0x8 * n, 0, 28⟩
def BUF_SU.CELLS (a c : Nat) : Loc := ⟨0x1B08000 + 0x40 * a + 0x8 * c, 0, 20⟩
def SWC_CUT.STOMPED : Loc := ⟨0x1C00008, 32, 32⟩
def SWC_CUT.STARTS : Loc := ⟨0x1C00008, 0, 32⟩
def SWC_HOLD.PEAK : Loc := ⟨0x1C00010, 8, 7⟩
def SWC_HOLD.NOW : Loc := ⟨0x1C00010, 0, 7⟩
def SWC_REPL.TRUNC : Loc := ⟨0x1C00100, 48, 16⟩
def SWC_REPL.SKIPPED : Loc := ⟨0x1C00100, 32, 16⟩
def SWC_REPL.TABLE : Loc := ⟨0x1C00100, 0, 8⟩
def SWC_REPL_LOST.COUNT : Loc := ⟨0x1C00108, 0, 64⟩
def SWC_REASON.LOST (r : Nat) : Loc := ⟨0x1C04000 + 0x8 * r, 32, 32⟩
def SWC_REASON.ENABLE (r : Nat) : Loc := ⟨0x1C04000 + 0x8 * r, 20, 1⟩
def SWC_REASON.CLASS (r : Nat) : Loc := ⟨0x1C04000 + 0x8 * r, 16, 3⟩
def SWC_REASON.QUEUE (r : Nat) : Loc := ⟨0x1C04000 + 0x8 * r, 0, 16⟩
def SWC_MIG_CTRL.MARKER_LIMIT : Loc := ⟨0x1C08000, 32, 16⟩
def SWC_MIG_CTRL.FENCE_LIMIT : Loc := ⟨0x1C08000, 16, 16⟩
def SWC_MIG_CTRL.ACTIVE : Loc := ⟨0x1C08000, 0, 9⟩
def SWC_MIG_LATE.COUNT : Loc := ⟨0x1C08008, 0, 64⟩
def SWC_MIG.STATE (i : Nat) : Loc := ⟨0x1C08100 + 0x8 * i, 61, 3⟩
def SWC_MIG.DEVICE (i : Nat) : Loc := ⟨0x1C08100 + 0x8 * i, 49, 12⟩
def SWC_MIG.MARKERS (i : Nat) : Loc := ⟨0x1C08100 + 0x8 * i, 41, 8⟩
def SWC_MIG.TARGET (i : Nat) : Loc := ⟨0x1C08100 + 0x8 * i, 36, 5⟩
def SWC_MIG.TKIND (i : Nat) : Loc := ⟨0x1C08100 + 0x8 * i, 35, 1⟩
def SWC_MIG.ENDPOINT (i : Nat) : Loc := ⟨0x1C08100 + 0x8 * i, 0, 20⟩
def SWC_DQ.VALID (q : Nat) : Loc := ⟨0x1C80000 + 0x8 * q, 63, 1⟩
def SWC_DQ.KIND (q : Nat) : Loc := ⟨0x1C80000 + 0x8 * q, 61, 2⟩
def SWC_DQ.DEFAULT_EP (q : Nat) : Loc := ⟨0x1C80000 + 0x8 * q, 40, 20⟩
def SWC_DQ.TARGET (q : Nat) : Loc := ⟨0x1C80000 + 0x8 * q, 0, 16⟩
def APR_BOUND.BOUND (c : Nat) : Loc := ⟨0x1D00000 + 0x8 * c, 0, 32⟩
def APR_CLASS.BOUNDED (c : Nat) : Loc := ⟨0x1D00040 + 0x8 * c, 63, 1⟩
def APR_CLASS.YCLASS (c : Nat) : Loc := ⟨0x1D00040 + 0x8 * c, 60, 3⟩
def APR_CLASS.BLOCK (c : Nat) : Loc := ⟨0x1D00040 + 0x8 * c, 40, 16⟩
def APR_CLASS.PAUSE_ALLOW (c : Nat) : Loc := ⟨0x1D00040 + 0x8 * c, 16, 24⟩
def APR_CLASS.HOPS (c : Nat) : Loc := ⟨0x1D00040 + 0x8 * c, 0, 4⟩
def APR_SPILL.NOM : Loc := ⟨0x1D00080, 48, 16⟩
def APR_SPILL.SLAT_FAR : Loc := ⟨0x1D00080, 32, 16⟩
def APR_SPILL.SLAT_HBM : Loc := ⟨0x1D00080, 16, 16⟩
def APR_XRATE.XRATE (c : Nat) : Loc := ⟨0x1D000C0 + 0x8 * c, 0, 24⟩
def APR_CMAP.MAP (m : Nat) : Loc := ⟨0x1D00100 + 0x8 * m, 0, 24⟩
def APR_ADMIT.COUNT (p : Nat) : Loc := ⟨0x1D00200 + 0x8 * p, 0, 64⟩
def APR_POLICE.COUNT (p : Nat) : Loc := ⟨0x1D00280 + 0x8 * p, 0, 64⟩
def APR_REFUSE.COUNT (p : Nat) : Loc := ⟨0x1D00300 + 0x8 * p, 0, 64⟩
def APR_VERSION.DRAIN : Loc := ⟨0x1D00400, 48, 16⟩
def APR_VERSION.STAGED : Loc := ⟨0x1D00400, 20, 4⟩
def APR_VERSION.STAGE_OPEN : Loc := ⟨0x1D00400, 19, 1⟩
def APR_VERSION.LIVE : Loc := ⟨0x1D00400, 16, 3⟩
def APR_VERSION.COMMIT_WAIT : Loc := ⟨0x1D00400, 12, 1⟩
def APR_VERSION.OLDEST : Loc := ⟨0x1D00400, 4, 4⟩
def APR_VERSION.CURRENT : Loc := ⟨0x1D00400, 0, 4⟩
def APR_BREACH.COUNT (c k : Nat) : Loc := ⟨0x1D00500 + 0x20 * c + 0x8 * k, 0, 64⟩
def APR_BQ.RECORD (i : Nat) : Loc := ⟨0x1D00600 + 0x8 * i, 0, 64⟩
def APR_BQ_LOST.COUNT : Loc := ⟨0x1D00610, 0, 64⟩
def APR_BQ_STAT.DEPTH : Loc := ⟨0x1D00618, 0, 11⟩
def APR_ERR.LATE : Loc := ⟨0x1D00620, 32, 32⟩
def APR_ERR.SCOPE : Loc := ⟨0x1D00620, 0, 32⟩
def APR_SRC.EP_BASE (s : Nat) : Loc := ⟨0x1D01000 + 0x8 * s, 44, 20⟩
def APR_SRC.EMODE (s : Nat) : Loc := ⟨0x1D01000 + 0x8 * s, 42, 2⟩
def APR_SRC.CSRC (s : Nat) : Loc := ⟨0x1D01000 + 0x8 * s, 40, 2⟩
def APR_SRC.CMAP (s : Nat) : Loc := ⟨0x1D01000 + 0x8 * s, 36, 4⟩
def APR_SRC.DEFCLASS (s : Nat) : Loc := ⟨0x1D01000 + 0x8 * s, 33, 3⟩
def APR_RES.FABRIC (r : Nat) : Loc := ⟨0x1D08000 + 0x10 * r, 63, 1⟩
def APR_RES.EGS (r : Nat) : Loc := ⟨0x1D08000 + 0x10 * r, 55, 8⟩
def APR_RES.E_OUT_MAX (r : Nat) : Loc := ⟨0x1D08000 + 0x10 * r, 44, 11⟩
def APR_RES.CRYPTO (r : Nat) : Loc := ⟨0x1D08000 + 0x10 * r, 41, 1⟩
def APR_RES.FENCE_EXP (r : Nat) : Loc := ⟨0x1D08000 + 0x10 * r, 40, 1⟩
def APR_RES.RATE (r : Nat) : Loc := ⟨0x1D08000 + 0x10 * r, 0, 24⟩
def APR_RES_ST.REFUSED (r : Nat) : Loc := ⟨0x1D08008 + 0x10 * r, 48, 16⟩
def APR_RES_ST.VC (r : Nat) : Loc := ⟨0x1D08008 + 0x10 * r, 0, 48⟩
def COL_STARVE_LIMIT.CLASS_EN : Loc := ⟨0x1E00000, 24, 8⟩
def COL_STARVE_LIMIT.LIMIT : Loc := ⟨0x1E00000, 0, 16⟩
def COL_ERR.CLASS_MIX : Loc := ⟨0x1E00008, 32, 32⟩
def COL_ERR.PROMOTED : Loc := ⟨0x1E00008, 0, 32⟩
def COL_CLASS.URGENT (c : Nat) : Loc := ⟨0x1E00040 + 0x8 * c, 32, 24⟩
def COL_CLASS.PRIO (c : Nat) : Loc := ⟨0x1E00040 + 0x8 * c, 0, 3⟩
def COL_PROFILE.OVERHEAD (j : Nat) : Loc := ⟨0x1E00100 + 0x8 * j, 0, 7⟩
def COL_OUT.PROFILE (o : Nat) : Loc := ⟨0x1E01000 + 0x8 * o, 60, 4⟩
def COL_OUT.SHAPE (o : Nat) : Loc := ⟨0x1E01000 + 0x8 * o, 32, 28⟩
def COL_OUT.CAP (o : Nat) : Loc := ⟨0x1E01000 + 0x8 * o, 0, 28⟩
def COL_OC_RATE.MAX (o c : Nat) : Loc := ⟨0x1E04000 + 0x80 * o + 0x10 * c, 28, 28⟩
def COL_OC_RATE.RES (o c : Nat) : Loc := ⟨0x1E04000 + 0x80 * o + 0x10 * c, 0, 28⟩
def COL_OC_BURST.MAX_BURST (o c : Nat) : Loc := ⟨0x1E04008 + 0x80 * o + 0x10 * c, 20, 20⟩
def COL_OC_BURST.RES_BURST (o c : Nat) : Loc := ⟨0x1E04008 + 0x80 * o + 0x10 * c, 0, 20⟩
def COL_GATE.PENDING (o : Nat) : Loc := ⟨0x1E08000 + 0x10 * o, 63, 1⟩
def COL_GATE.ACTIVE (o : Nat) : Loc := ⟨0x1E08000 + 0x10 * o, 62, 1⟩
def COL_GATE.STATE (o : Nat) : Loc := ⟨0x1E08000 + 0x10 * o, 54, 8⟩
def COL_GATE.ENTRY (o : Nat) : Loc := ⟨0x1E08000 + 0x10 * o, 44, 10⟩
def COL_GATE_CHANGE.CHANGE (o : Nat) : Loc := ⟨0x1E08008 + 0x10 * o, 0, 48⟩
def MIR_SESSION.VALID (s : Nat) : Loc := ⟨0x1F00000 + 0x10 * s, 63, 1⟩
def MIR_SESSION.KIND (s : Nat) : Loc := ⟨0x1F00000 + 0x10 * s, 61, 2⟩
def MIR_SESSION.CLASS (s : Nat) : Loc := ⟨0x1F00000 + 0x10 * s, 58, 3⟩
def MIR_SESSION.SHIFT (s : Nat) : Loc := ⟨0x1F00000 + 0x10 * s, 54, 4⟩
def MIR_SESSION.TRUNC (s : Nat) : Loc := ⟨0x1F00000 + 0x10 * s, 48, 6⟩
def MIR_SESSION.INDEX (s : Nat) : Loc := ⟨0x1F00000 + 0x10 * s, 0, 32⟩
def MIR_LOST.COUNT (s : Nat) : Loc := ⟨0x1F00008 + 0x10 * s, 0, 64⟩
def MIR_RING.VALID (k : Nat) : Loc := ⟨0x1F01000 + 0x20 * k, 63, 1⟩
def MIR_RING.STOP (k : Nat) : Loc := ⟨0x1F01000 + 0x20 * k, 62, 1⟩
def MIR_RING.EXTENTS (k : Nat) : Loc := ⟨0x1F01000 + 0x20 * k, 29, 21⟩
def MIR_RING.BASE (k : Nat) : Loc := ⟨0x1F01000 + 0x20 * k, 0, 29⟩
def MIR_RING_PTR.SEQ (k : Nat) : Loc := ⟨0x1F01008 + 0x20 * k, 32, 32⟩
def MIR_RING_PTR.OFFSET (k : Nat) : Loc := ⟨0x1F01008 + 0x20 * k, 0, 31⟩
def MIR_RING_CONS.OFFSET (k : Nat) : Loc := ⟨0x1F01010 + 0x20 * k, 0, 31⟩
def MAC_CFG.MAXF (n : Nat) : Loc := ⟨0x2000000 + 0x4000 * n, 36, 14⟩
def MAC_CFG.AN (n : Nat) : Loc := ⟨0x2000000 + 0x4000 * n, 28, 1⟩
def MAC_CFG.FEC (n : Nat) : Loc := ⟨0x2000000 + 0x4000 * n, 26, 2⟩
def MAC_CFG.W2 (n : Nat) : Loc := ⟨0x2000000 + 0x4000 * n, 25, 1⟩
def MAC_CFG.LANE (n : Nat) : Loc := ⟨0x2000000 + 0x4000 * n, 24, 1⟩
def MAC_CFG.SPEED (n : Nat) : Loc := ⟨0x2000000 + 0x4000 * n, 20, 4⟩
def MAC_STATUS.DOWNS (n : Nat) : Loc := ⟨0x2000008 + 0x4000 * n, 32, 16⟩
def MAC_STATUS.REMOTE_FAULT (n : Nat) : Loc := ⟨0x2000008 + 0x4000 * n, 7, 1⟩
def MAC_STATUS.LOCAL_FAULT (n : Nat) : Loc := ⟨0x2000008 + 0x4000 * n, 6, 1⟩
def MAC_STATUS.ALIGNED (n : Nat) : Loc := ⟨0x2000008 + 0x4000 * n, 5, 1⟩
def MAC_STATUS.LINK (n : Nat) : Loc := ⟨0x2000008 + 0x4000 * n, 4, 1⟩
def MAC_ADDR.ADDR (n : Nat) : Loc := ⟨0x2000010 + 0x4000 * n, 0, 48⟩
def MAC_TAG.TPID_X (n : Nat) : Loc := ⟨0x2000018 + 0x4000 * n, 48, 16⟩
def MAC_TAG.STRIP (n : Nat) : Loc := ⟨0x2000018 + 0x4000 * n, 46, 2⟩
def MAC_TAG.INSERT (n : Nat) : Loc := ⟨0x2000018 + 0x4000 * n, 44, 2⟩
def MAC_TAG.PCP_CLASS (n : Nat) : Loc := ⟨0x2000018 + 0x4000 * n, 43, 1⟩
def MAC_TAG.PCP (n : Nat) : Loc := ⟨0x2000018 + 0x4000 * n, 40, 3⟩
def MAC_TAG.DEI (n : Nat) : Loc := ⟨0x2000018 + 0x4000 * n, 39, 1⟩
def MAC_TAG.VID (n : Nat) : Loc := ⟨0x2000018 + 0x4000 * n, 16, 12⟩
def MAC_FC.MODE (n : Nat) : Loc := ⟨0x2000020 + 0x4000 * n, 62, 2⟩
def MAC_FC.TX_PRIO (n : Nat) : Loc := ⟨0x2000020 + 0x4000 * n, 48, 8⟩
def MAC_FC.REFRESH (n : Nat) : Loc := ⟨0x2000020 + 0x4000 * n, 32, 16⟩
def MAC_FC.QUANTA (n : Nat) : Loc := ⟨0x2000020 + 0x4000 * n, 16, 16⟩
def MAC_PFC_MAP.RX (n : Nat) : Loc := ⟨0x2000028 + 0x4000 * n, 0, 64⟩
def MAC_PREEMPT.EN (n : Nat) : Loc := ⟨0x2000030 + 0x4000 * n, 63, 1⟩
def MAC_PREEMPT.VERIFY_DIS (n : Nat) : Loc := ⟨0x2000030 + 0x4000 * n, 62, 1⟩
def MAC_PREEMPT.VSTATUS (n : Nat) : Loc := ⟨0x2000030 + 0x4000 * n, 59, 3⟩
def MAC_PREEMPT.PMASK (n : Nat) : Loc := ⟨0x2000030 + 0x4000 * n, 48, 8⟩
def MAC_PREEMPT.VERIFY_TIME (n : Nat) : Loc := ⟨0x2000030 + 0x4000 * n, 40, 8⟩
def MAC_PREEMPT.ADD_FRAG (n : Nat) : Loc := ⟨0x2000030 + 0x4000 * n, 38, 2⟩
def MAC_PREEMPT.HOLD_ADV (n : Nat) : Loc := ⟨0x2000030 + 0x4000 * n, 28, 10⟩
def MAC_PTP.RX_DELAY (n : Nat) : Loc := ⟨0x2000038 + 0x4000 * n, 32, 16⟩
def MAC_PTP.TX_DELAY (n : Nat) : Loc := ⟨0x2000038 + 0x4000 * n, 16, 16⟩
def MAC_PTP.ONE_STEP (n : Nat) : Loc := ⟨0x2000038 + 0x4000 * n, 12, 4⟩
def MAC_PTP.TWO_STEP (n : Nat) : Loc := ⟨0x2000038 + 0x4000 * n, 8, 4⟩
def MAC_PTP_LOST.COUNT (n : Nat) : Loc := ⟨0x2000050 + 0x4000 * n, 0, 64⟩
def MAC_CNT.COUNT (n k : Nat) : Loc := ⟨0x2000100 + 0x4000 * n + 0x8 * k, 0, 64⟩
def MAC_WAKE.EN : Loc := ⟨0x2180000, 8, 1⟩
def MAC_WAKE.TABLE : Loc := ⟨0x2180000, 0, 8⟩
def MAC_WAKE_CNT.COUNT : Loc := ⟨0x2180008, 0, 64⟩
def SEC_MSEC_PORT.EN (n : Nat) : Loc := ⟨0x2200000 + 0x8 * n, 63, 1⟩
def SEC_MSEC_PORT.XPN (n : Nat) : Loc := ⟨0x2200000 + 0x8 * n, 62, 1⟩
def SEC_MSEC_PORT.CONF (n : Nat) : Loc := ⟨0x2200000 + 0x8 * n, 61, 1⟩
def SEC_MSEC_PORT.SCI_INC (n : Nat) : Loc := ⟨0x2200000 + 0x8 * n, 60, 1⟩
def SEC_MSEC_PORT.TX_AN (n : Nat) : Loc := ⟨0x2200000 + 0x8 * n, 58, 2⟩
def SEC_MSEC_CFG.WARN : Loc := ⟨0x2200400, 0, 32⟩
def SEC_MSA_STAGE.VALUE (j : Nat) : Loc := ⟨0x2200800 + 0x8 * j, 0, 64⟩
def SEC_MSA_CMD.GO : Loc := ⟨0x2200840, 63, 1⟩
def SEC_MSA_CMD.OP : Loc := ⟨0x2200840, 61, 2⟩
def SEC_MSA_CMD.DIR : Loc := ⟨0x2200840, 60, 1⟩
def SEC_MSA_CMD.SC : Loc := ⟨0x2200840, 58, 2⟩
def SEC_MSA_CMD.AN : Loc := ⟨0x2200840, 56, 2⟩
def SEC_MSA_CMD.PORT : Loc := ⟨0x2200840, 49, 7⟩
def SEC_MSA_CMD.ERROR : Loc := ⟨0x2200840, 48, 1⟩
def SEC_MSA_CMD.WINDOW : Loc := ⟨0x2200840, 0, 32⟩
def SEC_EDIT.SA_TABLE : Loc := ⟨0x2208000, 16, 8⟩
def SEC_EDIT.TPL_TABLE : Loc := ⟨0x2208000, 8, 8⟩
def SEC_EDIT.LIST_TABLE : Loc := ⟨0x2208000, 0, 8⟩
def SEC_EDIT_CAP.VALID : Loc := ⟨0x2208008, 63, 1⟩
def SEC_EDIT_CAP.REASON : Loc := ⟨0x2208008, 56, 7⟩
def SEC_EDIT_CAP.PRISM : Loc := ⟨0x2208008, 52, 4⟩
def SEC_EDIT_CAP.OP : Loc := ⟨0x2208008, 49, 3⟩
def SEC_EDIT_CAP.LIST : Loc := ⟨0x2208008, 33, 16⟩
def IRIS_CTRL.LANES_EN (i : Nat) : Loc := ⟨0x2300000 + 0x4000 * i, 12, 4⟩
def IRIS_CTRL.WIDTH_MAX (i : Nat) : Loc := ⟨0x2300000 + 0x4000 * i, 8, 2⟩
def IRIS_CTRL.AUTO (i : Nat) : Loc := ⟨0x2300000 + 0x4000 * i, 1, 1⟩
def IRIS_CTRL.ENABLE (i : Nat) : Loc := ⟨0x2300000 + 0x4000 * i, 0, 1⟩
def IRIS_STATUS.LANES_OK (i : Nat) : Loc := ⟨0x2300008 + 0x4000 * i, 44, 4⟩
def IRIS_STATUS.LANES_ACT (i : Nat) : Loc := ⟨0x2300008 + 0x4000 * i, 40, 4⟩
def IRIS_STATUS.STATE (i : Nat) : Loc := ⟨0x2300008 + 0x4000 * i, 37, 3⟩
def IRIS_STATUS.WIDTH (i : Nat) : Loc := ⟨0x2300008 + 0x4000 * i, 35, 2⟩
def IRIS_STATUS.PEER_VALID (i : Nat) : Loc := ⟨0x2300008 + 0x4000 * i, 34, 1⟩
def IRIS_STATUS.PEER_ADDR (i : Nat) : Loc := ⟨0x2300008 + 0x4000 * i, 22, 12⟩
def IRIS_PEER.UID (i : Nat) : Loc := ⟨0x2300010 + 0x4000 * i, 0, 64⟩
def IRIS_CREDIT.LIMIT (i : Nat) : Loc := ⟨0x2300018 + 0x4000 * i, 32, 12⟩
def IRIS_CREDIT.AVAIL (i : Nat) : Loc := ⟨0x2300018 + 0x4000 * i, 16, 16⟩
def IRIS_CREDIT.HELD (i : Nat) : Loc := ⟨0x2300018 + 0x4000 * i, 0, 16⟩
def IRIS_RETRY.QUEUED (i : Nat) : Loc := ⟨0x2300020 + 0x4000 * i, 32, 12⟩
def IRIS_RETRY.BUDGET (i : Nat) : Loc := ⟨0x2300020 + 0x4000 * i, 16, 16⟩
def IRIS_RETRY.ACK_TIMEOUT (i : Nat) : Loc := ⟨0x2300020 + 0x4000 * i, 0, 16⟩
def IRIS_ERR.CRC (i : Nat) : Loc := ⟨0x2300028 + 0x4000 * i, 48, 16⟩
def IRIS_ERR.REWINDS (i : Nat) : Loc := ⟨0x2300028 + 0x4000 * i, 32, 16⟩
def IRIS_ERR.MISSED (i : Nat) : Loc := ⟨0x2300028 + 0x4000 * i, 16, 16⟩
def IRIS_ERR.DOWNS (i : Nat) : Loc := ⟨0x2300028 + 0x4000 * i, 0, 16⟩
def IRIS_DOWN_CAP.VALID (i : Nat) : Loc := ⟨0x2300030 + 0x4000 * i, 63, 1⟩
def IRIS_DOWN_CAP.CAUSE (i : Nat) : Loc := ⟨0x2300030 + 0x4000 * i, 59, 4⟩
def IRIS_DOWN_CAP.WIDTH (i : Nat) : Loc := ⟨0x2300030 + 0x4000 * i, 57, 2⟩
def IRIS_DOWN_CAP.GASP_CAUSE (i : Nat) : Loc := ⟨0x2300030 + 0x4000 * i, 56, 1⟩
def IRIS_DOWN_CAP.TIME (i : Nat) : Loc := ⟨0x2300030 + 0x4000 * i, 0, 48⟩
def IRIS_LANE.THRESH (i : Nat) : Loc := ⟨0x2300038 + 0x4000 * i, 0, 16⟩
def FAB_CFG.TIME_PRIO : Loc := ⟨0x2400000, 16, 8⟩
def FAB_CFG.CONFIGURED : Loc := ⟨0x2400000, 12, 1⟩
def FAB_CFG.ADDR : Loc := ⟨0x2400000, 0, 12⟩
def FAB_ADDR.STATE : Loc := ⟨0x2400008, 14, 2⟩
def FAB_ADDR.CLAIMED : Loc := ⟨0x2400008, 12, 1⟩
def FAB_ADDR.ADDR : Loc := ⟨0x2400008, 0, 12⟩
def FAB_TOPO.EPOCH : Loc := ⟨0x2400010, 48, 16⟩
def FAB_TOPO.REACHABLE : Loc := ⟨0x2400010, 16, 13⟩
def FAB_TOPO.CHANGES : Loc := ⟨0x2400010, 0, 16⟩
def FAB_SPRAY.EPOCH : Loc := ⟨0x2400018, 0, 16⟩
def FAB_REORDER.GAP_LIMIT : Loc := ⟨0x2400020, 32, 16⟩
def FAB_REORDER.TIMEOUT : Loc := ⟨0x2400020, 0, 16⟩
def FAB_TIME.LOCKED : Loc := ⟨0x2400028, 63, 1⟩
def FAB_TIME.HOPS : Loc := ⟨0x2400028, 59, 4⟩
def FAB_TIME.MASTER : Loc := ⟨0x2400028, 47, 12⟩
def FAB_TIME.PARENT : Loc := ⟨0x2400028, 41, 6⟩
def FAB_TIME.OFFSET : Loc := ⟨0x2400028, 0, 32⟩
def FAB_ERR.DUP : Loc := ⟨0x2400030, 48, 16⟩
def FAB_ERR.OVERRUN : Loc := ⟨0x2400030, 32, 16⟩
def FAB_ERR.EXPIRED : Loc := ⟨0x2400030, 16, 16⟩
def FAB_ERR.NOSTREAM : Loc := ⟨0x2400030, 0, 16⟩
def FAB_LOSS.TIMEOUTS : Loc := ⟨0x2400038, 48, 16⟩
def FAB_LOSS.NOROUTE : Loc := ⟨0x2400038, 32, 16⟩
def FAB_LOSS.RESPRAYED : Loc := ⟨0x2400038, 16, 16⟩
def FAB_LOSS.NOADDR : Loc := ⟨0x2400038, 0, 16⟩
def FAB_NH.MASK (d : Nat) : Loc := ⟨0x2408000 + 0x8 * d, 0, 64⟩
def FAB_DEST.REACH (d : Nat) : Loc := ⟨0x2410000 + 0x8 * d, 63, 1⟩
def FAB_DEST.HOPS (d : Nat) : Loc := ⟨0x2410000 + 0x8 * d, 59, 4⟩
def FAB_DEST.COUNT (d : Nat) : Loc := ⟨0x2410000 + 0x8 * d, 54, 5⟩
def FAB_DEST.PTR (d : Nat) : Loc := ⟨0x2410000 + 0x8 * d, 48, 6⟩
def FAB_DEST.EPOCH (d : Nat) : Loc := ⟨0x2410000 + 0x8 * d, 32, 16⟩
def HBM_CFG.AGE_LIMIT : Loc := ⟨0x2500000, 40, 8⟩
def HBM_CFG.GRAIN : Loc := ⟨0x2500000, 32, 3⟩
def HBM_CFG.FWD_LINES : Loc := ⟨0x2500000, 0, 25⟩
def HBM_STACK.RETRAINS (s : Nat) : Loc := ⟨0x2500100 + 0x8 * s, 48, 16⟩
def HBM_STACK.BLOCKED (s : Nat) : Loc := ⟨0x2500100 + 0x8 * s, 32, 16⟩
def HBM_STACK.LAST (s : Nat) : Loc := ⟨0x2500100 + 0x8 * s, 16, 16⟩
def HBM_STACK.STATE (s : Nat) : Loc := ⟨0x2500100 + 0x8 * s, 0, 2⟩
def HBM_ECC.CORRECTED (s : Nat) : Loc := ⟨0x2500200 + 0x8 * s, 32, 32⟩
def HBM_ECC.UNCORRECTED (s : Nat) : Loc := ⟨0x2500200 + 0x8 * s, 16, 16⟩
def HBM_ECC.PASSES (s : Nat) : Loc := ⟨0x2500200 + 0x8 * s, 0, 16⟩
def HBM_SKEW_CFG.WINDOWS : Loc := ⟨0x2500300, 16, 8⟩
def HBM_SKEW_CFG.THRESH : Loc := ⟨0x2500300, 0, 16⟩
def HBM_SKEW_STAT.ACTIVE : Loc := ⟨0x2500308, 63, 1⟩
def HBM_SKEW_STAT.PC : Loc := ⟨0x2500308, 40, 8⟩
def HBM_SKEW_STAT.RATIO : Loc := ⟨0x2500308, 24, 16⟩
def HBM_SCRUB.PERIOD : Loc := ⟨0x2500310, 0, 16⟩
def HBM_REPL.GROUPS (t : Nat) : Loc := ⟨0x2501000 + 0x8 * t, 0, 8⟩
def FAR_PORT.UP (f : Nat) : Loc := ⟨0x2600000 + 0x1000 * f, 63, 1⟩
def FAR_PORT.WIDTH (f : Nat) : Loc := ⟨0x2600000 + 0x1000 * f, 54, 4⟩
def FAR_PORT.RATE (f : Nat) : Loc := ⟨0x2600000 + 0x1000 * f, 52, 2⟩
def FAR_PORT.CAPACITY (f : Nat) : Loc := ⟨0x2600000 + 0x1000 * f, 28, 12⟩
def FAR_SPILL.EXTENTS (f : Nat) : Loc := ⟨0x2600008 + 0x1000 * f, 32, 26⟩
def FAR_SPILL.BASE (f : Nat) : Loc := ⟨0x2600008 + 0x1000 * f, 0, 25⟩
def FAR_LAT.PEAK (f : Nat) : Loc := ⟨0x2600010 + 0x1000 * f, 16, 16⟩
def FAR_LAT.MEAN (f : Nat) : Loc := ⟨0x2600010 + 0x1000 * f, 0, 16⟩
def FAR_ERR.POISON (f : Nat) : Loc := ⟨0x2600018 + 0x1000 * f, 48, 16⟩
def FAR_ERR.FAILED (f : Nat) : Loc := ⟨0x2600018 + 0x1000 * f, 32, 16⟩
def FAR_ERR.NOTAG (f : Nat) : Loc := ⟨0x2600018 + 0x1000 * f, 16, 16⟩
def FAR_ERR.DOWNS (f : Nat) : Loc := ⟨0x2600018 + 0x1000 * f, 0, 16⟩
def FAR_TAGS.WINDOW (f : Nat) : Loc := ⟨0x2600020 + 0x1000 * f, 16, 11⟩
def FAR_TAGS.TOTAL (f : Nat) : Loc := ⟨0x2600020 + 0x1000 * f, 0, 13⟩
def HOST_CFG.WAKE_VEC : Loc := ⟨0x2700000, 31, 11⟩
def HOST_CFG.PARK_REASON : Loc := ⟨0x2700000, 24, 7⟩
def HOST_CFG.RETRY : Loc := ⟨0x2700000, 16, 8⟩
def HOST_CFG.CTO : Loc := ⟨0x2700000, 0, 7⟩
def HOST_TAGS.DMA_MAX : Loc := ⟨0x2700008, 32, 15⟩
def HOST_TAGS.PEAK : Loc := ⟨0x2700008, 16, 15⟩
def HOST_TAGS.IN_USE : Loc := ⟨0x2700008, 0, 15⟩
def HOST_LINK.BIF (x : Nat) : Loc := ⟨0x2700010 + 0x8 * x, 15, 1⟩
def HOST_LINK.RATE_B (x : Nat) : Loc := ⟨0x2700010 + 0x8 * x, 12, 3⟩
def HOST_LINK.WIDTH_B (x : Nat) : Loc := ⟨0x2700010 + 0x8 * x, 7, 5⟩
def HOST_LINK.RATE_A (x : Nat) : Loc := ⟨0x2700010 + 0x8 * x, 4, 3⟩
def HOST_LINKW.WIDTH_A (x : Nat) : Loc := ⟨0x2700020 + 0x8 * x, 0, 5⟩
def HOST_ERR.CTO : Loc := ⟨0x2700030, 48, 16⟩
def HOST_ERR.POISON_TX : Loc := ⟨0x2700030, 32, 16⟩
def HOST_ERR.DOORBELL : Loc := ⟨0x2700030, 16, 16⟩
def HOST_ERR.SEQ : Loc := ⟨0x2700030, 0, 16⟩
def HOST_Q.ENABLE (q : Nat) : Loc := ⟨0x2740000 + 0x10 * q, 63, 1⟩
def HOST_Q.DIR (q : Nat) : Loc := ⟨0x2740000 + 0x10 * q, 62, 1⟩
def HOST_Q.NS (q : Nat) : Loc := ⟨0x2740000 + 0x10 * q, 61, 1⟩
def HOST_Q.RO (q : Nat) : Loc := ⟨0x2740000 + 0x10 * q, 60, 1⟩
def HOST_Q.EP (q : Nat) : Loc := ⟨0x2740000 + 0x10 * q, 59, 1⟩
def HOST_Q.FUNC (q : Nat) : Loc := ⟨0x2740000 + 0x10 * q, 46, 13⟩
def HOST_Q.SIZE (q : Nat) : Loc := ⟨0x2740000 + 0x10 * q, 42, 4⟩
def HOST_Q.BUF (q : Nat) : Loc := ⟨0x2740000 + 0x10 * q, 40, 2⟩
def HOST_Q.GROUP (q : Nat) : Loc := ⟨0x2740000 + 0x10 * q, 32, 8⟩
def HOST_Q.VEC (q : Nat) : Loc := ⟨0x2740000 + 0x10 * q, 21, 11⟩
def HOST_Q.MOD_CNT (q : Nat) : Loc := ⟨0x2740000 + 0x10 * q, 13, 8⟩
def HOST_Q.MOD_TIME (q : Nat) : Loc := ⟨0x2740000 + 0x10 * q, 5, 8⟩
def HOST_QBASE.BASE (q : Nat) : Loc := ⟨0x2740008 + 0x10 * q, 12, 52⟩
def HOST_QSTAT.STOPPED (q : Nat) : Loc := ⟨0x2780000 + 0x8 * q, 63, 1⟩
def HOST_QSTAT.BUSY (q : Nat) : Loc := ⟨0x2780000 + 0x8 * q, 62, 1⟩
def HOST_QSTAT.ERROR (q : Nat) : Loc := ⟨0x2780000 + 0x8 * q, 60, 2⟩
def HOST_QSTAT.T (q : Nat) : Loc := ⟨0x2780000 + 0x8 * q, 16, 16⟩
def HOST_QSTAT.C (q : Nat) : Loc := ⟨0x2780000 + 0x8 * q, 0, 16⟩
def HOST_WAKE.VF (w : Nat) : Loc := ⟨0x27A0000 + 0x8 * w, 0, 64⟩
def DMA_RING.BASE : Loc := ⟨0x2800000, 12, 52⟩
def DMA_RING.ENABLE : Loc := ⟨0x2800000, 9, 1⟩
def DMA_RING.EP : Loc := ⟨0x2800000, 8, 1⟩
def DMA_RING.SIZE : Loc := ⟨0x2800000, 4, 4⟩
def DMA_DB.P : Loc := ⟨0x2800008, 0, 16⟩
def DMA_STAT.STOPPED : Loc := ⟨0x2800010, 63, 1⟩
def DMA_STAT.ERROR : Loc := ⟨0x2800010, 61, 2⟩
def DMA_STAT.RUNNING : Loc := ⟨0x2800010, 32, 4⟩
def DMA_STAT.T : Loc := ⟨0x2800010, 16, 16⟩
def DMA_STAT.C : Loc := ⟨0x2800010, 0, 16⟩
def DMA_CFG.INFLIGHT : Loc := ⟨0x2800018, 0, 4⟩
def DMA_CAP.VALID : Loc := ⟨0x2800020, 63, 1⟩
def DMA_CAP.REASON : Loc := ⟨0x2800020, 60, 3⟩
def DMA_CAP.NUMBER : Loc := ⟨0x2800020, 0, 16⟩
def CNT_EXPOSE.BUSY : Loc := ⟨0x2900000, 63, 1⟩
def CNT_EXPOSE.PARTIAL : Loc := ⟨0x2900000, 62, 1⟩
def CNT_EXPOSE.NREG : Loc := ⟨0x2900000, 32, 16⟩
def CNT_EXPOSE.ID : Loc := ⟨0x2900000, 0, 32⟩
def CNT_EXPOSE_T.T : Loc := ⟨0x2900008, 0, 48⟩
def CNT_PROBE.VALID : Loc := ⟨0x2900010, 63, 1⟩
def CNT_PROBE.WRAP : Loc := ⟨0x2900010, 62, 1⟩
def CNT_PROBE.KIND : Loc := ⟨0x2900010, 61, 1⟩
def CNT_PROBE.HALF : Loc := ⟨0x2900010, 60, 1⟩
def CNT_PROBE.ADDR : Loc := ⟨0x2900010, 0, 48⟩
def CNT_PROBE_VAL.VALUE : Loc := ⟨0x2900018, 0, 64⟩
def CNT_STORE.COUNT16 : Loc := ⟨0x2900020, 44, 20⟩
def CNT_STORE.BASE : Loc := ⟨0x2900020, 0, 22⟩
def CNT_ERR.RANGE : Loc := ⟨0x2900028, 32, 32⟩
def CNT_PROF.BASE (j : Nat) : Loc := ⟨0x2900100 + 0x8 * j, 41, 20⟩
def CNT_PROF.LIMIT (j : Nat) : Loc := ⟨0x2900100 + 0x8 * j, 20, 21⟩
def CNT_PROF.SET (j : Nat) : Loc := ⟨0x2900100 + 0x8 * j, 16, 4⟩
def CNT_PROF.SRC (j : Nat) : Loc := ⟨0x2900100 + 0x8 * j, 13, 3⟩
def CNT_PROF.ILEN (j : Nat) : Loc := ⟨0x2900100 + 0x8 * j, 10, 3⟩
def CNT_PROF.VADDR (j : Nat) : Loc := ⟨0x2900100 + 0x8 * j, 0, 10⟩
def CNT_REASON.COUNT (r : Nat) : Loc := ⟨0x2901000 + 0x8 * r, 0, 64⟩
def CNT_LOUPE_CTRL.EN : Loc := ⟨0x2902000, 63, 1⟩
def CNT_LOUPE_CTRL.SVC : Loc := ⟨0x2902000, 62, 1⟩
def CNT_LOUPE_CTRL.EP_EN : Loc := ⟨0x2902000, 61, 1⟩
def CNT_LOUPE_CTRL.SHIFT : Loc := ⟨0x2902000, 56, 4⟩
def CNT_LOUPE_CTRL.PRISMS : Loc := ⟨0x2902000, 40, 16⟩
def CNT_LOUPE_CTRL.EP : Loc := ⟨0x2902000, 0, 20⟩
def CNT_LOUPE.SAMPLE (i : Nat) : Loc := ⟨0x2902008 + 0x8 * i, 0, 64⟩
def CNT_LOUPE_LOST.COUNT : Loc := ⟨0x2902020, 0, 64⟩
def CNT_LOUPE_STAT.DEPTH : Loc := ⟨0x2902028, 0, 13⟩
def CNT_XRING.BASE : Loc := ⟨0x2903000, 12, 52⟩
def CNT_XRING.EN : Loc := ⟨0x2903000, 11, 1⟩
def CNT_XRING.EP : Loc := ⟨0x2903000, 10, 1⟩
def CNT_XRING.PF : Loc := ⟨0x2903000, 7, 3⟩
def CNT_XRING.SIZE : Loc := ⟨0x2903000, 3, 4⟩
def CNT_XRING_CONS.CONS : Loc := ⟨0x2903008, 0, 16⟩
def BIST_CTRL.WINDOW : Loc := ⟨0x2A00000, 8, 1⟩
def BIST_CTRL.START : Loc := ⟨0x2A00000, 4, 1⟩
def BIST_CTRL.PLAN : Loc := ⟨0x2A00000, 0, 4⟩
def BIST_STATUS.FAILS : Loc := ⟨0x2A00008, 32, 16⟩
def BIST_STATUS.UNIT : Loc := ⟨0x2A00008, 16, 16⟩
def BIST_STATUS.READY : Loc := ⟨0x2A00008, 7, 1⟩
def BIST_STATUS.STATE : Loc := ⟨0x2A00008, 0, 4⟩
def BIST_SAVE.SIZE : Loc := ⟨0x2A00010, 48, 16⟩
def BIST_SAVE.BASE : Loc := ⟨0x2A00010, 0, 48⟩
def BIST_RESULT.RUNS (u : Nat) : Loc := ⟨0x2A01000 + 0x8 * u, 8, 8⟩
def BIST_RESULT.RESULT (u : Nat) : Loc := ⟨0x2A01000 + 0x8 * u, 0, 2⟩
def BIST_SIG.SIG (u : Nat) : Loc := ⟨0x2A02000 + 0x8 * u, 0, 64⟩
def MCODE_VERSION.VERSION (b : Nat) : Loc := ⟨0x2B00000 + 0x8 * b, 32, 32⟩
def MCODE_VERSION.PATCH_LEVEL (b : Nat) : Loc := ⟨0x2B00000 + 0x8 * b, 16, 16⟩
def MCODE_VERSION.LOADED (b : Nat) : Loc := ⟨0x2B00000 + 0x8 * b, 0, 1⟩
def MCODE_ACTIVE.DRAINING : Loc := ⟨0x2B00010, 1, 1⟩
def MCODE_ACTIVE.BANK : Loc := ⟨0x2B00010, 0, 1⟩
def MCODE_ECC.UNCORRECTED : Loc := ⟨0x2B00018, 32, 32⟩
def MCODE_ECC.CORRECTED : Loc := ⟨0x2B00018, 0, 32⟩
def MCODE_FCAP.VALID (i : Nat) : Loc := ⟨0x2B01000 + 0x8 * i, 63, 1⟩
def MCODE_FCAP.CAUSE (i : Nat) : Loc := ⟨0x2B01000 + 0x8 * i, 56, 4⟩
def MCODE_FCAP.BANK (i : Nat) : Loc := ⟨0x2B01000 + 0x8 * i, 55, 1⟩
def MCODE_FCAP.SP (i : Nat) : Loc := ⟨0x2B01000 + 0x8 * i, 51, 4⟩
def MCODE_FCAP.MICROADDR (i : Nat) : Loc := ⟨0x2B01000 + 0x8 * i, 38, 13⟩
def MCODE_FCAP.ORIG (i : Nat) : Loc := ⟨0x2B01000 + 0x8 * i, 34, 4⟩

end R

def regsTOP : List RegDef := [
  -- TOP_ID
  ⟨0x0, [], []⟩,
  -- TOP_UID
  ⟨0x8, [], []⟩,
  -- TOP_MODE
  ⟨0x10, [], []⟩,
  -- TOP_MODE_REQ
  ⟨0x18, [], [⟨0, 2, some .wo, 0, 3, false⟩]⟩,
  -- TOP_REGLOG
  ⟨0x20, [], [⟨63, 1, some .w1c, 0, 1, false⟩]⟩,
  -- TOP_REGLOG_VAL
  ⟨0x28, [], []⟩,
  -- TOP_REGLOG_CNT
  ⟨0x30, [], []⟩]

def regsKEEP : List RegDef := [
  -- KEEP_SUPPLY
  ⟨0x100000, [], []⟩,
  -- KEEP_RAIL
  ⟨0x100008, [], [⟨0, 1, some .rw, 0, 1, true⟩]⟩,
  -- KEEP_THERM
  ⟨0x100010, [], [⟨40, 8, some .rw, 0, 255, true⟩, ⟨8, 8, some .rw, 100, 110, true⟩, ⟨0, 8, some .rw, 80, 105, true⟩]⟩,
  -- KEEP_EVENT
  ⟨0x100018, [], []⟩,
  -- KEEP_TOD
  ⟨0x100020, [], [⟨0, 48, some .rw, 0, 281474976710655, true⟩]⟩]

def regsFLT : List RegDef := [
  -- FLT_STATUS
  ⟨0x200000, [(4, 0x8)], [⟨0, 64, some .w1c, 0, 18446744073709551615, false⟩]⟩,
  -- FLT_FORCE
  ⟨0x200020, [(4, 0x8)], [⟨0, 64, some .sc, 0, 18446744073709551615, false⟩]⟩,
  -- FLT_CFG
  ⟨0x200040, [], [⟨29, 11, some .rw, 0, 2047, true⟩, ⟨26, 3, some .rw, 0, 7, true⟩]⟩,
  -- FLT_EVQ
  ⟨0x200050, [(2, 0x8)], []⟩,
  -- FLT_EVQ_LOST
  ⟨0x200060, [], []⟩,
  -- FLT_LOG
  ⟨0x200068, [], []⟩,
  -- FLT_REACT
  ⟨0x201000, [(256, 0x8)], [⟨24, 8, some .rw, 0, 255, true⟩, ⟨5, 1, some .rw, 0, 1, true⟩, ⟨4, 1, some .rw, 0, 1, true⟩, ⟨3, 1, some .rw, 0, 1, true⟩, ⟨2, 1, some .rw, 0, 1, true⟩, ⟨1, 1, some .rw, 0, 1, true⟩, ⟨0, 1, some .rw, 0, 1, true⟩]⟩,
  -- FLT_LOG_REC
  ⟨0x208000, [(1024, 0x20), (4, 0x8)], []⟩]

def regsJRN : List RegDef := [
  -- JRN_HEAD
  ⟨0x300000, [], []⟩,
  -- JRN_TAIL
  ⟨0x300008, [], []⟩,
  -- JRN_EPOCH
  ⟨0x300010, [], []⟩,
  -- JRN_LAST_EPOCH
  ⟨0x300018, [], []⟩,
  -- JRN_ACK
  ⟨0x300020, [], [⟨63, 1, some .rw, 0, 1, false⟩, ⟨0, 48, some .rw, 0, 281474976710655, false⟩]⟩,
  -- JRN_STAT
  ⟨0x300028, [], []⟩]

def regsCMD : List RegDef := [
  -- CMD_RING
  ⟨0x400000, [(64, 0x20)], [⟨63, 1, some .rw, 0, 1, true⟩, ⟨60, 3, some .rw, 0, 7, true⟩, ⟨56, 4, some .rw, 4, 10, true⟩, ⟨44, 11, some .rw, 0, 2047, true⟩]⟩,
  -- CMD_POST
  ⟨0x400008, [(64, 0x20)], [⟨6, 58, some .rw, 0, 288230376151711743, true⟩]⟩,
  -- CMD_STAT
  ⟨0x400010, [(64, 0x20)], []⟩,
  -- CMD_CFG
  ⟨0x401000, [], [⟨0, 16, some .rw, 1, 65535, true⟩]⟩,
  -- CMD_ERR
  ⟨0x401008, [], []⟩]

def regsBOOT : List RegDef := [
  -- BOOT_STATUS
  ⟨0x500000, [], []⟩,
  -- BOOT_FLASH
  ⟨0x500008, [], []⟩,
  -- BOOT_SLOT
  ⟨0x500010, [(2, 0x10)], []⟩,
  -- BOOT_SLOT_OFF
  ⟨0x500018, [(2, 0x10)], []⟩,
  -- BOOT_KEYHASH
  ⟨0x500040, [(6, 0x8)], []⟩]

def regsPACE : List RegDef := [
  -- PACE_CTRL
  ⟨0x600000, [], [⟨4, 4, some .rw, 1, 15, true⟩, ⟨0, 1, some .rw, 0, 1, true⟩]⟩,
  -- PACE_STATUS
  ⟨0x600008, [], []⟩,
  -- PACE_BEAT_RATE
  ⟨0x600010, [], [⟨16, 16, some .rw, 0, 65535, true⟩]⟩,
  -- PACE_FLOOR
  ⟨0x600018, [], []⟩,
  -- PACE_TARGET
  ⟨0x600020, [], [⟨32, 16, some .rw, 0, 65535, true⟩, ⟨16, 16, some .rw, 0, 65535, true⟩, ⟨0, 16, some .rw, 0, 65535, true⟩]⟩,
  -- PACE_VREQ
  ⟨0x600028, [], [⟨24, 8, some .rw, 0, 100, true⟩, ⟨16, 8, some .rw, 0, 255, true⟩]⟩,
  -- PACE_DEFICIT
  ⟨0x600030, [], [⟨32, 8, some .rw, 1, 255, true⟩, ⟨16, 16, some .rw, 0, 65535, true⟩]⟩,
  -- PACE_XOFF_OUT
  ⟨0x600100, [(8, 0x8)], [⟨15, 1, some .rw, 0, 1, true⟩, ⟨14, 1, some .rw, 0, 1, true⟩, ⟨0, 12, some .rw, 0, 4095, true⟩]⟩,
  -- PACE_XOFF_IN
  ⟨0x600140, [(8, 0x8)], [⟨31, 1, some .rw, 0, 1, true⟩, ⟨16, 8, some .rw, 0, 255, true⟩, ⟨8, 7, some .rw, 0, 95, true⟩, ⟨0, 7, some .rw, 0, 95, true⟩]⟩]

def regsTIME : List RegDef := [
  -- TIME_NOW
  ⟨0x700000, [], []⟩,
  -- TIME_ADJ
  ⟨0x700008, [], [⟨32, 32, some .rw, 0, 4294967295, true⟩, ⟨0, 32, some .wo, 0, 4294967295, false⟩]⟩,
  -- TIME_OFFSET
  ⟨0x700010, [], [⟨0, 64, some .rw, 0, 18446744073709551615, true⟩]⟩]

def regsPRISM : List RegDef := [
  -- PRISM_SCHED
  ⟨0x800000, [(16, 0x100000), (2, 0x8)], [⟨32, 16, none, 0, 65535, true⟩, ⟨16, 16, none, 0, 65535, true⟩, ⟨8, 1, none, 0, 1, true⟩, ⟨0, 4, none, 0, 8, true⟩]⟩,
  -- PRISM_ALLOW
  ⟨0x800010, [(16, 0x100000)], [⟨16, 16, none, 0, 65535, true⟩, ⟨0, 16, none, 0, 65535, true⟩]⟩,
  -- PRISM_GUARD_CAP
  ⟨0x800018, [(16, 0x100000)], [⟨63, 1, some .w1c, 0, 1, false⟩]⟩,
  -- PRISM_GUARD_COUNT
  ⟨0x800020, [(16, 0x100000)], []⟩,
  -- PRISM_FAR_LATE
  ⟨0x800028, [(16, 0x100000)], []⟩,
  -- PRISM_WAIT
  ⟨0x800030, [(16, 0x100000)], [⟨32, 32, some .rw, 0, 4294967295, true⟩]⟩,
  -- PRISM_DEEP
  ⟨0x800038, [(16, 0x100000)], []⟩,
  -- PRISM_EDGE
  ⟨0x800040, [(16, 0x100000)], []⟩,
  -- PRISM_CUT_ABORT
  ⟨0x800048, [(16, 0x100000)], []⟩,
  -- PRISM_PROFILE
  ⟨0x800100, [(16, 0x100000), (16, 0x8)], [⟨19, 5, none, 0, 29, true⟩, ⟨8, 6, none, 0, 32, true⟩, ⟨1, 1, none, 0, 1, true⟩, ⟨0, 1, none, 0, 1, true⟩]⟩,
  -- PRISM_PORTMAP
  ⟨0x800180, [(16, 0x100000)], [⟨28, 4, none, 0, 15, true⟩, ⟨24, 4, none, 0, 15, true⟩, ⟨20, 4, none, 0, 15, true⟩, ⟨16, 4, none, 0, 15, true⟩, ⟨12, 4, none, 0, 15, true⟩, ⟨8, 4, none, 0, 15, true⟩, ⟨4, 4, none, 0, 15, true⟩, ⟨0, 4, none, 0, 15, true⟩]⟩,
  -- PRISM_XTR
  ⟨0x801000, [(16, 0x100000), (16, 0x100), (32, 0x8)], [⟨22, 10, none, 0, 1023, true⟩, ⟨16, 4, none, 0, 15, true⟩, ⟨0, 9, none, 0, 511, true⟩]⟩]

def regsSVC : List RegDef := [
  -- SVC_STATE
  ⟨0x1800000, [(32, 0x8)], []⟩]

def regsLENS : List RegDef := [
  -- LENS_PROFILE
  ⟨0x1900000, [(16, 0x80), (16, 0x8)], [⟨40, 18, none, 0, 262143, true⟩, ⟨39, 1, none, 0, 1, true⟩, ⟨32, 7, none, 0, 79, true⟩, ⟨24, 7, none, 0, 79, true⟩, ⟨16, 7, none, 0, 79, true⟩, ⟨8, 7, none, 0, 80, true⟩, ⟨4, 4, none, 0, 15, true⟩, ⟨0, 4, none, 0, 15, true⟩]⟩,
  -- LENS_VERSION
  ⟨0x1900800, [], []⟩,
  -- LENS_SCRUB
  ⟨0x1901000, [(16, 0x8)], []⟩,
  -- LENS_SCRUB_CAP
  ⟨0x1901080, [], [⟨63, 1, some .w1c, 0, 1, false⟩]⟩,
  -- LENS_ERR
  ⟨0x1901100, [(16, 0x8)], []⟩,
  -- LENS_PWR
  ⟨0x1901180, [(16, 0x8)], [⟨16, 10, some .rw, 0, 1023, true⟩]⟩]

def regsTBL : List RegDef := [
  -- TBL_DESC
  ⟨0x1A00000, [(256, 0x20)], [⟨25, 39, none, 0, 549755813887, true⟩, ⟨19, 6, none, 0, 63, true⟩, ⟨17, 2, none, 0, 3, true⟩, ⟨15, 2, none, 0, 2, true⟩, ⟨12, 3, none, 0, 5, true⟩, ⟨11, 1, none, 0, 1, true⟩, ⟨10, 1, none, 0, 1, true⟩, ⟨3, 7, none, 0, 80, true⟩]⟩,
  -- TBL_FILL
  ⟨0x1A00008, [(256, 0x20)], []⟩,
  -- TBL_AGE
  ⟨0x1A00010, [(256, 0x20)], [⟨0, 16, some .rw, 1, 65535, true⟩]⟩,
  -- TBL_ERRC
  ⟨0x1A00018, [(256, 0x20)], []⟩,
  -- TBL_PLAN
  ⟨0x1A02000, [(256, 0x8)], [⟨31, 33, none, 0, 8589934591, true⟩, ⟨28, 3, none, 0, 5, true⟩, ⟨24, 4, none, 0, 8, true⟩, ⟨0, 24, none, 0, 16777215, true⟩]⟩,
  -- TBL_TRIE
  ⟨0x1A02800, [(256, 0x8)], [⟨0, 8, none, 0, 255, true⟩]⟩,
  -- TBL_PROF
  ⟨0x1A03000, [(3, 0x80), (16, 0x8)], [⟨40, 10, none, 0, 1023, true⟩, ⟨39, 1, none, 0, 1, true⟩, ⟨32, 7, none, 0, 80, true⟩, ⟨28, 4, none, 0, 15, true⟩, ⟨20, 4, none, 0, 7, true⟩, ⟨0, 8, none, 0, 255, true⟩]⟩,
  -- TBL_LEARN
  ⟨0x1A03200, [], []⟩,
  -- TBL_PARITY_CAP
  ⟨0x1A03208, [], [⟨63, 1, some .w1c, 0, 1, false⟩]⟩,
  -- TBL_SETTLE
  ⟨0x1A03210, [], []⟩,
  -- TBL_POOL
  ⟨0x1A03218, [], []⟩,
  -- TBL_LEARN_LOST
  ⟨0x1A03220, [], []⟩]

def regsBUF : List RegDef := [
  -- BUF_POOL
  ⟨0x1B00000, [], [⟨40, 20, none, 0, 1048575, true⟩, ⟨20, 20, none, 0, 1048575, true⟩]⟩,
  -- BUF_CLASS
  ⟨0x1B00100, [(8, 0x8)], [⟨4, 2, some .rw, 0, 2, true⟩, ⟨0, 4, some .rw, 0, 9, true⟩]⟩,
  -- BUF_SPILL_SIZE
  ⟨0x1B00200, [], [⟨30, 28, none, 0, 268435455, true⟩, ⟨0, 30, none, 0, 1073741823, true⟩]⟩,
  -- BUF_SPILL_USED
  ⟨0x1B00208, [], []⟩,
  -- BUF_SPILL_CTRL
  ⟨0x1B00210, [], [⟨16, 20, none, 0, 1048575, true⟩, ⟨0, 16, some .rw, 1, 65535, true⟩]⟩,
  -- BUF_SPILL_RATE
  ⟨0x1B00218, [], []⟩,
  -- BUF_ERR
  ⟨0x1B00300, [], []⟩,
  -- BUF_FREE_CAP
  ⟨0x1B00308, [], [⟨63, 1, some .w1c, 0, 1, false⟩]⟩,
  -- BUF_ACCT
  ⟨0x1B01000, [(385, 0x8)], [⟨40, 20, none, 0, 1048575, true⟩, ⟨0, 20, some .rw, 0, 1048575, true⟩]⟩,
  -- BUF_WM
  ⟨0x1B04000, [(1024, 0x8)], [⟨28, 28, some .rw, 0, 268435455, true⟩, ⟨0, 28, some .rw, 0, 268435455, true⟩]⟩,
  -- BUF_SU
  ⟨0x1B08000, [(385, 0x40), (8, 0x8)], []⟩]

def regsSWC : List RegDef := [
  -- SWC_CUT
  ⟨0x1C00008, [], []⟩,
  -- SWC_HOLD
  ⟨0x1C00010, [], [⟨8, 7, some .rw, 0, 127, true⟩]⟩,
  -- SWC_REPL
  ⟨0x1C00100, [], [⟨0, 8, none, 0, 255, true⟩]⟩,
  -- SWC_REPL_LOST
  ⟨0x1C00108, [], []⟩,
  -- SWC_REASON
  ⟨0x1C04000, [(128, 0x8)], [⟨20, 1, some .rw, 0, 1, true⟩, ⟨16, 3, some .rw, 0, 7, true⟩, ⟨0, 16, some .rw, 0, 65535, true⟩]⟩,
  -- SWC_MIG_CTRL
  ⟨0x1C08000, [], [⟨32, 16, some .rw, 1, 1000, true⟩, ⟨16, 16, some .rw, 64, 2048, true⟩]⟩,
  -- SWC_MIG_LATE
  ⟨0x1C08008, [], []⟩,
  -- SWC_MIG
  ⟨0x1C08100, [(256, 0x8)], []⟩,
  -- SWC_DQ
  ⟨0x1C80000, [(65536, 0x8)], [⟨63, 1, some .rw, 0, 1, true⟩, ⟨61, 2, some .rw, 0, 2, true⟩, ⟨40, 20, some .rw, 0, 1048575, true⟩, ⟨0, 16, some .rw, 0, 65535, true⟩]⟩]

def regsAPR : List RegDef := [
  -- APR_BOUND
  ⟨0x1D00000, [(8, 0x8)], [⟨0, 32, none, 0, 4294967295, true⟩]⟩,
  -- APR_CLASS
  ⟨0x1D00040, [(8, 0x8)], [⟨63, 1, none, 0, 1, true⟩, ⟨60, 3, none, 0, 7, true⟩, ⟨40, 16, none, 0, 65535, true⟩, ⟨16, 24, none, 0, 16777215, true⟩, ⟨0, 4, none, 0, 15, true⟩]⟩,
  -- APR_SPILL
  ⟨0x1D00080, [], [⟨48, 16, none, 1, 65535, true⟩, ⟨32, 16, none, 0, 65535, true⟩, ⟨16, 16, none, 0, 65535, true⟩]⟩,
  -- APR_XRATE
  ⟨0x1D000C0, [(8, 0x8)], [⟨0, 24, none, 0, 16777215, true⟩]⟩,
  -- APR_CMAP
  ⟨0x1D00100, [(16, 0x8)], [⟨0, 24, none, 0, 16777215, true⟩]⟩,
  -- APR_ADMIT
  ⟨0x1D00200, [(16, 0x8)], []⟩,
  -- APR_POLICE
  ⟨0x1D00280, [(16, 0x8)], []⟩,
  -- APR_REFUSE
  ⟨0x1D00300, [(16, 0x8)], []⟩,
  -- APR_VERSION
  ⟨0x1D00400, [], []⟩,
  -- APR_BREACH
  ⟨0x1D00500, [(8, 0x20), (4, 0x8)], []⟩,
  -- APR_BQ
  ⟨0x1D00600, [(2, 0x8)], []⟩,
  -- APR_BQ_LOST
  ⟨0x1D00610, [], []⟩,
  -- APR_BQ_STAT
  ⟨0x1D00618, [], []⟩,
  -- APR_ERR
  ⟨0x1D00620, [], []⟩,
  -- APR_SRC
  ⟨0x1D01000, [(384, 0x8)], [⟨44, 20, none, 0, 1048575, true⟩, ⟨42, 2, none, 0, 1, true⟩, ⟨40, 2, none, 0, 2, true⟩, ⟨36, 4, none, 0, 15, true⟩, ⟨33, 3, none, 0, 7, true⟩]⟩,
  -- APR_RES
  ⟨0x1D08000, [(4096, 0x10)], [⟨63, 1, some .rw, 0, 1, true⟩, ⟨55, 8, some .rw, 0, 255, true⟩, ⟨44, 11, some .rw, 0, 2047, true⟩, ⟨41, 1, some .rw, 0, 1, true⟩, ⟨40, 1, some .rw, 0, 1, true⟩, ⟨0, 24, some .rw, 0, 16777215, true⟩]⟩,
  -- APR_RES_ST
  ⟨0x1D08008, [(4096, 0x10)], []⟩]

def regsCOL : List RegDef := [
  -- COL_STARVE_LIMIT
  ⟨0x1E00000, [], [⟨24, 8, some .rw, 0, 255, true⟩, ⟨0, 16, some .rw, 1, 65535, true⟩]⟩,
  -- COL_ERR
  ⟨0x1E00008, [], []⟩,
  -- COL_CLASS
  ⟨0x1E00040, [(8, 0x8)], [⟨32, 24, none, 0, 16777215, true⟩, ⟨0, 3, none, 0, 7, true⟩]⟩,
  -- COL_PROFILE
  ⟨0x1E00100, [(16, 0x8)], [⟨0, 7, none, 0, 127, true⟩]⟩,
  -- COL_OUT
  ⟨0x1E01000, [(99, 0x8)], [⟨60, 4, none, 0, 15, true⟩, ⟨32, 28, none, 0, 268435455, true⟩, ⟨0, 28, none, 0, 268435455, true⟩]⟩,
  -- COL_OC_RATE
  ⟨0x1E04000, [(99, 0x80), (8, 0x10)], [⟨28, 28, none, 0, 268435455, true⟩, ⟨0, 28, none, 0, 268435455, true⟩]⟩,
  -- COL_OC_BURST
  ⟨0x1E04008, [(99, 0x80), (8, 0x10)], [⟨20, 20, none, 0, 1048575, true⟩, ⟨0, 20, none, 0, 1048575, true⟩]⟩,
  -- COL_GATE
  ⟨0x1E08000, [(96, 0x10)], []⟩,
  -- COL_GATE_CHANGE
  ⟨0x1E08008, [(96, 0x10)], []⟩]

def regsMIR : List RegDef := [
  -- MIR_SESSION
  ⟨0x1F00000, [(128, 0x10)], [⟨63, 1, none, 0, 1, true⟩, ⟨61, 2, none, 0, 2, true⟩, ⟨58, 3, none, 0, 7, true⟩, ⟨54, 4, none, 0, 15, true⟩, ⟨48, 6, none, 0, 63, true⟩, ⟨0, 32, none, 0, 4294967295, true⟩]⟩,
  -- MIR_LOST
  ⟨0x1F00008, [(128, 0x10)], []⟩,
  -- MIR_RING
  ⟨0x1F01000, [(16, 0x20)], [⟨63, 1, none, 0, 1, true⟩, ⟨62, 1, none, 0, 1, true⟩, ⟨29, 21, none, 0, 2097151, true⟩, ⟨0, 29, none, 0, 536870911, true⟩]⟩,
  -- MIR_RING_PTR
  ⟨0x1F01008, [(16, 0x20)], []⟩,
  -- MIR_RING_CONS
  ⟨0x1F01010, [(16, 0x20)], [⟨0, 31, some .rw, 0, 2147483647, true⟩]⟩]

def regsMAC : List RegDef := [
  -- MAC_CFG
  ⟨0x2000000, [(96, 0x4000)], [⟨36, 14, none, 1518, 16383, true⟩, ⟨28, 1, none, 0, 1, true⟩, ⟨26, 2, none, 0, 3, true⟩, ⟨25, 1, none, 0, 1, true⟩, ⟨24, 1, none, 0, 1, true⟩, ⟨20, 4, none, 0, 7, true⟩]⟩,
  -- MAC_STATUS
  ⟨0x2000008, [(96, 0x4000)], []⟩,
  -- MAC_ADDR
  ⟨0x2000010, [(96, 0x4000)], [⟨0, 48, some .rw, 0, 281474976710655, true⟩]⟩,
  -- MAC_TAG
  ⟨0x2000018, [(96, 0x4000)], [⟨48, 16, some .rw, 0, 65535, true⟩, ⟨46, 2, some .rw, 0, 2, true⟩, ⟨44, 2, some .rw, 0, 3, true⟩, ⟨43, 1, some .rw, 0, 1, true⟩, ⟨40, 3, some .rw, 0, 7, true⟩, ⟨39, 1, some .rw, 0, 1, true⟩, ⟨16, 12, some .rw, 0, 4095, true⟩]⟩,
  -- MAC_FC
  ⟨0x2000020, [(96, 0x4000)], [⟨62, 2, some .rw, 0, 2, true⟩, ⟨48, 8, some .rw, 0, 255, true⟩, ⟨32, 16, some .rw, 0, 65535, true⟩, ⟨16, 16, some .rw, 0, 65535, true⟩]⟩,
  -- MAC_PFC_MAP
  ⟨0x2000028, [(96, 0x4000)], [⟨0, 64, some .rw, 0, 18446744073709551615, true⟩]⟩,
  -- MAC_PREEMPT
  ⟨0x2000030, [(96, 0x4000)], [⟨63, 1, some .rw, 0, 1, true⟩, ⟨62, 1, some .rw, 0, 1, true⟩, ⟨48, 8, some .rw, 0, 255, true⟩, ⟨40, 8, some .rw, 1, 128, true⟩, ⟨38, 2, some .rw, 0, 3, true⟩, ⟨28, 10, some .rw, 0, 1023, true⟩]⟩,
  -- MAC_PTP
  ⟨0x2000038, [(96, 0x4000)], [⟨32, 16, some .rw, 0, 65535, true⟩, ⟨16, 16, some .rw, 0, 65535, true⟩, ⟨12, 4, some .rw, 0, 15, true⟩, ⟨8, 4, some .rw, 0, 15, true⟩]⟩,
  -- MAC_PTP_TS
  ⟨0x2000040, [(96, 0x4000), (2, 0x8)], []⟩,
  -- MAC_PTP_LOST
  ⟨0x2000050, [(96, 0x4000)], []⟩,
  -- MAC_CNT
  ⟨0x2000100, [(96, 0x4000), (18, 0x8)], []⟩,
  -- MAC_WAKE
  ⟨0x2180000, [], [⟨8, 1, none, 0, 1, true⟩, ⟨0, 8, none, 0, 255, true⟩]⟩,
  -- MAC_WAKE_CNT
  ⟨0x2180008, [], []⟩]

def regsSEC : List RegDef := [
  -- SEC_MSEC_PORT
  ⟨0x2200000, [(96, 0x8)], [⟨63, 1, some .rw, 0, 1, true⟩, ⟨62, 1, some .rw, 0, 1, true⟩, ⟨61, 1, some .rw, 0, 1, true⟩, ⟨60, 1, some .rw, 0, 1, true⟩, ⟨58, 2, some .rw, 0, 3, true⟩]⟩,
  -- SEC_MSEC_CFG
  ⟨0x2200400, [], [⟨0, 32, some .rw, 0, 4294967295, true⟩]⟩,
  -- SEC_MSA_STAGE
  ⟨0x2200800, [(4, 0x8)], [⟨0, 64, some .rw, 0, 18446744073709551615, false⟩]⟩,
  ⟨0x2200820, [(4, 0x8)], [⟨0, 64, some .rw, 0, 18446744073709551615, true⟩]⟩,
  -- SEC_MSA_CMD
  ⟨0x2200840, [], [⟨63, 1, some .sc, 0, 1, false⟩, ⟨61, 2, some .rw, 0, 2, true⟩, ⟨60, 1, some .rw, 0, 1, true⟩, ⟨58, 2, some .rw, 0, 3, true⟩, ⟨56, 2, some .rw, 0, 3, true⟩, ⟨49, 7, some .rw, 0, 127, true⟩, ⟨0, 32, some .rw, 0, 4294967295, true⟩]⟩,
  -- SEC_EDIT
  ⟨0x2208000, [], [⟨16, 8, none, 0, 255, true⟩, ⟨8, 8, none, 0, 255, true⟩, ⟨0, 8, none, 0, 255, true⟩]⟩,
  -- SEC_EDIT_CAP
  ⟨0x2208008, [], [⟨63, 1, some .w1c, 0, 1, false⟩]⟩]

def regsIRIS : List RegDef := [
  -- IRIS_CTRL
  ⟨0x2300000, [(64, 0x4000)], [⟨12, 4, none, 0, 15, true⟩, ⟨8, 2, none, 0, 2, true⟩, ⟨1, 1, none, 0, 1, true⟩, ⟨0, 1, none, 0, 1, true⟩]⟩,
  -- IRIS_STATUS
  ⟨0x2300008, [(64, 0x4000)], []⟩,
  -- IRIS_PEER
  ⟨0x2300010, [(64, 0x4000)], []⟩,
  -- IRIS_CREDIT
  ⟨0x2300018, [(64, 0x4000)], [⟨32, 12, none, 64, 2048, true⟩]⟩,
  -- IRIS_RETRY
  ⟨0x2300020, [(64, 0x4000)], [⟨16, 16, none, 100, 800, true⟩, ⟨0, 16, none, 0, 65535, true⟩]⟩,
  -- IRIS_ERR
  ⟨0x2300028, [(64, 0x4000)], []⟩,
  -- IRIS_DOWN_CAP
  ⟨0x2300030, [(64, 0x4000)], [⟨63, 1, some .w1c, 0, 1, false⟩]⟩,
  -- IRIS_LANE
  ⟨0x2300038, [(64, 0x4000)], [⟨0, 16, some .rw, 0, 65535, true⟩]⟩]

def regsFAB : List RegDef := [
  -- FAB_CFG
  ⟨0x2400000, [], [⟨16, 8, none, 0, 255, true⟩, ⟨12, 1, none, 0, 1, true⟩, ⟨0, 12, none, 0, 4095, true⟩]⟩,
  -- FAB_ADDR
  ⟨0x2400008, [], []⟩,
  -- FAB_TOPO
  ⟨0x2400010, [], []⟩,
  -- FAB_SPRAY
  ⟨0x2400018, [], [⟨0, 16, some .rw, 1, 65535, true⟩]⟩,
  -- FAB_REORDER
  ⟨0x2400020, [], [⟨32, 16, some .rw, 100, 800, true⟩, ⟨0, 16, some .rw, 1000, 50000, true⟩]⟩,
  -- FAB_TIME
  ⟨0x2400028, [], []⟩,
  -- FAB_ERR
  ⟨0x2400030, [], []⟩,
  -- FAB_LOSS
  ⟨0x2400038, [], []⟩,
  -- FAB_NH
  ⟨0x2408000, [(4096, 0x8)], []⟩,
  -- FAB_DEST
  ⟨0x2410000, [(4096, 0x8)], []⟩]

def regsHBM : List RegDef := [
  -- HBM_CFG
  ⟨0x2500000, [], [⟨40, 8, some .rw, 1, 255, true⟩, ⟨32, 3, none, 0, 5, true⟩, ⟨0, 25, none, 0, 33554431, true⟩]⟩,
  -- HBM_STACK
  ⟨0x2500100, [(8, 0x8)], []⟩,
  -- HBM_ECC
  ⟨0x2500200, [(8, 0x8)], []⟩,
  -- HBM_SKEW_CFG
  ⟨0x2500300, [], [⟨16, 8, some .rw, 1, 255, true⟩, ⟨0, 16, some .rw, 256, 65535, true⟩]⟩,
  -- HBM_SKEW_STAT
  ⟨0x2500308, [], []⟩,
  -- HBM_SCRUB
  ⟨0x2500310, [], [⟨0, 16, some .rw, 1, 65535, true⟩]⟩,
  -- HBM_REPL
  ⟨0x2501000, [(256, 0x8)], [⟨0, 8, none, 0, 255, true⟩]⟩]

def regsFAR : List RegDef := [
  -- FAR_PORT
  ⟨0x2600000, [(16, 0x1000)], []⟩,
  -- FAR_SPILL
  ⟨0x2600008, [(16, 0x1000)], [⟨32, 26, none, 0, 67108863, true⟩, ⟨0, 25, none, 0, 33554431, true⟩]⟩,
  -- FAR_LAT
  ⟨0x2600010, [(16, 0x1000)], [⟨16, 16, some .rw, 0, 65535, true⟩]⟩,
  -- FAR_ERR
  ⟨0x2600018, [(16, 0x1000)], []⟩,
  -- FAR_TAGS
  ⟨0x2600020, [(16, 0x1000)], []⟩]

def regsHOST : List RegDef := [
  -- HOST_CFG
  ⟨0x2700000, [], [⟨31, 11, some .rw, 0, 2047, true⟩, ⟨24, 7, some .rw, 32, 127, true⟩, ⟨16, 8, some .rw, 1, 255, true⟩, ⟨0, 7, some .rw, 1, 64, true⟩]⟩,
  -- HOST_TAGS
  ⟨0x2700008, [], [⟨32, 15, some .rw, 64, 12288, true⟩, ⟨16, 15, some .rw, 0, 32767, true⟩]⟩,
  -- HOST_LINK
  ⟨0x2700010, [(2, 0x8)], []⟩,
  -- HOST_LINKW
  ⟨0x2700020, [(2, 0x8)], []⟩,
  -- HOST_ERR
  ⟨0x2700030, [], []⟩,
  -- HOST_Q
  ⟨0x2740000, [(16384, 0x10)], [⟨63, 1, some .rw, 0, 1, true⟩, ⟨62, 1, some .rw, 0, 1, true⟩, ⟨61, 1, some .rw, 0, 1, true⟩, ⟨60, 1, some .rw, 0, 1, true⟩, ⟨59, 1, some .rw, 0, 1, true⟩, ⟨46, 13, some .rw, 0, 8191, true⟩, ⟨42, 4, some .rw, 4, 15, true⟩, ⟨40, 2, some .rw, 0, 3, true⟩, ⟨32, 8, some .rw, 0, 255, true⟩, ⟨21, 11, some .rw, 0, 2047, true⟩, ⟨13, 8, some .rw, 0, 255, true⟩, ⟨5, 8, some .rw, 0, 255, true⟩]⟩,
  -- HOST_QBASE
  ⟨0x2740008, [(16384, 0x10)], [⟨12, 52, some .rw, 0, 4503599627370495, true⟩]⟩,
  -- HOST_QSTAT
  ⟨0x2780000, [(16384, 0x8)], []⟩,
  -- HOST_WAKE
  ⟨0x27A0000, [(64, 0x8)], [⟨0, 64, some .w1c, 0, 18446744073709551615, false⟩]⟩]

def regsDMA : List RegDef := [
  -- DMA_RING
  ⟨0x2800000, [], [⟨12, 52, some .rw, 0, 4503599627370495, true⟩, ⟨9, 1, some .rw, 0, 1, true⟩, ⟨8, 1, some .rw, 0, 1, true⟩, ⟨4, 4, some .rw, 4, 15, true⟩]⟩,
  -- DMA_DB
  ⟨0x2800008, [], [⟨0, 16, some .wo, 0, 65535, false⟩]⟩,
  -- DMA_STAT
  ⟨0x2800010, [], []⟩,
  -- DMA_CFG
  ⟨0x2800018, [], [⟨0, 4, some .rw, 1, 8, true⟩]⟩,
  -- DMA_CAP
  ⟨0x2800020, [], [⟨63, 1, some .w1c, 0, 1, false⟩]⟩]

def regsCNT : List RegDef := [
  -- CNT_EXPOSE
  ⟨0x2900000, [], [⟨32, 16, none, 0, 65535, true⟩]⟩,
  -- CNT_EXPOSE_T
  ⟨0x2900008, [], []⟩,
  -- CNT_PROBE
  ⟨0x2900010, [], [⟨61, 1, some .rw, 0, 1, true⟩, ⟨60, 1, some .rw, 0, 1, true⟩, ⟨0, 48, some .rw, 0, 281474976710655, true⟩]⟩,
  -- CNT_PROBE_VAL
  ⟨0x2900018, [], []⟩,
  -- CNT_STORE
  ⟨0x2900020, [], [⟨44, 20, none, 0, 1048575, true⟩, ⟨0, 22, none, 0, 4194303, true⟩]⟩,
  -- CNT_ERR
  ⟨0x2900028, [], []⟩,
  -- CNT_PROF
  ⟨0x2900100, [(16, 0x8)], [⟨41, 20, none, 0, 1048575, true⟩, ⟨20, 21, none, 0, 2097151, true⟩, ⟨16, 4, none, 0, 15, true⟩, ⟨13, 3, none, 0, 6, true⟩, ⟨10, 3, none, 1, 5, true⟩, ⟨0, 10, none, 0, 1023, true⟩]⟩,
  -- CNT_REASON
  ⟨0x2901000, [(128, 0x8)], []⟩,
  -- CNT_LOUPE_CTRL
  ⟨0x2902000, [], [⟨63, 1, some .rw, 0, 1, true⟩, ⟨62, 1, some .rw, 0, 1, true⟩, ⟨61, 1, some .rw, 0, 1, true⟩, ⟨56, 4, some .rw, 0, 15, true⟩, ⟨40, 16, some .rw, 0, 65535, true⟩, ⟨0, 20, some .rw, 0, 1048575, true⟩]⟩,
  -- CNT_LOUPE
  ⟨0x2902008, [(3, 0x8)], []⟩,
  -- CNT_LOUPE_LOST
  ⟨0x2902020, [], []⟩,
  -- CNT_LOUPE_STAT
  ⟨0x2902028, [], []⟩,
  -- CNT_XRING
  ⟨0x2903000, [], [⟨12, 52, some .rw, 0, 4503599627370495, true⟩, ⟨11, 1, some .rw, 0, 1, true⟩, ⟨10, 1, some .rw, 0, 1, true⟩, ⟨7, 3, some .rw, 0, 7, true⟩, ⟨3, 4, some .rw, 4, 15, true⟩]⟩,
  -- CNT_XRING_CONS
  ⟨0x2903008, [], [⟨0, 16, some .rw, 0, 65535, true⟩]⟩]

def regsBIST : List RegDef := [
  -- BIST_CTRL
  ⟨0x2A00000, [], [⟨8, 1, some .rw, 0, 1, true⟩, ⟨4, 1, some .sc, 0, 1, false⟩, ⟨0, 4, some .rw, 0, 15, true⟩]⟩,
  -- BIST_STATUS
  ⟨0x2A00008, [], []⟩,
  -- BIST_SAVE
  ⟨0x2A00010, [], [⟨48, 16, none, 0, 65535, true⟩, ⟨0, 48, none, 0, 281474976710655, true⟩]⟩,
  -- BIST_RESULT
  ⟨0x2A01000, [(288, 0x8)], []⟩,
  -- BIST_SIG
  ⟨0x2A02000, [(288, 0x8)], []⟩]

def regsMCODE : List RegDef := [
  -- MCODE_VERSION
  ⟨0x2B00000, [(2, 0x8)], [⟨32, 32, none, 0, 4294967295, true⟩]⟩,
  -- MCODE_ACTIVE
  ⟨0x2B00010, [], [⟨0, 1, none, 0, 1, true⟩]⟩,
  -- MCODE_ECC
  ⟨0x2B00018, [], []⟩,
  -- MCODE_FCAP
  ⟨0x2B01000, [(512, 0x8)], [⟨63, 1, some .w1c, 0, 1, false⟩]⟩]

/-- Every register of the device (R575). -/
def regTable : List RegDef :=
  regsTOP ++ regsKEEP ++ regsFLT ++ regsJRN ++ regsCMD ++ regsBOOT ++ regsPACE ++ regsTIME ++ regsPRISM ++ regsSVC ++ regsLENS ++ regsTBL ++ regsBUF ++ regsSWC ++ regsAPR ++ regsCOL ++ regsMIR ++ regsMAC ++ regsSEC ++ regsIRIS ++ regsFAB ++ regsHBM ++ regsFAR ++ regsHOST ++ regsDMA ++ regsCNT ++ regsBIST ++ regsMCODE

/-- The registers whose reset value the spec gives as other than 0: base, dimensions, value (R19). -/
def resetTable : List (Nat × List (Nat × Nat) × Nat) := [
  (0x0, [], 0x96400021),
  (0x100010, [], 0x6C64),
  (0x400000, [(64, 0x20)], 0x400000000000000),
  (0x401000, [], 0x3E8),
  (0x500000, [], 0x3),
  (0x600000, [], 0x40),
  (0x600010, [], 0xFFFF0000),
  (0x600018, [], 0x2A00834),
  (0x600020, [], 0x89808CA001E),
  (0x600028, [], 0x64000050),
  (0x600030, [], 0x1000000000),
  (0x1B00000, [], 0xC0000),
  (0x1B00210, [], 0x40),
  (0x1C08000, [], 0x3208000000),
  (0x1D00400, [], 0x10000),
  (0x1E00000, [], 0xFF0001F4),
  (0x1E08000, [(96, 0x10)], 0x3FC0000000000000),
  (0x2400018, [], 0x64),
  (0x2400020, [], 0x25800000FA0),
  (0x2400028, [], 0x7800000000000000),
  (0x2500000, [], 0x140000000000),
  (0x2500300, [], 0xA0200),
  (0x2500310, [], 0x18),
  (0x2700000, [], 0x10000A),
  (0x2700008, [], 0x100000000000),
  (0x2740000, [(16384, 0x10)], 0x100000000000),
  (0x2800000, [], 0x40),
  (0x2800018, [], 0x8),
  (0x2903000, [], 0x20)]

/-- Whether `d`, an offset from a family's base, is that of a member of the family. -/
def dimsHit : List (Nat × Nat) → Nat → Bool
  | [], d => d == 0
  | (n, st) :: ds, d => decide (d / st < n) && dimsHit ds (d % st)

/-- The family of the register at a BAR0 offset; none where the offset holds no register (R571, R575). -/
def regAt (off : Nat) : Option RegDef :=
  regTable.find? fun r => decide (r.base ≤ off) && dimsHit r.dims (off - r.base)

end Sys2Proof.Machine
end

