-- ==== Sys2Proof/Machine/State.lean ====
section
/-! DEFINITION. The state of the OLX9640, as plain data, and the state after reset. -/
namespace Sys2Proof.Machine

/-- Why a step stops with a fault: the spec stops the device nowhere, so there is no such reason. -/
inductive Fault where
  deriving DecidableEq, Repr

/-- Why a command has no meaning. -/
inductive Refusal where
  /-- Raised by an arm of exec whose command is not modelled yet. Safe. -/
  | notModelled (mnemonic : String)
  deriving DecidableEq, Repr

/-- The outcome of one command. -/
abbrev Out (σ : Type) := Host.Outcome σ Fault Refusal

/-- The six operating modes (R4), in the order TOP_MODE.STATE codes them. -/
inductive Mode where
  | dormant | prove | load | serve | holdUp | safe
  deriving DecidableEq, Repr

/-- The code of a mode in TOP_MODE.STATE. -/
def Mode.code : Mode → Nat
  | .dormant => 0 | .prove => 1 | .load => 2 | .serve => 3 | .holdUp => 4 | .safe => 5

/-- What the device sends out of the package, in the order it sends it. -/
inductive Emit where
  /-- A posted write to host memory through endpoint `ep`, with its No Snoop and Relaxed Ordering attributes. -/
  | hostWrite (ep addr : Nat) (data : List Byte) (ns ro poison : Bool)
  /-- A read request to host memory. -/
  | hostRead (ep addr len : Nat) (ns ro : Bool)
  /-- An MSI-X message of a function, coded as HOST_Q.FUNC (R436). -/
  | msix (func vec : Nat)
  /-- The words a host register read returns (R571). -/
  | readData (words : List Nat)
  /-- A configuration request answered, or completed with Request Retry Status (R434). -/
  | cfgAnswer | cfgRetry
  /-- A host access that no BAR answers (R568). -/
  | unreachable
  /-- The data of an SMBus Block Read (R481, R536). -/
  | smbus (data : List Byte)
  /-- A command-code byte that the SMBus port does not acknowledge (R584). -/
  | smbusNack
  /-- A code strobed on PACE_VREQ (R54). -/
  | strobe (code : Nat)
  /-- A frame sent on a port, FCS included; `express` is its MAC (R393). -/
  | frame (port : Nat) (bytes : List Byte) (express : Bool)
  /-- A preemption verify or response mPacket sent on a port (R392). -/
  | verify (port : Nat) (response : Bool)
  /-- A cell of 272 B sent on an iris (R334). -/
  | cell (iris : Nat) (bytes : List Byte)
  /-- Lines written to HBM dynamic space or to the far space. -/
  | memWrite (far : Bool) (addr : Nat) (data : List Byte) (poison : Bool)
  /-- Lines read from HBM dynamic space or from the far space. -/
  | memRead (far : Bool) (addr len : Nat)
  /-- A pulse on PPS_OUT (R586). -/
  | pps
  /-- XSPI_RESET_N is driven low for 10 µs, to begin PROVE; the SFDP tables are read in 1S-1S-1S mode at 25 MHz; the flash is taken to
  8D-8D-8D mode by the sequence that they give (R484). -/
  | flashReset | flashSfdp | flashOctal
  /-- The slot of an image is read whole from its flash byte (R486, R491, R492). -/
  | flashRead (addr : Nat)
  /-- The flash is reset and released to a board programmer (R485). -/
  | flashReleased
  /-- The HDM decoder of a far port's device is programmed to base 0 and a size in GiB (R428). -/
  | farDecoder (port gib : Nat)
  /-- The level driven on FAR_PERST_N (R586). -/
  | farPerst (level : Bool)
  /-- The level driven on a rail enable (R510). -/
  | railEn (group : Nat) (level : Bool)
  deriving DecidableEq, Repr

/-- The pace governor's measurements beside its registers (R48 to R58). -/
structure PaceState where
  /-- The deficit D, in beats. -/
  deficit : Nat := 0
  /-- The lowest loop counts of the last 32 windows, newest first. -/
  hist : List Nat := []
  /-- Windows completed since DORMANT exit, saturating at 9 (R51). -/
  windows : Nat := 0
  /-- Windows completed since the last request. -/
  since : Nat := 0
  /-- Windows completed with PACE_VGOOD low since the last request (R56). -/
  vgoodLow : Nat := 0
  /-- Windows since the KL-6 condition last held (R596). -/
  ceilRun : Nat := 4
  /-- Levels of PACE_VGOOD and PACE_VMAX_N, and the filtered levels of XOFF_IN[0..7] (R55, R69). -/
  vgood : Bool := true
  vmaxN : Bool := true
  xoffIn : List Bool := [false, false, false, false, false, false, false, false]
  /-- PACE_VGOOD stayed low for 64 windows after a request (R56). -/
  vgoodDead : Bool := false
  /-- Cycles of TB_REFCLK in the present window (R48). -/
  cycles : Nat := 0
  deriving DecidableEq, Repr

/-- One fault event record (R534). -/
structure FaultEvent where
  time : Nat
  source : Nat
  forced : Bool
  escalated : Bool
  mode : Nat
  info : Nat
  deriving DecidableEq, Repr

/-- The fault collector beside its registers. -/
structure FaultState where
  /-- The event queue, oldest first (R534). -/
  queue : List FaultEvent := []
  /-- The SMBus fault log pointer (R536). -/
  logPtr : Nat := 0
  /-- A chip reset has been raised and has not completed (R529). -/
  chipReset : Bool := false
  /-- Blocks in reset: 0 to 15 a prism, 16 + s service facet s (R138). -/
  blocks : List Nat := []
  /-- Blocks whose reset has exceeded its 256 beats (R528). -/
  lateBlocks : List Nat := []
  /-- FAULT_N as it stood at HOLD-UP entry (R532). -/
  heldPin : Bool := false
  /-- The source that raised the chip reset last (R75). -/
  chipBy : Nat := 0
  /-- THERM_WARN and THERM_TRIP may be raised again (R521). -/
  warnArmed : Bool := true
  tripArmed : Bool := true
  deriving DecidableEq, Repr

/-- What resets have discarded (R61, R75): the flush counters of the blocks that own packet-carrying FIFOs (0 to 15 a prism, 16 + s
service facet s, 48 the packet memory, 49 the switch core), the discard counters of the clock-domain crossings (n the MAC of port n,
96 + i iris i, 160 + q HBM pseudo-channel q, 416 + p far port p, 432 + x host link x), and the discards charged to each cause (n fault
source n, 256 + c entry to SAFE of cause c, 264 + x the reset of host link x by its pin). No register shows them. -/
structure LossState where
  flushed : SMap Nat := []
  discarded : SMap Nat := []
  charged : SMap Nat := []
  deriving DecidableEq, Repr

/-- The power sequencer and the control pins (R510 to R516). -/
structure PowerState where
  resetN : Bool := true
  pwrfailN : Bool := true
  /-- Levels of RAIL_EN[3:0]. -/
  en : Nat := 15
  /-- Bit i: rail i good, in the order of KEEP_RAIL.GOOD. -/
  good : Nat := 255
  /-- The core rails have been reported good (R510, step 3). -/
  railsGood : Bool := true
  /-- An attempt has failed and the sequencer waits 1 s. -/
  retryWait : Bool := false
  /-- Every enable is held low until RESET_N next rises: after three failed attempts, or after 115 °C. -/
  latched : Bool := false
  /-- Failed attempts in a row since RESET_N last rose or an attempt succeeded. -/
  tries : Nat := 0
  /-- PWRFAIL_N must have been high for 100 ms before the enables rise (R512). -/
  needHigh : Bool := false
  /-- The keeper island runs. -/
  keeper : Bool := true
  /-- A HOLD-UP is under way and the keeper has isolated itself from the core (R517). -/
  isolated : Bool := false
  /-- The previous mode from which HOLD-UP was entered answers BARs (R568). -/
  holdFrom : Mode := .serve
  /-- Timebase at HOLD-UP entry, ns. -/
  holdNs : Nat := 0
  /-- What the keeper has recorded of the run for R504: a chip reset, a restart, RESET_N low. -/
  ranChip : Bool := false
  ranRestart : Bool := false
  ranReset : Bool := false
  /-- The device has written an epoch entry before (R479, first start). -/
  started : Bool := false
  /-- The levels of H0_BIF and H1_BIF and the number that SMB_ADDR spells, as sampled on leaving DORMANT (R433, R584); the levels of
  H0_PERST_N and H1_PERST_N. -/
  hxBif : List Bool := [false, false]
  smbAddr : Nat := 0
  perstN : List Bool := [true, true]
  /-- The part of a second, in ns, that has passed since KEEP_TOD last counted (R514). -/
  todNs : Nat := 0
  /-- Level of FAR_PERST_N. -/
  farPerstN : Bool := false
  /-- The keeper's own count of time in ns (the model's), and its values when the enable raised last rose, when an attempt last
  failed, and when PWRFAIL_N last rose (R510, R512). -/
  clock : Nat := 0
  enNs : Nat := 0
  failNs : Nat := 0
  highNs : Nat := 0
  /-- Since when MAIN has stayed at or above 1.70 V, a dip that KL-10 lets pass apart, and since when it lies below (R513, R600), by that
  count. -/
  mainNs : Nat := 0
  dipNs : Option Nat := none
  /-- When PPS_OUT last rose (R586). -/
  ppsNs : Option Nat := none
  deriving DecidableEq, Repr

/-- A command accepted and not completed (R466, R473). -/
structure OpenCmd where
  seq : Nat
  /-- Ring 0 to 63; 64 for a re-execution, which has no ring to post to (R478). -/
  ring : Nat
  num : Nat
  /-- The 64 B of the command. -/
  bytes : List Byte
  /-- It waits on its gate (R474). -/
  waiting : Bool
  acceptedNs : Nat
  /-- The sequence of the original entry, for a re-execution. -/
  orig : Option Nat
  /-- Execution has begun. -/
  started : Bool
  /-- The outcome area of 48 B, once execution has ended (R469). -/
  outcome : Option (List Byte)
  /-- The timebase of the takeover that it has made so far; 0 for none (R469, R473). -/
  takeNs : Nat
  deriving DecidableEq, Repr

/-- Command rings and journal beside their registers. -/
structure CmdState where
  /-- Ring slots by BAR2 offset, in 64-bit words (R458). -/
  slots : SMap Nat := []
  /-- The ring served last (R461). -/
  lastRing : Nat := 63
  /-- Commands accepted and not completed, in order of acceptance. -/
  open_ : List OpenCmd := []
  /-- The journal array, by 64-bit word: word w of slot k is at 32 k + w (R464). -/
  journal : SMap Nat := []
  /-- The last accepted sequence, for the close entry (R479). -/
  lastSeq : Nat := 0
  /-- Sequences whose outcome was written and failed both read-backs (R466, R468). -/
  spoilt : List Nat := []
  /-- The SMBus journal pointer, in bytes from sequence 0 (R481). -/
  jptr : Nat := 0
  /-- Original sequences still to be re-executed (R478). -/
  reexec : List Nat := []
  /-- An accepted MODE_REQUEST RESTART (1) or SAFE (2), and the time of its takeover once it has completed (R505). -/
  modeReq : Option (Nat × Option Nat) := none
  /-- Pulses the bulk mover has issued and no gate has received yet: gate, and whether it carries ERROR (R457). -/
  pulses : List (Nat × Bool) := []
  deriving DecidableEq, Repr

/-- A slot that has authenticated: which, and the image as the loader read it in PROVE (R491, R492). -/
structure GoodSlot where
  slot : Nat
  digest : List Byte
  key : List Byte
  bist : List Byte
  version : Nat
  deriving DecidableEq, Repr

/-- The loader (chapter 18). -/
structure BootState where
  /-- FLASH_DISCOVERY has run; a slot B exists. -/
  found : Bool := false
  hasB : Bool := false
  /-- The slot to authenticate next: 0 A, 1 B, 2 none left. -/
  next : Nat := 0
  good : Option GoodSlot := none
  /-- The BIST plan of PROVE has passed for this BIST section (R496). -/
  bistDone : Option (List Byte) := none
  /-- Step L1 is complete. -/
  farDone : Bool := false
  /-- The SCHEDULE sections read in step L2, by bank (R489). -/
  scheds : List (Nat × List Byte) := []
  /-- Step L2 is complete; banks loaded; step L3 is complete; the epoch entry is written. -/
  applied : Bool := false
  checked : Bool := false
  epochWritten : Bool := false
  /-- The public key of the running image (R491). -/
  key : List Byte := []
  /-- Entries that the scans of this LOAD have made indeterminate (R477). -/
  indet : List Nat := []
  /-- Image fields that a section has set, by register offset and lowest bit (R502). -/
  touched : List (Nat × Nat) := []
  deriving DecidableEq, Repr

/-- An exposure in progress (R557); `pf` is the function for which its dump is written. -/
structure Exposure where
  seq : Nat
  id : Nat
  cut : Nat
  deadline : Nat
  regs : Bool
  store : Bool
  first : Nat
  pairs : Nat
  pf : Nat
  addr : Nat
  /-- S and SW: the snapshot of register counters, of store counters, and of WRAP bits. -/
  snapRegs : SMap Word
  snapPairs : SMap Nat
  snapWraps : SMap Bool
  deriving DecidableEq, Repr

/-- One loupe sample (R562). -/
structure Sample where
  w0 : Nat
  w1 : Nat
  w2 : Nat
  deriving DecidableEq, Repr

/-- A non-negative or negative rational, numerator over a positive denominator, in lowest terms: the exact times of
the admission procedure (R303). -/
structure Ratio where
  num : Int
  den : Nat
  deriving DecidableEq, Repr

/-- The stamp the aperture attaches (R29). -/
structure Stamp where
  ver : Nat := 0
  bank : Nat := 0
  epoch : Nat := 0
  cls : Nat := 0
  /-- Admission time, timebase ns. -/
  adm : Nat := 0
  deriving DecidableEq, Repr

/-- A MACsec association (R405). -/
structure Assoc where
  key : List Nat
  salt : Nat
  ssci : Nat
  pn : Nat
  sci : Nat
  window : Nat
  deriving DecidableEq, Repr

/-- What MACsec takes as a frame starts on a port: the association with its packet number, the number, and the modes of the port (R403). -/
structure SecSend where
  an : Nat
  assoc : Assoc
  xpn : Bool
  conf : Bool
  sciInc : Bool
  deriving DecidableEq, Repr

/-- A further member of a packet's replication group, as the handoff aimed it (R286, R290): destination kind, device, queue and
endpoint, leaf queue, host queue, edit list. -/
structure MemberAim where
  kind : Nat
  dev : Nat
  queue : Nat
  ep : Nat
  leaf : Nat
  hostQ : Option Nat
  edit : Nat
  deriving DecidableEq, Repr

/-- A packet: its bytes, its chain of cells and their charge, its stamp and deadlines, and what the prism decided
(R29, R260). -/
structure Pkt where
  id : Nat
  /-- Source index (R295): port, host queue group, service path; 384 for an arrival from the fabric. -/
  src : Nat
  /-- The frame as packet memory holds it, without its FCS. -/
  bytes : List Byte
  /-- The cells of its chain that are on-die, first first. -/
  cells : List Nat := []
  /-- The FCS that stands behind the bytes in its last cell. -/
  fcs : Nat := 0
  /-- The account charged; and the reserved and shared cells charged to a cut-through frame beyond the cells it has
  written (R272). -/
  acct : Nat := 0
  xResv : Nat := 0
  xShar : Nat := 0
  /-- The owner of an owner-named chain; none for a reference-counted one (R264). -/
  owner : Option Nat := none
  stamp : Stamp := {}
  /-- Accepted under R291; a copy is not. -/
  accepted : Bool := false
  /-- A cut-through frame whose end has not been reported (R153, R287). -/
  cut : Bool := false
  /-- Reception: timestamp (R397), nibble 80 and TCI of the stripped tag (R386), time of the last bit in (R292), frame
  length as received (R385). -/
  rxTime : Nat := 0
  /-- When its first bit left, in units of 2^-40 ns, for a frame being sent (R397). -/
  sentTb : Nat := 0
  tagNibble : Nat := 0
  tci : Nat := 0
  startNs : Nat := 0
  /-- The stall time a cut-through frame has accumulated, in units of 2^-40 ns (R165). -/
  stallTb : Nat := 0
  /-- Source endpoint, reservation and clocks charged (R295, R300, R303). -/
  ep : Nat := 0
  res : Nat := 0
  meteredC : Bool := false
  meteredP : Bool := false
  bounded : Bool := false
  /-- Release deadline, iris deadline, in timebase ns, and whether R306 clamped the release deadline. -/
  relNs : Nat := 0
  irisNs : Nat := 0
  clamped : Bool := false
  /-- Deadline key at a port or host output, and at the fabric output (R322). -/
  key : Nat := 0
  irisKey : Nat := 0
  /-- The device that admitted it, for an arrival from the fabric. -/
  remote : Option Nat := none
  /-- Exposure time (R555). -/
  expo : Nat := 0
  /-- Packet id of the loupe, and whether the loupe selected it (R561, R562). -/
  loupeId : Nat := 0
  selected : Bool := false
  /-- The verdict's destination: kind, device and queue, endpoint, leaf queue, host queue (R284). -/
  dstKind : Nat := 0
  dstDev : Nat := 0
  dstQ : Nat := 0
  dstEp : Nat := 0
  leaf : Nat := 0
  hostQ : Option Nat := none
  /-- The destination queue that its fabric cells carried, for a fabric arrival (R290). -/
  group : Bool := false
  /-- Tier of its cells: 0 on-die, 1 HBM, 2 far; the tier a spill write in progress goes to; a refill is in progress; the
  transfer that carries the write or the refill; where its cells lie in the spill region, one entry per cell: 8 x block +
  place, or 256 x extent + place (R277 to R280). -/
  tier : Nat := 0
  spilling : Option Nat := none
  refilling : Bool := false
  who : Nat := 0
  spots : List Nat := []
  /-- 0 the packet itself; 1 a replication-group copy; 256 + r a COPY_CPU copy with reason r; 512 + m a MIRROR copy of session m
  (R237, R286). -/
  copy : Nat := 0
  /-- An ordering marker of EP_MIGRATE OUT, with its endpoint in `ep` and its deadline stamp in `key` (R254, R337). -/
  marker : Bool := false
  /-- The hold clock of its port and class at enqueue (R307). -/
  holdBase : Nat := 0
  /-- The vector of an exception packet (R117) and its reason; the vector of a packet for a replication group, with the bytes as
  received and the destination queue that names the group (R286). -/
  reason : Nat := 0
  vector : Vect := 0
  orig : List Byte := []
  groupQ : Nat := 0
  /-- The packet's own edit list, for the members of its group that name none (R286), and its further members as its handoff chose
  them (R290). -/
  ownList : Nat := 0
  aims : List MemberAim := []
  /-- Switch cut-through: the places of its chain that failed as they were read, and whether it left past its release deadline (R282,
  R294). -/
  failing : List Nat := []
  lateStart : Bool := false
  /-- Switch cut-through: the frame began as an express one, and with this protection (R396, R403). -/
  express : Bool := false
  sec : Option SecSend := none
  deriving DecidableEq, Repr

/-- Counters and loupe beside their registers (chapter 21). -/
structure CntState where
  /-- WRAP bits: register counters by BAR0 offset; store counter half h of pair i at 2^26 + 2 i + h. -/
  wraps : SMap Bool := []
  /-- Counter store: half h of pair i at 2 i + h (R550). -/
  pairs : SMap Nat := []
  exposure : Option Exposure := none
  loupe : List Sample := []
  /-- The beat of the last samples: the timebase, the prisms (0 to 15) and service facets (16 + s) that have posted in it, and the samples
  posted (R563). -/
  beat : Nat × List Nat × Nat := (0, [], 0)
  /-- Packets that passed the loupe test at each prism since counting started (R561). -/
  tested : SMap Nat := []
  /-- Next export record number (R564). -/
  xn : Nat := 0
  /-- Requests that reached each mirror session (R565). -/
  mirrored : SMap Nat := []
  /-- Mirror copies that wait for the capture ring writer: ring, frame length as received, copy (R567). -/
  captures : List (Nat × Nat × Pkt) := []
  deriving DecidableEq, Repr


/-- To what a cell is charged (R269 to R273): the account, and of it 0 the reserved minimum, 1 the shared pool before the
aperture's decision, 2 + c the shared pool in class c, 10 the refill reserve, 16 + i + 64 u the reserve of account 384
as a cell that iris i accepted after its u-th entry to UP. -/
structure Charge where
  acct : Nat
  kind : Nat
  deriving DecidableEq, Repr

/-- A frame in a MAC or at a host or service source, on its way into cells (R27 steps 1 and 2, R270). -/
structure RxFrame where
  pkt : Pkt
  /-- Frame length as received, FCS and tag as R385 leaves them. -/
  len : Nat
  /-- The MAC counter of the test that a cut-through frame will fail at its end; none when it is good (R154, R383). -/
  bad : Option Nat
  cut : Bool
  /-- The aperture has taken it (cut-through only): what becomes of it was decided before its last cell. -/
  taken : Bool
  /-- Its remaining bytes are discarded as they arrive. -/
  gone : Bool
  /-- The outer tag the aperture classifies by: TPID known, TCI (R295, R385). -/
  outerTag : Option Nat
  /-- The host queue and descriptor to write back when the last cell is written (R447). -/
  writeBack : Option (Nat × Nat)
  /-- Header segments of a cut-through frame that are present beside those of whole cells (R150). -/
  segs : Nat := 1
  /-- Its aperture has refused it. -/
  refused : Bool := false
  /-- Frame length on the wire (R383), and the ns at which the MAC counted it as good (R556). -/
  wire : Nat := 0
  countedNs : Option Nat := none
  deriving DecidableEq, Repr

/-- A spill block of 8 cells or extent of 256 cells in use (R278): its number (for an extent, 2^24 x port + index), leaf
queue, cells given and cells still held, whether it still takes cells, when its last cell came, and whether its far writes
were lost (R432). -/
structure Spill where
  id : Nat
  far : Bool
  leaf : Nat
  used : Nat
  live : Nat
  isOpen : Bool
  lastNs : Nat
  failed : Bool
  deriving DecidableEq, Repr

/-- Packet memory beside its registers (chapter 9). -/
structure BufState where
  /-- Link words by cell; a cell not listed is free (R258, R261). -/
  links : SMap Nat := []
  /-- The number of bits of a cell's stored link word, its ECC bits included, that are wrong: the code of the ECC is not given (R258). -/
  linkWrong : SMap Nat := []
  /-- Cells in use with an uncorrectable ECC error, which every chain that reads them meets (R282). -/
  failing : List Nat := []
  /-- The wheel slots, of the 96 of a beat, that the image gives each user of packet memory (R283). -/
  wheel : List Nat := []
  /-- The charge of each on-die cell; an uncharged cell is not listed. -/
  charges : SMap (Option Charge) := []
  /-- Shared cells charged in all classes and by landing frames, and refill reserve cells in use. -/
  sharedUsed : Nat := 0
  refillUsed : Nat := 0
  /-- Frames between their source and the aperture's decision. -/
  rx : List RxFrame := []
  nextId : Nat := 0
  /-- Frames of the hold stage in switch cut-through, with their output port (R288). -/
  cutting : List (Nat × Pkt) := []
  /-- Accepted packets that wait for a prism, by prism, in admission order (R83). -/
  toPrism : SMap (List Pkt) := []
  /-- Descriptors handed off and not yet enqueued, in handoff order (R285); those whose frame has not ended are
  in the hold stage (R287). -/
  handoff : List Pkt := []
  /-- Leaf queues: endpoint e is e, the fabric queue of device d in class c is 2^20 + 8 d + c (R284). -/
  leaves : SMap (List Pkt) := []
  /-- Spill blocks (tier 1) and extents (tier 2) in use, by number. -/
  spills : List Spill := []
  /-- Cells written to HBM and far, and refilled, in the current 10 µs window, and when it began (R281). -/
  winHbm : Nat := 0
  winFar : Nat := 0
  winBack : Nat := 0
  winStart : Nat := 0
  deriving DecidableEq, Repr

/-- An aperture record (R297). -/
structure AprRec where
  cir : Nat := 0
  pir : Nat := 0
  cbs : Nat := 0
  pbs : Nat := 0
  tc : Nat := 0
  tp : Nat := 0
  time : Nat := 0
  resBase : Nat := 0
  meterEn : Bool := false
  ydrop : Bool := false
  deriving DecidableEq, Repr

/-- The apertures beside their registers (chapter 10). -/
structure AprState where
  /-- Aperture records by endpoint. -/
  recs : SMap AprRec := []
  /-- Virtual clocks by reservation, and crypto clocks by class, in ns. -/
  vc : SMap Ratio := []
  vcx : SMap Ratio := []
  /-- The breach queue: the two words of each record, oldest first (R311). -/
  breaches : List (Nat × Nat) := []
  /-- A maintenance window refuses every packet (R542). -/
  windowRefuse : Bool := false
  /-- The prisms whose aperture refuses while a bank switch drains (R97). -/
  switching : List Nat := []
  /-- The prism (0 to 15) or service facet (16 + s) that sources 96 to 383 enter (R25, R252). -/
  assigned : SMap Nat := []
  /-- The byte of table SRAM at which the aperture records start, from the image (R297). -/
  base : Nat := 0
  deriving DecidableEq, Repr

/-- What the save region holds of the unit under test in a group: table lines, aperture records, halves of counter pairs, control store
words (R544). -/
structure UnitSave where
  unit : Nat
  lines : SMap Nat := []
  recs : SMap AprRec := []
  pairs : SMap Nat := []
  words : SMap Nat := []
  deriving DecidableEq, Repr

/-- Self-test beside its registers (R537 to R546). -/
structure BistState where
  /-- The BIST section of the image: plans, and expected signatures by unit. -/
  section_ : List Byte := []
  /-- The plan running, when it started, and the groups that have not started. -/
  startNs : Nat := 0
  plan : Option Nat := none
  toStart : List Nat := []
  /-- Groups running: group and its remaining units, the first being under test. -/
  running : List (Nat × List Nat) := []
  /-- When the test of each running group's unit began, and when the group that ended last did so (R539). -/
  since : List (Nat × Nat) := []
  endNs : Nat := 0
  /-- IRIS_CTRL.ENABLE of each iris before the window (R546). -/
  saved : List (Nat × Bool) := []
  /-- The save region (R544). -/
  saves : List UnitSave := []
  deriving DecidableEq, Repr

/-- Parameters of a shaper change (R317, R329). -/
structure ShaperChange where
  rate : Nat
  burst : Nat
  weight : Option Nat
  compat : Nat
  landed : Nat
  deriving DecidableEq, Repr

/-- A shaper: parameters in effect, credit in units of 2^-16 B, the latest change that has landed, and the ticks it has
taken (R317). -/
structure Shaper where
  rate : Nat := 0
  burst : Nat := 0
  weight : Nat := 0
  credit : Int := 0
  change : Option ShaperChange := none
  ticks : Nat := 0
  deriving DecidableEq, Repr

/-- A gate list (R326). -/
structure GateList where
  /-- Entries: interval, operation, gates. -/
  entries : List (Nat × Nat × Nat)
  base : Nat
  cycle : Nat
  extension : Nat
  /-- When its command landed, in ns (R328). -/
  landed : Nat := 0
  deriving DecidableEq, Repr

/-- The collimator beside its registers (chapter 11). Shapers are keyed: output o at o; class reserved at
2^8 + 8 o + c; class maximum at 2^11 + 8 o + c; group g at 2^16 + g; endpoint e at 2^20 + e. -/
structure ColState where
  shapers : SMap Shaper := []
  /-- The output and class of each group, as 1 + 8 o + c; the group of each endpoint, as 1 + g (R314). -/
  groupOut : SMap Nat := []
  epGroup : SMap Nat := []
  /-- Deficits of groups (key g) and endpoints (key 2^16 + e), in bytes (R323). -/
  deficits : SMap Int := []
  /-- The group served last in each (output, class) and the endpoint served last in each group, as 1 + number, and
  whether its turn goes on: keys 8 o + c and 2^10 + g. -/
  lastNode : SMap Nat := []
  inTurn : SMap Bool := []
  /-- Eligible time of each leaf since it was served or became non-empty, and since when it has been eligible, as
  1 + ns (R325). -/
  waited : SMap Nat := []
  eligSince : SMap Nat := []
  starved : List Nat := []
  /-- The gate list in force on each port, and the pending one with its change time; a pending none is STOP (R328). -/
  gates : SMap (Option GateList) := []
  gatePending : SMap (Option (Nat × Option GateList)) := []
  deriving DecidableEq, Repr

/-- The frame or fragment being sent on a port, its times in units of 2^-40 ns (R393). -/
structure Sending where
  startTb : Nat
  endTb : Nat
  preemptable : Bool
  /-- The stretch not yet sent of a preemptable frame that was interrupted. -/
  left : Nat
  deriving DecidableEq, Repr

/-- The MACs beside their registers (chapter 14). -/
structure MacState where
  /-- Pause holds, as 1 + the ns at which they end: key 16 port + priority, priority 8 for 802.3x (R389). -/
  holds : SMap Nat := []
  /-- The time each (port, class) has been held in all, and since when it is held, as 1 + ns: key 8 port + class (R307). -/
  holdTotal : SMap Nat := []
  holdSince : SMap Nat := []
  /-- Transmit timestamp records by port, oldest first (R398). -/
  ptp : SMap (List (Nat × Nat)) := []
  /-- Verify frames sent and unanswered, by port (R392). -/
  verifies : SMap Nat := []
  /-- When the last verify frame was sent, by port, as 1 + ns. -/
  verifySent : SMap Nat := []
  /-- The ports whose verification restarts when the frame in progress has completed (R396). -/
  reverify : List Nat := []
  /-- A Set-And-Hold-MAC holds preemptable traffic (R394). -/
  held : SMap Bool := []
  sending : SMap (Option Sending) := []
  /-- When the pause frame was last sent, by port, as 1 + ns (R390). -/
  pauseSent : SMap Nat := []
  /-- MAC control frames that wait for their port, by port, oldest first, without their FCS (R391). -/
  control : SMap (List (List Byte)) := []
  /-- When the link last went down, by port, as 1 + ns; 0 when it has not been up (R309). -/
  fellNs : SMap Nat := []
  /-- MACsec associations: key 64 port + 32 direction + 4 (8 channel) ..., see msaKey (R405). -/
  assocs : SMap (Option Assoc) := []
  /-- The transmit link is held down for want of packet numbers (R404). -/
  exhausted : SMap Bool := []
  deriving DecidableEq, Repr
/-- A sequenced fabric cell without its CRC (R334). -/
structure FCell where
  marker : Bool := false
  dst : Nat := 0
  src : Nat := 0
  queue : Nat := 0
  cls : Nat := 0
  first : Bool := true
  last : Bool := true
  fill : Nat := 255
  seq : Nat := 0
  deadline : Nat := 0
  payload : List Byte := []
  /-- It was made here and has not left: the cell then knows of its packet, for a breach record, its leaf queue, its frame length
  (R311), and whether it was accepted. -/
  origin : Bool := false
  leaf : Option Nat := none
  len : Nat := 0
  accepted : Bool := false
  expo : Nat := 0
  deriving DecidableEq, Repr

/-- An entry of a retransmit queue (R340): the link sequence, the cell, the ns of its first transmission, and the
packet-memory cell it refers to; `relay` marks a relayed cell, whose cell of account 384 it holds. -/
structure TxEntry where
  lseq : Nat
  cell : FCell
  firstNs : Nat
  mem : Option Nat
  relayFrom : Option Nat
  deriving DecidableEq, Repr

/-- A planned change in progress at this end of an iris (R349 to R351). -/
structure LinkChange where
  leader : Bool
  width : Nat
  mask : Nat
  same : Bool
  reqNs : Nat := 0
  repeats : Nat := 0
  agreed : Option (Nat × Nat) := none
  readySent : Bool := false
  readyRecv : Bool := false
  startNs : Nat := 0
  cmd : Option Nat := none
  abandoned : Bool := false
  deriving DecidableEq, Repr

/-- One iris beside its registers (chapter 12). -/
structure Iris where
  /-- Entries to UP so far: a credit goes back only for a cell accepted since the latest. -/
  ups : Nat := 0
  /-- Link sequences modulo 2^16: the next new cell, the oldest unreleased, the next expected (R336, R340). -/
  next : Nat := 0
  mark : Nat := 0
  exp : Nat := 0
  nackOpen : Bool := false
  queue : List TxEntry := []
  /-- The sequence and ns at which the current replay began, and the ns MARK last advanced or the queue was last
  empty (R341, R342). -/
  replay : Option (Nat × Nat) := none
  markNs : Nat := 0
  /-- Credit totals modulo 2^16: what this end grants, and the newest it has received (R344, R345). -/
  creditTotal : Nat := 0
  peerTotal : Nat := 0
  /-- CALL: next tag, the calls unanswered with their ns, consecutive misses, and whether one came from the peer since
  TRAINING began (R333, R346). -/
  tag : Nat := 0
  calls : List (Nat × Nat) := []
  misses : Nat := 0
  callSeen : Bool := false
  /-- An ECHO has come since TRAINING began: the peer has this end's CALL (R333). The ns of the last CALL and of the last GASP, as 1 + ns. -/
  echoSeen : Bool := false
  callNs : Nat := 0
  gaspNs : Nat := 0
  /-- The next expected sequence as the last CTRL cell acknowledged it (R350). -/
  ackSent : Nat := 0
  /-- CTRL records due, oldest first (R338), and the ns of the last CTRL cell. -/
  records : List (List Byte) := []
  ctrlNs : Nat := 0
  /-- Down by LOOP or SOFTWARE until software enables it again. -/
  held : Bool := false
  change : Option LinkChange := none
  /-- The DISABLE that drains it (R352). -/
  disabling : Option Nat := none
  /-- Link-scoped cells that wait for credit (R354). -/
  linkCells : List FCell := []
  deriving DecidableEq, Repr

/-- A cell that waits for an eligible iris (R366, R367, R373): 0 returned, 1 relayed, 2 new; the packet-memory cell it
refers to, and for a relayed cell the iris it came in on. -/
structure WaitCell where
  kind : Nat
  cell : FCell
  mem : Option Nat
  relayFrom : Option Nat
  firstNs : Option Nat
  deriving DecidableEq, Repr

/-- A link listed in an advertisement (R356). -/
structure AdvLink where
  uid : Nat
  here : Nat
  there : Nat
  width : Nat
  deriving DecidableEq, Repr

/-- A stored advertisement (R356, R357): its fragments by index. -/
structure Advert where
  uid : Nat
  epoch : Nat
  seq : Nat
  addr : Nat
  valid : Bool
  configured : Bool
  claim : Bool
  prio : Nat
  hops : Nat
  frags : List (Nat × List Byte)
  ns : Nat
  deriving DecidableEq, Repr

/-- A reorder stream (R369 to R372): cells held with their sequence and packet-memory cell; the cells of the
packet being rebuilt; since when the cell at EXP has been missing while later cells wait; whether arriving cells are
discarded until the next FIRST. -/
structure Stream where
  exp : Nat := 0
  held : List (Nat × FCell × Option Nat) := []
  parts : List (FCell × Option Nat) := []
  gapNs : Option Nat := none
  skipping : Bool := false
  /-- Packets whose cells lie before this sequence are checked against their deadline (R372). -/
  limit : Option Nat := none
  /-- Sequences declared lost, as long as they can still arrive (R370, R375). -/
  lost : List Nat := []
  deriving DecidableEq, Repr

/-- The fabric network layer beside its registers (chapter 13). -/
structure FabState where
  adverts : List Advert := []
  /-- Sequence of the device's own advertisement, the ns of the last one, and whether a new one is due. -/
  advSeq : Nat := 0
  advNs : Option Nat := none
  advDue : Bool := false
  /-- The ns of the last newer advertisement from any originator (R359). -/
  quietNs : Nat := 0
  /-- The claimed address is held until this ns; addresses passed over. -/
  claimEnd : Option Nat := none
  passed : List Nat := []
  /-- The addresses that this device has left, each accepted until its ns (R362). -/
  previous : List (Nat × Nat) := []
  /-- When the spray epoch began, in ns (R368). -/
  epochNs : Nat := 0
  /-- The FAB_ADDRESS commands that wait: SET, and CLAIM with the ns of its acceptance (R362). -/
  setCmds : List Nat := []
  claimCmds : List (Nat × Nat) := []
  /-- SEQ counters of sent streams and the streams received, by 8 x device + class (R369). -/
  sent : SMap Nat := []
  streams : SMap (Option Stream) := []
  /-- Unique id and epoch of the device last reachable at an address, to see a change (R369). -/
  peers : SMap (Option (Nat × Nat)) := []
  waiting : List WaitCell := []
  /-- Payloads of link-scoped cells that wait for the route role: iris, arrival in units of 2^-40 ns, payload (R354). -/
  work : List (Nat × Nat × List Byte) := []
  /-- Fabric time: tag of the last TSYNC, consecutive good exchanges, the ns of the last TREPLY. -/
  tag : Nat := 0
  good : Nat := 0
  replyNs : Nat := 0
  /-- The ns of the last TSYNC. -/
  syncNs : Nat := 0
  deriving DecidableEq, Repr

/-- A non-posted request the device has sent to a host (R437): a transmit or bulk mover descriptor read, a transmit
data read, a bulk mover read. -/
inductive HostReq where
  | descriptors (q number count : Nat)
  | reread (q number : Nat)
  | txData (q number : Nat)
  | dmaDescriptors (number count : Nat)
  | dmaReread (number : Nat)
  | dmaData (number : Nat)
  /-- The zero-length read behind the writes of a BARRIER descriptor toward a host (R456). -/
  | dmaFlush (number : Nat)
  deriving DecidableEq, Repr

/-- A request outstanding under one tag: what it is part of, its link, the ns at which it was sent, and the bytes of the read that it
asks for: offset and length (R437). -/
structure HostRead where
  req : HostReq
  link : Nat
  ns : Nat
  off : Nat
  len : Nat
  deriving DecidableEq, Repr

/-- What of a read has not been asked for, since no tag was free (R437): its link, the address of its first byte, the bytes asked for
already and those still to ask for, the Max Read Request Size of its function, and its attributes. -/
structure HostWait where
  req : HostReq
  link : Nat
  addr : Nat
  off : Nat
  len : Nat
  unit : Nat
  noSnoop : Bool
  relaxed : Bool
  deriving DecidableEq, Repr

/-- A bulk mover descriptor in progress (R456). -/
structure DmaRun where
  number : Nat
  bytes : List Byte
  error : Bool
  /-- Its last write has been issued; the transfer that carries its HBM or far requests. -/
  issued : Bool
  who : Nat
  deriving DecidableEq, Repr

/-- The host endpoints and the bulk mover beside their registers (chapter 16). -/
structure HostState where
  /-- VFs of each PF (R433). -/
  vfs : List Nat := [0, 0, 0, 0, 0, 0, 0, 0]
  reads : List HostRead := []
  /-- Reads not yet asked for whole, and what those under way have returned so far. -/
  waits : List HostWait := []
  parts : List (HostReq × List Byte) := []
  /-- The codes of Max Payload Size and Max Read Request Size of each function's configuration space: 128 × 2^code B (R435). -/
  sizes : SMap (Nat × Nat) := []
  /-- Descriptors read and not yet used, by queue: number and 16 B. -/
  ready : SMap (List (Nat × List Byte)) := []
  /-- Mismatched reads of the next descriptor, and the ns at which it is read again (R444). -/
  retries : SMap (Nat × Nat) := []
  /-- Completions since the last message and the ns of the first, by 2^11 function + vector (R449). -/
  moder : SMap (Nat × Nat) := []
  /-- Parked endpoints, and the EP_PARK commands whose leaf queue empties, with the ns of their takeover (R452). -/
  parked : List Nat := []
  parking : List (Nat × Nat × Nat) := []
  /-- The pattern that the last wake event of a VF named, as 1 + its number (R407). No register shows it. -/
  woken : SMap Nat := []
  /-- Descriptors of the bulk mover read and not yet started: number and 32 B. -/
  dmaReady : List (Nat × List Byte) := []
  dmaRetries : Nat × Nat := (0, 0)
  dmaRuns : List DmaRun := []
  /-- Queues of functions under Function Level Reset whose reads in flight have not completed (R435). -/
  flr : List Nat := []
  deriving DecidableEq, Repr

/-- The placement of an endpoint (R250): 0 to 15 a prism, 16 + s service facet s, 64 GONE, 65 TAIL. -/
structure Placement where
  place : Option Nat := none
  epoch : Nat := 0
  device : Nat := 0
  queue : Nat := 0
  deriving DecidableEq, Repr

/-- A migration in progress, slot i of SWC_MIG (R251 to R255): its endpoint, command, kind, old placement and epoch, the other
device and its queue, the fence queue, the ns of the first fenced packet, the end of the tail window, and the packets that the
drain token of a LOCAL migration follows. -/
structure Migration where
  slot : Nat
  ep : Nat
  seq : Nat
  kind : Nat
  oldPlace : Option Nat := none
  oldEpoch : Nat := 0
  device : Nat := 0
  queue : Nat := 0
  fence : List Pkt := []
  firstNs : Option Nat := none
  endNs : Nat := 0
  /-- When it took effect. -/
  takeNs : Nat := 0
  waits : List Nat := []
  deriving DecidableEq, Repr

/-- Migration beside its registers: placements by endpoint, migrations open, endpoints whose late results of an old
epoch are discarded (R253). -/
structure MigState where
  places : SMap Placement := []
  open_ : List Migration := []
  late : List (Nat × Nat) := []
  deriving DecidableEq, Repr

/-- The flags of an ALU (R124). -/
structure AluFlags where
  z : Bool := false
  c : Bool := false
  n : Bool := false
  deriving DecidableEq, Repr

/-- A word that has issued and whose last step has not passed (R113): its microaddress and value, the steps left after the
present one, whether its predicate held, what it will write (vector address, nibbles, value, in the order in which
overlapping writes land), its ALU flags, its new parse cursor and whether that is deferred (R160), and whether a relative
address passed nibble 511 (R157). -/
structure WordRun where
  addr : Nat
  word : Nat
  left : Nat
  holds : Bool
  writes : List (Nat × Nat × Nat) := []
  alu0 : Option AluFlags := none
  alu1 : Option AluFlags := none
  cursor : Option (Nat × Bool) := none
  beyond : Bool := false
  deriving DecidableEq, Repr

/-- A lookup issued and not yet deposited (R87, R127): its port, window, the age or beat at which it is due, whether its
result is ready, the status nibble and the 64 B of the window, and when it was issued; for a far window read the far
address. -/
structure Lookup where
  id : Nat
  port : Nat
  win : Nat
  due : Nat
  ready : Bool
  status : Nat
  value : Nat
  issueTb : Nat
  far : Option Nat := none
  /-- What a far window read does with the line when it returns: the profile's key and its nibbles, at version `ver`. -/
  prof : Nat := 0
  key : Nat := 0
  ver : Nat := 0
  /-- The transfer that reads a service facet's line; 0 for none. -/
  who : Nat := 0
  deriving DecidableEq, Repr

/-- The actions of a packet so far (R131): 0 none, 1 FORWARD, 2 DROP, 3 EXCEPT, with the reason; the destination of
the last FORWARD (metadata nibbles 96 to 103 and 109 to 112, and the egress endpoint in force); the egress endpoint of the last
EP_SELECT; the COPY_CPU reason; the mirror sessions. -/
structure Verdict where
  kind : Nat := 0
  reason : Nat := 0
  dstKind : Nat := 0
  dstDev : Nat := 0
  dstQ : Nat := 0
  edit : Nat := 0
  dstEp : Option Nat := none
  ep : Option Nat := none
  copy : Option Nat := none
  mirrors : List Nat := []
  deriving DecidableEq, Repr

/-- The working state of a facet on a packet or work item (R115 to R124, R134): the vector, the microaddress of the next word,
the microstack, the ALU flags, condition 0x13, whether it holds only through a deferred cursor of this facet (KL-4), whether the routine has
ended, the word in progress, the lookups outstanding, a deferred cursor with the steps until it lands, and the actions so far. -/
structure Work where
  vec : Vect := 0
  upc : Nat := 0
  sp : Nat := 0
  stack : List Nat := []
  f0 : AluFlags := {}
  f1 : AluFlags := {}
  beyond : Bool := false
  edged : Bool := false
  done : Bool := false
  run : Option WordRun := none
  looks : List Lookup := []
  landing : Option (Nat × Nat) := none
  verdict : Verdict := {}
  deriving DecidableEq, Repr

/-- A slot inside a prism that holds a packet or a drain token (R80 to R83, R229): the packet, none for an empty slot; its
age at the next step; its bank; the working state; the time it entered; whether its verdict is complete and it only waits
for the end of the edit handoff. -/
structure Flight where
  pkt : Option Pkt
  age : Nat
  bank : Nat
  work : Work
  tokens : List Nat
  inTb : Nat
  decided : Bool := false
  deriving DecidableEq, Repr

/-- A prism beside its registers: its step count modulo 840, the slots in flight (oldest first), drain tokens that wait at its
aperture with the packets still to enter before them, the cut-through stall (packet, segment, when it began), whether a return
wait is under way, whether the next slot is empty in place of a packet cut off before facet 0 (R165), and the parked facets (R79 to R89,
R137, R164, R229). -/
structure Prism where
  steps : Nat := 0
  flights : List Flight := []
  tokens : List (Nat × Nat) := []
  stall : Option (Nat × Nat × Nat) := none
  wait : Bool := false
  hollow : Bool := false
  parked : List Nat := []
  nextLook : Nat := 0
  deriving DecidableEq, Repr

/-- A work item of a service facet (R110, R139): its number, role, bank, packet with the prism of its origin (16 + s where it came
to service facet Ss itself), command, and working state. -/
structure Item where
  id : Nat
  role : Nat
  bank : Nat
  pkt : Option Pkt
  cmd : Option Nat
  work : Work
  inTb : Nat
  origin : Nat := 0
  deriving DecidableEq, Repr

/-- A service facet beside SVC_STATE: the item it runs, the contexts saved in its routine context blocks (the latest first), the
items that wait in arrival order, whether it waits for a result or an event, and whether it is parked (R118, R137 to R142). -/
structure Service where
  running : Option Item := none
  waiting : Bool := false
  saved : List Item := []
  queue : List Item := []
  parked : Bool := false
  deriving DecidableEq, Repr

/-- The facets, control store and schedule (chapters 3 and 4): facet index f is 30 p + k for facet k of prism p, 480 + s for
Ss; a bank's key is 2 f + b. -/
structure CodeState where
  prisms : SMap Prism := []
  services : SMap Service := []
  /-- Control store words: key 2^13 (2 f + b) + microaddress, the 192 bits; and the number of wrong bits of a stored word, whose
  check bits the spec gives no code for. -/
  store : SMap Nat := []
  wrong : SMap Nat := []
  /-- Of a loaded bank: word count and entry microaddress of each facet, by 2 f + b. -/
  counts : SMap Nat := []
  entries : SMap Nat := []
  /-- Words that a patch has written at or past a facet's word count, by the same key as the words (R148). -/
  extra : SMap Bool := []
  /-- Hold lanes H(k), by 32 (2 p + b) + k; the facets whose routine holds a word with EDGE = 1, as a mask by 2 p + b (R161). -/
  lanes : SMap Nat := []
  edges : SMap Nat := []
  /-- The calendar, by 512 (2 p + b) + 8 port + slot phase, as 1 + owning facet; 0 free (R103). -/
  calendar : SMap Nat := []
  /-- Declared parse allowance by 2 p + b (R103). -/
  parse : SMap Nat := []
  /-- The roles of a service facet, as a mask: bit 0 command execution, 1 learning, 2 aging, 3 exception, 4 route, 5 export (R35);
  the exception facet that serves a prism's packets, as 1 + s (R37). -/
  roles : SMap Nat := []
  share : SMap Nat := []
  /-- Packets diverted to the exception role, with the prism of origin, oldest first (R37). -/
  excepts : List (Nat × Pkt) := []
  nextItem : Nat := 0
  deriving DecidableEq, Repr

/-- A lens row or its shadow (R173): the 80 masks, cell c in bits [16 c + 15 : 16 c]; whether the two stored parity bits fail. -/
structure LensRow where
  cells : Nat := 0
  prio : Nat := 0
  result : Nat := 0
  birth : Nat := 0
  death : Nat := 0
  born : Bool := false
  dying : Bool := false
  valid : Bool := false
  bad : Bool := false
  deriving DecidableEq, Repr

/-- The lens arrays beside their registers: rows and shadows by 2^14 array + row, rows queued for comparison ahead of others
(R178), the ns of the last and the first row change of the present burst, and the ns at which the present comparison pass
began, each by array (R188, R593). -/
structure LensState where
  rows : SMap LensRow := []
  shadows : SMap LensRow := []
  queued : List (Nat × Nat) := []
  lastChange : SMap Nat := []
  burstStart : SMap Nat := []
  passStart : SMap Nat := []
  /-- Searches of the last 1 ms by array: ns and fraction of rows enabled in units of 1/1,024 (R180). -/
  pwr : SMap (List (Nat × Nat)) := []
  deriving DecidableEq, Repr

/-- An installed prefix in the prefix shadow (R199): its number in the shadow's order, table, length in bits, value left-aligned
in 128 bits, result of 24 B (none when it is only staged), and the staged change: its version, and the result from it on (none
for a delete). -/
structure Prefix where
  id : Nat
  table : Nat
  plen : Nat
  value : Nat
  result : Option Nat
  staged : Option (Nat × Option Nat)
  deriving DecidableEq, Repr

/-- A learn event (R212): table, key of the table's KEYN nibbles, the 16 data nibbles, and the owner as R205 codes it. -/
structure LearnEvent where
  table : Nat
  key : Nat
  data : Nat
  owner : Nat
  deriving DecidableEq, Repr

/-- Tables beside their registers (chapter 7). A line's key is 2^40 x tier + 2^32 x replica groups (of an HBM table) + line; it is a number
of 512 bits, byte 0 least significant. -/
structure TblState where
  lines : SMap Nat := []
  /-- Words that fail parity: 2^48 x replica + 8 x line key + word (R193). -/
  bad : List Nat := []
  /-- SEED[c] of table t, by 2 t + c; never readable (R204, R500). -/
  seeds : SMap Nat := []
  prefixes : List Prefix := []
  nextPrefix : Nat := 0
  /-- Lines given to child nodes and leaves of a trie, by line key; and lines displaced, with the drain round that frees
  them (R201). -/
  taken : List Nat := []
  limbo : List (Nat × Nat) := []
  /-- Lines that a trie may use from the start of its region: key 2 t + tier. -/
  regions : SMap Nat := []
  /-- The regions of table SRAM that the image reserves for placement records and shaper state: first byte and length (R250, R317). -/
  sram : List (Nat × Nat) := []
  learn : List LearnEvent := []
  /-- Hit-bit writes posted and not landed: table, 8 x line key + way (4 for a wide record), key of the entry (R211). -/
  hits : List (Nat × Nat × Nat) := []
  /-- Entries learned lately, with the ns: table, key (R591). -/
  fresh : List (Nat × Nat × Nat) := []
  /-- Aging: the number of the sweep that runs on a table, with the period in force; and the sweep and ns of the last visit of an
  entry, by 2^34 x table + position (R214). -/
  sweep : SMap (Nat × Nat) := []
  visited : SMap (Nat × Nat) := []
  deriving DecidableEq, Repr

/-- A drain round (R229): its number, the prisms whose token has not left, and whether it belongs to a commit takeover. -/
structure Round where
  id : Nat
  left : List Nat
  commit : Bool
  deriving DecidableEq, Repr

/-- Rule versions and drain rounds beside APR_VERSION (chapter 8). -/
structure VerState where
  rounds : List Round := []
  nextRound : Nat := 1
  /-- The ABANDONs that complete with the sweep that runs, with the timebase values of their takeovers, and the VERSION_COMMIT that
  waits: their sequences (R224, R227). -/
  abandoning : List (Nat × Nat) := []
  waiting : Option Nat := none
  /-- Commands that have written staged entries (R227). -/
  stagers : List Nat := []
  /-- The ns of the last takeover (R591). -/
  takeNs : Option Nat := none
  /-- The bank that DRAINING waits for, and the drain round of O's retirement by version: round number (R231, R233). -/
  bankRound : Nat := 0
  verRound : SMap Nat := []
  deriving DecidableEq, Repr

/-- A queued dynamic request for one line of HBM (R417 to R420): pseudo-channel and line, class, whether its hint is open,
whether it writes and what, when it came, and the transfer it belongs to. -/
structure MemReq where
  q : Nat
  line : Nat
  cls : Nat
  hintOpen : Bool
  write : Bool
  data : Nat
  ns : Nat
  who : Nat
  deriving DecidableEq, Repr

/-- What a far request is for (R430, R432): the window read of prism `k` in lookup `id`, a refill, a spill write, or
another transfer. -/
inductive FarKind where
  | window (k id : Nat)
  | refill (who : Nat)
  | spill (who : Nat)
  /-- A table line read for a service facet. -/
  | service (who : Nat)
  /-- A table line written (R210). -/
  | table
  /-- One line that the bulk mover reads, and one that it writes. -/
  | moverRead (who : Nat)
  | moverWrite (who : Nat)
  deriving DecidableEq, Repr

/-- A request that waits for a tag of a far port (R430): its purpose, the ns at which it came, and its far address. -/
structure FarWait where
  port : Nat
  kind : FarKind
  ns : Nat
  addr : Nat
  deriving DecidableEq, Repr

/-- A far request outstanding: its port, number, purpose, the ns it was sent, and its far address. -/
structure FarReq where
  port : Nat
  id : Nat
  kind : FarKind
  ns : Nat
  addr : Nat
  deriving DecidableEq, Repr

/-- HBM and the far ports beside their registers (chapter 15). -/
structure MemState where
  /-- Lines of the HBM dynamic area, as numbers of 512 bits, byte 0 least significant: key 2^25 q + line. -/
  hbm : SMap Nat := []
  /-- Lines of the dynamic area that hold the uncorrectable pattern (R439). -/
  bad : List Nat := []
  queue : List MemReq := []
  /-- What the reads of bulk mover transfers have returned: transfer, line key and data (R457); the lines whose read ended in error, with 1
  poisoned or 2 failed (R439, R455). A line's key is 2^25 q + line in HBM, 2^33 and its address in units of 64 B in the far space. -/
  got : List (Nat × Nat × Nat) := []
  lost : List (Nat × Nat × Nat) := []
  /-- Transfers that a failed stack or an uncorrectable error has ended, and the next transfer number. -/
  failed : List Nat := []
  nextWho : Nat := 1
  /-- Open rows and banks under refresh, as 1 + number: key 64 q + bank, key q. -/
  rows : SMap Nat := []
  refresh : SMap Nat := []
  /-- 1 + the timebase of the last access to a bank, key 64 q + bank (R421); the timebase at which a pseudo-channel's refresh began; the
  banks due for refresh that wait, oldest first: pseudo-channel and bank (R422). -/
  touched : SMap Nat := []
  refreshTb : SMap Nat := []
  due : List (Nat × Nat) := []
  /-- The scrub pass of a group: the lines it has read, and 1 + the ns at which it began (R423). -/
  scrubs : SMap (Nat × Nat) := []
  /-- Retrains: 1 + the ns a stack's began. -/
  retrains : SMap Nat := []
  /-- When each stack last began to retrain, as 1 + ns, and when errors were corrected in it in the last 1 ms (R424). -/
  trained : SMap Nat := []
  corrected : SMap (List Nat) := []
  /-- The present skew window: when it began, whether a retrain keeps it from counting, accesses by pseudo-channel, and
  the run of counted windows at or above, and below, the threshold (R426). -/
  winNs : Nat := 0
  winRetrain : Bool := false
  accesses : SMap Nat := []
  above : Nat := 0
  below : Nat := 0
  /-- SEED, and the first dynamic address of the spill region, from the image (R416, R39). -/
  seed : Nat := 0
  spillBase : Nat := 0
  /-- The first dynamic addresses of the lens shadows and of the prefix shadow, from the image (R39). -/
  shadowBase : Nat := 0
  prefixBase : Nat := 0
  /-- The regions of the dynamic space that the image reserves for another use than spill (lens shadows, prefix shadow and others):
  first byte and length (R39, R409). -/
  reserved : List (Nat × Nat) := []
  /-- Far requests outstanding, next number, latencies of the last 10 µs by port, and the port that supplied the last
  extent. -/
  far : List FarReq := []
  /-- Far requests that wait for a tag (R430). -/
  farWait : List FarWait := []
  nextFar : Nat := 0
  lats : SMap (List (Nat × Nat)) := []
  lastPort : Nat := 15
  deriving DecidableEq, Repr


/-- The state of the device, and the queue of the commands and events that are waiting. -/
structure State where
  pending : List Instr := []
  /-- The operating mode, the one before it, and the cause of SAFE (TOP_MODE, R4, R503). -/
  mode : Mode := .prove
  prev : Mode := .dormant
  safeCause : Nat := 0
  /-- The timebase, in units of 2^-40 ns, and the offset still to be slewed, in the same unit (R400). -/
  tb : Nat := 0
  slew : Int := 0
  /-- The offset is a correction against the parent in the fabric (R377), not one of TIME_ADJ. -/
  fabSlew : Bool := false
  /-- The number of open values drawn so far: the model's own field, not the spec's. -/
  free : Nat := 0
  /-- Every register that does not read as its reset value, by BAR0 offset (R575). -/
  regs : SMap Word := []
  /-- What the device has sent, in order: the model's own record of its outputs. -/
  out : List Emit := []
  pace : PaceState := {}
  fault : FaultState := {}
  power : PowerState := {}
  cmd : CmdState := {}
  boot : BootState := {}
  bist : BistState := {}
  cnt : CntState := {}
  buf : BufState := {}
  apr : AprState := {}
  col : ColState := {}
  mac : MacState := {}
  irises : SMap Iris := []
  fab : FabState := {}
  host : HostState := {}
  code : CodeState := {}
  lens : LensState := {}
  tbl : TblState := {}
  ver : VerState := {}
  mig : MigState := {}
  mem : MemState := {}
  loss : LossState := {}
  /-- Cells that the command that runs has freed: none of them is allocated before it ends (R263). -/
  freed : List Nat := []
  deriving DecidableEq, Repr

/-- The state on leaving DORMANT (R19, R503): PROVE, every register at its reset value, nothing listed. -/
def State.reset : State := {}

end Sys2Proof.Machine
end

