-- ==== Sys2Proof/WellFormed.lean ====
section
/-! DEFINITION. Well-formedness: every operand names an instance the device has (R3, R20) and fits its width. -/
namespace Sys2Proof

/-- A host function that exists: endpoint 0 or 1, a PF code 0 to 7 of that endpoint or a VF code (R433). -/
def HostSrc.wf (h : HostSrc) : Bool :=
  decide (h.ep < 2) && (decide (h.func < 8 ∧ h.func / 4 = h.ep) || decide (4096 ≤ h.func ∧ h.func < 8192))

/-- Every operand names an instance that exists and fits the width the spec gives it. -/
def Instr.wf : Instr → Bool
  | .cmdDoorbell src ring value => src.wf && decide (ring < 64) && decide (value < 2 ^ 64)
  | .commandAccept _ => true
  | .commandComplete _ _ => true
  | .gatePulse => true
  | .gateTimeout _ => true
  | .tblInsert _ _ => true
  | .tblDelete _ _ => true
  | .tblSearch _ _ => true
  | .tblNext _ => true
  | .tblFlushPort _ => true
  | .lensWrite _ _ => true
  | .lensDeath _ _ => true
  | .lensRevive _ _ => true
  | .lensInvalidate _ => true
  | .versionStageOpen _ => true
  | .versionStageAbandon _ => true
  | .abandonSweepComplete => true
  | .versionCommit _ => true
  | .commitTakeover => true
  | .mcodePatch _ _ => true
  | .shaperSet _ => true
  | .shaperQuery _ => true
  | .gateListSet _ _ => true
  | .gateListStop _ => true
  | .meterSet _ => true
  | .epMigrateLocal _ => true
  | .epMigrateOut _ => true
  | .epMigrateIn _ => true
  | .migTokenArrival idx => decide (idx < 256)
  | .fenceLimitExpiry idx => decide (idx < 256)
  | .tailWindowEnd idx => decide (idx < 256)
  | .markerLimitExpiry idx => decide (idx < 256)
  | .epPark _ => true
  | .parkComplete ep => decide (ep < 2 ^ 20)
  | .epUnpark _ => true
  | .expose _ => true
  | .exposureSeal => true
  | .exposureTimeout => true
  | .counterClear _ => true
  | .mirrorSet _ => true
  | .fabAddressQuery _ => true
  | .fabAddressSet _ => true
  | .fabAddressClaim _ => true
  | .claimTimeout _ => true
  | .fabLinkDisable _ => true
  | .fabLinkEnable _ => true
  | .fabLinkRetrain _ => true
  | .fabLinkWidth _ => true
  | .fabLinkAutoOff _ => true
  | .fabLinkAutoOn _ => true
  | .modeRequestQuery _ => true
  | .modeRequestRestart _ => true
  | .modeRequestSafe _ => true
  | .modeRequestTakeover => true
  | .nop _ => true
  | .unknownCode _ => true
  | .registerWrite src bar _ words => src.wf && decide (bar < 3) && decide (words.length ≤ 9) && words.all fun w => decide (w.1 < 2 ^ 64) && decide (w.2 < 256)
  | .paceTargetWrite src value => src.wf && decide (value < 2 ^ 64)
  | .paceXoffInWrite src idx value => src.wf && decide (idx < 8) && decide (value < 2 ^ 64)
  | .paceXoffOutWrite src idx value => src.wf && decide (idx < 8) && decide (value < 2 ^ 64)
  | .bufWmWrite src n value => src.wf && decide (n < 1024) && decide (value < 2 ^ 64)
  | .aprResWrite src r value => src.wf && decide (r < 4096) && decide (value < 2 ^ 64)
  | .swcDqWrite src q value => src.wf && decide (q < 65536) && decide (value < 2 ^ 64)
  | .hostQWrite src q value => src.wf && decide (q < 16384) && decide (value < 2 ^ 64)
  | .hostQbaseWrite src q value => src.wf && decide (q < 16384) && decide (value < 2 ^ 64)
  | .queueDoorbell src q value => src.wf && decide (q < 16384) && decide (value < 2 ^ 64)
  | .dmaRingWrite src value => src.wf && decide (value < 2 ^ 64)
  | .dmaDoorbell src value => src.wf && decide (value < 2 ^ 64)
  | .cmdRingWrite src ring value => src.wf && decide (ring < 64) && decide (value < 2 ^ 64)
  | .cmdPostWrite src ring value => src.wf && decide (ring < 64) && decide (value < 2 ^ 64)
  | .timeAdjWrite src value => src.wf && decide (value < 2 ^ 64)
  | .timeOffsetWrite src value => src.wf && decide (value < 2 ^ 64)
  | .msaInstall src value => src.wf && decide (value < 2 ^ 64)
  | .msaInvalidate src value => src.wf && decide (value < 2 ^ 64)
  | .msaReadPn src value => src.wf && decide (value < 2 ^ 64)
  | .msecPortWrite src n value => src.wf && decide (n < 96) && decide (value < 2 ^ 64)
  | .macPreemptWrite src n value => src.wf && decide (n < 96) && decide (value < 2 ^ 64)
  | .cntProbeWrite src value => src.wf && decide (value < 2 ^ 64)
  | .bistWindowOpen src value => src.wf && decide (value < 2 ^ 64)
  | .bistWindowReady => true
  | .bistStart src value => src.wf && decide (value < 2 ^ 64)
  | .bistWindowClose src value => src.wf && decide (value < 2 ^ 64)
  | .fltForceWrite src w value => src.wf && decide (w < 4) && decide (value < 2 ^ 64)
  | .fltStatusClear src w value => src.wf && decide (w < 4) && decide (value < 2 ^ 64)
  | .topModeReqRestart src value => src.wf && decide (value < 2 ^ 64)
  | .keepTodWrite src value => src.wf && decide (value < 2 ^ 64)
  | .hostWakeClear src w value => src.wf && decide (w < 64) && decide (value < 2 ^ 64)
  | .captureRearm src off value => src.wf && decide (off < 2 ^ 26) && decide (value < 2 ^ 64)
  | .cntXringWrite src value => src.wf && decide (value < 2 ^ 64)
  | .aprBqRead src _ => src.wf
  | .fltEvqRead src _ => src.wf
  | .cntLoupeRead src _ => src.wf
  | .macPtpTsRead src n _ => src.wf && decide (n < 96)
  | .configRequest src reg _ value => src.wf && decide (reg < 4096) && decide (value < 2 ^ 32)
  | .smbJrnPointer _ => true
  | .smbJrnRead _ => true
  | .smbJrnStatus _ => true
  | .smbLogPointer _ => true
  | .smbLogRead _ => true
  | .smbModeQuery _ => true
  | .smbModeRestart _ => true
  | .smbModeSafe _ => true
  | .smbUnlistedCommand code _ => decide (code < 256)
  | .frameReceive n _ firstNs _ kind _ => decide (n < 96) && decide (firstNs < 2 ^ 48) && decide (kind < 3)
  | .cellWrite src bank => decide (src < 384) && decide (bank < 96)
  | .pauseRefresh n => decide (n < 96)
  | .pauseFrame n quanta => decide (n < 96) && decide (quanta < 2 ^ 16)
  | .priorityPauseFrame n enable quanta => decide (n < 96) && decide (enable < 256) && decide (quanta.length = 8) && quanta.all fun q => decide (q < 2 ^ 16)
  | .pauseExpiry n prio => decide (n < 96) && decide (prio < 9)
  | .xoffInChange idx _ => decide (idx < 8)
  | .cutSegmentPresent n => decide (n < 96)
  | .parseCut k => decide (k < 16)
  | .frameEndReport n => decide (n < 96)
  | .apertureDecision src => decide (src < 384)
  | .prismStep k _ => decide (k < 16)
  | .returnReady k => decide (k < 16)
  | .farLate k => decide (k < 16)
  | .enqueue => true
  | .switchCutStart cut => decide (cut.port < 96) && cut.bad.all fun k => decide (k < 64)
  | .spillWriteComplete leaf => decide (leaf < 2 ^ 20 + 2 ^ 15)
  | .spillBlockFlush _ _ => true
  | .refillStart leaf => decide (leaf < 2 ^ 20 + 2 ^ 15)
  | .refillComplete leaf _ => decide (leaf < 2 ^ 20 + 2 ^ 15)
  | .collimatorSelect o bad => decide (o < 99) && bad.all fun k => decide (k < 64)
  | .shaperTick key => decide (key < 99) || decide (256 ≤ key ∧ key < 256 + 792) || decide (2048 ≤ key ∧ key < 2048 + 792) || decide (65536 ≤ key ∧ key < 131072) || decide (2 ^ 20 ≤ key ∧ key < 2 ^ 21)
  | .starve leaf => decide (leaf < 2 ^ 20)
  | .gateTransition o => decide (o < 96)
  | .gateChange o => decide (o < 96)
  | .linkUp n => decide (n < 96)
  | .macLink n _ _ _ => decide (n < 96)
  | .breachLink leaf => decide (leaf < 2 ^ 20)
  | .breachPause leaf => decide (leaf < 2 ^ 20)
  | .cellFree cell requester _ => decide (cell < 786432) && decide (requester < 292)
  | .chainHandoff cell requester owner => decide (cell < 786432) && decide (requester < 292) && decide (owner < 292)
  | .verifyTimer n _ => decide (n < 96)
  | .versionRetire => true
  | .settlePassComplete a => decide (a < 17)
  | .paceWindowEnd _ others => others.length == 63
  | .paceVgood _ => true
  | .paceVmaxN _ => true
  | .vgoodTimeout => true
  | .serviceWorkArrival sf role => decide (sf < 32) && decide (role < 6)
  | .serviceWordIssue sf => decide (sf < 32)
  | .serviceResult sf data => decide (sf < 32) && decide (data.length ≤ 64)
  | .blockResetComplete b => decide (b < 48)
  | .blockResetFail b => decide (b < 48)
  | .learnInsert => true
  | .agingVisit t => decide (t < 256)
  | .hitWrite => true
  | .lensCompare a _ => decide (a < 16)
  | .irisCellReceive idx bytes => decide (idx < 64) && decide (bytes.length = 272)
  | .rtReadySend idx => decide (idx < 64)
  | .irisCtrlSend idx => decide (idx < 64)
  | .ackTimeout idx => decide (idx < 64)
  | .retryBudget idx => decide (idx < 64)
  | .callSend idx => decide (idx < 64)
  | .echoMissed idx => decide (idx < 64)
  | .irisTrained idx width lanes => decide (idx < 64) && decide (width < 3) && decide (lanes < 16)
  | .laneLockLoss idx lane => decide (idx < 64) && decide (lane < 4)
  | .laneThreshold idx lane _ => decide (idx < 64) && decide (lane < 4)
  | .rtReqRepeat idx => decide (idx < 64)
  | .retrainComplete idx => decide (idx < 64)
  | .retrainTimeout idx => decide (idx < 64)
  | .gaspRepeat idx => decide (idx < 64)
  | .advertReceive => true
  | .advertSend => true
  | .advertExpiry => true
  | .addressClaim => true
  | .claimHoldEnd => true
  | .routeCompute => true
  | .sprayEpoch => true
  | .reorderTimeout device cls => decide (device < 4096) && decide (cls < 8)
  | .gapLimit device cls => decide (device < 4096) && decide (cls < 8)
  | .irisDeadline device cls => decide (device < 4096) && decide (cls < 8)
  | .tsyncSend => true
  | .treplyReceive => true
  | .fabTimeLost => true
  | .dynamicRequest q bank => decide (q < 256) && decide (bank < 64)
  | .hbmRefresh q bank _ => decide (q < 256) && decide (bank < 64)
  | .hbmScrub q line errors => decide (q < 256) && decide (line < 18874368) && decide (errors < 3)
  | .hbmRetrainStart m => decide (m < 8)
  | .hbmRetrainComplete m => decide (m < 8)
  | .hbmRetrain m => decide (m < 8)
  | .skewWindow => true
  | .farCompletion f _ status _ _ => decide (f < 16) && decide (status < 3)
  | .farLink f => decide (f < 16)
  | .descriptorReadComplete q _ _ => decide (q ≤ 16384)
  | .descriptorReread q => decide (q ≤ 16384)
  | .txDescriptor q _ _ => decide (q < 16384)
  | .completionTimeout _ _ => true
  | .msixModeration func vec => decide (func < 8192) && decide (vec < 2048)
  | .functionLevelReset src => src.wf
  | .hxPerstN ep _ => decide (ep < 2)
  | .dmaDescriptorStart => true
  | .dmaPulse number _ status _ => decide (number < 2 ^ 16) && status.all fun x => decide (x < 3)
  | .exportRecord _ => true
  | .captureWrite _ => true
  | .ppsOut => true
  | .chipResetComplete => true
  | .resetNLow => true
  | .dormantExit => true
  | .railGroupGood g => decide (g < 4)
  | .railFail g good => decide (g < 4) && decide (good < 256)
  | .railRetry => true
  | .pwrfailN => true
  | .coreSupplyLost => true
  | .holdUpIsolation => true
  | .holdUpExit => true
  | .keeperSwitch mainMv auxMv => decide (mainMv < 4096) && decide (auxMv < 4096)
  | .keeperReturnMain mainMv auxMv _ => decide (mainMv < 4096) && decide (auxMv < 4096)
  | .keeperBrownout mainMv auxMv => decide (mainMv < 4096) && decide (auxMv < 4096)
  | .thermalSample temps => decide (temps.length = 32) && temps.all fun t => decide (t < 256)
  | .flashDiscovery _ _ densityMib => decide (densityMib < 2 ^ 16)
  | .slotAuthenticate _ => true
  | .bistUnitComplete g sig _ => decide (g < 8) && decide (sig < 2 ^ 64)
  | .bistPlanEnd => true
  | .farPortEnumerate ports => decide (ports.length = 16) && ports.all fun p => decide (p.1 ≤ 8) && decide (p.2.1 < 3)
  | .loadApply _ _ => true
  | .loadSched => true
  | .journalScan _ => true
  | .serveEntry _ => true
  | .keeperStart mainMv auxMv => decide (mainMv < 4096) && decide (auxMv < 4096)
  | .railSequenceStart => true
  | .resetNHigh => true
  | .pwrfailNHigh => true
  | .bistGroupStart g => decide (g < 8)
  | .previousAddressExpiry => true
  | .openRowTimeout q bank => decide (q < 256) && decide (bank < 64)
  | .setAndHoldMac o => decide (o < 96)
  | .spillRateWindow => true
  | .hostLinkTrained ep _ rate width => decide (ep < 2) && decide (rate < 5) && decide (width ≤ 16)

end Sys2Proof
end

