-- ==== Sys2Proof/Machine/Ops.lean ====
section
/-! DEFINITION. The named operations over the state: registers and their fields, time, free values, outputs,
CRCs. -/
namespace Sys2Proof.Machine

/-- The leaf queues that a descriptor joins: its own, and those of the further members of its group. -/
def Pkt.leaves (p : Pkt) : List Nat := p.leaf :: p.aims.map (·.leaf)

/-! ### Registers -/

/-- The default reactions of a fault source as the low byte of FLT_REACT (R523, R524): bit 0 IRQ, 1 NMI, 2 BLOCK,
3 CHIP, 4 PIN, 5 HOLD. -/
def defaultReaction (n : Nat) : Nat :=
  match n with
  | 0 => 0x21 | 1 => 0x1A | 2 => 1 | 3 => 0x1A | 4 => 1 | 5 => 2 | 6 => 0x1A | 7 => 0
  | 10 => 5 | 12 => 2 | 20 => 0x11 | 22 => 0x11 | 25 => 0x11 | 29 => 0x11
  | 34 => 3 | 35 => 3 | 36 => 0x13 | 37 => 0x1A
  | _ => if n ≤ 33 then 1 else if 64 ≤ n ∧ n < 240 then 1 else if 240 ≤ n ∧ n < 248 then 3 else 0

/-- A fault source that R523 lists (R522). -/
def sourceListed (n : Nat) : Bool := decide (n ≤ 37) || decide (64 ≤ n ∧ n < 248)

/-- The value of the register at a BAR0 offset on leaving DORMANT (R19): FLT_REACT holds its defaults (R547),
the fused registers their fuses, KEEP_EVENT.CAUSE its value for first start (R483), every other register the value of
its table. -/
def resetWord (off : Nat) : Word :=
  if 0x201000 ≤ off ∧ off < 0x201800 then BitVec.ofNat 64 (defaultReaction ((off - 0x201000) / 8))
  else if off = 8 then Config.uid
  else if off = 0x100018 then BitVec.ofNat 64 (2 * 2 ^ 54)
  else if 0x500040 ≤ off ∧ off < 0x500070 then
    BitVec.ofNat 64 (leVal ((List.range 8).map fun i => Config.keyHash (off - 0x500040 + i)))
  else match resetTable.find? fun r => decide (r.1 ≤ off) && dimsHit r.2.1 (off - r.1) with
    | some r => BitVec.ofNat 64 r.2.2
    | none => 0

/-- The stored word of a register. -/
def State.word (s : State) (off : Nat) : Word := SMap.find resetWord s.regs off

/-- A field of a register. -/
def State.get (s : State) (l : Loc) : Nat := bitsGet (s.word l.off).toNat l.lo l.w

/-- A one-bit field of a register. -/
def State.bit (s : State) (l : Loc) : Bool := s.get l == 1

/-- The state with one register word replaced. -/
def State.setWord (s : State) (off : Nat) (v : Word) : State := { s with regs := s.regs.put resetWord off v }

/-- The state with one field of a register replaced. -/
def State.set (s : State) (l : Loc) (v : Nat) : State :=
  s.setWord l.off (BitVec.ofNat 64 (bitsSet (s.word l.off).toNat l.lo l.w v))

/-- A one-bit field set or cleared. -/
def State.setBit (s : State) (l : Loc) (b : Bool) : State := s.set l (b2n b)

/-- Adds to a statistic that saturates at the largest value of its field (R548). -/
def State.sat (s : State) (l : Loc) (k : Nat) : State := s.set l (satAdd l.w (s.get l) k)

/-- Adds to a statistic that wraps at the width of its field (R548). -/
def State.wrap (s : State) (l : Loc) (k : Nat) : State := s.set l (wrapAdd l.w (s.get l) k)

/-- Takes a field to `v` when `v` exceeds it (peak fields). -/
def State.peak (s : State) (l : Loc) (v : Nat) : State := if s.get l < v then s.set l (min v (2 ^ l.w - 1)) else s

/-- Takes a field to its value less `k`, stopping at 0. -/
def State.dec (s : State) (l : Loc) (k : Nat) : State := s.set l (s.get l - k)

/-! ### Time, outputs, free values -/

/-- The timebase in ns, modulo 2^48 as every register and record shows it (R400). -/
def State.now (s : State) : Nat := s.tb / 2 ^ 40 % 2 ^ 48

/-- The timebase in whole ns, without the wrap of 48 bits. -/
def State.ns (s : State) : Nat := s.tb / 2 ^ 40

/-- Appends one output. -/
def State.emit (s : State) (e : Emit) : State := { s with out := s.out ++ [e] }

/-- A fresh open value: the number drawn, and the state with the draw counted. -/
def State.draw (s : State) : Nat × State := (Config.open_ s.free, { s with free := s.free + 1 })

/-- Whether the core runs: every mode but DORMANT, and HOLD-UP only until its isolation (R41, R517). -/
def State.coreUp (s : State) : Bool :=
  match s.mode with
  | .dormant => false
  | .holdUp => !s.power.isolated
  | _ => true

/-- Whether packets are forwarded: SERVE, or HOLD-UP entered from SERVE until isolation, with no chip reset raised
(R41, R517, R529). -/
def State.forwarding (s : State) : Bool :=
  (s.mode == .serve || (s.mode == .holdUp && s.power.holdFrom == .serve && !s.power.isolated)) && !s.fault.chipReset

/-! ### Host functions and links (R433, R435, R586) -/

/-- The PF that owns a VF, in PF order: 8 when no PF has it. -/
def vfOwner : List Nat → Nat → Nat → Nat
  | [], pf, _ => pf
  | n :: ns, pf, v => if v < n then pf else vfOwner ns (pf + 1) (v - n)

/-- The physical function of a function code, and its endpoint. -/
def State.pfOf (s : State) (func : Nat) : Nat := if 4096 ≤ func then vfOwner s.host.vfs 0 (func - 4096) else func % 8
def State.epOfFunc (s : State) (func : Nat) : Nat := s.pfOf func / 4

/-- The host link of a PF: 0 or 1 for H0 or H1, whole or on lanes 0 to 7, and 2 or 3 for lanes 8 to 15 of a bifurcated one, where PFs
4x + 2 and 4x + 3 sit (R433); 4, which is no link, for a VF that no PF has. -/
def State.linkOfPf (s : State) (pf : Nat) : Nat :=
  if 8 ≤ pf then 4 else pf / 4 + (if s.power.hxBif.getD (pf / 4) false && decide (2 ≤ pf % 4) then 2 else 0)
def State.linkOf (s : State) (func : Nat) : Nat := s.linkOfPf (s.pfOf func)

/-- Whether the endpoint's reset pin is high, and whether a link is out of reset (R586). -/
def State.epUp (s : State) (ep : Nat) : Bool := s.power.perstN.getD ep false
def State.hostUp (s : State) (link : Nat) : Bool := decide (link < 4) && s.epUp (link % 2)

/-- What a host link carries out of the package: nothing while it is held in reset. -/
def State.hostOut (s : State) (link : Nat) (es : List Emit) : List Emit := if s.hostUp link then es else []

/-- Sends over a host link. -/
def State.toHost (s : State) (link : Nat) (e : Emit) : State := if s.hostUp link then s.emit e else s

/-- The Max Payload Size and the Max Read Request Size of a function, in bytes: 128 to 512, and 128 to 4,096 (R435); 128 and 512 until they
are written (PRESUMED, log 195). -/
def State.maxPayload (s : State) (func : Nat) : Nat := 128 * 2 ^ min 2 (SMap.find (fun _ => (0, 2)) s.host.sizes func).1
def State.maxRead (s : State) (func : Nat) : Nat := 128 * 2 ^ min 5 (SMap.find (fun _ => (0, 2)) s.host.sizes func).2

/-- Bytes cut into pieces of `size`. -/
def pieces (size : Nat) : Nat → List Byte → List (List Byte)
  | 0, _ => []
  | fuel + 1, bs => if bs.length ≤ size then [bs] else bs.take size :: pieces size fuel (bs.drop size)

/-- The writes that carry bytes to host memory, each within a payload of `unit` bytes; a write that holds a line whose data is bad is
poisoned (R439). -/
def hostWrites (link unit addr : Nat) (bytes : List Byte) (ns ro : Bool) (bad : Nat → Bool) : List Emit :=
  let ps := pieces unit (bytes.length + 1) bytes
  ps.zipIdx.map fun x =>
    .hostWrite link (addr + unit * x.2) x.1 ns ro ((List.range (ceilDiv x.1.length 64)).any fun i => bad ((unit * x.2) / 64 + i))

/-- The requests that read host memory, each for at most `unit` bytes. -/
def hostReads (link unit addr len : Nat) : List Emit :=
  (List.range (ceilDiv len unit)).map fun i => .hostRead link (addr + unit * i) (min unit (len - unit * i)) false false

/-- What a PF sends to read or to write host memory for itself, with No Snoop and Relaxed Ordering 0. -/
def State.pfReads (s : State) (pf addr len : Nat) : List Emit :=
  s.hostOut (s.linkOfPf pf) (hostReads (s.linkOfPf pf) (s.maxRead pf) addr len)
def State.pfWrites (s : State) (pf addr : Nat) (bytes : List Byte) : List Emit :=
  s.hostOut (s.linkOfPf pf) (hostWrites (s.linkOfPf pf) (s.maxPayload pf) addr bytes false false fun _ => false)

/-- Appends outputs. -/
def State.emitAll (s : State) (es : List Emit) : State := { s with out := s.out ++ es }

/-! ### Prisms and service facets -/

def State.prism (s : State) (k : Nat) : Prism := SMap.find (fun _ => {}) s.code.prisms k
def State.setPrism (s : State) (k : Nat) (p : Prism) : State :=
  { s with code := { s.code with prisms := s.code.prisms.put (fun _ => {}) k p } }
def State.service (s : State) (i : Nat) : Service := SMap.find (fun _ => {}) s.code.services i
def State.setService (s : State) (i : Nat) (v : Service) : State :=
  { s with code := { s.code with services := s.code.services.put (fun _ => {}) i v } }

/-- A service facet holds a role: 0 command execution, 1 learning, 2 aging, 3 exception, 4 route, 5 export (R35). -/
def State.holdsRole (s : State) (sf role : Nat) : Bool := (SMap.find (fun _ => 0) s.code.roles sf).testBit role

/-- A service facet can take work of a role: it holds the role, and is neither parked nor in reset (R137, R138). -/
def State.facetServes (s : State) (sf role : Nat) : Bool :=
  s.holdsRole sf role && !(s.service sf).parked && !s.fault.blocks.contains (16 + sf)

/-- Some service facet can take work of a role (R34, R35); while a self-test plan runs they take command execution alone (R545). -/
def State.roleUp (s : State) (role : Nat) : Bool :=
  (role == 0 || s.bist.plan.isNone) && (List.range 32).any fun sf => s.facetServes sf role

/-- Self-test unit `u` is under test (R539). -/
def State.testing (s : State) (u : Nat) : Bool := s.bist.running.any fun g => g.2.head? == some u

/-- The items that a service facet holds: running, saved, waiting. -/
def Service.items (v : Service) : List Item := v.running.toList ++ v.saved ++ v.queue

/-- Every item of every service facet. -/
def State.allItems (s : State) : List Item := s.code.services.flatMap fun e => e.2.items

/-- The packets inside a prism. -/
def Prism.packets (p : Prism) : List Pkt := p.flights.filterMap fun f => f.pkt

/-- Every packet in the device (R557): before a prism, in it, handed off, in leaf queues, in exception queues and service
facets, in fences, and copies. -/
def State.livePkts (s : State) : List Pkt :=
  (s.buf.toPrism.flatMap (·.2)) ++ (s.code.prisms.flatMap fun e => e.2.packets) ++ (s.code.excepts.map (·.2)) ++
    (s.allItems.filterMap fun x => x.pkt) ++ s.buf.handoff ++ (s.buf.cutting.map (·.2)) ++ (s.buf.leaves.flatMap (·.2)) ++
    (s.mig.open_.flatMap fun m => m.fence) ++ (s.cnt.captures.map fun e => e.2.2)

/-- The packets accepted and not yet delivered or dropped (R529, R535). -/
def State.inFlight (s : State) : Nat := (s.livePkts.filter fun p => p.accepted).length

/-! ### What a reset discards (R61, R75) -/

/-- One counter of a map of 64-bit counters goes up by `n`. -/
def bump (m : SMap Nat) (k n : Nat) : SMap Nat := m.put (fun _ => 0) k (wrapAdd 64 (SMap.find (fun _ => 0) m k) n)

/-- `n` packets inside a block are flushed. -/
def State.flush (s : State) (b n : Nat) : State := { s with loss := { s.loss with flushed := bump s.loss.flushed b n } }

/-- A port still sends a frame, or holds the rest of one. -/
def State.leaving (s : State) (x : Sending) : Bool := decide (s.tb < x.endTb ∨ x.left ≠ 0)

/-- The crossing of each item that has left one side of a clock-domain crossing and not been delivered: frames between the MACs and
packet memory, cells and records that wait for an iris, requests of HBM, the far ports and the host links. -/
def State.crossing (s : State) : List Nat :=
  ((s.buf.rx.filter fun r => decide (r.pkt.src < 96)).map fun r => r.pkt.src) ++
    ((s.mac.sending.filter fun e => e.2.any s.leaving).map fun e => e.1) ++
    (s.irises.flatMap fun e => List.replicate (e.2.linkCells.length + e.2.records.length) (96 + e.1)) ++
    (s.mem.queue.map fun r => 160 + r.q) ++ (s.mem.far.map fun r => 416 + r.port) ++ (s.mem.farWait.map fun r => 416 + r.port) ++
    (s.host.reads.map fun r => 432 + r.link % 2) ++ (s.host.waits.map fun r => 432 + r.link % 2)

/-- The items of the crossings in `p` are discarded, counted, and charged to `cause`. -/
def State.discardItems (s : State) (p : Nat → Bool) (cause : Nat) : State :=
  let items := s.crossing.filter p
  { s with loss := { s.loss with
      discarded := items.foldl (fun m k => bump m k 1) s.loss.discarded
      charged := if items.isEmpty then s.loss.charged else bump s.loss.charged cause items.length } }

/-- Every packet inside a block of the core is flushed, and counted there. -/
def State.flushAll (s : State) : State :=
  let inPrisms := s.code.prisms.foldl (fun (t : State) e => t.flush e.1 e.2.packets.length) s
  let atPrisms := s.buf.toPrism.foldl (fun (t : State) e => t.flush e.1 e.2.length) inPrisms
  let services := s.code.services.foldl (fun (t : State) e => t.flush (16 + e.1) (e.2.items.filter fun i => i.pkt.isSome).length) atPrisms
  (services.flush 48 s.buf.rx.length).flush 49
    (s.buf.handoff.length + s.buf.cutting.length + s.code.excepts.length + (s.buf.leaves.flatMap (·.2)).length +
      (s.mig.open_.flatMap fun m => m.fence).length)

/-! ### CRCs -/

/-- One byte through the reflected CRC-32C, polynomial 0x1EDC6F41, reflected 0x82F63B78 (R335). -/
def crc32cBits : Nat → Nat → Nat
  | 0, c => c
  | n + 1, c => crc32cBits n (if c % 2 = 1 then (c / 2) ^^^ 0x82F63B78 else c / 2)

/-- CRC-32C of a byte string: initial value and final inversion of all ones (R335). -/
def crc32c (bs : List Byte) : Nat :=
  (bs.foldl (fun c b => crc32cBits 8 (c ^^^ b.toNat)) 0xFFFFFFFF) ^^^ 0xFFFFFFFF

/-! ### Little-endian records -/

/-- A block of `n` zero bytes with the listed fields written over it: offset, size, value (R12, R13). -/
def record (n : Nat) (fields : List (Nat × Nat × Nat)) : List Byte :=
  let v := fields.foldl (fun acc f => acc + (f.2.2 % 2 ^ (8 * f.2.1)) * 2 ^ (8 * f.1)) 0
  leBytes n v

end Sys2Proof.Machine
end

