-- ==== Sys2Proof/Machine/Flags.lean ====
section
/-! DEFINITION. Counters with their WRAP bits and exposure snapshots, and the fault collector: latching, records,
reactions, the fault log. -/
namespace Sys2Proof.Machine

/-! ### Counters (R548, R556, R557) -/

/-- The key of a store counter's WRAP bit in CntState.wraps: pair `i`, half 0 packets or 1 bytes. -/
def pairWrapKey (i half : Nat) : Nat := 2 ^ 26 + 2 * i + half

/-- One counter word after an add, and whether the add carried past 2^64 - 1 (R548). -/
def counterAdd (v k : Nat) : Nat × Bool := ((v + k) % 2 ^ 64, decide (2 ^ 64 ≤ v + k))

/-- Adds `k` to a register counter for an update whose exposure time is `t` ns: to the live value, and to the open
exposure's snapshot when `t` lies before its cut (R557). -/
def State.countAt (s : State) (l : Loc) (k t : Nat) : State :=
  let a := counterAdd (s.word l.off).toNat k
  let s1 := s.setWord l.off (BitVec.ofNat 64 a.1)
  let w1 := if a.2 then s1.cnt.wraps.put (fun _ => false) l.off true else s1.cnt.wraps
  let e1 := s1.cnt.exposure.map fun e =>
    if t < e.cut then
      let b := counterAdd (SMap.find resetWord e.snapRegs l.off).toNat k
      { e with
        snapRegs := e.snapRegs.put resetWord l.off (BitVec.ofNat 64 b.1)
        snapWraps := if b.2 then e.snapWraps.put (fun _ => false) l.off true else e.snapWraps }
    else e
  { s1 with cnt := { s1.cnt with wraps := w1, exposure := e1 } }

/-- Takes back from the open exposure's snapshot `k` that a register counter counted for a packet whose exposure time turns out to lie at or
behind the cut (R556); the carry of that count goes too. -/
def State.uncount (s : State) (l : Loc) (k : Nat) : State :=
  { s with cnt := { s.cnt with exposure := s.cnt.exposure.map fun e =>
      let v := (SMap.find resetWord e.snapRegs l.off).toNat
      { e with
        snapRegs := e.snapRegs.put resetWord l.off (BitVec.ofNat 64 (v + 2 ^ 64 - k))
        snapWraps := if v < k then e.snapWraps.put (fun _ => false) l.off false else e.snapWraps } } }

/-- A frame that the MAC counted before an exposure's cut, and that is decided at or behind it, counts in the next exposure (R556). -/
def State.countLater (s : State) (f : RxFrame) : State :=
  match s.cnt.exposure, f.countedNs with
  | some e, some t =>
    if t < e.cut ∧ e.cut ≤ s.ns then (s.uncount (R.MAC_CNT.COUNT f.pkt.src 0) 1).uncount (R.MAC_CNT.COUNT f.pkt.src 1) f.wire else s
  | _, _ => s

/-- A count of an event tied to no packet: its exposure time is the time at which it is counted (R555). -/
def State.count (s : State) (l : Loc) (k : Nat) : State := s.countAt l k s.ns

/-- Adds to one half of a store counter pair, with the exposure time of the packet (R550, R551). -/
def State.countPair (s : State) (i half k t : Nat) : State :=
  let key := 2 * i + half
  let wk := pairWrapKey i half
  let a := counterAdd (SMap.find (fun _ => 0) s.cnt.pairs key) k
  let e1 := s.cnt.exposure.map fun e =>
    if t < e.cut then
      let b := counterAdd (SMap.find (fun _ => 0) e.snapPairs key) k
      { e with
        snapPairs := e.snapPairs.put (fun _ => 0) key b.1
        snapWraps := if b.2 then e.snapWraps.put (fun _ => false) wk true else e.snapWraps }
    else e
  { s with cnt := { s.cnt with
      pairs := s.cnt.pairs.put (fun _ => 0) key a.1
      wraps := if a.2 then s.cnt.wraps.put (fun _ => false) wk true else s.cnt.wraps
      exposure := e1 } }

/-! ### The fault log (R535) -/

/-- The 32 B of a fault log record; its last four bytes are the CRC-32C of the first 28. -/
def faultLogBytes (seq source mode : Nat) (forced escalated chip : Bool) (time info deficit inFlight : Nat) : List Byte :=
  let body := record 28 [(0, 4, seq), (4, 1, source),
    (5, 1, mode + 8 * b2n forced + 16 * b2n escalated + 32 * b2n chip),
    (8, 6, time), (16, 4, info), (20, 4, deficit), (24, 4, min inFlight (2 ^ 32 - 1))]
  body ++ leBytes 4 (crc32c body)

/-- Writes one fault log record in slot HEAD mod 1,024 and advances HEAD. -/
def State.logFault (s : State) (source info : Nat) (forced escalated chip : Bool) (time : Nat) : State :=
  let head := s.get R.FLT_LOG.HEAD
  let bytes := faultLogBytes head source s.mode.code forced escalated chip time info
    (if source = 1 then s.pace.deficit else 0) (if chip then s.inFlight else 0)
  let base := 0x208000 + 32 * (head % 1024)
  let s1 := (List.range 4).foldl (fun t i => t.setWord (base + 8 * i) (BitVec.ofNat 64 (leAt bytes (8 * i) 8))) s
  s1.set R.FLT_LOG.HEAD (wrapAdd 32 head 1)

/-! ### Raising a fault (R525 to R535) -/

/-- The bit of FLT_STATUS that source `n` latches (R522). -/
def faultBit (n : Nat) : Loc := ⟨0x200000 + 8 * (n / 64), n % 64, 1⟩

/-- Puts a record in the event queue of 512; a record overwritten is counted as lost (R534, R63). -/
def State.postFault (s : State) (e : FaultEvent) : State :=
  let q := fifoPush 512 s.fault.queue e
  let s1 := { s with fault := { s.fault with queue := q.1 } }
  if q.2 = 0 then s1 else s1.count R.FLT_EVQ_LOST.COUNT q.2

/-- Puts a prism (0 to 15) or service facet (16 + s) into block reset; one already in reset starts no second
(R138, R525). -/
def State.blockReset (s : State) (b : Nat) : State :=
  if s.fault.blocks.contains b then s else { s with fault := { s.fault with blocks := s.fault.blocks ++ [b] } }

/-- The HOLD reaction: bounded admission stops and the clear run starts again (R57, R58, R524). -/
def State.admitHold (s : State) : State :=
  (s.setBit R.PACE_STATUS.ADMIT_HOLD true).set R.PACE_STATUS.CLEAR_RUN 0

/-- The reactions NMI and CHIP of one raise (R525, R529, R535): one record for a chip reset, or one for NMI, which while a chip reset is
pending shows CHIP where its raise carries both. -/
def State.nmiChip (s : State) (n info : Nat) (forced esc nmi chip : Bool) : State :=
  if chip && !s.fault.chipReset then
    let s1 := s.logFault n info forced esc true s.now
    { s1 with fault := { s1.fault with chipReset := true, chipBy := n }, power := { s1.power with ranChip := true } }
  else if nmi then s.logFault n info forced esc chip s.now
  else s

/-- A raise of source `n` with its INFO and, for a source that can reset a block, that block (R525): the latch and
COUNT, the event record, then HOLD, BLOCK, PIN, IRQ, NMI and CHIP as FLT_REACT selects. In HOLD-UP only NMI acts; in
SAFE neither CHIP nor IRQ; in DORMANT only sources 4 and 5, as a fault log record (R526). -/
def State.raiseAs (s : State) (n info : Nat) (block : Option Nat) (forced : Bool) : State :=
  if !sourceListed n then s
  else if !s.coreUp then
    if n = 4 ∨ n = 5 then s.logFault n info forced false false 0 else s
  else
    let was := s.bit (faultBit n)
    let s1 := (s.setBit (faultBit n) true).sat (R.FLT_REACT.COUNT n) 1
    let esc := s1.get (R.FLT_REACT.ESC n) != 0 && decide (s1.get (R.FLT_REACT.ESC n) ≤ s1.get (R.FLT_REACT.COUNT n))
    let s2 := s1.postFault ⟨s.now, n, forced, esc, s.mode.code, info⟩
    let chip := s2.bit (R.FLT_REACT.CHIP n) || esc
    match s.mode with
    | .holdUp => s2.nmiChip n info forced esc (s2.bit (R.FLT_REACT.NMI n)) false
    | m =>
      let s3 := if s2.bit (R.FLT_REACT.HOLD n) then s2.admitHold else s2
      let s4 := match block with
        | some b => if s3.bit (R.FLT_REACT.BLOCK n) then s3.blockReset b else s3
        | none => s3
      let s5 := if s4.bit (R.FLT_REACT.IRQ n) && !was && m == .serve then
          s4.toHost (s4.linkOfPf (s4.get R.FLT_CFG.PF)) (.msix (s4.get R.FLT_CFG.PF) (s4.get R.FLT_CFG.VEC)) else s4
      s5.nmiChip n info forced esc (s5.bit (R.FLT_REACT.NMI n)) (chip && m != .safe)

/-- A raise by the block that owns the source. -/
def State.raise (s : State) (n info : Nat) : State := s.raiseAs n info none false

/-- A raise whose BLOCK reaction would reset prism or service facet `b`. -/
def State.raiseIn (s : State) (n info b : Nat) : State := s.raiseAs n info (some b) false

/-- FAULT_N as R532 drives it: in SAFE, or while a latched source has PIN; released in DORMANT; in HOLD-UP as at
entry. -/
def State.faultPin (s : State) : Bool :=
  match s.mode with
  | .dormant => false
  | .holdUp => s.fault.heldPin
  | .safe => true
  | _ => (List.range 256).any fun n => s.bit (faultBit n) && s.bit (R.FLT_REACT.PIN n)

end Sys2Proof.Machine
end

