-- ==== Sys2Proof/Machine/Eligible.lean ====
section
/-! DEFINITION. What may leave: port speeds and frame lengths, holds, gates, credits, and the eligibility of a leaf queue
(R313 to R316, R326, R327, R389). -/
namespace Sys2Proof.Machine

/-! ### Maps of the state -/

/-- Shapers by key, groups and gate lists, leaf queues, irises, by their key. -/
def State.shaper (s : State) (k : Nat) : Shaper := SMap.find (fun _ => {}) s.col.shapers k
def State.setShaper (s : State) (k : Nat) (v : Shaper) : State :=
  { s with col := { s.col with shapers := s.col.shapers.put (fun _ => {}) k v } }
def State.gateList (s : State) (o : Nat) : Option GateList := SMap.find (fun _ => none) s.col.gates o
def State.deficit (s : State) (k : Nat) : Int := SMap.find (fun _ => 0) s.col.deficits k
def State.setDeficit (s : State) (k : Nat) (v : Int) : State :=
  { s with col := { s.col with deficits := s.col.deficits.put (fun _ => 0) k v } }
def State.leafQ (s : State) (l : Nat) : List Pkt := SMap.find (fun _ => []) s.buf.leaves l
def State.setLeafQ (s : State) (l : Nat) (q : List Pkt) : State :=
  { s with buf := { s.buf with leaves := s.buf.leaves.put (fun _ => []) l q } }
def State.iris (s : State) (i : Nat) : Iris := SMap.find (fun _ => {}) s.irises i
def State.setIris (s : State) (i : Nat) (v : Iris) : State := { s with irises := s.irises.put (fun _ => {}) i v }
def State.ready (s : State) (q : Nat) : List (Nat × List Byte) := SMap.find (fun _ => []) s.host.ready q
def State.setReady (s : State) (q : Nat) (d : List (Nat × List Byte)) : State :=
  { s with host := { s.host with ready := s.host.ready.put (fun _ => []) q d } }

/-- The 48-bit timebase value `t`, as the moment nearest to now that it names (R400). -/
def State.moment (s : State) (t : Nat) : Nat :=
  let back := (s.ns + 2 ^ 48 - t % 2 ^ 48) % 2 ^ 48
  if back < 2 ^ 47 then s.ns - back else s.ns + (2 ^ 48 - back)

/-! ### Ports -/

/-- Mb/s of MAC_CFG.SPEED. -/
def speedMbps (code : Nat) : Nat :=
  match code with
  | 1 => 10000 | 2 => 25000 | 3 => 50000 | 4 => 100000 | 5 => 200000 | 6 => 400000 | 7 => 800000 | _ => 0

/-- The speed of a port in Mb/s; 0 when it is off. -/
def State.portMbps (s : State) (n : Nat) : Nat := speedMbps (s.get (R.MAC_CFG.SPEED n))

/-- The upper MAC of a paired 800 Gb/s port (R379). -/
def State.upperMac (s : State) (n : Nat) : Bool := n % 2 == 1 && s.get (R.MAC_CFG.SPEED (n - 1)) == 7

/-- The time that `len` bytes take at a port's speed, in units of 2^-40 ns. -/
def State.wireTb (s : State) (n len : Nat) : Nat := len * 8000 * 2 ^ 40 / max 1 (s.portMbps n)

/-- The link of a port is up (R382). -/
def State.linkUp (s : State) (n : Nat) : Bool := s.bit (R.MAC_STATUS.LINK n)

/-- Preemption is active on a port (R392); never on a paired one (KL-2, R592). -/
def State.preempting (s : State) (n : Nat) : Bool :=
  s.get (R.MAC_CFG.SPEED n) != 7 && s.bit (R.MAC_PREEMPT.EN n) && (s.bit (R.MAC_PREEMPT.VERIFY_DIS n) || s.get (R.MAC_PREEMPT.VSTATUS n) == 3)

/-- A frame of class `c` is preemptable on the port (R393). -/
def State.preemptable (s : State) (n c : Nat) : Bool :=
  s.preempting n && (s.get (R.MAC_PREEMPT.PMASK n)).testBit c

/-- The TPID that MAC_TAG.INSERT selects (R387). -/
def State.insertTpid (s : State) (n : Nat) : Nat :=
  match s.get (R.MAC_TAG.INSERT n) with
  | 1 => 0x8100 | 2 => 0x88A8 | 3 => s.get (R.MAC_TAG.TPID_X n) | _ => 0

/-- The port inserts a tag in this frame (R387). -/
def State.inserts (s : State) (n : Nat) (bytes : List Byte) : Bool :=
  s.get (R.MAC_TAG.INSERT n) != 0 && beAt bytes 12 2 != s.insertTpid n

/-- A MAC control frame (R388). -/
def macControl (bytes : List Byte) : Bool := beAt bytes 0 6 == 0x0180C2000001 && beAt bytes 12 2 == 0x8808

/-- EAPOL and MAC control frames pass MACsec unprotected (R403). -/
def plainFrame (bytes : List Byte) : Bool := beAt bytes 12 2 == 0x888E || macControl bytes

/-- The bytes that the destination MAC adds to a frame (R384). -/
def State.macAdds (s : State) (n : Nat) (bytes : List Byte) : Nat :=
  (if s.inserts n bytes then 4 else 0) +
  (if s.bit (R.SEC_MSEC_PORT.EN n) && !plainFrame bytes then (if s.bit (R.SEC_MSEC_PORT.SCI_INC n) then 32 else 24) else 0)

/-- The length of a packet's frame, its FCS included (R259). -/
def Pkt.len (p : Pkt) : Nat := p.bytes.length + 4

/-- The number of cells of `len` bytes. -/
def cellsOf (len : Nat) : Nat := ceilDiv len 256

/-! ### Outputs and counted lengths (R313, R314) -/

/-- Whether a leaf queue is a fabric queue. -/
def isFabricLeaf (l : Nat) : Bool := decide (2 ^ 20 ≤ l)

/-- The group of an endpoint, and the output and class of a group, where the image assigns them. -/
def State.groupOf (s : State) (ep : Nat) : Option Nat :=
  match SMap.find (fun _ => 0) s.col.epGroup ep with | 0 => none | g + 1 => some g
def State.outClassOf (s : State) (g : Nat) : Option (Nat × Nat) :=
  match SMap.find (fun _ => 0) s.col.groupOut g with | 0 => none | k + 1 => some (k / 8, k % 8)

/-- The output and class of a leaf queue. -/
def State.leafOut (s : State) (l : Nat) : Option (Nat × Nat) :=
  if isFabricLeaf l then some (98, l % 8) else (s.groupOf l).bind s.outClassOf

/-- The signed OVERHEAD of an output's profile. -/
def State.overhead (s : State) (o : Nat) : Int := signed 7 (s.get (R.COL_PROFILE.OVERHEAD (s.get (R.COL_OUT.PROFILE o))))

/-- The length of a packet as it will leave output `o`. -/
def State.leavingLen (s : State) (o : Nat) (p : Pkt) : Nat := p.len + (if o < 96 then s.macAdds o p.bytes else 0)

/-- The counted length of a packet at an output (R313). -/
def State.counted (s : State) (o : Nat) (p : Pkt) : Nat :=
  if o = 98 then 272 * cellsOf p.len else ((s.leavingLen o p : Int) + s.overhead o).toNat

/-! ### Holds (R69 to R71, R389) -/

/-- The hold timer of priority `p` (8 for 802.3x) of a port runs. -/
def State.pauseRuns (s : State) (n p : Nat) : Bool := SMap.find (fun _ => 0) s.mac.holds (16 * n + p) != 0

/-- A received pause or priority pause holds class `c` of a port. -/
def State.pauseHeld (s : State) (n c : Nat) : Bool :=
  s.pauseRuns n 8 ||
    (List.range 8).any fun p => s.pauseRuns n p && (s.get (R.MAC_PFC_MAP.RX n)).testBit (8 * p + c)

/-- An XOFF_IN pin holds class `c` of a port. -/
def State.xoffHeld (s : State) (n c : Nat) : Bool :=
  (List.range 8).any fun i =>
    s.pace.xoffIn.getD i false && s.bit (R.PACE_XOFF_IN.ENABLE i) &&
      decide (s.get (R.PACE_XOFF_IN.FIRST_PORT i) ≤ n ∧ n ≤ s.get (R.PACE_XOFF_IN.LAST_PORT i)) &&
      (s.get (R.PACE_XOFF_IN.CLASS_MASK i)).testBit c

/-- A pause, a priority pause or an XOFF_IN pin holds class `c` of a port (R307). -/
def State.held (s : State) (n c : Nat) : Bool := s.pauseHeld n c || s.xoffHeld n c

/-- The time class `c` of a port has been held in all, in ns. -/
def State.holdClock (s : State) (n c : Nat) : Nat :=
  let k := 8 * n + c
  SMap.find (fun _ => 0) s.mac.holdTotal k +
    (match SMap.find (fun _ => 0) s.mac.holdSince k with | 0 => 0 | t + 1 => s.ns - t)

/-- The pause time of a packet queued at a port in class `c` (R307). -/
def State.pauseTime (s : State) (n c : Nat) (p : Pkt) : Nat := s.holdClock n c - p.holdBase

/-! ### Gates (R326, R327) -/

/-- Where `off` ns into a cycle lies: the entry in force, its gates, and the ns until it ends. The last entry holds until
the cycle's end, and the entry in force there is cut. -/
def gateEntry (cycle : Nat) : List (Nat × Nat × Nat) → Nat → Nat → Nat → Nat × Nat × Nat
  | [], i, _, off => (i, 255, cycle - off)
  | [(_, _, g)], i, _, off => (i, g, cycle - off)
  | (d, _, g) :: es, i, start, off =>
    if off < start + d then (i, g, min (start + d) cycle - off) else gateEntry cycle es (i + 1) (start + d) off

/-- The entry in force at time `t`, its gates, and the ns until it ends. -/
def GateList.at_ (g : GateList) (t : Nat) : Nat × Nat × Nat :=
  if t < g.base then (0, 255, g.base - t) else gateEntry g.cycle g.entries 0 0 ((t - g.base) % max 1 g.cycle)

/-- The ns from `t` until gate `c` next closes; none when it never closes. `fuel` bounds the entries looked at. -/
def GateList.untilClose (g : GateList) (c : Nat) : Nat → Nat → Nat → Option Nat
  | 0, _, _ => none
  | fuel + 1, t, acc =>
    let e := g.at_ t
    if !e.2.1.testBit c then some acc else g.untilClose c fuel (t + max 1 e.2.2) (acc + max 1 e.2.2)

/-- The gate of class `c` of a port is open now: COL_GATE.STATE (R326). -/
def State.gateOpen (s : State) (o c : Nat) : Bool := (s.get (R.COL_GATE.STATE o)).testBit c

def State.pendingGates (s : State) (o : Nat) : Option (Nat × Option GateList) := SMap.find (fun _ => none) s.col.gatePending o

/-- The first cycle of the list that does not begin: the first after the pending command landed that would begin in the EXTENSION ns
before its change time (R328). -/
def GateList.barred (g : GateList) (change : Nat) (new : GateList) : Option Nat :=
  let c := max 1 g.cycle
  let t := g.base + ceilDiv (max (new.landed + 1) (change - new.extension) - g.base) c * c
  if t < change then some t else none

/-- When the entries of the list in force on port `o` stop starting: at the cycle that does not begin, or at the change. -/
def State.entriesStop (s : State) (o : Nat) (g : GateList) : Option Nat :=
  match s.pendingGates o with
  | none => none
  | some (change, none) => some change
  | some (change, some new) => some ((g.barred change new).getD change)

/-- The moment whose entry is in force now: from the cycle that does not begin on, the states before it hold until the change (R328). -/
def State.gateMoment (s : State) (o : Nat) (g : GateList) : Nat :=
  match s.entriesStop o g with
  | some t => if t ≤ s.ns then t - 1 else s.ns
  | none => s.ns

/-- The ns until gate `c` next closes on port `o`, under the list in force and from a pending change on under the list it brings; none
when it does not close (R327, R328). -/
def State.closesIn (s : State) (o c : Nat) (g : GateList) : Option Nat :=
  let fuel := fun (l : GateList) => 2 * l.entries.length + 2
  let here := g.untilClose c (fuel g) (s.gateMoment o g) 0
  match s.pendingGates o, s.entriesStop o g with
  | some (change, new), some stop =>
    if s.ns < stop ∧ here.any (fun d => decide (s.ns + d < stop)) = true then here
    else match new with
      | none => none
      | some l => (l.untilClose c (fuel l) change 0).map fun d => change - s.ns + d
  | _, _ => here

/-- The head fits the gate (R327). -/
def State.fitsGate (s : State) (o c : Nat) (p : Pkt) : Bool :=
  match s.gateList o with
  | none => true
  | some g =>
    s.preemptable o c ||
      match s.closesIn o c g with
      | none => true
      | some d => decide (s.wireTb o (s.leavingLen o p + 20) ≤ d * 2 ^ 40)

/-! ### Irises (R345, R367) -/

/-- The credit of an iris toward its peer. -/
def State.irisCredit (s : State) (i : Nat) : Nat := s.get (R.IRIS_CREDIT.AVAIL i)

/-- An iris may take a new cell: UP, credit, room in its retransmit queue; in HOLD-UP none may (R353). -/
def State.irisTakes (s : State) (i : Nat) : Bool :=
  s.mode != .holdUp && s.get (R.IRIS_STATUS.STATE i) == 2 && decide (1 ≤ s.irisCredit i) && decide ((s.iris i).queue.length < 2048)

/-- The irises of the next-hop mask of a device, ascending. -/
def State.nextIrises (s : State) (d : Nat) : List Nat :=
  (List.range 64).filter fun i => (s.get (R.FAB_NH.MASK d)).testBit i

/-! ### Host receive queues (R448) -/

/-- The bytes of one buffer of a receive queue. -/
def State.bufBytes (s : State) (q : Nat) : Nat := 2048 * 2 ^ s.get (R.HOST_Q.BUF q)

/-- A receive queue can take a frame of `len` bytes, FCS excluded. -/
def State.queueTakes (s : State) (q len : Nat) : Bool :=
  s.bit (R.HOST_Q.ENABLE q) && s.bit (R.HOST_Q.DIR q) && !s.bit (R.HOST_QSTAT.STOPPED q) &&
    s.power.perstN.getD (s.get (R.HOST_Q.EP q)) false &&
    decide (ceilDiv len (s.bufBytes q) ≤ (s.ready q).length)

/-! ### Eligibility (R316) -/

/-- The keys of the shapers on a leaf's path that limit it: output, and for an endpoint its group and its own. -/
def State.pathKeys (s : State) (l o : Nat) : List Nat :=
  o :: (if isFabricLeaf l then [] else
    (2 ^ 20 + l) :: (match s.groupOf l with | some g => [2 ^ 16 + g] | none => []))

/-- The credits that eligibility reads are 0 or above. -/
def State.credited (s : State) (l o : Nat) : Bool := (s.pathKeys l o).all fun k => decide (0 ≤ (s.shaper k).credit)

/-- What holds a head at its output besides its shapers and where its cells lie. -/
def State.outputTakes (s : State) (l o c : Nat) (p : Pkt) : Bool :=
  if o < 96 then !s.held o c && s.gateOpen o c && s.fitsGate o c p
  else if o = 98 then (s.nextIrises ((l - 2 ^ 20) / 8)).any s.irisTakes
  else match p.hostQ with
    | some q => s.queueTakes q p.bytes.length
    | none => false

/-- A leaf queue is eligible at its output (R316). -/
def State.eligible (s : State) (l : Nat) : Bool :=
  match s.leafQ l, s.leafOut l with
  | p :: _, some (o, c) => p.tier == 0 && !p.refilling && s.credited l o && s.outputTakes l o c p
  | _, _ => false

end Sys2Proof.Machine
end

