-- ==== Sys2Proof/Machine/Settle.lean ====
section
/-! DEFINITION. What follows every command at once: watermarks with the pause frames they send, held fragments, hold clocks and the
clocks and turns of eligible leaves, the hold stage, the cells freed; and the completion of a meaning (R65, R263, R287, R307,
R323, R325, R390, R391, R394). -/
namespace Sys2Proof.Machine

/-! ### Sending on a port (R393, R394) -/

/-- A Set-And-Hold-MAC holds the port's preemptable traffic (R394). -/
def State.macHeld (s : State) (n : Nat) : Bool := s.preempting n && SMap.find (fun _ => false) s.mac.held n

def State.setSending (s : State) (n : Nat) (x : Sending) : State :=
  { s with mac := { s.mac with sending := s.mac.sending.put (fun _ => none) n (some x) } }

/-- What the port is sending now; the rest of an interrupted frame that has not resumed waits. -/
def State.sending (s : State) (n : Nat) : Option Sending :=
  match SMap.find (fun _ => none) s.mac.sending n with
  | none => none
  | some x =>
    if s.tb < x.endTb then some x
    else if x.left = 0 then none
    else some { x with endTb := s.tb, startTb := s.tb }

/-- The fragment being sent can be interrupted now: enough of it has been sent behind its 8 B of preamble, its mCRC included, and 64 B
remain before its gap of 12 B (R393). -/
def State.interruptible (s : State) (n : Nat) (x : Sending) : Bool :=
  x.preemptable && decide (x.startTb + s.wireTb n (4 + 64 * (1 + s.get (R.MAC_PREEMPT.ADD_FRAG n))) ≤ s.tb) &&
    decide (s.tb + s.wireTb n 76 ≤ x.endTb)

/-- An express frame, or a preemptable one, may start on the port now: the port is free, or an express frame may interrupt. -/
def State.portOpen (s : State) (n : Nat) (express : Bool) : Bool :=
  (express || !s.macHeld n) &&
    match s.sending n with
    | none => true
    | some x => express && (decide (x.endTb ≤ s.tb) || (s.preempting n && s.interruptible n x))

/-- A frame of class `c` may start on the port now: no MAC control frame waits, and the port is open to it (R391). -/
def State.portFree (s : State) (n c : Nat) : Bool :=
  (SMap.find (fun _ => []) s.mac.control n).isEmpty && s.portOpen n (!s.preemptable n c)

/-- What is left of a frame that is interrupted now will start with its own preamble of 8 B; its fragment ends with 4 B of mCRC and a gap
of 12 B (R393). -/
def State.leftOver (s : State) (n : Nat) (x : Sending) : Nat := x.endTb - s.tb + s.wireTb n 8

/-- The frame of `len` bytes on the wire starts now, ahead of what is left of a frame that it interrupts. -/
def State.startSending (s : State) (n : Nat) (preemptable : Bool) (len expo : Nat) : State :=
  let cuts := (s.sending n).any fun x => decide (s.tb < x.endTb)
  let left := match s.sending n with
    | none => 0
    | some x => if cuts then s.leftOver n x else x.left
  let s1 := if cuts then s.countAt (R.MAC_CNT.COUNT n 15) 1 expo else s
  let start := if cuts then s.tb + s.wireTb n 16 else s.tb
  s1.setSending n ⟨start, start + s.wireTb n (len + 20), preemptable, left⟩

/-- When the frame that a port has just begun put out its first bit. -/
def State.begunTb (s : State) (n : Nat) : Nat := match SMap.find (fun _ => none) s.mac.sending n with | some x => x.startTb | none => s.tb

/-- While a port is held, the frame in progress ends its fragment at the first point that allows it (R394). -/
def State.holdFragment (s : State) (n : Nat) : State :=
  match s.sending n with
  | some x =>
    if s.macHeld n && decide (s.tb < x.endTb) && s.interruptible n x then
      (s.count (R.MAC_CNT.COUNT n 15) 1).setSending n ⟨s.tb, s.tb + s.wireTb n 16, false, s.leftOver n x⟩
    else s
  | none => s

/-- The ports that are held. -/
def State.holdFragments (s : State) : State :=
  s.mac.held.foldl (fun (t : State) e => if e.2 ∧ e.1 < 96 then t.holdFragment e.1 else t) s

/-- Verification starts (R392): initial when it is to run, disabled otherwise, and on a paired
port (KL-2). -/
def State.restartVerify (s : State) (n : Nat) : State :=
  let on := s.bit (R.MAC_PREEMPT.EN n) && !s.bit (R.MAC_PREEMPT.VERIFY_DIS n) && s.get (R.MAC_CFG.SPEED n) != 7
  let s1 := s.set (R.MAC_PREEMPT.VSTATUS n) (b2n on)
  { s1 with mac := { s1.mac with
    verifies := s1.mac.verifies.put (fun _ => 0) n 0
    verifySent := s1.mac.verifySent.put (fun _ => 0) n 0 } }

/-- A write of EN or VERIFY_DIS restarts verification once the frame in progress, what is left of it included, has completed (R396). -/
def State.reverify (s : State) (n : Nat) : State :=
  if (s.sending n).isNone then s.restartVerify n
  else { s with mac := { s.mac with reverify := n :: s.mac.reverify.filter fun m => m != n } }

/-- Verification restarts on the ports whose frame has completed. -/
def State.restartVerifies (s : State) : State :=
  let goes := s.mac.reverify.filter fun n => (s.sending n).isNone
  goes.foldl (fun (t : State) n => t.restartVerify n) { s with mac := { s.mac with reverify := s.mac.reverify.filter fun n => !goes.contains n } }

/-! ### Ethernet control frames -/

/-- One byte through the reflected CRC-32 of IEEE 802.3. -/
def crc32Bits : Nat → Nat → Nat
  | 0, c => c
  | n + 1, c => crc32Bits n (if c % 2 = 1 then (c / 2) ^^^ 0xEDB88320 else c / 2)

/-- The FCS of a frame. -/
def frameCheck (bs : List Byte) : Nat :=
  (bs.foldl (fun c b => crc32Bits 8 (c ^^^ b.toNat)) 0xFFFFFFFF) ^^^ 0xFFFFFFFF

/-- The pause or priority pause frame of a port with `q` quanta, without its FCS (R390). -/
def State.pauseFrame (s : State) (n q : Nat) : List Byte :=
  let head := beBytes 6 0x0180C2000001 ++ beBytes 6 (s.get (R.MAC_ADDR.ADDR n)) ++ beBytes 2 0x8808
  let tx := s.get (R.MAC_FC.TX_PRIO n)
  let body := if s.get (R.MAC_FC.MODE n) = 1 then beBytes 2 1 ++ beBytes 2 q
    else beBytes 2 0x0101 ++ beBytes 2 tx ++ (List.range 8).flatMap fun p => beBytes 2 (if tx.testBit p then q else 0)
  slice (head ++ body) 0 60

/-- The port has a pause frame to send, ahead of every frame not begun (R390, R391). -/
def State.sendPause (s : State) (n q : Nat) : State :=
  if s.get (R.MAC_FC.MODE n) = 0 ∨ s.linkUp n = false then s
  else { s with mac := { s.mac with
      control := s.mac.control.put (fun _ => []) n (SMap.find (fun _ => []) s.mac.control n ++ [s.pauseFrame n q]) } }

/-- The oldest control frame of a port starts, as an express frame, once the port is open to it (R391). -/
def State.startControl (s : State) (n : Nat) : State :=
  match SMap.find (fun _ => []) s.mac.control n with
  | [] => s
  | f :: rest =>
    if !s.portOpen n true then s
    else
      let s1 := (s.emit (.frame n (f ++ leBytes 4 (frameCheck f)) true)).count (R.MAC_CNT.COUNT n 13) 1
      let s2 := s1.startSending n false (f.length + 4) s.ns
      { s2 with mac := { s2.mac with
        control := s2.mac.control.put (fun _ => []) n rest
        pauseSent := s2.mac.pauseSent.put (fun _ => 0) n (s.ns + 1) } }

/-- The control frames that can start. -/
def State.startControls (s : State) : State :=
  s.mac.control.foldl (fun (t : State) e => if e.1 < 96 then t.startControl e.1 else t) s

/-- An express frame waits for its port: a MAC control frame, or one that may start as far as its leaf queue goes. -/
def State.expressWaits (s : State) (n : Nat) : Bool :=
  !(SMap.find (fun _ => []) s.mac.control n).isEmpty ||
    s.buf.leaves.any fun e => (s.leafOut e.1).any (fun x => x.1 == n && !s.preemptable n x.2) && s.eligible e.1

/-- The rest of an interrupted frame resumes after the express frames, unless it is held (R393, R394). -/
def State.resumePort (s : State) (n : Nat) : State :=
  match SMap.find (fun _ => none) s.mac.sending n with
  | none => s
  | some x =>
    if s.tb < x.endTb ∨ x.left = 0 ∨ s.macHeld n = true then s
    else if s.expressWaits n then s.setSending n { x with endTb := s.tb }
    else s.setSending n ⟨x.endTb, x.endTb + x.left, true, 0⟩

/-- The frames that can resume. -/
def State.resumePorts (s : State) : State := s.mac.sending.foldl (fun (t : State) e => t.resumePort e.1) s

/-! ### Watermarks (R65, R275) -/

/-- What watermark `n` measures. -/
def State.occupancy (s : State) (n : Nat) : Nat :=
  if n ≤ 384 then s.get (R.BUF_ACCT.USED n)
  else if 512 ≤ n ∧ n ≤ 519 then s.get (R.BUF_CLASS.SHARED_USED (n - 512))
  else if n = 520 then s.buf.sharedUsed
  else if n = 521 then s.get R.BUF_SPILL_USED.HBM_BLOCKS
  else if n = 522 then s.get R.BUF_SPILL_USED.FAR_EXTENTS
  else 0

/-- A watermark number that R275 lists. -/
def wmListed (n : Nat) : Bool := decide (n ≤ 384) || decide (512 ≤ n ∧ n ≤ 522)

/-- The state of watermark `n` at the present occupancy. -/
def State.wmNext (s : State) (n : Nat) : Bool :=
  let high := s.get (R.BUF_WM.HIGH n)
  high != 0 && (decide (high ≤ s.occupancy n) || (s.bit (R.BUF_WM.STATE n) && decide (s.get (R.BUF_WM.LOW n) < s.occupancy n)))

/-- The watermark is asserted. -/
def State.wm (s : State) (n : Nat) : Bool := s.bit (R.BUF_WM.STATE n)

/-- The listed watermarks whose register does not hold its reset value: every other one is unconfigured. -/
def State.configured (s : State) : List Nat :=
  (s.regs.filter fun e => decide (0x1B04000 ≤ e.1 ∧ e.1 < 0x1B06000)).map (fun e => (e.1 - 0x1B04000) / 8) |>.filter wmListed

/-- The pause frames that crossings of the port watermarks send (R390). -/
def State.crossings (s : State) : State :=
  s.configured.foldl (fun t n =>
    if n < 96 ∧ s.wmNext n ≠ s.wm n then t.sendPause n (if s.wmNext n then s.get (R.MAC_FC.QUANTA n) else 0) else t) s

/-- Every watermark takes the state of its occupancy. -/
def State.watermarks (s : State) : State :=
  s.configured.foldl (fun t n => t.setBit (R.BUF_WM.STATE n) (s.wmNext n)) s

/-! ### Hold clocks (R307) and eligible time (R325) -/

/-- The hold clock of one (port, class) brought to its present hold. -/
def State.holdSync (s : State) (n c : Nat) : State :=
  let k := 8 * n + c
  let since := SMap.find (fun _ => 0) s.mac.holdSince k
  if s.held n c then
    if since = 0 then { s with mac := { s.mac with holdSince := s.mac.holdSince.put (fun _ => 0) k (s.ns + 1) } } else s
  else if since = 0 then s
  else { s with mac := { s.mac with
      holdTotal := s.mac.holdTotal.put (fun _ => 0) k (s.holdClock n c)
      holdSince := s.mac.holdSince.put (fun _ => 0) k 0 } }

/-- The ports on which a hold runs, or has run at the last look. -/
def State.holdPorts (s : State) : List Nat :=
  (s.mac.holds.map fun e => e.1 / 16) ++ (s.mac.holdSince.map fun e => e.1 / 8) ++
    (if s.pace.xoffIn.any id then List.range 96 else [])

/-- Every hold clock brought to the present holds. -/
def State.holdClocks (s : State) : State :=
  s.holdPorts.foldl (fun t n => (List.range 8).foldl (fun u c => u.holdSync n c) t) s

/-- The eligible time of a leaf queue since it was served or became non-empty. -/
def State.waitedNs (s : State) (l : Nat) : Nat :=
  SMap.find (fun _ => 0) s.col.waited l +
    (match SMap.find (fun _ => 0) s.col.eligSince l with | 0 => 0 | t + 1 => s.ns - t)

/-- Starts the wait of a leaf queue anew: it was served, or became non-empty. -/
def State.clearWait (s : State) (l : Nat) : State :=
  { s with col := { s.col with
      waited := s.col.waited.put (fun _ => 0) l 0
      eligSince := s.col.eligSince.put (fun _ => 0) l 0
      starved := s.col.starved.filter fun x => x != l } }

/-- The eligible time of one leaf brought to its present eligibility. -/
def State.eligSync (s : State) (l : Nat) : State :=
  let since := SMap.find (fun _ => 0) s.col.eligSince l
  if s.eligible l then
    if since = 0 then { s with col := { s.col with eligSince := s.col.eligSince.put (fun _ => 0) l (s.ns + 1) } } else s
  else if since = 0 then s
  else { s with col := { s.col with
      waited := s.col.waited.put (fun _ => 0) l (s.waitedNs l)
      eligSince := s.col.eligSince.put (fun _ => 0) l 0 } }

/-- The eligible time of every endpoint leaf that holds a packet. -/
def State.eligClocks (s : State) : State :=
  (s.buf.leaves.filter fun e => decide (e.1 < 2 ^ 20)).foldl (fun t e => t.eligSync e.1) s

/-! ### Turns of the deficit rounds (R323) -/

/-- The node of a round whose turn it is, keyed as in State.col, still has an eligible leaf. -/
def State.turnGoes (s : State) (k : Nat) : Bool :=
  match SMap.find (fun _ => 0) s.col.lastNode k with
  | 0 => false
  | n + 1 =>
    if k < 2 ^ 10 then s.buf.leaves.any fun e => s.groupOf e.1 == some n && !isFabricLeaf e.1 && s.eligible e.1
    else s.eligible n

/-- The turn of a node with no eligible leaf left ends. -/
def State.endTurns (s : State) : State :=
  { s with col := { s.col with inTurn := s.col.inTurn.filter fun e => s.turnGoes e.1 } }

/-! ### Completing a meaning -/

/-- SWC_HOLD follows the hold stage: a held descriptor stays there until its MAC reports the end, in switch cut-through too (R287, R288). -/
def State.syncHold (s : State) : State :=
  let n := ((s.buf.handoff ++ s.buf.cutting.map (·.2)).filter fun p => p.cut && p.copy == 0).length
  (s.set R.SWC_HOLD.NOW n).peak R.SWC_HOLD.PEAK n

/-- The cells that the command freed may be allocated from now on (R263). -/
def State.endFreed (s : State) : State := { s with freed := [] }

/-- What follows every command at once. -/
def State.settle (s : State) : State := s.holdClocks.eligClocks.endTurns.crossings.watermarks.holdFragments.startControls.resumePorts.syncHold.endFreed

/-- The outcome of a command on `s` whose effect gives `t`, with what follows. A command with an operand that names no instance of the
device, or that its field cannot hold, can come about nowhere: nothing happens (DESIGN CHOICE, log 5). -/
def complete (ok : Bool) (s t : State) : Out State := .next (if ok then t else s).settle

end Sys2Proof.Machine
end

