-- ==== Sys2Proof/Machine/Host.lean ====
section
/-! DEFINITION. Host access: which BAR answers, the log of register writes, doorbell sequences (R434, R443, R568,
R573). -/
namespace Sys2Proof.Machine

/-- The mode whose access rules hold: in HOLD-UP until isolation, that of the mode it was entered from (R568). -/
def State.accessMode (s : State) : Mode :=
  match s.mode with
  | .holdUp => if s.power.isolated then .dormant else s.power.holdFrom
  | m => m

/-- A BAR answers in SERVE and SAFE (R568). -/
def State.barUp (s : State) : Bool := s.accessMode == .serve || s.accessMode == .safe

/-- The management functions PF0 and PF4, which alone expose BAR0 and BAR4, and alone answer in SAFE (R434, R568). -/
def isManager (h : HostSrc) : Bool := h.func == 0 || h.func == 4

/-- The BAR0 blocks that SAFE serves: TOP, KEEP, FLT, JRN and BOOT (R434). -/
def safeBlock (off : Nat) : Bool := decide (off < 0x400000) || decide (0x500000 ≤ off ∧ off < 0x600000)

/-- The BARs of a function answer: in SERVE, and in SAFE those of PF0 and PF4, over an endpoint that is not in reset
(R434, R568). -/
def State.reach (s : State) (src : HostSrc) : Bool :=
  s.barUp && s.epUp src.ep && (s.accessMode != .safe || isManager src)

/-- Logs a write under R573: TOP_REGLOG_CNT, REG_LOG, and the capture while VALID is 0. -/
def State.regLog (s : State) (kind bar : Nat) (src : HostSrc) (off value : Nat) : State :=
  let s1 := s.count R.TOP_REGLOG_CNT.COUNT 1
  let s2 := if s1.bit R.TOP_REGLOG.VALID then s1 else
    (((((s1.set R.TOP_REGLOG.VALID 1).set R.TOP_REGLOG.KIND kind).set R.TOP_REGLOG.BAR bar).set
      R.TOP_REGLOG.EP src.ep).set R.TOP_REGLOG.FUNC src.func).set R.TOP_REGLOG.OFFSET off
      |>.setWord R.TOP_REGLOG_VAL.VALUE.off (BitVec.ofNat 64 value)
  s2.raise 7 0

/-- What a doorbell does to a target sequence T (R443): none when it is dropped. -/
def doorbellTarget (t c size p : Nat) : Option Nat :=
  let dt := (p + 65536 - t) % 65536
  let dc := (p + 65536 - c) % 65536
  if dt = 0 then some t
  else if dt ≤ 2 ^ size ∧ dc ≤ 2 ^ size then some p
  else none

end Sys2Proof.Machine
end

