-- ==== Sys2Proof/Machine/Journal.lean ====
section
/-! DEFINITION. The journal: the commit word's SEC-DED code, entries, outcomes, their validity, and the writes of
R466 (R464 to R470, R475). -/
namespace Sys2Proof.Machine

/-! ### The commit word (R465) -/

/-- The Hamming positions of the 56 data bits: 3 to 62 without the powers of two, ascending. -/
def dataPositions : List Nat := (List.range 63).filter fun p => decide (3 ≤ p) && !(p == 4 || p == 8 || p == 16 || p == 32)

/-- XOR of the bits of `x` at the listed (bit, position) pairs whose position has bit `j` set. -/
def checkBit (x : Nat) (j : Nat) : Nat → List Nat → Bool
  | _, [] => false
  | i, p :: ps => xor (x.testBit i && p.testBit j) (checkBit x j (i + 1) ps)

/-- The six check bits over the data bits [55:0] of a word, and its bit 62 at position 63. -/
def checkBits (w : Nat) : Nat :=
  (List.range 6).foldl (fun acc j => acc + b2n (xor (checkBit w j 0 dataPositions) (w.testBit 62)) * 2 ^ j) 0

/-- XOR of the low `n` bits. -/
def parity (w : Nat) : Nat → Bool
  | 0 => false
  | n + 1 => xor (w.testBit n) (parity w n)

/-- The 64-bit commit word of 56 data bits. -/
def secdedEncode (d : Nat) : Nat :=
  let x := d % 2 ^ 56 + checkBits (d % 2 ^ 56) * 2 ^ 56
  x + b2n (parity x 63) * 2 ^ 63

/-- The bit of the word that stands at a Hamming position 1 to 63. -/
def positionBit (p : Nat) : Nat :=
  if p = 63 then 62
  else match [1, 2, 4, 8, 16, 32].findIdx? (· == p) with
    | some j => 56 + j
    | none => (dataPositions.findIdx? (· == p)).getD 63

/-- The word as read: itself, the word with its single error corrected, or none for an uncorrectable error. -/
def secdedDecode (w : Nat) : Option Nat :=
  let s := (w / 2 ^ 56 % 64) ^^^ checkBits w
  if parity w 64 then some (w ^^^ 2 ^ (if s = 0 then 63 else positionBit s))
  else if s = 0 then some w else none

/-- The data bits of the commit word of a sequence: the sequence and 0xC3. -/
def commitData (seq : Nat) : Nat := seq % 2 ^ 48 + 0xC3 * 2 ^ 48

/-- A commit word is valid for a sequence (R465). -/
def commitValid (w seq : Nat) : Bool :=
  match secdedDecode w with
  | some x => x % 2 ^ 56 == commitData seq
  | none => false

/-! ### Entries in the array (R464) -/

/-- Word `w` of the slot of sequence `seq`. -/
def State.jword (s : State) (seq w : Nat) : Nat := SMap.find (fun _ => 0) s.cmd.journal (32 * (seq % 65536) + w)

/-- Writes word `w` of the slot of sequence `seq`. -/
def State.setJword (s : State) (seq w v : Nat) : State :=
  { s with cmd := { s.cmd with journal := s.cmd.journal.put (fun _ => 0) (32 * (seq % 65536) + w) (v % 2 ^ 64) } }

/-- Writes consecutive words of a slot from a byte string. -/
def State.setJbytes (s : State) (seq w : Nat) (bs : List Byte) : State :=
  (List.range (bs.length / 8)).foldl (fun t i => t.setJword seq (w + i) (leAt bs (8 * i) 8)) s

/-- `n` bytes of a slot from word `w`. -/
def State.jbytes (s : State) (seq w n : Nat) : List Byte :=
  (List.range n).flatMap fun i => leBytes 8 (s.jword seq (w + i))

/-- The sequence that bytes 0 to 5 of a slot hold. -/
def State.jseq (s : State) (seq : Nat) : Nat := s.jword seq 0 % 2 ^ 48

/-- The command CRC: CRC-32C over bytes 0 to 79, then 88 to 191 (R464). -/
def entryCrc (b : List Byte) : Nat := crc32c (b.take 80 ++ (b.drop 88).take 104)

/-- The outcome CRC: CRC-32C over bytes 0 to 5, then 192 to 239 (R464). -/
def outcomeCrc (seq : Nat) (outcome : List Byte) : Nat := crc32c (leBytes 6 seq ++ outcome)

/-- The commit word of the slot is valid and names the sequence it should hold. -/
def State.committed (s : State) (seq : Nat) : Bool := s.jseq seq == seq && commitValid (s.jword seq 31) seq

/-- The command CRC of the slot matches. -/
def State.crcGood (s : State) (seq : Nat) : Bool :=
  s.jword seq 10 % 2 ^ 32 == entryCrc (s.jbytes seq 0 24)

/-- The entry of a sequence is valid (R465). -/
def State.entryValid (s : State) (seq : Nat) : Bool := s.committed seq && s.crcGood seq

/-- The outcome of the entry is valid (R465). -/
def State.outcomeValid (s : State) (seq : Nat) : Bool :=
  s.jword seq 30 % 2 ^ 32 == outcomeCrc (s.jseq seq) (s.jbytes seq 24 6)

/-- The bytes 0 to 191 of a new entry. -/
def entryBytes (seq ring flags time : Nat) (cmd : List Byte) (orig : Nat) : List Byte :=
  let head := record 16 [(0, 6, seq), (6, 1, ring), (7, 1, flags), (8, 6, time)] ++ slice cmd 0 64
  let tail := record 104 [(0, 6, orig)]
  head ++ leBytes 4 (crc32c (head ++ tail)) ++ leBytes 4 0 ++ tail

/-- The 48 B outcome area (R469): code, reason, index, takeover and the data fields, placed from the start of the
area. -/
def outcomeArea (code reason index takeover : Nat) (data : List (Nat × Nat × Nat)) : List Byte :=
  record 48 ([(0, 1, code), (1, 1, reason), (2, 2, index), (8, 6, takeover)] ++ data)

/-- Writes an outcome with its CRC (R466 step 5). -/
def State.writeOutcome (s : State) (seq : Nat) (outcome : List Byte) : State :=
  (s.setJbytes seq 24 (slice outcome 0 48)).setJword seq 30 (outcomeCrc (s.jseq seq) (slice outcome 0 48))

/-- JRN_HEAD takes the next sequence, and JRN_TAIL follows (R467). -/
def State.advanceHead (s : State) : State :=
  let h := s.get R.JRN_HEAD.HEAD + 1
  (s.set R.JRN_HEAD.HEAD h).set R.JRN_TAIL.TAIL (h - 65536)

/-- Steps 1 to 4 of R466 at the next sequence, with `fails` read-backs failing: the state, and whether the entry was
accepted. After two failures the commit word holds an open value. -/
def State.writeEntry (s : State) (ring flags : Nat) (cmd : List Byte) (orig fails : Nat) : State × Bool :=
  let seq := s.get R.JRN_HEAD.HEAD
  let s1 := s.advanceHead.setJbytes seq 0 (entryBytes seq ring flags s.now cmd orig)
  if fails < 2 then (s1.setJword seq 31 (secdedEncode (commitData seq)), true)
  else
    let d := s1.draw
    (d.2.setJword seq 31 d.1, false)

/-- The second failed read-back of R466: JRN_STAT.WRITE_FAIL and JRN_WRITE, INFO naming the ring. -/
def State.journalFail (s : State) (ring : Nat) : State := (s.sat R.JRN_STAT.WRITE_FAIL 1).raise 34 ring

/-- The slot of the next sequence still holds an entry that must stay (R468): an outcome that has been written holds no slot, though its
read-backs have failed. -/
def State.slotHeld (s : State) : Bool :=
  let seq := s.get R.JRN_HEAD.HEAD
  let old := s.jseq seq
  s.entryValid old && old % 65536 == seq % 65536 &&
    ((!s.outcomeValid old && !s.cmd.spoilt.contains old && decide (s.get R.JRN_LAST_EPOCH.SEQ < old)) ||
      (s.bit R.JRN_ACK.GUARD && decide (s.get R.JRN_ACK.ACK ≤ old)))

/-! ### Classification (R475) -/

/-- What a scan finds in the entry of a sequence. -/
inductive Found where
  | ignored | damaged | unknown | completed
  deriving DecidableEq, Repr

/-- The class of the entry of sequence `seq` (R475). -/
def State.classify (s : State) (seq : Nat) : Found :=
  if !s.committed seq then .ignored
  else if !s.crcGood seq then .damaged
  else if s.outcomeValid seq then .completed else .unknown

/-- Whether R463 marks a command for re-execution after an unknown outcome. -/
def reexecutes (cmd : List Byte) : Bool :=
  match leAt cmd 0 1 with
  | 0x03 | 0x11 | 0x30 | 0x31 | 0x32 | 0x41 | 0x42 | 0x50 | 0x51 | 0x60 | 0x70 | 0x7F => true
  | 0x05 => leAt cmd 17 1 % 2 == 0
  | 0x71 => leAt cmd 17 1 == 0 || leAt cmd 17 1 == 4 || leAt cmd 17 1 == 5
  | _ => false

end Sys2Proof.Machine
end

