-- ==== Sys2Proof/Machine/Commands.lean ====
section
/-! DEFINITION. Command rings: doorbells, acceptance, execution order, gates, completion (R458 to R474, R478). -/
namespace Sys2Proof.Machine

/-! ### Rings -/

/-- The HOST_Q.FUNC code and endpoint of a ring's owner (R433, R458). -/
def State.ringPf (s : State) (r : Nat) : Nat := s.get (R.CMD_RING.PF r)

/-- The PF for which a command accesses host memory: the owner of its ring; of a re-execution, of the ring that its journal entry names
(R478). -/
def State.cmdPf (s : State) (c : OpenCmd) : Nat := s.ringPf (if c.ring < 64 then c.ring else s.jword c.seq 0 / 2 ^ 48 % 64)

/-- A ring's doorbell (R458, R459): outside SERVE it is dropped and counted; from a function that does not own the
ring it is dropped, counted and logged. -/
def State.cmdDoorbell (s : State) (src : HostSrc) (r value : Nat) : State :=
  let off := 0x820000 + 8 * r
  if !s.reach src then s.emit .unreachable
  else
    let drop := s.wrap R.CMD_ERR.DOORBELL 1
    if src.func != s.ringPf r then drop.regLog 3 1 src off value
    else if s.mode != .serve || !s.bit (R.CMD_RING.ENABLE r) || decide (65536 ≤ value) then drop
    else match doorbellTarget (s.get (R.CMD_STAT.T r)) (s.get (R.CMD_STAT.C r)) (s.get (R.CMD_RING.SIZE r)) value with
      | some t => s.set (R.CMD_STAT.T r) t
      | none => drop

/-- CMD_DOORBELL (R459). -/
def execCmdDoorbell (src : HostSrc) (ring value : Nat) (s : State) : Out State :=
  complete (Instr.wf (.cmdDoorbell src ring value)) s (s.cmdDoorbell src ring value)

/-- The 64 B of slot `n` of ring `r` (R458). -/
def State.slotBytes (s : State) (r n : Nat) : List Byte :=
  (List.range 8).flatMap fun i => leBytes 8 (SMap.find (fun _ => 0) s.cmd.slots (0x20000 * r + 64 * n + 8 * i))

/-- A post of 64 B to the ring's post area (R471). -/
def State.post (s : State) (r num st seq : Nat) (outcome : List Byte) : State :=
  let addr := s.get (R.CMD_POST.BASE r) * 64 + 64 * (num % 2 ^ s.get (R.CMD_RING.SIZE r))
  s.emitAll (s.pfWrites (s.ringPf r) addr (record 16 [(0, 2, num), (2, 1, st), (4, 6, seq)] ++ slice outcome 0 48))

/-- A ring that holds a command to take: enabled, not stopped, C before T. -/
def State.ringWaiting (s : State) (r : Nat) : Bool :=
  s.bit (R.CMD_RING.ENABLE r) && !s.bit (R.CMD_STAT.STOPPED r) && s.get (R.CMD_STAT.C r) != s.get (R.CMD_STAT.T r)

/-- The ring to serve: the next after the one served last, ascending with a wrap (R461). -/
def State.nextRing (s : State) : Option Nat :=
  ((List.range 64).map fun i => (s.cmd.lastRing + 1 + i) % 64).find? s.ringWaiting

/-! ### The command (R462) -/

/-- The command's code, flags and gate. -/
def OpenCmd.code (c : OpenCmd) : Nat := leAt c.bytes 0 1
def OpenCmd.fence (c : OpenCmd) : Bool := (leAt c.bytes 1 1).testBit 0
def OpenCmd.irq (c : OpenCmd) : Bool := (leAt c.bytes 1 1).testBit 1
def OpenCmd.gate (c : OpenCmd) : Nat := leAt c.bytes 4 1 % 64
/-- An operand: `n` bytes at `off`. -/
def OpenCmd.op (c : OpenCmd) (off n : Nat) : Nat := leAt c.bytes off n

/-- Every byte of the listed ranges (offset, length) is 0. -/
def zeroBytes (bs : List Byte) (ranges : List (Nat × Nat)) : Bool := ranges.all fun r => leAt bs r.1 r.2 == 0

/-- The header holds no reserved bit: byte 1 bits [7:2], byte 4 bit 6, bytes 5 to 7 (R462). -/
def headerGood (bs : List Byte) : Bool :=
  decide (leAt bs 1 1 < 4) && !(leAt bs 4 1).testBit 6 && leAt bs 5 3 == 0

/-- A command is well formed when its header and its reserved operand bytes are 0. -/
def OpenCmd.formed (c : OpenCmd) (reserved : List (Nat × Nat)) : Bool := headerGood c.bytes && zeroBytes c.bytes reserved

/-- A MODE_REQUEST that asks for RESTART (1) or SAFE (2), well formed (R505). -/
def modeOp (bs : List Byte) : Option Nat :=
  let op := leAt bs 16 1
  if leAt bs 0 1 = 0x7E ∧ (op = 1 ∨ op = 2) ∧ headerGood bs = true ∧ zeroBytes bs [(17, 47)] = true then some op else none

/-- The codes of R463. -/
def codeListed (c : Nat) : Bool :=
  [0x01, 0x02, 0x03, 0x04, 0x05, 0x10, 0x11, 0x20, 0x21, 0x22, 0x30, 0x31, 0x32, 0x40, 0x41, 0x42, 0x50, 0x51, 0x60,
    0x70, 0x71, 0x7E, 0x7F].contains c

/-! ### Acceptance (R461, R466) -/

/-- The device may take a command: SERVE, no chip reset raised, no RESTART or SAFE accepted, every re-execution done
(R478, R505, R529). -/
def State.mayAccept (s : State) : Bool :=
  s.mode == .serve && !s.fault.chipReset && s.cmd.modeReq.isNone && s.cmd.reexec.isEmpty &&
    s.cmd.open_.all fun c => c.orig.isNone

/-- Adds an accepted command to the open list. -/
def State.openCmd (s : State) (c : OpenCmd) : State :=
  { s with cmd := { s.cmd with open_ := s.cmd.open_ ++ [c], lastSeq := c.seq } }

/-- The command of ring `r` whose number is C is taken: a wrong number stops the ring (R460); otherwise its entry is
written and it is accepted, or not after two failed read-backs (R466). -/
def State.takeCommand (s : State) (r fails : Nat) : State :=
  let n := s.get (R.CMD_STAT.C r)
  let bs := s.slotBytes r (n % 2 ^ s.get (R.CMD_RING.SIZE r))
  let s1 := { s with cmd := { s.cmd with lastRing := r } }
  if leAt bs 2 2 ≠ n then (s1.set (R.CMD_STAT.STOPPED r) 1).set (R.CMD_STAT.ERROR r) 1
  else
    let seq := s1.get R.JRN_HEAD.HEAD
    let s2 := s1.set (R.CMD_STAT.C r) (wrapAdd 16 n 1)
    let w := s2.writeEntry r 0 bs 0 fails
    if w.2 then
      let s3 := w.1.post r n 1 seq []
      let s4 := s3.sat (R.CMD_STAT.OPEN r) 1
      let s5 := s4.openCmd ⟨seq, r, n, bs, (leAt bs 4 1).testBit 7, s4.ns, none, false, none, 0⟩
      match modeOp bs with
      | some op => { s5 with cmd := { s5.cmd with modeReq := some (op, none) } }
      | none => s5
    else ((w.1.journalFail r).sat R.CMD_ERR.NOT_ACCEPTED 1).post r n 3 seq []

/-- The entry of a re-execution of entry `o`: REEXEC = 1, the command unchanged, the original named; `fails` read-backs fail. -/
def State.reexecEntry (s : State) (o fails : Nat) : State × Bool :=
  s.writeEntry (s.jword o 0 / 2 ^ 48 % 256) 4 (s.jbytes o 2 8) o fails

/-- The next entry marked for re-execution is written again, once no slot that it takes must stay (R468); once the new entry is accepted,
the original's outcome is "re-executed" with the new sequence, and the command begins, waiting on its gate under WAIT (R474, R478).
After two failed read-backs the entry is written at the sequence that follows. -/
def State.reexecuteNext (s : State) (fails : Nat) : State :=
  match s.cmd.reexec with
  | [] => s
  | o :: rest =>
    let t := if s.slotHeld || decide (fails < 2) then s else (s.reexecEntry o fails).1.journalFail 0xFF
    if t.slotHeld then t
    else
      let bs := t.jbytes o 2 8
      let seq := t.get R.JRN_HEAD.HEAD
      let u := (t.reexecEntry o (if fails < 2 then fails else 0)).1.writeOutcome o (outcomeArea 9 0 0 0 [(16, 6, seq)])
      { u with cmd := { u.cmd with reexec := rest } }.openCmd
        ⟨seq, 64, leAt bs 2 2, bs, (leAt bs 4 1).testBit 7, u.ns, some o, false, none, 0⟩

/-- A re-execution waits for its slot of the journal: SERVE has begun and none runs (R468, R478). -/
def State.reexecWaits (s : State) : Bool :=
  s.mode == .serve && !s.fault.chipReset && !s.cmd.reexec.isEmpty && s.cmd.open_.all fun c => c.orig.isNone

/-- COMMAND_ACCEPT: a re-execution that waits, or the next waiting command, unless the journal slot must stay (R468). -/
def State.acceptNext (s : State) (fails : Nat) : State :=
  if s.reexecWaits then s.reexecuteNext fails
  else if !s.mayAccept then s
  else match s.nextRing with
    | none => s
    | some r => if s.slotHeld then s else s.takeCommand r fails

/-- COMMAND_ACCEPT (R466); `fails` read-backs fail. -/
def execCommandAccept (fails : Nat) (s : State) : Out State :=
  complete (Instr.wf (.commandAccept fails)) s (s.acceptNext fails)

/-! ### Execution (R473) -/

/-- The open command of a sequence. -/
def State.findCmd (s : State) (seq : Nat) : Option OpenCmd := s.cmd.open_.find? fun c => c.seq == seq

/-- Replaces the open command of a sequence. -/
def State.updCmd (s : State) (seq : Nat) (f : OpenCmd → OpenCmd) : State :=
  { s with cmd := { s.cmd with open_ := updFirst (fun c => c.seq == seq) f s.cmd.open_ } }

/-- A table command names table `t`; table 0xFF of TBL_FLUSH_PORT stands for every exact-match table with FLUSH = 1 (R220). -/
def State.namesTable (s : State) (c : OpenCmd) (t : Nat) : Bool :=
  decide (1 ≤ c.code ∧ c.code ≤ 5) &&
    (if c.code = 5 ∧ c.op 16 1 = 0xFF then
      s.bit (R.TBL_DESC.FLUSH t) && (s.get (R.TBL_DESC.KIND t) == 2 || s.get (R.TBL_DESC.KIND t) == 3)
    else c.op 16 1 == t)

/-- Two commands name one table, and so run one at a time in order of acceptance (R221). -/
def State.oneTable (s : State) (c d : OpenCmd) : Bool := (List.range 256).any fun t => s.namesTable c t && s.namesTable d t

/-- The lines of table SRAM that a table occupies: first line and number. -/
def State.sramRegion (s : State) (t : Nat) : Nat × Nat :=
  let n := 2 ^ s.get (R.TBL_DESC.BBITS t)
  let base := s.get (R.TBL_DESC.BASE t)
  let here := s.get (R.TBL_DESC.TIER t) == 0
  match s.get (R.TBL_DESC.KIND t) with
  | 0 => (0, 0)
  | 1 => (base, max (16 ^ s.get (R.TBL_PLAN.R t)) (SMap.find (fun _ => 0) s.tbl.regions (2 * t)))
  | 3 => (base, if here then 5 * n else 0)
  | _ => (base, if here then n else 0)

/-- Block `b` of 4 MiB of table SRAM holds lines of table `t`. -/
def State.tableInBlock (s : State) (t b : Nat) : Bool :=
  let r := s.sramRegion t
  decide (r.1 < 65536 * (b + 1) ∧ 65536 * b < r.1 + r.2)

/-- Block `b` of 4 MiB of table SRAM holds bytes of a region: first byte and length. -/
def inBlock (b : Nat) (r : Nat × Nat) : Bool := decide (r.1 < 2 ^ 22 * (b + 1) ∧ 2 ^ 22 * b < r.1 + r.2)

/-- Block `b` of table SRAM holds what a command works on beside tables: shaper state and placement records, an aperture record, the
counter store (R250, R297, R317, R550). -/
def State.worksInBlock (s : State) (c : OpenCmd) (b : Nat) : Bool :=
  match c.code with
  | 0x30 | 0x40 | 0x41 | 0x42 => s.tbl.sram.any (inBlock b)
  | 0x32 => inBlock b (s.apr.base + 32 * c.op 16 4, 32)
  | 0x50 | 0x51 => inBlock b (64 * s.get R.CNT_STORE.BASE, 256 * s.get R.CNT_STORE.COUNT16)
  | _ => false

/-- A command's work needs self-test unit `u`: the service facets that execute it; the table SRAM of its tables and records; its lens
array; the control stores; the apertures; the switch core and collimator; the irises (R537, R545). -/
def State.needsUnit (s : State) (c : OpenCmd) (u : Nat) : Bool :=
  u == 176 || u == 273 ||
    (decide (96 ≤ u ∧ u < 160) && (((List.range 256).any fun t => s.namesTable c t && s.tableInBlock t (u - 96)) || s.worksInBlock c (u - 96))) ||
    (match c.code with
    | 0x10 | 0x11 => u == 177 + c.op 16 1
    | 0x22 => decide (160 ≤ u ∧ u < 176)
    | 0x32 => decide (257 ≤ u ∧ u < 273)
    | 0x30 | 0x31 | 0x40 => u == 274
    | 0x70 | 0x71 => u == 276 || decide (225 ≤ u ∧ u < 257)
    | _ => false)

/-- The command waits for the end of a unit's test (R545). -/
def State.testHolds (s : State) (c : OpenCmd) : Bool := s.bist.running.any fun g => (g.2.take 1).any (s.needsUnit c)

/-- A command may begin: past its gate, not begun, the first of its ring, behind no earlier command that has yet to run on its
table, not held by a self-test, and, under FENCE or for RESTART and SAFE, the first of all (R221, R473, R474, R505, R545). -/
def State.mayBegin (s : State) (c : OpenCmd) : Bool :=
  let before := s.cmd.open_.takeWhile fun d => d.seq != c.seq
  !c.waiting && !c.started && c.outcome.isNone && !s.testHolds c &&
    before.all (fun d => d.ring != c.ring && !(d.outcome.isNone && s.oneTable c d)) && (before.isEmpty || !(c.fence || (modeOp c.bytes).isSome))

/-- Ends a command's execution with its outcome (R469); COMMAND_COMPLETE writes it. -/
def State.finish (s : State) (seq code reason index takeover : Nat) (data : List (Nat × Nat × Nat)) : State :=
  s.updCmd seq fun c => { c with started := true, outcome := some (outcomeArea code reason index takeover data) }

/-- Outcome done, with its takeover now. -/
def State.done (s : State) (seq : Nat) (data : List (Nat × Nat × Nat)) : State := s.finish seq 0 0 0 s.now data

/-- Outcome done of a command that has changed nothing, and so made no takeover (R469). -/
def State.told (s : State) (seq : Nat) (data : List (Nat × Nat × Nat)) : State := s.finish seq 0 0 0 0 data

/-- A command that goes on begins, with its takeover now (R473). -/
def State.begun (s : State) (seq : Nat) : State := s.updCmd seq fun c => { c with started := true, takeNs := s.now }

/-- The takeover that an open command has made. -/
def State.takeoverOf (s : State) (seq : Nat) : Nat := match s.findCmd seq with | some c => c.takeNs | none => 0

/-- Commands run: in SERVE, with no chip reset raised; HOLD-UP stops execution (R476, R529). -/
def State.executing (s : State) : Bool := s.mode == .serve && !s.fault.chipReset

/-- Outcome refused, in the command's own operands. -/
def State.refuse (s : State) (seq reason : Nat) : State := s.finish seq 1 reason 0 0 []

/-- Outcome refused at entry `index` of a command that has several; 0xFFFF for its own operands. -/
def State.refuseAt (s : State) (seq reason index : Nat) : State := s.finish seq 1 reason index 0 []

/-- Runs the body of a command that may begin: the open command of `seq`, whose code is `code`, in SERVE with no chip
reset raised, with a service facet to execute it (R34). Where none may begin, nothing happens. -/
def State.runCmd (s : State) (seq code : Nat) (body : OpenCmd → State → State) : State :=
  match s.findCmd seq with
  | none => s
  | some c => if c.code == code && s.mode == .serve && !s.fault.chipReset && s.roleUp 0 && s.mayBegin c then body c s else s

/-- NOP (R463). -/
def State.nop (s : State) (seq : Nat) : State :=
  s.runCmd seq 0x7F fun c t => if c.formed [(16, 48)] then t.finish seq 0 0 0 0 [] else t.refuse seq 1

/-- NOP (R463): completes done; a reserved byte that is set ends it refused "format". -/
def execNop (seq : Nat) (s : State) : Out State := complete true s (s.nop seq)

/-- UNKNOWN_CODE (R463): a code that the table does not list ends refused "code". -/
def execUnknownCode (seq : Nat) (s : State) : Out State :=
  complete true s (match s.findCmd seq with
    | none => s
    | some c =>
      if !codeListed c.code && s.mode == .serve && !s.fault.chipReset && s.roleUp 0 && s.mayBegin c then s.refuse seq 0x13 else s)

/-! ### Gates (R474) -/

/-- Ends a command that never executes: on an ERROR pulse or without a pulse. A RESTART or SAFE that ends so no longer
stops acceptance. -/
def State.endUnrun (s : State) (c : OpenCmd) (code reason : Nat) : State :=
  let s1 := s.updCmd c.seq fun d =>
    { d with waiting := false, started := true, outcome := some (outcomeArea code reason 0 0 []) }
  if (modeOp c.bytes).isSome then { s1 with cmd := { s1.cmd with modeReq := none } } else s1

/-- The oldest pulse reaches its gate: the earliest-accepted command waiting there starts, or is refused "transfer"
on ERROR; with none waiting the pulse is discarded (R457, R474). -/
def State.gatePulse (s : State) : State :=
  match s.cmd.pulses with
  | [] => s
  | (g, err) :: rest =>
    let s1 := { s with cmd := { s.cmd with pulses := rest } }
    match s1.cmd.open_.find? fun c => c.waiting && c.gate == g with
    | none => s1
    | some c => if err then s1.endUnrun c 1 0x12 else s1.updCmd c.seq fun d => { d with waiting := false }

/-- GATE_PULSE (R474); in HOLD-UP execution has stopped (R476). -/
def execGatePulse (s : State) : Out State := complete true s (if s.mode == .holdUp then s else s.gatePulse)

/-- GATE_TIMEOUT (R474): GATE_TIMEOUT ms after acceptance without a pulse, the command completes as timeout. -/
def execGateTimeout (seq : Nat) (s : State) : Out State :=
  complete true s (match s.findCmd seq with
    | none => s
    | some c =>
      if s.mode != .holdUp && c.waiting && decide (c.acceptedNs + s.get R.CMD_CFG.GATE_TIMEOUT * 1000000 ≤ s.ns) then s.endUnrun c 3 0 else s)

/-! ### Completion (R466, R471, R478) -/

/-- The outcome as it is written: a RESTART or SAFE takes its takeover 100 µs after completion (R505). -/
def State.finalOutcome (s : State) (c : OpenCmd) (o : List Byte) : List Byte :=
  match modeOp c.bytes with
  | some _ => if leAt o 0 1 = 0 then outcomeArea 0 0 0 (s.now + 100000) [] else o
  | none => o

/-- COMMAND_COMPLETE: the outcome is written and read back, COMPLETED is posted with the message IRQ asks for, and the
command leaves the open list (R466, R471). -/
def State.completeCmd (s : State) (seq fails : Nat) : State :=
  match s.findCmd seq with
  | none => s
  | some c =>
    match c.outcome with
    | none => s
    | some o =>
      let o1 := s.finalOutcome c o
      let s1 := s.writeOutcome seq o1
      let s2 := if fails < 2 then s1 else
        let d := s1.draw
        let t := (d.2.setJword seq 30 d.1).journalFail (if c.ring < 64 then c.ring else 0xFF)
        { t with cmd := { t.cmd with spoilt := seq :: t.cmd.spoilt } }
      let s3 := { s2 with cmd := { s2.cmd with open_ := s2.cmd.open_.filter fun d => d.seq != seq } }
      let s4 := if c.ring < 64 then
          let p := (s3.dec (R.CMD_STAT.OPEN c.ring) 1).post c.ring c.num 2 seq o1
          if c.irq then p.toHost (p.linkOfPf (p.ringPf c.ring)) (.msix (p.ringPf c.ring) (p.get (R.CMD_RING.VEC c.ring))) else p
        else s3.reexecuteNext 0
      match s4.cmd.modeReq, modeOp c.bytes with
      | some (op, none), some _ =>
        if leAt o1 0 1 = 0 then { s4 with cmd := { s4.cmd with modeReq := some (op, some (s4.ns + 100000)) } } else s4
      | _, _ => s4

/-- COMMAND_COMPLETE (R466); `fails` read-backs of the outcome fail. -/
def execCommandComplete (seq fails : Nat) (s : State) : Out State :=
  complete true s (if s.coreUp && s.mode != .holdUp && !s.fault.chipReset then s.completeCmd seq fails else s)

end Sys2Proof.Machine
end

