-- ==== Sys2Proof/Machine/Buffers.lean ====
section
/-! DEFINITION. Packet memory: cells and their link words, allocation and release, charges, the buffer test, copies
(R257 to R274, R277, R278). -/
namespace Sys2Proof.Machine

/-! ### Cells (R257 to R265) -/

/-- The number of on-die cells, and of banks. -/
def cellCount : Nat := 786432
def bankCount : Nat := 96

/-- A link word with STATE = 1 (R258). -/
def linkWord (owner : Option Nat) (refs : Nat) (last : Bool) (fill next : Nat) : Nat :=
  2 ^ 47 + (match owner with | some o => 2 ^ 46 + o * 2 ^ 32 | none => refs * 2 ^ 32) +
    b2n last * 2 ^ 28 + fill % 256 * 2 ^ 20 + next % 2 ^ 20

/-- The link word of a cell, and its fields. -/
def State.link (s : State) (i : Nat) : Nat := SMap.find (fun _ => 0) s.buf.links i
def linkUsed (w : Nat) : Bool := w.testBit 47
def linkOwned (w : Nat) : Bool := w.testBit 46
def linkTag (w : Nat) : Nat := bitsGet w 32 12
def linkLast (w : Nat) : Bool := w.testBit 28
def linkNext (w : Nat) : Nat := w % 2 ^ 20

/-- A link word is written, with its ECC bits. -/
def State.setLink (s : State) (i w : Nat) : State :=
  { s with buf := { s.buf with links := s.buf.links.put (fun _ => 0) i w, linkWrong := s.buf.linkWrong.put (fun _ => 0) i 0 } }

/-- The ECC of a cell's link word detects an error that it cannot correct: two bits are wrong (or more, DESIGN CHOICE, log 172). One wrong bit is
corrected, and the word reads as it was written (R258). -/
def State.linkFails (s : State) (i : Nat) : Bool := decide (2 ≤ SMap.find (fun _ => 0) s.buf.linkWrong i)

/-- A cell may be allocated now: STATE is 0, and the command that runs has not freed it (R261, R263). -/
def State.cellFree (s : State) (i : Nat) : Bool := !linkUsed (s.link i) && !s.freed.contains i

/-- The cells that may be allocated now. -/
def State.freeCells (s : State) : Nat := s.get R.BUF_POOL.FREE - s.freed.length

/-- The lowest-numbered free cell of a bank, looking at `n` cells from cell `i` (R261). -/
def State.lowestFree (s : State) : Nat → Nat → Option Nat
  | 0, _ => none
  | n + 1, i => if s.cellFree i then some i else s.lowestFree n (i + bankCount)

/-- The free cell a wheel slot of bank `b` gives. -/
def State.freeIn (s : State) (b : Nat) : Option Nat := s.lowestFree 8192 b

/-- The free cell that a writer's next wheel slot gives: the bank the slot names is an open value; a bank without a free
cell passes the slot to the next bank. -/
def State.freeAny (s : State) : Option Nat × State :=
  let d := s.draw
  (((List.range bankCount).map fun i => (d.1 + i) % bankCount).findSome? d.2.freeIn, d.2)

/-! ### Charges (R269, R270, R273, R344) -/

def State.chargeOf (s : State) (i : Nat) : Option Charge := SMap.find (fun _ => none) s.buf.charges i

/-- Adds `n` cells of one kind to an account. -/
def State.addCharge (s : State) (a kind n : Nat) : State :=
  if kind = 10 then { s with buf := { s.buf with refillUsed := s.buf.refillUsed + n } }
  else
    let s1 := s.set (R.BUF_ACCT.USED a) (s.get (R.BUF_ACCT.USED a) + n)
    let s2 := s1.peak (R.BUF_ACCT.PEAK a) (s1.get (R.BUF_ACCT.USED a))
    let s3 := if 1 ≤ kind ∧ kind < 10 then { s2 with buf := { s2.buf with sharedUsed := s2.buf.sharedUsed + n } } else s2
    if 2 ≤ kind ∧ kind < 10 then
      let c := kind - 2
      (s3.set (R.BUF_SU.CELLS a c) (s3.get (R.BUF_SU.CELLS a c) + n)).set (R.BUF_CLASS.SHARED_USED c)
        (s3.get (R.BUF_CLASS.SHARED_USED c) + n)
    else s3

/-- Takes `n` cells of one kind off an account. -/
def State.subCharge (s : State) (a kind n : Nat) : State :=
  if kind = 10 then { s with buf := { s.buf with refillUsed := s.buf.refillUsed - n } }
  else
    let s1 := s.dec (R.BUF_ACCT.USED a) n
    let s2 := if 1 ≤ kind ∧ kind < 10 then { s1 with buf := { s1.buf with sharedUsed := s1.buf.sharedUsed - n } } else s1
    if 2 ≤ kind ∧ kind < 10 then
      (s2.dec (R.BUF_SU.CELLS a (kind - 2)) n).dec (R.BUF_CLASS.SHARED_USED (kind - 2)) n
    else s2

/-- A cell of account 384 that has left its charge returns its credit to the iris it came in on, since that iris's latest
entry to UP (R344). -/
def State.creditBack (s : State) (k : Nat) : State :=
  let i := k % 64
  if (s.iris i).ups ≠ k / 64 then s
  else (s.setIris i { s.iris i with creditTotal := wrapAdd 16 (s.iris i).creditTotal 1 }).dec (R.IRIS_CREDIT.HELD i) 1

/-- Removes a cell's charge. -/
def State.uncharge (s : State) (i : Nat) : State :=
  match s.chargeOf i with
  | none => s
  | some c =>
    let s1 := { s with buf := { s.buf with charges := s.buf.charges.put (fun _ => none) i none } }.subCharge c.acct c.kind 1
    if 16 ≤ c.kind then s1.creditBack (c.kind - 16) else s1

/-- Charges a cell, in place of what it was charged to. -/
def State.charge (s : State) (i a kind : Nat) : State :=
  let s1 := s.uncharge i
  { s1 with buf := { s1.buf with charges := s1.buf.charges.put (fun _ => none) i (some ⟨a, kind⟩) } }.addCharge a kind 1

/-- Takes a free cell into use with its link word; its bytes are written anew. -/
def State.takeCell (s : State) (i w : Nat) : State :=
  ({ s with buf := { s.buf with failing := s.buf.failing.filter fun x => x != i } }.setLink i w).dec R.BUF_POOL.FREE 1

/-- Frees a cell: its bitmap bit, STATE and its charge; the rest of its link word stays (R262). -/
def State.freeCell (s : State) (i : Nat) : State :=
  let s1 := (s.uncharge i).setLink i (bitsSet (s.link i) 47 1 0)
  { s1.set R.BUF_POOL.FREE (s1.get R.BUF_POOL.FREE + 1) with freed := i :: s1.freed }

/-- The shared pool may take a landing cell: watermark 520 is not asserted at its present occupancy (R270). -/
def State.sharedOpen (s : State) : Bool := !s.wmNext 520 && decide (s.buf.sharedUsed < s.get R.BUF_POOL.SHARED)

/-- What a landing cell of an account is charged to: the unused reserved minimum, then the shared pool (R270). -/
def State.landingKind (s : State) (a : Nat) : Option Nat :=
  if s.get (R.BUF_ACCT.USED a) < s.get (R.BUF_ACCT.MIN a) then some 0
  else if s.sharedOpen then some 1 else none

/-! ### Refused requests (R262, R266) -/

/-- The capture of a refused free or handoff, while VALID is 0. -/
def State.captureFree (s : State) (kind requester owner cell : Nat) : State :=
  if s.bit R.BUF_FREE_CAP.VALID then s
  else ((((s.set R.BUF_FREE_CAP.VALID 1).set R.BUF_FREE_CAP.KIND kind).set R.BUF_FREE_CAP.REQUESTER requester).set
    R.BUF_FREE_CAP.OWNER owner).set R.BUF_FREE_CAP.CELL cell

/-- A free of a free cell: BUF_DOUBLE_FREE. -/
def State.doubleFree (s : State) (cell requester : Nat) : State :=
  ((s.sat R.BUF_ERR.DOUBLE_FREE 1).captureFree 0 requester (linkTag (s.link cell)) cell).raise 20 0

/-- A request by another than the owner, or at a reference-counted chain: BUF_OWNER. -/
def State.ownerError (s : State) (cell requester : Nat) : State :=
  ((s.sat R.BUF_ERR.OWNER 1).captureFree 1 requester (linkTag (s.link cell)) cell).raise 21 0

/-! ### Release (R265, R266) -/

/-- A chain releases one cell: the count falls by 1, and the cell is freed at 0; the owner's cell is freed. -/
def State.releaseCell (s : State) (requester i : Nat) : State :=
  let w := s.link i
  if !linkUsed w then s.doubleFree i requester
  else if linkOwned w then (if linkTag w = requester then s.freeCell i else s.ownerError i requester)
  else if linkTag w ≤ 1 then s.freeCell i
  else s.setLink i (bitsSet w 32 12 (linkTag w - 1))

/-- A packet gives up its on-die cells, and what it is charged beyond them. -/
def State.releaseCells (s : State) (p : Pkt) : State :=
  let req := match p.owner with | some o => o | none => 291
  let s1 := p.cells.foldl (fun t i => t.releaseCell req i) s
  let s2 := if p.xResv = 0 then s1 else s1.subCharge p.acct 0 p.xResv
  if p.xShar = 0 then s2 else s2.subCharge p.acct (2 + p.stamp.cls) p.xShar

/-- The cells of the chain that starts at a cell, following NEXT for at most `n` cells. -/
def State.chainFrom (s : State) : Nat → Nat → List Nat
  | 0, _ => []
  | n + 1, i => if linkLast (s.link i) then [i] else i :: s.chainFrom n (linkNext (s.link i))

/-! ### The buffer test (R271) -/

/-- The cells that the irises which carry cells have granted their peers and not yet received (R344). -/
def State.promised (s : State) : Nat :=
  ((s.irises.filter fun e => decide (2 ≤ s.get (R.IRIS_STATUS.STATE e.1) ∧ s.get (R.IRIS_STATUS.STATE e.1) ≤ 3)).map fun e =>
    (e.2.creditTotal + 65536 - e.2.exp) % 65536).sum

/-- The free cells of account 384 that no credit speaks for (R274). -/
def State.fabricFree (s : State) : Nat := s.get (R.BUF_ACCT.MIN 384) - (s.get (R.BUF_ACCT.USED 384) + s.promised)

/-- The shared cells a charge of `n` cells of account `a` needs in class `c`, when it passes the test; `own` and
`ownShared` are the cells, and shared cells, the frame has charged already. The fabric receive account uses only its reserved
minimum, and of it only what no credit speaks for (R274). -/
def State.bufferTest (s : State) (a c n own ownShared : Nat) : Option Nat :=
  let minA := s.get (R.BUF_ACCT.MIN a)
  let left := if a = 384 then s.fabricFree else minA - min (s.get (R.BUF_ACCT.USED a) - own) minA
  let need := n - left
  let free := s.get R.BUF_POOL.SHARED - (s.buf.sharedUsed - ownShared)
  if need = 0 ∨ (a ≠ 384 ∧ need ≤ free ∧
      (s.get (R.BUF_SU.CELLS a c) + need) * 64 ≤ 2 ^ s.get (R.BUF_CLASS.ALPHA c) * free) then some need else none

/-- The number of a packet's on-die cells that the shared pool carries. -/
def State.sharedCells (s : State) (p : Pkt) : Nat :=
  (p.cells.filter fun i => match s.chargeOf i with | some c => decide (1 ≤ c.kind ∧ c.kind < 10) | none => false).length

/-- Charges the cells of a list: the first `r` reserved, the others shared in class `c`. -/
def State.chargeSplit (s : State) (a c : Nat) : List Nat → Nat → State
  | [], _ => s
  | i :: is, 0 => (s.charge i a (2 + c)).chargeSplit a c is 0
  | i :: is, r + 1 => (s.charge i a 0).chargeSplit a c is r

/-- Enters a frame's charge of `n` cells, `need` of them shared in class `c` (R271, R272). -/
def State.enterCharge (s : State) (p : Pkt) (c n need : Nat) : State × Pkt :=
  let k := p.cells.length
  let r := n - need
  let s1 := s.chargeSplit p.acct c p.cells r
  let xr := r - k
  let xs := need - (k - r)
  let s2 := if xr = 0 then s1 else s1.addCharge p.acct 0 xr
  let s3 := if xs = 0 then s2 else s2.addCharge p.acct (2 + c) xs
  (s3, { p with xResv := xr, xShar := xs })

/-- The charge of a cell that a cut-through frame writes after its decision: out of what it holds beyond its cells. -/
def State.chargeTaken (s : State) (p : Pkt) (i : Nat) : State × Pkt :=
  if 0 < p.xResv then ((s.subCharge p.acct 0 1).charge i p.acct 0, { p with xResv := p.xResv - 1 })
  else ((s.subCharge p.acct (2 + p.stamp.cls) 1).charge i p.acct (2 + p.stamp.cls), { p with xShar := p.xShar - 1 })

/-! ### Chains -/

/-- The FILL of cell `k` of a frame of `len` bytes. -/
def fillOf (len k : Nat) : Nat := if (k + 1) * 256 ≤ len then 255 else (len - 1) % 256

/-- Writes the link words of a chain of `len` bytes over the listed cells, each already in use. -/
def State.relink (s : State) (owner : Option Nat) (len : Nat) : List Nat → Nat → State
  | [], _ => s
  | [i], k => s.setLink i (linkWord owner (max 1 (linkTag (s.link i))) true (fillOf len k) 0)
  | i :: j :: is, k =>
    (s.setLink i (linkWord owner (max 1 (linkTag (s.link i))) false (fillOf len k) j)).relink owner len (j :: is) (k + 1)

/-- What a cell that an edit or an exception writes beyond the test of its packet is charged to: the packet's class in the shared
pool; on the fabric receive account its reserved minimum (R273, R274). -/
def extraKind (a c : Nat) : Nat := if a = 384 then 0 else 2 + c

/-- The places of a packet's chain whose cells have an uncorrectable error, in their bytes or in their link words. -/
def State.failingPlaces (s : State) (p : Pkt) : List Nat :=
  (List.range p.cells.length).filter fun k =>
    p.failing.contains k || s.buf.failing.contains (p.cells.getD k 0) || s.linkFails (p.cells.getD k 0)

/-- The cells at the listed places of a packet's chain are found to have an uncorrectable error: every chain that links them
fails with it (R282). -/
def State.markFailing (s : State) (p : Pkt) (places : List Nat) : State :=
  let cells := places.filterMap fun k => p.cells[k]?
  { s with buf := { s.buf with failing := s.buf.failing ++ cells.filter fun i => !s.buf.failing.contains i } }

/-- Takes `n` free cells, with a charge for each given by `kind`; the cells taken. -/
def State.takeCells (s : State) (owner : Option Nat) (a : Nat) (kind : Nat → Nat) : Nat → List Nat → State × List Nat
  | 0, got => (s, got)
  | n + 1, got =>
    match s.freeAny with
    | (none, t) => (t, got)
    | (some i, t) =>
      ((t.takeCell i (linkWord owner 1 true 255 0)).charge i a (kind got.length)).takeCells owner a kind n (got ++ [i])

/-- A private chain of `len` bytes for a copy of packet `p` in class `c`: charged to the original's account under R273,
and none when that charge fails the test or no cell is free. -/
def State.privateChain (s : State) (p : Pkt) (owner : Option Nat) (c len : Nat) : State × Option (List Nat) :=
  let n := cellsOf len
  match s.bufferTest p.acct c n 0 0 with
  | none => (s, none)
  | some need =>
    if s.freeCells < n then (s, none)
    else
      let t := s.takeCells owner p.acct (fun k => if k < n - need then 0 else 2 + c) n []
      (t.1.relink owner len t.2 0, some t.2)

/-- A chain links a reference-counted cell once more: its count rises by 1; a cell at 255 cannot be linked (R265). -/
def State.linkAgain (s : State) (i : Nat) : Option State :=
  let w := s.link i
  if linkOwned w ∨ 255 ≤ linkTag w then none else some (s.setLink i (bitsSet w 32 12 (linkTag w + 1)))

/-- Whether every cell of a list can be linked once more. -/
def State.linkable (s : State) (is : List Nat) : Bool := is.all fun i => (s.linkAgain i).isSome

/-- Links every cell of a list once more. -/
def State.linkAll (s : State) (is : List Nat) : State := is.foldl (fun t i => (t.linkAgain i).getD t) s

/-- Links the private cells of a copy of `len` bytes, each to the next cell of the copy; cells in `shared` keep their words. -/
def State.relinkOwn (s : State) (len : Nat) (shared : List Nat) : List Nat → Nat → State
  | [], _ => s
  | i :: is, k =>
    (if shared.contains i then s
     else s.setLink i (linkWord none 1 is.isEmpty (if is.isEmpty then fillOf len k else 255) (is.headD 0))).relinkOwn len shared is (k + 1)

/-- The cells of a copy of `len` bytes that shares the listed leading or trailing cells (`share`) of a chain and writes
the others privately: tested and charged as R273 says. -/
def State.copyChain (s : State) (p : Pkt) (c len : Nat) (share : Nat → Bool) : State × Option (List Nat) :=
  let n := cellsOf len
  let idx := List.range n
  let ok := fun k => share k && (match p.cells[k]? with | some i => (s.linkAgain i).isSome | none => false)
  let priv := (idx.filter fun k => !ok k).length
  match s.bufferTest p.acct c priv 0 0 with
  | none => (s, none)
  | some need =>
    if s.freeCells < priv then (s, none)
    else
      let t := s.takeCells none p.acct (fun k => if k < priv - need then 0 else 2 + c) priv []
      let cells := idx.foldl (fun (acc : List Nat × List Nat) k =>
        if ok k then (acc.1 ++ [p.cells.getD k 0], acc.2)
        else (acc.1 ++ acc.2.take 1, acc.2.drop 1)) ([], t.2)
      let shared := (idx.filter ok).map fun k => p.cells.getD k 0
      ((t.1.linkAll shared).relinkOwn len shared cells.1 0, some cells.1)

/-! ### Requests (R262, R266, R267) -/

/-- A request to free: one cell of a chain, or by an owner the chain that starts at the cell. -/
def State.freeRequest (s : State) (cell requester : Nat) (asOwner : Bool) : State :=
  let w := s.link cell
  if !linkUsed w then s.doubleFree cell requester
  else if asOwner then
    (if linkOwned w && linkTag w == requester then (s.chainFrom 64 cell).foldl (fun t i => t.releaseCell requester i) s
     else s.ownerError cell requester)
  else s.releaseCell requester cell

/-- CELL_FREE (R262, R265, R266). -/
def execCellFree (cell requester : Nat) (asOwner : Bool) (s : State) : Out State :=
  complete (Instr.wf (.cellFree cell requester asOwner)) s (if s.coreUp then s.freeRequest cell requester asOwner else s)

/-- A handoff renames TAG in every cell of an owner-named chain (R266). -/
def State.handoffChain (s : State) (cell requester owner : Nat) : State :=
  let w := s.link cell
  if linkUsed w && linkOwned w && linkTag w == requester then
    (s.chainFrom 64 cell).foldl (fun t i => t.setLink i (bitsSet (t.link i) 32 12 owner)) s
  else s.ownerError cell requester

/-- CHAIN_HANDOFF (R266). -/
def execChainHandoff (cell requester owner : Nat) (s : State) : Out State :=
  complete (Instr.wf (.chainHandoff cell requester owner)) s (if s.coreUp then s.handoffChain cell requester owner else s)

end Sys2Proof.Machine
end

