-- ==== Sys2Proof/Machine/Loss.lean ====
section
/-! DEFINITION. Exact times, deadlines and keys, drops by reason and contract breaches (R294, R306 to R310, R322, R553). -/
namespace Sys2Proof.Machine

/-! ### Exact rationals -/

/-- A rational in lowest terms. -/
def Ratio.mk' (num : Int) (den : Nat) : Ratio :=
  let g := Nat.gcd num.natAbs den
  ⟨num / (max 1 g : Nat), den / max 1 g⟩

def Ratio.nat (n : Nat) : Ratio := ⟨n, 1⟩
def Ratio.add (a b : Ratio) : Ratio := Ratio.mk' (a.num * b.den + b.num * a.den) (a.den * b.den)
def Ratio.sub (a b : Ratio) : Ratio := Ratio.mk' (a.num * b.den - b.num * a.den) (a.den * b.den)
def Ratio.lt (a b : Ratio) : Bool := decide (a.num * b.den < b.num * a.den)
def Ratio.max (a b : Ratio) : Ratio := if a.lt b then b else a
def Ratio.scale (a : Ratio) (n d : Nat) : Ratio := Ratio.mk' (a.num * n) (a.den * d)
def Ratio.floor (a : Ratio) : Int := a.num / a.den

/-! ### Keys (R306, R322) -/

/-- A deadline key: units of 4 ns modulo 2^24. -/
def keyOf (ns : Nat) : Nat := ns / 4 % 2 ^ 24

/-- Key `a` is earlier than key `b`. -/
def keyEarlier (a b : Nat) : Bool :=
  let d := (b + 2 ^ 24 - a % 2 ^ 24) % 2 ^ 24
  decide (1 ≤ d ∧ d < 2 ^ 23)

/-- A deadline as it is keyed: at most 33,554,428 ns after the admission time. -/
def clampDeadline (adm dl : Nat) : Nat := min dl (adm + 33554428)

/-! ### Drops and breaches -/

/-- A reason counted for a packet (R553). -/
def State.countReason (s : State) (r : Nat) (p : Pkt) : State := s.countAt (R.CNT_REASON.COUNT r) 1 p.expo

/-- What the breach of a packet names: its class and whether that is bounded, the device that admitted it if not this one,
its leaf queue, frame length and exposure time. -/
structure Lost where
  cls : Nat
  bounded : Bool
  remote : Option Nat
  leaf : Nat
  len : Nat
  expo : Nat
  deriving DecidableEq, Repr

/-- The two words of a breach record (R311). -/
def State.breachRecord (s : State) (cause : Nat) (l : Lost) : Nat × Nat :=
  let dev := match l.remote with
    | some d => d
    | none => if s.get R.FAB_ADDR.STATE = 2 then s.get R.FAB_ADDR.ADDR else 0
  (s.now * 2 ^ 16 + cause * 2 ^ 9 + l.cls * 2 ^ 6 + b2n l.remote.isSome * 2 ^ 5,
    2 ^ 63 + dev * 2 ^ 51 + l.leaf * 2 ^ 30 + l.len % 2 ^ 14 * 2 ^ 16)

/-- A breach with cause 0x18 LINK, 0x19 UNCORR or 0x1A PAUSE: counted, and for a bounded class recorded and raised
(R310). -/
def State.breachOf (s : State) (cause : Nat) (l : Lost) : State :=
  let s1 := (s.countAt (R.APR_BREACH.COUNT l.cls (if l.bounded then cause - 0x18 else 3)) 1 l.expo).countAt
    (R.CNT_REASON.COUNT cause) 1 l.expo
  if !l.bounded then s1
  else
    let q := fifoPush 1024 s1.apr.breaches (s1.breachRecord cause l)
    let s2 := { s1 with apr := { s1.apr with breaches := q.1 } }.set R.APR_BQ_STAT.DEPTH q.1.length
    let s3 := if q.2 = 0 then s2 else s2.count R.APR_BQ_LOST.COUNT q.2
    s3.raise 23 0

/-- The breach of an accepted packet. -/
def State.breach (s : State) (cause : Nat) (p : Pkt) : State :=
  s.breachOf cause ⟨p.stamp.cls, p.bounded, p.remote, p.leaf, p.len, p.expo⟩

/-- A late delivery (R294). -/
def State.late (s : State) : State := (s.wrap R.APR_ERR.LATE 1).raise 22 0

/-- A packet dropped with a reason: its cells are released and the reason counted. -/
def State.dropPkt (s : State) (r : Nat) (p : Pkt) : State := (s.releaseCells p).countReason r p

end Sys2Proof.Machine
end

