-- ==== Sys2Proof/Machine/Memory.lean ====
section
/-! DEFINITION. HBM and far memory: the dynamic interleave, dynamic requests, refresh, scrub, retraining, skew, far requests
(R408 to R432). -/
namespace Sys2Proof.Machine

/-! ### The dynamic space (R409, R416) -/

/-- Lines of a pseudo-channel. -/
def pcLines : Nat := 18874368

/-- The size of the dynamic space, in bytes. -/
def State.dynSize (s : State) : Nat := 256 * (pcLines - s.get R.HBM_CFG.FWD_LINES) * 64

/-- The pseudo-channel and line of a dynamic address (R416). -/
def State.interleave (s : State) (a : Nat) : Nat × Nat :=
  let grain := 256 * 2 ^ s.get R.HBM_CFG.GRAIN
  let c := a / grain
  let v := c ^^^ s.mem.seed
  let q := (List.range 5).foldl (fun acc i => acc ^^^ (v / 2 ^ (8 * i) % 256)) 0
  (q, s.get R.HBM_CFG.FWD_LINES + c / 256 * (grain / 64) + a % grain / 64)

/-- What a line of the dynamic area holds: 0 until it is written. -/
def State.dynLine (s : State) (q line : Nat) : Nat := SMap.find (fun _ => 0) s.mem.hbm (2 ^ 25 * q + line)

def State.setDynLine (s : State) (q line v : Nat) : State :=
  { s with mem := { s.mem with hbm := s.mem.hbm.put (fun _ => 0) (2 ^ 25 * q + line) v } }

/-- The youngest queued write of a line covers it whole (R420). -/
def State.queuedWrite (s : State) (q line : Nat) : Option Nat :=
  (s.mem.queue.reverse.find? fun r => r.write && r.q == q && r.line == line).map (·.data)

/-- The 64 B at a dynamic address, as a read would return them. -/
def State.dynRead (s : State) (a : Nat) : Nat :=
  let m := s.interleave a
  (s.queuedWrite m.1 m.2).getD (s.dynLine m.1 m.2)

/-- The lines from a dynamic address on come to hold the uncorrectable pattern. -/
def State.spoil (s : State) : Nat → Nat → State
  | 0, _ => s
  | n + 1, a =>
    let m := s.interleave a
    State.spoil { s with mem := { s.mem with bad := (2 ^ 25 * m.1 + m.2) :: s.mem.bad } } n (a + 64)

/-- A stack of a pseudo-channel has failed (R424). -/
def State.stackFailed (s : State) (g : Nat) : Bool := s.get (R.HBM_STACK.STATE g) == 2

/-- A transfer met by a failed stack, an uncorrectable error or a failed far request; 0 is no transfer. -/
def State.failWho (s : State) (who : Nat) : State :=
  if who = 0 then s else { s with mem := { s.mem with failed := who :: s.mem.failed } }

/-- A line that a bulk mover transfer reads is not there: poisoned (1) or failed (2). -/
def State.loseLine (s : State) (who key status : Nat) : State := { s with mem := { s.mem with lost := s.mem.lost ++ [(who, key, status)] } }

/-- A dynamic request ends as an uncorrectable error: counted and raised in the dynamic area, and told to its requester (R423, R424). -/
def State.lineFails (s : State) (q line cls who : Nat) : State :=
  let g := q / 32
  let t := if line < s.get R.HBM_CFG.FWD_LINES then s else (s.sat (R.HBM_ECC.UNCORRECTED g) 1).raise 31 g
  (if cls = 0 then t.loseLine who (2 ^ 25 * q + line) 1 else t).failWho who

/-- A read of the bulk mover (class 0) keeps what it returned. -/
def State.keepRead (s : State) (who cls key v : Nat) : State :=
  if cls = 0 then { s with mem := { s.mem with got := s.mem.got ++ [(who, key, v)] } } else s

/-- A request joins the queue; of those that come in one cycle a write goes ahead of the reads of other requesters (R419). -/
def enqueue (r : MemReq) (q : List MemReq) : List MemReq :=
  if r.write then
    let reads := (q.reverse.takeWhile fun x => !x.write && x.ns == r.ns && x.who != r.who).length
    q.take (q.length - reads) ++ r :: q.drop (q.length - reads)
  else q ++ [r]

/-- A dynamic request reaches its controller: a read that the write queue covers is served from it, and a request to a failed stack ends as
an uncorrectable error (R420, R424). -/
def State.memRequest (s : State) (r : MemReq) : State :=
  let key := 2 ^ 25 * r.q + r.line
  if s.stackFailed (r.q / 32) then s.lineFails r.q r.line r.cls r.who
  else match (if r.write then none else s.queuedWrite r.q r.line) with
    | some v => s.keepRead r.who r.cls key v
    | none => { s with mem := { s.mem with
        queue := enqueue r s.mem.queue
        bad := if r.write then s.mem.bad.filter fun k => k != key else s.mem.bad } }

/-- Queues the dynamic requests of a transfer over `n` lines from a dynamic address. -/
def State.dynRequests (s : State) (who cls : Nat) (hintOpen write : Bool) (data : Nat → Nat) : Nat → Nat → State
  | 0, _ => s
  | n + 1, a =>
    let m := s.interleave a
    (s.memRequest ⟨m.1, m.2, cls, hintOpen, write, data a, s.ns, who⟩).dynRequests who cls hintOpen write data n (a + 64)

/-- The write of a line of the forwarding area reaches every replica, in class 3 (R415, R417); the line's contents stand beside the tables,
where a read sees a queued write at once. -/
def State.forwardWrite (s : State) (groups : List Nat) (line : Nat) : State :=
  groups.foldl (fun (t : State) g => t.memRequest ⟨32 * g + line % 32, line / 32, 3, false, true, 0, s.ns, 0⟩) s

/-- A fresh transfer number. -/
def State.newWho (s : State) : Nat × State := (s.mem.nextWho, { s with mem := { s.mem with nextWho := s.mem.nextWho + 1 } })

/-- The transfer that a far request belongs to. -/
def FarKind.who : FarKind → Option Nat
  | .window _ _ | .table => none
  | .refill w | .spill w | .service w | .moverRead w | .moverWrite w => some w

/-- No request of a transfer is queued or outstanding. -/
def State.whoDone (s : State) (who : Nat) : Bool :=
  (s.mem.queue.all fun r => r.who != who) && s.mem.far.all fun r => r.kind.who != some who

/-! ### The choice of a bank (R418, R419, R421) -/

/-- The open row of a bank. -/
def State.openRow (s : State) (q bank : Nat) : Option Nat :=
  match SMap.find (fun _ => 0) s.mem.rows (64 * q + bank) with | 0 => none | r + 1 => some r
def State.setRow (s : State) (q bank : Nat) (r : Option Nat) : State :=
  { s with mem := { s.mem with rows := s.mem.rows.put (fun _ => 0) (64 * q + bank) (match r with | some x => x + 1 | none => 0) } }

/-- Requests of a bank that no older request to the same line precedes (R419). -/
def bankHeads (q bank : Nat) : List MemReq → List MemReq → List MemReq
  | _, [] => []
  | seen, r :: rs =>
    if r.q = q ∧ Config.hbmBank r.line % 64 = bank ∧ (seen.all fun x => x.line != r.line || x.q != q) = true
    then r :: bankHeads q bank (r :: seen) rs else bankHeads q bank (r :: seen) rs

/-- The request a bank takes: the oldest promoted, else the highest class, in it the open row, then the oldest. -/
def State.chooseReq (s : State) (q bank : Nat) : Option MemReq :=
  let heads := bankHeads q bank [] s.mem.queue
  let promoted := heads.filter fun r => decide (r.ns + 100 * s.get R.HBM_CFG.AGE_LIMIT ≤ s.ns)
  match promoted with
  | r :: _ => some r
  | [] =>
    let best := heads.foldl (fun m r => max m r.cls) 0
    let top := heads.filter fun r => r.cls == best
    match top.find? fun r => s.openRow q bank == some (Config.hbmRow r.line) with
    | some r => some r
    | none => top.head?

/-- A bank is accessed: the access counts for the skew, and the row stays open or closes as the hint says (R421, R426). -/
def State.access (s : State) (q bank line : Nat) (hintOpen : Bool) : State :=
  { s with mem := { s.mem with
    accesses := s.mem.accesses.put (fun _ => 0) q (SMap.find (fun _ => 0) s.mem.accesses q + 1)
    touched := s.mem.touched.put (fun _ => 0) (64 * q + bank) (s.tb + 1) } }.setRow q bank (if hintOpen then some (Config.hbmRow line) else none)

/-- What a request that its bank takes does: a write of the dynamic area lands, a read of it returns the line, or ends as an uncorrectable
error. -/
def State.serveReq (s : State) (r : MemReq) : State :=
  let key := 2 ^ 25 * r.q + r.line
  let s1 := { s with mem := { s.mem with queue := s.mem.queue.erase r } }
  if r.line < s.get R.HBM_CFG.FWD_LINES then s1
  else if r.write then s1.setDynLine r.q r.line r.data
  else if s.mem.bad.contains key then s1.lineFails r.q r.line r.cls r.who
  else s1.keepRead r.who r.cls key (s.dynLine r.q r.line)

/-- A bank serves one dynamic request; while its stack retrains requests wait, and a bank under refresh takes none. -/
def State.dynService (s : State) (q bank : Nat) : State :=
  if s.get (R.HBM_STACK.STATE (q / 32)) ≠ 0 ∨ SMap.find (fun _ => 0) s.mem.refresh q = bank + 1 then s
  else match s.chooseReq q bank with
    | none => s
    | some r => (s.serveReq r).access q bank r.line r.hintOpen

/-- DYNAMIC_REQUEST (R418). -/
def execDynamicRequest (q bank : Nat) (s : State) : Out State :=
  complete (Instr.wf (.dynamicRequest q bank)) s (if s.coreUp then s.dynService q bank else s)

/-- Every write of the forwarding area completes within 100 ns of reaching its controller (R415); while its stack retrains it waits
(R424). -/
def State.forwardDue (s : State) : State :=
  (s.mem.queue.filter fun r => r.cls == 3 && decide (r.ns + 100 ≤ s.ns) && s.get (R.HBM_STACK.STATE (r.q / 32)) == 0).foldl
    (fun (t : State) r => (t.serveReq r).access r.q (Config.hbmBank r.line % 64) r.line false) s

/-- The bank has had no access for 64 controller cycles (R421). -/
def State.rowIdle (s : State) (q bank : Nat) : Bool :=
  match SMap.find (fun _ => 0) s.mem.touched (64 * q + bank) with
  | 0 => true
  | t + 1 => decide (t + 64 * Config.controllerCycle ≤ s.tb)

/-- OPEN_ROW_TIMEOUT (R421): 64 controller cycles without an access to the bank. -/
def execOpenRowTimeout (q bank : Nat) (s : State) : Out State :=
  complete (Instr.wf (.openRowTimeout q bank)) s (if s.coreUp && s.rowIdle q bank then s.setRow q bank none else s)

/-! ### Refresh (R422, R425) -/

/-- The group that holds the other replica of a group's lines, and the pseudo-channel of the same index in it. -/
def partner (g : Nat) : Nat := (g + 4) % 8
def partnerPc (q : Nat) : Nat := 32 * partner (q / 32) + q % 32

/-- The bank of a pseudo-channel under refresh, as 1 + its number. -/
def State.refreshing (s : State) (q : Nat) : Nat := SMap.find (fun _ => 0) s.mem.refresh q

/-- A bank of the pseudo-channel may begin its refresh: none of its own and none of its partner's is under refresh, and its partner's
stack does not retrain. -/
def State.mayRefresh (s : State) (q : Nat) : Bool :=
  s.refreshing q == 0 && s.refreshing (partnerPc q) == 0 && s.get (R.HBM_STACK.STATE (partner (q / 32))) != 1

/-- A bank's refresh begins, which closes its row. -/
def State.beginRefresh (s : State) (q bank : Nat) : State :=
  { s with mem := { s.mem with
    refresh := s.mem.refresh.put (fun _ => 0) q (bank + 1)
    refreshTb := s.mem.refreshTb.put (fun _ => 0) q (s.tb + 1) } }.setRow q bank none

/-- The oldest bank of a pseudo-channel that is due begins, where it may. -/
def State.startDue (s : State) (q : Nat) : State :=
  match s.mem.due.find? fun d => d.1 == q with
  | some d => if s.mayRefresh q then { s with mem := { s.mem with due := s.mem.due.erase d } }.beginRefresh q d.2 else s
  | none => s

/-- The banks that are due in a pseudo-channel and in its partner, the lower-numbered group first. -/
def State.startPair (s : State) (q : Nat) : State :=
  (s.startDue (min q (partnerPc q))).startDue (max q (partnerPc q))

/-- A bank falls due for refresh: it begins, or waits for its turn. Where its partner of a higher-numbered group fell due at the same time
and has begun, that one waits (R422). -/
def State.fallsDue (s : State) (q bank : Nat) : State :=
  let p := partnerPc q
  if s.mayRefresh q then s.beginRefresh q bank
  else if q < p ∧ s.refreshing q = 0 ∧ s.refreshing p ≠ 0 ∧ SMap.find (fun _ => 0) s.mem.refreshTb p = s.tb + 1 ∧
      s.get (R.HBM_STACK.STATE (partner (q / 32))) ≠ 1 then
    { s with mem := { s.mem with
      due := (p, s.refreshing p - 1) :: s.mem.due
      refresh := s.mem.refresh.put (fun _ => 0) p 0 } }.beginRefresh q bank
  else { s with mem := { s.mem with due := s.mem.due ++ [(q, bank)] } }

/-- A bank falls due for refresh, or ends its refresh. -/
def State.refreshBank (s : State) (q bank : Nat) (begins : Bool) : State :=
  if begins then s.fallsDue q bank
  else if s.refreshing q = bank + 1 then
    { s with mem := { s.mem with refresh := s.mem.refresh.put (fun _ => 0) q 0 } }.startPair q
  else s

/-- HBM_REFRESH (R422): a bank falls due for refresh, or its refresh ends. -/
def execHbmRefresh (q bank : Nat) (begins : Bool) (s : State) : Out State :=
  complete (Instr.wf (.hbmRefresh q bank begins)) s (if s.coreUp then s.refreshBank q bank begins else s)

/-- The refreshes that a retrain postponed begin. -/
def State.startPostponed (s : State) (m : Nat) : State :=
  (s.mem.due.filter fun d => d.1 / 32 == partner m).foldl (fun (t : State) d => t.startPair d.1) s

/-! ### Retraining (R424, R425) -/

/-- A stack is due to retrain: 1 s after its last, or with more than 4,096 errors corrected within 1 ms (R424). -/
def State.retrainDue (s : State) (m : Nat) : Bool :=
  decide (SMap.find (fun _ => 0) s.mem.trained m + 1000000000 ≤ s.ns + 1) ||
    decide (4096 < ((SMap.find (fun _ => []) s.mem.corrected m).filter fun t => decide (s.ns < t + 1000000)).length)

/-- A corrected error in a stack. -/
def State.noteCorrected (s : State) (g : Nat) : State :=
  let l := (SMap.find (fun _ => []) s.mem.corrected g).filter fun t => decide (s.ns < t + 1000000)
  { s with mem := { s.mem with corrected := s.mem.corrected.put (fun _ => []) g (l ++ [s.ns]) } }

/-- A stack that is due begins to retrain: it and its partner are in service, retrains of different stacks begin at least 1 ms apart
(R601), and its partner's banks have no refresh under way or due. -/
def State.retrainStart (s : State) (m : Nat) : State :=
  let clear := ((List.range 32).all fun i => s.refreshing (32 * partner m + i) == 0) && s.mem.due.all fun d => d.1 / 32 != partner m
  let apart := s.mem.trained.all fun e => e.1 == m || e.2 == 0 || decide (e.2 - 1 + 1000000 ≤ s.ns)
  if s.retrainDue m = true ∧ s.get (R.HBM_STACK.STATE m) = 0 ∧ s.get (R.HBM_STACK.STATE (partner m)) = 0 ∧ clear = true ∧
      apart = true then
    { (s.set (R.HBM_STACK.STATE m) 1) with mem := { s.mem with
        retrains := s.mem.retrains.put (fun _ => 0) m (s.ns + 1)
        trained := s.mem.trained.put (fun _ => 0) m (s.ns + 1)
        corrected := s.mem.corrected.put (fun _ => []) m [] } }
  else s

/-- The ns a stack has been retraining. -/
def State.retrainNs (s : State) (m : Nat) : Nat := s.ns + 1 - SMap.find (fun _ => 0) s.mem.retrains m

/-- A retrain completes within 20 µs; one that ends in the first 1 µs of a skew window leaves that window counted
(KL-11, R601). -/
def State.retrainDone (s : State) (m : Nat) : State :=
  if s.get (R.HBM_STACK.STATE m) = 1 ∧ s.retrainNs m ≤ 20000 then
    let s1 := ((s.set (R.HBM_STACK.STATE m) 0).sat (R.HBM_STACK.RETRAINS m) 1).set (R.HBM_STACK.LAST m) (s.retrainNs m / 10)
    { s1 with mem := { s1.mem with
        retrains := s1.mem.retrains.put (fun _ => 0) m 0
        winRetrain := s1.mem.winRetrain || decide (s.mem.winNs + 1000 < s.ns) } }.startPostponed m
  else s

/-- A retrain that exceeds 20 µs: the stack is failed, its dynamic requests end as uncorrectable errors, HBM_RETRAIN. -/
def State.retrainFail (s : State) (m : Nat) : State :=
  if s.get (R.HBM_STACK.STATE m) = 1 ∧ 20000 < s.retrainNs m then
    let lost := s.mem.queue.filter fun r => r.q / 32 == m
    let s1 := s.set (R.HBM_STACK.STATE m) 2
    let s2 := { s1 with mem := { s1.mem with
        queue := s1.mem.queue.filter fun r => r.q / 32 != m
        winRetrain := true
        retrains := s1.mem.retrains.put (fun _ => 0) m 0 } }
    ((lost.foldl (fun (t : State) r => t.lineFails r.q r.line r.cls r.who) s2).raise (240 + m) m).startPostponed m
  else s

/-- HBM_RETRAIN_START (R424). -/
def execHbmRetrainStart (m : Nat) (s : State) : Out State :=
  complete (Instr.wf (.hbmRetrainStart m)) s (if s.coreUp then s.retrainStart m else s)

/-- HBM_RETRAIN_COMPLETE (R424). -/
def execHbmRetrainComplete (m : Nat) (s : State) : Out State :=
  complete (Instr.wf (.hbmRetrainComplete m)) s (if s.coreUp then s.retrainDone m else s)

/-- HBM_RETRAIN (R424). -/
def execHbmRetrain (m : Nat) (s : State) : Out State :=
  complete (Instr.wf (.hbmRetrain m)) s (if s.coreUp then s.retrainFail m else s)

/-! ### Skew (R426) -/

/-- The first largest count of the pseudo-channels, and which. -/
def State.mostLoaded (s : State) : Nat × Nat :=
  (List.range 256).foldl (fun (best : Nat × Nat) q =>
    let n := SMap.find (fun _ => 0) s.mem.accesses q
    if best.2 < n then (q, n) else best) (0, 0)

/-- The skew of the window in units of 1/256, an open value when no access was made, and the state with the draw. -/
def State.skew (s : State) : Nat × State :=
  let total := (s.mem.accesses.map (·.2)).sum
  if total = 0 then s.draw else (s.mostLoaded.2 * 65536 / total, s)

/-- The end of a 100 µs window that is counted. -/
def State.skewCounted (s : State) : State :=
  let k := s.skew
  let ratio := min k.1 65535
  let s1 := (k.2.set R.HBM_SKEW_STAT.PC s.mostLoaded.1).set R.HBM_SKEW_STAT.RATIO ratio
  let high := decide (s.get R.HBM_SKEW_CFG.THRESH ≤ k.1)
  let above := if high then s.mem.above + 1 else 0
  let below := if high then 0 else s.mem.below + 1
  let s2 := { s1 with mem := { s1.mem with above := above, below := below } }
  let w := s.get R.HBM_SKEW_CFG.WINDOWS
  if high ∧ w ≤ above ∧ s.bit R.HBM_SKEW_STAT.ACTIVE = false then (s2.setBit R.HBM_SKEW_STAT.ACTIVE true).raise 30 0
  else if !high ∧ w ≤ below then s2.setBit R.HBM_SKEW_STAT.ACTIVE false else s2

/-- A 100 µs window ends: one in which a stack retrained is not counted. -/
def State.skewWindow (s : State) : State :=
  let busy := (List.range 8).any fun m => s.get (R.HBM_STACK.STATE m) == 1
  let s1 := if s.mem.winRetrain || busy then s else s.skewCounted
  { s1 with mem := { s1.mem with winNs := s.ns, winRetrain := false, accesses := [] } }

/-- SKEW_WINDOW (R426). -/
def execSkewWindow (s : State) : Out State :=
  complete true s (if s.coreUp && decide (s.mem.winNs + 100000 ≤ s.ns) then s.skewWindow else s)

/-! ### Far ports (R428 to R432) -/

/-- The far port and byte address of a far address (R429). -/
def farPort (a : Nat) : Nat := a / 2 ^ 41 % 16

/-- The bytes of a far port's device. -/
def State.farBytes (s : State) (f : Nat) : Nat := s.get (R.FAR_PORT.CAPACITY f) * 2 ^ 30

/-- A range lies within its far port. -/
def State.farInside (s : State) (a len : Nat) : Bool :=
  decide (a < 2 ^ 45) && decide (a % 2 ^ 41 + len ≤ s.farBytes (farPort a))

/-- Sends a far request: its tag is taken (R430). -/
def State.farRequest (s : State) (f : Nat) (kind : FarKind) (a : Nat) : State :=
  let s1 := s.set (R.FAR_TAGS.TOTAL f) (s.get (R.FAR_TAGS.TOTAL f) + 1)
  let s2 := match kind with
    | .window _ _ => s1.set (R.FAR_TAGS.WINDOW f) (s1.get (R.FAR_TAGS.WINDOW f) + 1)
    | _ => s1
  { s2 with mem := { s2.mem with far := s2.mem.far ++ [⟨f, s2.mem.nextFar, kind, s.ns, a⟩], nextFar := s2.mem.nextFar + 1 } }

/-- A window read finds a window tag; another request finds one of the other 3,072. -/
def State.windowTag (s : State) (f : Nat) : Bool := decide (s.get (R.FAR_TAGS.WINDOW f) < 1024)
def State.farTag (s : State) (f : Nat) : Bool :=
  decide (s.get (R.FAR_TAGS.TOTAL f) - s.get (R.FAR_TAGS.WINDOW f) < 3072)

/-- Takes a far request off the outstanding ones and frees its tag. -/
def State.farRetire (s : State) (r : FarReq) : State :=
  let s1 := s.dec (R.FAR_TAGS.TOTAL r.port) 1
  let s2 := match r.kind with
    | .window _ _ => s1.dec (R.FAR_TAGS.WINDOW r.port) 1
    | _ => s1
  { s2 with mem := { s2.mem with far := s2.mem.far.erase r } }

/-- The reads of a far port that completed in the last 10 µs, and their mean latency (R431). -/
def State.farRecent (s : State) (f : Nat) : List (Nat × Nat) :=
  (SMap.find (fun _ => []) s.mem.lats f).filter fun e => decide (s.ns < e.1 + 10000)
def latMean (l : List (Nat × Nat)) : Nat := min ((l.map (·.2)).sum / l.length) 65535

/-- The latency registers after a read of `lat` ns: the peak, and the mean over the last 10 µs. -/
def State.farLatency (s : State) (f lat : Nat) : State :=
  let l := s.farRecent f ++ [(s.ns, lat)]
  ({ s with mem := { s.mem with lats := s.mem.lats.put (fun _ => []) f l } }.set (R.FAR_LAT.MEAN f) (latMean l)).peak
    (R.FAR_LAT.PEAK f) lat

/-- The next far port that can supply a spill extent, after the one that supplied the last (R429). -/
def State.extentPort (s : State) (used : Nat → Nat) : Option Nat :=
  ((List.range 16).map fun i => (s.mem.lastPort + 1 + i) % 16).find? fun f =>
    s.bit (R.FAR_PORT.UP f) && decide (used f < s.get (R.FAR_SPILL.EXTENTS f))

end Sys2Proof.Machine
end

