-- ==== Sys2Proof/Machine/Lens.lean ====
section
/-! DEFINITION. Rule versions as rows see them, and the lens arrays: searches, row changes, the settle pass, the shadow
comparator, LENS_WRITE and LENS_INVALIDATE (R171 to R189, R222). -/
namespace Sys2Proof.Machine

/-! ### Versions (R174, R222) -/

def State.oldest (s : State) : Nat := s.get R.LENS_VERSION.OLDEST
def State.current (s : State) : Nat := s.get R.APR_VERSION.CURRENT

/-- The staged version, while one is staged and is not being abandoned (R222, R224). -/
def State.staged (s : State) : Option Nat :=
  if s.bit R.APR_VERSION.STAGE_OPEN && s.ver.abandoning.isEmpty then some (s.get R.APR_VERSION.STAGED) else none

/-- rel(x) against the oldest live version `o`. -/
def relVer (o x : Nat) : Nat := (x + 16 - o % 16) % 16

/-- A version counts as before O. -/
def beforeO (o x : Nat) : Bool := decide (8 ≤ relVer o x)

/-- The first condition of R174: an entry born at `birth` is there at version `v`. -/
def bornBy (o birth v : Nat) : Bool := beforeO o birth || decide (relVer o birth ≤ relVer o v)

/-- The second condition: an entry dying at `death` is not dead at version `v`. -/
def notDead (o death v : Nat) : Bool := !beforeO o death && decide (relVer o v < relVer o death)

/-- The live versions (R222). -/
def State.liveVersions (s : State) : List Nat :=
  (List.range (relVer s.oldest s.current + 1)).map fun i => (s.oldest + i) % 16

/-- A version that the settle pass treats as past: O or before it (R175). -/
def settled (o x : Nat) : Bool := x == o || beforeO o x

/-! ### Rows (R171 to R174) -/

/-- The key of row `r` of array `a`. -/
def lensKey (a r : Nat) : Nat := 16384 * a + r
def State.lensRow (s : State) (a r : Nat) : LensRow := SMap.find (fun _ => {}) s.lens.rows (lensKey a r)
def State.lensShadow (s : State) (a r : Nat) : LensRow := SMap.find (fun _ => {}) s.lens.shadows (lensKey a r)

/-- The mask of a cell. -/
def LensRow.mask (r : LensRow) (c : Nat) : Nat := bitsGet r.cells (16 * c) 16

/-- Nibble `c` of a key of `n` nibbles. -/
def keyNibble (key n c : Nat) : Nat := key / 16 ^ (n - 1 - c) % 16

/-- A cell accepts the key. -/
def LensRow.accepts (r : LensRow) (key n c : Nat) : Bool := (r.mask c).testBit (keyNibble key n c)

/-- Every cell below KLEN accepts the key (R171). -/
def LensRow.acceptsAll (r : LensRow) (key n : Nat) : Bool := (List.range n).all fun c => r.accepts key n c

/-- A row is live at version `v` (R174). -/
def LensRow.live (r : LensRow) (o v : Nat) : Bool :=
  r.valid && (!r.born || bornBy o r.birth v) && (!r.dying || notDead o r.death v)

/-! ### Searches (R176 to R180) -/

/-- The rows of a profile's range that hold anything, in ascending order. -/
def State.lensRange (s : State) (a j : Nat) : List (Nat × LensRow) :=
  let lo := lensKey a (1024 * s.get (R.LENS_PROFILE.FIRST_BLOCK a j))
  let hi := lensKey a (1024 * s.get (R.LENS_PROFILE.LAST_BLOCK a j) + 1023)
  (s.lens.rows.filter fun e => decide (lo ≤ e.1 ∧ e.1 ≤ hi)).map fun e => (e.1 - 16384 * a, e.2)

/-- The better of the row so far and the next: the higher PRIORITY, the lower row among equals (R178). -/
def betterRow (best : Option (Nat × LensRow)) (e : Nat × LensRow) : Option (Nat × LensRow) :=
  match best with
  | some b => if b.2.prio < e.2.prio then some e else best
  | none => some e

/-- The rows whose pre-filter cells accept the key, as a fraction of the range in units of 1/1,024 (R180). -/
def State.enabledFraction (s : State) (a j key n : Nat) (rows : List (Nat × LensRow)) : Nat :=
  if !s.bit (R.LENS_PROFILE.PF_EN a j) then 1023
  else
    let ps := [s.get (R.LENS_PROFILE.PF0 a j), s.get (R.LENS_PROFILE.PF1 a j), s.get (R.LENS_PROFILE.PF2 a j)]
    let on := (rows.filter fun e => ps.all fun c => e.2.accepts key n c).length
    let all := 1024 * (s.get (R.LENS_PROFILE.LAST_BLOCK a j) + 1 - s.get (R.LENS_PROFILE.FIRST_BLOCK a j))
    min 1023 (on * 1024 / max 1 all)

/-- LENS_PWR of array `a` over the searches listed (R180): the mean, 0 of none, and the peak. The spec gives no rounding to units of 1/1,024:
each search's fraction and their mean are rounded down (DESIGN CHOICE, log 46). -/
def State.lensMean (s : State) (a : Nat) (l : List (Nat × Nat)) : State :=
  let mean := (l.map (·.2)).sum / l.length
  ({ s with lens := { s.lens with pwr := s.lens.pwr.put (fun _ => []) a l } }.set (R.LENS_PWR.FRACTION a) mean).peak (R.LENS_PWR.PEAK a) mean

/-- A search of the last 1 ms. -/
def State.lensRecent (s : State) (e : Nat × Nat) : Bool := decide (s.ns < e.1 + 1000000)

/-- LENS_PWR after a search that enabled a fraction `f` of the rows. -/
def State.lensPower (s : State) (a f : Nat) : State :=
  s.lensMean a (((SMap.find (fun _ => []) s.lens.pwr a).filter s.lensRecent) ++ [(s.ns, f)])

/-- LENS_PWR as searches become older than 1 ms. -/
def State.lensAge (s : State) : State :=
  s.lens.pwr.foldl (fun (t : State) e => if e.2.all s.lensRecent then t else t.lensMean e.1 (e.2.filter s.lensRecent)) s

/-- The window of a result record, from its fields (R179). -/
def lensRecord (result a row prio : Nat) : Nat := result * 16 ^ 123 + a * 16 ^ 122 + row * 16 ^ 118 + prio * 16 ^ 114

/-- A search of array `a` under profile `j` at version `v` (R178): the status nibble, the window, and the state with its
parity events. -/
def State.lensSearch (s : State) (a j key v : Nat) : Nat × Nat × State :=
  let n := s.get (R.LENS_PROFILE.KLEN a j)
  let rows := s.lensRange a j
  let hits := rows.filter fun e => e.2.acceptsAll key n
  let bad := hits.filter fun e => e.2.bad
  let best := (hits.filter fun e => !e.2.bad && e.2.live s.oldest v).foldl betterRow none
  let s1 := s.lensPower a (s.enabledFraction a j key n rows)
  let s2 := match bad with
    | [] => s1
    | _ :: _ =>
      let t := (s1.wrap (R.LENS_ERR.PARITY a) bad.length).raise 16 a
      { t with lens := { t.lens with queued := t.lens.queued ++ bad.map fun e => (a, e.1) } }
  let pe := if bad.isEmpty then 0 else 2
  match best with
  | some (r, row) => (12 + pe, lensRecord row.result a r row.prio, s2)
  | none => (8 + pe, lensRecord (s.get (R.LENS_PROFILE.MISS_PTR a j)) a 0 0, s2)

/-! ### Shadows in HBM (R184, R188, R409, R417) -/

/-- The dynamic address of the three lines that hold a row's shadow, as an entry image lays a row out (the spec gives neither; DESIGN CHOICE,
log 197). -/
def State.shadowAddr (s : State) (a r : Nat) : Nat := s.mem.shadowBase + 192 * (16384 * a + r)
def LensRow.image (x : LensRow) : Nat :=
  2 ^ 16 * x.prio + 2 ^ 32 * x.result + 2 ^ 64 * (x.birth + 16 * x.death) + 2 ^ 72 * (b2n x.born + 2 * b2n x.dying + 4 * b2n x.valid) +
    2 ^ 256 * x.cells

/-- The write of a row's shadow, in class 2 with the close hint. -/
def State.shadowWrite (s : State) (a r : Nat) (x : LensRow) : State :=
  let base := s.shadowAddr a r
  s.dynRequests 0 2 false true (fun b => x.image / 2 ^ (8 * (b - base)) % 2 ^ 512) 3 base

/-- The shadow of a row cannot be read now, since a stack that holds it retrains (R424). -/
def State.shadowWaits (s : State) (a r : Nat) : Bool :=
  (List.range 3).any fun i => s.get (R.HBM_STACK.STATE ((s.interleave (s.shadowAddr a r + 64 * i)).1 / 32)) == 1

/-- A line of a shadow is read: from the write queue, from its bank, or it ends as an uncorrectable error. -/
def State.shadowLine (s : State) (address : Nat) : Bool × State :=
  let m := s.interleave address
  if s.stackFailed (m.1 / 32) then (true, s.lineFails m.1 m.2 2 0)
  else if (s.queuedWrite m.1 m.2).isSome then (false, s)
  else
    let t := s.access m.1 (Config.hbmBank m.2 % 64) m.2 false
    if s.mem.bad.contains (2 ^ 25 * m.1 + m.2) then (true, t.lineFails m.1 m.2 2 0) else (false, t)

/-- The shadow of a row is read, in class 2 with the close hint: whether a line of it ended as an uncorrectable error. -/
def State.shadowRead (s : State) (a r : Nat) : Bool × State :=
  (List.range 3).foldl (fun (x : Bool × State) i =>
    let y := x.2.shadowLine (s.shadowAddr a r + 64 * i)
    (x.1 || y.1, y.2)) (false, s)

/-! ### Row changes (R184, R593) -/

/-- A row change: the shadow takes the row, and the row takes the cells given and every protected field, its parity good. -/
def State.changeRow (s : State) (a r : Nat) (shadow : LensRow) (cells : Nat) : State :=
  let k := lensKey a r
  let last := SMap.find (fun _ => 0) s.lens.lastChange a
  let start := if last = 0 ∨ last - 1 + 10000 ≤ s.ns then s.ns + 1 else SMap.find (fun _ => 0) s.lens.burstStart a
  { s.shadowWrite a r shadow with lens := { s.lens with
      shadows := s.lens.shadows.put (fun _ => {}) k { shadow with bad := false }
      rows := s.lens.rows.put (fun _ => {}) k { shadow with bad := false, cells := cells }
      lastChange := s.lens.lastChange.put (fun _ => 0) a (s.ns + 1)
      burstStart := s.lens.burstStart.put (fun _ => 0) a start } }

/-- A change of the protected fields alone, made on the shadow. -/
def State.changeFields (s : State) (a r : Nat) (f : LensRow → LensRow) : State :=
  s.changeRow a r (f (s.lensShadow a r)) (s.lensRow a r).cells

/-- A sweep makes `f` of a row: a row that it changes takes the protected fields of its shadow, and good parity (R184). A sweep is no
burst of row changes (KL-3). -/
def State.sweepRow (s : State) (f : LensRow → LensRow) (k : Nat) : State :=
  let row := SMap.find (fun _ => {}) s.lens.rows k
  let sh := SMap.find (fun _ => {}) s.lens.shadows k
  if f row = row ∧ f sh = sh then s
  else { s.shadowWrite (k / 16384) (k % 16384) (f sh) with lens := { s.lens with
    shadows := s.lens.shadows.put (fun _ => {}) k { f sh with bad := false }
    rows := s.lens.rows.put (fun _ => {}) k { f sh with bad := false, cells := row.cells } } }

/-- A sweep over the rows of one array that hold anything. -/
def State.sweepRows (s : State) (a : Nat) (f : LensRow → LensRow) : State :=
  (((s.lens.rows ++ s.lens.shadows).map (·.1)).filter fun k => k / 16384 == a).foldl (fun (t : State) k => t.sweepRow f k) s

/-- What the settle pass makes of a row (R175). -/
def LensRow.settle (o : Nat) (r : LensRow) : LensRow :=
  { r with
    born := r.born && !settled o r.birth
    valid := r.valid && !(r.dying && settled o r.death) }

/-- What the abandon sweep makes of a row (R225). -/
def LensRow.abandon (v : Nat) (r : LensRow) : LensRow :=
  { r with
    valid := r.valid && !(r.born && r.birth == v)
    dying := r.dying && !(r.death == v) }

/-! ### The comparator (R188, R189) -/

/-- The number of cells in which two rows differ. -/
def cellsDiffer (x y : LensRow) : Nat := ((List.range 80).filter fun c => x.mask c != y.mask c).length

/-- The protected fields differ, or the row's parity fails. -/
def fieldsDiffer (x y : LensRow) : Bool := { x with cells := 0 } != { y with cells := 0 }

/-- The capture of the comparator, while VALID is 0. -/
def State.captureScrub (s : State) (kind a r cells : Nat) (meta_ : Bool) : State :=
  if s.bit R.LENS_SCRUB_CAP.VALID then s
  else (((((s.setWord 0x1901080 0).set R.LENS_SCRUB_CAP.VALID 1).set R.LENS_SCRUB_CAP.KIND kind).set R.LENS_SCRUB_CAP.ARRAY a).set
    R.LENS_SCRUB_CAP.ROW r).set R.LENS_SCRUB_CAP.CELLS cells |>.set R.LENS_SCRUB_CAP.META (b2n meta_)

/-- One row compared with its shadow. A failed shadow read leaves no difference to count: CELLS and META of its capture are 0 (the spec is
silent; DESIGN CHOICE, log 196). -/
def State.compareRow (s0 : State) (a r : Nat) (readError : Bool) : State :=
  let k := lensKey a r
  let row := s0.lensRow a r
  let sh := s0.lensShadow a r
  let bad := readError || (s0.shadowRead a r).1
  let s := ((if bad then s0.raise 18 a else s0).shadowRead a r).2
  if bad then
    let s1 := { s.shadowWrite a r row with lens := { s.lens with shadows := s.lens.shadows.put (fun _ => {}) k { row with bad := false } } }
    (s1.sat (R.LENS_ERR.SHADOW a) 1).captureScrub 1 a r 0 false
  else if row = sh then s
  else
    let s1 := { s with lens := { s.lens with rows := s.lens.rows.put (fun _ => {}) k sh } }
    ((s1.wrap (R.LENS_SCRUB.FIXES a) 1).captureScrub 0 a r (cellsDiffer row sh) (fieldsDiffer row sh)).raise 17 a

/-- The comparator takes no row: a burst of row changes has lasted longer than 1 ms and 10 µs have not passed since its last
change (KL-3, R593); or the array is under test (R538; DESIGN CHOICE, log 199). -/
def State.compareHeld (s : State) (a : Nat) : Bool :=
  let last := SMap.find (fun _ => 0) s.lens.lastChange a
  s.testing (177 + a) ||
    (last != 0 && decide (s.ns < last - 1 + 10000) && decide (SMap.find (fun _ => 0) s.lens.burstStart a - 1 + 1000000 < s.ns))

/-- The rows of an array that a search has left out are compared with their shadows ahead of any pending write (R178), unless the
comparator takes no row, or waits for a stack that retrains; an error that the HBM array makes as such a shadow is read shows in
LENS_COMPARE alone (DEDUCED, log 56). -/
def State.compareQueued (s : State) (a : Nat) : State :=
  if s.compareHeld a then s
  else
    let goes (e : Nat × Nat) : Bool := e.1 == a && !s.shadowWaits a e.2
    (s.lens.queued.filter goes).foldl (fun (t : State) e => t.compareRow a e.2 false)
      { s with lens := { s.lens with queued := s.lens.queued.filter fun e => !goes e } }

/-! ### LENS_WRITE (R181 to R184) -/

/-- Entry image `i` of a block, and the row it names. -/
def lensImage (block : List Byte) (i : Nat) : List Byte := slice block (192 * i) 192
def imageRow (img : List Byte) : Nat := leAt img 0 2

/-- The entry that an image spells. -/
def imageEntry (img : List Byte) : LensRow :=
  { cells := leAt img 32 160
    prio := leAt img 2 2
    result := leAt img 4 4 % 2 ^ 18
    birth := leAt img 8 1 % 16
    death := leAt img 8 1 / 16
    born := (leAt img 9 1).testBit 0
    dying := (leAt img 9 1).testBit 1
    valid := true }

/-- The reserved fields of an image are 0 and its row is 0 to 16,383. -/
def imageFormed (img : List Byte) : Bool :=
  decide (imageRow img < 16384) && decide (leAt img 4 4 < 2 ^ 18) && decide (leAt img 9 1 < 4) && zeroBytes img [(10, 22)]

/-- The check of one entry (R182): the reason on failure. -/
def State.lensCheck (s : State) (a op : Nat) (earlier : List Nat) (img : List Byte) : Option Nat :=
  let row := s.lensRow a (imageRow img)
  let e := imageEntry img
  if !imageFormed img then some 1
  else match op with
    | 0 =>
      if row.valid || earlier.contains (imageRow img) then some 7
      else if e.dying then some 1
      else if e.born && s.staged != some e.birth then some 4 else none
    | 1 => if !row.valid || row.dying then some 3 else if s.staged != some e.death then some 4 else none
    | _ => if !row.dying || s.staged != some row.death then some 3 else none

/-- The first failing entry of a block: its index and reason. -/
def State.lensFirstBad (s : State) (a op : Nat) (block : List Byte) (n : Nat) : Option (Nat × Nat) :=
  (List.range n).findSome? fun i =>
    (s.lensCheck a op ((List.range i).map fun k => imageRow (lensImage block k)) (lensImage block i)).map fun r => (i, r)

/-- One entry of a block applied. -/
def State.lensApply (s : State) (a op : Nat) (img : List Byte) : State :=
  let r := imageRow img
  let e := imageEntry img
  match op with
  | 0 => s.changeRow a r e e.cells
  | 1 => s.changeFields a r fun x => { x with dying := true, death := e.death }
  | _ => s.changeFields a r fun x => { x with dying := false }

/-- A command has written staged entries (R227). -/
def State.noteStaged (s : State) (seq : Nat) : State := { s with ver := { s.ver with stagers := seq :: s.ver.stagers } }

/-- LENS_WRITE with one operation; a reserved operation is refused by any of its rows. -/
def State.lensWrite (s : State) (seq op : Nat) (block : List Byte) : State :=
  s.runCmd seq 0x10 fun c t =>
    let o := c.op 17 1
    let a := c.op 16 1
    let n := c.op 18 2
    if o ≠ op ∧ o < 3 then t
    else if !c.formed [(20, 4), (32, 32)] || decide (16 ≤ a) || decide (3 ≤ o) || n == 0 || decide (4096 < n) || c.op 24 8 % 64 != 0 then
      t.refuseAt seq 1 0xFFFF
    else
      let t1 := (t.compareQueued a).emitAll (t.pfReads (t.cmdPf c) (c.op 24 8) (192 * n))
      match t1.lensFirstBad a op block n with
      | some (i, r) => t1.refuseAt seq r i
      | none =>
        let imgs := (List.range n).map (lensImage block)
        let t2 := imgs.foldl (fun u img => u.lensApply a op img) t1
        let t3 := if op = 0 ∧ (imgs.any fun img => (imageEntry img).born) = false then t2 else t2.noteStaged seq
        t3.done seq [(16, 2, n)]

/-- LENS_WRITE (R182), operation WRITE; `block` is what the host memory returns. -/
def execLensWrite (seq : Nat) (block : List Byte) (s : State) : Out State := complete true s (s.lensWrite seq 0 block)

/-- LENS_WRITE (R182), operation DEATH. -/
def execLensDeath (seq : Nat) (block : List Byte) (s : State) : Out State := complete true s (s.lensWrite seq 1 block)

/-- LENS_WRITE (R182), operation REVIVE. -/
def execLensRevive (seq : Nat) (block : List Byte) (s : State) : Out State := complete true s (s.lensWrite seq 2 block)

/-! ### LENS_INVALIDATE (R186, R187) -/

/-- A row matches at some live version. -/
def State.rowLive (s : State) (a r : Nat) : Bool := s.liveVersions.any fun v => (s.lensRow a r).live s.oldest v

/-- Clears a row, which is a row change whatever it held. -/
def State.clearRow (s : State) (a r : Nat) : State := s.changeFields a r fun x => { x with valid := false }

/-- LENS_INVALIDATE (R187). -/
def execLensInvalidate (seq : Nat) (s : State) : Out State :=
  complete true s (s.runCmd seq 0x11 fun c t =>
    let a := c.op 16 1
    let n := c.op 20 2
    let rows := (List.range n).map fun i => c.op 18 2 + i
    if !c.formed [(22, 42)] || decide (16 ≤ a) || decide (2 ≤ c.op 17 1) || n == 0 || decide (16384 < c.op 18 2 + n) then t.refuse seq 1
    else
      let live := rows.filter (t.rowLive a)
      if c.op 17 1 = 0 ∧ live.isEmpty = false then t.refuse seq 8
      else
        let t1 := rows.foldl (fun u r => u.clearRow a r) (t.compareQueued a)
        (if c.op 17 1 = 0 then t1 else t1.sat (R.LENS_ERR.FORCED a) live.length).done seq [(16, 2, n)])

/-! ### LENS_COMPARE (R188, R189) -/

/-- The next row in turn: ROW advances, and LAST_PASS takes the duration of a full pass. -/
def State.nextCompare (s : State) (a : Nat) : State :=
  let r := s.get (R.LENS_SCRUB.ROW a)
  let s1 := s.set (R.LENS_SCRUB.ROW a) (wrapAdd 14 r 1)
  let s2 := if r = 0 then { s1 with lens := { s1.lens with passStart := s1.lens.passStart.put (fun _ => 0) a s.ns } } else s1
  if r = 16383 then s2.set (R.LENS_SCRUB.LAST_PASS a) (min 65535 ((s.ns - SMap.find (fun _ => 0) s.lens.passStart a) / 10000)) else s2

/-- The row that the comparator of an array takes next: one queued for comparison goes first. -/
def State.compareNext (s : State) (a : Nat) : Nat :=
  match s.lens.queued.find? fun e => e.1 == a with | some e => e.2 | none => s.get (R.LENS_SCRUB.ROW a)

/-- LENS_COMPARE (R189): a row queued for comparison goes first, then the rows in turn; `shadowLost` is an uncorrectable error that the
array makes as the shadow is read. It waits for a stack that retrains. -/
def execLensCompare (a : Nat) (shadowLost : Bool) (s : State) : Out State :=
  complete (Instr.wf (.lensCompare a shadowLost)) s
    (if !s.coreUp || s.compareHeld a || s.shadowWaits a (s.compareNext a) then s
    else match s.lens.queued.find? fun e => e.1 == a with
      | some e => { s with lens := { s.lens with queued := s.lens.queued.erase e } }.compareRow a e.2 shadowLost
      | none => (s.compareRow a (s.get (R.LENS_SCRUB.ROW a)) shadowLost).nextCompare a)

end Sys2Proof.Machine
end

