-- ==== Sys2Proof/Machine/Aperture.lean ====
section
/-! DEFINITION. The aperture: source endpoint and class, the meter, the buffer test, deadline admission, acceptance
(R291 to R306). -/
namespace Sys2Proof.Machine

/-! ### Source (R24, R25, R151, R269, R295) -/

/-- The prism a source enters; as 16 + s, the service facet that a migration has rebound its queue group to (R25, R252). -/
def State.entryOf (s : State) (src : Nat) : Nat :=
  if src < 96 then src / 6 else SMap.find (fun _ => 0) s.apr.assigned src

/-- The port profile of a source in its prism. -/
def State.profileOf (s : State) (k src : Nat) : Nat :=
  if src < 96 then
    match src % 6 with
    | 0 => s.get (R.PRISM_PORTMAP.PORT0 k) | 1 => s.get (R.PRISM_PORTMAP.PORT1 k)
    | 2 => s.get (R.PRISM_PORTMAP.PORT2 k) | 3 => s.get (R.PRISM_PORTMAP.PORT3 k)
    | 4 => s.get (R.PRISM_PORTMAP.PORT4 k) | _ => s.get (R.PRISM_PORTMAP.PORT5 k)
  else if src < 352 then s.get (R.PRISM_PORTMAP.HOST k) else s.get (R.PRISM_PORTMAP.SERVICE k)

/-- The largest frame of a source. -/
def State.maxFrame (s : State) (src : Nat) : Nat := if src < 96 then s.get (R.MAC_CFG.MAXF src) else 16383

/-- The outer 802.1Q or 802.1ad tag of a frame that holds one. -/
def outerTagOf (bytes : List Byte) : Option Nat :=
  if beAt bytes 12 2 = 0x8100 ∨ beAt bytes 12 2 = 0x88A8 then some (beAt bytes 14 2) else none

/-- DSCP[5:3] of the first IPv4 or IPv6 header behind at most `n` tags, the EtherType standing at `off`. -/
def dscpClass (bytes : List Byte) : Nat → Nat → Option Nat
  | n, off =>
    if beAt bytes off 2 = 0x0800 then some (beAt bytes (off + 3) 1 / 32)
    else if beAt bytes off 2 = 0x86DD then some (beAt bytes (off + 2) 2 / 512 % 8)
    else match n with
      | 0 => none
      | m + 1 =>
        if beAt bytes off 2 = 0x8100 ∨ beAt bytes off 2 = 0x88A8 then dscpClass bytes m (off + 4) else none

/-- The class that map `m` gives code point `i`. -/
def State.mapClass (s : State) (m i : Nat) : Nat := bitsGet (s.get (R.APR_CMAP.MAP m)) (3 * i) 3

/-- The source endpoint and class of a frame (R295). -/
def State.sourceClass (s : State) (src : Nat) (tag : Option Nat) (stripped : Bool) (bytes : List Byte) : Nat × Nat :=
  let base := s.get (R.APR_SRC.EP_BASE src)
  let ep := match s.get (R.APR_SRC.EMODE src), tag with
    | 1, some t => base + t % 4096
    | _, _ => base
  let def_ := s.get (R.APR_SRC.DEFCLASS src)
  let m := s.get (R.APR_SRC.CMAP src)
  let c := match s.get (R.APR_SRC.CSRC src), tag with
    | 1, some t => s.mapClass m (t / 8192 % 8)
    | 2, _ => (match dscpClass bytes (if stripped then 1 else 2) 12 with | some i => s.mapClass m i | none => def_)
    | _, _ => def_
  (ep, c)

/-! ### The meter (R297, R298) -/

/-- The record of R297, and what a record spells. -/
def AprRec.encode (a : AprRec) : Nat :=
  a.cir + a.pir * 2 ^ 32 + a.cbs * 2 ^ 64 + a.pbs * 2 ^ 96 + a.tc * 2 ^ 128 + a.tp * 2 ^ 160 + a.time * 2 ^ 192 +
    (a.resBase + b2n a.meterEn * 2 ^ 12 + b2n a.ydrop * 2 ^ 13) * 2 ^ 240
def AprRec.decode (n : Nat) : AprRec :=
  { cir := bitsGet n 0 32
    pir := bitsGet n 32 32
    cbs := bitsGet n 64 32
    pbs := bitsGet n 96 32
    tc := bitsGet n 128 32
    tp := bitsGet n 160 32
    time := bitsGet n 192 48
    resBase := bitsGet n 240 12
    meterEn := n.testBit 252
    ydrop := n.testBit 253 }

def State.aprRec (s : State) (e : Nat) : AprRec := SMap.find (fun _ => {}) s.apr.recs e
def State.setAprRec (s : State) (e : Nat) (r : AprRec) : State :=
  { s with apr := { s.apr with recs := s.apr.recs.put (fun _ => {}) e r } }

/-- The bytes that rate `r` kb/s credits from `t0` to `t1` ns. -/
def refillBytes (r t0 t1 : Nat) : Nat := r * t1 / 8000000 - r * t0 / 8000000

/-- Both buckets refilled to the present. -/
def AprRec.refill (a : AprRec) (t : Nat) : AprRec :=
  { a with
    tc := min a.cbs (a.tc + refillBytes a.cir a.time t)
    tp := min a.pbs (a.tp + refillBytes a.pir a.time t)
    time := t }

/-- The colours of RFC 2698. -/
inductive Colour where
  | green | yellow | red
  deriving DecidableEq, Repr

/-- The colour of a frame of metered length `lm`, and the record after the test. -/
def AprRec.meter (a : AprRec) (lm t : Nat) : Colour × AprRec :=
  let b := a.refill t
  if b.tp < lm then (.red, b)
  else if b.tc < lm then (.yellow, { b with tp := b.tp - lm })
  else (.green, { b with tc := b.tc - lm, tp := b.tp - lm })

/-! ### The deadline test (R303) -/

/-- The constant terms of R106, in beats. -/
def iIn : Nat := 40
def sSw : Nat := 48

/-- Fb of prism `k` under bank `b`, in ns: the beats at 2.1 GHz. -/
def State.fixedBeats (s : State) (k b : Nat) : Ratio :=
  Ratio.mk' ((iIn + s.get (R.PRISM_SCHED.DEPTH k b) + s.get (R.PRISM_ALLOW.S_CUT k) + s.get R.PACE_DEFICIT.LIMIT + sSw) * 10) 21

def State.vcOf (s : State) (r : Nat) : Ratio := SMap.find (fun _ => ⟨0, 1⟩) s.apr.vc r
def State.vcxOf (s : State) (c : Nat) : Ratio := SMap.find (fun _ => ⟨0, 1⟩) s.apr.vcx c

/-- The virtual clock of a reservation replaced, with its register. -/
def State.setVc (s : State) (r : Nat) (v : Ratio) : State :=
  { s with apr := { s.apr with vc := s.apr.vc.put (fun _ => ⟨0, 1⟩) r v } }.set (R.APR_RES_ST.VC r) (v.floor.toNat % 2 ^ 48)

/-- The budget Q of class `c` under reservation `r` at prism `k` and bank `b`, in ns. -/
def State.budget (s : State) (k b c r : Nat) : Ratio :=
  let h := if s.bit (R.APR_RES.FABRIC r) then s.get (R.APR_CLASS.HOPS c) else 0
  let q := (Ratio.nat (s.get (R.APR_BOUND.BOUND c))).sub
    ((s.fixedBeats k b).add (Ratio.nat (h * 1200 + s.get (R.APR_RES.E_OUT_MAX r))))
  if 0 < h then q.scale (256 - s.get (R.APR_RES.EGS r)) 256 else q

/-- The spill term of R303: none refuses. -/
def State.spillTerm (s : State) (c n : Nat) : Option Ratio :=
  let sp := s.get (R.BUF_CLASS.SPILL c)
  if sp = 0 ∨ s.wm 520 = false then some (Ratio.nat 0)
  else
    let slat := 10 * (if sp = 2 ∧ s.wm 521 = true then s.get R.APR_SPILL.SLAT_FAR else s.get R.APR_SPILL.SLAT_HBM)
    let refilled := s.get R.BUF_SPILL_RATE.REFILLED
    let waiting := s.get R.BUF_SPILL_RATE.WAITING
    let rate := if waiting ≤ refilled then s.get R.APR_SPILL.NOM else refilled
    if rate = 0 then none else some (Ratio.mk' (slat * rate + (waiting + n) * 10000) rate)

/-- The clock of a reservation after a frame of `lm` bytes at `rate` Mb/s (R303). -/
def State.advance (s : State) (v : Ratio) (lm rate : Nat) : Ratio :=
  ((Ratio.nat s.ns).max v).add (Ratio.mk' (lm * 8000) rate)

/-- The remaining marker limit of the oldest open IN migration, in ns (R255, R303). -/
def State.markerLeft (s : State) : Nat :=
  match s.mig.open_.find? fun m => m.kind == 2 with
  | none => 0
  | some m =>
    let limit := 1000 * s.get R.SWC_MIG_CTRL.MARKER_LIMIT
    match m.firstNs with
    | none => limit
    | some t => t + limit - s.ns

/-- The fence terms of R303, in ns. -/
def State.fenceTerm (s : State) (e r : Nat) : Ratio :=
  let own := s.mig.open_.any fun m => m.ep == e && m.kind == 0
  (if own then Ratio.mk' 9752 10 else Ratio.nat 0).add
    (Ratio.nat (if s.bit (R.APR_RES.FENCE_EXP r) then s.markerLeft else 0))

/-- The candidate clocks and the projection w of R303: none refuses before the comparison. -/
def State.projection (s : State) (e c r lm n : Nat) : Option (Ratio × Ratio × Ratio) :=
  let vc := s.advance (s.vcOf r) lm (s.get (R.APR_RES.RATE r))
  let w0 := (vc.sub (Ratio.nat s.ns)).add
    (Ratio.nat (s.get (R.APR_CLASS.BLOCK c) + 1000 * s.get (R.APR_CLASS.PAUSE_ALLOW c)))
  match s.spillTerm c n with
  | none => none
  | some sp =>
    let w1 := (w0.add sp).add (s.fenceTerm e r)
    if s.bit (R.APR_RES.CRYPTO r) then
      let x := s.get (R.APR_XRATE.XRATE c)
      if x = 0 then none
      else
        let vx := s.advance (s.vcxOf c) lm x
        some (vc, vx, w1.add (vx.sub (Ratio.nat s.ns)))
    else some (vc, s.vcxOf c, w1)

/-- The aperture of a prism refuses every packet (R97, R138, R517, R529, R542). -/
def State.refusesAll (s : State) (k : Nat) : Bool :=
  s.mode != .serve || s.fault.chipReset || s.apr.windowRefuse || s.apr.switching.contains k || s.fault.blocks.contains k

/-! ### The decision -/

/-- The outcome of R303: the class in force, and with it a refusal (`deadline` when the deadline test made it), a police
drop, or an acceptance with the shared cells of its charge and its release and iris deadlines. -/
inductive Decision where
  | refuse (deadline : Bool)
  | police
  | accept (need rel iris : Nat)
  deriving DecidableEq, Repr

/-- Deadline admission of a bounded class (R303); the second component is the state with the clocks advanced. -/
def State.deadlineAdmit (s : State) (k b e c lm n need : Nat) : Decision × State :=
  let r := (s.aprRec e).resBase + c
  if s.get (R.APR_RES.RATE r) = 0 then (.refuse true, s)
  else match s.projection e c r lm n with
    | none => (.refuse true, s)
    | some (vc, vx, w) =>
      let q := s.budget k b c r
      if q.lt w then (.refuse true, s)
      else
        let s1 := s.setVc r vc
        let s2 := if s.bit (R.APR_RES.CRYPTO r) then
          { s1 with apr := { s1.apr with vcx := s1.apr.vcx.put (fun _ => ⟨0, 1⟩) c vx } } else s1
        let iris := ((Ratio.nat s.ns).add ((s.fixedBeats k b).add q)).floor.toNat
        (.accept need (s.ns + s.get (R.APR_BOUND.BOUND c) - s.get (R.APR_RES.E_OUT_MAX r)) iris, s2)

/-- The deadlines of a class without a bound (R293): computed as for a bounded one. -/
def State.unboundedDeadlines (s : State) (k b e c : Nat) : Nat × Nat :=
  let r := (s.aprRec e).resBase + c
  (s.ns + s.get (R.APR_BOUND.BOUND c) - s.get (R.APR_RES.E_OUT_MAX r),
    ((Ratio.nat s.ns).add ((s.fixedBeats k b).add (s.budget k b c r))).floor.toNat)

/-- Buffer test and deadline test in class `c` (R303 after the meter). -/
def State.admission (s : State) (k b e c lm n : Nat) (p : Pkt) : Decision × State :=
  match s.bufferTest p.acct c n p.cells.length (s.sharedCells p) with
  | none => (.refuse false, s)
  | some need =>
    if s.bit (R.APR_CLASS.BOUNDED c) then
      (if s.bit R.PACE_STATUS.ADMIT_HOLD then (.refuse false, s) else s.deadlineAdmit k b e c lm n need)
    else
      let d := s.unboundedDeadlines k b e c
      (.accept need d.1 d.2, s)

/-- The whole decision: the class stamped, the buckets charged (committed, peak), the outcome. -/
def State.decide_ (s : State) (k b e c lm n : Nat) (p : Pkt) : (Nat × Bool × Bool) × Decision × State :=
  if s.refusesAll k then ((c, false, false), .refuse false, s)
  else
    let a := s.aprRec e
    if a.meterEn then
      let m := a.meter lm s.ns
      let s1 := s.setAprRec e m.2
      match m.1 with
      | .red => ((c, false, false), .police, s1)
      | .yellow =>
        if a.ydrop then ((c, false, true), .police, s1)
        else let y := s.get (R.APR_CLASS.YCLASS c); ((y, false, true), s1.admission k b e y lm n p)
      | .green => ((c, true, true), s1.admission k b e c lm n p)
    else ((c, false, false), s.admission k b e c lm n p)

/-! ### Acceptance -/

/-- The loupe test of an accepted packet at its aperture (R561). -/
def State.loupeSelect (s : State) (k : Nat) (p : Pkt) : State × Pkt :=
  let id := k * 2 ^ 28 + (s.word (R.APR_ADMIT.COUNT k).off).toNat % 2 ^ 28
  let p1 := { p with loupeId := id }
  if s.bit R.CNT_LOUPE_CTRL.EN && (s.get R.CNT_LOUPE_CTRL.PRISMS).testBit k &&
      (!s.bit R.CNT_LOUPE_CTRL.EP_EN || s.get R.CNT_LOUPE_CTRL.EP == p.ep) then
    let n := SMap.find (fun _ => 0) s.cnt.tested k + 1
    ({ s with cnt := { s.cnt with tested := s.cnt.tested.put (fun _ => 0) k n } },
      { p1 with selected := n % 2 ^ s.get R.CNT_LOUPE_CTRL.SHIFT == 0 })
  else (s, p1)

/-- The packet as accepted: stamped (R29), with its deadlines and keys (R306), charged under R271. -/
def State.acceptPkt (s : State) (k e c n need rel iris : Nat) (mc mp : Bool) (p : Pkt) : State × Pkt :=
  let ch := s.enterCharge p c n need
  let place := SMap.find (fun _ => {}) s.mig.places e
  let dl := clampDeadline s.ns rel
  let il := clampDeadline s.ns iris
  let p1 : Pkt := { ch.2 with
    stamp := ⟨s.get R.APR_VERSION.CURRENT, s.get R.MCODE_ACTIVE.BANK, place.epoch, c, s.ns⟩
    ep := e
    res := (s.aprRec e).resBase + c
    meteredC := mc
    meteredP := mp
    bounded := s.bit (R.APR_CLASS.BOUNDED c)
    relNs := rel
    irisNs := iris
    clamped := decide (s.ns + 33554428 < rel)
    key := keyOf dl
    irisKey := keyOf il
    expo := s.ns
    accepted := !p.cut }
  let l := ch.1.loupeSelect k p1
  ((if p.cut then l.1 else l.1.countAt (R.APR_ADMIT.COUNT k) 1 s.ns), l.2)

/-- A packet that waits for its prism, or as 16 + s for service facet Ss, last in admission order. -/
def State.toPrism (s : State) (k : Nat) (p : Pkt) : State :=
  let q := SMap.find (fun _ => []) s.buf.toPrism k
  { s with buf := { s.buf with toPrism := s.buf.toPrism.put (fun _ => []) k (q ++ [p]) } }

/-- A frame refused or policed: it frees its cells, releases its charge and is counted (R31, R553). -/
def State.refuseFrame (s : State) (k : Nat) (police : Bool) (p : Pkt) : State :=
  let q := { p with expo := s.ns }
  let s1 := s.dropPkt (if police then 1 else 2) q
  s1.countAt (if police then R.APR_POLICE.COUNT k else R.APR_REFUSE.COUNT k) 1 s.ns

/-- The aperture's decision on a frame of a source (R303): `lm` and `n` are its metered length and cells. With the state,
whether it was taken, and the frame's packet with the source endpoint and the buckets that the test charged (R299, R300). A host queue group
that EP_MIGRATE LOCAL has rebound to service facet Ss is judged by aperture s mod 16 (the spec names none; DESIGN CHOICE, log 203). -/
def State.aperture (s : State) (src : Nat) (tag : Option Nat) (lm n : Nat) (p : Pkt) : State × Bool × Pkt :=
  let k := s.entryOf src % 16
  let b := s.get R.MCODE_ACTIVE.BANK
  let ec := s.sourceClass src tag (decide (p.tagNibble ≥ 8)) p.bytes
  let d := s.decide_ k b ec.1 ec.2 lm n p
  let q : Pkt := { p with ep := ec.1, meteredC := d.1.2.1, meteredP := d.1.2.2, expo := s.ns }
  match d.2.1 with
  | .police => (d.2.2.refuseFrame k true p, false, q)
  | .refuse deadline =>
    let s1 := d.2.2.refuseFrame k false p
    let r := (s.aprRec ec.1).resBase + d.1.1
    ((if deadline then s1.sat (R.APR_RES_ST.REFUSED r) 1 else s1), false, q)
  | .accept need rel iris =>
    let a := d.2.2.acceptPkt k ec.1 d.1.1 n need rel iris d.1.2.1 d.1.2.2 p
    (a.1.toPrism (s.entryOf src) a.2, true, a.2)

/-- The oldest frame of a source that has reached its aperture (R152, R153): complete, or cut-through with its first
segment written. -/
def State.readyFrame (s : State) (src : Nat) : Option RxFrame :=
  match s.buf.rx.filter fun f => f.pkt.src == src && !f.taken && !f.gone with
  | [] => none
  | f :: _ =>
    if f.cut then (if f.pkt.cells.length ≥ 1 then some f else none)
    else if f.pkt.cells.length = cellsOf f.pkt.len then some f else none

/-- The decision on the next frame of a source. -/
def State.decideNext (s : State) (src : Nat) : State :=
  if !s.coreUp then s
  else match s.readyFrame src with
    | none => s
    | some f =>
      let others := s.buf.rx.filter fun g => g.pkt.id != f.pkt.id
      if f.cut then
        let maxf := s.maxFrame src
        let a := s.aperture src f.outerTag maxf (cellsOf maxf) { f.pkt with cut := true }
        let g := { f with taken := true, gone := !a.2.1, refused := !a.2.1, pkt := a.2.2 }
        { a.1 with buf := { a.1.buf with rx := s.buf.rx.map fun h => if h.pkt.id = f.pkt.id then g else h } }
      else
        let s1 := { s.countLater f with buf := { s.buf with rx := others } }
        (s1.aperture src f.outerTag f.len (cellsOf f.pkt.len) f.pkt).1

/-- APERTURE_DECISION (R303). -/
def execApertureDecision (src : Nat) (s : State) : Out State :=
  complete (Instr.wf (.apertureDecision src)) s (s.decideNext src)

/-! ### Corrections at a frame's end (R300) -/

/-- Returns `k` bytes to each bucket that the test charged, up to the bucket's size. -/
def State.returnTokens (s : State) (p : Pkt) (k : Nat) : State :=
  let a := s.aprRec p.ep
  s.setAprRec p.ep { a with
    tc := if p.meteredC then min a.cbs (a.tc + k) else a.tc
    tp := if p.meteredP then min a.pbs (a.tp + k) else a.tp }

/-- VC of the packet's reservation loses the time of `k` bytes, and never falls below the timebase. -/
def State.returnClock (s : State) (p : Pkt) (k : Nat) : State :=
  let rate := s.get (R.APR_RES.RATE p.res)
  if !p.bounded || rate == 0 then s
  else s.setVc p.res (((s.vcOf p.res).sub (Ratio.mk' (k * 8000) rate)).max (Ratio.nat s.ns))

/-! ### METER_SET (R301) -/

/-- The record an endpoint has after METER_SET; `old` has been refilled at its old rates up to now, as R298 asks (DEDUCED, log 226). -/
def meterRecord (old : AprRec) (c : OpenCmd) : AprRec :=
  let cbs := c.op 32 4
  let pbs := c.op 36 4
  let fill := (c.op 20 1).testBit 0
  { old with
    cir := c.op 24 4
    pir := c.op 28 4
    cbs := cbs
    pbs := pbs
    tc := if fill then cbs else min old.tc cbs
    tp := if fill then pbs else min old.tp pbs
    resBase := c.op 40 2 % 4096
    meterEn := (c.op 40 2).testBit 12
    ydrop := (c.op 40 2).testBit 13 }

/-- The operands of METER_SET that R301 refuses. -/
def meterBad (c : OpenCmd) : Bool :=
  !c.formed [(21, 3), (42, 22)] || decide (2 ^ 20 ≤ c.op 16 4) || decide (2 ≤ c.op 20 1) || decide (2 ^ 14 ≤ c.op 40 2) ||
    decide (c.op 28 4 < c.op 24 4) || decide (c.op 32 4 < 16383) || decide (c.op 36 4 < 16383) ||
    decide (4088 < c.op 40 2 % 4096)

/-- METER_SET (R301). -/
def execMeterSet (seq : Nat) (s : State) : Out State :=
  complete true s (s.runCmd seq 0x32 fun c t =>
    if meterBad c then t.refuse seq 1
    else
      let e := c.op 16 4
      (t.setAprRec e (meterRecord ((t.aprRec e).refill t.ns) c)).done seq [])

end Sys2Proof.Machine
end

