-- ==== Sys2Proof/Machine/Gcm.lean ====
section
/-! DEFINITION. AES and its Galois counter mode, which the spec names by their standards: AES-GCM-256 with a 12 B initialisation
vector and a 16 B tag (R247, R248, R402). PRESUMED: the algorithm is that of FIPS 197 and SP 800-38D (log 8). -/
namespace Sys2Proof.Machine

/-! ### AES -/

/-- A byte times x, and times another byte, in the field of AES. -/
def aesX (a : Nat) : Nat := if 128 ≤ a then (2 * a) ^^^ 0x11B else 2 * a
def aesMul (a b : Nat) : Nat :=
  ((List.range 8).foldl (fun (acc : Nat × Nat) i => (if b.testBit i then acc.1 ^^^ acc.2 else acc.1, aesX acc.2)) (0, a)).1

/-- The substitution of a byte: its inverse, which is its power 254, through the affine map. -/
def aesSub (a : Nat) : Nat :=
  let inv := (List.range 6).foldl (fun acc _ => aesMul (aesMul acc acc) a) a
  let b := aesMul inv inv
  (List.range 4).foldl (fun acc i => acc ^^^ ((b * 2 ^ (i + 1)) % 256 + b / 2 ^ (7 - i))) (b ^^^ 0x63)

def xorList (a b : List Nat) : List Nat := List.zipWith (fun x y => x ^^^ y) a b

/-- The words of the key schedule of a key of 8 words, 60 of them. -/
def aesWords (key : List Nat) : List (List Nat) :=
  let first := (List.range 8).map fun i => (key.drop (4 * i)).take 4
  ((List.range 52).foldl (fun (acc : List (List Nat) × Nat) j =>
    let i := j + 8
    let last := acc.1.getD (i - 1) []
    let turned := if i % 8 = 0 then
        match last.drop 1 ++ last.take 1 with
        | b :: bs => (aesSub b ^^^ acc.2) :: bs.map aesSub
        | [] => []
      else if i % 8 = 4 then last.map aesSub else last
    (acc.1 ++ [xorList (acc.1.getD (i - 8) []) turned], if i % 8 = 0 then aesX acc.2 else acc.2)) (first, 1)).1

/-- The round key of round `r`. -/
def aesRound (ws : List (List Nat)) (r : Nat) : List Nat := ((ws.drop (4 * r)).take 4).flatten

def aesShift (b : List Nat) : List Nat := (List.range 16).map fun i => b.getD ((i + 4 * (i % 4)) % 16) 0
def aesMix (b : List Nat) : List Nat :=
  (List.range 16).map fun i =>
    let c (k : Nat) : Nat := b.getD (4 * (i / 4) + (i + k) % 4) 0
    aesX (c 0) ^^^ aesX (c 1) ^^^ c 1 ^^^ c 2 ^^^ c 3

/-- One block under the key schedule of a 32 B key. -/
def aesBlock (ws : List (List Nat)) (b : List Nat) : List Nat :=
  let rounds := (List.range 13).foldl (fun x r => xorList (aesMix (aesShift (x.map aesSub))) (aesRound ws (r + 1))) (xorList b (aesRound ws 0))
  xorList (aesShift (rounds.map aesSub)) (aesRound ws 14)

/-! ### Galois counter mode -/

/-- The product of two blocks, as numbers whose most significant bit is the first. -/
def gcmMul (x y : Nat) : Nat :=
  ((List.range 128).foldl (fun (acc : Nat × Nat) i =>
    (if x.testBit (127 - i) then acc.1 ^^^ acc.2 else acc.1,
      if acc.2 % 2 = 1 then (acc.2 / 2) ^^^ (0xE1 * 2 ^ 120) else acc.2 / 2)) (0, y)).1

/-- The blocks of a byte string, the last padded with zeros. -/
def gcmBlocks (bs : List Byte) : List Nat := (List.range (ceilDiv bs.length 16)).map fun i => beVal (slice bs (16 * i) 16)

/-- A block of the counter: the initialisation vector and a number of 32 bits, encrypted. -/
def gcmCounter (ws : List (List Nat)) (iv : List Byte) (n : Nat) : List Byte :=
  (aesBlock ws ((slice iv 0 12 ++ beBytes 4 n).map (·.toNat))).map (BitVec.ofNat 8)

/-- A byte string encrypted or decrypted: the key stream starts with counter 2. -/
def gcmStream (ws : List (List Nat)) (iv bs : List Byte) : List Byte :=
  List.zipWith (fun a b => a ^^^ b) bs ((List.range (ceilDiv bs.length 16)).flatMap fun i => gcmCounter ws iv (i + 2))

/-- The 16 B tag of associated data and cipher text. -/
def gcmTag (ws : List (List Nat)) (iv aad cipher : List Byte) : List Byte :=
  let h := beVal ((aesBlock ws (List.replicate 16 0)).map (BitVec.ofNat 8))
  let sum := (gcmBlocks aad ++ gcmBlocks cipher ++ [8 * aad.length * 2 ^ 64 + 8 * cipher.length]).foldl (fun y x => gcmMul (y ^^^ x) h) 0
  beBytes 16 (sum ^^^ beVal (gcmCounter ws iv 1))

/-- Encryption: the cipher text followed by the tag (R247, R402). -/
def gcmSeal (key iv aad plain : List Byte) : List Byte :=
  let ws := aesWords ((slice key 0 32).map (·.toNat))
  let cipher := gcmStream ws iv plain
  cipher ++ gcmTag ws iv aad cipher

/-- Decryption: none when the tag does not verify (R248, R402). -/
def gcmOpen (key iv aad sealed_ : List Byte) : Option (List Byte) :=
  let ws := aesWords ((slice key 0 32).map (·.toNat))
  let n := sealed_.length - 16
  let cipher := sealed_.take n
  if sealed_.length < 16 ∨ gcmTag ws iv aad cipher ≠ sealed_.drop n then none else some (gcmStream ws iv cipher)

end Sys2Proof.Machine
end

