-- ==== Sys2Proof/Machine/Ports.lean ====
section
/-! DEFINITION. The Ethernet ports: links, reception, MACsec, flow control, preemption, transmission and timestamps
(R379 to R405). -/
namespace Sys2Proof.Machine

/-! ### MACsec associations (R402 to R405) -/

/-- The key of the association of a port, direction (0 transmit), channel and number. -/
def msaKey (port dir sc an : Nat) : Nat := ((port * 2 + dir) * 4 + sc) * 4 + an

def State.assoc (s : State) (k : Nat) : Option Assoc := SMap.find (fun _ => none) s.mac.assocs k
def State.setAssoc (s : State) (k : Nat) (a : Option Assoc) : State :=
  { s with mac := { s.mac with assocs := s.mac.assocs.put (fun _ => none) k a } }

/-- The largest packet number. -/
def pnMax (xpn : Bool) : Nat := if xpn then 2 ^ 64 - 1 else 2 ^ 32 - 1

/-- The 32 bytes of an association's key. -/
def Assoc.keyBytes (a : Assoc) : List Byte := beBytes 32 (a.key.foldr (fun w acc => w + 2 ^ 64 * acc) 0)

/-- The initialisation vector of a packet number (IEEE 802.1AE: SCI and PN; under XPN salt XOR SSCI and PN). -/
def Assoc.iv (a : Assoc) (xpn : Bool) (pn : Nat) : List Byte :=
  if xpn then beBytes 12 (a.salt ^^^ (a.ssci * 2 ^ 64 + pn)) else beBytes 12 (a.sci * 2 ^ 32 + pn % 2 ^ 32)

/-- The full packet number of the 32 bits received, about the lowest acceptable one (IEEE 802.1AE: the upper half goes up by one where bit
31 of the lowest acceptable number is 1 and that of the received one is 0). -/
def fullPn (xpn : Bool) (lowest pn : Nat) : Nat :=
  if !xpn then pn
  else
    let x := lowest / 2 ^ 32 * 2 ^ 32 + pn
    if lowest.testBit 31 && !pn.testBit 31 then x + 2 ^ 32 else x

/-- The transmit association that TX_AN names. -/
def State.txAssoc (s : State) (n : Nat) : Option Assoc := s.assoc (msaKey n 0 0 (s.get (R.SEC_MSEC_PORT.TX_AN n)))

/-- The port can protect one more frame: its association is installed and has a packet number left (R404). -/
def State.canProtect (s : State) (n : Nat) : Bool :=
  match s.txAssoc n with
  | some a => decide (a.pn ≤ pnMax (s.bit (R.SEC_MSEC_PORT.XPN n)))
  | none => false

/-- The SecTAG of a frame. -/
def secTag (sciInc conf : Bool) (an sl pn sci : Nat) : List Byte :=
  beBytes 2 0x88E5 ++ beBytes 1 (32 * b2n sciInc + 12 * b2n conf + an) ++ beBytes 1 sl ++ beBytes 4 (pn % 2 ^ 32) ++
    (if sciInc then beBytes 8 sci else [])

/-- A frame protected with the association, without its FCS. -/
def protectFrame (a : Assoc) (xpn conf sciInc : Bool) (an : Nat) (bytes : List Byte) : List Byte :=
  let addr := bytes.take 12
  let data := bytes.drop 12
  let tag := secTag sciInc conf an (if data.length < 48 then data.length else 0) a.pn a.sci
  if conf then addr ++ tag ++ gcmSeal a.keyBytes (a.iv xpn a.pn) (addr ++ tag) data
  else addr ++ tag ++ data ++ gcmSeal a.keyBytes (a.iv xpn a.pn) (addr ++ tag ++ data) []

/-- MACsec as a frame starts (R403, R404): what protects it, and the state with the packet number taken; `plain` frames pass. -/
def State.macsecStart (s : State) (n : Nat) (plain : Bool) : State × Option SecSend :=
  if !s.bit (R.SEC_MSEC_PORT.EN n) || plain then (s, none)
  else match s.txAssoc n with
    | none => (s, none)
    | some a =>
      let xpn := s.bit (R.SEC_MSEC_PORT.XPN n)
      let an := s.get (R.SEC_MSEC_PORT.TX_AN n)
      let s1 := s.setAssoc (msaKey n 0 0 an) (some { a with pn := a.pn + 1 })
      let warn := s.get R.SEC_MSEC_CFG.WARN * 65536
      let s2 := if pnMax xpn + 1 - (a.pn + 1) < warn ∧ warn ≤ pnMax xpn + 1 - a.pn then s1.raise 28 n else s1
      (s2, some ⟨an, a, xpn, s.bit (R.SEC_MSEC_PORT.CONF n), s.bit (R.SEC_MSEC_PORT.SCI_INC n)⟩)

/-- The bytes of a frame as they leave, protected by what MACsec took at its start. -/
def secured (x : Option SecSend) (bytes : List Byte) : List Byte :=
  match x with
  | some y => protectFrame y.assoc y.xpn y.conf y.sciInc y.an bytes
  | none => bytes

/-- What MACsec makes of a received frame: the frame without protection, or the counter of its discard. -/
inductive Secured where
  | pass (bytes : List Byte)
  | discard (counter : Nat)
  deriving DecidableEq, Repr

/-- The receive association of a protected frame: by its SCI where the SecTAG carries one. -/
def State.rxAssoc (s : State) (n an : Nat) (sci : Option Nat) : Option (Nat × Assoc) :=
  (List.range 4).findSome? fun sc =>
    match s.assoc (msaKey n 1 sc an) with
    | some a => if sci.all fun x => x == a.sci then some (msaKey n 1 sc an, a) else none
    | none => none

/-- MACsec on receive (R403); the second component is the association to store once the frame has passed. A SecTAG with SL gives the length
of the protected data, and what follows the ICV pads the frame (IEEE 802.1AE). -/
def State.macsecReceive (s : State) (n : Nat) (bytes : List Byte) : Secured × Option (Nat × Assoc) :=
  if !s.bit (R.SEC_MSEC_PORT.EN n) || plainFrame bytes then (.pass bytes, none)
  else if beAt bytes 12 2 != 0x88E5 then (.discard 10, none)
  else
    let tci := beAt bytes 14 1
    let sc := tci.testBit 5
    let hdr := if sc then 28 else 20
    match s.rxAssoc n (tci % 4) (if sc then some (beAt bytes 20 8) else none) with
    | none => (.discard 3, none)
    | some (k, a) =>
      let xpn := s.bit (R.SEC_MSEC_PORT.XPN n)
      let pn := fullPn xpn a.pn (beAt bytes 16 4)
      let aad := bytes.take hdr
      let sl := beAt bytes 15 1 % 64
      let body := if sl = 0 then bytes.drop hdr else (bytes.drop hdr).take (sl + 16)
      if pn < a.pn - a.window then (.discard 3, none)
      else
        let conf := tci.testBit 3
        let data := body.take (body.length - 16)
        let opened := if conf then gcmOpen a.keyBytes (a.iv xpn pn) aad body
          else (gcmOpen a.keyBytes (a.iv xpn pn) (aad ++ data) (body.drop (body.length - 16))).map fun _ => data
        match opened with
        | none => (.discard 3, none)
        | some plain => (.pass (bytes.take 12 ++ plain), some (k, { a with pn := max a.pn (pn + 1) }))

/-! ### Link state (R382) -/

/-- A port that can have a link: it has a speed and is no upper MAC of a pair. -/
def State.portOn (s : State) (n : Nat) : Bool := s.portMbps n != 0 && !s.upperMac n

/-- The MACs run: in SERVE, and in HOLD-UP entered from it until isolation (R382, R517). -/
def State.macsRun (s : State) : Bool :=
  s.mode == .serve || (s.mode == .holdUp && s.power.holdFrom == .serve && !s.power.isolated)

/-- The link goes down (R382): MAC_LINK is raised and frames still arriving are aborted (R166). -/
def State.linkFalls (s : State) (n : Nat) : State :=
  if !s.linkUp n then s
  else
    let s0 := (s.setBit (R.MAC_STATUS.LINK n) false).sat (R.MAC_STATUS.DOWNS n) 1
    let s1 := { s0 with mac := { s0.mac with
      fellNs := s0.mac.fellNs.put (fun _ => 0) n (s.ns + 1)
      control := s0.mac.control.put (fun _ => []) n [] } }
    let s2 := { s1 with buf := { s1.buf with rx := s1.buf.rx.map fun (f : RxFrame) =>
      if f.pkt.src = n ∧ f.cut = true ∧ f.bad = none then { f with bad := some 2 } else f } }
    s2.raise (128 + n) n

/-- MAC_LINK (R382): the PCS loses lock and alignment, or fault ordered sets arrive. -/
def execMacLink (n : Nat) (aligned localFault remoteFault : Bool) (s : State) : Out State :=
  complete (Instr.wf (.macLink n aligned localFault remoteFault)) s
    (if s.coreUp && s.portOn n && (!aligned || localFault || remoteFault) then
      (((s.setBit (R.MAC_STATUS.ALIGNED n) aligned).setBit (R.MAC_STATUS.LOCAL_FAULT n) localFault).setBit
        (R.MAC_STATUS.REMOTE_FAULT n) remoteFault).linkFalls n
    else s)

/-! ### Flow control (R388 to R390) -/

/-- The end of a hold of `q` quanta, in units of 2^-40 ns plus one; 0 releases. -/
def State.holdEnd (s : State) (n q : Nat) : Nat := if q = 0 then 0 else s.tb + s.wireTb n (64 * q) + 1

def State.setHold (s : State) (n p v : Nat) : State :=
  { s with mac := { s.mac with holds := s.mac.holds.put (fun _ => 0) (16 * n + p) v } }

/-- A received 802.3x pause under MODE 1. -/
def State.pauseReceived (s : State) (n q : Nat) : State :=
  (s.setHold n 8 (s.holdEnd n q)).count (R.MAC_CNT.COUNT n 7) 1

/-- A received priority pause under MODE 2. -/
def State.prioReceived (s : State) (n enable : Nat) (quanta : List Nat) : State :=
  ((List.range 8).foldl (fun t p => if enable.testBit p then t.setHold n p (t.holdEnd n (quanta.getD p 0)) else t) s).count
    (R.MAC_CNT.COUNT n 7) 1

/-- A frame received in SERVE on a port whose link is up. -/
def State.receives (s : State) (n : Nat) : Bool := s.mode == .serve && s.portOn n && s.linkUp n

/-- A good frame counted (RX_GOOD, RX_GOOD_BYTES), with its exposure time; one not decided yet counts as of now (R556). -/
def State.countGoodAt (s : State) (n len t : Nat) : State :=
  (s.countAt (R.MAC_CNT.COUNT n 0) 1 t).countAt (R.MAC_CNT.COUNT n 1) len t
def State.countGood (s : State) (n len : Nat) : State := s.countGoodAt n len s.ns

/-- A MAC control frame with a good FCS (R388). -/
def State.controlFrame (s : State) (n : Nat) (bytes : List Byte) : State :=
  let op := beAt bytes 14 2
  let mode := s.get (R.MAC_FC.MODE n)
  if op = 1 ∧ mode = 1 then s.pauseReceived n (beAt bytes 16 2)
  else if op = 0x0101 ∧ mode = 2 then
    s.prioReceived n (beAt bytes 17 1) ((List.range 8).map fun p => beAt bytes (18 + 2 * p) 2)
  else s.count (R.MAC_CNT.COUNT n 8) 1

/-- PAUSE_FRAME (R389): a good 64 B pause frame arrives. -/
def execPauseFrame (n quanta : Nat) (s : State) : Out State :=
  complete (Instr.wf (.pauseFrame n quanta)) s
    (if !s.receives n then s
    else
      let t := s.countGood n 64
      if s.get (R.MAC_FC.MODE n) = 1 then t.pauseReceived n quanta else t.count (R.MAC_CNT.COUNT n 8) 1)

/-- PRIORITY_PAUSE_FRAME (R389): a good 64 B priority pause frame arrives. -/
def execPriorityPauseFrame (n enable : Nat) (quanta : List Nat) (s : State) : Out State :=
  complete (Instr.wf (.priorityPauseFrame n enable quanta)) s
    (if !s.receives n then s
    else
      let t := s.countGood n 64
      if s.get (R.MAC_FC.MODE n) = 2 then t.prioReceived n enable quanta else t.count (R.MAC_CNT.COUNT n 8) 1)

/-- PAUSE_EXPIRY (R389): a hold timer that has run out releases what it held. -/
def execPauseExpiry (n prio : Nat) (s : State) : Out State :=
  complete (Instr.wf (.pauseExpiry n prio)) s
    (let e := SMap.find (fun _ => 0) s.mac.holds (16 * n + prio)
    if 0 < e ∧ e ≤ s.tb + 1 then s.setHold n prio 0 else s)

/-- REFRESH quanta have passed since the last pause frame of a port, or none has been sent. -/
def State.refreshDue (s : State) (n : Nat) : Bool :=
  match SMap.find (fun _ => 0) s.mac.pauseSent n with
  | 0 => true
  | t + 1 => decide (t * 2 ^ 40 + s.wireTb n (64 * s.get (R.MAC_FC.REFRESH n)) ≤ s.tb)

/-- PAUSE_REFRESH (R390): REFRESH quanta after the last pause frame, while the watermark is asserted; none waits to be sent. -/
def execPauseRefresh (n : Nat) (s : State) : Out State :=
  complete (Instr.wf (.pauseRefresh n)) s
    (if s.macsRun && s.wm n && s.refreshDue n && (SMap.find (fun _ => []) s.mac.control n).isEmpty then
      s.sendPause n (s.get (R.MAC_FC.QUANTA n)) else s)

/-- XOFF_IN_CHANGE (R69): a level stable for 20 ns is taken. -/
def execXoffInChange (i : Nat) (level : Bool) (s : State) : Out State :=
  complete (Instr.wf (.xoffInChange i level)) s { s with pace := { s.pace with xoffIn := s.pace.xoffIn.set i level } }

/-! ### Preemption (R392 to R394) -/

/-- The port verifies: initial or verifying. -/
def State.verifying (s : State) (n : Nat) : Bool :=
  s.bit (R.MAC_PREEMPT.EN n) && !s.bit (R.MAC_PREEMPT.VERIFY_DIS n) &&
    (s.get (R.MAC_PREEMPT.VSTATUS n) == 1 || s.get (R.MAC_PREEMPT.VSTATUS n) == 2)

/-- The first verify frame, or VERIFY_TIME ms since the last. -/
def State.verifyDue (s : State) (n : Nat) : Bool :=
  match SMap.find (fun _ => 0) s.mac.verifySent n with
  | 0 => true
  | t + 1 => decide (t + 1000000 * s.get (R.MAC_PREEMPT.VERIFY_TIME n) ≤ s.ns)

/-- The next verify frame is sent; after three unanswered ones verification has failed (R392). -/
def State.verifyTimer (s : State) (n : Nat) : State :=
  let sent := SMap.find (fun _ => 0) s.mac.verifies n
  if 3 ≤ sent then (s.set (R.MAC_PREEMPT.VSTATUS n) 4).raise 27 n
  else
    let s1 := (s.set (R.MAC_PREEMPT.VSTATUS n) 2).emit (.verify n false)
    { s1 with mac := { s1.mac with
      verifies := s1.mac.verifies.put (fun _ => 0) n (sent + 1)
      verifySent := s1.mac.verifySent.put (fun _ => 0) n (s.ns + 1) } }

/-- A response to a verify frame that has been sent ends verification. -/
def State.answerIn (s : State) (n : Nat) : State :=
  if 0 < SMap.find (fun _ => 0) s.mac.verifies n then s.set (R.MAC_PREEMPT.VSTATUS n) 3 else s

/-- VERIFY_TIMER (R392): the next verify frame is due, or the peer has answered the last one. -/
def execVerifyTimer (n : Nat) (answered : Bool) (s : State) : Out State :=
  complete (Instr.wf (.verifyTimer n answered)) s
    (if !(s.macsRun && s.portOn n && s.linkUp n && s.verifying n) then s
    else if answered then s.answerIn n
    else if s.verifyDue n then s.verifyTimer n else s)

/-- A verify frame of the peer gets its response while preemption is enabled (R392, PRESUMED from IEEE 802.3br, log 176). -/
def State.verifyIn (s : State) (n : Nat) : State :=
  if s.bit (R.MAC_PREEMPT.EN n) && s.get (R.MAC_CFG.SPEED n) != 7 then s.emit (.verify n true) else s

/-! ### Timestamps (R397 to R399) -/

/-- Where an IEEE 1588 message starts in a frame, with the place of its UDP checksum and whether it is IPv4: at EtherType
0x88F7, or UDP port 319 over IPv4 or IPv6, behind at most `n` tags, of which one may have the port's own TPID `tpid`. -/
def ptpAt (tpid : Nat) (bytes : List Byte) : Nat → Nat → Option (Nat × Option (Nat × Bool))
  | n, off =>
    let et := beAt bytes off 2
    let l3 := off + 2
    if et = 0x88F7 then some (l3, none)
    else if et = 0x0800 then
      let l4 := l3 + 4 * (beAt bytes l3 1 % 16)
      if beAt bytes (l3 + 9) 1 = 17 ∧ beAt bytes (l4 + 2) 2 = 319 then some (l4 + 8, some (l4 + 6, true)) else none
    else if et = 0x86DD then
      let l4 := l3 + 40
      if beAt bytes (l3 + 6) 1 = 17 ∧ beAt bytes (l4 + 2) 2 = 319 then some (l4 + 8, some (l4 + 6, false)) else none
    else match n with
      | 0 => none
      | m + 1 => if et = 0x8100 ∨ et = 0x88A8 ∨ et = tpid then ptpAt tpid bytes m (off + 4) else none

/-- The bytes with `v` written at `off` in network order over `k` bytes. -/
def putBe (bytes : List Byte) (off k v : Nat) : List Byte := bytes.take off ++ beBytes k v ++ bytes.drop (off + k)

/-- The ones' complement sum of two 16-bit words. -/
def checkAdd (a b : Nat) : Nat := let x := a + b; if x < 65536 then x else x - 65535

/-- RFC 1624: the checksum after the `k` 16-bit words of `old` have become those of `new`. -/
def checkUpdate (hc : Nat) : Nat → Nat → Nat → Nat
  | 0, _, _ => hc
  | k + 1, old, new =>
    checkUpdate (65535 - checkAdd (checkAdd (65535 - hc) (65535 - old % 65536)) (new % 65536)) k (old / 65536) (new / 65536)

/-- The transmit time in units of 2^-16 ns, TX_DELAY added: that of the first bit behind the 8 B of preamble (R397). -/
def State.txStamp (s : State) (n sentTb : Nat) : Nat :=
  (((sentTb + s.wireTb n 8) / 2 ^ 24 : Nat) + signed 16 (s.get (R.MAC_PTP.TX_DELAY n)) * 65536 / 1000).toNat

/-- 1588 processing on transmit (R398, R399). -/
def State.ptpSend (s : State) (n sentTb : Nat) (bytes : List Byte) : State × List Byte :=
  match ptpAt (s.get (R.MAC_TAG.TPID_X n)) bytes 2 12 with
  | none => (s, bytes)
  | some (m, udp) =>
    let ty := beAt bytes m 1 % 16
    if 3 < ty then (s, bytes)
    else
      let t := s.txStamp n sentTb
      let s1 := if (s.get (R.MAC_PTP.TWO_STEP n)).testBit ty then
          let q := fifoPush 64 (SMap.find (fun _ => []) s.mac.ptp n)
            (t % 2 ^ 64, 2 ^ 63 + ty * 2 ^ 59 + beAt bytes (m + 4) 1 * 2 ^ 51 + beAt bytes (m + 30) 2 * 2 ^ 35)
          let s0 := { s with mac := { s.mac with ptp := s.mac.ptp.put (fun _ => []) n q.1 } }
          if q.2 = 0 then s0 else s0.count (R.MAC_PTP_LOST.COUNT n) q.2
        else s
      if (s.get (R.MAC_PTP.ONE_STEP n)).testBit ty then
        let old := beAt bytes (m + 8) 8
        let new := (old + t) % 2 ^ 64
        let b1 := putBe bytes (m + 8) 8 new
        let b2 := match udp with
          | none => b1
          | some (ck, true) => putBe b1 ck 2 0
          | some (ck, false) => if beAt b1 ck 2 = 0 then b1 else putBe b1 ck 2 (checkUpdate (beAt b1 ck 2) 4 old new)
        (s1, b2)
      else (s1, bytes)

/-! ### Transmission -/

/-- The tag that a port inserts (R387). -/
def State.insertTag (s : State) (n c : Nat) (bytes : List Byte) : List Byte :=
  if !s.inserts n bytes then bytes
  else
    let pcp := if s.bit (R.MAC_TAG.PCP_CLASS n) then c else s.get (R.MAC_TAG.PCP n)
    bytes.take 12 ++ beBytes 2 (s.insertTpid n) ++
      beBytes 2 (pcp * 8192 + s.get (R.MAC_TAG.DEI n) * 4096 + s.get (R.MAC_TAG.VID n)) ++ bytes.drop 12

/-- A packet's frame as it starts on a port now: when its first bit leaves, the MAC that sends it, and its protection (R396, R397, R403). -/
def State.macStart (s : State) (n c : Nat) (p : Pkt) : State × Pkt :=
  let pre := s.preemptable n c
  let s1 := s.startSending n pre (s.leavingLen n p) p.expo
  let g := s1.macsecStart n (plainFrame p.bytes)
  (g.1, { p with sentTb := s1.begunTb n, express := !pre, sec := g.2 })

/-- The MAC sends the bytes of a packet's frame that has started: tag, 1588, MACsec, FCS (inverted when the frame is stomped, R289),
counters. -/
def State.macFrame (s : State) (n : Nat) (stomp : Bool) (p : Pkt) : State :=
  let f := s.ptpSend n p.sentTb (s.insertTag n p.stamp.cls p.bytes)
  let g := secured p.sec f.2
  let fcs := frameCheck g
  let s2 := f.1.emit (.frame n (g ++ leBytes 4 (if stomp then 2 ^ 32 - 1 - fcs else fcs)) p.express)
  (s2.countAt (R.MAC_CNT.COUNT n 11) 1 p.expo).countAt (R.MAC_CNT.COUNT n 12) (g.length + 4) p.expo

/-- The MAC sends a packet's frame, starting now. -/
def State.macSend (s : State) (n c : Nat) (p : Pkt) : State :=
  let x := s.macStart n c p
  x.1.macFrame n false x.2

/-- A frame that MACsec cannot protect takes the transmit link down (R404): for want of a packet number with
MACSEC_EXH. -/
def State.exhaust (s : State) (n : Nat) : State :=
  let s1 := if (s.txAssoc n).isSome then s.raise 29 n else s
  { s1 with mac := { s1.mac with exhausted := s1.mac.exhausted.put (fun _ => false) n true } }.linkFalls n

/-! ### Reception (R28, R383, R385, R386, R397) -/

/-- The TPID code of an outer tag that STRIP removes. -/
def State.stripCode (s : State) (n : Nat) (bytes : List Byte) : Option Nat :=
  let t := beAt bytes 12 2
  match s.get (R.MAC_TAG.STRIP n) with
  | 1 => if t = 0x8100 then some 0 else none
  | 2 => if t = 0x8100 then some 0 else if t = 0x88A8 then some 1
    else if t = s.get (R.MAC_TAG.TPID_X n) then some 2 else none
  | _ => none

/-- The MAC's test of a frame of `len` bytes on the wire: the counter of its drop (R383). -/
def State.frameTest (s : State) (n len : Nat) (fcs : Bool) : Option Nat :=
  if len < 64 then some 4 else if s.get (R.MAC_CFG.MAXF n) < len then some 5 else if !fcs then some 2 else none

/-- The frame is taken for cut-through parsing (R153). -/
def State.takesCut (s : State) (n : Nat) (preemptable : Bool) : Bool :=
  s.bit (R.PRISM_PROFILE.CUT (n / 6) (s.profileOf (n / 6) n)) && !(preemptable && s.preempting n)

/-- A frame that a source gives to packet memory: its identity, account and buffers. -/
def State.newRx (s : State) (p : Pkt) (len : Nat) (bad : Option Nat) (cut : Bool) (tag : Option Nat)
    (wb : Option (Nat × Nat)) (wire : Nat) : State :=
  let counted := if p.src < 96 ∧ cut = false then some s.ns else none
  let f : RxFrame := ⟨{ p with id := s.buf.nextId, cut := false }, len, bad, cut, false, false, tag, wb, 1, false, wire, counted⟩
  { s with buf := { s.buf with rx := s.buf.rx ++ [f], nextId := s.buf.nextId + 1 } }

/-- The frame as it goes to packet memory: a tag stripped, the receive timestamp. -/
def State.toMemory (s : State) (n : Nat) (bytes : List Byte) (firstNs : Nat) : Pkt × Option Nat :=
  let code := s.stripCode n bytes
  let b := match code with | some _ => bytes.take 12 ++ bytes.drop 16 | none => bytes
  let tci := beAt bytes 14 2
  let rx := ((firstNs * 1000 : Nat) - signed 16 (s.get (R.MAC_PTP.RX_DELAY n))) / 1000
  ({ id := 0, src := n, bytes := b, fcs := frameCheck b, acct := n, rxTime := rx.toNat % 2 ^ 48,
     tagNibble := (match code with | some k => 8 + k | none => 0),
     tci := (match code with | some _ => tci | none => 0), startNs := s.ns },
   match code with | some _ => some tci | none => outerTagOf b)

/-- A port frame arrives (R383): its length, FCS and MACsec are tested, a tag stripped, the timestamp taken. A frame
taken for cut-through parsing is tested at its end; one that will fail there shows the prism its bytes as received, SecTAG and protected data
included (the spec does not say what the prism sees; DESIGN CHOICE, log 209). `kind` is 0 for a frame, 1 for a fragment sequence in error (R395) and 2 for a verify
frame (R392). -/
def State.frameIn (s : State) (n : Nat) (bytes : List Byte) (firstNs : Nat) (fcs : Bool) (kind : Nat) (preemptable : Bool) : State :=
  let len := bytes.length + 4
  let cut := s.takesCut n preemptable
  if kind = 1 then s.count (R.MAC_CNT.COUNT n 9) 1
  else if kind = 2 then s.verifyIn n
  else match s.frameTest n len fcs with
    | some k =>
      if cut && !macControl bytes then
        let m := s.toMemory n bytes firstNs
        s.newRx m.1 (m.1.bytes.length + 4) (some k) true m.2 none len
      else s.count (R.MAC_CNT.COUNT n k) 1
    | none =>
      if macControl bytes then (s.countGood n len).controlFrame n bytes
      else match s.macsecReceive n bytes with
        | (.discard k, _) =>
          if cut && k == 3 then
            let m := s.toMemory n bytes firstNs
            s.newRx m.1 (m.1.bytes.length + 4) (some k) true m.2 none len
          else s.count (R.MAC_CNT.COUNT n k) 1
        | (.pass plain, a) =>
          let s1 := match a with | some (k, x) => s.setAssoc k (some x) | none => s
          let m := s1.toMemory n plain firstNs
          let s2 := if cut then s1 else s1.countGood n len
          s2.newRx m.1 (m.1.bytes.length + 4) none cut m.2 none len

/-- FRAME_RECEIVE (R383). -/
def execFrameReceive (n : Nat) (bytes : List Byte) (firstNs : Nat) (fcs : Bool) (kind : Nat) (preemptable : Bool) (s : State) : Out State :=
  complete (Instr.wf (.frameReceive n bytes firstNs fcs kind preemptable)) s
    (if s.receives n then s.frameIn n bytes firstNs fcs kind preemptable else s)

end Sys2Proof.Machine
end

