-- ==== Sys2Proof/Machine/HostQueues.lean ====
section
/-! DEFINITION. Host queues: functions, tags, descriptor fetch, transmit and receive descriptors, interrupt moderation,
resets of functions and endpoints (R433 to R449, R586). -/
namespace Sys2Proof.Machine

/-! ### Tags (R437) -/

/-- A request reads descriptors. -/
def HostReq.descriptor : HostReq → Bool
  | .descriptors .. | .reread .. | .dmaDescriptors .. | .dmaReread .. => true
  | _ => false

/-- A request of the bulk mover's data. -/
def HostReq.mover : HostReq → Bool
  | .dmaData _ | .dmaFlush _ => true
  | _ => false

/-- The tags held by requests of a kind: one each. -/
def State.tagsOf (s : State) (p : HostReq → Bool) : Nat := (s.host.reads.filter fun r => p r.req).length

/-- A request finds a tag: 2,048 serve only descriptor reads, and the bulk mover holds at most DMA_MAX. -/
def State.tagFree (s : State) (req : HostReq) : Bool :=
  if req.descriptor then decide (s.tagsOf HostReq.descriptor < 2048)
  else decide (s.tagsOf (fun r => !r.descriptor) < 16384 - 2048) &&
    (!req.mover || decide (s.tagsOf HostReq.mover < s.get R.HOST_TAGS.DMA_MAX))

/-- HOST_TAGS.IN_USE and its peak follow the tags held. -/
def State.syncTags (s : State) : State :=
  let n := s.tagsOf fun _ => true
  (s.set R.HOST_TAGS.IN_USE n).peak R.HOST_TAGS.PEAK n

/-- The next request of a read that waits is sent under a tag of its own, for at most Max Read Request Size bytes. -/
def State.sendPiece (s : State) (w : HostWait) : State :=
  let n := min w.len w.unit
  let s1 := s.toHost w.link (.hostRead w.link (w.addr + w.off) n w.noSnoop w.relaxed)
  let rest := s.host.waits.erase w
  { s1 with host := { s1.host with
    reads := s1.host.reads ++ [(⟨w.req, w.link, s.ns, w.off, n⟩ : HostRead)]
    waits := if w.len ≤ w.unit then rest else { w with off := w.off + n, len := w.len - n } :: rest } }.syncTags

/-- The requests that wait are sent as far as tags are free, the oldest read first; none is dropped (R437). `fuel` bounds them. -/
def State.serveTags (s : State) : Nat → State
  | 0 => s
  | fuel + 1 =>
    match s.host.waits.find? fun w => s.tagFree w.req with
    | none => s
    | some w => (s.sendPiece w).serveTags fuel
def State.serve (s : State) : State := s.serveTags 16384

/-- A function reads host memory: in requests of at most its Max Read Request Size, each of which waits for a tag (R435, R437). -/
def State.sendRead (s : State) (req : HostReq) (func link addr len : Nat) (ns ro : Bool) : State :=
  { s with host := { s.host with waits := s.host.waits ++ [(⟨req, link, addr, 0, len, s.maxRead func, ns, ro⟩ : HostWait)] } }.serve

/-- A read is under way: requests of it are outstanding, or wait. -/
def State.reading (s : State) (p : HostReq → Bool) : Bool := (s.host.reads.any fun r => p r.req) || s.host.waits.any fun w => p w.req

/-- What has come of a read so far. -/
def State.partsOf (s : State) (req : HostReq) : List Byte := ((s.host.parts.find? fun x => x.1 == req).map (·.2)).getD []

/-- A read is given up: what is left of it is not asked for, and what has come of it is dropped. -/
def State.dropRead (s : State) (p : HostReq → Bool) : State :=
  { s with host := { s.host with
    waits := s.host.waits.filter fun w => !p w.req
    parts := s.host.parts.filter fun x => !p x.1 } }

/-! ### Queues (R440 to R444) -/

/-- The ring address of slot `n`. -/
def State.slotAddr (s : State) (q n : Nat) : Nat := s.get (R.HOST_QBASE.BASE q) * 4096 + 16 * (n % 2 ^ s.get (R.HOST_Q.SIZE q))

/-- The number of the next descriptor to read. -/
def State.nextNumber (s : State) (q : Nat) : Nat := (s.get (R.HOST_QSTAT.C q) + (s.ready q).length) % 65536

def State.retryOf (s : State) (q : Nat) : Nat × Nat := SMap.find (fun _ => (0, 0)) s.host.retries q
def State.setRetry (s : State) (q : Nat) (r : Nat × Nat) : State :=
  { s with host := { s.host with retries := s.host.retries.put (fun _ => (0, 0)) q r } }

/-- A read of a queue's descriptors, and one of its frames. -/
def HostReq.ofRing (q : Nat) : HostReq → Bool
  | .descriptors q2 _ _ | .reread q2 _ => q2 == q
  | _ => false
def HostReq.ofFrame (q : Nat) : HostReq → Bool
  | .txData q2 _ => q2 == q
  | _ => false
def HostReq.ofQueue (q : Nat) (r : HostReq) : Bool := r.ofRing q || r.ofFrame q

/-- The link of a queue: that of its endpoint, and on a bifurcated one that of its function's lanes (R433). -/
def State.queueLink (s : State) (q : Nat) : Nat :=
  let ep := s.get (R.HOST_Q.EP q)
  ep + (if s.power.hxBif.getD ep false && decide (2 ≤ s.pfOf (s.get (R.HOST_Q.FUNC q)) % 4) then 2 else 0)

/-- A read over a queue's link, and a write over it within its function's Max Payload Size. -/
def State.queueRead (s : State) (q : Nat) (req : HostReq) (addr len : Nat) (ns ro : Bool) : State :=
  s.sendRead req (s.get (R.HOST_Q.FUNC q)) (s.queueLink q) addr len ns ro
def State.queueWrite (s : State) (q addr : Nat) (bytes : List Byte) (ns ro : Bool) : State :=
  let link := s.queueLink q
  s.emitAll (s.hostOut link (hostWrites link (s.maxPayload (s.get (R.HOST_Q.FUNC q))) addr bytes ns ro fun _ => false))

/-- The first request outstanding for a queue's descriptors, and for the frame of a transmit queue. -/
def State.fetching (s : State) (q : Nat) : Option HostRead := s.host.reads.find? fun r => r.req.ofRing q
def State.dataRead (s : State) (q : Nat) : Option HostRead := s.host.reads.find? fun r => r.req.ofFrame q

/-- A frame of a transmit queue waits for cells. -/
def State.frameWaits (s : State) (q : Nat) : Bool := s.buf.rx.any fun f => f.writeBack.any fun w => w.1 == q

/-- A queue runs: enabled, not stopped, and its function under no reset. -/
def State.queueRuns (s : State) (q : Nat) : Bool :=
  s.bit (R.HOST_Q.ENABLE q) && !s.bit (R.HOST_QSTAT.STOPPED q) && !s.host.flr.contains q

/-- BUSY: work of the queue is in flight. -/
def State.syncBusy (s : State) (q : Nat) : State :=
  s.setBit (R.HOST_QSTAT.BUSY q) (s.reading (HostReq.ofQueue q) || s.frameWaits q)

/-- Reads the next descriptors, up to 64 and up to the ring's end (R444). -/
def State.fetchQueue (s : State) (q : Nat) : State :=
  let n := s.nextNumber q
  let t := s.get (R.HOST_QSTAT.T q)
  let size := 2 ^ s.get (R.HOST_Q.SIZE q)
  let count := min (min 64 ((t + 65536 - n) % 65536)) (size - n % size)
  if !s.queueRuns q || count == 0 || s.reading (HostReq.ofRing q) || s.retryOf q != (0, 0) then s.syncBusy q
  else (s.queueRead q (.descriptors q n count) (s.slotAddr q n) (16 * count) false false).syncBusy q

/-- A queue stops with an error code: 1 SEQ, 2 FETCH, 3 FLR. -/
def State.stopQueue (s : State) (q code : Nat) : State :=
  (((s.setBit (R.HOST_QSTAT.STOPPED q) true).set (R.HOST_QSTAT.ERROR q) code).setRetry q (0, 0)).syncBusy q

/-- The last step of a queue's Function Level Reset: its descriptors and its target are given up, and STOPPED is set (R435). -/
def State.endReset (s : State) (q : Nat) : State :=
  let s1 := ({ s with host := { s.host with flr := s.host.flr.filter fun x => x != q } }).setReady q []
  (s1.set (R.HOST_QSTAT.T q) (s1.get (R.HOST_QSTAT.C q))).stopQueue q 3

/-- Requests end: their tags are free, a queue under Function Level Reset whose last read has ended stops, and requests that wait for a
tag are sent. -/
def State.endReads (s : State) (p : HostRead → Bool) : State :=
  let s1 := { s with host := { s.host with reads := s.host.reads.filter fun r => !p r } }.syncTags
  ((s1.host.flr.filter fun q => !s1.reading (HostReq.ofQueue q)).foldl (fun (t : State) q => t.endReset q) s1).serve

/-- The data of the requests outstanding of a read has come, in order: what the whole read returned once nothing of it is left, and the
state. -/
def State.arrive (s : State) (req : HostReq) (data : List Byte) : Option (List Byte) × State :=
  let got := s.partsOf req ++ data
  let s1 := (s.endReads fun r => r.req == req)
  if s1.reading (· == req) then
    (none, { s1 with host := { s1.host with parts := (req, got) :: s1.host.parts.filter fun x => x.1 != req } })
  else (some got, s1.dropRead (· == req))

/-! ### Interrupt moderation (R449) -/

/-- Sends a function's message and starts the count anew. -/
def State.sendMsix (s : State) (func vec : Nat) : State :=
  { s.toHost (s.linkOf func) (.msix func vec) with host := { s.host with moder := s.host.moder.put (fun _ => (0, 0)) (2048 * func + vec) (0, 0) } }

/-- One completion of queue `q` counts against its vector. With MOD_CNT 0 and MOD_TIME not 0 the message waits for the time
(KL-8, R598). -/
def State.countCompletion (s : State) (q : Nat) : State :=
  let func := s.get (R.HOST_Q.FUNC q)
  let vec := s.get (R.HOST_Q.VEC q)
  let k := 2048 * func + vec
  let cnt := s.get (R.HOST_Q.MOD_CNT q)
  let time := s.get (R.HOST_Q.MOD_TIME q)
  let m := SMap.find (fun _ => (0, 0)) s.host.moder k
  let m1 := (m.1 + 1, if m.1 = 0 then s.ns + 1000 * time else m.2)
  if time = 0 ∨ (cnt ≠ 0 ∧ cnt ≤ m1.1) then s.sendMsix func vec
  else { s with host := { s.host with moder := s.host.moder.put (fun _ => (0, 0)) k m1 } }

/-- MSIX_MODERATION (R449): the time after the first completion has passed. -/
def execMsixModeration (func vec : Nat) (s : State) : Out State :=
  complete (Instr.wf (.msixModeration func vec)) s
    (let m := SMap.find (fun _ => (0, 0)) s.host.moder (2048 * func + vec)
    if s.coreUp && decide (0 < m.1) && decide (m.2 ≤ s.ns) then s.sendMsix func vec else s)

/-! ### Transmit (R445, R447) -/

/-- Takes the descriptor at C off a queue. -/
def State.useDescriptor (s : State) (q : Nat) : State :=
  (s.setReady q ((s.ready q).drop 1)).set (R.HOST_QSTAT.C q) (wrapAdd 16 (s.get (R.HOST_QSTAT.C q)) 1)

/-- Writes byte 12 of a transmit descriptor with DONE and its status, and counts the completion. -/
def State.txDone (s : State) (q number status : Nat) : State :=
  ((s.useDescriptor q).queueWrite q (s.slotAddr q number + 12) (leBytes 1 (1 + 2 * status)) false false).countCompletion q

/-- Starts the descriptor at the head of a transmit queue: a bad length ends it, otherwise its buffer is read. `fuel` bounds
the descriptors ended. -/
def State.startTx (s : State) (q : Nat) : Nat → State
  | 0 => s
  | fuel + 1 =>
    if !s.queueRuns q || s.bit (R.HOST_Q.DIR q) || s.reading (HostReq.ofFrame q) || s.frameWaits q then s
    else match s.ready q with
      | [] => s
      | (n, d) :: _ =>
        let len := leAt d 8 2
        if len < 14 ∨ 16379 < len then (s.txDone q n 3).startTx q fuel
        else s.queueRead q (.txData q n) (leAt d 0 8) len (s.bit (R.HOST_Q.NS q)) (s.bit (R.HOST_Q.RO q))

/-- What a queue does next: it starts transmit descriptors and reads more. -/
def State.runQueue (s : State) (q : Nat) : State := (s.startTx q ((s.ready q).length + 1)).fetchQueue q

/-! ### Descriptor reads (R439, R444) -/

/-- Takes the descriptors of a read in order, up to the first whose number is not the one expected: those taken, and
whether one differs. -/
def takeDescriptors (width numAt : Nat) (data : List Byte) : Nat → Nat → List (Nat × List Byte) × Bool
  | 0, _ => ([], false)
  | k + 1, n =>
    let d := slice data 0 width
    if leAt d numAt 2 = n then
      let r := takeDescriptors width numAt (data.drop width) k ((n + 1) % 65536)
      ((n, d) :: r.1, r.2)
    else ([], true)

/-- A mismatch: a re-read 1 µs later, or after RETRY reads the queue stops with SEQ. -/
def State.mismatch (s : State) (q : Nat) : State :=
  let n := (s.retryOf q).1 + 1
  if s.get R.HOST_CFG.RETRY ≤ n then ((s.stopQueue q 1).sat R.HOST_ERR.SEQ 1).raise 32 q
  else s.setRetry q (n, s.ns + 1000)

/-- The number and count of the descriptors that a read asks for. -/
def HostReq.asked : HostReq → Nat × Nat
  | .descriptors _ n c | .dmaDescriptors n c => (n, c)
  | .reread _ n | .dmaReread n => (n, 1)
  | _ => (65536, 0)

/-- The descriptors of a host queue's read arrive, or what its requests outstanding ask of them (R439, R444). -/
def State.descriptorsIn (s : State) (q : Nat) (data : List Byte) (poison : Bool) : State :=
  match s.fetching q with
  | none => s
  | some r =>
    let nc := r.req.asked
    let x := (if poison then s.dropRead (HostReq.ofRing q) else s).arrive r.req data
    match x.1 with
    | none => x.2.syncBusy q
    | some all =>
      let s1 := x.2
      if !s1.queueRuns q || nc.1 != s1.nextNumber q then s1.fetchQueue q
      else if poison then (s1.stopQueue q 2).sat R.HOST_ERR.POISON_TX 1
      else
        let t := takeDescriptors 16 10 all nc.2 nc.1
        let s2 := (s1.setReady q (s1.ready q ++ t.1))
        let s3 := if t.1.isEmpty then s2 else s2.setRetry q (0, 0)
        (if t.2 then s3.mismatch q else s3).runQueue q

/-- The re-read of a mismatched descriptor is sent 1 µs after the read that differed. -/
def State.rereadQueue (s : State) (q : Nat) : State :=
  let r := s.retryOf q
  let n := s.nextNumber q
  if !s.queueRuns q || r.1 == 0 || decide (s.ns < r.2) || s.reading (HostReq.ofRing q) then s
  else (s.queueRead q (.reread q n) (s.slotAddr q n) 16 false false).syncBusy q

/-! ### The frame of a transmit descriptor -/

/-- A host frame as packet memory takes it: padded to 60 B (R447). -/
def hostFrame (data : List Byte) : List Byte := if data.length < 60 then slice data 0 60 else data

/-- The owner of a transmit buffer's chain: its host queue group (R268). -/
def sourceOwner (src : Nat) : Option Nat :=
  if src < 96 then none else if src < 352 then some (src - 96) else some (256 + (src - 352))

/-- One landing cell of a frame from its source: charged and linked; none when neither the reserved minimum nor the shared
pool gives one, or the bank has no free cell (R270). -/
def State.landCell (s : State) (f : RxFrame) (cell : Option Nat) : Option (State × Pkt) :=
  match s.landingKind f.pkt.acct, cell with
  | some kind, some i =>
    let k := f.pkt.cells.length
    let len := f.pkt.len
    let last := decide (len ≤ 256 * (k + 1))
    let s1 := (s.takeCell i (linkWord f.pkt.owner 1 last (fillOf len k) 0)).charge i f.pkt.acct kind
    let s2 := match f.pkt.cells.getLast? with
      | some j => s1.setLink j (bitsSet (s1.link j) 0 20 i)
      | none => s1
    some (s2, { f.pkt with cells := f.pkt.cells ++ [i] })
  | _, _ => none

/-- Replaces a frame on its way into cells. -/
def State.putRx (s : State) (f : RxFrame) : State :=
  { s with buf := { s.buf with rx := s.buf.rx.map fun g => if g.pkt.id = f.pkt.id then f else g } }

/-- The last cell of a host frame is written: its start for the bound (R292), and its descriptor's status (R447). -/
def State.landed (s : State) (f : RxFrame) : State :=
  if f.pkt.cells.length ≠ cellsOf f.pkt.len then s
  else
    let s1 := if f.pkt.src < 96 then s else s.putRx { f with pkt := { f.pkt with startNs := s.ns }, writeBack := none }
    match f.writeBack with
    | none => s1
    | some (q, n) => (s1.txDone q n 0).runQueue q

/-- A host or service frame takes cells as long as it finds them; it waits at its source otherwise. -/
def State.landAll (s : State) (id : Nat) : Nat → State
  | 0 => s
  | fuel + 1 =>
    match s.buf.rx.find? fun f => f.pkt.id == id with
    | none => s
    | some f =>
      if f.pkt.cells.length = cellsOf f.pkt.len then s
      else
        let c := s.freeAny
        match c.2.landCell f c.1 with
        | none => s
        | some (t, p) => let g := { f with pkt := p }; ((t.putRx g).landed g).landAll id fuel

/-- The buffer of a transmit descriptor arrives, or what its requests outstanding ask of it (R439, R447); a queue disabled or stopped since
completes the descriptor in progress (R441). -/
def State.txDataIn (s : State) (q : Nat) (data : List Byte) (poison : Bool) : State :=
  match s.dataRead q with
  | none => s
  | some r =>
    let x := (if poison then s.dropRead (HostReq.ofFrame q) else s).arrive r.req data
    match x.1, s.ready q with
    | none, _ => x.2.syncBusy q
    | some _, [] => x.2.runQueue q
    | some all, (n, d) :: _ =>
      let s1 := x.2
      if r.req != .txData q n then s1.runQueue q
      else if poison then ((s1.txDone q n 1).sat R.HOST_ERR.POISON_TX 1).runQueue q
      else
        let b := hostFrame (slice all 0 (leAt d 8 2))
        let src := 96 + s.get (R.HOST_Q.GROUP q)
        let p : Pkt := { id := 0, src := src, bytes := b, fcs := frameCheck b, acct := src, owner := sourceOwner src, startNs := s.ns }
        let s2 := s1.newRx p (b.length + 4) none false (outerTagOf b) (some (q, n)) (b.length + 4)
        (s2.landAll s.buf.nextId 64).syncBusy q

/-- TX_DESCRIPTOR (R447): the buffer read of the queue's descriptor completes. -/
def execTxDescriptor (q : Nat) (data : List Byte) (poison : Bool) (s : State) : Out State :=
  complete (Instr.wf (.txDescriptor q data poison)) s (if s.forwarding then s.txDataIn q data poison else s)

/-! ### Receive (R446, R448) -/

/-- The write-back of one receive descriptor. -/
def rxWriteBack (now len cls ep number : Nat) (first last : Bool) : List Byte :=
  record 16 [(0, 6, now), (8, 2, len), (10, 2, number), (12, 1, 1 + 2 * b2n first + 4 * b2n last + 8 * cls), (13, 3, ep * 16)]

/-- Delivers a frame to a receive queue: its data first, then its descriptors in order. -/
def State.deliverHost (s : State) (q ep cls : Nat) (bytes : List Byte) : State :=
  let parts := pieces (s.bufBytes q) 9 bytes
  let ds := (s.ready q).take parts.length
  let ns := s.bit (R.HOST_Q.NS q)
  let ro := s.bit (R.HOST_Q.RO q)
  let s1 := (parts.zip ds).foldl (fun t x => t.queueWrite q (leAt x.2.2 0 8) x.1 ns ro) s
  let n := parts.length
  let idx := (parts.zip ds).zip (List.range n)
  let s2 := idx.foldl (fun t x =>
    let num := x.1.2.1
    ((t.useDescriptor q).queueWrite q (s.slotAddr q num)
      (rxWriteBack s.now x.1.1.length cls ep num (x.2 == 0) (x.2 + 1 == n)) false false).countCompletion q) s1
  s2.runQueue q

/-! ### Resets of functions and endpoints (R435, R586) -/

/-- A queue of a function under Function Level Reset takes nothing more, and asks for nothing more; it stops once its reads in flight have
completed, and their data is discarded. -/
def State.startReset (s : State) (q : Nat) : State :=
  let s1 := s.dropRead (HostReq.ofQueue q)
  if s1.reading (HostReq.ofQueue q) then
    (({ s1 with host := { s1.host with flr := (s1.host.flr.filter fun x => x != q) ++ [q] } }).setReady q []).setRetry q (0, 0)
  else s1.endReset q

/-- The queues whose registers do not hold their reset values. -/
def State.usedQueues (s : State) : List Nat :=
  (s.regs.filter fun e => decide (0x2740000 ≤ e.1 ∧ e.1 < 0x2780000) && e.1 % 16 == 0).map fun e => (e.1 - 0x2740000) / 16

/-- The queues whose function satisfies a test; every queue whose HOST_Q holds its reset value belongs to PF0. -/
def State.queuesOf (s : State) (p : Nat → Bool) : List Nat :=
  (if p 0 then List.range 16384 else s.usedQueues).filter fun q => p (s.get (R.HOST_Q.FUNC q))

/-- FUNCTION_LEVEL_RESET (R435). -/
def execFunctionLevelReset (src : HostSrc) (s : State) : Out State :=
  complete (Instr.wf (.functionLevelReset src)) s
    (if s.mode == .serve then (s.queuesOf fun f => f == src.func).foldl (fun (t : State) q => t.startReset q) s else s)

/-- The lanes of a link of an endpoint: 16, or 8 of a bifurcated one (R433). -/
def State.hostLanes (s : State) (ep : Nat) : Nat := if s.power.hxBif.getD ep false then 8 else 16

/-- HOST_LINK_TRAINED (R433): a whole link, or a half of a bifurcated one, completes training. -/
def execHostLinkTrained (ep : Nat) (half : Bool) (rate width : Nat) (s : State) : Out State :=
  complete (Instr.wf (.hostLinkTrained ep half rate width)) s
    (if !s.coreUp || !s.epUp ep || decide (s.hostLanes ep < width) then s
    else if half && s.power.hxBif.getD ep false then
      (s.set (R.HOST_LINK.RATE_B ep) rate).set (R.HOST_LINK.WIDTH_B ep) width
    else if half then s
    else (s.set (R.HOST_LINK.RATE_A ep) rate).set (R.HOST_LINKW.WIDTH_A ep) width)

/-! ### Doorbells (R443) -/

/-- A queue's doorbell. -/
def State.queueDoorbell (s : State) (src : HostSrc) (q value : Nat) : State :=
  if !s.reach src then s.emit .unreachable
  else
    let drop := s.sat R.HOST_ERR.DOORBELL 1
    if s.accessMode != .serve || src.func != s.get (R.HOST_Q.FUNC q) || !s.bit (R.HOST_Q.ENABLE q) || decide (65536 ≤ value) then drop
    else match doorbellTarget (s.get (R.HOST_QSTAT.T q)) (s.get (R.HOST_QSTAT.C q)) (s.get (R.HOST_Q.SIZE q)) value with
      | some t => (s.set (R.HOST_QSTAT.T q) t).runQueue q
      | none => drop

/-- QUEUE_DOORBELL (R443). -/
def execQueueDoorbell (src : HostSrc) (q value : Nat) (s : State) : Out State :=
  complete (Instr.wf (.queueDoorbell src q value)) s (s.queueDoorbell src q value)

end Sys2Proof.Machine
end

