-- ==== Sys2Proof/Machine/Gates.lean ====
section
/-! DEFINITION. Time gates: lists, transitions, changes, GATE_LIST_SET, and the hold of preemptable traffic (R326 to R328,
R394). -/
namespace Sys2Proof.Machine

def State.setGates (s : State) (o : Nat) (g : Option GateList) : State :=
  { s with col := { s.col with gates := s.col.gates.put (fun _ => none) o g } }
def State.setPendingGates (s : State) (o : Nat) (g : Option (Nat × Option GateList)) : State :=
  { s with col := { s.col with gatePending := s.col.gatePending.put (fun _ => none) o g } }

/-- A hold begins, or ends: the rest of a frame that it interrupted then starts (R394). -/
def State.setMacHold (s : State) (o : Nat) (b : Bool) : State :=
  let s1 : State := match SMap.find (fun _ => none) s.mac.sending o with
    | some x => if !b && s.macHeld o && decide (0 < x.left) then s.setSending o { x with endTb := max x.endTb s.tb } else s
    | none => s
  { s1 with mac := { s1.mac with held := s1.mac.held.put (fun _ => false) o b } }

/-! ### The entry in force (R326, R328) -/

/-- The operation of an entry. -/
def GateList.op (g : GateList) (i : Nat) : Nat := ((g.entries[i]?).map fun e => e.2.1).getD 0

/-- COL_GATE takes the entry in force; a Set-And-Release-MAC entry ends the hold. -/
def State.gateSync (s : State) (o : Nat) : State :=
  match s.gateList o with
  | none => s
  | some g =>
    let e := g.at_ (s.gateMoment o g)
    let s1 := (s.set (R.COL_GATE.STATE o) e.2.1).set (R.COL_GATE.ENTRY o) e.1
    if g.base ≤ s.ns ∧ g.op e.1 = 2 then s1.setMacHold o false else s1

/-- GATE_TRANSITION (R326): an entry of the list in force starts. -/
def execGateTransition (o : Nat) (s : State) : Out State :=
  complete (Instr.wf (.gateTransition o)) s (if s.forwarding then s.gateSync o else s)

/-- The change time of a pending list or STOP has come. -/
def State.gateChange (s : State) (o : Nat) (new : Option GateList) : State :=
  let s1 := (((s.setGates o new).setPendingGates o none).setBit (R.COL_GATE.PENDING o) false).setBit (R.COL_GATE.ACTIVE o) new.isSome
  match new with
  | some _ => s1.gateSync o
  | none => ((s1.set (R.COL_GATE.STATE o) 255).set (R.COL_GATE.ENTRY o) 0).setMacHold o false

/-- GATE_CHANGE (R328). -/
def execGateChange (o : Nat) (s : State) : Out State :=
  complete (Instr.wf (.gateChange o)) s
    (match s.pendingGates o with
    | some (t, new) => if s.forwarding && decide (t ≤ s.ns) then s.gateChange o new else s
    | none => s)

/-- A Set-And-Hold-MAC entry of the list in force has started, or the next entry is one and starts within HOLD_ADV ns; no entry starts
at or after the moment `stop`. -/
def State.holdNear (s : State) (o : Nat) (g : GateList) (stop : Option Nat) : Bool :=
  let m := s.gateMoment o g
  let e := g.at_ m
  let next := m + e.2.2
  (decide (g.base ≤ s.ns) && g.op e.1 == 1) ||
    (g.op (g.at_ next).1 == 1 && stop.all (fun t => decide (next < t)) && decide (next ≤ s.ns + s.get (R.MAC_PREEMPT.HOLD_ADV o)))

/-- The first entry of a pending list is a Set-And-Hold-MAC entry and starts within HOLD_ADV ns. -/
def State.holdPending (s : State) (o : Nat) : Bool :=
  match s.pendingGates o with
  | some (change, some new) => new.op 0 == 1 && decide (change ≤ s.ns + s.get (R.MAC_PREEMPT.HOLD_ADV o))
  | _ => false

/-- SET_AND_HOLD_MAC (R394): a Set-And-Hold-MAC entry starts within HOLD_ADV ns, or is in force. -/
def execSetAndHoldMac (o : Nat) (s : State) : Out State :=
  complete (Instr.wf (.setAndHoldMac o)) s
    (if s.forwarding && ((s.gateList o).any (fun g => s.holdNear o g (s.entriesStop o g)) || s.holdPending o) then s.setMacHold o true
    else s)

/-! ### GATE_LIST_SET (R328) -/

/-- One 8 B entry: interval, operation, gates. -/
def gateOf (bs : List Byte) (k : Nat) : Nat × Nat × Nat :=
  let w := leAt bs (8 * k) 8
  (w / 2 ^ 32, w / 256 % 4, w % 256)

/-- An entry without reserved values. -/
def gateGood (bs : List Byte) (k : Nat) : Bool :=
  let w := leAt bs (8 * k) 8
  bitsGet w 10 22 == 0 && w / 256 % 4 != 3 && decide (64 ≤ w / 2 ^ 32)

/-- A class that some entry opens and that is not preemptable finds an open window for the largest frame. -/
def State.windowGood (s : State) (o c : Nat) (g : GateList) : Bool :=
  let opens := g.entries.any fun e => e.2.2.testBit c
  if !opens || s.preemptable o c then true
  else
    let starts := (List.range g.entries.length).map fun k => ((g.entries.take k).map fun e => e.1).sum
    starts.any fun t =>
      decide (t < g.cycle) && (g.at_ (g.base + t)).2.1.testBit c &&
        match g.untilClose c (2 * g.entries.length + 2) (g.base + t) 0 with
        | none => true
        | some d => decide (s.wireTb o (s.get (R.MAC_CFG.MAXF o) + 20) ≤ d * 2 ^ 40)

/-- The operands common to a list and a STOP are well formed. -/
def State.gateCmdGood (s : State) (c : OpenCmd) : Bool :=
  c.formed [(20, 4), (38, 2), (48, 16)] && decide (c.op 16 1 < 96) && decide (c.op 17 1 < 2) && !s.upperMac (c.op 16 1) &&
    decide (1000 ≤ c.op 40 4 ∧ c.op 40 4 ≤ 1000000000)

/-- The change time: BASE, or the first BASE + N x CYCLE, 10 µs or more from now. -/
def State.changeTime (s : State) (base cycle : Nat) : Nat :=
  let b := s.moment base
  if s.ns + 10000 ≤ b then b else b + ceilDiv (s.ns + 10000 - b) cycle * cycle

/-- A list or STOP is stored with its change time, and the command is done. -/
def State.storeGates (s : State) (seq o change : Nat) (g : Option GateList) : State :=
  (((s.setPendingGates o (some (change, g))).setBit (R.COL_GATE.PENDING o) true).set (R.COL_GATE_CHANGE.CHANGE o)
    (change % 2 ^ 48)).done seq [(16, 6, change % 2 ^ 48)]

/-- GATE_LIST_STOP (R328): GATE_LIST_SET with STOP. -/
def execGateListStop (seq : Nat) (s : State) : Out State :=
  complete true s (s.runCmd seq 0x31 fun c t =>
    if !(c.op 17 1).testBit 0 then t
    else if !t.gateCmdGood c then t.refuse seq 1
    else t.storeGates seq (c.op 16 1) (t.changeTime (c.op 32 8) (c.op 40 4)) none)

/-- GATE_LIST_SET (R328); `entries` is what the host's memory holds at the list's address. -/
def execGateListSet (seq : Nat) (entries : List Byte) (s : State) : Out State :=
  complete true s (s.runCmd seq 0x31 fun c t =>
    let o := c.op 16 1
    let n := c.op 18 2
    if (c.op 17 1).testBit 0 then t
    else if !t.gateCmdGood c || n == 0 || decide (1024 < n) || c.op 24 8 % 64 != 0 || decide (c.op 40 4 < c.op 44 4) then t.refuse seq 1
    else
      let t1 := t.emitAll (t.pfReads (t.cmdPf c) (c.op 24 8) (8 * n))
      if !(List.range n).all (gateGood entries) then t1.refuse seq 1
      else
        let change := t1.changeTime (c.op 32 8) (c.op 40 4)
        let g : GateList := ⟨(List.range n).map (gateOf entries), change, c.op 40 4, c.op 44 4, t.ns⟩
        if !(List.range 8).all fun k => t1.windowGood o k g then t1.refuse seq 0x10
        else t1.storeGates seq o change (some g))

end Sys2Proof.Machine
end

