-- ==== Sys2Proof/Machine/Micro.lean ====
section
/-! DEFINITION. The microword and what one word does to a facet's working state: ALU, MOVE, cursor, conditions, sequencing,
actions (R111 to R131, R155 to R160). -/
namespace Sys2Proof.Machine

/-! ### The vector (R115, R116) -/

/-- `n` nibbles of the vector from address `a`, most significant first; addresses beyond 1,023 read 0. -/
def vget (v : Vect) (a n : Nat) : Nat := v.toNat * 16 ^ 256 / 16 ^ (1280 - min 1280 (a + n)) % 16 ^ n

/-- The vector with `n` nibbles from address `a` replaced; nibbles beyond 1,023 are not written. -/
def vset (v : Vect) (a n x : Nat) : Vect :=
  if 1024 ≤ a then v
  else
    let k := min n (1024 - a)
    BitVec.ofNat 4096 (bitsSet v.toNat (4 * (1024 - a - k)) (4 * k) (x / 16 ^ (n - k)))

/-- A write by a word: the nibbles marked RO in R116 (metadata 0 to 16 and 121 to 123) keep their values. -/
def vput (v : Vect) (a n x : Nat) : Vect :=
  let w := vset v a n x
  vset (vset w 512 17 (vget v 512 17)) 633 3 (vget v 633 3)

/-- The first vector address of window W0, W1 or W2. -/
def winAddr (w : Nat) : Nat := 640 + 128 * w

/-- The parse cursor (metadata nibbles 14 to 16). -/
def cursorOf (v : Vect) : Nat := vget v 526 3

/-- The status nibble of a window: bit 3 valid, 2 hit, 1 parity error, 0 far-late. -/
def winStatus (v : Vect) (w : Nat) : Nat := vget v (633 + w) 1

/-- Flag `f` (R116). -/
def flagOf (v : Vect) (f : Nat) : Bool := (vget v (636 + f / 4) 1).testBit (3 - f % 4)

/-- Flag `f` set to a value. -/
def setFlag (v : Vect) (f : Nat) (b : Bool) : Vect :=
  let a := 636 + f / 4
  vset v a 1 (bitsSet (vget v a 1) (3 - f % 4) 1 (b2n b))

/-- The 64 B of a line as a window holds them, byte 0 first. -/
def lineNibbles (line : Nat) : Nat := beVal (leBytes 64 line)

/-! ### Fields (R111) -/

/-- The fields of a microword. -/
def mDwell (m : Nat) : Nat := bitsGet m 189 3
def mCommit (m : Nat) : Bool := m.testBit 188
def mSeq (m : Nat) : Nat := bitsGet m 184 4
def mTarget (m : Nat) : Nat := bitsGet m 171 13
def mCond (m : Nat) : Nat := bitsGet m 165 6
def mAlu0 (m : Nat) : Nat := bitsGet m 133 32
def mAlu1 (m : Nat) : Nat := bitsGet m 101 32
def mMove (m : Nat) : Nat := bitsGet m 73 28
def mLookup (m : Nat) : Nat := bitsGet m 49 24
def mMeta (m : Nat) : Nat := bitsGet m 33 16
def mCnt (m : Nat) : Nat := bitsGet m 21 12
def mEmit (m : Nat) : Nat := bitsGet m 11 10
def mGuard (m : Nat) : Nat := m % 2 ^ 11

/-- The fields of LOOKUP (R126): port, key address, profile, window. -/
def lPort (m : Nat) : Nat := bitsGet (mLookup m) 18 6
def lKey (m : Nat) : Nat := bitsGet (mLookup m) 8 10
def lProfile (m : Nat) : Nat := bitsGet (mLookup m) 4 4
def lWin (m : Nat) : Nat := bitsGet (mLookup m) 2 2

/-- A port that R126 reserves. -/
def portReserved (p : Nat) : Bool := decide (28 ≤ p ∧ p < 32) || decide (34 ≤ p ∧ p < 63)

/-- A reserved encoding of R119, the cause SEQ of R135. -/
def wordReserved (m : Nat) : Bool :=
  decide (10 ≤ mSeq m) || decide (0x12 ≤ mAlu0 m / 2 ^ 27) || decide (0x12 ≤ mAlu1 m / 2 ^ 27) || portReserved (lPort m) ||
    decide (mEmit m / 128 = 7) || (decide (mSeq m = 6) && decide (16 ≤ mCond m))

/-! ### ALU (R122 to R124) -/

/-- The length in nibbles of an ALU operation. -/
def aluLen (f : Nat) : Nat := if f % 64 = 0 then 64 else f % 64

/-- One 16-bit word of a ones'-complement sum, and its carry. -/
def onesAdd (a b : Nat) : Nat × Bool := ((a + b) % 65536 + (a + b) / 65536, decide (65536 ≤ a + b))

/-- The ones'-complement sum of `n` 16-bit words of a value. -/
def onesSum : Nat → Nat → Nat → Nat
  | 0, _, acc => acc
  | n + 1, x, acc => onesSum n (x / 65536) (onesAdd acc (x % 65536)).1

/-- Word by word ones'-complement addition of `n` 16-bit words, and the carry of the most significant word. -/
def onesAddWords : Nat → Nat → Nat → Nat × Bool
  | 0, _, _ => (0, false)
  | n + 1, a, b =>
    let w := onesAdd (a % 65536) (b % 65536)
    let r := onesAddWords n (a / 65536) (b / 65536)
    (w.1 + 65536 * r.1, if n = 0 then w.2 else r.2)

/-- The result of an operation on LEN nibbles, whether it is written and over how many nibbles, and its carry; none for NOP and
for a reserved operation. An immediate wider than LEN nibbles loses its upper bits, and SHR and SHL shift by the whole 10-bit immediate
(DESIGN CHOICE, log 160). -/
def aluResult (op len a b bAll : Nat) : Option (Nat × Nat × Bool × Bool) :=
  let m := 16 ^ len
  let sub := (a + m - b % m) % m
  match op with
  | 0x01 => some (b % m, len, true, false)
  | 0x02 => some ((a + b % m) % m, len, true, decide (m ≤ a + b % m))
  | 0x03 => some (sub, len, true, decide (a < b % m))
  | 0x04 => some (a &&& b % m, len, true, false)
  | 0x05 => some (a ||| b % m, len, true, false)
  | 0x06 => some (a ^^^ b % m, len, true, false)
  | 0x07 => some (m - 1 - b % m, len, true, false)
  | 0x08 => some (sub, len, false, decide (a < b % m))
  | 0x09 => some (a &&& b % m, len, false, false)
  | 0x0A => some ((a + 1) % m, len, true, decide (a + 1 = m))
  | 0x0B => some ((a + m - 1) % m, len, true, decide (a = 0))
  | 0x0C => some (min a (b % m), len, true, false)
  | 0x0D => some (max a (b % m), len, true, false)
  | 0x0E => some (a / 2 ^ b, len, true, false)
  | 0x0F => some (a * 2 ^ b % m, len, true, false)
  | 0x10 => let r := onesAddWords (len / 4) a (b % m); some (r.1, len, true, r.2)
  | 0x11 => some (onesSum (len / 4) bAll 0, 4, true, false)
  | _ => none

/-- One ALU field on the vector: its write and its flags. -/
def aluRun (v : Vect) (f : Nat) : Option (Nat × Nat × Nat) × Option AluFlags :=
  let op := bitsGet f 27 5
  let len := aluLen f
  let addr := bitsGet f 16 10
  let b := if f.testBit 26 then bitsGet f 6 10 else vget v (bitsGet f 6 10) len
  match aluResult op len (vget v addr len) b (vget v (bitsGet f 6 10) len) with
  | none => (none, none)
  | some (r, n, wr, c) =>
    (if wr then some (addr, n, r) else none, some ⟨decide (r = 0), c, r.testBit (4 * n - 1)⟩)

/-! ### MOVE and the cursor (R125, R155 to R160) -/

/-- The length in nibbles of EXTRACT and INSERT. -/
def moveLen (f : Nat) : Nat := if f % 32 = 0 then 32 else f % 32

/-- `n` nibbles at a cursor-relative address: nibbles past 511 read 0 (R125, R158). A range that begins at 511 or below and ends past it
does not set condition 0x13 (DESIGN CHOICE, log 161). -/
def relGet (v : Vect) (a n : Nat) : Nat :=
  if 512 ≤ a then 0 else if a + n ≤ 512 then vget v a n else vget v a (512 - a) * 16 ^ (a + n - 512)

/-- The write of a cursor-relative destination: nibbles past 511 are not written. -/
def relPut (a n x : Nat) : Option (Nat × Nat × Nat) :=
  if 512 ≤ a then none else if a + n ≤ 512 then some (a, n, x) else some (a, 512 - a, x / 16 ^ (a + n - 512))

/-- The fields of a CURSOR word (R155). -/
def cRel (f : Nat) : Bool := f.testBit 25
def cSrc (f : Nat) : Nat := bitsGet f 15 10
def cScale (f : Nat) : Nat := bitsGet f 12 3
def cBias (f : Nat) : Nat := bitsGet f 6 6
def cEdge (f : Nat) : Bool := f.testBit 5
def cImm (f : Nat) : Bool := f.testBit 4
def cLen (f : Nat) : Nat := f % 16

/-- The amount field of a CURSOR word with IMM = 0: where it starts. -/
def cField (v : Vect) (f : Nat) : Nat := if cRel f then cursorOf v + cSrc f else cSrc f

/-- The amount and the new cursor (R155, R156). -/
def newCursor (v : Vect) (f : Nat) : Nat :=
  let amount := if cImm f then cSrc f
    else (if cRel f then relGet v (cField v f) (cLen f) else vget v (cSrc f) (cLen f)) * 2 ^ cScale f + cBias f
  min 4095 (if cRel f then cursorOf v + amount else amount)

/-- The word is a CURSOR word whose amount field ends on the last nibble of a segment (R160, R163). -/
def edgeJump (v : Vect) (m : Nat) : Bool :=
  let f := mMove m
  f / 2 ^ 26 == 3 && !cImm f && decide (cField v f + cLen f ≤ 512) && decide ((cField v f + cLen f) % 64 = 0) &&
    decide (1 ≤ cLen f)

/-- MOVE on the vector: its write, its new cursor with whether that is deferred, and whether a relative address passed
nibble 511. -/
def moveRun (v : Vect) (m : Nat) : Option (Nat × Nat × Nat) × Option (Nat × Bool) × Bool :=
  let f := mMove m
  let rel := f.testBit 25
  let src := bitsGet f 15 10
  let dst := bitsGet f 5 10
  let n := moveLen f
  match f / 2 ^ 26 with
  | 1 =>
    if rel then
      let a := cursorOf v + src
      (some (dst, n, relGet v a n), none, decide (511 < a))
    else (some (dst, n, vget v src n), none, false)
  | 2 =>
    if rel then
      let a := cursorOf v + dst
      (relPut a n (vget v src n), none, decide (511 < a))
    else (some (dst, n, vget v src n), none, false)
  | 3 => (none, some (newCursor v f, edgeJump v m && cEdge f), !cImm f && cRel f && decide (511 < cField v f))
  | _ => (none, none, false)

/-! ### Conditions (R120) -/

/-- Whether a condition holds: `pend` and `irq` are conditions 0x11 and 0x12, `open_` the open value of a reserved one. -/
def condHolds (w : Work) (c : Nat) (pend irq open_ : Bool) : Bool :=
  if 0x30 ≤ c then !flagOf w.vec (c % 16)
  else if 0x20 ≤ c then flagOf w.vec (c % 16)
  else match c with
    | 0x00 => true
    | 0x01 => w.f0.z | 0x02 => !w.f0.z | 0x03 => w.f0.c | 0x04 => !w.f0.c | 0x05 => w.f0.n
    | 0x06 => w.f1.z | 0x07 => !w.f1.z | 0x08 => w.f1.c | 0x09 => !w.f1.c | 0x0A => w.f1.n
    | 0x0B => decide (12 ≤ winStatus w.vec 0) | 0x0C => decide (12 ≤ winStatus w.vec 1) | 0x0D => decide (12 ≤ winStatus w.vec 2)
    | 0x0E => decide (winStatus w.vec 0 / 4 = 2) | 0x0F => decide (winStatus w.vec 1 / 4 = 2)
    | 0x10 => decide (winStatus w.vec 2 / 4 = 2)
    | 0x11 => pend
    | 0x12 => irq
    | 0x13 => w.beyond || decide (511 < cursorOf w.vec)
    | _ => open_

/-- A COND that R120 reserves. -/
def condReserved (c : Nat) : Bool := decide (0x14 ≤ c ∧ c < 0x20)

/-- The word branches on COND (R121). -/
def branches (m : Nat) : Bool := mSeq m == 2 || mSeq m == 3

/-- The predicate of a word at its first step (R121). -/
def predicate (w : Work) (m : Nat) (pend irq open_ : Bool) : Bool :=
  branches m || mSeq m == 6 || condHolds w (mCond m) pend irq open_

/-! ### The two ends of a word (R113, R114) -/

/-- The first step of a word: its operands are read. -/
def Work.begin (w : Work) (addr m : Nat) (holds : Bool) : Work :=
  if holds then
    let a := aluRun w.vec (mAlu0 m)
    let b := aluRun w.vec (mAlu1 m)
    let mv := moveRun w.vec m
    { w with run := some ⟨addr, m, mDwell m, true, a.1.toList ++ b.1.toList ++ mv.1.toList, a.2, b.2, mv.2.1, mv.2.2⟩ }
  else { w with run := some { addr := addr, word := m, left := mDwell m, holds := false } }

/-- The address nibbles of a FORWARD as they stand (R131). -/
def forwardTo (w : Work) (vd : Verdict) : Verdict :=
  { vd with
    kind := 1
    reason := 0
    dstKind := vget w.vec 608 1
    dstDev := vget w.vec 609 3
    dstQ := vget w.vec 612 4
    edit := vget w.vec 621 4
    dstEp := vd.ep }

/-- An action of EMIT joins the actions so far (R130, R131). -/
def emitAction (w : Work) (e : Nat) : Verdict :=
  let vd := w.verdict
  let arg := e % 128
  let final := decide (2 ≤ vd.kind)
  match e / 128 with
  | 1 => if final then vd else forwardTo w vd
  | 2 => if final then vd else { vd with kind := 2, reason := arg }
  | 3 => { vd with copy := some arg }
  | 4 => if vd.mirrors.contains arg || decide (4 ≤ vd.mirrors.length) then vd else { vd with mirrors := vd.mirrors ++ [arg] }
  | 5 => if final then vd else { vd with kind := 3, reason := arg }
  | 6 => { vd with ep := some (vget w.vec 616 5) }
  | _ => vd

/-- The flag that META changes: COPY takes `cond`, and acts even when the predicate failed (R121, R128). -/
def metaFlags (v : Vect) (f : Nat) (holds cond : Bool) : Vect :=
  let flag := bitsGet f 10 4
  match f / 2 ^ 14 with
  | 1 => if holds then setFlag v flag true else v
  | 2 => if holds then setFlag v flag false else v
  | 3 => setFlag v flag cond
  | _ => v

/-- The ALU flags of a word land (R124). -/
def Work.flagsLand (w : Work) (r : WordRun) : Work := { w with f0 := r.alu0.getD w.f0, f1 := r.alu1.getD w.f1 }

/-- A new cursor is written; past nibble 511 it makes condition 0x13 hold (R157). -/
def Work.setCursor (w : Work) (c : Nat) : Work :=
  { w with
    vec := vset w.vec 526 3 c
    beyond := w.beyond || decide (511 < c)
    edged := w.edged && decide (c ≤ 511) }

/-- A deferred cursor lands (R160). -/
def Work.landCursor (w : Work) (c : Nat) : Work :=
  { (w.setCursor c) with landing := none, edged := w.edged || (!w.beyond && decide (511 < c)) }

/-- The last step of a word: ALU0, ALU1 and MOVE land in this order, so that MOVE prevails over ALU1 and ALU1 over ALU0; then the
flags of META, over what the word itself wrote to those nibbles (DESIGN CHOICE, log 156), and the EMIT action, which reads the nibbles as they then
stand (DEDUCED: "at the FORWARD word's last step", R131, log 155). What a word writes to a nibble of a header segment that is not present stays when
the segment arrives (R164 speaks of reads alone; DESIGN CHOICE, log 207). `cond` is COND as META COPY takes it. -/
def Work.finishWord (w : Work) (r : WordRun) (cond : Bool) : Work :=
  let v := r.writes.foldl (fun (v : Vect) (x : Nat × Nat × Nat) => vput v x.1 x.2.1 x.2.2) w.vec
  let w1 := { w.flagsLand r with vec := v, beyond := w.beyond || r.beyond, edged := w.edged && !r.beyond }
  let w2 := match r.cursor with
    | some (c, false) => w1.setCursor c
    | some (c, true) => { w1 with landing := some (2, c) }
    | none => w1
  let w3 := { w2 with vec := metaFlags w2.vec (mMeta r.word) r.holds cond }
  { w3 with run := none, verdict := if r.holds then emitAction w3 (mEmit r.word) else w3.verdict }

/-! ### Sequencing (R118, R134, R135) -/

/-- What follows a word: the next microaddress, the end of the item, PARK, WAIT, or an exception with its cause. -/
inductive Next where
  | go (addr : Nat)
  | call (addr ret : Nat)
  | ret (addr : Nat)
  | done | park | wait
  | exception (cause : Nat)
  deriving DecidableEq, Repr

/-- A microaddress within a bank of `size` words. -/
def inBank (size a : Nat) (n : Next) : Next := if a < size then n else .exception 4

/-- The microstack's top entry. -/
def Work.top (w : Work) : Nat := w.stack.getD (w.sp - 1) 0

/-- SEQ at a word's last step; `cond` is COND after the word's own ALU flags, `v` the nibble DISPATCH names, as it stood before the word's
own writes (DESIGN CHOICE, log 157). A next word past the bank is RANGE however it is reached, NEXT and an untaken BRANCH too (DESIGN CHOICE, log 158). -/
def nextOf (w : Work) (addr m size : Nat) (cond : Bool) (v : Nat) : Next :=
  let t := mTarget m
  match mSeq m with
  | 0 => inBank size (addr + 1) (.go (addr + 1))
  | 1 => inBank size t (.go t)
  | 2 => let a := if cond then t else addr + 1; inBank size a (.go a)
  | 3 => let a := if cond then addr + 1 else t; inBank size a (.go a)
  | 4 => if 7 ≤ w.sp then .exception 2 else inBank size t (.call t (addr + 1))
  | 5 => if w.sp = 0 then .exception 3 else inBank size w.top (.ret w.top)
  | 6 => inBank size (t + v) (.go (t + v))
  | 7 => .done
  | 8 => .park
  | 9 => .wait
  | _ => .exception 1

/-- Pushes a microaddress. -/
def Work.push (w : Work) (a : Nat) : Work := { w with stack := w.stack.take w.sp ++ [a], sp := w.sp + 1 }

/-! ### What a word reads (R164) -/

/-- The vector ranges that an ALU field reads. -/
def aluReads (f : Nat) : List (Nat × Nat) :=
  let op := bitsGet f 27 5
  let len := aluLen f
  let a := (bitsGet f 16 10, len)
  let b := (bitsGet f 6 10, len)
  let bs := if f.testBit 26 then [] else [b]
  if op = 0 ∨ 0x12 ≤ op then []
  else if op = 0x01 ∨ op = 0x07 then bs
  else if op = 0x11 then [b]
  else if op = 0x0A ∨ op = 0x0B then [a]
  else a :: bs

/-- The vector ranges that MOVE reads. -/
def moveReads (v : Vect) (m : Nat) : List (Nat × Nat) :=
  let f := mMove m
  let n := moveLen f
  match f / 2 ^ 26 with
  | 1 => [(if f.testBit 25 then cursorOf v + bitsGet f 15 10 else bitsGet f 15 10, n)]
  | 2 => [(bitsGet f 15 10, n)]
  | 3 => if cImm f then [] else [(cField v f, cLen f)]
  | _ => []

/-- The highest header segment of the listed ranges, as one more than its number; 0 when none lies in the header. -/
def segmentsOf (rs : List (Nat × Nat)) : Nat :=
  rs.foldl (fun acc r => if r.2 = 0 ∨ 512 ≤ r.1 then acc else max acc (min 7 ((r.1 + r.2 - 1) / 64) + 1)) 0

end Sys2Proof.Machine
end

