-- ==== Sys2Proof/Machine/Spill.lean ====
section
/-! DEFINITION. Leaf queues and spill: joining a leaf queue, spill blocks and extents, refills, memory failures
(R276 to R282, R284, R429). -/
namespace Sys2Proof.Machine

/-! ### Far requests that are not window reads (R430) -/

/-- The requester of a far request to an address is told that it ended with 1 poisoned or 2 failed (R432). -/
def State.failKind (s : State) (kind : FarKind) (a status : Nat) : State :=
  match kind with
  | .moverRead w => s.loseLine w (2 ^ 33 + a / 64) status
  | k => match k.who with | some w => s.failWho w | none => s

/-- A far request writes. -/
def FarKind.writes : FarKind → Bool
  | .spill _ | .table | .moverWrite _ => true
  | _ => false

/-- A far request joins those that wait; of those that come in one cycle a write goes ahead of the reads of other requesters (R419,
R430). -/
def queueFar (w : FarWait) (l : List FarWait) : List FarWait :=
  if w.kind.writes then
    let reads := (l.reverse.takeWhile fun x => !x.kind.writes && x.ns == w.ns && x.kind.who != w.kind.who).length
    l.take (l.length - reads) ++ w :: l.drop (l.length - reads)
  else l ++ [w]

/-- Sends the request of one line of the far space, or keeps it until a tag is free; a port whose link is down fails it (R432). -/
def State.farSend (s : State) (a : Nat) (kind : FarKind) : State :=
  let f := farPort a
  if !s.bit (R.FAR_PORT.UP f) then s.failKind kind a 2
  else if s.farTag f && s.mem.farWait.all fun w => w.addr / 64 != a / 64 then s.farRequest f kind a
  else { s with mem := { s.mem with farWait := queueFar ⟨f, kind, s.ns, a⟩ s.mem.farWait } }

/-- The service class of a far request (R417). -/
def FarKind.cls : FarKind → Nat
  | .table => 3
  | .refill _ => 2
  | .spill _ | .service _ => 1
  | _ => 0

/-- Of the requests that wait at a port, those that no older one to the same line precedes (R419). -/
def farHeads (f : Nat) : List FarWait → List FarWait → List FarWait
  | _, [] => []
  | seen, w :: ws =>
    if w.port = f ∧ (seen.all fun x => x.addr / 64 != w.addr / 64) = true then w :: farHeads f (w :: seen) ws else farHeads f (w :: seen) ws

/-- Of the requests that wait at a port, the one it sends next: the oldest promoted, else the oldest of the highest class (R418,
R430). -/
def State.nextWait (s : State) (f : Nat) : Option FarWait :=
  let mine := farHeads f [] s.mem.farWait
  match mine.find? fun w => decide (w.ns + 100 * s.get R.HBM_CFG.AGE_LIMIT ≤ s.ns) with
  | some w => some w
  | none => let best := mine.foldl (fun n w => max n w.kind.cls) 0; mine.find? fun w => w.kind.cls == best

/-- The requests that wait for a tag of a port are sent as far as tags go; `fuel` bounds them. -/
def State.sendWaits (s : State) (f : Nat) : Nat → State
  | 0 => s
  | fuel + 1 =>
    match (if s.farTag f then s.nextWait f else none) with
    | none => s
    | some w => (({ s with mem := { s.mem with farWait := s.mem.farWait.erase w } }).farRequest f w.kind w.addr).sendWaits f fuel
def State.farDrain (s : State) (f : Nat) : State := s.sendWaits f s.mem.farWait.length

/-- Every request of a transfer has been sent and has ended. -/
def State.transferDone (s : State) (who : Nat) : Bool :=
  s.whoDone who && s.mem.farWait.all fun w => w.kind.who != some who

/-! ### Blocks and extents (R278, R429) -/

/-- The number of cells of a block or extent. -/
def spillSize (far : Bool) : Nat := if far then 256 else 8

/-- BUF_SPILL_USED follows the blocks and extents in use. -/
def State.syncSpill (s : State) : State :=
  (s.set R.BUF_SPILL_USED.HBM_BLOCKS (s.buf.spills.filter fun b => !b.far).length).set R.BUF_SPILL_USED.FAR_EXTENTS
    (s.buf.spills.filter fun b => b.far).length

def State.setSpills (s : State) (l : List Spill) : State := { s with buf := { s.buf with spills := l } }.syncSpill

/-- The regions of the dynamic space that spill never grows into: the save region and what the image reserves (R39). -/
def State.keptRegions (s : State) : List (Nat × Nat) :=
  ((s.get R.BIST_SAVE.BASE, 2 ^ 20 * s.get R.BIST_SAVE.SIZE) :: s.mem.reserved).filter fun r => r.2 != 0

/-- Block `id` lies wholly in the dynamic area, outside those regions (R39) and on no failed stack, whose share of the spill region is gone
(R424). -/
def State.blockOpen (s : State) (id : Nat) : Bool :=
  let a := s.mem.spillBase + 2048 * id
  decide (id < s.get R.BUF_SPILL_SIZE.HBM_BLOCKS) && decide (a + 2048 ≤ s.dynSize) &&
    ((List.range 8).all fun i => !s.stackFailed ((s.interleave (a + 256 * i)).1 / 32)) &&
    s.keptRegions.all fun r => decide (a + 2048 ≤ r.1 ∨ r.1 + r.2 ≤ a)

/-- The first block from `i` on that spill may take; `fuel` bounds the blocks looked at. -/
def State.openFrom (s : State) (used : List Nat) : Nat → Nat → Option Nat
  | 0, _ => none
  | fuel + 1, i => if s.blockOpen i && !used.contains i then some i else s.openFrom used fuel (i + 1)

/-- The lowest block that spill may take beside those in use: the first of all, the one after a block in use, the first behind a
region, or the next behind the blocks of a failed stack, which never are more than 1,024 in a row while another stack is in service. -/
def State.lowestBlock (s : State) (used : List Nat) : Option Nat :=
  let cands := 0 :: used.map (· + 1) ++ s.keptRegions.map fun r => ceilDiv (r.1 + r.2 - s.mem.spillBase) 2048
  let fuel := if (List.range 8).any s.stackFailed then 1025 else 1
  (cands.filterMap (s.openFrom used fuel)).foldl (fun (m : Option Nat) id =>
    match m with | some x => some (min x id) | none => some id) none

/-- The lowest number from `i` on that is not in a list; `fuel` bounds the numbers looked at. -/
def lowestUnused (used : List Nat) : Nat → Nat → Nat
  | 0, i => i
  | fuel + 1, i => if used.contains i then lowestUnused used fuel (i + 1) else i

/-- The extents in use on a far port. -/
def State.extentsOn (s : State) (f : Nat) : List Nat :=
  ((s.buf.spills.filter fun b => b.far && b.id / 2 ^ 26 == f).map fun (b : Spill) => b.id % 2 ^ 26)

/-- A fresh block or extent for a leaf queue. -/
def State.newSpill (s : State) (leaf : Nat) (far : Bool) : Option (Nat × State) :=
  if far then
    match s.extentPort fun f => (s.extentsOn f).length with
    | none => none
    | some f =>
      let used := s.extentsOn f
      let id := f * 2 ^ 26 + lowestUnused used used.length 0
      let s1 := { s with mem := { s.mem with lastPort := f } }
      some (id, s1.setSpills (s1.buf.spills ++ [⟨id, true, leaf, 0, 0, true, s.ns, false⟩]))
  else
    let used := (s.buf.spills.filter fun b => !b.far).map fun (b : Spill) => b.id
    (s.lowestBlock used).map fun id => (id, s.setSpills (s.buf.spills ++ [⟨id, false, leaf, 0, 0, true, s.ns, false⟩]))

/-- The open block or extent of a leaf queue that has room. -/
def State.openSpill (s : State) (leaf : Nat) (far : Bool) : Option Spill :=
  s.buf.spills.find? fun b => b.far == far && b.leaf == leaf && b.isOpen && decide (b.used < spillSize far)

/-- A place for one cell of a leaf queue. -/
def State.giveSpot (s : State) (leaf : Nat) (far : Bool) : Option (State × Nat) :=
  let found : Option (Nat × State) := match s.openSpill leaf far with
    | some b => some (b.id, s)
    | none => s.newSpill leaf far
  match found with
  | none => none
  | some (id, t) =>
    let used := ((t.openSpill leaf far).map fun (b : Spill) => b.used).getD 0
    some (t.setSpills (updFirst (fun b => b.far == far && b.id == id) (fun b =>
      { b with used := b.used + 1, live := b.live + 1, lastNs := t.ns }) t.buf.spills), id * spillSize far + used)

/-- Places for `n` cells. -/
def State.giveSpots (s : State) (leaf : Nat) (far : Bool) : Nat → List Nat → Option (State × List Nat)
  | 0, got => some (s, got)
  | n + 1, got =>
    match s.giveSpot leaf far with
    | none => none
    | some (t, x) => t.giveSpots leaf far n (got ++ [x])

/-- A packet gives up its places; a closed block or extent without cells is freed. -/
def State.releaseSpots (s : State) (far : Bool) (spots : List Nat) : State :=
  let l := spots.foldl (fun (l : List Spill) x =>
    updFirst (fun b => b.far == far && b.id == x / spillSize far) (fun b => { b with live := b.live - 1 }) l) s.buf.spills
  s.setSpills (l.filter fun b => b.isOpen || decide (0 < b.live))

/-- The byte address of a place: HBM dynamic, or far. -/
def State.spotAddr (s : State) (far : Bool) (x : Nat) : Nat :=
  if far then
    let id := x / 256
    id / 2 ^ 26 * 2 ^ 41 + (s.get (R.FAR_SPILL.BASE (id / 2 ^ 26)) + id % 2 ^ 26) * 65536 + x % 256 * 256
  else s.mem.spillBase + 256 * x

/-- The 256 B of cell `k` of a packet. -/
def Pkt.cellBytes (p : Pkt) (k : Nat) : List Byte := slice (p.bytes ++ leBytes 4 p.fcs) (256 * k) 256

/-- The write of one cell of a packet to its place. -/
def State.writeSpot (s : State) (far : Bool) (who x : Nat) (bytes : List Byte) : State :=
  let a := s.spotAddr far x
  if far then
    (List.range 4).foldl (fun t i => t.farSend (a + 64 * i) (.spill who)) (s.emit (.memWrite true a bytes false))
  else s.dynRequests who 1 true true (fun b => leAt bytes (b - a) 64) 4 a

/-- The writes of the cells that a closed block or extent holds. -/
def State.writeBlock (s : State) (b : Spill) : State :=
  (s.leafQ b.leaf).foldl (fun t p =>
    if p.spilling = some (if b.far then 2 else 1) then
      (List.range p.spots.length).foldl (fun u k =>
        let x := p.spots.getD k 0
        if x / spillSize b.far = b.id then u.writeSpot b.far p.who x (p.cellBytes k) else u) t
    else t) s

/-- A block or extent is written out and takes no more cells. -/
def State.closeSpill (s : State) (b : Spill) : State :=
  (s.setSpills ((updFirst (fun c => c.far == b.far && c.id == b.id) (fun c => { c with isOpen := false }) s.buf.spills).filter
    fun c => c.isOpen || decide (0 < c.live))).writeBlock b

/-- The open blocks or extents of a leaf queue that satisfy a test are written out. -/
def State.closeWhere (s : State) (p : Spill → Bool) : State :=
  (s.buf.spills.filter fun b => b.isOpen && p b).foldl (fun t b => t.closeSpill b) s

/-! ### Cells ahead, memory failures -/

/-- The key of an endpoint's deficit; that of a group is its number. -/
def epDeficit (e : Nat) : Nat := 2 ^ 16 + e

/-- A leaf queue that is empty waits for nothing, and the deficits of nodes whose leaves are all empty are 0 (R323, R325). -/
def State.emptied (s : State) (l : Nat) : State :=
  if !(s.leafQ l).isEmpty then s
  else
    let s0 := s.clearWait l
    if isFabricLeaf l then s0
    else
      let s1 := s0.setDeficit (epDeficit l) 0
      match s.groupOf l with
      | some g => if s1.buf.leaves.any fun e => s1.groupOf e.1 == some g && !isFabricLeaf e.1 then s1 else s1.setDeficit g 0
      | none => s1

/-- The cells of a run of packets. -/
def cellsIn (q : List Pkt) : Nat := (q.map fun p => cellsOf p.len).sum

/-- The packets of a leaf queue with the cells that lie ahead of each. -/
def withAhead : List Pkt → Nat → List (Pkt × Nat)
  | [], _ => []
  | p :: ps, n => (p, n) :: withAhead ps (n + cellsOf p.len)

/-- A packet gives up its on-die cells and its places in the spill region. -/
def State.discard (s : State) (p : Pkt) : State :=
  let s1 := s.releaseCells p
  if p.spots.isEmpty then s1 else s1.releaseSpots (p.tier == 2 || p.spilling == some 2) p.spots

/-- The loss counter of a copy (R238, R286). -/
def State.copyLost (s : State) (p : Pkt) : State :=
  if p.copy = 1 then s.countAt R.SWC_REPL_LOST.COUNT 1 p.expo
  else if 512 ≤ p.copy then s.countAt (R.MIR_LOST.COUNT (p.copy - 512)) 1 p.expo
  else if 256 ≤ p.copy then s.wrap (R.SWC_REASON.LOST (p.copy - 256)) 1
  else s

/-- The port that a leaf queue leaves through. -/
def State.leafPort (s : State) (l : Nat) : Option (Nat × Nat) := (s.leafOut l).filter fun x => decide (x.1 < 96)

/-- The packet's port had no link at its release deadline: the link is down and went down no later (R309). -/
def State.linkBreach (s : State) (n : Nat) (p : Pkt) : Bool :=
  p.accepted && !s.linkUp n && decide (p.relNs ≤ s.ns) && decide (SMap.find (fun _ => 0) s.mac.fellNs n ≤ p.relNs + 1)

/-- The cause of a breach by memory failure: LINK goes before UNCORR (R309). -/
def State.failureCause (s : State) (p : Pkt) : Nat :=
  if (s.leafPort p.leaf).any fun x => s.linkBreach x.1 p then 0x18 else 0x19

/-- A packet with a memory failure: a breach with cause UNCORR when it was accepted (R282), unless LINK is its cause as well. -/
def State.memoryFailure (s : State) (n : Nat) (p : Pkt) : State :=
  let s1 := (s.sat R.BUF_ERR.UNCORR n).discard p
  if p.accepted then s1.breach (s.failureCause p) p else s1.copyLost p

/-! ### Joining a leaf queue (R277, R284, R307, R315, R325) -/

/-- The tier a packet spills to with `ahead` cells before it. -/
def State.spillTier (s : State) (p : Pkt) (ahead : Nat) : Nat :=
  let sp := s.get (R.BUF_CLASS.SPILL p.stamp.cls)
  if s.wmNext 520 = false ∨ sp = 0 ∨ ahead < s.get R.BUF_SPILL_CTRL.REFILL then 0
  else if s.wmNext 521 = false then 1
  else if sp = 2 ∧ s.wmNext 522 = false then 2 else 0

/-- A packet takes places for a spill; none when the region has none. -/
def State.startSpill (s : State) (leaf tier : Nat) (p : Pkt) : Option (State × Pkt) :=
  match s.giveSpots leaf (tier == 2) (cellsOf p.len) [] with
  | none => none
  | some (t, spots) =>
    let w := t.newWho
    some (w.2, { p with spilling := some tier, who := w.1, spots := spots })

/-- A packet joins a leaf queue, last. -/
def State.joinLeaf (s : State) (l : Nat) (p0 : Pkt) : State :=
  let q := s.leafQ l
  let base := match s.leafOut l with
    | some (o, c) => if o < 96 then s.holdClock o c else 0
    | none => 0
  let p : Pkt := { p0 with leaf := l, holdBase := base }
  let s0 := match s.leafOut l with
    | some (_, c) => if !isFabricLeaf l && c != p.stamp.cls then s.wrap R.COL_ERR.CLASS_MIX 1 else s
    | none => s
  let s1 := if q.isEmpty then s0.clearWait l else s0
  let tier := if p.marker || p.tier != 0 || p.spilling.isSome then 0 else s1.spillTier p (cellsIn q)
  match (if tier = 0 then none else s1.startSpill l tier p) with
  | some (t, r) =>
    let t1 := t.setLeafQ l (q ++ [r])
    t1.closeWhere fun b => (b.leaf == l && b.far && tier == 1) || b.used == spillSize b.far
  | none => (s1.setLeafQ l (q ++ [p])).closeWhere fun b => b.leaf == l

/-! ### Spill writes (R278, R280, R432) -/

/-- A spill write is cancelled: the on-die cells stay and the partial copy is discarded. -/
def State.cancelSpill (s : State) (p : Pkt) : State × Pkt :=
  let s1 := { s with mem := { s.mem with
    queue := s.mem.queue.filter fun r => r.who != p.who
    farWait := s.mem.farWait.filter fun w => w.kind != FarKind.spill p.who } }
  (s1.releaseSpots (p.spilling == some 2) p.spots, { p with spilling := none, spots := [] })

/-- Packets that have entered the refill window before their spill write completed keep their cells (R280). -/
def State.refillWindow (s : State) (l : Nat) : State :=
  let r := (withAhead (s.leafQ l) 0).foldl (fun (acc : State × List Pkt) x =>
    if x.1.spilling.isSome && decide (x.2 < s.get R.BUF_SPILL_CTRL.REFILL) then
      let c := acc.1.cancelSpill x.1
      (c.1, acc.2 ++ [c.2])
    else (acc.1, acc.2 ++ [x.1])) (s, [])
  r.1.setLeafQ l r.2

/-- Packets have left a leaf queue: those behind them may have entered the refill window, and the queue may be empty. -/
def State.leftLeaf (s : State) (l : Nat) : State := (s.refillWindow l).emptied l

/-- Every leaf queue looked at again once the refill window is another (R280). -/
def State.refillWindows (s : State) : State := s.buf.leaves.foldl (fun (t : State) e => t.refillWindow e.1) s

/-- The packet whose spill write has ended: the oldest of its queue whose blocks are all written out. -/
def State.spilled (s : State) (l : Nat) : Option Pkt :=
  (s.leafQ l).find? fun p => p.spilling.isSome && s.transferDone p.who &&
    s.buf.spills.all fun b => !(b.isOpen && b.far == (p.spilling == some 2) && p.spots.any fun x => x / spillSize b.far == b.id)

/-- Replaces a packet of a leaf queue. -/
def State.putLeaf (s : State) (l : Nat) (p : Pkt) : State := s.setLeafQ l (updFirst (fun q => q.id == p.id) (fun _ => p) (s.leafQ l))

/-- SPILL_WRITE_COMPLETE (R277, R280): the oldest spill write of a leaf queue has ended, and the cells are freed on-die; a
write that failed leaves its blocks failed (R432). -/
def execSpillWriteComplete (l : Nat) (s : State) : Out State :=
  complete (Instr.wf (.spillWriteComplete l)) s
    (match (if s.coreUp then (s.refillWindow l).spilled l else none) with
    | none => if s.coreUp then s.refillWindow l else s
    | some p =>
      let far := p.spilling == some 2
      let n := cellsOf p.len
      let s1 := ((s.refillWindow l).releaseCells p).putLeaf l
        { p with cells := [], xResv := 0, xShar := 0, spilling := none, tier := if far then 2 else 1 }
      let lost := s.mem.failed.contains p.who
      { s1 with buf := { s1.buf with
        spills := s1.buf.spills.map fun (b : Spill) =>
          if lost && b.far == far && p.spots.any fun x => x / spillSize far == b.id then { b with failed := true } else b
        winHbm := s1.buf.winHbm + (if far then 0 else n)
        winFar := s1.buf.winFar + (if far then n else 0) } })

/-- SPILL_BLOCK_FLUSH (R278): 10 µs without a further spilled packet. -/
def execSpillBlockFlush (block : Nat) (far : Bool) (s : State) : Out State :=
  complete (Instr.wf (.spillBlockFlush block far)) s
    (if s.coreUp then s.closeWhere fun b => b.id == block && b.far == far && decide (b.lastNs + 10000 ≤ s.ns) else s)

/-! ### Refill (R279, R282) -/

/-- The packet that a refill of a leaf queue may bring back now. -/
def State.toRefill (s : State) (l : Nat) : Option Pkt :=
  match (withAhead (s.leafQ l) 0).find? fun x => x.1.tier != 0 && !x.1.refilling with
  | some x => if x.2 < s.get R.BUF_SPILL_CTRL.REFILL then some x.1 else none
  | none => none

/-- The read of one place. -/
def State.readSpot (s : State) (far : Bool) (who x : Nat) : State :=
  let a := s.spotAddr far x
  if far then (List.range 4).foldl (fun t i => t.farSend (a + 64 * i) (.refill who)) (s.emit (.memRead true a 256))
  else s.dynRequests who 2 true false (fun _ => 0) 4 a

/-- REFILL_START (R279): a spilled packet in its refill window is read back into cells of the refill reserve. -/
def execRefillStart (l : Nat) (s : State) : Out State :=
  complete (Instr.wf (.refillStart l)) s
    (match (if s.coreUp then s.toRefill l else none) with
    | none => s
    | some p =>
      let n := cellsOf p.len
      if s.get R.BUF_SPILL_CTRL.REFILL_RES < s.buf.refillUsed + n ∨ s.freeCells < n then s
      else
        let w := s.newWho
        let t := w.2.takeCells p.owner p.acct (fun _ => 10) n []
        let t1 := (t.1.relink p.owner p.len t.2 0).putLeaf l { p with cells := t.2, refilling := true, who := w.1 }
        p.spots.foldl (fun u x => u.readSpot (p.tier == 2) w.1 x) t1)

/-- The failing blocks or extents that a refill met besides those named by its completion. -/
def State.failedBlocks (s : State) (p : Pkt) : Nat :=
  (s.buf.spills.filter fun b => b.failed && b.far == (p.tier == 2) && p.spots.any fun x => x / spillSize b.far == b.id).length +
    b2n (s.mem.failed.contains p.who)

/-- REFILL_COMPLETE (R279, R282): the oldest refill of a leaf queue has ended with `failures` blocks or extents in error. -/
def execRefillComplete (l failures : Nat) (s : State) : Out State :=
  complete (Instr.wf (.refillComplete l failures)) s
    (match (if s.coreUp then (s.leafQ l).find? fun p => p.refilling && s.transferDone p.who else none) with
    | none => s
    | some p =>
      let n := failures + s.failedBlocks p
      let s1 := { s with buf := { s.buf with winBack := s.buf.winBack + cellsOf p.len } }
      if n = 0 then
        (s1.releaseSpots (p.tier == 2) p.spots).putLeaf l { p with tier := 0, refilling := false, spots := [] }
      else
        ((s1.setLeafQ l ((s1.leafQ l).filter fun q => q.id != p.id)).memoryFailure n p).leftLeaf l)

/-! ### Throughput figures (R281) -/

/-- The cells that lie in the spill region and await refill. -/
def State.awaiting (s : State) : Nat :=
  (s.buf.leaves.map fun e => cellsIn (e.2.filter fun p => p.tier != 0)).sum

/-- SPILL_RATE_WINDOW (R281): a 10 µs window ends and its figures are reported. -/
def execSpillRateWindow (s : State) : Out State :=
  complete true s
    (if s.coreUp && decide (s.buf.winStart + 10000 ≤ s.ns) then
      let s1 := (((s.set R.BUF_SPILL_RATE.HBM_OUT (min s.buf.winHbm 65535)).set R.BUF_SPILL_RATE.FAR_OUT
        (min s.buf.winFar 65535)).set R.BUF_SPILL_RATE.REFILLED (min s.buf.winBack 65535)).set R.BUF_SPILL_RATE.WAITING
        (min s.awaiting 65535)
      { s1 with buf := { s1.buf with winHbm := 0, winFar := 0, winBack := 0, winStart := s1.ns } }
    else s)

end Sys2Proof.Machine
end

