-- ==== Sys2Proof/Machine/Tables.lean ====
section
/-! DEFINITION. Table lines and their parity, exact-match entries, and the read operations of the profiles (R190 to R198, R204 to
R212). -/
namespace Sys2Proof.Machine

/-! ### Lines (R190 to R193) -/

/-- The key of a line: tier 0 table SRAM, 1 HBM, 2 far. -/
def lineKey (tier line : Nat) : Nat := 2 ^ 40 * tier + line

/-- The key of a line of a table: that of a line in HBM carries the groups of the table's replicas, so that tables in other groups lie apart
from it (R411). -/
def State.tableKey (s : State) (t tier line : Nat) : Nat :=
  lineKey tier line + (if tier = 1 then 2 ^ 32 * s.get (R.HBM_REPL.GROUPS t) else 0)

/-- The line that a key names in its tier, and the groups of its replicas. -/
def keyLine (k : Nat) : Nat := if k / 2 ^ 40 = 1 then k % 2 ^ 32 else k % 2 ^ 40
def keyGroups (k : Nat) : List Nat := if k / 2 ^ 40 = 1 then (List.range 8).filter fun g => (k / 2 ^ 32).testBit g else []

/-- What a line holds; a line never written holds 0. -/
def State.tline (s : State) (k : Nat) : Nat := SMap.find (fun _ => 0) s.tbl.lines k

/-- The writes of a line on their way out: a forwarding write in every replica in HBM, a far write (R210, R415). -/
def State.lineWrites (s : State) (k v : Nat) : State :=
  match k / 2 ^ 40 with
  | 0 => s
  | 1 => s.forwardWrite (keyGroups k) (keyLine k)
  | _ => (s.emit (.memWrite true (64 * keyLine k) (leBytes 64 v) false)).farSend (64 * keyLine k) .table

/-- A line written in every replica (R210): its parity is good again. -/
def State.setTline (s : State) (k v : Nat) : State :=
  { s.lineWrites k v with tbl := { s.tbl with
      lines := s.tbl.lines.put (fun _ => 0) k v
      bad := s.tbl.bad.filter fun b => b % 2 ^ 48 / 8 != k } }

/-- Bytes of a line. -/
def lget (line off n : Nat) : Nat := bitsGet line (8 * off) (8 * n)
def lset (line off n v : Nat) : Nat := bitsSet line (8 * off) (8 * n) v

/-- The words of a line that fail parity in a replica. -/
def State.badWords (s : State) (rep k : Nat) : List Nat :=
  (List.range 8).filter fun w => s.tbl.bad.contains (2 ^ 48 * rep + 8 * k + w)

/-- The groups that hold a replica of a table (R411). -/
def State.replicas (s : State) (t : Nat) : List Nat := (List.range 8).filter fun g => (s.get (R.HBM_REPL.GROUPS t)).testBit g

/-- A table has as many replicas as TBL_DESC.REPL says: 2, 4 or 8 (R191, R411). -/
def State.factorKept (s : State) (t : Nat) : Bool :=
  let code := s.get (R.TBL_DESC.REPL t)
  code != 0 && (s.replicas t).length == 2 ^ code

/-- The capture of a bad entry, while VALID is 0 (R193). -/
def State.captureTbl (s : State) (t rep kind k : Nat) : State :=
  if s.bit R.TBL_PARITY_CAP.VALID then s
  else ((((((s.setWord 0x1A03208 0).set R.TBL_PARITY_CAP.VALID 1).set R.TBL_PARITY_CAP.TIER (k / 2 ^ 40)).set
    R.TBL_PARITY_CAP.REPLICA rep).set R.TBL_PARITY_CAP.TABLE t).set R.TBL_PARITY_CAP.KIND kind).set R.TBL_PARITY_CAP.LINE (keyLine k)

/-- A lookup meets `n` bad entries of a line (R193): each counted, captured and raised. -/
def State.meetBad (s : State) (t rep kind k : Nat) : Nat → State
  | 0 => s
  | n + 1 => (((s.wrap (R.TBL_ERRC.PARITY t) 1).captureTbl t rep kind k).raise 19 t).meetBad t rep kind k n

/-- A lookup meets `n` bad entries of a line (R193); a bad replica is rewritten from a good one, once for the line. -/
def State.badEntry (s : State) (t rep kind k n : Nat) : State :=
  let s1 := s.meetBad t rep kind k n
  if kind = 1 then s1
  else if k / 2 ^ 40 = 1 ∧ ((s.replicas t).any fun g => g != rep && (s.badWords g k).isEmpty) = true then
    { (s1.sat (R.TBL_ERRC.REPAIRED t) 1).forwardWrite [rep] (keyLine k) with tbl := { s1.tbl with
        bad := s1.tbl.bad.filter fun b => b / 2 ^ 48 != rep || b % 2 ^ 48 / 8 != k } }
  else s1.sat (R.TBL_ERRC.UNREPAIRED t) 1

/-- The group whose replica an HBM forwarding read of prism `p` takes (R410, R412, R424): its home group, unless its
pseudo-channel is in refresh or its stack retrains or has failed; none when the only group left has the line's bank under
refresh (R425). -/
def State.currentGroup (s : State) (p line : Nat) : Option Nat :=
  let home := p % 8
  let alt := (p + 4) % 8
  let busy (g : Nat) : Bool := SMap.find (fun _ => 0) s.mem.refresh (32 * g + line % 32) != 0
  let down (g : Nat) : Bool := s.get (R.HBM_STACK.STATE g) == 2
  let bankBusy (g : Nat) : Bool :=
    SMap.find (fun _ => 0) s.mem.refresh (32 * g + line % 32) == Config.hbmBank (line / 32) % 64 + 1
  if down home then (if bankBusy alt then none else some alt)
  else if down alt then (if bankBusy home then none else some home)
  else if busy home || s.get (R.HBM_STACK.STATE home) == 1 then some alt else some home

/-! ### Exact-match tables (R204 to R208) -/

/-- The 16-nibble words of a key of `n` nibbles, zero-padded to whole words, first word first. -/
def keyWords (key n : Nat) : List Nat :=
  let m := ceilDiv n 16
  let padded := key * 16 ^ (16 * m - n)
  (List.range m).map fun i => padded / 2 ^ (64 * (m - 1 - i)) % 2 ^ 64

/-- The keyed hash of R204. -/
def hashKey (seed key n : Nat) : Nat :=
  (keyWords key n).foldl (fun h w =>
    let x := (h ^^^ w) * 0x9E3779B97F4A7C15 % 2 ^ 64
    x ^^^ (x / 2 ^ 29)) seed

def State.seed (s : State) (t c : Nat) : Nat := SMap.find (fun _ => 0) s.tbl.seeds (2 * t + c)

/-- The candidate bucket of a choice, and the tag of a key. -/
def State.bucketOf (s : State) (t c key : Nat) : Nat :=
  hashKey (s.seed t c) key (s.get (R.TBL_DESC.KEYN t)) % 2 ^ s.get (R.TBL_DESC.BBITS t)
def State.tagOf (s : State) (t key : Nat) : Nat :=
  let g := hashKey (s.seed t 0) key (s.get (R.TBL_DESC.KEYN t)) / 2 ^ 32
  if g = 0 then 1 else g

/-- An entry of an exact-match table (R205, R206): its key of KEYN nibbles, result bytes, owner and flags. -/
structure Entry where
  key : Nat
  result : Nat
  owner : Nat
  flags : Nat
  deriving DecidableEq, Repr

def Entry.valid (e : Entry) : Bool := e.flags.testBit 0
def Entry.static (e : Entry) : Bool := e.flags.testBit 3
def Entry.born (e : Entry) : Bool := e.flags.testBit 4
def Entry.dying (e : Entry) : Bool := e.flags.testBit 5
def Entry.birth (e : Entry) : Nat := e.flags / 256 % 16
def Entry.death (e : Entry) : Nat := e.flags / 4096 % 16

/-- An entry is live at a version (R174, R207). -/
def Entry.live (e : Entry) (o v : Nat) : Bool :=
  e.valid && (!e.born || bornBy o e.birth v) && (!e.dying || notDead o e.death v)

/-- A field of network-order bytes in a line, and the same written. -/
def beField (line off n : Nat) : Nat := beVal (leBytes n (lget line off n))
def setBe (line off n v : Nat) : Nat := lset line off n (leVal (beBytes n v))

/-- The compact entry in way `w` of a bucket line; `n` is KEYN (R205). -/
def compactGet (line w n : Nat) : Entry :=
  ⟨beField line (16 * w) 8 / 16 ^ (16 - n), lget line (16 * w + 8) 3, lget line (16 * w + 11) 3 % 2 ^ 21, lget line (16 * w + 14) 2⟩
def compactPut (line w n : Nat) (e : Entry) : Nat :=
  lset (lset (lset (setBe line (16 * w) 8 (e.key * 16 ^ (16 - n))) (16 * w + 8) 3 e.result) (16 * w + 11) 3 e.owner) (16 * w + 14) 2 e.flags

/-- The wide record of a line (R206). -/
def recordGet (line n : Nat) : Entry :=
  ⟨beField line 0 40 / 16 ^ (80 - n), lget line 40 16, lget line 56 3 % 2 ^ 21, lget line 60 2⟩
def recordPut (n : Nat) (e : Entry) : Nat :=
  lset (lset (lset (setBe 0 0 40 (e.key * 16 ^ (80 - n))) 40 16 e.result) 56 3 e.owner) 60 2 e.flags

/-- The index way of a wide table: tag, record, valid. -/
def indexGet (line w : Nat) : Nat × Nat × Bool := (lget line (16 * w) 4, lget line (16 * w + 4) 4, (lget line (16 * w + 8) 1).testBit 0)
def indexPut (line w tag rec_ : Nat) (valid : Bool) : Nat :=
  lset line (16 * w) 16 (if valid then tag + rec_ * 2 ^ 32 + 2 ^ 64 else 0)

/-- The line key of a bucket, and of a wide record. -/
def State.bucketKey (s : State) (t b : Nat) : Nat := s.tableKey t (s.get (R.TBL_DESC.TIER t)) (s.get (R.TBL_DESC.BASE t) + b)
def State.recordKey (s : State) (t r : Nat) : Nat := s.bucketKey t (2 ^ s.get (R.TBL_DESC.BBITS t) + r)

/-! ### Tries (R194 to R198) -/

/-- S_i of a trie's level (1 to 8), and the tier of its child lines. -/
def State.stride (s : State) (t i : Nat) : Nat := s.get (R.TBL_PLAN.LEVELS t) / 2 ^ (3 * i - 3) % 4 + 1
def State.childTier (s : State) (t i : Nat) : Nat := s.get (R.TBL_PLAN.LEVELS t) / 2 ^ (3 * i - 1) % 2

/-- The start of a trie's region in a tier. -/
def State.regionStart (s : State) (t tier : Nat) : Nat := if tier = 0 then s.get (R.TBL_DESC.BASE t) else s.get (R.TBL_PLAN.HBASE t)

/-- The nibbles of the key before a level. -/
def State.levelStart (s : State) (t i : Nat) : Nat :=
  s.get (R.TBL_PLAN.R t) + ((List.range (i - 1)).map fun k => s.stride t (k + 1)).sum

/-- The kind of a trie line: 1 DENSE, 2 SPARSE, 3 LEAF. -/
def lineKind (line : Nat) : Nat := line % 16

/-- A root line that no prefix has touched is a no-route leaf: every root line stands for a node or a leaf (R195, R198). -/
def nodeOrLeaf (line : Nat) : Nat := if line = 0 then 3 else line

/-- The child of a node for the value `x` of its level (R197). -/
def childOf (line x : Nat) : Nat :=
  let base := lget line 4 4
  if lineKind line = 1 then base + ((List.range (x + 1)).filter fun i => line.testBit (256 + i)).length - 1
  else base + ((List.range (lget line 2 1)).filter fun i => decide (lget line (8 + 2 * i) 2 ≤ x)).length

/-- Side B of a leaf applies at a version (R198). -/
def sideB (line o v : Nat) : Bool := line.testBit 6 && bornBy o (lget line 1 1 % 16) v

/-- What the window shows of a line that a trie read returns: status and line (R198). -/
def trieResult (line o v : Nat) : Nat × Nat :=
  if lineKind line ≠ 3 then (8, line)
  else if sideB line o v then (if line.testBit 5 then 12 else 8, lset line 8 28 (lget line 36 28))
  else (if line.testBit 4 then 12 else 8, line)

/-! ### Read operations (R194, R207, R209) -/

/-- What a table read accesses: nothing, with the window left as it is or set; or a line. -/
inductive TblAccess where
  | leave
  | none_ (status value : Nat)
  | stride
  | line (key : Nat)
  deriving DecidableEq, Repr

/-- The window's bytes as a line number. -/
def windowLine (win : Nat) : Nat := leVal (beBytes 64 win)

/-- The line a read of profile (k, j) accesses (R194): `key` its KEYN nibbles, `win` and `st` the window WIN and its status at
issue. -/
def State.tblAccess (s : State) (k j key win st : Nat) : TblAccess :=
  let t := s.get (R.TBL_PROF.TABLE k j)
  let lvl := s.get (R.TBL_PROF.LEVEL k j)
  let n := s.get (R.TBL_PROF.KEYN k j)
  let tier := s.get (R.TBL_DESC.TIER t)
  let base := s.get (R.TBL_DESC.BASE t)
  match s.get (R.TBL_PROF.OP k j) with
  | 1 => if key < 2 ^ s.get (R.TBL_DESC.BBITS t) then .line (s.tableKey t tier (base + key)) else .none_ 8 0
  | 2 => .line (lineKey 0 (base + key / 16 ^ (n - s.get (R.TBL_PLAN.R t))))
  | 3 =>
    let node := windowLine win
    let x := key / 16 ^ (n - s.levelStart t lvl - s.stride t lvl) % 16 ^ s.stride t lvl
    if st.testBit 1 || lineKind node == 3 then .leave
    else if (lineKind node ≠ 1 ∧ lineKind node ≠ 2) ∨ lget node 1 1 ≠ s.stride t lvl then .stride
    else .line (s.tableKey t (s.childTier t lvl) (s.regionStart t (s.childTier t lvl) + childOf node x))
  | 4 => .line (s.bucketKey t (s.bucketOf t lvl key))
  | 5 => if st.testBit 2 then .line (s.recordKey t (win / 16 ^ 120)) else .none_ 8 0
  | 6 => .line (s.tableKey t 1 (base + 4 * key + lvl))
  | _ => .none_ 8 0

/-- The ways of a bucket whose words are good, and whether some valid one is bad. -/
def goodWays (bad : List Nat) : List Nat := (List.range 4).filter fun w => !(bad.contains (2 * w) || bad.contains (2 * w + 1))

/-- A read's answer: status, window, the entry that it hit (its way and key), and how many bad entries it met. -/
structure Answer where
  status : Nat
  value : Nat
  hit : Option (Nat × Nat) := none
  bad : Nat := 0
  deriving DecidableEq, Repr

/-- The answer of a bad entry. -/
def Answer.absent : Answer := { status := 10, value := 0, bad := 1 }

/-- The answer of a read of profile (k, j) from the line it accessed, at version `v`; `bad` lists the line's bad words. -/
def State.tblAnswer (s : State) (k j key v lk line : Nat) (bad : List Nat) : Answer :=
  let t := s.get (R.TBL_PROF.TABLE k j)
  let n := s.get (R.TBL_PROF.KEYN k j)
  let o := s.oldest
  let pe := if bad.isEmpty then 0 else 2
  let badWays := 4 - (goodWays bad).length
  match s.get (R.TBL_PROF.OP k j) with
  | 1 | 6 => if bad.isEmpty then { status := 12, value := lineNibbles line } else .absent
  | 2 | 3 =>
    if bad.isEmpty then
      let r := trieResult (nodeOrLeaf line) o v
      { status := r.1, value := lineNibbles r.2 }
    else .absent
  | 4 =>
    let b := keyLine lk - s.get (R.TBL_DESC.BASE t)
    if s.get (R.TBL_DESC.KIND t) = 3 then
      match (goodWays bad).find? fun w => (indexGet line w).2.2 && (indexGet line w).1 == s.tagOf t key with
      | some w => { status := 12 + pe, value := (indexGet line w).2.1 * 16 ^ 120 + w * 16 ^ 119, bad := badWays }
      | none => { status := 8 + pe, value := 0, bad := badWays }
    else
      match (goodWays bad).find? fun w => (compactGet line w n).live o v && (compactGet line w n).key == key with
      | some w =>
        { status := 12 + pe
          value := beField line (16 * w) 16 * 16 ^ 96 + b * 16 ^ 88 + w * 16 ^ 87
          hit := some (w, key)
          bad := badWays }
      | none => { status := 8 + pe, value := 0, bad := badWays }
  | 5 =>
    if bad.isEmpty then
      let e := recordGet line n
      if e.key = key ∧ e.live o v = true then { status := 12, value := lineNibbles line, hit := some (4, key) }
      else { status := 8, value := 0 }
    else .absent
  | _ => { status := 8, value := 0 }

/-- The hit write that a hit posts on an entry of a table with AGE = 1 (R211). -/
def State.postHit (s : State) (t lk : Nat) (hit : Option (Nat × Nat)) : State :=
  match hit with
  | some (w, key) =>
    if s.bit (R.TBL_DESC.AGE t) then { s with tbl := { s.tbl with hits := s.tbl.hits ++ [(t, 8 * lk + w, key)] } } else s
  | none => s

/-- A line read in one replica: the answer, and the state with its parity events and hit write. -/
def State.readLine (s : State) (k j key v rep lk : Nat) : Answer × State :=
  let t := s.get (R.TBL_PROF.TABLE k j)
  let a := s.tblAnswer k j key v lk (s.tline lk) (s.badWords rep lk)
  let s1 := if a.bad = 0 then s else s.badEntry t rep 0 lk a.bad
  (a, s1.postHit t lk a.hit)

/-! ### Learning (R212) -/

/-- A learn event joins the learn queue: whether it was queued without overwriting the oldest, and the state. -/
def State.postLearn (s : State) (e : LearnEvent) : Bool × State :=
  let q := fifoPush 8192 s.tbl.learn e
  let s1 := { s with tbl := { s.tbl with learn := q.1 } }.set R.TBL_LEARN.DEPTH q.1.length
  (q.2 == 0, if q.2 = 0 then s1 else s1.count R.TBL_LEARN_LOST.COUNT q.2)

end Sys2Proof.Machine
end

