-- ==== Sys2Proof/Machine/EditEngine.lean ====
section
/-! DEFINITION. The edit engine: edit lists and their operations, templates, and the crypto stage of IPsec ESP (R239 to R249). -/
namespace Sys2Proof.Machine

/-! ### What an operation works on -/

/-- A frame under edit, its FCS left out: the checksum accumulator of SET with ACC, and the bytes inserted and removed so far. -/
structure Edit where
  bytes : List Byte
  acc : Nat := 0
  inserted : Nat := 0
  removed : Nat := 0
  deriving DecidableEq, Repr

/-- What an operation comes to: the frame as it leaves it, or the reason of the verdict that replaces FORWARD (R235). -/
inductive Edited where
  | ok (e : Edit)
  | fail (reason : Nat)
  deriving DecidableEq, Repr

/-- Reasons the edit engine gives: PARITY, EDIT, TTL, MTU, ESP_AUTH, ESP_REPLAY, ESP_SEQ. -/
def rParity : Nat := 0x0A
def rEdit : Nat := 0x0B
def rTtl : Nat := 0x0C
def rMtu : Nat := 0x0D
def rEspAuth : Nat := 0x0E
def rEspReplay : Nat := 0x0F
def rEspSeq : Nat := 0x10

/-- The fields of an operation (R240). -/
def eOpc (w : Nat) : Nat := bitsGet w 58 6
def eArg (w : Nat) : Nat := bitsGet w 37 10
def eArgLen (w : Nat) : Nat := bitsGet w 31 6
def eTpl (w : Nat) : Nat := bitsGet w 16 15
def eParam (w : Nat) : Nat := w % 2 ^ 16

/-- The byte offset of an operation. -/
def eOff (v : Vect) (w : Nat) : Nat := if w.testBit 57 then bitsGet w 47 8 else vget v (bitsGet w 47 10) 2

/-- `n` bytes from `off` lie within bytes 0 to 255 (R241). -/
def inEdit (off n : Nat) : Bool := decide (off + n ≤ 256)

/-- The operation goes through when its checks hold. -/
def editIf (ok : Bool) (e : Edit) : Edited := if ok then .ok e else .fail rEdit

/-- Bytes inserted at `off`, and `n` bytes removed there. -/
def Edit.insert (e : Edit) (off : Nat) (x : List Byte) : Edit :=
  { e with bytes := e.bytes.take off ++ x ++ e.bytes.drop off, inserted := e.inserted + x.length }
def Edit.remove (e : Edit) (off n : Nat) : Edit :=
  { e with bytes := e.bytes.take off ++ e.bytes.drop (off + n), removed := e.removed + n }

/-- `k` bytes overwritten at `off` with `v` in network order. -/
def Edit.put (e : Edit) (off k v : Nat) : Edit := { e with bytes := putBe e.bytes off k v }

/-! ### Tags (R240) -/

/-- The TPID check of TAG_POP and TAG_SET. -/
def tpidGood (bytes : List Byte) (off param : Nat) : Bool :=
  let t := beAt bytes off 2
  if param = 0 then t == 0x8100 || t == 0x88A8 else t == param

def opTagPush (e : Edit) (off tci param : Nat) : Edited := .ok (e.insert off (beBytes 2 param ++ beBytes 2 tci))

def opTagPop (e : Edit) (off param : Nat) : Edited :=
  editIf (inEdit off 4 && tpidGood e.bytes off param) (e.remove off 4)

def opTagSet (e : Edit) (off tci param : Nat) : Edited :=
  editIf (inEdit off 4 && tpidGood e.bytes off param) (e.put (off + 2) 2 tci)

/-! ### MPLS (R242) -/

/-- The EtherType that an MPLS operation reads at OFF - 2, and whether it names MPLS. -/
def typeBefore (bytes : List Byte) (off : Nat) : Nat := beAt bytes (off - 2) 2
def isMpls (t : Nat) : Bool := t == 0x8847 || t == 0x8848

/-- Where the header at OFF keeps its TTL or hop limit: none when it is no MPLS, IPv4 or IPv6 header. -/
def ttlPlace (bytes : List Byte) (off : Nat) : Option Nat :=
  if isMpls (typeBefore bytes off) then some (off + 3)
  else match beAt bytes off 1 / 16 with
    | 4 => some (off + 8)
    | 6 => some (off + 7)
    | _ => none

/-- MPLS_PUSH: label, TC, S and TTL of the new entry; the EtherType becomes MPLS when it was none. -/
def opMplsPush (e : Edit) (off label param : Nat) : Edited :=
  let mpls := isMpls (typeBefore e.bytes off)
  let entry (ttl : Nat) : List Byte := beBytes 4 (label * 2 ^ 12 + param / 2 ^ 13 * 2 ^ 9 + b2n (!mpls) * 2 ^ 8 + ttl)
  let put (ttl : Nat) : Edit :=
    let e1 := if mpls then e else e.put (off - 2) 2 0x8847
    e1.insert off (entry ttl)
  if off < 2 ∨ inEdit off 0 = false then .fail rEdit
  else if param.testBit 8 then
    match ttlPlace e.bytes off with
    | some a => editIf (inEdit a 1) (put (beAt e.bytes a 1))
    | none => .fail rEdit
  else .ok (put (param % 256))

/-- MPLS_POP: the entry at OFF; the last one gives the frame PARAM as its EtherType. -/
def opMplsPop (e : Edit) (off param : Nat) : Edited :=
  let last := (beAt e.bytes (off + 2) 1).testBit 0
  editIf (decide (2 ≤ off) && inEdit off 4 && isMpls (typeBefore e.bytes off) && !(last && param == 0))
    ((if last then e.put (off - 2) 2 param else e).remove off 4)

/-- MPLS_SWAP: the label, and with PARAM bit 0 the TTL. -/
def opMplsSwap (e : Edit) (off label param : Nat) : Edited :=
  let old := beAt e.bytes off 4
  let e1 := e.put off 4 (bitsSet old 12 20 label)
  if off < 2 ∨ inEdit off 4 = false then .fail rEdit
  else if param.testBit 0 then (if old % 256 ≤ 1 then .fail rTtl else .ok (e1.put (off + 3) 1 (old % 256 - 1)))
  else .ok e1

/-! ### Encapsulation (R243) -/

/-- The one's complement sum of the 16-bit words of a header of `k` words. -/
def checkSum : Nat → Nat → Nat → Nat
  | 0, _, acc => acc
  | k + 1, x, acc => checkSum k (x / 65536) (checkAdd acc (x % 65536))

/-- The IPv4 header checksum at `off` computed anew. -/
def ipv4Check (bytes : List Byte) (off : Nat) : List Byte :=
  let n := 4 * (beAt bytes off 1 % 16)
  let b := putBe bytes (off + 10) 2 0
  putBe b (off + 10) 2 (65535 - checkSum (n / 2) (beAt b off n) 0)

/-- The length of the IP header at `off` set for a frame that ends with its bytes: total length with a new checksum for IPv4,
payload length for IPv6. -/
def ipLength (bytes : List Byte) (off : Nat) : List Byte :=
  let n := bytes.length - off
  if beAt bytes off 1 / 16 = 4 then ipv4Check (putBe bytes (off + 2) 2 n) off
  else if beAt bytes off 1 / 16 = 6 then putBe bytes (off + 4) 2 (n - 40) else bytes

/-- ENCAP: the template's bytes inserted, with VNI, lengths, checksums and the hashed source port. -/
def opEncap (e : Edit) (off vni param : Nat) (tpl : List Byte) : Edited :=
  let l := beAt tpl 0 1
  let at_ (i : Nat) : Option Nat := let x := beAt tpl i 1; if x = 255 then none else some (off + x)
  let hash := crc32c (slice e.bytes off 40) % 2 ^ 14
  let e1 := e.insert off (slice tpl 8 l)
  let b1 := match at_ 3 with | some a => putBe e1.bytes a 3 vni | none => e1.bytes
  let b2 := match at_ 1 with | some a => ipLength b1 a | none => b1
  let b3 := match at_ 2 with
    | some a =>
      let c := putBe (putBe b2 (a + 4) 2 (b2.length - a)) (a + 6) 2 0
      if param.testBit 0 then putBe c a 2 (0xC000 + hash) else c
    | none => b2
  editIf (inEdit off (if param.testBit 0 then 40 else 0) && decide (1 ≤ l ∧ l ≤ 120)) { e1 with bytes := b3 }

/-- DECAP: `n` bytes removed, PARAM written as the EtherType before them. -/
def opDecap (e : Edit) (off n param : Nat) : Edited :=
  let e1 := if param = 0 then e else e.put (off - 2) 2 param
  editIf (decide (1 ≤ n ∧ n ≤ 256) && inEdit off n && (param == 0 || decide (2 ≤ off))) (e1.remove off n)

/-- SRV6_NEXT: Segments Left falls, and the segment it then names becomes the destination address. -/
def opSrv6 (e : Edit) (off param : Nat) : Edited :=
  let srh := off + param % 256
  let left := beAt e.bytes (srh + 3) 1
  let seg := srh + 8 + 16 * (left - 1)
  editIf (inEdit off 40 && inEdit srh 4 && decide (1 ≤ left) && inEdit seg 16)
    ((e.put (srh + 3) 1 (left - 1)).put (off + 24) 16 (beAt e.bytes seg 16))

/-! ### Fields (R240, R244) -/

/-- The difference of `k` words added to the accumulator. -/
def accumulate : Nat → Nat → Nat → Nat → Nat
  | 0, _, _, acc => acc
  | k + 1, old, new, acc =>
    accumulate k (old / 65536) (new / 65536) (checkAdd (checkAdd acc (65535 - old % 65536)) (new % 65536))

/-- SET: `n` nibbles from the high nibble of byte OFF. -/
def opSet (e : Edit) (off n value param : Nat) : Edited :=
  let b := ceilDiv n 2
  let old := beAt e.bytes off b
  let new := if n % 2 = 0 then value else value * 16 + old % 16
  let e1 := e.put off b new
  let lo := off - off % 2
  let words := ceilDiv (off + b - lo) 2
  let acc := if param.testBit 0 then accumulate words (beAt e.bytes lo (2 * words)) (beAt e1.bytes lo (2 * words)) e.acc else e.acc
  editIf (inEdit off b) { e1 with acc := acc }

/-- HOP: the TTL or hop limit of the header at OFF. -/
def opHop (e : Edit) (off param : Nat) : Edited :=
  let place := match param with | 4 => some (off + 8) | 6 => some (off + 7) | 8 => some (off + 3) | _ => none
  match place with
  | none => .fail rEdit
  | some a =>
    let ttl := beAt e.bytes a 1
    if inEdit off (if param = 4 then 12 else a + 1 - off) = false then .fail rEdit
    else if ttl ≤ 1 then .fail rTtl
    else
      let e1 := e.put a 1 (ttl - 1)
      if param = 4 then
        .ok (e1.put (off + 10) 2 (checkUpdate (beAt e.bytes (off + 10) 2) 1 (beAt e.bytes a 2) (beAt e1.bytes a 2)))
      else .ok e1

/-- CSUM_ADJ: the accumulator applied to the checksum at OFF. -/
def opCsumAdj (e : Edit) (off param : Nat) : Edited :=
  let hc := beAt e.bytes off 2
  let new := 65535 - checkAdd (65535 - hc) e.acc
  let e1 := if param.testBit 0 then (if hc = 0 then e else e.put off 2 (if new = 0 then 0xFFFF else new)) else e.put off 2 new
  editIf (inEdit off 2) { e1 with acc := if param.testBit 1 then 0 else e.acc }

/-- An operation that needs neither a template nor the crypto stage; a reserved OPC fails. -/
def plainOp (v : Vect) (w : Nat) (e : Edit) : Edited :=
  let off := eOff v w
  let arg (n : Nat) : Nat := vget v (eArg w) n
  let param := eParam w
  match eOpc w with
  | 0x01 => opTagPush e off (arg 4) param
  | 0x02 => opTagPop e off param
  | 0x03 => opTagSet e off (arg 4) param
  | 0x08 => opMplsPush e off (arg 5) param
  | 0x09 => opMplsPop e off param
  | 0x0A => opMplsSwap e off (arg 5) param
  | 0x11 => opDecap e off (arg (eArgLen w)) param
  | 0x12 => opSrv6 e off param
  | 0x18 => opSet e off (eArgLen w) (arg (eArgLen w)) param
  | 0x19 => opHop e off param
  | 0x1A => opCsumAdj e off param
  | _ => .fail rEdit

/-! ### ESP (R246 to R248) -/

/-- The IP header that an ESP operation fixes, when it names one: none when it would lie before the frame. -/
def espHeader (off param : Nat) : Option (Option Nat) :=
  let x := bitsGet param 9 6
  if x = 0 then some none else if 2 * x ≤ off then some (some (off - 2 * x)) else none

/-- The padding of `n` bytes with its two trailer bytes, to a multiple of 4 (RFC 4303). -/
def espTrailer (n nh : Nat) : List Byte :=
  let pad := (4 - (n + 2) % 4) % 4
  ((List.range pad).map fun i => BitVec.ofNat 8 (i + 1)) ++ [BitVec.ofNat 8 pad, BitVec.ofNat 8 nh]

/-- The additional data of ESP under RFC 4106: SPI and sequence, 64 bits of it with ESN. -/
def espAad (spi seq : Nat) (esn : Bool) : List Byte := beBytes 4 spi ++ (if esn then beBytes 8 seq else beBytes 4 seq)

/-- Outbound: the frame protected with sequence `seq`. -/
def espSeal (key salt : List Byte) (spi seq : Nat) (esn : Bool) (off param : Nat) (e : Edit) : Edit :=
  let rest := e.bytes.drop off
  let plain := rest ++ espTrailer rest.length (param % 256)
  let iv := beBytes 8 seq
  let esp := beBytes 4 spi ++ beBytes 4 seq ++ iv ++ gcmSeal key (salt ++ iv) (espAad spi seq esn) plain
  let udp := if param.testBit 8 then beBytes 2 4500 ++ beBytes 2 4500 ++ beBytes 2 (8 + esp.length) ++ beBytes 2 0 else []
  let b := e.bytes.take off ++ udp ++ esp
  { e with bytes := match espHeader off param with | some (some h) => ipLength b h | _ => b }

/-- The sequence that the low 32 bits of a received one stand for, against the highest accepted (RFC 4303, window 1,024). -/
def espSeq (esn : Bool) (high low : Nat) : Nat :=
  let th := high / 2 ^ 32
  let tl := high % 2 ^ 32
  if !esn then low
  else if 1023 ≤ tl then (if tl - 1023 ≤ low then th * 2 ^ 32 + low else (th + 1) * 2 ^ 32 + low)
  else if 2 ^ 32 + tl - 1023 ≤ low then (th - 1) * 2 ^ 32 + low else th * 2 ^ 32 + low

/-- The window refuses a sequence: 0, left of it, or marked. Bit seq mod 1,024 of the bitmap marks a sequence. -/
def espReplayed (high bitmap seq : Nat) : Bool :=
  seq == 0 || decide (seq + 1024 ≤ high) || (decide (seq ≤ high) && bitmap.testBit (seq % 1024))

/-- The window after an accepted sequence: what it passes is unmarked. -/
def espWindow (high bitmap seq : Nat) : Nat × Nat :=
  if seq ≤ high then (high, bitmap ||| 2 ^ (seq % 1024))
  else
    let b := if high + 1024 ≤ seq then 0
      else (List.range (seq - high)).foldl (fun m i => bitsSet m ((high + 1 + i) % 1024) 1 0) bitmap
    (seq, b ||| 2 ^ (seq % 1024))

/-- The frame after decryption: ESP header, IV, trailer and ICV removed, and its EtherType or IP header repaired. -/
def espOpened (off param : Nat) (e : Edit) (plain : List Byte) : Edited :=
  let nh := beAt plain (plain.length - 1) 1
  let pad := beAt plain (plain.length - 2) 1
  let start := if param.testBit 8 then off - 8 else off
  let b := e.bytes.take start ++ plain.take (plain.length - 2 - pad)
  if param.testBit 7 then
    (if 2 ≤ start ∧ (nh = 4 ∨ nh = 41) then .ok { e with bytes := putBe b (start - 2) 2 (if nh = 4 then 0x0800 else 0x86DD) }
     else .fail rEdit)
  else match espHeader off param with
    | none => .fail rEdit
    | some none => .ok { e with bytes := b }
    | some (some h) =>
      let b1 := putBe b (if beAt b h 1 / 16 = 4 then h + 9 else h + 6) 1 nh
      .ok { e with bytes := ipLength b1 h }

/-- The key of line `i` of a security association. -/
def State.saKey (s : State) (sa i : Nat) : Nat := s.tableKey (s.get R.SEC_EDIT.SA_TABLE) 1 (s.get (R.TBL_DESC.BASE (s.get R.SEC_EDIT.SA_TABLE)) + 4 * sa + i)

/-- The crypto stage on the last operation of a list. -/
def State.espOp (s : State) (v : Vect) (w : Nat) (e : Edit) : Edited × State :=
  let t := s.get R.SEC_EDIT.SA_TABLE
  let sa := vget v (eArg w) 5
  let off := eOff v w
  let param := eParam w
  let k := s.saKey sa
  let bad := (List.range 4).find? fun i => !(s.badWords 0 (k i)).isEmpty
  let l0 := s.tline (k 0)
  let flags := lget l0 48 1
  let inbound := param.testBit 15
  let esn := flags / 4 % 2 == 1
  let key := leBytes 32 (lget l0 0 32)
  let salt := leBytes 4 (lget l0 32 4)
  let spi := beField l0 36 4
  let seq := lget l0 40 8
  let setSeq (u : State) (x : Nat) : State := u.setTline (k 0) (lset l0 40 8 x)
  if t = 255 ∨ 2 ^ s.get (R.TBL_DESC.BBITS t) ≤ 4 * sa + 3 then (.fail rEdit, s)
  else match bad with
  | some i => (.fail rParity, s.badEntry t 0 0 (k i) 1)
  | none =>
    if flags % 2 = 0 ∨ (flags / 2 % 2 == 1) ≠ inbound ∨
        (espHeader off param = none ∧ (inbound && param.testBit 7) = false) then (.fail rEdit, s)
    else if inbound = false then
      (if (esn = false ∧ 2 ^ 32 ≤ seq) ∨ (esn = true ∧ seq = 2 ^ 64 - 1) then (.fail rEspSeq, s)
       else if inEdit off 0 = false then (.fail rEdit, s)
       else (.ok (espSeal key salt spi seq esn off param e), setSeq s (seq + 1)))
    else
      let low := beAt e.bytes (off + 4) 4
      let n := espSeq esn seq low
      let bitmap := lget (s.tline (k 2)) 0 64 + lget (s.tline (k 3)) 0 64 * 2 ^ 512
      let iv := slice e.bytes (off + 8) 8
      if inEdit off 16 = false ∨ (param.testBit 8 = true ∧ off < 8) then (.fail rEdit, s)
      else if beAt e.bytes off 4 ≠ spi then (.fail rEspAuth, s)
      else if espReplayed seq bitmap n then (.fail rEspReplay, s)
      else match gcmOpen key (salt ++ iv) (espAad spi n esn) (e.bytes.drop (off + 16)) with
        | none => (.fail rEspAuth, s)
        | some plain =>
          let x := espWindow seq bitmap n
          let s1 := ((setSeq s x.1).setTline (k 2) (x.2 % 2 ^ 512)).setTline (k 3) (x.2 / 2 ^ 512 % 2 ^ 512)
          (espOpened off param e plain, s1)

/-! ### Lists (R239 to R241) -/

/-- The line `i` of a direct table: its key, none beyond the table. -/
def State.directKey (s : State) (t i : Nat) : Option Nat :=
  if i < 2 ^ s.get (R.TBL_DESC.BBITS t) then some (s.tableKey t (s.get (R.TBL_DESC.TIER t)) (s.get (R.TBL_DESC.BASE t) + i)) else none

/-- A line of a direct table read by the edit engine or the switch core: its content, or PARITY, or EDIT beyond the table. -/
def State.directLine (s : State) (t i : Nat) : (Nat ⊕ Nat) × State :=
  match s.directKey t i with
  | none => (.inl rEdit, s)
  | some k => if (s.badWords 0 k).isEmpty then (.inr (s.tline k), s) else (.inl rParity, s.badEntry t 0 0 k 1)

/-- One operation of a list, `last` the last of it. -/
def State.editOp (s : State) (v : Vect) (w : Nat) (last : Bool) (e : Edit) : Edited × State :=
  if eOpc w = 0x20 then (if last then s.espOp v w e else (.fail rEdit, s))
  else if eOpc w = 0x10 then
    let t := s.get R.SEC_EDIT.TPL_TABLE
    match s.directLine t (2 * eTpl w) with
    | (.inl r, s1) => (.fail r, s1)
    | (.inr a, s1) =>
      match s1.directLine t (2 * eTpl w + 1) with
      | (.inl r, s2) => (.fail r, s2)
      | (.inr b, s2) => (opEncap e (eOff v w) (vget v (eArg w) 6) (eParam w) (leBytes 64 a ++ leBytes 64 b), s2)
  else (plainOp v w e, s)

/-- The operations in order: the frame, or the operation that failed and its reason. -/
def State.editOps (s : State) (v : Vect) (line n : Nat) : Nat → Nat → Edit → (Edit ⊕ (Nat × Nat)) × State
  | 0, _, e => (.inl e, s)
  | k + 1, i, e =>
    match s.editOp v (lget line (8 + 8 * i) 8) (i + 1 == n) e with
    | (.ok e1, s1) => s1.editOps v line n k (i + 1) e1
    | (.fail r, s1) => (.inr (i, r), s1)

/-- The first failing edit is captured while VALID is 0 (R241). -/
def State.captureEdit (s : State) (reason prism op list : Nat) : State :=
  if s.bit R.SEC_EDIT_CAP.VALID then s
  else ((((s.set R.SEC_EDIT_CAP.VALID 1).set R.SEC_EDIT_CAP.REASON reason).set R.SEC_EDIT_CAP.PRISM (prism % 16)).set
    R.SEC_EDIT_CAP.OP (op % 8)).set R.SEC_EDIT_CAP.LIST list

/-- The edit list of index `list` applied to a frame: reason 0 and the edited frame, or the reason and the frame as it was. -/
def State.applyEdits (s : State) (prism : Nat) (v : Vect) (list : Nat) (bytes : List Byte) : Nat × List Byte × State :=
  if list = 0 then (0, bytes, s)
  else match s.directLine (s.get R.SEC_EDIT.LIST_TABLE) list with
    | (.inl r, s1) => (r, bytes, s1.captureEdit r prism 0 list)
    | (.inr line, s1) =>
      let n := lget line 0 1
      if 7 < n then (rEdit, bytes, s1.captureEdit rEdit prism 0 list)
      else match s1.editOps v line n n 0 { bytes := bytes } with
        | (.inr (i, r), s2) => (r, bytes, s2.captureEdit r prism i list)
        | (.inl e, s2) =>
          if e.removed + 240 < e.inserted then (rEdit, bytes, s2.captureEdit rEdit prism (n - 1) list) else (0, e.bytes, s2)

end Sys2Proof.Machine
end

