-- ==== Sys2Proof/Machine/Iris.lean ====
section
/-! DEFINITION. Fabric links: cells and their CRC, transmission, acknowledgement, credit, roll-call, retrains, link down,
the dying gasp (R330 to R353). -/
namespace Sys2Proof.Machine

/-! ### The cell (R334, R335) -/

/-- The first 12 header bytes of a cell. -/
def headerBytes (type : Nat) (c : FCell) : List Byte :=
  beBytes 12 (type * 2 ^ 93 + c.dst * 2 ^ 81 + c.src * 2 ^ 69 + c.queue * 2 ^ 53 + c.cls * 2 ^ 50 + b2n c.first * 2 ^ 49 +
    b2n c.last * 2 ^ 48 + c.fill * 2 ^ 40 + c.seq * 2 ^ 24 + c.deadline)

/-- The CRC of a cell under a 3 B prefix. -/
def cellCrc (pre : List Byte) (head payload : List Byte) : Nat := crc32c (pre ++ head ++ payload)

/-- The prefix of a sequenced cell, and of any other. -/
def seqPrefix (lseq : Nat) : List Byte := beBytes 3 (2 ^ 16 + lseq % 2 ^ 16)
def plainPrefix : List Byte := beBytes 3 0

/-- The 272 B of a sequenced cell: DATA or MARKER. -/
def FCell.bytes (c : FCell) (lseq : Nat) : List Byte :=
  let h := headerBytes (if c.marker then 2 else 1) c
  let pl := slice c.payload 0 256
  h ++ beBytes 4 (cellCrc (seqPrefix lseq) h pl) ++ pl

/-- The 272 B of a CTRL (3) or GASP (4) cell; only SRC_DEV of a GASP cell is not 0. -/
def unsequenced (type src : Nat) (payload : List Byte) : List Byte :=
  let h := beBytes 12 (type * 2 ^ 93 + src * 2 ^ 69)
  let pl := slice payload 0 256
  h ++ beBytes 4 (cellCrc plainPrefix h pl) ++ pl

/-- The header of a received cell as a number of 96 bits, its fields, and the cell. -/
def cellHead (bs : List Byte) : Nat := beAt bs 0 12
def cellType (bs : List Byte) : Nat := bitsGet (cellHead bs) 93 3
def cellOf (bs : List Byte) : FCell :=
  let h := cellHead bs
  { marker := cellType bs == 2, dst := bitsGet h 81 12, src := bitsGet h 69 12, queue := bitsGet h 53 16, cls := bitsGet h 50 3,
    first := h.testBit 49, last := h.testBit 48, fill := bitsGet h 40 8, seq := bitsGet h 24 16, deadline := h % 2 ^ 24,
    payload := bs.drop 16 }

/-- The CRC of a received cell is good under a prefix. -/
def crcMatches (pre : List Byte) (bs : List Byte) : Bool := cellCrc pre (bs.take 12) (bs.drop 16) == beAt bs 12 4

/-! ### Registers that follow the link -/

/-- IRIS_CREDIT.AVAIL and IRIS_RETRY.QUEUED as they stand. -/
def State.syncIris (s : State) (i : Nat) : State :=
  let x := s.iris i
  (s.set (R.IRIS_CREDIT.AVAIL i) ((x.peerTotal + 65536 - x.next) % 65536)).set (R.IRIS_RETRY.QUEUED i) x.queue.length

def State.irisState (s : State) (i : Nat) : Nat := s.get (R.IRIS_STATUS.STATE i)

/-- The address in force, when it is valid. -/
def State.ownAddr (s : State) : Option Nat := if s.get R.FAB_ADDR.STATE = 2 then some (s.get R.FAB_ADDR.ADDR) else none

/-- The addresses of this device: the one in force, and a previous one for 10 ms after a change (R361, R362). -/
def State.forMe (s : State) (d : Nat) : Bool :=
  s.ownAddr == some d || s.fab.previous.any fun p => p.1 == d && decide (s.ns < p.2)

/-- The unique id of the device. -/
def State.uid (s : State) : Nat := (s.word 8).toNat

/-! ### Sending (R336, R340, R345) -/

/-- A cell's reference to packet memory ends: a reference-counted cell loses one, the owner's cell is freed. -/
def State.dropCell (s : State) (i : Nat) : State :=
  let w := s.link i
  s.releaseCell (if linkOwned w then linkTag w else 291) i

/-- Sends a new sequenced cell on an iris and keeps it in the retransmit queue. -/
def State.sendOn (s : State) (i : Nat) (c : FCell) (mem relayFrom firstNs : Option Nat) : State :=
  let x := s.iris i
  let e : TxEntry := ⟨x.next, c, firstNs.getD s.ns, mem, relayFrom⟩
  let y := { x with
    next := wrapAdd 16 x.next 1
    queue := x.queue ++ [e]
    markNs := if x.queue.isEmpty then s.ns else x.markNs }
  ((s.setIris i y).emit (.cell i (c.bytes x.next))).syncIris i

/-- A timestamp as TSYNC and TREPLY carry it: units of 2^-16 ns (R377). -/
def State.stamp64 (s : State) : Nat := s.tb / 2 ^ 24 % 2 ^ 64

/-- A payload with a timestamp at byte `o`. -/
def stampAt (pl : List Byte) (o t : Nat) : List Byte := pl.take o ++ leBytes 8 t ++ pl.drop (o + 8)

/-- A link-scoped cell as it leaves: a TSYNC takes t1 and a TREPLY t3 then (R377). -/
def State.stamped (s : State) (c : FCell) : FCell :=
  match leAt c.payload 0 1 with
  | 2 => { c with payload := stampAt c.payload 8 s.stamp64 }
  | 3 => { c with payload := stampAt c.payload 24 s.stamp64 }
  | _ => c

/-- The link-scoped cells of an iris that wait for credit are sent, as far as it goes (R354). -/
def State.drainLink (s : State) (i : Nat) : Nat → State
  | 0 => s
  | fuel + 1 =>
    match (s.iris i).linkCells with
    | [] => s
    | c :: cs =>
      if s.irisTakes i then
        ((s.setIris i { s.iris i with linkCells := cs }).sendOn i (s.stamped c) none none none).drainLink i fuel else s

/-- A link-scoped cell is sent on an iris, ahead of every other sequenced cell (R354). -/
def State.sendLink (s : State) (i : Nat) (payload : List Byte) : State :=
  let c : FCell := { src := (s.ownAddr).getD 0, queue := 0xFFFF, cls := 7, payload := slice payload 0 256 }
  let s1 := s.setIris i { s.iris i with linkCells := (s.iris i).linkCells ++ [c] }
  s1.drainLink i ((s1.iris i).linkCells.length)

/-! ### CTRL cells (R338) -/

/-- A record that comes due for the next CTRL cell. -/
def State.due (s : State) (i : Nat) (r : List Byte) : State :=
  s.setIris i { s.iris i with records := (s.iris i).records ++ [slice r 0 16] }

/-- CALL (1) or ECHO (2) with a tag. -/
def State.callRecord (s : State) (kind tag : Nat) : List Byte :=
  record 16 [(0, 1, kind), (1, 2, tag), (4, 8, s.uid),
    (12, 2, match s.ownAddr with | some a => a + 2 ^ 15 | none => 0)]

/-- The payload of a CTRL cell, and the records it leaves for the next. -/
def State.ctrlPayload (s : State) (i : Nat) : List Byte :=
  let x := s.iris i
  let rs := x.records.take 15
  record 16 [(0, 2, (x.exp + 65535) % 65536), (2, 2, x.creditTotal), (4, 1, b2n x.nackOpen), (5, 1, rs.length)] ++ rs.flatten

/-- Sends a CTRL cell. -/
def State.sendCtrl (s : State) (i : Nat) : State :=
  let x := s.iris i
  (s.setIris i { x with records := x.records.drop 15, ctrlNs := s.ns, ackSent := x.exp }).emit (.cell i (unsequenced 3 0 (s.ctrlPayload i)))

/-- Sends CTRL cells until no record is due. -/
def State.flushCtrl (s : State) (i : Nat) : State :=
  (List.range (ceilDiv (s.iris i).records.length 15)).foldl (fun t _ => t.sendCtrl i) s

/-- Irises send and answer cells only in SERVE and HOLD-UP (R332). -/
def State.irisesRun (s : State) : Bool := s.mode == .serve || (s.mode == .holdUp && !s.power.isolated)

/-- IRIS_CTRL_SEND (R338): an iris in TRAINING, UP or DRAINING sends a CTRL cell. -/
def execIrisCtrlSend (i : Nat) (s : State) : Out State :=
  complete (Instr.wf (.irisCtrlSend i)) s
    (if s.irisesRun && decide (1 ≤ s.irisState i ∧ s.irisState i ≤ 3) then s.sendCtrl i else s)

/-! ### Acknowledgement and replay (R341, R342) -/

/-- Releases the entries from MARK up to an acknowledged sequence; a stale one releases nothing. -/
def State.ackTo (s : State) (i ack : Nat) : State :=
  let x := s.iris i
  let k := (ack + 65536 + 1 - x.mark) % 65536
  if k = 0 ∨ x.queue.length < k then s
  else
    let y := { x with queue := x.queue.drop k, mark := (ack + 1) % 65536, markNs := s.ns }
    ((x.queue.take k).foldl (fun t e => match e.mem with | some m => t.dropCell m | none => t) (s.setIris i y)).syncIris i

/-- Resends the queued cells from a sequence on, in order. -/
def State.rewind (s : State) (i from_ : Nat) : State :=
  let x := s.iris i
  let es := x.queue.filter fun e => decide ((e.lseq + 65536 - x.mark) % 65536 ≥ (from_ + 65536 - x.mark) % 65536)
  let s1 := (s.setIris i { x with replay := some (from_, s.ns) }).sat (R.IRIS_ERR.REWINDS i) 1
  es.foldl (fun t e => t.emit (.cell i (e.cell.bytes e.lseq))) s1

/-- The present replay began at this sequence less than ACK_TIMEOUT ago. -/
def State.replaying (s : State) (i seq : Nat) : Bool :=
  match (s.iris i).replay with
  | some (q, t) => q == seq && decide (s.ns < t + s.get (R.IRIS_RETRY.ACK_TIMEOUT i))
  | none => false

/-- ACK_TIMEOUT (R342); in HOLD-UP no sequenced cell is sent any more (R353). -/
def execAckTimeout (i : Nat) (s : State) : Out State :=
  complete (Instr.wf (.ackTimeout i)) s
    (let x := s.iris i
    if s.mode == .serve && (s.irisState i == 2 || s.irisState i == 3) && !x.queue.isEmpty &&
        decide (x.markNs + s.get (R.IRIS_RETRY.ACK_TIMEOUT i) ≤ s.ns) && !s.replaying i x.mark then s.rewind i x.mark else s)

/-! ### Loss of a cell (R366, R373, R375) -/

/-- The length of the frame whose FIRST cell is `c`: that of its packet, or of its one cell; of a longer frame the cells still to
come decide it, an open value. -/
def State.lostLen (s : State) (c : FCell) : Nat × State :=
  if c.origin then (c.len, s) else if c.last then (c.fill + 1, s) else s.draw

/-- A cell discarded by this device: when it is the FIRST cell of a packet, the packet is a breach with cause LINK. Of a cell that came
in on an iris the device knows what the cell says: one with its own address has come back to it, and was admitted here. -/
def State.loseCell (s : State) (c : FCell) : State :=
  if c.marker || !c.first || c.queue == 0xFFFF || (c.origin && !c.accepted) then s
  else
    let r := s.lostLen c
    r.2.breachOf 0x18 ⟨c.cls, s.bit (R.APR_CLASS.BOUNDED c.cls), if c.origin || s.forMe c.src then none else some c.src,
      c.leaf.getD (2 ^ 20 + 8 * c.dst + c.cls), r.1, if c.origin then c.expo else s.ns⟩

/-- A cell that has no route is discarded (R366, R373). -/
def State.noRoute (s : State) (w : WaitCell) : State :=
  let s1 := (s.sat R.FAB_LOSS.NOROUTE 1).loseCell w.cell
  match w.mem with | some m => s1.dropCell m | none => s1

/-! ### Spraying (R366 to R368, R373) -/

/-- The spray pointer of a destination takes a position drawn uniformly over its list: an open value. -/
def State.redraw (s : State) (d : Nat) : State :=
  let n := (s.nextIrises d).length
  if n = 0 then s.set (R.FAB_DEST.PTR d) 0
  else let x := s.draw; x.2.set (R.FAB_DEST.PTR d) (x.1 % n)

/-- The first eligible position of a destination's list at or after the pointer, wrapping. -/
def State.sprayPos (s : State) (d : Nat) : Option Nat :=
  let l := s.nextIrises d
  let p := s.get (R.FAB_DEST.PTR d)
  ((List.range l.length).map fun k => (p + k) % l.length).find? fun k => s.irisTakes (l.getD k 64)

/-- Sprays one cell; none when no iris is eligible. -/
def State.sprayCell (s : State) (w : WaitCell) : Option State :=
  let d := w.cell.dst
  match s.sprayPos d with
  | none => none
  | some k =>
    let l := s.nextIrises d
    let s1 := s.sendOn (l.getD k 0) w.cell w.mem w.relayFrom w.firstNs
    let s2 := s1.set (R.FAB_DEST.PTR d) ((k + 1) % l.length)
    some (if w.kind = 0 then s2.sat R.FAB_LOSS.RESPRAYED 1 else s2)

/-- A cell takes an iris now or waits for one. -/
def State.sprayOrWait (s : State) (w : WaitCell) : State :=
  match s.sprayCell w with
  | some t => t
  | none => { s with fab := { s.fab with waiting := s.fab.waiting ++ [w] } }

/-- The order in which waiting cells are served: classes by PRIO; returned, relayed, new; then arrival. -/
def State.waitOrder (s : State) (l : List WaitCell) : List WaitCell :=
  (List.range 8).flatMap fun i => (List.range 3).flatMap fun k =>
    l.filter fun w => s.get (R.COL_CLASS.PRIO w.cell.cls) == 7 - i && w.kind == k

/-- The deadline stamp has passed: it is earlier than now in 4 ns units (R366). -/
def State.stampPast (s : State) (stamp : Nat) : Bool := keyEarlier stamp (keyOf s.ns)

/-- A relay cell past its deadline is discarded (R366). -/
def State.expire (s : State) (c : FCell) (m : Option Nat) : State :=
  let s1 := (s.sat R.FAB_ERR.EXPIRED 1).loseCell c
  match m with | some i => s1.dropCell i | none => s1

/-- The waiting cells try again; relayed cells past their deadline, and returned and relayed cells whose route has gone, are
discarded. In HOLD-UP no sequenced cell is sent any more: they stay, and what it cuts short is no breach (R353, R518). -/
def State.drainWaiting (s : State) : State :=
  if s.mode == .holdUp then s else
  (s.waitOrder s.fab.waiting).foldl (fun t w =>
    if w.relayFrom.isSome = true ∧ t.stampPast w.cell.deadline = true then t.expire w.cell w.mem
    else if w.kind ≤ 1 ∧ (t.nextIrises w.cell.dst).isEmpty = true then t.noRoute w else t.sprayOrWait w)
    { s with fab := { s.fab with waiting := [] } }

/-! ### Link down (R347, R348, R364) -/

/-- An iris that leaves UP leaves every next-hop mask, and pointers of the masks that change are drawn anew. -/
def State.clearNext (s : State) (i : Nat) : State :=
  (s.regs.filter fun e => decide (0x2408000 ≤ e.1 ∧ e.1 < 0x2410000)).foldl (fun t e =>
    let d := (e.1 - 0x2408000) / 8
    let m := t.get (R.FAB_NH.MASK d)
    if m.testBit i then
      let u := t.set (R.FAB_NH.MASK d) (m - 2 ^ i)
      (u.set (R.FAB_DEST.COUNT d) (u.nextIrises d).length).redraw d
    else t) s

/-- The iris has entered or left UP: an advertisement is due (R356). -/
def State.linkChanged (s : State) : State := { s with fab := { s.fab with advDue := true } }

/-- The command that waits for a change on an iris ends (R352): its outcome code. -/
def State.endChange (s : State) (i code : Nat) : State :=
  let x := s.iris i
  let seq := match x.change with | some c => c.cmd | none => none
  let s1 := s.setIris i { x with change := none }
  match seq with
  | some q => s1.finish q code 0 0 (if code = 7 then 0 else s.now) [(16, 1, s.get (R.IRIS_STATUS.WIDTH i))]
  | none => s1

/-- What a DOWN records: IRIS_DOWN_CAP for the first cause, DOWNS, IRIS_DOWN. -/
def State.recordDown (s : State) (i cause time gasp : Nat) : State :=
  let s1 := if s.bit (R.IRIS_DOWN_CAP.VALID i) then s else
    ((((s.set (R.IRIS_DOWN_CAP.VALID i) 1).set (R.IRIS_DOWN_CAP.CAUSE i) cause).set (R.IRIS_DOWN_CAP.WIDTH i)
      (s.get (R.IRIS_STATUS.WIDTH i))).set (R.IRIS_DOWN_CAP.GASP_CAUSE i) gasp).set (R.IRIS_DOWN_CAP.TIME i) time
  s1.sat (R.IRIS_ERR.DOWNS i) 1

/-- An iris goes DOWN: sequenced cells stop, the credit it holds is discarded, and its unreleased cells go back to be
sprayed again, in sequence order; a link-scoped one has no route but this link and is counted (R348, R354, R373). A DISABLE that
drained it leaves it DISABLED. -/
def State.irisDown (s : State) (i cause time gasp : Nat) : State :=
  let x := s.iris i
  let up := s.irisState i == 2
  let s1 := s.recordDown i cause time gasp
  let s2 := s1.endChange i 7
  let dis := x.disabling
  let next := if dis.isSome ∨ cause = 7 then 0 else 5
  let s3 := (s2.set (R.IRIS_STATUS.STATE i) next).set (R.IRIS_STATUS.LANES_ACT i) 0
  let y : Iris := { ups := x.ups, tag := x.tag, held := x.held || cause == 5 || cause == 7, exp := x.exp, creditTotal := x.creditTotal }
  let s4 := ((s3.setIris i y).clearNext i).syncIris i
  let s5 := if cause = 7 ∨ dis.isSome then s4.setBit (R.IRIS_CTRL.ENABLE i) false else s4
  let s6 := match dis with
    | some q => s5.finish q (if cause = 7 then 0 else 7) 0 0 (if cause = 7 then s.now else 0) [(16, 1, s.get (R.IRIS_STATUS.WIDTH i))]
    | none => s5
  let back := x.queue.filter fun e => e.cell.queue != 0xFFFF
  let s7 := { s6.sat R.FAB_LOSS.NOROUTE (x.queue.length - back.length) with fab := { s6.fab with waiting := s6.fab.waiting ++ back.map fun (e : TxEntry) =>
    (⟨0, e.cell, e.mem, e.relayFrom, some e.firstNs⟩ : WaitCell) } }
  (if up then s7.linkChanged else s7).drainWaiting.raise (64 + i) i

/-- The state codes from which an iris can go DOWN: TRAINING, UP, DRAINING, RETRAINING. -/
def State.irisActive (s : State) (i : Nat) : Bool := decide (1 ≤ s.irisState i ∧ s.irisState i ≤ 4)

/-- An event at an iris that sends it DOWN with a cause. -/
def State.downFor (s : State) (i cause : Nat) : State := if s.irisActive i then s.irisDown i cause s.now 0 else s

/-- RETRY_BUDGET (R343). -/
def execRetryBudget (i : Nat) (s : State) : Out State :=
  complete (Instr.wf (.retryBudget i)) s
    (match (s.iris i).queue with
    | e :: _ => if s.irisesRun && decide (e.firstNs + s.get (R.IRIS_RETRY.BUDGET i) < s.ns) then s.downFor i 2 else s
    | [] => s)

/-- LANE_LOCK_LOSS (R349): a lane loses lock; an active one sends the iris DOWN. -/
def execLaneLockLoss (i lane : Nat) (s : State) : Out State :=
  complete (Instr.wf (.laneLockLoss i lane)) s
    (if !s.irisesRun then s
    else
      let ok := s.get (R.IRIS_STATUS.LANES_OK i)
      let s1 := s.set (R.IRIS_STATUS.LANES_OK i) (if ok.testBit lane then ok - 2 ^ lane else ok)
      if (s.get (R.IRIS_STATUS.LANES_ACT i)).testBit lane then s1.downFor i 3 else s1)

/-! ### Roll-call (R346) -/

/-- CALL_SEND (R346): an iris in TRAINING or UP sends a CALL with a new tag, 1.0 µs after its last; one that is DOWN with AUTO begins
TRAINING (R331). -/
def execCallSend (i : Nat) (s : State) : Out State :=
  complete (Instr.wf (.callSend i)) s
    (if !s.irisesRun then s
    else
      let s0 := if s.mode == .serve && s.irisState i == 5 && s.bit (R.IRIS_CTRL.AUTO i) && !(s.iris i).held then
        s.set (R.IRIS_STATUS.STATE i) 1 else s
      let x := s0.iris i
      if (s0.irisState i == 1 || s0.irisState i == 2) && (x.callNs == 0 || decide (x.callNs - 1 + 1000 ≤ s0.ns)) then
        (s0.setIris i { x with tag := wrapAdd 16 x.tag 1, calls := x.calls ++ [(x.tag, s0.ns)], callNs := s0.ns + 1 }).due i
          (s0.callRecord 1 x.tag)
      else s0)

/-- ECHO_MISSED (R346): 2 µs have passed since a CALL without its ECHO; the third in a row sends the iris DOWN. -/
def execEchoMissed (i : Nat) (s : State) : Out State :=
  complete (Instr.wf (.echoMissed i)) s
    (let x := s.iris i
    match x.calls with
    | (_, t) :: cs =>
      if s.irisesRun && decide (t + 2000 ≤ s.ns) then
        let s1 := (s.setIris i { x with calls := cs, misses := x.misses + 1 }).sat (R.IRIS_ERR.MISSED i) 1
        if 3 ≤ x.misses + 1 then s1.downFor i 1 else s1
      else s
    | [] => s)

/-! ### Entry to UP (R333, R336, R344) -/

/-- An iris enters UP at a width on its lanes: both sequence counters and both credit totals restart. With the first one the wait of
R359 begins. -/
def State.enterUp (s : State) (i width lanes : Nat) : State :=
  let x := s.iris i
  let limit := s.get (R.IRIS_CREDIT.LIMIT i)
  let y : Iris := {
    ups := x.ups + 1
    tag := x.tag
    calls := x.calls
    callNs := x.callNs
    misses := x.misses
    records := x.records
    creditTotal := limit
    markNs := s.ns
    ctrlNs := x.ctrlNs
    linkCells := x.linkCells }
  let s1 := (s.setIris i y).set (R.IRIS_STATUS.STATE i) 2
  let s2 := (((s1.set (R.IRIS_STATUS.WIDTH i) width).set (R.IRIS_STATUS.LANES_ACT i) lanes).set (R.IRIS_STATUS.LANES_OK i)
    (s1.get (R.IRIS_STATUS.LANES_OK i) ||| lanes)).set (R.IRIS_CREDIT.HELD i) 0
  let s3 : State := if (List.range 64).any fun j => s.irisState j == 2 then s2 else { s2 with fab := { s2.fab with quietNs := s2.ns } }
  (s3.syncIris i).linkChanged

/-! ### Lanes (R330) -/

/-- The lane groups of a width code, lowest first (R330). -/
def laneGroups (w : Nat) : List Nat := match w with | 2 => [15] | 1 => [3, 12] | _ => [1, 2, 4, 8]

/-- The lowest-numbered group of the width within a mask. -/
def groupIn (w mask : Nat) : Option Nat := (laneGroups w).find? fun g => (g &&& mask) == g

/-- The widest group of at most width `w` within a mask. -/
def widest : Nat → Nat → Option (Nat × Nat)
  | 0, mask => (groupIn 0 mask).map fun g => (0, g)
  | w + 1, mask => match groupIn (w + 1) mask with | some g => some (w + 1, g) | none => widest w mask

/-- Account 384 has free cells for the credit that an iris grants at its entry to UP (R274, R344). -/
def State.mayEnter (s : State) (i : Nat) : Bool := decide (s.get (R.IRIS_CREDIT.LIMIT i) ≤ s.fabricFree)

/-- IRIS_TRAINED (R333): lane training has completed, a CALL has come from the peer, and an ECHO says that the peer has this end's. The
peer takes `width` at most, and `lanes` are in lock: the iris enters UP at the widest width that they, WIDTH_MAX and LANES_EN allow (R330,
R349), and with no lane in common it goes DOWN (R347). Until account 384 has the cells of its LIMIT free it stays in TRAINING (R274). -/
def execIrisTrained (i width lanes : Nat) (s : State) : Out State :=
  complete (Instr.wf (.irisTrained i width lanes)) s
    (if s.mode == .serve && s.irisState i == 1 && (s.iris i).callSeen && (s.iris i).echoSeen then
      let t := s.set (R.IRIS_STATUS.LANES_OK i) lanes
      match widest (min width (s.get (R.IRIS_CTRL.WIDTH_MAX i))) (lanes &&& s.get (R.IRIS_CTRL.LANES_EN i)) with
      | some (w, g) => if t.mayEnter i then t.enterUp i w g else t
      | none => t.downFor i 6
    else s)

/-! ### Retrain and width change (R349 to R352) -/

/-- The initiator's RT_REQ. -/
def State.rtReq (s : State) (i : Nat) (c : LinkChange) : State :=
  s.due i (record 16 [(0, 1, 0x10), (1, 1, c.width), (2, 1, c.mask), (3, 1, b2n c.same), (4, 8, s.uid)])

/-- A planned change starts at this end. -/
def State.startChange (s : State) (i width mask : Nat) (same : Bool) (cmd : Option Nat) : State :=
  let c : LinkChange := { leader := true, width := width, mask := mask, same := same, reqNs := s.ns, cmd := cmd }
  (s.setIris i { s.iris i with change := some c }).rtReq i c

/-- The iris leaves UP for DRAINING with what has been agreed. -/
def State.drainFor (s : State) (i : Nat) (c : LinkChange) (w mask : Nat) : State :=
  (((s.setIris i { s.iris i with change := some { c with agreed := some (w, mask) } }).set (R.IRIS_STATUS.STATE i) 3).clearNext
    i).linkChanged

/-- The responder's answer to an RT_REQ of a peer: the width and lanes of step 2; under a collision on B1 the higher end's
own mask alone (KL-5, R595). It drains as its RT_ACK leaves, which is at once. -/
def State.answerRt (s : State) (i width mask : Nat) (c : LinkChange) : State :=
  match widest (min width (s.get (R.IRIS_CTRL.WIDTH_MAX i))) mask with
  | none => s.downFor i 6
  | some (w, g) => ((s.due i (record 16 [(0, 1, 0x11), (1, 1, w), (2, 1, g)])).flushCtrl i).drainFor i { c with leader := false } w g

/-- An RT_REQ arrives (R350, R351). -/
def State.rtReqIn (s : State) (i : Nat) (r : List Byte) : State :=
  let width := leAt r 1 1
  let mask := leAt r 2 1 % 16
  let uid := leAt r 4 8
  if s.irisState i ≠ 2 then s
  else match (s.iris i).change with
    | none => s.answerRt i width (mask &&& s.get (R.IRIS_CTRL.LANES_EN i)) ⟨false, width, mask, leAt r 3 1 == 1, 0, 0, none, false, false, 0, none, false⟩
    | some c =>
      if c.agreed.isSome then s
      else if uid = s.uid then s.downFor i 5
      else if s.uid < uid then s
      else s.answerRt i (min width c.width) c.mask { c with abandoned := true }

/-- An RT_ACK answers a request: a lane group of a width no wider than asked for, within the mask that was sent (step 2). -/
def LinkChange.answers (c : LinkChange) (w g : Nat) : Bool :=
  decide (w ≤ c.width) && (laneGroups w).contains g && (g &&& c.mask) == g

/-- An RT_ACK arrives at the initiator: it drains. One that answers no such request is discarded (DESIGN CHOICE, log 213). -/
def State.rtAckIn (s : State) (i : Nat) (r : List Byte) : State :=
  match (s.iris i).change with
  | some c => if c.leader && c.agreed.isNone && s.irisState i == 2 && c.answers (leAt r 1 1) (leAt r 2 1) then
      s.drainFor i c (leAt r 1 1) (leAt r 2 1) else s
  | none => s

/-- With RT_READY sent and received the end enters RETRAINING. -/
def State.tryRetrain (s : State) (i : Nat) (c : LinkChange) : State :=
  let s1 := s.setIris i { s.iris i with change := some { c with startNs := s.ns } }
  if c.readySent && c.readyRecv then s1.set (R.IRIS_STATUS.STATE i) 4 else s1

/-- An RT_READY arrives. -/
def State.rtReadyIn (s : State) (i : Nat) : State :=
  match (s.iris i).change with
  | some c => if s.irisState i = 3 then s.tryRetrain i { c with readyRecv := true } else s
  | none => s

/-- RT_READY leaves, behind the records that were due before it. -/
def State.sendReady (s : State) (i : Nat) : State := (s.due i (record 16 [(0, 1, 0x12)])).flushCtrl i

/-- RT_READY_SEND (R350): an end whose retransmit queue is empty and that has acknowledged every accepted cell sends RT_READY; one that a
DISABLE drains then enters DISABLED (R352). -/
def execRtReadySend (i : Nat) (s : State) : Out State :=
  complete (Instr.wf (.rtReadySend i)) s
    (let x := s.iris i
    if !s.irisesRun || s.irisState i != 3 || !x.queue.isEmpty || x.ackSent != x.exp then s
    else if x.disabling.isSome then (s.sendReady i).irisDown i 7 s.now 0
    else match x.change with
      | some c => if c.readySent then s else (s.sendReady i).tryRetrain i { c with readySent := true }
      | none => s)

/-- RETRAIN_COMPLETE (R350): UP at the new width within 40 µs, once account 384 has the cells of the credit to grant (R274). -/
def execRetrainComplete (i : Nat) (s : State) : Out State :=
  complete (Instr.wf (.retrainComplete i)) s
    (match (s.iris i).change with
    | some c =>
      if s.irisesRun && s.irisState i == 4 && decide (s.ns ≤ c.startNs + 40000) && s.mayEnter i then
        let a := c.agreed.getD (0, 1)
        let s1 := (s.enterUp i a.1 a.2)
        (s1.setIris i { s1.iris i with change := some c }).endChange i (if c.abandoned then 6 else 0)
      else s
    | none => s)

/-- RETRAIN_TIMEOUT (R347): a retrain does not complete within 40 µs. -/
def execRetrainTimeout (i : Nat) (s : State) : Out State :=
  complete (Instr.wf (.retrainTimeout i)) s
    (match (s.iris i).change with
    | some c => if s.irisesRun && s.irisState i == 4 && decide (c.startNs + 40000 < s.ns) then s.downFor i 3 else s
    | none => s)

/-- RT_REQ_REPEAT (R350): 10 µs without an RT_ACK; after three repeats the iris goes DOWN with TIMEOUT. -/
def execRtReqRepeat (i : Nat) (s : State) : Out State :=
  complete (Instr.wf (.rtReqRepeat i)) s
    (match (s.iris i).change with
    | some c =>
      if s.irisesRun && s.irisState i == 2 && c.leader && c.agreed.isNone && decide (c.reqNs + 10000 ≤ s.ns) then
        (if 3 ≤ c.repeats then s.downFor i 8
        else
          let d := { c with reqNs := s.ns, repeats := c.repeats + 1 }
          (s.setIris i { s.iris i with change := some d }).rtReq i d)
      else s
    | none => s)

/-- LANE_THRESHOLD (R349): an active lane's corrected symbols per 1 ms exceed THRESH; the iris asks for the widest width
that excludes it. -/
def execLaneThreshold (i lane rate : Nat) (s : State) : Out State :=
  complete (Instr.wf (.laneThreshold i lane rate)) s
    (let th := s.get (R.IRIS_LANE.THRESH i)
    let en := s.get (R.IRIS_CTRL.LANES_EN i)
    let mask := if en.testBit lane then en - 2 ^ lane else en
    if s.irisesRun && s.irisState i == 2 && (s.get (R.IRIS_STATUS.LANES_ACT i)).testBit lane && th != 0 && decide (th < rate) &&
        (s.iris i).change.isNone then
      (match widest (s.get (R.IRIS_CTRL.WIDTH_MAX i)) mask with
      | some (w, _) => s.startChange i w mask false none
      | none => s)
    else s)

/-! ### Dying gasp (R353) -/

/-- Sends a GASP cell. -/
def State.gasp (s : State) (i : Nat) : State :=
  let a := s.get R.FAB_ADDR.ADDR
  (s.setIris i { s.iris i with gaspNs := s.ns + 1 }).emit (.cell i (unsequenced 4 a (record 256 [(0, 8, s.uid), (8, 2, a), (10, 1, s.get R.KEEP_EVENT.CAUSE % 2),
    (16, 6, s.power.holdNs)])))

/-- Every iris in UP or DRAINING sends a GASP cell. -/
def State.gaspAll (s : State) : State :=
  (List.range 64).foldl (fun t i => if t.irisState i == 2 || t.irisState i == 3 then t.gasp i else t) s

/-- GASP_REPEAT (R353): 100 ns after the last GASP. -/
def execGaspRepeat (i : Nat) (s : State) : Out State :=
  complete (Instr.wf (.gaspRepeat i)) s
    (if s.mode == .holdUp && !s.power.isolated && (s.irisState i == 2 || s.irisState i == 3) &&
        decide ((s.iris i).gaspNs + 100 ≤ s.ns + 1) then s.gasp i else s)

/-- A GASP cell arrives: its payload is recorded, IRIS_GASP, and the iris goes DOWN. -/
def State.gaspIn (s : State) (i : Nat) (pl : List Byte) : State :=
  if !s.irisActive i then s
  else
    let s1 := (s.set (R.IRIS_PEER.UID i) (leAt pl 0 8)).raise 24 i
    s1.irisDown i 4 (leAt pl 16 6) (leAt pl 10 1 % 2)

/-! ### Processing CTRL cells (R338, R341, R346) -/

/-- One record of a CTRL cell. -/
def State.recordIn (s : State) (i : Nat) (r : List Byte) : State :=
  if !s.irisActive i then s
  else match leAt r 0 1 with
    | 0x01 =>
      let uid := leAt r 4 8
      if uid = s.uid then s.downFor i 5
      else
        let a := leAt r 12 2
        let s1 := ((s.set (R.IRIS_PEER.UID i) uid).setBit (R.IRIS_STATUS.PEER_VALID i) (a.testBit 15)).set
          (R.IRIS_STATUS.PEER_ADDR i) (a % 4096)
        (s1.setIris i { s1.iris i with callSeen := true }).due i (s1.callRecord 2 (leAt r 1 2))
    | 0x02 =>
      let x := s.iris i
      s.setIris i { x with
        calls := x.calls.filter fun c => c.1 != leAt r 1 2
        misses := 0
        echoSeen := true }
    | 0x10 => s.rtReqIn i r
    | 0x11 => s.rtAckIn i r
    | 0x12 => s.rtReadyIn i
    | _ => s

/-- A CTRL cell: releases, the newest credit, a rewind on NACK, then its records. -/
def State.ctrlIn (s : State) (i : Nat) (pl : List Byte) : State :=
  let up := s.irisState i == 2 || s.irisState i == 3
  let ack := leAt pl 0 2
  let s1 := if up then s.ackTo i ack else s
  let s2 := if up then (s1.setIris i { s1.iris i with peerTotal := leAt pl 2 2 }).syncIris i else s1
  let s3 := if s.mode == .serve && up && (leAt pl 4 1).testBit 0 && !s2.replaying i ((ack + 1) % 65536) then s2.rewind i ((ack + 1) % 65536) else s2
  let s4 := (List.range (min 15 (leAt pl 5 1))).foldl (fun t k => t.recordIn i (slice pl (16 + 16 * k) 16)) s3
  if up then (s4.drainLink i (s4.iris i).linkCells.length).drainWaiting else s4

/-! ### FAB_LINK_CTL (R352) -/

/-- The body of FAB_LINK_CTL with one operation. -/
def State.linkCtl (s : State) (seq op : Nat) (body : Nat → Nat → Nat → State → State) : State :=
  s.runCmd seq 0x71 fun c t =>
    let known := decide (c.op 17 1 < 6)
    if c.op 17 1 ≠ op ∧ (known = true ∨ op ≠ 0) then t
    else
      let i := c.op 16 1
      let w := c.op 18 1
      let m := c.op 19 1
      let plain := op != 1 && op != 3
      if !c.formed [(20, 44)] || !known || decide (64 ≤ i) || decide (16 ≤ m) || decide (3 ≤ w) ||
          (plain && (w != 0 || m != 0)) || (!plain && (groupIn w m).isNone) then t.refuse seq 1
      else body i w m t

/-- FAB_LINK_DISABLE (R352): an UP iris drains first. -/
def execFabLinkDisable (seq : Nat) (s : State) : Out State :=
  complete true s (s.linkCtl seq 0 fun i _ _ t =>
    let x := t.iris i
    if x.change.isSome || x.disabling.isSome then t.refuse seq 2
    else
      let started := t.updCmd seq fun c => { c with started := true }
      if t.irisState i = 2 then
        (((started.setIris i { x with disabling := some seq }).set (R.IRIS_STATUS.STATE i) 3).clearNext i).linkChanged
      else if t.irisState i = 0 then (t.setBit (R.IRIS_CTRL.ENABLE i) false).done seq [(16, 1, t.get (R.IRIS_STATUS.WIDTH i))]
      else (started.setIris i { x with disabling := some seq }).irisDown i 7 t.now 0)

/-- FAB_LINK_ENABLE (R352): TRAINING begins with a lane mask and a width. -/
def execFabLinkEnable (seq : Nat) (s : State) : Out State :=
  complete true s (s.linkCtl seq 1 fun i w m t =>
    if t.irisState i ≠ 0 then t.refuse seq 3
    else
      let s1 := ((t.setBit (R.IRIS_CTRL.ENABLE i) true).set (R.IRIS_CTRL.LANES_EN i) m).set (R.IRIS_CTRL.WIDTH_MAX i) w
      ((s1.setIris i { ups := (t.iris i).ups, tag := (t.iris i).tag }).set (R.IRIS_STATUS.STATE i) 1).done seq [(16, 1, w)])

/-- A planned change by software on an UP iris. -/
def State.softChange (t : State) (seq i width mask : Nat) (same : Bool) : State :=
  if t.irisState i ≠ 2 then t.refuse seq 3
  else if (t.iris i).change.isSome ∨ (t.iris i).disabling.isSome then t.refuse seq 2
  else (t.updCmd seq fun c => { c with started := true }).startChange i width mask same (some seq)

/-- FAB_LINK_RETRAIN (R352). -/
def execFabLinkRetrain (seq : Nat) (s : State) : Out State :=
  complete true s (s.linkCtl seq 2 fun i _ _ t =>
    t.softChange seq i (t.get (R.IRIS_STATUS.WIDTH i)) (t.get (R.IRIS_CTRL.LANES_EN i)) true)

/-- FAB_LINK_WIDTH (R352). -/
def execFabLinkWidth (seq : Nat) (s : State) : Out State :=
  complete true s (s.linkCtl seq 3 fun i w m t =>
    let s1 := t.softChange seq i w m false
    if t.irisState i = 2 ∧ (t.iris i).change.isNone ∧ (t.iris i).disabling.isNone then
      (s1.set (R.IRIS_CTRL.LANES_EN i) m).set (R.IRIS_CTRL.WIDTH_MAX i) w else s1)

/-- FAB_LINK_AUTO_OFF (R352). -/
def execFabLinkAutoOff (seq : Nat) (s : State) : Out State :=
  complete true s (s.linkCtl seq 4 fun i _ _ t =>
    if (t.iris i).change.isSome then t.refuse seq 2
    else (t.setBit (R.IRIS_CTRL.AUTO i) false).done seq [(16, 1, t.get (R.IRIS_STATUS.WIDTH i))])

/-- FAB_LINK_AUTO_ON (R352). -/
def execFabLinkAutoOn (seq : Nat) (s : State) : Out State :=
  complete true s (s.linkCtl seq 5 fun i _ _ t =>
    if (t.iris i).change.isSome then t.refuse seq 2
    else (t.setBit (R.IRIS_CTRL.AUTO i) true).done seq [(16, 1, t.get (R.IRIS_STATUS.WIDTH i))])

end Sys2Proof.Machine
end

