-- ==== Sys2Proof/Machine/Drain.lean ====
section
/-! DEFINITION. Prisms and service facets as parts of the state, drain rounds and their tokens, and where packets are (R97, R144,
R228 to R234, R253). -/
namespace Sys2Proof.Machine

/-! ### Drain rounds (R229) -/

/-- A drain round begins on the listed prisms: each token waits behind the packets its aperture has decided already. -/
def State.startRound (s : State) (ks : List Nat) (commit : Bool) : Nat × State :=
  let id := s.ver.nextRound
  let s1 := { s with ver := { s.ver with rounds := s.ver.rounds ++ [(⟨id, ks, commit⟩ : Round)], nextRound := id + 1 } }.set R.APR_VERSION.DRAIN 0
  (id, ks.foldl (fun (t : State) k =>
    let p := t.prism k
    t.setPrism k { p with tokens := p.tokens ++ [(id, (SMap.find (fun _ => []) t.buf.toPrism k).length)] }) s1)

/-- A round is under way. -/
def State.roundOpen (s : State) (id : Nat) : Bool := s.ver.rounds.any fun r => r.id == id

/-- The packets in `gone` no longer wait for a prism; a drain token still follows those that stay. -/
def State.removeWaiting (s : State) (k : Nat) (gone : Pkt → Bool) : State :=
  let q := SMap.find (fun _ => []) s.buf.toPrism k
  let p := s.prism k
  let s1 := s.setPrism k { p with tokens := p.tokens.map fun t => (t.1, ((q.take t.2).filter fun x => !gone x).length) }
  { s1 with buf := { s1.buf with toPrism := s1.buf.toPrism.put (fun _ => []) k (q.filter fun x => !gone x) } }

/-- The items that service facets run or have saved. -/
def State.heldItems (s : State) : List Item := s.code.services.flatMap fun e => e.2.running.toList ++ e.2.saved

/-- MCODE_ACTIVE.DRAINING returns to 0 once the round of the bank switch is complete and no service item holds the former
bank (R234). -/
def State.drainCheck (s : State) : State :=
  if s.bit R.MCODE_ACTIVE.DRAINING && !s.roundOpen s.ver.bankRound &&
      s.heldItems.all (fun (x : Item) => x.bank == s.get R.MCODE_ACTIVE.BANK) then
    s.setBit R.MCODE_ACTIVE.DRAINING false
  else s

/-- A token leaves its prism: the refusal of R97 ends with that of the switch, and the last token completes the round, which
frees the lines it was to free (R97, R201, R230). -/
def State.tokenLeft (s : State) (k id : Nat) : State :=
  let s1 := if id = s.ver.bankRound then { s with apr := { s.apr with switching := s.apr.switching.filter fun x => x != k } } else s
  let s2 := if id + 1 = s.ver.nextRound then
    s1.set R.APR_VERSION.DRAIN (s1.get R.APR_VERSION.DRAIN - s1.get R.APR_VERSION.DRAIN / 2 ^ k % 2 * 2 ^ k) else s1
  let rounds := s2.ver.rounds.map fun (r : Round) => if r.id = id then { r with left := r.left.filter fun x => x != k } else r
  let ended := rounds.any fun (r : Round) => r.id == id && r.left.isEmpty
  let s3 := { s2 with ver := { s2.ver with rounds := if ended then rounds.filter fun (r : Round) => r.id != id else rounds } }
  if ended then
    let freed := (s3.tbl.limbo.filter fun e => e.1 == id).map (·.2)
    { s3 with tbl := { s3.tbl with
        limbo := s3.tbl.limbo.filter fun e => e.1 != id
        taken := s3.tbl.taken.filter fun l => !freed.contains l } }.drainCheck
  else s3

/-- The token of a round has not left prism `k`. -/
def State.tokenInside (s : State) (k id : Nat) : Bool := s.ver.rounds.any fun r => r.id == id && r.left.contains k

/-! ### Where packets are -/

/-- The packets of an endpoint that wait for a service facet or are its work (a facet is place 16 + s). -/
def State.servicePackets (s : State) (i e : Nat) : List Nat :=
  ((((s.service i).items.filterMap fun x => x.pkt) ++ SMap.find (fun _ => []) s.buf.toPrism (16 + i)).filter fun (p : Pkt) =>
    p.ep == e).map fun (p : Pkt) => p.id

end Sys2Proof.Machine
end

