-- ==== Sys2Proof/Machine/Migration.lean ====
section
/-! DEFINITION. Endpoint migration: placement records, fences, redirects, markers (R250 to R256). -/
namespace Sys2Proof.Machine

/-! ### Records and slots (R250, R251) -/

def State.placement (s : State) (e : Nat) : Placement := SMap.find (fun _ => {}) s.mig.places e
def State.setPlacement (s : State) (e : Nat) (p : Placement) : State :=
  { s with mig := { s.mig with places := s.mig.places.put (fun _ => {}) e p } }

/-- The codes of a placement that is no prism or service facet. -/
def placeGone : Nat := 64
def placeTail : Nat := 65

/-- The source whose endpoint base gives an endpoint (R295). -/
def State.sourceOf (s : State) (e : Nat) : Option Nat :=
  (List.range 384).find? fun src =>
    let base := s.get (R.APR_SRC.EP_BASE src)
    base == e || (s.get (R.APR_SRC.EMODE src) == 1 && decide (base ≤ e ∧ e < base + 4096))

/-- Where an endpoint is placed: its record, or the prism or facet that its source enters. -/
def State.placeOf (s : State) (e : Nat) : Option Nat :=
  match (s.placement e).place with
  | some x => some x
  | none => (s.sourceOf e).map s.entryOf

/-- The migration of a kind in progress on an endpoint: 0 LOCAL, 1 OUT, 2 IN. -/
def State.migOf (s : State) (e kind : Nat) : Option Migration := s.mig.open_.find? fun m => m.ep == e && m.kind == kind

/-- The migration in a slot, when it is of a kind. -/
def State.slotMig (s : State) (i kind : Nat) : Option Migration := s.mig.open_.find? fun m => m.slot == i && m.kind == kind

def State.setMig (s : State) (m : Migration) : State :=
  { s with mig := { s.mig with open_ := updFirst (fun n => n.slot == m.slot) (fun _ => m) s.mig.open_ } }

/-- A packet enters the fence queue of a migration. -/
def State.fencePkt (s : State) (m : Migration) (p : Pkt) : State :=
  s.setMig { m with fence := m.fence ++ [p], firstNs := some (m.firstNs.getD s.ns) }

/-! ### Joining a leaf queue under migration (R252, R254, R255) -/

/-- A packet that the moved-away endpoint no longer takes. -/
def State.migLate (s : State) (p : Pkt) : State :=
  (if 256 ≤ p.copy then s.releaseCells p else s.dropPkt 0x11 p).countAt R.SWC_MIG_LATE.COUNT 1 p.expo

/-- A packet for the endpoint whose tail window runs goes to the fabric queue of the device it moved to. -/
def State.redirect (s : State) (pl : Placement) (p : Pkt) : State :=
  let il := if p.remote.isSome then p.relNs else p.irisNs
  let ik := if p.remote.isSome then p.key else p.irisKey
  s.joinLeaf (2 ^ 20 + 8 * pl.device + p.stamp.cls)
    { p with dstKind := 1, dstDev := pl.device, dstQ := pl.queue, hostQ := none, irisNs := il, irisKey := ik }

/-- A packet joins the leaf queue chosen for it, a redirect, or the fence of an IN migration. -/
def State.routeLeaf (s : State) (p : Pkt) : State :=
  if isFabricLeaf p.leaf then s.joinLeaf p.leaf p
  else
    let pl := s.placement p.leaf
    if pl.place = some placeTail then s.redirect pl p
    else if pl.place = some placeGone then s.migLate p
    else match s.migOf p.leaf 2 with
      | some m => if p.remote = some m.device then s.joinLeaf p.leaf p else s.fencePkt m p
      | none => s.joinLeaf p.leaf p

/-- A result of a service facet carries the epoch whose token or fence limit has passed it (R253). -/
def State.staleResult (s : State) (p : Pkt) : Bool :=
  p.remote.isNone && p.copy == 0 && s.mig.late.contains (p.ep, p.stamp.epoch)

/-- A descriptor is enqueued: one that carries the new epoch of its endpoint's LOCAL migration is fenced, and a result of a service
facet that comes after the token of its epoch is discarded with reason MIG_LATE. -/
def State.enqueuePkt (s : State) (p : Pkt) : State :=
  if s.staleResult p then s.migLate p
  else match (if p.remote.isSome then none else s.migOf p.ep 0) with
    | some m => if p.stamp.epoch = m.oldEpoch then s.routeLeaf p else s.fencePkt m p
    | none => s.routeLeaf p

/-! ### Beginning and ending -/

/-- SWC_MIG and SWC_MIG_CTRL.ACTIVE follow a migration that begins. -/
def State.openMig (s : State) (m : Migration) (state tkind target : Nat) : State :=
  let i := m.slot
  let s1 := s.setWord (0x1C08100 + 8 * i) 0
  let s2 := (((s1.set (R.SWC_MIG.STATE i) state).set (R.SWC_MIG.DEVICE i) m.device).set (R.SWC_MIG.TARGET i) target).set
    (R.SWC_MIG.TKIND i) tkind
  let s3 := s2.set (R.SWC_MIG.ENDPOINT i) m.ep
  let s4 := s3.set R.SWC_MIG_CTRL.ACTIVE (s3.get R.SWC_MIG_CTRL.ACTIVE + 1)
  { s4 with mig := { s4.mig with open_ := s4.mig.open_ ++ [m] } }.updCmd m.seq fun c => { c with started := true }

/-- A migration ends: its slot is free, its fence queue is spliced in order, its command completes. A fenced packet has passed the test for
late results (R253) when it came. -/
def State.endMig (s : State) (m : Migration) (code : Nat) : State :=
  let s1 := { s with mig := { s.mig with open_ := s.mig.open_.filter fun n => n.slot != m.slot } }
  let s2 := (s1.set (R.SWC_MIG.STATE m.slot) 0).dec R.SWC_MIG_CTRL.ACTIVE 1
  (m.fence.foldl (fun t p => t.routeLeaf p) s2).finish m.seq code 0 0 (m.takeNs % 2 ^ 48) []

/-- A LOCAL migration ends; when the old placement is a service facet, later results of the old epoch are discarded. -/
def State.endLocal (s : State) (m : Migration) : State :=
  let s1 := if m.oldPlace.any fun k => decide (16 ≤ k) then
    { s with mig := { s.mig with late := (m.ep, m.oldEpoch) :: s.mig.late } } else s
  s1.endMig m 0

/-! ### EP_MIGRATE (R251) -/

/-- The lowest free slot. -/
def State.freeSlot (s : State) : Option Nat :=
  (List.range 256).find? fun i => s.mig.open_.all fun m => m.slot != i

/-- The schedule depths of a prism's loaded banks. -/
def State.depths (s : State) (k : Nat) : List Nat :=
  ((List.range 2).map fun b => s.get (R.PRISM_SCHED.DEPTH k b)).filter fun d => d != 0

/-- The move from prism `p` to prism `q` is too deep. -/
def State.tooDeep (s : State) (p q : Nat) : Bool :=
  let from_ := (s.depths p).foldl max 0 + s.get (R.PRISM_ALLOW.S_CUT p)
  let to_ := match s.depths q with | [] => 0 | d :: ds => ds.foldl min d
  decide (1976 < from_ - to_)

/-- The target byte names a prism or a service facet, with its reserved bits 0. -/
def targetGood (t : Nat) : Bool := if t < 128 then decide (t < 16) else decide (t % 128 < 32)

/-- The placement that a target byte names. -/
def targetPlace (t : Nat) : Nat := if t < 128 then t else 16 + t % 128

/-- The body of EP_MIGRATE with one kind, its reserved values refused. -/
def State.migrate (s : State) (seq kind : Nat) (body : OpenCmd → Nat → State → State) : State :=
  s.runCmd seq 0x40 fun c t =>
    let known := decide (c.op 20 1 < 3)
    if c.op 20 1 ≠ kind ∧ (known = true ∨ kind ≠ 0) then t
    else if !c.formed [(30, 34)] || !known || decide (2 ^ 20 ≤ c.op 16 4) || (kind != 1 && !targetGood (c.op 21 1)) ||
        decide (4096 ≤ c.op 24 2) || decide (1000 < c.op 28 2) ||
        (kind == 0 && decide (256 ≤ c.op 22 2) && c.op 22 2 != 0xFFFF) then t.refuse seq 1
    else
      let e := c.op 16 4
      match (if t.mig.open_.any fun m => m.ep == e then none else t.freeSlot) with
      | none => t.refuse seq 2
      | some i =>
        let gone := (t.placement e).place == some placeGone
        if gone != (kind == 2) then t.refuse seq 3 else body c i t

/-- EP_MIGRATE LOCAL (R252). -/
def execEpMigrateLocal (seq : Nat) (s : State) : Out State :=
  complete true s (s.migrate seq 0 fun c i t =>
    let e := c.op 16 4
    let target := targetPlace (c.op 21 1)
    let old := t.placeOf e
    let deep := match old with
      | some p => decide (p < 16 ∧ target < 16) && t.tooDeep p target
      | none => false
    if deep then t.refuse seq 0xE
    else
      let pl := t.placement e
      let new := 1 - pl.epoch
      let r := match old with
        | some k => if k < 16 then let d := t.startRound [k] false; ([d.1], d.2) else (t.servicePackets (k - 16) e, t)
        | none => ([], t)
      let m : Migration := {
        slot := i
        ep := e
        seq := seq
        kind := 0
        oldPlace := old
        oldEpoch := pl.epoch
        takeNs := t.ns
        waits := r.1 }
      let g := c.op 22 2
      let t1 := if g = 0xFFFF then r.2 else
        { r.2 with apr := { r.2.apr with assigned := r.2.apr.assigned.put (fun _ => 0) (96 + g) target } }
      let t2 := t1.setPlacement e { pl with place := some target, epoch := new }
      let t3 := { t2 with mig := { t2.mig with late := t2.mig.late.filter fun x => x != (e, new) } }
      t3.openMig m 1 (c.op 21 1 / 128) (c.op 21 1 % 32))

/-- The ordering markers behind the re-queued packets of an OUT migration (R254, R337). -/
def State.sendMarkers (s : State) (e device : Nat) (moved : List Pkt) : State :=
  (List.range 8).foldl (fun t c =>
    let key := match (moved.filter fun p => p.stamp.cls == c).getLast? with | some p => p.key | none => 0
    let p : Pkt := {
      id := t.buf.nextId
      src := 384
      bytes := []
      marker := true
      ep := e
      key := key
      stamp := { cls := c }
      irisNs := t.ns
      irisKey := keyOf t.ns }
    ({ t with buf := { t.buf with nextId := t.buf.nextId + 1 } }).joinLeaf (2 ^ 20 + 8 * device + c) p) s

/-- EP_MIGRATE OUT (R254). -/
def execEpMigrateOut (seq : Nat) (s : State) : Out State :=
  complete true s (s.migrate seq 1 fun c i t =>
    let e := c.op 16 4
    let d := c.op 24 2
    let w := if c.op 28 2 = 0 then 1000 else c.op 28 2
    let pl : Placement := { t.placement e with place := some placeTail, device := d, queue := c.op 26 2 }
    let m : Migration := {
      slot := i
      ep := e
      seq := seq
      kind := 1
      device := d
      queue := c.op 26 2
      takeNs := t.ns
      endNs := t.ns + 10000 * w }
    let t1 := ((t.setPlacement e pl).openMig m 3 0 0).closeWhere fun b => b.leaf == e
    let moved := t1.leafQ e
    let t2 := moved.foldl (fun u p => u.redirect pl p) (t1.setLeafQ e [])
    (t2.emptied e).sendMarkers e d moved)

/-- EP_MIGRATE IN (R255). -/
def execEpMigrateIn (seq : Nat) (s : State) : Out State :=
  complete true s (s.migrate seq 2 fun c i t =>
    let e := c.op 16 4
    let m : Migration := { slot := i, ep := e, seq := seq, kind := 2, device := c.op 24 2, takeNs := t.ns }
    (t.setPlacement e { t.placement e with place := some (targetPlace (c.op 21 1)) }).openMig m 2 (c.op 21 1 / 128) (c.op 21 1 % 32))

/-! ### Events of a migration (R252 to R255) -/

/-- The token of a LOCAL migration has come through: out of its prism, or behind the service facet's work, with every descriptor of
the old epoch handed off before it enqueued. -/
def State.tokenThrough (s : State) (m : Migration) : Bool :=
  (s.buf.handoff.all fun p => !(p.remote.isNone && p.ep == m.ep && p.stamp.epoch == m.oldEpoch)) &&
  match m.oldPlace with
  | none => true
  | some k => if k < 16 then m.waits.all fun id => !s.tokenInside k id
    else m.waits.all fun x => !(s.servicePackets (k - 16) m.ep).contains x

/-- MIG_TOKEN_ARRIVAL (R252, R253). -/
def execMigTokenArrival (i : Nat) (s : State) : Out State :=
  complete (Instr.wf (.migTokenArrival i)) s
    (match s.slotMig i 0 with
    | some m => if s.executing && s.tokenThrough m then s.endLocal m else s
    | none => s)

/-- FENCE_LIMIT_EXPIRY (R253): the token of a service facet is late; beats are counted at the floor. -/
def execFenceLimitExpiry (i : Nat) (s : State) : Out State :=
  complete (Instr.wf (.fenceLimitExpiry i)) s
    (match s.slotMig i 0 with
    | some m =>
      if s.executing && (m.oldPlace.any fun k => decide (16 ≤ k)) &&
          (m.firstNs.any fun t => decide (10 * s.get R.SWC_MIG_CTRL.FENCE_LIMIT ≤ 21 * (s.ns - t))) then s.endLocal m else s
    | none => s)

/-- TAIL_WINDOW_END (R254): the record becomes GONE. -/
def execTailWindowEnd (i : Nat) (s : State) : Out State :=
  complete (Instr.wf (.tailWindowEnd i)) s
    (match s.slotMig i 1 with
    | some m =>
      if s.executing && decide (m.endNs ≤ s.ns) then
        (s.setPlacement m.ep { s.placement m.ep with place := some placeGone }).endMig m 0
      else s
    | none => s)

/-- MARKER_LIMIT_EXPIRY (R255): the fence is released with outcome "timeout". -/
def execMarkerLimitExpiry (i : Nat) (s : State) : Out State :=
  complete (Instr.wf (.markerLimitExpiry i)) s
    (match s.slotMig i 2 with
    | some m =>
      if s.executing && s.get (R.SWC_MIG.MARKERS i) != 255 &&
          (m.firstNs.any fun t => decide (t + 1000 * s.get R.SWC_MIG_CTRL.MARKER_LIMIT ≤ s.ns)) then s.endMig m 3 else s
    | none => s)

/-- A marker of class `c` has been sent for the OUT migration of an endpoint. -/
def State.markerSent (s : State) (e c : Nat) : State :=
  match s.migOf e 1 with
  | some m => s.set (R.SWC_MIG.MARKERS m.slot) (s.get (R.SWC_MIG.MARKERS m.slot) ||| 2 ^ c)
  | none => s

/-- An IN migration whose eight markers have arrived ends once every packet of the source device released before them has joined its
queue: the fence is spliced behind them (R255). In HOLD-UP execution has stopped (R476). -/
def State.endMarked (s : State) (e : Nat) : State :=
  match s.migOf e 2 with
  | some m =>
    if s.mode ≠ .holdUp ∧ s.get (R.SWC_MIG.MARKERS m.slot) = 255 ∧ (s.buf.handoff.any fun p => p.leaves.contains e && p.remote == some m.device) = false then
      s.endMig m 0
    else s
  | none => s

/-- A marker of class `c` arrives from a device: the eighth ends the IN migration. -/
def State.markerIn (s : State) (device e c : Nat) : State :=
  match s.migOf e 2 with
  | some m =>
    if m.device ≠ device then s
    else
      (s.set (R.SWC_MIG.MARKERS m.slot) (s.get (R.SWC_MIG.MARKERS m.slot) ||| 2 ^ c)).endMarked e
  | none => s

end Sys2Proof.Machine
end

