-- ==== Sys2Proof/Machine/Handoff.lean ====
section
/-! DEFINITION. The handoff from facet 29: where a packet goes, its edits, the wake test, exception packets and copies (R131, R237,
R238, R284, R290, R305, R355, R361, R384, R407, R453, R565). -/
namespace Sys2Proof.Machine

/-! ### Packets on their way to the switch core -/

/-- The items of a service facet, with their packets changed. -/
def Service.mapPkts (v : Service) (f : Pkt → Pkt) : Service :=
  let g (x : Item) : Item := { x with pkt := x.pkt.map f }
  { v with running := v.running.map g, saved := v.saved.map g, queue := v.queue.map g }

/-- A change of every packet that a frame still arriving can stand for: before its prism, in it, in the exception queue, at a
service facet, handed off, in switch cut-through, or on its way to a capture ring. -/
def State.mapPkts (s : State) (f : Pkt → Pkt) : State :=
  { s with
    buf := { s.buf with
      toPrism := s.buf.toPrism.map fun e => (e.1, e.2.map f)
      handoff := s.buf.handoff.map f
      cutting := s.buf.cutting.map fun e => (e.1, f e.2) }
    code := { s.code with
      prisms := s.code.prisms.map fun e =>
        (e.1, { e.2 with flights := e.2.flights.map fun (x : Flight) => { x with pkt := x.pkt.map f } })
      services := s.code.services.map fun e => (e.1, e.2.mapPkts f)
      excepts := s.code.excepts.map fun e => (e.1, f e.2) }
    cnt := { s.cnt with captures := s.cnt.captures.map fun e => (e.1, e.2.1, f e.2.2) } }

/-- The remaining bytes of a frame still arriving are discarded as they come. -/
def State.discardRest (s : State) (id : Nat) : State :=
  { s with buf := { s.buf with rx := s.buf.rx.map fun g => if g.pkt.id = id then { g with gone := true } else g } }

/-- A prism verdict of DROP: the cells are released and the reason counted (R237). -/
def State.verdictDrop (s : State) (r : Nat) (p : Pkt) : State :=
  let s1 := s.dropPkt r p
  if p.cut then s1.discardRest p.id else s1

/-- The owner named in the cells of an owner-named chain becomes `o` (R266). -/
def State.renameChain (s : State) (o : Nat) (p : Pkt) : State × Pkt :=
  if p.owner.isNone then (s, p)
  else (p.cells.foldl (fun (t : State) i => t.setLink i (bitsSet (t.link i) 32 12 o)) s, { p with owner := some o })

/-- A verdict of EXCEPT: the packet as received, with its vector, waits for the exception role in fresh owner-named cells of the
exception queues, and gives up the chain that it had (R37, R237, R264). -/
def State.divert (s : State) (prism r : Nat) (v : Vect) (p : Pkt) : State :=
  let s1 := s.countReason r p
  let p1 := { p with accepted := false, reason := r, vector := v }
  let t := s1.takeCells (some 288) p.acct (fun _ => extraKind p.acct p.stamp.cls) (cellsOf p.len) []
  let s2 := (t.1.relink (some 288) p.len t.2 0).releaseCells p
  let s3 := if p.cut then s2.discardRest p.id else s2
  { s3 with code := { s3.code with
      excepts := s3.code.excepts ++ [(prism, { p1 with owner := some 288, cells := t.2, xResv := 0, xShar := 0 })] } }

/-- The chain of a packet takes the length `len`, FCS included: its last cells released, or more cells taken and charged to its account
and class, and every FILL written. -/
def State.refit (s : State) (p : Pkt) (len : Nat) : State × Pkt :=
  let n := cellsOf len
  let k := p.cells.length
  if n ≤ k then
    let req := match p.owner with | some o => o | none => 291
    let s1 := (p.cells.drop n).foldl (fun (t : State) i => t.releaseCell req i) s
    (s1.relink p.owner len (p.cells.take n) 0, { p with cells := p.cells.take n })
  else
    let t := s.takeCells p.owner p.acct (fun _ => extraKind p.acct p.stamp.cls) (n - k) []
    (t.1.relink p.owner len (p.cells ++ t.2) 0, { p with cells := p.cells ++ t.2 })

/-- The chain of a packet whose frame has become `len` bytes long; that of a frame still arriving is fitted at its end. -/
def State.resize (s : State) (p : Pkt) (len : Nat) : State × Pkt :=
  if p.cut ∨ (cellsOf len = p.cells.length ∧ len = p.len) then (s, p) else s.refit p len

/-! ### Destinations (R284, R305, R355, R361) -/

/-- E_out of an output, in ns (R106). -/
def State.eOut (s : State) (o : Nat) : Nat :=
  if o < 96 then
    (if 100000 ≤ s.portMbps o then 80 else if 25000 ≤ s.portMbps o then 160 else 400) + (if s.bit (R.SEC_MSEC_PORT.EN o) then 24 else 0)
  else 400

/-- The checks of R284 on a local destination queue of a kind, whose packet is to join leaf queue `e`: the host queue, when it is
one. -/
def State.localQueue (s : State) (kind q e : Nat) : Option (Option Nat) :=
  let t := s.get (R.SWC_DQ.TARGET q)
  let out := (s.leafOut e).map fun x => x.1
  if !s.bit (R.SWC_DQ.VALID q) then none
  else match s.get (R.SWC_DQ.KIND q), kind with
    | 0, 0 => if t < 96 ∧ s.upperMac t = false ∧ s.get (R.MAC_CFG.SPEED t) ≠ 0 ∧ out = some t then some none else none
    | 1, 2 => if t < 16384 ∧ out = some (96 + s.get (R.HOST_Q.EP t)) then some (some t) else none
    | _, _ => none

/-- The scope test of R305 on a local destination. -/
def State.inScope (s : State) (p : Pkt) : (Nat ⊕ Pkt) × State :=
  match s.leafOut p.leaf with
  | some (o, _) =>
    if p.remote.isNone && decide (o < 98) && decide (s.get (R.APR_RES.E_OUT_MAX p.res) < s.eOut o) then
      (.inl rEdit, s.wrap R.APR_ERR.SCOPE 1)
    else (.inr p, s)
  | none => (.inr p, s)

/-- The packet with its leaf queue chosen, or the reason of the drop; `ep` is the endpoint of destination kind 3, `sel` that of
EP_SELECT. -/
def State.aim (s : State) (p : Pkt) (kind dev q : Nat) (sel : Option Nat) (ep : Nat) : (Nat ⊕ Pkt) × State :=
  let p1 := { p with dstKind := kind, dstDev := dev, dstQ := q, hostQ := none }
  match kind with
  | 1 =>
    if q = 0xFFFF then (.inl rEdit, s)
    else if p.remote.isNone && !s.bit (R.APR_RES.FABRIC p.res) then (.inl rEdit, s.wrap R.APR_ERR.SCOPE 1)
    else if s.ownAddr.isNone then (.inl rEdit, s.sat R.FAB_LOSS.NOADDR 1)
    else (.inr { p1 with leaf := 2 ^ 20 + 8 * dev + p.stamp.cls }, s)
  | 3 =>
    let h := if s.bit (R.SWC_DQ.VALID q) && s.get (R.SWC_DQ.KIND q) == 1 then some (s.get (R.SWC_DQ.TARGET q)) else none
    s.inScope { p1 with leaf := ep, dstEp := ep, hostQ := h }
  | 0 | 2 =>
    let e := sel.getD (s.get (R.SWC_DQ.DEFAULT_EP q))
    match s.localQueue kind q e with
    | some h => s.inScope { p1 with leaf := e, dstEp := e, hostQ := h }
    | none => (.inl rEdit, s)
  | _ => (.inl rEdit, s)

/-! ### Replication groups (R286) -/

/-- A member: fabric or local, device, queue, edit list. -/
structure Member where
  fabric : Bool
  dev : Nat
  queue : Nat
  edit : Nat
  deriving DecidableEq, Repr

def memberAt (line i : Nat) : Member :=
  let w := lget line (8 + 8 * i) 8
  ⟨w.testBit 63, bitsGet w 48 12, bitsGet w 32 16, bitsGet w 16 16⟩

/-- The members of the list that starts at a line: at most 64 lines are followed, and a longer list is counted. -/
def State.members (s : State) : Nat → Nat → List Member × State
  | 0, _ => ([], s.sat R.SWC_REPL.TRUNC 1)
  | fuel + 1, i =>
    match s.directLine (s.get R.SWC_REPL.TABLE) i with
    | (.inl _, s1) => ([], s1)
    | (.inr line, s1) =>
      let here := (List.range (min 7 (lget line 0 1))).map (memberAt line)
      let next := lget line 4 4
      if next = 0 then (here, s1)
      else let r := s1.members fuel next; (here ++ r.1, r.2)

/-- A local member is itself a group. -/
def State.nested (s : State) (m : Member) : Bool :=
  !m.fabric && s.bit (R.SWC_DQ.VALID m.queue) && s.get (R.SWC_DQ.KIND m.queue) == 2

/-- The packet aimed at a member; a local member that is itself a group is skipped and counted. -/
def State.aimMember (s : State) (p : Pkt) (m : Member) : (Nat ⊕ Pkt) × State :=
  if m.fabric then s.aim p 1 m.dev m.queue none 0
  else if s.nested m then (.inl rEdit, s.sat R.SWC_REPL.SKIPPED 1)
  else s.aim p (if s.get (R.SWC_DQ.KIND m.queue) = 1 then 2 else 0) 0 m.queue none 0

/-- A copy for a further member that the device cannot carry is counted (R273, R286). -/
def State.memberLost (s : State) (p : Pkt) : State := s.countAt R.SWC_REPL_LOST.COUNT 1 p.expo

/-- The further members of a group, each aimed as the entries of SWC_DQ stand now (R290). -/
def State.aimMembers (s : State) (p : Pkt) (ms : List Member) : State × List MemberAim :=
  ms.foldl (fun (acc : State × List MemberAim) m => match acc.1.aimMember p m with
    | (.inr q, t) => (t, acc.2 ++ [⟨q.dstKind, q.dstDev, q.dstQ, q.dstEp, q.leaf, q.hostQ, m.edit⟩])
    | (.inl _, t) => ((if acc.1.nested m then t else t.memberLost p), acc.2)) (s, [])

/-- The group of queue `q` as a packet's handoff or reorder release reads it: the packet aimed at member 0 with the member's edit list,
and the further members. -/
def State.aimGroup (s : State) (p : Pkt) (q : Nat) : (Nat ⊕ (Pkt × Nat × List Member)) × State :=
  match s.members 64 (s.get (R.SWC_DQ.TARGET q)) with
  | ([], s1) => (.inl rEdit, s1)
  | (m :: rest, s1) => match s1.aimMember p m with
    | (.inl r, s2) => (.inl r, s2)
    | (.inr p1, s2) => (.inr (p1, m.edit, rest), s2)

/-! ### Wake patterns (R406, R407, R453) -/

/-- One byte through CRC-16/CCITT. -/
def crc16Bits : Nat → Nat → Nat
  | 0, c => c
  | n + 1, c => crc16Bits n (if c.testBit 15 then (2 * c % 65536) ^^^ 0x1021 else 2 * c)
def crc16 (bs : List Byte) : Nat := bs.foldl (fun c b => crc16Bits 8 (c ^^^ (b.toNat * 256))) 0xFFFF

/-- A frame matches a pattern: mask, check value, ENABLE. -/
def wakeMatch (mask check : Nat) (enable : Bool) (frame : List Byte) : Bool :=
  let sel := (List.range 1024).filter fun i => mask.testBit i
  enable && !sel.isEmpty && sel.all (fun i => decide (i < frame.length)) &&
    crc16 (sel.map fun i => frame.getD i 0) == check

/-- The lowest pattern of VF `f` that a frame matches. -/
def State.wakePattern (s : State) (f : Nat) (frame : List Byte) : Nat → Nat → Option Nat × State
  | 0, _ => (none, s)
  | fuel + 1, k =>
    let t := s.get R.MAC_WAKE.TABLE
    let i := 3 * (8 * f + k)
    match s.directLine t i with
    | (.inl _, s1) => s1.wakePattern f frame fuel (k + 1)
    | (.inr a, s1) => match s1.directLine t (i + 1) with
      | (.inl _, s2) => s2.wakePattern f frame fuel (k + 1)
      | (.inr b, s2) => match s2.directLine t (i + 2) with
        | (.inl _, s3) => s3.wakePattern f frame fuel (k + 1)
        | (.inr c, s3) =>
          if wakeMatch (a + b * 2 ^ 512) (lget c 0 2) (c.testBit 16) frame then (some k, s3)
          else s3.wakePattern f frame fuel (k + 1)

/-- The wake test of a frame toward host queue `q` of a parked endpoint: the first match of a VF raises its event, which names the lowest
pattern that matches. -/
def State.wakeTest (s : State) (q : Nat) (frame : List Byte) : State :=
  let func := s.get (R.HOST_Q.FUNC q)
  if !s.bit R.MAC_WAKE.EN || decide (func < 4096) then s
  else
    let f := func - 4096
    match s.wakePattern f frame 8 0 with
    | (none, s1) => s1
    | (some k, s1) =>
      let l : Loc := ⟨(R.HOST_WAKE.VF (f / 64)).off, f % 64, 1⟩
      if s1.bit l then s1
      else
        let s0 : State := { s1 with host := { s1.host with woken := s1.host.woken.put (fun _ => 0) f (k + 1) } }
        let s2 := (s0.setBit l true).wrap R.MAC_WAKE_CNT.COUNT 1
        s2.toHost (s2.linkOf func) (.msix (s2.pfOf func) (s2.get R.HOST_CFG.WAKE_VEC))

/-! ### Copies (R237, R238, R264, R565) -/

/-- Cell `k` of a frame holds the same bytes in both frames; its FCS follows the frame, and is no change (R286). -/
def sameCell (a b : List Byte) (k : Nat) : Bool :=
  decide (256 * (k + 1) ≤ min a.length b.length ∨ a.length = b.length) && slice a (256 * k) 256 == slice b (256 * k) 256

/-- A fresh packet number. -/
def State.freshId (s : State) : Nat × State := (s.buf.nextId, { s with buf := { s.buf with nextId := s.buf.nextId + 1 } })

/-- What a copy carries of its original (R555, R565). -/
def copyOf (p : Pkt) (kind : Nat) (bytes : List Byte) : Pkt :=
  { p with
    copy := kind
    bytes := bytes
    fcs := frameCheck bytes
    accepted := false
    xResv := 0
    xShar := 0
    group := false
    orig := []
    aims := []
    vector := 0 }

/-- The leaf queue of a host queue: the default endpoint of the lowest destination queue that names it. -/
def State.hostLeaf (s : State) (hq : Nat) : Option Nat :=
  (s.regs.filter fun e => decide (0x1C80000 ≤ e.1 ∧ e.1 < 0x1D00000)).map (fun e => (e.1 - 0x1C80000) / 8) |>.findSome? fun q =>
    if s.bit (R.SWC_DQ.VALID q) && s.get (R.SWC_DQ.KIND q) == 1 && s.get (R.SWC_DQ.TARGET q) == hq then
      some (s.get (R.SWC_DQ.DEFAULT_EP q)) else none

/-- A copy joins the descriptors handed off. -/
def State.handCopy (s : State) (p : Pkt) : State :=
  let i := s.freshId
  { i.2 with buf := { i.2.buf with handoff := i.2.buf.handoff ++ [{ p with id := i.1 }] } }

/-- The COPY_CPU copy with reason `r` (R237, R238). -/
def State.copyCpu (s : State) (r : Nat) (p : Pkt) (received : List Byte) : State :=
  if !s.bit (R.SWC_REASON.ENABLE r) then s
  else
    let q := s.get (R.SWC_REASON.QUEUE r)
    let c := copyOf p (256 + r) received
    match s.hostLeaf q with
    | none => s.wrap (R.SWC_REASON.LOST r) 1
    | some e => match s.privateChain p (some 291) p.stamp.cls (received.length + 4) with
      | (t, none) => t.wrap (R.SWC_REASON.LOST r) 1
      | (t, some cells) =>
        t.handCopy { c with
          cells := cells
          owner := some 291
          stamp := { p.stamp with cls := s.get (R.SWC_REASON.CLASS r) }
          dstKind := 2
          dstEp := e
          leaf := e
          hostQ := some q }

/-- The chain of a mirror copy toward a port or the fabric: it shares the full cells that hold the same bytes. -/
def State.mirrorChain (s : State) (p : Pkt) (c : Pkt) : State × Option (List Nat) :=
  s.copyChain p p.stamp.cls c.len (sameCell c.bytes p.bytes)

/-- A request for a mirror copy to session `m` (R565); `p` has its final bytes and chain. -/
def State.mirror (s : State) (m : Nat) (p : Pkt) (received : List Byte) : State :=
  if !s.bit (R.MIR_SESSION.VALID m) then s
  else
    let n := SMap.find (fun _ => 0) s.cnt.mirrored m + 1
    let s1 := { s with cnt := { s.cnt with mirrored := s.cnt.mirrored.put (fun _ => 0) m n } }
    if n % 2 ^ s.get (R.MIR_SESSION.SHIFT m) ≠ 0 then s1
    else
      let tr := s.get (R.MIR_SESSION.TRUNC m)
      let idx := s.get (R.MIR_SESSION.INDEX m)
      let c := copyOf p (512 + m) (if tr = 0 then received else received.take (64 * tr))
      let lost (t : State) : State := t.countAt (R.MIR_LOST.COUNT m) 1 p.expo
      match s.get (R.MIR_SESSION.KIND m) with
      | 0 =>
        let q := idx % 65536
        let e := s.get (R.SWC_DQ.DEFAULT_EP q)
        if s.get (R.SWC_DQ.KIND q) = 1 then
          match s1.privateChain p (some 291) p.stamp.cls c.len with
          | (t, some cells) =>
            t.handCopy { c with
              cells := cells, owner := some 291, dstKind := 2, dstQ := q, dstEp := e, leaf := e
              hostQ := some (s.get (R.SWC_DQ.TARGET q)) }
          | (t, none) => lost t
        else if s.get (R.SWC_DQ.KIND q) = 0 then
          match s1.mirrorChain p c with
          | (t, some cells) => t.handCopy { c with cells := cells, owner := none, dstKind := 0, dstQ := q, dstEp := e, leaf := e, hostQ := none }
          | (t, none) => lost t
        else lost s1
      | 1 =>
        let cls := s.get (R.MIR_SESSION.CLASS m)
        let dev := bitsGet idx 16 12
        match s1.mirrorChain p c with
        | (t, some cells) => t.handCopy { c with
            cells := cells, owner := none, stamp := { p.stamp with cls := cls }, dstKind := 1, dstDev := dev, dstQ := idx % 65536
            leaf := 2 ^ 20 + 8 * dev + cls
            hostQ := none }
        | (t, none) => lost t
      | 2 =>
        let whole := received ++ leBytes 4 (frameCheck received)
        let cap := if tr = 0 then whole else whole.take (64 * tr)
        match s1.privateChain p (some 290) p.stamp.cls cap.length with
        | (t, some cells) =>
          { t with cnt := { t.cnt with
              captures := t.cnt.captures ++ [(idx % 16, whole.length, { c with bytes := cap, cells := cells, owner := some 290 })] } }
        | (t, none) => lost t
      | _ => lost s1

/-- The copies a packet asks for, in the order requested. -/
def State.copies (s : State) (vd : Verdict) (p : Pkt) (received : List Byte) : State :=
  let s1 := match vd.copy with | some r => s.copyCpu r p received | none => s
  vd.mirrors.foldl (fun (t : State) m => t.mirror m p received) s1

/-! ### Arrivals from the fabric (R286, R290) -/

/-- The first 256 B of a packet as a header window. -/
def headerOf (p : Pkt) : Vect := vset 0 0 512 (beVal (slice (p.bytes ++ leBytes 4 p.fcs) 0 256))

/-- An arrival from the fabric for a replication group is aimed as it leaves the reorder stage: member 0 with its edit list applied,
and the further members. Its account has only its reserved minimum: a packet that its edits would make longer than the free cells allow
is dropped with reason EDIT (R274; DESIGN CHOICE, log 169). -/
def State.arriveGroup (s : State) (p0 : Pkt) : (Nat ⊕ Pkt) × State :=
  let p : Pkt := { p0 with orig := p0.bytes, vector := headerOf p0, ownList := 0 }
  match s.aimGroup p p.groupQ with
  | (.inl r, s1) => (.inl r, s1)
  | (.inr (q, list, rest), s1) => match s1.applyEdits (s1.entryOf p.src % 16) p.vector list p.bytes with
    | (0, bytes, s2) =>
      if s2.fabricFree < cellsOf (bytes.length + 4) - q.cells.length then (.inl rEdit, s2)
      else
      let g := s2.aimMembers p rest
      let r := g.1.resize q (bytes.length + 4)
      (.inr { r.2 with bytes := bytes, fcs := frameCheck bytes, aims := g.2 }, r.1)
    | (r, _, s2) => (.inl r, s2)

/-! ### FORWARD (R237, R239, R241, R254, R384, R453) -/

/-- The MTU test: the edited frame fits the port that its leaf queue leaves through. -/
def State.fitsPort (s : State) (p : Pkt) (bytes : List Byte) : Bool :=
  match s.leafOut p.leaf with
  | some (o, _) => decide (96 ≤ o) || decide (bytes.length + 4 + s.macAdds o bytes ≤ s.get (R.MAC_CFG.MAXF o))
  | none => true

/-- What becomes of a FORWARD: a packet to enqueue, a drop, or an exception, with the reason. -/
inductive Sent where
  | go (p : Pkt)
  | drop (reason : Nat)
  | except (reason : Nat)
  deriving DecidableEq, Repr

/-- The aim of a FORWARD, with the edit list to apply, that of the packet or of member 0 of its group, and the group's further
members. -/
def State.forwardAim (s : State) (p : Pkt) (v : Vect) (vd : Verdict) : (Nat ⊕ (Pkt × Nat × List Member)) × State :=
  let q := vd.dstQ
  if (vd.dstKind = 0 ∨ vd.dstKind = 2) ∧ s.bit (R.SWC_DQ.VALID q) = true ∧ s.get (R.SWC_DQ.KIND q) = 2 then
    match s.aimGroup p q with
    | (.inl r, s1) => (.inl r, s1)
    | (.inr (p1, list, rest), s1) =>
      (.inr ({ p1 with group := true, groupQ := q, orig := p.bytes, vector := v, ownList := vd.edit }, if list = 0 then vd.edit else list, rest), s1)
  else match s.aim p vd.dstKind vd.dstDev q vd.dstEp (vget v 616 5) with
    | (.inl r, s1) => (.inl r, s1)
    | (.inr p1, s1) => (.inr (p1, vd.edit, []), s1)

/-- A FORWARD carried out up to the switch core. -/
def State.forward (s : State) (prism : Nat) (p : Pkt) (v : Vect) (vd : Verdict) : Sent × State :=
  match s.forwardAim p v vd with
  | (.inl r, s1) => (.drop r, s1)
  | (.inr (p1, list, rest), s1) => match s1.applyEdits prism v list p.bytes with
    | (0, bytes, s2) =>
      if !s2.fitsPort p1 bytes then (.except rMtu, s2.captureEdit rMtu prism 0 list)
      else if !isFabricLeaf p1.leaf && p1.hostQ.isSome && s2.host.parked.contains p1.leaf then
        (.drop (s2.get R.HOST_CFG.PARK_REASON), s2.wakeTest (p1.hostQ.getD 0) bytes)
      else if !isFabricLeaf p1.leaf && (s2.placement p1.leaf).place == some placeGone then
        (.drop 0x11, s2.countAt R.SWC_MIG_LATE.COUNT 1 p.expo)
      else
        let g := s2.aimMembers p rest
        let r := g.1.resize p1 (bytes.length + 4)
        (.go { r.2 with bytes := bytes, fcs := frameCheck bytes, aims := g.2 }, r.1)
    | (r, _, s2) => (if r = rTtl then .except r else .drop r, s2)

/-- The handoff: the verdict is taken, copies are made, and a packet that goes on to the switch core is returned. -/
def State.takeVerdict (s : State) (prism : Nat) (p : Pkt) (v : Vect) (vd : Verdict) : Option Pkt × State :=
  match vd.kind with
  | 1 => match s.forward prism p v vd with
    | (.go p1, s1) =>
      let r := s1.renameChain 291 p1
      (some r.2, r.1.copies vd r.2 p.bytes)
    | (.drop r, s1) => (none, (s1.copies vd p p.bytes).verdictDrop r p)
    | (.except r, s1) => (none, (s1.copies vd p p.bytes).divert prism r v p)
  | 2 => (none, (s.copies vd p p.bytes).verdictDrop vd.reason p)
  | 3 => (none, (s.copies vd p p.bytes).divert prism vd.reason v p)
  | _ => (none, (s.copies vd p p.bytes).verdictDrop 0x09 p)

/-- A descriptor joins those handed off, in the order of the handoffs (R285). -/
def State.handOver (s : State) (p : Pkt) : State :=
  { s with buf := { s.buf with handoff := s.buf.handoff ++ [p] } }

end Sys2Proof.Machine
end

