-- ==== Sys2Proof/Machine/Reorder.lean ====
section
/-! DEFINITION. The receiving side of the fabric: acceptance of cells, relay, reorder, release into the switch core
(R26, R339, R344, R354, R366, R369 to R372, R375). -/
namespace Sys2Proof.Machine

/-! ### Stamps (R306, R322) -/

/-- The moment nearest to now that a 24-bit deadline stamp names, in ns. -/
def State.stampNs (s : State) (stamp : Nat) : Nat :=
  let u := s.ns / 4
  let back := (u + 2 ^ 24 - stamp % 2 ^ 24) % 2 ^ 24
  if back < 2 ^ 23 then (u - back) * 4 else (u + (2 ^ 24 - back)) * 4

/-- Packets of the class are exempt from the deadline check (R306). -/
def State.exempt (s : State) (c : Nat) : Bool := decide (33554428 < s.get (R.APR_BOUND.BOUND c))

/-! ### Streams (R369) -/

def streamKey (d c : Nat) : Nat := 8 * d + c
def State.stream (s : State) (d c : Nat) : Stream := (SMap.find (fun _ => none) s.fab.streams (streamKey d c)).getD {}
def State.setStream (s : State) (d c : Nat) (x : Option Stream) : State :=
  { s with fab := { s.fab with streams := s.fab.streams.put (fun _ => none) (streamKey d c) x } }

/-- The packet-memory cell of a discarded cell is freed. -/
def State.dropMem (s : State) (m : Option Nat) : State := match m with | some i => s.dropCell i | none => s

/-- A packet whose FIRST cell this device holds loses a later cell, or comes too late: a breach with cause LINK (R371, R372, R375). Its
length is known when all its cells are here; else it is an open value. -/
def State.loseParts (s : State) (d : Nat) (parts : List (FCell × Option Nat)) : State :=
  match parts with
  | [] => s
  | (c, _) :: _ =>
    let x := if parts.any fun p => p.1.last then ((parts.map fun p => p.1.fill + 1).sum, s) else s.draw
    let s1 := parts.foldl (fun t p => t.dropMem p.2) x.2
    s1.breachOf 0x18 ⟨c.cls, s.bit (R.APR_CLASS.BOUNDED c.cls), some d, s.get (R.SWC_DQ.DEFAULT_EP c.queue), x.1, s.ns⟩

/-- The packet that released cells make, as it enters the switch core (R26, R284, R290). -/
def State.rebuilt (s : State) (d : Nat) (parts : List (FCell × Option Nat)) : State × Pkt :=
  let all := parts.flatMap fun p => p.1.payload.take (p.1.fill + 1)
  let n := all.length - 4
  let cells := parts.filterMap fun p => p.2
  let c := (parts.head?.map fun p => p.1).getD {}
  let s1 := s.relink none all.length cells 0
  let q := c.queue
  let kind := s.get (R.SWC_DQ.KIND q)
  ({ s1 with buf := { s1.buf with nextId := s1.buf.nextId + 1 } },
    { id := s1.buf.nextId
      src := 384
      bytes := all.take n
      fcs := leVal (all.drop n)
      cells := cells
      acct := 384
      stamp := { cls := c.cls, adm := s.ns }
      accepted := true
      bounded := s.bit (R.APR_CLASS.BOUNDED c.cls)
      relNs := s.stampNs c.deadline
      irisNs := s.stampNs c.deadline
      clamped := s.exempt c.cls
      key := c.deadline
      irisKey := c.deadline
      remote := some d
      expo := s.ns
      dstKind := 3
      dstQ := q
      dstEp := s.get (R.SWC_DQ.DEFAULT_EP q)
      leaf := s.get (R.SWC_DQ.DEFAULT_EP q)
      hostQ := if kind = 1 then some (s.get (R.SWC_DQ.TARGET q)) else none
      group := kind == 2
      groupQ := q })

/-- A rebuilt packet: dropped when a long gap has made it late (R372), else handed to the switch core. -/
def State.releasePacket (s : State) (d : Nat) (x : Stream) (parts : List (FCell × Option Nat)) (firstSeq : Nat) : State :=
  let c := (parts.head?.map fun p => p.1).getD {}
  let within := x.limit.any fun l => decide ((l + 65536 - firstSeq) % 65536 < 32768 ∧ l ≠ firstSeq)
  if within && !s.exempt c.cls && s.stampPast c.deadline then s.loseParts d parts
  else
    let r := s.rebuilt d parts
    if r.2.group then
      match r.1.arriveGroup r.2 with
      | (.inl reason, s1) => s1.verdictDrop reason r.2
      | (.inr p, s1) => s1.handOver p
    else r.1.handOver r.2

/-- One cell is released in sequence. -/
def State.releaseCellIn (s : State) (d cls : Nat) (x : Stream) (c : FCell) (m : Option Nat) : State × Stream :=
  let x1 := { x with exp := wrapAdd 16 x.exp 1 }
  if c.marker then
    ((s.dropMem m).markerIn d (leAt c.payload 0 4 % 2 ^ 20) cls, { x1 with skipping := false })
  else if !c.first && (x.skipping || x.parts.isEmpty) then (s.dropMem m, { x1 with parts := [] })
  else
    let s1 := if c.first then s.loseParts d x.parts else s
    let parts := if c.first then [(c, m)] else x.parts ++ [(c, m)]
    if c.last then
      (s1.releasePacket d x parts ((x.exp + 65536 + 1 - parts.length) % 65536), { x1 with parts := [], skipping := false })
    else (s1, { x1 with parts := parts, skipping := false })

/-- Releases cells as long as the cell at EXP is present. -/
def State.releaseRun (s : State) (d cls : Nat) (x : Stream) : Nat → State × Stream
  | 0 => (s, x)
  | fuel + 1 =>
    match x.held.find? fun h => h.1 == x.exp with
    | none => (s, x)
    | some h =>
      let r := s.releaseCellIn d cls { x with held := x.held.filter fun g => g.1 != x.exp } h.2.1 h.2.2
      r.1.releaseRun d cls r.2 fuel

/-- The place of a sequence behind EXP. -/
def Stream.ahead (x : Stream) (seq : Nat) : Nat := (seq + 65536 - x.exp) % 65536

/-- The limit of a stream, until every packet that begins before it has been released or dropped (R372). -/
def Stream.openLimit (x : Stream) : Option Nat :=
  x.limit.filter fun l => decide (32768 ≤ (x.exp + 2 * 65536 - x.parts.length - l) % 65536)

/-- The gap clock after a change: it runs while the cell at EXP is missing and later cells wait. What was declared lost is kept as long as
it can still arrive as stale. -/
def gapClock (now : Nat) (before after : Stream) : Stream :=
  let x := { after with limit := after.openLimit, lost := after.lost.filter fun q => decide (after.ahead q ≥ 32768) }
  if x.held.isEmpty then { x with gapNs := none }
  else if x.exp = before.exp ∧ before.gapNs.isSome then x
  else { x with gapNs := some now }

/-- The cells from EXP up to `n` places on are passed: those present are released, the others are lost, with the packet around
them. -/
def State.passCells (s : State) (d cls : Nat) (x : Stream) : Nat → State × Stream
  | 0 => (s, x)
  | n + 1 =>
    match x.held.find? fun h => h.1 == x.exp with
    | some h =>
      let r := s.releaseCellIn d cls { x with held := x.held.filter fun g => g.1 != x.exp } h.2.1 h.2.2
      r.1.passCells d cls r.2 n
    | none =>
      let s1 := s.loseParts d x.parts
      s1.passCells d cls { x with exp := wrapAdd 16 x.exp 1, parts := [], skipping := true, lost := x.exp :: x.lost } n

/-- The gap at EXP is closed: the missing cells up to the first waiting one are lost (R371). -/
def State.closeGap (s : State) (d cls : Nat) : State :=
  let x := s.stream d cls
  match x.held with
  | [] => s
  | h :: hs =>
    let n := hs.foldl (fun m g => min m (x.ahead g.1)) (x.ahead h.1)
    let r := (s.sat R.FAB_LOSS.TIMEOUTS 1).passCells d cls x n
    let t := r.1.releaseRun d cls r.2 r.2.held.length
    t.1.setStream d cls (some (gapClock s.ns x t.2))

/-- Every gap of a stream whose source has become unreachable is closed, and the stream ends. -/
def State.endStream (s : State) (d cls : Nat) : Nat → State
  | 0 => (s.loseParts d (s.stream d cls).parts).setStream d cls none
  | fuel + 1 =>
    if (s.stream d cls).held.isEmpty then (s.loseParts d (s.stream d cls).parts).setStream d cls none
    else (s.closeGap d cls).endStream d cls fuel

/-- The reorder stage places an arriving cell (R370); a stale one that had been declared lost is lost here (R375). -/
def State.place (s : State) (c : FCell) (m : Option Nat) : State :=
  let x := s.stream c.src c.cls
  let k := x.ahead c.seq
  if x.lost.contains c.seq = true ∧ 32768 ≤ k then
    (((s.setStream c.src c.cls (some { x with lost := x.lost.filter fun q => q != c.seq })).dropMem m).sat R.FAB_ERR.DUP 1).loseCell c
  else if 32768 ≤ k ∨ (x.held.any fun h => h.1 == c.seq) = true then (s.dropMem m).sat R.FAB_ERR.DUP 1
  else
    let r := if k < 4096 then (s, x) else (s.sat R.FAB_ERR.OVERRUN 1).passCells c.src c.cls x (k - 4095)
    let y := { r.2 with held := r.2.held ++ [(c.seq, c, m)] }
    let t := r.1.releaseRun c.src c.cls y y.held.length
    t.1.setStream c.src c.cls (some (gapClock s.ns x t.2))

/-- REORDER_TIMEOUT (R371). -/
def execReorderTimeout (d cls : Nat) (s : State) : Out State :=
  complete (Instr.wf (.reorderTimeout d cls)) s
    (if s.irisesRun && ((s.stream d cls).gapNs.any fun t => decide (t + s.get R.FAB_REORDER.TIMEOUT ≤ s.ns)) then s.closeGap d cls else s)

/-- GAP_LIMIT (R372): a gap stays open for longer than GAP_LIMIT; the packets then held are checked against their deadline
at release. -/
def execGapLimit (d cls : Nat) (s : State) : Out State :=
  complete (Instr.wf (.gapLimit d cls)) s
    (let x := s.stream d cls
    if s.irisesRun && (x.gapNs.any fun t => decide (t + s.get R.FAB_REORDER.GAP_LIMIT < s.ns)) then
      let n := x.held.foldl (fun m g => max m (x.ahead g.1)) 0
      s.setStream d cls (some { x with limit := some ((x.exp + n + 1) % 65536) })
    else s)

/-! ### Relay (R366) -/

/-- A cell for another device is sprayed onward, unless its deadline has passed or it has no route; in HOLD-UP it stays (R518). -/
def State.relay (s : State) (i : Nat) (c : FCell) (m : Option Nat) : State :=
  if s.mode == .holdUp then s.sprayOrWait ⟨1, c, m, some i, none⟩
  else if s.stampPast c.deadline then s.expire c m
  else if (s.nextIrises c.dst).isEmpty then s.noRoute ⟨1, c, m, some i, none⟩
  else s.sprayOrWait ⟨1, c, m, some i, none⟩

/-! ### Acceptance (R339, R344, R354) -/

/-- An accepted sequenced cell passes to the network layer, with its packet-memory cell. -/
def State.networkIn (s : State) (i : Nat) (c : FCell) (m : Option Nat) : State :=
  if !s.forMe c.dst then s.relay i c m
  else if s.bit (R.FAB_DEST.REACH c.src) then s.place c m
  else ((s.sat R.FAB_ERR.NOSTREAM 1).loseCell c).dropMem m

/-- A link-scoped payload arrives: a TSYNC is answered, an ADVERT or TREPLY waits for the route role, any other kind is
discarded. -/
def State.linkScoped (s : State) (i : Nat) (pl : List Byte) : State :=
  match leAt pl 0 1 with
  | 2 => s.sendLink i (record 256 [(0, 1, 3), (2, 2, leAt pl 2 2), (8, 8, leAt pl 8 8), (16, 8, s.stamp64),
      (32, 8, (s.word R.TIME_OFFSET.OFFSET.off).toNat)])
  | 1 | 3 => { s with fab := { s.fab with work := s.fab.work ++ [(i, s.tb, pl)] } }
  | _ => s

/-- One cell's credit goes back to the peer at once. -/
def State.creditNow (s : State) (i : Nat) : State :=
  s.setIris i { s.iris i with creditTotal := wrapAdd 16 (s.iris i).creditTotal 1 }

/-- A DATA or MARKER cell is accepted in sequence. One for which no cell of packet memory were free would not be accepted, and be sent
again; the credit that the device grants keeps that from coming about (R274). -/
def State.acceptCell (s : State) (i : Nat) (c : FCell) : State :=
  let x := s.iris i
  let s1 := s.setIris i { x with exp := wrapAdd 16 x.exp 1, nackOpen := false }
  if c.queue = 0xFFFF ∧ c.marker = false then (s1.creditNow i).linkScoped i c.payload
  else
    let f := s1.freeAny
    match f.1 with
    | none => (s.setIris i { x with nackOpen := true }).sat (R.IRIS_ERR.CRC i) (b2n (!x.nackOpen))
    | some m =>
      let s2 := (f.2.takeCell m (linkWord none 1 c.last c.fill 0)).charge m 384 (16 + i + 64 * x.ups)
      (s2.set (R.IRIS_CREDIT.HELD i) (s2.get (R.IRIS_CREDIT.HELD i) + 1)).networkIn i c (some m)

/-- A cell ends at an iris (R339). -/
def State.cellIn (s : State) (i : Nat) (bs : List Byte) : State :=
  let x := s.iris i
  let ty := cellType bs
  let up := s.irisState i == 2 || s.irisState i == 3
  if up && (ty == 1 || ty == 2) && crcMatches (seqPrefix x.exp) bs then s.acceptCell i (cellOf bs)
  else if (ty == 3 || ty == 4) && crcMatches plainPrefix bs then
    (if ty = 3 then s.ctrlIn i (bs.drop 16) else s.gaspIn i (bs.drop 16))
  else if x.nackOpen then s
  else (s.setIris i { x with nackOpen := true }).sat (R.IRIS_ERR.CRC i) 1

/-- IRIS_CELL_RECEIVE (R339): an iris that runs and is in TRAINING, UP, DRAINING or RETRAINING receives a cell. -/
def execIrisCellReceive (i : Nat) (bytes : List Byte) (s : State) : Out State :=
  complete (Instr.wf (.irisCellReceive i bytes)) s (if s.irisesRun && s.irisActive i then s.cellIn i bytes else s)

/-! ### Packets without a route (R374) -/

/-- A packet of the queue is past its iris deadline. -/
def State.irisLate (s : State) (p : Pkt) : Bool := !p.marker && decide (p.irisNs < s.ns)

/-- IRIS_DEADLINE (R374): packets queued toward an unreachable device whose iris deadline has passed. -/
def execIrisDeadline (d cls : Nat) (s : State) : Out State :=
  complete (Instr.wf (.irisDeadline d cls)) s
    (let l := 2 ^ 20 + 8 * d + cls
    if !s.forwarding || s.bit (R.FAB_DEST.REACH d) then s
    else
      let q := s.leafQ l
      let t := (q.filter s.irisLate).foldl (fun u p =>
        if p.accepted then (u.discard p).breach 0x18 p else (u.discard p).copyLost p)
        (s.setLeafQ l (q.filter fun p => !s.irisLate p))
      t.leftLeaf l)

end Sys2Proof.Machine
end

