-- ==== Sys2Proof/Machine/Shapers.lean ====
section
/-! DEFINITION. Shapers: ticks, landed changes, charges, SHAPER_SET (R317 to R319, R324, R329). -/
namespace Sys2Proof.Machine

/-! ### Keys and ticks (R317) -/

/-- The keys of the shapers of an output's class, of a group and of an endpoint. -/
def resKey (o c : Nat) : Nat := 256 + 8 * o + c
def maxKey (o c : Nat) : Nat := 2048 + 8 * o + c
def groupKey (g : Nat) : Nat := 2 ^ 16 + g
def epKey (e : Nat) : Nat := 2 ^ 20 + e

/-- The key of a shaper of an output or of its classes, which the COL registers give. -/
def outputKey (k : Nat) : Bool := decide (k < 2 ^ 16)

/-- A class reserved shaper: every other one is a maximum shaper, which RATE = 0 turns off. -/
def isReserved (k : Nat) : Bool := decide (256 ≤ k ∧ k < 2048)

/-- The tick of a shaper, in ns. -/
def tickOf (k : Nat) : Nat := if k < 2 ^ 16 then 64 else if k < 2 ^ 20 then 256 else 1024

/-- The credit that one tick adds, in units of 2^-16 B. -/
def increment (k rate : Nat) : Nat :=
  let x := rate * tickOf k * 65536
  if isReserved k then ceilDiv x 8000 else x / 8000

/-- The credit after `n` ticks with the present parameters. -/
def Shaper.refill (sh : Shaper) (k n : Nat) : Int :=
  if sh.rate = 0 ∧ isReserved k = false then 0
  else if n = 0 then sh.credit
  else min (sh.burst * 65536 : Nat) (sh.credit + (n * increment k sh.rate : Nat))

/-- The tick that applies a landed change. -/
def Shaper.apply (sh : Shaper) (k : Nat) (c : ShaperChange) : Shaper :=
  let x := { sh with rate := c.rate, burst := c.burst, weight := c.weight.getD sh.weight, change := none }
  if c.rate = 0 ∧ isReserved k = false then { x with credit := 0 }
  else match c.compat with
    | 1 => { x with credit := (c.burst * 65536 : Nat) }
    | 2 => { x with credit := 0 }
    | _ => { x with credit := x.refill k 1 }

/-- The shaper after every tick up to `t` ns (R317, R318). -/
def Shaper.tickTo (sh : Shaper) (k t : Nat) : Shaper :=
  let now := t / tickOf k
  match sh.change with
  | none => { sh with credit := sh.refill k (now - sh.ticks), ticks := now }
  | some c =>
    let land := max sh.ticks (c.landed / tickOf k)
    if now ≤ land then { sh with credit := sh.refill k (now - sh.ticks), ticks := now }
    else
      let y := ({ sh with credit := sh.refill k (land - sh.ticks) } : Shaper).apply k c
      { y with credit := y.refill k (now - (land + 1)), ticks := now }

/-- SHAPER_TICK (R317): the tick of a shaper; ticks that passed before it are taken with it. -/
def execShaperTick (k : Nat) (s : State) : Out State :=
  complete (Instr.wf (.shaperTick k)) s
    (if s.forwarding && decide ((s.shaper k).ticks < s.ns / tickOf k) then s.setShaper k ((s.shaper k).tickTo k s.ns) else s)

/-- A release of `lc` counted bytes through a shaper, charged after the update of a tick of the same beat (R318). -/
def State.chargeShaper (s : State) (k lc : Nat) : State :=
  let sh := (s.shaper k).tickTo k s.ns
  if sh.rate = 0 ∧ isReserved k = false then s else s.setShaper k { sh with credit := sh.credit - (lc * 65536 : Nat) }

/-- A change lands at a shaper. -/
def State.landChange (s : State) (k rate burst : Nat) (weight : Option Nat) (compat : Nat) : State :=
  let sh := (s.shaper k).tickTo k s.ns
  s.setShaper k { sh with change := some ⟨rate, burst, weight, compat, s.ns⟩ }

/-! ### SHAPER_SET (R329) -/

/-- The reserved rates of an output's classes as they have landed, with one of them replaced. -/
def State.reservedSum (s : State) (o : Nat) (new : Option (Nat × Nat)) : Nat :=
  ((List.range 8).map fun c => match new with
    | some (k, r) => if k = c then r else s.get (R.COL_OC_RATE.RES o c)
    | none => s.get (R.COL_OC_RATE.RES o c)).sum

/-- The first condition of R324 for an output with the given reserved sum and shape. -/
def State.overbooked (s : State) (o sum shape : Nat) : Bool :=
  decide (s.get (R.COL_OUT.CAP o) < sum) || (shape != 0 && decide (shape < sum))

/-- The node that a command names exists, with the operands that do not apply to it 0. -/
def State.shaperNode (s : State) (c : OpenCmd) : Bool :=
  let i := c.op 20 4
  (c.op 16 1 == 1 || c.op 18 1 == 0) &&
  match c.op 16 1 with
  | 0 => decide (i < 99)
  | 1 => decide (i < 99 ∧ c.op 18 1 < 8)
  | 2 => decide (i < 65536) && (s.outClassOf i).isSome
  | 3 => decide (i < 2 ^ 20) && ((s.groupOf i).bind s.outClassOf).isSome
  | _ => false

/-- A burst within 64 B to 67,108,863 B. -/
def burstGood (b : Nat) : Bool := decide (64 ≤ b ∧ b ≤ 67108863)

/-- The values of a SHAPER_SET are within their ranges. -/
def State.shaperValues (s : State) (c : OpenCmd) : Bool :=
  let kind := c.op 16 1
  let rate := c.op 24 4
  (match kind with
  | 0 => decide (rate ≤ s.get (R.COL_OUT.CAP (c.op 20 4))) && c.op 32 4 == 0
  | 1 => decide (rate ≤ s.get (R.COL_OUT.CAP (c.op 20 4))) && decide (c.op 28 4 < 2 ^ 28) && burstGood (c.op 32 4) && burstGood (c.op 36 4)
  | _ => burstGood (c.op 32 4)) &&
  (kind == 1 || (c.op 28 4 == 0 && c.op 36 4 == 0)) && (if 2 ≤ kind then decide (c.op 40 2 < 4096) else c.op 40 2 == 0)

/-- What the burst registers show for a burst: its 64 B units, rounded up (COL_OC_BURST). A burst that rounds up to 2^20 units
shows the largest value of the field. -/
def burstUnits (b : Nat) : Nat := min 0xFFFFF (ceilDiv b 64)

/-- The burst that the device applies to an output's class: a multiple of 64 B, rounded up. -/
def burstApplied (b : Nat) : Nat := 64 * ceilDiv b 64

/-- Header, flags and reserved bytes. -/
def shaperFormed (c : OpenCmd) : Bool := c.formed [(19, 1), (42, 22)] && decide (c.op 17 1 < 8) && c.op 17 1 % 4 != 3

/-- The change of a checked SHAPER_SET lands. -/
def State.shaperLand (s : State) (c : OpenCmd) : State :=
  let compat := c.op 17 1 % 4
  let i := c.op 20 4
  let rate := c.op 24 4
  let burst := c.op 32 4
  let weight := if c.op 40 2 = 0 then none else some (c.op 40 2)
  match c.op 16 1 with
  | 0 => (s.set (R.COL_OUT.SHAPE i) rate).landChange i rate 16384 none compat
  | 1 =>
    let k := c.op 18 1
    let s1 := (s.set (R.COL_OC_RATE.RES i k) rate).set (R.COL_OC_RATE.MAX i k) (c.op 28 4)
    let s2 := (s1.set (R.COL_OC_BURST.RES_BURST i k) (burstUnits burst)).set (R.COL_OC_BURST.MAX_BURST i k)
      (burstUnits (c.op 36 4))
    (s2.landChange (resKey i k) rate (burstApplied burst) none compat).landChange (maxKey i k) (c.op 28 4)
      (burstApplied (c.op 36 4)) none compat
  | 2 => s.landChange (groupKey i) rate burst weight compat
  | _ => s.landChange (epKey i) rate burst weight compat

/-- The new rates would break the first condition of R324. -/
def State.rateBroken (s : State) (c : OpenCmd) : Bool :=
  let o := c.op 20 4
  match c.op 16 1 with
  | 0 => s.overbooked o (s.reservedSum o none) (c.op 24 4)
  | 1 => s.overbooked o (s.reservedSum o (some (c.op 18 1, c.op 24 4))) (s.get (R.COL_OUT.SHAPE o))
  | _ => false

/-- A rate or a weight for a group or endpoint of the fabric output. -/
def State.fabricNode (s : State) (c : OpenCmd) : Bool :=
  decide (2 ≤ c.op 16 1) && (c.op 24 4 != 0 || c.op 40 2 != 0) &&
    ((if c.op 16 1 = 2 then some (c.op 20 4) else s.groupOf (c.op 20 4)).bind s.outClassOf).any fun x => x.1 == 98

/-- SHAPER_SET (R329). -/
def execShaperSet (seq : Nat) (s : State) : Out State :=
  complete true s (s.runCmd seq 0x30 fun c t =>
    if (c.op 17 1).testBit 2 then t
    else if !shaperFormed c || !t.shaperNode c || !t.shaperValues c || t.fabricNode c then t.refuse seq 1
    else if t.rateBroken c then t.refuse seq 0xF
    else (t.shaperLand c).done seq [])

/-- A credit in whole bytes, rounded toward minus infinity, in 4 B of two's complement. -/
def creditBytes (c : Int) : Nat := twos 32 (c / 65536)

/-- The parameters in effect that a QUERY returns. -/
def State.shaperQuery (s : State) (c : OpenCmd) : List (Nat × Nat × Nat) :=
  let i := c.op 20 4
  match c.op 16 1 with
  | 1 =>
    let r := s.shaper (resKey i (c.op 18 1))
    let m := s.shaper (maxKey i (c.op 18 1))
    [(16, 4, r.rate), (20, 4, m.rate), (24, 4, r.burst), (28, 4, m.burst), (36, 4, creditBytes r.credit), (40, 4, creditBytes m.credit)]
  | k =>
    let sh := s.shaper (if k = 0 then i else if k = 2 then groupKey i else epKey i)
    [(16, 4, sh.rate), (24, 4, sh.burst), (32, 2, sh.weight), (36, 4, creditBytes sh.credit)]

/-- SHAPER_QUERY (R329): SHAPER_SET with QUERY checks kind, class and index alone, changes nothing and returns what is in effect. -/
def execShaperQuery (seq : Nat) (s : State) : Out State :=
  complete true s (s.runCmd seq 0x30 fun c t =>
    if !(c.op 17 1).testBit 2 then t
    else if !t.shaperNode c then t.refuse seq 1
    else t.told seq (t.shaperQuery c))

end Sys2Proof.Machine
end

