-- ==== Sys2Proof/Machine/Collimator.lean ====
section
/-! DEFINITION. The collimator: the choice of a leaf, its release, late deliveries, starvation, breaches of queued packets,
switch cut-through (R288, R294, R309, R313 to R327). -/
namespace Sys2Proof.Machine

/-! ### What may start (R288, R316) -/

/-- The link of an output is there: a port's link up, a host endpoint out of reset, an address for the fabric (R361). -/
def State.outputUp (s : State) (o : Nat) : Bool :=
  if o < 96 then s.portOn o && s.linkUp o else if o = 98 then s.ownAddr.isSome else s.epUp (o - 96)

/-- A frame of class `c` may start at an output now. -/
def State.canStart (s : State) (o c : Nat) : Bool := s.outputUp o && (96 ≤ o || s.portFree o c)

/-- The leaf queues of an output that may be served now, ascending, with their class. -/
def State.candidates (s : State) (o : Nat) : List (Nat × Nat) :=
  s.buf.leaves.filterMap fun e => match s.leafOut e.1 with
    | some (p, c) => if p = o ∧ s.eligible e.1 = true ∧ s.canStart o c = true then some (e.1, c) else none
    | none => none

/-- The head of a leaf queue. -/
def State.headOf (s : State) (l : Nat) : Option Pkt := (s.leafQ l).head?

/-- The counted length of a leaf's head at an output. -/
def State.headLen (s : State) (o l : Nat) : Nat := match s.headOf l with | some p => s.counted o p | none => 0

/-! ### Urgent heads (R321, R322) -/

/-- The key of a leaf's head at an output. -/
def State.headKey (s : State) (o l : Nat) : Nat := match s.headOf l with | some p => if o = 98 then p.irisKey else p.key | none => 0

/-- A head is urgent: every head at the fabric output; elsewhere its key falls no later than now + URGENT. -/
def State.urgent (s : State) (o c l : Nat) : Bool :=
  o == 98 || !keyEarlier (keyOf (s.ns + s.get (R.COL_CLASS.URGENT c))) (s.headKey o l)

/-- The earliest of the urgent heads, the lowest leaf queue number first. -/
def State.earliest (s : State) (o : Nat) (ls : List Nat) : Option Nat :=
  ls.foldl (fun b l => match b with
    | none => some l
    | some m => if keyEarlier (s.headKey o l) (s.headKey o m) then some l else some m) none

/-! ### Deficit rounds (R323) -/

/-- Numbers in ascending order. -/
def insertNat (n : Nat) : List Nat → List Nat
  | [] => [n]
  | m :: ms => if n ≤ m then n :: m :: ms else m :: insertNat n ms
def sortNat (l : List Nat) : List Nat := l.foldr insertNat []

/-- The node after `last` in number, wrapping. -/
def nodeAfter (nodes : List Nat) (last : Option Nat) : Option Nat :=
  match last with
  | none => nodes.head?
  | some l => match nodes.find? fun n => decide (l < n) with | some n => some n | none => nodes.head?

/-- The rounds of one level: the deficits that nodes have gained, and the node served. -/
def roundFrom (nodes : List Nat) (deficit : Nat → Int) (weight len : Nat → Nat) : Nat → Option Nat → List (Nat × Int) → Option (Nat × List (Nat × Int))
  | 0, _, _ => none
  | fuel + 1, last, gained =>
    match nodeAfter nodes last with
    | none => none
    | some n =>
      let have_ := ((gained.find? fun x => x.1 == n).map fun x => x.2).getD (deficit n)
      let d := have_ + (max 1 (weight n) * 256 : Nat)
      let g := (n, d) :: gained.filter fun x => x.1 != n
      if (len n : Int) ≤ d then some (n, g) else roundFrom nodes deficit weight len fuel (some n) g

/-- The turns that a level can need before some node's deficit covers its head. -/
def roundFuel (nodes : List Nat) (deficit : Nat → Int) (len : Nat → Nat) : Nat :=
  (nodes.map fun n => ((len n : Int) - deficit n).toNat / 256 + 2).sum

/-- The node a level serves next: the one whose turn goes on, else the next in the rounds. -/
def levelPick (nodes : List Nat) (deficit : Nat → Int) (weight len : Nat → Nat) (last : Option Nat) (turn : Bool) :
    Option (Nat × List (Nat × Int)) :=
  match last with
  | some n =>
    if turn ∧ nodes.contains n = true ∧ (len n : Int) ≤ deficit n then some (n, [])
    else roundFrom nodes deficit weight len (roundFuel nodes deficit len) last []
  | none => roundFrom nodes deficit weight len (roundFuel nodes deficit len) none []

/-- The keys of the round of a class and of a group. -/
def classRound (o c : Nat) : Nat := 8 * o + c
def groupRound (g : Nat) : Nat := 2 ^ 10 + g

def State.lastOf (s : State) (k : Nat) : Option Nat := match SMap.find (fun _ => 0) s.col.lastNode k with | 0 => none | n + 1 => some n
def State.turnOf (s : State) (k : Nat) : Bool := SMap.find (fun _ => false) s.col.inTurn k

/-- The round of a level keeps the node served and its turn. -/
def State.setRound (s : State) (k n : Nat) : State :=
  { s with col := { s.col with
      lastNode := s.col.lastNode.put (fun _ => 0) k (n + 1)
      inTurn := s.col.inTurn.put (fun _ => false) k true } }

/-- The endpoint that a group's round serves among the given leaves. -/
def State.epPick (s : State) (o g : Nat) (ls : List Nat) : Option (Nat × List (Nat × Int)) :=
  levelPick (ls.filter fun l => s.groupOf l == some g) (fun e => s.deficit (epDeficit e)) (fun e => (s.shaper (epKey e)).weight)
    (s.headLen o) (s.lastOf (groupRound g)) (s.turnOf (groupRound g))

/-- The leaf the rounds of a class serve, and the state with the deficits that were gained. -/
def State.roundPick (s : State) (o c : Nat) (ls : List Nat) : Option (Nat × State) :=
  let groups := sortNat (ls.filterMap s.groupOf).eraseDups
  let len := fun g => match s.epPick o g ls with | some (e, _) => s.headLen o e | none => 0
  match levelPick groups s.deficit (fun g => (s.shaper (groupKey g)).weight) len (s.lastOf (classRound o c)) (s.turnOf (classRound o c)) with
  | none => none
  | some (g, gained) =>
    match s.epPick o g ls with
    | none => none
    | some (e, more) =>
      let s1 := gained.foldl (fun (t : State) x => t.setDeficit x.1 x.2) s
      let s2 := more.foldl (fun (t : State) x => t.setDeficit (epDeficit x.1) x.2) s1
      some (e, (s2.setRound (classRound o c) g).setRound (groupRound g) e)

/-! ### Promotion (R325) -/

/-- The classes by descending PRIO. -/
def State.classOrder (s : State) : List Nat :=
  (List.range 8).flatMap fun i => (List.range 8).filter fun c => s.get (R.COL_CLASS.PRIO c) == 7 - i

/-- The starved leaf of an output with the longest wait, the lowest number first. -/
def State.promoted (s : State) (o : Nat) : Option Nat :=
  ((sortNat s.col.starved).filter fun l => !(s.leafQ l).isEmpty && (s.leafOut l).any fun x =>
    x.1 == o && (s.get R.COL_STARVE_LIMIT.CLASS_EN).testBit x.2).foldl (fun b l => match b with
    | none => some l
    | some m => if s.waitedNs m < s.waitedNs l then some l else some m) none

/-- Where a promotion of a leaf of class `c` is placed: above the class next higher in PRIO, or at `c` itself. -/
def State.placedAbove (s : State) (c : Nat) : Option Nat :=
  match ((s.classOrder.takeWhile fun k => k != c).getLast?) with
  | some k => if s.get (R.APR_BOUND.BOUND c) ≤ s.get (R.APR_BOUND.BOUND k) then some k else none
  | none => none

/-! ### The passes (R320) -/

/-- The EXCESS pass may serve a class. -/
def State.maxOpen (s : State) (o c : Nat) : Bool := (s.shaper (maxKey o c)).rate == 0 || decide (0 ≤ (s.shaper (maxKey o c)).credit)

/-- The RESERVED pass may serve a class. -/
def State.resOpen (s : State) (o c : Nat) : Bool := (s.shaper (resKey o c)).rate != 0 && decide (0 ≤ (s.shaper (resKey o c)).credit)

/-- Some class that satisfies `p` and that the EXCESS pass may serve has an eligible urgent head. -/
def State.urgentIn (s : State) (o : Nat) (cand : List (Nat × Nat)) (p : Nat → Bool) : Bool :=
  cand.any fun x => p x.2 && s.maxOpen o x.2 && s.urgent o x.2 x.1

/-- What a pass chooses: the leaf, whether it is a promotion, whether the rounds chose it (its deficits are then charged in the
rounds), and the state with what the rounds gained. -/
structure Choice where
  leaf : Nat
  promoted : Bool
  state : State

/-- The choice within a class (R321). -/
def State.chooseIn (s : State) (o c : Nat) (excess : Bool) (cand : List (Nat × Nat)) : Option Choice :=
  let ls := (cand.filter fun x => x.2 == c).map fun x => x.1
  match s.earliest o (ls.filter fun l => s.urgent o c l) with
  | some l => some ⟨l, false, s⟩
  | none =>
    let prio := s.get (R.COL_CLASS.PRIO c)
    let here := (s.promoted o).filter fun l => excess && ls.contains l && (s.placedAbove c).isNone &&
      !s.urgentIn o cand fun k => decide (s.get (R.COL_CLASS.PRIO k) < prio)
    match here with
    | some l => some ⟨l, true, s⟩
    | none => (s.roundPick o c ls).map fun r => ⟨r.1, false, r.2⟩

/-- The EXCESS pass at a class: a promotion placed above it goes first. -/
def State.excessAt (s : State) (o c : Nat) (cand : List (Nat × Nat)) : Option Choice :=
  if !s.maxOpen o c then none
  else
    let prio := s.get (R.COL_CLASS.PRIO c)
    let above := (s.promoted o).filter fun l => (cand.find? fun x => x.1 == l).any fun x => s.placedAbove x.2 == some c
    match above.filter fun _ => !s.urgentIn o cand fun k => decide (s.get (R.COL_CLASS.PRIO k) ≤ prio) with
    | some l => some ⟨l, true, s⟩
    | none => s.chooseIn o c true cand

/-- The choice of an output: the RESERVED pass, then the EXCESS pass. -/
def State.choose (s : State) (o : Nat) : Option Choice :=
  let cand := s.candidates o
  let order := s.classOrder
  match order.findSome? fun c => if s.resOpen o c then s.chooseIn o c false cand else none with
  | some x => some x
  | none => order.findSome? fun c => s.excessAt o c cand

/-! ### Release -/

/-- The shapers of a leaf's path are charged, and the deficits of its group and endpoint. -/
def State.chargePath (s : State) (o c l lc : Nat) : State :=
  let s1 := (((s.chargeShaper o lc).chargeShaper (resKey o c) lc).chargeShaper (maxKey o c) lc)
  if isFabricLeaf l then s1
  else
    let s2 := (s1.chargeShaper (epKey l) lc).setDeficit (epDeficit l) (s1.deficit (epDeficit l) - lc)
    match s.groupOf l with
    | some g => (s2.chargeShaper (groupKey g) lc).setDeficit g (s2.deficit g - lc)
    | none => s2

/-- A turn ends, of the endpoint and of its group, whose deficit falls short of the next head's counted length or which has no
eligible leaf left (R323). -/
def State.endShort (s : State) (o c : Nat) : State :=
  let short (k : Nat) (t : State) : State := { t with col := { t.col with inTurn := t.col.inTurn.put (fun _ => false) k false } }
  let ls := s.buf.leaves.filterMap fun e => if s.leafOut e.1 = some (o, c) ∧ s.eligible e.1 = true then some e.1 else none
  match s.lastOf (classRound o c) with
  | none => s
  | some g =>
    let s1 := match s.lastOf (groupRound g) with
      | some e => if ls.contains e = true ∧ (s.headLen o e : Int) ≤ s.deficit (epDeficit e) then s else short (groupRound g) s
      | none => s
    match s1.epPick o g ls with
    | some (e, _) => if s1.deficit g < s1.headLen o e then short (classRound o c) s1 else s1
    | none => short (classRound o c) s1

/-- The head of a leaf queue leaves it. -/
def State.unqueue (s : State) (l : Nat) : State :=
  ((s.setLeafQ l ((s.leafQ l).drop 1)).clearWait l).leftLeaf l

/-- A packet of a bounded class is past its bound at its release (R294). -/
def State.isLate (s : State) (p : Pkt) : Bool :=
  p.bounded && p.accepted && !p.clamped &&
    (decide (p.relNs < s.ns) || (p.remote.isNone && decide (p.startNs + s.get (R.APR_BOUND.BOUND p.stamp.cls) < s.ns)))

/-- The cell `k` of a packet for a fabric destination. -/
def State.fabricCell (s : State) (l seq : Nat) (p : Pkt) (k n : Nat) : FCell :=
  let last := decide (k + 1 = n)
  { dst := (l - 2 ^ 20) / 8
    src := s.ownAddr.getD 0
    queue := p.dstQ
    cls := p.stamp.cls
    first := k == 0
    last := last
    fill := fillOf p.len k
    seq := seq
    deadline := p.key
    payload := p.cellBytes k
    origin := true
    leaf := some l
    len := p.len
    accepted := p.accepted
    expo := p.expo }

/-- The next sequence of a stream (R369). -/
def State.nextSeq (s : State) (d c : Nat) : Nat × State :=
  let k := streamKey d c
  let n := SMap.find (fun _ => 0) s.fab.sent k
  (n, { s with fab := { s.fab with sent := s.fab.sent.put (fun _ => 0) k (wrapAdd 16 n 1) } })

/-- A packet for the fabric is sprayed cell by cell (R367); a marker is one cell (R337). -/
def State.sendFabric (s : State) (l : Nat) (p : Pkt) : State :=
  let d := (l - 2 ^ 20) / 8
  if p.marker then
    let q := s.nextSeq d p.stamp.cls
    let c : FCell := {
      marker := true
      dst := d
      src := s.ownAddr.getD 0
      cls := p.stamp.cls
      fill := 3
      seq := q.1
      deadline := p.key
      payload := record 256 [(0, 4, p.ep)] }
    (q.2.sprayOrWait ⟨2, c, none, none, none⟩).markerSent p.ep p.stamp.cls
  else
    let n := cellsOf p.len
    (List.range n).foldl (fun t k =>
      let q := t.nextSeq d p.stamp.cls
      q.2.sprayOrWait ⟨2, q.2.fabricCell l q.1 p k n, p.cells[k]?, none, none⟩) s

/-- A released head leaves at its output: its late test, its delivery, its cells. -/
def State.deliver (s : State) (o c l : Nat) (p : Pkt) : State :=
  let s1 := if o ≠ 98 ∧ s.isLate p = true then s.late else s
  if o = 98 then s1.sendFabric l p
  else if o < 96 then (s1.macSend o c p).discard p
  else match p.hostQ with
    | some q => (s1.deliverHost q l p.stamp.cls p.bytes).discard p
    | none => s1.discard p

/-- The head cannot be protected by MACsec: the port's link goes down and the frame stays (R404). -/
def State.unprotected (s : State) (o : Nat) (p : Pkt) : Bool :=
  o < 96 && s.bit (R.SEC_MSEC_PORT.EN o) && !plainFrame p.bytes && !s.canProtect o

/-- The release of a choice; the cells at the places `bad` of the head are found to have an uncorrectable error (R282). -/
def State.release (x : Choice) (o : Nat) (bad : List Nat) : State :=
  let s := x.state
  match s.headOf x.leaf, s.leafOut x.leaf with
  | some p, some (_, c) =>
    if s.unprotected o p then s.exhaust o
    else
      let s1 := (s.chargePath o c x.leaf (s.counted o p)).unqueue x.leaf
      let s2 := if x.promoted then s1.wrap R.COL_ERR.PROMOTED 1 else s1
      let s3 := s2.markFailing p bad
      let n := (s3.failingPlaces p).length
      (if n = 0 then s3.deliver o c x.leaf p else s3.memoryFailure n p).endShort o c
  | _, _ => s

/-- COLLIMATOR_SELECT (R320): output `o` can take a frame; `bad` are the places of its chain whose cells fail as they are read. -/
def execCollimatorSelect (o : Nat) (bad : List Nat) (s : State) : Out State :=
  complete (Instr.wf (.collimatorSelect o bad)) s
    (if !s.forwarding then s
    else match s.choose o with
      | some x => State.release x o bad
      | none => s)

/-! ### Starvation (R325) -/

/-- STARVE (R325): an endpoint leaf has been eligible for longer than the limit. -/
def execStarve (l : Nat) (s : State) : Out State :=
  complete (Instr.wf (.starve l)) s
    (match s.leafOut l with
    | some (_, c) =>
      if s.forwarding && (s.get R.COL_STARVE_LIMIT.CLASS_EN).testBit c && !(s.leafQ l).isEmpty && !s.col.starved.contains l &&
          decide (1000 * s.get R.COL_STARVE_LIMIT.LIMIT < s.waitedNs l) then
        { s with col := { s.col with starved := s.col.starved ++ [l] } }
      else s
    | none => s)

/-! ### Breaches of queued packets (R309) -/

/-- The packet's pause time exceeds its allowance and its deadline has passed or is exempt. -/
def State.pauseBreach (s : State) (n c : Nat) (p : Pkt) : Bool :=
  p.accepted && decide (1000 * s.get (R.APR_CLASS.PAUSE_ALLOW p.stamp.cls) < s.pauseTime n c p) && (p.clamped || decide (p.relNs < s.ns))

/-- Drops the packets of a leaf queue that a test finds, with the cause it gives. -/
def State.breachWhere (s : State) (l : Nat) (cause : Pkt → Option Nat) : State :=
  let q := s.leafQ l
  let bad := q.filter fun p => (cause p).isSome
  if bad.isEmpty then s
  else
    let s1 := s.setLeafQ l (q.filter fun p => (cause p).isNone)
    let s2 := bad.foldl (fun t p => (t.discard p).breach ((cause p).getD 0x18) p) s1
    s2.leftLeaf l

/-- BREACH_LINK (R309). -/
def execBreachLink (l : Nat) (s : State) : Out State :=
  complete (Instr.wf (.breachLink l)) s
    (match s.leafPort l with
    | some (n, _) => if s.forwarding then s.breachWhere l fun p => if s.linkBreach n p then some 0x18 else none else s
    | none => s)

/-- BREACH_PAUSE (R309); a packet that meets LINK as well is counted under LINK. -/
def execBreachPause (l : Nat) (s : State) : Out State :=
  complete (Instr.wf (.breachPause l)) s
    (match s.leafPort l with
    | some (n, c) =>
      if s.forwarding then s.breachWhere l fun p =>
        if s.pauseBreach n c p then some (if s.linkBreach n p then 0x18 else 0x1A) else none
      else s
    | none => s)

/-! ### The link comes up (R382) -/

/-- The packets queued for a port whose release deadline has passed while its link was down are breaches before it comes up. -/
def State.linkBreaches (s : State) (n : Nat) : State :=
  (s.buf.leaves.filter fun e => (s.leafPort e.1).any fun x => x.1 == n).foldl
    (fun (t : State) e => t.breachWhere e.1 fun p => if t.linkBreach n p then some 0x18 else none) s

/-- The link comes up, unless it is held down for want of packet numbers (R382, R404) or its lanes are under test (R544). -/
def State.linkRises (s : State) (n : Nat) : State :=
  let s1 := ((s.setBit (R.MAC_STATUS.ALIGNED n) true).setBit (R.MAC_STATUS.LOCAL_FAULT n) false).setBit
    (R.MAC_STATUS.REMOTE_FAULT n) false
  if SMap.find (fun _ => false) s.mac.exhausted n || s.linkUp n || s.testing (201 + n / 4) then s1
  else ((s1.linkBreaches n).setBit (R.MAC_STATUS.LINK n) true).restartVerify n

/-- LINK_UP (R382): the PCS gains lock and alignment without faults, from SERVE entry on. -/
def execLinkUp (n : Nat) (s : State) : Out State :=
  complete (Instr.wf (.linkUp n)) s (if s.macsRun && s.portOn n then s.linkRises n else s)

/-! ### Switch cut-through (R288) -/

/-- The held frame of a port: the descriptor in the hold stage. -/
def State.heldFrame (s : State) (n : Nat) : Option Pkt := s.buf.handoff.find? fun p => p.cut && p.copy == 0 && p.src == n

/-- The leaf queues of a port are empty. -/
def State.portIdle (s : State) (o : Nat) : Bool :=
  (s.buf.leaves.all fun e => !(s.leafOut e.1).any fun x => x.1 == o) && (s.sending o).all fun x => decide (x.endTb ≤ s.tb ∧ x.left = 0)

/-- A descriptor joins its own leaf queue when it is enqueued: no fence, redirect or drop of a migration takes it (R252 to R255). -/
def State.joinsDirect (s : State) (p : Pkt) : Bool :=
  !s.staleResult p && (match s.migOf p.ep 0 with | some m => p.stamp.epoch == m.oldEpoch | none => true) &&
    (s.placement p.leaf).place != some placeTail && (s.placement p.leaf).place != some placeGone && (s.migOf p.leaf 2).isNone

/-- No descriptor handed off before this one is still on its way to the same leaf queue (R33, R285). -/
def State.firstOfLeaf (s : State) (p : Pkt) : Bool :=
  (s.buf.handoff.takeWhile fun q => q.id != p.id).all fun q => !q.leaves.contains p.leaf

/-- A packet is past its release deadline as its first bit leaves ahead of its last bit in (R294). -/
def State.pastRelease (s : State) (p : Pkt) : Bool := p.bounded && !p.clamped && decide (p.relNs < s.ns)

/-- Every condition of R288 for a held frame whose leaf queue leaves through port `o` in class `c`. -/
def State.mayCut (s : State) (n o c : Nat) (p : Pkt) : Bool :=
  !isFabricLeaf p.leaf && !p.group && s.get (R.BUF_CLASS.SPILL p.stamp.cls) == 0 && s.portIdle o && s.canStart o c &&
    s.joinsDirect p && s.firstOfLeaf p && s.outputTakes p.leaf o c p && s.credited p.leaf o && (s.resOpen o c || s.maxOpen o c) &&
    decide (s.portMbps o ≤ s.portMbps n) && !s.unprotected o p

/-- SWITCH_CUT_START (R288): the held frame of a port begins transmission; the deficits of its endpoint and group, whose leaves are all
empty, are 0 again (R323). -/
def execSwitchCutStart (cut : CutStart) (s : State) : Out State :=
  complete (Instr.wf (.switchCutStart cut)) s
    (match s.heldFrame cut.port with
    | none => s
    | some p =>
      match s.leafPort p.leaf with
      | none => s
      | some (o, c) =>
        if !s.forwarding || !s.mayCut cut.port o c p || s.buf.cutting.any fun x => x.2.src == cut.port then s
        else
          let s1 := ((s.chargePath o c p.leaf (s.counted o p)).emptied p.leaf).wrap R.SWC_CUT.STARTS 1
          let x := s1.macStart o c { p with failing := cut.bad, lateStart := s.pastRelease p }
          { x.1 with buf := { x.1.buf with
            handoff := x.1.buf.handoff.filter fun q => q.id != p.id
            cutting := x.1.buf.cutting ++ [(o, x.2)] } })

end Sys2Proof.Machine
end

