-- ==== Sys2Proof/Machine/HostDma.lean ====
section
/-! DEFINITION. The bulk mover, descriptor reads, completion timeouts, parked endpoints (R438, R439, R444, R452 to R457). -/
namespace Sys2Proof.Machine

/-! ### The ring (R454) -/

/-- A read of the ring's descriptors, and the first request of one outstanding. -/
def HostReq.ofMover : HostReq → Bool
  | .dmaDescriptors _ _ | .dmaReread _ => true
  | _ => false
def State.dmaFetching (s : State) : Option HostRead := s.host.reads.find? fun r => r.req.ofMover

/-- The bulk mover reads host memory through H0 or H1, as the first function of the endpoint (PRESUMED, log 195). -/
def State.moverRead (s : State) (req : HostReq) (ep addr len : Nat) (ns ro : Bool) : State :=
  s.sendRead req (4 * ep) (s.linkOfPf (4 * ep)) addr len ns ro

def State.dmaRuns (s : State) : Bool := s.bit R.DMA_RING.ENABLE && !s.bit R.DMA_STAT.STOPPED

/-- The number of the next descriptor to read. -/
def State.dmaNext (s : State) : Nat := (s.get R.DMA_STAT.C + s.host.dmaReady.length) % 65536

/-- The ring address of slot `n`. -/
def State.dmaSlot (s : State) (n : Nat) : Nat := s.get R.DMA_RING.BASE * 4096 + 32 * (n % 2 ^ s.get R.DMA_RING.SIZE)

def State.setDma (s : State) (ready : List (Nat × List Byte)) (retries : Nat × Nat) : State :=
  { s with host := { s.host with dmaReady := ready, dmaRetries := retries } }

/-- Reads the next descriptors. -/
def State.dmaFetch (s : State) : State :=
  let n := s.dmaNext
  let size := 2 ^ s.get R.DMA_RING.SIZE
  let count := min (min 64 ((s.get R.DMA_STAT.T + 65536 - n) % 65536)) (size - n % size)
  if !s.dmaRuns || count == 0 || s.reading HostReq.ofMover || s.host.dmaRetries != (0, 0) || !s.epUp (s.get R.DMA_RING.EP) then s
  else s.moverRead (.dmaDescriptors n count) (s.get R.DMA_RING.EP) (s.dmaSlot n) (32 * count) false false

/-- The ring stops with an error: 1 SEQ, 2 FETCH. -/
def State.dmaStop (s : State) (code : Nat) : State :=
  ((s.setBit R.DMA_STAT.STOPPED true).set R.DMA_STAT.ERROR code).setDma s.host.dmaReady (0, 0)

/-- The descriptors of the ring arrive. -/
def State.dmaDescriptorsIn (s : State) (data : List Byte) (poison : Bool) : State :=
  match s.dmaFetching with
  | none => s
  | some r =>
    let nc := r.req.asked
    let x := (if poison then s.dropRead HostReq.ofMover else s).arrive r.req data
    match x.1 with
    | none => x.2
    | some all =>
      let s1 := x.2
      if !s1.dmaRuns || nc.1 != s1.dmaNext then s1.dmaFetch
      else if poison then (s1.dmaStop 2).sat R.HOST_ERR.POISON_TX 1
      else
        let t := takeDescriptors 32 24 all nc.2 nc.1
        let k := if t.1.isEmpty then s1.host.dmaRetries else (0, 0)
        let s2 := s1.setDma (s1.host.dmaReady ++ t.1) k
        if t.2 then
          (if s2.get R.HOST_CFG.RETRY ≤ k.1 + 1 then s2.dmaStop 1 else s2.setDma s2.host.dmaReady (k.1 + 1, s2.ns + 1000))
        else s2.dmaFetch

/-- The re-read of a mismatched descriptor of the ring. -/
def State.dmaRereads (s : State) : State :=
  let n := s.dmaNext
  if !s.dmaRuns || s.host.dmaRetries.1 == 0 || decide (s.ns < s.host.dmaRetries.2) || s.reading HostReq.ofMover ||
      !s.epUp (s.get R.DMA_RING.EP) then s
  else s.moverRead (.dmaReread n) (s.get R.DMA_RING.EP) (s.dmaSlot n) 32 false false

/-- DESCRIPTOR_READ_COMPLETE (R444): a read of descriptors of host queue `q`, or of the bulk mover ring (16,384), returns. -/
def execDescriptorReadComplete (q : Nat) (data : List Byte) (poison : Bool) (s : State) : Out State :=
  complete (Instr.wf (.descriptorReadComplete q data poison)) s
    (if !s.forwarding then s else if q = 16384 then s.dmaDescriptorsIn data poison else s.descriptorsIn q data poison)

/-- DESCRIPTOR_REREAD (R444). -/
def execDescriptorReread (q : Nat) (s : State) : Out State :=
  complete (Instr.wf (.descriptorReread q)) s
    (if !s.forwarding then s else if q = 16384 then s.dmaRereads else s.rereadQueue q)

/-! ### Descriptors (R454 to R456) -/

/-- The reason for which a descriptor is refused: 0 alignment, 1 length, 2 reserved value, 3 range. -/
def State.dmaRefusal (s : State) (d : List Byte) : Option Nat :=
  let src := leAt d 0 8
  let dst := leAt d 8 8
  let len := leAt d 16 4
  let outside := fun (space a : Nat) =>
    (space == 2 && decide (s.dynSize < a + len)) || (space == 3 && !s.farInside a len)
  if src % 64 ≠ 0 ∨ dst % 64 ≠ 0 ∨ len % 64 ≠ 0 then some 0
  else if len < 64 ∨ 2 ^ 30 < len then some 1
  else if 3 < leAt d 20 1 ∨ 3 < leAt d 21 1 ∨ 8 ≤ leAt d 22 1 ∨ (leAt d 23 1).testBit 6 = true ∨ leAt d 26 6 ≠ 0 then some 2
  else if outside (leAt d 20 1) src || outside (leAt d 21 1) dst then some 3
  else none

/-- DMA_CAP takes a descriptor while VALID is 0. -/
def State.dmaCapture (s : State) (reason number : Nat) : State :=
  if s.bit R.DMA_CAP.VALID then s
  else ((s.setBit R.DMA_CAP.VALID true).set R.DMA_CAP.REASON reason).set R.DMA_CAP.NUMBER number

/-- A descriptor pulses its gate when it asks for it (R457). -/
def State.dmaPulse (s : State) (d : List Byte) (error : Bool) : State :=
  let b := leAt d 23 1
  if b.testBit 7 then { s with cmd := { s.cmd with pulses := s.cmd.pulses ++ [(b % 64, error)] } } else s

/-- The runs, and DMA_STAT.RUNNING with them. -/
def State.setRuns (s : State) (l : List DmaRun) : State :=
  ({ s with host := { s.host with dmaRuns := l } }).set R.DMA_STAT.RUNNING l.length

/-- The lines that a run reads from the far space. -/
def State.dmaFarRead (s : State) (who a lines : Nat) : State :=
  (List.range lines).foldl (fun (t : State) i => t.farSend (a + 64 * i) (.moverRead who)) (s.emit (.memRead true a (64 * lines)))

/-- A run takes another form. -/
def State.putRun (s : State) (r : DmaRun) : State := s.setRuns (updFirst (fun x => x.who == r.who) (fun _ => r) s.host.dmaRuns)

/-- Every read of a run has ended and its writes are issued (R455, R456): behind those of a BARRIER toward a host goes a zero-length read of
the last line; the pulse of a descriptor without BARRIER follows. -/
def State.dmaIssued (s : State) (r : DmaRun) : State :=
  let d := r.bytes
  let s1 := s.putRun { r with issued := true }
  if !(leAt d 22 1).testBit 0 then s1.dmaPulse d r.error
  else if leAt d 21 1 < 2 then s1.moverRead (.dmaFlush r.number) (leAt d 21 1) (leAt d 8 8 + leAt d 16 4 - 64) 0 false false
  else s1

/-- The next descriptor starts, or is refused. Its read of a host whose endpoint is in reset fails at once. -/
def State.dmaStart (s : State) : State :=
  match s.host.dmaReady with
  | [] => s
  | (n, d) :: rest =>
    let barrier := (leAt d 22 1).testBit 0
    let space := leAt d 20 1
    let t := (s.setDma rest s.host.dmaRetries).set R.DMA_STAT.C (wrapAdd 16 n 1)
    match s.dmaRefusal d with
    | some r => (((t.raise 33 0).dmaCapture r n).dmaPulse d true).dmaFetch
    | none =>
      if s.get R.DMA_CFG.INFLIGHT ≤ s.host.dmaRuns.length ∨ (barrier ∧ s.host.dmaRuns ≠ []) then s
      else
        let w := t.newWho
        let t1 := w.2.setRuns (w.2.host.dmaRuns ++ [⟨n, d, false, false, w.1⟩])
        let len := leAt d 16 4
        let a := leAt d 0 8
        let t2 := if space < 2 then
            (if s.epUp space then t1.moverRead (.dmaData n) space a len ((leAt d 22 1).testBit 1) ((leAt d 22 1).testBit 2)
            else (t1.dmaCapture 4 n).dmaIssued ⟨n, d, true, false, w.1⟩)
          else if space = 3 then t1.dmaFarRead w.1 a (len / 64)
          else t1.dynRequests w.1 0 false false (fun _ => 0) (len / 64) a
        t2.dmaFetch

/-- DMA_DESCRIPTOR_START (R456). -/
def execDmaDescriptorStart (s : State) : Out State :=
  complete true s (if s.forwarding && s.dmaRuns then s.dmaStart else s)

/-- The key of a line that a run reads: of HBM dynamic space, or of the far space. -/
def State.lineOf (s : State) (space a : Nat) : Nat :=
  if space = 2 then 2 ^ 25 * (s.interleave a).1 + (s.interleave a).2 else 2 ^ 33 + a / 64

/-- The bytes that the reads of a transfer have returned, line by line, and what became of a line: 0 good, 1 poisoned, 2 failed. -/
def State.gotBytes (s : State) (who space a lines : Nat) : List Byte :=
  (List.range lines).flatMap fun i =>
    leBytes 64 (((s.mem.got.find? fun g => g.1 == who && g.2.1 == s.lineOf space (a + 64 * i)).map fun g => g.2.2).getD 0)
def State.lineState (s : State) (who space a i : Nat) : Nat :=
  ((s.mem.lost.find? fun g => g.1 == who && g.2.1 == s.lineOf space (a + 64 * i)).map fun g => g.2.2).getD 0

/-- Drops what a transfer's reads have returned. -/
def State.dropGot (s : State) (who : Nat) : State :=
  { s with mem := { s.mem with
    got := s.mem.got.filter fun g => g.1 != who
    lost := s.mem.lost.filter fun g => g.1 != who } }

/-- The stretches of lines that satisfy a test: first line and length, in order. -/
def stretches (p : Nat → Bool) (n : Nat) : List (Nat × Nat) :=
  ((List.range n).foldl (fun (acc : List (Nat × Nat)) i =>
    if !p i then acc
    else match acc with
      | (f, l) :: rest => if f + l = i then (f, l + 1) :: rest else (i, 1) :: acc
      | [] => [(i, 1)]) []).reverse

/-- The writes of a stretch of a descriptor's bytes, from byte `off` on; a line whose data is bad is written with the uncorrectable pattern,
or in a poisoned write (R439). -/
def State.dmaWrite (s : State) (r : DmaRun) (off : Nat) (bytes : List Byte) (bad : Nat → Bool) : State :=
  let d := r.bytes
  let a := leAt d 8 8 + off
  let n := bytes.length / 64
  match leAt d 21 1 with
  | 2 => ((List.range n).filter bad).foldl (fun (t : State) i => t.spoil 1 (a + 64 * i))
      (s.dynRequests r.who 0 false true (fun b => leAt bytes (b - a) 64) n a)
  | 3 =>
    let parts := stretches bad n ++ stretches (fun i => !bad i) n
    (List.range n).foldl (fun (t : State) i => t.farSend (a + 64 * i) (.moverWrite r.who))
      (parts.foldl (fun (t : State) x => t.emit (.memWrite true (a + 64 * x.1) (slice bytes (64 * x.1) (64 * x.2)) (bad x.1))) s)
  | sp =>
    let link := s.linkOfPf (4 * sp)
    s.emitAll (s.hostOut link (hostWrites link (s.maxPayload (4 * sp)) a bytes ((leAt d 22 1).testBit 1) ((leAt d 22 1).testBit 2) bad))

/-- Requests of a run's host read have ended, each with 0 good, 1 poisoned or 2 failed: what was read is written, a failed request is
reported, and the run goes on with what is left (R438, R439, R455). -/
def State.dmaTake (s : State) (r : DmaRun) : List HostRead → List Byte → List Nat → State × DmaRun
  | [], _, _ => (s, r)
  | h :: hs, data, sts =>
    let st := sts.headD 0
    let r1 := { r with error := r.error || st != 0 }
    let s1 := if st = 0 then s else s.dmaCapture (if st = 1 then 5 else 4) r.number
    let s2 := if st = 2 then s1.sat R.HOST_ERR.CTO 1 else s1.dmaWrite r h.off (slice data 0 h.len) fun _ => st == 1
    s2.dmaTake r1 hs (data.drop h.len) sts.tail

/-- The requests outstanding of a run's host read end. -/
def State.dmaData (s : State) (r : DmaRun) (data : List Byte) (sts : List Nat) : State :=
  let x := s.dmaTake r (s.host.reads.filter fun h => h.req == .dmaData r.number) data sts
  let t := (x.1.putRun x.2).endReads fun h => h.req == .dmaData r.number
  if t.reading (· == .dmaData r.number) then t else t.dmaIssued x.2

/-- The lines of a run from HBM or the far space have all been read: those that did not fail are written. -/
def State.dmaLines (s : State) (r : DmaRun) : State :=
  let d := r.bytes
  let space := leAt d 20 1
  let a := leAt d 0 8
  let n := leAt d 16 4 / 64
  let all := s.gotBytes r.who space a n
  let st := s.lineState r.who space a
  let worst := (List.range n).foldl (fun m i => max m (st i)) 0
  let s1 := if worst = 0 then s else s.dmaCapture (if worst = 1 then 5 else 4) r.number
  let r1 := { r with error := r.error || worst != 0 }
  let s2 := (stretches (fun i => st i != 2) n).foldl (fun (t : State) x =>
    t.dmaWrite r (64 * x.1) (slice all (64 * x.1) (64 * x.2)) fun i => st (x.1 + i) == 1) (s1.dropGot r.who)
  s2.dmaIssued r1

/-- DMA_PULSE (R455 to R457): reads of a descriptor have ended, with `data` and, for each request of a host read outstanding, 0 good, 1
poisoned or 2 failed (0 where the list has none); or its writes have arrived. -/
def execDmaPulse (number : Nat) (data : List Byte) (status : List Nat) (arrived : Bool) (s : State) : Out State :=
  complete (Instr.wf (.dmaPulse number data status arrived)) s
    (match (if s.forwarding then s.host.dmaRuns.find? fun r => r.number == number else none) with
    | none => s
    | some r =>
      if !arrived then
        (if r.issued then s
        else if 2 ≤ leAt r.bytes 20 1 then (if s.transferDone r.who then s.dmaLines r else s)
        else if s.host.reads.any fun h => h.req == .dmaData r.number then s.dmaData r data status else s)
      else if !r.issued || (!s.transferDone r.who && leAt r.bytes 21 1 == 3) || s.host.waits.any fun w => w.req == .dmaFlush number then s
      else
        let u := s.endReads fun h => h.req == .dmaFlush number
        let t := u.setRuns (u.host.dmaRuns.filter fun x => x.who != r.who)
        if (leAt r.bytes 22 1).testBit 0 then t.dmaPulse r.bytes (r.error || s.mem.failed.contains r.who) else t)

/-! ### Completion timeouts (R438) -/

/-- The requester of a read is told that a request of it failed: it asks for no more of a descriptor or a frame, and what came of that
is dropped; the bulk mover goes on with its other requests. -/
def State.tellFailed (s : State) (req : HostReq) : State :=
  match req with
  | .descriptors q _ _ | .reread q _ =>
    let t := s.dropRead (HostReq.ofRing q)
    if s.host.flr.contains q || !s.queueRuns q || req.asked.1 != s.nextNumber q then t.syncBusy q else t.stopQueue q 2
  | .txData q n =>
    let t := s.dropRead (HostReq.ofFrame q)
    if s.host.flr.contains q || (s.ready q).isEmpty || n == 65536 then t.syncBusy q else (t.txDone q n 2).runQueue q
  | .dmaDescriptors n _ | .dmaReread n =>
    let t := s.dropRead HostReq.ofMover
    if n = 65536 then t else t.dmaStop 2
  | .dmaData n =>
    (match s.host.dmaRuns.find? fun r => r.number == n && !r.issued with
    | none => s
    | some r =>
      let t := (s.dmaCapture 4 n).putRun { r with error := true }
      if t.reading (· == .dmaData n) then t else t.dmaIssued { r with error := true })
  | .dmaFlush n => s.setRuns (updFirst (fun x => x.number == n && x.issued) (fun x => { x with error := true }) s.host.dmaRuns)

/-- A request has timed out, or was answered with an error: its tag is free, and its requester is told. -/
def State.requestFails (s : State) (r : HostRead) : State :=
  let s1 := { s with host := { s.host with reads := s.host.reads.erase r } }.syncTags.sat R.HOST_ERR.CTO 1
  (s1.tellFailed r.req).endReads fun _ => false

/-- COMPLETION_TIMEOUT (R438): the request in place `i` of those outstanding has no answer after CTO ms, or is answered with
Unsupported Request or Completer Abort. -/
def execCompletionTimeout (i : Nat) (answered : Bool) (s : State) : Out State :=
  complete true s
    (match s.host.reads[i]? with
    | none => s
    | some r =>
      if s.forwarding && (answered || decide (r.ns + 1000000 * s.get R.HOST_CFG.CTO ≤ s.ns)) then s.requestFails r else s)

/-! ### Resets of endpoints (R586) -/

/-- The level of Hx_PERST_N (R586): low holds the endpoint's links in reset, discards what its crossing held (R75), so that the reads of
the bulk mover over it fail at once, stops every queue of its functions as under Function Level Reset, and resets their configuration
spaces; at the rise the ring of the bulk mover goes on. -/
def State.perst (s : State) (ep : Nat) (level : Bool) : State :=
  let s1 := { s with power := { s.power with perstN := s.power.perstN.set ep level } }
  if level then (if s.forwarding then s1.dmaFetch else s1)
  else
    let here (link : Nat) : Bool := link % 2 == ep
    let s2 := ((((s1.discardItems (fun x => x == 432 + ep) (264 + ep)).set (R.HOST_LINK.RATE_A ep) 0).set (R.HOST_LINK.RATE_B ep) 0).set (R.HOST_LINK.WIDTH_B ep) 0).set
      (R.HOST_LINKW.WIDTH_A ep) 0
    let gone := ((s.host.reads.filter fun r => here r.link).map (·.req)) ++ ((s.host.waits.filter fun w => here w.link).map (·.req))
    let s3 := { s2 with host := { s2.host with
      waits := s2.host.waits.filter fun w => !here w.link
      parts := s2.host.parts.filter fun x => !gone.contains x.1
      sizes := s2.host.sizes.filter fun e => s.epOfFunc e.1 != ep } }.endReads fun r => here r.link
    let s4 := (s3.queuesOf fun f => s3.epOfFunc f == ep).foldl (fun (t : State) q => t.startReset q) s3
    gone.eraseDups.foldl (fun (t : State) r => t.tellFailed r) s4

/-- HX_PERST_N (R586). -/
def execHxPerstN (ep : Nat) (level : Bool) (s : State) : Out State :=
  complete (Instr.wf (.hxPerstN ep level)) s (s.perst ep level)

/-- In every cycle, the requests that wait for a tag are sent as far as tags are free (R437). -/
def State.serveHost (s : State) : State := if s.forwarding then s.serve else s

/-! ### Parked endpoints (R452) -/

/-- The body of EP_PARK or EP_UNPARK. -/
def State.parkCmd (s : State) (seq code : Nat) (wants : Bool) (body : Nat → State → State) : State :=
  s.runCmd seq code fun c t =>
    let e := c.op 16 4
    if !c.formed [(20, 44)] || decide (2 ^ 20 ≤ e) then t.refuse seq 1
    else if t.mig.open_.any fun m => m.ep == e then t.refuse seq 2
    else if t.host.parked.contains e != wants then t.refuse seq 3
    else body e t

/-- EP_PARK (R452): it takes effect, and is done when the endpoint's leaf queue is empty. -/
def execEpPark (seq : Nat) (s : State) : Out State :=
  complete true s (s.parkCmd seq 0x41 false fun e t =>
    ({ t with host := { t.host with parked := t.host.parked ++ [e], parking := t.host.parking ++ [(e, seq, t.ns)] } }).updCmd seq
      fun c => { c with started := true })

/-- EP_UNPARK (R452). -/
def execEpUnpark (seq : Nat) (s : State) : Out State :=
  complete true s (s.parkCmd seq 0x42 true fun e t =>
    ({ t with host := { t.host with parked := t.host.parked.filter fun x => x != e } }).done seq [])

/-- PARK_COMPLETE (R452): the parked endpoint's leaf queue is empty. -/
def execParkComplete (e : Nat) (s : State) : Out State :=
  complete (Instr.wf (.parkComplete e)) s
    (match s.host.parking.find? fun x => x.1 == e with
    | none => s
    | some (_, seq, t) =>
      if s.executing && (s.leafQ e).isEmpty then
        ({ s with host := { s.host with parking := s.host.parking.filter fun x => x.2.1 != seq } }).finish seq 0 0 0 (t % 2 ^ 48) []
      else s)

end Sys2Proof.Machine
end

