-- ==== Sys2Proof/Machine/Observe.lean ====
section
/-! DEFINITION. Counters as a set, exposures, COUNTER_CLEAR, the export ring, mirror sessions and capture rings (R548 to R567). -/
namespace Sys2Proof.Machine

/-! ### The register counters (R548) -/

/-- The register counters of one prism (from 0x800000 + 0x100000 k), and of one MAC (from 0x2000000 + 0x4000 n). -/
def prismCounters (k : Nat) : List Nat := [0x20, 0x28, 0x38, 0x40, 0x48].map fun o => 0x800000 + 0x100000 * k + o
def macCounters (n : Nat) : List Nat :=
  (0x2000050 + 0x4000 * n) :: (List.range 18).map fun k => 0x2000100 + 0x4000 * n + 8 * k

/-- The BAR0 offsets of every register counter, ascending. -/
def counterOffs : List Nat :=
  [0x30, 0x200060] ++ (List.range 16).flatMap prismCounters ++ [0x1A03220, 0x1C00108, 0x1C08008] ++
    ([0x1D00200, 0x1D00280, 0x1D00300].flatMap fun b => (List.range 16).map fun p => b + 8 * p) ++
    ((List.range 8).flatMap fun c => (List.range 4).map fun k => 0x1D00500 + 0x20 * c + 8 * k) ++ [0x1D00610] ++
    ((List.range 128).map fun m => 0x1F00008 + 0x10 * m) ++ (List.range 96).flatMap macCounters ++
    ((List.range 128).map fun r => 0x2901000 + 8 * r) ++ [0x2902020]

/-- The number of pairs in the counter store (R550). -/
def State.storePairs (s : State) : Nat := 16 * s.get R.CNT_STORE.COUNT16

/-! ### EXPOSE (R556 to R560) -/

/-- The cells of this device's packets that wait for an iris and have no next cell of their packet waiting: one for each packet (R557). -/
def State.waitingEnds (s : State) : List WaitCell :=
  s.fab.waiting.filter fun w => w.cell.origin && !w.cell.marker &&
    (w.cell.last || !s.fab.waiting.any fun v => v.cell.origin && v.cell.dst == w.cell.dst && v.cell.cls == w.cell.cls &&
      v.cell.seq == (w.cell.seq + 1) % 65536)

/-- The packets whose exposure time lies before a cut, wherever they wait; an ordering marker is none. -/
def State.before (s : State) (cut : Nat) : Nat :=
  (s.livePkts.filter fun p => !p.marker && decide (p.expo < cut)).length +
    (s.waitingEnds.filter fun w => decide (w.cell.expo < cut)).length

/-- The length of the dump of an exposure. -/
def dumpLength (regs store : Bool) (m : Nat) : Nat :=
  64 + (if regs then 16 * counterOffs.length else 0) + (if store then 16 * m + 64 * ceilDiv (2 * m) 512 else 0)

/-- The cut of an exposure lies 20 µs after the command's acceptance; a command that begins later than that counts from its beginning. -/
def State.exposeCut (s : State) (c : OpenCmd) : Nat :=
  if s.ns < c.acceptedNs + 20000 then c.acceptedNs + 20000 else s.ns + 20000

/-- EXPOSE (R557, R558): every counter's snapshot starts from its live value. -/
def State.expose (s : State) (seq : Nat) : State :=
  s.runCmd seq 0x50 fun c t =>
    let flags := c.op 16 1
    let regs := flags.testBit 0
    let store := flags.testBit 1
    let m := if store then c.op 20 4 else 0
    let first := if store then c.op 24 4 else 0
    if !c.formed [(17, 3), (28, 4), (46, 18)] || decide (4 ≤ flags) || flags == 0 || decide (c.op 32 8 % 64 ≠ 0) ||
        (store && decide (t.storePairs < first + m)) then t.refuse seq 1
    else if t.cnt.exposure.isSome then t.refuse seq 2
    else if c.op 40 4 < dumpLength regs store m then t.refuse seq 0xB
    else
      let cut := t.exposeCut c
      let ms := if c.op 44 2 = 0 then 5000 else c.op 44 2
      let id := wrapAdd 32 (t.get R.CNT_EXPOSE.ID) 1
      let t1 := ((t.set R.CNT_EXPOSE.ID id).setBit R.CNT_EXPOSE.BUSY true).set R.CNT_EXPOSE_T.T (cut % 2 ^ 48)
      let e : Exposure :=
        { seq := seq
          id := id
          cut := cut
          deadline := cut + ms * 1000000
          regs := regs
          store := store
          first := first
          pairs := m
          pf := t.cmdPf c
          addr := c.op 32 8
          snapRegs := t.regs
          snapPairs := t.cnt.pairs
          snapWraps := t.cnt.wraps }
      { t1 with cnt := { t1.cnt with exposure := some e } }.updCmd seq fun d => { d with started := true }

/-- EXPOSE (R558). -/
def execExpose (seq : Nat) (s : State) : Out State := complete true s (s.expose seq)

/-- The WRAP bit of a key in a snapshot, as a number. -/
def Exposure.wrap (e : Exposure) (k : Nat) : Nat := b2n (SMap.find (fun _ => false) e.snapWraps k)

/-- The dump behind its header (R559). -/
def Exposure.body (e : Exposure) : List Byte :=
  let regs := if e.regs then counterOffs.flatMap fun o =>
      leBytes 8 (SMap.find resetWord e.snapRegs o).toNat ++ leBytes 6 o ++ leBytes 2 (e.wrap o)
    else []
  let keys := (List.range (2 * e.pairs)).map fun i => 2 * e.first + i
  let pairs := keys.flatMap fun k => leBytes 8 (SMap.find (fun _ => 0) e.snapPairs k)
  let bits := (List.range (2 * e.pairs)).foldl (fun acc i => acc + e.wrap (2 ^ 26 + 2 * e.first + i) * 2 ^ i) 0
  let masks := leBytes (64 * ceilDiv (2 * e.pairs) 512) bits
  regs ++ (if e.store then pairs ++ masks else [])

/-- The header of the dump (R559). -/
def Exposure.header (e : Exposure) (partly : Bool) (outstanding : Nat) : List Byte :=
  record 64 [(0, 4, e.id), (4, 1, b2n partly + 2 * b2n e.regs + 4 * b2n e.store), (8, 6, e.cut), (16, 4, outstanding),
    (20, 4, if e.regs then counterOffs.length else 0), (24, 4, e.first), (28, 4, e.pairs)]

/-- An exposure is sealed: its dump is written, the header last, and its command ends. Frames that the MACs have counted and no aperture has
decided belong to the next exposure (R556). -/
def State.seal (s0 : State) (e0 : Exposure) (partly : Bool) : State :=
  let n := s0.before e0.cut
  let s := s0.buf.rx.foldl (fun (t : State) f => t.countLater f) s0
  let e := s.cnt.exposure.getD e0
  let s1 := { s with cnt := { s.cnt with exposure := none } }
  let s2 := (s1.setBit R.CNT_EXPOSE.BUSY false).setBit R.CNT_EXPOSE.PARTIAL partly
  let s3 := s2.emitAll (s2.pfWrites e.pf (e.addr + 64) e.body ++ s2.pfWrites e.pf e.addr (e.header partly n))
  s3.finish e.seq 0 0 0 (e.cut % 2 ^ 48) [(16, 4, e.id), (20, 4, n)]

/-- The open exposure, while the export role can write its dump (R35, R559); until then it stays open (DESIGN CHOICE, log 201). -/
def State.sealable (s : State) : Option Exposure :=
  if s.coreUp && !s.fault.chipReset && s.roleUp 5 then s.cnt.exposure else none

/-- EXPOSURE_SEAL (R557): no packet with an exposure time before the cut is left. -/
def execExposureSeal (s : State) : Out State :=
  complete true s (match s.sealable with
    | some e => if e.cut ≤ s.ns ∧ s.before e.cut = 0 then s.seal e false else s
    | none => s)

/-- EXPOSURE_TIMEOUT (R557). -/
def execExposureTimeout (s : State) : Out State :=
  complete true s (match s.sealable with
    | some e => if e.deadline ≤ s.ns then s.seal e true else s
    | none => s)

/-! ### COUNTER_CLEAR (R554) -/

/-- Register counters cleared: their WRAP bits, and without WRAP_ONLY their values. -/
def State.clearRegs (s : State) (wrapOnly : Bool) (offs : List Nat) : State :=
  offs.foldl (fun (t : State) o =>
    let t1 := if wrapOnly then t else t.setWord o 0
    { t1 with cnt := { t1.cnt with wraps := t1.cnt.wraps.put (fun _ => false) o false } }) s

/-- Store pairs cleared. -/
def State.clearPairs (s : State) (wrapOnly : Bool) (first n : Nat) : State :=
  let inside (k : Nat) : Bool := decide (2 * first ≤ k ∧ k < 2 * (first + n))
  { s with cnt := { s.cnt with
      pairs := if wrapOnly then s.cnt.pairs else s.cnt.pairs.filter fun e => !inside e.1
      wraps := s.cnt.wraps.filter fun e => !(decide (2 ^ 26 ≤ e.1) && inside (e.1 - 2 ^ 26)) } }

/-- The counters of a COUNTER_CLEAR, cleared, and their number; none refuses "format". -/
def State.clearScope (s : State) (c : OpenCmd) : Option (State × Nat) :=
  let w := c.op 17 1 == 1
  match c.op 16 1 with
  | 0 =>
    let first := c.op 24 8
    let n := c.op 32 4
    if n = 0 ∨ s.storePairs < first + n then none else some (s.clearPairs w first n, 2 * n)
  | 1 => if counterOffs.contains (c.op 24 8) then some (s.clearRegs w [c.op 24 8], 1) else none
  | 2 => some (s.clearRegs w ((List.range 128).map fun r => 0x2901000 + 8 * r), 128)
  | 3 => some ((s.clearRegs w counterOffs).clearPairs w 0 s.storePairs, counterOffs.length + 2 * s.storePairs)
  | _ => none

/-- COUNTER_CLEAR (R554): it does not begin while an exposure is open. -/
def execCounterClear (seq : Nat) (s : State) : Out State :=
  complete true s (if s.cnt.exposure.isSome then s
    else s.runCmd seq 0x51 fun c t =>
      if !c.formed [(18, 6), (36, 28)] || decide (2 ≤ c.op 17 1) then t.refuse seq 1
      else match t.clearScope c with
        | none => t.refuse seq 1
        | some (u, n) => u.done seq [(16, 4, n)])

/-! ### MIRROR_SET (R566) -/

/-- The target of a mirror session exists. -/
def State.mirrorTarget (s : State) (kind index : Nat) : Bool :=
  match kind with
  | 0 => decide (index < 65536) && decide (s.get (R.SWC_DQ.KIND index) < 2)
  | 1 => decide (index < 2 ^ 28)
  | 2 => decide (index < 16) && s.bit (R.MIR_RING.VALID index)
  | _ => false

/-- MIRROR_SET (R566). -/
def execMirrorSet (seq : Nat) (s : State) : Out State :=
  complete true s (s.runCmd seq 0x60 fun c t =>
    let m := c.op 16 1
    if !c.formed [(26, 38)] || decide (128 ≤ m) || decide (2 ≤ c.op 17 1) || decide (8 ≤ c.op 19 1) || decide (64 ≤ c.op 24 1) ||
        decide (16 ≤ c.op 25 1) || !t.mirrorTarget (c.op 18 1) (c.op 20 4) then t.refuse seq 1
    else
      let off := (R.MIR_SESSION.VALID m).off
      let old := (t.word off).toNat
      let v := c.op 17 1 * 2 ^ 63 + c.op 18 1 * 2 ^ 61 + c.op 19 1 * 2 ^ 58 + c.op 25 1 * 2 ^ 54 + c.op 24 1 * 2 ^ 48 + c.op 20 4
      (t.setWord off (BitVec.ofNat 64 v)).done seq [(16, 8, old)])

/-! ### The export ring (R564) -/

/-- The PF under which the export ring is written: CNT_XRING.PF, on the endpoint of CNT_XRING.EP (log 195). -/
def State.exportPf (s : State) : Nat := 4 * s.get R.CNT_XRING.EP + s.get R.CNT_XRING.PF % 4

/-- The next record of the export ring goes into its slot. -/
def State.exportWords (s : State) (kind : Nat) (words : List Nat) : State :=
  let n := s.cnt.xn
  let fields := (words.zip (List.range 3)).map fun w => (8 + 8 * w.2, 8, w.1)
  let addr := s.get R.CNT_XRING.BASE * 4096 + 32 * (n % 2 ^ s.get R.CNT_XRING.SIZE)
  { s with cnt := { s.cnt with xn := wrapAdd 16 n 1 } }.emitAll
    (s.pfWrites s.exportPf addr (record 32 ([(0, 2, n), (2, 1, kind)] ++ fields)))

/-- The oldest loupe sample leaves its FIFO. -/
def State.popLoupe (s : State) : State :=
  { s with cnt := { s.cnt with loupe := s.cnt.loupe.drop 1 } }.set R.CNT_LOUPE_STAT.DEPTH (s.cnt.loupe.length - 1)

/-- The oldest breach record leaves its queue. -/
def State.popBreach (s : State) : State :=
  { s with apr := { s.apr with breaches := s.apr.breaches.drop 1 } }.set R.APR_BQ_STAT.DEPTH (s.apr.breaches.length - 1)

/-- The export ring is on and has room. -/
def State.exports (s : State) : Bool :=
  s.coreUp && s.bit R.CNT_XRING.EN &&
    decide ((s.cnt.xn + 65536 - s.get R.CNT_XRING_CONS.CONS) % 65536 < 2 ^ s.get R.CNT_XRING.SIZE)

/-- EXPORT_RECORD (R564): of the loupe FIFO, or of the breach queue. -/
def execExportRecord (loupe : Bool) (s : State) : Out State :=
  complete true s
    (if !s.exports || !s.roleUp 5 then s
    else if loupe then (match s.cnt.loupe with
      | x :: _ => s.popLoupe.exportWords 1 [x.w0, x.w1, x.w2]
      | [] => s)
    else match s.apr.breaches with
      | b :: _ => s.popBreach.exportWords 2 [b.1, b.2]
      | [] => s)

/-! ### Capture rings (R567) -/

/-- A capture record: `len` bytes in all. -/
def captureRecord (len frame got session trunc time src seq : Nat) (data : List Byte) : List Byte :=
  slice (record 32 [(0, 2, len), (2, 2, frame), (4, 2, got), (6, 1, session), (7, 1, trunc), (8, 6, time), (14, 2, src),
    (16, 4, seq)] ++ data) 0 len

/-- A capture ring record written at `off`, in units of 64 B. -/
def State.ringWrite (s : State) (k off : Nat) (bytes : List Byte) : State :=
  s.emit (.memWrite true (s.get (R.MIR_RING.BASE k) * 65536 + 64 * off) bytes false)

/-- Where a record of `need` units goes in a ring of `size` units: the offset, and the units of the pad record before it. -/
def ringPlace (size off need : Nat) : Nat × Nat := if off + need ≤ size then (off, 0) else (0, size - off)

/-- The record may be written: it fits the ring, and under STOP leaves the unread space. -/
def State.ringTakes (s : State) (k need : Nat) : Bool :=
  let size := 1024 * s.get (R.MIR_RING.EXTENTS k)
  let off := s.get (R.MIR_RING_PTR.OFFSET k)
  let used := if size = 0 then 0 else (off + size - s.get (R.MIR_RING_CONS.OFFSET k) % size) % size
  s.bit (R.MIR_RING.VALID k) && decide (need ≤ size) &&
    (!s.bit (R.MIR_RING.STOP k) || decide (used + (ringPlace size off need).2 + need < size))

/-- The record of a captured copy is written and the ring advances. -/
def State.captured (s : State) (k frame : Nat) (p : Pkt) : State :=
  let need := ceilDiv (32 + p.bytes.length) 64
  let size := 1024 * s.get (R.MIR_RING.EXTENTS k)
  let off := s.get (R.MIR_RING_PTR.OFFSET k)
  let at_ := ringPlace size off need
  let seq := s.get (R.MIR_RING_PTR.SEQ k)
  let s1 := if at_.2 = 0 then s else s.ringWrite k off (captureRecord (64 * at_.2) 0 0 0xFF 0 0 0 seq [])
  let time := if p.remote.isSome then p.expo % 2 ^ 48 else p.rxTime
  let s2 := s1.ringWrite k at_.1 (captureRecord (64 * need) frame p.bytes.length (p.copy - 512)
    (b2n (decide (p.bytes.length < frame))) time p.src seq p.bytes)
  (s2.set (R.MIR_RING_PTR.SEQ k) (wrapAdd 32 seq 1)).set (R.MIR_RING_PTR.OFFSET k) (if size = 0 then 0 else (at_.1 + need) % size)

/-- The capture ring writer takes the oldest copy that waits; `written` says that the far port takes the write. -/
def State.captureNext (s : State) (written : Bool) : State :=
  match (if s.coreUp then s.cnt.captures.find? fun e => !e.2.2.cut else none) with
  | none => s
  | some (k, frame, p) =>
    let s1 := { s with cnt := { s.cnt with captures := s.cnt.captures.filter fun e => decide (e.2.2.id ≠ p.id) || e.2.2.cells != p.cells } }
    let f := farPort (s.get (R.MIR_RING.BASE k) * 65536)
    let s2 := if written && s.bit (R.FAR_PORT.UP f) && s.ringTakes k (ceilDiv (32 + p.bytes.length) 64) then s1.captured k frame p
      else s1.countAt (R.MIR_LOST.COUNT (p.copy - 512)) 1 p.expo
    s2.releaseCells p

/-- CAPTURE_WRITE (R567). -/
def execCaptureWrite (written : Bool) (s : State) : Out State := complete true s (s.captureNext written)

end Sys2Proof.Machine
end

