-- ==== Sys2Proof/Machine/SelfTest.lean ====
section
/-! DEFINITION. Self-test: the BIST section, plans and their groups, and the maintenance window (R519, R537 to R546). -/
namespace Sys2Proof.Machine

/-! ### The BIST section (R537, R538, R540) -/

/-- The number of plans. -/
def planCount (sec : List Byte) : Nat := leAt sec 0 1

/-- The units of the listed numbers up to the end mark. -/
def unitsUntil : List Nat → List Nat
  | [] => []
  | u :: us => if u = 0xFFFF then [] else u :: unitsUntil us

/-- The units of group `g` of plan `p`. -/
def groupUnits (sec : List Byte) (p g : Nat) : List Nat :=
  unitsUntil ((List.range 64).map fun i => leAt sec (2320 + 1024 * p + 128 * g + 2 * i) 2)

/-- The units of a plan. -/
def planUnits (sec : List Byte) (p : Nat) : List Nat := (List.range 8).flatMap (groupUnits sec p)

/-- The expected signature of a unit. -/
def unitSig (sec : List Byte) (u : Nat) : Nat := leAt sec (16 + 8 * u) 8

/-- A section that R540 accepts. -/
def bistGood (sec : List Byte) : Bool :=
  let n := planCount sec
  decide (1 ≤ n ∧ n ≤ 16) && sec.length == 2320 + 1024 * n && zeroBytesAll (slice sec 1 15) &&
    (List.range n).all fun p => let us := planUnits sec p; us.all (fun u => decide (u < 277)) && decide us.Nodup
where
  /-- Every byte is 0. -/
  zeroBytesAll (bs : List Byte) : Bool := bs.all fun b => b == 0

/-- An HBM unit. -/
def hbmUnit (u : Nat) : Bool := decide (193 ≤ u ∧ u < 201)

/-! ### Plans and groups (R539, R541, R543, R544) -/

/-- A plan begins: no group has started. -/
def State.beginPlan (s : State) (p : Nat) : State :=
  { s with bist := { s.bist with plan := some p, startNs := s.ns, endNs := s.ns, toStart := List.range 8, running := [], since := [] } }.set
    R.BIST_STATUS.FAILS 0

/-! ### What a unit holds (R538, R544)

The runs of keys of each map of the state that a unit's memory holds: first key and number. Packet memory holds nothing when no packet is
in the device; the contents of logic and of lanes are not architectural. -/

/-- The lines of table SRAM of a unit; the endpoints whose aperture records, and the halves of counter pairs, that lie in them. -/
def lineRun (u : Nat) : Nat × Nat := if 96 ≤ u ∧ u < 160 then (65536 * (u - 96), 65536) else (0, 0)
def State.recRun (s : State) (u : Nat) : Nat × Nat :=
  let r := lineRun u
  let lo := 2 * (r.1 - s.apr.base / 64)
  (lo, min (2 ^ 20) (2 * (r.1 + r.2 - s.apr.base / 64)) - lo)
def State.pairRun (s : State) (u : Nat) : Nat × Nat :=
  let r := lineRun u
  let lo := 8 * (r.1 - s.get R.CNT_STORE.BASE)
  (lo, min (32 * s.get R.CNT_STORE.COUNT16) (8 * (r.1 + r.2 - s.get R.CNT_STORE.BASE)) - lo)

/-- The control store words of a unit: of both banks of a prism's facets, or of the service facets. -/
def wordRun (u : Nat) : Nat × Nat :=
  if 160 ≤ u ∧ u < 176 then (8192 * 60 * (u - 160), 8192 * 60) else if u = 176 then (8192 * 960, 8192 * 64) else (0, 0)

/-- The rows of a lens array, and the lines of an HBM stack. -/
def rowRun (u : Nat) : Nat × Nat := if 177 ≤ u ∧ u < 193 then (16384 * (u - 177), 16384) else (0, 0)
def stackRun (u : Nat) : Nat × Nat := if 193 ≤ u ∧ u < 201 then (2 ^ 30 * (u - 193), 2 ^ 30) else (0, 0)

/-- The entries of a map in a run of keys; the map with that run replaced. -/
def ofRun {α : Type} (r : Nat × Nat) (m : SMap α) : SMap α := m.filter fun e => decide (r.1 ≤ e.1 ∧ e.1 < r.1 + r.2)
def replaceRun {α : Type} (r : Nat × Nat) (new m : SMap α) : SMap α :=
  (m.filter fun e => decide (e.1 < r.1)) ++ new ++ m.filter fun e => decide (r.1 ≤ e.1 ∧ r.1 + r.2 ≤ e.1)

/-- Open values in a run of keys, the first drawn as number `n`. -/
def openRun {α : Type} [DecidableEq α] (n : Nat) (r : Nat × Nat) (unlisted : α) (f : Nat → α) : SMap α :=
  ((List.range r.2).map fun i => (r.1 + i, f (Config.open_ (n + i)))).filter fun e => decide (e.2 ≠ unlisted)

/-- A lens row of any contents. -/
def anyRow (v : Nat) : LensRow :=
  { cells := bitsGet v 0 1280
    prio := bitsGet v 1280 16
    result := bitsGet v 1296 18
    birth := bitsGet v 1314 4
    death := bitsGet v 1318 4
    born := v.testBit 1322
    dying := v.testBit 1323
    valid := v.testBit 1324
    bad := v.testBit 1325 }

/-- A test destroys what its unit holds: what stands there is open (R538). -/
def State.destroy (s : State) (u : Nat) : State :=
  let a := s.recRun u
  let p := s.pairRun u
  let n := s.free
  { s with
    free := n + ((lineRun u).2 + a.2 + p.2 + (wordRun u).2 + (rowRun u).2 + (stackRun u).2)
    tbl := { s.tbl with lines := replaceRun (lineRun u) (openRun n (lineRun u) 0 (· % 2 ^ 512)) s.tbl.lines }
    apr := { s.apr with recs := replaceRun a (openRun (n + (lineRun u).2) a {} AprRec.decode) s.apr.recs }
    cnt := { s.cnt with pairs := replaceRun p (openRun (n + (lineRun u).2 + a.2) p 0 (· % 2 ^ 64)) s.cnt.pairs }
    code := { s.code with store := replaceRun (wordRun u) (openRun n (wordRun u) 0 (· % 2 ^ 192)) s.code.store }
    lens := { s.lens with rows := replaceRun (rowRun u) (openRun n (rowRun u) {} anyRow) s.lens.rows }
    mem := { s.mem with hbm := replaceRun (stackRun u) (openRun n (stackRun u) 0 (· % 2 ^ 512)) s.mem.hbm } }

/-- What the save region keeps of a unit, and the save of a unit put back (R544). -/
def State.saveOf (s : State) (u : Nat) : UnitSave :=
  { unit := u
    lines := ofRun (lineRun u) s.tbl.lines
    recs := ofRun (s.recRun u) s.apr.recs
    pairs := ofRun (s.pairRun u) s.cnt.pairs
    words := ofRun (wordRun u) s.code.store }
def State.putSave (s : State) (v : UnitSave) : State :=
  { s with
    tbl := { s.tbl with lines := replaceRun (lineRun v.unit) v.lines s.tbl.lines }
    apr := { s.apr with recs := replaceRun (s.recRun v.unit) v.recs s.apr.recs }
    cnt := { s.cnt with pairs := replaceRun (s.pairRun v.unit) v.pairs s.cnt.pairs }
    code := { s.code with store := replaceRun (wordRun v.unit) v.words s.code.store } }

/-- A tested unit is restored in SERVE: a lens array from its shadow, another memory from the save region, where `whole` says that the
restored contents match their CRC; contents that came back wrong stay open (R537, R544). -/
def State.restoreUnit (s : State) (u : Nat) (whole : Bool) : State :=
  let s1 : State := { s with
    lens := { s.lens with rows := replaceRun (rowRun u) (ofRun (rowRun u) s.lens.shadows) s.lens.rows }
    bist := { s.bist with saves := s.bist.saves.filter fun v => v.unit != u } }
  if whole then (s.bist.saves.filter fun v => v.unit == u).foldl State.putSave s1 else s1

/-- The memories that PROVE has tested hold nothing when LOAD begins: an image's tables then take its entries (R495; log 199). -/
def State.emptyMemories (s : State) : State :=
  { s with
    tbl := { s.tbl with lines := [] }
    apr := { s.apr with recs := [] }
    cnt := { s.cnt with pairs := [] }
    code := { s.code with store := [] }
    lens := { s.lens with rows := [] }
    mem := { s.mem with hbm := [] } }

/-- The test of a unit begins: SERVE saves its contents first; the links of a unit of port lanes go down (R544). -/
def State.beginUnit (s : State) (u : Nat) : State :=
  let s1 := s.set R.BIST_STATUS.UNIT u
  let s2 : State := if s.mode == .serve then { s1 with bist := { s1.bist with saves := s.saveOf u :: s.bist.saves } } else s1
  let s3 := if u < 96 ∨ 201 ≤ u then s2 else s2.destroy u
  if 201 ≤ u ∧ u < 225 then (List.range 4).foldl (fun (t : State) i => t.linkFalls (4 * (u - 201) + i)) s3 else s3

/-- The units still to run in a running group; an empty group has ended. -/
def State.setGroup (s : State) (g : Nat) (us : List Nat) : State :=
  let rest := s.bist.running.filter fun x => x.1 != g
  let since := s.bist.since.filter fun x => x.1 != g
  match us with
  | u :: _ => { s with bist := { s.bist with running := rest ++ [(g, us)], since := since ++ [(g, s.ns)] } }.beginUnit u
  | [] => { s with bist := { s.bist with running := rest, since := since, endNs := s.ns } }

/-- BIST_GROUP_START (R539): group `g` starts 250 µs × g after the plan. -/
def execBistGroupStart (g : Nat) (s : State) : Out State :=
  complete (Instr.wf (.bistGroupStart g)) s
    (match s.bist.plan with
    | some p =>
      if s.coreUp && s.bist.toStart.contains g && decide (s.bist.startNs + 250000 * g ≤ s.ns) then
        { s with bist := { s.bist with toStart := s.bist.toStart.filter fun x => x != g } }.setGroup g
          (groupUnits s.bist.section_ p g)
      else s
    | none => s)

/-- How long the test of a unit lasts, in ms (R537). -/
def unitMs (u : Nat) : Nat :=
  if u < 96 then 5 else if u < 160 then 6 else if u < 177 then 20 else if u < 193 then 30 else if u < 201 then 120
  else if u < 257 then 5 else 25

/-- A unit whose contents the save region holds during the test; nothing is saved for lens and lane units (R544). -/
def unitSaved (u : Nat) : Bool := !decide (177 ≤ u ∧ u < 193) && !decide (201 ≤ u ∧ u < 257)

/-- The test of the unit under test in a group has lasted its time, which SERVE lengthens by 1 ms for the save and restore
(R539). -/
def State.unitOver (s : State) (g u : Nat) : Bool :=
  match s.bist.since.find? fun x => x.1 == g with
  | some x => decide (x.2 + (unitMs u + b2n (s.mode == .serve)) * 1000000 ≤ s.ns)
  | none => false

/-- The result of the unit under test in a group: its signature `sig`, and in SERVE whether its contents came back whole. -/
def State.unitDone (s : State) (g sig : Nat) (restored : Bool) : State :=
  match s.bist.running.find? fun x => x.1 == g with
  | some (_, u :: us) =>
    if !s.unitOver g u then s else
    let pass := sig == unitSig s.bist.section_ u
    let s1 := ((s.set (R.BIST_RESULT.RESULT u) (if pass then 1 else 2)).sat (R.BIST_RESULT.RUNS u) 1).set (R.BIST_SIG.SIG u) sig
    let back := if s.mode == .serve then s1.restoreUnit u restored else s1
    let s2 := if pass then back else (back.sat R.BIST_STATUS.FAILS 1).raise 36 u
    let s3 := if s.mode == .serve && unitSaved u && !restored then s2.raise 37 u else s2
    s3.setGroup g us
  | _ => s

/-- BIST_UNIT_COMPLETE (R544). -/
def execBistUnitComplete (g sig : Nat) (restored : Bool) (s : State) : Out State :=
  complete (Instr.wf (.bistUnitComplete g sig restored)) s (if s.coreUp && s.bist.plan.isSome then s.unitDone g sig restored else s)

/-- A plan that a HOLD-UP ends (R519, R546). -/
def State.endSelfTest (s : State) : State :=
  if s.bist.plan.isNone then s
  else ({ s with bist := { s.bist with plan := none, toStart := [], running := [], saves := [] } }.set R.BIST_STATUS.STATE 8).set R.BIST_CTRL.START 0

/-! ### The maintenance window (R542, R543, R546) -/

/-- The number that stands for a command in the drain of an iris by the window: no journal sequence reaches it. -/
def windowSeq : Nat := 2 ^ 48

/-- An UP iris drains, as under R352. -/
def State.drainIris (s : State) (i : Nat) : State :=
  if s.irisState i = 2 ∧ (s.iris i).disabling.isNone then
    (((s.setIris i { s.iris i with disabling := some windowSeq }).set (R.IRIS_STATUS.STATE i) 3).clearNext i).linkChanged
  else s

/-- A window opens: apertures refuse, UP irises drain. -/
def State.openWindow (s : State) : State :=
  let saved := (List.range 64).map fun i => (i, s.bit (R.IRIS_CTRL.ENABLE i))
  let s1 : State := { s with
    apr := { s.apr with windowRefuse := true }
    bist := { s.bist with saved := saved } }
  (((List.range 64).foldl (fun (t : State) i => t.drainIris i) s1).set R.BIST_STATUS.STATE 2).setBit R.BIST_STATUS.READY false

/-- An iris returns to the ENABLE state it had: one that software has enabled in the window drains as under R352, and is DISABLED. -/
def State.restoreIris (s : State) (i : Nat) (enabled : Bool) : State :=
  if !enabled then
    if s.irisState i = 0 then s.setBit (R.IRIS_CTRL.ENABLE i) false
    else if s.irisState i = 2 then s.drainIris i
    else if (s.iris i).disabling.isSome then s
    else s.irisDown i 7 s.now 0
  else if (s.iris i).disabling = some windowSeq then
    ((s.setIris i { s.iris i with disabling := none }).set (R.IRIS_STATUS.STATE i) 2).linkChanged
  else if s.irisState i = 0 then
    ((s.setIris i { ups := (s.iris i).ups, tag := (s.iris i).tag }).setBit (R.IRIS_CTRL.ENABLE i) true).set (R.IRIS_STATUS.STATE i) 1
  else s

/-- A window closes: the apertures take packets again. -/
def State.closeWindow (s : State) : State :=
  let s1 := s.bist.saved.foldl (fun (t : State) x => t.restoreIris x.1 x.2) s
  let s2 : State := { s1 with
    apr := { s1.apr with windowRefuse := false }
    bist := { s1.bist with saved := [] } }
  let s3 := s2.setBit R.BIST_STATUS.READY false
  if s3.get R.BIST_STATUS.STATE = 2 ∨ s3.get R.BIST_STATUS.STATE = 3 then s3.set R.BIST_STATUS.STATE 0 else s3

/-- START with a plan: refused, or the plan begins (R543). -/
def State.startPlan (s : State) (p : Nat) : State :=
  if !s.bit R.BIST_STATUS.READY || p == 0 || decide (planCount s.bist.section_ ≤ p) ||
      (planUnits s.bist.section_ p).any hbmUnit || decide (s.get R.BIST_SAVE.SIZE < 128) || s.bist.plan.isSome then
    s.set R.BIST_STATUS.STATE 7
  else ((s.beginPlan p).set R.BIST_STATUS.STATE 4).set R.BIST_CTRL.START 1

/-- BIST_WINDOW_READY (R542): no descriptor is queued or held anywhere in the device, and no cell of one waits for an iris. STATE goes on
showing a refused START. -/
def execBistWindowReady (s : State) : Out State :=
  complete true s
    (if s.mode == .serve && s.bit R.BIST_CTRL.WINDOW && s.apr.windowRefuse && !s.bit R.BIST_STATUS.READY && s.livePkts.isEmpty &&
        s.fab.waiting.isEmpty then
      let t := s.setBit R.BIST_STATUS.READY true
      if s.get R.BIST_STATUS.STATE = 2 then t.set R.BIST_STATUS.STATE 3 else t
    else s)

/-- What a write of BIST_CTRL does beside storing its fields: the window, then START. The Boolean says that WINDOW = 1 was not
permitted. -/
def State.bistCtrl (s : State) (v : Nat) : State × Bool :=
  let window := v.testBit 8
  let bad := window && s.mode != .serve
  let was := s.bit R.BIST_CTRL.WINDOW
  let s1 := if bad || window == was then s
    else if window then (s.setBit R.BIST_CTRL.WINDOW true).openWindow
    else (s.setBit R.BIST_CTRL.WINDOW false).closeWindow
  let s2 := s1.set R.BIST_CTRL.PLAN (v % 16)
  (if v.testBit 4 then s2.startPlan (v % 16) else s2, bad)

end Sys2Proof.Machine
end

