-- ==== Sys2Proof/Machine/Power.lean ====
section
/-! DEFINITION. Supplies, the keeper island, the rail sequencer, HOLD-UP, the temperature, and the mode transitions
of the supplies and pins (R503, R504, R509 to R521, R529). -/
namespace Sys2Proof.Machine

/-! ### What a reset keeps -/

/-- Registers of the keeper island, which keep their values across DORMANT: KEEP, JRN, FLT_LOG and the fault log
(R514, R483). -/
def keeperOff (off : Nat) : Bool :=
  decide (0x100000 ≤ off ∧ off < 0x200000) || decide (0x300000 ≤ off ∧ off < 0x400000) || off == 0x200068 ||
    decide (0x208000 ≤ off ∧ off < 0x210000)

/-- Registers that a chip reset leaves: the keeper island, TOP and BOOT, the fault collector, the host endpoints, the
governor and the timebase (R529, R52, R400). -/
def safeOff (off : Nat) : Bool :=
  decide (off < 0x400000) || decide (0x500000 ≤ off ∧ off < 0x800000) || decide (0x2700000 ≤ off ∧ off < 0x2800000)

/-- The fields of the register at an offset that a record may set. -/
def loadFields (off : Nat) : List WField := match regAt off with | none => [] | some d => d.fields.filter fun f => f.load

/-- A field back at its reset value. -/
def State.resetField (s : State) (off lo : Nat) : State :=
  match (loadFields off).find? fun f => f.lo == lo with
  | some f => s.set ⟨off, lo, f.w⟩ (bitsGet (resetWord off).toNat lo f.w)
  | none => s

/-- Every field that the loader has set returns to its reset value (R496, R506). -/
def State.unloadFields (s : State) : State := s.boot.touched.foldl (fun (t : State) x => t.resetField x.1 x.2) s

/-- The entries of a sparse map whose key satisfies `p`. -/
def keepKeys {α : Type} (p : Nat → Bool) (m : SMap α) : SMap α := m.filter fun e => p e.1

/-- DORMANT: the core is held in reset. What stays is the keeper island, the pins, and the model's queue and record. -/
def State.dormantCore (s : State) : State :=
  { State.reset with
    pending := s.pending
    out := s.out
    free := s.free
    mode := .dormant
    prev := s.mode
    regs := keepKeys keeperOff s.regs
    cmd := { journal := s.cmd.journal, jptr := s.cmd.jptr, lastSeq := s.cmd.lastSeq }
    fault := { logPtr := s.fault.logPtr, warnArmed := s.fault.warnArmed, tripArmed := s.fault.tripArmed }
    power := { s.power with isolated := false, farPerstN := false, ppsNs := none }
    pace := { vgood := s.pace.vgood, vmaxN := s.pace.vmaxN, xoffIn := s.pace.xoffIn } }

/-- What a chip reset leaves of the host state: the endpoints' own; the bulk mover and the parked leaf queues are core blocks (R529). -/
def HostState.endpoints (h : HostState) : HostState :=
  { h with dmaReady := [], dmaRetries := (0, 0), dmaRuns := [], parked := [], parking := [] }

/-- SAFE: every core block but the host endpoints, the fault collector and the management port is reset; outputs are
quiet and the flash is released (R529, R485, R586); what it discards is counted, the requests that a host endpoint holds not being among it
(R61, R75). In PROVE and LOAD every field that the loader has set is first reset (R496, R506). -/
def State.toSafe (s : State) (cause : Nat) : State :=
  let s1 : State := { State.reset with
    loss := (s.flushAll.discardItems (fun n => decide (n < 432)) (if cause = 3 then s.fault.chipBy else 256 + cause)).loss
    pending := s.pending
    out := s.out
    free := s.free
    tb := s.tb
    slew := s.slew
    fabSlew := s.fabSlew
    mode := .safe
    prev := s.mode
    safeCause := cause
    regs := keepKeys safeOff (match s.mode with | .prove | .load => s.unloadFields.regs | _ => s.regs)
    cmd := { journal := s.cmd.journal, jptr := s.cmd.jptr, lastSeq := s.cmd.lastSeq }
    fault := { s.fault with chipReset := false, blocks := [], lateBlocks := [] }
    power := { s.power with farPerstN := false }
    pace := s.pace
    host := s.host.endpoints
    cnt := { wraps := keepKeys safeOff s.cnt.wraps } }
  (s1.emit .flashReleased).emit (.farPerst false)

/-- DORMANT by RESTART in any of its forms; the keeper records it (R503, R504). The rails stay up (R511). -/
def State.restart (s : State) : State :=
  let d := s.dormantCore
  { d with power := { d.power with ranRestart := true } }

/-! ### Rails (R510) -/

/-- The rails of a group in KEEP_RAIL.GOOD. -/
def groupRails : Nat → Nat
  | 0 => 0x03 | 1 => 0x0C | 2 => 0x70 | _ => 0x80

/-- Lowers every enable, in the order 3, 2, 1, 0: no rail is good without its enable. -/
def State.lowerRails (s : State) : State :=
  let s1 := { s with power := { s.power with en := 0, good := 0, railsGood := false } }
  ((((s1.emit (.railEn 3 false)).emit (.railEn 2 false)).emit (.railEn 1 false)).emit (.railEn 0 false))

/-- Raises RAIL_EN[0], unless the keeper is stopped, HOLD_OFF is 1, the enables are held low, or PWRFAIL_N must first have been
high for 100 ms. -/
def State.startRails (s : State) : State :=
  let p := s.power
  let high := p.pwrfailN && decide (p.highNs + 100000000 ≤ p.clock)
  if p.keeper && !p.latched && !p.retryWait && (!p.needHigh || high) && !s.bit R.KEEP_RAIL.HOLD_OFF && p.en == 0 then
    { s with power := { p with en := 1, needHigh := false, enNs := p.clock } }.emit (.railEn 0 true)
  else s

/-- RAIL_SEQUENCE_START (R510 step 1, R512). -/
def execRailSequenceStart (s : State) : Out State := complete true s s.startRails

/-- The least time from a group's enable until the next step: its rails lie within tolerance for 100 µs, and all but the last
group are then good for 1 ms (R510). -/
def goodAfter (g : Nat) : Nat := if g < 3 then 1100000 else 100000

/-- Group `g` has been good: the next enable rises, or the core rails are reported good (R510 steps 2 and 3). -/
def State.groupGood (s : State) (g : Nat) : State :=
  let p := s.power
  if p.keeper && p.en == 2 ^ (g + 1) - 1 && !p.railsGood && decide (p.enNs + goodAfter g ≤ p.clock) then
    let p1 := { p with good := p.good ||| groupRails g }
    if g < 3 then { s with power := { p1 with en := 2 ^ (g + 2) - 1, enNs := p.clock } }.emit (.railEn (g + 1) true)
    else { s with power := { p1 with railsGood := true, tries := 0 } }.set R.KEEP_RAIL.ATTEMPTS 0
  else s

/-- RAIL_GROUP_GOOD (R510). -/
def execRailGroupGood (g : Nat) (s : State) : Out State := complete (Instr.wf (.railGroupGood g)) s (s.groupGood g)

/-- Group `g`, enabled last, is not good after 20 ms (R510 step 4): the enables fall, the attempt is counted, the first
failure of a run names its group, KEEP_RAIL is raised, and after three failures the sequencer holds. -/
def State.groupFail (s : State) (g good : Nat) : State :=
  let p := s.power
  if p.keeper && p.en == 2 ^ (g + 1) - 1 && !p.railsGood && (good &&& groupRails g) != groupRails g &&
      decide (p.enNs + 20000000 ≤ p.clock) then
    let first := s.get R.KEEP_RAIL.ATTEMPTS == 0
    let s1 := { s with power := { p with
      tries := p.tries + 1, latched := decide (3 ≤ p.tries + 1), retryWait := decide (p.tries + 1 < 3)
      failNs := p.clock } }
    let s2 := if first then s1.set R.KEEP_RAIL.FAIL_GROUP g else s1
    ((s2.sat R.KEEP_RAIL.ATTEMPTS 1).lowerRails).raise 5 0
  else s

/-- RAIL_FAIL (R510); `good` gives the rails then good. -/
def execRailFail (g good : Nat) (s : State) : Out State := complete (Instr.wf (.railFail g good)) s (s.groupFail g good)

/-- RAIL_RETRY (R510): 1 s after a failed attempt the sequencer starts again. -/
def execRailRetry (s : State) : Out State :=
  complete true s (if s.power.retryWait && decide (s.power.failNs + 1000000000 ≤ s.power.clock) then { s with power := { s.power with retryWait := false } }.startRails else s)

/-! ### Reset pin and DORMANT exit -/

/-- DORMANT from HOLD-UP, whatever ends it (R512): the enables fall, and rise only after PWRFAIL_N has been high for 100 ms. -/
def State.afterHoldUp (s d : State) : State :=
  if s.mode == .holdUp then
    let t := d.lowerRails
    { t with power := { t.power with needHigh := true } }
  else d

/-- RESET_N low (R503, R511): DORMANT at once, the enables as they are but where HOLD-UP ends so; the keeper records the end of a run. -/
def State.resetLow (s : State) : State :=
  let s1 := { s with power := { s.power with resetN := false } }
  if s1.mode == .dormant then s1
  else
    let d := s.afterHoldUp s1.dormantCore
    { d with power := { d.power with ranReset := true } }

/-- RESET_N_LOW (R503). -/
def execResetNLow (s : State) : Out State := complete true s s.resetLow

/-- RESET_N_HIGH (R510, R521): the rise releases a held sequencer. -/
def execResetNHigh (s : State) : Out State :=
  complete true s { s with power := { s.power with
    resetN := true
    latched := if s.power.resetN then s.power.latched else false
    tries := if s.power.latched && !s.power.resetN then 0 else s.power.tries } }

/-- The strapping pins are sampled: the levels of H0_BIF, H1_BIF and SMB_ADDR[1:0] are open values (R433, R584). -/
def State.sampleStraps (s : State) : State :=
  let d := s.draw
  { d.2 with power := { d.2.power with hxBif := [d.1.testBit 0, d.1.testBit 1], smbAddr := d.1 / 4 % 4 } }

/-- DORMANT_EXIT (R503): PROVE begins with every register but the keeper's at its reset value; THERM_WARN and THERM_TRIP
take their reset values (R521); the timebase starts at 0 (R400); the loader drives XSPI_RESET_N low (R484). -/
def State.dormantExit (s : State) : State :=
  if s.mode == .dormant && s.power.resetN && s.power.pwrfailN && s.power.railsGood && s.power.keeper then
    let s1 := { s.dormantCore with mode := .prove, prev := .dormant }
    ((s1.sampleStraps.set R.KEEP_THERM.TRIP 108).set R.KEEP_THERM.WARN 100).emit .flashReset
  else s

/-- DORMANT_EXIT (R503). -/
def execDormantExit (s : State) : Out State := complete true s s.dormantExit

/-! ### HOLD-UP (R476, R516 to R519) -/

/-- The close entry of R476 and R479. -/
def State.closeEntry (s : State) (cause : Nat) : State :=
  let body := record 64 [(0, 1, cause), (8, 6, s.power.holdNs), (16, 6, s.cmd.lastSeq), (24, 2, s.cmd.open_.length)]
  let seq := s.get R.JRN_HEAD.HEAD
  let w := s.writeEntry 0xFF 2 body 0 0
  w.1.writeOutcome seq (outcomeArea 0 0 0 0 [])

/-- Entry to HOLD-UP from PROVE, LOAD, SERVE or SAFE: KEEP_EVENT, GASP cells, the close entry when a run is interrupted and its slot of
the journal may be taken (R468);
a chip reset, a RESTART and a SAFE that are pending end (R504), and so do a self-test plan and an exposure (R519,
R560). -/
def State.enterHoldUp (s : State) (cause : Nat) : State :=
  match s.mode with
  | .dormant | .holdUp => s
  | m =>
    let writes := m == .serve || (m == .load && s.boot.epochWritten)
    let s1 := ((s.set R.KEEP_EVENT.CAUSE cause).set R.KEEP_EVENT.TIME s.now).set R.CNT_EXPOSE.BUSY 0
    let s2 : State := { s1 with
      mode := .holdUp
      prev := m
      power := { s1.power with holdFrom := m, holdNs := s.ns, isolated := false }
      fault := { s1.fault with heldPin := s.faultPin, chipReset := false }
      cmd := { s1.cmd with modeReq := none }
      cnt := { s1.cnt with exposure := none } }
    let s3 := s2.endSelfTest.gaspAll
    if writes && !s3.slotHeld then s3.closeEntry cause else s3

/-- PWRFAIL_N (R516): taken as asserted. -/
def execPwrfailN (s : State) : Out State :=
  complete true s ({ s with power := { s.power with pwrfailN := false } }.enterHoldUp 0)

/-- PWRFAIL_N_HIGH (R512): deasserted, which starts the 100 ms; HOLD-UP does not end (R519). -/
def execPwrfailNHigh (s : State) : Out State :=
  complete true s { s with power := { s.power with
    pwrfailN := true
    highNs := if s.power.pwrfailN then s.power.highNs else s.power.clock } }

/-- CORE_SUPPLY_LOST (R516). -/
def execCoreSupplyLost (s : State) : Out State := complete true s (s.enterHoldUp 1)

/-- HOLD_UP_ISOLATION (R517): 15 µs after HOLD-UP entry the keeper isolates itself and every lane goes idle. -/
def execHoldUpIsolation (s : State) : Out State :=
  complete true s (if s.mode == .holdUp && decide (s.power.holdNs + 15000 ≤ s.ns) then
    { s with power := { s.power with isolated := true } } else s)

/-- HOLD_UP_EXIT (R503, R512): DORMANT; the enables fall, and rise only after PWRFAIL_N has been high. -/
def execHoldUpExit (s : State) : Out State :=
  complete true s (if s.mode == .holdUp then s.afterHoldUp s.dormantCore else s)

/-! ### Keeper inputs (R513 to R515) -/

/-- The 10 ms that MAIN must stay at or above 1.70 V: they start anew when MAIN is back after a dip, unless it was shorter than 1 µs
(R513; on B1, KL-10 of R600). -/
def PowerState.mainAt (p : PowerState) (mainMv : Nat) : PowerState :=
  if mainMv < 1700 then { p with dipNs := some (p.dipNs.getD p.clock) }
  else match p.dipNs with
    | some d => { p with dipNs := none, mainNs := if p.clock < d + 1000 then p.mainNs else p.clock }
    | none => p

/-- The measured keeper inputs, in mV. -/
def State.keeperMv (s : State) (mainMv auxMv : Nat) : State :=
  ({ s with power := s.power.mainAt mainMv }.set R.KEEP_SUPPLY.MAIN_MV mainMv).set R.KEEP_SUPPLY.AUX_MV auxMv

/-- The 10 ms begin now. -/
def State.mainTimer (s : State) : State := { s with power := { s.power with mainNs := s.power.clock } }

/-- KEEPER_START (R513): either input above 1.70 V starts a stopped keeper, on MAIN when MAIN is above 1.70 V. -/
def execKeeperStart (mainMv auxMv : Nat) (s : State) : Out State :=
  complete (Instr.wf (.keeperStart mainMv auxMv)) s
    (if !s.power.keeper && (decide (1700 < mainMv) || decide (1700 < auxMv)) then
      ({ s with power := { s.power with keeper := true, dipNs := none } }.mainTimer.keeperMv mainMv auxMv).setBit R.KEEP_SUPPLY.SEL
        (!decide (1700 < mainMv))
    else s)

/-- The selected input has fallen and the other carries the keeper (R513). -/
def State.keeperSwitch (s : State) (mainMv auxMv : Nat) : State :=
  if !s.power.keeper then s
  else
    let s1 := s.keeperMv mainMv auxMv
    if s1.get R.KEEP_SUPPLY.SEL = 0 then
      if mainMv < 1620 ∧ 1620 < auxMv then
        ((s1.mainTimer.set R.KEEP_SUPPLY.SEL 1).sat R.KEEP_SUPPLY.SWITCHES 1).raise 4 0
      else s1
    else if auxMv < 1620 ∧ 1620 ≤ mainMv then s1.set R.KEEP_SUPPLY.SEL 0 else s1

/-- KEEPER_SWITCH (R513). -/
def execKeeperSwitch (mainMv auxMv : Nat) (s : State) : Out State :=
  complete (Instr.wf (.keeperSwitch mainMv auxMv)) s (s.keeperSwitch mainMv auxMv)

/-- On AUX, MAIN is at or above 1.70 V and has stayed there for 10 ms: the keeper returns to it (R513). `dip` is how long, in ns, MAIN lay
below 1.70 V between the last measurement and this one: 0 where it did not. -/
def State.returnMain (s : State) (mainMv auxMv dip : Nat) : State :=
  if !s.power.keeper then s
  else
    let t := (if 1000 ≤ dip then s.mainTimer else s).keeperMv mainMv auxMv
    if t.get R.KEEP_SUPPLY.SEL = 1 ∧ t.power.dipNs = none ∧ t.power.mainNs + 10000000 ≤ t.power.clock then t.set R.KEEP_SUPPLY.SEL 0
    else t

/-- KEEPER_RETURN_MAIN (R513, R600). -/
def execKeeperReturnMain (mainMv auxMv dipNs : Nat) (s : State) : Out State :=
  complete (Instr.wf (.keeperReturnMain mainMv auxMv dipNs)) s (s.returnMain mainMv auxMv dipNs)

/-- A keeper brown-out (R514, R515): the island stops; fields held in the magnetoresistive array stay, every other
keeper register and the time of day are lost; the enables fall with it and the core is in DORMANT. -/
def State.brownout (s : State) (mainMv auxMv : Nat) : State :=
  let sel := if s.get R.KEEP_SUPPLY.SEL = 0 then mainMv else auxMv
  let other := if s.get R.KEEP_SUPPLY.SEL = 0 then auxMv else mainMv
  if s.power.keeper && decide (sel < 1550) && decide (other < 1620) then
    let d := s.dormantCore
    let s1 := { d with
      prev := if s.mode == Mode.dormant then s.prev else s.mode
      fault := {}
      cmd := { d.cmd with jptr := 0 }
      power := { d.power with
        keeper := false, en := 0, good := 0, railsGood := false, retryWait := false, latched := false, tries := 0
        clock := 0, enNs := 0, failNs := 0, highNs := 0, todNs := 0, mainNs := 0, dipNs := none
        needHigh := s.power.needHigh || s.mode == Mode.holdUp } }
    let group := s.get R.KEEP_RAIL.FAIL_GROUP
    ((((((s1.sat R.KEEP_SUPPLY.BROWNOUTS 1).setWord R.KEEP_TOD.SECONDS.off 0).setWord R.KEEP_RAIL.EN.off 0).set
      R.KEEP_RAIL.FAIL_GROUP group).setWord R.KEEP_THERM.TJ.off (resetWord R.KEEP_THERM.TJ.off)).set
      R.KEEP_SUPPLY.SEL 0).keeperMv mainMv auxMv
  else s

/-- KEEPER_BROWNOUT (R515). -/
def execKeeperBrownout (mainMv auxMv : Nat) (s : State) : Out State :=
  complete (Instr.wf (.keeperBrownout mainMv auxMv)) s (s.brownout mainMv auxMv)

/-! ### Temperature (R521) -/

/-- The hottest of the 32 points and the first sensor that gave it. -/
def hottest : Nat → List Nat → Nat × Nat
  | _, [] => (0, 0)
  | i, t :: ts => let r := hottest (i + 1) ts; if r.1 ≤ t then (t, i) else r

/-- THERM_WARN or THERM_TRIP at a limit: raised once, and armed again 5 °C below it. -/
def thermArm (armed : Bool) (limit tj : Nat) : Bool :=
  if limit ≤ tj then false else if tj < limit - 5 then true else armed

/-- A temperature sample: TJ, its sensor and peak; WARN, TRIP and the 115 °C shutdown. -/
def State.thermal (s : State) (temps : List Nat) : State :=
  let h := hottest 0 temps
  let warn := s.get R.KEEP_THERM.WARN
  let trip := s.get R.KEEP_THERM.TRIP
  let s1 := ((s.set R.KEEP_THERM.TJ h.1).set R.KEEP_THERM.SENSOR h.2).peak R.KEEP_THERM.PEAK h.1
  let s2 := { s1 with fault := { s1.fault with
    warnArmed := thermArm s.fault.warnArmed warn h.1
    tripArmed := thermArm s.fault.tripArmed trip h.1 } }
  let s3 := if s.fault.warnArmed && decide (warn ≤ h.1) then s2.raise 2 0 else s2
  let s4 := if s.fault.tripArmed && decide (trip ≤ h.1) then s3.raise 3 0 else s3
  if 115 ≤ h.1 then
    let d := (if s4.mode == Mode.dormant then s4 else s4.dormantCore).lowerRails
    { d with power := { d.power with latched := true, needHigh := d.power.needHigh || s.mode == Mode.holdUp } }
  else s4

/-- THERMAL_SAMPLE (R521). -/
def execThermalSample (temps : List Nat) (s : State) : Out State :=
  complete (Instr.wf (.thermalSample temps)) s (if s.power.keeper then s.thermal temps else s)

/-! ### Chip reset and requested modes (R505, R506, R529) -/

/-- CHIP_RESET_COMPLETE (R529): the core blocks are reset and the device is in SAFE. -/
def execChipResetComplete (s : State) : Out State := complete true s (if s.fault.chipReset then s.toSafe 3 else s)

/-- MODE_REQUEST_QUERY (R505): TOP_MODE is returned. -/
def execModeRequestQuery (seq : Nat) (s : State) : Out State :=
  complete true s (s.runCmd seq 0x7E fun c t =>
    if c.op 16 1 = 1 ∨ c.op 16 1 = 2 then
      (if c.formed [(17, 47)] then t else t.refuse seq 1)
    else if c.op 16 1 = 0 ∧ c.formed [(17, 47)] = true then
      t.told seq [(16, 8, t.mode.code + 16 * t.prev.code + 256 * t.safeCause)]
    else t.refuse seq 1)

/-- RESTART or SAFE executes: done; COMMAND_COMPLETE sets the takeover (R505). -/
def State.modeRequest (s : State) (seq op : Nat) : State :=
  s.runCmd seq 0x7E fun c t => if modeOp c.bytes = some op then t.finish seq 0 0 0 0 [] else t

/-- MODE_REQUEST_RESTART (R505). -/
def execModeRequestRestart (seq : Nat) (s : State) : Out State := complete true s (s.modeRequest seq 1)

/-- MODE_REQUEST_SAFE (R505). -/
def execModeRequestSafe (seq : Nat) (s : State) : Out State := complete true s (s.modeRequest seq 2)

/-- MODE_REQUEST_TAKEOVER (R505): 100 µs after completion the device restarts or enters SAFE. -/
def execModeRequestTakeover (s : State) : Out State :=
  complete true s (match s.mode, s.cmd.modeReq with
    | .serve, some (1, some due) => if due ≤ s.ns then s.restart else s
    | .serve, some (2, some due) => if due ≤ s.ns then s.toSafe 4 else s
    | _, _ => s)

end Sys2Proof.Machine
end

