-- ==== Sys2Proof/Machine/RegWrite.lean ====
section
/-! DEFINITION. Register writes: access rules, reserved encodings, registers with rules of their own (R16, R18, R434, R568 to R575). -/
namespace Sys2Proof.Machine

/-! ### Storing a word (R16, R18) -/

/-- One field of a written word: the word so far, and whether a reserved encoding has been met. -/
def storeField (old v : Nat) (acc : Nat × Bool) (f : WField) : Nat × Bool :=
  let x := bitsGet v f.lo f.w
  match f.acc with
  | some .rw => if f.least ≤ x ∧ x ≤ f.most then (bitsSet acc.1 f.lo f.w x, acc.2) else (acc.1, true)
  | some .w1c => (bitsSet acc.1 f.lo f.w (bitsGet old f.lo f.w &&& (2 ^ f.w - 1 - x)), acc.2)
  | _ => acc

/-- What a register holds after the write of a word. -/
def storeFields (old v : Nat) (fs : List WField) : Nat × Bool := fs.foldl (storeField old v) (old, false)

/-- The written word with the fields `fs` (lowest bit, width) taken from the old one. -/
def keepFields (old v : Nat) (fs : List (Nat × Nat)) : Nat :=
  fs.foldl (fun (x : Nat) f => bitsSet x f.1 f.2 (bitsGet old f.1 f.2)) v

/-- Where a rule rejects a value, its fields keep their old bits. -/
def rejectIf (bad : Bool) (old v : Nat) (fs : List (Nat × Nat)) : Nat × Bool := if bad then (keepFields old v fs, true) else (v, false)

/-- The fields of FLT_REACT[n] that a write may not set (R522, R524). -/
def reactReject (n old v : Nat) : Nat × Bool :=
  if !sourceListed n then rejectIf (v != 0) old v [(24, 8), (0, 6)]
  else
    let block := v.testBit 2 && !([8, 9, 10, 11, 13, 14].contains n)
    let hold := v.testBit 5 && n != 0
    rejectIf (block || hold) old v ((if block then [(2, 1)] else []) ++ (if hold then [(5, 1)] else []))

/-- HOST_Q: FUNC bits [11:3] of a PF are reserved; a vector above 7 is reserved for a VF. -/
def hostQValue (old v : Nat) : Nat × Bool :=
  if v.testBit 58 then rejectIf (decide (7 < bitsGet v 21 11)) old v [(21, 11)] else (bitsSet v 49 9 0, false)

/-- A register of MACn, by its offset in the block. -/
def macOff (off rel : Nat) : Bool := decide (0x2000000 ≤ off ∧ off < 0x2180000) && (off - 0x2000000) % 0x4000 == rel

/-- The rules that reject a value beside the ranges of single fields: the word as it is to be stored, and whether a value was
rejected. -/
def State.valueRules (s : State) (off v : Nat) : Nat × Bool :=
  let old := (s.word off).toNat
  let get := bitsGet v
  if off = 0x100010 then
    let trip := if 100 ≤ get 8 8 ∧ get 8 8 ≤ 110 then get 8 8 else bitsGet old 8 8
    rejectIf (decide (trip ≤ get 0 8)) old v [(0, 8)]
  else if 0x201000 ≤ off ∧ off < 0x201800 then reactReject ((off - 0x201000) / 8) old v
  else if off = 0x600020 then
    let good := s.get R.PACE_FLOOR.FLOOR < get 32 16 ∧ get 32 16 + get 0 16 < get 16 16 ∧ get 16 16 + get 0 16 ≤ 2600
    rejectIf (!decide good) old v [(0, 16), (16, 16), (32, 16)]
  else if off = 0x600028 then
    let vmax := if get 24 8 ≤ 100 then get 24 8 else bitsGet old 24 8
    rejectIf (decide (vmax ≤ get 16 8)) old v [(16, 8)]
  else if 0x600100 ≤ off ∧ off < 0x600140 then rejectIf (!wmListed (get 0 12)) old v [(0, 12)]
  else if 0x600140 ≤ off ∧ off < 0x600180 then
    rejectIf (decide (95 < get 0 7) || decide (95 < get 8 7) || decide (get 8 7 < get 0 7)) old v [(0, 7), (8, 7)]
  else if 0x1B04000 ≤ off ∧ off < 0x1B06000 then
    let high := get (R.BUF_WM.HIGH 0).lo 28
    rejectIf (decide (0 < high ∧ high ≤ get (R.BUF_WM.LOW 0).lo 28)) old v [((R.BUF_WM.HIGH 0).lo, 28), ((R.BUF_WM.LOW 0).lo, 28)]
  else if macOff off 0x20 then rejectIf (get 32 16 == 0 || decide (get 16 16 ≤ get 32 16)) old v [(32, 16)]
  else if 0x2740000 ≤ off ∧ off < 0x2780000 ∧ off % 16 = 0 then hostQValue old v
  else (v, false)

/-! ### Enabled rings and queues (R441, R454, R458, R564) -/

/-- The enable bit that holds a register, where one does. -/
def holdBit (off : Nat) : Option Loc :=
  if 0x400000 ≤ off ∧ off < 0x400800 ∧ off % 32 < 16 then some (R.CMD_RING.ENABLE ((off - 0x400000) / 32))
  else if 0x2740000 ≤ off ∧ off < 0x2780000 then some (R.HOST_Q.ENABLE ((off - 0x2740000) / 16))
  else if off = 0x2800000 then some R.DMA_RING.ENABLE
  else if off = 0x2903000 then some R.CNT_XRING.EN
  else none

/-- The reads outstanding for a queue, or for the bulk mover's ring, bring nothing when the ring starts anew, under a number that no
descriptor has, and what waits of them is not sent: no descriptor and no buffer is read before the doorbell that covers it (R451). -/
def State.voidReads (s : State) (p : HostReq → Bool) : State :=
  let void (r : HostReq) : HostReq := match r with
    | .descriptors q _ _ | .reread q _ => .descriptors q 65536 0
    | .dmaDescriptors _ _ | .dmaReread _ => .dmaDescriptors 65536 0
    | .txData q _ => .txData q 65536
    | x => x
  let t := s.dropRead p
  { t with host := { t.host with reads := t.host.reads.map fun h => if p h.req then { h with req := void h.req } else h } }

/-- A ring or queue starts: its sequences are 0. -/
def State.ringStarts (s : State) (off : Nat) : State :=
  if off < 0x400800 then
    let r := (off - 0x400000) / 32
    ((s.set (R.CMD_STAT.C r) 0).set (R.CMD_STAT.T r) 0).setBit (R.CMD_STAT.STOPPED r) false
  else if off < 0x2780000 then
    let q := (off - 0x2740000) / 16
    let v := s.voidReads (HostReq.ofQueue q)
    let t := { v with buf := { v.buf with rx := v.buf.rx.map fun (f : RxFrame) => if f.writeBack.any (fun (w : Nat × Nat) => w.1 == q) then { f with writeBack := none } else f } }
    let u := ((((t.set (R.HOST_QSTAT.C q) 0).set (R.HOST_QSTAT.T q) 0).setBit (R.HOST_QSTAT.STOPPED q) false).setReady q []).setRetry q (0, 0)
    if u.epUp (u.epOfFunc (u.get (R.HOST_Q.FUNC q))) then u else u.endReset q
  else if off = 0x2800000 then
    let t := s.voidReads HostReq.ofMover
    (((t.set R.DMA_STAT.C 0).set R.DMA_STAT.T 0).setBit R.DMA_STAT.STOPPED false).setDma [] (0, 0)
  else { s with cnt := { s.cnt with xn := 0 } }

/-- A ring or queue is disabled: a transmit queue keeps the descriptor in progress and no other. -/
def State.ringStops (s : State) (off : Nat) : State :=
  if off < 0x400800 then s
  else if off < 0x2780000 then
    let q := (off - 0x2740000) / 16
    let kept := if s.reading (HostReq.ofFrame q) || s.frameWaits q then (s.ready q).take 1 else []
    (((s.dropRead (HostReq.ofRing q)).setReady q kept).setRetry q (0, 0)).syncBusy q
  else if off = 0x2800000 then (s.dropRead HostReq.ofMover).setDma [] (0, 0)
  else s

/-! ### What follows a stored word -/

/-- The PCS of a port holds lock and alignment and receives no fault. -/
def State.pcsGood (s : State) (n : Nat) : Bool :=
  s.bit (R.MAC_STATUS.ALIGNED n) && !s.bit (R.MAC_STATUS.LOCAL_FAULT n) && !s.bit (R.MAC_STATUS.REMOTE_FAULT n)

/-- SEC_MSEC_PORT: moving TX_AN to an installed association ends the want of packet numbers, and the link is as the PCS has it (R382,
R404). -/
def State.msecMoved (s : State) (n : Nat) (old : Nat) : State :=
  if SMap.find (fun _ => false) s.mac.exhausted n = true ∧ bitsGet old 58 2 ≠ s.get (R.SEC_MSEC_PORT.TX_AN n) ∧ (s.txAssoc n).isSome = true then
    let t : State := { s with mac := { s.mac with exhausted := s.mac.exhausted.put (fun _ => false) n false } }
    if t.pcsGood n then t.linkRises n else t
  else s

/-- The counter that CNT_PROBE selects: its value and WRAP; none when it names no counter. A byte counter shows the WRAP of its
pair's packet counter (KL-9, R599). -/
def State.probed (s : State) : Option (Nat × Bool) :=
  let a := s.get R.CNT_PROBE.ADDR
  if s.bit R.CNT_PROBE.KIND then
    if a < s.storePairs then
      some (SMap.find (fun _ => 0) s.cnt.pairs (2 * a + s.get R.CNT_PROBE.HALF), SMap.find (fun _ => false) s.cnt.wraps (pairWrapKey a 0))
    else none
  else if counterOffs.contains a then some ((s.word a).toNat, SMap.find (fun _ => false) s.cnt.wraps a)
  else none

/-- CNT_PROBE captures (R549). -/
def State.probe (s : State) : State :=
  match s.probed with
  | some (v, w) =>
    ((s.setBit R.CNT_PROBE.VALID true).setBit R.CNT_PROBE.WRAP w).setWord R.CNT_PROBE_VAL.VALUE.off (BitVec.ofNat 64 v)
  | none => s.setBit R.CNT_PROBE.VALID false

/-- The effects of a stored word on what is not the register itself. -/
def State.written (s : State) (off old v : Nat) : State :=
  if off = 0x100020 then s.setBit R.KEEP_TOD.VALID true
  else if off = 0x700008 then
    (if bitsGet v 0 32 = 0 then s else { s with slew := signed 32 v * 2 ^ 40, fabSlew := false })
  else if macOff off 0x30 then
    let n := (off - 0x2000000) / 0x4000
    if bitsGet old 62 2 = s.get ⟨off, 62, 2⟩ then s else s.reverify n
  else if 0x2200000 ≤ off ∧ off < 0x2200300 then s.msecMoved ((off - 0x2200000) / 8) old
  else if off = 0x2900010 then s.probe
  else if off = 0x1B00210 then s.refillWindows
  else match holdBit off with
    | some l => if l.off = off ∧ bitsGet old l.lo 1 = 0 ∧ s.bit l = true then s.ringStarts off else s
    | none => s

/-- Stores a word: a reserved encoding or rejected value keeps its field and is logged with KIND 1; where the register is the FLT_REACT of
that very log's source, its raise uses the value before the write (R526). -/
def State.storeWord (s : State) (src : HostSrc) (off v : Nat) (fs : List WField) : State :=
  let old := (s.word off).toNat
  let r := s.valueRules off v
  let w := storeFields old r.1 fs
  if (r.2 || w.2) && off == 0x201038 then
    let t := s.regLog 1 0 src off v
    t.setWord off (BitVec.ofNat 64 (storeFields (t.word off).toNat r.1 fs).1)
  else
  let s1 := (s.setWord off (BitVec.ofNat 64 w.1)).written off old v
  if r.2 || w.2 then s1.regLog 1 0 src off v else s1

/-- Every field of the word is as the register has it. -/
def sameFields (old v : Nat) (fs : List WField) : Bool := fs.all fun f => bitsGet old f.lo f.w == bitsGet v f.lo f.w

/-- A write of a register that an enabled ring or queue holds: it may only clear ENABLE (R441). -/
def State.heldWrite (s : State) (src : HostSrc) (off v : Nat) (fs : List WField) (l : Loc) : State :=
  let old := (s.word off).toNat
  if sameFields old v fs then s
  else if l.off = off ∧ bitsGet v l.lo 1 = 0 then
    let s1 := (s.setBit l false).ringStops off
    if sameFields old v (fs.filter fun f => f.lo != l.lo) then s1 else s1.regLog 3 0 src off v
  else s.regLog 3 0 src off v

/-! ### MACsec associations (R405) -/

/-- The key of the association that SEC_MSA_CMD names. -/
def State.msaNamed (s : State) : Nat :=
  msaKey (s.get R.SEC_MSA_CMD.PORT) (s.get R.SEC_MSA_CMD.DIR) (if s.bit R.SEC_MSA_CMD.DIR then s.get R.SEC_MSA_CMD.SC else 0)
    (s.get R.SEC_MSA_CMD.AN)

/-- A staged word. -/
def State.msaStage (s : State) (j : Nat) : Nat := (s.word (0x2200800 + 8 * j)).toNat

/-- The staged association. -/
def State.stagedAssoc (s : State) : Assoc :=
  { key := (List.range 4).map s.msaStage
    salt := s.msaStage 4 + s.msaStage 5 % 2 ^ 32 * 2 ^ 64
    ssci := s.msaStage 5 / 2 ^ 32
    pn := s.msaStage 6
    sci := s.msaStage 7
    window := s.get R.SEC_MSA_CMD.WINDOW }

/-- The operation meets a condition of ERROR. -/
def State.msaError (s : State) : Bool :=
  let n := s.get R.SEC_MSA_CMD.PORT
  decide (95 < n) || s.upperMac n ||
    (decide (s.get R.SEC_MSA_CMD.OP < 2) && !s.bit R.SEC_MSA_CMD.DIR && s.bit (R.SEC_MSEC_PORT.EN n) &&
      s.get R.SEC_MSA_CMD.AN == s.get (R.SEC_MSEC_PORT.TX_AN n))

/-- The operation of SEC_MSA_CMD: install, invalidate, or read the PN. Reading the PN of an association that is not installed
gives an open value. -/
def State.msaRun (s : State) : State :=
  if s.msaError then s.setBit R.SEC_MSA_CMD.ERROR true
  else
    let s1 := s.setBit R.SEC_MSA_CMD.ERROR false
    let k := s1.msaNamed
    match s1.get R.SEC_MSA_CMD.OP with
    | 0 => (List.range 4).foldl (fun (t : State) j => t.setWord (0x2200800 + 8 * j) 0) (s1.setAssoc k (some s1.stagedAssoc))
    | 1 => s1.setAssoc k none
    | _ => match s1.assoc k with
      | some a => s1.setWord 0x2200830 (BitVec.ofNat 64 a.pn)
      | none => s1.draw.2.setWord 0x2200830 (BitVec.ofNat 64 s1.draw.1)

/-! ### Registers whose write is an operation -/

/-- FLT_STATUS: the bits written as 1 clear, and the COUNT of their sources returns to 0 (R527). -/
def State.clearFaults (s : State) (w v : Nat) : State :=
  (List.range 64).foldl (fun (t : State) b =>
    if v.testBit b then (t.setBit (faultBit (64 * w + b)) false).set (R.FLT_REACT.COUNT (64 * w + b)) 0 else t) s

/-- A source whose BLOCK reaction resets a prism or service facet (R524). -/
def blockSource (n : Nat) : Bool := [8, 9, 10, 11, 13, 14].contains n

/-- FLT_FORCE: the sources of the bits written as 1 are raised in ascending order (R526, R533). -/
def State.forceFaults (s : State) (w v : Nat) : State :=
  (List.range 64).foldl (fun (t : State) b =>
    if v.testBit b then t.raiseAs (64 * w + b) 0 (if blockSource (64 * w + b) then some 0 else none) true else t) s

/-- TOP_MODE_REQ: RESTART in SAFE; in every other mode the write is dropped and logged (R506). -/
def State.modeReqWrite (s : State) (src : HostSrc) (v : Nat) : State :=
  if s.mode != .safe then s.regLog 3 0 src 0x18 v
  else if v % 4 = 1 then s.restart
  else s.regLog 1 0 src 0x18 v

/-- DMA_DB: the bulk mover's doorbell (R443, R454). -/
def State.dmaDoorbell (s : State) (v : Nat) : State :=
  let drop := s.sat R.HOST_ERR.DOORBELL 1
  if !s.bit R.DMA_RING.ENABLE || decide (65536 ≤ v) then drop
  else match doorbellTarget (s.get R.DMA_STAT.T) (s.get R.DMA_STAT.C) (s.get R.DMA_RING.SIZE) v with
    | some t => (s.set R.DMA_STAT.T t).dmaFetch
    | none => drop

/-- The fabric disciplines the timebase (R400, R401). -/
def State.fabricTime (s : State) : Bool := decide (1 ≤ s.get R.FAB_TIME.HOPS ∧ s.get R.FAB_TIME.HOPS ≤ 14)

/-- A write of a word to a register that has a writable field. -/
def State.regWord (s : State) (src : HostSrc) (off v : Nat) (fs : List WField) : State :=
  if off = 0x18 then s.modeReqWrite src v
  else if 0x200000 ≤ off ∧ off < 0x200020 then s.clearFaults ((off - 0x200000) / 8) v
  else if 0x200020 ≤ off ∧ off < 0x200040 then s.forceFaults ((off - 0x200020) / 8) v
  else if (off = 0x700008 ∨ off = 0x700010) ∧ s.fabricTime = true then s.regLog 3 0 src off v
  else if off = 0x2200840 then
    let s1 := s.storeWord src off v fs
    if v.testBit 63 then s1.msaRun else s1
  else if off = 0x2800008 then s.dmaDoorbell v
  else if off = 0x2A00000 then
    let r := s.bistCtrl v
    if r.2 then r.1.regLog 1 0 src off v else r.1
  else match holdBit off with
    | some l => if s.bit l then s.heldWrite src off v fs l else s.storeWord src off v fs
    | none => s.storeWord src off v fs

/-- A whole word written to BAR0: no register, or none with a writable field, is KIND 2; in SAFE the blocks that do not answer
drop it (R434, R573). -/
def State.bar0Word (s : State) (src : HostSrc) (off v : Nat) : State :=
  if s.accessMode == .safe && !safeBlock off then s.regLog 3 0 src off v
  else match regAt off with
    | none => s.regLog 2 0 src off v
    | some d => if d.fields.any fun f => f.acc.isSome then s.regWord src off v d.fields else s.regLog 2 0 src off v

/-- A write of a word of BAR0 by a host: only the management functions expose BAR0 (R568). -/
def State.bar0 (s : State) (src : HostSrc) (off v : Nat) : State :=
  if s.reach src && isManager src then s.bar0Word src off v else s.emit .unreachable

/-! ### BAR2 and BAR4 (R458, R480, R568, R569) -/

/-- A word of a ring slot: only the ring's owner writes it. -/
def State.slotWord (s : State) (src : HostSrc) (off v : Nat) : State :=
  let r := off / 0x20000
  if 64 * 2 ^ s.get (R.CMD_RING.SIZE r) ≤ off % 0x20000 then s.regLog 2 1 src off v
  else if src.func != s.ringPf r then s.regLog 3 1 src off v
  else { s with cmd := { s.cmd with slots := s.cmd.slots.put (fun _ => 0) off v } }

/-- A whole word written to BAR2 of a PF or of a VF. -/
def State.bar2Word (s : State) (src : HostSrc) (off v : Nat) : State :=
  if 4096 ≤ src.func then (if off / 8 < 16384 then s.queueDoorbell src (off / 8) v else s.regLog 2 1 src off v)
  else if off < 0x800000 then s.slotWord src off v
  else if off < 0x820000 then s.queueDoorbell src ((off - 0x800000) / 8) v
  else if off < 0x820200 then s.cmdDoorbell src ((off - 0x820000) / 8) v
  else s.regLog 2 1 src off v

/-- The bits of the enabled bytes. -/
def enabledBits (be v : Nat) : Nat :=
  (List.range 8).foldl (fun (acc : Nat) i => if be.testBit i then acc + bitsGet v (8 * i) 8 * 2 ^ (8 * i) else acc) 0

/-- One word of a host write: a word covered only in part is dropped and logged with KIND 0 (R572). -/
def State.hostWord (s : State) (src : HostSrc) (bar off v be : Nat) : State :=
  if be = 0 then s
  else if be ≠ 255 then s.regLog 0 bar src off (enabledBits be v)
  else match bar with
    | 0 => s.bar0Word src off v
    | 1 => s.bar2Word src off v
    | _ => s.regLog 3 2 src off v

/-- The bytes of a BAR that a function exposes (R568): BAR0 64 MiB and BAR4 16 MiB of the management functions, BAR2 16 MiB of a PF and
128 KiB of a VF; 0 where the function has no such BAR. Here 1 stands for BAR2 and 2 for BAR4. -/
def barSize (h : HostSrc) (bar : Nat) : Nat :=
  if bar = 1 then (if 4096 ≤ h.func then 2 ^ 17 else 2 ^ 24) else if isManager h then (if bar = 0 then 2 ^ 26 else 2 ^ 24) else 0

/-- The words of a host write, in ascending address order. -/
def State.hostWords (s : State) (src : HostSrc) (bar off : Nat) : List (Nat × Nat) → State
  | [] => s
  | w :: ws =>
    if s.reach src && decide (off < barSize src bar) then (s.hostWord src bar off w.1 w.2).hostWords src bar (off + 8) ws else s

/-- A host write. -/
def State.hostWrite (s : State) (src : HostSrc) (bar off : Nat) (words : List (Nat × Nat)) : State :=
  if s.reach src && decide (off < barSize src bar) then s.hostWords src bar (off / 8 * 8) words else s.emit .unreachable

end Sys2Proof.Machine
end

