-- ==== Sys2Proof/Machine/Clock.lean ====
section
/-! DEFINITION. What one cycle of TB_REFCLK does while no command waits: the timebase and the time of day advance (R400, R377, R514). -/
namespace Sys2Proof.Machine

/-- The length of a cycle of TB_REFCLK, in ns. -/
def refclkNs : Nat := 4

/-- The most that a slew moves the timebase in one cycle, in units of 2^-40 ns: 1,000 ns per ms, or 50 ns per ms for a correction
against the parent, and while the fabric disciplines the timebase (R377, R400). -/
def State.slewLimit (s : State) : Int := refclkNs * 2 ^ 40 * (if s.fabSlew || s.fabricTime then 50 else 1000) / 1000000

/-- The part of the slew that this cycle applies. -/
def State.slewPart (s : State) : Int := max (-s.slewLimit) (min s.slewLimit s.slew)

/-- The timebase advances by the cycle, by its frequency adjustment and by the slew; the governor counts the cycle. -/
def State.tickTime (s : State) : State :=
  let freq := signed 32 (s.get R.TIME_ADJ.FREQ)
  { s with
    tb := ((s.tb : Int) + refclkNs * 2 ^ 40 + refclkNs * freq + s.slewPart).toNat
    slew := s.slew - s.slewPart
    pace := { s.pace with cycles := s.pace.cycles + 1 } }

/-- The time of day advances, and with it the keeper's count of time. -/
def State.tickDay (s : State) : State :=
  let ns := s.power.todNs + refclkNs
  let clock := s.power.clock + refclkNs
  if ns < 1000000000 then { s with power := { s.power with todNs := ns, clock := clock } }
  else
    let t : State := { s with power := { s.power with todNs := ns - 1000000000, clock := clock } }
    t.wrap R.KEEP_TOD.SECONDS 1

/-- Step P1 of R497 is in progress from the first cycle of PROVE on: at DORMANT exit itself BOOT_STATUS.STEP holds its reset value
(R19; DEDUCED, log 19). -/
def State.tickStep (s : State) : State :=
  if s.mode == .prove && s.get R.BOOT_STATUS.STEP == 0 then s.set R.BOOT_STATUS.STEP 1 else s

/-- One cycle: the time of day while the keeper runs, the timebase while the core does, what shows a time span (R180), the ports whose
frame completes (R396), and the host requests that wait for a tag (R437). -/
def State.tick (s : State) : State :=
  let s1 := if s.power.keeper then s.tickDay else s
  (if s1.coreUp then s1.tickTime.tickStep.lensAge.restartVerifies.forwardDue.serveHost else s1).settle

end Sys2Proof.Machine
end

