-- ==== Sys2Proof/Machine/FabricNet.lean ====
section
/-! DEFINITION. Discovery, addresses, routes and time of the fabric: the route role (R354 to R365, R368, R374, R376 to
R378). -/
namespace Sys2Proof.Machine

/-! ### Advertisements (R356, R357) -/

/-- The UP irises, ascending. -/
def State.upIrises (s : State) : List Nat := (List.range 64).filter fun i => s.irisState i == 2

/-- Sends a link-scoped payload on every UP iris but one. -/
def State.flood (s : State) (but : Option Nat) (payload : List Byte) : State :=
  (s.upIrises.filter fun i => but != some i).foldl (fun t i => t.sendLink i payload) s

/-- The advertisement stored of an originator. -/
def State.advertOf (s : State) (uid : Nat) : Option Advert := s.fab.adverts.find? fun a => a.uid == uid

/-- Advertisement `(e, n)` is newer than `(f, m)`: the epoch first. -/
def newer (e n f m : Nat) : Bool := decide (f < e) || (e == f && decide (m < n))

/-- What a fragment says of its originator. -/
def advertHead (pl : List Byte) (ns : Nat) : Advert :=
  let w := leAt pl 12 2
  { uid := leAt pl 4 8, epoch := leAt pl 14 2, seq := leAt pl 16 4, addr := w % 4096, valid := w.testBit 12,
    configured := w.testBit 13, claim := w.testBit 14, prio := leAt pl 20 1, hops := leAt pl 21 1, frags := [], ns := ns }

/-- Keeps a fragment with the advertisement it belongs to. -/
def Advert.withFrag (a : Advert) (pl : List Byte) : Advert :=
  { a with frags := (a.frags.filter fun f => f.1 != leAt pl 1 1) ++ [(leAt pl 1 1, pl)] }

def State.storeAdvert (s : State) (a : Advert) : State :=
  { s with fab := { s.fab with adverts := (s.fab.adverts.filter fun b => b.uid != a.uid) ++ [a] } }

/-- The links that an advertisement lists (R356). -/
def Advert.links (a : Advert) : List AdvLink :=
  a.frags.flatMap fun f => (List.range (min 18 (leAt f.2 3 1))).map fun k =>
    let o := 32 + 12 * k
    ⟨leAt f.2 o 8, leAt f.2 (o + 8) 1, leAt f.2 (o + 9) 1, leAt f.2 (o + 10) 1⟩

/-- The fragments of the device's own advertisement. -/
def State.ownFrags (s : State) : List (Nat × List Byte) :=
  let ups := s.upIrises
  let n := max 1 (ceilDiv ups.length 18)
  let st := s.get R.FAB_ADDR.STATE
  let addr := s.get R.FAB_ADDR.ADDR + 2 ^ 12 * b2n (st == 2) + 2 ^ 13 * b2n (st == 2 && s.bit R.FAB_CFG.CONFIGURED) +
    2 ^ 14 * b2n (st == 1)
  (List.range n).map fun f =>
    let ls := (ups.drop (18 * f)).take 18
    let head := [(0, 1, 1), (1, 1, f), (2, 1, n), (3, 1, ls.length), (4, 8, s.uid), (12, 2, addr),
      (14, 2, s.get R.FAB_TOPO.EPOCH), (16, 4, s.fab.advSeq), (20, 1, s.get R.FAB_CFG.TIME_PRIO), (21, 1, s.get R.FAB_TIME.HOPS)]
    let body := ((ls.zip (List.range ls.length)).flatMap fun (x : Nat × Nat) =>
      let o := 32 + 12 * x.2
      [(o, 8, s.get (R.IRIS_PEER.UID x.1)), (o + 8, 1, x.1), (o + 9, 1, Config.peerIris x.1), (o + 10, 1, s.get (R.IRIS_STATUS.WIDTH x.1))])
    (f, record 256 (head ++ body))

/-- The device sends a new advertisement; a SET whose address it shows as valid is done (R356, R362). -/
def State.advertise (s : State) : State :=
  let s1 := { s with fab := { s.fab with advSeq := wrapAdd 32 s.fab.advSeq 1, advNs := some s.ns, advDue := false } }
  let frags := s1.ownFrags
  let a : Advert := match frags with
    | (_, pl) :: _ => { advertHead pl s.ns with frags := frags }
    | [] => advertHead [] s.ns
  let s2 : State := frags.foldl (fun (t : State) f => t.flood none f.2) (s1.storeAdvert a)
  if s2.get R.FAB_ADDR.STATE = 2 then
    let s3 := s2.fab.setCmds.foldl (fun (t : State) q => t.finish q 0 0 0 (t.takeoverOf q) [(16, 8, (t.word R.FAB_ADDR.STATE.off).toNat)]) s2
    { s3 with fab := { s3.fab with setCmds := [] } }
  else s2

/-- ADVERT_SEND (R356): a new advertisement is due, or 100 ms have passed; never within 10 µs of the last. -/
def execAdvertSend (s : State) : Out State :=
  complete true s
    (let due := match s.fab.advNs with
      | none => true
      | some t => decide (t + 10000 ≤ s.ns) && (s.fab.advDue || decide (t + 100000000 ≤ s.ns))
    if s.irisesRun && due then s.advertise else s)

/-! ### Addresses (R359 to R362) -/

/-- The lowest address that no stored advertisement of another device shows, and that has not been passed over. -/
def State.lowestAddress (s : State) : Option Nat :=
  (List.range 4096).find? fun a =>
    !s.fab.passed.contains a && s.fab.adverts.all fun x => !((x.valid || x.claim) && x.addr == a && x.uid != s.uid)

/-- The streams of a device end, or start anew (R369, R371). -/
def State.restartStreams (s : State) (d : Nat) : State :=
  (List.range 8).foldl (fun t c =>
    let u := if (SMap.find (fun _ => none) t.fab.streams (streamKey d c)).isSome then t.endStream d c 4096 else t
    { u with fab := { u.fab with sent := u.fab.sent.put (fun _ => 0) (streamKey d c) 0 } }) s

/-- Every stream starts anew: this device has another address (R369). -/
def State.restartAll (s : State) : State :=
  let t := (s.fab.streams.map fun e => e.1).foldl (fun (u : State) k => u.endStream (k / 8) (k % 8) 4096) s
  { t with fab := { t.fab with sent := [] } }

/-- The address state changes: an advertisement is due; a valid address that is left stays accepted for 10 ms. -/
def State.setAddress (s : State) (state addr : Nat) (claimed : Bool) : State :=
  let prev := if s.get R.FAB_ADDR.STATE = 2 ∧ (state ≠ 2 ∨ s.get R.FAB_ADDR.ADDR ≠ addr)
    then s.fab.previous ++ [(s.get R.FAB_ADDR.ADDR, s.ns + 10000000)] else s.fab.previous
  let s0 := if state = 2 ∧ s.ownAddr ≠ some addr then s.restartAll else s
  let s1 := ((s0.set R.FAB_ADDR.STATE state).set R.FAB_ADDR.ADDR addr).setBit R.FAB_ADDR.CLAIMED claimed
  { s1 with fab := { s1.fab with advDue := true, previous := prev } }

/-- Step 2 and 3 of R359: the lowest free address is claimed for 2 ms. -/
def State.claim (s : State) : State :=
  match s.lowestAddress with
  | none => s.setAddress 0 0 false
  | some a =>
    let s1 := s.setAddress 1 a false
    { s1 with fab := { s1.fab with claimEnd := some (s1.ns + 2000000) } }

/-- ADDRESS_CLAIM (R359): an UP iris, and 1 ms without a newer advertisement. -/
def execAddressClaim (s : State) : Out State :=
  complete true s
    (if s.mode == .serve && !s.bit R.FAB_CFG.CONFIGURED && s.get R.FAB_ADDR.STATE == 0 && !s.upIrises.isEmpty &&
        decide (s.fab.quietNs + 1000000 ≤ s.ns) then s.claim else s)

/-- CLAIM_HOLD_END (R359): the claimed address becomes valid; a CLAIM is done. -/
def execClaimHoldEnd (s : State) : Out State :=
  complete true s
    (if s.mode == .serve && s.get R.FAB_ADDR.STATE == 1 && (s.fab.claimEnd.any fun t => decide (t ≤ s.ns)) then
      let s1 := s.setAddress 2 (s.get R.FAB_ADDR.ADDR) true
      let s2 := { s1 with fab := { s1.fab with claimEnd := none, passed := [] } }
      let s3 := s2.fab.claimCmds.foldl (fun t q => t.finish q.1 0 0 0 (t.takeoverOf q.1) [(16, 8, (t.word R.FAB_ADDR.STATE.off).toNat)]) s2
      { s3 with fab := { s3.fab with claimCmds := [] } }
    else s)

/-- The other device's advertisement beats this one's claim, or its valid address (R359 step 4, R360). -/
def State.conflict (s : State) (a : Advert) : State :=
  let st := s.get R.FAB_ADDR.STATE
  if a.addr ≠ s.get R.FAB_ADDR.ADDR ∨ a.uid = s.uid then s
  else if st = 1 ∧ (a.valid = true ∨ (a.claim = true ∧ a.uid < s.uid)) then
    let s1 := { s with fab := { s.fab with passed := a.addr :: s.fab.passed } }
    s1.claim
  else if st = 2 ∧ a.valid = true then
    let mine := s.bit R.FAB_CFG.CONFIGURED
    if (a.configured = true ∧ mine = false) ∨ (a.configured = mine ∧ a.uid < s.uid) then
      (if mine then (s.setAddress 3 (s.get R.FAB_ADDR.ADDR) false).raise 25 0 else s.setAddress 0 0 false)
    else s
  else s

/-- What a fragment received on an iris does to the advertisements stored (R357). -/
def State.fragmentIn (s : State) (i : Nat) (a : Advert) (pl : List Byte) : State :=
  let keep := fun (b : Advert) => ((s.storeAdvert (b.withFrag pl)).flood (some i) pl).conflict a
  let quiet := fun (t : State) => { t with fab := { t.fab with quietNs := t.ns } }
  match s.advertOf a.uid with
  | none => quiet (keep a)
  | some b =>
    if newer a.epoch a.seq b.epoch b.seq then quiet (keep a)
    else if a.epoch = b.epoch ∧ a.seq = b.seq then
      (if b.frags.any fun f => f.1 == leAt pl 1 1 then s else keep b)
    else b.frags.foldl (fun t f => t.sendLink i f.2) s

/-- A fragment arrives on an iris (R357): one of the device's own, newer than what it has sent, also makes it advertise past it. -/
def State.advertIn (s : State) (i : Nat) (pl : List Byte) : State :=
  let a := advertHead pl s.ns
  let t := s.fragmentIn i a pl
  if a.uid = s.uid ∧ newer a.epoch a.seq (s.get R.FAB_TOPO.EPOCH) s.fab.advSeq = true then
    { t with fab := { t.fab with advSeq := max t.fab.advSeq a.seq, advDue := true } }
  else t

/-- Takes the first waiting payload of a kind for the route role. -/
def State.takeWork (s : State) (kind : Nat) : Option ((Nat × Nat × List Byte) × State) :=
  match s.fab.work.find? fun w => leAt w.2.2 0 1 == kind with
  | none => none
  | some w => some (w, { s with fab := { s.fab with work := s.fab.work.erase w } })

/-- ADVERT_RECEIVE (R357): the route role takes the next fragment received. -/
def execAdvertReceive (s : State) : Out State :=
  complete true s
    (match (if s.irisesRun && s.roleUp 4 then s.takeWork 1 else none) with
    | some (w, t) => t.advertIn w.1 w.2.2
    | none => s)

/-- ADVERT_EXPIRY (R358): advertisements not refreshed for 1 s are removed. -/
def execAdvertExpiry (s : State) : Out State :=
  complete true s
    (if s.irisesRun then
      { s with fab := { s.fab with adverts := s.fab.adverts.filter fun a => decide (s.ns < a.ns + 1000000000) } } else s)

/-- PREVIOUS_ADDRESS_EXPIRY (R362). -/
def execPreviousAddressExpiry (s : State) : Out State :=
  complete true s
    { s with fab := { s.fab with previous := s.fab.previous.filter fun p => decide (s.ns < p.2) } }

/-- The body of FAB_ADDRESS with one operation. -/
def State.fabAddress (s : State) (seq op : Nat) (body : OpenCmd → State → State) : State :=
  s.runCmd seq 0x70 fun c t =>
    let known := decide (c.op 16 1 < 3)
    if c.op 16 1 ≠ op ∧ (known = true ∨ op ≠ 0) then t
    else if !c.formed [(17, 1), (20, 44)] || !known || decide (4096 ≤ c.op 18 2) || (op != 1 && c.op 18 2 != 0) then t.refuse seq 1
    else body c t

/-- FAB_ADDRESS QUERY (R362). -/
def execFabAddressQuery (seq : Nat) (s : State) : Out State :=
  complete true s (s.fabAddress seq 0 fun _ t => t.told seq [(16, 8, (t.word R.FAB_ADDR.STATE.off).toNat)])

/-- FAB_ADDRESS SET (R362): it is done when the address is advertised as valid. -/
def execFabAddressSet (seq : Nat) (s : State) : Out State :=
  complete true s (s.fabAddress seq 1 fun c t =>
    let a := c.op 18 2
    if t.fab.adverts.any fun x => x.uid != t.uid && x.addr == a && (x.valid || x.claim) then t.refuse seq 0x11
    else
      let t1 := (((t.set R.FAB_CFG.ADDR a).setBit R.FAB_CFG.CONFIGURED true).setAddress 2 a false).begun seq
      { t1 with fab := { t1.fab with setCmds := t1.fab.setCmds ++ [seq], claimEnd := none } })

/-- FAB_ADDRESS CLAIM (R362). -/
def execFabAddressClaim (seq : Nat) (s : State) : Out State :=
  complete true s (s.fabAddress seq 2 fun c t =>
    let t1 := ((t.setBit R.FAB_CFG.CONFIGURED false).setAddress 0 0 false).begun seq
    { t1 with fab := { t1.fab with claimCmds := t1.fab.claimCmds ++ [(seq, c.acceptedNs)], claimEnd := none, passed := [] } })

/-- CLAIM_TIMEOUT (R362): 100 ms after acceptance without a valid address. -/
def execClaimTimeout (seq : Nat) (s : State) : Out State :=
  complete true s
    (if s.mode != .holdUp && s.fab.claimCmds.any fun q => q.1 == seq && decide (q.2 + 100000000 ≤ s.ns) then
      { s with fab := { s.fab with claimCmds := s.fab.claimCmds.filter fun q => q.1 != seq } }.finish seq 3 0 0 (s.takeoverOf seq)
        [(16, 8, (s.word R.FAB_ADDR.STATE.off).toNat)]
    else s)

/-! ### Topology (R358, R363) -/

/-- The links of an advertisement that count: the other end lists the link too; the width counts at the narrower of the two. -/
def State.countedLinks (s : State) (a : Advert) : List AdvLink :=
  a.links.filterMap fun l => ((s.advertOf l.uid).bind fun b => b.links.find? fun m => m.uid == a.uid && m.here == l.there && m.there == l.here).map
    fun m => { l with width := min l.width m.width }

/-- The unique ids that a device reaches over one counted link. -/
def State.neighbours (s : State) (a : Advert) : List Nat := (s.countedLinks a).map fun (l : AdvLink) => l.uid

/-- The hops from a device to every device it reaches, nearest first; `fuel` bounds the distance. -/
def spread (adj : List (Nat × List Nat)) : Nat → Nat → List Nat → List (Nat × Nat) → List (Nat × Nat)
  | 0, _, _, seen => seen
  | fuel + 1, h, front, seen =>
    let next := ((front.flatMap fun u => ((adj.find? fun x => x.1 == u).map fun x => x.2).getD []).eraseDups).filter fun v =>
      !seen.any fun x => x.1 == v
    if next.isEmpty then seen else spread adj fuel (h + 1) next (seen ++ next.map fun v => (v, h + 1))

/-- The counted links of the topology. -/
def State.adjacency (s : State) : List (Nat × List Nat) := s.fab.adverts.map fun a => (a.uid, s.neighbours a)

/-- The hops between devices. -/
def hopsFrom (adj : List (Nat × List Nat)) (u : Nat) : List (Nat × Nat) := spread adj adj.length 0 [u] [(u, 0)]
def hopsTo (h : List (Nat × Nat)) (v : Nat) : Option Nat := (h.find? fun x => x.1 == v).map fun x => x.2

/-- Of two devices that show one address as valid, the one that keeps it (R360). -/
def keeps (a b : Advert) : Advert := if a.configured != b.configured then (if a.configured then a else b) else if a.uid < b.uid then a else b

/-- The reachable device at an address. -/
def State.deviceAt (s : State) (mine : List (Nat × Nat)) (d : Nat) : Option Advert :=
  (s.fab.adverts.filter fun a => a.valid && a.addr == d && (hopsTo mine a.uid).isSome).foldl (fun o a =>
    match o with | none => some a | some b => some (keeps b a)) none

/-- The UP irises whose link counts, each with the unique id of its peer. -/
def State.localLinks (s : State) : List (Nat × Nat) :=
  let counted := ((s.advertOf s.uid).map s.countedLinks).getD []
  (s.upIrises.map fun i => (i, s.get (R.IRIS_PEER.UID i))).filter fun x => counted.any fun l => l.here == x.1 && l.uid == x.2

/-- The irises one hop nearer to a device, at most the lowest 16. -/
def nearer (links : List (Nat × Nat)) (from_ : List (Nat × Nat)) (h : Nat) : List Nat :=
  ((links.filter fun x => (hopsTo from_ x.2).any fun k => k + 1 == h).map fun x => x.1).take 16

/-- Writes the route of one address (R363, R368). -/
def State.routeTo (s : State) (adj : List (Nat × List Nat)) (mine links : List (Nat × Nat)) (d : Nat) : State :=
  let dev := s.deviceAt mine d
  let id := dev.map fun (a : Advert) => (a.uid, a.epoch)
  let s1 := if SMap.find (fun _ => none) s.fab.peers d = id then s else
    let t := s.restartStreams d
    { t with fab := { t.fab with peers := t.fab.peers.put (fun _ => none) d id } }
  let hops := (dev.bind fun a => hopsTo mine a.uid).getD 0
  let irises := match dev with
    | some a => if hops = 0 then [] else nearer links (hopsFrom adj a.uid) hops
    | none => []
  let mask := (irises.map fun i => 2 ^ i).sum
  let s2 := (((s1.setBit (R.FAB_DEST.REACH d) dev.isSome).set (R.FAB_DEST.HOPS d) (min 15 hops)).set (R.FAB_DEST.COUNT d)
    irises.length).set (R.FAB_DEST.EPOCH d) ((dev.map fun (a : Advert) => a.epoch).getD 0)
  if s2.get (R.FAB_NH.MASK d) = mask then s2 else (s2.set (R.FAB_NH.MASK d) mask).redraw d

/-- The time master, and this device's place below it (R376). -/
def State.timeRole (s : State) (adj : List (Nat × List Nat)) (mine links : List (Nat × Nat)) : State :=
  let own := s.get R.FAB_CFG.TIME_PRIO
  let others := (s.fab.adverts.filter fun a => decide (a.prio < 255) && a.uid != s.uid && (hopsTo mine a.uid).isSome).map
    fun (a : Advert) => (a.prio, a.uid, a.addr)
  let all := (if own < 255 then [(own, s.uid, s.get R.FAB_ADDR.ADDR)] else []) ++ others
  match all with
  | [] => ((s.set R.FAB_TIME.HOPS 15).set R.FAB_TIME.MASTER 0).set R.FAB_TIME.PARENT 0
  | x :: xs =>
    let m := xs.foldl (fun (b : Nat × Nat × Nat) y => if y.1 < b.1 ∨ (y.1 = b.1 ∧ y.2.1 < b.2.1) then y else b) x
    let s1 := s.set R.FAB_TIME.MASTER m.2.2
    if m.2.1 = s.uid then (s1.set R.FAB_TIME.HOPS 0).set R.FAB_TIME.PARENT 0
    else
      let h := (hopsTo mine m.2.1).getD 15
      match nearer links (hopsFrom adj m.2.1) h with
      | [] => (s1.set R.FAB_TIME.HOPS 15).set R.FAB_TIME.PARENT 0
      | p :: _ =>
        let up := ((s.advertOf (s.get (R.IRIS_PEER.UID p))).map fun (a : Advert) => a.hops).getD 15
        (s1.set R.FAB_TIME.HOPS (min 15 (up + 1))).set R.FAB_TIME.PARENT p

/-- The addresses whose routes may change. -/
def State.knownAddresses (s : State) : List Nat :=
  (((s.fab.adverts.filter fun a => a.valid).map fun (a : Advert) => a.addr) ++ s.fab.peers.map fun e => e.1).eraseDups

/-- The route role recomputes the routes. -/
def State.routes (s : State) : State :=
  let adj := s.adjacency
  let mine := hopsFrom adj s.uid
  let links := s.localLinks
  let s1 := s.knownAddresses.foldl (fun t d => t.routeTo adj mine links d) s
  let n := (s1.fab.peers.filter fun e => e.2.isSome).length
  (((s1.set R.FAB_TOPO.REACHABLE n).sat R.FAB_TOPO.CHANGES 1).timeRole adj mine links).drainWaiting

/-- ROUTE_COMPUTE (R363). -/
def execRouteCompute (s : State) : Out State := complete true s (if s.irisesRun && s.roleUp 4 then s.routes else s)

/-- SPRAY_EPOCH (R368): EPOCH µs after the last epoch began, every pointer is drawn anew. -/
def execSprayEpoch (s : State) : Out State :=
  complete true s
    (if s.irisesRun && decide (s.fab.epochNs + 1000 * s.get R.FAB_SPRAY.EPOCH ≤ s.ns) then
      (s.regs.filter fun e => decide (0x2408000 ≤ e.1 ∧ e.1 < 0x2410000)).foldl (fun (t : State) e => t.redraw ((e.1 - 0x2408000) / 8))
        { s with fab := { s.fab with epochNs := s.ns } }
    else s)

/-! ### Fabric time (R376 to R378) -/

/-- The device has a parent iris. -/
def State.hasParent (s : State) : Bool := decide (1 ≤ s.get R.FAB_TIME.HOPS ∧ s.get R.FAB_TIME.HOPS ≤ 14)

/-- TSYNC_SEND (R377): every 100 µs on the parent iris. -/
def execTsyncSend (s : State) : Out State :=
  complete true s
    (let p := s.get R.FAB_TIME.PARENT
    if s.irisesRun && s.hasParent && s.irisState p == 2 && decide (s.fab.syncNs + 100000 ≤ s.ns) then
      let tag := wrapAdd 16 s.fab.tag 1
      ({ s with fab := { s.fab with tag := tag, syncNs := s.ns } }).sendLink p
        (record 256 [(0, 1, 2), (2, 2, tag)])
    else s)

/-- The difference of two 64-bit timestamps. -/
def stampDiff (a b : Nat) : Int := signed 64 ((a + 2 ^ 64 - b % 2 ^ 64) % 2 ^ 64)

/-- An exchange with the parent ends: the offset, in units of 2^-16 ns, is slewed out, and decides LOCKED. -/
def State.exchange (s : State) (offset : Int) (absolute : Nat) : State :=
  let near := decide (offset.natAbs ≤ 163840)
  let far := decide (655360 < offset.natAbs)
  let good := if near then s.fab.good + 1 else 0
  let s1 := (s.set R.FAB_TIME.OFFSET (twos 32 (offset * 1000 / 65536))).setWord R.TIME_OFFSET.OFFSET.off (BitVec.ofNat 64 absolute)
  let s2 := { s1 with slew := offset * 2 ^ 24, fabSlew := true, fab := { s1.fab with good := good, replyNs := s1.ns } }
  if far then s2.setBit R.FAB_TIME.LOCKED false
  else if 16 ≤ good then s2.setBit R.FAB_TIME.LOCKED true else s2

/-- TREPLY_RECEIVE (R377): a TREPLY of the parent with the tag of the last TSYNC. -/
def execTreplyReceive (s : State) : Out State :=
  complete true s
    (match (if s.irisesRun && s.roleUp 4 then s.takeWork 3 else none) with
    | none => s
    | some (w, t) =>
      let pl := w.2.2
      if t.hasParent && w.1 == t.get R.FAB_TIME.PARENT && leAt pl 2 2 == t.fab.tag then
        let t4 := w.2.1 / 2 ^ 24 % 2 ^ 64
        t.exchange ((stampDiff (leAt pl 16 8) (leAt pl 8 8) - stampDiff t4 (leAt pl 24 8)) / 2) (leAt pl 32 8)
      else t)

/-- FAB_TIME_LOST (R378): no TREPLY for 1 ms, with a parent or with LOCKED still 1. -/
def execFabTimeLost (s : State) : Out State :=
  complete true s
    (if s.irisesRun && (s.hasParent || s.bit R.FAB_TIME.LOCKED) && decide (s.fab.replyNs + 1000000 ≤ s.ns) then
      let s1 := s.setBit R.FAB_TIME.LOCKED false
      ({ s1 with fab := { s1.fab with good := 0, replyNs := s1.ns } }).raise 26 0
    else s)

end Sys2Proof.Machine
end

