-- ==== Sys2Proof/Machine/Prism.lean ====
section
/-! DEFINITION. The prism pipeline: steps, slots, facets, lookups, counter updates, loupe samples, cut-through stalls and return
waits (R79 to R93, R99 to R101, R113 to R137, R149 to R169, R551, R552, R561 to R563). -/
namespace Sys2Proof.Machine

/-! ### The schedule of a prism (R80 to R83, R161) -/

/-- Beats in a stretch of the timebase, at the rate that the governor has measured last, and at the floor of 2,100 Mbeat/s before it has
measured one (the model counts no beats; DESIGN CHOICE, log 200). -/
def State.beatsIn (s : State) (tb : Nat) : Nat :=
  let rate := s.get R.PACE_BEAT_RATE.MIN_RATE
  tb * (if rate = 0 then 2100 else rate) / (1000 * 2 ^ 40)

def State.interval (s : State) (k b : Nat) : Nat := s.get (R.PRISM_SCHED.II k b)
def State.lane (s : State) (k b i : Nat) : Nat := SMap.find (fun _ => 0) s.code.lanes (32 * (2 * k + b) + i)
def State.edgeFacet (s : State) (k b i : Nat) : Bool := (SMap.find (fun _ => 0) s.code.edges (2 * k + b)).testBit i

/-- The steps from the first of facet `i` to the first of facet `i + 1`: its interval and its hold lane, 2 longer when its routine
holds a word with EDGE = 1. -/
def State.span (s : State) (k b i : Nat) : Nat := s.interval k b + s.lane k b i + 2 * b2n (s.edgeFacet k b i)

/-- The age at which facet `i` begins; for 30, the end of the last hold lane. -/
def State.startAge (s : State) (k b : Nat) : Nat → Nat
  | 0 => 0
  | i + 1 => s.startAge k b i + s.span k b i

/-- The facet that serves a packet of an age, and its step in that facet; `n` facets from facet `i` on. -/
def serving (ii : Nat) (span : Nat → Nat) : Nat → Nat → Nat → Option (Nat × Nat)
  | 0, _, _ => none
  | n + 1, i, age => if age < ii then some (i, age) else if age < span i then none else serving ii span n (i + 1) (age - span i)

/-- The bank of the grid of prism `k`: while R97 refuses, the one that drains. -/
def State.gridBank (s : State) (k : Nat) : Nat :=
  let b := s.get R.MCODE_ACTIVE.BANK
  if s.apr.switching.contains k then 1 - b else b

/-! ### A packet as it enters facet 0 (R116, R117, R149, R151, R167, R386) -/

/-- The source kind and index of metadata nibbles 7 to 9. -/
def sourceKind (src : Nat) : Nat := if src < 96 then 0 else if src < 352 then 1 else 2
def sourceIndex (src : Nat) : Nat := if src < 96 then src else if src < 352 then src - 96 else src - 352

/-- The stamp and the receive metadata over a header window. Nibbles 10 to 13 of a frame taken under R153, whose length is not known then,
hold its full length (the spec does not say what they hold; DESIGN CHOICE, log 210). -/
def stampVec (p : Pkt) (v : Vect) : Vect :=
  let v1 := vset v 512 5 p.ep
  let v2 := vset v1 517 1 (8 * (p.stamp.epoch % 2) + p.stamp.cls)
  let v3 := vset (vset v2 518 1 p.stamp.ver) 519 1 (8 * (p.stamp.bank % 2) + sourceKind p.src)
  let v4 := vset (vset v3 520 2 (sourceIndex p.src)) 522 4 p.len
  vset (vset (vset v4 578 12 (if p.src < 96 then p.rxTime else 0)) 592 1 p.tagNibble) 593 4 p.tci

/-- A field of the extractor: source, length, destination. -/
def State.xtrField (s : State) (k j f : Nat) : Nat × Nat × Nat :=
  let n := s.get (R.PRISM_XTR.LEN k j f)
  (s.get (R.PRISM_XTR.SRC k j f), if n = 0 then 16 else n, s.get (R.PRISM_XTR.DST k j f))

/-- The fields that the extractor of profile `j` copies. -/
def State.xtrFields (s : State) (k j : Nat) : List (Nat × Nat × Nat) :=
  if s.bit (R.PRISM_PROFILE.XTR k j) then (List.range (s.get (R.PRISM_PROFILE.FIELDS k j))).map (s.xtrField k j) else []

/-- The vector of a packet that enters prism `k`. An extractor field prevails over the profile number in nibble 79 too (R386 says so of its
own nibbles only; DESIGN CHOICE, log 208). -/
def State.entryVec (s : State) (k : Nat) (p : Pkt) : Vect :=
  let j := s.profileOf k p.src
  let v := vset (stampVec p (headerOf p)) 591 1 j
  (s.xtrFields k j).foldl (fun (a : Vect) (x : Nat × Nat × Nat) => vset a x.2.2 x.2.1 (vget a x.1 x.2.1)) v

/-! ### Fetching (R132, R133) -/

/-- The key of a control store word. -/
def wordKey (f b a : Nat) : Nat := 8192 * (2 * f + b) + a

/-- A word as fetched; none when it has an uncorrectable error. -/
def State.fetchWord (s : State) (f b a : Nat) : Option Nat × State :=
  let k := wordKey f b a
  let w := SMap.find (fun _ => 0) s.code.store k
  match SMap.find (fun _ => 0) s.code.wrong k with
  | 0 => (some w, s)
  | 1 => (some w, s.wrap R.MCODE_ECC.CORRECTED 1)
  | _ => (none, s.wrap R.MCODE_ECC.UNCORRECTED 1)

/-- MCODE_ECC of facet `f`, behind the exception that its word raises: sources raised at once come in ascending order (R526). -/
def State.badWord (s : State) (f : Nat) : State := s.raiseIn 11 f (if f < 480 then f / 30 else 16 + (f - 480))

/-- The words of a bank of facet `f` (R110). -/
def bankSize (f : Nat) : Nat := if f < 480 then 2048 else 8192

/-- MCODE_FCAP of a facet takes an exception, while VALID is 0 (R136, R137). -/
def State.captureExc (s : State) (f cause b sp addr orig : Nat) : State :=
  if s.bit (R.MCODE_FCAP.VALID f) then s
  else (((((s.setBit (R.MCODE_FCAP.VALID f) true).set (R.MCODE_FCAP.CAUSE f) cause).set (R.MCODE_FCAP.BANK f) b).set
    (R.MCODE_FCAP.SP f) sp).set (R.MCODE_FCAP.MICROADDR f) addr).set (R.MCODE_FCAP.ORIG f) orig

/-! ### Slots that become empty -/

/-- An empty slot. -/
def Flight.emptied (f : Flight) : Flight := { f with pkt := none, work := {}, decided := false }

/-- A GUARD mismatch (R99, R100). -/
def State.guardMiss (s : State) (k i : Nat) (p : Pkt) (f : Flight) (m : Nat) : State :=
  let s1 := if s.bit (R.PRISM_GUARD_CAP.VALID k) then s else
    (((((s.setBit (R.PRISM_GUARD_CAP.VALID k) true).set (R.PRISM_GUARD_CAP.BANK k) f.bank).set (R.PRISM_GUARD_CAP.FACET k) i).set
      (R.PRISM_GUARD_CAP.MICROADDR k) f.work.upc).set (R.PRISM_GUARD_CAP.PHASE k) (f.age % 2048)).set (R.PRISM_GUARD_CAP.GUARD k) (mGuard m)
  ((s1.verdictDrop 3 p).countAt (R.PRISM_GUARD_COUNT.COUNT k) 1 p.expo).raiseIn 8 (30 * k + i) k

/-- An exception of pipeline facet `i` (R136, R137). -/
def State.pipeException (s : State) (k i : Nat) (p : Pkt) (f : Flight) (cause addr : Nat) : State :=
  let fi := 30 * k + i
  if 8 ≤ f.work.sp then
    let s1 := s.captureExc fi 8 f.bank f.work.sp addr cause
    let q := s1.prism k
    ((s1.setPrism k { q with parked := q.parked ++ [i] }).verdictDrop 4 p).raiseIn 10 fi k
  else
    ((s.captureExc fi cause f.bank f.work.sp addr cause).verdictDrop (if cause = 2 ∨ cause = 3 then 4 else 5) p).raiseIn 9 fi k

/-- PARSE_EDGE (R163). -/
def State.edgeDrop (s : State) (k i : Nat) (p : Pkt) : State :=
  ((s.verdictDrop 7 p).countAt (R.PRISM_EDGE.COUNT k) 1 p.expo).raiseIn 13 (30 * k + i) k

/-! ### Lookups (R87, R126, R127, R176 to R179, R194, R212, R425, R430) -/

/-- The status of a lookup that writes its window whole is below 16; from 16 on it writes nothing, from 32 on the first nibble
and the status, from 48 on the status alone. -/
def lookLeave : Nat := 16
def lookFirst : Nat := 32
def lookStatus : Nat := 48

/-- A lookup result written into its window; window 3, which R126 reserves, holds nothing. -/
def deposit (v : Vect) (l : Lookup) : Vect :=
  if l.win = 3 ∨ l.status / 16 = 1 then v
  else
    let v1 := if l.status / 16 = 0 then vset v (winAddr l.win) 128 l.value
      else if l.status / 16 = 2 then vset v (winAddr l.win) 1 (l.value / 16 ^ 127) else v
    vset v1 (633 + l.win) 1 (l.status % 16)

/-- The profiles of a table port: 0 table SRAM, 1 HBM forwarding, 2 far window. -/
def tblKind (port : Nat) : Nat := if port < 24 then 0 else if port < 26 then 1 else 2

/-- The key nibbles that a lookup reads at KEY. -/
def State.keyLen (s : State) (port j : Nat) : Nat :=
  if port < 16 then s.get (R.LENS_PROFILE.KLEN port j)
  else if 32 ≤ port then 5
  else if s.get (R.TBL_PROF.OP (tblKind port) j) = 6 then 5 else s.get (R.TBL_PROF.KEYN (tblKind port) j)

/-- What a lookup answers: status, window, and for a far window read that was sent the far address. -/
structure LookAnswer where
  status : Nat
  value : Nat
  far : Option Nat := none
  sent : Bool := false
  who : Nat := 0

/-- A LEARN read (R212): the owner carries its kind as R205 codes it. -/
def State.learnRead (s : State) (j key : Nat) (v : Vect) : LookAnswer × State :=
  let owner := if s.bit (R.TBL_PROF.OWN_EP 0 j) then 2 ^ 20 + vget v 512 5 else vget v 520 2
  let r := s.postLearn ⟨s.get (R.TBL_PROF.TABLE 0 j), key, vget v (s.get (R.TBL_PROF.LEARN_SRC 0 j)) 16, owner⟩
  ({ status := lookFirst + 8, value := b2n r.1 * 16 ^ 127 }, r.2)

/-- An HBM forwarding read of prism `p` that no group can serve is answered as a bad entry (R425). -/
def State.blockedRead (s : State) (p : Nat) : LookAnswer × State :=
  let g := if s.get (R.HBM_STACK.STATE (p % 8)) = 2 then p % 8 else (p + 4) % 8
  ({ status := 10, value := 0 }, s.sat (R.HBM_STACK.BLOCKED g) 1)

/-- The line of a table read is accessed: on a prism's far port the request is sent when a window tag is free and the link is
up (R430). -/
def State.readAt (s : State) (p k j key ver rep lk : Nat) (who : Nat) : LookAnswer × State :=
  if k = 2 then
    let a := 64 * keyLine lk
    let f := farPort a
    if !s.bit (R.FAR_PORT.UP f) then ({ status := lookStatus + 9, value := 0, far := some a }, s)
    else if !s.windowTag f then ({ status := lookStatus + 9, value := 0, far := some a }, s.sat (R.FAR_ERR.NOTAG f) 1)
    else ({ status := lookStatus + 9, value := 0, far := some a, sent := true },
      (s.farRequest f (FarKind.window p who) a).emit (.memRead true a 64))
  else
    let r := s.readLine k j key ver rep lk
    ({ status := r.1.status, value := r.1.value }, r.2)

/-- A table read of requester `p` (a prism, or 16 + s) on a port of kind `k`. -/
def State.tableLook (s : State) (p k j key ver : Nat) (win : Nat) (st who : Nat) : LookAnswer × State :=
  match s.tblAccess k j key win st with
  | .leave => ({ status := lookLeave, value := 0 }, s)
  | .none_ x value => ({ status := x, value := value }, s)
  | .stride =>
    let d := s.draw
    let t := s.get (R.TBL_PROF.TABLE k j)
    ({ status := 10, value := 0 }, d.2.badEntry t 0 1 (s.tableKey t k (d.1 % 2 ^ 32)) 1)
  | .line lk =>
    if lk / 2 ^ 40 = 1 then
      match s.currentGroup (p % 16) (keyLine lk) with
      | some g => s.readAt p k j key ver g lk who
      | none => s.blockedRead (p % 16)
    else s.readAt p k j key ver 0 lk who

/-- A lookup on a meter port: the frame length is metered in the aperture record of the endpoint at KEY, which is read and updated
(R129, R298). The spec gives no profile, status or window of a meter: the record's key is a DESIGN CHOICE (log 31), the other two are free
values. -/
def State.meterLook (s : State) (e len : Nat) : LookAnswer × State :=
  let d := s.draw
  let x := d.2.draw
  ({ status := d.1 % 16, value := x.1 % 16 ^ 128 }, x.2.setAprRec e ((x.2.aprRec e).meter len x.2.ns).2)

/-- The answer of a lookup on a port, for the vector as it stands; `p` is a prism, or 16 + s for service facet Ss. -/
def State.answerLook (s : State) (p port j keyAddr win ver who : Nat) (v : Vect) : LookAnswer × State :=
  let key := vget v keyAddr (s.keyLen port j)
  if port < 16 then
    let r := s.lensSearch port j key ver
    ({ status := r.1, value := r.2.1 }, r.2.2)
  else if 32 ≤ port then s.meterLook key (vget v 522 4)
  else
    let k := tblKind port
    if s.get (R.TBL_PROF.OP k j) = 7 then s.learnRead j key v
    else s.tableLook p k j key ver (vget v (winAddr win) 128) (winStatus v win) who

/-- The return offset of a port, in steps (R87). -/
def State.returnOffset (s : State) (k b port : Nat) : Nat :=
  if port < 16 then 12 else if port < 24 then 6 else if port < 26 then 224
  else if port < 28 then s.get (R.PRISM_SCHED.FAR_OFFSET k b) else 8

/-- A prism word issues its lookup. -/
def State.issueLook (s : State) (k b age ver m : Nat) (w : Work) : State × Work :=
  let port := lPort m
  if port = 63 then (s, w)
  else
    let q := s.prism k
    let id := q.nextLook
    let s1 := s.setPrism k { q with nextLook := id + 1 }
    let a := s1.answerLook k port (lProfile m) (lKey m) (lWin m) ver id w.vec
    let l : Lookup :=
      { id := id
        port := port
        win := lWin m
        due := age + s.returnOffset k b port
        ready := a.1.far.isNone
        status := a.1.status
        value := a.1.value
        issueTb := s.tb
        far := a.1.far
        prof := lProfile m
        key := vget w.vec (lKey m) (s.keyLen port (lProfile m))
        ver := ver }
    (a.2, { w with looks := w.looks ++ [l] })

/-! ### Counter updates (R129, R551, R552) -/

/-- OP 11: the buckets of an endpoint's aperture record lose a frame length. -/
def State.meterCharge (s : State) (e len : Nat) : State :=
  let a := (s.aprRec e).refill s.ns
  s.setAprRec e { a with tc := a.tc - len, tp := a.tp - len }

/-- The index of a counter profile, for the vector as it stands; that of a reserved SRC is an open value. -/
def State.cntIndex (s : State) (j : Nat) (v : Vect) : Nat × State :=
  match s.get (R.CNT_PROF.SRC j) with
  | 0 => (0, s)
  | 1 | 5 => (vget v 512 5, s)
  | 2 | 6 => (vget v 616 5, s)
  | 3 => (vget v 520 2, s)
  | 4 => (vget v (s.get (R.CNT_PROF.VADDR j)) (s.get (R.CNT_PROF.ILEN j)), s)
  | _ => s.draw

/-- The update of a word's CNT field, for exposure time `t`. -/
def State.cntUpdate (s : State) (v : Vect) (t m : Nat) : State :=
  let c := mCnt m
  let op := bitsGet c 8 2
  let j := bitsGet c 4 4
  let len := vget v 522 4
  if op = 0 then s
  else
    let i := s.cntIndex j v
    let set := match s.get (R.CNT_PROF.SET j) with | 0 => 16 | x => x
    let limit := s.get (R.CNT_PROF.LIMIT j)
    let off := c % 16
    let pair := 16 * s.get (R.CNT_PROF.BASE j) + i.1 * set + off
    if limit = 0 ∨ limit ≤ i.1 ∨ set ≤ off ∨ 16 * s.get R.CNT_STORE.COUNT16 ≤ pair then i.2.wrap R.CNT_ERR.RANGE 1
    else if op = 3 then (if s.get (R.CNT_PROF.SRC j) = 5 ∨ s.get (R.CNT_PROF.SRC j) = 6 then i.2.meterCharge i.1 len else i.2)
    else
      let s1 := i.2.countPair pair 0 1 t
      if op = 1 then s1.countPair pair 1 len t else s1

/-! ### Loupe samples (R561 to R563) -/

/-- The samples that the present beat still takes from a prism or service facet `u`: a beat ends as the timebase advances, and as the same
`u` posts again (the model has no beat that all share; DESIGN CHOICE, log 200). -/
def State.beatRoom (s : State) (u : Nat) : Nat × List Nat :=
  if s.cnt.beat.1 = s.tb ∧ s.cnt.beat.2.1.contains u = false then (4 - s.cnt.beat.2.2, s.cnt.beat.2.1) else (4, [])

/-- Samples of a prism or service facet join the FIFO: at most 4 in a beat; the others are lost. -/
def State.postSamples (s : State) (u : Nat) (l : List Sample) : State :=
  let room := s.beatRoom u
  let r := (l.take room.1).foldl (fun (a : List Sample × Nat) x => let q := fifoPush 4096 a.1 x; (q.1, a.2 + q.2)) (s.cnt.loupe, 0)
  let lost := r.2 + (l.length - room.1)
  let beat := if l.isEmpty then s.cnt.beat else (s.tb, u :: room.2, 4 - room.1 + min room.1 l.length)
  let s1 := { s with cnt := { s.cnt with loupe := r.1, beat := beat } }.set R.CNT_LOUPE_STAT.DEPTH r.1.length
  if lost = 0 then s1 else s1.count R.CNT_LOUPE_LOST.COUNT lost

/-- A sample of a word that issues now. -/
def State.sampleOf (s : State) (facet b addr cls ver id age inTb : Nat) : Sample :=
  { w0 := s.now * 2 ^ 16 + facet * 2 ^ 7 + b * 2 ^ 6
    w1 := addr * 2 ^ 51 + cls * 2 ^ 48 + ver * 2 ^ 44 + id
    w2 := 2 ^ 63 + age % 2 ^ 16 * 2 ^ 32 + max age (s.beatsIn (s.tb - inTb)) % 2 ^ 32 }

/-- The LOUPE bit of META (R128). -/
def mLoupe (m : Nat) : Bool := (mMeta m).testBit 9

/-! ### One facet on one packet (R113, R118, R121, R131, R134) -/

/-- What the slots of a step have come to: the state, the samples in ascending facet order, the slots. -/
structure Stepped where
  s : State
  samples : List Sample := []
  slot : Flight

/-- COND at the last step of a word: that of a branch after the word's own ALU flags, but before its MOVE and META (DESIGN CHOICE, log 163); that
of another word as its predicate found it (R121). -/
def Work.condAtEnd (w : Work) (r : WordRun) (pend irq open_ : Bool) : Bool :=
  if mSeq r.word = 6 then open_
  else if branches r.word then condHolds (w.flagsLand r) (mCond r.word) pend irq open_ else r.holds

/-- What follows the word of a pipeline facet. -/
def Work.nextWord (w : Work) (r : WordRun) (size : Nat) (cond : Bool) : Next :=
  nextOf w r.addr r.word size cond (vget w.vec (576 + mCond r.word) 1)

/-- The last step of a word. PARK stops the facet; its packet goes on as after DONE (DESIGN CHOICE, log 159). -/
def State.endWord (s : State) (k i : Nat) (p : Pkt) (f : Flight) (r : WordRun) (open_ : Bool) : State × Flight :=
  let w := f.work
  let cond := w.condAtEnd r false false open_
  let w1 := w.finishWord r cond
  match w.nextWord r (bankSize (30 * k + i)) cond with
  | .go a => (s, { f with work := { w1 with upc := a } })
  | .call a ret => (s, { f with work := { w1.push ret with upc := a } })
  | .ret a => (s, { f with work := { w1 with sp := w1.sp - 1, upc := a } })
  | .done => (s, { f with work := { w1 with done := true } })
  | .exception c => (s.pipeException k i p f c r.addr, f.emptied)
  | .park =>
    let q := s.prism k
    (s.setPrism k { q with parked := q.parked ++ [i] }, { f with work := { w1 with done := true } })
  | .wait => (s.pipeException k i p f 1 r.addr, f.emptied)

/-- The cause of the exception that a word of one step raises with the microstack out of range: FACET_STACK goes before FACET_GUARD
(R101). -/
def Flight.stackFirst (f : Flight) (size m : Nat) (open_ : Bool) : Option Nat :=
  if 8 ≤ f.work.sp ∧ mDwell m = 0 then
    let w := f.work.begin f.work.upc m (predicate f.work m false false open_)
    match w.run with
    | some r => (match w.nextWord r size (w.condAtEnd r false false open_) with | .exception c => some c | _ => none)
    | none => none
  else none

/-- The first step of the next word. WAIT, which only a service facet may hold, is a damaged word here: SEQ (DESIGN CHOICE, log 159). -/
def State.issueWord (s : State) (k i : Nat) (p : Pkt) (f : Flight) (open_ : Bool) : Stepped :=
  let a := f.work.upc
  match s.fetchWord (30 * k + i) f.bank a with
  | (none, s1) => { s := (s1.pipeException k i p f 0 a).badWord (30 * k + i), slot := f.emptied }
  | (some m, s1) =>
    if wordReserved m || mSeq m == 9 then { s := s1.pipeException k i p f 1 a, slot := f.emptied }
    else if mGuard m ≠ f.age % 2048 then
      match f.stackFirst (bankSize (30 * k + i)) m open_ with
      | some c => { s := s1.pipeException k i p f c a, slot := f.emptied }
      | none => { s := s1.guardMiss k i p f m, slot := f.emptied }
    else
      let holds := predicate f.work m false false open_
      if holds && edgeJump f.work.vec m && !cEdge (mMove m) then { s := s1.edgeDrop k i p, slot := f.emptied }
      else
        let x := if holds then (s1.cntUpdate f.work.vec p.expo m).issueLook k f.bank f.age p.stamp.ver m f.work else (s1, f.work)
        let w := x.2.begin a m holds
        let smp := if holds && mLoupe m && p.selected then
          [s.sampleOf (30 * k + i) f.bank a p.stamp.cls p.stamp.ver p.loupeId f.age f.inTb] else []
        match w.run with
        | some r =>
          if r.left = 0 then
            let e := x.1.endWord k i p { f with work := w } r open_
            { s := e.1, samples := smp, slot := e.2 }
          else { s := x.1, samples := smp, slot := { f with work := w } }
        | none => { s := x.1, samples := smp, slot := { f with work := w } }

/-- The routine of a facet begins on a packet (R117). -/
def State.beginFacet (s : State) (k i : Nat) (f : Flight) : Flight :=
  { f with work := { f.work with
      f0 := {}
      f1 := {}
      edged := false
      sp := 0
      stack := []
      done := false
      run := none
      upc := SMap.find (fun _ => 0) s.code.entries (2 * (30 * k + i) + f.bank) } }

/-- Step `j` of facet `i` on a packet: one that reaches a parked facet is dropped (R137). -/
def State.facetStep (s : State) (k i j : Nat) (p : Pkt) (f0 : Flight) (open_ : Bool) : Stepped :=
  if j = 0 ∧ (s.prism k).parked.contains i = true then { s := s.verdictDrop 4 p, slot := f0.emptied }
  else
    let f := if j = 0 then s.beginFacet k i f0 else f0
    match f.work.run with
    | some r =>
      let r1 := { r with left := r.left - 1 }
      if r1.left = 0 then
        let e := s.endWord k i p { f with work := { f.work with run := some r1 } } r1 open_
        { s := e.1, slot := e.2 }
      else { s := s, slot := { f with work := { f.work with run := some r1 } } }
    | none => if f.work.done then { s := s, slot := f } else s.issueWord k i p f open_

/-! ### One slot (R83, R131, R160, R169, R229) -/

/-- What comes about in a slot before any facet acts: the deferred cursor lands, and the results that are due. -/
def Flight.land (f : Flight) : Flight :=
  let w := match f.work.landing with
    | some (0, c) => f.work.landCursor c
    | some (n + 1, c) => { f.work with landing := some (n, c) }
    | none => f.work
  let due := w.looks.filter fun l => l.due == f.age
  { f with work := { w with
      vec := due.foldl deposit w.vec
      looks := w.looks.filter fun l => l.due != f.age } }

/-- The check of R169 as facet LAST_PARSE releases the packet: a deferred cursor of that facet does not count, however early it lands
(KL-4, R594). The copies that the packet has asked for are made whatever the verdict (R131). -/
def State.deepCheck (s : State) (k i : Nat) (p : Pkt) (r : Stepped) : Stepped :=
  let w := r.slot.work
  if r.slot.pkt.isSome && w.beyond && !w.edged && decide (w.verdict.kind < 2) && i == s.get (R.PRISM_PROFILE.LAST_PARSE k (s.profileOf k p.src)) then
    { r with s := ((r.s.copies w.verdict p p.bytes).divert k 6 w.vec p).countAt (R.PRISM_DEEP.COUNT k) 1 p.expo, slot := r.slot.emptied }
  else r

/-- One step of a slot that holds a packet whose verdict has not been taken. -/
def State.packetStep (s : State) (k : Nat) (p : Pkt) (f0 : Flight) (open_ : Bool) : Stepped :=
  let f := f0.land
  if f.age = s.startAge k f.bank 30 then
    match s.takeVerdict k p f.work.vec f.work.verdict with
    | (some q, s1) => { s := s1, slot := { f with pkt := some q, decided := true } }
    | (none, s1) => { s := s1, slot := f.emptied }
  else match serving (s.interval k f.bank) (s.span k f.bank) 30 0 f.age with
    | some (i, j) =>
      let r := s.facetStep k i j p f open_
      if j + 1 = s.interval k f.bank then r.s.deepCheck k i p r else r
    | none => { s := s, slot := f }

/-- A slot leaves its prism: the packet is handed over and the tokens leave. -/
def State.leaveSlot (s : State) (k : Nat) (f : Flight) : State :=
  let s1 := match f.pkt with | some p => s.handOver p | none => s
  f.tokens.foldl (fun (t : State) id => t.tokenLeft k id) s1

/-- One step of one slot; none once it has left. -/
def State.slotStep (s : State) (k : Nat) (f : Flight) (open_ : Bool) : State × List Sample × Option Flight :=
  if s.startAge k f.bank 30 + 16 ≤ f.age then (s.leaveSlot k f, [], none)
  else match f.pkt with
    | some p =>
      if f.decided then (s, [], some { f with age := f.age + 1 })
      else let r := s.packetStep k p f open_; (r.s, r.samples, some { r.slot with age := r.slot.age + 1 })
    | none => (s, [], some { f with age := f.age + 1 })

/-- Every slot, in ascending facet order (the newest slot first): the slots of the prism are in its state meanwhile. -/
def State.slotSteps (s : State) (k : Nat) (open_ : Bool) : List Flight → State × List Sample × List Flight
  | [] => (s, [], [])
  | f :: fs =>
    let a := s.slotStep k f open_
    let b := a.1.slotSteps k open_ fs
    (b.1, a.2.1 ++ b.2.1, a.2.2.toList ++ b.2.2)

/-! ### Entry (R81, R229) -/

/-- The slot that enters at slot phase 0, with the tokens whose packets have all entered. -/
def State.enterSlot (s : State) (k : Nat) : State × Flight :=
  let p := s.prism k
  let q := SMap.find (fun _ => []) s.buf.toPrism k
  let ready := (p.tokens.filter fun t => t.2 == 0).map (·.1)
  let left := p.tokens.filter fun t => t.2 != 0
  let s1 := if ready.isEmpty then s else
    s.set R.APR_VERSION.DRAIN (if ready.contains (s.ver.nextRound - 1) then
      bitsSet (s.get R.APR_VERSION.DRAIN) k 1 1 else s.get R.APR_VERSION.DRAIN)
  match if p.hollow then [] else q with
  | [] => (s1.setPrism k { p with tokens := left, hollow := false },
      { pkt := none, age := 0, bank := s.gridBank k, work := {}, tokens := ready, inTb := s.tb })
  | x :: xs =>
    let s2 := s1.setPrism k { p with tokens := left.map fun t => (t.1, t.2 - 1) }
    ({ s2 with buf := { s2.buf with toPrism := s2.buf.toPrism.put (fun _ => []) k xs } },
      { pkt := some x, age := 0, bank := x.stamp.bank, work := { vec := s.entryVec k x }, tokens := ready, inTb := s.tb })

/-! ### Stalls and waits (R89, R90, R93, R164 to R167) -/

/-- The header segments of a packet that are present, from segment 0 on (R150). -/
def State.segsPresent (s : State) (p : Pkt) : Nat :=
  if !p.cut then 8
  else match s.buf.rx.find? fun g => g.pkt.id == p.id with
    | some g => if 2 ≤ g.pkt.cells.length then 8 else if g.pkt.cells.length = 0 then 0 else g.segs
    | none => 8

/-- The vector ranges that a word reads when it issues, for a predicate that holds. -/
def State.wordReads (s : State) (v : Vect) (m : Nat) : List (Nat × Nat) :=
  let port := lPort m
  let look := if port = 63 then [] else
    (lKey m, s.keyLen port (lProfile m)) ::
      (if 16 ≤ port ∧ port < 24 ∧ s.get (R.TBL_PROF.OP 0 (lProfile m)) = 7 then [(s.get (R.TBL_PROF.LEARN_SRC 0 (lProfile m)), 16)] else [])
  let c := mCnt m
  let j := bitsGet c 4 4
  let cnt := if bitsGet c 8 2 ≠ 0 ∧ s.get (R.CNT_PROF.SRC j) = 4 then [(s.get (R.CNT_PROF.VADDR j), s.get (R.CNT_PROF.ILEN j))] else []
  aluReads (mAlu0 m) ++ aluReads (mAlu1 m) ++ moveReads v m ++ look ++ cnt

/-- The segments that the word which a slot issues at its next step needs. -/
def State.slotNeeds (s : State) (k : Nat) (f0 : Flight) (open_ : Bool) : Nat :=
  match serving (s.interval k f0.bank) (s.span k f0.bank) 30 0 f0.age with
  | none => 0
  | some (i, j) =>
    let f := if j = 0 then s.beginFacet k i f0.land else f0.land
    let a := f.work.upc
    let m := SMap.find (fun _ => 0) s.code.store (wordKey (30 * k + i) f.bank a)
    if f.work.run.isSome || f.work.done || (j == 0 && (s.prism k).parked.contains i) ||
        decide (2 ≤ SMap.find (fun _ => 0) s.code.wrong (wordKey (30 * k + i) f.bank a)) || wordReserved m ||
        decide (mGuard m ≠ f.age % 2048) || !predicate f.work m false false open_ then 0
    else segmentsOf (s.wordReads f.work.vec m)

/-- The cut-through stall that the next step meets: the packet and the segment it lacks. -/
def State.stallAt (s : State) (k : Nat) (open_ : Bool) : Option (Nat × Nat) :=
  let inside := (s.prism k).flights.findSome? fun f => match f.pkt with
    | some p =>
      let n := s.segsPresent p
      if !f.decided && p.cut && decide (n < s.slotNeeds k f open_) then some (p.id, n) else none
    | none => none
  match inside with
  | some x => some x
  | none =>
    if (s.prism k).steps % s.interval k (s.gridBank k) = 0 ∧ (s.prism k).hollow = false then
      match SMap.find (fun _ => []) s.buf.toPrism k with
      | p :: _ =>
        let n := s.segsPresent p
        let need := segmentsOf ((s.xtrFields k (s.profileOf k p.src)).map fun x => (x.1, x.2.1))
        if p.cut && decide (n < need) then some (p.id, n) else none
      | [] => none
    else none

/-- A lookup of a far window port. -/
def Lookup.isFar (l : Lookup) : Bool := decide (26 ≤ l.port ∧ l.port < 28)

/-- The floor-paced return offset of a lookup has passed since it issued (R89, R90). -/
def State.floorDue (s : State) (k b : Nat) (l : Lookup) : Bool :=
  decide (l.issueTb * 21 + s.returnOffset k b l.port * 10 * 2 ^ 40 ≤ s.tb * 21)

/-- The lookups that fall due at the next step of a slot. -/
def Flight.dueNow (f : Flight) : List Lookup := f.work.looks.filter fun l => l.due == f.age

/-- A result that is due at the prism's next step is not ready. -/
def Prism.unready (p : Prism) : Bool := p.flights.any fun f => f.dueNow.any fun l => !l.ready

/-- The lookups of a prism changed by `g`. -/
def Prism.mapLooks (p : Prism) (g : Flight → Lookup → Lookup) : Prism :=
  { p with flights := p.flights.map fun (f : Flight) => { f with work := { f.work with looks := f.work.looks.map (g f) } } }

/-- The results of the lens, table SRAM, HBM and meter ports are ready by their floor-paced times (R84, R89). -/
def State.floorReady (s : State) (k : Nat) (p : Prism) : Prism :=
  p.mapLooks fun f l => if l.isFar = false ∧ s.floorDue k f.bank l = true then { l with ready := true } else l

/-- A wait ends once every result that is due is ready. -/
def Prism.checkWait (p : Prism) : Prism := { p with wait := p.wait && p.unready }

/-- A return wait begins. -/
def State.beginWait (s : State) (k : Nat) : State :=
  let p := s.prism k
  if p.wait then s else (s.setPrism k { p with wait := true }).wrap (R.PRISM_WAIT.RETURN_WAITS k) 1

/-- The stall of prism `k` ends: its time is added to its frame's, and to the peak. -/
def State.endStall (s : State) (k : Nat) : State :=
  let p := s.prism k
  match p.stall with
  | none => s
  | some (id, _, t0) =>
    let d := s.tb - t0
    ((s.setPrism k { p with stall := none }).mapPkts fun q => if q.id = id then { q with stallTb := q.stallTb + d } else q).peak
      (R.PRISM_WAIT.STALL_PEAK k) (s.beatsIn d)

/-! ### PRISM_STEP (R44, R79) -/

/-- The step itself. -/
def State.advancePrism (s : State) (k : Nat) (open_ : Bool) : State :=
  let p := s.prism k
  let s1 := s.setPrism k { p with steps := (p.steps + 1) % 840, wait := false }
  let e := if p.steps % s.interval k (s.gridBank k) = 0 then
    let x := s1.enterSlot k; (x.1, [x.2]) else (s1, [])
  let r := e.1.slotSteps k open_ (e.2 ++ p.flights.reverse)
  let q := r.1.prism k
  (r.1.setPrism k { q with flights := r.2.2.reverse }).postSamples k r.2.1

/-- A result of no far port that falls due above the floor (R89). -/
def State.mayBeLate (s : State) (k : Nat) (f : Flight) (l : Lookup) : Bool :=
  l.due == f.age && !l.isFar && !s.floorDue k f.bank l

/-- A prism advances one step, unless it stalls or waits; `late` says that a result that falls due above the floor is not ready
although its port is no far port. -/
def State.prismStep (s0 : State) (k : Nat) (late : Bool) : State :=
  let s := s0.setPrism k (s0.floorReady k (s0.prism k))
  let p := s.prism k
  let d := s.draw
  let open_ := d.1 % 2 == 1
  if !s.forwarding || s.fault.blocks.contains k || s.interval k (s.gridBank k) == 0 || p.stall.isSome then s0
  else if p.unready then s.beginWait k
  else if late && p.flights.any (fun f => f.work.looks.any fun l => s.mayBeLate k f l) then
    (s.setPrism k (p.mapLooks fun f l => if s.mayBeLate k f l then { l with ready := false } else l)).beginWait k
  else match s.stallAt k open_ with
    | some (id, seg) => s.setPrism k { p with stall := some (id, seg, s.tb), wait := false }
    | none => d.2.advancePrism k open_

/-- PRISM_STEP (R79). -/
def execPrismStep (k : Nat) (late : Bool) (s : State) : Out State :=
  complete (Instr.wf (.prismStep k late)) s (s.prismStep k late)

/-- RETURN_READY (R89): the results of the lens, table SRAM, HBM and meter ports that are due become ready. -/
def execReturnReady (k : Nat) (s : State) : Out State :=
  complete (Instr.wf (.returnReady k)) s
    (if !s.coreUp then s
    else s.setPrism k ((s.prism k).mapLooks fun f l => if l.due = f.age ∧ l.isFar = false then { l with ready := true } else l).checkWait)

/-- The oldest far window read of prism `k` that has outlasted FAR_OFFSET at the floor. -/
def State.lateRead (s : State) (k : Nat) : Option (Pkt × Lookup) :=
  (s.prism k).flights.findSome? fun f => match f.pkt with
    | some p => (f.work.looks.find? fun l => l.isFar && !l.ready &&
        decide (l.issueTb * 21 + s.get (R.PRISM_SCHED.FAR_OFFSET k f.bank) * 10 * 2 ^ 40 ≤ s.tb * 21)).map fun l => (p, l)
    | none => none

/-- FAR_LATE (R93). -/
def execFarLate (k : Nat) (s : State) : Out State :=
  complete (Instr.wf (.farLate k)) s
    (match (if s.coreUp then s.lateRead k else none) with
    | none => s
    | some (p, l) =>
      let s1 := s.setPrism k ((s.prism k).mapLooks fun _ x =>
        if x.id = l.id then { x with ready := true, status := lookStatus + 9 } else x).checkWait
      (s1.countAt (R.PRISM_FAR_LATE.COUNT k) 1 p.expo).raise 15 (farPort (l.far.getD 0)))

/-- The next segment of a cut-through frame becomes present. -/
def State.nextSegment (s : State) (id : Nat) : State :=
  { s with buf := { s.buf with rx := s.buf.rx.map fun g => if g.pkt.id = id then { g with segs := min 8 (g.segs + 1) } else g } }

/-- The cut-through frame that arrives on a port and has header segments still to come. -/
def State.arrivingSegs (s : State) (n : Nat) : Option RxFrame :=
  s.buf.rx.find? fun f => f.pkt.src == n && f.cut && !f.gone && decide (s.segsPresent { f.pkt with cut := true } < 8)

/-- CUT_SEGMENT_PRESENT (R150, R164): the bytes of the next segment of the cut-through frame that arrives on port `n` have been written; a
stall that waits for it ends. -/
def execCutSegmentPresent (n : Nat) (s : State) : Out State :=
  complete (Instr.wf (.cutSegmentPresent n)) s
    (match (if s.coreUp then s.arrivingSegs n else none) with
    | some f => (if (s.prism (n / 6)).stall.any fun x => x.1 == f.pkt.id then s.endStall (n / 6) else s).nextSegment f.pkt.id
    | none => s)

/-- T_w of a port, in units of 2^-40 ns: 2,048 bits at its speed (R165). -/
def State.stallBudget (s : State) (n : Nat) : Nat := 2048 * 1000 * 2 ^ 40 / max 1 (s.portMbps n)

/-- A packet leaves its prism, or the queue before it, without a verdict of the program. -/
def State.takeOut (s : State) (k id : Nat) : State :=
  let p := s.prism k
  (s.setPrism k { p with flights := p.flights.map fun (f : Flight) => if f.pkt.any (fun x => x.id == id) then f.emptied else f }).removeWaiting
    k fun x => x.id == id

/-- A packet that its stall budget cut off leaves an empty slot, also where it had not entered facet 0 (R165). -/
def State.cutOut (s : State) (k id : Nat) : State :=
  let ahead := (SMap.find (fun _ => []) s.buf.toPrism k).any fun x => x.id == id
  let s1 := s.takeOut k id
  s1.setPrism k { s1.prism k with hollow := ahead || (s1.prism k).hollow }

/-- PARSE_CUT (R165): the stall budget of the frame that stalls prism `k` has run out. -/
def execParseCut (k : Nat) (s : State) : Out State :=
  complete (Instr.wf (.parseCut k)) s
    (match (if s.coreUp then (s.prism k).stall else none) with
    | none => s
    | some (id, _, t0) =>
      match (((s.prism k).packets ++ SMap.find (fun _ => []) s.buf.toPrism k).find? fun p => p.id == id) with
      | none => s
      | some p =>
        if p.stallTb + (s.tb - t0) < s.stallBudget p.src then s
        else (((((s.endStall k).cutOut k id).verdictDrop 8 p).countAt (R.PRISM_CUT_ABORT.COUNT k) 1 p.expo).raiseIn 14 k k))

end Sys2Proof.Machine
end

