-- ==== Sys2Proof/Machine/FarMem.lean ====
section
/-! DEFINITION. Far completions and far link loss, and the HBM scrubber (R423, R430 to R432). -/
namespace Sys2Proof.Machine

/-! ### FAR_COMPLETION (R432) -/

/-- A far window read returns to the lookup that asked for it: the line's answer, or a bad entry; a reply to a lookup that has
been given a miss is discarded (R93). -/
def State.windowDone (s : State) (k id status : Nat) (data : List Byte) : State :=
  match (s.prism k).flights.findSome? fun f => f.work.looks.find? fun l => l.id == id && l.isFar && !l.ready with
  | none => s
  | some l =>
    let lk := lineKey 2 (l.far.getD 0 / 64)
    let t := s.get (R.TBL_PROF.TABLE 2 l.prof)
    let a := if status = 0 then s.tblAnswer 2 l.prof l.key l.ver lk (leVal (slice data 0 64)) [] else Answer.absent
    let s1 := if status = 0 then s.postHit t lk a.hit else s.badEntry t 0 0 lk 1
    s1.setPrism k (((s1.prism k).mapLooks fun _ x =>
      if x.id = id then { x with ready := true, status := a.status, value := a.value } else x).checkWait)

/-- The kinds of request whose latency FAR_LAT shows: reads. -/
def FarKind.reads (kind : FarKind) : Bool :=
  match kind with
  | .window _ _ | .refill _ => true
  | .service _ | .moverRead _ => true
  | _ => false

/-- A far request ends: `status` is 0 good, 1 poisoned, 2 failed. -/
def State.farDone (s : State) (f id status latency : Nat) (data : List Byte) : State :=
  match s.mem.far.find? fun r => r.port == f && r.id == id with
  | none => s
  | some r =>
    let s1 := s.farRetire r
    let s2 := if r.kind.reads then s1.farLatency f latency else s1
    let s3 := if status = 1 then s2.sat (R.FAR_ERR.POISON f) 1 else if status = 2 then s2.sat (R.FAR_ERR.FAILED f) 1 else s2
    let s4 := match r.kind with
      | .window k i => s3.windowDone k i status data
      | .moverRead w =>
        if status = 0 then { s3 with mem := { s3.mem with got := s3.mem.got ++ [(w, 2 ^ 33 + r.addr / 64, leVal (slice data 0 64))] } }
        else s3.failKind r.kind r.addr status
      | kind => if status = 0 then s3 else s3.failKind kind r.addr status
    s4.farDrain f

/-- FAR_COMPLETION (R432). -/
def execFarCompletion (f id status latency : Nat) (data : List Byte) (s : State) : Out State :=
  complete (Instr.wf (.farCompletion f id status latency data)) s (if s.coreUp then s.farDone f id status latency data else s)

/-! ### FAR_LINK (R432) -/

/-- An extent lies on a far port. -/
def Spill.onPort (b : Spill) (f : Nat) : Bool := b.far && b.id / 2 ^ 26 == f

/-- A packet whose spill write to a port is not complete. -/
def Pkt.spillingTo (p : Pkt) (f : Nat) : Bool := p.spilling == some 2 && p.spots.any fun x => x / 256 / 2 ^ 26 == f

/-- The spill writes to a port are discarded: the packets keep their on-die cells. -/
def State.discardSpills (s : State) (f : Nat) : State :=
  s.buf.leaves.foldl (fun (t : State) e =>
    let r := e.2.foldl (fun (acc : State × List Pkt) p =>
      if p.spillingTo f then let c := acc.1.cancelSpill p; (c.1, acc.2 ++ [c.2]) else (acc.1, acc.2 ++ [p])) (t, [])
    r.1.setLeafQ e.1 r.2) s

/-- The extents that outstanding spill writes go to are failed, and no extent of the port takes more cells. -/
def State.failExtents (s : State) (f : Nat) : State :=
  let hit (b : Spill) : Bool := s.buf.leaves.any fun e => e.2.any fun p => p.spillingTo f && p.spots.any fun x => x / 256 == b.id
  s.setSpills (s.buf.spills.map fun (b : Spill) => if b.onPort f then { b with failed := b.failed || hit b, isOpen := false } else b)

/-- A far link goes down: its requests end, window reads stay to be answered as far-late at their due time. -/
def State.farDown (s : State) (f : Nat) : State :=
  if !s.bit (R.FAR_PORT.UP f) then s
  else
    let mine := s.mem.far.filter fun r => r.port == f
    let s1 := (s.setBit (R.FAR_PORT.UP f) false).sat (R.FAR_ERR.DOWNS f) 1
    let s2 := mine.foldl (fun (t : State) r => (t.farRetire r).failKind r.kind r.addr 2) s1
    let waits := s2.mem.farWait.filter fun w => w.port == f
    let s3 := waits.foldl (fun (t : State) w => t.failKind w.kind w.addr 2)
      { s2 with mem := { s2.mem with farWait := s2.mem.farWait.filter fun w => w.port != f } }
    let s4 := (s3.failExtents f).discardSpills f
    (s4.setSpills (s4.buf.spills.filter fun b => b.isOpen || decide (0 < b.live))).raise (224 + f) f

/-- FAR_LINK (R432). -/
def execFarLink (f : Nat) (s : State) : Out State :=
  complete (Instr.wf (.farLink f)) s (if s.coreUp then s.farDown f else s)

/-! ### HBM_SCRUB (R423) -/

/-- The lines of a table other than a trie: its buckets and records, its direct lines, or the full context table. -/
def State.tableSize (s : State) (t : Nat) : Nat :=
  let n := 2 ^ s.get (R.TBL_DESC.BBITS t)
  match s.get (R.TBL_DESC.KIND t) with
  | 3 => 5 * n
  | 5 => 2 ^ 22
  | _ => n

/-- The first line of a table in HBM, and its lines. -/
def State.hbmRegion (s : State) (t : Nat) : Nat × Nat :=
  match s.get (R.TBL_DESC.KIND t) with
  | 1 => (s.regionStart t 1, SMap.find (fun _ => 0) s.tbl.regions (2 * t + 1))
  | 0 => (0, 0)
  | _ => (s.get (R.TBL_DESC.BASE t), if s.get (R.TBL_DESC.TIER t) = 1 then s.tableSize t else 0)

/-- The table whose replica in a group holds a forwarding line. -/
def State.hbmTable (s : State) (g line : Nat) : Option Nat :=
  (List.range 256).find? fun t => let r := s.hbmRegion t; decide (r.1 ≤ line ∧ line < r.1 + r.2) && (s.replicas t).contains g

/-- An uncorrectable error in the replica that a group holds of a forwarding line: a bad entry (R193). -/
def State.scrubForward (s : State) (g line : Nat) : State :=
  match s.hbmTable g line with
  | none => s
  | some t =>
    let k := s.tableKey t 1 line
    let s1 := { s with tbl := { s.tbl with bad := ((List.range 8).map fun w => 2 ^ 48 * g + 8 * k + w) ++ s.tbl.bad } }
    s1.badEntry t g 0 k 1

/-- The lines that a group's pseudo-channels hold. -/
def groupLines : Nat := 32 * pcLines

/-- The lines that the scrub pass of a group has read, and 1 + the ns at which it began. -/
def State.scrubbed (s : State) (g : Nat) : Nat × Nat := SMap.find (fun _ => (0, 0)) s.mem.scrubs g

/-- The scrub read of a line, in class 0, is its bank's turn: the stack is in service, the bank is under no refresh and has no request
queued, and a pass that would begin does so PERIOD hours after the last began at the earliest (R417, R418, R423). -/
def State.scrubTurn (s : State) (q line : Nat) : Bool :=
  let bank := Config.hbmBank line % 64
  let pass := s.scrubbed (q / 32)
  s.get (R.HBM_STACK.STATE (q / 32)) == 0 && (s.refreshing q == 0 || s.refreshing q != bank + 1) &&
    s.mem.queue.all (fun r => r.q != q || Config.hbmBank r.line % 64 != bank) &&
    (pass.1 != 0 || pass.2 == 0 || decide (pass.2 - 1 + 3600000000000 * s.get R.HBM_SCRUB.PERIOD ≤ s.ns))

/-- A line of the pass is read: after the last, PASSES counts the pass. -/
def State.scrubPass (s : State) (g : Nat) : State :=
  let pass := s.scrubbed g
  let began := if pass.1 = 0 then s.ns + 1 else pass.2
  let ends := decide (groupLines ≤ pass.1 + 1)
  let s1 := { s with mem := { s.mem with scrubs := s.mem.scrubs.put (fun _ => (0, 0)) g (if ends then 0 else pass.1 + 1, began) } }
  if ends then s1.sat (R.HBM_ECC.PASSES g) 1 else s1

/-- The scrubber reads one line with no error (0), a corrected one (1) or an uncorrectable one (2). -/
def State.scrub (s : State) (q line errors : Nat) : State :=
  let g := q / 32
  let t := s.access q (Config.hbmBank line % 64) line false
  let s1 := match errors with
    | 0 => t
    | 1 => (t.wrap (R.HBM_ECC.CORRECTED g) 1).noteCorrected g
    | _ =>
      if line < s.get R.HBM_CFG.FWD_LINES then t.scrubForward g (32 * line + q % 32)
      else
        let u := t.lineFails q line 1 0
        { u with mem := { u.mem with bad := (2 ^ 25 * q + line) :: u.mem.bad } }
  s1.scrubPass g

/-- HBM_SCRUB (R423). -/
def execHbmScrub (q line errors : Nat) (s : State) : Out State :=
  complete (Instr.wf (.hbmScrub q line errors)) s (if s.coreUp && s.scrubTurn q line then s.scrub q line errors else s)

end Sys2Proof.Machine
end

