-- ==== Sys2Proof/Machine/Services.lean ====
section
/-! DEFINITION. Service facets: work items, interruption, word by word execution, results, block resets (R35 to R37, R117, R127,
R135 to R143, R528). -/
namespace Sys2Proof.Machine

/-! ### Roles and items (R35, R139) -/

/-- The fixed priority of a role: 0 command execution, 1 learning, 2 aging, 3 exception, 4 route, 5 export. -/
def rolePrio (role : Nat) : Nat := match role with | 4 => 3 | 3 => 2 | 0 => 1 | _ => 0

def Item.prio (i : Item) : Nat := rolePrio i.role

/-- The service facet that serves the exception packets of a prism; those of a service facet go back to it. -/
def State.exceptionFacet (s : State) (origin : Nat) : Option Nat :=
  if 16 ≤ origin then some (origin - 16)
  else match SMap.find (fun _ => 0) s.code.share origin with | 0 => none | n + 1 => some n

/-- An interrupt request is pending: an item of higher priority waits. -/
def Service.interrupted (v : Service) : Bool :=
  match v.running with
  | some r => v.queue.any fun i => decide (r.prio < i.prio)
  | none => false

/-- The item that starts next: the oldest of the highest priority. -/
def Service.best (v : Service) : Option Item :=
  v.queue.foldl (fun (b : Option Item) i => match b with
    | none => some i
    | some x => if x.prio < i.prio then some i else b) none

/-- The facet index of a service facet (R110). -/
def svcFacet (sf : Nat) : Nat := 480 + sf

/-- SVC_STATE of a service facet as it stands. -/
def State.syncService (s : State) (sf : Nat) : State :=
  let v := s.service sf
  let st := if s.fault.blocks.contains (16 + sf) then 5 else if v.parked then 4
    else match v.running with | none => 0 | some _ => if v.waiting then 2 else 1
  let upc := match v.running with | some i => i.work.upc | none => 0
  let s1 := (((s.set (R.SVC_STATE.STATE sf) st).set (R.SVC_STATE.DEPTH sf) v.saved.length).set (R.SVC_STATE.MICROADDR sf) upc)
  match v.running with
  | some i => ((s1.set (R.SVC_STATE.BANK sf) i.bank).set (R.SVC_STATE.PRIO sf) i.prio).set (R.SVC_STATE.SP sf) i.work.sp
  | none => ((s1.set (R.SVC_STATE.BANK sf) 0).set (R.SVC_STATE.PRIO sf) 0).set (R.SVC_STATE.SP sf) 0

/-- The first word of an item: its bank is the one MCODE_ACTIVE names as it starts, and its flags, pointer and status nibbles are
0 (R117, R132). -/
def State.startItem (s : State) (sf : Nat) (i : Item) : Item :=
  let b := s.get R.MCODE_ACTIVE.BANK
  { i with
    bank := b
    inTb := s.tb
    work := { i.work with
      vec := vset i.work.vec 633 7 0
      upc := SMap.find (fun _ => 0) s.code.entries (2 * svcFacet sf + b) } }

/-- The best item of the queue starts; the running one, if any, is saved (R140). -/
def State.startBest (s : State) (sf : Nat) : State :=
  let v := s.service sf
  match v.best with
  | none => s
  | some i =>
    s.setService sf { v with
      running := some (s.startItem sf i)
      waiting := false
      saved := v.running.toList ++ v.saved
      queue := v.queue.filter fun x => x.id != i.id }

/-- What runs when the running item has ended: the context saved last, else the best of the queue (R140). -/
def State.resume (s : State) (sf : Nat) : State :=
  let v := s.service sf
  match v.saved with
  | i :: rest => s.setService sf { v with running := some i, saved := rest, waiting := false }
  | [] => (s.setService sf { v with running := none, waiting := false }).startBest sf

/-! ### SERVICE_WORK_ARRIVAL (R37, R139) -/

/-- The oldest exception packet of a prism that a service facet serves, its frame complete; the packets of a parked facet go to
any other with the role (R137). -/
def State.takeExcept (s : State) (sf : Nat) : Option (Nat × Pkt) :=
  s.code.excepts.find? fun e => !e.2.cut &&
    (match s.exceptionFacet e.1 with | some x => x == sf || (s.service x).parked | none => false)

/-- The command that command-execution work takes: accepted, free to begin, held by no facet. -/
def State.takeCommandWork (s : State) : Option OpenCmd :=
  s.cmd.open_.find? fun c => s.mayBegin c && s.allItems.all fun i => i.cmd != some c.seq

/-- The 64 B of a command at nibbles 0 to 127 (R117). -/
def commandVec (bytes : List Byte) : Vect := vset 0 0 128 (beVal (slice bytes 0 64))

/-- An exception packet's first 256 B, with its metadata and windows as the prism left them (R117). -/
def exceptVec (p : Pkt) : Vect := vset p.vector 0 512 (vget (headerOf p) 0 512)

/-- The work that arrives for a role, and the state without it. Packets placed at Ss itself (R250, R253) that a parked facet has in its queue
go to another facet with the exception role; those that have not arrived wait for Ss alone (the spec leaves it open; DESIGN CHOICE, log
198). -/
def State.arrival (s : State) (sf role : Nat) : Option (Item × State) :=
  let n := s.code.nextItem
  let s1 := { s with code := { s.code with nextItem := n + 1 } }
  match role with
  | 0 => s.takeCommandWork.map fun c =>
      ({ id := n, role := 0, bank := 0, pkt := none, cmd := some c.seq, work := { vec := commandVec c.bytes }, inTb := s.tb }, s1)
  | 1 => if s.tbl.learn.isEmpty then none
    else some ({ id := n, role := 1, bank := 0, pkt := none, cmd := none, work := {}, inTb := s.tb }, s1)
  | 3 =>
    match s.takeExcept sf with
    | some e =>
      some ({ id := n, role := 3, bank := 0, pkt := some e.2, cmd := none, work := { vec := exceptVec e.2 }, inTb := s.tb, origin := e.1 },
        { s1 with code := { s1.code with excepts := s1.code.excepts.erase e } })
    | none =>
      match SMap.find (fun _ => []) s.buf.toPrism (16 + sf) with
      | p :: rest =>
        some ({ id := n, role := 3, bank := 0, pkt := some p, cmd := none, work := { vec := stampVec p (headerOf p) }, inTb := s.tb
                origin := 16 + sf },
          { s1 with buf := { s1.buf with toPrism := s1.buf.toPrism.put (fun _ => []) (16 + sf) rest } })
      | [] => none
  | _ => some ({ id := n, role := role, bank := 0, pkt := none, cmd := none, work := {}, inTb := s.tb }, s1)

/-- A facet takes work: it holds the role, and is neither parked nor in reset; while a self-test plan runs, command work only
(R545). -/
def State.takesWork (s : State) (sf role : Nat) : Bool :=
  s.mode == .serve && !s.fault.chipReset && s.facetServes sf role && (role == 0 || s.bist.plan.isNone)

/-- SERVICE_WORK_ARRIVAL (R139). -/
def execServiceWorkArrival (sf role : Nat) (s : State) : Out State :=
  complete (Instr.wf (.serviceWorkArrival sf role)) s
    (if !s.takesWork sf role then s
    else match s.arrival sf role with
      | none => s
      | some (i, s1) =>
        let v := s1.service sf
        let s2 := s1.setService sf { v with queue := v.queue ++ [i], waiting := false }
        (if v.running.isNone then s2.startBest sf else s2).syncService sf)

/-! ### Words (R113, R127, R136, R137) -/

/-- A range of the vector touches window `w`. -/
def touches (w : Nat) (r : Nat × Nat) : Bool := decide (r.1 < winAddr w + 128 ∧ winAddr w < r.1 + r.2)

/-- A word reads a window whose result is pending. -/
def State.readsPending (s : State) (w : Work) (m : Nat) : Bool :=
  let port := lPort m
  let viaWin := decide (16 ≤ port ∧ port < 28) &&
    (s.get (R.TBL_PROF.OP (tblKind port) (lProfile m)) == 3 || s.get (R.TBL_PROF.OP (tblKind port) (lProfile m)) == 5)
  w.looks.any fun l => (s.wordReads w.vec m).any (touches l.win) || (viaWin && l.win == lWin m)

/-- A far line read for a service facet, under a transfer of its own. -/
def State.serviceFar (s : State) (a : Nat) : Nat × State :=
  let w := s.newWho
  (w.1, (w.2.emit (.memRead true a 64)).farSend a (FarKind.service w.1))

/-- A line of the forwarding area read for a service facet, in class 1 with the close hint (R417): from the replica in the home group of the
facet's number where there is one, else from the first (DESIGN CHOICE, log 197). -/
def State.serviceHbm (s : State) (sf j key lk : Nat) : LookAnswer × State :=
  let w := s.newWho
  let g := if (keyGroups lk).contains (sf % 8) then sf % 8 else (keyGroups lk).headD (sf % 8)
  let line := keyLine lk
  let a := (w.2.memRequest ⟨32 * g + line % 32, line / 32, 1, false, false, 0, s.ns, w.1⟩).readAt (16 + sf) 1 j key s.current g lk 0
  ({ a.1 with who := w.1 }, a.2)

/-- The answer of a service lookup, at the newest committed version, since a LOOKUP names none (R174, R232); a far line and one of
the forwarding area are read by requests of their own. -/
def State.serviceLook (s : State) (sf : Nat) (i : Item) (m : Nat) : LookAnswer × State :=
  let port := lPort m
  let j := lProfile m
  let v := i.work.vec
  if 26 ≤ port ∧ port < 28 ∧ s.get (R.TBL_PROF.OP 2 j) ≠ 7 then
    match s.tblAccess 2 j (vget v (lKey m) (s.keyLen port j)) (vget v (winAddr (lWin m)) 128) (winStatus v (lWin m)) with
    | .line lk => let x := s.serviceFar (64 * keyLine lk); ({ status := 8, value := 0, far := some (64 * keyLine lk), who := x.1 }, x.2)
    | _ => s.answerLook (16 + sf) port j (lKey m) (lWin m) s.current 0 v
  else if 24 ≤ port ∧ port < 26 ∧ s.get (R.TBL_PROF.OP 1 j) ≠ 7 then
    match s.tblAccess 1 j (vget v (lKey m) (s.keyLen port j)) (vget v (winAddr (lWin m)) 128) (winStatus v (lWin m)) with
    | .line lk =>
      if lk / 2 ^ 40 = 1 then s.serviceHbm sf j (vget v (lKey m) (s.keyLen port j)) lk
      else s.answerLook (16 + sf) port j (lKey m) (lWin m) s.current 0 v
    | _ => s.answerLook (16 + sf) port j (lKey m) (lWin m) s.current 0 v
  else s.answerLook (16 + sf) port j (lKey m) (lWin m) s.current 0 v

/-- A word issues its lookup: the status nibble of its window reads "not valid" until the result arrives. -/
def State.serviceIssue (s : State) (sf : Nat) (i : Item) (m : Nat) : State × Work :=
  let port := lPort m
  if port = 63 then (s, i.work)
  else
    let n := s.code.nextItem
    let a := ({ s with code := { s.code with nextItem := n + 1 } }).serviceLook sf i m
    let l : Lookup :=
      { id := n
        port := port
        win := lWin m
        due := 0
        ready := false
        status := a.1.status
        value := a.1.value
        issueTb := s.tb
        far := a.1.far
        who := a.1.who
        prof := lProfile m
        key := vget i.work.vec (lKey m) (s.keyLen port (lProfile m))
        ver := s.current }
    let v := if l.win = 3 ∨ l.status / 16 = 1 then i.work.vec else vset i.work.vec (633 + l.win) 1 0
    (a.2, { i.work with looks := i.work.looks ++ [l], vec := v })

/-- The running item replaced. -/
def State.setRunning (s : State) (sf : Nat) (i : Item) : State :=
  let v := s.service sf
  s.setService sf { v with running := some i }

/-- Work that a parked or reset facet has not begun goes back to wait for another: packets to the exception queue, with the vector they have
(R116, R137). -/
def State.returnQueue (s : State) (sf : Nat) : State :=
  let v := s.service sf
  let back := v.queue.filterMap fun i => i.pkt.map fun p => (i.origin, { p with vector := i.work.vec })
  let s1 := s.setService sf { v with queue := [] }
  { s1 with code := { s1.code with excepts := back ++ s1.code.excepts } }

/-- A service facet parks. -/
def State.parkService (s : State) (sf : Nat) : State :=
  let v := s.service sf
  (s.setService sf { v with parked := true, waiting := false }).returnQueue sf

/-- An exception of the running item (R136, R137). -/
def State.serviceException (s : State) (sf : Nat) (i : Item) (cause addr : Nat) : State :=
  let f := svcFacet sf
  if 8 ≤ i.work.sp then
    ((s.captureExc f 8 i.bank i.work.sp addr cause).parkService sf).raiseIn 10 f (16 + sf)
  else
    ((s.captureExc f cause i.bank i.work.sp addr cause).setRunning sf
      { i with work := { i.work.push addr with upc := 4 * cause, run := none } }).raiseIn 9 f (16 + sf)

/-- DONE: a packet takes its verdict; a command's outcome is the command's own affair; then the facet goes on, and the drain of a bank
switch may end with it (R144, R234). -/
def State.itemDone (s : State) (sf : Nat) (i : Item) : State :=
  let v := s.service sf
  let s1 := s.setService sf { v with running := none }
  let s2 := match i.pkt with
    | some p => match s1.takeVerdict i.origin p i.work.vec i.work.verdict with
      | (some q, t) => t.handOver q
      | (none, t) => t
    | none => s1
  (s2.resume sf).drainCheck

/-- The sample of a word that a service facet issues. -/
def State.serviceSample (s : State) (sf : Nat) (i : Item) (m : Nat) : State :=
  if mLoupe m && (s.bit R.CNT_LOUPE_CTRL.SVC || i.pkt.any fun p => p.selected) then
    let x := match i.pkt with | some p => (p.stamp.cls, p.stamp.ver, p.loupeId) | none => (0, 0, 0)
    s.postSamples (16 + sf) [s.sampleOf (svcFacet sf) i.bank i.work.upc x.1 x.2.1 x.2.2 0 i.inTb]
  else s

/-- The running item executes one word. Its new cursor lands at the word's end, also where a CURSOR word's field ends a segment: a service
facet has no segment fetch, so R160's two steps, R162's check and PRISM_EDGE (PARSE_EDGE) are those of the pipeline facets (the spec does not say;
DESIGN CHOICE, log 206). -/
def State.runWord (s : State) (sf : Nat) (i : Item) (m : Nat) : State :=
  let irq := (s.service sf).interrupted
  let d := s.draw
  let ob := d.1 % 2 == 1
  let pend := !i.work.looks.isEmpty
  let holds := predicate i.work m pend irq ob
  let s0 := if condReserved (mCond m) then d.2 else s
  let t := match i.pkt with | some p => p.expo | none => s.ns
  let s1 := if holds then (s0.cntUpdate i.work.vec t m).serviceSample sf i m else s0
  let x := if holds then s1.serviceIssue sf i m else (s1, i.work)
  let w := x.2.begin i.work.upc m holds
  match w.run with
  | none => x.1
  | some r =>
    let cond := w.condAtEnd r (!w.looks.isEmpty) irq ob
    let w1 := w.finishWord r cond
    let w2 := match w1.landing with | some (_, c) => { w1.setCursor c with landing := none } | none => w1
    let go (y : Work) : State := x.1.setRunning sf { i with work := y }
    match nextOf w i.work.upc m 8192 cond (vget w.vec (576 + mCond m) 1) with
    | .go a => go { w2 with upc := a }
    | .call a ret => go { w2.push ret with upc := a }
    | .ret a => go { w2 with sp := w2.sp - 1, upc := a }
    | .done => x.1.itemDone sf { i with work := w2 }
    | .park => (go w2).parkService sf
    | .wait => (go w2).setService sf { ((go w2).service sf) with waiting := true }
    | .exception c => (x.1.setRunning sf { i with work := w2 }).serviceException sf { i with work := w2 } c i.work.upc

/-- The next word of the running item: at a COMMIT word with an interrupt request pending, the context is saved instead; a word
that reads a pending window waits, but for one whose predicate fails, which does nothing with what it reads (R121 and R127 leave it open;
DESIGN CHOICE, log 205). -/
def State.serviceStep (s : State) (sf : Nat) : State :=
  let v := s.service sf
  match v.running with
  | none => s
  | some i =>
    match s.fetchWord (svcFacet sf) i.bank i.work.upc with
    | (none, s1) => (s1.serviceException sf i 0 i.work.upc).badWord (svcFacet sf)
    | (some m, s1) =>
      if mCommit m && v.interrupted && decide (v.saved.length < 3) then s1.startBest sf
      else if wordReserved m then s1.serviceException sf i 1 i.work.upc
      else if predicate i.work m (!i.work.looks.isEmpty) v.interrupted false && s1.readsPending i.work m then
        s1.setService sf { v with waiting := true }
      else s1.runWord sf i m

/-- SERVICE_WORD_ISSUE (R113); the routine of a command stops in HOLD-UP (R476). -/
def execServiceWordIssue (sf : Nat) (s : State) : Out State :=
  complete (Instr.wf (.serviceWordIssue sf)) s
    (if !s.forwarding || (s.mode == .holdUp && (s.service sf).running.any fun i => i.cmd.isSome) || (s.service sf).parked || (s.service sf).waiting || s.fault.blocks.contains (16 + sf) then s
    else (s.serviceStep sf).syncService sf)

/-! ### SERVICE_RESULT (R127, R142) -/

/-- What a lookup's result is: that of a far line is read off the data; where its request failed or came back poisoned, the answer of a bad
entry tells the routine (R423, R424, R432; DESIGN CHOICE, log 197: the spec names no other way to tell it). -/
def State.serviceAnswer (s : State) (l : Lookup) (data : List Byte) : Lookup :=
  if l.who != 0 && s.mem.failed.contains l.who then { l with status := Answer.absent.status, value := Answer.absent.value }
  else match l.far with
  | some a =>
    let r := s.tblAnswer 2 l.prof l.key l.ver (lineKey 2 (a / 64)) (leVal data) []
    { l with status := r.status, value := r.value }
  | none => l

/-- The oldest lookup that waits among the items of a facet. -/
def Service.oldestLook (v : Service) : Option Lookup :=
  ((v.running.toList ++ v.saved).flatMap fun (i : Item) => i.work.looks).foldl (fun (b : Option Lookup) l => match b with
    | none => some l
    | some x => if l.id < x.id then some l else b) none

/-- A result written into the window of the item that issued it. -/
def Item.receive (i : Item) (l : Lookup) : Item :=
  if i.work.looks.any fun x => x.id == l.id then
    { i with work := { i.work with vec := deposit i.work.vec l, looks := i.work.looks.filter fun x => x.id != l.id } }
  else i

/-- SERVICE_RESULT (R142): the oldest lookup's result arrives in its window or saved context, once the request that reads its line has ended;
`data` is the line that a far read returned. -/
def execServiceResult (sf : Nat) (data : List Byte) (s : State) : Out State :=
  complete (Instr.wf (.serviceResult sf data)) s
    (if !s.coreUp then s
    else match (s.service sf).oldestLook with
      | none => s
      | some l0 =>
        if l0.who != 0 && !s.transferDone l0.who then s else
        let l := s.serviceAnswer l0 data
        let v := s.service sf
        let mine := v.running.any fun (i : Item) => i.work.looks.any fun x => x.id == l.id
        (s.setService sf { v with
          running := v.running.map fun (i : Item) => i.receive l
          saved := v.saved.map fun (i : Item) => i.receive l
          waiting := v.waiting && !mine }).syncService sf)

/-! ### Block resets (R138, R528) -/

/-- The block leaves reset. -/
def State.blockOut (s : State) (b : Nat) : State :=
  { s with fault := { s.fault with
      blocks := s.fault.blocks.filter fun x => x != b
      lateBlocks := s.fault.lateBlocks.filter fun x => x != b } }

/-- The packet that stalls a prism before facet 0, waiting for the extractor (R167). -/
def State.stalledAhead (s : State) (k : Nat) : List Pkt :=
  match (s.prism k).stall with
  | some (id, _, _) => (SMap.find (fun _ => []) s.buf.toPrism k).filter fun p => p.id == id
  | none => []

/-- Prism `k` is reset: every packet inside and the one that stalls it are dropped with STACK and counted as flushed, its lookups are
discarded, its tokens leave (R61, R138, R166). -/
def State.resetPrism (s : State) (k : Nat) : State :=
  let ahead := s.stalledAhead k
  let s0 := ahead.foldl (fun (t : State) (x : Pkt) => t.takeOut k x.id) (s.endStall k)
  let p := s0.prism k
  let lost := p.packets ++ ahead
  let s1 := (s0.setPrism k { p with flights := [], parked := [], wait := false, hollow := false }).flush k lost.length
  let s2 := lost.foldl (fun (t : State) (x : Pkt) => t.verdictDrop 4 x) s1
  (p.flights.flatMap fun (f : Flight) => f.tokens).foldl (fun (t : State) id => t.tokenLeft k id) s2

/-- An item ended by a block reset. -/
def State.loseItem (s : State) (sf : Nat) (i : Item) : State :=
  match i.cmd, i.pkt with
  | some q, _ => if (s.findCmd q).any fun c => c.outcome.isNone then s.finish q 2 0 0 (s.takeoverOf q) [] else s
  | none, some p => (s.dropPkt 4 p).flush (16 + sf) 1
  | none, none => s.sat (R.SVC_STATE.LOST sf) 1

/-- Service facet `sf` is reset: its running and saved items end; work not taken waits. -/
def State.resetService (s : State) (sf : Nat) : State :=
  let v := s.service sf
  let lost := v.running.toList ++ v.saved
  let s1 := s.setService sf { v with running := none, saved := [], waiting := false, parked := false }
  (lost.foldl (fun (t : State) (i : Item) => t.loseItem sf i) s1).drainCheck.startBest sf

/-- BLOCK_RESET_COMPLETE (R138): `b` is a prism, or 16 + s for service facet Ss. -/
def execBlockResetComplete (b : Nat) (s : State) : Out State :=
  complete (Instr.wf (.blockResetComplete b)) s
    (if !s.coreUp || !s.fault.blocks.contains b then s
    else if b < 16 then (s.blockOut b).resetPrism b
    else ((s.blockOut b).resetService (b - 16)).syncService (b - 16))

/-- BLOCK_RESET_FAIL (R528): the reset of a block has not completed within its 256 beats. -/
def execBlockResetFail (b : Nat) (s : State) : Out State :=
  complete (Instr.wf (.blockResetFail b)) s
    (if !s.coreUp || !s.fault.blocks.contains b || s.fault.lateBlocks.contains b then s
    else ({ s with fault := { s.fault with lateBlocks := s.fault.lateBlocks ++ [b] } }).raise 6 (if b < 16 then b else svcFacet (b - 16)))

end Sys2Proof.Machine
end

