-- ==== Sys2Proof/Machine/Sched.lean ====
section
/-! DEFINITION. The schedule contract: the schedule section, the checks of R85, microcode patches (R85, R86, R92, R94 to R98, R102
to R108, R119, R145 to R148, R159, R161, R162, R236, R551). -/
namespace Sys2Proof.Machine

/-! ### Words the loader refuses with FORMAT (R119, R124, R159, R236, R551) -/

/-- A stored word of facet `f` in bank `b`. -/
def State.wordAt (s : State) (f b a : Nat) : Nat := SMap.find (fun _ => 0) s.code.store (wordKey f b a)

/-- A range of the vector within its 1,024 nibbles. -/
def rangeGood (r : Nat × Nat) : Bool := decide (r.1 + r.2 ≤ 1024)

/-- A range that holds a nibble marked RO in R116. -/
def rangeRO (r : Nat × Nat) : Bool := decide (r.1 < 529 ∧ 512 < r.1 + r.2) || decide (r.1 < 636 ∧ 633 < r.1 + r.2)

/-- What an ALU field writes. -/
def aluWrites (f : Nat) : Option (Nat × Nat) :=
  let op := bitsGet f 27 5
  if op = 0 ∨ op = 8 ∨ op = 9 ∨ 0x12 ≤ op then none else some (bitsGet f 16 10, if op = 0x11 then 4 else aluLen f)

/-- An ALU field that the loader accepts. -/
def aluGood (f : Nat) : Bool :=
  let op := bitsGet f 27 5
  (aluReads f).all rangeGood && (aluWrites f).all (fun r => rangeGood r && !rangeRO r) &&
    (if op = 0x10 then aluLen f % 4 == 0 else if op = 0x11 then aluLen f % 4 == 0 && !f.testBit 26
      else if op = 0x0E ∨ op = 0x0F then f.testBit 26 else true)

/-- A MOVE field that the loader accepts. -/
def moveGood (m : Nat) : Bool :=
  let f := mMove m
  let rel := f.testBit 25
  let src := bitsGet f 15 10
  let dst := bitsGet f 5 10
  let n := moveLen f
  let writes := rangeGood (dst, n) && !rangeRO (dst, n)
  match f / 2 ^ 26 with
  | 1 => (if rel then decide (src + n ≤ 129) else rangeGood (src, n)) && writes
  | 2 => rangeGood (src, n) && (if rel then decide (dst + n ≤ 129) else writes)
  | 3 =>
    if cImm f then !cEdge f
    else decide (1 ≤ cLen f ∧ cLen f ≤ 4) && (if rel then decide (src + cLen f ≤ 129) else rangeGood (src, cLen f))
  | _ => true

/-- A LOOKUP field that the loader accepts. -/
def State.lookGood (s : State) (m : Nat) : Bool :=
  let port := lPort m
  let j := lProfile m
  decide (mLookup m % 4 = 0) && (port == 63 ||
    (rangeGood (lKey m, s.keyLen port j) && (decide (16 ≤ port) || decide (s.get (R.LENS_PROFILE.KLEN port j) ≠ 0)) &&
      (!(decide (16 ≤ port ∧ port < 24) && s.get (R.TBL_PROF.OP 0 j) == 7) || rangeGood (s.get (R.TBL_PROF.LEARN_SRC 0 j), 16))))

/-- A CNT field that the loader accepts. -/
def State.cntGood (s : State) (m : Nat) : Bool :=
  let op := bitsGet (mCnt m) 8 2
  let j := bitsGet (mCnt m) 4 4
  let src := s.get (R.CNT_PROF.SRC j)
  op == 0 || (decide (s.get (R.CNT_PROF.LIMIT j) ≠ 0) && (if op = 3 then decide (src = 5 ∨ src = 6) else decide (src ≤ 4)))

/-- A reason code that a program may emit (R235, R236). -/
def reasonProgram (r : Nat) : Bool := decide (r = 0 ∨ r = 6 ∨ r = 0x0C ∨ r = 0x0D ∨ 0x20 ≤ r)

/-- An EMIT field that the loader accepts. -/
def emitGood (m : Nat) : Bool :=
  let a := mEmit m / 128
  !(a == 2 || a == 3 || a == 5) || reasonProgram (mEmit m % 128)

/-- A SEQ field, with its TARGET, that the loader accepts in facet `f`. -/
def seqGood (f m : Nat) : Bool :=
  let q := mSeq m
  let size := bankSize f
  (!(q == 1 || q == 2 || q == 3 || q == 4) || decide (mTarget m < size)) && (q != 6 || decide (mTarget m + 15 < size)) &&
    (decide (480 ≤ f) || (q != 8 && q != 9))

/-- A word that the loader accepts in facet `f`. -/
def State.wordGood (s : State) (f m : Nat) : Bool :=
  !wordReserved m && aluGood (mAlu0 m) && aluGood (mAlu1 m) && moveGood m && s.lookGood m && s.cntGood m && emitGood m && seqGood f m &&
    decide (mMeta m % 512 = 0)

/-- The words of facet `f` in bank `b`: those of its section, and those that a patch has written beyond them. -/
def State.wordsOf (s : State) (f b : Nat) : List Nat :=
  List.range (SMap.find (fun _ => 0) s.code.counts (2 * f + b)) ++
    ((s.code.extra.filter fun e => e.1 / 8192 == 2 * f + b).map fun e => e.1 % 8192)

/-- A microaddress is one of them. -/
def State.hasWord (s : State) (f b a : Nat) : Bool :=
  decide (a < SMap.find (fun _ => 0) s.code.counts (2 * f + b)) || SMap.find (fun _ => false) s.code.extra (wordKey f b a)

/-- Every word of a bank's routines passes. -/
def State.formatGood (s : State) (b : Nat) : Bool :=
  (List.range 512).all fun f => (s.wordsOf f b).all fun a => s.wordGood f (s.wordAt f b a)

/-! ### Paths of pipeline routines (R85) -/

/-- The words that can follow a word, with the return addresses stacked; none when CALL or RET breaks R95. -/
def wordNexts (m a : Nat) (st : List Nat) : Option (List (Nat × List Nat)) :=
  let t := mTarget m
  match mSeq m with
  | 0 => some [(a + 1, st)]
  | 1 => some [(t, st)]
  | 2 | 3 => some [(t, st), (a + 1, st)]
  | 4 => if 7 ≤ st.length then none else some [(t, (a + 1) :: st)]
  | 5 => match st with | [] => none | r :: rest => some [(r, rest)]
  | 6 => some ((List.range 16).map fun v => (t + v, st))
  | 9 => some [(a, st)]
  | _ => some []

/-- What the paths through a routine show: each word visited with its offset, whether a word with EDGE = 1 precedes it, and the lookups
that the path has issued before it (offset, port, window); a path longer than the interval; a path that breaks R95. -/
structure Trace where
  visits : List (Nat × Nat × Bool × List (Nat × Nat × Nat)) := []
  late : Bool := false
  deep : Bool := false

def Trace.join (x y : Trace) : Trace := ⟨x.visits ++ y.visits, x.late || y.late, x.deep || y.deep⟩

/-- A CURSOR word with EDGE = 1. -/
def edgeWord (m : Nat) : Bool := mMove m / 2 ^ 26 == 3 && !cImm (mMove m) && cEdge (mMove m)

/-- The paths of a routine of interval `ii` from a word on. -/
def State.trace (s : State) (f b ii : Nat) : Nat → Nat → Nat → List Nat → Bool → List (Nat × Nat × Nat) → Trace
  | 0, _, _, _, _, _ => { late := true }
  | n + 1, a, off, st, ed, looks =>
    let m := s.wordAt f b a
    let next := off + mDwell m + 1
    let here : Trace := { visits := [(a, off, ed, looks)], late := decide (ii < next) }
    let issued := if lPort m = 63 then looks else (off, lPort m, lWin m) :: looks
    if ii < next then here
    else match wordNexts m a st with
      | none => { here with deep := true }
      | some l => l.foldl (fun t x => t.join (s.trace f b ii n x.1 next x.2 (ed || edgeWord m) issued)) here

/-- The paths of facet `i` of prism `p` in bank `b`. -/
def State.facetTrace (s : State) (p b i : Nat) : Trace :=
  let f := 30 * p + i
  s.trace f b (s.interval p b) (s.interval p b + 1) (SMap.find (fun _ => 0) s.code.entries (2 * f + b)) 0 [] false []

/-- A word visited on some path: facet, microaddress, offset, whether an EDGE word precedes it, the lookups that the path has issued in
its facet before it, and the word. -/
structure Visit where
  facet : Nat
  addr : Nat
  off : Nat
  after : Bool
  looks : List (Nat × Nat × Nat)
  word : Nat

/-- Every visit of a prism's routines. -/
def State.visits (s : State) (p b : Nat) : List Visit :=
  (List.range 30).flatMap fun i => (s.facetTrace p b i).visits.map fun v => ⟨i, v.1, v.2.1, v.2.2.1, v.2.2.2, s.wordAt (30 * p + i) b v.1⟩

/-- The age at which a visited word issues. -/
def State.visitAge (s : State) (p b : Nat) (v : Visit) : Nat := s.startAge p b v.facet + v.off

/-! ### The checks of one prism and bank (R85, R86, R92, R161, R162, R413) -/

/-- The calendar ports that a word claims. -/
def wordPorts (m : Nat) : List Nat :=
  (if lPort m = 63 then [] else [lPort m]) ++ (if bitsGet (mCnt m) 8 2 = 0 then [] else [28 + mCnt m / 1024])

def State.owner (s : State) (p b port phase : Nat) : Nat := SMap.find (fun _ => 0) s.code.calendar (512 * (2 * p + b) + 8 * port + phase)

/-- The groups that a prism's HBM forwarding reads need of a table (R413), and the factor that goes with its groups (R92): a factor
below the minimum is that of fewer groups than the reading prisms need. -/
def State.replicated (s : State) (p t : Nat) : Bool :=
  s.factorKept t && (s.get (R.HBM_REPL.GROUPS t)).testBit (p % 8) && (s.get (R.HBM_REPL.GROUPS t)).testBit ((p + 4) % 8)

/-- SLOT. -/
def State.slotGood (s : State) (p b : Nat) (vs : List Visit) : Bool :=
  let ii := s.interval p b
  let claims := vs.flatMap fun v => (wordPorts v.word).map fun q => (q, v.off % ii, v.facet, v.addr)
  claims.all (fun c => s.owner p b c.1 c.2.1 == 1 + c.2.2.1 &&
    claims.all fun d => !(c.1 == d.1 && c.2.1 == d.2.1) || c.2.2 == d.2.2) &&
  vs.all fun v => !decide (24 ≤ lPort v.word ∧ lPort v.word < 26) || s.replicated p (s.get (R.TBL_PROF.TABLE 1 (lProfile v.word)))

/-- GUARD. -/
def State.guardGood (s : State) (p b : Nat) (vs : List Visit) : Bool := vs.all fun v => mGuard v.word == s.visitAge p b v % 2048

/-- The windows whose nibbles a word reads: those of its operands, and the window of a STEP or RECORD. -/
def State.windowsRead (s : State) (m : Nat) : List Nat :=
  let port := lPort m
  let via := decide (16 ≤ port ∧ port < 28) &&
    (s.get (R.TBL_PROF.OP (tblKind port) (lProfile m)) == 3 || s.get (R.TBL_PROF.OP (tblKind port) (lProfile m)) == 5)
  ((List.range 3).filter fun w => (s.wordReads 0 m).any (touches w)) ++ (if via then [lWin m] else [])

/-- The status nibble of window `w` lies in a range. -/
def onStatus (w : Nat) (r : Nat × Nat) : Bool := decide (r.1 ≤ 633 + w ∧ 633 + w < r.1 + r.2)

/-- The windows whose results a word uses: those it reads, and those whose status it reads or tests. -/
def State.windowsUsed (s : State) (m : Nat) : List Nat :=
  let conds := if mSeq m = 6 then [] else
    [(0x0B, 0), (0x0C, 1), (0x0D, 2), (0x0E, 0), (0x0F, 1), (0x10, 2)].filterMap fun c => if mCond m = c.1 then some c.2 else none
  s.windowsRead m ++ ((List.range 3).filter fun w => (s.wordReads 0 m).any (onStatus w)) ++ conds

/-- A word reads the cursor. -/
def readsCursor (m : Nat) : Bool :=
  let f := mMove m
  (f / 2 ^ 26 == 3) || ((f / 2 ^ 26 == 1 || f / 2 ^ 26 == 2) && f.testBit 25) || (mSeq m != 6 && mCond m == 0x13)

/-- RETURN: no word uses a result before it is due, be its lookup one of an earlier facet or one that the word's own path has issued. A word
that reads a window with a lookup pending uses that lookup, also where the window still holds an earlier result or what the word's program put
there (the spec does not say; DESIGN CHOICE, log 204). -/
def State.returnGood (s : State) (p b : Nat) (vs : List Visit) : Bool :=
  vs.all fun v =>
    let a := s.visitAge p b v
    let earlier := (vs.filter fun x => decide (x.facet < v.facet) && lPort x.word != 63).map fun x =>
      (s.visitAge p b x, s.returnOffset p b (lPort x.word), lWin x.word)
    let own := v.looks.map fun x => (s.startAge p b v.facet + x.1, s.returnOffset p b x.2.1, x.2.2)
    !(v.after && readsCursor v.word) &&
      (s.windowsUsed v.word).all fun w => (earlier ++ own).all fun i => !(i.2.2 == w && decide (a < i.1 + i.2.1))

/-- The facets whose routine holds a word with EDGE = 1 on some path, as a mask. -/
def edgeMask (vs : List Visit) : Nat := ((List.range 30).map fun i => if vs.any fun v => v.facet == i && edgeWord v.word then 2 ^ i else 0).sum

/-- DEPTH: the parse allowance and the static depth as computed. -/
def State.depthGood (s : State) (p b : Nat) (vs : List Visit) : Bool :=
  let n := ((List.range 30).filter fun i => (edgeMask vs).testBit i).length
  let h := ((List.range 30).map fun i => s.lane p b i).sum
  let d := 30 * s.interval p b + h + 2 * n + 16
  SMap.find (fun _ => 0) s.code.parse (2 * p + b) == 2 * n && s.get (R.PRISM_SCHED.DEPTH p b) == d && decide (d ≤ 65535)

/-- LANE. -/
def State.laneGood (s : State) (p b : Nat) : Bool :=
  decide (1 ≤ s.interval p b ∧ s.interval p b ≤ 8) && (List.range 30).all (fun i => decide (s.lane p b i ≤ 4095)) &&
    decide (768 ≤ s.get (R.PRISM_SCHED.FAR_OFFSET p b) ∧ s.get (R.PRISM_SCHED.FAR_OFFSET p b) ≤ 4095)

/-- The first check that a prism and bank fail. -/
def State.prismCheck (s : State) (p b : Nat) : Option Nat :=
  let ts := (List.range 30).map (s.facetTrace p b)
  let vs := s.visits p b
  if !s.laneGood p b then some 0x0B
  else if ts.any fun t => t.late then some 0x02
  else if !s.slotGood p b vs then some 0x01
  else if !s.guardGood p b vs then some 0x03
  else if !s.returnGood p b vs then some 0x04
  else if !s.depthGood p b vs then some 0x05
  else if ts.any fun t => t.deep then some 0x08
  else none

/-! ### BOUND (R105 to R108) -/

/-- S_cut of a prism (R107). -/
def State.sCut (s : State) (p : Nat) : Nat :=
  ((List.range 6).map fun i =>
    let n := 6 * p + i
    if s.bit (R.PRISM_PROFILE.CUT p (s.profileOf p n)) ∧ s.portMbps n ≠ 0 then ceilDiv (2048 * 1000 * 21) (10 * s.portMbps n) else 0).sum

/-- The reservations of class `c`: its own, and those that the aperture records of the image name (R297). They say which destination
kinds the class can reach: the fabric where FABRIC is 1, and outputs up to E_OUT_MAX (R303, R305; DEDUCED, log 165). -/
def State.reservationsOf (s : State) (c : Nat) : List Nat := c :: s.apr.recs.map fun e => e.2.resBase + c

/-- The largest hop and E_out terms of R105 for class `c`, in ns. -/
def State.reachMost (s : State) (c : Nat) : Nat :=
  ((s.reservationsOf c).map fun r =>
    (if s.bit (R.APR_RES.FABRIC r) then s.get (R.APR_CLASS.HOPS c) * 1200 else 0) + s.get (R.APR_RES.E_OUT_MAX r)).foldl max 0

/-- Check BOUND of class `c` over the loaded banks of every prism and the destination kinds that the class can reach (R108). -/
def State.boundGood (s : State) (c : Nat) : Bool :=
  (List.range 16).all fun p => (List.range 2).all fun b => !s.bit (R.MCODE_VERSION.LOADED b) ||
    ((s.fixedBeats p b).add (Ratio.nat (s.reachMost c))).lt (Ratio.nat (s.get (R.APR_BOUND.BOUND c)))

/-! ### Service routines (R94, R95) -/

/-- A point of a service routine: microaddress, return addresses, beats since the last COMMIT word (65 stands for more than 64),
windows whose result may be pending. -/
structure SvcPoint where
  addr : Nat
  stack : List Nat
  since : Option Nat
  pending : List Nat
  /-- On a path from a handler's entry, where the stack holds one more address below those listed. -/
  handler : Bool
  deriving DecidableEq

/-- The check that a point fails, or the points that follow; a path ends where the words of the routine end. The beats between two COMMIT
words count the first one's own DWELL + 1; a WAIT word without COMMIT fails with code COMMIT. A window is waited for only by a COMMIT word
that acts whatever its flags: a word whose predicate may fail leaves it pending (DESIGN CHOICE, log 202). -/
def State.svcStep (s : State) (f b : Nat) (x : SvcPoint) : Nat ⊕ List SvcPoint :=
  let m := s.wordAt f b x.addr
  let used := s.windowsUsed m
  let commit := mCommit m
  if mGuard m ≠ 0 then .inl 0x09
  else if commit && x.since.any (fun n => decide (64 < n)) then .inl 0x07
  else if !commit && (x.pending.any fun w => used.contains w) then .inl 0x07
  else if mSeq m = 9 ∧ commit = false then .inl 0x07
  else match wordNexts m x.addr x.stack with
    | none => if x.handler && mSeq m == 5 then .inr [] else .inl 0x08
    | some l =>
      let since := if commit then some (mDwell m + 1) else x.since.map fun n => min 65 (n + mDwell m + 1)
      let left := if commit && (branches m || mSeq m == 6 || mCond m == 0) then x.pending.filter fun w => !(s.windowsRead m).contains w else x.pending
      let pend := if lPort m = 63 ∨ left.contains (lWin m) = true then left else lWin m :: left
      .inr ((l.filter fun y => s.hasWord f b y.1).map fun y => ⟨y.1, y.2, since, pend, x.handler⟩)

/-- Explores a routine from the points listed; `n` points at most are looked at. -/
def State.svcExplore (s : State) (f b : Nat) : Nat → List SvcPoint → List SvcPoint → Option Nat
  | 0, _, _ => some 0x07
  | _ + 1, _, [] => none
  | n + 1, seen, x :: rest =>
    if seen.contains x then s.svcExplore f b n seen rest
    else match s.svcStep f b x with
      | .inl c => some c
      | .inr l => s.svcExplore f b n (x :: seen) (l ++ rest)

/-- The check that a service facet's routines fail: from the entry, and from the handler of each cause that has words, which was
entered with one address on the stack and with any window pending. -/
def State.svcCheck (s : State) (f b : Nat) : Option Nat :=
  let words := s.wordsOf f b
  if words.isEmpty then none
  else if words.any fun a => mGuard (s.wordAt f b a) != 0 then some 0x09
  else s.svcExplore f b (2 ^ 40) []
    (⟨SMap.find (fun _ => 0) s.code.entries (2 * f + b), [], none, [], false⟩ ::
      ((List.range 5).filter fun c => s.hasWord f b (4 * c)).map fun c => ⟨4 * c, [], none, [0, 1, 2], true⟩)

/-! ### All checks of a bank (R85) -/

/-- ROLE: every role has a service facet. -/
def State.rolesGood (s : State) : Bool := (List.range 6).all fun r => (List.range 32).any fun f => s.holdsRole f r

/-- The first check of R85 that bank `b` fails. -/
def State.bankCheck (s : State) (b : Nat) : Option Nat :=
  if !s.formatGood b then some 0x0D
  else if !s.rolesGood then some 0x0C
  else match (List.range 16).findSome? fun p => s.prismCheck p b with
    | some c => some c
    | none => match (List.range 32).findSome? fun f => s.svcCheck (svcFacet f) b with
      | some c => some c
      | none => if (List.range 8).all s.boundGood then none else some 0x06

/-- What the loader computes from a bank that has passed: the lanes its EDGE words lengthen. -/
def State.bankEdges (s : State) (b : Nat) : State :=
  { s with code := { s.code with edges := (List.range 16).foldl (fun (m : SMap Nat) p =>
      m.put (fun _ => 0) (2 * p + b) (edgeMask (s.visits p b))) s.code.edges } }

/-- Banks A and B of a prism are calendar-same (R96). -/
def State.calSame (s : State) (p : Nat) : Bool :=
  s.interval p 0 == s.interval p 1 && (List.range 30).all (fun i => s.lane p 0 i == s.lane p 1 i) &&
    SMap.find (fun _ => 0) s.code.parse (2 * p) == SMap.find (fun _ => 0) s.code.parse (2 * p + 1) &&
    (List.range 280).all fun i => s.owner p 0 (i / 8) (i % 8) == s.owner p 1 (i / 8) (i % 8)

/-- PRISMk_SCHED.CAL_SAME and PRISMk_ALLOW of every prism; S_cut and A_parse are those of the active bank. -/
def State.schedRegs (s : State) : State :=
  (List.range 16).foldl (fun (t : State) p =>
    let same := s.calSame p
    ((((t.setBit (R.PRISM_SCHED.CAL_SAME p 0) same).setBit (R.PRISM_SCHED.CAL_SAME p 1) same).set (R.PRISM_ALLOW.S_CUT p)
      (s.sCut p)).set (R.PRISM_ALLOW.A_PARSE p) (SMap.find (fun _ => 0) s.code.parse (2 * p + s.get R.MCODE_ACTIVE.BANK)))) s

/-! ### The schedule section (R102 to R104) -/

/-- The entries of a map whose bank bit, the lowest bit of `key / unit`, is not `b`. -/
def withoutBank {α : Type} (unit b : Nat) (m : SMap α) : SMap α := m.filter fun e => e.1 / unit % 2 != b

/-- Bank `b` holds nothing. -/
def State.clearBank (s : State) (b : Nat) : State :=
  { s with code := { s.code with
      store := withoutBank 8192 b s.code.store
      wrong := withoutBank 8192 b s.code.wrong
      counts := withoutBank 1 b s.code.counts
      extra := withoutBank 8192 b s.code.extra
      entries := withoutBank 1 b s.code.entries
      lanes := withoutBank 32 b s.code.lanes
      edges := withoutBank 1 b s.code.edges
      calendar := withoutBank 512 b s.code.calendar
      parse := withoutBank 1 b s.code.parse } }

/-- One word of a bank written; its check bits are good (R104). -/
def State.putWord (s : State) (f b a w : Nat) : State :=
  { s with code := { s.code with
      store := s.code.store.put (fun _ => 0) (wordKey f b a) w
      wrong := s.code.wrong.put (fun _ => 0) (wordKey f b a) 0 } }

/-- A facet entry at byte `off`: its words come from the pool. -/
def State.putFacet (s : State) (sec : List Byte) (f b off pool : Nat) : State :=
  let first := leAt sec off 4
  let n := leAt sec (off + 4) 2
  let s1 := (List.range n).foldl (fun (t : State) i => t.putWord f b i (leAt sec (pool + 24 * (first + i)) 24)) s
  { s1 with code := { s1.code with
      counts := s1.code.counts.put (fun _ => 0) (2 * f + b) n
      entries := s1.code.entries.put (fun _ => 0) (2 * f + b) (leAt sec (off + 6) 2) } }

/-- A facet entry is well laid out: the check it fails. -/
def facetBad (sec : List Byte) (f off poolSize : Nat) : Option Nat :=
  if bankSize f < leAt sec (off + 4) 2 then some 0x0A
  else if poolSize < leAt sec off 4 + leAt sec (off + 4) 2 ∨ bankSize f ≤ leAt sec (off + 6) 2 then some 0x0D else none

/-- A prism record at byte `off` is well laid out: the check it fails. -/
def prismRecBad (sec : List Byte) (p off poolSize : Nat) : Option Nat :=
  let ii := leAt sec off 1
  let cal (i : Nat) : Nat := leAt sec (off + 80 + i) 1
  if !zeroBytes sec [(off + 1, 1), (off + 10, 6), (off + 76, 4)] then some 0x0D
  else if ii = 0 ∨ 8 < ii ∨ ((List.range 30).any fun i => decide (4095 < leAt sec (off + 16 + 2 * i) 2)) = true then some 0x0B
  else if 65535 < leAt sec (off + 4) 4 then some 0x05
  else if (List.range 280).any fun i => decide (30 ≤ cal i ∧ cal i ≠ 255) || (decide (ii ≤ i % 8) && cal i != 255) then some 0x0D
  else (List.range 30).findSome? fun i => facetBad sec (30 * p + i) (off + 360 + 8 * i) poolSize

/-- The check that a section's layout fails. -/
def sectionBad (sec : List Byte) (bank : Nat) : Option Nat :=
  let prisms := leAt sec 16 8
  let svcs := leAt sec 24 8
  let pool := leAt sec 32 8
  let size := leAt sec 40 4
  if leAt sec 0 4 ≠ 1 ∨ leAt sec 8 1 ≠ bank ∨ leAt sec 9 1 ≠ 16 ∨ leAt sec 10 1 ≠ 32 ∨ leAt sec 11 5 ≠ 0 ∨
      sec.length < prisms + 9600 ∨ sec.length < svcs + 256 ∨ sec.length < pool + 24 * size then some 0x0D
  else match (List.range 16).findSome? fun p => prismRecBad sec p (prisms + 600 * p) size with
    | some c => some c
    | none => (List.range 32).findSome? fun i => facetBad sec (svcFacet i) (svcs + 8 * i) size

/-- A prism record written into bank `b`. -/
def State.putPrismRec (s : State) (sec : List Byte) (p b off pool : Nat) : State :=
  let s1 := ((s.set (R.PRISM_SCHED.II p b) (leAt sec off 1)).set (R.PRISM_SCHED.DEPTH p b) (leAt sec (off + 4) 4)).set
    (R.PRISM_SCHED.FAR_OFFSET p b) (leAt sec (off + 8) 2)
  let s2 := { s1 with code := { s1.code with
      parse := s1.code.parse.put (fun _ => 0) (2 * p + b) (leAt sec (off + 2) 2)
      lanes := (List.range 30).foldl (fun (m : SMap Nat) i => m.put (fun _ => 0) (32 * (2 * p + b) + i) (leAt sec (off + 16 + 2 * i) 2))
        s1.code.lanes
      calendar := (List.range 280).foldl (fun (m : SMap Nat) i =>
        let o := leAt sec (off + 80 + i) 1
        m.put (fun _ => 0) (512 * (2 * p + b) + i) (if o = 255 then 0 else 1 + o)) s1.code.calendar } }
  (List.range 30).foldl (fun (t : State) i => t.putFacet sec (30 * p + i) b (off + 360 + 8 * i) pool) s2

/-- A schedule section written into its bank, which is marked loaded. -/
def State.putSection (s : State) (sec : List Byte) (b : Nat) : State :=
  let pool := leAt sec 32 8
  let s1 := (List.range 16).foldl (fun (t : State) p => t.putPrismRec sec p b (leAt sec 16 8 + 600 * p) pool) (s.clearBank b)
  let s2 := (List.range 32).foldl (fun (t : State) i => t.putFacet sec (svcFacet i) b (leAt sec 24 8 + 8 * i) pool) s1
  ((s2.set (R.MCODE_VERSION.VERSION b) (leAt sec 4 4)).set (R.MCODE_VERSION.PATCH_LEVEL b) 0).setBit (R.MCODE_VERSION.LOADED b) true

/-- A schedule section loaded: the check it fails, or the state with it. -/
def State.loadSection (s : State) (sec : List Byte) (b : Nat) : Nat ⊕ State :=
  match sectionBad sec b with
  | some c => .inl c
  | none =>
    let t := s.putSection sec b
    let u := (t.bankEdges b).schedRegs
    match u.bankCheck b with
    | some c => .inl c
    | none => .inr u

/-! ### MCODE_PATCH (R145 to R148) -/

/-- The entries of one bank of a map, with the other bank's replaced by them. -/
def mirrorBank {α : Type} [DecidableEq α] (d : Nat → α) (unit src : Nat) (m : SMap α) : SMap α :=
  let kept := m.filter fun e => e.1 / unit % 2 == src
  kept.foldl (fun (acc : SMap α) e => acc.put d (if src = 0 then e.1 + unit else e.1 - unit) e.2) kept

/-- The other bank receives all of bank `b`: words, prism records, version and patch level (R146). -/
def State.copyBank (s : State) (b : Nat) : State :=
  let o := 1 - b
  let s1 := { s with code := { s.code with
      store := mirrorBank (fun _ => 0) 8192 b s.code.store
      wrong := mirrorBank (fun _ => 0) 8192 b s.code.wrong
      counts := mirrorBank (fun _ => 0) 1 b s.code.counts
      extra := mirrorBank (fun _ => false) 8192 b s.code.extra
      entries := mirrorBank (fun _ => 0) 1 b s.code.entries
      lanes := mirrorBank (fun _ => 0) 32 b s.code.lanes
      edges := mirrorBank (fun _ => 0) 1 b s.code.edges
      calendar := mirrorBank (fun _ => 0) 512 b s.code.calendar
      parse := mirrorBank (fun _ => 0) 1 b s.code.parse } }
  let s2 := (List.range 16).foldl (fun (t : State) p => t.setWord (0x800000 + 0x100000 * p + 8 * o) (s.word (0x800000 + 0x100000 * p + 8 * b))) s1
  s2.setWord (0x2B00000 + 8 * o) (s.word (0x2B00000 + 8 * b))

/-- A record of a patch is well formed (R148). -/
def patchRecGood (patch : List Byte) (i : Nat) : Bool :=
  let o := 64 + 32 * i
  let f := leAt patch o 2
  decide (f < 512) && decide (leAt patch (o + 2) 2 < bankSize f) && leAt patch (o + 4) 4 == 0

/-- The first bad record of a patch object, 0xFFFF for its header; none when it is well formed. -/
def patchBad (patch : List Byte) : Option Nat :=
  let n := leAt patch 10 2
  if leAt patch 0 4 ≠ 1 ∨ n = 0 ∨ patch.length ≠ 160 + 32 * n ∨ leAt patch 12 52 ≠ 0 then some 0xFFFF
  else (List.range n).find? fun i => !patchRecGood patch i

/-- The patch object verifies against the public key of the running image: its signature stands behind its N records (R148). -/
def State.patchSigned (s : State) (patch : List Byte) : Bool :=
  let n := 64 + 32 * leAt patch 10 2
  Config.ecdsaVerifies s.boot.key (Config.sha384 (slice patch 0 n)) (slice patch n 96)

/-- A patched word: one at or past the facet's word count becomes a word of the facet, which R85 checks as any other. -/
def State.patchWord (s : State) (f b a w : Nat) : State :=
  let t := s.putWord f b a w
  if s.hasWord f b a then t else { t with code := { t.code with extra := t.code.extra.put (fun _ => false) (wordKey f b a) true } }

/-- The words of a patch written into bank `b`. -/
def State.putPatch (s : State) (patch : List Byte) (b : Nat) : State :=
  (List.range (leAt patch 10 2)).foldl (fun (t : State) i =>
    let o := 64 + 32 * i
    t.patchWord (leAt patch o 2) b (leAt patch (o + 2) 2) (leAt patch (o + 8) 24)) s

/-- The checks of R145 in their order, and the patch: a refusal as reason and index, or the state with the patched bank. -/
def State.patchBank (s : State) (b : Nat) (copy : Bool) (patch : List Byte) : (Nat × Nat) ⊕ State :=
  let active := s.get R.MCODE_ACTIVE.BANK
  let ref := if copy then active else b
  let level := s.get (R.MCODE_VERSION.PATCH_LEVEL ref)
  if b = active ∨ s.bit R.MCODE_ACTIVE.DRAINING = true then .inl (2, 0)
  else if !s.patchSigned patch then .inl (5, 0)
  else match patchBad patch with
    | some i => .inl (1, i)
    | none =>
      if leAt patch 4 4 ≠ s.get (R.MCODE_VERSION.VERSION ref) then .inl (4, 0)
      else if leAt patch 8 2 ≠ level ∨ 65535 ≤ level then .inl (6, 0)
      else
        let t := ((if copy then s.copyBank active else s).putPatch patch b).set (R.MCODE_VERSION.PATCH_LEVEL b) (level + 1)
        let u := (t.bankEdges b).schedRegs
        match u.bankCheck b with
        | some c => .inl (0x80 + c, 0)
        | none => .inr u

/-- A VERSION_COMMIT that switches banks was accepted before command `seq` and has not completed (R147). -/
def State.commitAhead (s : State) (seq : Nat) : Bool :=
  (s.cmd.open_.takeWhile fun d => d.seq != seq).any fun d => d.code == 0x21 && (d.op 16 1).testBit 1

/-- MCODE_PATCH (R145); `patch` is the object as the host memory returns it. -/
def execMcodePatch (seq : Nat) (patch : List Byte) (s : State) : Out State :=
  complete true s (s.runCmd seq 0x22 fun c t =>
    if t.commitAhead seq then t
    else if !headerGood c.bytes then t.refuseAt seq 1 0xFFFF
    else
      let t1 := t.emitAll (t.pfReads (t.cmdPf c) (c.op 24 8) (c.op 32 4))
      match t1.patchBank (c.op 16 1 % 2) ((c.op 17 1).testBit 0) patch with
      | .inl (r, i) => t1.refuseAt seq r i
      | .inr u => u.done seq [(16, 2, leAt patch 8 2 + 1)])

end Sys2Proof.Machine
end

