-- ==== Sys2Proof/Machine/Tries.lean ====
section
/-! DEFINITION. Tries: the prefix shadow, the longest match before and after a staged change, node building, changes under
traffic (R195 to R203). -/
namespace Sys2Proof.Machine

/-! ### Prefixes -/

/-- The 128-bit values a prefix covers: the first, and one more than the last. -/
def Prefix.lo (p : Prefix) : Nat := p.value
def Prefix.hi (p : Prefix) : Nat := p.value + 2 ^ (128 - p.plen)
def Prefix.covers (p : Prefix) (x : Nat) : Bool := decide (p.lo ≤ x ∧ x < p.hi)

/-- The result of a prefix before its staged change, and after it. -/
def Prefix.before (p : Prefix) : Option Nat := p.result
def Prefix.after (p : Prefix) : Option Nat := match p.staged with | some (_, r) => r | none => p.result

/-- The result of a prefix at version `v`. -/
def Prefix.at_ (p : Prefix) (o v : Nat) : Option Nat :=
  match p.staged with
  | some (sw, r) => if bornBy o sw v then r else p.result
  | none => p.result

/-- The longest prefix that matches a point under a view. -/
def longest (view : Prefix → Option Nat) (ps : List Prefix) (x : Nat) : Option Prefix :=
  ps.foldl (fun (best : Option Prefix) p =>
    if p.covers x && (view p).isSome && best.all fun b => decide (b.plen ≤ p.plen) then some p else best) none

/-- The leaf of a point: both sides as length and result, whether a change between them is staged, and the version that switches them. -/
structure Leaf where
  a : Option (Nat × Nat)
  b : Option (Nat × Nat)
  pending : Bool
  switch : Nat
  deriving DecidableEq, Repr

/-- The leaf that a set of prefixes gives a point: the change staged on the longest match before or after it is what its sides show; one
hidden behind a longer match is not (R202). -/
def leafAt (ps : List Prefix) (x : Nat) : Leaf :=
  let a := longest Prefix.before ps x
  let b := longest Prefix.after ps x
  let sw := (b.bind (·.staged)).orElse fun _ => a.bind (·.staged)
  ⟨a.bind fun p => p.before.map fun r => (p.plen, r), b.bind fun p => p.after.map fun r => (p.plen, r), sw.isSome,
    (sw.map (·.1)).getD 0⟩

/-- A side of a leaf line. -/
def sideBytes (x : Option (Nat × Nat)) : Nat := match x with | some (n, r) => n + r % 2 ^ 192 * 2 ^ 32 | none => 0

/-- The line of a leaf (R196). -/
def leafLine (l : Leaf) : Nat :=
  3 + 16 * b2n l.a.isSome + 32 * b2n l.b.isSome + 64 * b2n l.pending + 256 * l.switch + sideBytes l.a * 2 ^ 64 + sideBytes l.b * 2 ^ 288

/-! ### Lines of a trie (R199, R200) -/

/-- `n` lines in a row from `c` are free. -/
def State.runFree (s : State) (t tier c n : Nat) : Bool := (List.range n).all fun i => !s.tbl.taken.contains (s.tableKey t tier (c + i))

/-- `n` free lines in a row of a trie's region: relative to its start; none when the region cannot hold them. -/
def State.allocLines (s : State) (t tier n : Nat) : Option (Nat × State) :=
  let start := s.regionStart t tier
  let size := SMap.find (fun _ => 0) s.tbl.regions (2 * t + tier)
  let first := if tier = 0 then 16 ^ s.get (R.TBL_PLAN.R t) else 0
  let cands := first :: (s.tbl.taken.filterMap fun k =>
    if k = s.tableKey t tier (keyLine k) ∧ start + first ≤ keyLine k then some (keyLine k + 1 - start) else none)
  match (cands.filter fun c => decide (c + n ≤ size) && s.runFree t tier (start + c) n).foldl
      (fun (m : Option Nat) c => match m with | some x => some (min x c) | none => some c) none with
  | none => none
  | some c =>
    some (c, { s with tbl := { s.tbl with taken := s.tbl.taken ++ (List.range n).map fun i => s.tableKey t tier (start + c + i) } })

/-- The points at which the leaf of a region can change, `g` being the grain of one value of its level: starts and ends of the
prefixes inside it, rounded to grains, in ascending order without repeats. -/
def insertPoint (x : Nat) : List Nat → List Nat
  | [] => [x]
  | y :: ys => if x < y then x :: y :: ys else if x = y then y :: ys else y :: insertPoint x ys

def breakpoints (lo n g : Nat) (ps : List Prefix) : List Nat :=
  (ps.foldl (fun acc p =>
    if lo ≤ p.lo ∧ p.hi ≤ lo + n * g then
      insertPoint ((p.lo - lo) / g) (insertPoint ((p.hi - 1 - lo) / g + 1) acc)
    else acc) [0]).filter fun i => decide (i < n)

/-- A child value begins a new run: it or the run before it holds longer prefixes, or their leaves differ. -/
def joinRuns (deep : Nat → Bool) (leaf : Nat → Leaf) : Option Nat → List Nat → List Nat
  | _, [] => []
  | prev, i :: is =>
    match prev with
    | some j => if !deep i && !deep j && leaf i == leaf j then joinRuns deep leaf prev is else i :: joinRuns deep leaf (some i) is
    | none => i :: joinRuns deep leaf (some i) is

/-- The bits that a node's line holds besides its kind, S and BASE. -/
def nodeLine (s base : Nat) (runs : List Nat) : Nat :=
  let bounds := runs.filter fun i => i != 0
  if bounds.length ≤ 28 then
    2 + 256 * s + 65536 * bounds.length + base % 2 ^ 32 * 2 ^ 32 +
      ((List.range bounds.length).map fun i => bounds.getD i 0 * 2 ^ (64 + 16 * i)).sum
  else 1 + 256 * s + base % 2 ^ 32 * 2 ^ 32 + ((0 :: bounds).map fun i => 2 ^ (256 + i)).sum

/-- The run starts that a node line holds. -/
def nodeRuns (line : Nat) : List Nat :=
  if lineKind line = 1 then (List.range 256).filter fun i => line.testBit (256 + i)
  else if lineKind line = 2 then 0 :: (List.range (lget line 2 1)).map fun i => lget line (8 + 2 * i) 2
  else []

/-- A line as lookups see it: SWITCH and side B of a leaf whose PENDING is 0 say nothing. -/
def seenLine (line : Nat) : Nat :=
  if lineKind line = 3 ∧ line.testBit 6 = false then 3 + 16 * b2n (line.testBit 4) + lget line 8 28 * 2 ^ 64 else line

/-- The old line where the new one says the same, so that it is not rewritten. -/
def keepLine (old new : Nat) : Nat := if seenLine old = seenLine new then old else new

/-- What stands for a region below `bits` fixed bits when a node of S nibbles decides it: the run starts; none when the region is
one leaf. -/
def nodePlan (ps : List Prefix) (st lo bits : Nat) : Option (List Nat) :=
  let here := ps.filter fun p => decide (bits < p.plen) && decide (lo ≤ p.lo ∧ p.lo < lo + 2 ^ (128 - bits))
  let g := 2 ^ (128 - bits - 4 * st)
  let deep (i : Nat) : Bool := here.any fun p => decide (bits + 4 * st < p.plen) && decide (lo + i * g ≤ p.lo ∧ p.lo < lo + (i + 1) * g)
  if here.isEmpty then none
  else some (joinRuns deep (fun i => leafAt ps (lo + i * g)) none (breakpoints lo (16 ^ st) g here))

/-- A node of S nibbles cannot hold the runs (R197, R200). -/
def overflows (st : Nat) (runs : List Nat) : Bool := decide (29 < runs.length ∧ 2 < st)

/-- The key of the child line of a node for value `x` of its level, where the line is a node of that S. -/
def State.childKey (s : State) (t st tier line x : Nat) : Option Nat :=
  if (lineKind line = 1 ∨ lineKind line = 2) ∧ lget line 1 1 = st then some (s.tableKey t tier (s.regionStart t tier + childOf line x)) else none

/-- The child line itself; a no-route leaf where there is none. -/
def State.childLine (s : State) (t st tier line x : Nat) : Nat := match s.childKey t st tier line x with | some k => s.tline k | none => 3

/-- The line that stands for a region of the trie, `old` standing for it now; a subtree that stays the same is kept, and every other
line below goes to free lines (R201). The levels left are S and the tier of the child lines. None when a node would overflow or
lines run out (R200). -/
def buildNode (t : Nat) (ps : List Prefix) : List (Nat × Nat) → Nat → Nat → Nat → State → Option (Nat × State)
  | [], old, lo, _, s => some (keepLine old (leafLine (leafAt ps lo)), s)
  | (st, tier) :: levels, old, lo, bits, s =>
    match nodePlan ps st lo bits with
    | none => some (keepLine old (leafLine (leafAt ps lo)), s)
    | some runs =>
      if overflows st runs then none
      else
        let g := 2 ^ (128 - bits - 4 * st)
        let kids := runs.foldl (fun (acc : Option (List Nat × State)) i =>
          match acc with
          | none => none
          | some (ls, u) =>
            match buildNode t ps levels (s.childLine t st tier old i) (lo + i * g) (bits + 4 * st) u with
            | some (l, u1) => some (ls ++ [l], u1)
            | none => none) (some ([], s))
        match kids with
        | none => none
        | some (ls, u) =>
          if nodeRuns old = runs ∧ lget old 1 1 = st ∧ ls = runs.map (s.childLine t st tier old) then some (old, u)
          else
            match u.allocLines t tier runs.length with
            | none => none
            | some (c, u1) =>
              let start := u1.regionStart t tier
              let u2 := (List.range ls.length).foldl (fun v i => v.setTline (v.tableKey t tier (start + c + i)) (ls.getD i 0)) u1
              some (nodeLine st c runs, u2)

/-- A subtree would change, or has no room to stay as it is. -/
def subtreeChanges (t : Nat) (ps : List Prefix) (levels : List (Nat × Nat)) (old lo bits : Nat) (s : State) : Bool :=
  match buildNode t ps levels old lo bits s with
  | some x => x.1 != old
  | none => true

/-- Rewrites in place the one line that makes a change visible: the line at `k`, unless it stays and one child alone changes, when
that child line is the one looked at (R201). -/
def State.rewriteBelow (t : Nat) (ps : List Prefix) : List (Nat × Nat) → Nat → Nat → Nat → State → Option State
  | [], k, lo, _, s =>
    let line := keepLine (nodeOrLeaf (s.tline k)) (leafLine (leafAt ps lo))
    some (if line = nodeOrLeaf (s.tline k) then s else s.setTline k line)
  | (st, tier) :: levels, k, lo, bits, s =>
    let old := nodeOrLeaf (s.tline k)
    let g := 2 ^ (128 - bits - 4 * st)
    let here : Option State :=
      match buildNode t ps ((st, tier) :: levels) old lo bits s with
      | some (line, u) => some (if line = old then s else u.setTline k line)
      | none => none
    match nodePlan ps st lo bits with
    | none => here
    | some runs =>
      if overflows st runs then none
      else if nodeRuns old = runs ∧ lget old 1 1 = st then
        match runs.filter fun i => subtreeChanges t ps levels (s.childLine t st tier old i) (lo + i * g) (bits + 4 * st) s with
        | [] => some s
        | [i] =>
          (match s.childKey t st tier old i with
          | some c => State.rewriteBelow t ps levels c (lo + i * g) (bits + 4 * st) s
          | none => here)
        | _ => here
      else here

/-- The levels of a trie's plan. -/
def State.planLevels (s : State) (t : Nat) : List (Nat × Nat) :=
  (List.range (s.get (R.TBL_PLAN.L t))).map fun i => (s.stride t (i + 1), s.childTier t (i + 1))

/-- The number of children of a node line. -/
def kidCount (line : Nat) : Nat :=
  if lineKind line = 1 then ((List.range 256).filter fun i => line.testBit (256 + i)).length
  else if lineKind line = 2 then lget line 2 1 + 1 else 0

/-- The line keys below a node line. -/
def State.linesBelow (s : State) (t : Nat) : List (Nat × Nat) → Nat → List Nat
  | [], _ => []
  | (_, tier) :: levels, line =>
    (List.range (kidCount line)).flatMap fun i =>
      let k := s.tableKey t tier (s.regionStart t tier + lget line 4 4 + i)
      k :: s.linesBelow t levels (s.tline k)

/-- Changes the trie below root index `i` to what the prefixes say; the lines displaced are listed. -/
def State.rebuildRoot (s : State) (t i : Nat) : Option (List Nat × State) :=
  let r := s.get (R.TBL_PLAN.R t)
  let levels := s.planLevels t
  let k := lineKey 0 (s.get (R.TBL_DESC.BASE t) + i)
  let ps := s.tbl.prefixes.filter fun p => p.table == t
  match State.rewriteBelow t ps levels k (i * 2 ^ (128 - 4 * r)) (4 * r) s with
  | some u =>
    let left := u.linesBelow t levels (u.tline k)
    some ((s.linesBelow t levels (s.tline k)).filter fun x => !left.contains x, u)
  | none => none

/-- The root indices that a prefix touches. -/
def State.rootsOf (s : State) (t : Nat) (p : Prefix) : List Nat :=
  let g := 2 ^ (128 - 4 * s.get (R.TBL_PLAN.R t))
  (List.range ((p.hi - 1) / g + 1 - p.lo / g)).map fun i => p.lo / g + i

/-- Changes the trie below every root line that a changed prefix touches, one line after the other where it touches several (DESIGN
CHOICE, log 153); the displaced lines return to free space after a drain round begun after the writes (R201), which in LOAD, where no
packet is inside a prism, is over at once. -/
def State.rebuild (s : State) (t : Nat) (p : Prefix) : Option State :=
  let r := (s.rootsOf t p).foldl (fun (acc : Option (List Nat × State)) i =>
    match acc with
    | none => none
    | some (old, u) =>
      match u.rebuildRoot t i with
      | some (o, u1) => some (old ++ o, u1)
      | none => none) (some ([], s))
  match r with
  | none => none
  | some ([], u) => some u
  | some (old, u) =>
    if u.mode == .load then some { u with tbl := { u.tbl with taken := u.tbl.taken.filter fun l => !old.contains l } } else
    let d := u.startRound (List.range 16) false
    some { d.2 with tbl := { d.2.tbl with limbo := d.2.tbl.limbo ++ old.map fun k => (d.1, k) } }

/-! ### Changes (R199, R202) -/

/-- The prefix of a table with a length and value. -/
def State.findPrefix (s : State) (t plen value : Nat) : Option Prefix :=
  s.tbl.prefixes.find? fun p => p.table == t && p.plen == plen && p.value == value

/-- A change to a prefix would alter a leaf whose PENDING is 1: `new` is the prefix list after it (R202). -/
def altersPending (ps new : List Prefix) (p : Prefix) : Bool :=
  let pts := p.lo :: (ps ++ new).flatMap fun q => [q.lo, q.hi]
  pts.any fun x => p.covers x && (leafAt ps x).pending && leafAt new x != leafAt ps x

/-- The 128-bit prefix pool of a table: its register and its size (R199). -/
def State.poolLoc (s : State) (t : Nat) : Loc × Nat :=
  if s.get (R.TBL_DESC.KEYN t) ≤ 8 then (R.TBL_POOL.V4_USED, 8388608) else (R.TBL_POOL.V6_USED, 16777216)

/-- Replaces a prefix, or adds it at the shadow's end; one that stands for nothing is dropped. -/
def putPrefix (p : Prefix) (ps : List Prefix) : List Prefix :=
  let dead := p.result.isNone && p.staged.isNone
  if ps.any fun q => q.id == p.id then
    (if dead then ps.filter fun q => q.id != p.id else ps.map fun q => if q.id = p.id then p else q)
  else if dead then ps else ps ++ [p]

/-- TBL_FILL.USED and TBL_POOL after the number of a table's prefixes changed. -/
def State.countPrefixes (s : State) (t : Nat) (was now : Nat) : State :=
  let loc := (s.poolLoc t).1
  (s.set (R.TBL_FILL.USED t) (s.get (R.TBL_FILL.USED t) + now - was)).set loc (s.get loc + now - was)

/-- The line of the prefix shadow in HBM that holds a prefix: value, result, length and staged change (the spec gives no layout; DESIGN
CHOICE, log 197). -/
def State.prefixAddr (s : State) (p : Prefix) : Nat := s.mem.prefixBase + 64 * p.id
def Prefix.image (p : Prefix) : Nat :=
  p.value + 2 ^ 128 * (p.result.getD 0) + 2 ^ 320 * p.plen + 2 ^ 328 * b2n p.result.isSome +
    2 ^ 336 * (match p.staged with | some (v, _) => 16 + v | none => 0)

/-- The command-execution role reads what the shadow holds of the prefixes that meet `p`, and writes `p`, in class 1 with the close hint
(R199, R417). -/
def State.prefixTraffic (s : State) (ps : List Prefix) (p : Prefix) : State :=
  ((ps.filter fun q => q.id != p.id && decide (q.lo < p.hi ∧ p.lo < q.hi)).foldl (fun (t : State) q =>
    t.dynRequests 0 1 false false (fun _ => 0) 1 (t.prefixAddr q)) s).dynRequests 0 1 false true (fun _ => p.image) 1 (s.prefixAddr p)

/-- A prefix is changed to `p` and the trie rebuilt: the reason on failure (R199, R200, R202). -/
def State.changePrefix (s : State) (t : Nat) (p : Prefix) : Nat ⊕ State :=
  let ps := s.tbl.prefixes.filter fun q => q.table == t
  let new := putPrefix p ps
  let pool := s.poolLoc t
  if altersPending ps new p then .inl 0xC
  else if ps.length < new.length ∧ pool.2 ≤ s.get pool.1 then .inl 0xB
  else
    let s1 := { s with tbl := { s.tbl with
      prefixes := putPrefix p s.tbl.prefixes
      nextPrefix := max s.tbl.nextPrefix (p.id + 1) } }
    match s1.rebuild t p with
    | none => .inl 0xB
    | some u => .inr ((u.countPrefixes t ps.length new.length).prefixTraffic ps p)

/-! ### Settling and abandoning (R203, R225) -/

/-- A prefix once its staged version has settled at O. -/
def Prefix.settle (o : Nat) (p : Prefix) : Prefix :=
  match p.staged with
  | some (sw, r) => if settled o sw then { p with result := r, staged := none } else p
  | none => p

/-- A prefix once version `v` has been abandoned. -/
def Prefix.abandon (v : Nat) (p : Prefix) : Prefix :=
  match p.staged with
  | some (sw, _) => if sw = v then { p with staged := none } else p
  | none => p

/-- A leaf line once its switch has settled: side B on both sides, PENDING clear. -/
def settleLine (o line : Nat) : Nat :=
  if lineKind line = 3 ∧ line.testBit 6 = true ∧ settled o (lget line 1 1 % 16) = true then
    lset (lset line 0 1 (3 + 48 * b2n (line.testBit 5))) 8 28 (lget line 36 28)
  else line

/-- A leaf line once version `v` has been abandoned: PENDING clear. -/
def abandonLine (v line : Nat) : Nat :=
  if lineKind line = 3 ∧ line.testBit 6 = true ∧ lget line 1 1 % 16 = v then lset line 0 1 (lget line 0 1 - 64) else line

/-- The line keys of a trie: its root lines that hold anything, and its child lines. -/
def State.trieLines (s : State) (t : Nat) : List Nat :=
  let base := s.get (R.TBL_DESC.BASE t)
  let roots := (s.tbl.lines.filter fun e => decide (base ≤ e.1 ∧ e.1 < base + 16 ^ s.get (R.TBL_PLAN.R t))).map (·.1)
  roots ++ roots.flatMap fun k => s.linesBelow t (s.planLevels t) (s.tline k)

/-- The tables of a kind. -/
def State.tablesOf (s : State) (kind : Nat → Bool) : List Nat := (List.range 256).filter fun t => kind (s.get (R.TBL_DESC.KIND t))

/-- A sweep over the prefixes and leaf lines of every trie. -/
def State.sweepTries (s : State) (fp : Prefix → Prefix) (fl : Nat → Nat) : State :=
  let tries := s.tablesOf fun k => k == 1
  let s1 := tries.foldl (fun u t => (u.trieLines t).foldl (fun v k => if fl (v.tline k) = v.tline k then v else v.setTline k (fl (v.tline k))) u) s
  let swept := s1.tbl.prefixes.map fp
  let kept := swept.filter fun p => p.result.isSome || p.staged.isSome
  let s2 := { s1 with tbl := { s1.tbl with prefixes := kept } }
  tries.foldl (fun u t => u.countPrefixes t (swept.filter fun p => p.table == t).length (kept.filter fun p => p.table == t).length) s2

end Sys2Proof.Machine
end

