-- ==== Sys2Proof/Machine/Entries.lean ====
section
/-! DEFINITION. Exact-match entries as commands and roles change them: places, displacement, insertion, removal (R204 to R208,
R211, R213, R214). -/
namespace Sys2Proof.Machine

/-- A table of exact matches. -/
def exactKind (k : Nat) : Bool := k == 2 || k == 3

/-- A table is wide. -/
def State.wide (s : State) (t : Nat) : Bool := s.get (R.TBL_DESC.KIND t) == 3

/-- The line of a bucket. -/
def State.bucketLine (s : State) (t b : Nat) : Nat := s.tline (s.bucketKey t b)

/-- The entry in way `w` of bucket `b`; VALID is 0 in an empty way. -/
def State.entryAt (s : State) (t b w : Nat) : Entry :=
  let n := s.get (R.TBL_DESC.KEYN t)
  if s.wide t then
    let i := indexGet (s.bucketLine t b) w
    if i.2.2 then recordGet (s.tline (s.recordKey t i.2.1)) n else ⟨0, 0, 0, 0⟩
  else compactGet (s.bucketLine t b) w n

/-- The way holds no entry. -/
def State.wayFree (s : State) (t b w : Nat) : Bool :=
  if s.wide t then !(indexGet (s.bucketLine t b) w).2.2 else !(s.entryAt t b w).valid

/-- The first free way of a bucket. -/
def State.freeWay (s : State) (t b : Nat) : Option Nat := (List.range 4).find? fun w => s.wayFree t b w

/-- The key of the line that holds the entry in a way that is taken: its record's, or its bucket's. -/
def State.entryKey (s : State) (t b w : Nat) : Nat :=
  if s.wide t then s.recordKey t (indexGet (s.bucketLine t b) w).2.1 else s.bucketKey t b

/-- Where the flags of the entry in a way lie: the line, and the offset in it. -/
def State.flagsAt (s : State) (t b w : Nat) : Nat × Nat := (s.entryKey t b w, if s.wide t then 60 else 16 * w + 14)

/-- How hit writes name the entry in a way (R211). -/
def State.hitSlot (s : State) (t b w : Nat) : Nat := 8 * s.entryKey t b w + (if s.wide t then 4 else w)

/-- How the aging sweep names the entry in a way (R214). -/
def visitKey (t b w : Nat) : Nat := 2 ^ 34 * t + 4 * b + w

/-- Replaces the entry in a way that is taken. -/
def State.putEntry (s : State) (t b w : Nat) (e : Entry) : State :=
  let n := s.get (R.TBL_DESC.KEYN t)
  if s.wide t then s.setTline (s.entryKey t b w) (recordPut n e)
  else s.setTline (s.bucketKey t b) (compactPut (s.bucketLine t b) w n e)

/-- Writes HIT of the entry in a way, which is outside parity (R193). -/
def State.putHit (s : State) (t b w : Nat) (hit : Bool) : State :=
  let l := s.flagsAt t b w
  let v := lset (s.tline l.1) l.2 2 (bitsSet (lget (s.tline l.1) l.2 2) 1 1 (b2n hit))
  { s.lineWrites l.1 v with tbl := { s.tbl with lines := s.tbl.lines.put (fun _ => 0) l.1 v } }

/-- What is kept beside an entry goes with it: its posted hit writes (R211) and its last visit (R214). -/
def State.forgetEntry (s : State) (t b w : Nat) : State :=
  { s with tbl := { s.tbl with
      hits := s.tbl.hits.filter fun h => h.2.1 != s.hitSlot t b w
      visited := s.tbl.visited.put (fun _ => (0, 0)) (visitKey t b w) (0, 0) } }

/-- Removes the entry in a way. -/
def State.clearEntry (s : State) (t b w : Nat) : State :=
  let s0 := s.forgetEntry t b w
  let s1 := if s.wide t then
      (s0.setTline (s0.entryKey t b w) 0).setTline (s0.bucketKey t b) (indexPut (s0.bucketLine t b) w 0 0 false)
    else s0.setTline (s0.bucketKey t b) (lset (s0.bucketLine t b) (16 * w) 16 0)
  s1.dec (R.TBL_FILL.USED t) 1

/-- The lowest record line not in use, looking at `n` of them from `r`. -/
def State.freeRecord (s : State) (t : Nat) : Nat → Nat → Option Nat
  | 0, _ => none
  | n + 1, r => if (recordGet (s.tline (s.recordKey t r)) 0).valid then s.freeRecord t n (r + 1) else some r

/-- Writes a new entry into a free way. -/
def State.fillWay (s : State) (t b w : Nat) (e : Entry) : Option State :=
  if s.wide t then
    match s.freeRecord t (4 * 2 ^ s.get (R.TBL_DESC.BBITS t)) 0 with
    | some r =>
      let s1 := s.setTline (s.recordKey t r) (recordPut (s.get (R.TBL_DESC.KEYN t)) e)
      some (s1.setTline (s1.bucketKey t b) (indexPut (s1.bucketLine t b) w (s1.tagOf t e.key) r true))
    | none => none
  else some (s.setTline (s.bucketKey t b) (compactPut (s.bucketLine t b) w (s.get (R.TBL_DESC.KEYN t)) e))

/-- The other candidate bucket of the entry in a way. -/
def State.otherBucket (s : State) (t b w : Nat) : Nat :=
  let k := (s.entryAt t b w).key
  if s.bucketOf t 0 k = b then s.bucketOf t 1 k else s.bucketOf t 0 k

/-- One step of the search: a way of the frontier's buckets whose entry's other bucket has a free way. -/
def State.findChain (s : State) (t : Nat) : Nat → List (List (Nat × Nat) × Nat) → Option (List (Nat × Nat) × Nat)
  | 0, _ => none
  | n + 1, frontier =>
    let steps := frontier.flatMap fun f =>
      ((List.range 4).filter fun w => !f.1.contains (f.2, w)).map fun w => (f.1 ++ [(f.2, w)], s.otherBucket t f.2 w)
    match steps.find? fun x => (s.freeWay t x.2).isSome with
    | some x => some x
    | none => s.findChain t n steps

/-- What is kept beside an entry moves with it: its posted hit writes and its last visit. -/
def State.moveMarks (s : State) (t b w b1 w1 : Nat) : State :=
  let here := visitKey t b w
  let last := SMap.find (fun _ => (0, 0)) s.tbl.visited here
  { s with tbl := { s.tbl with
      hits := if s.wide t then s.tbl.hits else s.tbl.hits.map fun h =>
        if h.2.1 = s.hitSlot t b w then (h.1, 8 * s.bucketKey t b1 + w1, h.2.2) else h
      visited := (s.tbl.visited.put (fun _ => (0, 0)) here (0, 0)).put (fun _ => (0, 0)) (visitKey t b1 w1) last } }

/-- Moves an entry, with its flags, into a free way; the old way is cleared after (R208). -/
def State.moveEntry (s0 : State) (t b w b1 w1 : Nat) : State :=
  let s := s0.moveMarks t b w b1 w1
  let raw := lget (s.bucketLine t b) (16 * w) 16
  let s1 := s.setTline (s.bucketKey t b1) (lset (s.bucketLine t b1) (16 * w1) 16 raw)
  (s1.setTline (s1.bucketKey t b) (lset (s1.bucketLine t b) (16 * w) 16 0)).wrap (R.TBL_FILL.MOVES t) 1

/-- Makes the moves of a chain from its free end backward; `dst` is the bucket with a free way. -/
def State.runChain (s : State) (t : Nat) : List (Nat × Nat) → Nat → State
  | [], _ => s
  | (b, w) :: rest, dst =>
    match s.freeWay t dst with
    | some w1 => (s.moveEntry t b w dst w1).runChain t rest b
    | none => s

/-- Inserts a new entry: a free way of a candidate bucket, the lowest of choice 0 first, or a chain of at most 4
displacements (R208). -/
def State.insertEntry (s : State) (t : Nat) (e : Entry) : Option State :=
  let b0 := s.bucketOf t 0 e.key
  let b1 := s.bucketOf t 1 e.key
  let place : Option (Nat × Nat × State) := match s.freeWay t b0, s.freeWay t b1 with
    | some w, _ => some (b0, w, s)
    | none, some w => some (b1, w, s)
    | none, none =>
      match s.findChain t 4 [([], b0), ([], b1)] with
      | some (path, dst) =>
        let u := s.runChain t path.reverse dst
        (path.head?).map fun (x : Nat × Nat) => (x.1, x.2, u)
      | none => none
  match place with
  | some (b, w, u) => (u.fillWay t b w e).map fun (v : State) => v.set (R.TBL_FILL.USED t) (v.get (R.TBL_FILL.USED t) + 1)
  | none => none

/-- The places of a key: bucket and way of every valid entry that holds it. -/
def State.placesOf (s : State) (t key : Nat) : List (Nat × Nat) :=
  let bs := if s.bucketOf t 0 key = s.bucketOf t 1 key then [s.bucketOf t 0 key] else [s.bucketOf t 0 key, s.bucketOf t 1 key]
  bs.flatMap fun b => ((List.range 4).filter fun w => (s.entryAt t b w).valid && (s.entryAt t b w).key == key).map fun w => (b, w)

/-- Every valid entry of a table in ascending order of position, 4 x bucket + way. -/
def State.entriesOf (s : State) (t : Nat) : List (Nat × Entry) :=
  let lo := s.bucketKey t 0
  (s.tbl.lines.filter fun l => decide (lo ≤ l.1 ∧ l.1 < lo + 2 ^ s.get (R.TBL_DESC.BBITS t))).flatMap fun l =>
    ((List.range 4).filter fun w => (s.entryAt t (l.1 - lo) w).valid).map fun w => (4 * (l.1 - lo) + w, s.entryAt t (l.1 - lo) w)

/-! ### Learning, hits and aging (R211, R213, R214) -/

/-- The entry that a learn event gives: the first 24 bits, or 16 B, of its data (R213). -/
def State.learned (s : State) (e : LearnEvent) : Entry :=
  let bytes := beBytes 8 e.data
  ⟨e.key, if s.wide e.table then leVal bytes else leVal (bytes.take 3), e.owner, 1⟩

/-- One learn event inserted. -/
def State.learnOne (s : State) (e : LearnEvent) : State :=
  if !exactKind (s.get (R.TBL_DESC.KIND e.table)) then s
  else if !(s.placesOf e.table e.key).isEmpty then s.sat R.TBL_LEARN.DUP 1
  else match s.insertEntry e.table (s.learned e) with
    | some u => { u with tbl := { u.tbl with
        fresh := (e.table, e.key, s.ns) :: u.tbl.fresh.filter fun x => decide (s.ns < x.2.2 + 31) } }
    | none => s.sat R.TBL_LEARN.FULL 1

/-- LEARN_INSERT (R213): the oldest learn event. -/
def execLearnInsert (s : State) : Out State :=
  complete true s (match s.tbl.learn with
    | [] => s
    | e :: es =>
      if s.forwarding && s.roleUp 1 then
        ({ s with tbl := { s.tbl with learn := es } }.set R.TBL_LEARN.DEPTH es.length).learnOne e
      else s)

/-- A posted hit write lands on its entry; one whose entry was removed is no longer posted. -/
def State.hitLands (s : State) (t slot key : Nat) : State :=
  let k := slot / 8
  let w := slot % 8
  let n := s.get (R.TBL_DESC.KEYN t)
  let e := if w = 4 then recordGet (s.tline k) n else compactGet (s.tline k) w n
  let off := if w = 4 then 60 else 16 * w + 14
  if e.valid && e.key == key then
    let v := lset (s.tline k) off 2 (e.flags ||| 2)
    { s.lineWrites k v with tbl := { s.tbl with lines := s.tbl.lines.put (fun _ => 0) k v } }
  else s

/-- HIT_WRITE (R211): the oldest posted hit write. -/
def execHitWrite (s : State) : Out State :=
  complete true s (match s.tbl.hits with
    | [] => s
    | (t, slot, key) :: rest =>
      if s.coreUp then { s with tbl := { s.tbl with hits := rest } }.hitLands t slot key else s)

/-- A visit of the aging sweep to the entry at a position (R214). -/
def State.ageEntry (s : State) (t pos : Nat) (e : Entry) : State :=
  let b := pos / 4
  let w := pos % 4
  if e.static || e.born || e.dying then s
  else if e.flags.testBit 1 then
    (if e.flags.testBit 2 then s.putEntry t b w { e with flags := bitsSet (bitsSet e.flags 1 1 0) 2 1 0 } else s.putHit t b w false)
  else if e.flags.testBit 2 then (s.clearEntry t b w).wrap (R.TBL_AGE.REMOVED t) 1
  else s.putEntry t b w { e with flags := bitsSet e.flags 2 1 1 }

/-- The entries of a table that sweep `n`, of period `period` ms, has yet to visit; and those of them whose last visit is that
long ago, or that none has visited. -/
def State.toVisit (s : State) (t n : Nat) : List (Nat × Entry) :=
  (s.entriesOf t).filter fun e => (SMap.find (fun _ => (0, 0)) s.tbl.visited (2 ^ 34 * t + e.1)).1 != n
def State.dueVisit (s : State) (t n period : Nat) : Option (Nat × Entry) :=
  (s.toVisit t n).find? fun e =>
    let v := SMap.find (fun _ => (0, 0)) s.tbl.visited (2 ^ 34 * t + e.1)
    v.1 == 0 || decide (v.2 + 1000000 * period ≤ s.ns)

/-- A visit that sweep `n` makes. -/
def State.visit (s : State) (t n pos : Nat) (e : Entry) : State :=
  State.ageEntry { s with tbl := { s.tbl with visited := s.tbl.visited.put (fun _ => (0, 0)) (2 ^ 34 * t + pos) (n, s.ns) } } t pos e

/-- The next visit of a table's sweep: the first entry that the sweep has not visited and whose own last visit is PERIOD ms ago.
When it has visited every entry the next sweep begins, with the PERIOD that the register then holds. -/
def State.ageNext (s : State) (t : Nat) : State :=
  let sw := SMap.find (fun _ => (0, 0)) s.tbl.sweep t
  let now := if sw.1 = 0 ∨ (s.toVisit t sw.1).isEmpty = true then (sw.1 + 1, s.get (R.TBL_AGE.PERIOD t)) else sw
  let u : State := { s with tbl := { s.tbl with sweep := s.tbl.sweep.put (fun _ => (0, 0)) t now } }
  match u.dueVisit t now.1 now.2 with
  | some (pos, e) => u.visit t now.1 pos e
  | none => u

/-- AGING_VISIT (R214). -/
def execAgingVisit (t : Nat) (s : State) : Out State :=
  complete (Instr.wf (.agingVisit t)) s
    (if s.forwarding && s.roleUp 2 && exactKind (s.get (R.TBL_DESC.KIND t)) && s.bit (R.TBL_DESC.AGE t) then s.ageNext t else s)

end Sys2Proof.Machine
end

