-- ==== Sys2Proof/Machine/TblCmd.lean ====
section
/-! DEFINITION. The table commands: TBL_INSERT, TBL_DELETE, TBL_SEARCH, TBL_NEXT, TBL_FLUSH_PORT (R215 to R221, R591). -/
namespace Sys2Proof.Machine

/-! ### Images (R216) -/

/-- Image `i` of a block. -/
def tblImage (block : List Byte) (i : Nat) : List Byte := slice block (128 * i) 128

/-- The fields of an image: the key as a number of `n` nibbles, and the result bytes. -/
def imgKind (img : List Byte) : Nat := leAt img 0 1
def imgSub (img : List Byte) : Nat := leAt img 1 1
def imgOwner (img : List Byte) : Nat := leAt img 4 4
def imgKey (img : List Byte) (n : Nat) : Nat := beAt img 16 40 / 16 ^ (80 - n)
def imgResult (img : List Byte) (bytes : Nat) : Nat := leAt img 64 bytes

/-- The nibbles of a table's key in an image, and the bytes of its result. -/
def State.imgKeyn (s : State) (t : Nat) : Nat := if s.get (R.TBL_DESC.KIND t) = 5 then 5 else s.get (R.TBL_DESC.KEYN t)
def resultBytes (kind : Nat) : Nat := match kind with | 1 => 24 | 2 => 3 | 3 => 16 | _ => 64

/-- The key's first bits, left-aligned in 128 bits, that a prefix of `plen` bits keeps. -/
def imgPrefix (img : List Byte) (plen : Nat) : Nat := beAt img 16 16 / 2 ^ (128 - plen) * 2 ^ (128 - plen)

/-- The image suits the table (R217, first row). -/
def State.imgGood (s : State) (t : Nat) (img : List Byte) (key : Bool) : Bool :=
  let kind := s.get (R.TBL_DESC.KIND t)
  let sub := imgSub img
  imgKind img == kind && zeroBytes img [(2, 2), (8, 8), (56, 8), (64 + resultBytes kind, 64 - resultBytes kind)] &&
    decide (imgOwner img < 2 ^ 21) &&
    (match kind with
    | 1 => decide (sub ≤ s.get (R.TBL_TRIE.PLEN_MAX t))
    | 5 => decide (sub < 4)
    | _ => sub == 0) &&
    (!key || kind != 4 || decide (imgKey img (s.imgKeyn t) < 2 ^ s.get (R.TBL_DESC.BBITS t)))

/-- The line that an image of a direct or context table names. -/
def State.imgLine (s : State) (t : Nat) (img : List Byte) : Nat :=
  let k := imgKey img (s.imgKeyn t)
  if s.get (R.TBL_DESC.KIND t) = 5 then s.tableKey t 1 (s.get (R.TBL_DESC.BASE t) + 4 * k + imgSub img) else s.bucketKey t k

/-- An image of the device's own: kind, sub-field, flags, owner, key of `n` nibbles, result. -/
def makeImage (kind sub flags owner key n result : Nat) : List Byte :=
  let head := record 16 [(0, 1, kind), (1, 1, sub), (2, 1, flags), (4, 4, owner)]
  head ++ beBytes 40 (key * 16 ^ (80 - n)) ++ leBytes 8 0 ++ leBytes 64 result

/-! ### Changes (R217) -/

/-- The flags of an inserted entry: VALID, STATIC, and BORN with the staged version under VERSIONED. -/
def insertFlags (static : Bool) (ver : Option Nat) : Nat :=
  1 + 8 * b2n static + (match ver with | some v => 16 + 256 * v | none => 0)

/-- The place of the entry that a change of a key meets: under VERSIONED one live at the staged version, else any. -/
def State.presentAt (s : State) (t key : Nat) (ver : Option Nat) : Option (Nat × Nat) :=
  (s.placesOf t key).find? fun x =>
    match ver with
    | some v => (s.entryAt t x.1 x.2).live s.oldest v
    | none => true

/-- Marks an entry dying at a version. -/
def State.markDying (s : State) (t : Nat) (x : Nat × Nat) (v : Nat) : State :=
  let e := s.entryAt t x.1 x.2
  s.putEntry t x.1 x.2 { e with flags := bitsSet (e.flags ||| 32) 12 4 v }

/-- An insert into an exact-match table. -/
def State.insertExact (s : State) (t : Nat) (img : List Byte) (replace static : Bool) (ver : Option Nat) : Nat ⊕ State :=
  let e : Entry := ⟨imgKey img (s.get (R.TBL_DESC.KEYN t)), imgResult img (resultBytes (s.get (R.TBL_DESC.KIND t))), imgOwner img,
    insertFlags static ver⟩
  match s.presentAt t e.key ver with
  | some x =>
    if !replace then .inl 9
    else match ver with
      | none => .inr (s.putEntry t x.1 x.2 e)
      | some v =>
        match s.insertEntry t e with
        | some u =>
          (match (u.placesOf t e.key).find? fun y => (u.entryAt t y.1 y.2).live u.oldest v && u.entryAt t y.1 y.2 != e with
          | some y => .inr (u.markDying t y v)
          | none => .inr (u.markDying t x v))
        | none => .inl 0xB
  | none =>
    match s.insertEntry t e with
    | some u => .inr u
    | none => .inl 0xB

/-- An insert into a trie: unversioned it sets the result, under VERSIONED it stages it (R202). -/
def State.insertPrefix (s : State) (t : Nat) (img : List Byte) (replace : Bool) (ver : Option Nat) : Nat ⊕ State :=
  let plen := imgSub img
  let r := imgResult img 24
  let old := s.findPrefix t plen (imgPrefix img plen)
  let base : Prefix := old.getD ⟨s.tbl.nextPrefix, t, plen, imgPrefix img plen, none, none⟩
  let here := match ver with | some _ => base.after.isSome | none => base.result.isSome || base.staged.isSome
  if here && !replace then .inl 9
  else s.changePrefix t (match ver with | some v => { base with staged := some (v, some r) } | none => { base with result := some r, staged := none })

/-- One image of TBL_INSERT: the reason on failure. -/
def State.insertImage (s : State) (t : Nat) (img : List Byte) (flags : Nat) : Nat ⊕ State :=
  let kind := s.get (R.TBL_DESC.KIND t)
  let versioned := flags.testBit 0
  if !s.imgGood t img true then .inl 1
  else if versioned && (kind == 4 || kind == 5 || s.staged.isNone) then .inl 4
  else
    let ver := if versioned then s.staged else none
    if kind = 1 then s.insertPrefix t img (flags.testBit 1) ver
    else if exactKind kind then s.insertExact t img (flags.testBit 1) (flags.testBit 2) ver
    else .inr (s.setTline (s.imgLine t img) (imgResult img 64))

/-- One image of TBL_DELETE: the reason on failure. A line of a direct or context table becomes 0. -/
def State.deleteImage (s : State) (t : Nat) (img : List Byte) (flags : Nat) : Nat ⊕ State :=
  let kind := s.get (R.TBL_DESC.KIND t)
  let versioned := flags.testBit 0
  if !s.imgGood t img true then .inl 1
  else if versioned && (kind == 4 || kind == 5 || s.staged.isNone) then .inl 4
  else
    let ver := if versioned then s.staged else none
    if kind = 1 then
      match s.findPrefix t (imgSub img) (imgPrefix img (imgSub img)) with
      | none => .inl 0xA
      | some p =>
        match ver with
        | some v => if p.after.isNone then .inl 0xA else s.changePrefix t { p with staged := some (v, none) }
        | none => s.changePrefix t { p with result := none, staged := none }
    else if exactKind kind then
      match s.presentAt t (imgKey img (s.get (R.TBL_DESC.KEYN t))) ver, ver with
      | none, _ => .inl 0xA
      | some x, some v => .inr (s.markDying t x v)
      | some x, none => .inr (s.clearEntry t x.1 x.2)
    else .inr (s.setTline (s.imgLine t img) 0)

/-- Images in order until one fails: how many stand, and the reason of the one that failed. -/
def applyImages (f : State → List Byte → Nat ⊕ State) : List (List Byte) → Nat → State → Nat × Option Nat × State
  | [], n, s => (n, none, s)
  | img :: rest, n, s =>
    match f s img with
    | .inl r => (n, some r, s)
    | .inr u => applyImages f rest (n + 1) u

/-- TBL_INSERT and TBL_DELETE: `mask` is the largest flag byte. -/
def State.tblChange (s : State) (seq code mask : Nat) (images : List Byte) (f : Nat → Nat → State → List Byte → Nat ⊕ State) : State :=
  s.runCmd seq code fun c t =>
    let n := c.op 18 2
    let tb := c.op 16 1
    if !c.formed [(20, 4), (32, 32)] || decide (mask < c.op 17 1) || n == 0 || decide (1024 < n) || c.op 24 8 % 64 != 0 ||
        t.get (R.TBL_DESC.KIND tb) == 0 then t.refuseAt seq 1 0xFFFF
    else
      let t1 := t.emitAll (t.pfReads (t.cmdPf c) (c.op 24 8) (128 * n))
      let r := applyImages (f tb (c.op 17 1)) ((List.range n).map (tblImage images)) 0 t1
      let t2 := if (c.op 17 1).testBit 0 && decide (0 < r.1) then r.2.2.noteStaged seq else r.2.2
      match r.2.1 with
      | none => t2.done seq [(16, 2, r.1)]
      | some reason => t2.finish seq 1 reason r.1 (if r.1 = 0 then 0 else t2.now) [(16, 2, r.1)]

/-- TBL_INSERT (R217); `images` is what the host memory returns. -/
def execTblInsert (seq : Nat) (images : List Byte) (s : State) : Out State :=
  complete true s (s.tblChange seq 0x01 7 images fun t fl u img => u.insertImage t img fl)

/-- TBL_DELETE (R217). -/
def execTblDelete (seq : Nat) (images : List Byte) (s : State) : Out State :=
  complete true s (s.tblChange seq 0x02 1 images fun t fl u img => u.deleteImage t img fl)

/-! ### TBL_SEARCH (R218, R232) -/

/-- The image of an entry, and of a prefix with the result given. -/
def State.entryImage (s : State) (t : Nat) (e : Entry) : List Byte :=
  makeImage (s.get (R.TBL_DESC.KIND t)) 0 (e.flags % 256) e.owner e.key (s.get (R.TBL_DESC.KEYN t)) e.result
def prefixImage (p : Prefix) (r : Nat) : List Byte := makeImage 1 p.plen 0 0 p.value 32 r

/-- The image of a direct or context line; `pos` is the index, or 4 x endpoint + quarter. -/
def State.lineImage (s : State) (t pos : Nat) : List Byte :=
  if s.get (R.TBL_DESC.KIND t) = 5 then makeImage 5 (pos % 4) 0 0 (pos / 4) 5 (s.tline (s.tableKey t 1 (s.get (R.TBL_DESC.BASE t) + pos)))
  else makeImage 4 0 0 0 pos (s.get (R.TBL_DESC.KEYN t)) (s.tline (s.bucketKey t pos))

/-- The image that a search finds at version `v`. -/
def State.searchTable (s : State) (t mode v : Nat) (img : List Byte) : Option (List Byte) :=
  let kind := s.get (R.TBL_DESC.KIND t)
  let o := s.oldest
  if mode = 2 then ((s.entriesOf t).find? fun x => x.2.owner == imgOwner img && x.2.live o v).map fun x => s.entryImage t x.2
  else if kind = 1 then
    let ps := s.tbl.prefixes.filter fun p => p.table == t
    if mode = 1 then
      (ps.foldl (fun (best : Option (Prefix × Nat)) p =>
        if p.covers (imgPrefix img 128) then
          match p.at_ o v, best with
          | some r, some b => if b.1.plen ≤ p.plen then some (p, r) else best
          | some r, none => some (p, r)
          | none, _ => best
        else best) none).map fun x => prefixImage x.1 x.2
    else
      match s.findPrefix t (imgSub img) (imgPrefix img (imgSub img)) with
      | some p => (p.at_ o v).map fun r => prefixImage p r
      | none => none
  else if exactKind kind then
    ((s.placesOf t (imgKey img (s.get (R.TBL_DESC.KEYN t)))).find? fun x => (s.entryAt t x.1 x.2).live o v).map fun x =>
      s.entryImage t (s.entryAt t x.1 x.2)
  else
    let k := imgKey img (s.imgKeyn t)
    some (s.lineImage t (if kind = 5 then 4 * k + imgSub img else k))

/-- TBL_SEARCH (R218). -/
def execTblSearch (seq : Nat) (image : List Byte) (s : State) : Out State :=
  complete true s (s.runCmd seq 0x03 fun c t =>
    let tb := c.op 16 1
    let mode := c.op 17 1
    let kind := t.get (R.TBL_DESC.KIND tb)
    let use := (c.op 18 1).testBit 7
    if !c.formed [(19, 5), (32, 32)] || decide (2 < mode) || c.op 18 1 / 16 % 8 != 0 || kind == 0 || (mode == 1 && kind != 1) ||
        (mode == 2 && !exactKind kind) then t.refuse seq 1
    else if use && !t.liveVersions.contains (c.op 18 1 % 16) then t.refuse seq 4
    else
      let t1 := t.emitAll (t.pfReads (t.cmdPf c) (c.op 24 8) 128)
      if !t1.imgGood tb (slice image 0 2 ++ [0] ++ slice image 3 61 ++ leBytes 64 0) (mode == 0) then t1.refuse seq 1
      else
        match t1.searchTable tb mode (if use then c.op 18 1 % 16 else t1.current) (slice image 0 128) with
        | some found => (t1.emitAll (t1.pfWrites (t1.cmdPf c) (c.op 24 8) found)).finish seq 4 0 0 0 []
        | none => t1.finish seq 5 0 0 0 [])

/-! ### TBL_NEXT (R219) -/

/-- The images of a table from a position on, at most `n`, each with the position after it. -/
def State.imagesFrom (s : State) (t pos n : Nat) : List (Nat × List Byte) :=
  let kind := s.get (R.TBL_DESC.KIND t)
  if kind = 1 then
    ((s.tbl.prefixes.filter fun p => p.table == t && decide (pos ≤ p.id)).filterMap fun p =>
      (p.at_ s.oldest s.current).map fun r => (p.id + 1, prefixImage p r)).take n
  else if exactKind kind then
    (((s.entriesOf t).filter fun e => decide (pos ≤ e.1)).take n).map fun e => (e.1 + 1, s.entryImage t e.2)
  else
    let all := if kind = 5 then 2 ^ 22 else 2 ^ s.get (R.TBL_DESC.BBITS t)
    (List.range (min n (all - pos))).map fun i => (pos + i + 1, s.lineImage t (pos + i))

/-- TBL_NEXT (R219): the cursor holds the next position in its low 32 bits and MOVES at the first call in its high 32; 0 starts
an iteration and ends it. -/
def execTblNext (seq : Nat) (s : State) : Out State :=
  complete true s (s.runCmd seq 0x04 fun c t =>
    let tb := c.op 16 1
    let n := c.op 18 2
    let cur := c.op 24 8
    if !c.formed [(17, 1), (20, 4), (40, 24)] || n == 0 || decide (1024 < n) || t.get (R.TBL_DESC.KIND tb) == 0 then t.refuse seq 1
    else
      let moves := t.get (R.TBL_FILL.MOVES tb)
      let start := if cur = 0 then moves else cur / 2 ^ 32
      let got := t.imagesFrom tb (cur % 2 ^ 32) n
      let last := match got.getLast? with | some x => x.1 | none => cur % 2 ^ 32
      let more := !(t.imagesFrom tb last 1).isEmpty
      let t1 := if got.isEmpty then t else t.emitAll (t.pfWrites (t.cmdPf c) (c.op 32 8) (got.flatMap (·.2)))
      t1.told seq [(16, 2, got.length), (24, 8, if more then last % 2 ^ 32 + start * 2 ^ 32 else 0),
        (32, 4, (moves + 2 ^ 32 - start) % 2 ^ 32)])

/-! ### TBL_FLUSH_PORT (R220, R591) -/

/-- The flush spares an entry: it was learned beside a version commit that began within 64 beats, and which way it goes is
open (KL-1); beats are counted at the floor. -/
def State.spared (s : State) (t key : Nat) : Bool × State :=
  let close (x : Nat) : Bool := decide (21 * (s.ns - x) ≤ 640)
  if (s.ver.takeNs.any close) && s.tbl.fresh.any (fun f => f.1 == t && f.2.1 == key && close f.2.2) then
    let d := s.draw
    (d.1 % 2 == 1, d.2)
  else (false, s)

/-- Flushes one entry; under VERSIONED one that is live at the staged version. -/
def State.flushEntry (s : State) (t owner : Nat) (static : Bool) (ver : Option Nat) (pos : Nat) (e : Entry) : Nat × State :=
  if e.owner ≠ owner ∨ (e.static = true ∧ static = false) ∨ (ver.any fun v => !e.live s.oldest v) = true then (0, s)
  else
    let sp := s.spared t e.key
    if sp.1 then (0, sp.2)
    else match ver with
      | some v => (1, sp.2.markDying t (pos / 4, pos % 4) v)
      | none => (1, sp.2.clearEntry t (pos / 4) (pos % 4))

/-- Flushes one table. -/
def State.flushTable (s : State) (t owner : Nat) (static : Bool) (ver : Option Nat) (n : Nat) : Nat × State :=
  (s.entriesOf t).foldl (fun (acc : Nat × State) e =>
    let r := acc.2.flushEntry t owner static ver e.1 e.2
    (acc.1 + r.1, r.2)) (n, s)

/-- TBL_FLUSH_PORT (R220). -/
def execTblFlushPort (seq : Nat) (s : State) : Out State :=
  complete true s (s.runCmd seq 0x05 fun c t =>
    let tb := c.op 16 1
    let fl := c.op 17 1
    let all := t.tablesOf (fun k => k != 0) |>.filter fun x => t.bit (R.TBL_DESC.FLUSH x)
    let odd := all.any fun x => t.get (R.TBL_DESC.KIND x) == 1 || t.get (R.TBL_DESC.KIND x) == 4
    if !c.formed [(18, 2), (24, 40)] || decide (3 < fl) || decide (2 ^ 21 ≤ c.op 20 4) ||
        (tb != 0xFF && !exactKind (t.get (R.TBL_DESC.KIND tb))) then t.refuse seq 1
    else if fl.testBit 0 && (t.staged.isNone || (tb == 0xFF && odd)) then t.refuse seq 4
    else
      let ver := if fl.testBit 0 then t.staged else none
      let ts := if tb = 0xFF then all.filter fun x => exactKind (t.get (R.TBL_DESC.KIND x)) else [tb]
      let r := ts.foldl (fun (acc : Nat × State) x => acc.2.flushTable x (c.op 20 4) (fl.testBit 1) ver acc.1) (0, t)
      if r.1 = 0 then r.2.told seq [(16, 4, 0)]
      else (if fl.testBit 0 then r.2.noteStaged seq else r.2).done seq [(16, 4, r.1)])

end Sys2Proof.Machine
end

