-- ==== Sys2Proof/Machine/Image.lean ====
section
/-! DEFINITION. The Trivapen image: header, directory, authentication, and the sections that LOAD applies (R486 to R502). -/
namespace Sys2Proof.Machine

/-! ### Header and directory (R487 to R490) -/

/-- A section as its directory entry gives it. -/
structure Section where
  type : Nat
  inst : Nat
  off : Nat
  len : Nat
  crc : Nat
  deriving DecidableEq, Repr

def imgVersion (img : List Byte) : Nat := leAt img 8 4
def imgCount (img : List Byte) : Nat := leAt img 12 1
def imgBank (img : List Byte) : Nat := leAt img 13 1
def imgLength (img : List Byte) : Nat := leAt img 16 8
def imgPublicKey (img : List Byte) : List Byte := slice img 32 96

/-- Check 1 of R491. -/
def headerFormed (img : List Byte) : Bool :=
  leAt img 0 4 == 0x50565254 && leAt img 4 4 == 1 && imgLength img % 64 == 0 && decide (imgLength img ≤ 2 ^ 28) &&
    leAt img 14 2 == 0 && leAt img 24 8 == 0

/-- Directory entry `i`. -/
def dirEntry (img : List Byte) (i : Nat) : Section :=
  let o := 128 + 32 * i
  ⟨leAt img o 1, leAt img (o + 1) 1, leAt img (o + 8) 8, leAt img (o + 16) 8, leAt img (o + 24) 4⟩

/-- The sections of an image, in directory order. -/
def sectionsOf (img : List Byte) : List Section := (List.range (imgCount img)).map (dirEntry img)

/-- The bytes of a section. -/
def Section.bytes (d : Section) (img : List Byte) : List Byte := slice img d.off d.len

/-- The type is listed in R489 with that number for its instance. -/
def Section.listed (d : Section) : Bool :=
  match d.type with
  | 0x01 => decide (d.inst < 2)
  | 0x02 | 0x03 | 0x05 | 0x09 | 0x0A => d.inst == 0
  | 0x04 | 0x06 | 0x07 => true
  | 0x08 => decide (d.inst < 16)
  | _ => false

/-- A directory entry keeps R488 and lies between the directory and the signature. -/
def Section.placed (d : Section) (img : List Byte) : Bool :=
  d.off % 64 == 0 && decide (2176 ≤ d.off) && decide (d.off + d.len + 96 ≤ imgLength img)

/-- Two sections overlap. -/
def Section.overlaps (d e : Section) : Bool := decide (d.off < e.off + e.len) && decide (e.off < d.off + d.len)

/-- No element stands in the given relation to a later one. -/
def pairsFree {α : Type} (bad : α → α → Bool) : List α → Bool
  | [] => true
  | a :: as => as.all (fun b => !bad a b) && pairsFree bad as

/-- The reserved bytes of the directory are 0, and so is every entry from the section count on. -/
def dirZeros (img : List Byte) : Bool :=
  (List.range 64).all fun i =>
    let o := 128 + 32 * i
    if i < imgCount img then leAt img (o + 2) 6 == 0 && leAt img (o + 28) 4 == 0 else leAt img o 32 == 0

/-- The types that every image holds, with their instances (R489). -/
def requiredSections (img : List Byte) : List (Nat × Nat) := [(0x01, imgBank img), (0x02, 0), (0x04, 0), (0x05, 0), (0x09, 0), (0x0A, 0)]

/-- Check 4 of R491: the directory is well formed. -/
def directoryGood (img : List Byte) : Bool :=
  let ds := sectionsOf img
  decide (1 ≤ imgCount img ∧ imgCount img ≤ 64) && dirZeros img && ds.all (fun d => d.listed && d.placed img) &&
    pairsFree (fun a b => a.type == b.type && a.inst == b.inst) ds && pairsFree Section.overlaps ds &&
    (requiredSections img).all fun r => ds.any fun d => d.type == r.1 && d.inst == r.2

/-- The first section whose CRC-32C differs from its directory entry. -/
def badCrc (img : List Byte) : Option Section := (sectionsOf img).find? fun d => crc32c (d.bytes img) != d.crc

/-- The section of a type and instance. -/
def sectionOf (img : List Byte) (type inst : Nat) : List Byte :=
  match (sectionsOf img).find? fun d => d.type == type && d.inst == inst with
  | some d => d.bytes img
  | none => []

/-- The fuse key hash, and whether it is all zero. -/
def fuseHash : List Byte := (List.range 48).map Config.keyHash
def fuseHashZero : Bool := fuseHash.all fun b => b == 0

/-- Checks 2 to 5 of R491 and the format check of R540 in their order: reason, and the section it names. -/
def imageReason (img : List Byte) : Option (Nat × Nat × Nat) :=
  let key := imgPublicKey img
  let n := imgLength img
  if fuseHashZero || Config.sha384 key != fuseHash then some (3, 0, 0)
  else if !Config.ecdsaVerifies key (Config.sha384 (slice img 0 (n - 96))) (slice img (n - 96) 96) then some (4, 0, 0)
  else if !directoryGood img then some (5, 0, 0)
  else match badCrc img with
    | some d => some (6, d.type, d.inst)
    | none => if bistGood (sectionOf img 9 0) then none else some (8, 9, 0)

/-! ### What a section that fails says (R494) -/

/-- Why an image fails LOAD: the reason, the failing record's section, instance and offset, and the check code; `place` none when
the check has no one record that fails. -/
structure LoadFail where
  reason : Nat
  place : Option (Nat × Nat × Nat)
  check : Nat
  deriving DecidableEq, Repr

/-- What applying a piece of the image leads to. -/
abbrev Load := LoadFail ⊕ State

/-- The next piece, when this one has been applied. -/
def Load.bind (x : Load) (f : State → Load) : Load := match x with | .inl e => .inl e | .inr s => f s

/-- A list of pieces in order. -/
def loadAll {α : Type} (f : State → α → Load) : List α → State → Load
  | [], s => .inr s
  | a :: as, s => match f s a with | .inl e => .inl e | .inr t => loadAll f as t

/-- A record of a section fails with reason 8. -/
def badRecord (d : Section) (off : Nat) : Load := .inl ⟨8, some (d.type, d.inst, off), 0⟩

/-! ### Register records (R499, R547) -/

/-- A register record that R499 accepts; COL_PROFILE.OVERHEAD reserves 0x40 (R313). -/
def State.recordGood (s : State) (off v : Nat) : Bool :=
  let fs := loadFields off
  let reset := (resetWord off).toNat
  off % 8 == 0 && !fs.isEmpty &&
    fs.foldl (fun x f => bitsSet x f.lo f.w (bitsGet reset f.lo f.w)) v == reset &&
    fs.all (fun f => decide (f.least ≤ bitsGet v f.lo f.w ∧ bitsGet v f.lo f.w ≤ f.most)) &&
    s.valueRules off v == (v, false) && !(off == 0x2A00000 && v.testBit 8) &&
    !(decide (0x1E00100 ≤ off ∧ off < 0x1E00180) && bitsGet v 0 7 == 0x40)

/-- The word with the fields of a record, which count as set. -/
def State.putRecord (s : State) (off v : Nat) : State :=
  let fs := loadFields off
  let w := fs.foldl (fun x f => bitsSet x f.lo f.w (bitsGet v f.lo f.w)) (s.word off).toNat
  { s.setWord off (BitVec.ofNat 64 w) with
    boot := { s.boot with touched := (fs.map fun f => (off, f.lo)) ++ s.boot.touched } }

/-- One register record of a section, at byte `at_` of it. -/
def State.applyRecord (s : State) (d : Section) (at_ off v : Nat) : Load :=
  if s.recordGood off v then .inr (s.putRecord off v) else badRecord d at_

/-- A register of the PORT_PROFILE section: PRISMk_PROFILE, PRISMk_PORTMAP or PRISMk_XTR (R489). -/
def profileReg (off : Nat) : Bool :=
  let r := off % 0x100000
  decide (0x800000 ≤ off ∧ off < 0x1800000) && (decide (0x100 ≤ r ∧ r < 0x180) || r == 0x180 || decide (0x1000 ≤ r ∧ r < 0x2000))

/-- The records of a REGISTERS or PORT_PROFILE section; a section that ends inside a record fails there. -/
def State.applyRegisters (s : State) (d : Section) (bs : List Byte) : Load :=
  (loadAll (fun (t : State) i =>
    let off := leAt bs (16 * i) 8
    if d.type = 2 ∧ profileReg off = false then badRecord d (16 * i) else t.applyRecord d (16 * i) off (leAt bs (16 * i + 8) 8))
    (List.range (bs.length / 16)) s).bind fun t => if bs.length % 16 = 0 then .inr t else badRecord d (bs.length / 16 * 16)

/-- The FAULTS section: FLT_REACT[0] to FLT_REACT[255] and FLT_CFG; for a reserved source 0 sets nothing and any other value
fails. -/
def State.applyFaults (s : State) (d : Section) (bs : List Byte) : Load :=
  if bs.length ≠ 2056 then badRecord d 0
  else loadAll (fun (t : State) n =>
    let v := leAt bs (8 * n) 8
    if n < 256 ∧ sourceListed n = false then (if v = 0 then .inr t else badRecord d (8 * n))
    else t.applyRecord d (8 * n) (if n = 256 then 0x200040 else 0x201000 + 8 * n) v) (List.range 257) s

/-! ### Classes (R498) -/

/-- The default BOUND in ns, PAUSE_ALLOW in µs and HOPS of a class. -/
def classDefault (c : Nat) : Nat × Nat × Nat :=
  match c with
  | 7 => (8000, 0, 2) | 6 => (20000, 0, 2) | 5 => (50000, 0, 2) | 4 => (200000, 20, 2)
  | 3 => (1000000, 100, 2) | 2 => (10000000, 2000, 2) | 1 => (100000000, 20000, 2) | _ => (2000000000, 500000, 2)

/-- The ports that are enabled. -/
def State.enabledPorts (s : State) : List Nat := (List.range 96).filter fun n => s.portMbps n != 0

/-- The longest frame time over the enabled ports, rounded up to a whole ns. -/
def State.blockDefault (s : State) : Nat :=
  s.enabledPorts.foldl (fun m n => max m (ceilDiv ((s.get (R.MAC_CFG.MAXF n) + 20) * 8000) (s.portMbps n))) 0

/-- A class given its parameters. -/
def State.putClass (s : State) (c bound pause hops : Nat) (bounded : Bool) (yclass block : Nat) : State :=
  (((((s.set (R.APR_BOUND.BOUND c) bound).set (R.APR_CLASS.PAUSE_ALLOW c) pause).set (R.APR_CLASS.HOPS c) hops).setBit
    (R.APR_CLASS.BOUNDED c) bounded).set (R.APR_CLASS.YCLASS c) yclass).set (R.APR_CLASS.BLOCK c) block

/-- A class given the defaults. -/
def State.putClassDefault (s : State) (c : Nat) : State :=
  let p := classDefault c
  s.putClass c p.1 p.2.1 p.2.2 true c s.blockDefault

/-- A class record is well formed: reserved bits 0 and, where it is VALID, every field in its range. -/
def classGood (bs : List Byte) (o : Nat) : Bool :=
  let f := leAt bs o 1
  decide (f < 4) && zeroBytes bs [(o + 3, 1), (o + 14, 18)] &&
    (!f.testBit 0 || (decide (leAt bs (o + 1) 1 < 8) && decide (leAt bs (o + 2) 1 < 16) && leAt bs (o + 4) 4 != 0 &&
      decide (leAt bs (o + 8) 4 < 2 ^ 24)))

/-- The CLASS section. -/
def State.applyClasses (s : State) (d : Section) (bs : List Byte) : Load :=
  if bs.length ≠ 256 then badRecord d 0
  else loadAll (fun (t : State) c =>
    let o := 32 * c
    if !classGood bs o then badRecord d o
    else if (leAt bs o 1).testBit 0 then
      .inr (t.putClass c (leAt bs (o + 4) 4) (leAt bs (o + 8) 4) (leAt bs (o + 2) 1) ((leAt bs o 1).testBit 1) (leAt bs (o + 1) 1)
        (leAt bs (o + 12) 2))
    else .inr (t.putClassDefault c)) (List.range 8) s

/-! ### Seeds (R500) -/

/-- The SEEDS section. -/
def State.applySeeds (s : State) (d : Section) (bs : List Byte) : Load :=
  if bs.length ≠ 4104 then badRecord d 0
  else if leAt bs 4096 8 / 2 ^ 40 ≠ 0 then badRecord d 4096
  else
    let seeds := (List.range 512).foldl (fun (m : SMap Nat) i => m.put (fun _ => 0) i (leAt bs (8 * i) 8)) s.tbl.seeds
    .inr { s with
      tbl := { s.tbl with seeds := seeds }
      mem := { s.mem with seed := leAt bs 4096 8 } }

/-! ### Memory (R501) -/

/-- A line of 64 B with `n` bytes from byte `o` on replaced. -/
def lineWith (line o : Nat) (bs : List Byte) : Nat := bitsSet line (8 * o) (8 * bs.length) (leVal bs)

/-- The bytes of a block cut into the lines of 64 B from a line boundary on: line index from the first, and its bytes. -/
def linesOf (bs : List Byte) : List (Nat × List Byte) :=
  (List.range (ceilDiv bs.length 64)).map fun i => (i, (bs.drop (64 * i)).take 64)

/-- A record that R603 accepts. -/
def aprGood (n : Nat) : Bool := decide (bitsGet n 240 12 ≤ 4088) && n / 2 ^ 254 % 4 == 0

/-- Half `h` of a line of aperture records whose first is that of endpoint `e`. -/
def State.putAprHalf (s : State) (e : Nat) (bs : List Byte) : State ⊕ Unit :=
  if bs.isEmpty then .inl s
  else
    let v := lineWith (s.aprRec e).encode 0 bs
    if aprGood v then .inl (s.setAprRec e (AprRec.decode v)) else .inr ()

/-- A line of aperture records written from its first byte; the endpoint of its first record is `e`. -/
def State.putAprLine (s : State) (e : Nat) (bs : List Byte) : State ⊕ Unit :=
  match s.putAprHalf e (bs.take 32) with
  | .inl t => t.putAprHalf (e + 1) (bs.drop 32)
  | .inr u => .inr u

/-- A line of the counter store written from its first byte: the halves of four pairs, the first of pair `i`. -/
def State.putPairLine (s : State) (i : Nat) (bs : List Byte) : State :=
  (List.range 8).foldl (fun (t : State) h =>
    let b := (bs.drop (8 * h)).take 8
    let old := SMap.find (fun _ => 0) t.cnt.pairs (2 * i + h)
    { t with cnt := { t.cnt with pairs := t.cnt.pairs.put (fun _ => 0) (2 * i + h) (lineWith old 0 b) } }) s

/-- The lines that a table may occupy in table SRAM overlap a run of lines. -/
def State.tableLines (s : State) (first n : Nat) : Bool :=
  (List.range 256).any fun t =>
    let r := s.sramRegion t
    decide (first < r.1 + r.2 ∧ r.1 < first + n)

/-- One line of table SRAM written by a MEMORY section: an aperture record, a counter pair, or a line of another region. -/
def State.putSramLine (s : State) (apr line : Nat) (bs : List Byte) : State ⊕ Unit :=
  let cnt := s.get R.CNT_STORE.BASE
  if apr / 64 ≤ line ∧ line < apr / 64 + 2 ^ 19 then s.putAprLine (2 * (line - apr / 64)) bs
  else if cnt ≤ line ∧ line < cnt + 4 * s.get R.CNT_STORE.COUNT16 then .inl (s.putPairLine (4 * (line - cnt)) bs)
  else .inl (s.setTline (lineKey 0 line) (lineWith (s.tline (lineKey 0 line)) 0 bs))

/-- The bytes that a far table occupies, from its first. -/
def State.farTable (s : State) (t : Nat) : Nat × Nat := (64 * s.get (R.TBL_DESC.BASE t), 64 * s.tableSize t)

/-- The lines of a table of the far space overlap a run of bytes. -/
def State.farTableLines (s : State) (a n : Nat) : Bool :=
  (List.range 256).any fun t => s.get (R.TBL_DESC.KIND t) != 0 && s.get (R.TBL_DESC.TIER t) == 2 &&
    (let r := s.farTable t; decide (a < r.1 + r.2 ∧ r.1 < a + n))

/-- The regions that the image reserves in a space: of table SRAM the aperture records and the counter store among them. -/
def State.reservedIn (s : State) (p : ImagePlan) : Nat → List (Nat × Nat)
  | 0 => (p.apertureBase, 2 ^ 25) :: (64 * s.get R.CNT_STORE.BASE, 256 * s.get R.CNT_STORE.COUNT16) :: p.sram
  | 1 => p.reserved
  | _ => p.far

/-- Every line that a MEMORY section writes lies within a region that the image reserves. -/
def State.regionsKept (s : State) (p : ImagePlan) (space a : Nat) (data : List Byte) : Bool :=
  (linesOf data).all fun x => (s.reservedIn p space).any fun r =>
    decide (r.1 ≤ a + 64 * x.1 ∧ a + 64 * x.1 + x.2.length ≤ r.1 + r.2)

/-- The MEMORY section. -/
def State.applyMemory (s : State) (p : ImagePlan) (d : Section) (bs : List Byte) : Load :=
  let a := leAt bs 8 8
  let data := bs.drop 16
  if bs.length < 16 ∨ leAt bs 1 7 ≠ 0 ∨ a % 64 ≠ 0 ∨ s.regionsKept p (leAt bs 0 1) a data = false then badRecord d 0
  else match leAt bs 0 1 with
    | 0 =>
      if 2 ^ 28 < a + data.length ∨ s.tableLines (a / 64) (ceilDiv data.length 64) = true then badRecord d 0
      else loadAll (fun (t : State) (x : Nat × List Byte) =>
        match t.putSramLine p.apertureBase (a / 64 + x.1) x.2 with
        | .inl u => .inr u
        | .inr _ => badRecord d (16 + 64 * x.1)) (linesOf data) s
    | 1 =>
      if s.dynSize < a + data.length then badRecord d 0
      else .inr ((linesOf data).foldl (fun (t : State) (x : Nat × List Byte) =>
        let m := t.interleave (a + 64 * x.1)
        t.setDynLine m.1 m.2 (lineWith (t.dynLine m.1 m.2) 0 x.2)) s)
    | 2 => if s.farInside a data.length && !s.farTableLines a data.length then .inr (s.emit (.memWrite true a data false)) else badRecord d 0
    | _ => badRecord d 0

/-! ### Tables and lenses (R495) -/

/-- The TABLE section of table `d.inst`: entry images, inserted unversioned with REPLACE = 0. -/
def State.applyTable (s : State) (d : Section) (bs : List Byte) : Load :=
  (loadAll (fun (t : State) i =>
    match t.insertImage d.inst (slice bs (128 * i) 128) 0 with
    | .inl _ => badRecord d (128 * i)
    | .inr u => .inr u) (List.range (bs.length / 128)) s).bind fun t =>
      if bs.length % 128 = 0 then .inr t else badRecord d (bs.length / 128 * 128)

/-- An entry image with its BORN and DYING bits 0. -/
def unversioned (img : List Byte) : List Byte := img.take 9 ++ leBytes 1 (leAt img 9 1 / 4 * 4) ++ img.drop 10

/-- The LENS section of array `d.inst`. -/
def State.applyLens (s : State) (d : Section) (bs : List Byte) : Load :=
  (loadAll (fun (t : State) i =>
    let img := unversioned (slice bs (192 * i) 192)
    match t.lensCheck d.inst 0 [] img with
    | some _ => badRecord d (192 * i)
    | none => .inr (t.lensApply d.inst 0 img)) (List.range (bs.length / 192)) s).bind fun t =>
      if bs.length % 192 = 0 then .inr t else badRecord d (bs.length / 192 * 192)

/-! ### Every section (R493) -/

/-- Every class at its defaults, for an image without a CLASS section. -/
def State.allClassDefaults (s : State) : State := (List.range 8).foldl (fun (t : State) c => t.putClassDefault c) s

/-- One section; a SCHEDULE section is kept for step L3. -/
def State.applySection (s : State) (img : List Byte) (p : ImagePlan) (d : Section) : Load :=
  let bs := d.bytes img
  match d.type with
  | 0x01 => if leAt bs 4 4 ≠ imgVersion img then badRecord d 0 else .inr { s with boot := { s.boot with scheds := s.boot.scheds ++ [(d.inst, bs)] } }
  | 0x02 | 0x04 => s.applyRegisters d bs
  | 0x03 => s.applyClasses d bs
  | 0x05 => s.applySeeds d bs
  | 0x06 => s.applyMemory p d bs
  | 0x07 => s.applyTable d bs
  | 0x08 => s.applyLens d bs
  | 0x0A => s.applyFaults d bs
  | _ => .inr s

/-- The sections of a type in ascending order of instance. -/
def ofType (img : List Byte) (type : Nat) : List Section :=
  (List.range 256).filterMap fun i => (sectionsOf img).find? fun d => d.type == type && d.inst == i

/-- The sections of every type in the order of R493, with the class defaults where no CLASS section stands. -/
def State.applySections (s : State) (img : List Byte) (p : ImagePlan) : Load :=
  let run (t : State) (types : List Nat) : Load := loadAll (fun (u : State) d => u.applySection img p d) (types.flatMap (ofType img)) t
  ((run s [4]).bind fun t => .inr (if (ofType img 3).isEmpty then t.allClassDefaults else t)).bind fun t =>
    run t [3, 2, 0x0A, 5, 6, 7, 8, 1]

/-! ### After the sections (R498, R502) -/

/-- A field that no section has set takes a value. -/
def State.untouched (s : State) (l : Loc) (v : Nat) : State := if s.boot.touched.contains (l.off, l.lo) then s else s.set l v

/-- The values of R502. -/
def State.imageDefaults (s : State) : State :=
  let s1 := (List.range 64).foldl (fun (t : State) i =>
    (t.untouched (R.IRIS_RETRY.BUDGET i) 600).untouched (R.IRIS_RETRY.ACK_TIMEOUT i) 200) s
  (List.range 8).foldl (fun (t : State) c =>
    (t.untouched (R.COL_CLASS.PRIO c) c).untouched (R.COL_CLASS.URGENT c) (t.get (R.APR_CLASS.BLOCK c))) s1

/-- A shaper of the image: full, its ticks counted from now. -/
def State.startShaper (s : State) (k rate burst weight : Nat) : State :=
  s.setShaper k { rate := rate, burst := burst, weight := weight, credit := if rate = 0 ∧ isReserved k = false then 0 else (burst * 65536 : Nat),
                  ticks := s.ns / tickOf k }

/-- The shapers of an output and of its classes, from their registers (R317, R319). -/
def State.outShapers (s : State) (o : Nat) : State :=
  (List.range 8).foldl (fun (t : State) c =>
    (t.startShaper (resKey o c) (t.get (R.COL_OC_RATE.RES o c)) (64 * t.get (R.COL_OC_BURST.RES_BURST o c)) 0).startShaper (maxKey o c)
      (t.get (R.COL_OC_RATE.MAX o c)) (64 * t.get (R.COL_OC_BURST.MAX_BURST o c)) 0)
    (s.startShaper o (s.get (R.COL_OUT.SHAPE o)) 16384 0)

/-- A map from a list of pairs. -/
def mapOf (l : List (Nat × Nat)) : SMap Nat := l.foldl (fun (m : SMap Nat) e => m.put (fun _ => 0) e.1 e.2) []

/-- What the image gives beside its sections' formats; a source is assigned to a prism, nothing else (R25). -/
def State.applyPlan (s : State) (p : ImagePlan) : State :=
  let s1 : State := { s with
    tbl := { s.tbl with regions := mapOf p.regions, sram := p.sram }
    mem := { s.mem with spillBase := p.spillBase, reserved := p.reserved, shadowBase := p.shadowBase, prefixBase := p.prefixBase }
    buf := { s.buf with wheel := p.wheel }
    host := { s.host with vfs := (List.range 8).map fun i => p.vfs.getD i 0 }
    apr := { s.apr with assigned := mapOf (p.assigned.filter fun x => decide (x.2 < 16)), base := p.apertureBase }
    col := { s.col with groupOut := mapOf p.groupOut, epGroup := mapOf p.epGroup }
    code := { s.code with roles := mapOf p.roles, share := mapOf p.share } }
  p.placements.foldl (fun (t : State) x => t.setPlacement x.1 ⟨some x.2.1, x.2.2.1, x.2.2.2.1, x.2.2.2.2⟩) s1

/-- The shapers of every output, group and endpoint. -/
def State.applyShapers (s : State) (p : ImagePlan) : State :=
  (p.shapers.filter fun x => !outputKey x.1).foldl (fun (t : State) x => t.startShaper x.1 x.2.1 x.2.2.1 x.2.2.2)
    ((List.range 99).foldl (fun (t : State) o => t.outShapers o) s)

/-- The sum of the reserved minima, and the shared pool of R269; negative when the image fails. -/
def State.minSum (s : State) : Nat := ((List.range 385).map fun a => s.get (R.BUF_ACCT.MIN a)).sum
def State.sharedPool (s : State) : Int := 786432 - (s.minSum : Int) - (s.get R.BUF_SPILL_CTRL.REFILL_RES : Int)

/-- The registers that LOAD computes: the pool, the fixed counters of an exposure, the active bank; command rings stay disabled
until software enables them. -/
def State.computed (s : State) (img : List Byte) : State :=
  let s1 := ((s.set R.BUF_POOL.SHARED s.sharedPool.toNat).set R.BUF_POOL.RESERVED s.minSum).set R.MCODE_ACTIVE.BANK (imgBank img)
  let s2 := s1.set R.CNT_EXPOSE.NREG counterOffs.length
  { (List.range 64).foldl (fun (t : State) r => t.setBit (R.CMD_RING.ENABLE r) false) s2 with boot := { s2.boot with key := imgPublicKey img } }

/-! ### The checks of the whole image (R494) -/

/-- A check of the content: whether it holds, and the register whose record it judges, where it judges one alone. -/
abbrev Check := Bool × Option Nat

/-- R168: field `f` of the extractor of a prism's profile. -/
def State.fieldGood (s : State) (k j f : Nat) : Bool :=
  let n := if s.get (R.PRISM_XTR.LEN k j f) = 0 then 16 else s.get (R.PRISM_XTR.LEN k j f)
  let dst := s.get (R.PRISM_XTR.DST k j f)
  !rangeRO (dst, n) && decide (dst + n ≤ 1024) && decide (s.get (R.PRISM_XTR.SRC k j f) + n ≤ 512)

/-- R168: the profiles and extractor fields of a prism. -/
def State.profileChecks (s : State) (k : Nat) : List Check :=
  (List.range 16).flatMap fun j =>
    (decide (s.get (R.PRISM_PROFILE.LAST_PARSE k j) ≤ 29), some (R.PRISM_PROFILE.LAST_PARSE k j).off) ::
      (List.range (s.get (R.PRISM_PROFILE.FIELDS k j))).map fun f => (s.fieldGood k j f, some (R.PRISM_XTR.LEN k j f).off)

/-- R177: profile `j` of a lens array. -/
def State.lensProfileGood (s : State) (a j : Nat) : Bool :=
  let n := s.get (R.LENS_PROFILE.KLEN a j)
  decide (n ≤ 80) && decide (s.get (R.LENS_PROFILE.FIRST_BLOCK a j) ≤ s.get (R.LENS_PROFILE.LAST_BLOCK a j)) &&
    (!s.bit (R.LENS_PROFILE.PF_EN a j) ||
      (decide (s.get (R.LENS_PROFILE.PF0 a j) < n) && decide (s.get (R.LENS_PROFILE.PF1 a j) < n) &&
        decide (s.get (R.LENS_PROFILE.PF2 a j) < n)))

/-- R194: a table read profile of port kind `k` names a table, a tier and a port that its operation allows. -/
def State.readProfileGood (s : State) (k j : Nat) : Bool :=
  let t := s.get (R.TBL_PROF.TABLE k j)
  let kind := s.get (R.TBL_DESC.KIND t)
  let tier := s.get (R.TBL_DESC.TIER t)
  let level := s.get (R.TBL_PROF.LEVEL k j)
  match s.get (R.TBL_PROF.OP k j) with
  | 0 => true
  | 1 => kind == 4 && tier == k && decide (s.get (R.TBL_PROF.KEYN k j) ≤ 8)
  | 2 => kind == 1 && k == 0
  | 3 => kind == 1 && decide (1 ≤ level ∧ level ≤ s.get (R.TBL_PLAN.L t)) && s.childTier t level == k
  | 4 => (kind == 2 || kind == 3) && tier == k
  | 5 => kind == 3 && tier == k
  | 6 => kind == 5 && tier == 1 && k == 1
  | 7 => (kind == 2 || kind == 3) && k == 0
  | _ => false

/-- R195: the plan of a trie. -/
def State.trieGood (s : State) (t : Nat) : Bool :=
  s.get (R.TBL_DESC.KIND t) != 1 ||
    (let n := s.get (R.TBL_DESC.KEYN t)
     let len := s.get (R.TBL_TRIE.PLEN_MAX t)
     let sum := s.levelStart t (s.get (R.TBL_PLAN.L t) + 1)
     decide (1 ≤ n ∧ n ≤ 32) && decide (1 ≤ len ∧ len ≤ 4 * n) && decide (ceilDiv len 4 ≤ sum ∧ sum ≤ n))

/-- R190, R204 to R206: a table's kind, the tier that its kind may occupy, and the sizes of an exact-match table. -/
def State.kindGood (s : State) (t : Nat) : Bool :=
  let tier := s.get (R.TBL_DESC.TIER t)
  let keyn := s.get (R.TBL_DESC.KEYN t)
  let bbits := s.get (R.TBL_DESC.BBITS t)
  match s.get (R.TBL_DESC.KIND t) with
  | 0 => true
  | 1 => tier == 0
  | 2 => decide (tier ≤ 2) && decide (10 ≤ bbits ∧ bbits ≤ 28) && decide (1 ≤ keyn ∧ keyn ≤ 16)
  | 3 => decide (tier ≤ 2) && decide (10 ≤ bbits ∧ bbits ≤ 28) && decide (1 ≤ keyn ∧ keyn ≤ 80)
  | 4 => decide (tier ≤ 2)
  | 5 => tier == 1
  | _ => false

/-- R191, R409, R411: a table in HBM has as many replicas as its factor says, each within the forwarding area of its group. -/
def State.replicaGood (s : State) (t : Nat) : Bool :=
  (s.hbmRegion t).2 == 0 ||
    (s.factorKept t && decide ((s.hbmRegion t).1 + (s.hbmRegion t).2 ≤ 32 * s.get R.HBM_CFG.FWD_LINES))

/-- R190: every table, and one endpoint context table at most. -/
def State.tableChecks (s : State) : List Check :=
  ((List.range 256).flatMap fun t => [(s.kindGood t, some (R.TBL_DESC.KIND t).off), (s.replicaGood t, none)]) ++
    [(decide ((s.tablesOf fun k => k == 5).length ≤ 1), none)]

/-- R269: the shared pool, and the minimum of each port account. -/
def State.poolGood (s : State) : Bool :=
  decide (0 ≤ s.sharedPool) &&
    (List.range 96).all fun a => decide (2 * ceilDiv (s.get (R.MAC_CFG.MAXF a)) 256 ≤ s.get (R.BUF_ACCT.MIN a))

/-- R295: a source. -/
def State.sourceGood (s : State) (x : Nat) : Bool :=
  let m := s.get (R.APR_SRC.EMODE x)
  decide (m ≤ 1) && decide (s.get (R.APR_SRC.CSRC x) ≤ 2) && (m == 0 || (decide (x < 96) && decide (s.get (R.APR_SRC.EP_BASE x) ≤ 1044480)))

/-- R304, first and second case: the blocking allowances of the classes, and the crypto rates. -/
def State.blockChecks (s : State) : List Check :=
  ((List.range 8).map fun c => (s.enabledPorts.all (fun n =>
    decide ((s.get (R.MAC_CFG.MAXF n) + 20) * 8000 ≤ s.get (R.APR_CLASS.BLOCK c) * s.portMbps n)), some (R.APR_CLASS.BLOCK c).off)) ++
    [(decide (((List.range 8).map fun c => s.get (R.APR_XRATE.XRATE c)).sum ≤ 8000000), none)]

/-- No two classes share a priority (COL_CLASS). -/
def State.priosGood (s : State) : Bool := decide ((List.range 8).map fun c => s.get (R.COL_CLASS.PRIO c)).Nodup

/-- R344: the credit of the enabled irises. -/
def State.creditChecks (s : State) : List Check :=
  let on := (List.range 64).filter fun i => s.bit (R.IRIS_CTRL.ENABLE i)
  (on.map fun i => (decide (64 ≤ s.get (R.IRIS_CREDIT.LIMIT i) ∧ s.get (R.IRIS_CREDIT.LIMIT i) ≤ 2048), some (R.IRIS_CREDIT.LIMIT i).off)) ++
    [(decide ((on.map fun i => s.get (R.IRIS_CREDIT.LIMIT i)).sum ≤ s.get (R.BUF_ACCT.MIN 384)), none)]

/-- R380: the FEC codes that a speed allows. -/
def fecGood (speed fec : Nat) : Bool :=
  match speed with
  | 0 => true
  | 1 => decide (fec ≤ 1)
  | 2 => decide (fec ≤ 2)
  | _ => fec == 3

/-- R381: the mode, FEC and MAXF of a MAC. -/
def State.macGood (s : State) (n : Nat) : Bool :=
  let sp := s.get (R.MAC_CFG.SPEED n)
  decide (sp ≤ 7) && fecGood sp (s.get (R.MAC_CFG.FEC n)) && !(sp == 7 && n % 2 == 1) && !(s.upperMac n && sp != 0) &&
    decide (1518 ≤ s.get (R.MAC_CFG.MAXF n) ∧ s.get (R.MAC_CFG.MAXF n) ≤ 16383)

/-- R409 and R416: the forwarding area and the interleave. -/
def State.hbmGood (s : State) : Bool :=
  s.get R.HBM_CFG.FWD_LINES % 128 == 0 && decide (s.get R.HBM_CFG.FWD_LINES ≤ pcLines) &&
    s.dynSize % (256 * (256 * 2 ^ s.get R.HBM_CFG.GRAIN)) == 0

/-- The entries of a far table: the first line that holds one, how many lines do, and how many each holds. -/
def State.farEntries (s : State) (t : Nat) : Nat × Nat × Nat :=
  let n := 2 ^ s.get (R.TBL_DESC.BBITS t)
  let base := s.get (R.TBL_DESC.BASE t)
  match s.get (R.TBL_DESC.KIND t) with
  | 2 => (base, n, 4)
  | 3 => (base + n, 4 * n, 1)
  | _ => (base, n, 1)

/-- R192: at most 2^30 entries of a far table lie on each port, and 16 x 2^30 in all. -/
def State.farCount (s : State) (t : Nat) : Bool :=
  let e := s.farEntries t
  decide (e.2.1 * e.2.2 ≤ 16 * 2 ^ 30) && (List.range 16).all fun f =>
    decide ((min (e.1 + e.2.1) ((f + 1) * 2 ^ 35) - max e.1 (f * 2 ^ 35)) * e.2.2 ≤ 2 ^ 30)

/-- A far range that may span ports lies within the capacity of each. -/
def State.farSpan (s : State) (a len : Nat) : Bool :=
  decide (a + len ≤ 2 ^ 45) && (List.range 16).all fun f =>
    let lo := f * 2 ^ 41
    !decide (a < lo + 2 ^ 41 ∧ lo < a + len) || decide (min (a + len) (lo + 2 ^ 41) - lo ≤ s.farBytes f)

/-- R429: far tables, capture rings and spill ranges lie within their ports. -/
def State.farChecks (s : State) : List Check :=
  ((List.range 256).map fun t => (s.get (R.TBL_DESC.KIND t) == 0 || s.get (R.TBL_DESC.TIER t) != 2 ||
    (let r := s.farTable t; s.farSpan r.1 r.2 && s.farCount t), some (R.TBL_DESC.BASE t).off)) ++
  ((List.range 16).map fun k => (!s.bit (R.MIR_RING.VALID k) ||
    s.farInside (2 ^ 16 * s.get (R.MIR_RING.BASE k)) (2 ^ 16 * s.get (R.MIR_RING.EXTENTS k)), some (R.MIR_RING.BASE k).off)) ++
  (List.range 16).map fun f => (s.get (R.FAR_SPILL.EXTENTS f) == 0 ||
    decide (2 ^ 16 * (s.get (R.FAR_SPILL.BASE f) + s.get (R.FAR_SPILL.EXTENTS f)) ≤ s.farBytes f), some (R.FAR_SPILL.EXTENTS f).off)

/-- R551: a counter profile; SET 0 stands for 16. -/
def State.counterGood (s : State) (j : Nat) : Bool :=
  let set := if s.get (R.CNT_PROF.SET j) = 0 then 16 else s.get (R.CNT_PROF.SET j)
  decide (16 * s.get (R.CNT_PROF.BASE j) + s.get (R.CNT_PROF.LIMIT j) * set ≤ s.storePairs)

/-- Every check of the image's content that needs no loaded bank (R494, reason 8). -/
def State.contentChecks (s : State) : List Check :=
  (List.range 16).flatMap s.profileChecks ++
    ((List.range 16).flatMap fun a => (List.range 16).map fun j => (s.lensProfileGood a j, some (R.LENS_PROFILE.KLEN a j).off)) ++
    ((List.range 3).flatMap fun k => (List.range 16).map fun j => (s.readProfileGood k j, some (R.TBL_PROF.OP k j).off)) ++
    ((List.range 256).map fun t => (s.trieGood t, none)) ++ s.tableChecks ++ [(s.poolGood, none)] ++
    ((List.range 384).map fun x => (s.sourceGood x, some (R.APR_SRC.EMODE x).off)) ++ s.blockChecks ++ [(s.priosGood, none)] ++
    s.creditChecks ++ [(!s.bit (R.SWC_DQ.VALID 65535), some (R.SWC_DQ.VALID 65535).off)] ++
    ((List.range 96).map fun n => (s.macGood n, some (R.MAC_CFG.SPEED n).off)) ++ [(s.hbmGood, some R.HBM_CFG.FWD_LINES.off)] ++
    s.farChecks ++ ((List.range 16).map fun j => (s.counterGood j, some (R.CNT_PROF.BASE j).off)) ++
    [(decide (s.host.vfs.sum ≤ 4096), none)]

/-- The first check that fails: the register that it judges, where it judges one alone. -/
def firstBad (l : List Check) : Option (Option Nat) := (l.find? fun c => !c.1).map (·.2)

/-- The record that gives a class or a register its value, the last of those that name it: type, instance and byte offset (R494, R498,
R499); none where no record does. -/
def recordOf (img : List Byte) (off : Nat) : Option (Nat × Nat × Nat) :=
  let class_ : List (Nat × Nat × Nat) := (ofType img 3).flatMap fun d => (List.range 8).filterMap fun c =>
    if off = (R.APR_CLASS.BLOCK c).off ∧ (leAt (d.bytes img) (32 * c) 1).testBit 0 = true then some (3, d.inst, 32 * c) else none
  let regs : List (Nat × Nat × Nat) := ([4, 2].flatMap (ofType img)).flatMap fun d => (List.range (d.len / 16)).filterMap fun i =>
    if leAt (d.bytes img) (16 * i) 8 = off then some (d.type, d.inst, 16 * i) else none
  (regs ++ class_).getLast?

/-- R324: the reserved rates of every output, and the urgency windows of the bounded classes (check BOUND). -/
def State.ratesGood (s : State) : Bool :=
  (List.range 99).all (fun o => !s.overbooked o (s.reservedSum o none) (s.get (R.COL_OUT.SHAPE o))) &&
    (List.range 8).all fun c => !s.bit (R.APR_CLASS.BOUNDED c) || decide (s.get (R.APR_CLASS.BLOCK c) ≤ s.get (R.COL_CLASS.URGENT c))

/-- R342: the acknowledgement timeouts (check FORMAT). -/
def State.timeoutChecks (s : State) : List Check :=
  (List.range 64).map fun i => (decide (50 ≤ s.get (R.IRIS_RETRY.ACK_TIMEOUT i) ∧ s.get (R.IRIS_RETRY.ACK_TIMEOUT i) ≤ 400),
    some (R.IRIS_RETRY.ACK_TIMEOUT i).off)

/-- The reservation bases that the endpoints' records name. -/
def State.resBases (s : State) : List Nat :=
  let l := (s.apr.recs.map fun e => e.2.resBase).eraseDups
  if s.apr.recs.length < 2 ^ 20 then 0 :: l else l

/-- R304, third case: some class has no budget left for a reservation that an endpoint's record names. -/
def State.reservesGood (s : State) : Bool :=
  (List.range 8).all fun c => s.resBases.all fun b =>
    let r := b + c
    s.get (R.APR_RES.RATE r) == 0 ||
      ((List.range 16).all fun p => (List.range 2).all fun bank => !s.bit (R.MCODE_VERSION.LOADED bank) ||
        ((s.fixedBeats p bank).add (Ratio.nat ((if s.bit (R.APR_RES.FABRIC r) then s.get (R.APR_CLASS.HOPS c) * 1200 else 0) +
          s.get (R.APR_RES.E_OUT_MAX r)))).lt (Ratio.nat (s.get (R.APR_BOUND.BOUND c))))

end Sys2Proof.Machine
end

