-- ==== Sys2Proof/Machine/Boot.lean ====
section
/-! DEFINITION. Start-up: flash discovery, authentication, self-test of PROVE, LOAD and its steps, entry to SERVE, and PPS_OUT
(R428, R477, R478, R484 to R497, R541, R586). -/
namespace Sys2Proof.Machine

/-! ### A slot that fails (R494, R496) -/

/-- Registers that the loader leaves when it unloads a slot: those a chip reset leaves, the BIST block, and the far ports, whose
enumeration is no part of an image. The fields that an image has set go back to their reset values one by one. -/
def unloadKeeps (off : Nat) : Bool :=
  safeOff off || decide (0x2600000 ≤ off ∧ off < 0x2700000) || decide (0x2A00000 ≤ off ∧ off < 0x2B00000)

/-- Every block that the loader has written returns to its reset value. -/
def State.unload (s : State) : State :=
  let s1 := s.unloadFields
  { s1 with
    regs := keepKeys unloadKeeps s1.regs
    cnt := { s1.cnt with pairs := [] }
    buf := {}
    apr := {}
    col := {}
    mac := {}
    irises := []
    fab := {}
    host := { s1.host with vfs := [0, 0, 0, 0, 0, 0, 0, 0] }
    code := {}
    lens := {}
    tbl := {}
    ver := {}
    mig := {}
    mem := {}
    boot := { s1.boot with good := none, farDone := false, scheds := [], applied := false, checked := false, key := [], touched := [] } }

/-- BOOT_SLOT of a slot that fails. Where no one record fails, SECTION, INSTANCE and OFFSET hold open values. -/
def State.slotReason (s : State) (slot : Nat) (e : LoadFail) : State :=
  let s1 := (s.set (R.BOOT_SLOT.REASON slot) e.reason).set (R.BOOT_SLOT.CHECK slot) e.check
  match e.place with
  | some (ty, i, off) => ((s1.set (R.BOOT_SLOT.SECTION slot) ty).set (R.BOOT_SLOT.INSTANCE slot) i).set (R.BOOT_SLOT_OFF.OFFSET slot) off
  | none =>
    let a := s1.draw
    let b := a.2.draw
    let c := b.2.draw
    ((c.2.set (R.BOOT_SLOT.SECTION slot) a.1).set (R.BOOT_SLOT.INSTANCE slot) b.1).set (R.BOOT_SLOT_OFF.OFFSET slot) c.1

/-- A slot fails: reason 9 raises LOAD_SCHED; slot B is next after slot A where it exists, and otherwise the device enters SAFE. -/
def State.failSlot (s : State) (slot : Nat) (e : LoadFail) : State :=
  let s1 := s.slotReason slot e
  let s2 := if e.reason = 9 then s1.raise 12 0 else s1
  if s2.fault.chipReset then s2
  else if slot = 0 ∧ s2.boot.hasB = true then
    let t := s2.unload
    (({ t with boot := { t.boot with next := 1 } }.set R.BOOT_STATUS.SLOT 3).set R.BOOT_STATUS.STEP 2)
  else (s2.set R.BOOT_STATUS.SLOT 3).toSafe 2

/-! ### P1: the flash (R484, R486) -/

/-- The SFDP tables are read; `octal` says that they advertise the 8D-8D-8D profile. -/
def State.discover (s : State) (sfdpValid octal : Bool) (densityMib : Nat) : State :=
  if sfdpValid then
    let s0 := s.emitAll (if octal then [.flashSfdp, .flashOctal] else [.flashSfdp])
    let s1 := ((s0.set R.BOOT_FLASH.DENSITY densityMib).set R.BOOT_FLASH.MODE (if octal then 2 else 1)).set R.BOOT_FLASH.FREQ
      (if octal then 200 else 50)
    let s2 : State := { s1 with boot := { s1.boot with found := true, hasB := decide (512 ≤ densityMib) } }
    (if densityMib < 512 then s2.set (R.BOOT_SLOT.REASON 1) 1 else s2).set R.BOOT_STATUS.STEP 2
  else (((s.emit .flashSfdp).set (R.BOOT_SLOT.REASON 0) 1).set (R.BOOT_SLOT.REASON 1) 1).toSafe 2

/-- The flash byte at which a slot starts (R486). -/
def slotBase (slot : Nat) : Nat := if slot = 0 then 0 else 0x10000000

/-- The loader works: PROVE or LOAD, and no chip reset has been raised (R506). -/
def State.loading (s : State) : Bool := (s.mode == .prove || s.mode == .load) && !s.fault.chipReset

/-- FLASH_DISCOVERY (R484): after 10 µs of XSPI_RESET_N and 1 ms more; PROVE begins at timebase 0 (R400). -/
def execFlashDiscovery (sfdpValid octal : Bool) (densityMib : Nat) (s : State) : Out State :=
  complete (Instr.wf (.flashDiscovery sfdpValid octal densityMib)) s
    (if s.mode == .prove && !s.fault.chipReset && !s.boot.found && decide (1010000 ≤ s.ns) then s.discover sfdpValid octal densityMib else s)

/-! ### P2 and P3: authentication and self-test (R491, R496, R541) -/

/-- LOAD begins, or begins again with the other slot. -/
def State.enterLoad (s : State) : State :=
  (if s.mode == .load then s else { s with mode := .load, prev := .prove }).set R.BOOT_STATUS.STEP 4

/-- A slot authenticates: BIST runs unless it has passed for this very BIST section. -/
def State.authenticated (s : State) (slot : Nat) (img : List Byte) : State :=
  let sec := sectionOf img 9 0
  let g : GoodSlot :=
    { slot := slot
      digest := Config.sha384 (slice img 0 (imgLength img))
      key := imgPublicKey img
      bist := sec
      version := imgVersion img }
  let s1 := { s with boot := { s.boot with good := some g } }.set R.BOOT_STATUS.SLOT slot
  if s1.boot.bistDone = some sec then s1.enterLoad
  else
    let s2 : State := { s1 with bist := { s1.bist with section_ := sec } }
    ((s2.beginPlan 0).set R.BIST_STATUS.STATE 1).set R.BOOT_STATUS.STEP 3

/-- The slot to authenticate is read once and checked in the order of R491. -/
def State.authenticate (s0 : State) (img : List Byte) : State :=
  let slot := s0.boot.next
  let s := s0.emit (.flashRead (slotBase slot))
  if !headerFormed img then s.failSlot slot ⟨2, some (0, 0, 0), 0⟩
  else
    let s1 := s.set (R.BOOT_SLOT.VERSION slot) (imgVersion img)
    match imageReason img with
    | some (r, ty, i) => s1.failSlot slot ⟨r, some (ty, i, 0), 0⟩
    | none => s1.authenticated slot img

/-- SLOT_AUTHENTICATE (R491); `image` is the slot as the flash returns it. -/
def execSlotAuthenticate (image : List Byte) (s : State) : Out State :=
  complete (Instr.wf (.slotAuthenticate image)) s
    (if s.loading && s.boot.found && s.boot.good.isNone && s.bist.plan.isNone && decide (s.boot.next < 2) then s.authenticate image
    else s)

/-- A plan ends: in PROVE and LOAD a failure leads to SAFE and success to LOAD; in SERVE the window stays open (R541, R546). -/
def State.planEnd (s : State) : State :=
  let fails := s.get R.BIST_STATUS.FAILS
  let s1 := ({ s with bist := { s.bist with plan := none } }.set R.BIST_STATUS.STATE (if fails = 0 then 5 else 6)).set R.BIST_CTRL.START 0
  if s.mode == .serve then s1
  else if fails = 0 then { s1.emptyMemories with boot := { s1.boot with bistDone := some s.bist.section_ } }.enterLoad
  else s1.toSafe 1

/-- Every group of the plan has started, and has ended 0.25 ms ago (R539). -/
def State.planOver (s : State) : Bool :=
  s.bist.plan.isSome && s.bist.toStart.isEmpty && s.bist.running.isEmpty && decide (s.bist.endNs + 250000 ≤ s.ns)

/-- BIST_PLAN_END (R541). -/
def execBistPlanEnd (s : State) : Out State :=
  complete true s
    (if (s.loading || s.mode == .serve) && s.planOver then s.planEnd else s)

/-! ### L1: far ports and HBM (R428, R497) -/

/-- A far link of a supported form: lanes and rate code. -/
def farLinkGood (width rate : Nat) : Bool := (rate == 2 && width == 8) || (rate == 1 && (width == 8 || width == 4))

/-- One far port enumerated: lanes trained, rate code, capacity in GiB, of which at most 2 TiB are used; its device's HDM decoder is programmed
to base 0 (R428, R497). -/
def State.enumerate (s : State) (f : Nat) (x : Nat × Nat × Nat) : State :=
  if farLinkGood x.1 x.2.1 ∧ 0 < x.2.2 then
    ((((s.setBit (R.FAR_PORT.UP f) true).set (R.FAR_PORT.WIDTH f) x.1).set (R.FAR_PORT.RATE f) x.2.1).set (R.FAR_PORT.CAPACITY f)
      (min x.2.2 2048)).emit (.farDecoder f (min x.2.2 2048))
  else
    ((((s.setBit (R.FAR_PORT.UP f) false).set (R.FAR_PORT.WIDTH f) 0).set (R.FAR_PORT.RATE f) 0).set (R.FAR_PORT.CAPACITY f) 0).raise
      (224 + f) f

/-- Every far port enumerated, and HBM cleared. -/
def State.farStep (s : State) (ports : List (Nat × Nat × Nat)) : State :=
  let s1 := { s with
    power := { s.power with farPerstN := true }
    mem := { s.mem with hbm := [], bad := [] } }.emit (.farPerst true)
  let s2 := (List.range 16).foldl (fun (t : State) f => t.enumerate f (ports.getD f (0, 0, 0))) s1
  { s2 with boot := { s2.boot with farDone := true } }.set R.BOOT_STATUS.STEP 5

/-- FAR_PORT_ENUMERATE (R428); `ports` holds for each port its lanes, rate code and capacity, as training finds them. -/
def execFarPortEnumerate (ports : List (Nat × Nat × Nat)) (s : State) : Out State :=
  complete (Instr.wf (.farPortEnumerate ports)) s
    (if s.mode == .load && !s.fault.chipReset && s.boot.good.isSome && s.bist.plan.isNone && !s.boot.farDone then s.farStep ports else s)

/-! ### L2: the second read and the sections (R492, R493, R502) -/

/-- The second read agrees with the first: the section whose CRC fails, or none with the digest. -/
def secondRead (g : GoodSlot) (img : List Byte) : Option LoadFail :=
  match badCrc img with
  | some d => some ⟨7, some (d.type, d.inst, 0), 0⟩
  | none => if Config.sha384 (slice img 0 (imgLength img)) = g.digest then none else some ⟨7, some (0, 0, 0), 0⟩

/-- The image applied, with what follows its sections and the checks of its content. -/
def State.applyImage (s : State) (img : List Byte) (p : ImagePlan) : Load :=
  ((s.applyPlan p).applySections img p).bind fun t =>
    let u := ((t.imageDefaults).computed img).applyShapers p
    match firstBad u.contentChecks, firstBad u.timeoutChecks with
    | some r, _ => .inl ⟨8, r.bind (recordOf img), 0⟩
    | none, some r => .inl ⟨9, r.bind (recordOf img), 0x0D⟩
    | none, none =>
      let settled : State := { u with lens := { u.lens with lastChange := [], burstStart := [] } }
      .inr settled

/-- Step L2: the slot is read again and applied. A failure leaves only what the failing slot's registers say. -/
def State.loadApply (s0 : State) (g : GoodSlot) (img : List Byte) (p : ImagePlan) : State :=
  let s := s0.emit (.flashRead (slotBase g.slot))
  match secondRead g img with
  | some e => s.failSlot g.slot e
  | none =>
    match s.applyImage img p with
    | .inl e => s.failSlot g.slot e
    | .inr t => { t with boot := { t.boot with applied := true } }.set R.BOOT_STATUS.STEP 6

/-- LOAD_APPLY (R493); `image` is the slot as the second read returns it, `plan` what the image gives beside its sections. -/
def execLoadApply (image : List Byte) (plan : ImagePlan) (s : State) : Out State :=
  complete (Instr.wf (.loadApply image plan)) s
    (match s.boot.good with
    | some g => if s.mode == .load && !s.fault.chipReset && s.boot.farDone && !s.boot.applied then s.loadApply g image plan else s
    | none => s)

/-! ### L3: the schedule checks (R85, R98, R304, R324) -/

/-- The banks of the image in ascending order: the check that fails, with its bank, or the state with every bank loaded. -/
def State.loadBanks : List (Nat × List Byte) → State → (Nat × Nat) ⊕ State
  | [], s => .inr s
  | (b, sec) :: rest, s =>
    match s.loadSection sec b with
    | .inl c => .inl (b, c)
    | .inr t => State.loadBanks rest t

/-- Step L3. The byte offset of the record that fails a check of R85 is an open value: the spec names no record for a check. -/
def State.loadSched (s : State) (g : GoodSlot) : State :=
  match State.loadBanks s.boot.scheds s with
  | .inl (b, c) =>
    let d := s.draw
    d.2.failSlot g.slot ⟨9, some (1, b, d.1), c⟩
  | .inr t =>
    if bankCount < t.buf.wheel.sum then t.failSlot g.slot ⟨9, none, 1⟩
    else if !t.ratesGood then t.failSlot g.slot ⟨9, none, 6⟩
    else if !t.reservesGood then t.failSlot g.slot ⟨8, none, 0⟩
    else { t with boot := { t.boot with checked := true } }.set R.BOOT_STATUS.STEP 7

/-- LOAD_SCHED (R98). -/
def execLoadSched (s : State) : Out State :=
  complete true s
    (match s.boot.good with
    | some g => if s.mode == .load && !s.fault.chipReset && s.boot.applied && !s.boot.checked then s.loadSched g else s
    | none => s)

/-! ### L4: the journal (R475, R477, R479) -/

/-- The sequences of a scan: JRN_TAIL to HEAD − 1. -/
def State.scanned (s : State) : List Nat :=
  (List.range (s.get R.JRN_HEAD.HEAD - s.get R.JRN_TAIL.TAIL)).map fun i => s.get R.JRN_TAIL.TAIL + i

/-- What a scan has found: entries with an unknown outcome or damaged, those to re-execute, and those made indeterminate. -/
structure Scan where
  unknown : Nat := 0
  reexec : List Nat := []
  indet : Nat := 0
  deriving DecidableEq, Repr

/-- One entry of the scan; one that an earlier scan of this LOAD has made indeterminate still counts. -/
def State.scanEntry (a : State × Scan) (seq : Nat) : State × Scan :=
  let ends (t : State) (reason : Nat) : State × Scan :=
    let u := t.writeOutcome seq (outcomeArea 8 reason 0 0 [])
    ({ u with boot := { u.boot with indet := seq :: u.boot.indet } }, { a.2 with unknown := a.2.unknown + 1, indet := a.2.indet + 1 })
  if a.1.boot.indet.contains seq then (a.1, { a.2 with unknown := a.2.unknown + 1, indet := a.2.indet + 1 })
  else match a.1.classify seq with
  | .ignored | .completed => a
  | .damaged => ends (a.1.raise 35 0) 0x14
  | .unknown =>
    if reexecutes (a.1.jbytes seq 2 8) then (a.1, { a.2 with unknown := a.2.unknown + 1, reexec := a.2.reexec ++ [seq] })
    else ends a.1 0x15

/-- The last close entry that the journal holds. -/
def State.lastClose (s : State) : Option Nat :=
  s.scanned.reverse.find? fun q => s.entryValid q && s.jword q 0 / 2 ^ 56 % 4 == 2

/-- How the previous run ended (R479, R504). -/
def State.runEnd (s : State) : Nat :=
  if !s.power.started then 0
  else if s.lastClose.any fun q => decide (s.get R.JRN_LAST_EPOCH.SEQ < q) then 1
  else if s.power.ranChip then 2
  else if s.power.ranRestart then 4
  else if s.power.ranReset then 5
  else 3

/-- The body of the epoch entry. -/
def State.epochBody (s : State) (g : GoodSlot) (c : Scan) (last end_ : Nat) : List Byte :=
  record 64 [(0, 4, g.version), (4, 1, g.slot), (5, 1, end_), (8, 8, s.get R.JRN_EPOCH.COUNT + 1), (16, 6, s.now), (24, 6, last),
    (32, 2, c.unknown), (34, 2, c.reexec.length), (36, 2, c.indet)]

/-- The counts of the scan in JRN_STAT. -/
def State.scanStat (s : State) (c : Scan) : State :=
  ((s.set R.JRN_STAT.UNKNOWN (min c.unknown 65535)).set R.JRN_STAT.REEXEC (min c.reexec.length 65535)).set R.JRN_STAT.INDET
    (min c.indet 65535)

/-- Step L4: the scan, and the epoch entry; when its slot must stay the step waits (R468), and when its read-back fails twice it is taken
again. -/
def State.journalScan (s : State) (g : GoodSlot) (fails : Nat) : State :=
  if s.slotHeld then s else
  let last := s.lastClose.getD (2 ^ 48 - 1)
  let end_ := s.runEnd
  let a := s.scanned.foldl State.scanEntry (s, ({} : Scan))
  let t := a.1
  let seq := t.get R.JRN_HEAD.HEAD
  let w := t.writeEntry 0xFF 1 (t.epochBody g a.2 last end_) 0 fails
  if w.2 then
    let u := ((w.1.writeOutcome seq (outcomeArea 0 0 0 0 [])).set R.JRN_LAST_EPOCH.SEQ seq).set R.JRN_EPOCH.COUNT
      (t.get R.JRN_EPOCH.COUNT + 1)
    { u.scanStat a.2 with
      power := { u.power with ranChip := false, ranRestart := false, ranReset := false, started := true }
      cmd := { u.cmd with reexec := a.2.reexec, lastSeq := u.cmd.lastSeq }
      boot := { u.boot with epochWritten := true } }
  else w.1.journalFail 0xFF

/-- JOURNAL_SCAN (R477); `fails` read-backs of the epoch entry fail. -/
def execJournalScan (fails : Nat) (s : State) : Out State :=
  complete (Instr.wf (.journalScan fails)) s
    (match s.boot.good with
    | some g => if s.mode == .load && !s.fault.chipReset && s.boot.checked && !s.boot.epochWritten then s.journalScan g fails else s
    | none => s)

/-! ### SERVE (R478, R485, R497, R503) -/

/-- SERVE begins: the flash is released, the configured address stands, enabled irises train, and the first re-execution
starts. -/
def State.enterServe (s : State) (fails : Nat) : State :=
  let s1 := ({ s with mode := .serve, prev := .load }.set R.BOOT_STATUS.STEP 15).emit .flashReleased
  let s2 := s1.set R.FAB_TOPO.EPOCH (s1.get R.JRN_EPOCH.COUNT)
  let s3 := if s2.bit R.FAB_CFG.CONFIGURED then s2.setAddress 2 (s2.get R.FAB_CFG.ADDR) false else s2
  let s4 := (List.range 64).foldl (fun (t : State) i => if t.bit (R.IRIS_CTRL.ENABLE i) then t.set (R.IRIS_STATUS.STATE i) 1 else t) s3
  let s5 : State := { s4 with fab := { s4.fab with advDue := true } }
  s5.reexecuteNext fails

/-- SERVE_ENTRY (R478); `fails` read-backs of the first re-execution's entry fail. -/
def execServeEntry (fails : Nat) (s : State) : Out State :=
  complete (Instr.wf (.serveEntry fails)) s
    (if s.mode == .load && !s.fault.chipReset && s.boot.epochWritten then s.enterServe fails else s)

/-! ### PPS_OUT (R586) -/

/-- The timebase with TIME_OFFSET lies within 2 ns of a whole second. -/
def State.atSecond (s : State) : Bool :=
  decide (((s.ns : Int) + signed 64 (s.word R.TIME_OFFSET.OFFSET.off).toNat + 2) % 1000000000 ≤ 4)

/-- The level of PPS_OUT: high for 100 ms from its rise, low outside SERVE. -/
def State.ppsLevel (s : State) : Bool :=
  s.mode == .serve && (match s.power.ppsNs with | some t => decide (s.ns < t + 100000000) | none => false)

/-- PPS_OUT (R586): in SERVE the pin rises at each whole second. -/
def execPpsOut (s : State) : Out State :=
  complete true s (if s.mode == .serve && s.atSecond && !s.ppsLevel then
    { s with power := { s.power with ppsNs := some s.ns } }.emit .pps else s)

end Sys2Proof.Machine
end

