-- ==== Sys2Proof/Machine/Ingress.lean ====
section
/-! DEFINITION. Frames on their way into cells, the end of a cut-through frame, and the enqueue of descriptors with replication
(R154, R166, R259, R261, R270, R272, R273, R284 to R287, R289, R300). -/
namespace Sys2Proof.Machine

/-! ### CELL_WRITE (R261, R270) -/

/-- The cells that a frame takes: a cut-through frame longer than MAXF is cut off there. -/
def State.rxCells (s : State) (f : RxFrame) : Nat :=
  if f.cut then min (cellsOf f.pkt.len) (cellsOf (s.maxFrame f.pkt.src)) else cellsOf f.pkt.len

/-- The oldest frame of a source that still has a cell to write. -/
def State.writing (s : State) (src : Nat) : Option RxFrame :=
  s.buf.rx.find? fun f => f.pkt.src == src && !f.gone && decide (f.pkt.cells.length < s.rxCells f)

/-- A port frame that finds no landing cell is dropped as an overrun (R270). -/
def State.rxOverrun (s : State) (f : RxFrame) : State :=
  let s1 := { s with buf := { s.buf with rx := s.buf.rx.filter fun g => g.pkt.id != f.pkt.id } }.releaseCells f.pkt
  (s1.count (R.MAC_CNT.COUNT f.pkt.src 6) 1).sat R.BUF_ERR.OVERRUN 1

/-- A stall on a cut-through frame ends, in whichever prism holds it (R164, R166). -/
def State.endStallOf (s : State) (id : Nat) : State :=
  (List.range 16).foldl (fun (t : State) k => if (t.prism k).stall.any fun x => x.1 == id then t.endStall k else t) s

/-- One more cell of a frame that its aperture has taken, out of what it was charged at MAXF (R272). -/
def State.takenCell (s : State) (f : RxFrame) (i : Nat) : State :=
  let k := f.pkt.cells.length
  let s1 := s.takeCell i (linkWord f.pkt.owner 1 (decide (s.rxCells f = k + 1)) (fillOf f.pkt.len k) 0)
  let s2 := match f.pkt.cells.getLast? with
    | some j => s1.setLink j (bitsSet (s1.link j) 0 20 i)
    | none => s1
  let c := s2.chargeTaken f.pkt i
  let p : Pkt := { c.2 with cells := f.pkt.cells ++ [i] }
  (c.1.putRx { f with pkt := p }).mapPkts fun q =>
    if q.id = p.id then { q with cells := p.cells, xResv := p.xResv, xShar := p.xShar } else q

/-- The next cell of a source goes to the bank that its wheel slot names; a bank without a free cell gives none. -/
def State.cellWrite (s : State) (src bank : Nat) : State :=
  match (if s.coreUp then s.writing src else none), s.freeIn bank with
  | some f, some i =>
    let t := if f.taken then s.takenCell f i
      else match s.landCell f (some i) with
        | some (t, p) => let g := { f with pkt := p }; (t.putRx g).landed g
        | none => if src < 96 then s.rxOverrun f else s
    if f.cut ∧ f.pkt.cells.length = 1 then t.endStallOf f.pkt.id else t
  | _, _ => s

/-- CELL_WRITE (R270). -/
def execCellWrite (src bank : Nat) (s : State) : Out State :=
  complete (Instr.wf (.cellWrite src bank)) s (s.cellWrite src bank)

/-! ### FRAME_END_REPORT (R154, R166, R272, R287, R289, R300) -/

/-- The cut-through frame of a port that ends now: all of it has arrived, its bytes are being discarded, or the link has gone. -/
def State.endingFrame (s : State) (n : Nat) : Option RxFrame :=
  s.buf.rx.find? fun f => f.pkt.src == n && f.cut && (f.gone || decide (s.rxCells f ≤ f.pkt.cells.length) || !s.linkUp n)

/-- A frame leaves the list of those arriving. -/
def State.dropRx (s : State) (id : Nat) : State :=
  { s with buf := { s.buf with rx := s.buf.rx.filter fun g => g.pkt.id != id } }

/-- The buckets and the virtual clock of a frame taken at MAXF get back what `len` bytes did not use (R300). -/
def State.correct (s : State) (f : RxFrame) (len : Nat) : State :=
  let back := s.maxFrame f.pkt.src - len
  (s.returnTokens f.pkt back).returnClock f.pkt back

/-- A packet belongs to the cut-through frame of port `n`. -/
def Pkt.ofCut (p : Pkt) (n : Nat) : Bool := p.cut && p.src == n

/-- A packet whose frame has ended good at `ns`: it is accepted, unless it is a copy or an exception, holds no more than its cells,
and its bound runs from its last bit in (R292). -/
def Pkt.ended (p : Pkt) (ns : Nat) : Pkt :=
  { p with cut := false, xResv := 0, xShar := 0, accepted := p.copy == 0 && p.owner.isNone, startNs := ns }

/-- The charge of a frame beyond its cells is released (R272). -/
def State.trim (s : State) (p : Pkt) : State :=
  let s1 := if p.xResv = 0 then s else s.subCharge p.acct 0 p.xResv
  if p.xShar = 0 then s1 else s1.subCharge p.acct (2 + p.stamp.cls) p.xShar

/-- One frame in switch cut-through leaves port `o` whole, its FCS inverted on a bad end (R288, R289) and on a memory failure, which
ends it as a breach; each failing cell is counted whatever the end (R282). A good one that left past its release deadline is late (R294). -/
def State.cutLeaves (s : State) (stomp : Bool) (o : Nat) (p : Pkt) : State :=
  let n := (s.failingPlaces p).length
  let bad := stomp || decide (0 < n)
  let s0 := s.markFailing p p.failing
  let s1 := s0.macFrame o bad p
  let s2 := if bad then (s1.wrap R.SWC_CUT.STOMPED 1).countAt (R.MAC_CNT.COUNT o 14) 1 p.expo else s1
  if stomp then (s2.sat R.BUF_ERR.UNCORR n).releaseCells p
  else if 0 < n then s2.memoryFailure n p
  else (if p.lateStart then s2.late else s2).releaseCells p

/-- The frames of a port in switch cut-through end. -/
def State.cutDone (s : State) (n : Nat) (stomp : Bool) : State :=
  let s1 := (s.buf.cutting.filter fun x => x.2.src == n).foldl (fun (t : State) x => t.cutLeaves stomp x.1 x.2) s
  { s1 with buf := { s1.buf with cutting := s1.buf.cutting.filter fun x => x.2.src != n } }

/-- The chain of a held packet takes the length that its edits gave it. -/
def State.resizeHeld (s : State) (id : Nat) : State :=
  match s.buf.handoff.find? fun p => p.id == id with
  | none => s
  | some p =>
    let r := s.refit p p.len
    { r.1 with buf := { r.1.buf with handoff := r.1.buf.handoff.map fun q => if q.id = id then r.2 else q } }

/-- The good end of a frame that the aperture accepted in part: acceptance, charges, release of the held descriptor. -/
def State.goodTaken (s : State) (n : Nat) (f : RxFrame) : State :=
  let k := s.entryOf n % 16
  let s1 := (s.correct f f.len).countAt (R.APR_ADMIT.COUNT k) 1 f.pkt.expo
  let s2 := (s1.livePkts.filter fun p => p.ofCut n && p.copy == 0).foldl (fun (t : State) p => t.trim p) s1
  let s3 := (s2.mapPkts fun p => if p.ofCut n then p.ended s.ns else p).cutDone n false
  (s3.resizeHeld f.pkt.id).endStallOf f.pkt.id

/-- A prism that holds a packet of the frame holds an empty slot in its place. -/
def Prism.dropCut (p : Prism) (n : Nat) : Prism :=
  { p with flights := p.flights.map fun (f : Flight) => if f.pkt.any fun x => x.ofCut n then f.emptied else f }

/-- A service facet keeps its item and loses the packet. -/
def Service.dropCut (v : Service) (n : Nat) : Service :=
  let g (x : Item) : Item := if x.pkt.any fun p => p.ofCut n then { x with pkt := none } else x
  { v with running := v.running.map g, saved := v.saved.map g, queue := v.queue.map g }

/-- The bad end of a frame discards its packet and its copies wherever they stand (R154). -/
def State.discardCut (s : State) (n : Nat) (id : Nat) : State :=
  let s0 := (s.endStallOf id).cutDone n true
  let s1 := (s0.livePkts.filter fun p => p.ofCut n).foldl (fun (t : State) p => t.releaseCells p) s0
  let s2 := s1.buf.toPrism.foldl (fun (t : State) e => t.removeWaiting e.1 fun p => p.ofCut n) s1
  { s2 with
    buf := { s2.buf with
      handoff := s2.buf.handoff.filter fun p => !p.ofCut n }
    code := { s2.code with
      prisms := s2.code.prisms.map fun e => (e.1, e.2.dropCut n)
      services := s2.code.services.map fun e => (e.1, e.2.dropCut n)
      excepts := s2.code.excepts.filter fun e => !e.2.ofCut n }
    cnt := { s2.cnt with captures := s2.cnt.captures.filter fun e => !e.2.2.ofCut n } }

/-- A good end in HOLD-UP: no packet is accepted any more (R517). A transmission under way goes on to its end, and all else of the
frame is discarded: it was never accepted. -/
def State.goodRefused (s : State) (n : Nat) (f : RxFrame) : State :=
  (((s.correct f f.len).mapPkts fun p => if p.ofCut n then { p with lateStart := false } else p).cutDone n false).discardCut n f.pkt.id

/-- The MAC reports the end of a cut-through frame. -/
def State.frameEnd (s : State) (n : Nat) : State :=
  match (if s.coreUp then s.endingFrame n else none) with
  | none => s
  | some f =>
    match f.bad with
    | none =>
      let s1 := s.countGoodAt n f.wire (if f.taken then f.pkt.expo else s.ns)
      if !f.taken then s1.putRx { f with cut := false, countedNs := some s.ns, pkt := { f.pkt with startNs := s.ns } }
      else if f.refused then (s1.correct f f.len).dropRx f.pkt.id
      else if s.mode == .holdUp then (s1.dropRx f.pkt.id).goodRefused n f
      else (s1.dropRx f.pkt.id).goodTaken n f
    | some k =>
      let s1 := (s.countAt (R.MAC_CNT.COUNT n k) 1 (if f.taken then f.pkt.expo else s.ns)).dropRx f.pkt.id
      if !f.taken then s1.releaseCells f.pkt
      else if f.refused then s1.correct f 0
      else (s1.correct f 0).discardCut n f.pkt.id

/-- FRAME_END_REPORT (R154). -/
def execFrameEndReport (n : Nat) (s : State) : Out State :=
  complete (Instr.wf (.frameEndReport n)) s (s.frameEnd n)

/-! ### ENQUEUE (R273, R284 to R286) -/

/-- The first descriptor that may be enqueued: its frame has ended, and so has that of every earlier one for a leaf queue that it
joins, as itself or as a copy for a member of its group (R285, R287). -/
def nextReady : List Pkt → List Nat → Option Pkt
  | [], _ => none
  | p :: ps, held =>
    if p.cut || p.leaves.any held.contains then nextReady ps (p.leaves ++ held) else some p

/-- A copy of a packet for one further member of its group, aimed at its handoff: its edit list applied, sharing every cell that keeps
its bytes; one that the device cannot carry is counted (R286). -/
def State.memberCopy (s : State) (p : Pkt) (m : MemberAim) : State :=
  let p1 : Pkt := { p with
    bytes := p.orig
    dstKind := m.kind
    dstDev := m.dev
    dstQ := m.queue
    dstEp := m.ep
    leaf := m.leaf
    hostQ := m.hostQ
    aims := [] }
  match s.applyEdits (s.entryOf p.src % 16) p.vector (if m.edit = 0 then p.ownList else m.edit) p.orig with
  | (0, bytes, s1) =>
    if !s1.fitsPort p1 bytes then s1.memberLost p
    else if !isFabricLeaf p1.leaf && p1.hostQ.isSome && s1.host.parked.contains p1.leaf then
      (s1.wakeTest (p1.hostQ.getD 0) bytes).memberLost p
    else
      let c := copyOf p1 1 bytes
      match s1.copyChain p p.stamp.cls c.len (sameCell c.bytes p.bytes) with
      | (t, none) => t.memberLost p
      | (t, some cells) => let i := t.freshId; i.2.enqueuePkt { c with id := i.1, cells := cells, owner := none }
  | (_, _, s1) => s1.memberLost p

/-- A descriptor of a replication group is enqueued for every member: the copies of the further members, then member 0. -/
def State.enqueueGroup (s : State) (p : Pkt) : State :=
  (p.aims.foldl (fun (t : State) m => t.memberCopy p m) s).enqueuePkt { p with group := false, orig := [], vector := 0, ownList := 0, aims := [] }

/-- The next descriptor joins its leaf queue. -/
def State.enqueueNext (s : State) : State :=
  match (if s.forwarding then nextReady s.buf.handoff [] else none) with
  | none => s
  | some p =>
    let s1 := { s with buf := { s.buf with handoff := s.buf.handoff.filter fun q => q.id != p.id } }
    p.leaves.foldl (fun (t : State) l => t.endMarked l) (if p.group then s1.enqueueGroup p else s1.enqueuePkt p)

/-- ENQUEUE (R284). -/
def execEnqueue (s : State) : Out State := complete true s s.enqueueNext

end Sys2Proof.Machine
end

