-- ==== Sys2Proof/Machine/Pace.lean ====
section
/-! DEFINITION. The pace governor: the measurement window, the deficit, the ceiling, voltage requests (R43 to R59,
R596). -/
namespace Sys2Proof.Machine

/-- The rate of a window of `n` beats lies below `m` Mbeat/s (R48: n × 3.125). -/
def rateBelow (n m : Nat) : Bool := decide (n * 3125 < m * 1000)

/-- The rate of a window of `n` beats lies above `m` Mbeat/s. -/
def rateAbove (n m : Nat) : Bool := decide (m * 1000 < n * 3125)

/-- AT_CEILING by the request code or by a regulator that stopped answering (R55, R56). -/
def State.ceilingFixed (s : State) : Bool := s.get R.PACE_VREQ.CODE == s.get R.PACE_VREQ.VMAX || s.pace.vgoodDead

/-- AT_CEILING by PACE_VMAX_N, which B1 shows only once SETTLE windows have passed since the last request (KL-6,
R596). -/
def State.ceilingPin (s : State) : Bool := !s.pace.vmaxN && decide (s.get R.PACE_CTRL.SETTLE ≤ s.pace.since)

/-- PACE_STATUS.AT_CEILING. -/
def State.atCeiling (s : State) : Bool := s.ceilingFixed || s.ceilingPin

/-- What the end of a window does before R50: the loop counts, the rate registers and the window counts (R48). -/
def State.measure (s : State) (n slowest : Nat) : State :=
  let rate := n * 25 / 8 + (if n * 25 % 8 = 0 then 0 else b2n (Config.rateRoundsUp n))
  let p := s.pace
  let since := p.since + 1
  let s1 := { s with pace := { p with
    hist := (n :: p.hist).take 32
    windows := min 9 (p.windows + 1)
    since := since
    vgoodLow := if p.vgood then 0 else min 64 (p.vgoodLow + 1)
    ceilRun := if !p.vmaxN && decide (since ≤ s.get R.PACE_CTRL.SETTLE) then 0 else min 4 (p.ceilRun + 1) } }
  let s2 := (s1.set R.PACE_BEAT_RATE.SLOWEST slowest).set R.PACE_BEAT_RATE.MIN_RATE (min rate 65535)
  if rate < s2.get R.PACE_BEAT_RATE.LOW_WATER then s2.set R.PACE_BEAT_RATE.LOW_WATER rate else s2

/-- The deficit after a window of `n` beats (R49). -/
def nextDeficit (d n : Nat) : Nat := d + 672 - n

/-- The deficit of this window stored, with its register and peak. -/
def State.setBeatDeficit (s : State) (d : Nat) : State :=
  let s1 := { s with pace := { s.pace with deficit := d } }
  (s1.set R.PACE_DEFICIT.CURRENT (min d 65535)).peak R.PACE_DEFICIT.PEAK (min d 65535)

/-- The rate lay below GUARD in each of the last four windows. -/
def State.lowFour (s : State) : Bool :=
  decide (4 ≤ s.pace.hist.length) && (s.pace.hist.take 4).all fun m => rateBelow m (s.get R.PACE_TARGET.GUARD)

/-- The condition of R50 under which PACE_FLOOR_LOST is raised; the clause of the pin counts its four windows as
KL-6 says. -/
def State.floorLost (s : State) (n : Nat) : Bool :=
  decide (n < 672) || (s.ceilingFixed && s.lowFour) ||
    (s.ceilingPin && s.lowFour && decide (4 ≤ s.pace.ceilRun))

/-- CLEAR_RUN and the release of ADMIT_HOLD at the end of a window (R58). -/
def State.clearRun (s : State) (n : Nat) (lost : Bool) : State :=
  if !rateBelow n (s.get R.PACE_TARGET.GUARD) && s.pace.deficit == 0 && !lost then
    let s1 := s.sat R.PACE_STATUS.CLEAR_RUN 1
    if 32 ≤ s1.get R.PACE_STATUS.CLEAR_RUN then s1.setBit R.PACE_STATUS.ADMIT_HOLD false else s1
  else s.set R.PACE_STATUS.CLEAR_RUN 0

/-- Drives and strobes a code on PACE_VREQ; a request equal to CODE is not issued (R50, R54). -/
def State.requestCode (s : State) (code : Nat) : State :=
  if code = s.get R.PACE_VREQ.CODE then s
  else
    let s1 := s.set R.PACE_VREQ.CODE code
    { s1 with pace := { s1.pace with since := 0, vgoodLow := 0 } }.emit (.strobe code)

/-- The voltage request of R50; no request passes VMAX (R53). -/
def State.voltageRequest (s : State) (n : Nat) : State :=
  let code := s.get R.PACE_VREQ.CODE
  let target := s.get R.PACE_TARGET.TARGET
  let band := s.get R.PACE_TARGET.BAND
  if s.bit R.PACE_CTRL.HOLD || !s.pace.vgood || decide (s.pace.since < s.get R.PACE_CTRL.SETTLE) ||
      s.mode == .holdUp then s
  else if rateBelow n (s.get R.PACE_TARGET.GUARD) then s.requestCode (min (code + 4) (s.get R.PACE_VREQ.VMAX))
  else if rateBelow n (target - band) then s.requestCode (min (code + 1) (s.get R.PACE_VREQ.VMAX))
  else if decide (s.pace.hist.length = 32) && s.pace.hist.all fun m => rateAbove m (target + band) then
    s.requestCode (min (max (code - 1) (s.get R.PACE_VREQ.VMIN)) (s.get R.PACE_VREQ.VMAX))
  else s

/-- The control law at the end of a window (R50, R57 to R59): PACE_FLOOR_LOST takes effect before PACE_DEFICIT. -/
def State.govern (s : State) (n : Nat) : State :=
  let s1 := s.setBeatDeficit (nextDeficit s.pace.deficit n)
  let lost := s1.floorLost n
  let s2 := if lost then s1.raise 0 0 else s1
  let s3 := if s2.get R.PACE_DEFICIT.LIMIT < s2.pace.deficit then s2.raise 1 0 else s2
  (s3.clearRun n lost).voltageRequest n

/-- The lowest of the loop counts of a window, and the loop that gave it; of several, the lowest-numbered (DESIGN CHOICE, log 166). -/
def lowestCount (counts : List Nat) : Nat := counts.foldl min (counts.headD 0)
def slowestLoop (counts : List Nat) : Nat := counts.findIdx fun m => m == lowestCount counts

/-- Cycles of TB_REFCLK in a window (R48). -/
def windowCycles : Nat := 80

/-- A measurement window of 80 cycles ends, and the next begins (R48); the governor measures in every powered mode, and R50 starts
after 8 complete windows (R51). -/
def State.windowEnd (s : State) (counts : List Nat) : State :=
  if !s.coreUp || decide (s.pace.cycles < windowCycles) then s
  else
    let n := lowestCount counts
    let s1 : State := { s with pace := { s.pace with cycles := s.pace.cycles - windowCycles } }
    let s2 := s1.measure n (slowestLoop counts)
    if s2.pace.windows ≤ 8 then s2 else s2.govern n

/-- PACE_WINDOW_END (R50), with the beats that loop 0 and the further 63 loops counted. -/
def execPaceWindowEnd (first : Nat) (others : List Nat) (s : State) : Out State :=
  complete (Instr.wf (.paceWindowEnd first others)) s (s.windowEnd (first :: others))

/-- PACE_VGOOD takes a level; its rise ends the ceiling of R56 and permits the next request (R54). -/
def State.setVgood (s : State) (level : Bool) : State :=
  { s with pace := { s.pace with
      vgood := level
      vgoodDead := if level then false else s.pace.vgoodDead
      vgoodLow := if level then 0 else s.pace.vgoodLow } }

/-- PACE_VGOOD (R54). -/
def execPaceVgood (level : Bool) (s : State) : Out State := complete true s (s.setVgood level)

/-- PACE_VMAX_N (R55): the regulator asserts (low) or deasserts its ceiling pin. -/
def execPaceVmaxN (level : Bool) (s : State) : Out State :=
  complete true s { s with pace := { s.pace with vmaxN := level } }

/-- VGOOD_TIMEOUT (R56): PACE_VGOOD has stayed low for 64 windows after a request. -/
def execVgoodTimeout (s : State) : Out State :=
  complete true s (if !s.pace.vgood && decide (64 ≤ s.pace.vgoodLow) then
    { s with pace := { s.pace with vgoodDead := true } } else s)

end Sys2Proof.Machine
end

