-- ==== Sys2Proof/Machine/RegCmds.lean ====
section
/-! DEFINITION. The register commands: writes of registers with rules of their own, and reads with a read effect (R570 to R575). -/
namespace Sys2Proof.Machine

/-! ### Reading a register (R571) -/

/-- The words of the record at the head of the fault event queue (R534). -/
def faultWords (e : FaultEvent) : Nat × Nat :=
  (e.time * 2 ^ 16 + e.source * 2 ^ 8 + b2n e.forced * 2 ^ 7 + b2n e.escalated * 2 ^ 6 + e.mode * 2 ^ 3, 2 ^ 63 + e.info % 2 ^ 32)

/-- Word `i` of the head fault record, breach record, loupe sample or timestamp record; 0 when the queue is empty, or when the
export role takes the queue (R564). -/
def State.evqWord (s : State) (i : Nat) : Nat :=
  match s.fault.queue with
  | e :: _ => if i = 0 then (faultWords e).1 else (faultWords e).2
  | [] => 0
def State.bqWord (s : State) (i : Nat) : Nat :=
  match (if s.bit R.CNT_XRING.EN then [] else s.apr.breaches) with
  | b :: _ => if i = 0 then b.1 else b.2
  | [] => 0
def State.loupeWord (s : State) (i : Nat) : Nat :=
  match (if s.bit R.CNT_XRING.EN then [] else s.cnt.loupe) with
  | x :: _ => if i = 0 then x.w0 else if i = 1 then x.w1 else x.w2
  | [] => 0
def State.ptpWord (s : State) (n i : Nat) : Nat :=
  match SMap.find (fun _ => []) s.mac.ptp n with
  | x :: _ => if i = 0 then x.1 else x.2
  | [] => 0

/-- What a register reads as: the stored word, with the fields that show a level, a pin or the head of a queue. -/
def State.readReg (s : State) (off : Nat) : Nat :=
  let w := (s.word off).toNat
  if (regAt off).isNone then 0
  else if off = 0x10 then s.mode.code + 16 * s.prev.code + 256 * s.safeCause
  else if off = 0x100008 then bitsSet (bitsSet w 56 8 s.power.good) 52 4 s.power.en
  else if off = 0x200040 then bitsSet w 0 1 (b2n s.faultPin)
  else if off = 0x200050 then s.evqWord 0
  else if off = 0x200058 then s.evqWord 1
  else if off = 0x600008 then bitsSet (bitsSet (bitsSet w 3 1 (b2n !s.pace.vmaxN)) 2 1 (b2n s.atCeiling)) 0 1 (b2n s.pace.vgood)
  else if 0x600140 ≤ off ∧ off < 0x600180 then bitsSet w 30 1 (b2n (s.pace.xoffIn.getD ((off - 0x600140) / 8) false))
  else if off = 0x700000 then s.tb / 2 ^ 24 % 2 ^ 64
  else if off = 0x1D00600 then s.bqWord 0
  else if off = 0x1D00608 then s.bqWord 1
  else if macOff off 0x40 then s.ptpWord ((off - 0x2000000) / 0x4000) 0
  else if macOff off 0x48 then s.ptpWord ((off - 0x2000000) / 0x4000) 1
  else if 0x2200800 ≤ off ∧ off < 0x2200820 then 0
  else if 0x2600010 ≤ off ∧ off < 0x2610010 ∧ off % 0x1000 = 0x10 then bitsSet w 0 16 (latMean (s.farRecent ((off - 0x2600010) / 0x1000)))
  else if off = 0x2700010 then bitsSet w 15 1 (b2n (s.power.hxBif.getD 0 false))
  else if off = 0x2700018 then bitsSet w 15 1 (b2n (s.power.hxBif.getD 1 false))
  else if 0x2902008 ≤ off ∧ off < 0x2902020 then s.loupeWord ((off - 0x2902008) / 8)
  else w

/-- What a 64-bit read returns: a register, 0 in a block that does not answer in SAFE; in BAR2 of a PF the contents of a ring slot, and 0
elsewhere; in BAR4 the journal entries in their slots (R434, R480, R569, R571). -/
def State.readBar (s : State) (src : HostSrc) (bar off : Nat) : Nat :=
  match bar with
  | 0 => if s.accessMode == .safe && !safeBlock off then 0 else s.readReg off
  | 1 =>
    if src.func < 4096 ∧ off < 0x800000 ∧ off % 0x20000 < 64 * 2 ^ s.get (R.CMD_RING.SIZE (off / 0x20000)) then
      SMap.find (fun _ => 0) s.cmd.slots off else 0
  | _ => s.jword (off / 256) (off / 8 % 32)

/-- The read effect of a 64-bit read (R571): the head record leaves its queue. -/
def State.readEffect (s : State) (off : Nat) : State :=
  if off = 0x200058 then { s with fault := { s.fault with queue := s.fault.queue.drop 1 } }
  else if off = 0x1D00608 then (if s.bit R.CNT_XRING.EN || s.apr.breaches.isEmpty then s else s.popBreach)
  else if off = 0x2902018 then (if s.bit R.CNT_XRING.EN || s.cnt.loupe.isEmpty then s else s.popLoupe)
  else if macOff off 0x48 then
    let n := (off - 0x2000000) / 0x4000
    { s with mac := { s.mac with ptp := s.mac.ptp.put (fun _ => []) n ((SMap.find (fun _ => []) s.mac.ptp n).drop 1) } }
  else s

/-- A register whose 64-bit read removes a record. -/
def popsRecord (off : Nat) : Bool := off == 0x200058 || off == 0x1D00608 || off == 0x2902018 || macOff off 0x48

/-- A 64-bit read: its read effect, and what it returns. In SAFE nothing is removed from a block that does not answer (R434). -/
def State.readWord (s : State) (src : HostSrc) (bar off : Nat) : State × Nat :=
  (if bar = 0 ∧ (s.accessMode == .safe && !safeBlock off) = false then s.readEffect off else s, s.readBar src bar off)

/-- The words of a longer read, in ascending order, each served as a 64-bit read; past the BAR there is nothing. -/
def State.readWords (s : State) (src : HostSrc) (bar : Nat) : Nat → Nat → State × List Nat
  | 0, _ => (s, [])
  | n + 1, off =>
    let x := if off < barSize src bar then s.readWord src bar off else (s, 0)
    let r := x.1.readWords src bar n (off + 8)
    (r.1, x.2 :: r.2)

/-- What a longer read returns: one that covers a register with a read effect returns its first word and then zeros (KL-12,
R602). -/
def longWords (covers : Bool) (ws : List Nat) : List Nat :=
  match ws with
  | [] => []
  | w :: rest => w :: (if covers then rest.map fun _ => 0 else rest)

/-- A host read at `off` of a BAR in one of its forms (R571): an access that no BAR answers ends as such. A part of a word takes nothing
from a queue. -/
def State.barRead (s : State) (src : HostSrc) (bar off : Nat) (form : ReadForm) : State :=
  if !(s.reach src && decide (off < barSize src bar)) then s.emit .unreachable
  else match form with
    | .lo32 => s.emit (.readData [s.readBar src bar off % 2 ^ 32])
    | .hi32 => s.emit (.readData [s.readBar src bar off / 2 ^ 32])
    | .full => let r := s.readWord src bar off; r.1.emit (.readData [r.2])
    | .long before words =>
      let first := off - 8 * before
      let r := s.readWords src bar words first
      let pops := bar == 0 && (s.accessMode != .safe || safeBlock off) && (List.range words).any fun i => popsRecord (first + 8 * i)
      r.1.emit (.readData (longWords pops r.2))

/-- A host read of the register at `off`. The rows of the table read the registers that have a read effect; every other read, of the ring
slots of BAR2 and of the journal window of BAR4 too, is `barRead` alone, which changes nothing but what is sent. -/
def State.hostRead (s : State) (src : HostSrc) (off : Nat) (form : ReadForm) : State := s.barRead src 0 off form

/-- APR_BQ_READ (R311): a read of APR_BQ[1]. -/
def execAprBqRead (src : HostSrc) (form : ReadForm) (s : State) : Out State :=
  complete (Instr.wf (.aprBqRead src form)) s (s.hostRead src 0x1D00608 form)

/-- FLT_EVQ_READ (R534): a read of FLT_EVQ[1]. -/
def execFltEvqRead (src : HostSrc) (form : ReadForm) (s : State) : Out State :=
  complete (Instr.wf (.fltEvqRead src form)) s (s.hostRead src 0x200058 form)

/-- CNT_LOUPE_READ (R562): a read of CNT_LOUPE[2]. -/
def execCntLoupeRead (src : HostSrc) (form : ReadForm) (s : State) : Out State :=
  complete (Instr.wf (.cntLoupeRead src form)) s (s.hostRead src 0x2902018 form)

/-- MAC_PTP_TS_READ (R398): a read of MAC_PTP_TS[n][1]. -/
def execMacPtpTsRead (src : HostSrc) (n : Nat) (form : ReadForm) (s : State) : Out State :=
  complete (Instr.wf (.macPtpTsRead src n form)) s (s.hostRead src (0x2000048 + 0x4000 * n) form)

/-! ### Configuration requests (R434) -/

/-- A write of the Device Control register of a function's configuration space sets its Max Payload Size and Max Read Request Size (R435). -/
def State.deviceControl (s : State) (func reg value : Nat) : State :=
  if reg = Config.deviceControl.val then
    { s with host := { s.host with sizes := s.host.sizes.put (fun _ => (0, 2)) func (bitsGet value 5 3, bitsGet value 12 3) } }
  else s

/-- A configuration request: none is answered while the core is down or the endpoint in reset; retried before SERVE or SAFE; in SAFE
answered by PF0 and PF4. -/
def State.config (s : State) (src : HostSrc) (reg : Nat) (write : Bool) (value : Nat) : State :=
  if !s.coreUp || !s.epUp src.ep then s.emit .unreachable
  else if !s.barUp then s.emit .cfgRetry
  else if s.accessMode == .safe && !isManager src then s.emit .unreachable
  else (if write then s.deviceControl src.func reg value else s).emit .cfgAnswer

/-- CONFIG_REQUEST (R434). -/
def execConfigRequest (src : HostSrc) (reg : Nat) (write : Bool) (value : Nat) (s : State) : Out State :=
  complete (Instr.wf (.configRequest src reg write value)) s (s.config src reg write value)

/-! ### Writes -/

/-- REGISTER_WRITE (R572). -/
def execRegisterWrite (src : HostSrc) (bar off : Nat) (words : List (Nat × Nat)) (s : State) : Out State :=
  complete (Instr.wf (.registerWrite src bar off words)) s (s.hostWrite src bar off words)

/-- PACE_TARGET_WRITE (R77). -/
def execPaceTargetWrite (src : HostSrc) (value : Nat) (s : State) : Out State :=
  complete (Instr.wf (.paceTargetWrite src value)) s (s.bar0 src 0x600020 value)

/-- PACE_XOFF_IN_WRITE (R78). -/
def execPaceXoffInWrite (src : HostSrc) (i value : Nat) (s : State) : Out State :=
  complete (Instr.wf (.paceXoffInWrite src i value)) s (s.bar0 src (0x600140 + 8 * i) value)

/-- PACE_XOFF_OUT_WRITE (R67). -/
def execPaceXoffOutWrite (src : HostSrc) (i value : Nat) (s : State) : Out State :=
  complete (Instr.wf (.paceXoffOutWrite src i value)) s (s.bar0 src (0x600100 + 8 * i) value)

/-- The level of XOFF_OUT[i]: high outside SERVE; in SERVE as FORCE, and under ENABLE the watermark, say (R67, R68). -/
def State.xoffOut (s : State) (i : Nat) : Bool :=
  s.mode != .serve || s.bit (R.PACE_XOFF_OUT.FORCE i) || (s.bit (R.PACE_XOFF_OUT.ENABLE i) && s.wm (s.get (R.PACE_XOFF_OUT.WM i)))

/-- BUF_WM_WRITE (R66). -/
def execBufWmWrite (src : HostSrc) (n value : Nat) (s : State) : Out State :=
  complete (Instr.wf (.bufWmWrite src n value)) s (s.bar0 src (0x1B04000 + 8 * n) value)

/-- APR_RES_WRITE (R312). -/
def execAprResWrite (src : HostSrc) (r value : Nat) (s : State) : Out State :=
  complete (Instr.wf (.aprResWrite src r value)) s (s.bar0 src (0x1D08000 + 16 * r) value)

/-- SWC_DQ_WRITE (R290). -/
def execSwcDqWrite (src : HostSrc) (q value : Nat) (s : State) : Out State :=
  complete (Instr.wf (.swcDqWrite src q value)) s (s.bar0 src (0x1C80000 + 8 * q) value)

/-- HOST_Q_WRITE (R441). -/
def execHostQWrite (src : HostSrc) (q value : Nat) (s : State) : Out State :=
  complete (Instr.wf (.hostQWrite src q value)) s (s.bar0 src (0x2740000 + 16 * q) value)

/-- HOST_QBASE_WRITE (R441). -/
def execHostQbaseWrite (src : HostSrc) (q value : Nat) (s : State) : Out State :=
  complete (Instr.wf (.hostQbaseWrite src q value)) s (s.bar0 src (0x2740008 + 16 * q) value)

/-- DMA_RING_WRITE (R454). -/
def execDmaRingWrite (src : HostSrc) (value : Nat) (s : State) : Out State :=
  complete (Instr.wf (.dmaRingWrite src value)) s (s.bar0 src 0x2800000 value)

/-- DMA_DOORBELL (R454). -/
def execDmaDoorbell (src : HostSrc) (value : Nat) (s : State) : Out State :=
  complete (Instr.wf (.dmaDoorbell src value)) s (s.bar0 src 0x2800008 value)

/-- CMD_RING_WRITE (R458). -/
def execCmdRingWrite (src : HostSrc) (ring value : Nat) (s : State) : Out State :=
  complete (Instr.wf (.cmdRingWrite src ring value)) s (s.bar0 src (0x400000 + 32 * ring) value)

/-- CMD_POST_WRITE (R458). -/
def execCmdPostWrite (src : HostSrc) (ring value : Nat) (s : State) : Out State :=
  complete (Instr.wf (.cmdPostWrite src ring value)) s (s.bar0 src (0x400008 + 32 * ring) value)

/-- TIME_ADJ_WRITE (R400). -/
def execTimeAdjWrite (src : HostSrc) (value : Nat) (s : State) : Out State :=
  complete (Instr.wf (.timeAdjWrite src value)) s (s.bar0 src 0x700008 value)

/-- TIME_OFFSET_WRITE (R401). -/
def execTimeOffsetWrite (src : HostSrc) (value : Nat) (s : State) : Out State :=
  complete (Instr.wf (.timeOffsetWrite src value)) s (s.bar0 src 0x700010 value)

/-- The value of SEC_MSA_CMD that starts an operation. -/
def msaValue (op value : Nat) : Nat := bitsSet (bitsSet value 61 2 op) 63 1 1

/-- MSA_INSTALL (R405). -/
def execMsaInstall (src : HostSrc) (value : Nat) (s : State) : Out State :=
  complete (Instr.wf (.msaInstall src value)) s (s.bar0 src 0x2200840 (msaValue 0 value))

/-- MSA_INVALIDATE (R405). -/
def execMsaInvalidate (src : HostSrc) (value : Nat) (s : State) : Out State :=
  complete (Instr.wf (.msaInvalidate src value)) s (s.bar0 src 0x2200840 (msaValue 1 value))

/-- MSA_READ_PN (R405). -/
def execMsaReadPn (src : HostSrc) (value : Nat) (s : State) : Out State :=
  complete (Instr.wf (.msaReadPn src value)) s (s.bar0 src 0x2200840 (msaValue 2 value))

/-- MSEC_PORT_WRITE (R403). -/
def execMsecPortWrite (src : HostSrc) (n value : Nat) (s : State) : Out State :=
  complete (Instr.wf (.msecPortWrite src n value)) s (s.bar0 src (0x2200000 + 8 * n) value)

/-- MAC_PREEMPT_WRITE (R396). -/
def execMacPreemptWrite (src : HostSrc) (n value : Nat) (s : State) : Out State :=
  complete (Instr.wf (.macPreemptWrite src n value)) s (s.bar0 src (0x2000030 + 0x4000 * n) value)

/-- CNT_PROBE_WRITE (R549). -/
def execCntProbeWrite (src : HostSrc) (value : Nat) (s : State) : Out State :=
  complete (Instr.wf (.cntProbeWrite src value)) s (s.bar0 src 0x2900010 value)

/-- BIST_WINDOW_OPEN (R542): BIST_CTRL with WINDOW = 1. -/
def execBistWindowOpen (src : HostSrc) (value : Nat) (s : State) : Out State :=
  complete (Instr.wf (.bistWindowOpen src value)) s (s.bar0 src 0x2A00000 (bitsSet value 8 1 1))

/-- BIST_START (R543): BIST_CTRL with START = 1. -/
def execBistStart (src : HostSrc) (value : Nat) (s : State) : Out State :=
  complete (Instr.wf (.bistStart src value)) s (s.bar0 src 0x2A00000 (bitsSet value 4 1 1))

/-- BIST_WINDOW_CLOSE (R546): BIST_CTRL with WINDOW = 0. -/
def execBistWindowClose (src : HostSrc) (value : Nat) (s : State) : Out State :=
  complete (Instr.wf (.bistWindowClose src value)) s (s.bar0 src 0x2A00000 (bitsSet value 8 1 0))

/-- FLT_FORCE_WRITE (R533). -/
def execFltForceWrite (src : HostSrc) (w value : Nat) (s : State) : Out State :=
  complete (Instr.wf (.fltForceWrite src w value)) s (s.bar0 src (0x200020 + 8 * w) value)

/-- FLT_STATUS_CLEAR (R527). -/
def execFltStatusClear (src : HostSrc) (w value : Nat) (s : State) : Out State :=
  complete (Instr.wf (.fltStatusClear src w value)) s (s.bar0 src (0x200000 + 8 * w) value)

/-- TOP_MODE_REQ_RESTART (R506): a write of OP = 1. -/
def execTopModeReqRestart (src : HostSrc) (value : Nat) (s : State) : Out State :=
  complete (Instr.wf (.topModeReqRestart src value)) s (s.bar0 src 0x18 (bitsSet value 0 2 1))

/-- KEEP_TOD_WRITE (R514). -/
def execKeepTodWrite (src : HostSrc) (value : Nat) (s : State) : Out State :=
  complete (Instr.wf (.keepTodWrite src value)) s (s.bar0 src 0x100020 value)

/-- HOST_WAKE_CLEAR (R453). -/
def execHostWakeClear (src : HostSrc) (w value : Nat) (s : State) : Out State :=
  complete (Instr.wf (.hostWakeClear src w value)) s (s.bar0 src (0x27A0000 + 8 * w) value)

/-- A capture register: VALID in bit 63 is its one writable field, cleared by writing 1. -/
def isCapture (off : Nat) : Bool :=
  match regAt off with
  | some d => d.fields.any (fun f => f.lo == 63 && f.w == 1 && f.acc == some .w1c)
  | none => false

/-- CAPTURE_REARM (R100): a write to a capture register. -/
def execCaptureRearm (src : HostSrc) (off value : Nat) (s : State) : Out State :=
  complete (Instr.wf (.captureRearm src off value)) s (if isCapture off then s.bar0 src off value else s)

/-- CNT_XRING_WRITE (R564). -/
def execCntXringWrite (src : HostSrc) (value : Nat) (s : State) : Out State :=
  complete (Instr.wf (.cntXringWrite src value)) s (s.bar0 src 0x2903000 value)

end Sys2Proof.Machine
end

