-- ==== Sys2Proof/Machine/SMBus.lean ====
section
/-! DEFINITION. The SMBus management port (R481, R506, R536, R584). -/
namespace Sys2Proof.Machine

/-- The transfer and byte count of a listed command code. -/
def smbListed (code : Nat) : Option (SmbKind × Nat) :=
  match code with
  | 0x30 => some (.blockWrite, 6)
  | 0x31 => some (.blockRead, 32)
  | 0x32 => some (.blockRead, 32)
  | 0x34 => some (.blockWrite, 4)
  | 0x35 => some (.blockRead, 32)
  | 0x40 => some (.blockWrite, 1)
  | _ => none

/-- How the port answers a transaction (R584): one to another address is none of its own; of its own, the command code is not acknowledged,
the transaction is ignored, or `body` runs. The port lies in the keeper island. -/
def State.smb (s : State) (code : Nat) (tx : SmbTx) (body : State → State) : State :=
  if !s.power.keeper || tx.addr != 0x58 + s.power.smbAddr then s
  else match smbListed code with
    | none => s.emit .smbusNack
    | some (k, n) =>
      if tx.kind != k then s.emit .smbusNack
      else if !tx.pecGood || (k == .blockWrite && tx.data.length != n) then s
      else body s

/-- SMB_JRN_POINTER (R481), command 0x30. -/
def execSmbJrnPointer (tx : SmbTx) (s : State) : Out State :=
  complete true s (s.smb 0x30 tx fun t => { t with cmd := { t.cmd with jptr := 256 * leAt tx.data 0 6 } })

/-- The next 32 B of the journal, and the pointer behind them: after byte 255 it returns to byte 0 of the same entry (KL-7,
R597). -/
def State.journalBlock (s : State) : State :=
  let seq := s.cmd.jptr / 256
  let off := s.cmd.jptr % 256
  let t := s.emit (.smbus (slice (s.jbytes seq 0 32) off 32))
  { t with cmd := { t.cmd with jptr := 256 * seq + (off + 32) % 256 } }

/-- SMB_JRN_READ (R481), command 0x31. -/
def execSmbJrnRead (tx : SmbTx) (s : State) : Out State := complete true s (s.smb 0x31 tx State.journalBlock)

/-- SMB_JRN_STATUS (R481), command 0x32. -/
def execSmbJrnStatus (tx : SmbTx) (s : State) : Out State :=
  complete true s (s.smb 0x32 tx fun t =>
    t.emit (.smbus ([0x300000, 0x300008, 0x300018, 0x300010].flatMap fun o => leBytes 8 (t.word o).toNat)))

/-- SMB_LOG_POINTER (R536), command 0x34. -/
def execSmbLogPointer (tx : SmbTx) (s : State) : Out State :=
  complete true s (s.smb 0x34 tx fun t => { t with fault := { t.fault with logPtr := leAt tx.data 0 4 } })

/-- The 32 B of a fault log slot. -/
def State.logBytes (s : State) (seq : Nat) : List Byte :=
  (List.range 4).flatMap fun i => leBytes 8 (s.word (0x208000 + 32 * (seq % 1024) + 8 * i)).toNat

/-- SMB_LOG_READ (R536), command 0x35. -/
def execSmbLogRead (tx : SmbTx) (s : State) : Out State :=
  complete true s (s.smb 0x35 tx fun t =>
    let u := t.emit (.smbus (t.logBytes t.fault.logPtr))
    { u with fault := { u.fault with logPtr := wrapAdd 32 u.fault.logPtr 1 } })

/-- Command 0x40 acts in PROVE, LOAD, SERVE and SAFE, on the operation it carries (R506). -/
def State.smbMode (s : State) (tx : SmbTx) (op : Nat) (body : State → State) : State :=
  s.smb 0x40 tx fun t =>
    if (t.mode == .prove || t.mode == .load || t.mode == .serve || t.mode == .safe) && leAt tx.data 0 1 == op then body t else t

/-- SMB_MODE_QUERY (R506): operation 0 changes nothing. -/
def execSmbModeQuery (tx : SmbTx) (s : State) : Out State := complete true s (s.smbMode tx 0 id)

/-- SMB_MODE_RESTART (R506). -/
def execSmbModeRestart (tx : SmbTx) (s : State) : Out State := complete true s (s.smbMode tx 1 State.restart)

/-- SMB_MODE_SAFE (R506): a device in SAFE stays as it is. -/
def execSmbModeSafe (tx : SmbTx) (s : State) : Out State :=
  complete true s (s.smbMode tx 2 fun t => if t.mode == .safe then t else t.toSafe 4)

/-- SMB_UNLISTED_COMMAND (R584): a code that is not listed, or a listed code with another transfer than its own. -/
def execSmbUnlistedCommand (code : Nat) (tx : SmbTx) (s : State) : Out State :=
  complete (Instr.wf (.smbUnlistedCommand code tx)) s (s.smb code tx id)

end Sys2Proof.Machine
end

