-- ==== Sys2Proof/Machine/Versions.lean ====
section
/-! DEFINITION. Rule versions: staging, abandoning, committing, retiring, settling (R144, R175, R203, R222 to R234). -/
namespace Sys2Proof.Machine

/-! ### Sweeps (R175, R203, R225) -/

/-- An exact-match entry once O has moved: none when it is removed. -/
def Entry.settle (o : Nat) (e : Entry) : Option Entry :=
  if e.dying && settled o e.death then none
  else some (if e.born && settled o e.birth then { e with flags := bitsSet e.flags 4 1 0 } else e)

/-- An exact-match entry once version `v` has been abandoned. -/
def Entry.abandon (v : Nat) (e : Entry) : Option Entry :=
  if e.born && e.birth == v then none
  else some (if e.dying && e.death == v then { e with flags := bitsSet e.flags 5 1 0 } else e)

/-- A sweep over the entries of every exact-match table. -/
def State.sweepEntries (s : State) (f : Entry → Option Entry) : State :=
  (s.tablesOf exactKind).foldl (fun (t : State) n =>
    (t.entriesOf n).foldl (fun (u : State) (x : Nat × Entry) =>
      match f x.2 with
      | none => u.clearEntry n (x.1 / 4) (x.1 % 4)
      | some e => if e = x.2 then u else u.putEntry n (x.1 / 4) (x.1 % 4) e) t) s

/-! ### VERSION_STAGE (R224, R225) -/

/-- A VERSION_COMMIT that is to commit S waits. -/
def State.rulesWaiting (s : State) : Bool :=
  match s.ver.waiting with
  | some q => (s.findCmd q).any fun c => (c.op 16 1).testBit 0
  | none => false

/-- VERSION_STAGE with one operation; a reserved operation is refused by either of its rows. -/
def State.versionStage (s : State) (seq op : Nat) (body : State → State) : State :=
  s.runCmd seq 0x20 fun c t =>
    let o := c.op 16 1
    if o ≠ op ∧ o < 2 then t
    else if !c.formed [(17, 47)] || decide (2 ≤ o) then t.refuse seq 1
    else body t

/-- VERSION_STAGE (R224), operation OPEN. -/
def execVersionStageOpen (seq : Nat) (s : State) : Out State :=
  complete true s (s.versionStage seq 0 fun t =>
    if t.bit R.APR_VERSION.STAGE_OPEN then t.refuse seq 2
    else
      let v := (t.current + 1) % 16
      ((t.setBit R.APR_VERSION.STAGE_OPEN true).set R.APR_VERSION.STAGED v).done seq [(16, 1, v)])

/-- VERSION_STAGE (R224), operation ABANDON: unless it is refused, the sweep begins, or, when one runs and S is still staged, it
completes with that sweep. -/
def execVersionStageAbandon (seq : Nat) (s : State) : Out State :=
  complete true s (s.versionStage seq 1 fun t =>
    if !t.bit R.APR_VERSION.STAGE_OPEN then t.refuse seq 3
    else if t.rulesWaiting then t.refuse seq 2
    else { (t.updCmd seq fun c => { c with started := true }) with
      ver := { t.ver with abandoning := t.ver.abandoning ++ [(seq, t.now)] } })

/-- The sweep of R225 over lens arrays, exact-match tables and tries. -/
def State.abandonSweep (s : State) (v : Nat) : State :=
  let s1 := (List.range 16).foldl (fun (t : State) a => (t.compareQueued a).sweepRows a (LensRow.abandon v)) s
  (s1.sweepEntries (Entry.abandon v)).sweepTries (Prefix.abandon v) (abandonLine v)

/-- ABANDON_SWEEP_COMPLETE (R225): every write of the sweep has landed; S is unstaged. -/
def execAbandonSweepComplete (s : State) : Out State :=
  complete true s
    (if s.executing && !s.ver.abandoning.isEmpty then
      let s1 := (s.abandonSweep (s.get R.APR_VERSION.STAGED)).setBit R.APR_VERSION.STAGE_OPEN false
      s.ver.abandoning.foldl (fun (t : State) a => t.finish a.1 0 0 0 a.2 [])
        { s1 with ver := { s1.ver with abandoning := [], stagers := [] } }
    else s)

/-! ### VERSION_COMMIT (R226 to R228) -/

/-- RULES and BANK of a VERSION_COMMIT. -/
def commitRules (c : OpenCmd) : Bool := (c.op 16 1).testBit 0
def commitBank (c : OpenCmd) : Bool := (c.op 16 1).testBit 1

/-- The reason of the first check of R226 that fails. -/
def State.commitBad (s : State) (c : OpenCmd) : Option Nat :=
  let b := c.op 18 1 % 2
  if !c.formed [(19, 45)] || decide (4 ≤ c.op 16 1) || decide (16 ≤ c.op 17 1) || decide (2 ≤ c.op 18 1) ||
      (!commitRules c && !commitBank c) then some 1
  else if commitRules c && s.staged != some (c.op 17 1) then some 4
  else if commitBank c && (b == s.get R.MCODE_ACTIVE.BANK || !s.bit (R.MCODE_VERSION.LOADED b)) then some 0xD
  else none

/-- An MCODE_PATCH was accepted before command `seq` and has not completed (R147). -/
def State.patchAhead (s : State) (seq : Nat) : Bool := (s.cmd.open_.takeWhile fun d => d.seq != seq).any fun d => d.code == 0x22

/-- VERSION_COMMIT (R226): the checks; a commit that passes them waits for its conditions. One that switches banks starts after every
MCODE_PATCH accepted before it has completed, and waits until then (R147, R227). -/
def execVersionCommit (seq : Nat) (s : State) : Out State :=
  complete true s (s.runCmd seq 0x21 fun c t =>
    if t.ver.waiting.isSome then t
    else if commitBank c && t.patchAhead seq then t.setBit R.APR_VERSION.COMMIT_WAIT true
    else match t.commitBad c with
      | some r => (t.setBit R.APR_VERSION.COMMIT_WAIT false).refuse seq r
      | none =>
        let t1 := (t.updCmd seq fun d => { d with started := true }).setBit R.APR_VERSION.COMMIT_WAIT true
        { t1 with ver := { t1.ver with waiting := some seq } })

/-- Every write of a table line has completed in every replica (R210). -/
def State.linesLanded (s : State) : Bool :=
  s.mem.queue.all (fun r => r.cls != 3) && s.mem.far.all (fun r => r.kind != .table) && s.mem.farWait.all fun w => w.kind != .table

/-- The conditions of R210 and R227 hold for the commit that waits. -/
def State.commitReady (s : State) (c : OpenCmd) : Bool :=
  let before := s.cmd.open_.takeWhile fun d => d.seq != c.seq
  !s.patchAhead c.seq && before.all (fun d => !s.ver.stagers.contains d.seq) && s.linesLanded &&
    (!commitBank c || !s.bit R.MCODE_ACTIVE.DRAINING) && (!commitRules c || decide (s.get R.APR_VERSION.LIVE < 4))

/-- CURRENT := S, and staging closes; `id` is the drain round of the version that is no longer stamped (R228, R231). -/
def State.commitVersion (s : State) (id : Nat) : State :=
  let old := s.current
  let s1 := ((s.set R.APR_VERSION.CURRENT (s.get R.APR_VERSION.STAGED)).setBit R.APR_VERSION.STAGE_OPEN false).set R.APR_VERSION.LIVE
    (s.get R.APR_VERSION.LIVE + 1)
  { s1 with ver := { s1.ver with stagers := [], verRound := s1.ver.verRound.put (fun _ => 0) old id } }

/-- MCODE_ACTIVE.BANK changes, and PRISMk_ALLOW shows the new bank (DEDUCED, log 40); the apertures of prisms whose banks are not calendar-same refuse until the token of round `id` has
left (R97, R144, R228). -/
def State.commitSwitch (s : State) (id : Nat) : State :=
  let s1 := ((s.set R.MCODE_ACTIVE.BANK (1 - s.get R.MCODE_ACTIVE.BANK)).setBit R.MCODE_ACTIVE.DRAINING true).schedRegs
  { s1 with
    ver := { s1.ver with bankRound := id }
    apr := { s1.apr with switching := (List.range 16).filter fun p => !s.bit (R.PRISM_SCHED.CAL_SAME p 0) } }

/-- The takeover of the commit `c` (R228). -/
def State.takeover (s : State) (c : OpenCmd) : State :=
  let r := s.startRound (List.range 16) true
  let s1 := if commitRules c then r.2.commitVersion r.1 else r.2
  let s2 := if commitBank c then s1.commitSwitch r.1 else s1
  let s3 := ({ s2 with ver := { s2.ver with waiting := none, takeNs := some s.ns } }).setBit R.APR_VERSION.COMMIT_WAIT false
  s3.done c.seq [(16, 1, s3.current), (17, 1, s3.get R.MCODE_ACTIVE.BANK)]

/-- COMMIT_TAKEOVER (R228). -/
def execCommitTakeover (s : State) : Out State :=
  complete true s (match (if s.executing then s.ver.waiting else none) with
    | none => s
    | some q => match s.findCmd q with
      | none => s
      | some c => if s.commitReady c then s.takeover c else s)

/-! ### Retirement and settling (R175, R203, R233) -/

/-- O may retire. -/
def State.mayRetire (s : State) : Bool :=
  s.oldest != s.current && !s.roundOpen (SMap.find (fun _ => 0) s.ver.verRound s.oldest) && s.get R.LENS_VERSION.SETTLING == 0 &&
    !s.bit R.TBL_SETTLE.SETTLING

/-- VERSION_RETIRE (R233): O advances and the settle passes for the new O begin. -/
def execVersionRetire (s : State) : Out State :=
  complete true s (if s.forwarding && s.mayRetire then
      let o := (s.oldest + 1) % 16
      ((((s.set R.LENS_VERSION.OLDEST o).set R.APR_VERSION.OLDEST o).set R.APR_VERSION.LIVE (s.get R.APR_VERSION.LIVE - 1)).set
        R.LENS_VERSION.SETTLING 0xFFFF).setBit R.TBL_SETTLE.SETTLING true
    else s)

/-- The pass of lens array `a`, or for 16 of the tables, has visited every row. -/
def State.settlePass (s : State) (a : Nat) : State :=
  let o := s.oldest
  if a < 16 then
    let m := s.get R.LENS_VERSION.SETTLING
    if m.testBit a then ((s.compareQueued a).sweepRows a (LensRow.settle o)).set R.LENS_VERSION.SETTLING (m - 2 ^ a) else s
  else if s.bit R.TBL_SETTLE.SETTLING then
    ((s.sweepEntries (Entry.settle o)).sweepTries (Prefix.settle o) (settleLine o)).setBit R.TBL_SETTLE.SETTLING false
  else s

/-- SETTLE_PASS_COMPLETE (R175, R203): `a` is a lens array, or 16 for the tables. -/
def execSettlePassComplete (a : Nat) (s : State) : Out State :=
  complete (Instr.wf (.settlePassComplete a)) s (if s.forwarding then s.settlePass a else s)

end Sys2Proof.Machine
end

