-- ==== Sys2Proof/Machine/Dispatch.lean ====
section
/-! DEFINITION. exec: one arm per command, one direct call of its meaning. -/
namespace Sys2Proof.Machine

/-- The effect of one command on everything but the queue. -/
def exec (i : Instr) (s : State) : Host.Outcome State Fault Refusal :=
  match i with
  | .cmdDoorbell src ring value => Sys2Proof.Machine.execCmdDoorbell src ring value s
  | .commandAccept fails => Sys2Proof.Machine.execCommandAccept fails s
  | .commandComplete seq fails => Sys2Proof.Machine.execCommandComplete seq fails s
  | .gatePulse => Sys2Proof.Machine.execGatePulse s
  | .gateTimeout seq => Sys2Proof.Machine.execGateTimeout seq s
  | .tblInsert seq images => Sys2Proof.Machine.execTblInsert seq images s
  | .tblDelete seq images => Sys2Proof.Machine.execTblDelete seq images s
  | .tblSearch seq image => Sys2Proof.Machine.execTblSearch seq image s
  | .tblNext seq => Sys2Proof.Machine.execTblNext seq s
  | .tblFlushPort seq => Sys2Proof.Machine.execTblFlushPort seq s
  | .lensWrite seq block => Sys2Proof.Machine.execLensWrite seq block s
  | .lensDeath seq block => Sys2Proof.Machine.execLensDeath seq block s
  | .lensRevive seq block => Sys2Proof.Machine.execLensRevive seq block s
  | .lensInvalidate seq => Sys2Proof.Machine.execLensInvalidate seq s
  | .versionStageOpen seq => Sys2Proof.Machine.execVersionStageOpen seq s
  | .versionStageAbandon seq => Sys2Proof.Machine.execVersionStageAbandon seq s
  | .abandonSweepComplete => Sys2Proof.Machine.execAbandonSweepComplete s
  | .versionCommit seq => Sys2Proof.Machine.execVersionCommit seq s
  | .commitTakeover => Sys2Proof.Machine.execCommitTakeover s
  | .mcodePatch seq patch => Sys2Proof.Machine.execMcodePatch seq patch s
  | .shaperSet seq => Sys2Proof.Machine.execShaperSet seq s
  | .shaperQuery seq => Sys2Proof.Machine.execShaperQuery seq s
  | .gateListSet seq entries => Sys2Proof.Machine.execGateListSet seq entries s
  | .gateListStop seq => Sys2Proof.Machine.execGateListStop seq s
  | .meterSet seq => Sys2Proof.Machine.execMeterSet seq s
  | .epMigrateLocal seq => Sys2Proof.Machine.execEpMigrateLocal seq s
  | .epMigrateOut seq => Sys2Proof.Machine.execEpMigrateOut seq s
  | .epMigrateIn seq => Sys2Proof.Machine.execEpMigrateIn seq s
  | .migTokenArrival idx => Sys2Proof.Machine.execMigTokenArrival idx s
  | .fenceLimitExpiry idx => Sys2Proof.Machine.execFenceLimitExpiry idx s
  | .tailWindowEnd idx => Sys2Proof.Machine.execTailWindowEnd idx s
  | .markerLimitExpiry idx => Sys2Proof.Machine.execMarkerLimitExpiry idx s
  | .epPark seq => Sys2Proof.Machine.execEpPark seq s
  | .parkComplete ep => Sys2Proof.Machine.execParkComplete ep s
  | .epUnpark seq => Sys2Proof.Machine.execEpUnpark seq s
  | .expose seq => Sys2Proof.Machine.execExpose seq s
  | .exposureSeal => Sys2Proof.Machine.execExposureSeal s
  | .exposureTimeout => Sys2Proof.Machine.execExposureTimeout s
  | .counterClear seq => Sys2Proof.Machine.execCounterClear seq s
  | .mirrorSet seq => Sys2Proof.Machine.execMirrorSet seq s
  | .fabAddressQuery seq => Sys2Proof.Machine.execFabAddressQuery seq s
  | .fabAddressSet seq => Sys2Proof.Machine.execFabAddressSet seq s
  | .fabAddressClaim seq => Sys2Proof.Machine.execFabAddressClaim seq s
  | .claimTimeout seq => Sys2Proof.Machine.execClaimTimeout seq s
  | .fabLinkDisable seq => Sys2Proof.Machine.execFabLinkDisable seq s
  | .fabLinkEnable seq => Sys2Proof.Machine.execFabLinkEnable seq s
  | .fabLinkRetrain seq => Sys2Proof.Machine.execFabLinkRetrain seq s
  | .fabLinkWidth seq => Sys2Proof.Machine.execFabLinkWidth seq s
  | .fabLinkAutoOff seq => Sys2Proof.Machine.execFabLinkAutoOff seq s
  | .fabLinkAutoOn seq => Sys2Proof.Machine.execFabLinkAutoOn seq s
  | .modeRequestQuery seq => Sys2Proof.Machine.execModeRequestQuery seq s
  | .modeRequestRestart seq => Sys2Proof.Machine.execModeRequestRestart seq s
  | .modeRequestSafe seq => Sys2Proof.Machine.execModeRequestSafe seq s
  | .modeRequestTakeover => Sys2Proof.Machine.execModeRequestTakeover s
  | .nop seq => Sys2Proof.Machine.execNop seq s
  | .unknownCode seq => Sys2Proof.Machine.execUnknownCode seq s
  | .registerWrite src bar off words => Sys2Proof.Machine.execRegisterWrite src bar off words s
  | .paceTargetWrite src value => Sys2Proof.Machine.execPaceTargetWrite src value s
  | .paceXoffInWrite src idx value => Sys2Proof.Machine.execPaceXoffInWrite src idx value s
  | .paceXoffOutWrite src idx value => Sys2Proof.Machine.execPaceXoffOutWrite src idx value s
  | .bufWmWrite src n value => Sys2Proof.Machine.execBufWmWrite src n value s
  | .aprResWrite src r value => Sys2Proof.Machine.execAprResWrite src r value s
  | .swcDqWrite src q value => Sys2Proof.Machine.execSwcDqWrite src q value s
  | .hostQWrite src q value => Sys2Proof.Machine.execHostQWrite src q value s
  | .hostQbaseWrite src q value => Sys2Proof.Machine.execHostQbaseWrite src q value s
  | .queueDoorbell src q value => Sys2Proof.Machine.execQueueDoorbell src q value s
  | .dmaRingWrite src value => Sys2Proof.Machine.execDmaRingWrite src value s
  | .dmaDoorbell src value => Sys2Proof.Machine.execDmaDoorbell src value s
  | .cmdRingWrite src ring value => Sys2Proof.Machine.execCmdRingWrite src ring value s
  | .cmdPostWrite src ring value => Sys2Proof.Machine.execCmdPostWrite src ring value s
  | .timeAdjWrite src value => Sys2Proof.Machine.execTimeAdjWrite src value s
  | .timeOffsetWrite src value => Sys2Proof.Machine.execTimeOffsetWrite src value s
  | .msaInstall src value => Sys2Proof.Machine.execMsaInstall src value s
  | .msaInvalidate src value => Sys2Proof.Machine.execMsaInvalidate src value s
  | .msaReadPn src value => Sys2Proof.Machine.execMsaReadPn src value s
  | .msecPortWrite src n value => Sys2Proof.Machine.execMsecPortWrite src n value s
  | .macPreemptWrite src n value => Sys2Proof.Machine.execMacPreemptWrite src n value s
  | .cntProbeWrite src value => Sys2Proof.Machine.execCntProbeWrite src value s
  | .bistWindowOpen src value => Sys2Proof.Machine.execBistWindowOpen src value s
  | .bistWindowReady => Sys2Proof.Machine.execBistWindowReady s
  | .bistStart src value => Sys2Proof.Machine.execBistStart src value s
  | .bistWindowClose src value => Sys2Proof.Machine.execBistWindowClose src value s
  | .fltForceWrite src w value => Sys2Proof.Machine.execFltForceWrite src w value s
  | .fltStatusClear src w value => Sys2Proof.Machine.execFltStatusClear src w value s
  | .topModeReqRestart src value => Sys2Proof.Machine.execTopModeReqRestart src value s
  | .keepTodWrite src value => Sys2Proof.Machine.execKeepTodWrite src value s
  | .hostWakeClear src w value => Sys2Proof.Machine.execHostWakeClear src w value s
  | .captureRearm src off value => Sys2Proof.Machine.execCaptureRearm src off value s
  | .cntXringWrite src value => Sys2Proof.Machine.execCntXringWrite src value s
  | .aprBqRead src form => Sys2Proof.Machine.execAprBqRead src form s
  | .fltEvqRead src form => Sys2Proof.Machine.execFltEvqRead src form s
  | .cntLoupeRead src form => Sys2Proof.Machine.execCntLoupeRead src form s
  | .macPtpTsRead src n form => Sys2Proof.Machine.execMacPtpTsRead src n form s
  | .configRequest src reg write value => Sys2Proof.Machine.execConfigRequest src reg write value s
  | .smbJrnPointer tx => Sys2Proof.Machine.execSmbJrnPointer tx s
  | .smbJrnRead tx => Sys2Proof.Machine.execSmbJrnRead tx s
  | .smbJrnStatus tx => Sys2Proof.Machine.execSmbJrnStatus tx s
  | .smbLogPointer tx => Sys2Proof.Machine.execSmbLogPointer tx s
  | .smbLogRead tx => Sys2Proof.Machine.execSmbLogRead tx s
  | .smbModeQuery tx => Sys2Proof.Machine.execSmbModeQuery tx s
  | .smbModeRestart tx => Sys2Proof.Machine.execSmbModeRestart tx s
  | .smbModeSafe tx => Sys2Proof.Machine.execSmbModeSafe tx s
  | .smbUnlistedCommand code tx => Sys2Proof.Machine.execSmbUnlistedCommand code tx s
  | .frameReceive n bytes firstNs fcs kind preemptable => Sys2Proof.Machine.execFrameReceive n bytes firstNs fcs kind preemptable s
  | .cellWrite src bank => Sys2Proof.Machine.execCellWrite src bank s
  | .pauseRefresh n => Sys2Proof.Machine.execPauseRefresh n s
  | .pauseFrame n quanta => Sys2Proof.Machine.execPauseFrame n quanta s
  | .priorityPauseFrame n enable quanta => Sys2Proof.Machine.execPriorityPauseFrame n enable quanta s
  | .pauseExpiry n prio => Sys2Proof.Machine.execPauseExpiry n prio s
  | .xoffInChange idx level => Sys2Proof.Machine.execXoffInChange idx level s
  | .cutSegmentPresent n => Sys2Proof.Machine.execCutSegmentPresent n s
  | .parseCut k => Sys2Proof.Machine.execParseCut k s
  | .frameEndReport n => Sys2Proof.Machine.execFrameEndReport n s
  | .apertureDecision src => Sys2Proof.Machine.execApertureDecision src s
  | .prismStep k late => Sys2Proof.Machine.execPrismStep k late s
  | .returnReady k => Sys2Proof.Machine.execReturnReady k s
  | .farLate k => Sys2Proof.Machine.execFarLate k s
  | .enqueue => Sys2Proof.Machine.execEnqueue s
  | .switchCutStart cut => Sys2Proof.Machine.execSwitchCutStart cut s
  | .spillWriteComplete leaf => Sys2Proof.Machine.execSpillWriteComplete leaf s
  | .spillBlockFlush block far => Sys2Proof.Machine.execSpillBlockFlush block far s
  | .refillStart leaf => Sys2Proof.Machine.execRefillStart leaf s
  | .refillComplete leaf failures => Sys2Proof.Machine.execRefillComplete leaf failures s
  | .collimatorSelect o bad => Sys2Proof.Machine.execCollimatorSelect o bad s
  | .shaperTick key => Sys2Proof.Machine.execShaperTick key s
  | .starve leaf => Sys2Proof.Machine.execStarve leaf s
  | .gateTransition o => Sys2Proof.Machine.execGateTransition o s
  | .gateChange o => Sys2Proof.Machine.execGateChange o s
  | .linkUp n => Sys2Proof.Machine.execLinkUp n s
  | .macLink n aligned localFault remoteFault => Sys2Proof.Machine.execMacLink n aligned localFault remoteFault s
  | .breachLink leaf => Sys2Proof.Machine.execBreachLink leaf s
  | .breachPause leaf => Sys2Proof.Machine.execBreachPause leaf s
  | .cellFree cell requester asOwner => Sys2Proof.Machine.execCellFree cell requester asOwner s
  | .chainHandoff cell requester owner => Sys2Proof.Machine.execChainHandoff cell requester owner s
  | .verifyTimer n answered => Sys2Proof.Machine.execVerifyTimer n answered s
  | .versionRetire => Sys2Proof.Machine.execVersionRetire s
  | .settlePassComplete a => Sys2Proof.Machine.execSettlePassComplete a s
  | .paceWindowEnd first others => Sys2Proof.Machine.execPaceWindowEnd first others s
  | .paceVgood level => Sys2Proof.Machine.execPaceVgood level s
  | .paceVmaxN level => Sys2Proof.Machine.execPaceVmaxN level s
  | .vgoodTimeout => Sys2Proof.Machine.execVgoodTimeout s
  | .serviceWorkArrival sf role => Sys2Proof.Machine.execServiceWorkArrival sf role s
  | .serviceWordIssue sf => Sys2Proof.Machine.execServiceWordIssue sf s
  | .serviceResult sf data => Sys2Proof.Machine.execServiceResult sf data s
  | .blockResetComplete b => Sys2Proof.Machine.execBlockResetComplete b s
  | .blockResetFail b => Sys2Proof.Machine.execBlockResetFail b s
  | .learnInsert => Sys2Proof.Machine.execLearnInsert s
  | .agingVisit t => Sys2Proof.Machine.execAgingVisit t s
  | .hitWrite => Sys2Proof.Machine.execHitWrite s
  | .lensCompare a shadowLost => Sys2Proof.Machine.execLensCompare a shadowLost s
  | .irisCellReceive idx bytes => Sys2Proof.Machine.execIrisCellReceive idx bytes s
  | .rtReadySend idx => Sys2Proof.Machine.execRtReadySend idx s
  | .irisCtrlSend idx => Sys2Proof.Machine.execIrisCtrlSend idx s
  | .ackTimeout idx => Sys2Proof.Machine.execAckTimeout idx s
  | .retryBudget idx => Sys2Proof.Machine.execRetryBudget idx s
  | .callSend idx => Sys2Proof.Machine.execCallSend idx s
  | .echoMissed idx => Sys2Proof.Machine.execEchoMissed idx s
  | .irisTrained idx width lanes => Sys2Proof.Machine.execIrisTrained idx width lanes s
  | .laneLockLoss idx lane => Sys2Proof.Machine.execLaneLockLoss idx lane s
  | .laneThreshold idx lane rate => Sys2Proof.Machine.execLaneThreshold idx lane rate s
  | .rtReqRepeat idx => Sys2Proof.Machine.execRtReqRepeat idx s
  | .retrainComplete idx => Sys2Proof.Machine.execRetrainComplete idx s
  | .retrainTimeout idx => Sys2Proof.Machine.execRetrainTimeout idx s
  | .gaspRepeat idx => Sys2Proof.Machine.execGaspRepeat idx s
  | .advertReceive => Sys2Proof.Machine.execAdvertReceive s
  | .advertSend => Sys2Proof.Machine.execAdvertSend s
  | .advertExpiry => Sys2Proof.Machine.execAdvertExpiry s
  | .addressClaim => Sys2Proof.Machine.execAddressClaim s
  | .claimHoldEnd => Sys2Proof.Machine.execClaimHoldEnd s
  | .routeCompute => Sys2Proof.Machine.execRouteCompute s
  | .sprayEpoch => Sys2Proof.Machine.execSprayEpoch s
  | .reorderTimeout device cls => Sys2Proof.Machine.execReorderTimeout device cls s
  | .gapLimit device cls => Sys2Proof.Machine.execGapLimit device cls s
  | .irisDeadline device cls => Sys2Proof.Machine.execIrisDeadline device cls s
  | .tsyncSend => Sys2Proof.Machine.execTsyncSend s
  | .treplyReceive => Sys2Proof.Machine.execTreplyReceive s
  | .fabTimeLost => Sys2Proof.Machine.execFabTimeLost s
  | .dynamicRequest q bank => Sys2Proof.Machine.execDynamicRequest q bank s
  | .hbmRefresh q bank begins => Sys2Proof.Machine.execHbmRefresh q bank begins s
  | .hbmScrub q line errors => Sys2Proof.Machine.execHbmScrub q line errors s
  | .hbmRetrainStart m => Sys2Proof.Machine.execHbmRetrainStart m s
  | .hbmRetrainComplete m => Sys2Proof.Machine.execHbmRetrainComplete m s
  | .hbmRetrain m => Sys2Proof.Machine.execHbmRetrain m s
  | .skewWindow => Sys2Proof.Machine.execSkewWindow s
  | .farCompletion f id status latency data => Sys2Proof.Machine.execFarCompletion f id status latency data s
  | .farLink f => Sys2Proof.Machine.execFarLink f s
  | .descriptorReadComplete q data poison => Sys2Proof.Machine.execDescriptorReadComplete q data poison s
  | .descriptorReread q => Sys2Proof.Machine.execDescriptorReread q s
  | .txDescriptor q data poison => Sys2Proof.Machine.execTxDescriptor q data poison s
  | .completionTimeout idx answered => Sys2Proof.Machine.execCompletionTimeout idx answered s
  | .msixModeration func vec => Sys2Proof.Machine.execMsixModeration func vec s
  | .functionLevelReset src => Sys2Proof.Machine.execFunctionLevelReset src s
  | .hxPerstN ep level => Sys2Proof.Machine.execHxPerstN ep level s
  | .dmaDescriptorStart => Sys2Proof.Machine.execDmaDescriptorStart s
  | .dmaPulse number data status arrived => Sys2Proof.Machine.execDmaPulse number data status arrived s
  | .exportRecord loupe => Sys2Proof.Machine.execExportRecord loupe s
  | .captureWrite written => Sys2Proof.Machine.execCaptureWrite written s
  | .ppsOut => Sys2Proof.Machine.execPpsOut s
  | .chipResetComplete => Sys2Proof.Machine.execChipResetComplete s
  | .resetNLow => Sys2Proof.Machine.execResetNLow s
  | .dormantExit => Sys2Proof.Machine.execDormantExit s
  | .railGroupGood g => Sys2Proof.Machine.execRailGroupGood g s
  | .railFail g good => Sys2Proof.Machine.execRailFail g good s
  | .railRetry => Sys2Proof.Machine.execRailRetry s
  | .pwrfailN => Sys2Proof.Machine.execPwrfailN s
  | .coreSupplyLost => Sys2Proof.Machine.execCoreSupplyLost s
  | .holdUpIsolation => Sys2Proof.Machine.execHoldUpIsolation s
  | .holdUpExit => Sys2Proof.Machine.execHoldUpExit s
  | .keeperSwitch mainMv auxMv => Sys2Proof.Machine.execKeeperSwitch mainMv auxMv s
  | .keeperReturnMain mainMv auxMv dipNs => Sys2Proof.Machine.execKeeperReturnMain mainMv auxMv dipNs s
  | .keeperBrownout mainMv auxMv => Sys2Proof.Machine.execKeeperBrownout mainMv auxMv s
  | .thermalSample temps => Sys2Proof.Machine.execThermalSample temps s
  | .flashDiscovery sfdpValid octal densityMib => Sys2Proof.Machine.execFlashDiscovery sfdpValid octal densityMib s
  | .slotAuthenticate image => Sys2Proof.Machine.execSlotAuthenticate image s
  | .bistUnitComplete g sig restored => Sys2Proof.Machine.execBistUnitComplete g sig restored s
  | .bistPlanEnd => Sys2Proof.Machine.execBistPlanEnd s
  | .farPortEnumerate ports => Sys2Proof.Machine.execFarPortEnumerate ports s
  | .loadApply image plan => Sys2Proof.Machine.execLoadApply image plan s
  | .loadSched => Sys2Proof.Machine.execLoadSched s
  | .journalScan fails => Sys2Proof.Machine.execJournalScan fails s
  | .serveEntry fails => Sys2Proof.Machine.execServeEntry fails s
  | .keeperStart mainMv auxMv => Sys2Proof.Machine.execKeeperStart mainMv auxMv s
  | .railSequenceStart => Sys2Proof.Machine.execRailSequenceStart s
  | .resetNHigh => Sys2Proof.Machine.execResetNHigh s
  | .pwrfailNHigh => Sys2Proof.Machine.execPwrfailNHigh s
  | .bistGroupStart g => Sys2Proof.Machine.execBistGroupStart g s
  | .previousAddressExpiry => Sys2Proof.Machine.execPreviousAddressExpiry s
  | .openRowTimeout q bank => Sys2Proof.Machine.execOpenRowTimeout q bank s
  | .setAndHoldMac o => Sys2Proof.Machine.execSetAndHoldMac o s
  | .spillRateWindow => Sys2Proof.Machine.execSpillRateWindow s
  | .hostLinkTrained ep half rate width => Sys2Proof.Machine.execHostLinkTrained ep half rate width s

end Sys2Proof.Machine
end

