-- ==== Sys2Proof/Safety.lean ====
section
/-! DEFINITION. The terms the claims use: what a sound state of the block is, what follows every command at once, what a command
leaves as it was, and how the execution of a host command begins and ends. -/
namespace Sys2Proof.Machine

/-! ### Sound states -/

/-- The register map is in its one canonical form. -/
abbrev State.regsCanonical (s : State) : Prop := SMap.wf resetWord s.regs

/-- Every listed watermark is in the state that its occupancy and thresholds give it (R65, R275). -/
def State.watermarksAgree (s : State) : Prop := ∀ n, wmListed n = true → s.wm n = s.wmNext n

/-- The hold clock of every port and class runs exactly while a hold is in force (R307). -/
def State.holdClocksAgree (s : State) : Prop :=
  ∀ n c, n < 96 → c < 8 → (SMap.find (fun _ => 0) s.mac.holdSince (8 * n + c) ≠ 0 ↔ s.held n c = true)

/-- The cut-through descriptors in the hold stage, those in switch cut-through among them (R287, R288). -/
def State.heldCuts (s : State) : Nat := ((s.buf.handoff ++ s.buf.cutting.map (·.2)).filter fun p => p.cut && p.copy == 0).length

/-- SWC_HOLD.NOW shows the hold stage (R287). -/
def State.holdStageAgrees (s : State) : Prop := s.get R.SWC_HOLD.NOW = s.heldCuts % 2 ^ (R.SWC_HOLD.NOW).w

/-- What every step leaves true; no cell is withheld past the command that freed it (R263). -/
def State.sound (s : State) : Prop := s.watermarksAgree ∧ s.holdClocksAgree ∧ s.holdStageAgrees ∧ s.freed = []

/-! ### What follows every command at once -/

/-- The registers in which what follows a command can show: the watermarks, the counts of control frames sent and of frames
interrupted, and SWC_HOLD (R65, R287, R390, R394). -/
abbrev followReg (off : Nat) : Prop :=
  (0x1B04000 ≤ off ∧ off < 0x1B06000) ∨
    (0x2000000 ≤ off ∧ off < 0x2180000 ∧ (off % 0x4000 = 0x168 ∨ off % 0x4000 = 0x178)) ∨ off = 0x1C00010

/-- The state without its registers and outputs, and without the clocks of holds and waits, the turns, the control frames that wait
for a port and those sent, what a port is sending, the cells just freed and the counter carries that can follow any command. -/
def State.still (s : State) : State :=
  { s with
    regs := []
    out := []
    mac := { s.mac with holdSince := [], holdTotal := [], pauseSent := [], control := [], sending := [] }
    col := { s.col with waited := [], eligSince := [], inTurn := [] }
    cnt := { s.cnt with wraps := [], exposure := none }
    freed := [] }

/-- Every register reads in `t` as in `s`, but for those of `but` and those of `followReg`. -/
def State.sameRegs (s t : State) (but : Nat → Prop) : Prop :=
  (∀ off, ¬ but off → ¬ followReg off → t.word off = s.word off) ∧
    ∀ n, wmListed n = true → ¬ but (0x1B04000 + 8 * n) →
      t.get (R.BUF_WM.HIGH n) = s.get (R.BUF_WM.HIGH n) ∧ t.get (R.BUF_WM.LOW n) = s.get (R.BUF_WM.LOW n)

/-- `t` has sent `outs` after what `s` had sent, and then nothing but pause frames. -/
def State.sends (s t : State) (outs : List Emit) : Prop :=
  ∃ l : List Emit, t.out = s.out ++ outs ++ l ∧ ∀ e ∈ l, ∃ n bs, e = .frame n bs true

/-- `t` is `s` with the outputs `outs`, changed in the registers of `but` alone. -/
def State.kept (s t : State) (outs : List Emit) (but : Nat → Prop) : Prop :=
  t.still = s.still ∧ s.sameRegs t but ∧ s.sends t outs

/-! ### Host access -/

/-- A management function writes in SERVE (R434, R568). -/
abbrev State.manages (s : State) (src : HostSrc) : Prop :=
  s.mode = .serve ∧ s.reach src = true ∧ isManager src = true ∧ src.wf = true

/-- A register of BAR0 whose write does nothing beside storing its fields, and that neither a log nor a watermark touches. -/
abbrev plainReg (off : Nat) : Prop :=
  off ∉ [0x18, 0x100020, 0x201038, 0x700008, 0x700010, 0x1B00210, 0x2200840, 0x2800008, 0x2900010, 0x2A00000] ∧
    ¬ (0x200000 ≤ off ∧ off < 0x200040) ∧ macOff off 0x30 = false ∧ ¬ (0x2200000 ≤ off ∧ off < 0x2200300) ∧
    holdBit off = none ∧ ¬ followReg off

/-- Each field of the register takes the bits of `v` as its access code says; a reserved encoding leaves its field and is
counted; without one, nothing else changes (R16, R18, R573). -/
def State.stores (s t : State) (off v : Nat) (d : RegDef) : Prop :=
  t.word off = BitVec.ofNat 64 (storeFields (s.word off).toNat v d.fields).1 ∧
    (if (storeFields (s.word off).toNat v d.fields).2 then
      t.get R.TOP_REGLOG_CNT.COUNT = (s.get R.TOP_REGLOG_CNT.COUNT + 1) % 2 ^ 64
    else s.kept t [] fun k => k = off)

/-- A write event is logged (R573): counted, source 7 latched, and captured where no capture is held. -/
def State.logged (s t : State) (kind bar off : Nat) : Prop :=
  t.get R.TOP_REGLOG_CNT.COUNT = (s.get R.TOP_REGLOG_CNT.COUNT + 1) % 2 ^ 64 ∧ t.bit (faultBit 7) = true ∧
    (s.bit R.TOP_REGLOG.VALID = false →
      t.bit R.TOP_REGLOG.VALID = true ∧ t.get R.TOP_REGLOG.KIND = kind ∧ t.get R.TOP_REGLOG.BAR = bar ∧ t.get R.TOP_REGLOG.OFFSET = off)

/-- The registers that logging a write event can change: the log and its count, the latch and COUNT of source 7, the count of lost event
records, the admission state, and the fault log (R534, R535, R573). -/
abbrev logReg (off : Nat) : Prop :=
  off ∈ [0x20, 0x28, 0x30, 0x200000, 0x200060, 0x200068, 0x201038, 0x600008] ∨ (0x208000 ≤ off ∧ off < 0x210000)

/-! ### The collimator -/

/-- The shapers on the path of leaf queue `l`, which leaves output `o` in class `c` (R314, R320). -/
def State.pathShapers (s : State) (o c l : Nat) : List Nat :=
  [o, resKey o c, maxKey o c] ++ if isFabricLeaf l then [] else epKey l :: ((s.groupOf l).map groupKey).toList

/-- A packet has given up its chain: the owner's cells are free, and a reference-counted one has lost a reference (R265, R266). -/
def State.freesChain (s t : State) (p : Pkt) : Prop :=
  p.cells.Nodup → ∀ i ∈ p.cells, linkUsed (s.link i) = true → t.link i =
    if linkOwned (s.link i) then (if linkTag (s.link i) = p.owner.getD 291 then bitsSet (s.link i) 47 1 0 else s.link i)
    else if linkTag (s.link i) ≤ 1 then bitsSet (s.link i) 47 1 0 else bitsSet (s.link i) 32 12 (linkTag (s.link i) - 1)

/-! ### The management port -/

/-- The management port takes a transaction: the keeper runs, and the address is the port's own (R584). -/
abbrev State.hears (s : State) (tx : SmbTx) : Prop := s.power.keeper = true ∧ tx.addr = 0x58 + s.power.smbAddr

/-! ### Fabric links -/

/-- A well-formed FAB_LINK_CTL of one operation on iris `i`, with width `w` and lane mask `m` (R352). -/
abbrev OpenCmd.linkOp (c : OpenCmd) (op i w m : Nat) : Prop :=
  c.formed [(20, 44)] = true ∧ c.op 17 1 = op ∧ c.op 16 1 = i ∧ c.op 18 1 = w ∧ c.op 19 1 = m ∧ i < 64

/-- No cell waits for an iris, and iris `i` has none to give back when it goes DOWN (R348). -/
abbrev State.noReturns (s : State) (i : Nat) : Prop := s.fab.waiting = [] ∧ ∀ e ∈ (s.iris i).queue, e.cell.queue = 0xFFFF

/-- Iris `i` has gone DOWN with a cause, or to DISABLED where a DISABLE drained it, and says so (R347, R348, R352). -/
def State.wentDown (s t : State) (i cause : Nat) : Prop :=
  s.noReturns i →
    t.irisState i = (if (s.iris i).disabling.isSome ∨ cause = 7 then 0 else 5) ∧ t.get (R.IRIS_STATUS.LANES_ACT i) = 0 ∧
      t.bit (faultBit (64 + i)) = true ∧ t.bit (R.IRIS_DOWN_CAP.VALID i) = true ∧
      (s.bit (R.IRIS_DOWN_CAP.VALID i) = false → t.get (R.IRIS_DOWN_CAP.CAUSE i) = cause)

/-! ### Host commands -/

/-- The open command `c` of sequence `seq`, whose code is `code`, may begin: SERVE, no chip reset raised, a service facet that can take
command execution (R34, R473, R529). -/
abbrev State.begins (s : State) (seq code : Nat) (c : OpenCmd) : Prop :=
  s.findCmd seq = some c ∧ c.code = code ∧ s.mode = .serve ∧ s.fault.chipReset = false ∧ s.roleUp 0 = true ∧ s.mayBegin c = true

/-- The open command `c` of sequence `seq` may begin and is a well-formed TBL_INSERT or TBL_DELETE of one image, whose flags byte is at
most `mask` (R216, R217). -/
abbrev State.changesOne (s : State) (seq code mask : Nat) (c : OpenCmd) : Prop :=
  s.begins seq code c ∧ c.formed [(20, 4), (32, 32)] = true ∧ c.op 17 1 ≤ mask ∧ c.op 18 2 = 1 ∧ c.op 24 8 % 64 = 0 ∧
    s.get (R.TBL_DESC.KIND (c.op 16 1)) ≠ 0

/-- The outcome area with which the execution of `seq` has ended (R469). -/
def State.outcomeOf (s : State) (seq : Nat) : Option (List Byte) := (s.findCmd seq).bind fun c => c.outcome

/-- The post of ring `r` for its command number `n`: the state of the command, its sequence, its outcome (R471). -/
abbrev State.posts (s : State) (r n st seq : Nat) (outcome : List Byte) : List Emit :=
  s.pfWrites (s.get (R.CMD_RING.PF r)) (s.get (R.CMD_POST.BASE r) * 64 + 64 * (n % 2 ^ s.get (R.CMD_RING.SIZE r)))
    (record 16 [(0, 2, n), (2, 1, st), (4, 6, seq)] ++ slice outcome 0 48)

/-- The 64 B of the command that ring `r` holds next (R458). -/
abbrev State.nextSlot (s : State) (r : Nat) : List Byte := s.slotBytes r (s.get (R.CMD_STAT.C r) % 2 ^ s.get (R.CMD_RING.SIZE r))

/-- The next command is one of ring `r`, numbered as the ring expects, and its journal slot is free (R460, R461, R468). -/
abbrev State.accepts (s : State) (r : Nat) : Prop :=
  s.mayAccept = true ∧ s.nextRing = some r ∧ s.slotHeld = false ∧ leAt (s.nextSlot r) 2 2 = s.get (R.CMD_STAT.C r)

/-- `t` has sent `outs` right after what `s` had sent. -/
def State.emits (s t : State) (outs : List Emit) : Prop := ∃ l, t.out = s.out ++ outs ++ l

/-! ### Service facets -/

/-- The word `m` is the one that service facet `sf` issues next for its item `i`; the facet may issue, and nothing makes it wait,
save its context or fail to read the word; in HOLD-UP it is no command's (R476). -/
abbrev State.plainWord (s : State) (sf m : Nat) (i : Item) : Prop :=
  s.forwarding = true ∧ (s.service sf).parked = false ∧ (s.service sf).waiting = false ∧ s.fault.blocks.contains (16 + sf) = false ∧
    (s.service sf).running = some i ∧ (s.service sf).interrupted = false ∧ i.work.looks = [] ∧ i.work.landing = none ∧
    SMap.find (fun _ => 0) s.code.wrong (wordKey (svcFacet sf) i.bank i.work.upc) = 0 ∧
    m = SMap.find (fun _ => 0) s.code.store (wordKey (svcFacet sf) i.bank i.work.upc) ∧ wordReserved m = false ∧ lPort m = 63 ∧
    (s.mode = .holdUp → i.cmd = none)

/-! ### Prisms -/

/-- Prism `k` holds one packet, `p` in slot `f`, whose verdict has not been taken and all of whose header has arrived; none waits to enter, no
token waits, and the prism may step. -/
abbrev State.holdsOne (s : State) (k : Nat) (p : Pkt) (f : Flight) : Prop :=
  k < 16 ∧ s.forwarding = true ∧ s.fault.blocks.contains k = false ∧ s.interval k (s.gridBank k) ≠ 0 ∧ (s.prism k).stall = none ∧
    (s.prism k).flights = [f] ∧ (s.prism k).tokens = [] ∧ SMap.find (fun _ => []) s.buf.toPrism k = [] ∧ f.pkt = some p ∧ p.cut = false ∧
    f.decided = false ∧ f.work.landing = none

/-- The next step of that prism is step `j` of facet `i` on the packet; it is not the one that releases it from the last parsing facet (R169).
`w` is the working state as the step finds it: a routine begins at step 0 (R117). -/
abbrev State.servesOne (s : State) (k i j : Nat) (p : Pkt) (f : Flight) (w : Work) : Prop :=
  s.holdsOne k p f ∧ f.age < s.startAge k f.bank 30 ∧ serving (s.interval k f.bank) (s.span k f.bank) 30 0 f.age = some (i, j) ∧
    (s.prism k).parked.contains i = false ∧
    (j + 1 = s.interval k f.bank → i ≠ s.get (R.PRISM_PROFILE.LAST_PARSE k (s.profileOf k p.src))) ∧
    w = (if j = 0 then s.beginFacet k i f else f).work

/-- A facet whose working state is `w` issues the word `m`, which is readable and no reserved encoding (R119, R133). -/
abbrev State.issues (s : State) (k i : Nat) (f : Flight) (w : Work) (m : Nat) : Prop :=
  w.run = none ∧ w.done = false ∧ w.sp < 8 ∧ w.upc < 2048 ∧ m = SMap.find (fun _ => 0) s.code.store (wordKey (30 * k + i) f.bank w.upc) ∧
    SMap.find (fun _ => 0) s.code.wrong (wordKey (30 * k + i) f.bank w.upc) = 0

/-! ### HOLD-UP -/

/-- A mode from which HOLD-UP is entered (R503). -/
abbrev State.powered (s : State) : Prop := s.mode = .prove ∨ s.mode = .load ∨ s.mode = .serve ∨ s.mode = .safe

/-- `t` is HOLD-UP just entered from `s` with `cause`: the record of R516, and the close entry where a run is interrupted (R476), unless its slot
must stay (R468; that the close entry waits for it is the model's choice, log 211). -/
abbrev State.heldUp (s t : State) (cause : Nat) : Prop :=
  t.mode = .holdUp ∧ t.prev = s.mode ∧ t.power.holdFrom = s.mode ∧ t.power.holdNs = s.ns ∧ t.power.isolated = false ∧
    t.get R.KEEP_EVENT.CAUSE = cause ∧ t.get R.KEEP_EVENT.TIME = s.now ∧ t.fault.chipReset = false ∧ t.cmd.modeReq = none ∧
    t.cnt.exposure = none ∧ t.bit R.CNT_EXPOSE.BUSY = false ∧ t.bist.plan = none ∧
    t.get R.JRN_HEAD.HEAD = (if (s.mode = .serve ∨ (s.mode = .load ∧ s.boot.epochWritten = true)) ∧ s.slotHeld = false then (s.get R.JRN_HEAD.HEAD + 1) % 2 ^ 48
      else s.get R.JRN_HEAD.HEAD)

/-! ### Start-up -/

/-- `t` is `s` after slot `slot` has failed for a reason: slot B is next after slot A where it exists, otherwise the device is in SAFE
with cause 2; a chip reset that the failure itself raised goes before both (R494, R496, R506). -/
def State.slotFailed (s t : State) (slot reason : Nat) : Prop :=
  t.get (R.BOOT_SLOT.REASON slot) = reason ∧
    (t.fault.chipReset = false →
      (slot = 0 ∧ s.boot.hasB = true → t.mode = s.mode ∧ t.boot.next = 1 ∧ t.boot.good = none ∧ t.get R.BOOT_STATUS.STEP = 2) ∧
      (¬ (slot = 0 ∧ s.boot.hasB = true) → t.mode = .safe ∧ t.prev = s.mode ∧ t.safeCause = 2))

end Sys2Proof.Machine
end

