-- ==== Sys2Proof/Certificates/Slice0/Obligations.lean ====
section
/-! DEFINITION. The statements about the model: what its commands do by the spec's numbered rules, what they leave as it was,
where each of them completes, and what every step keeps. -/

open Sys2Proof Sys2Proof.Machine

/-! ### Command rings (R458 to R474) -/

/-- CMD_DOORBELL, COMMAND_ACCEPT and COMMAND_COMPLETE run (R459, R461, R466, R471): a doorbell within the ring moves the target
sequence and nothing else; the next waiting command is entered in the journal, opened in the order of acceptance and posted as
ACCEPTED; a command whose execution has ended leaves the open list with its outcome written and posted, and with the message
that IRQ = 1 asks for. -/
def Obligations.CommandRingsRun : Prop :=
  (∀ (s : State) (src : HostSrc) (r v : Nat), Instr.wf (.cmdDoorbell src r v) = true → s.reach src = true →
    src.func = s.get (R.CMD_RING.PF r) → s.mode = .serve → s.bit (R.CMD_RING.ENABLE r) = true → v < 65536 →
    (v + 65536 - s.get (R.CMD_STAT.T r)) % 65536 ≤ 2 ^ s.get (R.CMD_RING.SIZE r) →
    (v + 65536 - s.get (R.CMD_STAT.C r)) % 65536 ≤ 2 ^ s.get (R.CMD_RING.SIZE r) →
    ∃ t, exec (.cmdDoorbell src r v) s = .next t ∧ t.get (R.CMD_STAT.T r) = v ∧
      t.get (R.CMD_STAT.C r) = s.get (R.CMD_STAT.C r) ∧ s.kept t [] fun off => off = (R.CMD_STAT.T r).off) ∧
  (∀ (s : State) (r fails : Nat), s.accepts r → fails < 2 →
    ∃ t, exec (.commandAccept fails) s = .next t ∧
      t.get (R.CMD_STAT.C r) = (s.get (R.CMD_STAT.C r) + 1) % 65536 ∧
      t.get R.JRN_HEAD.HEAD = (s.get R.JRN_HEAD.HEAD + 1) % 2 ^ 48 ∧
      t.cmd.open_ = s.cmd.open_ ++ [⟨s.get R.JRN_HEAD.HEAD, r, s.get (R.CMD_STAT.C r), s.nextSlot r,
        (leAt (s.nextSlot r) 4 1).testBit 7, s.ns, none, false, none, 0⟩] ∧
      t.cmd.lastSeq = s.get R.JRN_HEAD.HEAD ∧
      s.kept { t with cmd := s.cmd } (s.posts r (s.get (R.CMD_STAT.C r)) 1 (s.get R.JRN_HEAD.HEAD) [])
        fun off => off = R.JRN_HEAD.HEAD.off ∨ off = R.JRN_TAIL.TAIL.off ∨ off = (R.CMD_STAT.C r).off) ∧
  (∀ (s : State) (seq fails : Nat) (c : OpenCmd) (o : List Byte), s.mode = .serve → s.fault.chipReset = false →
    s.findCmd seq = some c → c.outcome = some o → c.ring < 64 → modeOp c.bytes = none → fails < 2 →
    ∃ t, exec (.commandComplete seq fails) s = .next t ∧ t.cmd.open_ = s.cmd.open_.filter (fun d => d.seq != seq) ∧
      t.jbytes seq 24 6 = slice o 0 48 ∧ t.get (R.CMD_STAT.OPEN c.ring) = s.get (R.CMD_STAT.OPEN c.ring) - 1 ∧
      s.kept { t with cmd := s.cmd } (s.posts c.ring c.num 2 seq o ++ (if c.irq then s.hostOut (s.linkOfPf (s.get (R.CMD_RING.PF c.ring)))
          [.msix (s.get (R.CMD_RING.PF c.ring)) (s.get (R.CMD_RING.VEC c.ring))] else []))
        fun off => off = (R.CMD_STAT.OPEN c.ring).off)

/-- GATE_PULSE starts the command that waits longest on its gate, ends it refused "transfer" where the pulse carries ERROR, and does
nothing where none waits; GATE_TIMEOUT ends a command that has waited too long (R457, R474). NOP is done, and an unlisted code is refused
"code" (R463). QUERY gives TOP_MODE; RESTART and SAFE stop acceptance, are done, and as they complete take the takeover time 100 µs later,
at which the device restarts or enters SAFE, and not before; a reserved operation is refused "format" (R505). Nothing else changes. -/
def Obligations.GatesAndPlainCommandsEnd : Prop :=
  (∀ (s : State) (g : Nat) (err : Bool) (rest : List (Nat × Bool)), s.mode ≠ .holdUp → s.cmd.pulses = (g, err) :: rest →
    (∀ c : OpenCmd, (s.cmd.open_.find? fun c => c.waiting && c.gate == g) = some c → s.findCmd c.seq = some c →
      ∃ t, exec .gatePulse s = .next t ∧ t.cmd.pulses = rest ∧ s.kept { t with cmd := s.cmd } [] (fun _ => False) ∧
        (err = false → t.findCmd c.seq = some { c with waiting := false }) ∧
        (err = true → t.outcomeOf c.seq = some (outcomeArea 1 0x12 0 0 []))) ∧
    ((s.cmd.open_.find? fun c => c.waiting && c.gate == g) = none →
      ∃ t, exec .gatePulse s = .next t ∧ t.cmd = { s.cmd with pulses := rest } ∧ s.kept { t with cmd := s.cmd } [] fun _ => False)) ∧
  (∀ (s : State) (seq : Nat) (c : OpenCmd), s.mode ≠ .holdUp → s.findCmd seq = some c → c.waiting = true →
    c.acceptedNs + s.get R.CMD_CFG.GATE_TIMEOUT * 1000000 ≤ s.ns → c.seq = seq →
    ∃ t, exec (.gateTimeout seq) s = .next t ∧ t.outcomeOf seq = some (outcomeArea 3 0 0 0 []) ∧
      s.kept { t with cmd := s.cmd } [] fun _ => False) ∧
  (∀ (s : State) (seq : Nat) (c : OpenCmd), s.begins seq 0x7F c →
    ∃ t, exec (.nop seq) s = .next t ∧
      t.outcomeOf seq = some (outcomeArea (if c.formed [(16, 48)] then 0 else 1) (if c.formed [(16, 48)] then 0 else 1) 0 0 []) ∧
      s.kept { t with cmd := s.cmd } [] fun _ => False) ∧
  (∀ (s : State) (seq code : Nat) (c : OpenCmd), s.begins seq code c → codeListed code = false →
    ∃ t, exec (.unknownCode seq) s = .next t ∧ t.outcomeOf seq = some (outcomeArea 1 0x13 0 0 []) ∧
      s.kept { t with cmd := s.cmd } [] fun _ => False) ∧
  (∀ (s : State) (seq : Nat) (c : OpenCmd), s.begins seq 0x7E c →
    (c.formed [(17, 47)] = true → c.op 16 1 = 0 → ∃ t, exec (.modeRequestQuery seq) s = .next t ∧
      t.outcomeOf seq = some (outcomeArea 0 0 0 0 [(16, 8, s.mode.code + 16 * s.prev.code + 256 * s.safeCause)]) ∧
      s.kept { t with cmd := s.cmd } [] fun _ => False) ∧
    (c.formed [(17, 47)] = false ∨ 2 < c.op 16 1 → ∃ t, exec (.modeRequestQuery seq) s = .next t ∧
      t.outcomeOf seq = some (outcomeArea 1 1 0 0 []) ∧ s.kept { t with cmd := s.cmd } [] fun _ => False) ∧
    (modeOp c.bytes = some 1 → ∃ t, exec (.modeRequestRestart seq) s = .next t ∧
      t.outcomeOf seq = some (outcomeArea 0 0 0 0 []) ∧ s.kept { t with cmd := s.cmd } [] fun _ => False) ∧
    (modeOp c.bytes = some 2 → ∃ t, exec (.modeRequestSafe seq) s = .next t ∧
      t.outcomeOf seq = some (outcomeArea 0 0 0 0 []) ∧ s.kept { t with cmd := s.cmd } [] fun _ => False)) ∧
  (∀ (s : State) (r fails op : Nat), s.accepts r → fails < 2 → modeOp (s.nextSlot r) = some op →
    ∃ t, exec (.commandAccept fails) s = .next t ∧ t.cmd.modeReq = some (op, none) ∧ t.mayAccept = false) ∧
  (∀ (s : State) (seq fails op : Nat) (c : OpenCmd) (o : List Byte), s.mode = .serve → s.fault.chipReset = false →
    s.findCmd seq = some c → c.outcome = some o → leAt o 0 1 = 0 → c.ring < 64 → modeOp c.bytes = some op →
    s.cmd.modeReq = some (op, none) → fails < 2 →
    ∃ t, exec (.commandComplete seq fails) s = .next t ∧ t.cmd.modeReq = some (op, some (s.ns + 100000)) ∧
      t.jbytes seq 24 6 = outcomeArea 0 0 0 (s.now + 100000) [] ∧ s.emits t (s.posts c.ring c.num 2 seq (outcomeArea 0 0 0 (s.now + 100000) []))) ∧
  (∀ (s : State) (op due : Nat), s.mode = .serve → s.cmd.modeReq = some (op, some due) → op = 1 ∨ op = 2 →
    (due ≤ s.ns → ∃ t, exec .modeRequestTakeover s = .next t ∧ t.prev = .serve ∧
      (op = 1 → t.mode = .dormant ∧ t.power.ranRestart = true) ∧ (op = 2 → t.mode = .safe ∧ t.safeCause = 4)) ∧
    (s.ns < due → ∃ t, exec .modeRequestTakeover s = .next t ∧ s.kept t [] fun _ => False))

/-! ### Register writes and reads (R66, R77, R78, R400, R403 to R405, R441, R527, R533, R549, R571, R572) -/

/-- The commands that write a register with no effect beside its fields store the word as its access codes say, and change
nothing else: REGISTER_WRITE of a whole word, PACE_XOFF_OUT_WRITE, PACE_XOFF_IN_WRITE, APR_RES_WRITE, SWC_DQ_WRITE,
CMD_POST_WRITE and HOST_QBASE_WRITE of a disabled ring or queue, TIME_OFFSET_WRITE while the fabric does not discipline the
timebase, HOST_WAKE_CLEAR and CAPTURE_REARM. -/
def Obligations.PlainRegisterWritesStore : Prop :=
  ∀ (s : State) (src : HostSrc) (off v : Nat) (d : RegDef), s.manages src → v < 2 ^ 64 → off < 2 ^ 26 → regAt off = some d →
    (d.fields.any fun f => f.acc.isSome) = true →
    (off % 8 = 0 → plainReg off → s.valueRules off v = (v, false) →
      ∃ t, exec (.registerWrite src 0 off [(v, 255)]) s = .next t ∧ s.stores t off v d) ∧
    (∀ i, i < 8 → off = 0x600100 + 8 * i → wmListed (v % 4096) = true →
      ∃ t, exec (.paceXoffOutWrite src i v) s = .next t ∧ s.stores t off v d) ∧
    (∀ i, i < 8 → off = 0x600140 + 8 * i → bitsGet v 0 7 ≤ bitsGet v 8 7 → bitsGet v 8 7 ≤ 95 →
      ∃ t, exec (.paceXoffInWrite src i v) s = .next t ∧ s.stores t off v d) ∧
    (∀ r, r < 4096 → off = 0x1D08000 + 16 * r → ∃ t, exec (.aprResWrite src r v) s = .next t ∧ s.stores t off v d) ∧
    (∀ q, q < 65536 → off = 0x1C80000 + 8 * q → ∃ t, exec (.swcDqWrite src q v) s = .next t ∧ s.stores t off v d) ∧
    (∀ r, r < 64 → off = 0x400008 + 32 * r → s.bit (R.CMD_RING.ENABLE r) = false →
      ∃ t, exec (.cmdPostWrite src r v) s = .next t ∧ s.stores t off v d) ∧
    (∀ q, q < 16384 → off = 0x2740008 + 16 * q → s.bit (R.HOST_Q.ENABLE q) = false →
      ∃ t, exec (.hostQbaseWrite src q v) s = .next t ∧ s.stores t off v d) ∧
    (off = 0x700010 → s.fabricTime = false → ∃ t, exec (.timeOffsetWrite src v) s = .next t ∧ s.stores t off v d) ∧
    (∀ w, w < 64 → off = 0x27A0000 + 8 * w → ∃ t, exec (.hostWakeClear src w v) s = .next t ∧ s.stores t off v d) ∧
    (isCapture off = true → plainReg off → s.valueRules off v = (v, false) →
      ∃ t, exec (.captureRearm src off v) s = .next t ∧ s.stores t off v d)

/-- PACE_TARGET_WRITE (R77): the three fields are taken where both conditions hold; otherwise they stay and the write is
logged. -/
def Obligations.PaceTargetWrite : Prop :=
  ∀ (s : State) (src : HostSrc) (v : Nat), s.manages src → v < 2 ^ 64 →
    (let g := bitsGet v 32 16; let target := bitsGet v 16 16; let band := bitsGet v 0 16
    (s.get R.PACE_FLOOR.FLOOR < g ∧ g + band < target ∧ target + band ≤ 2600 →
      ∃ t, exec (.paceTargetWrite src v) s = .next t ∧ t.get R.PACE_TARGET.GUARD = g ∧ t.get R.PACE_TARGET.TARGET = target ∧
        t.get R.PACE_TARGET.BAND = band ∧ s.kept t [] fun k => k = 0x600020) ∧
    (¬ (s.get R.PACE_FLOOR.FLOOR < g ∧ g + band < target ∧ target + band ≤ 2600) →
      ∃ t, exec (.paceTargetWrite src v) s = .next t ∧ t.get R.PACE_TARGET.GUARD = s.get R.PACE_TARGET.GUARD ∧
        t.get R.PACE_TARGET.TARGET = s.get R.PACE_TARGET.TARGET ∧ t.get R.PACE_TARGET.BAND = s.get R.PACE_TARGET.BAND ∧
        s.logged t 1 0 0x600020))

/-- BUF_WM_WRITE (R66): thresholds with HIGH above 0 and LOW at or above HIGH are not taken and the write is logged; HIGH = 0
unconfigures the watermark, whatever LOW; every other write is stored, and nothing is logged. -/
def Obligations.WatermarkWrite : Prop :=
  ∀ (s : State) (src : HostSrc) (n v : Nat), s.manages src → wmListed n = true → v < 2 ^ 64 →
    (let high := bitsGet v 28 28; let low := bitsGet v 0 28
    (high = 0 ∨ low < high → ∃ t, exec (.bufWmWrite src n v) s = .next t ∧ t.get (R.BUF_WM.HIGH n) = high ∧
      t.get (R.BUF_WM.LOW n) = low ∧ (high = 0 → t.wm n = false) ∧ s.kept t [] fun k => k = 0x1B04000 + 8 * n) ∧
    (0 < high ∧ high ≤ low → ∃ t, exec (.bufWmWrite src n v) s = .next t ∧ t.get (R.BUF_WM.HIGH n) = s.get (R.BUF_WM.HIGH n) ∧
      t.get (R.BUF_WM.LOW n) = s.get (R.BUF_WM.LOW n) ∧ s.logged t 1 0 (0x1B04000 + 8 * n)))

/-- PACE_XOFF_IN_WRITE (R78) of ports out of range or order leaves their fields and is logged; a partial word of REGISTER_WRITE, at any
offset of any BAR, leaves every register but those of the log as it was, and is logged with KIND 0 (R572). -/
def Obligations.RejectedWritesKeepTheirRegister : Prop :=
  (∀ (s : State) (src : HostSrc) (i v : Nat), s.manages src → i < 8 → v < 2 ^ 64 →
    95 < bitsGet v 0 7 ∨ 95 < bitsGet v 8 7 ∨ bitsGet v 8 7 < bitsGet v 0 7 →
    ∃ t, exec (.paceXoffInWrite src i v) s = .next t ∧
      t.get (R.PACE_XOFF_IN.FIRST_PORT i) = s.get (R.PACE_XOFF_IN.FIRST_PORT i) ∧
      t.get (R.PACE_XOFF_IN.LAST_PORT i) = s.get (R.PACE_XOFF_IN.LAST_PORT i) ∧ s.logged t 1 0 (0x600140 + 8 * i)) ∧
  (∀ (s : State) (src : HostSrc) (bar off v be : Nat), s.manages src → bar < 3 → off % 8 = 0 → off < barSize src bar → v < 2 ^ 64 →
    0 < be → be < 255 →
    ∃ t, exec (.registerWrite src bar off [(v, be)]) s = .next t ∧ s.logged t 0 bar off ∧ s.sameRegs t logReg)

/-- Enabling a ring or queue starts it with its sequences at 0: CMD_RING_WRITE, HOST_Q_WRITE, DMA_RING_WRITE and CNT_XRING_WRITE (R441,
R454, R458, R564); a queue whose endpoint is held in reset is stopped at once (R586); an enabled one takes no other change, and the write is logged with KIND 3 (R441). TIME_ADJ_WRITE, the three operations
of SEC_MSA_CMD, MSEC_PORT_WRITE, MAC_PREEMPT_WRITE, CNT_PROBE_WRITE and KEEP_TOD_WRITE do what their rules say beside storing fields
(R400, R404, R405, R396, R549, R514). -/
def Obligations.RegisterOperationsAct : Prop :=
  (∀ (s : State) (src : HostSrc) (r v : Nat), s.manages src → r < 64 → v < 2 ^ 64 → s.bit (R.CMD_RING.ENABLE r) = false →
    v.testBit 63 = true → 4 ≤ bitsGet v 56 4 → bitsGet v 56 4 ≤ 10 →
    ∃ t, exec (.cmdRingWrite src r v) s = .next t ∧ t.bit (R.CMD_RING.ENABLE r) = true ∧ t.get (R.CMD_RING.PF r) = bitsGet v 60 3 ∧
      t.get (R.CMD_RING.SIZE r) = bitsGet v 56 4 ∧ t.get (R.CMD_RING.VEC r) = bitsGet v 44 11 ∧ t.get (R.CMD_STAT.C r) = 0 ∧
      t.get (R.CMD_STAT.T r) = 0 ∧ t.bit (R.CMD_STAT.STOPPED r) = false ∧
      s.kept t [] fun k => k = 0x400000 + 32 * r ∨ k = 0x400010 + 32 * r) ∧
  (∀ (s : State) (src : HostSrc) (q v : Nat), s.manages src → q < 16384 → v < 2 ^ 64 → s.bit (R.HOST_Q.ENABLE q) = false →
    v.testBit 63 = true → 4 ≤ bitsGet v 42 4 → (v.testBit 58 = true → bitsGet v 21 11 ≤ 7) →
    ∃ t, exec (.hostQWrite src q v) s = .next t ∧ t.bit (R.HOST_Q.ENABLE q) = true ∧ t.get (R.HOST_Q.SIZE q) = bitsGet v 42 4 ∧
      t.get (R.HOST_QSTAT.C q) = 0 ∧ t.get (R.HOST_QSTAT.T q) = 0 ∧ t.ready q = [] ∧
      t.bit (R.HOST_QSTAT.STOPPED q) = !s.epUp (s.epOfFunc (bitsGet v 46 13))) ∧
  (∀ (s : State) (src : HostSrc) (q v : Nat), s.manages src → q < 16384 → v < 2 ^ 64 → s.bit (R.HOST_Q.ENABLE q) = true →
    v.testBit 63 = true → v % 2 ^ 32 ≠ s.get ⟨(R.HOST_Q.ENABLE q).off, 0, 32⟩ → bitsGet v 0 5 = 0 →
    s.get ⟨(R.HOST_Q.ENABLE q).off, 0, 5⟩ = 0 →
    ∃ t, exec (.hostQWrite src q v) s = .next t ∧ t.word (R.HOST_Q.ENABLE q).off = s.word (R.HOST_Q.ENABLE q).off ∧
      s.logged t 3 0 (R.HOST_Q.ENABLE q).off) ∧
  (∀ (s : State) (src : HostSrc) (v : Nat), s.manages src → v < 2 ^ 64 → s.bit R.DMA_RING.ENABLE = false → v.testBit 9 = true →
    4 ≤ bitsGet v 4 4 →
    ∃ t, exec (.dmaRingWrite src v) s = .next t ∧ t.bit R.DMA_RING.ENABLE = true ∧ t.get R.DMA_RING.SIZE = bitsGet v 4 4 ∧
      t.get R.DMA_RING.BASE = bitsGet v 12 52 ∧ t.get R.DMA_STAT.C = 0 ∧ t.get R.DMA_STAT.T = 0 ∧ t.bit R.DMA_STAT.STOPPED = false) ∧
  (∀ (s : State) (src : HostSrc) (v : Nat), s.manages src → v < 2 ^ 64 → s.bit R.CNT_XRING.EN = false → v.testBit 11 = true →
    4 ≤ bitsGet v 3 4 →
    ∃ t, exec (.cntXringWrite src v) s = .next t ∧ t.bit R.CNT_XRING.EN = true ∧ t.get R.CNT_XRING.SIZE = bitsGet v 3 4 ∧
      t.get R.CNT_XRING.BASE = bitsGet v 12 52 ∧ t.cnt.xn = 0) ∧
  (∀ (s : State) (src : HostSrc) (v : Nat), s.manages src → v < 2 ^ 64 →
    (s.fabricTime = false → bitsGet v 0 32 ≠ 0 →
      ∃ t, exec (.timeAdjWrite src v) s = .next t ∧ t.get R.TIME_ADJ.FREQ = bitsGet v 32 32 ∧ t.slew = signed 32 v * 2 ^ 40 ∧
        t.fabSlew = false ∧ s.kept { t with slew := s.slew, fabSlew := s.fabSlew } [] fun k => k = 0x700008) ∧
    (s.fabricTime = true → ∃ t, exec (.timeAdjWrite src v) s = .next t ∧ t.get R.TIME_ADJ.FREQ = s.get R.TIME_ADJ.FREQ ∧
      t.slew = s.slew ∧ s.logged t 3 0 0x700008)) ∧
  (∀ (s : State) (src : HostSrc) (v : Nat), s.manages src → v < 2 ^ 64 → bitsGet v 49 7 < 96 → s.upperMac (bitsGet v 49 7) = false →
    (let dir := v.testBit 60; let key := msaKey (bitsGet v 49 7) (b2n dir) (if dir then bitsGet v 58 2 else 0) (bitsGet v 56 2)
    ((dir = true ∨ s.bit (R.SEC_MSEC_PORT.EN (bitsGet v 49 7)) = false ∨ bitsGet v 56 2 ≠ s.get (R.SEC_MSEC_PORT.TX_AN (bitsGet v 49 7))) →
      (∃ t, exec (.msaInstall src v) s = .next t ∧ t.assoc key = some { s.stagedAssoc with window := bitsGet v 0 32 } ∧
        (∀ j, j < 4 → t.word (0x2200800 + 8 * j) = 0) ∧ t.bit R.SEC_MSA_CMD.ERROR = false) ∧
      (∃ t, exec (.msaInvalidate src v) s = .next t ∧ t.assoc key = none ∧ t.bit R.SEC_MSA_CMD.ERROR = false)) ∧
    (∀ a, s.assoc key = some a → ∃ t, exec (.msaReadPn src v) s = .next t ∧ t.word 0x2200830 = BitVec.ofNat 64 a.pn ∧
      t.assoc key = some a ∧ t.bit R.SEC_MSA_CMD.ERROR = false))) ∧
  (∀ (s : State) (src : HostSrc) (n v : Nat), s.manages src → n < 96 → v < 2 ^ 64 →
    (∃ t, exec (.msecPortWrite src n v) s = .next t ∧ t.get (R.SEC_MSEC_PORT.EN n) = bitsGet v 63 1 ∧
      t.get (R.SEC_MSEC_PORT.XPN n) = bitsGet v 62 1 ∧ t.get (R.SEC_MSEC_PORT.CONF n) = bitsGet v 61 1 ∧
      t.get (R.SEC_MSEC_PORT.SCI_INC n) = bitsGet v 60 1 ∧ t.get (R.SEC_MSEC_PORT.TX_AN n) = bitsGet v 58 2 ∧
      t.mac.assocs = s.mac.assocs) ∧
    (1 ≤ bitsGet v 40 8 → bitsGet v 40 8 ≤ 128 → ∃ t, exec (.macPreemptWrite src n v) s = .next t ∧
      t.get (R.MAC_PREEMPT.EN n) = bitsGet v 63 1 ∧ t.get (R.MAC_PREEMPT.VERIFY_DIS n) = bitsGet v 62 1 ∧
      t.get (R.MAC_PREEMPT.PMASK n) = bitsGet v 48 8 ∧ t.get (R.MAC_PREEMPT.VERIFY_TIME n) = bitsGet v 40 8 ∧
      t.get (R.MAC_PREEMPT.ADD_FRAG n) = bitsGet v 38 2 ∧ t.get (R.MAC_PREEMPT.HOLD_ADV n) = bitsGet v 28 10)) ∧
  (∀ (s : State) (src : HostSrc) (v : Nat), s.manages src → v < 2 ^ 64 → v.testBit 61 = false →
    counterOffs.contains (bitsGet v 0 48) = true →
    ∃ t, exec (.cntProbeWrite src v) s = .next t ∧ t.bit R.CNT_PROBE.VALID = true ∧
      t.get R.CNT_PROBE_VAL.VALUE = (s.word (bitsGet v 0 48)).toNat ∧
      t.bit R.CNT_PROBE.WRAP = SMap.find (fun _ => false) s.cnt.wraps (bitsGet v 0 48) ∧
      s.kept t [] fun k => k = 0x2900010 ∨ k = 0x2900018) ∧
  (∀ (s : State) (src : HostSrc) (v : Nat), s.manages src → v < 2 ^ 64 →
    ∃ t, exec (.keepTodWrite src v) s = .next t ∧ t.get R.KEEP_TOD.SECONDS = bitsGet v 0 48 ∧ t.bit R.KEEP_TOD.VALID = true ∧
      s.kept t [] fun k => k = 0x100020)

/-- FLT_FORCE_WRITE latches every listed source written as 1 (R533); FLT_STATUS_CLEAR clears the latches written as 1, with their COUNT,
and no other (R527); a write of RESTART to TOP_MODE_REQ in SAFE takes the device to DORMANT (R506); in any other mode in which the BAR
answers, HOLD-UP before isolation included, it is logged. The maintenance window opens, is ready once the device is empty, runs a plan,
and closes, and as it closes every iris returns to the ENABLE state it had (R542, R543, R546). -/
def Obligations.FaultAndTestRegistersAct : Prop :=
  (∀ (s : State) (src : HostSrc) (w v b : Nat), s.manages src → w < 4 → v < 2 ^ 64 → b < 64 → v.testBit b = true →
    sourceListed (64 * w + b) = true → ∃ t, exec (.fltForceWrite src w v) s = .next t ∧ t.bit (faultBit (64 * w + b)) = true) ∧
  (∀ (s : State) (src : HostSrc) (w v : Nat), s.manages src → w < 4 → v < 2 ^ 64 →
    ∃ t, exec (.fltStatusClear src w v) s = .next t ∧
      (∀ b, b < 64 → v.testBit b = true → t.bit (faultBit (64 * w + b)) = false ∧ t.get (R.FLT_REACT.COUNT (64 * w + b)) = 0) ∧
      (∀ b, b < 64 → v.testBit b = false → t.bit (faultBit (64 * w + b)) = s.bit (faultBit (64 * w + b)) ∧
        t.get (R.FLT_REACT.COUNT (64 * w + b)) = s.get (R.FLT_REACT.COUNT (64 * w + b))) ∧
      s.kept t [] fun k => k = 0x200000 + 8 * w ∨ (0x201000 + 512 * w ≤ k ∧ k < 0x201200 + 512 * w)) ∧
  (∀ (s : State) (src : HostSrc) (v : Nat), v < 2 ^ 64 → src.wf = true → s.reach src = true → isManager src = true →
    (s.mode = .safe → ∃ t, exec (.topModeReqRestart src v) s = .next t ∧ t.mode = .dormant ∧ t.prev = .safe ∧
      t.power.ranRestart = true) ∧
    (s.mode ≠ .safe → ∃ t, exec (.topModeReqRestart src v) s = .next t ∧ t.mode = s.mode ∧ s.logged t 3 0 0x18 ∧ s.sameRegs t logReg)) ∧
  (∀ (s : State) (src : HostSrc) (v : Nat), s.manages src → v < 2 ^ 64 → v.testBit 4 = false →
    (s.bit R.BIST_CTRL.WINDOW = false → ∃ t, exec (.bistWindowOpen src v) s = .next t ∧ t.bit R.BIST_CTRL.WINDOW = true ∧
      t.apr.windowRefuse = true ∧ t.get R.BIST_STATUS.STATE = 2 ∧ t.bit R.BIST_STATUS.READY = false) ∧
    (s.bit R.BIST_CTRL.WINDOW = true → ∃ t, exec (.bistWindowClose src v) s = .next t ∧ t.bit R.BIST_CTRL.WINDOW = false ∧
      t.apr.windowRefuse = false ∧ t.bit R.BIST_STATUS.READY = false ∧
      ∀ (was : Nat → Bool), s.bist.saved = (List.range 64).map (fun i => (i, was i)) →
        (∀ i, i < 64 → (s.iris i).disabling = some windowSeq ∨ s.irisState i = 0) → ∀ i, i < 64 →
          (was i = true → (s.iris i).disabling = some windowSeq → t.irisState i = 2 ∧ (t.iris i).disabling = none) ∧
          (was i = true → (s.iris i).disabling ≠ some windowSeq → t.irisState i = 1 ∧ t.bit (R.IRIS_CTRL.ENABLE i) = true) ∧
          (was i = false → s.irisState i = 0 → t.irisState i = 0 ∧ t.bit (R.IRIS_CTRL.ENABLE i) = false))) ∧
  (∀ (s : State), s.mode = .serve → s.bit R.BIST_CTRL.WINDOW = true → s.apr.windowRefuse = true → s.bit R.BIST_STATUS.READY = false →
    s.livePkts = [] → s.fab.waiting = [] →
    ∃ t, exec .bistWindowReady s = .next t ∧ t.bit R.BIST_STATUS.READY = true ∧
      t.get R.BIST_STATUS.STATE = (if s.get R.BIST_STATUS.STATE = 2 then 3 else s.get R.BIST_STATUS.STATE) ∧
      s.kept t [] fun k => k = R.BIST_STATUS.STATE.off) ∧
  (∀ (s : State) (src : HostSrc) (v : Nat), s.manages src → v < 2 ^ 64 → v.testBit 8 = true → s.bit R.BIST_CTRL.WINDOW = true →
    s.bit R.BIST_STATUS.READY = true → v % 16 ≠ 0 → v % 16 < planCount s.bist.section_ →
    ((planUnits s.bist.section_ (v % 16)).any hbmUnit) = false → 128 ≤ s.get R.BIST_SAVE.SIZE → s.bist.plan = none →
    ∃ t, exec (.bistStart src v) s = .next t ∧ t.bist.plan = some (v % 16) ∧ t.bist.toStart = List.range 8 ∧
      t.get R.BIST_STATUS.STATE = 4 ∧ t.get R.BIST_STATUS.FAILS = 0 ∧ t.get R.BIST_CTRL.PLAN = v % 16)

/-- A 64-bit read of FLT_EVQ, APR_BQ, CNT_LOUPE or MAC_PTP_TS returns the last word of the record at the head of its queue, and
that record leaves the queue; a 32-bit read returns one half and removes nothing (R571); a long read returns as many words as it
covers; a configuration request is answered in SERVE and retried before it (R434), and one that writes the Device Control register sets the
sizes of the function's payloads and read requests (R435). -/
def Obligations.ReadsTakeRecords : Prop :=
  (∀ (s : State) (src : HostSrc), s.manages src →
    (∀ e rest, s.fault.queue = e :: rest → ∃ t, exec (.fltEvqRead src .full) s = .next t ∧ t.fault.queue = rest ∧
      s.kept { t with fault := s.fault } [.readData [(faultWords e).2]] fun _ => False) ∧
    (∀ b rest, s.bit R.CNT_XRING.EN = false → s.apr.breaches = b :: rest → ∃ t, exec (.aprBqRead src .full) s = .next t ∧
      t.apr.breaches = rest ∧ s.kept { t with apr := s.apr } [.readData [b.2]] fun k => k = R.APR_BQ_STAT.DEPTH.off) ∧
    (∀ x rest, s.bit R.CNT_XRING.EN = false → s.cnt.loupe = x :: rest → ∃ t, exec (.cntLoupeRead src .full) s = .next t ∧
      t.cnt.loupe = rest ∧ s.kept { t with cnt := s.cnt } [.readData [x.w2]] fun k => k = R.CNT_LOUPE_STAT.DEPTH.off) ∧
    (∀ n x rest, n < 96 → SMap.find (fun _ => []) s.mac.ptp n = x :: rest → ∃ t, exec (.macPtpTsRead src n .full) s = .next t ∧
      SMap.find (fun _ => []) t.mac.ptp n = rest ∧
      s.kept { t with mac := { t.mac with ptp := s.mac.ptp } } [.readData [x.2]] fun _ => False) ∧
    (∀ n, n < 96 → ∀ c off, (c, off) ∈ [(Instr.fltEvqRead src, 0x200058), (Instr.aprBqRead src, 0x1D00608),
        (Instr.cntLoupeRead src, 0x2902018), (Instr.macPtpTsRead src n, 0x2000048 + 0x4000 * n)] →
      (∃ t, exec (c .lo32) s = .next t ∧ s.kept t [.readData [s.readReg off % 2 ^ 32]] fun _ => False) ∧
      (∃ t, exec (c .hi32) s = .next t ∧ s.kept t [.readData [s.readReg off / 2 ^ 32]] fun _ => False) ∧
      (∀ before words, ∃ t l, exec (c (.long before words)) s = .next t ∧ l.length = words ∧ s.sends t [.readData l]))) ∧
  (∀ (s : State) (src : HostSrc) (reg value : Nat) (write : Bool), Instr.wf (.configRequest src reg write value) = true →
    s.epUp src.ep = true →
    (s.mode = .serve → ∃ t, exec (.configRequest src reg write value) s = .next t ∧
      s.kept { t with host := s.host } [.cfgAnswer] (fun _ => False) ∧
      (write = false ∨ reg ≠ Config.deviceControl.val → t.host = s.host) ∧
      (write = true → reg = Config.deviceControl.val →
        t.maxPayload src.func = 128 * 2 ^ min 2 (bitsGet value 5 3) ∧ t.maxRead src.func = 128 * 2 ^ min 5 (bitsGet value 12 3))) ∧
    (s.mode = .prove ∨ s.mode = .load → ∃ t, exec (.configRequest src reg write value) s = .next t ∧
      s.kept t [.cfgRetry] fun _ => False))

/-! ### Tables (R204 to R221) -/

/-- TBL_INSERT and TBL_DELETE of images that all pass their checks complete done with the number of images (R217), one image of a
direct table taking the result, or 0, into its line; TBL_SEARCH gives found with the image written, or not found (R218); TBL_NEXT
gives the images from its cursor on (R219); TBL_FLUSH_PORT completes done with a count (R220). -/
def Obligations.TableCommandsComplete : Prop :=
  (∀ (s : State) (seq : Nat) (c : OpenCmd) (images : List Byte), s.begins seq 0x01 c → c.formed [(20, 4), (32, 32)] = true →
    c.op 17 1 ≤ 7 → 1 ≤ c.op 18 2 → c.op 18 2 ≤ 1024 → c.op 24 8 % 64 = 0 → s.get (R.TBL_DESC.KIND (c.op 16 1)) ≠ 0 →
    (applyImages (fun u img => u.insertImage (c.op 16 1) img (c.op 17 1)) ((List.range (c.op 18 2)).map (tblImage images)) 0
      (s.emitAll (s.pfReads (s.cmdPf c) (c.op 24 8) (128 * c.op 18 2)))).2.1 = none →
    ∃ t, exec (.tblInsert seq images) s = .next t ∧ t.outcomeOf seq = some (outcomeArea 0 0 0 s.now [(16, 2, c.op 18 2)]) ∧
      (s.get (R.TBL_DESC.KIND (c.op 16 1)) = 4 → c.op 18 2 = 1 →
        t.tline (s.imgLine (c.op 16 1) (tblImage images 0)) = imgResult (tblImage images 0) 64)) ∧
  (∀ (s : State) (seq : Nat) (c : OpenCmd) (images : List Byte), s.begins seq 0x02 c → c.formed [(20, 4), (32, 32)] = true →
    c.op 17 1 ≤ 1 → 1 ≤ c.op 18 2 → c.op 18 2 ≤ 1024 → c.op 24 8 % 64 = 0 → s.get (R.TBL_DESC.KIND (c.op 16 1)) ≠ 0 →
    (applyImages (fun u img => u.deleteImage (c.op 16 1) img (c.op 17 1)) ((List.range (c.op 18 2)).map (tblImage images)) 0
      (s.emitAll (s.pfReads (s.cmdPf c) (c.op 24 8) (128 * c.op 18 2)))).2.1 = none →
    ∃ t, exec (.tblDelete seq images) s = .next t ∧ t.outcomeOf seq = some (outcomeArea 0 0 0 s.now [(16, 2, c.op 18 2)]) ∧
      (s.get (R.TBL_DESC.KIND (c.op 16 1)) = 4 → c.op 18 2 = 1 → t.tline (s.imgLine (c.op 16 1) (tblImage images 0)) = 0)) ∧
  (∀ (s : State) (seq v : Nat) (c : OpenCmd) (image : List Byte), s.begins seq 0x03 c → c.formed [(19, 5), (32, 32)] = true →
    c.op 17 1 ≤ 2 → c.op 18 1 / 16 % 8 = 0 → s.get (R.TBL_DESC.KIND (c.op 16 1)) ≠ 0 →
    (c.op 17 1 = 1 → s.get (R.TBL_DESC.KIND (c.op 16 1)) = 1) →
    (c.op 17 1 = 2 → exactKind (s.get (R.TBL_DESC.KIND (c.op 16 1))) = true) →
    (if (c.op 18 1).testBit 7 then v = c.op 18 1 % 16 ∧ s.liveVersions.contains v = true else v = s.current) →
    s.imgGood (c.op 16 1) (slice image 0 2 ++ [0] ++ slice image 3 61 ++ leBytes 64 0) (c.op 17 1 == 0) = true →
    (∀ found, s.searchTable (c.op 16 1) (c.op 17 1) v (slice image 0 128) = some found →
      ∃ t, exec (.tblSearch seq image) s = .next t ∧ t.outcomeOf seq = some (outcomeArea 4 0 0 0 []) ∧
        s.kept { t with cmd := s.cmd } (s.pfReads (s.cmdPf c) (c.op 24 8) 128 ++ s.pfWrites (s.cmdPf c) (c.op 24 8) found)
          fun _ => False) ∧
    (s.searchTable (c.op 16 1) (c.op 17 1) v (slice image 0 128) = none →
      ∃ t, exec (.tblSearch seq image) s = .next t ∧ t.outcomeOf seq = some (outcomeArea 5 0 0 0 []) ∧
        s.kept { t with cmd := s.cmd } (s.pfReads (s.cmdPf c) (c.op 24 8) 128) fun _ => False)) ∧
  (∀ (s : State) (seq : Nat) (c : OpenCmd), s.begins seq 0x04 c → c.formed [(17, 1), (20, 4), (40, 24)] = true →
    1 ≤ c.op 18 2 → c.op 18 2 ≤ 1024 → s.get (R.TBL_DESC.KIND (c.op 16 1)) ≠ 0 →
    (s.imagesFrom (c.op 16 1) (c.op 24 8 % 2 ^ 32) (c.op 18 2) = [] →
      ∃ t, exec (.tblNext seq) s = .next t ∧ (∃ d, t.outcomeOf seq = some (outcomeArea 0 0 0 0 ([(16, 2, 0)] ++ d))) ∧
        s.kept { t with cmd := s.cmd } [] fun _ => False) ∧
    (s.imagesFrom (c.op 16 1) (c.op 24 8 % 2 ^ 32) (c.op 18 2) ≠ [] →
      ∃ t, exec (.tblNext seq) s = .next t ∧
        (∃ d, t.outcomeOf seq = some (outcomeArea 0 0 0 0
          ([(16, 2, (s.imagesFrom (c.op 16 1) (c.op 24 8 % 2 ^ 32) (c.op 18 2)).length)] ++ d))) ∧
        s.kept { t with cmd := s.cmd } (s.pfWrites (s.cmdPf c) (c.op 32 8)
          ((s.imagesFrom (c.op 16 1) (c.op 24 8 % 2 ^ 32) (c.op 18 2)).flatMap (·.2))) fun _ => False)) ∧
  (∀ (s : State) (seq : Nat) (c : OpenCmd), s.begins seq 0x05 c → c.formed [(18, 2), (24, 40)] = true → c.op 17 1 ≤ 3 →
    c.op 20 4 < 2 ^ 21 → (c.op 16 1 ≠ 0xFF → exactKind (s.get (R.TBL_DESC.KIND (c.op 16 1))) = true) →
    ((c.op 17 1).testBit 0 = true → s.staged ≠ none ∧ (c.op 16 1 = 0xFF → ∀ x, x < 256 → s.bit (R.TBL_DESC.FLUSH x) = true →
      s.get (R.TBL_DESC.KIND x) = 0 ∨ exactKind (s.get (R.TBL_DESC.KIND x)) = true)) →
    ∃ t n, exec (.tblFlushPort seq) s = .next t ∧ t.outcomeOf seq = some (outcomeArea 0 0 0 (if n = 0 then 0 else s.now) [(16, 4, n)]) ∧
      t.tbl.seeds = s.tbl.seeds ∧ t.tbl.prefixes = s.tbl.prefixes)

/-- LEARN_INSERT takes the oldest learn event; HIT_WRITE lands the oldest posted hit; AGING_VISIT visits the first entry that its sweep
has yet to visit and whose own last visit is a period ago, and spares a static one; LENS_COMPARE compares the row that LENS_SCRUB.ROW
names, leaves it as its shadow has it, or rewrites a shadow that cannot be read, and moves on (R189, R211, R213, R214). -/
def Obligations.TableUpkeepRuns : Prop :=
  (∀ (s : State) (e : LearnEvent) (es : List LearnEvent), s.tbl.learn = e :: es → s.forwarding = true → s.roleUp 1 = true →
    exactKind (s.get (R.TBL_DESC.KIND e.table)) = true →
    ∃ t, exec .learnInsert s = .next t ∧ t.tbl.learn = es ∧ t.get R.TBL_LEARN.DEPTH = es.length % 2 ^ 14 ∧
      (s.placesOf e.table e.key ≠ [] → t.get R.TBL_LEARN.DUP = min (s.get R.TBL_LEARN.DUP + 1) (2 ^ R.TBL_LEARN.DUP.w - 1))) ∧
  (∀ (s : State) (n slot key : Nat) (rest : List (Nat × Nat × Nat)), s.tbl.hits = (n, slot, key) :: rest → s.coreUp = true →
    ∃ t, exec .hitWrite s = .next t ∧ t.tbl.hits = rest ∧ (∀ k, k ≠ slot / 8 → t.tline k = s.tline k) ∧
      (slot / 8 < 2 ^ 40 → s.kept { t with tbl := s.tbl } [] fun _ => False)) ∧
  (∀ (s : State) (n pos sweep period : Nat) (e : Entry), n < 256 → s.forwarding = true → s.roleUp 2 = true →
    exactKind (s.get (R.TBL_DESC.KIND n)) = true → s.bit (R.TBL_DESC.AGE n) = true →
    SMap.find (fun _ => (0, 0)) s.tbl.sweep n = (sweep, period) → sweep ≠ 0 → s.dueVisit n sweep period = some (pos, e) →
    ∃ t, exec (.agingVisit n) s = .next t ∧ SMap.find (fun _ => (0, 0)) t.tbl.sweep n = (sweep, period) ∧
      SMap.find (fun _ => (0, 0)) t.tbl.visited (2 ^ 34 * n + pos) = (sweep, s.ns) ∧
      (e.static = true → t.tbl.lines = s.tbl.lines)) ∧
  (∀ (s : State) (a : Nat) (lost : Bool), a < 16 → s.coreUp = true → s.compareHeld a = false →
    s.shadowWaits a (s.get (R.LENS_SCRUB.ROW a)) = false → (s.lens.queued.find? fun e => e.1 == a) = none →
    ∃ t, exec (.lensCompare a lost) s = .next t ∧ t.get (R.LENS_SCRUB.ROW a) = (s.get (R.LENS_SCRUB.ROW a) + 1) % 2 ^ 14 ∧
      ((lost || (s.shadowRead a (s.get (R.LENS_SCRUB.ROW a))).1) = false →
        t.lensRow a (s.get (R.LENS_SCRUB.ROW a)) = s.lensShadow a (s.get (R.LENS_SCRUB.ROW a))) ∧
      ((lost || (s.shadowRead a (s.get (R.LENS_SCRUB.ROW a))).1) = true →
        t.lensRow a (s.get (R.LENS_SCRUB.ROW a)) = s.lensRow a (s.get (R.LENS_SCRUB.ROW a)) ∧
        t.lensShadow a (s.get (R.LENS_SCRUB.ROW a)) = { s.lensRow a (s.get (R.LENS_SCRUB.ROW a)) with bad := false }))
/-! ### Lenses, versions, microcode patches (R145, R175, R182, R187, R203, R222 to R233) -/

/-- LENS_WRITE of entries that all pass their checks, in each of its three operations, and LENS_INVALIDATE (R182, R186, R187): the
command completes done with the number of entries, and a single entry has its effect on its row; rows that wait for a comparison are
compared first, and where none waits and every stack serves its shadows nothing changes beside the array and the writes of its shadow. -/
def Obligations.LensCommandsComplete : Prop :=
  (∀ (s : State) (seq op : Nat) (c : OpenCmd) (block : List Byte), s.begins seq 0x10 c → c.formed [(20, 4), (32, 32)] = true →
    c.op 16 1 < 16 → c.op 17 1 = op → 1 ≤ c.op 18 2 → c.op 18 2 ≤ 4096 → c.op 24 8 % 64 = 0 →
    (s.compareQueued (c.op 16 1)).lensFirstBad (c.op 16 1) op block (c.op 18 2) = none →
    (op = 0 → ∃ t, exec (.lensWrite seq block) s = .next t ∧ t.outcomeOf seq = some (outcomeArea 0 0 0 s.now [(16, 2, c.op 18 2)]) ∧
      (c.op 18 2 = 1 → t.lensRow (c.op 16 1) (imageRow (lensImage block 0)) = imageEntry (lensImage block 0)) ∧
      ((s.lens.queued.find? fun e => e.1 == c.op 16 1) = none → (∀ g, g < 8 → s.stackFailed g = false) →
        ({ t with cmd := s.cmd, lens := s.lens, ver := s.ver, mem := s.mem } : State).still = s.still)) ∧
    (op = 1 → ∃ t, exec (.lensDeath seq block) s = .next t ∧ t.outcomeOf seq = some (outcomeArea 0 0 0 s.now [(16, 2, c.op 18 2)]) ∧
      (c.op 18 2 = 1 → (t.lensRow (c.op 16 1) (imageRow (lensImage block 0))).dying = true ∧
        (t.lensRow (c.op 16 1) (imageRow (lensImage block 0))).death = (imageEntry (lensImage block 0)).death) ∧
      ((s.lens.queued.find? fun e => e.1 == c.op 16 1) = none → (∀ g, g < 8 → s.stackFailed g = false) →
        ({ t with cmd := s.cmd, lens := s.lens, ver := s.ver, mem := s.mem } : State).still = s.still)) ∧
    (op = 2 → ∃ t, exec (.lensRevive seq block) s = .next t ∧ t.outcomeOf seq = some (outcomeArea 0 0 0 s.now [(16, 2, c.op 18 2)]) ∧
      (c.op 18 2 = 1 → (t.lensRow (c.op 16 1) (imageRow (lensImage block 0))).dying = false) ∧
      ((s.lens.queued.find? fun e => e.1 == c.op 16 1) = none → (∀ g, g < 8 → s.stackFailed g = false) →
        ({ t with cmd := s.cmd, lens := s.lens, ver := s.ver, mem := s.mem } : State).still = s.still))) ∧
  (∀ (s : State) (seq : Nat) (c : OpenCmd), s.begins seq 0x11 c → c.formed [(22, 42)] = true → c.op 16 1 < 16 → c.op 17 1 ≤ 1 →
    1 ≤ c.op 20 2 → c.op 18 2 + c.op 20 2 ≤ 16384 →
    (c.op 17 1 = 0 → ∀ i, i < c.op 20 2 → s.rowLive (c.op 16 1) (c.op 18 2 + i) = false) →
    ∃ t, exec (.lensInvalidate seq) s = .next t ∧ t.outcomeOf seq = some (outcomeArea 0 0 0 s.now [(16, 2, c.op 20 2)]) ∧
      (∀ i, i < c.op 20 2 → (t.lensRow (c.op 16 1) (c.op 18 2 + i)).valid = false) ∧
      ((s.lens.queued.find? fun e => e.1 == c.op 16 1) = none → (∀ g, g < 8 → s.stackFailed g = false) →
        ({ t with cmd := s.cmd, lens := s.lens, mem := s.mem } : State).still = s.still))

/-- Staging opens and is abandoned, a commit waits and takes over, the oldest version retires and the settle passes end (R224 to R228,
R233, R175); a commit that switches banks starts after every patch accepted before it (R147). MCODE_PATCH (R145): the checks on the patch in their order decide; a patch that passes them is installed and the command
done; one that fails ends it refused with the reason and place of the check, and no word of the control store changes. -/
def Obligations.VersionsAndPatchesMove : Prop :=
  (∀ (s : State) (seq : Nat) (c : OpenCmd), s.begins seq 0x20 c → c.formed [(17, 47)] = true →
    (c.op 16 1 = 0 → s.bit R.APR_VERSION.STAGE_OPEN = false →
      ∃ t, exec (.versionStageOpen seq) s = .next t ∧ t.bit R.APR_VERSION.STAGE_OPEN = true ∧
        t.get R.APR_VERSION.STAGED = (s.get R.APR_VERSION.CURRENT + 1) % 16 ∧
        t.get R.APR_VERSION.CURRENT = s.get R.APR_VERSION.CURRENT ∧
        t.outcomeOf seq = some (outcomeArea 0 0 0 s.now [(16, 1, (s.get R.APR_VERSION.CURRENT + 1) % 16)]) ∧
        s.kept { t with cmd := s.cmd } [] fun k => k = R.APR_VERSION.STAGED.off) ∧
    (c.op 16 1 = 1 → s.bit R.APR_VERSION.STAGE_OPEN = true → s.rulesWaiting = false →
      ∃ t, exec (.versionStageAbandon seq) s = .next t ∧ t.ver.abandoning = s.ver.abandoning ++ [(seq, s.now)] ∧ t.outcomeOf seq = c.outcome ∧
        s.kept { t with cmd := s.cmd, ver := s.ver } [] fun _ => False)) ∧
  (∀ (s : State) (seq t0 : Nat) (c : OpenCmd), s.executing = true → s.ver.abandoning = [(seq, t0)] → s.findCmd seq = some c →
    ∃ t, exec .abandonSweepComplete s = .next t ∧ t.bit R.APR_VERSION.STAGE_OPEN = false ∧ t.ver.abandoning = [] ∧
      t.ver.stagers = [] ∧ t.outcomeOf seq = some (outcomeArea 0 0 0 t0 [])) ∧
  (∀ (s : State) (seq : Nat) (c : OpenCmd), s.begins seq 0x21 c → s.ver.waiting = none →
    (commitBank c && s.patchAhead seq) = false → s.commitBad c = none →
    ∃ t, exec (.versionCommit seq) s = .next t ∧ t.ver.waiting = some seq ∧ t.bit R.APR_VERSION.COMMIT_WAIT = true ∧
      s.kept { t with cmd := s.cmd, ver := s.ver } [] fun k => k = R.APR_VERSION.COMMIT_WAIT.off) ∧
  (∀ (s : State) (seq : Nat) (c : OpenCmd), s.begins seq 0x21 c → s.ver.waiting = none → commitBank c = true →
    s.patchAhead seq = true → ∃ t, exec (.versionCommit seq) s = .next t ∧ t.findCmd seq = some c ∧
      t.bit R.APR_VERSION.COMMIT_WAIT = true ∧ s.kept t [] fun k => k = R.APR_VERSION.COMMIT_WAIT.off) ∧
  (∀ (s : State) (c : OpenCmd), s.executing = true → s.ver.waiting = some c.seq → s.findCmd c.seq = some c → s.commitReady c = true →
    ∃ t, exec .commitTakeover s = .next t ∧
      (if commitRules c then t.get R.APR_VERSION.CURRENT = s.get R.APR_VERSION.STAGED ∧ t.bit R.APR_VERSION.STAGE_OPEN = false ∧
          t.get R.APR_VERSION.LIVE = (s.get R.APR_VERSION.LIVE + 1) % 8
        else t.get R.APR_VERSION.CURRENT = s.get R.APR_VERSION.CURRENT ∧ t.get R.APR_VERSION.LIVE = s.get R.APR_VERSION.LIVE) ∧
      (if commitBank c then t.get R.MCODE_ACTIVE.BANK = 1 - s.get R.MCODE_ACTIVE.BANK ∧ t.bit R.MCODE_ACTIVE.DRAINING = true
        else t.get R.MCODE_ACTIVE.BANK = s.get R.MCODE_ACTIVE.BANK) ∧
      t.bit R.APR_VERSION.COMMIT_WAIT = false ∧ t.ver.waiting = none ∧
      t.outcomeOf c.seq = some (outcomeArea 0 0 0 s.now [(16, 1, t.get R.APR_VERSION.CURRENT), (17, 1, t.get R.MCODE_ACTIVE.BANK)])) ∧
  (∀ (s : State), s.forwarding = true → s.mayRetire = true →
    ∃ t, exec .versionRetire s = .next t ∧ t.get R.APR_VERSION.OLDEST = (s.get R.LENS_VERSION.OLDEST + 1) % 16 ∧
      t.get R.LENS_VERSION.OLDEST = (s.get R.LENS_VERSION.OLDEST + 1) % 16 ∧
      t.get R.APR_VERSION.LIVE = s.get R.APR_VERSION.LIVE - 1 ∧ t.get R.LENS_VERSION.SETTLING = 0xFFFF ∧
      t.bit R.TBL_SETTLE.SETTLING = true) ∧
  (∀ (s : State) (a : Nat), s.forwarding = true →
    (a < 16 → (s.get R.LENS_VERSION.SETTLING).testBit a = true → ∃ t, exec (.settlePassComplete a) s = .next t ∧
      t.get R.LENS_VERSION.SETTLING = s.get R.LENS_VERSION.SETTLING - 2 ^ a) ∧
    (a = 16 → s.bit R.TBL_SETTLE.SETTLING = true → ∃ t, exec (.settlePassComplete a) s = .next t ∧
      t.bit R.TBL_SETTLE.SETTLING = false)) ∧
  (∀ (s : State) (seq : Nat) (c : OpenCmd) (patch : List Byte), s.begins seq 0x22 c → s.commitAhead seq = false →
    headerGood c.bytes = true →
    ∃ t, exec (.mcodePatch seq patch) s = .next t ∧
      (match (s.emitAll (s.pfReads (s.cmdPf c) (c.op 24 8) (c.op 32 4))).patchBank (c.op 16 1 % 2)
          ((c.op 17 1).testBit 0) patch with
      | .inl (reason, place) => t.outcomeOf seq = some (outcomeArea 1 reason place 0 []) ∧ t.code.store = s.code.store
      | .inr u => t.code.store = u.code.store ∧ t.outcomeOf seq = some (outcomeArea 0 0 0 s.now [(16, 2, leAt patch 8 2 + 1)])))

/-! ### Shapers, gates, meters (R300, R301, R317, R326, R328, R329, R394) -/

/-- SHAPER_SET in range lands its change and completes done; QUERY changes nothing and returns what is in effect (R329); SHAPER_TICK
brings the shaper to the present tick (R317); METER_SET writes the endpoint's record (R301). GATE_LIST_SET stores a list and
GATE_LIST_STOP a stop with their change time (R328); at that time GATE_CHANGE puts it in force; GATE_TRANSITION shows the entry in force
(R326); SET_AND_HOLD_MAC holds preemptable traffic (R394). -/
def Obligations.ShapersMetersAndGatesSet : Prop :=
  (∀ (s : State) (seq : Nat) (c : OpenCmd), s.begins seq 0x30 c → (c.op 17 1).testBit 2 = false → shaperFormed c = true →
    s.shaperNode c = true → s.shaperValues c = true → s.fabricNode c = false → s.rateBroken c = false →
    ∃ t, exec (.shaperSet seq) s = .next t ∧ t.outcomeOf seq = some (outcomeArea 0 0 0 s.now []) ∧
      (c.op 16 1 = 0 → t.get (R.COL_OUT.SHAPE (c.op 20 4)) = c.op 24 4 % 2 ^ 28 ∧
        (t.shaper (c.op 20 4)).change = some ⟨c.op 24 4, 16384, none, c.op 17 1 % 4, s.ns⟩) ∧
      (c.op 16 1 = 1 → t.get (R.COL_OC_RATE.RES (c.op 20 4) (c.op 18 1)) = c.op 24 4 % 2 ^ 28 ∧
        t.get (R.COL_OC_RATE.MAX (c.op 20 4) (c.op 18 1)) = c.op 28 4 ∧
        t.get (R.COL_OC_BURST.RES_BURST (c.op 20 4) (c.op 18 1)) = burstUnits (c.op 32 4) ∧
        t.get (R.COL_OC_BURST.MAX_BURST (c.op 20 4) (c.op 18 1)) = burstUnits (c.op 36 4) ∧
        (t.shaper (resKey (c.op 20 4) (c.op 18 1))).change =
          some ⟨c.op 24 4, burstApplied (c.op 32 4), none, c.op 17 1 % 4, s.ns⟩ ∧
        (t.shaper (maxKey (c.op 20 4) (c.op 18 1))).change =
          some ⟨c.op 28 4, burstApplied (c.op 36 4), none, c.op 17 1 % 4, s.ns⟩) ∧
      (c.op 16 1 = 2 → (t.shaper (groupKey (c.op 20 4))).change =
        some ⟨c.op 24 4, c.op 32 4, if c.op 40 2 = 0 then none else some (c.op 40 2), c.op 17 1 % 4, s.ns⟩) ∧
      (c.op 16 1 = 3 → (t.shaper (epKey (c.op 20 4))).change =
        some ⟨c.op 24 4, c.op 32 4, if c.op 40 2 = 0 then none else some (c.op 40 2), c.op 17 1 % 4, s.ns⟩) ∧
      s.kept { t with cmd := s.cmd, col := { t.col with shapers := s.col.shapers } } [] fun k => 0x1E01000 ≤ k ∧ k < 0x1E08000) ∧
  (∀ (s : State) (seq : Nat) (c : OpenCmd), s.begins seq 0x30 c → (c.op 17 1).testBit 2 = true → s.shaperNode c = true →
    ∃ t, exec (.shaperQuery seq) s = .next t ∧ t.outcomeOf seq = some (outcomeArea 0 0 0 0 (s.shaperQuery c)) ∧
      s.kept { t with cmd := s.cmd } [] fun _ => False) ∧
  (∀ (s : State) (k : Nat), Instr.wf (.shaperTick k) = true → s.forwarding = true → (s.shaper k).ticks < s.ns / tickOf k →
    ∃ t, exec (.shaperTick k) s = .next t ∧ (t.shaper k).ticks = s.ns / tickOf k ∧
      ((s.shaper k).change = none → (t.shaper k).credit = (s.shaper k).refill k (s.ns / tickOf k - (s.shaper k).ticks)) ∧
      (∀ j, j ≠ k → t.shaper j = s.shaper j) ∧
      s.kept { t with col := { t.col with shapers := s.col.shapers } } [] fun _ => False) ∧
  (∀ (s : State) (seq : Nat) (c : OpenCmd), s.begins seq 0x32 c → meterBad c = false →
    ∃ t, exec (.meterSet seq) s = .next t ∧ t.outcomeOf seq = some (outcomeArea 0 0 0 s.now []) ∧
      t.aprRec (c.op 16 4) = meterRecord ((s.aprRec (c.op 16 4)).refill s.ns) c ∧
      (∀ e, e ≠ c.op 16 4 → t.aprRec e = s.aprRec e) ∧ s.kept { t with cmd := s.cmd, apr := s.apr } [] fun _ => False) ∧
  (∀ (s : State) (seq : Nat) (c : OpenCmd), s.begins seq 0x31 c → (c.op 17 1).testBit 0 = true → s.gateCmdGood c = true →
    ∃ t, exec (.gateListStop seq) s = .next t ∧
      t.pendingGates (c.op 16 1) = some (s.changeTime (c.op 32 8) (c.op 40 4), none) ∧ t.bit (R.COL_GATE.PENDING (c.op 16 1)) = true ∧
      t.outcomeOf seq = some (outcomeArea 0 0 0 s.now [(16, 6, s.changeTime (c.op 32 8) (c.op 40 4) % 2 ^ 48)])) ∧
  (∀ (s : State) (seq : Nat) (c : OpenCmd) (entries : List Byte), s.begins seq 0x31 c → (c.op 17 1).testBit 0 = false →
    s.gateCmdGood c = true → 1 ≤ c.op 18 2 → c.op 18 2 ≤ 1024 → c.op 24 8 % 64 = 0 → c.op 44 4 ≤ c.op 40 4 →
    ((List.range (c.op 18 2)).all (gateGood entries)) = true →
    ((List.range 8).all fun k => s.windowGood (c.op 16 1) k ⟨(List.range (c.op 18 2)).map (gateOf entries),
      s.changeTime (c.op 32 8) (c.op 40 4), c.op 40 4, c.op 44 4, s.ns⟩) = true →
    ∃ t, exec (.gateListSet seq entries) s = .next t ∧
      t.pendingGates (c.op 16 1) = some (s.changeTime (c.op 32 8) (c.op 40 4), some ⟨(List.range (c.op 18 2)).map (gateOf entries),
        s.changeTime (c.op 32 8) (c.op 40 4), c.op 40 4, c.op 44 4, s.ns⟩) ∧ t.bit (R.COL_GATE.PENDING (c.op 16 1)) = true ∧
      t.outcomeOf seq = some (outcomeArea 0 0 0 s.now [(16, 6, s.changeTime (c.op 32 8) (c.op 40 4) % 2 ^ 48)])) ∧
  (∀ (s : State) (o ch : Nat) (new : Option GateList), o < 96 → s.forwarding = true → s.pendingGates o = some (ch, new) → ch ≤ s.ns →
    ∃ t, exec (.gateChange o) s = .next t ∧ t.gateList o = new ∧ t.pendingGates o = none ∧ t.bit (R.COL_GATE.PENDING o) = false ∧
      t.bit (R.COL_GATE.ACTIVE o) = new.isSome ∧ (new = none → t.get (R.COL_GATE.STATE o) = 255)) ∧
  (∀ (s : State) (o : Nat) (g : GateList), o < 96 → s.forwarding = true → s.gateList o = some g →
    ∃ t, exec (.gateTransition o) s = .next t ∧ t.get (R.COL_GATE.STATE o) = (g.at_ (s.gateMoment o g)).2.1 % 256 ∧
      t.get (R.COL_GATE.ENTRY o) = (g.at_ (s.gateMoment o g)).1 % 1024 ∧ t.gateList o = some g ∧
      s.kept { t with mac := { t.mac with held := s.mac.held } } [] fun k => k = (R.COL_GATE.STATE o).off) ∧
  (∀ (s : State) (o : Nat) (g : GateList), o < 96 → s.forwarding = true → s.gateList o = some g → g.base ≤ s.ns →
    g.op (g.at_ (s.gateMoment o g)).1 = 1 →
    ∃ t, exec (.setAndHoldMac o) s = .next t ∧ SMap.find (fun _ => false) t.mac.held o = true ∧
      s.kept { t with mac := { t.mac with held := s.mac.held } } [] fun _ => False)

/-! ### Counters, mirrors and export (R548 to R567) -/

/-- EXPOSE opens an exposure 20 µs ahead, which the export role seals once no packet before its cut is left, or at its deadline as partial
(R557, R558, R559); COUNTER_CLEAR clears the counters of its scope (R554); MIRROR_SET writes a session and returns the old one (R566); the export
ring takes the oldest record (R564); a capture is written to its ring or counted as lost (R567). -/
def Obligations.CountersAndMirrorsAct : Prop :=
  (∀ (s : State) (seq : Nat) (c : OpenCmd), s.begins seq 0x50 c → c.formed [(17, 3), (28, 4), (46, 18)] = true → 1 ≤ c.op 16 1 →
    c.op 16 1 < 4 → c.op 32 8 % 64 = 0 → ((c.op 16 1).testBit 1 = true → c.op 24 4 + c.op 20 4 ≤ s.storePairs) →
    s.cnt.exposure = none →
    dumpLength ((c.op 16 1).testBit 0) ((c.op 16 1).testBit 1) (if (c.op 16 1).testBit 1 then c.op 20 4 else 0) ≤ c.op 40 4 →
    ∃ t, exec (.expose seq) s = .next t ∧ t.bit R.CNT_EXPOSE.BUSY = true ∧
      t.get R.CNT_EXPOSE.ID = (s.get R.CNT_EXPOSE.ID + 1) % 2 ^ 32 ∧ t.get R.CNT_EXPOSE_T.T = s.exposeCut c % 2 ^ 48 ∧
      t.cnt.exposure.isSome = true) ∧
  (∀ (s : State) (e : Exposure) (c : OpenCmd), s.sealable = some e → s.findCmd e.seq = some c →
    (∀ f ∈ s.buf.rx, f.countedNs = none) →
    (e.cut ≤ s.ns → s.before e.cut = 0 → ∃ t, exec .exposureSeal s = .next t ∧ t.cnt.exposure = none ∧
      t.bit R.CNT_EXPOSE.BUSY = false ∧ t.bit R.CNT_EXPOSE.PARTIAL = false ∧
      t.outcomeOf e.seq = some (outcomeArea 0 0 0 (e.cut % 2 ^ 48) [(16, 4, e.id), (20, 4, 0)]) ∧
      s.sends t (s.pfWrites e.pf (e.addr + 64) e.body ++ s.pfWrites e.pf e.addr (e.header false 0))) ∧
    (e.deadline ≤ s.ns → ∃ t, exec .exposureTimeout s = .next t ∧ t.cnt.exposure = none ∧ t.bit R.CNT_EXPOSE.BUSY = false ∧
      t.bit R.CNT_EXPOSE.PARTIAL = true ∧
      t.outcomeOf e.seq = some (outcomeArea 0 0 0 (e.cut % 2 ^ 48) [(16, 4, e.id), (20, 4, s.before e.cut)]) ∧
      s.sends t (s.pfWrites e.pf (e.addr + 64) e.body ++ s.pfWrites e.pf e.addr (e.header true (s.before e.cut))))) ∧
  (∀ (s u : State) (seq n : Nat) (c : OpenCmd), s.begins seq 0x51 c → c.formed [(18, 6), (36, 28)] = true → c.op 17 1 < 2 →
    s.cnt.exposure = none → s.clearScope c = some (u, n) →
    ∃ t, exec (.counterClear seq) s = .next t ∧ t.outcomeOf seq = some (outcomeArea 0 0 0 s.now [(16, 4, n)]) ∧
      t.cnt.pairs = u.cnt.pairs ∧ (∀ k, ¬ followReg k → t.word k = u.word k) ∧
      (c.op 16 1 = 1 → c.op 17 1 = 0 → ¬ followReg (c.op 24 8) → t.word (c.op 24 8) = 0)) ∧
  (∀ (s : State) (seq : Nat) (c : OpenCmd), s.begins seq 0x60 c → c.formed [(26, 38)] = true → c.op 16 1 < 128 → c.op 17 1 < 2 →
    c.op 19 1 < 8 → c.op 24 1 < 64 → c.op 25 1 < 16 → s.mirrorTarget (c.op 18 1) (c.op 20 4) = true →
    ∃ t, exec (.mirrorSet seq) s = .next t ∧ t.get (R.MIR_SESSION.VALID (c.op 16 1)) = c.op 17 1 ∧
      t.get (R.MIR_SESSION.KIND (c.op 16 1)) = c.op 18 1 ∧ t.get (R.MIR_SESSION.CLASS (c.op 16 1)) = c.op 19 1 ∧
      t.get (R.MIR_SESSION.SHIFT (c.op 16 1)) = c.op 25 1 ∧ t.get (R.MIR_SESSION.TRUNC (c.op 16 1)) = c.op 24 1 ∧
      t.get (R.MIR_SESSION.INDEX (c.op 16 1)) = c.op 20 4 ∧
      t.outcomeOf seq = some (outcomeArea 0 0 0 s.now [(16, 8, (s.word (R.MIR_SESSION.VALID (c.op 16 1)).off).toNat)]) ∧
      s.kept { t with cmd := s.cmd } [] fun k => k = (R.MIR_SESSION.VALID (c.op 16 1)).off) ∧
  (∀ (s : State), s.exports = true → s.roleUp 5 = true →
    (∀ x rest, s.cnt.loupe = x :: rest → ∃ t, exec (.exportRecord true) s = .next t ∧ t.cnt.loupe = rest ∧
      t.cnt.xn = (s.cnt.xn + 1) % 65536 ∧ s.sends t (s.pfWrites s.exportPf
        (s.get R.CNT_XRING.BASE * 4096 + 32 * (s.cnt.xn % 2 ^ s.get R.CNT_XRING.SIZE))
        (record 32 [(0, 2, s.cnt.xn), (2, 1, 1), (8, 8, x.w0), (16, 8, x.w1), (24, 8, x.w2)]))) ∧
    (∀ b rest, s.apr.breaches = b :: rest → ∃ t, exec (.exportRecord false) s = .next t ∧ t.apr.breaches = rest ∧
      t.cnt.xn = (s.cnt.xn + 1) % 65536 ∧ s.sends t (s.pfWrites s.exportPf
        (s.get R.CNT_XRING.BASE * 4096 + 32 * (s.cnt.xn % 2 ^ s.get R.CNT_XRING.SIZE))
        (record 32 [(0, 2, s.cnt.xn), (2, 1, 2), (8, 8, b.1), (16, 8, b.2)])))) ∧
  (∀ (s : State) (k frame : Nat) (p : Pkt) (written : Bool), s.coreUp = true →
    (s.cnt.captures.find? fun e => !e.2.2.cut) = some (k, frame, p) → k < 16 → 512 ≤ p.copy → p.copy < 640 →
    ∃ t, exec (.captureWrite written) s = .next t ∧ t.cnt.captures.length < s.cnt.captures.length ∧
      (if written && s.bit (R.FAR_PORT.UP (farPort (s.get (R.MIR_RING.BASE k) * 65536))) &&
          s.ringTakes k (ceilDiv (32 + p.bytes.length) 64) then
        t.get (R.MIR_RING_PTR.SEQ k) = (s.get (R.MIR_RING_PTR.SEQ k) + 1) % 2 ^ 32
      else t.word (R.MIR_LOST.COUNT (p.copy - 512)).off = s.word (R.MIR_LOST.COUNT (p.copy - 512)).off + 1))

/-! ### Endpoint migration and parking (R251 to R256, R452) -/

/-- EP_MIGRATE opens a migration in the lowest free slot (R251): LOCAL moves the placement record and flips the epoch (R252), OUT
starts the tail window (R254), IN places the endpoint (R255). -/
def Obligations.MigrationsBegin : Prop :=
  (∀ (s : State) (seq i : Nat) (c : OpenCmd), s.begins seq 0x40 c → c.op 20 1 = 0 → c.formed [(30, 34)] = true → c.op 16 4 < 2 ^ 20 →
    targetGood (c.op 21 1) = true → c.op 24 2 < 4096 → c.op 28 2 ≤ 1000 → (c.op 22 2 < 256 ∨ c.op 22 2 = 0xFFFF) →
    (s.mig.open_.any fun m => m.ep == c.op 16 4) = false → s.freeSlot = some i → (s.placement (c.op 16 4)).place ≠ some placeGone →
    (∀ p, s.placeOf (c.op 16 4) = some p → p < 16 → targetPlace (c.op 21 1) < 16 → s.tooDeep p (targetPlace (c.op 21 1)) = false) →
    ∃ t, exec (.epMigrateLocal seq) s = .next t ∧ t.outcomeOf seq = none ∧
      t.placement (c.op 16 4) = { s.placement (c.op 16 4) with
        place := some (targetPlace (c.op 21 1)), epoch := 1 - (s.placement (c.op 16 4)).epoch } ∧
      t.get (R.SWC_MIG.STATE i) = 1 ∧ t.get (R.SWC_MIG.ENDPOINT i) = c.op 16 4 ∧
      (∃ m, t.slotMig i 0 = some m ∧ m.ep = c.op 16 4 ∧ m.seq = seq ∧ m.oldPlace = s.placeOf (c.op 16 4) ∧
        m.oldEpoch = (s.placement (c.op 16 4)).epoch ∧ m.takeNs = s.ns) ∧
      (c.op 22 2 < 256 → SMap.find (fun _ => 0) t.apr.assigned (96 + c.op 22 2) = targetPlace (c.op 21 1)) ∧
      (∀ e, e ≠ c.op 16 4 → t.placement e = s.placement e)) ∧
  (∀ (s : State) (seq i : Nat) (c : OpenCmd), s.begins seq 0x40 c → c.op 20 1 = 1 → c.formed [(30, 34)] = true → c.op 16 4 < 2 ^ 20 →
    c.op 24 2 < 4096 → c.op 28 2 ≤ 1000 →
    (s.mig.open_.any fun m => m.ep == c.op 16 4) = false → s.freeSlot = some i → (s.placement (c.op 16 4)).place ≠ some placeGone →
    ∃ t, exec (.epMigrateOut seq) s = .next t ∧ t.outcomeOf seq = none ∧
      t.placement (c.op 16 4) = { s.placement (c.op 16 4) with place := some placeTail, device := c.op 24 2, queue := c.op 26 2 } ∧
      (∃ m, t.slotMig i 1 = some m ∧ m.ep = c.op 16 4 ∧ m.seq = seq ∧ m.device = c.op 24 2 ∧ m.queue = c.op 26 2 ∧
        m.endNs = s.ns + 10000 * (if c.op 28 2 = 0 then 1000 else c.op 28 2)) ∧
      (s.leafQ (c.op 16 4) = [] → s.buf.spills = [] → t.get (R.SWC_MIG.STATE i) = 3) ∧
      (∀ e, e ≠ c.op 16 4 → t.placement e = s.placement e)) ∧
  (∀ (s : State) (seq i : Nat) (c : OpenCmd), s.begins seq 0x40 c → c.op 20 1 = 2 → c.formed [(30, 34)] = true → c.op 16 4 < 2 ^ 20 →
    targetGood (c.op 21 1) = true → c.op 24 2 < 4096 → c.op 28 2 ≤ 1000 →
    (s.mig.open_.any fun m => m.ep == c.op 16 4) = false → s.freeSlot = some i → (s.placement (c.op 16 4)).place = some placeGone →
    ∃ t, exec (.epMigrateIn seq) s = .next t ∧ t.outcomeOf seq = none ∧
      t.placement (c.op 16 4) = { s.placement (c.op 16 4) with place := some (targetPlace (c.op 21 1)) } ∧
      t.get (R.SWC_MIG.STATE i) = 2 ∧ t.get (R.SWC_MIG.DEVICE i) = c.op 24 2 ∧
      (∃ m, t.slotMig i 2 = some m ∧ m.ep = c.op 16 4 ∧ m.seq = seq ∧ m.device = c.op 24 2) ∧
      (∀ e, e ≠ c.op 16 4 → t.placement e = s.placement e) ∧
      s.kept { t with cmd := s.cmd, mig := s.mig } [] fun k => k = (R.SWC_MIG.STATE i).off ∨ k = R.SWC_MIG_CTRL.ACTIVE.off)

/-- A migration ends by its event, its slot free and its command's outcome written: LOCAL when its token has come through (R252) or at the
fence limit of a service facet's (R253), OUT at the end of its tail window with the record GONE (R254), IN with outcome timeout at the
marker limit (R255) while a marker is still missing. EP_PARK parks an endpoint that has no migration and completes when its leaf queue is empty; EP_UNPARK ends the
parking (R452). -/
def Obligations.MigrationsEndAndEndpointsPark : Prop :=
  (∀ (s : State) (i : Nat) (m : Migration) (c : OpenCmd), i < 256 → s.executing = true → s.slotMig i 0 = some m →
    s.findCmd m.seq = some c → s.tokenThrough m = true →
    ∃ t, exec (.migTokenArrival i) s = .next t ∧ (∀ n ∈ t.mig.open_, n.slot ≠ i) ∧
      t.outcomeOf m.seq = some (outcomeArea 0 0 0 (m.takeNs % 2 ^ 48) []) ∧ (m.fence = [] → t.get (R.SWC_MIG.STATE i) = 0 ∧
        s.kept { t with cmd := s.cmd, mig := s.mig } [] fun k => k = (R.SWC_MIG.STATE i).off ∨ k = R.SWC_MIG_CTRL.ACTIVE.off)) ∧
  (∀ (s : State) (i k t0 : Nat) (m : Migration) (c : OpenCmd), i < 256 → s.executing = true → s.slotMig i 0 = some m →
    s.findCmd m.seq = some c → m.oldPlace = some k → 16 ≤ k → m.firstNs = some t0 →
    10 * s.get R.SWC_MIG_CTRL.FENCE_LIMIT ≤ 21 * (s.ns - t0) →
    ∃ t, exec (.fenceLimitExpiry i) s = .next t ∧ (∀ n ∈ t.mig.open_, n.slot ≠ i) ∧ (m.ep, m.oldEpoch) ∈ t.mig.late ∧
      t.outcomeOf m.seq = some (outcomeArea 0 0 0 (m.takeNs % 2 ^ 48) []) ∧ (m.fence = [] → t.get (R.SWC_MIG.STATE i) = 0 ∧
        s.kept { t with cmd := s.cmd, mig := s.mig } [] fun k => k = (R.SWC_MIG.STATE i).off ∨ k = R.SWC_MIG_CTRL.ACTIVE.off)) ∧
  (∀ (s : State) (i : Nat) (m : Migration) (c : OpenCmd), i < 256 → s.executing = true → s.slotMig i 1 = some m →
    s.findCmd m.seq = some c → m.endNs ≤ s.ns →
    ∃ t, exec (.tailWindowEnd i) s = .next t ∧ (∀ n ∈ t.mig.open_, n.slot ≠ i) ∧ (t.placement m.ep).place = some placeGone ∧
      t.outcomeOf m.seq = some (outcomeArea 0 0 0 (m.takeNs % 2 ^ 48) []) ∧ (m.fence = [] → t.get (R.SWC_MIG.STATE i) = 0 ∧
        s.kept { t with cmd := s.cmd, mig := s.mig } [] fun k => k = (R.SWC_MIG.STATE i).off ∨ k = R.SWC_MIG_CTRL.ACTIVE.off)) ∧
  (∀ (s : State) (i t0 : Nat) (m : Migration) (c : OpenCmd), i < 256 → s.executing = true → s.slotMig i 2 = some m →
    s.findCmd m.seq = some c → s.get (R.SWC_MIG.MARKERS i) ≠ 255 → m.firstNs = some t0 → t0 + 1000 * s.get R.SWC_MIG_CTRL.MARKER_LIMIT ≤ s.ns →
    ∃ t, exec (.markerLimitExpiry i) s = .next t ∧ (∀ n ∈ t.mig.open_, n.slot ≠ i) ∧
      t.outcomeOf m.seq = some (outcomeArea 3 0 0 (m.takeNs % 2 ^ 48) []) ∧ (m.fence = [] → t.get (R.SWC_MIG.STATE i) = 0 ∧
        s.kept { t with cmd := s.cmd, mig := s.mig } [] fun k => k = (R.SWC_MIG.STATE i).off ∨ k = R.SWC_MIG_CTRL.ACTIVE.off)) ∧
  (∀ (s : State) (seq : Nat) (c : OpenCmd), s.begins seq 0x41 c → c.formed [(20, 44)] = true → c.op 16 4 < 2 ^ 20 →
    (s.mig.open_.any fun m => m.ep == c.op 16 4) = false → s.host.parked.contains (c.op 16 4) = false →
    ∃ t, exec (.epPark seq) s = .next t ∧ t.host.parked = s.host.parked ++ [c.op 16 4] ∧
      t.host.parking = s.host.parking ++ [(c.op 16 4, seq, s.ns)] ∧ t.outcomeOf seq = none ∧
      s.kept { t with cmd := s.cmd, host := s.host } [] fun _ => False) ∧
  (∀ (s : State) (e seq t0 : Nat) (c : OpenCmd), e < 2 ^ 20 → s.executing = true → s.leafQ e = [] →
    (s.host.parking.find? fun x => x.1 == e) = some (e, seq, t0) → s.findCmd seq = some c →
    ∃ t, exec (.parkComplete e) s = .next t ∧ t.outcomeOf seq = some (outcomeArea 0 0 0 (t0 % 2 ^ 48) []) ∧
      (∀ x ∈ t.host.parking, x.2.1 ≠ seq) ∧ t.host.parked = s.host.parked ∧
      s.kept { t with cmd := s.cmd, host := s.host } [] fun _ => False) ∧
  (∀ (s : State) (seq : Nat) (c : OpenCmd), s.begins seq 0x42 c → c.formed [(20, 44)] = true → c.op 16 4 < 2 ^ 20 →
    (s.mig.open_.any fun m => m.ep == c.op 16 4) = false → s.host.parked.contains (c.op 16 4) = true →
    ∃ t, exec (.epUnpark seq) s = .next t ∧ t.host.parked.contains (c.op 16 4) = false ∧
      t.outcomeOf seq = some (outcomeArea 0 0 0 s.now []) ∧ s.kept { t with cmd := s.cmd, host := s.host } [] fun _ => False)

/-! ### Host queues, the bulk mover, host links (R433 to R457, R586) -/

/-- An accepted doorbell of a queue moves T, and the queue reads its next descriptors where it runs and nothing of it is outstanding
(R443, R444); a dropped one is counted and changes nothing else. The bulk mover's likewise (R454). -/
def Obligations.DoorbellsMoveTargets : Prop :=
  (∀ (s : State) (src : HostSrc) (q value t' : Nat), Instr.wf (.queueDoorbell src q value) = true → s.reach src = true →
    s.accessMode = .serve → src.func = s.get (R.HOST_Q.FUNC q) → s.bit (R.HOST_Q.ENABLE q) = true → value < 65536 →
    doorbellTarget (s.get (R.HOST_QSTAT.T q)) (s.get (R.HOST_QSTAT.C q)) (s.get (R.HOST_Q.SIZE q)) value = some t' →
    ∃ t, exec (.queueDoorbell src q value) s = .next t ∧ t.get (R.HOST_QSTAT.T q) = t' ∧
      t.get R.HOST_ERR.DOORBELL = s.get R.HOST_ERR.DOORBELL ∧
      (s.queueRuns q = false → s.kept t [] fun k => k = (R.HOST_QSTAT.T q).off) ∧
      (∀ n count, n = s.get (R.HOST_QSTAT.C q) →
        count = min (min 64 ((t' + 65536 - n) % 65536)) (2 ^ s.get (R.HOST_Q.SIZE q) - n % 2 ^ s.get (R.HOST_Q.SIZE q)) → count ≠ 0 →
        s.queueRuns q = true → s.ready q = [] → s.reading (HostReq.ofRing q) = false → s.retryOf q = (0, 0) → s.host.waits = [] →
        s.tagFree (.descriptors q n count) = true → 16 * count ≤ s.maxRead (s.get (R.HOST_Q.FUNC q)) →
        t.host.reads = s.host.reads ++ [⟨.descriptors q n count, s.queueLink q, s.ns, 0, 16 * count⟩] ∧ t.bit (R.HOST_QSTAT.BUSY q) = true ∧
          s.sends t (s.hostOut (s.queueLink q) [.hostRead (s.queueLink q) (s.slotAddr q n) (16 * count) false false]))) ∧
  (∀ (s : State) (src : HostSrc) (q value : Nat), Instr.wf (.queueDoorbell src q value) = true → s.reach src = true →
    (s.accessMode ≠ .serve ∨ src.func ≠ s.get (R.HOST_Q.FUNC q) ∨ s.bit (R.HOST_Q.ENABLE q) = false ∨ 65536 ≤ value ∨
      doorbellTarget (s.get (R.HOST_QSTAT.T q)) (s.get (R.HOST_QSTAT.C q)) (s.get (R.HOST_Q.SIZE q)) value = none) →
    ∃ t, exec (.queueDoorbell src q value) s = .next t ∧ t.get R.HOST_ERR.DOORBELL = min (s.get R.HOST_ERR.DOORBELL + 1) 65535 ∧
      s.kept t [] fun k => k = R.HOST_ERR.DOORBELL.off) ∧
  (∀ (s : State) (src : HostSrc) (value t' : Nat), Instr.wf (.dmaDoorbell src value) = true → s.manages src →
    s.bit R.DMA_RING.ENABLE = true → value < 65536 →
    doorbellTarget (s.get R.DMA_STAT.T) (s.get R.DMA_STAT.C) (s.get R.DMA_RING.SIZE) value = some t' →
    ∃ t, exec (.dmaDoorbell src value) s = .next t ∧ t.get R.DMA_STAT.T = t' ∧ t.get R.DMA_STAT.C = s.get R.DMA_STAT.C ∧
      t.get R.HOST_ERR.DOORBELL = s.get R.HOST_ERR.DOORBELL ∧
      (s.dmaRuns = false → s.kept t [] fun k => k = R.DMA_STAT.T.off) ∧
      (∀ n count, n = s.get R.DMA_STAT.C →
        count = min (min 64 ((t' + 65536 - n) % 65536)) (2 ^ s.get R.DMA_RING.SIZE - n % 2 ^ s.get R.DMA_RING.SIZE) → count ≠ 0 →
        s.dmaRuns = true → s.host.dmaReady = [] → s.reading HostReq.ofMover = false → s.host.dmaRetries = (0, 0) → s.host.waits = [] →
        s.tagFree (.dmaDescriptors n count) = true → s.epUp (s.get R.DMA_RING.EP) = true → 32 * count ≤ s.maxRead (4 * s.get R.DMA_RING.EP) →
        t.host.reads = s.host.reads ++ [⟨.dmaDescriptors n count, s.get R.DMA_RING.EP, s.ns, 0, 32 * count⟩] ∧
          s.sends t [.hostRead (s.get R.DMA_RING.EP) (s.dmaSlot n) (32 * count) false false])) ∧
  (∀ (s : State) (src : HostSrc) (value : Nat), Instr.wf (.dmaDoorbell src value) = true → s.manages src →
    (s.bit R.DMA_RING.ENABLE = false ∨ 65536 ≤ value ∨
      doorbellTarget (s.get R.DMA_STAT.T) (s.get R.DMA_STAT.C) (s.get R.DMA_RING.SIZE) value = none) →
    ∃ t, exec (.dmaDoorbell src value) s = .next t ∧ t.get R.HOST_ERR.DOORBELL = min (s.get R.HOST_ERR.DOORBELL + 1) 65535 ∧
      s.kept t [] fun k => k = R.HOST_ERR.DOORBELL.off)

/-- Descriptors whose last bytes arrive with the expected numbers are ready in order, for a queue and for the bulk mover, and a mismatched
one is read again (R444, R454); a transmit buffer that arrives becomes a frame, a poisoned one ends its descriptor with status 1 (R439, R447); a
request without an answer stops what it was for (R438). A bulk mover descriptor starts as a run or is refused with its reason and fault
(R455, R456); its pulse follows when its writes are issued or have arrived (R456, R457). -/
def Obligations.HostReadsAndPulsesEnd : Prop :=
  (∀ (s : State) (q n count : Nat) (r : HostRead) (data : List Byte) (l : List (Nat × List Byte)), q < 16384 → s.forwarding = true →
    s.fetching q = some r → r.req = .descriptors q n count → s.queueRuns q = true → n = s.nextNumber q →
    (s.host.waits.any fun w => w.req == r.req) = false → takeDescriptors 16 10 (s.partsOf r.req ++ data) count n = (l, false) →
    ∃ t, exec (.descriptorReadComplete q data false) s = .next t ∧
      (s.bit (R.HOST_Q.DIR q) = true ∨ s.reading (HostReq.ofFrame q) = true →
        t.ready q = s.ready q ++ l ∧ t.get (R.HOST_QSTAT.C q) = s.get (R.HOST_QSTAT.C q))) ∧
  (∀ (s : State) (q n count : Nat) (r : HostRead) (data : List Byte), q < 16384 → s.forwarding = true →
    s.fetching q = some r → r.req = .descriptors q n count → s.queueRuns q = true → n = s.nextNumber q →
    ∃ t, exec (.descriptorReadComplete q data true) s = .next t ∧ t.bit (R.HOST_QSTAT.STOPPED q) = true ∧
      t.get (R.HOST_QSTAT.ERROR q) = 2 ∧ t.get R.HOST_ERR.POISON_TX = min (s.get R.HOST_ERR.POISON_TX + 1) 65535) ∧
  (∀ (s : State) (n count : Nat) (r : HostRead) (data : List Byte) (l : List (Nat × List Byte)), s.forwarding = true →
    s.dmaFetching = some r → r.req = .dmaDescriptors n count → s.dmaRuns = true → n = s.dmaNext →
    (s.host.waits.any fun w => w.req == r.req) = false → takeDescriptors 32 24 (s.partsOf r.req ++ data) count n = (l, false) →
    ∃ t, exec (.descriptorReadComplete 16384 data false) s = .next t ∧ t.host.dmaReady = s.host.dmaReady ++ l ∧
      t.get R.DMA_STAT.C = s.get R.DMA_STAT.C) ∧
  (∀ (s : State) (q : Nat), q < 16384 → s.forwarding = true → s.queueRuns q = true → (s.retryOf q).1 ≠ 0 → (s.retryOf q).2 ≤ s.ns →
    s.reading (HostReq.ofRing q) = false → s.host.waits = [] → s.tagFree (.reread q (s.nextNumber q)) = true →
    ∃ t, exec (.descriptorReread q) s = .next t ∧
      t.host.reads = s.host.reads ++ [⟨.reread q (s.nextNumber q), s.queueLink q, s.ns, 0, 16⟩] ∧ t.bit (R.HOST_QSTAT.BUSY q) = true ∧
      s.sends t (s.hostOut (s.queueLink q) [.hostRead (s.queueLink q) (s.slotAddr q (s.nextNumber q)) 16 false false])) ∧
  (∀ (s : State), s.forwarding = true → s.dmaRuns = true → s.host.dmaRetries.1 ≠ 0 → s.host.dmaRetries.2 ≤ s.ns →
    s.reading HostReq.ofMover = false → s.host.waits = [] → s.tagFree (.dmaReread s.dmaNext) = true → s.epUp (s.get R.DMA_RING.EP) = true →
    ∃ t, exec (.descriptorReread 16384) s = .next t ∧
      t.host.reads = s.host.reads ++ [⟨.dmaReread s.dmaNext, s.get R.DMA_RING.EP, s.ns, 0, 32⟩] ∧
      s.sends t [.hostRead (s.get R.DMA_RING.EP) (s.dmaSlot s.dmaNext) 32 false false]) ∧
  (∀ (s : State) (q n : Nat) (r : HostRead) (d data : List Byte) (rest : List (Nat × List Byte)), q < 16384 → s.forwarding = true →
    s.dataRead q = some r → s.ready q = (n, d) :: rest → r.req = .txData q n →
    ((s.host.waits.any fun w => w.req == r.req) = false → ∃ t, exec (.txDescriptor q data false) s = .next t ∧ t.buf.nextId = s.buf.nextId + 1 ∧
      t.buf.rx.length = s.buf.rx.length + 1) ∧
    (s.host.waits = [] → ∃ t l, exec (.txDescriptor q data true) s = .next t ∧ t.get R.HOST_ERR.POISON_TX = min (s.get R.HOST_ERR.POISON_TX + 1) 65535 ∧
      t.buf.rx = s.buf.rx ∧
      t.out = s.out ++ s.hostOut (s.queueLink q) [.hostWrite (s.queueLink q) (s.slotAddr q n + 12) (leBytes 1 3) false false false] ++ l)) ∧
  (∀ (s : State) (i : Nat) (answered : Bool) (r : HostRead), s.host.reads[i]? = some r → s.forwarding = true →
    (answered = true ∨ r.ns + 1000000 * s.get R.HOST_CFG.CTO ≤ s.ns) →
    ∃ t, exec (.completionTimeout i answered) s = .next t ∧ t.get R.HOST_ERR.CTO = min (s.get R.HOST_ERR.CTO + 1) 65535 ∧
      (∀ q n k, r.req = .descriptors q n k → q < 16384 → s.queueRuns q = true → n = s.nextNumber q →
        t.bit (R.HOST_QSTAT.STOPPED q) = true ∧ t.get (R.HOST_QSTAT.ERROR q) = 2) ∧
      (∀ q n d rest, r.req = .txData q n → q < 16384 → n < 65536 → s.host.flr.contains q = false → s.ready q = (n, d) :: rest →
        s.emits t (s.hostOut (s.queueLink q) [.hostWrite (s.queueLink q) (s.slotAddr q n + 12) (leBytes 1 5) false false false])) ∧
      (∀ n k, r.req = .dmaDescriptors n k → n < 65536 → t.bit R.DMA_STAT.STOPPED = true ∧ t.get R.DMA_STAT.ERROR = 2 ∧
        (s.host.waits = [] → t.host.reads = s.host.reads.erase r)) ∧
      (∀ n x, r.req = .dmaData n → (s.host.dmaRuns.find? fun y => y.number == n && !y.issued) = some x →
        (∃ y ∈ t.host.dmaRuns, y.who = x.who ∧ y.error = true) ∧
        (s.bit R.DMA_CAP.VALID = false → t.bit R.DMA_CAP.VALID = true ∧ t.get R.DMA_CAP.REASON = 4 ∧ t.get R.DMA_CAP.NUMBER = n % 65536))) ∧
  (∀ (s : State) (n reason : Nat) (d : List Byte) (rest : List (Nat × List Byte)), s.forwarding = true → s.dmaRuns = true →
    s.host.dmaReady = (n, d) :: rest → s.dmaRefusal d = some reason →
    ∃ t, exec .dmaDescriptorStart s = .next t ∧ t.host.dmaReady = rest ∧ t.get R.DMA_STAT.C = (n + 1) % 65536 ∧
      t.host.dmaRuns = s.host.dmaRuns ∧ t.bit (faultBit 33) = true ∧
      t.cmd.pulses = s.cmd.pulses ++ (if (leAt d 23 1).testBit 7 then [(leAt d 23 1 % 64, true)] else []) ∧
      (s.bit R.DMA_CAP.VALID = false → t.bit R.DMA_CAP.VALID = true ∧ t.get R.DMA_CAP.REASON = reason ∧ t.get R.DMA_CAP.NUMBER = n % 65536)) ∧
  (∀ (s : State) (n : Nat) (d : List Byte) (rest : List (Nat × List Byte)), s.forwarding = true → s.dmaRuns = true →
    s.host.dmaReady = (n, d) :: rest → s.dmaRefusal d = none → s.host.dmaRuns.length < s.get R.DMA_CFG.INFLIGHT →
    ((leAt d 22 1).testBit 0 = true → s.host.dmaRuns = []) → (leAt d 20 1 < 2 → s.epUp (leAt d 20 1) = true) →
    ∃ t, exec .dmaDescriptorStart s = .next t ∧ t.host.dmaReady = rest ∧ t.get R.DMA_STAT.C = (n + 1) % 65536 ∧
      t.host.dmaRuns = s.host.dmaRuns ++ [⟨n, d, false, false, s.mem.nextWho⟩] ∧ t.cmd = s.cmd ∧
      (leAt d 20 1 < 2 → s.host.waits = [] → s.tagFree (.dmaData n) = true →
        s.emits t [.hostRead (leAt d 20 1) (leAt d 0 8) (min (leAt d 16 4) (s.maxRead (4 * leAt d 20 1))) ((leAt d 22 1).testBit 1)
          ((leAt d 22 1).testBit 2)])) ∧
  (∀ (s : State) (r : DmaRun) (data : List Byte) (status : List Nat), Instr.wf (.dmaPulse r.number data status false) = true →
    s.forwarding = true → (s.host.dmaRuns.find? fun x => x.number == r.number) = some r → r.issued = false →
    (leAt r.bytes 20 1 < 2 → (s.host.reads.any fun h => h.req == .dmaData r.number) = true ∧
      (s.host.waits.any fun w => w.req == .dmaData r.number) = false) →
    (2 ≤ leAt r.bytes 20 1 → s.transferDone r.who = true) →
    ∃ t, exec (.dmaPulse r.number data status false) s = .next t ∧ (∃ x ∈ t.host.dmaRuns, x.number = r.number ∧ x.issued = true) ∧
      t.cmd.pulses.length = s.cmd.pulses.length + (if (leAt r.bytes 22 1).testBit 0 = false ∧ (leAt r.bytes 23 1).testBit 7 = true
        then 1 else 0)) ∧
  (∀ (s : State) (r : DmaRun) (data : List Byte) (status : List Nat), Instr.wf (.dmaPulse r.number data status true) = true →
    s.forwarding = true → (s.host.dmaRuns.find? fun x => x.number == r.number) = some r → r.issued = true →
    (leAt r.bytes 21 1 = 3 → s.transferDone r.who = true) → (s.host.waits.any fun w => w.req == .dmaFlush r.number) = false →
    ∃ t, exec (.dmaPulse r.number data status true) s = .next t ∧ t.host.dmaRuns = s.host.dmaRuns.filter (fun x => x.who != r.who) ∧
      t.cmd.pulses = s.cmd.pulses ++ (if (leAt r.bytes 22 1).testBit 0 = true ∧ (leAt r.bytes 23 1).testBit 7 = true
        then [(leAt r.bytes 23 1 % 64, r.error || s.mem.failed.contains r.who)] else []) ∧
      (s.host.waits = [] → s.host.flr = [] → t.host.reads = s.host.reads.filter (fun h => h.req != .dmaFlush r.number) ∧
        s.kept { t with cmd := s.cmd, host := s.host } [] fun k => k = R.DMA_STAT.RUNNING.off ∨ k = R.HOST_TAGS.IN_USE.off))

/-- A moderated message is sent when its time has passed (R449); a function level reset gives up the descriptors of its function's queues
and stops those with no read in flight, and a low reset pin holds the endpoint's links in reset and stops its queues (R435, R586); a trained host link shows its rate
and width (R433). -/
def Obligations.HostLinksAndResets : Prop :=
  (∀ (s : State) (func vec : Nat), Instr.wf (.msixModeration func vec) = true → s.coreUp = true →
    0 < (SMap.find (fun _ => (0, 0)) s.host.moder (2048 * func + vec)).1 →
    (SMap.find (fun _ => (0, 0)) s.host.moder (2048 * func + vec)).2 ≤ s.ns →
    ∃ t, exec (.msixModeration func vec) s = .next t ∧ SMap.find (fun _ => (0, 0)) t.host.moder (2048 * func + vec) = (0, 0) ∧
      s.kept { t with host := s.host } (s.hostOut (s.linkOf func) [.msix func vec]) fun _ => False) ∧
  (∀ (s : State) (src : HostSrc), src.wf = true → s.mode = .serve →
    ∃ t, exec (.functionLevelReset src) s = .next t ∧ ∀ q, q < 16384 → s.get (R.HOST_Q.FUNC q) = src.func →
      t.ready q = [] ∧ t.queueRuns q = false ∧
      (s.fetching q = none → s.dataRead q = none → t.bit (R.HOST_QSTAT.STOPPED q) = true ∧ t.get (R.HOST_QSTAT.ERROR q) = 3 ∧
        t.get (R.HOST_QSTAT.T q) = t.get (R.HOST_QSTAT.C q)) ∧
      (s.fetching q ≠ none ∨ s.dataRead q ≠ none → q ∈ t.host.flr)) ∧
  (∀ (s : State) (ep : Nat), ep < 2 →
    ∃ t, exec (.hxPerstN ep true) s = .next t ∧ t.power.perstN = s.power.perstN.set ep true ∧
      (s.forwarding = false ∨ s.dmaRuns = false → s.kept { t with power := s.power } [] fun _ => False)) ∧
  (∀ (s : State) (ep : Nat), ep < 2 →
    ∃ t, exec (.hxPerstN ep false) s = .next t ∧ t.power.perstN = s.power.perstN.set ep false ∧ t.get (R.HOST_LINK.RATE_A ep) = 0 ∧
      t.get (R.HOST_LINK.RATE_B ep) = 0 ∧ t.get (R.HOST_LINK.WIDTH_B ep) = 0 ∧ t.get (R.HOST_LINKW.WIDTH_A ep) = 0 ∧
      ∀ q, q < 16384 → s.epOfFunc (s.get (R.HOST_Q.FUNC q)) = ep → t.queueRuns q = false) ∧
  (∀ (s : State) (ep rate width : Nat), Instr.wf (.hostLinkTrained ep false rate width) = true → s.coreUp = true → s.epUp ep = true →
    width ≤ s.hostLanes ep → ∃ t, exec (.hostLinkTrained ep false rate width) s = .next t ∧ t.get (R.HOST_LINK.RATE_A ep) = rate ∧
      t.get (R.HOST_LINKW.WIDTH_A ep) = width ∧
      s.kept t [] fun k => k = (R.HOST_LINK.RATE_A ep).off ∨ k = (R.HOST_LINKW.WIDTH_A ep).off) ∧
  (∀ (s : State) (ep rate width : Nat), Instr.wf (.hostLinkTrained ep true rate width) = true → s.coreUp = true → s.epUp ep = true →
    s.power.hxBif.getD ep false = true → width ≤ 8 →
    ∃ t, exec (.hostLinkTrained ep true rate width) s = .next t ∧ t.get (R.HOST_LINK.RATE_B ep) = rate ∧
      t.get (R.HOST_LINK.WIDTH_B ep) = width ∧ s.kept t [] fun k => k = (R.HOST_LINK.RATE_B ep).off)

/-! ### The fabric: addresses, advertisements, routes, time (R356 to R363, R368, R376 to R378) -/

/-- FAB_ADDRESS answers, sets or claims (R362); a claim that has no valid address after 100 ms times out, but in HOLD-UP (R476); the outcome carries the takeover made (R469); a claim is held for 2 ms and
then valid (R359), and where no stream is open nothing else changes; the previous addresses whose 10 ms have passed are no
longer accepted (R362). -/
def Obligations.AddressesMove : Prop :=
  (∀ (s : State) (seq : Nat) (c : OpenCmd), s.begins seq 0x70 c → c.formed [(17, 1), (20, 44)] = true → c.op 16 1 = 0 → c.op 18 2 = 0 →
    ∃ t, exec (.fabAddressQuery seq) s = .next t ∧
      t.outcomeOf seq = some (outcomeArea 0 0 0 0 [(16, 8, (s.word R.FAB_ADDR.STATE.off).toNat)]) ∧
      s.kept { t with cmd := s.cmd } [] fun _ => False) ∧
  (∀ (s : State) (seq : Nat) (c : OpenCmd), s.begins seq 0x70 c → c.formed [(17, 1), (20, 44)] = true → c.op 16 1 = 1 →
    c.op 18 2 < 4096 → (s.fab.adverts.any fun x => x.uid != s.uid && x.addr == c.op 18 2 && (x.valid || x.claim)) = false →
    ∃ t, exec (.fabAddressSet seq) s = .next t ∧ t.get R.FAB_CFG.ADDR = c.op 18 2 ∧ t.bit R.FAB_CFG.CONFIGURED = true ∧
      t.get R.FAB_ADDR.STATE = 2 ∧ t.get R.FAB_ADDR.ADDR = c.op 18 2 ∧ t.bit R.FAB_ADDR.CLAIMED = false ∧ t.fab.advDue = true ∧
      t.fab.setCmds = s.fab.setCmds ++ [seq] ∧ t.takeoverOf seq = s.now ∧ (s.fab.streams = [] → t.outcomeOf seq = none ∧
        s.kept { t with cmd := s.cmd, fab := s.fab } [] fun k => k = R.FAB_CFG.ADDR.off ∨ k = R.FAB_ADDR.STATE.off)) ∧
  (∀ (s : State) (seq : Nat) (c : OpenCmd), s.begins seq 0x70 c → c.formed [(17, 1), (20, 44)] = true → c.op 16 1 = 2 → c.op 18 2 = 0 →
    ∃ t, exec (.fabAddressClaim seq) s = .next t ∧ t.bit R.FAB_CFG.CONFIGURED = false ∧ t.get R.FAB_ADDR.STATE = 0 ∧
      t.fab.claimCmds = s.fab.claimCmds ++ [(seq, c.acceptedNs)] ∧ t.takeoverOf seq = s.now ∧ t.outcomeOf seq = none ∧
      s.kept { t with cmd := s.cmd, fab := s.fab } [] fun k => k = R.FAB_CFG.ADDR.off ∨ k = R.FAB_ADDR.STATE.off) ∧
  (∀ (s : State) (seq t0 : Nat) (c : OpenCmd), s.mode ≠ .holdUp → (seq, t0) ∈ s.fab.claimCmds → t0 + 100000000 ≤ s.ns → s.findCmd seq = some c →
    ∃ t, exec (.claimTimeout seq) s = .next t ∧
      t.outcomeOf seq = some (outcomeArea 3 0 0 c.takeNs [(16, 8, (s.word R.FAB_ADDR.STATE.off).toNat)]) ∧
      t.fab.claimCmds = s.fab.claimCmds.filter (fun q => q.1 != seq) ∧ s.kept { t with cmd := s.cmd, fab := s.fab } [] fun _ => False) ∧
  (∀ (s : State), s.mode = .serve → s.bit R.FAB_CFG.CONFIGURED = false → s.get R.FAB_ADDR.STATE = 0 → s.upIrises ≠ [] →
    s.fab.quietNs + 1000000 ≤ s.ns →
    ∃ t, exec .addressClaim s = .next t ∧
      (∀ a, s.lowestAddress = some a → t.get R.FAB_ADDR.STATE = 1 ∧ t.get R.FAB_ADDR.ADDR = a ∧ t.fab.claimEnd = some (s.ns + 2000000)) ∧
      (s.lowestAddress = none → t.get R.FAB_ADDR.STATE = 0) ∧ t.fab.advDue = true ∧
      s.kept { t with fab := s.fab } [] fun k => k = R.FAB_ADDR.STATE.off) ∧
  (∀ (s : State) (e : Nat), s.mode = .serve → s.get R.FAB_ADDR.STATE = 1 → s.fab.claimEnd = some e → e ≤ s.ns →
    ∃ t, exec .claimHoldEnd s = .next t ∧ t.get R.FAB_ADDR.STATE = 2 ∧ t.get R.FAB_ADDR.ADDR = s.get R.FAB_ADDR.ADDR ∧
      t.bit R.FAB_ADDR.CLAIMED = true ∧ t.fab.claimEnd = none ∧ t.fab.passed = [] ∧ t.fab.claimCmds = [] ∧ t.fab.advDue = true ∧
      (∀ q t0 c, s.fab.claimCmds = [(q, t0)] → s.findCmd q = some c →
        t.outcomeOf q = some (outcomeArea 0 0 0 c.takeNs [(16, 8, (t.word R.FAB_ADDR.STATE.off).toNat)])) ∧
      (s.fab.streams = [] → s.kept { t with cmd := s.cmd, fab := s.fab } [] fun k => k = R.FAB_ADDR.STATE.off)) ∧
  (∀ (s : State), ∃ t, exec .previousAddressExpiry s = .next t ∧
    t.fab = { s.fab with previous := s.fab.previous.filter fun p => decide (s.ns < p.2) } ∧ s.kept { t with fab := s.fab } [] fun _ => False)

/-- The device advertises when it is due (R356); a fragment of an originator not stored yet is stored (R357), one of its own
that is newer also moves its sequence; advertisements not refreshed for 1 s are removed (R358); the route role counts the devices it reaches (R363); the spray epoch
draws the pointers anew and touches nothing else (R368). The device sends a TSYNC on its parent iris every 100 µs; a TREPLY with its tag
sets the offset that is slewed out; without one for 1 ms fabric time is lost (R377, R378). -/
def Obligations.RoutesAndFabricTimeFollow : Prop :=
  (∀ (s : State), s.irisesRun = true →
    (s.fab.advNs = none ∨ ∃ t0, s.fab.advNs = some t0 ∧ t0 + 10000 ≤ s.ns ∧ (s.fab.advDue = true ∨ t0 + 100000000 ≤ s.ns)) →
    ∃ t, exec .advertSend s = .next t ∧ t.fab.advSeq = (s.fab.advSeq + 1) % 2 ^ 32 ∧ t.fab.advNs = some s.ns ∧ t.fab.advDue = false ∧
      (s.get R.FAB_ADDR.STATE = 2 → t.fab.setCmds = []) ∧
      (∀ q c, s.get R.FAB_ADDR.STATE = 2 → s.fab.setCmds = [q] → s.findCmd q = some c →
        t.outcomeOf q = some (outcomeArea 0 0 0 c.takeNs [(16, 8, (s.word R.FAB_ADDR.STATE.off).toNat)]))) ∧
  (∀ (s u : State) (w : Nat × Nat × List Byte), s.irisesRun = true → s.roleUp 4 = true → s.takeWork 1 = some (w, u) →
    ∃ t, exec .advertReceive s = .next t ∧ t.fab.work = s.fab.work.erase w ∧
      ((advertHead w.2.2 s.ns).uid = s.uid →
        newer (advertHead w.2.2 s.ns).epoch (advertHead w.2.2 s.ns).seq (s.get R.FAB_TOPO.EPOCH) s.fab.advSeq = true →
        t.fab.advSeq = max s.fab.advSeq (advertHead w.2.2 s.ns).seq ∧ t.fab.advDue = true) ∧
      (s.advertOf (advertHead w.2.2 s.ns).uid = none →
        t.fab.quietNs = s.ns ∧ t.advertOf (advertHead w.2.2 s.ns).uid = some ((advertHead w.2.2 s.ns).withFrag w.2.2))) ∧
  (∀ (s : State), s.irisesRun = true →
    ∃ t, exec .advertExpiry s = .next t ∧ t.fab.adverts = s.fab.adverts.filter (fun a => decide (s.ns < a.ns + 1000000000)) ∧
      s.kept { t with fab := { t.fab with adverts := s.fab.adverts } } [] fun _ => False) ∧
  (∀ (s : State), s.irisesRun = true → s.roleUp 4 = true →
    ∃ t, exec .routeCompute s = .next t ∧
      (s.fab.waiting = [] → s.fab.streams = [] → t.get R.FAB_TOPO.REACHABLE = (t.fab.peers.filter fun e => e.2.isSome).length % 2 ^ 13)) ∧
  (∀ (s : State), s.irisesRun = true → s.fab.epochNs + 1000 * s.get R.FAB_SPRAY.EPOCH ≤ s.ns →
    ∃ t, exec .sprayEpoch s = .next t ∧ t.fab = { s.fab with epochNs := s.ns } ∧
      s.kept { t with free := s.free, fab := s.fab } [] fun k => 0x2410000 ≤ k ∧ k < 0x2418000 ∧ k % 8 = 0) ∧
  (∀ (s : State), s.irisesRun = true → s.hasParent = true → s.irisState (s.get R.FAB_TIME.PARENT) = 2 → s.fab.syncNs + 100000 ≤ s.ns →
    ∃ t, exec .tsyncSend s = .next t ∧ t.fab.tag = (s.fab.tag + 1) % 65536 ∧ t.fab.syncNs = s.ns ∧
      (∀ i, i ≠ s.get R.FAB_TIME.PARENT → t.iris i = s.iris i) ∧
      (∀ k, ¬ followReg k → k ≠ (R.IRIS_CREDIT.AVAIL (s.get R.FAB_TIME.PARENT)).off →
        k ≠ (R.IRIS_RETRY.QUEUED (s.get R.FAB_TIME.PARENT)).off → t.word k = s.word k)) ∧
  (∀ (s u : State) (w : Nat × Nat × List Byte), s.irisesRun = true → s.roleUp 4 = true → s.takeWork 3 = some (w, u) → s.hasParent = true →
    w.1 = s.get R.FAB_TIME.PARENT → leAt w.2.2 2 2 = s.fab.tag →
    ∃ t, exec .treplyReceive s = .next t ∧ t.fab.work = s.fab.work.erase w ∧ t.fab.replyNs = s.ns ∧
      t.fabSlew = true ∧ t.slew = (stampDiff (leAt w.2.2 16 8) (leAt w.2.2 8 8) - stampDiff (w.2.1 / 2 ^ 24 % 2 ^ 64) (leAt w.2.2 24 8)) / 2 * 2 ^ 24 ∧
      t.word R.TIME_OFFSET.OFFSET.off = BitVec.ofNat 64 (leAt w.2.2 32 8) ∧
      (655360 < ((stampDiff (leAt w.2.2 16 8) (leAt w.2.2 8 8) - stampDiff (w.2.1 / 2 ^ 24 % 2 ^ 64) (leAt w.2.2 24 8)) / 2).natAbs →
        t.bit R.FAB_TIME.LOCKED = false) ∧
      s.kept { t with fab := s.fab, slew := s.slew, fabSlew := s.fabSlew } [] fun k => k = R.FAB_TIME.OFFSET.off ∨ k = R.TIME_OFFSET.OFFSET.off) ∧
  (∀ (s : State), s.irisesRun = true → (s.hasParent = true ∨ s.bit R.FAB_TIME.LOCKED = true) → s.fab.replyNs + 1000000 ≤ s.ns →
    ∃ t, exec .fabTimeLost s = .next t ∧ t.bit R.FAB_TIME.LOCKED = false ∧ t.fab.good = 0 ∧ t.fab.replyNs = s.ns ∧ t.bit (faultBit 26) = true)

/-! ### Fabric links (R331 to R353) -/

/-- FAB_LINK_CTL (R352): DISABLE drains an UP iris, disables any other at once; ENABLE starts TRAINING; RETRAIN and WIDTH open a planned
change; AUTO_OFF and AUTO_ON set AUTO where no change is in progress. -/
def Obligations.LinkCommandsAct : Prop :=
  (∀ (s : State) (seq i : Nat) (c : OpenCmd), s.begins seq 0x71 c → c.linkOp 0 i 0 0 → (s.iris i).change = none →
    (s.iris i).disabling = none →
    ∃ t, exec (.fabLinkDisable seq) s = .next t ∧
      (s.irisState i = 2 → t.irisState i = 3 ∧ (t.iris i).disabling = some seq ∧ t.outcomeOf seq = none ∧ t.fab.advDue = true) ∧
      (s.irisState i = 0 → t.bit (R.IRIS_CTRL.ENABLE i) = false ∧
        t.outcomeOf seq = some (outcomeArea 0 0 0 s.now [(16, 1, s.get (R.IRIS_STATUS.WIDTH i))]) ∧
        s.kept { t with cmd := s.cmd } [] fun k => k = (R.IRIS_CTRL.ENABLE i).off) ∧
      (s.irisState i ≠ 2 → s.irisState i ≠ 0 → s.wentDown t i 7 ∧ (s.noReturns i → t.bit (R.IRIS_CTRL.ENABLE i) = false ∧
        t.outcomeOf seq = some (outcomeArea 0 0 0 s.now [(16, 1, s.get (R.IRIS_STATUS.WIDTH i))])))) ∧
  (∀ (s : State) (seq i w m : Nat) (c : OpenCmd), s.begins seq 0x71 c → c.linkOp 1 i w m → w < 3 → m < 16 → (groupIn w m).isSome = true →
    s.irisState i = 0 →
    ∃ t, exec (.fabLinkEnable seq) s = .next t ∧ t.irisState i = 1 ∧ t.bit (R.IRIS_CTRL.ENABLE i) = true ∧
      t.get (R.IRIS_CTRL.LANES_EN i) = m ∧ t.get (R.IRIS_CTRL.WIDTH_MAX i) = w ∧
      t.outcomeOf seq = some (outcomeArea 0 0 0 s.now [(16, 1, w)]) ∧
      s.kept { t with cmd := s.cmd, irises := s.irises } [] fun k => k = (R.IRIS_CTRL.ENABLE i).off ∨ k = (R.IRIS_STATUS.STATE i).off) ∧
  (∀ (s : State) (seq i : Nat) (c : OpenCmd), s.begins seq 0x71 c → c.linkOp 2 i 0 0 → s.irisState i = 2 → (s.iris i).change = none →
    (s.iris i).disabling = none →
    ∃ t, exec (.fabLinkRetrain seq) s = .next t ∧ t.outcomeOf seq = none ∧
      (t.iris i).change =
        some { leader := true, width := s.get (R.IRIS_STATUS.WIDTH i), mask := s.get (R.IRIS_CTRL.LANES_EN i), same := true, reqNs := s.ns, cmd := some seq } ∧
      s.kept { t with cmd := s.cmd, irises := s.irises } [] fun _ => False) ∧
  (∀ (s : State) (seq i w m : Nat) (c : OpenCmd), s.begins seq 0x71 c → c.linkOp 3 i w m → w < 3 → m < 16 → (groupIn w m).isSome = true →
    s.irisState i = 2 → (s.iris i).change = none → (s.iris i).disabling = none →
    ∃ t, exec (.fabLinkWidth seq) s = .next t ∧ t.outcomeOf seq = none ∧ t.get (R.IRIS_CTRL.LANES_EN i) = m ∧
      t.get (R.IRIS_CTRL.WIDTH_MAX i) = w ∧
      (t.iris i).change = some { leader := true, width := w, mask := m, same := false, reqNs := s.ns, cmd := some seq } ∧
      s.kept { t with cmd := s.cmd, irises := s.irises } [] fun k => k = (R.IRIS_CTRL.ENABLE i).off) ∧
  (∀ (s : State) (seq i : Nat) (c : OpenCmd), s.begins seq 0x71 c → c.linkOp 4 i 0 0 → (s.iris i).change = none →
    ∃ t, exec (.fabLinkAutoOff seq) s = .next t ∧ t.bit (R.IRIS_CTRL.AUTO i) = false ∧
      t.outcomeOf seq = some (outcomeArea 0 0 0 s.now [(16, 1, s.get (R.IRIS_STATUS.WIDTH i))]) ∧
      s.kept { t with cmd := s.cmd } [] fun k => k = (R.IRIS_CTRL.AUTO i).off) ∧
  (∀ (s : State) (seq i : Nat) (c : OpenCmd), s.begins seq 0x71 c → c.linkOp 5 i 0 0 → (s.iris i).change = none →
    ∃ t, exec (.fabLinkAutoOn seq) s = .next t ∧ t.bit (R.IRIS_CTRL.AUTO i) = true ∧
      t.outcomeOf seq = some (outcomeArea 0 0 0 s.now [(16, 1, s.get (R.IRIS_STATUS.WIDTH i))]) ∧
      s.kept { t with cmd := s.cmd } [] fun k => k = (R.IRIS_CTRL.AUTO i).off)

/-- An iris sends its CTRL cell, its CALL and its GASP cell (R338, R346, R353), replays what is not acknowledged in time (R342) and counts
the ECHO it misses (R346). -/
def Obligations.IrisesSend : Prop :=
  (∀ (s : State) (i : Nat), i < 64 → s.irisesRun = true → 1 ≤ s.irisState i → s.irisState i ≤ 3 →
    ∃ t, exec (.irisCtrlSend i) s = .next t ∧
      t.iris i = { s.iris i with records := (s.iris i).records.drop 15, ctrlNs := s.ns, ackSent := (s.iris i).exp } ∧
      s.kept { t with irises := s.irises } [.cell i (unsequenced 3 0 (s.ctrlPayload i))] fun _ => False) ∧
  (∀ (s : State) (i : Nat), i < 64 → s.irisesRun = true → s.irisState i = 1 ∨ s.irisState i = 2 →
    ((s.iris i).callNs = 0 ∨ (s.iris i).callNs + 999 ≤ s.ns) →
    ∃ t, exec (.callSend i) s = .next t ∧ t.iris i = { s.iris i with
        tag := ((s.iris i).tag + 1) % 65536
        calls := (s.iris i).calls ++ [((s.iris i).tag, s.ns)]
        callNs := s.ns + 1
        records := (s.iris i).records ++ [slice (s.callRecord 1 (s.iris i).tag) 0 16] } ∧
      s.kept { t with irises := s.irises } [] fun _ => False) ∧
  (∀ (s : State) (i : Nat), i < 64 → s.mode = .serve → s.irisState i = 5 → s.bit (R.IRIS_CTRL.AUTO i) = true → (s.iris i).held = false →
    ∃ t, exec (.callSend i) s = .next t ∧ t.irisState i = 1 ∧
      ((s.iris i).callNs = 0 ∨ (s.iris i).callNs + 999 ≤ s.ns → (t.iris i).tag = ((s.iris i).tag + 1) % 65536) ∧
      s.kept { t with irises := s.irises } [] fun k => k = (R.IRIS_STATUS.STATE i).off) ∧
  (∀ (s : State) (i tag t0 : Nat) (cs : List (Nat × Nat)), i < 64 → s.irisesRun = true → (s.iris i).calls = (tag, t0) :: cs →
    t0 + 2000 ≤ s.ns →
    ∃ t, exec (.echoMissed i) s = .next t ∧
      ((s.iris i).misses < 2 → t.iris i = { s.iris i with calls := cs, misses := (s.iris i).misses + 1 } ∧
        t.get (R.IRIS_ERR.MISSED i) = min (s.get (R.IRIS_ERR.MISSED i) + 1) 65535 ∧
        s.kept { t with irises := s.irises } [] fun k => k = (R.IRIS_ERR.MISSED i).off) ∧
      (2 ≤ (s.iris i).misses → s.irisActive i = true → s.wentDown t i 1)) ∧
  (∀ (s : State) (i : Nat), i < 64 → s.mode = .serve → s.irisState i = 2 ∨ s.irisState i = 3 → (s.iris i).queue ≠ [] →
    (s.iris i).markNs + s.get (R.IRIS_RETRY.ACK_TIMEOUT i) ≤ s.ns → s.replaying i (s.iris i).mark = false →
    ∃ t, exec (.ackTimeout i) s = .next t ∧ (t.iris i).replay = some ((s.iris i).mark, s.ns) ∧
      t.get (R.IRIS_ERR.REWINDS i) = min (s.get (R.IRIS_ERR.REWINDS i) + 1) 65535 ∧
      s.kept { t with irises := s.irises }
        (((s.iris i).queue.filter fun e => decide ((e.lseq + 65536 - (s.iris i).mark) % 65536 ≥ ((s.iris i).mark + 65536 - (s.iris i).mark) % 65536)).map
          fun e => .cell i (e.cell.bytes e.lseq)) fun k => k = (R.IRIS_ERR.REWINDS i).off) ∧
  (∀ (s : State) (i : Nat) (e : TxEntry) (es : List TxEntry), i < 64 → s.irisesRun = true → (s.iris i).queue = e :: es →
    e.firstNs + s.get (R.IRIS_RETRY.BUDGET i) < s.ns → s.irisActive i = true →
    ∃ t, exec (.retryBudget i) s = .next t ∧ s.wentDown t i 2) ∧
  (∀ (s : State) (i : Nat), i < 64 → s.mode = .holdUp → s.power.isolated = false → s.irisState i = 2 ∨ s.irisState i = 3 →
    (s.iris i).gaspNs + 99 ≤ s.ns →
    ∃ t, exec (.gaspRepeat i) s = .next t ∧ t.iris i = { s.iris i with gaspNs := s.ns + 1 } ∧
      s.kept { t with irises := s.irises } [.cell i (unsequenced 4 (s.get R.FAB_ADDR.ADDR) (record 256 [(0, 8, s.uid), (8, 2, s.get R.FAB_ADDR.ADDR),
        (10, 1, s.get R.KEEP_EVENT.CAUSE % 2), (16, 6, s.power.holdNs)]))] fun _ => False)

/-- Training takes an iris to UP at the widest lane group that both ends, WIDTH_MAX and the lanes enabled and in lock allow (R330, R333, R349),
or DOWN where there is none (R347), and a retrain at the agreed one (R350); both wait until account 384 has the cells of the credit to grant
(R274; that they wait is the model's choice, log 169); a lane that loses lock, or a retrain that does not
complete, takes it DOWN (R347, R349); a lane over its threshold asks for a change (R349); an RT_REQ is repeated three times (R350); a
drained end that has acknowledged every accepted cell sends RT_READY, and goes to DISABLED where a DISABLE drained it (R350, R352). -/
def Obligations.IrisesTrain : Prop :=
  (∀ (s : State) (i width lanes w g : Nat), Instr.wf (.irisTrained i width lanes) = true → s.mode = .serve → s.irisState i = 1 →
    (s.iris i).callSeen = true → (s.iris i).echoSeen = true →
    widest (min width (s.get (R.IRIS_CTRL.WIDTH_MAX i))) (lanes &&& s.get (R.IRIS_CTRL.LANES_EN i)) = some (w, g) →
    s.get (R.IRIS_CREDIT.LIMIT i) ≤ s.fabricFree →
    ∃ t, exec (.irisTrained i width lanes) s = .next t ∧ t.irisState i = 2 ∧ t.get (R.IRIS_STATUS.WIDTH i) = w ∧
      t.get (R.IRIS_STATUS.LANES_ACT i) = g ∧ t.get (R.IRIS_STATUS.LANES_OK i) = lanes ∧ t.get (R.IRIS_CREDIT.HELD i) = 0 ∧ (t.iris i).next = 0 ∧ (t.iris i).exp = 0 ∧
      (t.iris i).creditTotal = s.get (R.IRIS_CREDIT.LIMIT i) ∧ (t.iris i).ups = (s.iris i).ups + 1 ∧ t.fab.advDue = true ∧
      s.kept { t with irises := s.irises, fab := s.fab } [] fun k => 0x2300000 + 0x4000 * i ≤ k ∧ k < 0x2304000 + 0x4000 * i) ∧
  (∀ (s : State) (i width lanes w g : Nat), Instr.wf (.irisTrained i width lanes) = true → s.mode = .serve → s.irisState i = 1 →
    (s.iris i).callSeen = true → (s.iris i).echoSeen = true →
    widest (min width (s.get (R.IRIS_CTRL.WIDTH_MAX i))) (lanes &&& s.get (R.IRIS_CTRL.LANES_EN i)) = some (w, g) →
    s.fabricFree < s.get (R.IRIS_CREDIT.LIMIT i) →
    ∃ t, exec (.irisTrained i width lanes) s = .next t ∧ t.irisState i = 1 ∧ t.get (R.IRIS_STATUS.LANES_OK i) = lanes ∧
      s.kept t [] fun k => k = (R.IRIS_STATUS.STATE i).off) ∧
  (∀ (s : State) (i width lanes : Nat), Instr.wf (.irisTrained i width lanes) = true → s.mode = .serve → s.irisState i = 1 →
    (s.iris i).callSeen = true → (s.iris i).echoSeen = true →
    widest (min width (s.get (R.IRIS_CTRL.WIDTH_MAX i))) (lanes &&& s.get (R.IRIS_CTRL.LANES_EN i)) = none →
    ∃ t, exec (.irisTrained i width lanes) s = .next t ∧ s.wentDown t i 6) ∧
  (∀ (s : State) (i lane : Nat), Instr.wf (.laneLockLoss i lane) = true → s.irisesRun = true →
    ∃ t, exec (.laneLockLoss i lane) s = .next t ∧
      ((s.get (R.IRIS_STATUS.LANES_ACT i)).testBit lane = false →
        (t.get (R.IRIS_STATUS.LANES_OK i)).testBit lane = false ∧ s.kept t [] fun k => k = (R.IRIS_STATUS.LANES_OK i).off) ∧
      ((s.get (R.IRIS_STATUS.LANES_ACT i)).testBit lane = true → s.irisActive i = true → s.wentDown t i 3)) ∧
  (∀ (s : State) (i lane rate w g : Nat), Instr.wf (.laneThreshold i lane rate) = true → s.irisesRun = true → s.irisState i = 2 →
    (s.get (R.IRIS_STATUS.LANES_ACT i)).testBit lane = true → s.get (R.IRIS_LANE.THRESH i) ≠ 0 → s.get (R.IRIS_LANE.THRESH i) < rate →
    (s.iris i).change = none → (s.get (R.IRIS_CTRL.LANES_EN i)).testBit lane = true →
    widest (s.get (R.IRIS_CTRL.WIDTH_MAX i)) (s.get (R.IRIS_CTRL.LANES_EN i) - 2 ^ lane) = some (w, g) →
    ∃ t, exec (.laneThreshold i lane rate) s = .next t ∧
      (t.iris i).change = some { leader := true, width := w, mask := s.get (R.IRIS_CTRL.LANES_EN i) - 2 ^ lane, same := false, reqNs := s.ns } ∧
      s.kept { t with irises := s.irises } [] fun _ => False) ∧
  (∀ (s : State) (i : Nat) (c : LinkChange), i < 64 → s.irisesRun = true → s.irisState i = 2 → (s.iris i).change = some c →
    c.leader = true → c.agreed = none → c.reqNs + 10000 ≤ s.ns →
    ∃ t, exec (.rtReqRepeat i) s = .next t ∧
      (c.repeats < 3 → (t.iris i).change = some { c with reqNs := s.ns, repeats := c.repeats + 1 } ∧
        s.kept { t with irises := s.irises } [] fun _ => False) ∧
      (3 ≤ c.repeats → s.wentDown t i 8)) ∧
  (∀ (s : State) (i : Nat) (c : LinkChange), i < 64 → s.irisesRun = true → s.irisState i = 3 → (s.iris i).queue = [] →
    (s.iris i).disabling = none → (s.iris i).change = some c → c.readySent = false → (s.iris i).ackSent = (s.iris i).exp →
    ∃ t, exec (.rtReadySend i) s = .next t ∧ (t.iris i).change = some { c with readySent := true, startNs := s.ns } ∧
      t.irisState i = (if c.readyRecv then 4 else 3) ∧
      (t.iris i).records = [] ∧
      ((s.iris i).records.length < 15 → s.kept { t with irises := s.irises }
        [.cell i (unsequenced 3 0 ((s.due i (record 16 [(0, 1, 0x12)])).ctrlPayload i))] fun k => k = (R.IRIS_STATUS.STATE i).off)) ∧
  (∀ (s : State) (i seq : Nat), i < 64 → s.irisesRun = true → s.irisState i = 3 → (s.iris i).queue = [] →
    (s.iris i).disabling = some seq → (s.iris i).ackSent = (s.iris i).exp →
    ∃ t, exec (.rtReadySend i) s = .next t ∧ s.wentDown t i 7) ∧
  (∀ (s : State) (i : Nat) (c : LinkChange), i < 64 → s.irisesRun = true → s.irisState i = 4 → (s.iris i).change = some c →
    s.ns ≤ c.startNs + 40000 → s.get (R.IRIS_CREDIT.LIMIT i) ≤ s.fabricFree →
    ∃ t, exec (.retrainComplete i) s = .next t ∧ t.irisState i = 2 ∧ (t.iris i).change = none ∧
      (∀ w m, c.agreed = some (w, m) → t.get (R.IRIS_STATUS.WIDTH i) = w % 4 ∧ t.get (R.IRIS_STATUS.LANES_ACT i) = m % 16) ∧
      (∀ q d, c.cmd = some q → s.findCmd q = some d → t.outcomeOf q =
        some (outcomeArea (if c.abandoned then 6 else 0) 0 0 s.now [(16, 1, t.get (R.IRIS_STATUS.WIDTH i))]))) ∧
  (∀ (s : State) (i : Nat) (c : LinkChange), i < 64 → s.irisesRun = true → s.irisState i = 4 → (s.iris i).change = some c →
    c.startNs + 40000 < s.ns →
    ∃ t, exec (.retrainTimeout i) s = .next t ∧ s.wentDown t i 3)

/-- A sequenced cell that fails its CRC under the sequence expected, or comes in TRAINING or RETRAINING, is discarded with a NACK (R339); a link-scoped
cell in sequence is accepted, its credit returned (R354); a gap is closed when it times out and marked
when it has been open too long (R371, R372); packets toward an unreachable device leave their queue at their iris deadline (R374). -/
def Obligations.CellsArriveAndGapsClose : Prop :=
  (∀ (s : State) (i : Nat) (bytes : List Byte), i < 64 → bytes.length = 272 → s.irisesRun = true → s.irisActive i = true →
    (cellType bytes = 1 ∨ cellType bytes = 2) →
    (s.irisState i = 2 ∨ s.irisState i = 3 → crcMatches (seqPrefix (s.iris i).exp) bytes = false) → (s.iris i).nackOpen = false →
    ∃ t, exec (.irisCellReceive i bytes) s = .next t ∧ t.iris i = { s.iris i with nackOpen := true } ∧
      t.get (R.IRIS_ERR.CRC i) = min (s.get (R.IRIS_ERR.CRC i) + 1) 65535 ∧
      s.kept { t with irises := s.irises } [] fun k => k = (R.IRIS_ERR.CRC i).off) ∧
  (∀ (s : State) (i : Nat) (bytes : List Byte), i < 64 → bytes.length = 272 → s.irisesRun = true → s.irisState i = 2 ∨ s.irisState i = 3 →
    cellType bytes = 1 → crcMatches (seqPrefix (s.iris i).exp) bytes = true → (cellOf bytes).queue = 0xFFFF →
    leAt (cellOf bytes).payload 0 1 = 1 ∨ leAt (cellOf bytes).payload 0 1 = 3 →
    ∃ t, exec (.irisCellReceive i bytes) s = .next t ∧ (t.iris i).exp = ((s.iris i).exp + 1) % 65536 ∧ (t.iris i).nackOpen = false ∧
      (t.iris i).creditTotal = ((s.iris i).creditTotal + 1) % 65536 ∧ t.fab.work = s.fab.work ++ [(i, s.tb, (cellOf bytes).payload)] ∧
      s.kept { t with irises := s.irises, fab := s.fab } [] fun _ => False) ∧
  (∀ (s : State) (d cls t0 : Nat), Instr.wf (.reorderTimeout d cls) = true → s.irisesRun = true → (s.stream d cls).gapNs = some t0 →
    t0 + s.get R.FAB_REORDER.TIMEOUT ≤ s.ns → (s.stream d cls).held ≠ [] →
    ∃ t, exec (.reorderTimeout d cls) s = .next t ∧
      t.get R.FAB_LOSS.TIMEOUTS = min (s.get R.FAB_LOSS.TIMEOUTS + 1) 65535 ∧
      ((s.stream d cls).exp < 65536 → (∀ h ∈ (s.stream d cls).held, h.1 < 65536) →
        (t.stream d cls).held.length < (s.stream d cls).held.length)) ∧
  (∀ (s : State) (d cls t0 : Nat), Instr.wf (.gapLimit d cls) = true → s.irisesRun = true → (s.stream d cls).gapNs = some t0 →
    t0 + s.get R.FAB_REORDER.GAP_LIMIT < s.ns →
    ∃ t, exec (.gapLimit d cls) s = .next t ∧ t.stream d cls = { s.stream d cls with
        limit := some (((s.stream d cls).exp + (s.stream d cls).held.foldl (fun m g => max m ((s.stream d cls).ahead g.1)) 0 + 1) % 65536) } ∧
      s.kept { t with fab := s.fab } [] fun _ => False) ∧
  (∀ (s : State) (d cls : Nat), Instr.wf (.irisDeadline d cls) = true → s.forwarding = true → s.bit (R.FAB_DEST.REACH d) = false →
    ∃ t, exec (.irisDeadline d cls) s = .next t ∧
      (t.leafQ (2 ^ 20 + 8 * d + cls)).length = ((s.leafQ (2 ^ 20 + 8 * d + cls)).filter fun p => !s.irisLate p).length)

/-! ### The SMBus management port (R481, R506, R536, R584) -/

/-- The port sets and follows its journal and fault log pointers, returns what they name and the journal's head, and carries a mode
request: RESTART takes the device to DORMANT, the keeper's registers as they were, and SAFE to SAFE with cause 4, the registers that a chip
reset keeps as they were but for what the loader has set (R506). A transaction whose PEC fails or whose byte count is wrong is ignored; what
the port does not list, and a listed command in another transfer than its own, it does not acknowledge; a transaction to another address than
0x58 + SMB_ADDR is none of its own (R584). -/
def Obligations.SMBusAnswers : Prop :=
  (∀ (s : State) (tx : SmbTx), s.hears tx → tx.kind = .blockWrite →
    (tx.pecGood = true → tx.data.length = 6 → ∃ t, exec (.smbJrnPointer tx) s = .next t ∧
      t.cmd = { s.cmd with jptr := 256 * leAt tx.data 0 6 } ∧ s.kept { t with cmd := s.cmd } [] fun _ => False) ∧
    (tx.pecGood = false ∨ tx.data.length ≠ 6 → ∃ t, exec (.smbJrnPointer tx) s = .next t ∧ s.kept t [] fun _ => False)) ∧
  (∀ (s : State) (tx : SmbTx), s.hears tx → tx.kind = .blockRead →
    (tx.pecGood = true → ∃ t, exec (.smbJrnRead tx) s = .next t ∧
      t.cmd = { s.cmd with jptr := 256 * (s.cmd.jptr / 256) + (s.cmd.jptr % 256 + 32) % 256 } ∧
      s.kept { t with cmd := s.cmd } [.smbus (slice (s.jbytes (s.cmd.jptr / 256) 0 32) (s.cmd.jptr % 256) 32)] fun _ => False) ∧
    (tx.pecGood = false → ∃ t, exec (.smbJrnRead tx) s = .next t ∧ s.kept t [] fun _ => False)) ∧
  (∀ (s : State) (tx : SmbTx), s.hears tx → tx.kind = .blockRead →
    (tx.pecGood = true → ∃ t, exec (.smbJrnStatus tx) s = .next t ∧
      s.kept t [.smbus (leBytes 8 (s.word 0x300000).toNat ++ leBytes 8 (s.word 0x300008).toNat ++ leBytes 8 (s.word 0x300018).toNat ++
        leBytes 8 (s.word 0x300010).toNat)] fun _ => False) ∧
    (tx.pecGood = false → ∃ t, exec (.smbJrnStatus tx) s = .next t ∧ s.kept t [] fun _ => False)) ∧
  (∀ (s : State) (tx : SmbTx), s.hears tx → tx.kind = .blockWrite →
    (tx.pecGood = true → tx.data.length = 4 → ∃ t, exec (.smbLogPointer tx) s = .next t ∧
      t.fault = { s.fault with logPtr := leAt tx.data 0 4 } ∧ s.kept { t with fault := s.fault } [] fun _ => False) ∧
    (tx.pecGood = false ∨ tx.data.length ≠ 4 → ∃ t, exec (.smbLogPointer tx) s = .next t ∧ s.kept t [] fun _ => False)) ∧
  (∀ (s : State) (tx : SmbTx), s.hears tx → tx.kind = .blockRead →
    (tx.pecGood = true → ∃ t, exec (.smbLogRead tx) s = .next t ∧
      t.fault = { s.fault with logPtr := (s.fault.logPtr + 1) % 2 ^ 32 } ∧
      s.kept { t with fault := s.fault } [.smbus (s.logBytes s.fault.logPtr)] fun _ => False) ∧
    (tx.pecGood = false → ∃ t, exec (.smbLogRead tx) s = .next t ∧ s.kept t [] fun _ => False)) ∧
  (∀ (s : State) (tx : SmbTx), s.hears tx → tx.kind = .blockWrite →
    (tx.pecGood = true → tx.data.length = 1 → leAt tx.data 0 1 = 0 →
      ∃ t, exec (.smbModeQuery tx) s = .next t ∧ s.kept t [] fun _ => False) ∧
    (tx.pecGood = true → tx.data.length = 1 → leAt tx.data 0 1 = 1 →
      s.mode = .prove ∨ s.mode = .load ∨ s.mode = .serve ∨ s.mode = .safe →
      ∃ t, exec (.smbModeRestart tx) s = .next t ∧ t.mode = .dormant ∧ t.prev = s.mode ∧ t.power.ranRestart = true ∧
        (∀ k, keeperOff k = true → t.word k = s.word k)) ∧
    (tx.pecGood = true → tx.data.length = 1 → leAt tx.data 0 1 = 2 →
      (s.mode = .prove ∨ s.mode = .load ∨ s.mode = .serve →
        ∃ t, exec (.smbModeSafe tx) s = .next t ∧ t.mode = .safe ∧ t.prev = s.mode ∧ t.safeCause = 4 ∧
          (∀ k, safeOff k = true → (s.mode = .serve ∨ ∀ x ∈ s.boot.touched, x.1 ≠ k) → t.word k = s.word k)) ∧
      (s.mode = .safe → ∃ t, exec (.smbModeSafe tx) s = .next t ∧ s.kept t [] fun _ => False)) ∧
    (tx.pecGood = false ∨ tx.data.length ≠ 1 → ∀ c ∈ [Instr.smbModeQuery tx, .smbModeRestart tx, .smbModeSafe tx],
      ∃ t, exec c s = .next t ∧ s.kept t [] fun _ => False)) ∧
  (∀ (s : State) (code : Nat) (tx : SmbTx), code < 256 → s.hears tx →
    (smbListed code = none ∨ ∃ k n, smbListed code = some (k, n) ∧ tx.kind ≠ k) →
    ∃ t, exec (.smbUnlistedCommand code tx) s = .next t ∧ s.kept t [.smbusNack] fun _ => False) ∧
  (∀ (s : State) (code : Nat) (tx : SmbTx), code < 256 → tx.addr ≠ 0x58 + s.power.smbAddr →
    ∀ c ∈ [Instr.smbJrnPointer tx, .smbJrnRead tx, .smbJrnStatus tx, .smbLogPointer tx, .smbLogRead tx, .smbModeQuery tx,
      .smbModeRestart tx, .smbModeSafe tx, .smbUnlistedCommand code tx], ∃ t, exec c s = .next t ∧ s.kept t [] fun _ => False)

/-! ### The Ethernet ports (R382 to R392, R69) -/

/-- A fragment in error is counted (R395); a verify frame gets its response (R392); a frame is counted by
what its test found, or, on a port of a cut-through class, kept to be counted at its end (R383); a frame without the SecTAG that MACsec
asks for is discarded (R403); a good one is counted and taken toward packet memory (R383). -/
def Obligations.FramesAreReceived : Prop :=
  (∀ (s : State) (n : Nat) (bytes : List Byte) (firstNs : Nat) (fcs pre : Bool),
    Instr.wf (.frameReceive n bytes firstNs fcs 1 pre) = true → s.receives n = true →
    ∃ t, exec (.frameReceive n bytes firstNs fcs 1 pre) s = .next t ∧
      t.word (R.MAC_CNT.COUNT n 9).off = s.word (R.MAC_CNT.COUNT n 9).off + 1 ∧ s.kept t [] fun k => k = (R.MAC_CNT.COUNT n 9).off) ∧
  (∀ (s : State) (n : Nat) (bytes : List Byte) (firstNs : Nat) (fcs pre : Bool),
    Instr.wf (.frameReceive n bytes firstNs fcs 2 pre) = true → s.receives n = true → s.bit (R.MAC_PREEMPT.EN n) = true →
    s.get (R.MAC_CFG.SPEED n) ≠ 7 →
    ∃ t, exec (.frameReceive n bytes firstNs fcs 2 pre) s = .next t ∧ s.kept t [.verify n true] fun _ => False) ∧
  (∀ (s : State) (n j : Nat) (bytes : List Byte) (firstNs : Nat) (fcs pre : Bool),
    Instr.wf (.frameReceive n bytes firstNs fcs 0 pre) = true → s.receives n = true →
    s.frameTest n (bytes.length + 4) fcs = some j →
    (s.takesCut n pre = false ∨ macControl bytes = true → ∃ t, exec (.frameReceive n bytes firstNs fcs 0 pre) s = .next t ∧
      t.word (R.MAC_CNT.COUNT n j).off = s.word (R.MAC_CNT.COUNT n j).off + 1 ∧ s.kept t [] fun k => k = (R.MAC_CNT.COUNT n j).off) ∧
    (s.takesCut n pre = true → macControl bytes = false → ∃ t f, exec (.frameReceive n bytes firstNs fcs 0 pre) s = .next t ∧
      t.buf.rx = s.buf.rx ++ [f] ∧ f.bad = some j ∧ f.cut = true ∧ f.wire = bytes.length + 4 ∧ f.pkt.src = n ∧
      s.kept { t with buf := s.buf } [] fun _ => False)) ∧
  (∀ (s : State) (n : Nat) (bytes : List Byte) (firstNs : Nat) (fcs pre : Bool),
    Instr.wf (.frameReceive n bytes firstNs fcs 0 pre) = true → s.receives n = true →
    s.frameTest n (bytes.length + 4) fcs = none → s.bit (R.SEC_MSEC_PORT.EN n) = true → plainFrame bytes = false →
    beAt bytes 12 2 ≠ 0x88E5 →
    ∃ t, exec (.frameReceive n bytes firstNs fcs 0 pre) s = .next t ∧
      t.word (R.MAC_CNT.COUNT n 10).off = s.word (R.MAC_CNT.COUNT n 10).off + 1 ∧ s.kept t [] fun k => k = (R.MAC_CNT.COUNT n 10).off) ∧
  (∀ (s : State) (n : Nat) (bytes : List Byte) (firstNs : Nat) (fcs pre : Bool),
    Instr.wf (.frameReceive n bytes firstNs fcs 0 pre) = true → s.receives n = true →
    s.frameTest n (bytes.length + 4) fcs = none → macControl bytes = false → s.bit (R.SEC_MSEC_PORT.EN n) = false →
    ∃ t f, exec (.frameReceive n bytes firstNs fcs 0 pre) s = .next t ∧ t.buf.rx = s.buf.rx ++ [f] ∧
      t.buf.nextId = s.buf.nextId + 1 ∧ f.pkt.id = s.buf.nextId ∧ f.pkt.src = n ∧ f.pkt.bytes = (s.toMemory n bytes firstNs).1.bytes ∧
      f.cut = s.takesCut n pre ∧ f.taken = false ∧ f.wire = bytes.length + 4 ∧ f.bad = none ∧
      (s.takesCut n pre = false → t.word (R.MAC_CNT.COUNT n 0).off = s.word (R.MAC_CNT.COUNT n 0).off + 1 ∧
        t.word (R.MAC_CNT.COUNT n 1).off = s.word (R.MAC_CNT.COUNT n 1).off + BitVec.ofNat 64 (bytes.length + 4)) ∧
      s.kept { t with buf := s.buf } [] fun k => k = (R.MAC_CNT.COUNT n 0).off ∨ k = (R.MAC_CNT.COUNT n 1).off)

/-- A pause under MODE 1 and a priority pause under MODE 2 set their hold timers (R389), a timer that has run out releases, a refresh
sends the pause anew on a port that sends nothing (R390), and a stable XOFF_IN level is taken (R69). -/
def Obligations.PausesHold : Prop :=
  (∀ (s : State) (n quanta : Nat), Instr.wf (.pauseFrame n quanta) = true → s.receives n = true → s.get (R.MAC_FC.MODE n) = 1 →
    ∃ t, exec (.pauseFrame n quanta) s = .next t ∧ SMap.find (fun _ => 0) t.mac.holds (16 * n + 8) = s.holdEnd n quanta ∧
      t.word (R.MAC_CNT.COUNT n 7).off = s.word (R.MAC_CNT.COUNT n 7).off + 1 ∧
      t.word (R.MAC_CNT.COUNT n 0).off = s.word (R.MAC_CNT.COUNT n 0).off + 1 ∧
      (∀ j, j ≠ 16 * n + 8 → SMap.find (fun _ => 0) t.mac.holds j = SMap.find (fun _ => 0) s.mac.holds j) ∧
      s.kept { t with mac := { t.mac with holds := s.mac.holds } } [] fun k => k = (R.MAC_CNT.COUNT n 0).off ∨
        k = (R.MAC_CNT.COUNT n 1).off ∨ k = (R.MAC_CNT.COUNT n 7).off) ∧
  (∀ (s : State) (n enable : Nat) (quanta : List Nat), Instr.wf (.priorityPauseFrame n enable quanta) = true → s.receives n = true →
    s.get (R.MAC_FC.MODE n) = 2 →
    ∃ t, exec (.priorityPauseFrame n enable quanta) s = .next t ∧
      (∀ p, p < 8 → SMap.find (fun _ => 0) t.mac.holds (16 * n + p) =
        if enable.testBit p then s.holdEnd n (quanta.getD p 0) else SMap.find (fun _ => 0) s.mac.holds (16 * n + p)) ∧
      t.word (R.MAC_CNT.COUNT n 7).off = s.word (R.MAC_CNT.COUNT n 7).off + 1 ∧
      s.kept { t with mac := { t.mac with holds := s.mac.holds } } [] fun k => k = (R.MAC_CNT.COUNT n 0).off ∨
        k = (R.MAC_CNT.COUNT n 1).off ∨ k = (R.MAC_CNT.COUNT n 7).off) ∧
  (∀ (s : State) (n p : Nat), Instr.wf (.pauseExpiry n p) = true → 0 < SMap.find (fun _ => 0) s.mac.holds (16 * n + p) →
    SMap.find (fun _ => 0) s.mac.holds (16 * n + p) ≤ s.tb + 1 →
    ∃ t, exec (.pauseExpiry n p) s = .next t ∧ SMap.find (fun _ => 0) t.mac.holds (16 * n + p) = 0 ∧
      s.kept { t with mac := { t.mac with holds := s.mac.holds } } [] fun _ => False) ∧
  (∀ (s : State) (n : Nat), n < 96 → s.macsRun = true → s.wm n = true → s.refreshDue n = true →
    SMap.find (fun _ => []) s.mac.control n = [] → s.get (R.MAC_FC.MODE n) ≠ 0 → s.linkUp n = true → s.sending n = none →
    ∃ t, exec (.pauseRefresh n) s = .next t ∧ SMap.find (fun _ => 0) t.mac.pauseSent n = s.ns + 1 ∧
      ∃ l, t.out = s.out ++ l ∧ Emit.frame n (s.pauseFrame n (s.get (R.MAC_FC.QUANTA n)) ++
        leBytes 4 (frameCheck (s.pauseFrame n (s.get (R.MAC_FC.QUANTA n))))) true ∈ l) ∧
  (∀ (s : State) (i : Nat) (level : Bool), i < 8 →
    ∃ t, exec (.xoffInChange i level) s = .next t ∧ t.pace.xoffIn = s.pace.xoffIn.set i level ∧
      s.kept { t with pace := s.pace } [] fun _ => False)

/-- A link rises and falls with its PCS (R382), but stays down while its lanes are under test (R544); a verify frame is sent where one is due,
after three without an answer verification has failed, and an answer ends it (R392). -/
def Obligations.PortLinksMove : Prop :=
  (∀ (s : State) (n : Nat) (al lf rf : Bool), n < 96 → s.coreUp = true → s.portOn n = true → (al = false ∨ lf = true ∨ rf = true) →
    ∃ t, exec (.macLink n al lf rf) s = .next t ∧ t.bit (R.MAC_STATUS.ALIGNED n) = al ∧ t.bit (R.MAC_STATUS.LOCAL_FAULT n) = lf ∧
      t.bit (R.MAC_STATUS.REMOTE_FAULT n) = rf ∧ t.linkUp n = false ∧
      (s.linkUp n = true → t.bit (faultBit (128 + n)) = true ∧
        t.get (R.MAC_STATUS.DOWNS n) = min (s.get (R.MAC_STATUS.DOWNS n) + 1) 65535) ∧
      (s.linkUp n = false → s.kept t [] fun k => k = (R.MAC_STATUS.LINK n).off)) ∧
  (∀ (s : State) (n : Nat), n < 96 → s.macsRun = true → s.portOn n = true →
    ∃ t, exec (.linkUp n) s = .next t ∧ t.bit (R.MAC_STATUS.ALIGNED n) = true ∧ t.bit (R.MAC_STATUS.LOCAL_FAULT n) = false ∧
      t.bit (R.MAC_STATUS.REMOTE_FAULT n) = false ∧
      t.linkUp n = (s.linkUp n || (!SMap.find (fun _ => false) s.mac.exhausted n && !s.testing (201 + n / 4))) ∧
      (s.buf.leaves = [] → s.kept { t with mac := { t.mac with verifies := s.mac.verifies, verifySent := s.mac.verifySent } } [] fun k =>
        k = (R.MAC_STATUS.LINK n).off ∨ k = (R.MAC_PREEMPT.VSTATUS n).off)) ∧
  (∀ (s : State) (n : Nat), n < 96 → s.macsRun = true → s.portOn n = true → s.linkUp n = true → s.verifying n = true →
    s.verifyDue n = true →
    (SMap.find (fun _ => 0) s.mac.verifies n < 3 → ∃ t, exec (.verifyTimer n false) s = .next t ∧ t.get (R.MAC_PREEMPT.VSTATUS n) = 2 ∧
      SMap.find (fun _ => 0) t.mac.verifies n = SMap.find (fun _ => 0) s.mac.verifies n + 1 ∧
      SMap.find (fun _ => 0) t.mac.verifySent n = s.ns + 1 ∧
      s.kept { t with mac := { t.mac with verifies := s.mac.verifies, verifySent := s.mac.verifySent } } [.verify n false] fun k =>
        k = (R.MAC_PREEMPT.VSTATUS n).off) ∧
    (3 ≤ SMap.find (fun _ => 0) s.mac.verifies n → ∃ t, exec (.verifyTimer n false) s = .next t ∧ t.get (R.MAC_PREEMPT.VSTATUS n) = 4 ∧
      t.bit (faultBit 27) = true)) ∧
  (∀ (s : State) (n : Nat), n < 96 → s.macsRun = true → s.portOn n = true → s.linkUp n = true → s.verifying n = true →
    (0 < SMap.find (fun _ => 0) s.mac.verifies n → ∃ t, exec (.verifyTimer n true) s = .next t ∧ t.get (R.MAC_PREEMPT.VSTATUS n) = 3 ∧
      s.kept t [] fun k => k = (R.MAC_PREEMPT.VSTATUS n).off) ∧
    (SMap.find (fun _ => 0) s.mac.verifies n = 0 → ∃ t, exec (.verifyTimer n true) s = .next t ∧ s.kept t [] fun _ => False))
/-! ### Cells, the aperture, the prism and the handoff (R79 to R93, R154, R164 to R166, R259 to R273, R284, R303) -/

/-- A free releases the owner's cell or one reference, and is refused for a free cell or another owner (R262, R265, R266); a handoff
renames the tag of the chain, or is refused (R266). The next cell of a frame takes the free cell of its bank (R261, R270); the aperture
decides on a whole frame and takes it off the source (R303); a cut-through frame's end is counted and, when it was not taken yet, leaves
the frame to the aperture, its bound running from this end (R292), or discards it (R154). -/
def Obligations.CellsAreTakenAndFreed : Prop :=
  (∀ (s : State) (cell requester : Nat) (asOwner : Bool), Instr.wf (.cellFree cell requester asOwner) = true → s.coreUp = true →
    (linkUsed (s.link cell) = false → ∃ t, exec (.cellFree cell requester asOwner) s = .next t ∧ t.bit (faultBit 20) = true ∧
      t.get R.BUF_ERR.DOUBLE_FREE = min (s.get R.BUF_ERR.DOUBLE_FREE + 1) 65535 ∧ t.buf = s.buf ∧
      (s.bit R.BUF_FREE_CAP.VALID = false → t.bit R.BUF_FREE_CAP.VALID = true ∧ t.get R.BUF_FREE_CAP.KIND = 0 ∧
        t.get R.BUF_FREE_CAP.CELL = cell ∧ t.get R.BUF_FREE_CAP.REQUESTER = requester)) ∧
    (linkUsed (s.link cell) = true → linkOwned (s.link cell) = true → linkTag (s.link cell) ≠ requester →
      ∃ t, exec (.cellFree cell requester asOwner) s = .next t ∧ t.bit (faultBit 21) = true ∧ t.buf = s.buf ∧
        t.get R.BUF_ERR.OWNER = min (s.get R.BUF_ERR.OWNER + 1) 65535)) ∧
  (∀ (s : State) (cell requester : Nat), Instr.wf (.cellFree cell requester false) = true → s.coreUp = true →
    linkUsed (s.link cell) = true →
    (linkOwned (s.link cell) = true → linkTag (s.link cell) = requester → ∃ t, exec (.cellFree cell requester false) s = .next t ∧
      t.link cell = bitsSet (s.link cell) 47 1 0 ∧ t.chargeOf cell = none ∧ (∀ i, i ≠ cell → t.link i = s.link i) ∧
      (s.chargeOf cell = none → t.get R.BUF_POOL.FREE = (s.get R.BUF_POOL.FREE + 1) % 2 ^ 20 ∧
        s.kept { t with buf := s.buf } [] fun k => k = R.BUF_POOL.FREE.off)) ∧
    (linkOwned (s.link cell) = false → 1 < linkTag (s.link cell) → ∃ t, exec (.cellFree cell requester false) s = .next t ∧
      t.link cell = bitsSet (s.link cell) 32 12 (linkTag (s.link cell) - 1) ∧ (∀ i, i ≠ cell → t.link i = s.link i) ∧
      s.kept { t with buf := s.buf } [] fun _ => False) ∧
    (linkOwned (s.link cell) = false → linkTag (s.link cell) ≤ 1 → ∃ t, exec (.cellFree cell requester false) s = .next t ∧
      t.link cell = bitsSet (s.link cell) 47 1 0 ∧ ∀ i, i ≠ cell → t.link i = s.link i)) ∧
  (∀ (s : State) (cell requester : Nat), Instr.wf (.cellFree cell requester true) = true → s.coreUp = true →
    linkUsed (s.link cell) = true →
    (linkOwned (s.link cell) = true → linkTag (s.link cell) = requester → ∃ t, exec (.cellFree cell requester true) s = .next t ∧
      t.link cell = bitsSet (s.link cell) 47 1 0 ∧ ∀ i, i ∉ s.chainFrom 64 cell → t.link i = s.link i) ∧
    (linkOwned (s.link cell) = false → ∃ t, exec (.cellFree cell requester true) s = .next t ∧ t.bit (faultBit 21) = true ∧
      t.buf = s.buf ∧ t.get R.BUF_ERR.OWNER = min (s.get R.BUF_ERR.OWNER + 1) 65535)) ∧
  (∀ (s : State) (cell requester owner : Nat), Instr.wf (.chainHandoff cell requester owner) = true → s.coreUp = true →
    (linkUsed (s.link cell) = true → linkOwned (s.link cell) = true → linkTag (s.link cell) = requester →
      ∃ t, exec (.chainHandoff cell requester owner) s = .next t ∧ (∀ i ∈ s.chainFrom 64 cell, linkTag (t.link i) = owner) ∧
        (∀ i, i ∉ s.chainFrom 64 cell → t.link i = s.link i) ∧ s.kept { t with buf := s.buf } [] fun _ => False) ∧
    ((linkUsed (s.link cell) && linkOwned (s.link cell) && linkTag (s.link cell) == requester) = false →
      ∃ t, exec (.chainHandoff cell requester owner) s = .next t ∧ t.bit (faultBit 21) = true ∧ t.buf = s.buf ∧
        t.get R.BUF_ERR.OWNER = min (s.get R.BUF_ERR.OWNER + 1) 65535)) ∧
  (∀ (s : State) (src bank i kind : Nat) (f : RxFrame), Instr.wf (.cellWrite src bank) = true → s.coreUp = true →
    s.writing src = some f → s.freeIn bank = some i → f.taken = false → s.landingKind f.pkt.acct = some kind → f.cut = false →
    ∃ t, exec (.cellWrite src bank) s = .next t ∧ (∃ g ∈ t.buf.rx, g.pkt.id = f.pkt.id ∧ g.pkt.cells = f.pkt.cells ++ [i]) ∧
      (f.pkt.cells = [] → t.link i = linkWord f.pkt.owner 1 (decide (f.pkt.len ≤ 256)) (fillOf f.pkt.len 0) 0)) ∧
  (∀ (s : State) (src bank i : Nat) (f : RxFrame), Instr.wf (.cellWrite src bank) = true → s.coreUp = true → src < 96 →
    s.writing src = some f → s.freeIn bank = some i → f.taken = false → s.landingKind f.pkt.acct = none →
    ∃ t, exec (.cellWrite src bank) s = .next t ∧ ∀ g ∈ t.buf.rx, g.pkt.id ≠ f.pkt.id) ∧
  (∀ (s u : State) (src : Nat) (f : RxFrame), src < 384 → s.coreUp = true → s.readyFrame src = some f → f.cut = false →
    u = { s with buf := { s.buf with rx := s.buf.rx.filter fun g => g.pkt.id != f.pkt.id } } →
    ∃ t, exec (.apertureDecision src) s = .next t ∧ t.buf.rx = u.buf.rx ∧
      SMap.find (fun _ => []) t.buf.toPrism (s.entryOf src) = SMap.find (fun _ => []) s.buf.toPrism (s.entryOf src) ++
        (if (u.aperture src f.outerTag f.len (cellsOf f.pkt.len) f.pkt).2.1 then
          [(u.aperture src f.outerTag f.len (cellsOf f.pkt.len) f.pkt).2.2] else []) ∧
      (s.refusesAll (s.entryOf src % 16) = true → (u.aperture src f.outerTag f.len (cellsOf f.pkt.len) f.pkt).2.1 = false)) ∧
  (∀ (s : State) (n : Nat) (f : RxFrame), n < 96 → s.coreUp = true → s.endingFrame n = some f → f.bad = none → f.taken = false →
    ∃ t, exec (.frameEndReport n) s = .next t ∧ t.word (R.MAC_CNT.COUNT n 0).off = s.word (R.MAC_CNT.COUNT n 0).off + 1 ∧
      t.buf.rx = s.buf.rx.map (fun g => if g.pkt.id = f.pkt.id then
        { f with cut := false, countedNs := some s.ns, pkt := { f.pkt with startNs := s.ns } } else g) ∧
      s.kept { t with buf := s.buf } [] fun k => k = (R.MAC_CNT.COUNT n 0).off ∨ k = (R.MAC_CNT.COUNT n 1).off) ∧
  (∀ (s : State) (n j : Nat) (f : RxFrame), n < 96 → s.coreUp = true → s.endingFrame n = some f → f.bad = some j → f.taken = false →
    ∃ t, exec (.frameEndReport n) s = .next t ∧ t.buf.rx = s.buf.rx.filter (fun g => g.pkt.id != f.pkt.id))

/-- A prism advances one step, or waits for a result that is due (R79, R89); results become ready (R89), a far read that is late is
answered (R93); a stall ends when its segment is present (R164) or its budget has run out (R165). The first descriptor that may be
enqueued leaves the handoff and joins its leaf queue (R284), or the fence of its endpoint's LOCAL migration when it carries the new
epoch (R252). -/
def Obligations.PrismsStepAndHandOff : Prop :=
  (∀ (s : State) (k : Nat) (late : Bool), k < 16 → s.forwarding = true → s.fault.blocks.contains k = false →
    s.interval k (s.gridBank k) ≠ 0 → (s.prism k).stall = none → (s.prism k).flights = [] →
    SMap.find (fun _ => []) s.buf.toPrism k = [] →
    ∃ t, exec (.prismStep k late) s = .next t ∧ (t.prism k).steps = ((s.prism k).steps + 1) % 840 ∧ (t.prism k).wait = false ∧
      (t.prism k).flights.length = (if (s.prism k).steps % s.interval k (s.gridBank k) = 0 then 1 else 0) ∧
      (∀ f ∈ (t.prism k).flights, f.pkt = none ∧ f.age = 1 ∧ f.bank = s.gridBank k) ∧ t.buf = s.buf ∧
      (∀ j, j ≠ k → t.prism j = s.prism j)) ∧
  (∀ (s : State) (k : Nat) (late : Bool), k < 16 → s.forwarding = true → s.fault.blocks.contains k = false →
    s.interval k (s.gridBank k) ≠ 0 → (s.prism k).stall = none → (s.floorReady k (s.prism k)).unready = true →
    ∃ t, exec (.prismStep k late) s = .next t ∧ t.prism k = { s.floorReady k (s.prism k) with wait := true } ∧
      t.get (R.PRISM_WAIT.RETURN_WAITS k) = (s.get (R.PRISM_WAIT.RETURN_WAITS k) + (if (s.prism k).wait then 0 else 1)) % 2 ^ 32 ∧
      s.kept { t with code := s.code } [] fun j => j = (R.PRISM_WAIT.RETURN_WAITS k).off) ∧
  (∀ (s : State) (k : Nat), k < 16 → s.coreUp = true →
    ∃ t, exec (.returnReady k) s = .next t ∧
      t.prism k = ((s.prism k).mapLooks fun f l => if l.due = f.age ∧ l.isFar = false then { l with ready := true } else l).checkWait ∧
      s.kept { t with code := s.code } [] fun _ => False) ∧
  (∀ (s : State) (k : Nat) (p : Pkt) (l : Lookup), k < 16 → s.coreUp = true → s.lateRead k = some (p, l) →
    ∃ t, exec (.farLate k) s = .next t ∧ t.bit (faultBit 15) = true ∧
      t.word (R.PRISM_FAR_LATE.COUNT k).off = s.word (R.PRISM_FAR_LATE.COUNT k).off + 1 ∧
      t.prism k = ((s.prism k).mapLooks fun _ x => if x.id = l.id then { x with ready := true, status := lookStatus + 9 } else x).checkWait) ∧
  (∀ (s : State) (k id seg t0 : Nat), k < 16 → s.coreUp = true → (s.prism k).stall = some (id, seg, t0) →
    (∀ n f, n < 96 → n / 6 = k → s.arrivingSegs n = some f → f.pkt.id = id →
      ∃ t, exec (.cutSegmentPresent n) s = .next t ∧ (t.prism k).stall = none ∧
        t.buf.rx = s.buf.rx.map fun g => if g.pkt.id = id then { g with segs := min 8 (g.segs + 1) } else g) ∧
    (∀ p, ((s.prism k).packets ++ SMap.find (fun _ => []) s.buf.toPrism k).find? (fun x => x.id == id) = some p →
      s.stallBudget p.src ≤ p.stallTb + (s.tb - t0) →
      ∃ t, exec (.parseCut k) s = .next t ∧ (t.prism k).stall = none ∧ t.bit (faultBit 14) = true)) ∧
  (∀ (s : State) (n : Nat), n < 96 → s.coreUp = true →
    (∀ f, s.arrivingSegs n = some f → (∀ x, (s.prism (n / 6)).stall = some x → x.1 ≠ f.pkt.id) → ∃ t, exec (.cutSegmentPresent n) s = .next t ∧
      t.buf.rx = (s.buf.rx.map fun g => if g.pkt.id = f.pkt.id then { g with segs := min 8 (g.segs + 1) } else g) ∧
      s.kept { t with buf := s.buf } [] fun _ => False) ∧
    (s.arrivingSegs n = none → ∃ t, exec (.cutSegmentPresent n) s = .next t ∧ s.kept t [] fun _ => False)) ∧
  (∀ (s : State) (p : Pkt), s.forwarding = true → nextReady s.buf.handoff [] = some p → p.group = false → s.staleResult p = false →
    (∀ m ∈ s.mig.open_, m.kind ≠ 2) →
    ∃ t, exec .enqueue s = .next t ∧ t.buf.handoff = s.buf.handoff.filter (fun q => q.id != p.id) ∧
      (p.remote.isSome = true ∨ s.migOf p.ep 0 = none → isFabricLeaf p.leaf = true →
        (t.leafQ p.leaf).length = (s.leafQ p.leaf).length + 1 ∧ ∀ l, l ≠ p.leaf → t.leafQ l = s.leafQ l) ∧
      (∀ m, p.remote = none → s.migOf p.ep 0 = some m → p.stamp.epoch ≠ m.oldEpoch →
        (∀ l, t.leafQ l = s.leafQ l) ∧ ∃ n ∈ t.mig.open_, n.slot = m.slot ∧ n.fence = m.fence ++ [p])) ∧
  (∀ s : State, s.forwarding = false ∨ nextReady s.buf.handoff [] = none →
    ∃ t, exec .enqueue s = .next t ∧ s.kept t [] fun _ => False)

/-! ### The collimator (R288, R309, R320, R325) -/

/-- The frame that an output chooses leaves its queue, unless its port cannot protect it and falls (R320, R404): every shaper on its path is
charged its counted length (R313, R318, R320), its chain gives up its cells (R265, R266), and it is sent: by the MAC with its tag and FCS,
counted (R387), to the first descriptor of its receive queue, or as cells of the stream toward its device (R369). A leaf that has waited past
the limit is starved (R325). -/
def Obligations.OutputsServe : Prop :=
  (∀ (s : State) (o : Nat) (bad : List Nat), o < 99 → (∀ k ∈ bad, k < 64) → (s.forwarding = false ∨ (s.choose o).isNone = true) →
    ∃ t, exec (.collimatorSelect o bad) s = .next t ∧ s.kept t [] fun _ => False) ∧
  (∀ (s : State) (o : Nat) (bad : List Nat) (x : Choice) (p : Pkt), o < 99 → (∀ k ∈ bad, k < 64) → s.forwarding = true → s.choose o = some x →
    s.headOf x.leaf = some p → (s.leafOut x.leaf).isSome = true → s.unprotected o p = false →
    ∃ t, exec (.collimatorSelect o bad) s = .next t ∧
      (t.leafQ x.leaf).map (fun q => q.id) = ((s.leafQ x.leaf).drop 1).map (fun q => q.id) ∧
      (∀ l, l ≠ x.leaf → t.leafQ l = s.leafQ l) ∧ (o ≠ 98 → s.freesChain t p) ∧ (∀ i, i ∉ p.cells → t.link i = s.link i)) ∧
  (∀ (s : State) (o c : Nat) (bad : List Nat) (x : Choice) (p : Pkt), o < 99 → c < 8 → (∀ k ∈ bad, k < 64) → s.forwarding = true →
    s.choose o = some x → s.headOf x.leaf = some p → s.leafOut x.leaf = some (o, c) → (∀ g, s.groupOf x.leaf = some g → g < 2 ^ 16) →
    s.unprotected o p = false →
    ∃ t, exec (.collimatorSelect o bad) s = .next t ∧
      (∀ k ∈ s.pathShapers o c x.leaf, t.shaper k = (s.chargeShaper k (s.counted o p)).shaper k) ∧
      (∀ k, k ∉ s.pathShapers o c x.leaf → t.shaper k = s.shaper k)) ∧
  (∀ (s : State) (o c : Nat) (x : Choice) (p : Pkt) (f : List Byte), o < 96 → s.forwarding = true → s.choose o = some x →
    s.headOf x.leaf = some p → s.leafOut x.leaf = some (o, c) → s.failingPlaces p = [] → s.bit (R.SEC_MSEC_PORT.EN o) = false →
    f = s.insertTag o p.stamp.cls p.bytes → ptpAt (s.get (R.MAC_TAG.TPID_X o)) f 2 12 = none →
    ∃ t l, exec (.collimatorSelect o []) s = .next t ∧ t.out = s.out ++ l ∧
      Emit.frame o (f ++ leBytes 4 (frameCheck f)) (!s.preemptable o c) ∈ l ∧
      t.word (R.MAC_CNT.COUNT o 11).off = s.word (R.MAC_CNT.COUNT o 11).off + 1 ∧
      t.word (R.MAC_CNT.COUNT o 12).off = s.word (R.MAC_CNT.COUNT o 12).off + BitVec.ofNat 64 (f.length + 4)) ∧
  (∀ (s : State) (o q : Nat) (x : Choice) (p : Pkt) (d : Nat × List Byte) (ds : List (Nat × List Byte)), o = 96 ∨ o = 97 →
    s.forwarding = true → s.choose o = some x → s.headOf x.leaf = some p → (s.leafOut x.leaf).isSome = true → s.failingPlaces p = [] →
    p.hostQ = some q → s.ready q = d :: ds → p.bytes ≠ [] → p.bytes.length ≤ s.bufBytes q →
    ∃ t l, exec (.collimatorSelect o []) s = .next t ∧ t.out = s.out ++ l ∧
      ∀ e, e ∈ s.hostOut (s.queueLink q) (hostWrites (s.queueLink q) (s.maxPayload (s.get (R.HOST_Q.FUNC q))) (leAt d.2 0 8) p.bytes
        (s.bit (R.HOST_Q.NS q)) (s.bit (R.HOST_Q.RO q)) fun _ => false) → e ∈ l) ∧
  (∀ (s : State) (x : Choice) (p : Pkt), s.forwarding = true → s.choose 98 = some x → s.headOf x.leaf = some p →
    (s.leafOut x.leaf).isSome = true → s.failingPlaces p = [] → p.marker = false →
    ∃ t, exec (.collimatorSelect 98 []) s = .next t ∧ ∀ d, d = (x.leaf - 2 ^ 20) / 8 →
      SMap.find (fun _ => 0) t.fab.sent (streamKey d p.stamp.cls) =
        (SMap.find (fun _ => 0) s.fab.sent (streamKey d p.stamp.cls) + cellsOf p.len) % 65536) ∧
  (∀ (s : State) (o : Nat) (bad : List Nat) (x : Choice) (p : Pkt), o < 99 → (∀ k ∈ bad, k < 64) → s.forwarding = true → s.choose o = some x →
    s.headOf x.leaf = some p → (s.leafOut x.leaf).isSome = true → s.unprotected o p = true →
    ∃ t, exec (.collimatorSelect o bad) s = .next t ∧ t.linkUp o = false ∧ (∀ l, t.leafQ l = s.leafQ l) ∧
      ((s.txAssoc o).isSome = true → t.bit (faultBit 29) = true)) ∧
  (∀ (s : State) (l o c : Nat), l < 2 ^ 20 → s.leafOut l = some (o, c) → s.forwarding = true →
    (s.get R.COL_STARVE_LIMIT.CLASS_EN).testBit c = true → s.leafQ l ≠ [] → l ∉ s.col.starved →
    1000 * s.get R.COL_STARVE_LIMIT.LIMIT < s.waitedNs l →
    ∃ t, exec (.starve l) s = .next t ∧ t.col.starved = s.col.starved ++ [l] ∧
      s.kept { t with col := { t.col with starved := s.col.starved } } [] fun _ => False)

/-- The packets of a leaf queue that meet LINK or PAUSE leave it and the others stay in order (R309); a held frame whose output is free
starts to leave (R288). -/
def Obligations.BreachesAndCuts : Prop :=
  (∀ (s : State) (l n c : Nat), l < 2 ^ 20 → s.forwarding = true → s.leafPort l = some (n, c) →
    (∃ t, exec (.breachLink l) s = .next t ∧
      (t.leafQ l).map (fun q => q.id) = ((s.leafQ l).filter fun p => !s.linkBreach n p).map (fun q => q.id) ∧
      (∀ k, k ≠ l → t.leafQ k = s.leafQ k) ∧
      ((∀ p ∈ s.leafQ l, s.linkBreach n p = false) → s.kept t [] fun _ => False)) ∧
    ∃ t, exec (.breachPause l) s = .next t ∧
      (t.leafQ l).map (fun q => q.id) = ((s.leafQ l).filter fun p => !s.pauseBreach n c p).map (fun q => q.id) ∧
      (∀ k, k ≠ l → t.leafQ k = s.leafQ k) ∧
      ((∀ p ∈ s.leafQ l, s.pauseBreach n c p = false) → s.kept t [] fun _ => False)) ∧
  (∀ (s : State) (n o c : Nat) (bad : List Nat) (p : Pkt), n < 96 → (∀ k ∈ bad, k < 64) → s.heldFrame n = some p → s.leafPort p.leaf = some (o, c) → s.forwarding = true →
    s.mayCut n o c p = true → (∀ x ∈ s.buf.cutting, x.2.src ≠ n) →
    ∃ t, exec (.switchCutStart ⟨n, bad⟩) s = .next t ∧
      t.buf.cutting = s.buf.cutting ++ [(o, { p with
        failing := bad, lateStart := s.pastRelease p, sentTb := s.tb, express := !s.preemptable o c
        sec := (s.macsecStart o (plainFrame p.bytes)).2 })] ∧ t.deficit (epDeficit p.leaf) = 0 ∧
      t.buf.handoff = s.buf.handoff.filter (fun q => q.id != p.id) ∧ t.get R.SWC_CUT.STARTS = (s.get R.SWC_CUT.STARTS + 1) % 2 ^ 32 ∧
      ∀ l, t.leafQ l = s.leafQ l) ∧
  (∀ (s : State) (n : Nat) (bad : List Nat), n < 96 → (∀ k ∈ bad, k < 64) →
    (∀ p, s.heldFrame n = some p → ∀ o c, s.leafPort p.leaf = some (o, c) → s.mayCut n o c p = false) →
    ∃ t, exec (.switchCutStart ⟨n, bad⟩) s = .next t ∧ s.kept t [] fun _ => False)

/-! ### Spill (R277 to R282) -/

/-- A spill write that has ended frees the packet's on-die cells (R277, R280); an idle block is written out (R278). A spilled packet near
its queue's head is read back into fresh cells when the refill reserve and the pool have them (R279); it is whole again, or it is lost to
an uncorrectable error (R282). A packet that has come into the refill window keeps its cells (R280). The figures of a 10 µs window are reported (R281). -/
def Obligations.SpillsGoAndReturn : Prop :=
  (∀ (s : State) (l : Nat) (p : Pkt), Instr.wf (.spillWriteComplete l) = true → s.coreUp = true → s.spilled l = some p →
    (∀ x ∈ withAhead (s.leafQ l) 0, x.1.spilling.isSome = true → s.get R.BUF_SPILL_CTRL.REFILL ≤ x.2) →
    ∃ t, exec (.spillWriteComplete l) s = .next t ∧
      t.leafQ l = updFirst (fun q => q.id == p.id) (fun _ =>
        { p with cells := [], xResv := 0, xShar := 0, spilling := none, tier := if p.spilling = some 2 then 2 else 1 }) (s.leafQ l) ∧
      (∀ k, k ≠ l → t.leafQ k = s.leafQ k) ∧
      (p.spilling = some 2 → t.buf.winFar = s.buf.winFar + cellsOf p.len ∧ t.buf.winHbm = s.buf.winHbm) ∧
      (p.spilling ≠ some 2 → t.buf.winHbm = s.buf.winHbm + cellsOf p.len ∧ t.buf.winFar = s.buf.winFar)) ∧
  (∀ (s : State) (l : Nat), Instr.wf (.spillWriteComplete l) = true → (s.spilled l).isNone = true →
    (∀ x ∈ withAhead (s.leafQ l) 0, x.1.spilling.isSome = true → s.get R.BUF_SPILL_CTRL.REFILL ≤ x.2) →
    ∃ t, exec (.spillWriteComplete l) s = .next t ∧ (∀ k, t.leafQ k = s.leafQ k) ∧ s.kept { t with buf := s.buf } [] fun _ => False) ∧
  (∀ (s : State) (l : Nat) (p : Pkt), Instr.wf (.spillWriteComplete l) = true → s.coreUp = true → s.leafQ l = [p] →
    p.spilling.isSome = true → 0 < s.get R.BUF_SPILL_CTRL.REFILL →
    ∃ t, exec (.spillWriteComplete l) s = .next t ∧ t.leafQ l = [{ p with spilling := none, spots := [] }]) ∧
  (∀ (s : State) (b : Spill), s.coreUp = true → b ∈ s.buf.spills → b.isOpen = true → b.lastNs + 10000 ≤ s.ns →
    (∀ c ∈ s.buf.spills, c.id = b.id → c.far = b.far → c = b) → s.buf.spills.Nodup →
    ∃ t, exec (.spillBlockFlush b.id b.far) s = .next t ∧ (0 < b.live → { b with isOpen := false } ∈ t.buf.spills) ∧
      (∀ c ∈ t.buf.spills, c.id = b.id → c.far = b.far → c = { b with isOpen := false }) ∧ ∀ l, t.leafQ l = s.leafQ l) ∧
  (∀ (s : State) (id : Nat) (far : Bool), (∀ b ∈ s.buf.spills, b.id = id → b.far = far → b.isOpen = true → s.ns < b.lastNs + 10000) →
    ∃ t, exec (.spillBlockFlush id far) s = .next t ∧ s.kept t [] fun _ => False) ∧
  (∀ (s : State) (l : Nat) (p : Pkt), Instr.wf (.refillStart l) = true → s.coreUp = true → s.toRefill l = some p →
    (s.buf.refillUsed + cellsOf p.len ≤ s.get R.BUF_SPILL_CTRL.REFILL_RES → cellsOf p.len ≤ s.freeCells →
      ∃ t cells, exec (.refillStart l) s = .next t ∧
        t.leafQ l = updFirst (fun q => q.id == p.id) (fun _ => { p with cells := cells, refilling := true, who := s.mem.nextWho }) (s.leafQ l) ∧
        (∀ k, k ≠ l → t.leafQ k = s.leafQ k) ∧ t.mem.nextWho = s.mem.nextWho + 1) ∧
    (s.get R.BUF_SPILL_CTRL.REFILL_RES < s.buf.refillUsed + cellsOf p.len ∨ s.freeCells < cellsOf p.len →
      ∃ t, exec (.refillStart l) s = .next t ∧ s.kept t [] fun _ => False)) ∧
  (∀ (s : State) (l failures : Nat) (p : Pkt), Instr.wf (.refillComplete l failures) = true → s.coreUp = true →
    ((s.leafQ l).find? fun q => q.refilling && s.transferDone q.who) = some p →
    (failures + s.failedBlocks p = 0 → ∃ t, exec (.refillComplete l failures) s = .next t ∧
      t.leafQ l = updFirst (fun q => q.id == p.id) (fun _ => { p with tier := 0, refilling := false, spots := [] }) (s.leafQ l) ∧
      (∀ k, k ≠ l → t.leafQ k = s.leafQ k) ∧ t.buf.winBack = s.buf.winBack + cellsOf p.len) ∧
    (0 < failures + s.failedBlocks p → ∃ t, exec (.refillComplete l failures) s = .next t ∧
      (t.leafQ l).map (fun q => q.id) = ((s.leafQ l).filter fun q => q.id != p.id).map (fun q => q.id) ∧
      (∀ k, k ≠ l → t.leafQ k = s.leafQ k) ∧ t.buf.winBack = s.buf.winBack + cellsOf p.len)) ∧
  (∀ s : State, s.coreUp = true → s.buf.winStart + 10000 ≤ s.ns →
    ∃ t, exec .spillRateWindow s = .next t ∧ t.buf = { s.buf with winHbm := 0, winFar := 0, winBack := 0, winStart := s.ns } ∧
      t.get R.BUF_SPILL_RATE.HBM_OUT = min s.buf.winHbm 65535 ∧ t.get R.BUF_SPILL_RATE.FAR_OUT = min s.buf.winFar 65535 ∧
      t.get R.BUF_SPILL_RATE.REFILLED = min s.buf.winBack 65535 ∧ t.get R.BUF_SPILL_RATE.WAITING = min s.awaiting 65535 ∧
      s.kept { t with buf := s.buf } [] fun k => k = R.BUF_SPILL_RATE.WAITING.off)

/-! ### HBM (R418 to R426) -/

/-- A bank serves the request it chooses: a write of the dynamic area lands, a read of it returns the line or ends as an uncorrectable error;
the row stays open or closes (R418, R421, R423), and closes after 64 controller cycles without an access (R421). A bank that falls due begins
its refresh where the partner neither refreshes nor retrains, which closes its row; else it waits, but of two banks that fall due together the
lower-numbered group goes first, and at the end of a refresh the banks that wait begin (R422, R425). -/
def Obligations.BanksServe : Prop :=
  (∀ (s : State) (q bank : Nat) (r : MemReq), q < 256 → bank < 64 → s.coreUp = true → s.get (R.HBM_STACK.STATE (q / 32)) = 0 →
    SMap.find (fun _ => 0) s.mem.refresh q ≠ bank + 1 → s.chooseReq q bank = some r →
    ∃ t, exec (.dynamicRequest q bank) s = .next t ∧ t.mem.queue = s.mem.queue.erase r ∧
      t.openRow q bank = (if r.hintOpen then some (Config.hbmRow r.line) else none) ∧
      SMap.find (fun _ => 0) t.mem.accesses q = SMap.find (fun _ => 0) s.mem.accesses q + 1 ∧
      SMap.find (fun _ => 0) t.mem.touched (64 * q + bank) = s.tb + 1 ∧
      (∀ k, k ≠ 2 ^ 25 * q + r.line → SMap.find (fun _ => 0) t.mem.hbm k = SMap.find (fun _ => 0) s.mem.hbm k) ∧
      (r.write = true → s.get R.HBM_CFG.FWD_LINES ≤ r.line → t.dynLine q r.line = r.data) ∧
      (r.write = false → t.mem.hbm = s.mem.hbm) ∧
      (r.write = false → s.get R.HBM_CFG.FWD_LINES ≤ r.line → s.mem.bad.contains (2 ^ 25 * q + r.line) = true →
        t.get (R.HBM_ECC.UNCORRECTED (q / 32)) = min (s.get (R.HBM_ECC.UNCORRECTED (q / 32)) + 1) 65535 ∧ t.bit (faultBit 31) = true ∧
        (r.who ≠ 0 → r.who ∈ t.mem.failed)) ∧
      ((r.write = false → s.get R.HBM_CFG.FWD_LINES ≤ r.line → s.mem.bad.contains (2 ^ 25 * q + r.line) = false) →
        (r.write = false → s.get R.HBM_CFG.FWD_LINES ≤ r.line → r.cls = 0 →
          t.mem.got = s.mem.got ++ [(r.who, 2 ^ 25 * q + r.line, s.dynLine q r.line)]) ∧
        s.kept { t with mem := s.mem } [] fun _ => False)) ∧
  (∀ (s : State) (q bank : Nat), q < 256 → bank < 64 → s.get (R.HBM_STACK.STATE (q / 32)) ≠ 0 ∨
    SMap.find (fun _ => 0) s.mem.refresh q = bank + 1 ∨ (s.chooseReq q bank).isNone = true →
    ∃ t, exec (.dynamicRequest q bank) s = .next t ∧ s.kept t [] fun _ => False) ∧
  (∀ (s : State) (q bank : Nat), q < 256 → bank < 64 → s.coreUp = true →
    (s.rowIdle q bank = true → ∃ t, exec (.openRowTimeout q bank) s = .next t ∧ t.openRow q bank = none ∧
      (∀ k, k ≠ 64 * q + bank → SMap.find (fun _ => 0) t.mem.rows k = SMap.find (fun _ => 0) s.mem.rows k) ∧
      s.kept { t with mem := { t.mem with rows := s.mem.rows } } [] fun _ => False) ∧
    (s.rowIdle q bank = false → ∃ t, exec (.openRowTimeout q bank) s = .next t ∧ s.kept t [] fun _ => False)) ∧
  (∀ (s : State) (q bank p : Nat), q < 256 → bank < 64 → s.coreUp = true → p = partnerPc q →
    (s.mayRefresh q = true →
      ∃ t, exec (.hbmRefresh q bank true) s = .next t ∧ t.refreshing q = bank + 1 ∧ t.openRow q bank = none ∧
        SMap.find (fun _ => 0) t.mem.refreshTb q = s.tb + 1 ∧
        s.kept { t with mem := { t.mem with refresh := s.mem.refresh, refreshTb := s.mem.refreshTb, rows := s.mem.rows } } [] fun _ => False) ∧
    (q < p → s.refreshing q = 0 → s.refreshing p ≠ 0 → SMap.find (fun _ => 0) s.mem.refreshTb p = s.tb + 1 →
      s.get (R.HBM_STACK.STATE (partner (q / 32))) ≠ 1 →
      ∃ t, exec (.hbmRefresh q bank true) s = .next t ∧ t.refreshing q = bank + 1 ∧ t.refreshing p = 0 ∧
        t.mem.due = (p, s.refreshing p - 1) :: s.mem.due) ∧
    (s.mayRefresh q = false → (q < p → s.refreshing q = 0 → s.refreshing p ≠ 0 → SMap.find (fun _ => 0) s.mem.refreshTb p = s.tb + 1 →
        s.get (R.HBM_STACK.STATE (partner (q / 32))) = 1) →
      ∃ t, exec (.hbmRefresh q bank true) s = .next t ∧ t.mem.due = s.mem.due ++ [(q, bank)] ∧
        s.kept { t with mem := { t.mem with due := s.mem.due } } [] fun _ => False)) ∧
  (∀ (s : State) (q bank : Nat), q < 256 → bank < 64 → s.coreUp = true →
    (s.refreshing q = bank + 1 → (∀ d ∈ s.mem.due, d.1 ≠ q ∧ d.1 ≠ partnerPc q) →
      ∃ t, exec (.hbmRefresh q bank false) s = .next t ∧ t.refreshing q = 0 ∧
        s.kept { t with mem := { t.mem with refresh := s.mem.refresh } } [] fun _ => False) ∧
    (∀ a d, s.refreshing q = bank + 1 → s.refreshing (partnerPc q) = 0 → a = min q (partnerPc q) →
      (s.mem.due.find? fun x => x.1 == a) = some d → s.get (R.HBM_STACK.STATE (partner (a / 32))) ≠ 1 →
      ∃ t, exec (.hbmRefresh q bank false) s = .next t ∧ t.refreshing a = d.2 + 1 ∧ t.openRow a d.2 = none ∧ t.mem.due = s.mem.due.erase d) ∧
    (s.refreshing q ≠ bank + 1 → ∃ t, exec (.hbmRefresh q bank false) s = .next t ∧ s.kept t [] fun _ => False))

/-- A stack that is due retrains only while it and its partner are in service, the partner's banks have no refresh under way or due, and 1 ms
has passed since another stack last began; within 20 µs it returns to service and is counted, and leaves a skew window that is less than 1 µs
old counted; past them it has failed, and its requests end as uncorrectable errors (R424, R425, R601). -/
def Obligations.StacksRetrain : Prop :=
  (∀ (s : State) (m : Nat), m < 8 → s.coreUp = true → s.get (R.HBM_STACK.STATE m) = 0 → s.get (R.HBM_STACK.STATE (partner m)) = 0 →
    (∀ i, i < 32 → s.refreshing (32 * partner m + i) = 0) → (∀ d ∈ s.mem.due, d.1 / 32 ≠ partner m) → s.retrainDue m = true →
    (∀ e ∈ s.mem.trained, e.1 = m ∨ e.2 = 0 ∨ e.2 - 1 + 1000000 ≤ s.ns) →
    ∃ t, exec (.hbmRetrainStart m) s = .next t ∧ t.get (R.HBM_STACK.STATE m) = 1 ∧
      SMap.find (fun _ => 0) t.mem.retrains m = s.ns + 1 ∧ SMap.find (fun _ => 0) t.mem.trained m = s.ns + 1 ∧
      SMap.find (fun _ => []) t.mem.corrected m = [] ∧
      s.kept { t with mem := { t.mem with retrains := s.mem.retrains, trained := s.mem.trained, corrected := s.mem.corrected } } []
        fun k => k = (R.HBM_STACK.STATE m).off) ∧
  (∀ (s : State) (m : Nat), m < 8 → (s.get (R.HBM_STACK.STATE m) ≠ 0 ∨ s.get (R.HBM_STACK.STATE (partner m)) ≠ 0 ∨ s.retrainDue m = false ∨
      (∃ i, i < 32 ∧ s.refreshing (32 * partner m + i) ≠ 0) ∨ (∃ d ∈ s.mem.due, d.1 / 32 = partner m) ∨
      (∃ e ∈ s.mem.trained, e.1 ≠ m ∧ e.2 ≠ 0 ∧ s.ns < e.2 - 1 + 1000000)) →
    ∃ t, exec (.hbmRetrainStart m) s = .next t ∧ s.kept t [] fun _ => False) ∧
  (∀ (s : State) (m : Nat), m < 8 → s.coreUp = true → s.get (R.HBM_STACK.STATE m) = 1 → s.retrainNs m ≤ 20000 →
    (∃ t, exec (.hbmRetrainComplete m) s = .next t ∧ t.get (R.HBM_STACK.STATE m) = 0 ∧
      t.get (R.HBM_STACK.RETRAINS m) = min (s.get (R.HBM_STACK.RETRAINS m) + 1) 65535 ∧
      t.get (R.HBM_STACK.LAST m) = s.retrainNs m / 10 ∧
      t.mem.winRetrain = (s.mem.winRetrain || decide (s.mem.winNs + 1000 < s.ns)) ∧
      ((∀ d ∈ s.mem.due, d.1 / 32 ≠ partner m) → t.mem.refresh = s.mem.refresh ∧ t.mem.due = s.mem.due) ∧
      s.kept { t with mem := s.mem } [] fun k => k = (R.HBM_STACK.STATE m).off) ∧
    ∃ t, exec (.hbmRetrain m) s = .next t ∧ s.kept t [] fun _ => False) ∧
  (∀ (s : State) (m : Nat), m < 8 → s.coreUp = true → s.get (R.HBM_STACK.STATE m) = 1 → 20000 < s.retrainNs m →
    (∃ t, exec (.hbmRetrain m) s = .next t ∧ t.get (R.HBM_STACK.STATE m) = 2 ∧ t.bit (faultBit (240 + m)) = true ∧
      t.mem.queue = s.mem.queue.filter (fun r => r.q / 32 != m) ∧ t.mem.winRetrain = true ∧
      (∀ r ∈ s.mem.queue, r.q / 32 = m → r.who ≠ 0 → r.who ∈ t.mem.failed) ∧
      t.get (R.HBM_ECC.UNCORRECTED m) = min (s.get (R.HBM_ECC.UNCORRECTED m) +
        (s.mem.queue.filter fun r => r.q / 32 == m && decide (s.get R.HBM_CFG.FWD_LINES ≤ r.line)).length) 65535) ∧
    ∃ t, exec (.hbmRetrainComplete m) s = .next t ∧ s.kept t [] fun _ => False)

/-- A 100 µs window in which no stack retrained shows its most loaded pseudo-channel and share, and starts or ends the skew after WINDOWS
windows (R426); a window with a retrain is not counted. The scrubber reads where its bank has a turn for it, and a pass over every line of a
group is counted; it counts what it finds; an uncorrectable dynamic line is reported and
comes to hold the pattern, a forwarding line of a table is that table's bad entry (R193, R423). -/
def Obligations.SkewAndScrubReport : Prop :=
  (∀ s : State, s.coreUp = true → s.mem.winNs + 100000 ≤ s.ns → s.mem.winRetrain = true →
    ∃ t, exec .skewWindow s = .next t ∧ t.mem = { s.mem with winNs := s.ns, winRetrain := false, accesses := [] } ∧
      s.kept { t with mem := s.mem } [] fun _ => False) ∧
  (∀ (s : State) (total ratio : Nat), s.coreUp = true → s.mem.winNs + 100000 ≤ s.ns → s.mem.winRetrain = false →
    (∀ m, m < 8 → s.get (R.HBM_STACK.STATE m) ≠ 1) → total = (s.mem.accesses.map fun e => e.2).sum → 0 < total →
    ratio = s.mostLoaded.2 * 65536 / total →
    ∃ t, exec .skewWindow s = .next t ∧ t.mem.winNs = s.ns ∧ t.mem.accesses = [] ∧ t.get R.HBM_SKEW_STAT.PC = s.mostLoaded.1 ∧
      t.get R.HBM_SKEW_STAT.RATIO = min ratio 65535 ∧
      (s.get R.HBM_SKEW_CFG.THRESH ≤ ratio → t.mem.above = s.mem.above + 1 ∧ t.mem.below = 0 ∧
        (s.get R.HBM_SKEW_CFG.WINDOWS ≤ s.mem.above + 1 → t.bit R.HBM_SKEW_STAT.ACTIVE = true ∧
          (s.bit R.HBM_SKEW_STAT.ACTIVE = false → t.bit (faultBit 30) = true))) ∧
      (ratio < s.get R.HBM_SKEW_CFG.THRESH → t.mem.below = s.mem.below + 1 ∧ t.mem.above = 0 ∧
        (s.get R.HBM_SKEW_CFG.WINDOWS ≤ s.mem.below + 1 → t.bit R.HBM_SKEW_STAT.ACTIVE = false))) ∧
  (∀ (s : State) (q line bank : Nat), q < 256 → line < pcLines → s.coreUp = true → bank = Config.hbmBank line % 64 →
    s.scrubTurn q line = true → (s.scrubbed (q / 32)).1 + 1 < groupLines →
    (∃ t, exec (.hbmScrub q line 0) s = .next t ∧ t.openRow q bank = none ∧
      SMap.find (fun _ => 0) t.mem.accesses q = SMap.find (fun _ => 0) s.mem.accesses q + 1 ∧
      t.scrubbed (q / 32) = ((s.scrubbed (q / 32)).1 + 1, if (s.scrubbed (q / 32)).1 = 0 then s.ns + 1 else (s.scrubbed (q / 32)).2) ∧
      s.kept { t with mem := s.mem } [] fun _ => False) ∧
    (∃ t, exec (.hbmScrub q line 1) s = .next t ∧
      t.get (R.HBM_ECC.CORRECTED (q / 32)) = (s.get (R.HBM_ECC.CORRECTED (q / 32)) + 1) % 2 ^ 32 ∧
      SMap.find (fun _ => []) t.mem.corrected (q / 32) =
        (SMap.find (fun _ => []) s.mem.corrected (q / 32)).filter (fun x => decide (s.ns < x + 1000000)) ++ [s.ns] ∧
      s.kept { t with mem := s.mem } [] fun k => k = (R.HBM_ECC.CORRECTED (q / 32)).off) ∧
    (s.get R.HBM_CFG.FWD_LINES ≤ line → ∃ t, exec (.hbmScrub q line 2) s = .next t ∧
      t.get (R.HBM_ECC.UNCORRECTED (q / 32)) = min (s.get (R.HBM_ECC.UNCORRECTED (q / 32)) + 1) 65535 ∧ t.bit (faultBit 31) = true ∧
      t.mem.bad = (2 ^ 25 * q + line) :: s.mem.bad) ∧
    (line < s.get R.HBM_CFG.FWD_LINES → ∀ k, s.hbmTable (q / 32) (32 * line + q % 32) = some k →
      ∃ t, exec (.hbmScrub q line 2) s = .next t ∧
        t.bit (faultBit 19) = true ∧ t.get (R.TBL_ERRC.PARITY k) = (s.get (R.TBL_ERRC.PARITY k) + 1) % 2 ^ 32)) ∧
  (∀ (s : State) (q line : Nat), q < 256 → line < pcLines → s.coreUp = true →
    (s.scrubTurn q line = true → groupLines ≤ (s.scrubbed (q / 32)).1 + 1 → ∃ t, exec (.hbmScrub q line 0) s = .next t ∧
      t.get (R.HBM_ECC.PASSES (q / 32)) = min (s.get (R.HBM_ECC.PASSES (q / 32)) + 1) 65535 ∧ (t.scrubbed (q / 32)).1 = 0) ∧
    (s.scrubTurn q line = false → ∀ e, e < 3 → ∃ t, exec (.hbmScrub q line e) s = .next t ∧ s.kept t [] fun _ => False))

/-! ### Far memory (R430 to R432) -/

/-- A completion ends its request, frees its tag and counts poison and failure; a failed transfer is marked, and a read of the bulk mover
returns its line or loses it (R430, R432). A far link that
falls ends every request of its port. -/
def Obligations.FarRequestsEnd : Prop :=
  (∀ (s : State) (f id status latency w : Nat) (data : List Byte) (r : FarReq), f < 16 → status < 3 → s.coreUp = true →
    (s.mem.far.find? fun x => x.port == f && x.id == id) = some r → r.kind.who = some w → (∀ x ∈ s.mem.farWait, x.port ≠ f) →
    ∃ t, exec (.farCompletion f id status latency data) s = .next t ∧ t.mem.far = s.mem.far.erase r ∧
      t.get (R.FAR_TAGS.TOTAL f) = s.get (R.FAR_TAGS.TOTAL f) - 1 ∧
      t.get (R.FAR_ERR.POISON f) = (if status = 1 then min (s.get (R.FAR_ERR.POISON f) + 1) 65535 else s.get (R.FAR_ERR.POISON f)) ∧
      t.get (R.FAR_ERR.FAILED f) = (if status = 2 then min (s.get (R.FAR_ERR.FAILED f) + 1) 65535 else s.get (R.FAR_ERR.FAILED f)) ∧
      ((∀ v, r.kind ≠ .moverRead v) → t.mem.failed = (if status = 0 ∨ w = 0 then s.mem.failed else w :: s.mem.failed)) ∧
      (r.kind = .moverRead w →
        (status = 0 → t.mem.got = s.mem.got ++ [(w, 2 ^ 33 + r.addr / 64, leVal (slice data 0 64))] ∧ t.mem.lost = s.mem.lost) ∧
        (status ≠ 0 → t.mem.lost = s.mem.lost ++ [(w, 2 ^ 33 + r.addr / 64, status)] ∧ t.mem.got = s.mem.got)) ∧
      s.kept { t with mem := s.mem } [] fun k => k = (R.FAR_TAGS.TOTAL f).off ∨ k = (R.FAR_ERR.POISON f).off ∨ k = (R.FAR_LAT.MEAN f).off) ∧
  (∀ (s : State) (f id status latency : Nat) (data : List Byte), f < 16 → status < 3 →
    (∀ x ∈ s.mem.far, x.port = f → x.id ≠ id) →
    ∃ t, exec (.farCompletion f id status latency data) s = .next t ∧ s.kept t [] fun _ => False) ∧
  (∀ (s : State) (f : Nat), f < 16 → s.coreUp = true → s.bit (R.FAR_PORT.UP f) = true →
    ∃ t, exec (.farLink f) s = .next t ∧ t.bit (R.FAR_PORT.UP f) = false ∧ t.bit (faultBit (224 + f)) = true ∧
      t.get (R.FAR_ERR.DOWNS f) = min (s.get (R.FAR_ERR.DOWNS f) + 1) 65535 ∧ (∀ r ∈ t.mem.far, r.port ≠ f) ∧
      (∀ x ∈ t.mem.farWait, x.port ≠ f) ∧ ∀ b ∈ t.buf.spills, b.onPort f = true → b.isOpen = false) ∧
  (∀ (s : State) (f : Nat), f < 16 → s.bit (R.FAR_PORT.UP f) = false →
    ∃ t, exec (.farLink f) s = .next t ∧ s.kept t [] fun _ => False)

/-! ### The pace governor (R43 to R59) -/

/-- A window of 80 TB_REFCLK cycles ends with the lowest of the 64 loop counts: it stores its slowest loop, its rate and, after eight windows, the deficit (R48, R49, R51); a count below 672 loses the
floor, a deficit past LIMIT is raised (R50); a clean run of 32 releases ADMIT_HOLD (R58). Where n × 3.125 is no whole number the rate's
rounding is open (log 10), and this says nothing of it. -/
def Obligations.GovernorMeasures : Prop :=
  (∀ (s : State) (b : Nat) (bs : List Nat) (n : Nat), bs.length = 63 → n = lowestCount (b :: bs) → s.coreUp = true → 80 ≤ s.pace.cycles → s.pace.windows < 8 →
    ∃ t, exec (.paceWindowEnd b bs) s = .next t ∧ t.get R.PACE_BEAT_RATE.SLOWEST = slowestLoop (b :: bs) ∧
      (n * 25 % 8 = 0 → t.get R.PACE_BEAT_RATE.MIN_RATE = min (n * 25 / 8) 65535) ∧ t.pace.windows = s.pace.windows + 1 ∧
      t.pace.cycles = s.pace.cycles - 80 ∧ (∀ m ∈ b :: bs, n ≤ m) ∧
      t.pace.hist = (n :: s.pace.hist).take 32 ∧ t.pace.deficit = s.pace.deficit ∧
      s.kept { t with pace := s.pace } [] fun k => k = R.PACE_BEAT_RATE.SLOWEST.off) ∧
  (∀ (s : State) (b : Nat) (bs : List Nat) (n : Nat), bs.length = 63 → n = lowestCount (b :: bs) → s.coreUp = true → 80 ≤ s.pace.cycles → 8 ≤ s.pace.windows →
    ∃ t, exec (.paceWindowEnd b bs) s = .next t ∧ t.pace.deficit = s.pace.deficit + 672 - n ∧
      t.get R.PACE_DEFICIT.CURRENT = min (s.pace.deficit + 672 - n) 65535 ∧ t.get R.PACE_BEAT_RATE.SLOWEST = slowestLoop (b :: bs) ∧
      t.pace.hist = (n :: s.pace.hist).take 32 ∧ (n < 672 → t.bit (faultBit 0) = true) ∧
      (s.get R.PACE_DEFICIT.LIMIT < s.pace.deficit + 672 - n → t.bit (faultBit 1) = true)) ∧
  (∀ (s : State) (b : Nat) (bs : List Nat) (n : Nat), bs.length = 63 → n = lowestCount (b :: bs) → s.coreUp = true → 80 ≤ s.pace.cycles → 8 ≤ s.pace.windows → s.pace.deficit + 672 ≤ n →
    s.get R.PACE_TARGET.GUARD * 1000 ≤ n * 3125 →
    ∃ t, exec (.paceWindowEnd b bs) s = .next t ∧
      t.get R.PACE_STATUS.CLEAR_RUN = min (s.get R.PACE_STATUS.CLEAR_RUN + 1) 65535 ∧
      t.bit R.PACE_STATUS.ADMIT_HOLD = (s.bit R.PACE_STATUS.ADMIT_HOLD && decide (s.get R.PACE_STATUS.CLEAR_RUN + 1 < 32)) ∧
      ∀ i, i < 256 → t.bit (faultBit i) = s.bit (faultBit i)) ∧
  (∀ (s : State) (b : Nat) (bs : List Nat), bs.length = 63 → s.coreUp = false ∨ s.pace.cycles < 80 →
    ∃ t, exec (.paceWindowEnd b bs) s = .next t ∧ s.kept t [] fun _ => False)

/-- The voltage request of a window (R50, R54): four codes up below GUARD, one up below TARGET less BAND, one down after 32 windows above
TARGET plus BAND, never past VMAX (R53), none under HOLD, without PACE_VGOOD or before SETTLE windows. The regulator's pins take their levels (R54, R55); 64
windows without PACE_VGOOD after a request fix the ceiling until it rises (R56). -/
def Obligations.GovernorRequests : Prop :=
  (∀ (s : State) (b : Nat) (bs : List Nat) (n : Nat), bs.length = 63 → n = lowestCount (b :: bs) → s.coreUp = true → 80 ≤ s.pace.cycles → s.mode ≠ .holdUp → 8 ≤ s.pace.windows →
    s.bit R.PACE_CTRL.HOLD = false → s.pace.vgood = true → s.get R.PACE_CTRL.SETTLE ≤ s.pace.since + 1 →
    n * 3125 < s.get R.PACE_TARGET.GUARD * 1000 →
    ∃ t, exec (.paceWindowEnd b bs) s = .next t ∧
      t.get R.PACE_VREQ.CODE = min (s.get R.PACE_VREQ.CODE + 4) (s.get R.PACE_VREQ.VMAX) ∧
      (t.get R.PACE_VREQ.CODE ≠ s.get R.PACE_VREQ.CODE → t.pace.since = 0 ∧ .strobe (t.get R.PACE_VREQ.CODE) ∈ t.out.drop s.out.length)) ∧
  (∀ (s : State) (b : Nat) (bs : List Nat) (n : Nat), bs.length = 63 → n = lowestCount (b :: bs) → s.coreUp = true → 80 ≤ s.pace.cycles → s.mode ≠ .holdUp → 8 ≤ s.pace.windows →
    s.bit R.PACE_CTRL.HOLD = false → s.pace.vgood = true → s.get R.PACE_CTRL.SETTLE ≤ s.pace.since + 1 →
    s.get R.PACE_TARGET.GUARD * 1000 ≤ n * 3125 → n * 3125 < (s.get R.PACE_TARGET.TARGET - s.get R.PACE_TARGET.BAND) * 1000 →
    ∃ t, exec (.paceWindowEnd b bs) s = .next t ∧
      t.get R.PACE_VREQ.CODE = min (s.get R.PACE_VREQ.CODE + 1) (s.get R.PACE_VREQ.VMAX)) ∧
  (∀ (s : State) (b : Nat) (bs : List Nat) (n : Nat), bs.length = 63 → n = lowestCount (b :: bs) → s.coreUp = true → 80 ≤ s.pace.cycles → s.mode ≠ .holdUp → 8 ≤ s.pace.windows →
    s.bit R.PACE_CTRL.HOLD = false → s.pace.vgood = true → s.get R.PACE_CTRL.SETTLE ≤ s.pace.since + 1 →
    s.get R.PACE_TARGET.GUARD * 1000 ≤ n * 3125 → 31 ≤ s.pace.hist.length →
    (∀ m ∈ (n :: s.pace.hist).take 32, (s.get R.PACE_TARGET.TARGET + s.get R.PACE_TARGET.BAND) * 1000 < m * 3125) →
    ∃ t, exec (.paceWindowEnd b bs) s = .next t ∧
      t.get R.PACE_VREQ.CODE = min (max (s.get R.PACE_VREQ.CODE - 1) (s.get R.PACE_VREQ.VMIN)) (s.get R.PACE_VREQ.VMAX)) ∧
  (∀ (s : State) (b : Nat) (bs : List Nat) (n : Nat), bs.length = 63 → n = lowestCount (b :: bs) → s.coreUp = true → 80 ≤ s.pace.cycles → 8 ≤ s.pace.windows →
    s.bit R.PACE_CTRL.HOLD = true ∨ s.pace.vgood = false ∨ s.pace.since + 1 < s.get R.PACE_CTRL.SETTLE ∨ s.mode = .holdUp →
    ∃ t, exec (.paceWindowEnd b bs) s = .next t ∧ t.get R.PACE_VREQ.CODE = s.get R.PACE_VREQ.CODE ∧ t.pace.since = s.pace.since + 1) ∧
  (∀ (s : State) (level : Bool), ∃ t, exec (.paceVgood level) s = .next t ∧ t.pace.vgood = level ∧
    (level = true → t.pace.vgoodDead = false ∧ t.pace.vgoodLow = 0) ∧
    (level = false → t.pace = { s.pace with vgood := false }) ∧ s.kept { t with pace := s.pace } [] fun _ => False) ∧
  (∀ (s : State) (level : Bool), ∃ t, exec (.paceVmaxN level) s = .next t ∧ t.pace = { s.pace with vmaxN := level } ∧
    s.kept { t with pace := s.pace } [] fun _ => False) ∧
  (∀ s : State, ∃ t, exec .vgoodTimeout s = .next t ∧
    t.pace = (if s.pace.vgood = false ∧ 64 ≤ s.pace.vgoodLow then { s.pace with vgoodDead := true } else s.pace) ∧
    s.kept { t with pace := s.pace } [] fun _ => False)

/-! ### Service facets and block resets (R113, R138 to R143, R528) -/

/-- Work that arrives waits in its facet's queue, and starts at once on an idle facet, in the bank MCODE_ACTIVE names at that bank's entry
(R132, R139). A word whose condition is "always", which looks nothing up and moves nothing, writes its ALU results and its flags and goes
to the microaddress that SEQ gives (R113, R118, R122); DONE ends an item without a packet (R140); a result reaches the window of the item
that waits for it, once the request that reads its line has ended (R142); that a failed request answers as a bad entry is the model's choice
(log 197). In HOLD-UP the routine of a command issues no word (R476). -/
def Obligations.ServicesRunTheirWork : Prop :=
  (∀ (s u : State) (sf role : Nat) (i : Item), sf < 32 → role < 6 → s.takesWork sf role = true → s.arrival sf role = some (i, u) →
    (s.service sf).running = none → (s.service sf).queue = [] → (s.service sf).saved = [] →
    ∃ t j, exec (.serviceWorkArrival sf role) s = .next t ∧ (t.service sf).running = some j ∧ (t.service sf).queue = [] ∧ j.id = i.id ∧
      j.role = i.role ∧ j.cmd = i.cmd ∧ j.pkt = i.pkt ∧ j.bank = s.get R.MCODE_ACTIVE.BANK ∧
      j.work.upc = SMap.find (fun _ => 0) s.code.entries (2 * svcFacet sf + s.get R.MCODE_ACTIVE.BANK) ∧
      t.get (R.SVC_STATE.STATE sf) = 1 ∧ (∀ k, k ≠ sf → t.service k = s.service k) ∧
      s.kept { t with code := s.code, buf := s.buf } [] fun k => k = (R.SVC_STATE.STATE sf).off) ∧
  (∀ (s u : State) (sf role : Nat) (i : Item), sf < 32 → role < 6 → s.takesWork sf role = true → s.arrival sf role = some (i, u) →
    (s.service sf).running.isSome = true →
    ∃ t, exec (.serviceWorkArrival sf role) s = .next t ∧ (t.service sf).queue = (s.service sf).queue ++ [i] ∧
      (t.service sf).running = (s.service sf).running ∧ (∀ k, k ≠ sf → t.service k = s.service k) ∧
      s.kept { t with code := s.code, buf := s.buf } [] fun k => k = (R.SVC_STATE.STATE sf).off) ∧
  (∀ (s : State) (sf role : Nat), sf < 32 → role < 6 → (s.takesWork sf role = false ∨ (s.arrival sf role).isNone = true) →
    ∃ t, exec (.serviceWorkArrival sf role) s = .next t ∧ s.kept t [] fun _ => False) ∧
  (∀ (s : State) (sf m : Nat) (i : Item), sf < 32 → s.plainWord sf m i → mCond m = 0 → mMove m / 2 ^ 26 = 0 →
    (mSeq m = 0 ∧ i.work.upc + 1 < 8192) ∨ mSeq m = 1 →
    ∃ t w, exec (.serviceWordIssue sf) s = .next t ∧ (t.service sf).running = some { i with work := w } ∧
      w.upc = (if mSeq m = 0 then i.work.upc + 1 else mTarget m) ∧ w.sp = i.work.sp ∧ w.stack = i.work.stack ∧ w.run = none ∧
      w.vec = metaFlags (((aluRun i.work.vec (mAlu0 m)).1.toList ++ (aluRun i.work.vec (mAlu1 m)).1.toList).foldl
        (fun v x => vput v x.1 x.2.1 x.2.2) i.work.vec) (mMeta m) true true ∧
      ∀ k, k ≠ sf → t.service k = s.service k) ∧
  (∀ (s : State) (sf m : Nat) (i : Item), sf < 32 → s.plainWord sf m i → mCond m = 0 → mSeq m = 7 → i.pkt = none →
    (s.service sf).saved = [] → (s.service sf).queue = [] →
    ∃ t, exec (.serviceWordIssue sf) s = .next t ∧ (t.service sf).running = none ∧ t.get (R.SVC_STATE.STATE sf) = 0 ∧
      ∀ k, k ≠ sf → t.service k = s.service k) ∧
  (∀ (s : State) (sf : Nat), sf < 32 → (s.service sf).waiting = true ∨ (s.service sf).parked = true ∨ s.forwarding = false ∨
      (s.mode = .holdUp ∧ ∃ i, (s.service sf).running = some i ∧ i.cmd.isSome = true) →
    ∃ t, exec (.serviceWordIssue sf) s = .next t ∧ s.kept t [] fun _ => False) ∧
  (∀ (s : State) (sf : Nat) (data : List Byte) (i : Item) (l : Lookup), sf < 32 → data.length ≤ 64 → s.coreUp = true →
    (s.service sf).running = some i → (s.service sf).oldestLook = some l → (l.who = 0 ∨ s.transferDone l.who = true) →
    (∃ x ∈ i.work.looks, x.id = l.id) →
    ∃ t, exec (.serviceResult sf data) s = .next t ∧ (t.service sf).waiting = false ∧
      (t.service sf).running = some { i with work := { i.work with
        vec := deposit i.work.vec (s.serviceAnswer l data), looks := i.work.looks.filter fun x => x.id != l.id } } ∧
      (l.far = none → l.who = 0 ∨ l.who ∉ s.mem.failed → s.serviceAnswer l data = l) ∧
      (l.who ≠ 0 → l.who ∈ s.mem.failed →
        s.serviceAnswer l data = { l with status := Answer.absent.status, value := Answer.absent.value }) ∧
      s.kept { t with code := s.code } [] fun k => k = (R.SVC_STATE.STATE sf).off) ∧
  (∀ (s : State) (sf : Nat) (data : List Byte), sf < 32 → data.length ≤ 64 →
    (s.service sf).oldestLook = none ∨ (∃ l, (s.service sf).oldestLook = some l ∧ l.who ≠ 0 ∧ s.transferDone l.who = false) →
    ∃ t, exec (.serviceResult sf data) s = .next t ∧ s.kept t [] fun _ => False)

/-- A block that leaves reset has nothing in it (R138), and a prism has counted the packets it flushed (R61); one still in reset past its 256 beats raises CTRL_STATE (R528). -/
def Obligations.BlocksLeaveReset : Prop :=
  (∀ (s : State) (b : Nat), b < 16 → s.coreUp = true → s.fault.blocks.contains b = true →
    ∃ t, exec (.blockResetComplete b) s = .next t ∧ (t.prism b).flights = [] ∧ (t.prism b).parked = [] ∧
      t.fault.blocks = s.fault.blocks.filter (fun x => x != b) ∧
      ((s.prism b).stall = none →
        SMap.find (fun _ => 0) t.loss.flushed b = (SMap.find (fun _ => 0) s.loss.flushed b + (s.prism b).packets.length) % 2 ^ 64)) ∧
  (∀ (s : State) (sf : Nat), sf < 32 → s.coreUp = true → s.fault.blocks.contains (16 + sf) = true → (s.service sf).queue = [] →
    ∃ t, exec (.blockResetComplete (16 + sf)) s = .next t ∧ t.service sf = {} ∧
      t.fault.blocks = s.fault.blocks.filter (fun x => x != 16 + sf) ∧ t.get (R.SVC_STATE.STATE sf) = 0) ∧
  (∀ (s : State) (b : Nat), b < 48 → s.coreUp = true → s.fault.blocks.contains b = true → s.fault.lateBlocks.contains b = false →
    ∃ t, exec (.blockResetFail b) s = .next t ∧ t.bit (faultBit 6) = true ∧ t.fault.lateBlocks = s.fault.lateBlocks ++ [b]) ∧
  (∀ (s : State) (b : Nat), b < 48 → s.fault.blocks.contains b = false →
    (∃ t, exec (.blockResetComplete b) s = .next t ∧ s.kept t [] fun _ => False) ∧
    ∃ t, exec (.blockResetFail b) s = .next t ∧ s.kept t [] fun _ => False)

/-! ### Rails and the reset pin (R503, R510 to R512, R529) -/

/-- The rails rise group by group from RAIL_EN[0], each group good for its time before the next (R510); a group that is not good after
20 ms lowers them all, they rise again 1 s later, and after three failures they stay down (R510). -/
def Obligations.RailsSequence : Prop :=
  (∀ s : State, s.power.keeper = true → s.power.latched = false → s.power.retryWait = false →
    (s.power.needHigh = false ∨ (s.power.pwrfailN = true ∧ s.power.highNs + 100000000 ≤ s.power.clock)) →
    s.bit R.KEEP_RAIL.HOLD_OFF = false → s.power.en = 0 →
    ∃ t, exec .railSequenceStart s = .next t ∧ t.power = { s.power with en := 1, needHigh := false, enNs := s.power.clock } ∧
      s.kept { t with power := s.power } [.railEn 0 true] fun _ => False) ∧
  (∀ s : State, s.power.keeper = false ∨ s.power.latched = true ∨ s.power.retryWait = true ∨ s.bit R.KEEP_RAIL.HOLD_OFF = true ∨
    s.power.en ≠ 0 ∨ (s.power.needHigh = true ∧ (s.power.pwrfailN = false ∨ s.power.clock < s.power.highNs + 100000000)) →
    ∃ t, exec .railSequenceStart s = .next t ∧ s.kept t [] fun _ => False) ∧
  (∀ (s : State) (g : Nat), g < 3 → s.power.keeper = true → s.power.en = 2 ^ (g + 1) - 1 → s.power.railsGood = false →
    s.power.enNs + 1100000 ≤ s.power.clock →
    ∃ t, exec (.railGroupGood g) s = .next t ∧
      t.power = { s.power with good := s.power.good ||| groupRails g, en := 2 ^ (g + 2) - 1, enNs := s.power.clock } ∧
      s.kept { t with power := s.power } [.railEn (g + 1) true] fun _ => False) ∧
  (∀ s : State, s.power.keeper = true → s.power.en = 15 → s.power.railsGood = false → s.power.enNs + 100000 ≤ s.power.clock →
    ∃ t, exec (.railGroupGood 3) s = .next t ∧
      t.power = { s.power with good := s.power.good ||| 0x80, railsGood := true, tries := 0 } ∧ t.get R.KEEP_RAIL.ATTEMPTS = 0 ∧
      s.kept { t with power := s.power } [] fun k => k = R.KEEP_RAIL.ATTEMPTS.off) ∧
  (∀ (s : State) (g good : Nat), g < 4 → good < 256 → s.power.keeper = true → s.power.en = 2 ^ (g + 1) - 1 →
    s.power.railsGood = false → good &&& groupRails g ≠ groupRails g → s.power.enNs + 20000000 ≤ s.power.clock →
    ∃ t, exec (.railFail g good) s = .next t ∧ t.power.en = 0 ∧ t.power.good = 0 ∧ t.power.tries = s.power.tries + 1 ∧
      t.power.failNs = s.power.clock ∧
      t.power.latched = decide (3 ≤ s.power.tries + 1) ∧ t.power.retryWait = decide (s.power.tries + 1 < 3) ∧
      t.get R.KEEP_RAIL.ATTEMPTS = min (s.get R.KEEP_RAIL.ATTEMPTS + 1) 3 ∧
      (s.get R.KEEP_RAIL.ATTEMPTS = 0 → t.get R.KEEP_RAIL.FAIL_GROUP = g) ∧
      (s.get R.KEEP_RAIL.ATTEMPTS ≠ 0 → t.get R.KEEP_RAIL.FAIL_GROUP = s.get R.KEEP_RAIL.FAIL_GROUP) ∧
      (s.coreUp = true → t.bit (faultBit 5) = true) ∧
      (s.coreUp = false → t.get R.FLT_LOG.HEAD = (s.get R.FLT_LOG.HEAD + 1) % 2 ^ 32) ∧
      s.emits t [.railEn 3 false, .railEn 2 false, .railEn 1 false, .railEn 0 false]) ∧
  (∀ (s : State) (g good : Nat), g < 4 → good < 256 →
    (s.power.clock < s.power.enNs + goodAfter g → ∃ t, exec (.railGroupGood g) s = .next t ∧ s.kept t [] fun _ => False) ∧
    (s.power.clock < s.power.enNs + 20000000 → ∃ t, exec (.railFail g good) s = .next t ∧ s.kept t [] fun _ => False)) ∧
  (∀ s : State, s.power.retryWait = true → s.power.failNs + 1000000000 ≤ s.power.clock → s.power.keeper = true → s.power.latched = false → s.power.needHigh = false →
    s.bit R.KEEP_RAIL.HOLD_OFF = false → s.power.en = 0 →
    ∃ t, exec .railRetry s = .next t ∧ t.power = { s.power with retryWait := false, en := 1, enNs := s.power.clock } ∧
      s.kept { t with power := s.power } [.railEn 0 true] fun _ => False)

/-- RESET_N low is DORMANT at once, from HOLD-UP with the enables low until PWRFAIL_N has been high for 100 ms (R512; that R512 goes before
R511 there is the model's choice, log 212), and its rise releases a held sequencer (R503, R510); DORMANT ends in PROVE with every register but
the keeper's at its reset value, the strapping pins sampled and XSPI_RESET_N low (R433, R484, R503, R521, R584); a chip reset ends in SAFE with cause 3, and BAR0 below 400000h, the host endpoints, the governor
and the timebase as they were (R529). -/
def Obligations.ResetsEndInTheirModes : Prop :=
  (∀ s : State, s.mode ≠ .dormant →
    ∃ t, exec .resetNLow s = .next t ∧ t.mode = .dormant ∧ t.prev = s.mode ∧
      (∀ k, t.word k = if keeperOff k then s.word k else resetWord k) ∧
      (s.mode ≠ .holdUp → t.out = s.out ∧
        t.power = { s.power with resetN := false, ranReset := true, isolated := false, farPerstN := false, ppsNs := none }) ∧
      (s.mode = .holdUp → t.power.en = 0 ∧ t.power.good = 0 ∧ t.power.railsGood = false ∧ t.power.needHigh = true ∧ t.power.resetN = false ∧
        t.power.ranReset = true ∧ t.out = s.out ++ [.railEn 3 false, .railEn 2 false, .railEn 1 false, .railEn 0 false])) ∧
  (∀ s : State, s.mode = .dormant →
    ∃ t, exec .resetNLow s = .next t ∧ t.power = { s.power with resetN := false } ∧ s.kept { t with power := s.power } [] fun _ => False) ∧
  (∀ s : State, ∃ t, exec .resetNHigh s = .next t ∧ t.power.resetN = true ∧
    (s.power.resetN = false → t.power.latched = false) ∧ (s.power.resetN = true → t.power = s.power) ∧
    s.kept { t with power := s.power } [] fun _ => False) ∧
  (∀ s : State, s.mode = .dormant → s.power.resetN = true → s.power.pwrfailN = true → s.power.railsGood = true → s.power.keeper = true →
    ∃ t, exec .dormantExit s = .next t ∧ t.mode = .prove ∧ t.prev = .dormant ∧ t.tb = 0 ∧ t.get R.KEEP_THERM.TRIP = 108 ∧
      t.get R.KEEP_THERM.WARN = 100 ∧ t.power.hxBif.length = 2 ∧ t.power.smbAddr < 4 ∧
      t.power = { s.power with isolated := false, farPerstN := false, ppsNs := none, hxBif := t.power.hxBif, smbAddr := t.power.smbAddr } ∧
      t.out = s.out ++ [.flashReset] ∧
      ∀ k, k ≠ R.KEEP_THERM.TRIP.off → t.word k = if keeperOff k then s.word k else resetWord k) ∧
  (∀ s : State, s.mode ≠ .dormant ∨ s.power.resetN = false ∨ s.power.pwrfailN = false ∨ s.power.railsGood = false ∨ s.power.keeper = false →
    ∃ t, exec .dormantExit s = .next t ∧ s.kept t [] fun _ => False) ∧
  (∀ s : State, s.fault.chipReset = true →
    ∃ t, exec .chipResetComplete s = .next t ∧ t.mode = .safe ∧ t.prev = s.mode ∧ t.safeCause = 3 ∧ t.fault.chipReset = false ∧
      t.fault.blocks = [] ∧ t.tb = s.tb ∧ t.cmd.open_ = [] ∧ t.host = s.host.endpoints ∧
      (s.mode ≠ .prove → s.mode ≠ .load → ∀ k, t.word k = if safeOff k then s.word k else resetWord k) ∧
      t.out = s.out ++ [.flashReleased, .farPerst false]) ∧
  (∀ s : State, s.fault.chipReset = false →
    ∃ t, exec .chipResetComplete s = .next t ∧ s.kept t [] fun _ => False)

/-! ### HOLD-UP (R503, R504, R512, R516 to R519) -/

/-- PWRFAIL_N or the loss of the core supply begins HOLD-UP, with its record and the close entry of an interrupted run (R476, R516,
R519); the keeper isolates itself after 15 µs (R517); the exit is DORMANT with the enables low until PWRFAIL_N has been high (R512). -/
def Obligations.HoldUpRuns : Prop :=
  (∀ s : State, s.powered →
    (∃ t, exec .pwrfailN s = .next t ∧ s.heldUp t 0 ∧ t.power.pwrfailN = false) ∧
    ∃ t, exec .coreSupplyLost s = .next t ∧ s.heldUp t 1 ∧ t.power.pwrfailN = s.power.pwrfailN) ∧
  (∀ s : State, s.mode = .dormant ∨ s.mode = .holdUp →
    (∃ t, exec .pwrfailN s = .next t ∧ t.power = { s.power with pwrfailN := false } ∧
      s.kept { t with power := s.power } [] fun _ => False) ∧
    ∃ t, exec .coreSupplyLost s = .next t ∧ s.kept t [] fun _ => False) ∧
  (∀ s : State, ∃ t, exec .pwrfailNHigh s = .next t ∧ t.power = { s.power with pwrfailN := true, highNs := if s.power.pwrfailN then s.power.highNs else s.power.clock } ∧
    s.kept { t with power := s.power } [] fun _ => False) ∧
  (∀ s : State, s.mode = .holdUp → s.power.holdNs + 15000 ≤ s.ns →
    ∃ t, exec .holdUpIsolation s = .next t ∧ t.power = { s.power with isolated := true } ∧ t.coreUp = false ∧
      s.kept { t with power := s.power } [] fun _ => False) ∧
  (∀ s : State, s.mode = .holdUp →
    ∃ t, exec .holdUpExit s = .next t ∧ t.mode = .dormant ∧ t.prev = .holdUp ∧ t.power.en = 0 ∧ t.power.needHigh = true ∧
      t.power.good = 0 ∧ t.power.railsGood = false ∧ (∀ k, t.word k = if keeperOff k then s.word k else resetWord k) ∧
      t.out = s.out ++ [.railEn 3 false, .railEn 2 false, .railEn 1 false, .railEn 0 false]) ∧
  (∀ s : State, s.mode ≠ .holdUp →
    (∃ t, exec .holdUpExit s = .next t ∧ s.kept t [] fun _ => False) ∧
    ∃ t, exec .holdUpIsolation s = .next t ∧ s.kept t [] fun _ => False)

/-! ### The keeper and the temperature (R513 to R515, R521) -/

/-- The keeper starts on an input above 1.70 V, switches to AUX below 1.62 V, and returns to MAIN once that has been at or above 1.70 V for
10 ms, which start anew after a dip of 1 µs or more (R513, R600), and browns out when both fall (R514, R515). -/
def Obligations.KeeperFollowsItsInputs : Prop :=
  (∀ (s : State) (m a : Nat), m < 4096 → a < 4096 → s.power.keeper = false → 1700 < m ∨ 1700 < a →
    ∃ t, exec (.keeperStart m a) s = .next t ∧
      t.power = { s.power with keeper := true, mainNs := s.power.clock, dipNs := if m < 1700 then some s.power.clock else none } ∧ t.get R.KEEP_SUPPLY.MAIN_MV = m ∧
      t.get R.KEEP_SUPPLY.AUX_MV = a ∧ t.bit R.KEEP_SUPPLY.SEL = decide (m ≤ 1700) ∧
      s.kept { t with power := s.power } [] fun k => k = R.KEEP_SUPPLY.SEL.off) ∧
  (∀ (s : State) (m a : Nat), m < 4096 → a < 4096 → s.power.keeper = true → s.get R.KEEP_SUPPLY.SEL = 0 → m < 1620 → 1620 < a →
    ∃ t, exec (.keeperSwitch m a) s = .next t ∧ t.get R.KEEP_SUPPLY.SEL = 1 ∧
      t.get R.KEEP_SUPPLY.SWITCHES = min (s.get R.KEEP_SUPPLY.SWITCHES + 1) 65535 ∧ t.get R.KEEP_SUPPLY.MAIN_MV = m ∧
      t.get R.KEEP_SUPPLY.AUX_MV = a ∧ t.power.mainNs = s.power.clock ∧ (s.coreUp = true → t.bit (faultBit 4) = true) ∧
      (s.coreUp = false → t.get R.FLT_LOG.HEAD = (s.get R.FLT_LOG.HEAD + 1) % 2 ^ 32)) ∧
  (∀ (s : State) (m a : Nat), m < 4096 → a < 4096 → s.power.keeper = true →
    (s.get R.KEEP_SUPPLY.SEL = 0 ∧ (1620 ≤ m ∨ a ≤ 1620)) ∨ s.get R.KEEP_SUPPLY.SEL = 1 →
    ∃ t, exec (.keeperSwitch m a) s = .next t ∧
      t.get R.KEEP_SUPPLY.SEL = (if s.get R.KEEP_SUPPLY.SEL = 1 ∧ a < 1620 ∧ 1620 ≤ m then 0 else s.get R.KEEP_SUPPLY.SEL) ∧
      t.get R.KEEP_SUPPLY.MAIN_MV = m ∧ t.get R.KEEP_SUPPLY.AUX_MV = a ∧ t.power = s.power.mainAt m ∧
      s.kept { t with power := s.power } [] fun k => k = R.KEEP_SUPPLY.SEL.off) ∧
  (∀ (s : State) (m a dip : Nat) (p : PowerState), m < 4096 → a < 4096 → s.power.keeper = true →
    p = (if 1000 ≤ dip then { s.power with mainNs := s.power.clock } else s.power).mainAt m →
    ∃ t, exec (.keeperReturnMain m a dip) s = .next t ∧ t.power = p ∧ t.get R.KEEP_SUPPLY.MAIN_MV = m ∧ t.get R.KEEP_SUPPLY.AUX_MV = a ∧
      t.get R.KEEP_SUPPLY.SEL =
        (if s.get R.KEEP_SUPPLY.SEL = 1 ∧ 1700 ≤ m ∧ p.mainNs + 10000000 ≤ s.power.clock then 0 else s.get R.KEEP_SUPPLY.SEL) ∧
      (1000 ≤ dip → p.mainNs = s.power.clock) ∧
      (dip < 1000 → (∀ d, s.power.dipNs = some d → s.power.clock < d + 1000) → p.mainNs = s.power.mainNs) ∧
      (∀ d, s.power.dipNs = some d → d + 1000 ≤ s.power.clock → 1700 ≤ m → p.mainNs = s.power.clock) ∧
      s.kept { t with power := s.power } [] fun k => k = R.KEEP_SUPPLY.SEL.off) ∧
  (∀ (s : State) (m a dip : Nat), m < 4096 → a < 4096 → s.power.keeper = false →
    ∃ t, exec (.keeperReturnMain m a dip) s = .next t ∧ s.kept t [] fun _ => False) ∧
  (∀ (s : State) (m a : Nat), m < 4096 → a < 4096 → s.power.keeper = true →
    (s.get R.KEEP_SUPPLY.SEL = 0 ∧ m < 1550 ∧ a < 1620) ∨ (s.get R.KEEP_SUPPLY.SEL = 1 ∧ a < 1550 ∧ m < 1620) →
    ∃ t, exec (.keeperBrownout m a) s = .next t ∧ t.mode = .dormant ∧ t.power.keeper = false ∧ t.power.en = 0 ∧
      t.power.railsGood = false ∧ t.power.todNs = 0 ∧ (s.mode = .holdUp → t.power.needHigh = true) ∧ t.get R.KEEP_SUPPLY.BROWNOUTS = min (s.get R.KEEP_SUPPLY.BROWNOUTS + 1) 255 ∧
      t.get R.KEEP_SUPPLY.SEL = 0 ∧ t.word R.KEEP_TOD.SECONDS.off = 0 ∧ t.get R.KEEP_RAIL.FAIL_GROUP = s.get R.KEEP_RAIL.FAIL_GROUP ∧
      ∀ k, ¬ (0x100000 ≤ k ∧ k < 0x100028) → t.word k = if keeperOff k then s.word k else resetWord k)

/-- A sample gives TJ, its first hottest sensor and the peak; WARN and TRIP are raised once, and nothing more is raised until the
temperature has fallen more than 5 °C below their limit, which arms them again; 115 °C lowers every enable (R521). -/
def Obligations.TemperatureActs : Prop :=
  (∀ (s : State) (temps : List Nat) (tj i : Nat), Instr.wf (.thermalSample temps) = true → s.power.keeper = true →
    hottest 0 temps = (tj, i) → tj < 115 →
    ∃ t, exec (.thermalSample temps) s = .next t ∧ t.get R.KEEP_THERM.TJ = tj ∧ t.get R.KEEP_THERM.SENSOR = i ∧
      t.get R.KEEP_THERM.PEAK = max (s.get R.KEEP_THERM.PEAK) tj ∧ t.mode = s.mode ∧
      (s.get R.KEEP_THERM.WARN ≤ tj → t.fault.warnArmed = false ∧
        (s.fault.warnArmed = true → s.coreUp = true → t.bit (faultBit 2) = true)) ∧
      (s.get R.KEEP_THERM.TRIP ≤ tj → t.fault.tripArmed = false ∧
        (s.fault.tripArmed = true → s.coreUp = true → t.bit (faultBit 3) = true)) ∧
      (tj < s.get R.KEEP_THERM.WARN - 5 → t.fault.warnArmed = true) ∧
      (tj < s.get R.KEEP_THERM.TRIP - 5 → t.fault.tripArmed = true) ∧
      (s.get R.KEEP_THERM.WARN - 5 ≤ tj → tj < s.get R.KEEP_THERM.WARN → t.fault.warnArmed = s.fault.warnArmed) ∧
      (s.get R.KEEP_THERM.TRIP - 5 ≤ tj → tj < s.get R.KEEP_THERM.TRIP → t.fault.tripArmed = s.fault.tripArmed) ∧
      (s.fault.warnArmed = false → t.bit (faultBit 2) = s.bit (faultBit 2)) ∧
      (s.fault.tripArmed = false → t.bit (faultBit 3) = s.bit (faultBit 3)) ∧
      (s.fault.warnArmed = false ∨ tj < s.get R.KEEP_THERM.WARN → s.fault.tripArmed = false ∨ tj < s.get R.KEEP_THERM.TRIP →
        s.kept { t with fault := s.fault } [] fun k => k = R.KEEP_THERM.TJ.off)) ∧
  (∀ (s : State) (temps : List Nat) (tj i : Nat), Instr.wf (.thermalSample temps) = true → s.power.keeper = true →
    hottest 0 temps = (tj, i) → 115 ≤ tj →
    ∃ t, exec (.thermalSample temps) s = .next t ∧ t.mode = .dormant ∧ t.power.en = 0 ∧ t.power.latched = true ∧
      t.power.railsGood = false ∧ t.get R.KEEP_THERM.TJ = tj)

/-! ### Self-test (R537 to R546) -/

/-- Self-test: a group starts 250 µs after the one before it, a unit of port lanes taking its four links down, SERVE saving what a memory
unit holds; only that memory's contents are destroyed (R538, R539, R544). A unit that has lasted its time records its run, its result and its
signature, a mismatch being counted and raised, and gives way to the group's next unit (R541, R545); in SERVE its contents come back from the
save, a lens array's from its shadow, and contents that did not come back are raised (R544). A plan that is over ends in SERVE with STATE 5
or 6, and before SERVE leads to LOAD, the tested memories empty (log 199, the model's choice), or to SAFE (R541). -/
def Obligations.SelfTestRuns : Prop :=
  (∀ (s : State) (g p : Nat) (us : List Nat), g < 8 → s.coreUp = true → s.bist.plan = some p → s.bist.toStart.contains g = true →
    s.bist.startNs + 250000 * g ≤ s.ns → groupUnits s.bist.section_ p g = us →
    ∃ t, exec (.bistGroupStart g) s = .next t ∧ t.bist.toStart = s.bist.toStart.filter (fun x => x != g) ∧
      t.bist.running = (s.bist.running.filter fun x => x.1 != g) ++ (if us.isEmpty then [] else [(g, us)]) ∧
      (∀ u ∈ us.head?, t.get R.BIST_STATUS.UNIT = u % 65536 ∧
        (201 ≤ u → u < 225 → ∀ i, i < 4 → t.linkUp (4 * (u - 201) + i) = false) ∧
        (s.mode = .serve → t.bist.saves = s.saveOf u :: s.bist.saves) ∧
        (∀ k, ¬ ((lineRun u).1 ≤ k ∧ k < (lineRun u).1 + (lineRun u).2) →
          SMap.find (fun _ => 0) t.tbl.lines k = SMap.find (fun _ => 0) s.tbl.lines k) ∧
        (∀ k, ¬ ((wordRun u).1 ≤ k ∧ k < (wordRun u).1 + (wordRun u).2) →
          SMap.find (fun _ => 0) t.code.store k = SMap.find (fun _ => 0) s.code.store k) ∧
        (∀ k, ¬ ((stackRun u).1 ≤ k ∧ k < (stackRun u).1 + (stackRun u).2) →
          SMap.find (fun _ => 0) t.mem.hbm k = SMap.find (fun _ => 0) s.mem.hbm k)) ∧
      ((∀ u ∈ us.head?, u < 96 ∨ 225 ≤ u) → s.kept { t with bist := s.bist } [] fun k => k = R.BIST_STATUS.UNIT.off)) ∧
  (∀ (s : State) (g : Nat), g < 8 →
    (s.bist.plan = none ∨ s.bist.toStart.contains g = false ∨ s.ns < s.bist.startNs + 250000 * g) →
    ∃ t, exec (.bistGroupStart g) s = .next t ∧ s.kept t [] fun _ => False) ∧
  (∀ (s : State) (g sig u : Nat) (us : List Nat) (restored : Bool), g < 8 → sig < 2 ^ 64 → s.coreUp = true → s.bist.plan.isSome = true →
    (s.bist.running.find? fun x => x.1 == g) = some (g, u :: us) → u < 277 → s.unitOver g u = true →
    ∃ t, exec (.bistUnitComplete g sig restored) s = .next t ∧
      t.get (R.BIST_RESULT.RESULT u) = (if sig = unitSig s.bist.section_ u then 1 else 2) ∧
      t.get (R.BIST_RESULT.RUNS u) = min (s.get (R.BIST_RESULT.RUNS u) + 1) 255 ∧ t.get (R.BIST_SIG.SIG u) = sig ∧
      t.bist.running = (s.bist.running.filter fun x => x.1 != g) ++ (if us.isEmpty then [] else [(g, us)]) ∧
      (sig ≠ unitSig s.bist.section_ u →
        t.get R.BIST_STATUS.FAILS = min (s.get R.BIST_STATUS.FAILS + 1) 65535 ∧ t.bit (faultBit 36) = true) ∧
      (sig = unitSig s.bist.section_ u → t.get R.BIST_STATUS.FAILS = s.get R.BIST_STATUS.FAILS) ∧
      (s.mode = .serve → unitSaved u = true → restored = false → t.bit (faultBit 37) = true) ∧
      (s.mode = .serve → us = [] → t.lens.rows = replaceRun (rowRun u) (ofRun (rowRun u) s.lens.shadows) s.lens.rows ∧
        ∀ v, s.bist.saves = [v] → v.unit = u → t.bist.saves = [] ∧
          (restored = true → t.tbl.lines = replaceRun (lineRun u) v.lines s.tbl.lines ∧ t.code.store = replaceRun (wordRun u) v.words s.code.store) ∧
          (restored = false → t.tbl.lines = s.tbl.lines ∧ t.code.store = s.code.store))) ∧
  (∀ (s : State) (g sig u : Nat) (us : List Nat) (restored : Bool), g < 8 → sig < 2 ^ 64 →
    (s.bist.running.find? fun x => x.1 == g) = some (g, u :: us) → s.unitOver g u = false →
    ∃ t, exec (.bistUnitComplete g sig restored) s = .next t ∧ s.kept t [] fun _ => False) ∧
  (∀ s : State, s.mode = .serve → s.planOver = true →
    ∃ t, exec .bistPlanEnd s = .next t ∧ t.bist = { s.bist with plan := none } ∧
      t.get R.BIST_STATUS.STATE = (if s.get R.BIST_STATUS.FAILS = 0 then 5 else 6) ∧ t.bit R.BIST_CTRL.START = false ∧
      s.kept { t with bist := s.bist } [] fun k => k = R.BIST_STATUS.STATE.off ∨ k = R.BIST_CTRL.START.off) ∧
  (∀ s : State, s.mode = .prove ∨ s.mode = .load → s.fault.chipReset = false → s.planOver = true →
    ∃ t, exec .bistPlanEnd s = .next t ∧ t.bist.plan = none ∧
      (s.get R.BIST_STATUS.FAILS = 0 → t.mode = .load ∧ t.get R.BOOT_STATUS.STEP = 4 ∧ t.boot.bistDone = some s.bist.section_ ∧
        t.tbl.lines = [] ∧ t.code.store = [] ∧ t.lens.rows = [] ∧ t.mem.hbm = []) ∧
      (s.get R.BIST_STATUS.FAILS ≠ 0 → t.mode = .safe ∧ t.prev = s.mode ∧ t.safeCause = 1)) ∧
  (∀ s : State, s.planOver = false →
    ∃ t, exec .bistPlanEnd s = .next t ∧ s.kept t [] fun _ => False)

/-! ### Start-up (R428, R477, R478, R484 to R497, R586) -/

/-- The flash is discovered by its SFDP tables and put into 8D mode where they advertise it, or the device goes to SAFE (R484, R486); a slot is
read from its base in the flash; one that authenticates is tested, or loads at once where its BIST section has passed; one that does not
fails for its reason (R491, R496). -/
def Obligations.FlashIsRead : Prop :=
  (∀ (s : State) (octal : Bool) (mib : Nat), mib < 2 ^ 16 → s.mode = .prove → s.fault.chipReset = false → s.boot.found = false →
    1010000 ≤ s.ns →
    (∃ t, exec (.flashDiscovery true octal mib) s = .next t ∧ t.get R.BOOT_FLASH.DENSITY = mib ∧
      t.get R.BOOT_FLASH.MODE = (if octal then 2 else 1) ∧ t.get R.BOOT_FLASH.FREQ = (if octal then 200 else 50) ∧
      t.boot = { s.boot with found := true, hasB := decide (512 ≤ mib) } ∧ t.get R.BOOT_STATUS.STEP = 2 ∧
      (mib < 512 → t.get (R.BOOT_SLOT.REASON 1) = 1) ∧
      s.kept { t with boot := s.boot } (if octal then [.flashSfdp, .flashOctal] else [.flashSfdp]) fun k => k = R.BOOT_FLASH.MODE.off ∨ k = R.BOOT_STATUS.STEP.off ∨ k = (R.BOOT_SLOT.REASON 1).off) ∧
    ∃ t, exec (.flashDiscovery false octal mib) s = .next t ∧ s.emits t [.flashSfdp] ∧ t.mode = .safe ∧ t.safeCause = 2 ∧ t.get (R.BOOT_SLOT.REASON 0) = 1 ∧
      t.get (R.BOOT_SLOT.REASON 1) = 1) ∧
  (∀ (s : State) (v octal : Bool) (mib : Nat), mib < 2 ^ 16 → (s.mode ≠ .prove ∨ s.boot.found = true ∨ s.ns < 1010000) →
    ∃ t, exec (.flashDiscovery v octal mib) s = .next t ∧ s.kept t [] fun _ => False) ∧
  (∀ (s : State) (img : List Byte), s.loading = true → s.boot.found = true → s.boot.good = none → s.bist.plan = none → s.boot.next < 2 →
    ∃ t, exec (.slotAuthenticate img) s = .next t ∧ s.emits t [.flashRead (if s.boot.next = 0 then 0 else 0x10000000)] ∧
      (headerFormed img = false → s.slotFailed t s.boot.next 2) ∧
      (headerFormed img = true → t.get (R.BOOT_SLOT.VERSION s.boot.next) = imgVersion img ∧
        match imageReason img with
        | some (r, _, _) => s.slotFailed t s.boot.next (r % 16)
        | none => (t.boot.good.any fun g => g.slot == s.boot.next && g.version == imgVersion img) = true ∧
          (s.boot.bistDone = some (sectionOf img 9 0) → t.mode = .load ∧ t.get R.BOOT_STATUS.STEP = 4) ∧
          (s.boot.bistDone ≠ some (sectionOf img 9 0) → t.mode = s.mode ∧ t.get R.BOOT_STATUS.STEP = 3 ∧ t.bist.plan = some 0 ∧
            t.bist.section_ = sectionOf img 9 0 ∧ t.bist.toStart = List.range 8 ∧ t.get R.BIST_STATUS.STATE = 1))) ∧
  (∀ (s : State) (img : List Byte), s.loading = false ∨ s.boot.found = false ∨ s.boot.good ≠ none ∨ s.bist.plan ≠ none ∨
      2 ≤ s.boot.next →
    ∃ t, exec (.slotAuthenticate img) s = .next t ∧ s.kept t [] fun _ => False)

/-- LOAD (R428, R477, R493 to R498): the far ports, of each of which at most 2 TiB are used and whose decoder is programmed to them; the
sections, read again from the slot's base; the schedules; the journal, which waits while its slot must stay (R468; that the epoch entry waits
is the model's choice, log 211); each step once, in this order, and a slot that fails a check fails for its reason. -/
def Obligations.LoadProceeds : Prop :=
  (∀ (s : State) (ports : List (Nat × Nat × Nat)), Instr.wf (.farPortEnumerate ports) = true → s.mode = .load → s.fault.chipReset = false →
    s.boot.good.isSome = true → s.bist.plan = none → s.boot.farDone = false →
    ∃ t, exec (.farPortEnumerate ports) s = .next t ∧ t.boot.farDone = true ∧ t.get R.BOOT_STATUS.STEP = 5 ∧ t.power.farPerstN = true ∧
      t.mem.hbm = [] ∧
      ∀ f w r c, f < 16 → ports.getD f (0, 0, 0) = (w, r, c) →
        (farLinkGood w r = true → 0 < c → t.bit (R.FAR_PORT.UP f) = true ∧ t.get (R.FAR_PORT.WIDTH f) = w ∧
          t.get (R.FAR_PORT.RATE f) = r ∧ t.get (R.FAR_PORT.CAPACITY f) = min c 2048 ∧ .farDecoder f (min c 2048) ∈ t.out) ∧
        (farLinkGood w r = false ∨ c = 0 → t.bit (R.FAR_PORT.UP f) = false ∧ t.bit (faultBit (224 + f)) = true)) ∧
  (∀ (s : State) (img : List Byte) (plan : ImagePlan) (g : GoodSlot), s.boot.good = some g → g.slot < 2 → s.mode = .load →
    s.fault.chipReset = false → s.boot.farDone = true → s.boot.applied = false →
    ∃ t, exec (.loadApply img plan) s = .next t ∧
      match secondRead g img with
      | some e => s.slotFailed t g.slot (e.reason % 16)
      | none => match (s.emit (.flashRead (slotBase g.slot))).applyImage img plan with
        | .inl e => s.slotFailed t g.slot (e.reason % 16)
        | .inr u => t.boot.applied = true ∧ t.get R.BOOT_STATUS.STEP = 6 ∧
          u.kept { t with boot := u.boot } [] fun k => k = R.BOOT_STATUS.STEP.off) ∧
  (∀ (s : State) (g : GoodSlot), s.boot.good = some g → g.slot < 2 → s.mode = .load → s.fault.chipReset = false → s.boot.applied = true →
    s.boot.checked = false →
    ∃ t, exec .loadSched s = .next t ∧
      match State.loadBanks s.boot.scheds s with
      | .inl _ => s.slotFailed t g.slot 9
      | .inr u => (bankCount < u.buf.wheel.sum ∨ u.ratesGood = false → s.slotFailed t g.slot 9) ∧
        (u.buf.wheel.sum ≤ bankCount → u.ratesGood = true → u.reservesGood = false → s.slotFailed t g.slot 8) ∧
        (u.buf.wheel.sum ≤ bankCount → u.ratesGood = true → u.reservesGood = true → t.boot.checked = true ∧ t.get R.BOOT_STATUS.STEP = 7)) ∧
  (∀ (s : State) (fails : Nat), s.boot.good.isSome = true → s.mode = .load → s.fault.chipReset = false → s.boot.checked = true →
    s.boot.epochWritten = false →
    (s.slotHeld = true → ∃ t, exec (.journalScan fails) s = .next t ∧ s.kept t [] fun _ => False) ∧
    (s.slotHeld = false → ∃ t, exec (.journalScan fails) s = .next t ∧ t.get R.JRN_HEAD.HEAD = (s.get R.JRN_HEAD.HEAD + 1) % 2 ^ 48 ∧
      (fails < 2 → t.boot.epochWritten = true ∧ t.get R.JRN_LAST_EPOCH.SEQ = s.get R.JRN_HEAD.HEAD ∧
        t.get R.JRN_EPOCH.COUNT = (s.get R.JRN_EPOCH.COUNT + 1) % 2 ^ 48 ∧ t.power.started = true ∧ t.power.ranChip = false ∧
        t.power.ranRestart = false ∧ t.power.ranReset = false) ∧
      (2 ≤ fails → t.boot.epochWritten = false ∧ t.bit (faultBit 34) = true))) ∧
  (∀ (s : State) (img : List Byte) (plan : ImagePlan) (ports : List (Nat × Nat × Nat)) (fails : Nat), s.mode ≠ .load →
    Instr.wf (.farPortEnumerate ports) = true →
    (∃ t, exec (.farPortEnumerate ports) s = .next t ∧ s.kept t [] fun _ => False) ∧
    (∃ t, exec (.loadApply img plan) s = .next t ∧ s.kept t [] fun _ => False) ∧
    (∃ t, exec .loadSched s = .next t ∧ s.kept t [] fun _ => False) ∧
    (∃ t, exec (.journalScan fails) s = .next t ∧ s.kept t [] fun _ => False) ∧
    ∃ t, exec (.serveEntry fails) s = .next t ∧ s.kept t [] fun _ => False)

/-- SERVE begins with the flash released, an advertisement due and every enabled iris training (R333, R478, R485); the first entry marked
for re-execution opens as a command of no ring, unless its slot of the journal must stay (R468, R478). PPS_OUT rises at each whole second (R586). That irises start with SERVE is the
model's choice (log 139). -/
def Obligations.ServeBegins : Prop :=
  (∀ (s : State) (fails : Nat), s.mode = .load → s.fault.chipReset = false → s.boot.epochWritten = true →
    ∃ t, exec (.serveEntry fails) s = .next t ∧ t.mode = .serve ∧ t.prev = .load ∧ t.get R.BOOT_STATUS.STEP = 15 ∧ t.fab.advDue = true ∧
      s.emits t [.flashReleased] ∧ (∀ i, i < 64 → s.bit (R.IRIS_CTRL.ENABLE i) = true → t.irisState i = 1) ∧
      (s.cmd.reexec = [] ∨ s.slotHeld = true → t.cmd = s.cmd) ∧
      (∀ o rest, s.cmd.reexec = o :: rest → s.slotHeld = false → t.cmd.reexec = rest ∧
        ∃ c ∈ t.cmd.open_, c.orig = some o ∧ c.ring = 64 ∧ c.outcome = none)) ∧
  (∀ s : State, s.mode = .serve →
    (s.atSecond = true → s.ppsLevel = false → ∃ t, exec .ppsOut s = .next t ∧ t.ppsLevel = true ∧
      t.power = { s.power with ppsNs := some s.ns } ∧ s.kept { t with power := s.power } [.pps] fun _ => False) ∧
    (s.atSecond = false ∨ s.ppsLevel = true → ∃ t, exec .ppsOut s = .next t ∧ s.kept t [] fun _ => False)) ∧
  (∀ s : State, s.mode ≠ .serve → ∃ t, exec .ppsOut s = .next t ∧ s.kept t [] fun _ => False)

/-! ### The block as a whole -/

/-- A step with a command at the front of the queue is that command's effect with the queue's rest. -/
def Obligations.StepRunsTheFront : Prop :=
  ∀ (s : State) (c : Instr) (rest : List Instr), step { s with pending := c :: rest } = exec c { s with pending := rest }

/-- An empty queue lets one cycle of TB_REFCLK pass (log 1, the model's choice): the timebase, the time of day and the
governor's cycle count advance, step P1 begins (log 136), searches older than 1 ms leave LENS_PWR, and the rest stays (R180, R400, R514), but for
what time itself brings: host requests that wait for a tag are sent as far as tags are free (R437), a write of the forwarding area has completed
100 ns after it reached its controller (R415), and verification restarts on a port whose frame in progress has completed (R396). -/
def Obligations.IdleCyclesPass : Prop :=
  ∀ s : State, s.pending = [] →
    ∃ t, step s = .next t ∧ t.mode = s.mode ∧ (s.coreUp = false → t.tb = s.tb ∧ t.slew = s.slew) ∧
      (s.coreUp = true → s.slew = 0 → s.get R.TIME_ADJ.FREQ = 0 → t.tb = s.tb + 4 * 2 ^ 40 ∧ t.slew = 0) ∧
      (s.power.keeper = false → t.power = s.power) ∧
      (s.power.keeper = true → s.power.todNs + 4 < 1000000000 →
        t.power = { s.power with todNs := s.power.todNs + 4, clock := s.power.clock + 4 }) ∧
      (s.power.keeper = true → 1000000000 ≤ s.power.todNs + 4 →
        t.power = { s.power with todNs := s.power.todNs + 4 - 1000000000, clock := s.power.clock + 4 } ∧
          t.get R.KEEP_TOD.SECONDS = (s.get R.KEEP_TOD.SECONDS + 1) % 2 ^ 48) ∧
      (s.coreUp = false → t.pace = s.pace ∧ t.lens = s.lens) ∧
      (s.coreUp = true → t.pace = { s.pace with cycles := s.pace.cycles + 1 } ∧
        t.get R.BOOT_STATUS.STEP = (if s.mode = .prove ∧ s.get R.BOOT_STATUS.STEP = 0 then 1 else s.get R.BOOT_STATUS.STEP)) ∧
      (s.coreUp = true → s.slew = 0 → s.get R.TIME_ADJ.FREQ = 0 →
        (∀ n ∈ s.mac.reverify, n < 96 → s.sending n = none → n ∉ t.mac.reverify ∧ t.get (R.MAC_PREEMPT.VSTATUS n) =
          b2n (s.bit (R.MAC_PREEMPT.EN n) && !s.bit (R.MAC_PREEMPT.VERIFY_DIS n) && s.get (R.MAC_CFG.SPEED n) != 7)) ∧
        (∀ r ∈ s.mem.queue, r.cls = 3 → r.write = true → r.ns + 100 ≤ s.ns → s.get (R.HBM_STACK.STATE (r.q / 32)) = 0 →
          (∀ x ∈ s.mem.queue, x.cls = 3 → x.write = true) → r ∉ t.mem.queue)) ∧
      (s.mac.reverify = [] → (∀ r ∈ s.mem.queue, r.cls ≠ 3) → (s.forwarding = true → ∀ w ∈ s.host.waits, s.tagFree w.req = false) →
        s.kept { t with tb := s.tb, slew := s.slew, power := s.power, pace := s.pace, lens := s.lens } [] fun k =>
          (k = R.KEEP_TOD.SECONDS.off ∧ s.power.keeper = true ∧ 1000000000 ≤ s.power.todNs + 4) ∨
            (k = R.BOOT_STATUS.STEP.off ∧ s.mode = .prove ∧ s.get R.BOOT_STATUS.STEP = 0) ∨
            ∃ a l, (a, l) ∈ s.lens.pwr ∧ k = (R.LENS_PWR.FRACTION a).off)

/-- After reset the device is in PROVE, out of DORMANT, at time 0 (R400, R503); every register reads its reset value, among them those of
the tables of the governor, the buffers, the collimator, HBM and the fault reactions (R19, R524, R547); the state is sound. That the model
starts right after DORMANT exit is its choice (log 3). -/
def Obligations.ResetHolds : Prop :=
  State.reset.mode = .prove ∧ State.reset.prev = .dormant ∧ State.reset.tb = 0 ∧ State.reset.pending = [] ∧ State.reset.out = [] ∧
    (∀ k, State.reset.word k = resetWord k) ∧ State.reset.get R.PACE_CTRL.SETTLE = 4 ∧ State.reset.get R.PACE_DEFICIT.LIMIT = 16 ∧
    State.reset.get R.PACE_TARGET.GUARD = 2200 ∧ State.reset.get R.PACE_TARGET.TARGET = 2250 ∧ State.reset.get R.BUF_POOL.FREE = 786432 ∧
    State.reset.get R.COL_STARVE_LIMIT.LIMIT = 500 ∧ (∀ o, o < 96 → State.reset.get (R.COL_GATE.STATE o) = 255) ∧
    State.reset.get R.HBM_CFG.AGE_LIMIT = 20 ∧ State.reset.get R.HBM_SKEW_CFG.THRESH = 512 ∧ State.reset.get R.CMD_CFG.GATE_TIMEOUT = 1000 ∧
    State.reset.get R.KEEP_THERM.TRIP = 108 ∧ State.reset.bit (R.FLT_REACT.HOLD 0) = true ∧ State.reset.bit (R.FLT_REACT.IRQ 0) = true ∧
    (∀ n, 64 ≤ n → n < 240 → State.reset.bit (R.FLT_REACT.IRQ n) = true ∧ State.reset.bit (R.FLT_REACT.CHIP n) = false) ∧
    (∀ n, n < 1024 → State.reset.wm n = false) ∧ State.reset.sound ∧ State.reset.regsCanonical

/-- Every command completes in every state; one whose operands name nothing the device has changes nothing but what follows every command
(log 5, the model's choice). -/
def Obligations.WellFormedCommandsComplete : Prop :=
  ∀ (s : State) (c : Instr), (Instr.wf c = true → ∃ t, exec c s = .next t) ∧ (Instr.wf c = false → exec c s = .next s.settle)

/-- Whatever the state before, a step leaves every watermark in the state that its thresholds and occupancy give it (R65), every hold
clock running exactly while a hold is in force (R307), SWC_HOLD.NOW at the number of cut-through descriptors held (R287), and no cell
withheld from allocation (R263). -/
def Obligations.EveryStepLeavesTheStateSound : Prop :=
  ∀ s t : State, step s = .next t → t.sound

/-- The modes change only along the table of R503: SERVE is entered from LOAD alone, after step L4, LOAD from PROVE, PROVE from DORMANT with both pins
high and the core rails good, HOLD-UP from a powered mode, and SAFE from PROVE, LOAD or SERVE; HOLD-UP is left for DORMANT alone; and TOP_MODE names the mode
before each change. SAFE is entered so from every state in which a chip reset waits in PROVE, LOAD or SERVE alone, and every step keeps that
(R504, R525, R526). -/
def Obligations.ModesChangeAsListed : Prop :=
  ∀ s t : State, step s = .next t →
    (t.mode = .serve → s.mode = .serve ∨ (s.mode = .load ∧ s.boot.epochWritten = true)) ∧ (t.mode = .load → s.mode = .load ∨ s.mode = .prove) ∧
      (t.mode = .prove → s.mode = .prove ∨
        (s.mode = .dormant ∧ s.power.resetN = true ∧ s.power.pwrfailN = true ∧ s.power.railsGood = true)) ∧
      (t.mode = .holdUp → s.mode = .holdUp ∨ s.powered) ∧ (t.mode ≠ s.mode → t.prev = s.mode) ∧
      ((s.fault.chipReset = true → s.mode = .prove ∨ s.mode = .load ∨ s.mode = .serve) →
        (t.fault.chipReset = true → t.mode = .prove ∨ t.mode = .load ∨ t.mode = .serve) ∧
          (t.mode = .safe → s.powered) ∧ (s.mode = .holdUp → t.mode = .holdUp ∨ t.mode = .dormant) ∧
          (s.mode = .dormant → t.mode = .dormant ∨ t.mode = .prove))

/-! ### What table commands leave in a table (R202, R205, R208, R217, R220) -/

/-- What TBL_INSERT and TBL_DELETE of one image leave behind. A new entry of an exact-match table stands in a free way of its first
candidate bucket with its result, owner and flags, born at the staged version under VERSIONED; with REPLACE an unversioned one takes the
place of the entry of its key; an unversioned delete leaves the way without an entry, a versioned one leaves the entry dying at the staged
version. A prefix holds its result, or under VERSIONED the change staged; a deleted one holds none. TBL_FLUSH_PORT of one table counts the
owner's entries, and unversioned it leaves none of them (R202, R205, R208, R217, R220). -/
def Obligations.TableCommandsTakeEffect : Prop :=
  (∀ (s : State) (seq tb key w : Nat) (c : OpenCmd) (images : List Byte) (e : Entry), s.changesOne seq 0x01 7 c → c.op 16 1 = tb →
    (s.get (R.TBL_DESC.KIND tb) = 2 ∧ s.get (R.TBL_DESC.KEYN tb) ≤ 16 ∨
      s.get (R.TBL_DESC.KIND tb) = 3 ∧ s.get (R.TBL_DESC.KEYN tb) ≤ 80 ∧ s.get (R.TBL_DESC.BBITS tb) ≤ 28 ∧
        (s.freeRecord tb (4 * 2 ^ s.get (R.TBL_DESC.BBITS tb)) 0).isSome = true) →
    s.imgGood tb (tblImage images 0) true = true → key = imgKey (tblImage images 0) (s.get (R.TBL_DESC.KEYN tb)) →
    ((c.op 17 1).testBit 0 = true → s.staged ≠ none) →
    e = ⟨key, imgResult (tblImage images 0) (resultBytes (s.get (R.TBL_DESC.KIND tb))), imgOwner (tblImage images 0),
      insertFlags ((c.op 17 1).testBit 2) (if (c.op 17 1).testBit 0 then s.staged else none)⟩ →
    (s.placesOf tb key = [] → s.freeWay tb (s.bucketOf tb 0 key) = some w →
      ∃ t, exec (.tblInsert seq images) s = .next t ∧ t.outcomeOf seq = some (outcomeArea 0 0 0 s.now [(16, 2, 1)]) ∧
        t.entryAt tb (s.bucketOf tb 0 key) w = e) ∧
    (∀ x rest, s.placesOf tb key = x :: rest → c.op 17 1 % 4 = 2 →
      ∃ t, exec (.tblInsert seq images) s = .next t ∧ t.outcomeOf seq = some (outcomeArea 0 0 0 s.now [(16, 2, 1)]) ∧
        t.entryAt tb x.1 x.2 = e) ∧
    (∀ x rest, s.placesOf tb key = x :: rest → c.op 17 1 % 4 = 0 →
      ∃ t, exec (.tblInsert seq images) s = .next t ∧ t.outcomeOf seq = some (outcomeArea 1 9 0 0 [(16, 2, 0)]) ∧ t.tbl = s.tbl)) ∧
  (∀ (s : State) (seq tb key : Nat) (c : OpenCmd) (images : List Byte), s.changesOne seq 0x02 1 c → c.op 16 1 = tb →
    exactKind (s.get (R.TBL_DESC.KIND tb)) = true → s.imgGood tb (tblImage images 0) true = true →
    key = imgKey (tblImage images 0) (s.get (R.TBL_DESC.KEYN tb)) →
    (c.op 17 1 = 0 → ∀ x rest, s.placesOf tb key = x :: rest → ∃ t, exec (.tblDelete seq images) s = .next t ∧
      t.outcomeOf seq = some (outcomeArea 0 0 0 s.now [(16, 2, 1)]) ∧ (t.entryAt tb x.1 x.2).valid = false) ∧
    (c.op 17 1 = 1 → ∀ v x, s.staged = some v → s.presentAt tb key (some v) = some x → ∃ t, exec (.tblDelete seq images) s = .next t ∧
      t.outcomeOf seq = some (outcomeArea 0 0 0 s.now [(16, 2, 1)]) ∧
      (t.entryAt tb x.1 x.2).dying = true ∧ (t.entryAt tb x.1 x.2).death = v) ∧
    (c.op 17 1 = 0 → s.placesOf tb key = [] → ∃ t, exec (.tblDelete seq images) s = .next t ∧
      t.outcomeOf seq = some (outcomeArea 1 0xA 0 0 [(16, 2, 0)]) ∧ t.tbl = s.tbl)) ∧
  (∀ (s u : State) (seq tb : Nat) (c : OpenCmd) (images : List Byte), c.op 16 1 = tb → s.get (R.TBL_DESC.KIND tb) = 1 →
    (s.changesOne seq 0x01 7 c →
      (s.emitAll (s.pfReads (s.cmdPf c) (c.op 24 8) 128)).insertImage tb (tblImage images 0) (c.op 17 1) = .inr u →
      ∃ t p, exec (.tblInsert seq images) s = .next t ∧ t.outcomeOf seq = some (outcomeArea 0 0 0 s.now [(16, 2, 1)]) ∧
        t.findPrefix tb (imgSub (tblImage images 0)) (imgPrefix (tblImage images 0) (imgSub (tblImage images 0))) = some p ∧
        ((c.op 17 1).testBit 0 = false → p.result = some (imgResult (tblImage images 0) 24) ∧ p.staged = none) ∧
        ((c.op 17 1).testBit 0 = true → ∀ v, s.staged = some v → p.staged = some (v, some (imgResult (tblImage images 0) 24)))) ∧
    (s.changesOne seq 0x02 1 c →
      (s.emitAll (s.pfReads (s.cmdPf c) (c.op 24 8) 128)).deleteImage tb (tblImage images 0) (c.op 17 1) = .inr u →
      ∀ p, s.findPrefix tb (imgSub (tblImage images 0)) (imgPrefix (tblImage images 0) (imgSub (tblImage images 0))) = some p →
      ∃ t, exec (.tblDelete seq images) s = .next t ∧ t.outcomeOf seq = some (outcomeArea 0 0 0 s.now [(16, 2, 1)]) ∧
        (c.op 17 1 = 0 → ∀ q ∈ t.tbl.prefixes, q.id ≠ p.id) ∧
        (c.op 17 1 = 1 → ∀ v, s.staged = some v → ∃ q ∈ t.tbl.prefixes, q.id = p.id ∧ q.staged = some (v, none)))) ∧
  (∀ (s : State) (seq tb : Nat) (c : OpenCmd) (hits : List (Nat × Entry)), s.begins seq 0x05 c → c.formed [(18, 2), (24, 40)] = true →
    c.op 17 1 ≤ 3 → c.op 20 4 < 2 ^ 21 → c.op 16 1 = tb → tb ≠ 0xFF → exactKind (s.get (R.TBL_DESC.KIND tb)) = true →
    s.tbl.fresh = [] → ((c.op 17 1).testBit 0 = true → s.staged ≠ none) →
    hits = (s.entriesOf tb).filter (fun e => e.2.owner == c.op 20 4 && (!e.2.static || (c.op 17 1).testBit 1) &&
      (if (c.op 17 1).testBit 0 then (match s.staged with | some v => e.2.live s.oldest v | none => false) else true)) →
    ∃ t, exec (.tblFlushPort seq) s = .next t ∧
      t.outcomeOf seq = some (outcomeArea 0 0 0 (if hits = [] then 0 else s.now) [(16, 4, hits.length)]) ∧
      ((c.op 17 1).testBit 0 = false → ∀ e ∈ hits, (t.entryAt tb (e.1 / 4) (e.1 % 4)).valid = false))

/-! ### What the words and the verdict of a prism do (R99, R113 to R124, R126, R131, R136, R237 to R247) -/

/-- PRISM_STEP on a packet. A word of DWELL above 0 waits, and lands at its last step: its writes prevail in the order ALU0, ALU1, MOVE, and
no word writes the nibbles that are read-only (R113, R114, R116). A word whose predicate fails has no effect (R121). SEQ gives the next
word (R118). A word whose GUARD is not the phase is dropped and captured (R99, R100); a reserved encoding raises the exception SEQ
(R119, R136). A lookup returns its window and status when it is due (R87, R126). At the handoff a DROP counts its reason, an EXCEPT gives the
packet with its vector to the exception role, and a FORWARD takes the edits of its list: a tag pushed, an ESP packet sealed, a failing edit
dropped (R131, R237, R239 to R242, R247). -/
def Obligations.PrismWordsTakeEffect : Prop :=
  (∀ (s : State) (k i j : Nat) (late : Bool) (p : Pkt) (f : Flight) (w : Work), s.servesOne k i j p f w → f.work.looks = [] →
    (∀ r, w.run = some r → 1 < r.left → ∃ t x, exec (.prismStep k late) s = .next t ∧ (t.prism k).flights.head? = some x ∧
      x = { f with age := f.age + 1, work := { w with run := some { r with left := r.left - 1 } } } ∧
      s.kept { t with code := s.code, free := s.free } [] fun q => q = R.CNT_LOUPE_STAT.DEPTH.off) ∧
    (∀ r, w.run = some r → r.left = 1 → r.holds = true → mMeta r.word / 2 ^ 14 = 0 → mEmit r.word / 128 = 0 → r.cursor = none →
      (mSeq r.word = 0 ∧ r.addr + 1 < 2048 ∨ mSeq r.word = 1 ∧ mTarget r.word < 2048 ∨ mSeq r.word = 2 ∧ r.addr + 1 < 2048 ∧
        mTarget r.word < 2048 ∧ condReserved (mCond r.word) = false ∨ mSeq r.word = 4 ∧ w.sp < 7 ∧ mTarget r.word < 2048 ∨
        mSeq r.word = 5 ∧ 0 < w.sp ∧ w.top < 2048 ∨ mSeq r.word = 7) →
      ∃ t x, exec (.prismStep k late) s = .next t ∧ (t.prism k).flights.head? = some x ∧ x.age = f.age + 1 ∧ x.pkt = some p ∧
        x.work.run = none ∧ x.work.vec = r.writes.foldl (fun v e => vput v e.1 e.2.1 e.2.2) w.vec ∧
        x.work.f0 = r.alu0.getD w.f0 ∧ x.work.f1 = r.alu1.getD w.f1 ∧ x.work.verdict = w.verdict ∧
        (mSeq r.word = 0 → x.work.upc = r.addr + 1) ∧ (mSeq r.word = 1 → x.work.upc = mTarget r.word) ∧
        (mSeq r.word = 2 → x.work.upc =
          if condHolds (w.flagsLand r) (mCond r.word) false false false then mTarget r.word else r.addr + 1) ∧
        (mSeq r.word = 4 → x.work.upc = mTarget r.word ∧ x.work.sp = w.sp + 1 ∧ x.work.stack = w.stack.take w.sp ++ [r.addr + 1]) ∧
        (mSeq r.word = 5 → x.work.upc = w.top ∧ x.work.sp = w.sp - 1) ∧ (mSeq r.word = 7 → x.work.done = true))) ∧
  (∀ (v : Vect) (a n x b l : Nat), 0 < n → a + n ≤ 1024 → b + l ≤ 1024 →
    (512 ≤ b → b + l ≤ 529 → vget (vput v a n x) b l = vget v b l) ∧ (633 ≤ b → b + l ≤ 636 → vget (vput v a n x) b l = vget v b l) ∧
    (b + l ≤ a ∨ a + n ≤ b → vget (vput v a n x) b l = vget v b l) ∧
    (a + n ≤ 512 ∨ (529 ≤ a ∧ a + n ≤ 633) ∨ 636 ≤ a → vget (vput v a n x) a n = x % 16 ^ n)) ∧
  (∀ (s : State) (k i j m : Nat) (late : Bool) (p : Pkt) (f : Flight) (w : Work), s.servesOne k i j p f w → f.work.looks = [] →
    s.issues k i f w m →
    (wordReserved m = true → ∃ t x, exec (.prismStep k late) s = .next t ∧ (t.prism k).flights.head? = some x ∧ x.pkt = none ∧
      t.word (R.CNT_REASON.COUNT 5).off = s.word (R.CNT_REASON.COUNT 5).off + 1 ∧ t.bit (faultBit 9) = true ∧
      t.bit (R.MCODE_FCAP.VALID (30 * k + i)) = true ∧ (s.bit (R.MCODE_FCAP.VALID (30 * k + i)) = false →
        t.get (R.MCODE_FCAP.CAUSE (30 * k + i)) = 1 ∧ t.get (R.MCODE_FCAP.MICROADDR (30 * k + i)) = w.upc)) ∧
    (wordReserved m = false → mSeq m ≠ 9 → mGuard m ≠ f.age % 2048 →
      ∃ t x, exec (.prismStep k late) s = .next t ∧ (t.prism k).flights.head? = some x ∧ x.pkt = none ∧
        t.word (R.CNT_REASON.COUNT 3).off = s.word (R.CNT_REASON.COUNT 3).off + 1 ∧ t.bit (faultBit 8) = true ∧
        t.word (R.PRISM_GUARD_COUNT.COUNT k).off = s.word (R.PRISM_GUARD_COUNT.COUNT k).off + 1 ∧
        t.bit (R.PRISM_GUARD_CAP.VALID k) = true ∧ (s.bit (R.PRISM_GUARD_CAP.VALID k) = false →
          t.get (R.PRISM_GUARD_CAP.FACET k) = i ∧ t.get (R.PRISM_GUARD_CAP.MICROADDR k) = w.upc ∧
          t.get (R.PRISM_GUARD_CAP.PHASE k) = f.age % 2048 ∧ t.get (R.PRISM_GUARD_CAP.GUARD k) = mGuard m)) ∧
    (wordReserved m = false → mSeq m = 0 → mGuard m = f.age % 2048 → w.upc + 1 < 2048 → mDwell m = 0 → mMeta m / 2 ^ 14 = 0 →
      (condReserved (mCond m) = false → condHolds w (mCond m) false false false = false →
        ∃ t x, exec (.prismStep k late) s = .next t ∧ (t.prism k).flights.head? = some x ∧
          x = { f with age := f.age + 1, work := { w with upc := w.upc + 1 } } ∧
          s.kept { t with code := s.code, free := s.free } [] fun q => q = R.CNT_LOUPE_STAT.DEPTH.off) ∧
      (condReserved (mCond m) = false → condHolds w (mCond m) false false false = true → lPort m = 63 → bitsGet (mCnt m) 8 2 = 0 →
        mLoupe m = false → mEmit m / 128 = 0 → mMove m / 2 ^ 26 = 0 → mAlu1 m / 2 ^ 27 = 0 → ∀ a n y fl,
        aluRun w.vec (mAlu0 m) = (some (a, n, y), some fl) →
        ∃ t x, exec (.prismStep k late) s = .next t ∧ (t.prism k).flights.head? = some x ∧
          x = { f with age := f.age + 1, work := { w with vec := vput w.vec a n y, f0 := fl, upc := w.upc + 1 } } ∧
          s.kept { t with code := s.code, free := s.free } [] fun q => q = R.CNT_LOUPE_STAT.DEPTH.off) ∧
      (mCond m = 0 → lPort m < 16 → bitsGet (mCnt m) 8 2 = 0 → mEmit m / 128 = 0 → mMove m / 2 ^ 26 = 0 → mAlu0 m / 2 ^ 27 = 0 →
        mAlu1 m / 2 ^ 27 = 0 →
        ∃ t x l, exec (.prismStep k late) s = .next t ∧ (t.prism k).flights.head? = some x ∧ x.work.vec = w.vec ∧ x.work.upc = w.upc + 1 ∧
          x.work.looks = [l] ∧ l.port = lPort m ∧ l.win = lWin m ∧ l.due = f.age + 12 ∧ l.issueTb = s.tb ∧
          l.key = vget w.vec (lKey m) (s.get (R.LENS_PROFILE.KLEN (lPort m) (lProfile m))) ∧
          l.status = (s.lensSearch (lPort m) (lProfile m) l.key p.stamp.ver).1 ∧
          l.value = (s.lensSearch (lPort m) (lProfile m) l.key p.stamp.ver).2.1))) ∧
  (∀ (s : State) (k i j : Nat) (p : Pkt) (f : Flight) (l : Lookup), s.servesOne k i j p f f.work → j ≠ 0 → f.work.run = none →
    f.work.done = true → f.work.looks = [l] → l.due = f.age → l.ready = true → l.win < 3 → l.status < 16 →
    ∃ t x, exec (.prismStep k false) s = .next t ∧ (t.prism k).flights.head? = some x ∧ x.work.looks = [] ∧
      winStatus x.work.vec l.win = l.status ∧ vget x.work.vec (winAddr l.win) 128 = l.value % 16 ^ 128 ∧
      ∀ b n, b + n ≤ 633 → vget x.work.vec b n = vget f.work.vec b n) ∧
  (∀ (s : State) (k : Nat) (late : Bool) (p : Pkt) (f : Flight), s.holdsOne k p f → f.work.looks = [] → f.age = s.startAge k f.bank 30 →
    f.work.verdict.copy = none → f.work.verdict.mirrors = [] →
    (f.work.verdict.kind = 2 → f.work.verdict.reason < 128 → ∃ t x, exec (.prismStep k late) s = .next t ∧
      (t.prism k).flights.head? = some x ∧ x.pkt = none ∧ t.word (R.CNT_REASON.COUNT f.work.verdict.reason).off =
        s.word (R.CNT_REASON.COUNT f.work.verdict.reason).off + 1) ∧
    (f.work.verdict.kind = 3 → ∃ t x q, exec (.prismStep k late) s = .next t ∧ (t.prism k).flights.head? = some x ∧ x.pkt = none ∧
      t.code.excepts = s.code.excepts ++ [(k, q)] ∧ q.reason = f.work.verdict.reason ∧ q.vector = f.work.vec ∧ q.bytes = p.bytes) ∧
    (∀ (p1 : Pkt) (list line op : Nat), f.work.verdict.kind = 1 → (s.forwardAim p f.work.vec f.work.verdict).1 = .inr (p1, list, []) →
      p1.group = false → f.work.verdict.dstKind = 3 → s.host.parked = [] → (s.placement p1.leaf).place ≠ some placeGone → list ≠ 0 →
      (s.directLine (s.get R.SEC_EDIT.LIST_TABLE) list).1 = .inr line → lget line 0 1 = 1 → op = lget line 8 8 →
      (∀ bytes, eOpc op = 1 → bytes = p.bytes.take (eOff f.work.vec op) ++ (beBytes 2 (eParam op) ++ beBytes 2 (vget f.work.vec (eArg op) 4)) ++
          p.bytes.drop (eOff f.work.vec op) → s.fitsPort p1 bytes = true →
        ∃ t x q, exec (.prismStep k late) s = .next t ∧ (t.prism k).flights.head? = some x ∧ x.pkt = some q ∧ x.decided = true ∧
          q.bytes = bytes ∧ q.fcs = frameCheck bytes ∧ q.leaf = p1.leaf) ∧
      (eOpc op = 0x21 → ∃ t x, exec (.prismStep k late) s = .next t ∧ (t.prism k).flights.head? = some x ∧ x.pkt = none ∧
        t.bit R.SEC_EDIT_CAP.VALID = true ∧ t.word (R.CNT_REASON.COUNT rEdit).off = s.word (R.CNT_REASON.COUNT rEdit).off + 1) ∧
      (∀ e u, eOpc op = 0x20 → s.espOp f.work.vec op { bytes := p.bytes } = (.ok e, u) → e.inserted = 0 → s.fitsPort p1 e.bytes = true →
        ∃ t x q, exec (.prismStep k late) s = .next t ∧ (t.prism k).flights.head? = some x ∧ x.pkt = some q ∧ q.bytes = e.bytes ∧
          q.fcs = frameCheck e.bytes ∧ t.tbl.lines = u.tbl.lines ∧
          ((eParam op).testBit 15 = false → (eParam op).testBit 8 = false → bitsGet (eParam op) 9 6 = 0 →
            eOff f.work.vec op ≤ p.bytes.length →
            let l0 := s.tline (s.saKey (vget f.work.vec (eArg op) 5) 0)
            slice e.bytes (eOff f.work.vec op) 8 = beBytes 4 (beField l0 36 4) ++ beBytes 4 (lget l0 40 8))))) 
end

