-- ==== Sys2Proof/Laws/State.lean ====
section
/-! SUPPORT. What each plain update of the state does to each of its fields. -/
namespace Sys2Proof.Machine

variable (s : State)

/-! ### setWord -/

@[simp] theorem State.setWord_pending (off : Nat) (v : Word) : (s.setWord off v).pending = s.pending := rfl
@[simp] theorem State.setWord_mode (off : Nat) (v : Word) : (s.setWord off v).mode = s.mode := rfl
@[simp] theorem State.setWord_prev (off : Nat) (v : Word) : (s.setWord off v).prev = s.prev := rfl
@[simp] theorem State.setWord_safeCause (off : Nat) (v : Word) : (s.setWord off v).safeCause = s.safeCause := rfl
@[simp] theorem State.setWord_tb (off : Nat) (v : Word) : (s.setWord off v).tb = s.tb := rfl
@[simp] theorem State.setWord_slew (off : Nat) (v : Word) : (s.setWord off v).slew = s.slew := rfl
@[simp] theorem State.setWord_fabSlew (off : Nat) (v : Word) : (s.setWord off v).fabSlew = s.fabSlew := rfl
@[simp] theorem State.setWord_free (off : Nat) (v : Word) : (s.setWord off v).free = s.free := rfl
@[simp] theorem State.setWord_out (off : Nat) (v : Word) : (s.setWord off v).out = s.out := rfl
@[simp] theorem State.setWord_pace (off : Nat) (v : Word) : (s.setWord off v).pace = s.pace := rfl
@[simp] theorem State.setWord_fault (off : Nat) (v : Word) : (s.setWord off v).fault = s.fault := rfl
@[simp] theorem State.setWord_power (off : Nat) (v : Word) : (s.setWord off v).power = s.power := rfl
@[simp] theorem State.setWord_cmd (off : Nat) (v : Word) : (s.setWord off v).cmd = s.cmd := rfl
@[simp] theorem State.setWord_boot (off : Nat) (v : Word) : (s.setWord off v).boot = s.boot := rfl
@[simp] theorem State.setWord_bist (off : Nat) (v : Word) : (s.setWord off v).bist = s.bist := rfl
@[simp] theorem State.setWord_cnt (off : Nat) (v : Word) : (s.setWord off v).cnt = s.cnt := rfl
@[simp] theorem State.setWord_buf (off : Nat) (v : Word) : (s.setWord off v).buf = s.buf := rfl
@[simp] theorem State.setWord_apr (off : Nat) (v : Word) : (s.setWord off v).apr = s.apr := rfl
@[simp] theorem State.setWord_col (off : Nat) (v : Word) : (s.setWord off v).col = s.col := rfl
@[simp] theorem State.setWord_mac (off : Nat) (v : Word) : (s.setWord off v).mac = s.mac := rfl
@[simp] theorem State.setWord_irises (off : Nat) (v : Word) : (s.setWord off v).irises = s.irises := rfl
@[simp] theorem State.setWord_fab (off : Nat) (v : Word) : (s.setWord off v).fab = s.fab := rfl
@[simp] theorem State.setWord_host (off : Nat) (v : Word) : (s.setWord off v).host = s.host := rfl
@[simp] theorem State.setWord_code (off : Nat) (v : Word) : (s.setWord off v).code = s.code := rfl
@[simp] theorem State.setWord_lens (off : Nat) (v : Word) : (s.setWord off v).lens = s.lens := rfl
@[simp] theorem State.setWord_tbl (off : Nat) (v : Word) : (s.setWord off v).tbl = s.tbl := rfl
@[simp] theorem State.setWord_ver (off : Nat) (v : Word) : (s.setWord off v).ver = s.ver := rfl
@[simp] theorem State.setWord_mig (off : Nat) (v : Word) : (s.setWord off v).mig = s.mig := rfl
@[simp] theorem State.setWord_mem (off : Nat) (v : Word) : (s.setWord off v).mem = s.mem := rfl
@[simp] theorem State.setWord_loss (off : Nat) (v : Word) : (s.setWord off v).loss = s.loss := rfl
@[simp] theorem State.setWord_freed (off : Nat) (v : Word) : (s.setWord off v).freed = s.freed := rfl
@[simp] theorem State.setWord_regs (off : Nat) (v : Word) : (s.setWord off v).regs = s.regs.put resetWord off v := rfl

/-! ### set -/

@[simp] theorem State.set_pending (l : Loc) (v : Nat) : (s.set l v).pending = s.pending := rfl
@[simp] theorem State.set_mode (l : Loc) (v : Nat) : (s.set l v).mode = s.mode := rfl
@[simp] theorem State.set_prev (l : Loc) (v : Nat) : (s.set l v).prev = s.prev := rfl
@[simp] theorem State.set_safeCause (l : Loc) (v : Nat) : (s.set l v).safeCause = s.safeCause := rfl
@[simp] theorem State.set_tb (l : Loc) (v : Nat) : (s.set l v).tb = s.tb := rfl
@[simp] theorem State.set_slew (l : Loc) (v : Nat) : (s.set l v).slew = s.slew := rfl
@[simp] theorem State.set_fabSlew (l : Loc) (v : Nat) : (s.set l v).fabSlew = s.fabSlew := rfl
@[simp] theorem State.set_free (l : Loc) (v : Nat) : (s.set l v).free = s.free := rfl
@[simp] theorem State.set_out (l : Loc) (v : Nat) : (s.set l v).out = s.out := rfl
@[simp] theorem State.set_pace (l : Loc) (v : Nat) : (s.set l v).pace = s.pace := rfl
@[simp] theorem State.set_fault (l : Loc) (v : Nat) : (s.set l v).fault = s.fault := rfl
@[simp] theorem State.set_power (l : Loc) (v : Nat) : (s.set l v).power = s.power := rfl
@[simp] theorem State.set_cmd (l : Loc) (v : Nat) : (s.set l v).cmd = s.cmd := rfl
@[simp] theorem State.set_boot (l : Loc) (v : Nat) : (s.set l v).boot = s.boot := rfl
@[simp] theorem State.set_bist (l : Loc) (v : Nat) : (s.set l v).bist = s.bist := rfl
@[simp] theorem State.set_cnt (l : Loc) (v : Nat) : (s.set l v).cnt = s.cnt := rfl
@[simp] theorem State.set_buf (l : Loc) (v : Nat) : (s.set l v).buf = s.buf := rfl
@[simp] theorem State.set_apr (l : Loc) (v : Nat) : (s.set l v).apr = s.apr := rfl
@[simp] theorem State.set_col (l : Loc) (v : Nat) : (s.set l v).col = s.col := rfl
@[simp] theorem State.set_mac (l : Loc) (v : Nat) : (s.set l v).mac = s.mac := rfl
@[simp] theorem State.set_irises (l : Loc) (v : Nat) : (s.set l v).irises = s.irises := rfl
@[simp] theorem State.set_fab (l : Loc) (v : Nat) : (s.set l v).fab = s.fab := rfl
@[simp] theorem State.set_host (l : Loc) (v : Nat) : (s.set l v).host = s.host := rfl
@[simp] theorem State.set_code (l : Loc) (v : Nat) : (s.set l v).code = s.code := rfl
@[simp] theorem State.set_lens (l : Loc) (v : Nat) : (s.set l v).lens = s.lens := rfl
@[simp] theorem State.set_tbl (l : Loc) (v : Nat) : (s.set l v).tbl = s.tbl := rfl
@[simp] theorem State.set_ver (l : Loc) (v : Nat) : (s.set l v).ver = s.ver := rfl
@[simp] theorem State.set_mig (l : Loc) (v : Nat) : (s.set l v).mig = s.mig := rfl
@[simp] theorem State.set_mem (l : Loc) (v : Nat) : (s.set l v).mem = s.mem := rfl
@[simp] theorem State.set_loss (l : Loc) (v : Nat) : (s.set l v).loss = s.loss := rfl
@[simp] theorem State.set_freed (l : Loc) (v : Nat) : (s.set l v).freed = s.freed := rfl

/-! ### setBit -/

@[simp] theorem State.setBit_pending (l : Loc) (b : Bool) : (s.setBit l b).pending = s.pending := rfl
@[simp] theorem State.setBit_mode (l : Loc) (b : Bool) : (s.setBit l b).mode = s.mode := rfl
@[simp] theorem State.setBit_prev (l : Loc) (b : Bool) : (s.setBit l b).prev = s.prev := rfl
@[simp] theorem State.setBit_safeCause (l : Loc) (b : Bool) : (s.setBit l b).safeCause = s.safeCause := rfl
@[simp] theorem State.setBit_tb (l : Loc) (b : Bool) : (s.setBit l b).tb = s.tb := rfl
@[simp] theorem State.setBit_slew (l : Loc) (b : Bool) : (s.setBit l b).slew = s.slew := rfl
@[simp] theorem State.setBit_fabSlew (l : Loc) (b : Bool) : (s.setBit l b).fabSlew = s.fabSlew := rfl
@[simp] theorem State.setBit_free (l : Loc) (b : Bool) : (s.setBit l b).free = s.free := rfl
@[simp] theorem State.setBit_out (l : Loc) (b : Bool) : (s.setBit l b).out = s.out := rfl
@[simp] theorem State.setBit_pace (l : Loc) (b : Bool) : (s.setBit l b).pace = s.pace := rfl
@[simp] theorem State.setBit_fault (l : Loc) (b : Bool) : (s.setBit l b).fault = s.fault := rfl
@[simp] theorem State.setBit_power (l : Loc) (b : Bool) : (s.setBit l b).power = s.power := rfl
@[simp] theorem State.setBit_cmd (l : Loc) (b : Bool) : (s.setBit l b).cmd = s.cmd := rfl
@[simp] theorem State.setBit_boot (l : Loc) (b : Bool) : (s.setBit l b).boot = s.boot := rfl
@[simp] theorem State.setBit_bist (l : Loc) (b : Bool) : (s.setBit l b).bist = s.bist := rfl
@[simp] theorem State.setBit_cnt (l : Loc) (b : Bool) : (s.setBit l b).cnt = s.cnt := rfl
@[simp] theorem State.setBit_buf (l : Loc) (b : Bool) : (s.setBit l b).buf = s.buf := rfl
@[simp] theorem State.setBit_apr (l : Loc) (b : Bool) : (s.setBit l b).apr = s.apr := rfl
@[simp] theorem State.setBit_col (l : Loc) (b : Bool) : (s.setBit l b).col = s.col := rfl
@[simp] theorem State.setBit_mac (l : Loc) (b : Bool) : (s.setBit l b).mac = s.mac := rfl
@[simp] theorem State.setBit_irises (l : Loc) (b : Bool) : (s.setBit l b).irises = s.irises := rfl
@[simp] theorem State.setBit_fab (l : Loc) (b : Bool) : (s.setBit l b).fab = s.fab := rfl
@[simp] theorem State.setBit_host (l : Loc) (b : Bool) : (s.setBit l b).host = s.host := rfl
@[simp] theorem State.setBit_code (l : Loc) (b : Bool) : (s.setBit l b).code = s.code := rfl
@[simp] theorem State.setBit_lens (l : Loc) (b : Bool) : (s.setBit l b).lens = s.lens := rfl
@[simp] theorem State.setBit_tbl (l : Loc) (b : Bool) : (s.setBit l b).tbl = s.tbl := rfl
@[simp] theorem State.setBit_ver (l : Loc) (b : Bool) : (s.setBit l b).ver = s.ver := rfl
@[simp] theorem State.setBit_mig (l : Loc) (b : Bool) : (s.setBit l b).mig = s.mig := rfl
@[simp] theorem State.setBit_mem (l : Loc) (b : Bool) : (s.setBit l b).mem = s.mem := rfl
@[simp] theorem State.setBit_loss (l : Loc) (b : Bool) : (s.setBit l b).loss = s.loss := rfl
@[simp] theorem State.setBit_freed (l : Loc) (b : Bool) : (s.setBit l b).freed = s.freed := rfl

/-! ### sat -/

@[simp] theorem State.sat_pending (l : Loc) (k : Nat) : (s.sat l k).pending = s.pending := rfl
@[simp] theorem State.sat_mode (l : Loc) (k : Nat) : (s.sat l k).mode = s.mode := rfl
@[simp] theorem State.sat_prev (l : Loc) (k : Nat) : (s.sat l k).prev = s.prev := rfl
@[simp] theorem State.sat_safeCause (l : Loc) (k : Nat) : (s.sat l k).safeCause = s.safeCause := rfl
@[simp] theorem State.sat_tb (l : Loc) (k : Nat) : (s.sat l k).tb = s.tb := rfl
@[simp] theorem State.sat_slew (l : Loc) (k : Nat) : (s.sat l k).slew = s.slew := rfl
@[simp] theorem State.sat_fabSlew (l : Loc) (k : Nat) : (s.sat l k).fabSlew = s.fabSlew := rfl
@[simp] theorem State.sat_free (l : Loc) (k : Nat) : (s.sat l k).free = s.free := rfl
@[simp] theorem State.sat_out (l : Loc) (k : Nat) : (s.sat l k).out = s.out := rfl
@[simp] theorem State.sat_pace (l : Loc) (k : Nat) : (s.sat l k).pace = s.pace := rfl
@[simp] theorem State.sat_fault (l : Loc) (k : Nat) : (s.sat l k).fault = s.fault := rfl
@[simp] theorem State.sat_power (l : Loc) (k : Nat) : (s.sat l k).power = s.power := rfl
@[simp] theorem State.sat_cmd (l : Loc) (k : Nat) : (s.sat l k).cmd = s.cmd := rfl
@[simp] theorem State.sat_boot (l : Loc) (k : Nat) : (s.sat l k).boot = s.boot := rfl
@[simp] theorem State.sat_bist (l : Loc) (k : Nat) : (s.sat l k).bist = s.bist := rfl
@[simp] theorem State.sat_cnt (l : Loc) (k : Nat) : (s.sat l k).cnt = s.cnt := rfl
@[simp] theorem State.sat_buf (l : Loc) (k : Nat) : (s.sat l k).buf = s.buf := rfl
@[simp] theorem State.sat_apr (l : Loc) (k : Nat) : (s.sat l k).apr = s.apr := rfl
@[simp] theorem State.sat_col (l : Loc) (k : Nat) : (s.sat l k).col = s.col := rfl
@[simp] theorem State.sat_mac (l : Loc) (k : Nat) : (s.sat l k).mac = s.mac := rfl
@[simp] theorem State.sat_irises (l : Loc) (k : Nat) : (s.sat l k).irises = s.irises := rfl
@[simp] theorem State.sat_fab (l : Loc) (k : Nat) : (s.sat l k).fab = s.fab := rfl
@[simp] theorem State.sat_host (l : Loc) (k : Nat) : (s.sat l k).host = s.host := rfl
@[simp] theorem State.sat_code (l : Loc) (k : Nat) : (s.sat l k).code = s.code := rfl
@[simp] theorem State.sat_lens (l : Loc) (k : Nat) : (s.sat l k).lens = s.lens := rfl
@[simp] theorem State.sat_tbl (l : Loc) (k : Nat) : (s.sat l k).tbl = s.tbl := rfl
@[simp] theorem State.sat_ver (l : Loc) (k : Nat) : (s.sat l k).ver = s.ver := rfl
@[simp] theorem State.sat_mig (l : Loc) (k : Nat) : (s.sat l k).mig = s.mig := rfl
@[simp] theorem State.sat_mem (l : Loc) (k : Nat) : (s.sat l k).mem = s.mem := rfl
@[simp] theorem State.sat_loss (l : Loc) (k : Nat) : (s.sat l k).loss = s.loss := rfl
@[simp] theorem State.sat_freed (l : Loc) (k : Nat) : (s.sat l k).freed = s.freed := rfl

/-! ### wrap -/

@[simp] theorem State.wrap_pending (l : Loc) (k : Nat) : (s.wrap l k).pending = s.pending := rfl
@[simp] theorem State.wrap_mode (l : Loc) (k : Nat) : (s.wrap l k).mode = s.mode := rfl
@[simp] theorem State.wrap_prev (l : Loc) (k : Nat) : (s.wrap l k).prev = s.prev := rfl
@[simp] theorem State.wrap_safeCause (l : Loc) (k : Nat) : (s.wrap l k).safeCause = s.safeCause := rfl
@[simp] theorem State.wrap_tb (l : Loc) (k : Nat) : (s.wrap l k).tb = s.tb := rfl
@[simp] theorem State.wrap_slew (l : Loc) (k : Nat) : (s.wrap l k).slew = s.slew := rfl
@[simp] theorem State.wrap_fabSlew (l : Loc) (k : Nat) : (s.wrap l k).fabSlew = s.fabSlew := rfl
@[simp] theorem State.wrap_free (l : Loc) (k : Nat) : (s.wrap l k).free = s.free := rfl
@[simp] theorem State.wrap_out (l : Loc) (k : Nat) : (s.wrap l k).out = s.out := rfl
@[simp] theorem State.wrap_pace (l : Loc) (k : Nat) : (s.wrap l k).pace = s.pace := rfl
@[simp] theorem State.wrap_fault (l : Loc) (k : Nat) : (s.wrap l k).fault = s.fault := rfl
@[simp] theorem State.wrap_power (l : Loc) (k : Nat) : (s.wrap l k).power = s.power := rfl
@[simp] theorem State.wrap_cmd (l : Loc) (k : Nat) : (s.wrap l k).cmd = s.cmd := rfl
@[simp] theorem State.wrap_boot (l : Loc) (k : Nat) : (s.wrap l k).boot = s.boot := rfl
@[simp] theorem State.wrap_bist (l : Loc) (k : Nat) : (s.wrap l k).bist = s.bist := rfl
@[simp] theorem State.wrap_cnt (l : Loc) (k : Nat) : (s.wrap l k).cnt = s.cnt := rfl
@[simp] theorem State.wrap_buf (l : Loc) (k : Nat) : (s.wrap l k).buf = s.buf := rfl
@[simp] theorem State.wrap_apr (l : Loc) (k : Nat) : (s.wrap l k).apr = s.apr := rfl
@[simp] theorem State.wrap_col (l : Loc) (k : Nat) : (s.wrap l k).col = s.col := rfl
@[simp] theorem State.wrap_mac (l : Loc) (k : Nat) : (s.wrap l k).mac = s.mac := rfl
@[simp] theorem State.wrap_irises (l : Loc) (k : Nat) : (s.wrap l k).irises = s.irises := rfl
@[simp] theorem State.wrap_fab (l : Loc) (k : Nat) : (s.wrap l k).fab = s.fab := rfl
@[simp] theorem State.wrap_host (l : Loc) (k : Nat) : (s.wrap l k).host = s.host := rfl
@[simp] theorem State.wrap_code (l : Loc) (k : Nat) : (s.wrap l k).code = s.code := rfl
@[simp] theorem State.wrap_lens (l : Loc) (k : Nat) : (s.wrap l k).lens = s.lens := rfl
@[simp] theorem State.wrap_tbl (l : Loc) (k : Nat) : (s.wrap l k).tbl = s.tbl := rfl
@[simp] theorem State.wrap_ver (l : Loc) (k : Nat) : (s.wrap l k).ver = s.ver := rfl
@[simp] theorem State.wrap_mig (l : Loc) (k : Nat) : (s.wrap l k).mig = s.mig := rfl
@[simp] theorem State.wrap_mem (l : Loc) (k : Nat) : (s.wrap l k).mem = s.mem := rfl
@[simp] theorem State.wrap_loss (l : Loc) (k : Nat) : (s.wrap l k).loss = s.loss := rfl
@[simp] theorem State.wrap_freed (l : Loc) (k : Nat) : (s.wrap l k).freed = s.freed := rfl

/-! ### dec -/

@[simp] theorem State.dec_pending (l : Loc) (k : Nat) : (s.dec l k).pending = s.pending := rfl
@[simp] theorem State.dec_mode (l : Loc) (k : Nat) : (s.dec l k).mode = s.mode := rfl
@[simp] theorem State.dec_prev (l : Loc) (k : Nat) : (s.dec l k).prev = s.prev := rfl
@[simp] theorem State.dec_safeCause (l : Loc) (k : Nat) : (s.dec l k).safeCause = s.safeCause := rfl
@[simp] theorem State.dec_tb (l : Loc) (k : Nat) : (s.dec l k).tb = s.tb := rfl
@[simp] theorem State.dec_slew (l : Loc) (k : Nat) : (s.dec l k).slew = s.slew := rfl
@[simp] theorem State.dec_fabSlew (l : Loc) (k : Nat) : (s.dec l k).fabSlew = s.fabSlew := rfl
@[simp] theorem State.dec_free (l : Loc) (k : Nat) : (s.dec l k).free = s.free := rfl
@[simp] theorem State.dec_out (l : Loc) (k : Nat) : (s.dec l k).out = s.out := rfl
@[simp] theorem State.dec_pace (l : Loc) (k : Nat) : (s.dec l k).pace = s.pace := rfl
@[simp] theorem State.dec_fault (l : Loc) (k : Nat) : (s.dec l k).fault = s.fault := rfl
@[simp] theorem State.dec_power (l : Loc) (k : Nat) : (s.dec l k).power = s.power := rfl
@[simp] theorem State.dec_cmd (l : Loc) (k : Nat) : (s.dec l k).cmd = s.cmd := rfl
@[simp] theorem State.dec_boot (l : Loc) (k : Nat) : (s.dec l k).boot = s.boot := rfl
@[simp] theorem State.dec_bist (l : Loc) (k : Nat) : (s.dec l k).bist = s.bist := rfl
@[simp] theorem State.dec_cnt (l : Loc) (k : Nat) : (s.dec l k).cnt = s.cnt := rfl
@[simp] theorem State.dec_buf (l : Loc) (k : Nat) : (s.dec l k).buf = s.buf := rfl
@[simp] theorem State.dec_apr (l : Loc) (k : Nat) : (s.dec l k).apr = s.apr := rfl
@[simp] theorem State.dec_col (l : Loc) (k : Nat) : (s.dec l k).col = s.col := rfl
@[simp] theorem State.dec_mac (l : Loc) (k : Nat) : (s.dec l k).mac = s.mac := rfl
@[simp] theorem State.dec_irises (l : Loc) (k : Nat) : (s.dec l k).irises = s.irises := rfl
@[simp] theorem State.dec_fab (l : Loc) (k : Nat) : (s.dec l k).fab = s.fab := rfl
@[simp] theorem State.dec_host (l : Loc) (k : Nat) : (s.dec l k).host = s.host := rfl
@[simp] theorem State.dec_code (l : Loc) (k : Nat) : (s.dec l k).code = s.code := rfl
@[simp] theorem State.dec_lens (l : Loc) (k : Nat) : (s.dec l k).lens = s.lens := rfl
@[simp] theorem State.dec_tbl (l : Loc) (k : Nat) : (s.dec l k).tbl = s.tbl := rfl
@[simp] theorem State.dec_ver (l : Loc) (k : Nat) : (s.dec l k).ver = s.ver := rfl
@[simp] theorem State.dec_mig (l : Loc) (k : Nat) : (s.dec l k).mig = s.mig := rfl
@[simp] theorem State.dec_mem (l : Loc) (k : Nat) : (s.dec l k).mem = s.mem := rfl
@[simp] theorem State.dec_loss (l : Loc) (k : Nat) : (s.dec l k).loss = s.loss := rfl
@[simp] theorem State.dec_freed (l : Loc) (k : Nat) : (s.dec l k).freed = s.freed := rfl

/-! ### emit -/

@[simp] theorem State.emit_pending (e : Emit) : (s.emit e).pending = s.pending := rfl
@[simp] theorem State.emit_mode (e : Emit) : (s.emit e).mode = s.mode := rfl
@[simp] theorem State.emit_prev (e : Emit) : (s.emit e).prev = s.prev := rfl
@[simp] theorem State.emit_safeCause (e : Emit) : (s.emit e).safeCause = s.safeCause := rfl
@[simp] theorem State.emit_tb (e : Emit) : (s.emit e).tb = s.tb := rfl
@[simp] theorem State.emit_slew (e : Emit) : (s.emit e).slew = s.slew := rfl
@[simp] theorem State.emit_fabSlew (e : Emit) : (s.emit e).fabSlew = s.fabSlew := rfl
@[simp] theorem State.emit_free (e : Emit) : (s.emit e).free = s.free := rfl
@[simp] theorem State.emit_regs (e : Emit) : (s.emit e).regs = s.regs := rfl
@[simp] theorem State.emit_pace (e : Emit) : (s.emit e).pace = s.pace := rfl
@[simp] theorem State.emit_fault (e : Emit) : (s.emit e).fault = s.fault := rfl
@[simp] theorem State.emit_power (e : Emit) : (s.emit e).power = s.power := rfl
@[simp] theorem State.emit_cmd (e : Emit) : (s.emit e).cmd = s.cmd := rfl
@[simp] theorem State.emit_boot (e : Emit) : (s.emit e).boot = s.boot := rfl
@[simp] theorem State.emit_bist (e : Emit) : (s.emit e).bist = s.bist := rfl
@[simp] theorem State.emit_cnt (e : Emit) : (s.emit e).cnt = s.cnt := rfl
@[simp] theorem State.emit_buf (e : Emit) : (s.emit e).buf = s.buf := rfl
@[simp] theorem State.emit_apr (e : Emit) : (s.emit e).apr = s.apr := rfl
@[simp] theorem State.emit_col (e : Emit) : (s.emit e).col = s.col := rfl
@[simp] theorem State.emit_mac (e : Emit) : (s.emit e).mac = s.mac := rfl
@[simp] theorem State.emit_irises (e : Emit) : (s.emit e).irises = s.irises := rfl
@[simp] theorem State.emit_fab (e : Emit) : (s.emit e).fab = s.fab := rfl
@[simp] theorem State.emit_host (e : Emit) : (s.emit e).host = s.host := rfl
@[simp] theorem State.emit_code (e : Emit) : (s.emit e).code = s.code := rfl
@[simp] theorem State.emit_lens (e : Emit) : (s.emit e).lens = s.lens := rfl
@[simp] theorem State.emit_tbl (e : Emit) : (s.emit e).tbl = s.tbl := rfl
@[simp] theorem State.emit_ver (e : Emit) : (s.emit e).ver = s.ver := rfl
@[simp] theorem State.emit_mig (e : Emit) : (s.emit e).mig = s.mig := rfl
@[simp] theorem State.emit_mem (e : Emit) : (s.emit e).mem = s.mem := rfl
@[simp] theorem State.emit_loss (e : Emit) : (s.emit e).loss = s.loss := rfl
@[simp] theorem State.emit_freed (e : Emit) : (s.emit e).freed = s.freed := rfl
@[simp] theorem State.emit_out (e : Emit) : (s.emit e).out = s.out ++ [e] := rfl

/-! ### emitAll -/

@[simp] theorem State.emitAll_pending (es : List Emit) : (s.emitAll es).pending = s.pending := rfl
@[simp] theorem State.emitAll_mode (es : List Emit) : (s.emitAll es).mode = s.mode := rfl
@[simp] theorem State.emitAll_prev (es : List Emit) : (s.emitAll es).prev = s.prev := rfl
@[simp] theorem State.emitAll_safeCause (es : List Emit) : (s.emitAll es).safeCause = s.safeCause := rfl
@[simp] theorem State.emitAll_tb (es : List Emit) : (s.emitAll es).tb = s.tb := rfl
@[simp] theorem State.emitAll_slew (es : List Emit) : (s.emitAll es).slew = s.slew := rfl
@[simp] theorem State.emitAll_fabSlew (es : List Emit) : (s.emitAll es).fabSlew = s.fabSlew := rfl
@[simp] theorem State.emitAll_free (es : List Emit) : (s.emitAll es).free = s.free := rfl
@[simp] theorem State.emitAll_regs (es : List Emit) : (s.emitAll es).regs = s.regs := rfl
@[simp] theorem State.emitAll_pace (es : List Emit) : (s.emitAll es).pace = s.pace := rfl
@[simp] theorem State.emitAll_fault (es : List Emit) : (s.emitAll es).fault = s.fault := rfl
@[simp] theorem State.emitAll_power (es : List Emit) : (s.emitAll es).power = s.power := rfl
@[simp] theorem State.emitAll_cmd (es : List Emit) : (s.emitAll es).cmd = s.cmd := rfl
@[simp] theorem State.emitAll_boot (es : List Emit) : (s.emitAll es).boot = s.boot := rfl
@[simp] theorem State.emitAll_bist (es : List Emit) : (s.emitAll es).bist = s.bist := rfl
@[simp] theorem State.emitAll_cnt (es : List Emit) : (s.emitAll es).cnt = s.cnt := rfl
@[simp] theorem State.emitAll_buf (es : List Emit) : (s.emitAll es).buf = s.buf := rfl
@[simp] theorem State.emitAll_apr (es : List Emit) : (s.emitAll es).apr = s.apr := rfl
@[simp] theorem State.emitAll_col (es : List Emit) : (s.emitAll es).col = s.col := rfl
@[simp] theorem State.emitAll_mac (es : List Emit) : (s.emitAll es).mac = s.mac := rfl
@[simp] theorem State.emitAll_irises (es : List Emit) : (s.emitAll es).irises = s.irises := rfl
@[simp] theorem State.emitAll_fab (es : List Emit) : (s.emitAll es).fab = s.fab := rfl
@[simp] theorem State.emitAll_host (es : List Emit) : (s.emitAll es).host = s.host := rfl
@[simp] theorem State.emitAll_code (es : List Emit) : (s.emitAll es).code = s.code := rfl
@[simp] theorem State.emitAll_lens (es : List Emit) : (s.emitAll es).lens = s.lens := rfl
@[simp] theorem State.emitAll_tbl (es : List Emit) : (s.emitAll es).tbl = s.tbl := rfl
@[simp] theorem State.emitAll_ver (es : List Emit) : (s.emitAll es).ver = s.ver := rfl
@[simp] theorem State.emitAll_mig (es : List Emit) : (s.emitAll es).mig = s.mig := rfl
@[simp] theorem State.emitAll_mem (es : List Emit) : (s.emitAll es).mem = s.mem := rfl
@[simp] theorem State.emitAll_loss (es : List Emit) : (s.emitAll es).loss = s.loss := rfl
@[simp] theorem State.emitAll_freed (es : List Emit) : (s.emitAll es).freed = s.freed := rfl
@[simp] theorem State.emitAll_out (es : List Emit) : (s.emitAll es).out = s.out ++ es := rfl

/-! ### peak -/

@[simp] theorem State.peak_pending (l : Loc) (v : Nat) : (s.peak l v).pending = s.pending := by unfold State.peak; split <;> rfl
@[simp] theorem State.peak_mode (l : Loc) (v : Nat) : (s.peak l v).mode = s.mode := by unfold State.peak; split <;> rfl
@[simp] theorem State.peak_prev (l : Loc) (v : Nat) : (s.peak l v).prev = s.prev := by unfold State.peak; split <;> rfl
@[simp] theorem State.peak_safeCause (l : Loc) (v : Nat) : (s.peak l v).safeCause = s.safeCause := by unfold State.peak; split <;> rfl
@[simp] theorem State.peak_tb (l : Loc) (v : Nat) : (s.peak l v).tb = s.tb := by unfold State.peak; split <;> rfl
@[simp] theorem State.peak_slew (l : Loc) (v : Nat) : (s.peak l v).slew = s.slew := by unfold State.peak; split <;> rfl
@[simp] theorem State.peak_fabSlew (l : Loc) (v : Nat) : (s.peak l v).fabSlew = s.fabSlew := by unfold State.peak; split <;> rfl
@[simp] theorem State.peak_free (l : Loc) (v : Nat) : (s.peak l v).free = s.free := by unfold State.peak; split <;> rfl
@[simp] theorem State.peak_out (l : Loc) (v : Nat) : (s.peak l v).out = s.out := by unfold State.peak; split <;> rfl
@[simp] theorem State.peak_pace (l : Loc) (v : Nat) : (s.peak l v).pace = s.pace := by unfold State.peak; split <;> rfl
@[simp] theorem State.peak_fault (l : Loc) (v : Nat) : (s.peak l v).fault = s.fault := by unfold State.peak; split <;> rfl
@[simp] theorem State.peak_power (l : Loc) (v : Nat) : (s.peak l v).power = s.power := by unfold State.peak; split <;> rfl
@[simp] theorem State.peak_cmd (l : Loc) (v : Nat) : (s.peak l v).cmd = s.cmd := by unfold State.peak; split <;> rfl
@[simp] theorem State.peak_boot (l : Loc) (v : Nat) : (s.peak l v).boot = s.boot := by unfold State.peak; split <;> rfl
@[simp] theorem State.peak_bist (l : Loc) (v : Nat) : (s.peak l v).bist = s.bist := by unfold State.peak; split <;> rfl
@[simp] theorem State.peak_cnt (l : Loc) (v : Nat) : (s.peak l v).cnt = s.cnt := by unfold State.peak; split <;> rfl
@[simp] theorem State.peak_buf (l : Loc) (v : Nat) : (s.peak l v).buf = s.buf := by unfold State.peak; split <;> rfl
@[simp] theorem State.peak_apr (l : Loc) (v : Nat) : (s.peak l v).apr = s.apr := by unfold State.peak; split <;> rfl
@[simp] theorem State.peak_col (l : Loc) (v : Nat) : (s.peak l v).col = s.col := by unfold State.peak; split <;> rfl
@[simp] theorem State.peak_mac (l : Loc) (v : Nat) : (s.peak l v).mac = s.mac := by unfold State.peak; split <;> rfl
@[simp] theorem State.peak_irises (l : Loc) (v : Nat) : (s.peak l v).irises = s.irises := by unfold State.peak; split <;> rfl
@[simp] theorem State.peak_fab (l : Loc) (v : Nat) : (s.peak l v).fab = s.fab := by unfold State.peak; split <;> rfl
@[simp] theorem State.peak_host (l : Loc) (v : Nat) : (s.peak l v).host = s.host := by unfold State.peak; split <;> rfl
@[simp] theorem State.peak_code (l : Loc) (v : Nat) : (s.peak l v).code = s.code := by unfold State.peak; split <;> rfl
@[simp] theorem State.peak_lens (l : Loc) (v : Nat) : (s.peak l v).lens = s.lens := by unfold State.peak; split <;> rfl
@[simp] theorem State.peak_tbl (l : Loc) (v : Nat) : (s.peak l v).tbl = s.tbl := by unfold State.peak; split <;> rfl
@[simp] theorem State.peak_ver (l : Loc) (v : Nat) : (s.peak l v).ver = s.ver := by unfold State.peak; split <;> rfl
@[simp] theorem State.peak_mig (l : Loc) (v : Nat) : (s.peak l v).mig = s.mig := by unfold State.peak; split <;> rfl
@[simp] theorem State.peak_mem (l : Loc) (v : Nat) : (s.peak l v).mem = s.mem := by unfold State.peak; split <;> rfl
@[simp] theorem State.peak_loss (l : Loc) (v : Nat) : (s.peak l v).loss = s.loss := by unfold State.peak; split <;> rfl
@[simp] theorem State.peak_freed (l : Loc) (v : Nat) : (s.peak l v).freed = s.freed := by unfold State.peak; split <;> rfl

/-! ### draw -/

@[simp] theorem State.draw_pending : (s.draw.2).pending = s.pending := rfl
@[simp] theorem State.draw_mode : (s.draw.2).mode = s.mode := rfl
@[simp] theorem State.draw_prev : (s.draw.2).prev = s.prev := rfl
@[simp] theorem State.draw_safeCause : (s.draw.2).safeCause = s.safeCause := rfl
@[simp] theorem State.draw_tb : (s.draw.2).tb = s.tb := rfl
@[simp] theorem State.draw_slew : (s.draw.2).slew = s.slew := rfl
@[simp] theorem State.draw_fabSlew : (s.draw.2).fabSlew = s.fabSlew := rfl
@[simp] theorem State.draw_regs : (s.draw.2).regs = s.regs := rfl
@[simp] theorem State.draw_out : (s.draw.2).out = s.out := rfl
@[simp] theorem State.draw_pace : (s.draw.2).pace = s.pace := rfl
@[simp] theorem State.draw_fault : (s.draw.2).fault = s.fault := rfl
@[simp] theorem State.draw_power : (s.draw.2).power = s.power := rfl
@[simp] theorem State.draw_cmd : (s.draw.2).cmd = s.cmd := rfl
@[simp] theorem State.draw_boot : (s.draw.2).boot = s.boot := rfl
@[simp] theorem State.draw_bist : (s.draw.2).bist = s.bist := rfl
@[simp] theorem State.draw_cnt : (s.draw.2).cnt = s.cnt := rfl
@[simp] theorem State.draw_buf : (s.draw.2).buf = s.buf := rfl
@[simp] theorem State.draw_apr : (s.draw.2).apr = s.apr := rfl
@[simp] theorem State.draw_col : (s.draw.2).col = s.col := rfl
@[simp] theorem State.draw_mac : (s.draw.2).mac = s.mac := rfl
@[simp] theorem State.draw_irises : (s.draw.2).irises = s.irises := rfl
@[simp] theorem State.draw_fab : (s.draw.2).fab = s.fab := rfl
@[simp] theorem State.draw_host : (s.draw.2).host = s.host := rfl
@[simp] theorem State.draw_code : (s.draw.2).code = s.code := rfl
@[simp] theorem State.draw_lens : (s.draw.2).lens = s.lens := rfl
@[simp] theorem State.draw_tbl : (s.draw.2).tbl = s.tbl := rfl
@[simp] theorem State.draw_ver : (s.draw.2).ver = s.ver := rfl
@[simp] theorem State.draw_mig : (s.draw.2).mig = s.mig := rfl
@[simp] theorem State.draw_mem : (s.draw.2).mem = s.mem := rfl
@[simp] theorem State.draw_loss : (s.draw.2).loss = s.loss := rfl
@[simp] theorem State.draw_freed : (s.draw.2).freed = s.freed := rfl
@[simp] theorem State.draw_free : (s.draw.2).free = s.free + 1 := rfl

end Sys2Proof.Machine
end

