-- ==== Sys2Proof/Laws/Registers.lean ====
section
/-! SUPPORT. Read after write: bit fields, the sparse map and its canonical form, and the fields of registers. -/
namespace Sys2Proof

/-! ### Bit fields of naturals -/

theorem bitsGet_lt (n lo w : Nat) : bitsGet n lo w < 2 ^ w := Nat.mod_lt _ (Nat.two_pow_pos w)

theorem bitsGet_eq_testBit (n lo w i : Nat) : (bitsGet n lo w).testBit i = (decide (i < w) && n.testBit (lo + i)) := by
  simp [bitsGet, Nat.testBit_mod_two_pow, Nat.testBit_div_two_pow, Nat.add_comm]

theorem bitsSet_testBit (n lo w x i : Nat) :
    (bitsSet n lo w x).testBit i =
      if i < lo then n.testBit i else if i < lo + w then x.testBit (i - lo) else n.testBit i := by
  have h1 : n % 2 ^ lo < 2 ^ lo := Nat.mod_lt _ (Nat.two_pow_pos lo)
  have h2 : x % 2 ^ w < 2 ^ w := Nat.mod_lt _ (Nat.two_pow_pos w)
  have h3 : bitsSet n lo w x = 2 ^ lo * (2 ^ w * (n / 2 ^ (lo + w)) + x % 2 ^ w) + n % 2 ^ lo := by
    unfold bitsSet
    rw [Nat.pow_add]
    ring
  rw [h3, Nat.testBit_two_pow_mul_add _ h1]
  split
  · rename_i h
    simp [Nat.testBit_mod_two_pow, h]
  · rename_i h
    rw [Nat.testBit_two_pow_mul_add _ h2]
    split
    · rename_i h'
      have : i < lo + w := by omega
      simp [Nat.testBit_mod_two_pow, h', this]
    · rename_i h'
      have : ¬ i < lo + w := by omega
      rw [if_neg this, Nat.testBit_div_two_pow]
      congr 1
      omega

theorem bitsGet_bitsSet_same (n lo w x : Nat) : bitsGet (bitsSet n lo w x) lo w = x % 2 ^ w := by
  apply Nat.eq_of_testBit_eq
  intro i
  rw [bitsGet_eq_testBit, bitsSet_testBit, Nat.testBit_mod_two_pow]
  by_cases h : i < w
  · have h1 : ¬ lo + i < lo := by omega
    have h2 : lo + i < lo + w := by omega
    simp [h]
  · simp [h]

theorem bitsGet_bitsSet_of_disjoint {n lo w x lo' w' : Nat} (h : lo + w ≤ lo' ∨ lo' + w' ≤ lo) :
    bitsGet (bitsSet n lo w x) lo' w' = bitsGet n lo' w' := by
  apply Nat.eq_of_testBit_eq
  intro i
  rw [bitsGet_eq_testBit, bitsSet_testBit, bitsGet_eq_testBit]
  by_cases hi : i < w'
  · by_cases h1 : lo' + i < lo
    · simp [h1]
    · have h2 : ¬ lo' + i < lo + w := by omega
      simp [h1, h2]
  · simp [hi]

theorem bitsGet_mod (n m lo w : Nat) (h : lo + w ≤ m) : bitsGet (n % 2 ^ m) lo w = bitsGet n lo w := by
  apply Nat.eq_of_testBit_eq
  intro i
  rw [bitsGet_eq_testBit, bitsGet_eq_testBit, Nat.testBit_mod_two_pow]
  by_cases hi : i < w
  · have : lo + i < m := by omega
    simp [hi, this]
  · simp [hi]

/-! ### The sparse map -/

theorem SMap.find_append {α : Type} (d : Nat → α) (a b : SMap α) (k : Nat) (h : ∀ e ∈ a, e.1 ≠ k) :
    SMap.find d (a ++ b) k = SMap.find d b k := by
  induction a with
  | nil => rfl
  | cons e a ih =>
    have he : e.1 ≠ k := h e (List.mem_cons_self ..)
    simp only [List.cons_append, SMap.find, if_neg he]
    exact ih fun x hx => h x (List.mem_cons_of_mem _ hx)

theorem SMap.find_none {α : Type} (d : Nat → α) (a : SMap α) (k : Nat) (h : ∀ e ∈ a, e.1 ≠ k) : SMap.find d a k = d k := by
  have := SMap.find_append d a [] k h
  simpa [SMap.find] using this

theorem SMap.find_append_filter {α : Type} (d : Nat → α) (m : SMap α) (p : Nat → Bool) (b : SMap α) (k : Nat)
    (hb : SMap.find d b k = SMap.find d (m.filter fun e => !p e.1) k ∨ p k = true)
    (hn : p k = true → ∀ e ∈ b, e.1 ≠ k) :
    SMap.find d (m.filter (fun e => p e.1) ++ b) k = SMap.find d m k := by
  induction m generalizing b with
  | nil =>
    rcases hb with hb | hb
    · simpa using hb
    · simpa [SMap.find] using SMap.find_none d b k (hn hb)
  | cons e m ih =>
    by_cases hek : e.1 = k
    · subst hek
      by_cases hp : p e.1 = true
      · simp [hp, SMap.find]
      · have hb' := hb.resolve_right hp
        rw [SMap.find_append _ _ _ _ (by
          intro x hx hxe
          have := (List.mem_filter.mp hx).2
          rw [hxe] at this
          exact hp this), hb']
        simp [hp, SMap.find]
    · by_cases hp : p e.1 = true
      · simp only [List.filter_cons, hp, if_true, List.cons_append, SMap.find, if_neg hek]
        refine ih b ?_ hn
        rcases hb with hb | hb
        · left
          simpa [List.filter_cons, hp] using hb
        · exact .inr hb
      · have hp' : p e.1 = false := by simpa using hp
        simp only [List.filter_cons, hp', SMap.find, if_neg hek]
        refine ih b ?_ hn
        rcases hb with hb | hb
        · left
          simpa [List.filter_cons, hp', SMap.find, hek] using hb
        · exact .inr hb

theorem SMap.find_filter {α : Type} (d : Nat → α) (m : SMap α) (p : Nat → Bool) (k : Nat) (h : p k = true) :
    SMap.find d (m.filter fun e => p e.1) k = SMap.find d m k := by
  have := SMap.find_append_filter d m p [] k (.inr h) (by simp)
  simpa using this

/-- A key that was put reads as what was put. -/
@[simp] theorem SMap.find_put_same {α : Type} [DecidableEq α] (d : Nat → α) (m : SMap α) (k : Nat) (v : α) :
    SMap.find d (SMap.put d m k v) k = v := by
  unfold SMap.put
  rw [SMap.find_append _ _ _ _ (by
    intro e he h
    have := (List.mem_filter.mp he).2
    simp only [decide_eq_true_eq] at this
    omega)]
  split
  · rename_i h
    rw [List.nil_append, SMap.find_none, h]
    intro e he h
    have := (List.mem_filter.mp he).2
    simp only [decide_eq_true_eq] at this
    omega
  · simp [SMap.find]

/-- Every other key reads as before. -/
theorem SMap.find_put_other {α : Type} [DecidableEq α] (d : Nat → α) (m : SMap α) (k j : Nat) (v : α) (h : j ≠ k) :
    SMap.find d (SMap.put d m k v) j = SMap.find d m j := by
  unfold SMap.put
  have hb : SMap.find d ((if v = d k then [] else [(k, v)]) ++ m.filter fun e => decide (k < e.1)) j =
      SMap.find d (m.filter fun e => decide (k < e.1)) j := by
    rw [SMap.find_append]
    intro e he
    split at he
    · simp at he
    · simp at he
      subst he
      exact fun h' => h h'.symm
  by_cases hj : j < k
  · refine SMap.find_append_filter d m (fun x => decide (x < k)) _ j (.inr (by simpa using hj)) ?_
    intro _ e he hek
    rcases List.mem_append.mp he with he | he
    · split at he
      · simp at he
      · simp at he
        subst he
        exact h hek.symm
    · have := (List.mem_filter.mp he).2
      simp only [decide_eq_true_eq] at this
      omega
  · rw [SMap.find_append _ _ _ _ (by
      intro e he hek
      have := (List.mem_filter.mp he).2
      simp only [decide_eq_true_eq] at this
      omega), hb]
    exact SMap.find_filter d m (fun x => decide (k < x)) j (by simp; omega)

theorem SMap.find_put {α : Type} [DecidableEq α] (d : Nat → α) (m : SMap α) (k j : Nat) (v : α) :
    SMap.find d (SMap.put d m k v) j = if j = k then v else SMap.find d m j := by
  split
  · rename_i h
    rw [h, SMap.find_put_same]
  · exact SMap.find_put_other d m k j v ‹_›

/-- The canonical form survives a put. -/
theorem SMap.wf_put {α : Type} [DecidableEq α] (d : Nat → α) (m : SMap α) (k : Nat) (v : α) (h : SMap.wf d m) :
    SMap.wf d (SMap.put d m k v) := by
  obtain ⟨h1, h2⟩ := h
  rw [List.pairwise_map] at h1
  constructor
  · rw [List.pairwise_map]
    unfold SMap.put
    refine List.pairwise_append.mpr ⟨h1.filter _, List.pairwise_append.mpr ⟨?_, h1.filter _, ?_⟩, ?_⟩
    · split <;> simp
    · intro a ha b hb
      split at ha
      · simp at ha
      · simp at ha hb
        subst ha
        exact hb.2
    · intro a ha b hb
      have ha' : a.1 < k := by simpa using (List.mem_filter.mp ha).2
      rcases List.mem_append.mp hb with hb | hb
      · split at hb
        · simp at hb
        · simp at hb
          subst hb
          exact ha'
      · have : k < b.1 := by simpa using (List.mem_filter.mp hb).2
        omega
  · intro e he
    unfold SMap.put at he
    rcases List.mem_append.mp he with he | he
    · exact h2 e (List.mem_filter.mp he).1
    · rcases List.mem_append.mp he with he | he
      · split at he
        · simp at he
        · rename_i hv
          simp at he
          subst he
          exact hv
      · exact h2 e (List.mem_filter.mp he).1

/-- The canonical form survives keeping the entries of some keys alone. -/
theorem SMap.wf_filter {α : Type} [DecidableEq α] (d : Nat → α) (m : SMap α) (p : Nat × α → Bool) (h : SMap.wf d m) :
    SMap.wf d (m.filter p) := by
  refine ⟨?_, fun e he => h.2 e (List.mem_filter.mp he).1⟩
  have := h.1
  rw [List.pairwise_map] at this ⊢
  exact this.filter _

namespace Machine

/-! ### Registers -/

@[simp] theorem State.word_setWord_same (s : State) (off : Nat) (v : Word) : (s.setWord off v).word off = v := by
  simp [State.word]

theorem State.word_setWord_other (s : State) {off off' : Nat} (v : Word) (h : off' ≠ off) :
    (s.setWord off v).word off' = s.word off' := by
  simp [State.word, SMap.find_put_other _ _ _ _ _ h]

theorem State.word_setWord (s : State) (off off' : Nat) (v : Word) :
    (s.setWord off v).word off' = if off' = off then v else s.word off' := by
  simp [State.word, SMap.find_put]

theorem State.get_lt (s : State) (l : Loc) : s.get l < 2 ^ l.w := bitsGet_lt _ _ _

/-- The field that was set holds the low bits of what was written. -/
theorem State.get_set_same (s : State) (l : Loc) (v : Nat) (h : l.lo + l.w ≤ 64) : (s.set l v).get l = v % 2 ^ l.w := by
  simp only [State.get, State.set, State.word_setWord_same, BitVec.toNat_ofNat]
  rw [bitsGet_mod _ _ _ _ h, bitsGet_bitsSet_same]

/-- A field of another register is as before. -/
theorem State.get_set_of_off {s : State} {l m : Loc} {v : Nat} (h : m.off ≠ l.off) : (s.set l v).get m = s.get m := by
  simp [State.get, State.set, State.word_setWord_other _ _ h]

/-- A field of the same register that shares no bit is as before. -/
theorem State.get_set_of_bits {s : State} {l m : Loc} {v : Nat} (hm : m.lo + m.w ≤ 64)
    (h : l.lo + l.w ≤ m.lo ∨ m.lo + m.w ≤ l.lo) : (s.set l v).get m = s.get m := by
  by_cases ho : m.off = l.off
  · simp only [State.get, State.set, ho, State.word_setWord_same, BitVec.toNat_ofNat]
    rw [bitsGet_mod _ _ _ _ hm, bitsGet_bitsSet_of_disjoint h]
  · exact State.get_set_of_off ho

theorem State.get_setWord_of_off {s : State} {m : Loc} {off : Nat} {v : Word} (h : m.off ≠ off) :
    (s.setWord off v).get m = s.get m := by
  simp [State.get, State.word_setWord_other _ _ h]

@[simp] theorem State.get_emit (s : State) (e : Emit) (l : Loc) : (s.emit e).get l = s.get l := rfl
@[simp] theorem State.bit_emit (s : State) (e : Emit) (l : Loc) : (s.emit e).bit l = s.bit l := rfl
@[simp] theorem State.word_emit (s : State) (e : Emit) (k : Nat) : (s.emit e).word k = s.word k := rfl

theorem b2n_mod_two (b : Bool) : b2n b % 2 = b2n b := by cases b <;> rfl

theorem State.bit_setBit_same (s : State) (l : Loc) (b : Bool) (hw : l.w = 1) (h : l.lo < 64) : (s.setBit l b).bit l = b := by
  unfold State.bit State.setBit
  rw [State.get_set_same _ _ _ (by omega), hw]
  cases b <;> rfl

/-- The register map keeps its canonical form under every write of a register. -/
theorem State.regsCanonical_setWord (s : State) (off : Nat) (v : Word) (h : SMap.wf resetWord s.regs) :
    SMap.wf resetWord (s.setWord off v).regs := SMap.wf_put _ _ _ _ h

end Machine
end Sys2Proof
end

