-- ==== Sys2Proof/Laws/Settle.lean ====
section
/-! SUPPORT. What follows every command at once, said once: which parts of the state `State.settle` can touch. -/
namespace Sys2Proof.Machine

/-- `t` is `s` but for what `settle` may touch. -/
structure Settles (s t : State) : Prop where
  eq : t = { s with
    regs := t.regs
    out := t.out
    mac := { s.mac with
      holdSince := t.mac.holdSince
      holdTotal := t.mac.holdTotal
      pauseSent := t.mac.pauseSent
      control := t.mac.control
      sending := t.mac.sending }
    col := { s.col with waited := t.col.waited, eligSince := t.col.eligSince, inTurn := t.col.inTurn }
    cnt := { s.cnt with wraps := t.cnt.wraps, exposure := t.cnt.exposure }
    freed := t.freed }
  out : s.sends t []
  regs : s.sameRegs t fun _ => False
  canonical : SMap.wf resetWord s.regs → SMap.wf resetWord t.regs

/-- A change of those clocks alone. -/
theorem Settles.of_regs {s t : State} (h : t = { s with
    regs := t.regs
    out := t.out
    mac := { s.mac with
      holdSince := t.mac.holdSince
      holdTotal := t.mac.holdTotal
      pauseSent := t.mac.pauseSent
      control := t.mac.control
      sending := t.mac.sending }
    col := { s.col with waited := t.col.waited, eligSince := t.col.eligSince, inTurn := t.col.inTurn }
    cnt := { s.cnt with wraps := t.cnt.wraps, exposure := t.cnt.exposure }
    freed := t.freed })
    (hr : t.regs = s.regs) (ho : t.out = s.out) : Settles s t := by
  have hw : ∀ k, t.word k = s.word k := fun k => by simp [State.word, hr]
  have hg : ∀ l, t.get l = s.get l := fun l => by simp [State.get, hw]
  exact ⟨h, ⟨[], by simp [ho], by simp⟩, ⟨fun k _ _ => hw k, fun n _ _ => ⟨hg _, hg _⟩⟩, fun hc => hr ▸ hc⟩

theorem Settles.refl (s : State) : Settles s s := .of_regs rfl rfl rfl

theorem Settles.trans {s t u : State} (h : Settles s t) (g : Settles t u) : Settles s u := by
  obtain ⟨l, hl, hl'⟩ := h.out
  obtain ⟨k, hk, hk'⟩ := g.out
  refine ⟨?_, ⟨l ++ k, by simp [hk, hl], fun e he => ?_⟩, ⟨fun o hb ho => (g.regs.1 o hb ho).trans (h.regs.1 o hb ho),
    fun n hn hb => ⟨(g.regs.2 n hn hb).1.trans (h.regs.2 n hn hb).1, (g.regs.2 n hn hb).2.trans (h.regs.2 n hn hb).2⟩⟩,
    fun hs => g.canonical (h.canonical hs)⟩
  · have := g.eq
    rw [h.eq] at this
    exact this
  · exact (List.mem_append.mp he).elim (hl' e) (hk' e)

theorem Settles.foldl {α : Type} (f : State → α → State) (hf : ∀ s a, Settles s (f s a)) (l : List α) (s : State) :
    Settles s (l.foldl f s) := by
  induction l generalizing s with
  | nil => exact .refl s
  | cons a l ih => exact (hf s a).trans (ih _)

theorem wmListed_lt {n : Nat} (h : wmListed n = true) : n < 523 := by
  simp only [wmListed, Bool.or_eq_true, decide_eq_true_eq] at h
  omega

theorem settles_setState (s : State) (n : Nat) (b : Bool) (h : wmListed n = true) : Settles s (s.setBit (R.BUF_WM.STATE n) b) := by
  have hn := wmListed_lt h
  refine ⟨rfl, ⟨[], by simp⟩, ⟨fun o _ ho => ?_, fun m _ _ => ?_⟩, fun hs => SMap.wf_put _ _ _ _ hs⟩
  · refine State.word_setWord_other _ _ fun e => ho (.inl ?_)
    simp only [e, R.BUF_WM.STATE]
    omega
  · constructor <;> exact State.get_set_of_bits (by simp [R.BUF_WM.HIGH, R.BUF_WM.LOW]) (by simp [R.BUF_WM.HIGH, R.BUF_WM.LOW, R.BUF_WM.STATE])

/-- A register of `followReg` that is no watermark may be written. -/
theorem settles_setWord (s : State) (off : Nat) (v : Word) (hf : followReg off) (hw : off < 0x1B04000 ∨ 0x1B06000 ≤ off) :
    Settles s (s.setWord off v) := by
  refine ⟨rfl, ⟨[], by simp⟩, ⟨fun o _ ho => State.word_setWord_other _ _ fun e => ho (e ▸ hf), fun m hm _ => ?_⟩,
    fun hs => SMap.wf_put _ _ _ _ hs⟩
  have hm := wmListed_lt hm
  constructor <;> exact State.get_setWord_of_off (by simp only [R.BUF_WM.HIGH, R.BUF_WM.LOW]; omega)

theorem settles_countAt (s : State) (n k x : Nat) (hn : n < 96) (hk : k = 13 ∨ k = 15) :
    Settles s (s.countAt (R.MAC_CNT.COUNT n k) 1 x) := by
  have h : Settles s (s.setWord (R.MAC_CNT.COUNT n k).off (BitVec.ofNat 64 (counterAdd (s.word (R.MAC_CNT.COUNT n k).off).toNat 1).1)) := by
    refine settles_setWord s _ _ ?_ ?_
    · simp only [R.MAC_CNT.COUNT, followReg]
      omega
    · simp only [R.MAC_CNT.COUNT]
      omega
  exact h.trans (.of_regs rfl rfl rfl)

theorem settles_emitFrame (s : State) (n : Nat) (bs : List Byte) : Settles s (s.emit (.frame n bs true)) :=
  ⟨rfl, ⟨[_], by simp; rfl, by simp⟩, ⟨fun _ _ _ => rfl, fun _ _ _ => ⟨rfl, rfl⟩⟩, id⟩

theorem settles_startSending (s : State) (n : Nat) (b : Bool) (len x : Nat) (hn : n < 96) : Settles s (s.startSending n b len x) := by
  unfold State.startSending
  dsimp only
  split
  · exact (settles_countAt s n 15 x hn (.inr rfl)).trans (.of_regs rfl rfl rfl)
  · exact .of_regs rfl rfl rfl

theorem settles_sendPause (s : State) (n q : Nat) : Settles s (s.sendPause n q) := by
  unfold State.sendPause
  split
  · exact .refl s
  · exact .of_regs rfl rfl rfl

theorem settles_startControl (s : State) (n : Nat) (hn : n < 96) : Settles s (s.startControl n) := by
  unfold State.startControl
  split
  · exact .refl s
  · split
    · exact .refl s
    · exact (((settles_emitFrame s _ _).trans (settles_countAt _ n 13 _ hn (.inl rfl))).trans (settles_startSending _ n _ _ _ hn)).trans
        (.of_regs rfl rfl rfl)

theorem settles_holdFragment (s : State) (n : Nat) (hn : n < 96) : Settles s (s.holdFragment n) := by
  unfold State.holdFragment
  split
  · split
    · exact (settles_countAt s n 15 _ hn (.inr rfl)).trans (.of_regs rfl rfl rfl)
    · exact .refl s
  · exact .refl s

theorem settles_resumePort (s : State) (n : Nat) : Settles s (s.resumePort n) := by
  unfold State.resumePort
  split
  · exact .refl s
  · split
    · exact .refl s
    · split <;> exact .of_regs rfl rfl rfl

theorem settles_resumePorts (s : State) : Settles s s.resumePorts :=
  Settles.foldl _ (fun t e => settles_resumePort t (Prod.fst e)) _ s

theorem settles_startControls (s : State) : Settles s s.startControls := by
  refine Settles.foldl _ (fun t e => ?_) _ s
  split
  · exact settles_startControl t _ (by assumption)
  · exact .refl t

theorem settles_holdFragments (s : State) : Settles s s.holdFragments := by
  refine Settles.foldl _ (fun t e => ?_) _ s
  split
  · rename_i h
    exact settles_holdFragment t _ h.2
  · exact .refl t

theorem settles_syncHold (s : State) : Settles s s.syncHold := by
  have h : ∀ (t : State) (l : Loc) (v : Nat), l.off = 0x1C00010 → Settles t (t.set l v) := fun t l v hl =>
    settles_setWord t _ _ (by simp [hl, followReg]) (by omega)
  unfold State.syncHold State.peak
  dsimp only
  split
  · exact (h s _ _ rfl).trans (h _ _ _ rfl)
  · exact h s _ _ rfl

theorem settles_endFreed (s : State) : Settles s s.endFreed := .of_regs rfl rfl rfl

theorem settles_watermarks (s : State) : Settles s s.watermarks := by
  unfold State.watermarks
  have : ∀ (l : List Nat) (t : State), (∀ n ∈ l, wmListed n = true) →
      Settles t (l.foldl (fun t n => t.setBit (R.BUF_WM.STATE n) (s.wmNext n)) t) := by
    intro l
    induction l with
    | nil => exact fun t _ => .refl t
    | cons a l ih =>
      intro t h
      refine (settles_setState t _ _ (h a (List.mem_cons_self ..))).trans (ih _ ?_)
      exact fun n hn => h n (List.mem_cons_of_mem _ hn)
  refine this _ s fun n hn => ?_
  exact (List.mem_filter.mp hn).2

theorem settles_crossings (s : State) : Settles s s.crossings := by
  refine Settles.foldl _ (fun t n => ?_) _ s
  split
  · exact settles_sendPause t _ _
  · exact .refl t

theorem settles_holdSync (s : State) (n c : Nat) : Settles s (s.holdSync n c) := by
  unfold State.holdSync
  dsimp only
  split <;> split <;> exact .of_regs rfl rfl rfl

theorem settles_eligSync (s : State) (l : Nat) : Settles s (s.eligSync l) := by
  unfold State.eligSync
  dsimp only
  split <;> split <;> exact .of_regs rfl rfl rfl

theorem settles_endTurns (s : State) : Settles s s.endTurns := .of_regs rfl rfl rfl

/-- Everything that `settle` can do. -/
theorem settles (s : State) : Settles s s.settle := by
  unfold State.settle
  have h1 : Settles s s.holdClocks :=
    Settles.foldl _ (fun t n => Settles.foldl _ (fun u c => settles_holdSync u n c) _ t) _ s
  have h2 : Settles s.holdClocks s.holdClocks.eligClocks := Settles.foldl _ (fun t e => settles_eligSync t (Prod.fst e)) _ _
  have h3 := ((h1.trans h2).trans (settles_endTurns _)).trans ((settles_crossings _).trans (settles_watermarks _))
  exact (((h3.trans (settles_holdFragments _)).trans (settles_startControls _)).trans (settles_resumePorts _)).trans
    ((settles_syncHold _).trans (settles_endFreed _))

/-! ### The fields -/

@[simp] theorem State.settle_pending (s : State) : s.settle.pending = s.pending := by rw [(settles s).eq]
@[simp] theorem State.settle_mode (s : State) : s.settle.mode = s.mode := by rw [(settles s).eq]
@[simp] theorem State.settle_prev (s : State) : s.settle.prev = s.prev := by rw [(settles s).eq]
@[simp] theorem State.settle_safeCause (s : State) : s.settle.safeCause = s.safeCause := by rw [(settles s).eq]
@[simp] theorem State.settle_tb (s : State) : s.settle.tb = s.tb := by rw [(settles s).eq]
@[simp] theorem State.settle_slew (s : State) : s.settle.slew = s.slew := by rw [(settles s).eq]
@[simp] theorem State.settle_fabSlew (s : State) : s.settle.fabSlew = s.fabSlew := by rw [(settles s).eq]
@[simp] theorem State.settle_free (s : State) : s.settle.free = s.free := by rw [(settles s).eq]
@[simp] theorem State.settle_pace (s : State) : s.settle.pace = s.pace := by rw [(settles s).eq]
@[simp] theorem State.settle_fault (s : State) : s.settle.fault = s.fault := by rw [(settles s).eq]
@[simp] theorem State.settle_power (s : State) : s.settle.power = s.power := by rw [(settles s).eq]
@[simp] theorem State.settle_cmd (s : State) : s.settle.cmd = s.cmd := by rw [(settles s).eq]
@[simp] theorem State.settle_boot (s : State) : s.settle.boot = s.boot := by rw [(settles s).eq]
@[simp] theorem State.settle_bist (s : State) : s.settle.bist = s.bist := by rw [(settles s).eq]
@[simp] theorem State.settle_buf (s : State) : s.settle.buf = s.buf := by rw [(settles s).eq]
@[simp] theorem State.settle_apr (s : State) : s.settle.apr = s.apr := by rw [(settles s).eq]
@[simp] theorem State.settle_irises (s : State) : s.settle.irises = s.irises := by rw [(settles s).eq]
@[simp] theorem State.settle_fab (s : State) : s.settle.fab = s.fab := by rw [(settles s).eq]
@[simp] theorem State.settle_host (s : State) : s.settle.host = s.host := by rw [(settles s).eq]
@[simp] theorem State.settle_code (s : State) : s.settle.code = s.code := by rw [(settles s).eq]
@[simp] theorem State.settle_lens (s : State) : s.settle.lens = s.lens := by rw [(settles s).eq]
@[simp] theorem State.settle_tbl (s : State) : s.settle.tbl = s.tbl := by rw [(settles s).eq]
@[simp] theorem State.settle_ver (s : State) : s.settle.ver = s.ver := by rw [(settles s).eq]
@[simp] theorem State.settle_mig (s : State) : s.settle.mig = s.mig := by rw [(settles s).eq]
@[simp] theorem State.settle_mem (s : State) : s.settle.mem = s.mem := by rw [(settles s).eq]
@[simp] theorem State.settle_loss (s : State) : s.settle.loss = s.loss := by rw [(settles s).eq]
@[simp] theorem State.settle_freed (s : State) : s.settle.freed = [] := rfl
@[simp] theorem State.settle_now (s : State) : s.settle.now = s.now := by simp [State.now]
@[simp] theorem State.settle_ns (s : State) : s.settle.ns = s.ns := by simp [State.ns]
@[simp] theorem State.settle_coreUp (s : State) : s.settle.coreUp = s.coreUp := by simp [State.coreUp]

@[simp] theorem State.settle_mac_holds (s : State) : s.settle.mac.holds = s.mac.holds := by rw [(settles s).eq]
@[simp] theorem State.settle_mac_ptp (s : State) : s.settle.mac.ptp = s.mac.ptp := by rw [(settles s).eq]
@[simp] theorem State.settle_mac_verifies (s : State) : s.settle.mac.verifies = s.mac.verifies := by rw [(settles s).eq]
@[simp] theorem State.settle_mac_held (s : State) : s.settle.mac.held = s.mac.held := by rw [(settles s).eq]
@[simp] theorem State.settle_mac_verifySent (s : State) : s.settle.mac.verifySent = s.mac.verifySent := by rw [(settles s).eq]
@[simp] theorem State.settle_mac_fellNs (s : State) : s.settle.mac.fellNs = s.mac.fellNs := by rw [(settles s).eq]
@[simp] theorem State.settle_mac_assocs (s : State) : s.settle.mac.assocs = s.mac.assocs := by rw [(settles s).eq]
@[simp] theorem State.settle_mac_exhausted (s : State) : s.settle.mac.exhausted = s.mac.exhausted := by rw [(settles s).eq]
@[simp] theorem State.settle_col_shapers (s : State) : s.settle.col.shapers = s.col.shapers := by rw [(settles s).eq]
@[simp] theorem State.settle_col_groupOut (s : State) : s.settle.col.groupOut = s.col.groupOut := by rw [(settles s).eq]
@[simp] theorem State.settle_col_epGroup (s : State) : s.settle.col.epGroup = s.col.epGroup := by rw [(settles s).eq]
@[simp] theorem State.settle_col_deficits (s : State) : s.settle.col.deficits = s.col.deficits := by rw [(settles s).eq]
@[simp] theorem State.settle_col_lastNode (s : State) : s.settle.col.lastNode = s.col.lastNode := by rw [(settles s).eq]
@[simp] theorem State.settle_col_starved (s : State) : s.settle.col.starved = s.col.starved := by rw [(settles s).eq]
@[simp] theorem State.settle_col_gates (s : State) : s.settle.col.gates = s.col.gates := by rw [(settles s).eq]
@[simp] theorem State.settle_col_gatePending (s : State) : s.settle.col.gatePending = s.col.gatePending := by rw [(settles s).eq]
@[simp] theorem State.settle_cnt_pairs (s : State) : s.settle.cnt.pairs = s.cnt.pairs := by rw [(settles s).eq]
@[simp] theorem State.settle_cnt_loupe (s : State) : s.settle.cnt.loupe = s.cnt.loupe := by rw [(settles s).eq]
@[simp] theorem State.settle_cnt_tested (s : State) : s.settle.cnt.tested = s.cnt.tested := by rw [(settles s).eq]
@[simp] theorem State.settle_cnt_xn (s : State) : s.settle.cnt.xn = s.cnt.xn := by rw [(settles s).eq]
@[simp] theorem State.settle_cnt_mirrored (s : State) : s.settle.cnt.mirrored = s.cnt.mirrored := by rw [(settles s).eq]
@[simp] theorem State.settle_cnt_captures (s : State) : s.settle.cnt.captures = s.cnt.captures := by rw [(settles s).eq]

theorem State.settle_word (s : State) {off : Nat} (h : ¬ followReg off) : s.settle.word off = s.word off :=
  (settles s).regs.1 off id h

theorem Settles.still {s t : State} (h : Settles s t) : t.still = s.still := by
  rw [h.eq]
  rfl

@[simp] theorem State.settle_still (s : State) : s.settle.still = s.still := (settles s).still

/-- A register outside `followReg` is as the command left it. -/
theorem State.settle_get (s : State) {l : Loc} (h : ¬ followReg l.off) : s.settle.get l = s.get l := by
  simp [State.get, State.settle_word s h]

theorem State.settle_bit (s : State) {l : Loc} (h : ¬ followReg l.off) : s.settle.bit l = s.bit l := by
  simp [State.bit, State.settle_get s h]

/-! ### Completing a meaning -/

/-- A command whose operands name something that exists has its effect, settled; any other leaves what there was, settled. -/
theorem complete_next {ok : Bool} {s t u : State} :
    complete ok s t = .next u ↔ (ok = true ∧ u = t.settle) ∨ (ok = false ∧ u = s.settle) := by
  cases ok <;> simp [complete, eq_comm]

@[simp] theorem complete_true (s t : State) : complete true s t = .next t.settle := rfl

theorem complete_of {ok : Bool} (h : ok = true) (s t : State) : complete ok s t = .next t.settle := by simp [h]

end Sys2Proof.Machine
end

