-- ==== Sys2Proof/Laws/Faults.lean ====
section
/-! SUPPORT. What raising a fault source can touch, said once (R525 to R535): the registers of the fault collector, ADMIT_HOLD with its
clear run, the event queue, blocks and chip reset, and the counters of an open exposure. A latched source stays latched. -/
namespace Sys2Proof.Machine

/-- The registers that raising a source can change. -/
abbrev raiseReg (k : Nat) : Prop := (0x200000 ≤ k ∧ k < 0x210000) ∨ k = 0x600008

/-- `t` is `s` but for what raising a source may touch. -/
structure Raises (s t : State) : Prop where
  eq : t = { s with
    regs := t.regs
    out := t.out
    fault := { s.fault with queue := t.fault.queue, chipReset := t.fault.chipReset, chipBy := t.fault.chipBy, blocks := t.fault.blocks }
    power := { s.power with ranChip := t.power.ranChip }
    cnt := { s.cnt with wraps := t.cnt.wraps, exposure := t.cnt.exposure } }
  out : ∃ l, t.out = s.out ++ l
  regs : ∀ k, ¬ raiseReg k → t.word k = s.word k
  latch : ∀ n, n < 256 → s.bit (faultBit n) = true → t.bit (faultBit n) = true
  canonical : SMap.wf resetWord s.regs → SMap.wf resetWord t.regs

theorem Raises.refl (s : State) : Raises s s := ⟨rfl, ⟨[], by simp⟩, fun _ _ => rfl, fun _ _ h => h, id⟩

theorem Raises.trans {s t u : State} (h : Raises s t) (g : Raises t u) : Raises s u := by
  obtain ⟨l, hl⟩ := h.out
  obtain ⟨k, hk⟩ := g.out
  refine ⟨?_, ⟨l ++ k, by simp [hk, hl]⟩, fun o ho => (g.regs o ho).trans (h.regs o ho),
    fun n hn hb => g.latch n hn (h.latch n hn hb), fun hs => g.canonical (h.canonical hs)⟩
  have := g.eq
  rw [h.eq] at this
  exact this

theorem Raises.ite {s a b : State} {p : Prop} [Decidable p] (ha : Raises s a) (hb : Raises s b) : Raises s (if p then a else b) := by
  split <;> assumption

/-- A write of one of those registers that is no latch. -/
theorem Raises.of_setWord (s : State) {k : Nat} (v : Word) (hk : raiseReg k) (hl : ¬ (0x200000 ≤ k ∧ k < 0x200020)) :
    Raises s (s.setWord k v) := by
  refine ⟨rfl, ⟨[], by simp⟩, fun o ho => State.word_setWord_other _ _ fun e => ho (e ▸ hk), fun n hn hb => ?_,
    State.regsCanonical_setWord _ _ _⟩
  have : (faultBit n).off ≠ k := by simp only [faultBit]; omega
  simpa [State.bit, State.get_setWord_of_off this] using hb

theorem Raises.of_set (s : State) {l : Loc} (v : Nat) (hk : raiseReg l.off) (hl : ¬ (0x200000 ≤ l.off ∧ l.off < 0x200020)) :
    Raises s (s.set l v) := .of_setWord s _ hk hl

/-- A change of the parts beside registers and outputs. -/
theorem Raises.of_parts {s t : State} (h : t = { s with
    fault := { s.fault with queue := t.fault.queue, chipReset := t.fault.chipReset, chipBy := t.fault.chipBy, blocks := t.fault.blocks }
    power := { s.power with ranChip := t.power.ranChip }
    cnt := { s.cnt with wraps := t.cnt.wraps, exposure := t.cnt.exposure } }) : Raises s t := by
  have hr : t.regs = s.regs := by rw [h]
  have ho : t.out = s.out := by rw [h]
  have hw : ∀ k, t.word k = s.word k := fun k => by simp [State.word, hr]
  refine ⟨?_, ⟨[], by simp [ho]⟩, fun k _ => hw k, fun n _ hb => by simpa [State.bit, State.get, hw] using hb, fun hs => hr ▸ hs⟩
  rw [hr, ho]
  exact h

theorem Raises.of_emit (s : State) (e : Emit) : Raises s (s.emit e) :=
  ⟨rfl, ⟨[e], rfl⟩, fun _ _ => rfl, fun _ _ h => h, id⟩

/-- Latching a source. -/
theorem Raises.of_latch (s : State) {n : Nat} (hn : n < 256) : Raises s (s.setBit (faultBit n) true) := by
  refine ⟨rfl, ⟨[], by simp [State.setBit]⟩, fun o ho => State.word_setWord_other _ _ fun e => ho (.inl ?_), fun m hm hb => ?_,
    State.regsCanonical_setWord _ _ _⟩
  · simp only [e, faultBit]
    omega
  · by_cases h : m = n
    · exact h ▸ State.bit_setBit_same _ _ _ rfl (by simp only [faultBit]; omega)
    · by_cases hq : m / 64 = n / 64
      · have : (s.setBit (faultBit n) true).get (faultBit m) = s.get (faultBit m) :=
          State.get_set_of_bits (by simp only [faultBit]; omega) (by simp only [faultBit]; omega)
        simpa [State.bit, this] using hb
      · have : (s.setBit (faultBit n) true).get (faultBit m) = s.get (faultBit m) :=
          State.get_set_of_off (by simp only [faultBit]; omega)
        simpa [State.bit, this] using hb

theorem raises_count (s : State) (k : Nat) : Raises s (s.count R.FLT_EVQ_LOST.COUNT k) := by
  unfold State.count State.countAt
  exact .trans (.of_setWord s _ (by simp [raiseReg, R.FLT_EVQ_LOST.COUNT]) (by simp [R.FLT_EVQ_LOST.COUNT])) (.of_parts rfl)

theorem raises_post (s : State) (e : FaultEvent) : Raises s (s.postFault e) := by
  unfold State.postFault
  have h : Raises s { s with fault := { s.fault with queue := (fifoPush 512 s.fault.queue e).1 } } := .of_parts rfl
  exact .ite h (h.trans (raises_count _ _))

theorem raises_log (s : State) (n info : Nat) (f e c : Bool) (time : Nat) : Raises s (s.logFault n info f e c time) := by
  unfold State.logFault
  have hw : ∀ (l : List Nat) (t : State) (b : Nat) (v : Nat → Word), (∀ i ∈ l, i < 4) → 0x208000 ≤ b → b < 0x20FFE1 →
      Raises t (l.foldl (fun u i => u.setWord (b + 8 * i) (v i)) t) := by
    intro l
    induction l with
    | nil => exact fun t _ _ _ _ _ => .refl t
    | cons i l ih =>
      intro t b v hi hb hb'
      have := hi i (by simp)
      exact .trans (.of_setWord t _ (by omega) (by omega)) (ih _ b v (fun j hj => hi j (by simp [hj])) hb hb')
  exact .trans (hw _ s (0x208000 + 32 * (s.get R.FLT_LOG.HEAD % 1024)) _ (by simp) (by omega) (by omega))
    (.of_set _ _ (by simp [raiseReg, R.FLT_LOG.HEAD]) (by simp [R.FLT_LOG.HEAD]))

theorem raises_hold (s : State) : Raises s s.admitHold := by
  unfold State.admitHold
  exact .trans (.of_set _ _ (by simp [raiseReg, R.PACE_STATUS.ADMIT_HOLD]) (by simp [R.PACE_STATUS.ADMIT_HOLD]))
    (.of_set _ _ (by simp [raiseReg, R.PACE_STATUS.CLEAR_RUN]) (by simp [R.PACE_STATUS.CLEAR_RUN]))

theorem raises_block (s : State) (b : Nat) : Raises s (s.blockReset b) := by
  unfold State.blockReset
  exact .ite (.refl s) (.of_parts rfl)

theorem raises_nmiChip (s : State) (n info : Nat) (f e nmi chip : Bool) : Raises s (s.nmiChip n info f e nmi chip) := by
  unfold State.nmiChip
  refine .ite (.trans (raises_log _ _ _ _ _ _ _) (.of_parts rfl)) (.ite (raises_log _ _ _ _ _ _ _) (.refl s))

theorem raises_holdIf (s : State) (p : Prop) [Decidable p] : Raises s (if p then s.admitHold else s) := .ite (raises_hold s) (.refl s)

theorem raises_emitIf (s : State) (p : Prop) [Decidable p] (e : Emit) : Raises s (if p then s.emit e else s) :=
  .ite (.of_emit s e) (.refl s)

theorem raises_toHost (s : State) (link : Nat) (e : Emit) : Raises s (s.toHost link e) := by
  unfold State.toHost
  exact raises_emitIf s _ e

theorem raises_blockIf (s : State) (n : Nat) (block : Option Nat) :
    Raises s (match block with
      | some b => if s.bit (R.FLT_REACT.BLOCK n) then s.blockReset b else s
      | none => s) := by
  cases block with
  | none => exact .refl s
  | some b => exact .ite (raises_block s b) (.refl s)

theorem sourceListed_lt {n : Nat} (h : sourceListed n = true) : n < 248 := by
  simp only [sourceListed, Bool.or_eq_true, decide_eq_true_eq] at h
  omega

/-- The counter of a source. -/
theorem raises_react (s : State) {n : Nat} (hn : n < 248) : Raises s (s.sat (R.FLT_REACT.COUNT n) 1) :=
  .of_set _ _ (by simp only [raiseReg, R.FLT_REACT.COUNT]; omega) (by simp only [R.FLT_REACT.COUNT]; omega)

/-- What follows the latch of a source where the core runs. -/
theorem raises_after (s : State) {n info : Nat} {block : Option Nat} {forced : Bool} (hl : sourceListed n = true)
    (hc : s.coreUp = true) : Raises (s.setBit (faultBit n) true) (s.raiseAs n info block forced) := by
  have hn := sourceListed_lt hl
  unfold State.raiseAs
  rw [if_neg (by simp [hl]), if_neg (by simp [hc])]
  dsimp only
  split
  · refine .trans ?_ (raises_nmiChip _ _ _ _ _ _ _)
    refine .trans ?_ (raises_post _ _)
    exact raises_react _ hn
  · refine .trans ?_ (raises_nmiChip _ _ _ _ _ _ _)
    refine .trans ?_ (.ite (raises_toHost _ _ _) (.refl _))
    refine .trans ?_ (raises_blockIf _ n block)
    refine .trans ?_ (raises_holdIf _ _)
    refine .trans ?_ (raises_post _ _)
    exact raises_react _ hn

/-- Raising a source touches what `Raises` says, and nothing else. -/
theorem raises (s : State) (n info : Nat) (block : Option Nat) (forced : Bool) : Raises s (s.raiseAs n info block forced) := by
  by_cases hl : sourceListed n = true
  · by_cases hc : s.coreUp = true
    · have := sourceListed_lt hl
      exact .trans (.of_latch s (by omega)) (raises_after s hl hc)
    · unfold State.raiseAs
      rw [if_neg (by simp [hl]), if_pos (by simp [hc])]
      exact .ite (raises_log _ _ _ _ _ _ _) (.refl s)
  · unfold State.raiseAs
    rw [if_pos (by simp [hl])]
    exact .refl s

/-- A source that is listed latches wherever the core runs. -/
theorem State.raise_latches (s : State) (n info : Nat) (hn : sourceListed n = true) (hc : s.coreUp = true) :
    (s.raise n info).bit (faultBit n) = true := by
  have h := sourceListed_lt hn
  exact (raises_after s hn hc).latch n (by omega) (State.bit_setBit_same _ _ _ rfl (by simp only [faultBit]; omega))

@[simp] theorem State.raise_mode (s : State) (n info : Nat) : (s.raise n info).mode = s.mode := by
  rw [State.raise, (raises s n info none false).eq]
@[simp] theorem State.raise_prev (s : State) (n info : Nat) : (s.raise n info).prev = s.prev := by
  rw [State.raise, (raises s n info none false).eq]
@[simp] theorem State.raise_tb (s : State) (n info : Nat) : (s.raise n info).tb = s.tb := by
  rw [State.raise, (raises s n info none false).eq]
@[simp] theorem State.raise_buf (s : State) (n info : Nat) : (s.raise n info).buf = s.buf := by
  rw [State.raise, (raises s n info none false).eq]
@[simp] theorem State.raise_mem (s : State) (n info : Nat) : (s.raise n info).mem = s.mem := by
  rw [State.raise, (raises s n info none false).eq]
@[simp] theorem State.raise_cmd (s : State) (n info : Nat) : (s.raise n info).cmd = s.cmd := by
  rw [State.raise, (raises s n info none false).eq]
@[simp] theorem State.raise_pace (s : State) (n info : Nat) : (s.raise n info).pace = s.pace := by
  rw [State.raise, (raises s n info none false).eq]
@[simp] theorem State.raise_bist (s : State) (n info : Nat) : (s.raise n info).bist = s.bist := by
  rw [State.raise, (raises s n info none false).eq]
@[simp] theorem State.raise_boot (s : State) (n info : Nat) : (s.raise n info).boot = s.boot := by
  rw [State.raise, (raises s n info none false).eq]
@[simp] theorem State.raise_irises (s : State) (n info : Nat) : (s.raise n info).irises = s.irises := by
  rw [State.raise, (raises s n info none false).eq]
@[simp] theorem State.raise_code (s : State) (n info : Nat) : (s.raise n info).code = s.code := by
  rw [State.raise, (raises s n info none false).eq]

/-- A field of a register that no raise can change. -/
theorem State.raise_get (s : State) (n info : Nat) {l : Loc} (h : ¬ raiseReg l.off) : (s.raise n info).get l = s.get l := by
  simp [State.get, State.raise, (raises s n info none false).regs _ h]

end Sys2Proof.Machine
end

