-- ==== Sys2Proof/Laws/Frames.lean ====
section
/-! SUPPORT. Frames: what a completed meaning leaves as it was, from what its effect leaves as it was. -/
namespace Sys2Proof.Machine

/-- The frame of a command from that of its effect `x`: `t'` is the next state with its changed parts put back. -/
theorem State.kept_of {s x t' : State} {outs : List Emit} {but : Nat → Prop} (hs : t'.still = s.still)
    (hr : t'.regs = x.settle.regs) (ho : t'.out = x.settle.out) (hw : ∀ off, ¬ but off → x.word off = s.word off)
    (hx : x.out = s.out ++ outs) : s.kept t' outs but := by
  have hg : ∀ l : Loc, t'.get l = x.settle.get l := fun l => by simp [State.get, State.word, hr]
  refine ⟨hs, ⟨fun o hb hf => ?_, fun n hn hb => ?_⟩, ?_⟩
  · have : t'.word o = x.settle.word o := by simp [State.word, hr]
    rw [this, State.settle_word x hf, hw o hb]
  · have h := (settles x).regs.2 n hn id
    have e1 : x.get (R.BUF_WM.HIGH n) = s.get (R.BUF_WM.HIGH n) := by simp [State.get, hw (R.BUF_WM.HIGH n).off hb]
    have e2 : x.get (R.BUF_WM.LOW n) = s.get (R.BUF_WM.LOW n) := by simp [State.get, hw (R.BUF_WM.LOW n).off hb]
    rw [hg, hg, h.1, h.2, e1, e2]
    exact ⟨rfl, rfl⟩
  · obtain ⟨l, hl, hp⟩ := (settles x).out
    exact ⟨l, by rw [ho, hl, hx, List.append_nil], hp⟩

/-! ### The open commands -/

theorem updFirst_find {α : Type} (p : α → Bool) (f : α → α) (l : List α) (h : ∀ a, p a = true → p (f a) = true) :
    (updFirst p f l).find? p = (l.find? p).map f := by
  induction l with
  | nil => rfl
  | cons a l ih =>
    unfold updFirst
    by_cases ha : p a = true
    · simp [ha, h a ha]
    · simp [ha, ih]

theorem State.findCmd_updCmd (s : State) (seq : Nat) (f : OpenCmd → OpenCmd) (h : ∀ c, (f c).seq = c.seq) :
    (s.updCmd seq f).findCmd seq = (s.findCmd seq).map f := by
  unfold State.findCmd State.updCmd
  exact updFirst_find _ _ _ fun a ha => by simpa [h] using ha

theorem State.findCmd_congr {s t : State} (h : t.cmd = s.cmd) (seq : Nat) : t.findCmd seq = s.findCmd seq := by
  simp [State.findCmd, h]

@[simp] theorem State.settle_findCmd (s : State) (seq : Nat) : s.settle.findCmd seq = s.findCmd seq := by simp [State.findCmd]
@[simp] theorem State.settle_outcomeOf (s : State) (seq : Nat) : s.settle.outcomeOf seq = s.outcomeOf seq := by
  simp [State.outcomeOf]

/-- The outcome of a command that was open when it ended. -/
theorem State.outcomeOf_finish {s : State} {seq : Nat} {c : OpenCmd} (h : s.findCmd seq = some c) (a b i k : Nat)
    (d : List (Nat × Nat × Nat)) : (s.finish seq a b i k d).outcomeOf seq = some (outcomeArea a b i k d) := by
  simp [State.outcomeOf, State.finish, State.findCmd_updCmd, h]

/-- The body of a command that may begin runs. -/
theorem State.runCmd_of {s : State} {seq code : Nat} {c : OpenCmd} (h : s.begins seq code c) (body : OpenCmd → State → State) :
    s.runCmd seq code body = body c s := by
  obtain ⟨h1, h2, h3, h4, h5, h6⟩ := h
  simp [State.runCmd, h1, h2, h3, h4, h5, h6]

/-- A run either does nothing or runs the body. -/
theorem State.runCmd_cases (s : State) (seq code : Nat) (body : OpenCmd → State → State) :
    s.runCmd seq code body = s ∨ ∃ c, s.begins seq code c ∧ s.runCmd seq code body = body c s := by
  unfold State.runCmd
  split
  · exact .inl rfl
  · rename_i c hc
    split
    · rename_i h
      simp only [Bool.and_eq_true, beq_iff_eq, Bool.not_eq_true'] at h
      exact .inr ⟨c, ⟨hc, h.1.1.1.1, h.1.1.1.2, h.1.1.2, h.1.2, h.2⟩, rfl⟩
    · exact .inl rfl

end Sys2Proof.Machine
end

