-- ==== Sys2Proof/Tests/Slice0.lean ====
section
/-! SUPPORT. Tests: well-formedness, and for each statement states and operands that meet its hypotheses, with what one step does
there, worked out by hand from the rules of the spec. -/

namespace Sys2Proof.Tests
open Sys2Proof Sys2Proof.Machine

set_option Elab.async false

/-- An accepted command with the given header and operand fields. -/
def openOf (seq ring : Nat) (fields : List (Nat × Nat × Nat)) : OpenCmd := ⟨seq, ring, 0, record 64 fields, false, 0, none, false, none, 0⟩
/-- Reset, but in SERVE, with every role at service facet S0. -/
def inServe : State := { State.reset with mode := .serve, prev := .load, code := { roles := [(0, 63)] } }
/-- SERVE with one open command. -/
def withCmd (fields : List (Nat × Nat × Nat)) : State := { inServe with cmd := { inServe.cmd with open_ := [openOf 7 0 fields] } }
/-- The state with register words given by offset and value. -/
def setRegs (s : State) (l : List (Nat × Nat)) : State := l.foldl (fun t e => t.setWord e.1 (BitVec.ofNat 64 e.2)) s
/-- A property of the next state, false where there is none. -/
def after (o : Out State) (p : State → Bool) : Bool := match o with
  | .next t => p t
  | _ => false
/-- The state with a unique id of its own choice. -/
def withUid (u : Nat) (s : State) : State := { s with regs := (8, BitVec.ofNat 64 u) :: s.regs }
/-! ### Well-formedness: each check refuses a term that breaks it alone, and takes the same term with that mended -/

theorem test_wellformed_0 : ([
    .cmdDoorbell ⟨0, 0⟩ 0 0,
    .migTokenArrival 0,
    .fenceLimitExpiry 0,
    .tailWindowEnd 0,
    .markerLimitExpiry 0,
    .parkComplete 0,
    .registerWrite ⟨0, 0⟩ 0 0 [],
    .paceTargetWrite ⟨0, 0⟩ 0,
    .paceXoffInWrite ⟨0, 0⟩ 0 0,
    .paceXoffOutWrite ⟨0, 0⟩ 0 0,
    .bufWmWrite ⟨0, 0⟩ 0 0,
    .aprResWrite ⟨0, 0⟩ 0 0,
    .swcDqWrite ⟨0, 0⟩ 0 0,
    .hostQWrite ⟨0, 0⟩ 0 0,
    .hostQbaseWrite ⟨0, 0⟩ 0 0,
    .queueDoorbell ⟨0, 0⟩ 0 0,
    .dmaRingWrite ⟨0, 0⟩ 0,
    .dmaDoorbell ⟨0, 0⟩ 0,
    .cmdRingWrite ⟨0, 0⟩ 0 0,
    .cmdPostWrite ⟨0, 0⟩ 0 0,
    .timeAdjWrite ⟨0, 0⟩ 0,
    .timeOffsetWrite ⟨0, 0⟩ 0,
    .msaInstall ⟨0, 0⟩ 0,
    .msaInvalidate ⟨0, 0⟩ 0,
    .msaReadPn ⟨0, 0⟩ 0,
    .msecPortWrite ⟨0, 0⟩ 0 0,
    .macPreemptWrite ⟨0, 0⟩ 0 0,
    .cntProbeWrite ⟨0, 0⟩ 0,
    .bistWindowOpen ⟨0, 0⟩ 0,
    .bistStart ⟨0, 0⟩ 0,
    .bistWindowClose ⟨0, 0⟩ 0,
    .fltForceWrite ⟨0, 0⟩ 0 0,
    .fltStatusClear ⟨0, 0⟩ 0 0,
    .topModeReqRestart ⟨0, 0⟩ 0,
    .keepTodWrite ⟨0, 0⟩ 0,
    .hostWakeClear ⟨0, 0⟩ 0 0,
    .captureRearm ⟨0, 0⟩ 0 0,
    .cntXringWrite ⟨0, 0⟩ 0,
    .aprBqRead ⟨0, 0⟩ .full,
    .fltEvqRead ⟨0, 0⟩ .full] : List Instr).all Instr.wf = true := by decide +kernel
theorem test_wellformed_1 : ([
    .cntLoupeRead ⟨0, 0⟩ .full,
    .macPtpTsRead ⟨0, 0⟩ 0 .full,
    .configRequest ⟨0, 0⟩ 0 false 0,
    .smbUnlistedCommand 0 ⟨0x58, .readByte, [], true⟩,
    .frameReceive 0 [] 0 false 0 false,
    .cellWrite 0 0,
    .pauseRefresh 0,
    .pauseFrame 0 0,
    .priorityPauseFrame 0 0 (List.replicate 8 0),
    .pauseExpiry 0 0,
    .xoffInChange 0 false,
    .cutSegmentPresent 0,
    .parseCut 0,
    .frameEndReport 0,
    .apertureDecision 0,
    .prismStep 0 false,
    .returnReady 0,
    .farLate 0,
    .switchCutStart ⟨0, []⟩,
    .spillWriteComplete 0,
    .refillStart 0,
    .refillComplete 0 0,
    .collimatorSelect 0 [],
    .shaperTick 98,
    .starve 0,
    .gateTransition 0,
    .gateChange 0,
    .linkUp 0,
    .macLink 0 false false false,
    .breachLink 0,
    .breachPause 0,
    .cellFree 0 0 false,
    .chainHandoff 0 0 0,
    .verifyTimer 0 false,
    .settlePassComplete 0,
    .paceWindowEnd 0 (List.replicate 63 0),
    .serviceWorkArrival 0 0,
    .serviceWordIssue 0,
    .serviceResult 0 [],
    .blockResetComplete 0] : List Instr).all Instr.wf = true := by decide +kernel
theorem test_wellformed_2 : ([
    .blockResetFail 0,
    .agingVisit 0,
    .lensCompare 0 false,
    .irisCellReceive 0 (List.replicate 272 0),
    .rtReadySend 0,
    .irisCtrlSend 0,
    .ackTimeout 0,
    .retryBudget 0,
    .callSend 0,
    .echoMissed 0,
    .irisTrained 0 0 0,
    .laneLockLoss 0 0,
    .laneThreshold 0 0 0,
    .rtReqRepeat 0,
    .retrainComplete 0,
    .retrainTimeout 0,
    .gaspRepeat 0,
    .reorderTimeout 0 0,
    .gapLimit 0 0,
    .irisDeadline 0 0,
    .dynamicRequest 0 0,
    .hbmRefresh 0 0 false,
    .hbmScrub 0 0 0,
    .hbmRetrainStart 0,
    .hbmRetrainComplete 0,
    .hbmRetrain 0,
    .farCompletion 0 0 0 0 [],
    .farLink 0,
    .descriptorReadComplete 0 [] false,
    .descriptorReread 0,
    .txDescriptor 0 [] false,
    .msixModeration 0 0,
    .functionLevelReset ⟨0, 0⟩,
    .hxPerstN 0 false,
    .dmaPulse 0 [] [2] false,
    .railGroupGood 0,
    .railFail 0 0,
    .keeperSwitch 0 0,
    .keeperReturnMain 0 0 0,
    .keeperBrownout 0 0] : List Instr).all Instr.wf = true := by decide +kernel
theorem test_wellformed_3 : ([
    .thermalSample (List.replicate 32 0),
    .flashDiscovery false false 0,
    .bistUnitComplete 0 0 false,
    .farPortEnumerate (List.replicate 16 (8, 2, 2049)),
    .keeperStart 0 0,
    .bistGroupStart 0,
    .openRowTimeout 0 0,
    .setAndHoldMac 0,
    .hostLinkTrained 0 false 0 0] : List Instr).all Instr.wf = true := by decide +kernel
theorem test_illformed_0 : ([
    .cmdDoorbell ⟨0, 4⟩ 0 0,
    .cmdDoorbell ⟨0, 0⟩ 64 0,
    .cmdDoorbell ⟨0, 0⟩ 0 18446744073709551616,
    .migTokenArrival 256,
    .fenceLimitExpiry 256,
    .tailWindowEnd 256,
    .markerLimitExpiry 256,
    .parkComplete 1048576,
    .registerWrite ⟨2, 0⟩ 0 0 [],
    .registerWrite ⟨1, 3⟩ 0 0 [],
    .registerWrite ⟨1, 4095⟩ 0 0 [],
    .registerWrite ⟨0, 8192⟩ 0 0 [],
    .registerWrite ⟨0, 0⟩ 3 0 [],
    .registerWrite ⟨0, 0⟩ 0 0 (List.replicate 10 (0, 255)),
    .registerWrite ⟨0, 0⟩ 0 0 [(2 ^ 64, 255)],
    .registerWrite ⟨0, 0⟩ 0 0 [(0, 256)],
    .paceTargetWrite ⟨0, 4⟩ 0,
    .paceTargetWrite ⟨0, 0⟩ 18446744073709551616,
    .paceXoffInWrite ⟨0, 4⟩ 0 0,
    .paceXoffInWrite ⟨0, 0⟩ 8 0,
    .paceXoffInWrite ⟨0, 0⟩ 0 18446744073709551616,
    .paceXoffOutWrite ⟨0, 4⟩ 0 0,
    .paceXoffOutWrite ⟨0, 0⟩ 8 0,
    .paceXoffOutWrite ⟨0, 0⟩ 0 18446744073709551616,
    .bufWmWrite ⟨0, 4⟩ 0 0,
    .bufWmWrite ⟨0, 0⟩ 1024 0,
    .bufWmWrite ⟨0, 0⟩ 0 18446744073709551616,
    .aprResWrite ⟨0, 4⟩ 0 0,
    .aprResWrite ⟨0, 0⟩ 4096 0,
    .aprResWrite ⟨0, 0⟩ 0 18446744073709551616,
    .swcDqWrite ⟨0, 4⟩ 0 0,
    .swcDqWrite ⟨0, 0⟩ 65536 0,
    .swcDqWrite ⟨0, 0⟩ 0 18446744073709551616,
    .hostQWrite ⟨0, 4⟩ 0 0,
    .hostQWrite ⟨0, 0⟩ 16384 0,
    .hostQWrite ⟨0, 0⟩ 0 18446744073709551616,
    .hostQbaseWrite ⟨0, 4⟩ 0 0,
    .hostQbaseWrite ⟨0, 0⟩ 16384 0,
    .hostQbaseWrite ⟨0, 0⟩ 0 18446744073709551616,
    .queueDoorbell ⟨0, 4⟩ 0 0] : List Instr).all (fun i => !i.wf) = true := by decide +kernel
theorem test_illformed_1 : ([
    .queueDoorbell ⟨0, 0⟩ 16384 0,
    .queueDoorbell ⟨0, 0⟩ 0 18446744073709551616,
    .dmaRingWrite ⟨0, 4⟩ 0,
    .dmaRingWrite ⟨0, 0⟩ 18446744073709551616,
    .dmaDoorbell ⟨0, 4⟩ 0,
    .dmaDoorbell ⟨0, 0⟩ 18446744073709551616,
    .cmdRingWrite ⟨0, 4⟩ 0 0,
    .cmdRingWrite ⟨0, 0⟩ 64 0,
    .cmdRingWrite ⟨0, 0⟩ 0 18446744073709551616,
    .cmdPostWrite ⟨0, 4⟩ 0 0,
    .cmdPostWrite ⟨0, 0⟩ 64 0,
    .cmdPostWrite ⟨0, 0⟩ 0 18446744073709551616,
    .timeAdjWrite ⟨0, 4⟩ 0,
    .timeAdjWrite ⟨0, 0⟩ 18446744073709551616,
    .timeOffsetWrite ⟨0, 4⟩ 0,
    .timeOffsetWrite ⟨0, 0⟩ 18446744073709551616,
    .msaInstall ⟨0, 4⟩ 0,
    .msaInstall ⟨0, 0⟩ 18446744073709551616,
    .msaInvalidate ⟨0, 4⟩ 0,
    .msaInvalidate ⟨0, 0⟩ 18446744073709551616,
    .msaReadPn ⟨0, 4⟩ 0,
    .msaReadPn ⟨0, 0⟩ 18446744073709551616,
    .msecPortWrite ⟨0, 4⟩ 0 0,
    .msecPortWrite ⟨0, 0⟩ 96 0,
    .msecPortWrite ⟨0, 0⟩ 0 18446744073709551616,
    .macPreemptWrite ⟨0, 4⟩ 0 0,
    .macPreemptWrite ⟨0, 0⟩ 96 0,
    .macPreemptWrite ⟨0, 0⟩ 0 18446744073709551616,
    .cntProbeWrite ⟨0, 4⟩ 0,
    .cntProbeWrite ⟨0, 0⟩ 18446744073709551616,
    .bistWindowOpen ⟨0, 4⟩ 0,
    .bistWindowOpen ⟨0, 0⟩ 18446744073709551616,
    .bistStart ⟨0, 4⟩ 0,
    .bistStart ⟨0, 0⟩ 18446744073709551616,
    .bistWindowClose ⟨0, 4⟩ 0,
    .bistWindowClose ⟨0, 0⟩ 18446744073709551616,
    .fltForceWrite ⟨0, 4⟩ 0 0,
    .fltForceWrite ⟨0, 0⟩ 4 0,
    .fltForceWrite ⟨0, 0⟩ 0 18446744073709551616,
    .fltStatusClear ⟨0, 4⟩ 0 0] : List Instr).all (fun i => !i.wf) = true := by decide +kernel
theorem test_illformed_2 : ([
    .fltStatusClear ⟨0, 0⟩ 4 0,
    .fltStatusClear ⟨0, 0⟩ 0 18446744073709551616,
    .topModeReqRestart ⟨0, 4⟩ 0,
    .topModeReqRestart ⟨0, 0⟩ 18446744073709551616,
    .keepTodWrite ⟨0, 4⟩ 0,
    .keepTodWrite ⟨0, 0⟩ 18446744073709551616,
    .hostWakeClear ⟨0, 4⟩ 0 0,
    .hostWakeClear ⟨0, 0⟩ 64 0,
    .hostWakeClear ⟨0, 0⟩ 0 18446744073709551616,
    .captureRearm ⟨0, 4⟩ 0 0,
    .captureRearm ⟨0, 0⟩ 67108864 0,
    .captureRearm ⟨0, 0⟩ 0 18446744073709551616,
    .cntXringWrite ⟨0, 4⟩ 0,
    .cntXringWrite ⟨0, 0⟩ 18446744073709551616,
    .aprBqRead ⟨0, 4⟩ .full,
    .fltEvqRead ⟨0, 4⟩ .full,
    .cntLoupeRead ⟨0, 4⟩ .full,
    .macPtpTsRead ⟨0, 4⟩ 0 .full,
    .macPtpTsRead ⟨0, 0⟩ 96 .full,
    .configRequest ⟨0, 4⟩ 0 false 0,
    .configRequest ⟨0, 0⟩ 4096 false 0,
    .configRequest ⟨0, 0⟩ 0 false 4294967296,
    .smbUnlistedCommand 256 ⟨0x58, .readByte, [], true⟩,
    .frameReceive 96 [] 0 false 0 false,
    .frameReceive 0 [] 281474976710656 false 0 false,
    .frameReceive 0 [] 0 false 3 false,
    .cellWrite 384 0,
    .cellWrite 0 96,
    .pauseRefresh 96,
    .pauseFrame 96 0,
    .pauseFrame 0 65536,
    .priorityPauseFrame 96 0 (List.replicate 8 0),
    .priorityPauseFrame 0 256 (List.replicate 8 0),
    .priorityPauseFrame 0 0 [],
    .priorityPauseFrame 0 0 (List.replicate 8 65536),
    .pauseExpiry 96 0,
    .pauseExpiry 0 9,
    .xoffInChange 8 false,
    .cutSegmentPresent 96,
    .parseCut 16] : List Instr).all (fun i => !i.wf) = true := by decide +kernel
theorem test_illformed_3 : ([
    .frameEndReport 96,
    .apertureDecision 384,
    .prismStep 16 false,
    .returnReady 16,
    .farLate 16,
    .switchCutStart ⟨96, []⟩,
    .switchCutStart ⟨0, [64]⟩,
    .spillWriteComplete 1081344,
    .refillStart 1081344,
    .refillComplete 1081344 0,
    .collimatorSelect 99 [],
    .collimatorSelect 0 [64],
    .shaperTick 99,
    .shaperTick 255,
    .shaperTick 1048,
    .shaperTick 2047,
    .shaperTick 2840,
    .shaperTick 65535,
    .shaperTick 131072,
    .shaperTick 2097152,
    .starve 1048576,
    .gateTransition 96,
    .gateChange 96,
    .linkUp 96,
    .macLink 96 false false false,
    .breachLink 1048576,
    .breachPause 1048576,
    .cellFree 786432 0 false,
    .cellFree 0 292 false,
    .chainHandoff 786432 0 0,
    .chainHandoff 0 292 0,
    .chainHandoff 0 0 292,
    .verifyTimer 96 false,
    .settlePassComplete 17,
    .paceWindowEnd 0 [],
    .serviceWorkArrival 32 0,
    .serviceWorkArrival 0 6,
    .serviceWordIssue 32,
    .serviceResult 32 [],
    .serviceResult 0 (List.replicate 65 0)] : List Instr).all (fun i => !i.wf) = true := by decide +kernel
theorem test_illformed_4 : ([
    .blockResetComplete 48,
    .blockResetFail 48,
    .agingVisit 256,
    .lensCompare 16 false,
    .irisCellReceive 64 (List.replicate 272 0),
    .irisCellReceive 0 [],
    .rtReadySend 64,
    .irisCtrlSend 64,
    .ackTimeout 64,
    .retryBudget 64,
    .callSend 64,
    .echoMissed 64,
    .irisTrained 64 0 0,
    .irisTrained 0 3 0,
    .irisTrained 0 0 16,
    .laneLockLoss 64 0,
    .laneLockLoss 0 4,
    .laneThreshold 64 0 0,
    .laneThreshold 0 4 0,
    .rtReqRepeat 64,
    .retrainComplete 64,
    .retrainTimeout 64,
    .gaspRepeat 64,
    .reorderTimeout 4096 0,
    .reorderTimeout 0 8,
    .gapLimit 4096 0,
    .gapLimit 0 8,
    .irisDeadline 4096 0,
    .irisDeadline 0 8,
    .dynamicRequest 256 0,
    .dynamicRequest 0 64,
    .hbmRefresh 256 0 false,
    .hbmRefresh 0 64 false,
    .hbmScrub 256 0 0,
    .hbmScrub 0 18874368 0,
    .hbmScrub 0 0 3,
    .hbmRetrainStart 8,
    .hbmRetrainComplete 8,
    .hbmRetrain 8,
    .farCompletion 16 0 0 0 []] : List Instr).all (fun i => !i.wf) = true := by decide +kernel
theorem test_illformed_5 : ([
    .farCompletion 0 0 3 0 [],
    .farLink 16,
    .descriptorReadComplete 16385 [] false,
    .descriptorReread 16385,
    .txDescriptor 16384 [] false,
    .msixModeration 8192 0,
    .msixModeration 0 2048,
    .functionLevelReset ⟨0, 4⟩,
    .hxPerstN 2 false,
    .dmaPulse 65536 [] [] false,
    .dmaPulse 0 [] [0, 3] false,
    .railGroupGood 4,
    .railFail 4 0,
    .railFail 0 256,
    .keeperSwitch 4096 0,
    .keeperSwitch 0 4096,
    .keeperReturnMain 4096 0 0,
    .keeperReturnMain 0 4096 0,
    .keeperBrownout 4096 0,
    .keeperBrownout 0 4096,
    .thermalSample [],
    .thermalSample (List.replicate 32 256),
    .flashDiscovery false false 65536,
    .bistUnitComplete 8 0 false,
    .bistUnitComplete 0 18446744073709551616 false,
    .farPortEnumerate [],
    .farPortEnumerate (List.replicate 16 (9, 0, 0)),
    .farPortEnumerate (List.replicate 16 (0, 3, 0)),
    .farPortEnumerate (List.replicate 15 (0, 0, 0)),
    .keeperStart 4096 0,
    .keeperStart 0 4096,
    .bistGroupStart 8,
    .openRowTimeout 256 0,
    .openRowTimeout 0 64,
    .setAndHoldMac 96,
    .hostLinkTrained 2 false 0 0,
    .hostLinkTrained 0 false 5 0,
    .hostLinkTrained 0 false 0 17] : List Instr).all (fun i => !i.wf) = true := by decide +kernel

/-! ### Command rings -/

/-- SERVE with ring 0 enabled, of 16 slots. -/
def ringServe : State := setRegs inServe [(0x400000, 2 ^ 63 + 4 * 2 ^ 56)]
/-- The same with one command waiting in the ring. -/
def ringWaits : State := setRegs ringServe [(0x400010, 2 ^ 32)]
/-- A command of ring 0 that has ended. -/
def ended : OpenCmd := { openOf 7 0 [(0, 1, 0x7F)] with started := true, outcome := some (outcomeArea 0 0 0 0 []) }
/-- SERVE with an open command of ring 0. -/
def ringOpen (c : OpenCmd) : State := setRegs { ringServe with cmd := { ringServe.cmd with open_ := [c] } } [(0x400010, 1)]

theorem test_cmd_doorbell : Instr.wf (.cmdDoorbell ⟨0, 0⟩ 0 3) = true ∧ ringServe.reach ⟨0, 0⟩ = true ∧
    0 = ringServe.get (R.CMD_RING.PF 0) ∧ ringServe.mode = .serve ∧ ringServe.bit (R.CMD_RING.ENABLE 0) = true ∧
    (3 + 65536 - ringServe.get (R.CMD_STAT.T 0)) % 65536 ≤ 2 ^ ringServe.get (R.CMD_RING.SIZE 0) ∧
    (3 + 65536 - ringServe.get (R.CMD_STAT.C 0)) % 65536 ≤ 2 ^ ringServe.get (R.CMD_RING.SIZE 0) ∧
    after (exec (.cmdDoorbell ⟨0, 0⟩ 0 3) ringServe) (fun t => t.get (R.CMD_STAT.T 0) == 3) = true := by decide +kernel
theorem test_command_accept : ringWaits.accepts 0 ∧ after (exec (.commandAccept 0) ringWaits) (fun t => t.get R.JRN_HEAD.HEAD == 1 &&
    t.cmd.open_ == [⟨0, 0, 0, ringWaits.nextSlot 0, false, 0, none, false, none, 0⟩] && t.out == ringWaits.posts 0 0 1 0 []) = true := by decide +kernel
theorem test_command_complete : (ringOpen ended).findCmd 7 = some ended ∧ ended.ring < 64 ∧ modeOp ended.bytes = none ∧
    after (exec (.commandComplete 7 0) (ringOpen ended)) (fun t => t.cmd.open_.isEmpty && t.get (R.CMD_STAT.OPEN 0) == 0 &&
      t.jbytes 7 24 6 == outcomeArea 0 0 0 0 []) = true := by decide +kernel
theorem test_command_complete_irq : after (exec (.commandComplete 7 0) (ringOpen { ended with bytes := record 64 [(0, 1, 0x7F), (1, 1, 2)] }))
    (fun t => t.out == (ringOpen ended).posts 0 0 2 7 (outcomeArea 0 0 0 0 []) ++ [.msix 0 0]) = true := by decide +kernel

/-- A command that waits on gate 5. -/
def gated : OpenCmd := { openOf 7 0 [(0, 1, 0x7F), (4, 1, 0x85)] with waiting := true }
def gateWaits (err : Bool) : State := { inServe with tb := 2000000000 * 2 ^ 40, cmd := { inServe.cmd with open_ := [gated], pulses := [(5, err)] } }

theorem test_gate_pulse : (gateWaits false).mode ≠ .holdUp ∧ ((gateWaits false).cmd.open_.find? fun c => c.waiting && c.gate == 5) = some gated ∧
    (gateWaits false).findCmd gated.seq = some gated ∧
    after (exec .gatePulse (gateWaits false)) (fun t => t.findCmd 7 == some { gated with waiting := false } && t.cmd.pulses.isEmpty) = true := by decide +kernel
theorem test_gate_error : after (exec .gatePulse (gateWaits true)) (fun t => t.outcomeOf 7 == some (outcomeArea 1 0x12 0 0 [])) = true := by decide +kernel
theorem test_gate_idle : let s : State := { inServe with cmd := { inServe.cmd with pulses := [(5, true)] } }
    (s.cmd.open_.find? fun c => c.waiting && c.gate == 5) = none ∧ after (exec .gatePulse s) (fun t => t.cmd == inServe.cmd) = true := by decide +kernel
theorem test_gate_timeout : (gateWaits false).findCmd 7 = some gated ∧ gated.waiting = true ∧
    gated.acceptedNs + (gateWaits false).get R.CMD_CFG.GATE_TIMEOUT * 1000000 ≤ (gateWaits false).ns ∧ gated.seq = 7 ∧
    after (exec (.gateTimeout 7) (gateWaits false)) (fun t => t.outcomeOf 7 == some (outcomeArea 3 0 0 0 [])) = true := by decide +kernel
theorem test_nop : (withCmd [(0, 1, 0x7F)]).begins 7 0x7F (openOf 7 0 [(0, 1, 0x7F)]) ∧
    after (exec (.nop 7) (withCmd [(0, 1, 0x7F)])) (fun t => t.outcomeOf 7 == some (outcomeArea 0 0 0 0 [])) = true := by decide +kernel
theorem test_nop_refused : (openOf 7 0 [(0, 1, 0x7F), (63, 1, 1)]).formed [(16, 48)] = false ∧
    after (exec (.nop 7) (withCmd [(0, 1, 0x7F), (63, 1, 1)])) (fun t => t.outcomeOf 7 == some (outcomeArea 1 1 0 0 [])) = true := by decide +kernel
theorem test_unknown_code : (withCmd [(0, 1, 0x6F)]).begins 7 0x6F (openOf 7 0 [(0, 1, 0x6F)]) ∧ codeListed 0x6F = false ∧
    after (exec (.unknownCode 7) (withCmd [(0, 1, 0x6F)])) (fun t => t.outcomeOf 7 == some (outcomeArea 1 0x13 0 0 [])) = true := by decide +kernel

/-- MODE_REQUEST with an operation, in SERVE. -/
def modeCmd (op : Nat) : OpenCmd := openOf 7 0 [(0, 1, 0x7E), (16, 1, op)]
def asksMode (op : Nat) : State := withCmd [(0, 1, 0x7E), (16, 1, op)]

theorem test_mode_query : (asksMode 0).begins 7 0x7E (modeCmd 0) ∧ (modeCmd 0).formed [(17, 47)] = true ∧ (modeCmd 0).op 16 1 = 0 ∧
    after (exec (.modeRequestQuery 7) (asksMode 0)) (fun t => t.outcomeOf 7 == some (outcomeArea 0 0 0 0 [(16, 8, 3 + 16 * 2)])) = true := by decide +kernel
theorem test_mode_reserved : 2 < (modeCmd 3).op 16 1 ∧
    after (exec (.modeRequestQuery 7) (asksMode 3)) (fun t => t.outcomeOf 7 == some (outcomeArea 1 1 0 0 [])) = true := by decide +kernel
theorem test_mode_restart : (asksMode 1).begins 7 0x7E (modeCmd 1) ∧ modeOp (modeCmd 1).bytes = some 1 ∧
    after (exec (.modeRequestRestart 7) (asksMode 1)) (fun t => t.outcomeOf 7 == some (outcomeArea 0 0 0 0 [])) = true := by decide +kernel
theorem test_mode_safe : (asksMode 2).begins 7 0x7E (modeCmd 2) ∧ modeOp (modeCmd 2).bytes = some 2 ∧
    after (exec (.modeRequestSafe 7) (asksMode 2)) (fun t => t.outcomeOf 7 == some (outcomeArea 0 0 0 0 [])) = true := by decide +kernel
/-- The ring holds MODE_REQUEST RESTART as its first command. -/
def modeWaits : State := { ringWaits with cmd := { ringWaits.cmd with slots := [(0, 0x7E), (16, 1)] } }
theorem test_mode_accept : modeWaits.accepts 0 ∧ modeOp (modeWaits.nextSlot 0) = some 1 ∧
    after (exec (.commandAccept 0) modeWaits) (fun t => t.cmd.modeReq == some (1, none) && !t.mayAccept) = true := by decide +kernel
/-- The same has been executed at 5 ns. -/
def modeEnds : State :=
  let s := ringOpen { modeCmd 1 with started := true, outcome := some (outcomeArea 0 0 0 0 []) }
  { s with tb := 5 * 2 ^ 40, cmd := { s.cmd with modeReq := some (1, none) } }
theorem test_mode_complete : (modeEnds.findCmd 7).any (fun c => modeOp c.bytes == some 1 && c.outcome == some (outcomeArea 0 0 0 0 [])) = true ∧
    after (exec (.commandComplete 7 0) modeEnds) (fun t => t.cmd.modeReq == some (1, some 100005) &&
      t.jbytes 7 24 6 == outcomeArea 0 0 0 100005 [] && t.out == modeEnds.posts 0 0 2 7 (outcomeArea 0 0 0 100005 [])) = true := by decide +kernel
theorem test_takeover_restart : let s : State := { inServe with cmd := { inServe.cmd with modeReq := some (1, some 0) } }
    after (exec .modeRequestTakeover s) (fun t => t.mode == .dormant && t.power.ranRestart) = true := by decide +kernel
theorem test_takeover_safe : let s : State := { inServe with cmd := { inServe.cmd with modeReq := some (2, some 0) } }
    after (exec .modeRequestTakeover s) (fun t => t.mode == .safe && t.safeCause == 4) = true := by decide +kernel
theorem test_takeover_early : let s : State := { inServe with cmd := { inServe.cmd with modeReq := some (1, some 1) } }
    s.ns < 1 ∧ after (exec .modeRequestTakeover s) (fun t => t.mode == .serve) = true := by decide +kernel
/-! ### Register writes and reads -/

def pf0 : HostSrc := ⟨0, 0⟩
/-- Whether a word was stored in a register as its fields say. -/
def storesB (s t : State) (off v : Nat) : Bool :=
  match regAt off with
  | some d => t.word off == BitVec.ofNat 64 (storeFields (s.word off).toNat v d.fields).1 && (d.fields.any fun f => f.acc.isSome)
  | none => false
def loggedB (s t : State) (kind off : Nat) : Bool :=
  t.get R.TOP_REGLOG_CNT.COUNT == s.get R.TOP_REGLOG_CNT.COUNT + 1 && t.bit (faultBit 7) && t.get R.TOP_REGLOG.KIND == kind &&
    t.get R.TOP_REGLOG.OFFSET == off

theorem test_manages : inServe.manages pf0 := by decide +kernel
theorem test_register_write : plainReg 0x1C80000 ∧ inServe.valueRules 0x1C80000 5 = (5, false) ∧
    after (exec (.registerWrite pf0 0 0x1C80000 [(5, 255)]) inServe) (fun t => storesB inServe t 0x1C80000 5) = true := by decide +kernel
theorem test_register_write_part :
    after (exec (.registerWrite pf0 0 0x2000000 [(5, 15)]) inServe) (fun t => loggedB inServe t 0 0x2000000 && t.word 0x2000000 == 0) = true := by
  decide +kernel
theorem test_part_of_ring : 0x3C0000 < barSize pf0 1 ∧ after (exec (.registerWrite pf0 1 0x3C0000 [(5, 254)]) inServe)
    (fun t => loggedB inServe t 0 0x3C0000 && t.get R.TOP_REGLOG.BAR == 1 && t.cmd == inServe.cmd) = true := by decide +kernel
theorem test_part_of_journal : 0xFFFFF8 < barSize pf0 2 ∧ after (exec (.registerWrite pf0 2 0xFFFFF8 [(5, 1)]) inServe)
    (fun t => loggedB inServe t 0 0xFFFFF8 && t.get R.TOP_REGLOG.BAR == 2 && t.cmd == inServe.cmd) = true := by decide +kernel
theorem test_xoff_out : wmListed (2 ^ 15 % 4096) = true ∧
    after (exec (.paceXoffOutWrite pf0 7 (2 ^ 15)) inServe) (fun t => storesB inServe t 0x600138 (2 ^ 15) && t.bit (R.PACE_XOFF_OUT.ENABLE 7)) = true := by
  decide +kernel
theorem test_xoff_in : bitsGet 0x5F00 0 7 ≤ bitsGet 0x5F00 8 7 ∧ bitsGet 0x5F00 8 7 ≤ 95 ∧
    after (exec (.paceXoffInWrite pf0 0 0x5F00) inServe) (fun t => storesB inServe t 0x600140 0x5F00 && t.get (R.PACE_XOFF_IN.LAST_PORT 0) == 95) = true := by
  decide +kernel
theorem test_xoff_in_rejected : bitsGet 0x305 8 7 < bitsGet 0x305 0 7 ∧
    after (exec (.paceXoffInWrite pf0 0 0x305) inServe) (fun t => loggedB inServe t 1 0x600140 && t.get (R.PACE_XOFF_IN.LAST_PORT 0) == 0) = true := by
  decide +kernel
theorem test_apr_res : after (exec (.aprResWrite pf0 4095 0xABCDEF) inServe) (fun t => storesB inServe t 0x1D17FF0 0xABCDEF) = true := by
  decide +kernel
theorem test_swc_dq : after (exec (.swcDqWrite pf0 65535 (2 ^ 63 + 9)) inServe) (fun t => storesB inServe t 0x1CFFFF8 (2 ^ 63 + 9)) = true := by
  decide +kernel
theorem test_cmd_post : inServe.bit (R.CMD_RING.ENABLE 63) = false ∧
    after (exec (.cmdPostWrite pf0 63 64) inServe) (fun t => storesB inServe t 0x4007E8 64) = true := by decide +kernel
theorem test_host_qbase : inServe.bit (R.HOST_Q.ENABLE 16383) = false ∧
    after (exec (.hostQbaseWrite pf0 16383 4096) inServe) (fun t => storesB inServe t 0x277FFF8 4096) = true := by decide +kernel
theorem test_time_offset : inServe.fabricTime = false ∧
    after (exec (.timeOffsetWrite pf0 5) inServe) (fun t => storesB inServe t 0x700010 5) = true := by decide +kernel
theorem test_host_wake : let s := setRegs inServe [(0x27A01F8, 7)]
    s.manages pf0 ∧ after (exec (.hostWakeClear pf0 63 2) s) (fun t => storesB s t 0x27A01F8 2 && t.word 0x27A01F8 == 5) = true := by decide +kernel
theorem test_capture_rearm : let s := setRegs inServe [(0x20, 2 ^ 63 + 5)]
    isCapture 0x20 = true ∧ plainReg 0x20 ∧ s.valueRules 0x20 (2 ^ 63) = (2 ^ 63, false) ∧
    after (exec (.captureRearm pf0 0x20 (2 ^ 63)) s) (fun t => storesB s t 0x20 (2 ^ 63) && t.word 0x20 == 5) = true := by decide +kernel
theorem test_pace_target : inServe.get R.PACE_FLOOR.FLOOR < 2110 ∧ 2110 + 30 < 2200 ∧ 2200 + 30 ≤ 2600 ∧
    after (exec (.paceTargetWrite pf0 (2110 * 2 ^ 32 + 2200 * 2 ^ 16 + 30)) inServe)
      (fun t => t.get R.PACE_TARGET.GUARD == 2110 && t.get R.PACE_TARGET.TARGET == 2200) = true := by decide +kernel
theorem test_pace_target_rejected :
    after (exec (.paceTargetWrite pf0 (2110 * 2 ^ 32 + 2140 * 2 ^ 16 + 30)) inServe)
      (fun t => loggedB inServe t 1 0x600020 && t.get R.PACE_TARGET.TARGET == inServe.get R.PACE_TARGET.TARGET) = true := by decide +kernel
theorem test_watermark : wmListed 522 = true ∧ after (exec (.bufWmWrite pf0 522 (2 ^ 28 * 9 + 8)) inServe)
      (fun t => t.get (R.BUF_WM.HIGH 522) == 9 && t.get (R.BUF_WM.LOW 522) == 8) = true := by decide +kernel
theorem test_watermark_rejected : after (exec (.bufWmWrite pf0 522 (2 ^ 28 * 9 + 9)) inServe)
      (fun t => t.get (R.BUF_WM.HIGH 522) == 0 && loggedB inServe t 1 0x1B05050) = true := by decide +kernel
theorem test_watermark_zero : after (exec (.bufWmWrite pf0 384 9) inServe)
      (fun t => t.get (R.BUF_WM.HIGH 384) == 0 && t.get (R.BUF_WM.LOW 384) == 9 && t.get R.TOP_REGLOG_CNT.COUNT == 0) = true := by decide +kernel
theorem test_cmd_ring : inServe.bit (R.CMD_RING.ENABLE 0) = false ∧ (2 ^ 63 + 5 * 2 ^ 56).testBit 63 = true ∧
    after (exec (.cmdRingWrite pf0 0 (2 ^ 63 + 5 * 2 ^ 56)) (setRegs inServe [(0x400010, 2 ^ 63 + 7)]))
      (fun t => t.bit (R.CMD_RING.ENABLE 0) && t.get (R.CMD_RING.SIZE 0) == 5 && t.word 0x400010 == 7) = true := by decide +kernel
theorem test_host_q : inServe.bit (R.HOST_Q.ENABLE 0) = false ∧ (2 ^ 63 + 4 * 2 ^ 42).testBit 63 = true ∧
    after (exec (.hostQWrite pf0 0 (2 ^ 63 + 4 * 2 ^ 42)) inServe) (fun t => t.bit (R.HOST_Q.ENABLE 0) && !t.bit (R.HOST_QSTAT.STOPPED 0)) = true := by decide +kernel
/-- SERVE with H1 held in reset. -/
def oneHeld : State := { inServe with power := { inServe.power with perstN := [true, false] } }
theorem test_host_q_stopped : oneHeld.manages pf0 ∧ oneHeld.epOfFunc 4 = 1 ∧ bitsGet (2 ^ 63 + 4 * 2 ^ 46 + 4 * 2 ^ 42) 46 13 = 4 ∧
    after (exec (.hostQWrite pf0 0 (2 ^ 63 + 4 * 2 ^ 46 + 4 * 2 ^ 42)) oneHeld) (fun t => t.bit (R.HOST_Q.ENABLE 0) && t.bit (R.HOST_QSTAT.STOPPED 0)) = true := by
  decide +kernel
theorem test_host_q_held : let s := setRegs inServe [(0x2740000, 2 ^ 63 + 4 * 2 ^ 42)]
    s.manages pf0 ∧ s.bit (R.HOST_Q.ENABLE 0) = true ∧ (2 ^ 63 + 4 * 2 ^ 42 + 32) % 2 ^ 32 ≠ s.get ⟨(R.HOST_Q.ENABLE 0).off, 0, 32⟩ ∧
    s.get ⟨(R.HOST_Q.ENABLE 0).off, 0, 5⟩ = 0 ∧
    after (exec (.hostQWrite pf0 0 (2 ^ 63 + 4 * 2 ^ 42 + 32)) s) (fun t => t.word 0x2740000 == s.word 0x2740000 && loggedB s t 3 0x2740000) = true := by
  decide +kernel
theorem test_dma_ring : inServe.bit R.DMA_RING.ENABLE = false ∧ (2 ^ 9 + 64).testBit 9 = true ∧
    after (exec (.dmaRingWrite pf0 (2 ^ 9 + 64)) inServe) (fun t => t.bit R.DMA_RING.ENABLE && t.get R.DMA_RING.SIZE == 4) = true := by decide +kernel
theorem test_cnt_xring : inServe.bit R.CNT_XRING.EN = false ∧ (2 ^ 11 + 32).testBit 11 = true ∧
    after (exec (.cntXringWrite pf0 (2 ^ 11 + 32)) { inServe with cnt := { inServe.cnt with xn := 3 } })
      (fun t => t.bit R.CNT_XRING.EN && t.cnt.xn == 0) = true := by decide +kernel
theorem test_time_adj : after (exec (.timeAdjWrite pf0 (7 * 2 ^ 32 + (2 ^ 32 - 5))) inServe)
    (fun t => t.get R.TIME_ADJ.FREQ == 7 && t.slew == -5 * 2 ^ 40) = true := by decide +kernel
theorem test_time_adj_ignored : let s := setRegs inServe [(0x2400028, 2 ^ 59)]
    s.manages pf0 ∧ s.fabricTime = true ∧ after (exec (.timeAdjWrite pf0 9) s) (fun t => t.slew == 0 && loggedB s t 3 0x700008) = true := by decide +kernel
/-- An association staged for port 2. -/
def staged : State := setRegs inServe [(0x2200800, 0x11), (0x2200830, 77)]
theorem test_msa_install : staged.manages pf0 ∧ bitsGet (2 * 2 ^ 49 + 64) 49 7 < 96 ∧ staged.upperMac 2 = false ∧
    staged.bit (R.SEC_MSEC_PORT.EN 2) = false ∧
    after (exec (.msaInstall pf0 (2 * 2 ^ 49 + 64)) staged) (fun t =>
      t.assoc (msaKey 2 0 0 0) == some { staged.stagedAssoc with window := 64 } && t.word 0x2200800 == 0) = true := by decide +kernel
theorem test_msa_invalidate : after (exec (.msaInvalidate pf0 (2 * 2 ^ 49)) (staged.setAssoc (msaKey 2 0 0 0) (some staged.stagedAssoc)))
    (fun t => (t.assoc (msaKey 2 0 0 0)).isNone) = true := by decide +kernel
theorem test_msa_read_pn : (staged.setAssoc (msaKey 2 0 0 0) (some staged.stagedAssoc)).assoc (msaKey 2 0 0 0) = some staged.stagedAssoc ∧
    after (exec (.msaReadPn pf0 (2 * 2 ^ 49)) (setRegs (staged.setAssoc (msaKey 2 0 0 0) (some staged.stagedAssoc)) [(0x2200830, 1)]))
      (fun t => t.word 0x2200830 == 77) = true := by decide +kernel
theorem test_msec_port : after (exec (.msecPortWrite pf0 95 (2 ^ 63 + 2 ^ 59)) inServe)
    (fun t => t.bit (R.SEC_MSEC_PORT.EN 95) && t.get (R.SEC_MSEC_PORT.TX_AN 95) == 2) = true := by decide +kernel
theorem test_mac_preempt : after (exec (.macPreemptWrite pf0 95 (2 ^ 63 + 10 * 2 ^ 40)) inServe)
    (fun t => t.bit (R.MAC_PREEMPT.EN 95) && t.get (R.MAC_PREEMPT.VERIFY_TIME 95) == 10) = true := by decide +kernel
theorem test_cnt_probe : let s := setRegs inServe [(0x2901008, 12)]
    s.manages pf0 ∧ counterOffs.contains (bitsGet 0x2901008 0 48) = true ∧
    after (exec (.cntProbeWrite pf0 0x2901008) s) (fun t => t.bit R.CNT_PROBE.VALID && t.word 0x2900018 == 12) = true := by decide +kernel
theorem test_keep_tod : after (exec (.keepTodWrite pf0 (2 ^ 48 - 1)) inServe)
    (fun t => t.get R.KEEP_TOD.SECONDS == 2 ^ 48 - 1 && t.bit R.KEEP_TOD.VALID) = true := by decide +kernel
theorem test_flt_force : sourceListed (64 * 3 + 55) = true ∧
    after (exec (.fltForceWrite pf0 3 (2 ^ 55)) inServe) (fun t => t.bit (faultBit 247) && t.get (R.FLT_REACT.COUNT 247) == 1) = true := by decide +kernel
theorem test_flt_status_clear : let s := setRegs inServe [(0x200000, 6), (0x201008, 1 + 2 ^ 32)]
    s.manages pf0 ∧ after (exec (.fltStatusClear pf0 0 2) s) (fun t => t.word 0x200000 == 4 && t.get (R.FLT_REACT.COUNT 1) == 0) = true := by decide +kernel
/-- SAFE. -/
def inSafe : State := { State.reset with mode := .safe, prev := .serve }
theorem test_top_mode_req : inSafe.reach pf0 = true ∧
    after (exec (.topModeReqRestart pf0 0) inSafe) (fun t => t.mode == .dormant && t.power.ranRestart) = true := by decide +kernel
theorem test_top_mode_req_serve : after (exec (.topModeReqRestart pf0 0) inServe) (fun t => loggedB inServe t 3 0x18) = true := by decide +kernel
/-- HOLD-UP, entered from SERVE, before isolation. -/
def inHoldUp : State := { inServe with mode := .holdUp, prev := .serve }
theorem test_top_mode_req_hold_up : inHoldUp.reach pf0 = true ∧
    after (exec (.topModeReqRestart pf0 1) inHoldUp) (fun t => t.mode == .holdUp && loggedB inHoldUp t 3 0x18) = true := by decide +kernel
theorem test_bist_window_open : inServe.bit R.BIST_CTRL.WINDOW = false ∧
    after (exec (.bistWindowOpen pf0 0) inServe) (fun t => t.apr.windowRefuse && t.get R.BIST_STATUS.STATE == 2) = true := by decide +kernel
/-- An open window: iris 3 was enabled and drains, iris 4 was enabled and has been disabled since; the others were not enabled. -/
def windowOpen : State :=
  let s := setRegs inServe [(0x2A00000, 2 ^ 8), (0x2A00008, 2), ((R.IRIS_STATUS.STATE 3).off, 3 * 2 ^ (R.IRIS_STATUS.STATE 3).lo)]
  { s with
    apr := { s.apr with windowRefuse := true }
    irises := [(3, { disabling := some windowSeq })]
    bist := { saved := (List.range 64).map fun i => (i, decide (i = 3 ∨ i = 4)) } }
theorem test_bist_window_close : windowOpen.manages pf0 ∧ windowOpen.bit R.BIST_CTRL.WINDOW = true ∧
    ((List.range 64).all fun i => (windowOpen.iris i).disabling == some windowSeq || windowOpen.irisState i == 0) = true ∧
    after (exec (.bistWindowClose pf0 0) windowOpen) (fun t => !t.apr.windowRefuse && t.irisState 3 == 2 && (t.iris 3).disabling.isNone &&
      t.irisState 4 == 1 && t.bit (R.IRIS_CTRL.ENABLE 4) && t.irisState 63 == 0) = true := by decide +kernel
theorem test_bist_window_ready : windowOpen.livePkts = [] ∧ windowOpen.fab.waiting = [] ∧ windowOpen.bit R.BIST_STATUS.READY = false ∧
    after (exec .bistWindowReady windowOpen) (fun t => t.bit R.BIST_STATUS.READY && t.get R.BIST_STATUS.STATE == 3) = true := by decide +kernel
/-- A window that is ready, with a section of two plans. -/
def windowReady : State := { setRegs windowOpen [(0x2A00008, 0x83), ((R.BIST_SAVE.SIZE).off, (2 ^ 32 - 1) * 2 ^ (R.BIST_SAVE.SIZE).lo)] with
  bist := { section_ := [2] } }
theorem test_bist_start : windowReady.manages pf0 ∧ windowReady.bit R.BIST_STATUS.READY = true ∧ windowReady.bit R.BIST_CTRL.WINDOW = true ∧
    (2 ^ 8 + 1).testBit 8 = true ∧ (2 ^ 8 + 1) % 16 < planCount windowReady.bist.section_ ∧
    ((planUnits windowReady.bist.section_ 1).any hbmUnit) = false ∧ 128 ≤ windowReady.get R.BIST_SAVE.SIZE ∧
    windowReady.bist.plan = none := by decide +kernel
theorem test_bist_start_runs : after (exec (.bistStart pf0 (2 ^ 8 + 1)) windowReady) (fun t => t.bist.plan == some 1 && t.get R.BIST_STATUS.STATE == 4) = true := by
  decide +kernel
def oneFault : FaultEvent := ⟨1, 2, false, false, 3, 4⟩
theorem test_flt_evq_read : let s : State := { inServe with fault := { inServe.fault with queue := [oneFault] } }
    s.manages pf0 ∧ after (exec (.fltEvqRead pf0 .full) s) (fun t => t.fault.queue.isEmpty && t.out == [.readData [2 ^ 63 + 4]]) = true := by decide +kernel
theorem test_apr_bq_read : let s : State := { inServe with apr := { inServe.apr with breaches := [(1, 2)] } }
    s.manages pf0 ∧ s.bit R.CNT_XRING.EN = false ∧
    after (exec (.aprBqRead pf0 .full) s) (fun t => t.apr.breaches.isEmpty && t.out == [.readData [2]]) = true := by decide +kernel
theorem test_loupe_read : let s : State := { inServe with cnt := { inServe.cnt with loupe := [⟨1, 2, 3⟩] } }
    s.manages pf0 ∧ after (exec (.cntLoupeRead pf0 .full) s) (fun t => t.cnt.loupe.isEmpty && t.out == [.readData [3]]) = true := by decide +kernel
theorem test_ptp_read : let s : State := { inServe with mac := { inServe.mac with ptp := [(95, [(1, 2)])] } }
    s.manages pf0 ∧ SMap.find (fun _ => []) s.mac.ptp 95 = [(1, 2)] ∧
    after (exec (.macPtpTsRead pf0 95 .full) s) (fun t => t.mac.ptp.isEmpty && t.out == [.readData [2]]) = true := by decide +kernel
theorem test_long_read : after (exec (.fltEvqRead pf0 (.long 1 3)) inServe) (fun t => t.out == [.readData [0, 0, 0]]) = true := by decide +kernel
theorem test_config : Instr.wf (.configRequest pf0 0 false 0) = true ∧ inServe.epUp 0 = true ∧
    after (exec (.configRequest pf0 0 false 0) inServe) (fun t => t.out == [.cfgAnswer]) = true ∧
    after (exec (.configRequest pf0 0 false 0) State.reset) (fun t => t.out == [.cfgRetry]) = true := by decide +kernel
theorem test_device_control : Instr.wf (.configRequest pf0 Config.deviceControl.val true 0x2040) = true := by
  simp [Instr.wf, Config.deviceControl.isLt]; decide
theorem test_device_control_sizes : let t := inServe.deviceControl 0 Config.deviceControl.val 0x2040
    t.maxPayload 0 = 512 ∧ t.maxRead 0 = 512 := by
  simp only [State.deviceControl, if_pos]; decide +kernel
/-! ### Tables -/

/-- SERVE with table 3 direct, of 16 lines from line 0 of table SRAM, keys of 1 nibble, and table 4 of exact matches with 4 buckets
from line 64. -/
def tables : List (Nat × Nat) :=
  [((R.TBL_DESC.KIND 3).off, 4 * 2 ^ (R.TBL_DESC.KIND 3).lo + 1 * 2 ^ (R.TBL_DESC.KEYN 3).lo + 4 * 2 ^ (R.TBL_DESC.BBITS 3).lo),
   ((R.TBL_DESC.KIND 4).off, 2 * 2 ^ (R.TBL_DESC.KIND 4).lo + 4 * 2 ^ (R.TBL_DESC.KEYN 4).lo + 2 * 2 ^ (R.TBL_DESC.BBITS 4).lo +
      64 * 2 ^ (R.TBL_DESC.BASE 4).lo + 2 ^ (R.TBL_DESC.AGE 4).lo + 2 ^ (R.TBL_DESC.FLUSH 4).lo)]
/-- The same with one open command. -/
def tableCmd (fields : List (Nat × Nat × Nat)) : State := setRegs (withCmd fields) tables
/-- Images for the line 5 of table 3, all ones, and for the key 0xABCD of table 4. -/
def lineImg : List Byte := makeImage 4 0 0 0 5 1 (2 ^ 512 - 1)
def exactImg : List Byte := makeImage 2 0 0 7 0xABCD 4 0x123456
def insertF : List (Nat × Nat × Nat) := [(0, 1, 1), (16, 1, 3), (18, 2, 1), (24, 8, 64)]
def insertE : List (Nat × Nat × Nat) := [(0, 1, 1), (16, 1, 4), (18, 2, 1), (24, 8, 64)]
def deleteF : List (Nat × Nat × Nat) := [(0, 1, 2), (16, 1, 3), (18, 2, 1), (24, 8, 64)]
def searchF : List (Nat × Nat × Nat) := [(0, 1, 3), (16, 1, 3), (24, 8, 64)]
def searchE : List (Nat × Nat × Nat) := [(0, 1, 3), (16, 1, 4), (24, 8, 64)]
def nextF : List (Nat × Nat × Nat) := [(0, 1, 4), (16, 1, 4), (18, 2, 2), (32, 8, 64)]
def nextD : List (Nat × Nat × Nat) := [(0, 1, 4), (16, 1, 3), (18, 2, 2), (32, 8, 64)]
def flushF : List (Nat × Nat × Nat) := [(0, 1, 5), (16, 1, 4), (20, 4, 7)]
/-- Table 4 with its entry. -/
def filled (fields : List (Nat × Nat × Nat)) : State :=
  match (tableCmd fields).insertImage 4 exactImg 0 with
  | .inr u => u
  | .inl _ => tableCmd fields

theorem test_tbl_insert : (tableCmd insertF).begins 7 1 (openOf 7 0 insertF) ∧ (openOf 7 0 insertF).formed [(20, 4), (32, 32)] = true ∧
    (tableCmd insertF).get (R.TBL_DESC.KIND ((openOf 7 0 insertF).op 16 1)) = 4 ∧
    (applyImages (fun u img => u.insertImage ((openOf 7 0 insertF).op 16 1) img ((openOf 7 0 insertF).op 17 1)) ([tblImage lineImg 0]) 0
      ((tableCmd insertF).emit (.hostRead 0 64 128 false false))).2.1 = none ∧
    after (exec (.tblInsert 7 lineImg) (tableCmd insertF)) (fun t => t.outcomeOf 7 == some (outcomeArea 0 0 0 0 [(16, 2, 1)]) &&
      t.tline 5 == 2 ^ 512 - 1) = true := by decide +kernel
theorem test_tbl_insert_exact : after (exec (.tblInsert 7 exactImg) (tableCmd insertE)) (fun t =>
    t.outcomeOf 7 == some (outcomeArea 0 0 0 0 [(16, 2, 1)]) && (t.placesOf 4 0xABCD).length == 1) = true := by decide +kernel
theorem test_tbl_delete : (tableCmd deleteF).begins 7 2 (openOf 7 0 deleteF) ∧ (openOf 7 0 deleteF).formed [(20, 4), (32, 32)] = true ∧
    (applyImages (fun u img => u.deleteImage ((openOf 7 0 deleteF).op 16 1) img ((openOf 7 0 deleteF).op 17 1)) ([tblImage lineImg 0]) 0
      ((tableCmd deleteF).emit (.hostRead 0 64 128 false false))).2.1 = none ∧
    after (exec (.tblDelete 7 lineImg) ((tableCmd deleteF).setTline 5 9)) (fun t => t.tline 5 == 0) = true := by decide +kernel
theorem test_tbl_search : (filled searchE).begins 7 3 (openOf 7 0 searchE) ∧ (openOf 7 0 searchE).formed [(19, 5), (32, 32)] = true ∧
    (openOf 7 0 searchE).op 18 1 / 16 % 8 = 0 ∧
    (filled searchE).imgGood 4 (slice exactImg 0 2 ++ [0] ++ slice exactImg 3 61 ++ leBytes 64 0) true = true ∧
    ((filled searchE).searchTable 4 0 (filled searchE).current (slice exactImg 0 128)).isSome = true ∧
    after (exec (.tblSearch 7 exactImg) (filled searchE)) (fun t => t.outcomeOf 7 == some (outcomeArea 4 0 0 0 [])) = true := by decide +kernel
theorem test_tbl_search_none : (tableCmd searchE).searchTable 4 0 (tableCmd searchE).current (slice exactImg 0 128) = none ∧
    after (exec (.tblSearch 7 exactImg) (tableCmd searchE)) (fun t => t.outcomeOf 7 == some (outcomeArea 5 0 0 0 [])) = true := by decide +kernel
theorem test_tbl_next : (tableCmd nextF).begins 7 4 (openOf 7 0 nextF) ∧ (openOf 7 0 nextF).formed [(17, 1), (20, 4), (40, 24)] = true ∧
    (tableCmd nextF).imagesFrom 4 0 2 = [] ∧ ((filled nextF).imagesFrom 4 0 2).length = 1 := by decide +kernel
theorem test_tbl_next_direct : after (exec (.tblNext 7) (tableCmd nextD)) (fun t =>
    t.outcomeOf 7 == some (outcomeArea 0 0 0 0 [(16, 2, 2), (24, 8, 2), (32, 4, 0)])) = true := by decide +kernel
theorem test_tbl_flush : (filled flushF).begins 7 5 (openOf 7 0 flushF) ∧ (openOf 7 0 flushF).formed [(18, 2), (24, 40)] = true ∧
    exactKind ((filled flushF).get (R.TBL_DESC.KIND 4)) = true ∧ ((openOf 7 0 flushF).op 17 1).testBit 0 = false ∧
    after (exec (.tblFlushPort 7) (filled flushF)) (fun t => t.outcomeOf 7 == some (outcomeArea 0 0 0 0 [(16, 4, 1)]) &&
      (t.placesOf 4 0xABCD).isEmpty) = true := by decide +kernel

def learnState : State := { tableCmd [] with tbl := { (tableCmd []).tbl with learn := [⟨4, 0xABCD, 0x5566778899AABBCC, 9⟩] } }
theorem test_learn_insert : learnState.forwarding = true ∧ learnState.roleUp 1 = true ∧ exactKind (learnState.get (R.TBL_DESC.KIND 4)) = true ∧
    after (exec .learnInsert learnState) (fun t => t.tbl.learn.isEmpty && (t.placesOf 4 0xABCD).length == 1 && t.get (R.TBL_FILL.USED 4) == 1) = true := by
  decide +kernel
theorem test_learn_duplicate : let s : State := { filled [] with tbl := { (filled []).tbl with learn := [⟨4, 0xABCD, 1, 9⟩] } }
    s.placesOf 4 0xABCD ≠ [] ∧ after (exec .learnInsert s) (fun t => t.get R.TBL_LEARN.DUP == 1) = true := by decide +kernel
theorem test_hit_write : let k := (filled []).placesOf 4 0xABCD
    let s : State := { filled [] with tbl := { (filled []).tbl with hits := k.map fun x => (4, 8 * ((filled []).bucketKey 4 x.1) + x.2, 0xABCD) } }
    s.tbl.hits.length = 1 ∧ s.coreUp = true ∧
    after (exec .hitWrite s) (fun t => t.tbl.hits.isEmpty && (t.entriesOf 4).any fun e => e.2.flags == 3) = true := by decide +kernel
/-- Table 4 with its entry, in the first sweep. -/
def swept : State := { filled [] with tbl := { (filled []).tbl with sweep := [(4, (1, 0))] } }
theorem test_aging_visit : swept.forwarding = true ∧ swept.roleUp 2 = true ∧ exactKind (swept.get (R.TBL_DESC.KIND 4)) = true ∧
    swept.bit (R.TBL_DESC.AGE 4) = true ∧ SMap.find (fun _ => (0, 0)) swept.tbl.sweep 4 = (1, 0) ∧ (swept.dueVisit 4 1 0).isSome = true ∧
    after (exec (.agingVisit 4) swept) (fun t => (t.entriesOf 4).any fun e => e.2.flags == 5) = true := by decide +kernel
/-- A second visit in the same sweep finds no entry left and begins the next. -/
theorem test_aging_next_sweep : after (exec (.agingVisit 4) swept) (fun t => after (exec (.agingVisit 4) t) fun u =>
    (SMap.find (fun _ => (0, 0)) u.tbl.sweep 4).1 == 2) = true := by decide +kernel
theorem test_lens_compare : let s : State := { inServe with lens := { inServe.lens with shadows := [(16384, { valid := true, prio := 3 })] } }
    s.coreUp = true ∧ s.compareHeld 1 = false ∧ (s.lens.queued.find? fun e => e.1 == 1) = none ∧
    after (exec (.lensCompare 1 false) s) (fun t => (t.lensRow 1 0).prio == 3 && t.get (R.LENS_SCRUB.ROW 1) == 1) = true := by decide +kernel
/-! ### Lenses, versions, patches -/

/-- A lens image of row 9 with the cells given, priority 2, and a death version of 1. -/
def lensImg (cells : Nat) : List Byte := record 192 [(0, 2, 9), (2, 2, 2), (8, 1, 16), (32, 160, cells)]
def lensW (op : Nat) : List (Nat × Nat × Nat) := [(0, 1, 0x10), (16, 1, 3), (17, 1, op), (18, 2, 1), (24, 8, 64)]
def lensInv : List (Nat × Nat × Nat) := [(0, 1, 0x11), (16, 1, 3), (17, 1, 1), (18, 2, 9), (20, 2, 1)]
/-- Version 1 staged. -/
def stagedS (s : State) : State := (s.setBit R.APR_VERSION.STAGE_OPEN true).set R.APR_VERSION.STAGED 1
def withRow (s : State) (r : LensRow) : State :=
  { s with lens := { s.lens with rows := [(3 * 16384 + 9, r)], shadows := [(3 * 16384 + 9, r)] } }

theorem test_lens_write : (withCmd (lensW 0)).begins 7 0x10 (openOf 7 0 (lensW 0)) ∧ (openOf 7 0 (lensW 0)).formed [(20, 4), (32, 32)] = true ∧
    (openOf 7 0 (lensW 0)).op 17 1 = 0 ∧ ((withCmd (lensW 0)).compareQueued 3).lensFirstBad 3 0 (lensImg 77) 1 = none ∧
    after (exec (.lensWrite 7 (lensImg 77)) (withCmd (lensW 0))) (fun t => (t.lensRow 3 9).cells == 77 && (t.lensRow 3 9).valid) = true := by decide +kernel
theorem test_lens_death : let s := stagedS (withRow (withCmd (lensW 1)) { valid := true })
    s.begins 7 0x10 (openOf 7 0 (lensW 1)) ∧ (s.compareQueued 3).lensFirstBad 3 1 (lensImg 0) 1 = none ∧
    after (exec (.lensDeath 7 (lensImg 0)) s) (fun t => (t.lensRow 3 9).dying && (t.lensRow 3 9).death == 1) = true := by decide +kernel
/-- A comparison queued for another row of the array comes first (R178). -/
theorem test_lens_queued_first : let s := withCmd (lensW 0)
    let q : State := { s with lens := { s.lens with
      queued := [(3, 8)]
      rows := [(3 * 16384 + 8, { valid := true, prio := 5, bad := true })]
      shadows := [(3 * 16384 + 8, { valid := true })] } }
    after (exec (.lensWrite 7 (lensImg 77)) q) (fun t => t.lens.queued.isEmpty && t.get (R.LENS_SCRUB.FIXES 3) == 1 &&
      (t.lensRow 3 9).cells == 77) = true := by decide +kernel
theorem test_lens_revive : let s := stagedS (withRow (withCmd (lensW 2)) { valid := true, dying := true, death := 1 })
    s.begins 7 0x10 (openOf 7 0 (lensW 2)) ∧ (s.compareQueued 3).lensFirstBad 3 2 (lensImg 0) 1 = none ∧
    after (exec (.lensRevive 7 (lensImg 0)) s) (fun t => !(t.lensRow 3 9).dying) = true := by decide +kernel
theorem test_lens_invalidate : let s := withRow (withCmd lensInv) { valid := true }
    s.begins 7 0x11 (openOf 7 0 lensInv) ∧ (openOf 7 0 lensInv).formed [(22, 42)] = true ∧
    after (exec (.lensInvalidate 7) s) (fun t => !(t.lensRow 3 9).valid && t.outcomeOf 7 == some (outcomeArea 0 0 0 0 [(16, 2, 1)])) = true := by decide +kernel
def stageF (op : Nat) : List (Nat × Nat × Nat) := [(0, 1, 0x20), (16, 1, op)]
theorem test_stage_open : (withCmd (stageF 0)).begins 7 0x20 (openOf 7 0 (stageF 0)) ∧ (openOf 7 0 (stageF 0)).formed [(17, 47)] = true ∧
    (withCmd (stageF 0)).bit R.APR_VERSION.STAGE_OPEN = false ∧
    after (exec (.versionStageOpen 7) (withCmd (stageF 0))) (fun t => t.staged == some 1) = true := by decide +kernel
theorem test_stage_abandon : (stagedS (withCmd (stageF 1))).begins 7 0x20 (openOf 7 0 (stageF 1)) ∧ (openOf 7 0 (stageF 1)).formed [(17, 47)] = true ∧
    (stagedS (withCmd (stageF 1))).staged ≠ none ∧ (stagedS (withCmd (stageF 1))).rulesWaiting = false ∧
    after (exec (.versionStageAbandon 7) (stagedS (withCmd (stageF 1)))) (fun t => t.ver.abandoning == [(7, 0)]) = true := by decide +kernel
def abandoning : State := let s := stagedS (withCmd (stageF 1)); { s with ver := { s.ver with abandoning := [(7, 5)] } }
theorem test_abandon_sweep : abandoning.executing = true ∧ abandoning.findCmd 7 = some (openOf 7 0 (stageF 1)) ∧
    after (exec .abandonSweepComplete abandoning) (fun t => t.outcomeOf 7 == some (outcomeArea 0 0 0 5 []) && !t.bit R.APR_VERSION.STAGE_OPEN) = true := by
  decide +kernel
def commitF : List (Nat × Nat × Nat) := [(0, 1, 0x21), (16, 1, 1), (17, 1, 1)]
theorem test_version_commit : (stagedS (withCmd commitF)).begins 7 0x21 (openOf 7 0 commitF) ∧ (stagedS (withCmd commitF)).ver.waiting = none ∧
    (stagedS (withCmd commitF)).commitBad (openOf 7 0 commitF) = none ∧
    after (exec (.versionCommit 7) (stagedS (withCmd commitF))) (fun t => t.ver.waiting == some 7 && t.bit R.APR_VERSION.COMMIT_WAIT) = true := by decide +kernel
def committing (fields : List (Nat × Nat × Nat)) : State := let s := stagedS (withCmd fields); { s with ver := { s.ver with waiting := some 7 } }
theorem test_commit_takeover : (committing commitF).executing = true ∧ (committing commitF).findCmd 7 = some (openOf 7 0 commitF) ∧ (committing commitF).commitReady (openOf 7 0 commitF) = true ∧
    commitRules (openOf 7 0 commitF) = true ∧ commitBank (openOf 7 0 commitF) = false ∧
    after (exec .commitTakeover (committing commitF)) (fun t => t.current == 1 && t.get R.APR_VERSION.LIVE == 2) = true := by decide +kernel
def bankF : List (Nat × Nat × Nat) := [(0, 1, 0x21), (16, 1, 2), (18, 1, 1)]
theorem test_bank_takeover : (committing bankF).findCmd 7 = some (openOf 7 0 bankF) ∧ (committing bankF).commitReady (openOf 7 0 bankF) = true ∧
    commitBank (openOf 7 0 bankF) = true ∧
    after (exec .commitTakeover (committing bankF)) (fun t => t.get R.MCODE_ACTIVE.BANK == 1 && t.current == 0 && t.outcomeOf 7 ==
      some (outcomeArea 0 0 0 0 [(16, 1, 0), (17, 1, 1)])) = true := by decide +kernel
def retiring : State := (inServe.set R.APR_VERSION.CURRENT 1).set R.APR_VERSION.LIVE 2
theorem test_version_retire : retiring.forwarding = true ∧ retiring.mayRetire = true ∧
    after (exec .versionRetire retiring) (fun t => t.oldest == 1 && t.get R.APR_VERSION.LIVE == 1 && t.get R.LENS_VERSION.SETTLING == 0xFFFF) = true := by
  decide +kernel
theorem test_settle_pass : let s := (inServe.set R.LENS_VERSION.SETTLING 0x9).setBit R.TBL_SETTLE.SETTLING true
    (s.get R.LENS_VERSION.SETTLING).testBit 3 = true ∧ s.bit R.TBL_SETTLE.SETTLING = true ∧
    after (exec (.settlePassComplete 3) s) (fun t => t.get R.LENS_VERSION.SETTLING == 1) = true ∧
    after (exec (.settlePassComplete 16) s) (fun t => !t.bit R.TBL_SETTLE.SETTLING) = true := by decide +kernel
def patchF : List (Nat × Nat × Nat) := [(0, 1, 0x22), (16, 1, 0)]
theorem test_mcode_patch : (withCmd patchF).begins 7 0x22 (openOf 7 0 patchF) ∧ (withCmd patchF).commitAhead 7 = false ∧
    headerGood (openOf 7 0 patchF).bytes = true ∧
    after (exec (.mcodePatch 7 []) (withCmd patchF)) (fun t => t.outcomeOf 7 == some (outcomeArea 1 2 0 0 [])) = true := by decide +kernel
/-- A bank switch behind a patch that has not completed. -/
def behindPatch : State := { withCmd bankF with cmd := { (withCmd bankF).cmd with open_ := [openOf 6 1 patchF, openOf 7 0 bankF] } }
theorem test_commit_behind_patch : behindPatch.begins 7 0x21 (openOf 7 0 bankF) ∧ behindPatch.ver.waiting = none ∧ commitBank (openOf 7 0 bankF) = true ∧
    behindPatch.patchAhead 7 = true ∧ after (exec (.versionCommit 7) behindPatch) (fun t => t.findCmd 7 == some (openOf 7 0 bankF) &&
      t.bit R.APR_VERSION.COMMIT_WAIT && t.ver.waiting.isNone) = true := by decide +kernel
/-! ### Shapers, gates, meters -/

/-- SET of the shaper of class 2 of output 5: reserved 1000, maximum 2000, bursts of 128 B. -/
def shaperF : List (Nat × Nat × Nat) :=
  [(0, 1, 0x30), (16, 1, 1), (18, 1, 2), (20, 4, 5), (24, 4, 1000), (28, 4, 2000), (32, 4, 128), (36, 4, 128)]
def queryF : List (Nat × Nat × Nat) := [(0, 1, 0x30), (16, 1, 1), (17, 1, 4), (18, 1, 2), (20, 4, 5)]
def outCap (fields : List (Nat × Nat × Nat)) : State := (withCmd fields).set (R.COL_OUT.CAP 5) 100000
theorem test_shaper_set : (outCap shaperF).begins 7 0x30 (openOf 7 0 shaperF) ∧ ((openOf 7 0 shaperF).op 17 1).testBit 2 = false ∧
    shaperFormed (openOf 7 0 shaperF) = true ∧ (outCap shaperF).shaperNode (openOf 7 0 shaperF) = true ∧
    (outCap shaperF).shaperValues (openOf 7 0 shaperF) = true ∧ (outCap shaperF).fabricNode (openOf 7 0 shaperF) = false ∧ (outCap shaperF).rateBroken (openOf 7 0 shaperF) = false ∧
    after (exec (.shaperSet 7) (outCap shaperF)) (fun t => t.get (R.COL_OC_RATE.RES 5 2) == 1000 && t.get (R.COL_OC_BURST.MAX_BURST 5 2) == 2 &&
      t.outcomeOf 7 == some (outcomeArea 0 0 0 0 [])) = true := by decide +kernel
theorem test_shaper_query : (outCap queryF).begins 7 0x30 (openOf 7 0 queryF) ∧ ((openOf 7 0 queryF).op 17 1).testBit 2 = true ∧
    (outCap queryF).shaperNode (openOf 7 0 queryF) = true ∧
    after (exec (.shaperQuery 7) ((outCap queryF).setShaper (resKey 5 2) { rate := 1000, burst := 128, credit := -1 })) (fun t => t.outcomeOf 7 ==
      some (outcomeArea 0 0 0 0 [(16, 4, 1000), (24, 4, 128), (36, 4, 2 ^ 32 - 1)])) = true := by decide +kernel
theorem test_shaper_tick : let s : State := { inServe with tb := 128 * 2 ^ 40, col := { inServe.col with shapers := [(5, { rate := 1000, burst := 100 })] } }
    Instr.wf (.shaperTick 5) = true ∧ s.forwarding = true ∧ (s.shaper 5).ticks < s.ns / tickOf 5 ∧
    after (exec (.shaperTick 5) s) (fun t => (t.shaper 5).ticks == 2 && (t.shaper 5).credit == 16 * 65536) = true := by decide +kernel
def meterF : List (Nat × Nat × Nat) := [(0, 1, 0x32), (16, 4, 12), (20, 1, 1), (24, 4, 100), (28, 4, 200), (32, 4, 20000), (36, 4, 30000), (40, 2, 0x1000)]
theorem test_meter_set : (withCmd meterF).begins 7 0x32 (openOf 7 0 meterF) ∧ meterBad (openOf 7 0 meterF) = false ∧
    after (exec (.meterSet 7) (withCmd meterF)) (fun t => (t.aprRec 12).cir == 100 && (t.aprRec 12).tc == 20000 && (t.aprRec 12).meterEn) = true := by decide +kernel
def stopF : List (Nat × Nat × Nat) := [(0, 1, 0x31), (16, 1, 5), (17, 1, 1), (32, 8, 50000), (40, 4, 1000)]
theorem test_gate_list_stop : (withCmd stopF).begins 7 0x31 (openOf 7 0 stopF) ∧ ((openOf 7 0 stopF).op 17 1).testBit 0 = true ∧
    (withCmd stopF).gateCmdGood (openOf 7 0 stopF) = true ∧
    after (exec (.gateListStop 7) (withCmd stopF)) (fun t => t.pendingGates 5 == some (50000, none) && t.bit (R.COL_GATE.PENDING 5)) = true := by decide +kernel
def listF : List (Nat × Nat × Nat) := [(0, 1, 0x31), (16, 1, 5), (18, 2, 1), (24, 8, 64), (32, 8, 50000), (40, 4, 1000)]
/-- One entry of 500 ns with no gate open. -/
def oneEntry : List Byte := leBytes 8 (500 * 2 ^ 32)
theorem test_gate_list_set : (withCmd listF).begins 7 0x31 (openOf 7 0 listF) ∧ ((openOf 7 0 listF).op 17 1).testBit 0 = false ∧
    (withCmd listF).gateCmdGood (openOf 7 0 listF) = true ∧ ((List.range 1).all (gateGood oneEntry)) = true ∧
    ((List.range 8).all fun k => (withCmd listF).windowGood 5 k ⟨(List.range 1).map (gateOf oneEntry), 50000, 1000, 0, 0⟩) = true ∧
    after (exec (.gateListSet 7 oneEntry) (withCmd listF)) (fun t => t.pendingGates 5 == some (50000, some ⟨[(500, 0, 0)], 50000, 1000, 0, 0⟩)) = true := by decide +kernel
def theList : GateList := ⟨[(400, 1, 3), (600, 0, 4)], 100, 1000, 0, 0⟩
def gatesPend : State := { inServe with tb := 500 * 2 ^ 40, col := { inServe.col with gatePending := [(5, some (300, some theList))] } }
theorem test_gate_change : gatesPend.forwarding = true ∧ gatesPend.pendingGates 5 = some (300, some theList) ∧ 300 ≤ gatesPend.ns ∧
    after (exec (.gateChange 5) gatesPend) (fun t => t.gateList 5 == some theList && t.bit (R.COL_GATE.ACTIVE 5) && t.get (R.COL_GATE.STATE 5) == 4) = true := by decide +kernel
def gatesOn : State := { inServe with tb := 300 * 2 ^ 40, col := { inServe.col with gates := [(5, some theList)] } }
theorem test_gate_transition : gatesOn.forwarding = true ∧ gatesOn.gateList 5 = some theList ∧
    after (exec (.gateTransition 5) gatesOn) (fun t => t.get (R.COL_GATE.STATE 5) == 3 && t.get (R.COL_GATE.ENTRY 5) == 0) = true := by decide +kernel
theorem test_set_and_hold : theList.base ≤ gatesOn.ns ∧ theList.op (theList.at_ (gatesOn.gateMoment 5 theList)).1 = 1 ∧
    after (exec (.setAndHoldMac 5) gatesOn) (fun t => SMap.find (fun _ => false) t.mac.held 5) = true := by decide +kernel

/-! ### Counters, mirrors and export -/

def exposeF : List (Nat × Nat × Nat) := [(0, 1, 0x50), (16, 1, 2), (20, 4, 16), (40, 4, 512)]
def store16 (fields : List (Nat × Nat × Nat)) : State := (withCmd fields).set R.CNT_STORE.COUNT16 1
theorem test_expose : (store16 exposeF).begins 7 0x50 (openOf 7 0 exposeF) ∧ (openOf 7 0 exposeF).formed [(17, 3), (28, 4), (46, 18)] = true ∧
    (openOf 7 0 exposeF).op 24 4 + (openOf 7 0 exposeF).op 20 4 ≤ (store16 exposeF).storePairs ∧ dumpLength false true 16 ≤ 512 ∧
    after (exec (.expose 7) (store16 exposeF)) (fun t => t.bit R.CNT_EXPOSE.BUSY && t.get R.CNT_EXPOSE_T.T == 20000 && t.cnt.exposure.isSome) = true := by decide +kernel
def exposed : Exposure :=
  { seq := 7, id := 1, cut := 0, deadline := 0, regs := false, store := true, first := 0, pairs := 1, pf := 0, addr := 0, snapRegs := [], snapPairs := [(0, 9)], snapWraps := [] }
def exposing : State := let s := (withCmd exposeF).setBit R.CNT_EXPOSE.BUSY true; { s with cnt := { s.cnt with exposure := some exposed } }
theorem test_exposure_seal : exposing.sealable = some exposed ∧ exposing.buf.rx = [] ∧ exposing.findCmd exposed.seq = some (openOf 7 0 exposeF) ∧
    exposed.cut ≤ exposing.ns ∧ exposing.before exposed.cut = 0 ∧ exposed.deadline ≤ exposing.ns ∧
    after (exec .exposureSeal exposing) (fun t => !t.bit R.CNT_EXPOSE.BUSY && t.outcomeOf 7 == some (outcomeArea 0 0 0 0 [(16, 4, 1)]) &&
      t.out == exposing.pfWrites 0 64 exposed.body ++ exposing.pfWrites 0 0 (exposed.header false 0)) = true ∧
    after (exec .exposureTimeout exposing) (fun t => t.bit R.CNT_EXPOSE.PARTIAL) = true := by decide +kernel
def clearF : List (Nat × Nat × Nat) := [(0, 1, 0x51), (16, 1, 1), (24, 8, 0x2901008)]
theorem test_counter_clear : let s := setRegs (withCmd clearF) [(0x2901008, 12)]
    s.begins 7 0x51 (openOf 7 0 clearF) ∧ (openOf 7 0 clearF).formed [(18, 6), (36, 28)] = true ∧ (s.clearScope (openOf 7 0 clearF)).isSome = true ∧
    after (exec (.counterClear 7) s) (fun t => t.word 0x2901008 == 0 && t.outcomeOf 7 == some (outcomeArea 0 0 0 0 [(16, 4, 1)])) = true := by decide +kernel
def mirrorF : List (Nat × Nat × Nat) := [(0, 1, 0x60), (16, 1, 127), (17, 1, 1), (18, 1, 1), (19, 1, 5), (20, 4, 3), (24, 1, 2), (25, 1, 4)]
theorem test_mirror_set : (withCmd mirrorF).begins 7 0x60 (openOf 7 0 mirrorF) ∧ (openOf 7 0 mirrorF).formed [(26, 38)] = true ∧
    (withCmd mirrorF).mirrorTarget 1 3 = true ∧
    after (exec (.mirrorSet 7) (withCmd mirrorF)) (fun t => t.bit (R.MIR_SESSION.VALID 127) && t.get (R.MIR_SESSION.CLASS 127) == 5 &&
      t.get (R.MIR_SESSION.SHIFT 127) == 4 && t.get (R.MIR_SESSION.TRUNC 127) == 2 && t.get (R.MIR_SESSION.INDEX 127) == 3) = true := by decide +kernel
def exporting : State := let s := setRegs inServe [(0x2903000, 2 ^ 11 + 32)]
  { s with cnt := { s.cnt with loupe := [⟨1, 2, 3⟩] }, apr := { s.apr with breaches := [(5, 6)] } }
theorem test_export_record : exporting.exports = true ∧ exporting.roleUp 5 = true ∧
    after (exec (.exportRecord true) exporting) (fun t => t.cnt.loupe.isEmpty && t.cnt.xn == 1) = true ∧
    after (exec (.exportRecord false) exporting) (fun t => t.apr.breaches.isEmpty && t.cnt.xn == 1) = true := by decide +kernel
/-- A captured copy of session 3. -/
def copyPkt : Pkt := { id := 4, src := 1, bytes := List.replicate 64 0, copy := 515 }
def capturing : State := { inServe with cnt := { inServe.cnt with captures := [(2, 64, copyPkt)] } }
theorem test_capture_lost : (capturing.cnt.captures.find? fun e => !e.2.2.cut) = some (2, 64, copyPkt) ∧ capturing.coreUp = true ∧
    after (exec (.captureWrite true) capturing) (fun t => t.cnt.captures.isEmpty && t.word (R.MIR_LOST.COUNT 3).off == 1) = true := by decide +kernel
theorem test_capture_written : let s := ((capturing.set (R.MIR_RING.VALID 2) 1).set (R.MIR_RING.EXTENTS 2) 1).set (R.FAR_PORT.UP (farPort 0)) 1
    s.bit (R.FAR_PORT.UP (farPort (s.get (R.MIR_RING.BASE 2) * 65536))) = true ∧ s.ringTakes 2 (ceilDiv (32 + copyPkt.bytes.length) 64) = true ∧
    after (exec (.captureWrite true) s) (fun t => t.get (R.MIR_RING_PTR.SEQ 2) == 1 && t.get (R.MIR_RING_PTR.OFFSET 2) == 2) = true := by decide +kernel
/-! ### Endpoint migration and parking -/

def localF : List (Nat × Nat × Nat) := [(0, 1, 0x40), (16, 4, 77), (21, 1, 3), (22, 2, 0xFFFF)]
theorem test_ep_migrate_local : (withCmd localF).begins 7 0x40 (openOf 7 0 localF) ∧ (openOf 7 0 localF).op 20 1 = 0 ∧
    (openOf 7 0 localF).formed [(30, 34)] = true ∧ targetGood ((openOf 7 0 localF).op 21 1) = true ∧ (withCmd localF).freeSlot = some 0 ∧
    (withCmd localF).placeOf 77 = none ∧ ((withCmd localF).placement 77).place ≠ some placeGone ∧
    after (exec (.epMigrateLocal 7) (withCmd localF)) (fun t => t.get (R.SWC_MIG.STATE 0) == 1 && t.get (R.SWC_MIG.ENDPOINT 0) == 77 &&
      (t.placement 77).place == some 3 && (t.placement 77).epoch == 1 && t.outcomeOf 7 == none) = true := by decide +kernel
def outF : List (Nat × Nat × Nat) := [(0, 1, 0x40), (16, 4, 77), (20, 1, 1), (24, 2, 300), (26, 2, 9), (28, 2, 5)]
theorem test_ep_migrate_out : (withCmd outF).begins 7 0x40 (openOf 7 0 outF) ∧ (openOf 7 0 outF).op 20 1 = 1 ∧
    (openOf 7 0 outF).formed [(30, 34)] = true ∧ (withCmd outF).freeSlot = some 0 ∧
    after (exec (.epMigrateOut 7) (withCmd outF)) (fun t => t.get (R.SWC_MIG.STATE 0) == 3 && (t.placement 77).place == some placeTail &&
      (t.slotMig 0 1).any fun m => m.endNs == 50000) = true := by decide +kernel
def inF : List (Nat × Nat × Nat) := [(0, 1, 0x40), (16, 4, 77), (20, 1, 2), (21, 1, 130), (24, 2, 300)]
def inCmd : State := (withCmd inF).setPlacement 77 { place := some placeGone }
theorem test_ep_migrate_in : inCmd.begins 7 0x40 (openOf 7 0 inF) ∧ (openOf 7 0 inF).op 20 1 = 2 ∧
    (openOf 7 0 inF).formed [(30, 34)] = true ∧ targetGood ((openOf 7 0 inF).op 21 1) = true ∧ inCmd.freeSlot = some 0 ∧
    (inCmd.placement 77).place = some placeGone ∧
    after (exec (.epMigrateIn 7) inCmd) (fun t => t.get (R.SWC_MIG.STATE 0) == 2 && t.get (R.SWC_MIG.DEVICE 0) == 300 &&
      (t.placement 77).place == some 18) = true := by decide +kernel
/-- SERVE with migration `m` of command 7 open. -/
def migrating (m : Migration) (ms : Nat) : State :=
  let s := withCmd localF
  { s with tb := ms * 1000000 * 2 ^ 40, mig := { s.mig with open_ := [m] } }.set (R.SWC_MIG.STATE m.slot) (m.kind + 1)
def migLocal : Migration := { slot := 4, ep := 77, seq := 7, kind := 0, takeNs := 12 }
theorem test_mig_token_arrival : let s := migrating migLocal 1
    s.executing = true ∧ s.slotMig 4 0 = some migLocal ∧ s.findCmd 7 = some (openOf 7 0 localF) ∧ s.tokenThrough migLocal = true ∧
    after (exec (.migTokenArrival 4) s) (fun t => t.mig.open_.isEmpty && t.get (R.SWC_MIG.STATE 4) == 0 &&
      t.outcomeOf 7 == some (outcomeArea 0 0 0 12 [])) = true := by decide +kernel
def migFence : Migration := { slot := 4, ep := 77, seq := 7, kind := 0, takeNs := 12, oldPlace := some 20, waits := [5], firstNs := some 0 }
theorem test_fence_limit_expiry : let s := migrating migFence 90
    s.executing = true ∧ s.slotMig 4 0 = some migFence ∧ 10 * s.get R.SWC_MIG_CTRL.FENCE_LIMIT ≤ 21 * (s.ns - 0) ∧
    after (exec (.fenceLimitExpiry 4) s) (fun t => t.mig.open_.isEmpty && t.mig.late == [(77, 0)]) = true := by decide +kernel
def migOut : Migration := { slot := 4, ep := 77, seq := 7, kind := 1, takeNs := 12, endNs := 500 }
theorem test_tail_window_end : let s := migrating migOut 1
    s.executing = true ∧ s.slotMig 4 1 = some migOut ∧ migOut.endNs ≤ s.ns ∧
    after (exec (.tailWindowEnd 4) s) (fun t => (t.placement 77).place == some placeGone && t.get (R.SWC_MIG.STATE 4) == 0) = true := by decide +kernel
def migIn : Migration := { slot := 4, ep := 77, seq := 7, kind := 2, takeNs := 12, firstNs := some 0 }
theorem test_marker_limit_expiry : let s := migrating migIn 90
    s.executing = true ∧ s.slotMig 4 2 = some migIn ∧ s.get (R.SWC_MIG.MARKERS 4) ≠ 255 ∧ 0 + 1000 * s.get R.SWC_MIG_CTRL.MARKER_LIMIT ≤ s.ns ∧
    after (exec (.markerLimitExpiry 4) s) (fun t => t.mig.open_.isEmpty && t.outcomeOf 7 == some (outcomeArea 3 0 0 12 [])) = true := by decide +kernel
def parkF : List (Nat × Nat × Nat) := [(0, 1, 0x41), (16, 4, 77)]
theorem test_ep_park : (withCmd parkF).begins 7 0x41 (openOf 7 0 parkF) ∧ (openOf 7 0 parkF).formed [(20, 44)] = true ∧
    after (exec (.epPark 7) (withCmd parkF)) (fun t => t.host.parked == [77] && t.host.parking == [(77, 7, 0)] && t.outcomeOf 7 == none) = true ∧
    after (exec (.epPark 7) (withCmd parkF)) (fun u => after (exec (.parkComplete 77) u) (fun t => t.outcomeOf 7 == some (outcomeArea 0 0 0 0 []))) = true := by decide +kernel
theorem test_park_complete : let s := withCmd parkF
    let u : State := { s with host := { s.host with parked := [77], parking := [(77, 7, 0)] } }
    u.executing = true ∧ u.leafQ 77 = [] ∧ (u.host.parking.find? fun x => x.1 == 77) = some (77, 7, 0) ∧
    after (exec (.parkComplete 77) u) (fun t => t.host.parking.isEmpty && t.host.parked == [77]) = true := by decide +kernel
def unparkF : List (Nat × Nat × Nat) := [(0, 1, 0x42), (16, 4, 77)]
theorem test_ep_unpark : let s := withCmd unparkF
    let u : State := { s with host := { s.host with parked := [77] } }
    u.begins 7 0x42 (openOf 7 0 unparkF) ∧ (openOf 7 0 unparkF).formed [(20, 44)] = true ∧ u.host.parked.contains 77 = true ∧
    after (exec (.epUnpark 7) u) (fun t => t.host.parked.isEmpty && t.outcomeOf 7 == some (outcomeArea 0 0 0 0 [])) = true := by decide +kernel

/-! ### Host queues, the bulk mover, host links -/

/-- SERVE with both endpoints out of reset. -/
def hostUp : State := { inServe with power := { inServe.power with perstN := [true, true] } }
/-- Queue 5 of PF0 enabled with 16 slots; bit 62 of its first word is its direction. -/
def queue5 (rx : Bool) : State := setRegs hostUp [(0x2740050, 2 ^ 63 + (if rx then 2 ^ 62 else 0) + 4 * 2 ^ 42), (0x2740058, 0x7000)]
theorem test_queue_doorbell : let s := queue5 true
    Instr.wf (.queueDoorbell pf0 5 3) = true ∧ s.reach pf0 = true ∧ s.accessMode = .serve ∧ pf0.func = s.get (R.HOST_Q.FUNC 5) ∧
    s.bit (R.HOST_Q.ENABLE 5) = true ∧ doorbellTarget (s.get (R.HOST_QSTAT.T 5)) (s.get (R.HOST_QSTAT.C 5)) (s.get (R.HOST_Q.SIZE 5)) 3 = some 3 ∧
    s.queueRuns 5 = true ∧ s.ready 5 = [] ∧ s.reading (HostReq.ofRing 5) = false ∧ s.retryOf 5 = (0, 0) ∧ s.host.waits = [] ∧
    s.tagFree (.descriptors 5 0 3) = true ∧ 16 * 3 ≤ s.maxRead (s.get (R.HOST_Q.FUNC 5)) ∧
    after (exec (.queueDoorbell pf0 5 3) s) (fun t => t.get (R.HOST_QSTAT.T 5) == 3 && t.out == [.hostRead 0 0x7000 48 false false]) = true := by decide +kernel
theorem test_queue_doorbell_dropped : let s := queue5 true
    doorbellTarget (s.get (R.HOST_QSTAT.T 5)) (s.get (R.HOST_QSTAT.C 5)) (s.get (R.HOST_Q.SIZE 5)) 17 = none ∧
    after (exec (.queueDoorbell pf0 5 17) s) (fun t => t.get R.HOST_ERR.DOORBELL == 1 && t.get (R.HOST_QSTAT.T 5) == 0) = true := by decide +kernel
def mover : State := setRegs hostUp [(0x2800000, 0x9000 + 2 ^ 9 + 4 * 16)]
theorem test_dma_doorbell : Instr.wf (.dmaDoorbell pf0 2) = true ∧ mover.manages pf0 ∧ mover.bit R.DMA_RING.ENABLE = true ∧
    doorbellTarget (mover.get R.DMA_STAT.T) (mover.get R.DMA_STAT.C) (mover.get R.DMA_RING.SIZE) 2 = some 2 ∧
    mover.dmaRuns = true ∧ mover.host.dmaReady = [] ∧ mover.reading HostReq.ofMover = false ∧ mover.host.dmaRetries = (0, 0) ∧ mover.host.waits = [] ∧
    mover.tagFree (.dmaDescriptors 0 2) = true ∧ mover.epUp (mover.get R.DMA_RING.EP) = true ∧ 32 * 2 ≤ mover.maxRead (4 * mover.get R.DMA_RING.EP) ∧
    after (exec (.dmaDoorbell pf0 2) mover) (fun t => t.get R.DMA_STAT.T == 2 && t.out == [.hostRead 0 0x9000 64 false false]) = true := by decide +kernel
theorem test_dma_doorbell_dropped : doorbellTarget (mover.get R.DMA_STAT.T) (mover.get R.DMA_STAT.C) (mover.get R.DMA_RING.SIZE) 17 = none ∧
    after (exec (.dmaDoorbell pf0 17) mover) (fun t => t.get R.HOST_ERR.DOORBELL == 1 && t.get R.DMA_STAT.T == 0) = true := by decide +kernel
def reading (s : State) (req : HostReq) : State := { s with host := { s.host with reads := [⟨req, 0, 1, 0, 64⟩] } }
theorem test_descriptors_in : let s := (reading (queue5 true) (.descriptors 5 0 1)).set (R.HOST_QSTAT.T 5) 1
    let data := record 16 [(0, 8, 0x5000), (10, 2, 0)]
    s.forwarding = true ∧ s.fetching 5 = some ⟨.descriptors 5 0 1, 0, 1, 0, 64⟩ ∧ s.queueRuns 5 = true ∧ 0 = s.nextNumber 5 ∧
    s.bit (R.HOST_Q.DIR 5) = true ∧ (s.host.waits.any fun w => w.req == HostReq.descriptors 5 0 1) = false ∧
    takeDescriptors 16 10 (s.partsOf (.descriptors 5 0 1) ++ data) 1 0 = ([(0, data)], false) ∧
    after (exec (.descriptorReadComplete 5 data false) s) (fun t => t.ready 5 == [(0, data)] && t.host.reads.isEmpty) = true ∧
    after (exec (.descriptorReadComplete 5 data true) s) (fun t => t.bit (R.HOST_QSTAT.STOPPED 5) && t.get R.HOST_ERR.POISON_TX == 1) = true := by decide +kernel
theorem test_dma_descriptors_in : let s := reading mover (.dmaDescriptors 0 1)
    s.dmaFetching = some ⟨.dmaDescriptors 0 1, 0, 1, 0, 64⟩ ∧ s.dmaRuns = true ∧ 0 = s.dmaNext ∧
    (s.host.waits.any fun w => w.req == HostReq.dmaDescriptors 0 1) = false ∧
    takeDescriptors 32 24 (s.partsOf (.dmaDescriptors 0 1) ++ leBytes 32 0) 1 0 = ([(0, leBytes 32 0)], false) ∧
    after (exec (.descriptorReadComplete 16384 (leBytes 32 0) false) s) (fun t => t.host.dmaReady == [(0, leBytes 32 0)]) = true := by decide +kernel
theorem test_descriptor_reread : let s := (queue5 true).setRetry 5 (1, 0)
    s.queueRuns 5 = true ∧ (s.retryOf 5).1 ≠ 0 ∧ (s.retryOf 5).2 ≤ s.ns ∧ s.reading (HostReq.ofRing 5) = false ∧ s.host.waits = [] ∧
    s.tagFree (.reread 5 (s.nextNumber 5)) = true ∧
    after (exec (.descriptorReread 5) s) (fun t => t.out == [.hostRead 0 0x7000 16 false false] && t.bit (R.HOST_QSTAT.BUSY 5)) = true := by decide +kernel
theorem test_dma_reread : let s := mover.setDma [] (1, 0)
    s.dmaRuns = true ∧ s.host.dmaRetries.1 ≠ 0 ∧ s.host.dmaRetries.2 ≤ s.ns ∧ s.reading HostReq.ofMover = false ∧ s.host.waits = [] ∧
    s.tagFree (.dmaReread s.dmaNext) = true ∧ s.epUp (s.get R.DMA_RING.EP) = true ∧
    after (exec (.descriptorReread 16384) s) (fun t => t.out == [.hostRead 0 0x9000 32 false false]) = true := by decide +kernel
def sending : State := (reading (queue5 false) (.txData 5 0)).setReady 5 [(0, record 16 [(8, 2, 14)])]
theorem test_tx_descriptor : sending.dataRead 5 = some ⟨.txData 5 0, 0, 1, 0, 64⟩ ∧ sending.host.waits = [] ∧ sending.ready 5 = [(0, record 16 [(8, 2, 14)])] ∧
    after (exec (.txDescriptor 5 (leBytes 14 0) false) sending) (fun t => t.buf.nextId == sending.buf.nextId + 1 && t.buf.rx.length == 1) = true ∧
    after (exec (.txDescriptor 5 (leBytes 14 0) true) sending) (fun t => t.get R.HOST_ERR.POISON_TX == 1 && t.get (R.HOST_QSTAT.C 5) == 1 && t.buf.rx.isEmpty) = true := by decide +kernel
theorem test_completion_timeout : let s := reading (queue5 true) (.descriptors 5 0 1)
    s.host.reads[0]? = some ⟨.descriptors 5 0 1, 0, 1, 0, 64⟩ ∧
    after (exec (.completionTimeout 0 true) s) (fun t => t.get (R.HOST_QSTAT.ERROR 5) == 2 && t.get R.HOST_ERR.CTO == 1) = true ∧
    after (exec (.completionTimeout 0 true) (reading mover (.dmaDescriptors 0 1))) (fun t => t.get R.DMA_STAT.ERROR == 2 && t.host.reads.isEmpty) = true ∧
    after (exec (.completionTimeout 0 true) (reading mover (.dmaData 0))) (fun t => t.get R.HOST_ERR.CTO == 1) = true := by decide +kernel
def descriptor (fields : List (Nat × Nat × Nat)) : List Byte := record 32 fields
theorem test_dma_refused : let d := descriptor [(0, 8, 1), (16, 4, 64), (23, 1, 128 + 5)]
    let s := mover.setDma [(3, d)] (0, 0)
    s.dmaRuns = true ∧ s.dmaRefusal d = some 0 ∧ s.bit R.DMA_CAP.VALID = false ∧
    after (exec .dmaDescriptorStart s) (fun t => t.get R.DMA_STAT.C == 4 && t.bit (faultBit 33) && t.get R.DMA_CAP.NUMBER == 3 && t.cmd.pulses == [(5, true)]) = true := by decide +kernel
theorem test_dma_start : let d := descriptor [(0, 8, 64), (16, 4, 64), (21, 1, 1)]
    let s := (((mover.setDma [(3, d)] (0, 0)).set R.DMA_CFG.INFLIGHT 2).set R.DMA_STAT.C 3).set R.DMA_STAT.T 4
    s.dmaRuns = true ∧ s.dmaRefusal d = none ∧ s.host.dmaRuns.length < s.get R.DMA_CFG.INFLIGHT ∧ s.tagFree (.dmaData 3) = true ∧
    s.host.dmaRuns = [] ∧ s.epUp (leAt d 20 1) = true ∧ s.host.waits = [] ∧
    after (exec .dmaDescriptorStart s) (fun t => t.host.dmaRuns.length == 1 && t.get R.DMA_STAT.RUNNING == 1 && t.out == [.hostRead 0 64 64 false false]) = true := by decide +kernel
def run3 (issued : Bool) (flags gate : Nat) : DmaRun :=
  ⟨3, descriptor [(0, 8, 64), (8, 8, 128), (16, 4, 64), (21, 1, 1), (22, 1, flags), (23, 1, gate)], false, issued, 9⟩
def moving (r : DmaRun) : State := let s := reading mover (.dmaData 3); { s with host := { s.host with dmaRuns := [r] } }
theorem test_dma_pulse : let r := run3 false 0 (128 + 5)
    Instr.wf (.dmaPulse 3 (leBytes 64 7) [0] false) = true ∧ ((moving r).host.dmaRuns.find? fun x => x.number == 3) = some r ∧
    ((moving r).host.reads.any fun h => h.req == .dmaData 3) = true ∧ ((moving r).host.waits.any fun w => w.req == HostReq.dmaData 3) = false ∧
    after (exec (.dmaPulse 3 (leBytes 64 7) [0] false) (moving r)) (fun t => t.cmd.pulses == [(5, false)] && t.host.dmaRuns.any fun x => x.number == 3 && x.issued) = true := by decide +kernel
theorem test_dma_pulse_arrived : let r := run3 true 1 (128 + 5)
    ((moving r).host.dmaRuns.find? fun x => x.number == 3) = some r ∧
    after (exec (.dmaPulse 3 [] [] true) (moving r)) (fun t => t.host.dmaRuns.isEmpty && t.cmd.pulses == [(5, false)]) = true := by decide +kernel
theorem test_dma_flush : let r := run3 true 1 (128 + 5)
    let s := { reading mover (.dmaFlush 3) with host := { (reading mover (.dmaFlush 3)).host with dmaRuns := [r] } }
    after (exec (.dmaPulse 3 [] [] true) s) (fun t => t.host.reads.isEmpty && t.cmd.pulses == [(5, false)]) = true ∧
    after (exec (.completionTimeout 0 true) s) (fun t => t.host.dmaRuns.all (·.error) && t.host.reads.isEmpty) = true := by decide +kernel
theorem test_tag_wait : let s := (queue5 true).set (R.HOST_QSTAT.T 5) 1
    let w : State := { s with host := { s.host with waits := [⟨.descriptors 5 0 1, 0, 0x7000, 0, 16, 512, false, false⟩] } }
    w.forwarding = true ∧ after (step w) (fun t => t.host.waits.isEmpty && t.host.reads.map (·.req) == [.descriptors 5 0 1]) = true := by decide +kernel
theorem test_msix_moderation : let s : State := { inServe with host := { inServe.host with moder := [(2048 * 1 + 4, (2, 0))] } }
    Instr.wf (.msixModeration 1 4) = true ∧ SMap.find (fun _ => (0, 0)) s.host.moder (2048 * 1 + 4) = (2, 0) ∧
    after (exec (.msixModeration 1 4) s) (fun t => t.out == [.msix 1 4] && t.host.moder.isEmpty) = true := by decide +kernel
/-- Queue 5 of another function. -/
def queueOf (func : Nat) : State := ((queue5 true).set (R.HOST_Q.FUNC 5) func).set (R.HOST_QSTAT.T 5) 4
theorem test_function_level_reset : let s := queueOf 1
    s.get (R.HOST_Q.FUNC 5) = HostSrc.func ⟨0, 1⟩ ∧ s.mode = .serve ∧ s.fetching 5 = none ∧ s.dataRead 5 = none ∧
    after (exec (.functionLevelReset ⟨0, 1⟩) s) (fun t => t.get (R.HOST_QSTAT.ERROR 5) == 3 && t.get (R.HOST_QSTAT.T 5) == 0 &&
      t.bit (R.HOST_QSTAT.STOPPED 5)) = true := by decide +kernel
/-- A queue with a read in flight stops only when that read has ended. -/
theorem test_function_level_reset_reading : let s := reading (queueOf 1) (.descriptors 5 0 1)
    s.get (R.HOST_Q.FUNC 5) = HostSrc.func ⟨0, 1⟩ ∧ s.fetching 5 ≠ none ∧
    after (exec (.functionLevelReset ⟨0, 1⟩) s) (fun t => t.host.flr.contains 5 && !t.queueRuns 5 && !t.bit (R.HOST_QSTAT.STOPPED 5)) = true := by decide +kernel
theorem test_hx_perst_n : let s := (queueOf 4).set (R.HOST_LINK.RATE_A 1) 4
    s.epOfFunc (s.get (R.HOST_Q.FUNC 5)) = 1 ∧
    after (exec (.hxPerstN 1 false) s) (fun t => t.get (R.HOST_LINK.RATE_A 1) == 0 && t.power.perstN == [true, false] && t.bit (R.HOST_QSTAT.STOPPED 5)) = true ∧
    after (exec (.hxPerstN 1 true) s) (fun t => t.get (R.HOST_LINK.RATE_A 1) == 4) = true := by decide +kernel
theorem test_host_link_trained : Instr.wf (.hostLinkTrained 1 false 4 16) = true ∧ hostUp.coreUp = true ∧ hostUp.epUp 1 = true ∧ 16 ≤ hostUp.hostLanes 1 ∧
    after (exec (.hostLinkTrained 1 false 4 16) hostUp) (fun t => t.get (R.HOST_LINK.RATE_A 1) == 4 && t.get (R.HOST_LINKW.WIDTH_A 1) == 16) = true ∧
    after (exec (.hostLinkTrained 1 true 4 8) { hostUp with power := { hostUp.power with hxBif := [false, true] } }) (fun t => t.get (R.HOST_LINK.RATE_B 1) == 4 && t.get (R.HOST_LINK.WIDTH_B 1) == 8) = true := by decide +kernel
/-! ### The fabric: addresses, advertisements, routes, time -/

def faF (op addr : Nat) : List (Nat × Nat × Nat) := [(0, 1, 0x70), (16, 1, op), (18, 2, addr)]
def faCmd (op addr : Nat) : State := setRegs (withCmd (faF op addr)) [(0x2400008, 2 * 2 ^ 14 + 77)]
theorem test_fab_address_query : (faCmd 0 0).begins 7 0x70 (openOf 7 0 (faF 0 0)) ∧ (openOf 7 0 (faF 0 0)).formed [(17, 1), (20, 44)] = true ∧
    after (exec (.fabAddressQuery 7) (faCmd 0 0)) (fun t => t.outcomeOf 7 == some (outcomeArea 0 0 0 0 [(16, 8, 2 * 2 ^ 14 + 77)])) = true := by decide +kernel
theorem test_fab_address_set : (faCmd 1 900).begins 7 0x70 (openOf 7 0 (faF 1 900)) ∧ (openOf 7 0 (faF 1 900)).formed [(17, 1), (20, 44)] = true ∧
    after (exec (.fabAddressSet 7) (faCmd 1 900)) (fun t => t.get R.FAB_ADDR.ADDR == 900 && t.get R.FAB_ADDR.STATE == 2 && t.fab.setCmds == [7] &&
      t.fab.previous == [(77, 10000000)]) = true := by decide +kernel
theorem test_fab_address_claim : (faCmd 2 0).begins 7 0x70 (openOf 7 0 (faF 2 0)) ∧ (openOf 7 0 (faF 2 0)).formed [(17, 1), (20, 44)] = true ∧
    after (exec (.fabAddressClaim 7) (faCmd 2 0)) (fun t => t.get R.FAB_ADDR.STATE == 0 && t.fab.claimCmds == [(7, 0)]) = true := by decide +kernel
theorem test_claim_timeout : let s0 := faCmd 2 0
    let s : State := { s0 with tb := 100000000 * 2 ^ 40, fab := { s0.fab with claimCmds := [(7, 0)] } }
    (7, 0) ∈ s.fab.claimCmds ∧ 0 + 100000000 ≤ s.ns ∧ s.findCmd 7 = some (openOf 7 0 (faF 2 0)) ∧
    after (exec (.claimTimeout 7) s) (fun t => t.fab.claimCmds.isEmpty && t.outcomeOf 7 == some (outcomeArea 3 0 0 0 [(16, 8, 2 * 2 ^ 14 + 77)])) = true := by decide +kernel
/-- SERVE with iris 3 UP, after `ns` ns. -/
def irisUp (ns : Nat) : State := { (inServe.set (R.IRIS_STATUS.STATE 3) 2) with tb := ns * 2 ^ 40 }
theorem test_address_claim : let s := (irisUp 1000000).setBit R.FAB_CFG.CONFIGURED false
    s.mode = .serve ∧ s.bit R.FAB_CFG.CONFIGURED = false ∧ s.get R.FAB_ADDR.STATE = 0 ∧ s.upIrises ≠ [] ∧ s.fab.quietNs + 1000000 ≤ s.ns ∧
    s.lowestAddress = some 0 ∧
    after (exec .addressClaim s) (fun t => t.get R.FAB_ADDR.STATE == 1 && t.fab.claimEnd == some 3000000) = true := by decide +kernel
theorem test_claim_hold_end : let s0 := (irisUp 3000000).set R.FAB_ADDR.STATE 1
    let s : State := { s0 with fab := { s0.fab with claimEnd := some 3000000 } }
    s.get R.FAB_ADDR.STATE = 1 ∧ s.fab.claimEnd = some 3000000 ∧ 3000000 ≤ s.ns ∧
    after (exec .claimHoldEnd s) (fun t => t.get R.FAB_ADDR.STATE == 2 && t.bit R.FAB_ADDR.CLAIMED && t.fab.claimEnd == none) = true := by decide +kernel
theorem test_previous_address_expiry : let s : State := { irisUp 50 with fab := { inServe.fab with previous := [(4, 50), (5, 60)] } }
    s.fab.previous = [(4, 50), (5, 60)] ∧ s.ns = 50 ∧
    after (exec .previousAddressExpiry s) (fun t => t.fab.previous == [(5, 60)]) = true := by decide +kernel
theorem test_advert_send : (irisUp 5).irisesRun = true ∧ (irisUp 5).fab.advNs = none ∧
    after (exec .advertSend (irisUp 5)) (fun t => t.fab.advSeq == 1 && t.fab.advNs == some 5 && !t.fab.advDue) = true := by decide +kernel
/-- The one fragment of originator 999 with sequence 4. -/
def theFrag : List Byte := record 256 [(0, 1, 1), (2, 1, 1), (4, 8, 999), (16, 4, 4)]
def gotWork (ns : Nat) (w : Nat × Nat × List Byte) : State := { irisUp ns with fab := { inServe.fab with work := [w] } }
theorem test_advert_receive : let s := withUid 1 (gotWork 5 (3, 0, theFrag))
    s.irisesRun = true ∧ s.roleUp 4 = true ∧ (s.takeWork 1).isSome = true ∧ (advertHead theFrag s.ns).uid ≠ s.uid ∧ s.advertOf 999 = none ∧
    after (exec .advertReceive s) (fun t => t.fab.work.isEmpty && t.fab.quietNs == 5 && (t.advertOf 999).any fun a => a.seq == 4 && a.frags.length == 1) = true := by decide +kernel
theorem test_advert_own : let s := withUid 999 (gotWork 5 (3, 0, theFrag))
    (advertHead theFrag s.ns).uid = s.uid ∧ newer (advertHead theFrag s.ns).epoch (advertHead theFrag s.ns).seq (s.get R.FAB_TOPO.EPOCH) s.fab.advSeq = true ∧
    after (exec .advertReceive s) (fun t => t.fab.advSeq == 4 && t.fab.advDue) = true := by decide +kernel
def heard (ns : Nat) : Advert := { advertHead theFrag 0 with ns := ns }
theorem test_advert_expiry : let s : State := { irisUp 1000000005 with fab := { inServe.fab with adverts := [heard 5, heard 6] } }
    s.irisesRun = true ∧ after (exec .advertExpiry s) (fun t => t.fab.adverts == [heard 6]) = true := by decide +kernel
theorem test_route_compute : let s := withUid 1 (irisUp 5)
    s.roleUp 4 = true ∧ s.fab.waiting = [] ∧
    after (exec .routeCompute s) (fun t => t.get R.FAB_TOPO.CHANGES == 1 && t.get R.FAB_TOPO.REACHABLE == 0) = true := by decide +kernel
theorem test_spray_epoch : let s := (irisUp 1000000).set (R.FAB_DEST.PTR 7) 5
    s.irisesRun = true ∧ s.fab.epochNs + 1000 * s.get R.FAB_SPRAY.EPOCH ≤ s.ns ∧ after (exec .sprayEpoch { s with regs := s.regs ++ [(0x2408038, 0)] }) (fun t => t.get (R.FAB_DEST.PTR 7) == 0) = true := by decide +kernel
def child (ns : Nat) : State := ((irisUp ns).set R.FAB_TIME.HOPS 2).set R.FAB_TIME.PARENT 3
theorem test_tsync_send : let s := child 100000
    s.hasParent = true ∧ s.irisState (s.get R.FAB_TIME.PARENT) = 2 ∧ s.fab.syncNs + 100000 ≤ s.ns ∧
    after (exec .tsyncSend s) (fun t => t.fab.tag == 1 && t.fab.syncNs == 100000) = true := by decide +kernel
/-- A TREPLY: sent 0, seen 10 ns later and answered at once, received 2 ns after that by the local clock. -/
def theReply : List Byte := record 256 [(0, 1, 3), (2, 2, 0), (8, 8, 0), (16, 8, 10 * 65536), (24, 8, 10 * 65536), (32, 8, 77)]
theorem test_treply_receive : let s : State := { child 12 with fab := { inServe.fab with work := [(3, 12 * 2 ^ 40, theReply)] } }
    s.roleUp 4 = true ∧ (s.takeWork 3).isSome = true ∧ s.hasParent = true ∧ leAt theReply 2 2 = s.fab.tag ∧
    after (exec .treplyReceive s) (fun t => t.slew == 4 * 2 ^ 40 && t.get R.FAB_TIME.OFFSET == 4000 && t.get R.TIME_OFFSET.OFFSET == 77 && t.fab.replyNs == 12) = true := by decide +kernel
theorem test_fab_time_lost : let s := (child 1000000).setBit R.FAB_TIME.LOCKED true
    s.hasParent = true ∧ s.fab.replyNs + 1000000 ≤ s.ns ∧
    after (exec .fabTimeLost s) (fun t => !t.bit R.FAB_TIME.LOCKED && t.bit (faultBit 26)) = true := by decide +kernel

/-! ### Fabric links -/

def lcF (op w m : Nat) : List (Nat × Nat × Nat) := [(0, 1, 0x71), (16, 1, 3), (17, 1, op), (18, 1, w), (19, 1, m)]
/-- Iris 3 in a state, with FAB_LINK_CTL open on it. -/
def lcCmd (op w m st : Nat) : State := (withCmd (lcF op w m)).set (R.IRIS_STATUS.STATE 3) st
theorem test_link_op : (openOf 7 0 (lcF 3 1 3)).linkOp 3 3 1 3 ∧ (lcCmd 3 1 3 2).begins 7 0x71 (openOf 7 0 (lcF 3 1 3)) ∧
    (groupIn 1 3).isSome = true ∧ (openOf 7 0 (lcF 0 0 0)).linkOp 0 3 0 0 := by decide +kernel
theorem test_fab_link_disable : after (exec (.fabLinkDisable 7) (lcCmd 0 0 0 2)) (fun t => t.irisState 3 == 3 && (t.iris 3).disabling == some 7 && t.outcomeOf 7 == none) = true ∧
    after (exec (.fabLinkDisable 7) (lcCmd 0 0 0 0)) (fun t => t.outcomeOf 7 == some (outcomeArea 0 0 0 0 [])) = true ∧
    after (exec (.fabLinkDisable 7) (lcCmd 0 0 0 1)) (fun t => t.irisState 3 == 0 && t.get (R.IRIS_DOWN_CAP.CAUSE 3) == 7 && t.outcomeOf 7 == some (outcomeArea 0 0 0 0 [])) = true := by decide +kernel
theorem test_fab_link_enable : after (exec (.fabLinkEnable 7) (lcCmd 1 1 12 0)) (fun t => t.irisState 3 == 1 && t.get (R.IRIS_CTRL.LANES_EN 3) == 12 &&
      t.get (R.IRIS_CTRL.WIDTH_MAX 3) == 1 && t.outcomeOf 7 == some (outcomeArea 0 0 0 0 [(16, 1, 1)])) = true := by decide +kernel
theorem test_fab_link_retrain : after (exec (.fabLinkRetrain 7) (withUid 1 (lcCmd 2 0 0 2))) (fun t => ((t.iris 3).change.any fun c => c.same && c.cmd == some 7) && (t.iris 3).records.length == 1) = true := by decide +kernel
theorem test_fab_link_width : after (exec (.fabLinkWidth 7) (withUid 1 (lcCmd 3 1 3 2))) (fun t => ((t.iris 3).change.any fun c => c.width == 1 && c.mask == 3) && t.get (R.IRIS_CTRL.LANES_EN 3) == 3) = true := by decide +kernel
theorem test_fab_link_auto : after (exec (.fabLinkAutoOn 7) (lcCmd 5 0 0 2)) (fun t => t.bit (R.IRIS_CTRL.AUTO 3)) = true ∧
    after (exec (.fabLinkAutoOff 7) ((lcCmd 4 0 0 2).setBit (R.IRIS_CTRL.AUTO 3) true)) (fun t => !t.bit (R.IRIS_CTRL.AUTO 3)) = true := by decide +kernel
/-- Iris 3 in a state, with its own part. -/
def irisIn (st ns : Nat) (x : Iris) : State := withUid 1 ({ (inServe.set (R.IRIS_STATUS.STATE 3) st) with tb := ns * 2 ^ 40 }.setIris 3 x)
theorem test_iris_ctrl_send : after (exec (.irisCtrlSend 3) (irisIn 2 9 { records := [leBytes 16 5] })) (fun t => (t.iris 3).records.isEmpty && (t.iris 3).ctrlNs == 9 && t.out.length == 1) = true := by decide +kernel
theorem test_call_send : after (exec (.callSend 3) (irisIn 2 9 {})) (fun t => (t.iris 3).calls == [(0, 9)] && (t.iris 3).tag == 1 && (t.iris 3).callNs == 10) = true ∧
    after (exec (.callSend 3) ((irisIn 5 9 {}).setBit (R.IRIS_CTRL.AUTO 3) true)) (fun t => t.irisState 3 == 1) = true := by decide +kernel
theorem test_echo_missed : after (exec (.echoMissed 3) (irisIn 2 2000 { calls := [(0, 0)] })) (fun t => (t.iris 3).misses == 1 && t.get (R.IRIS_ERR.MISSED 3) == 1) = true ∧
    after (exec (.echoMissed 3) (irisIn 2 2000 { calls := [(0, 0)], misses := 2 })) (fun t => t.irisState 3 == 5 && t.get (R.IRIS_DOWN_CAP.CAUSE 3) == 1) = true := by decide +kernel
def sentCell : TxEntry := ⟨0, { queue := 0xFFFF, payload := [] }, 0, none, none⟩
theorem test_ack_timeout : let s := irisIn 2 70000 { queue := [sentCell] }
    (s.iris 3).markNs + s.get (R.IRIS_RETRY.ACK_TIMEOUT 3) ≤ s.ns ∧ s.replaying 3 (s.iris 3).mark = false ∧
    after (exec (.ackTimeout 3) s) (fun t => (t.iris 3).replay == some (0, 70000) && t.get (R.IRIS_ERR.REWINDS 3) == 1 && t.out.length == 1) = true := by decide +kernel
theorem test_retry_budget : let s := irisIn 2 70000 { queue := [sentCell] }
    s.irisActive 3 = true ∧ sentCell.firstNs + s.get (R.IRIS_RETRY.BUDGET 3) < s.ns ∧ s.noReturns 3 ∧
    after (exec (.retryBudget 3) s) (fun t => t.irisState 3 == 5 && t.get (R.IRIS_DOWN_CAP.CAUSE 3) == 2 && t.bit (faultBit 67)) = true := by decide +kernel
theorem test_gasp_repeat : let s : State := { irisIn 2 105 { gaspNs := 6 } with mode := .holdUp }
    s.power.isolated = false ∧ after (exec (.gaspRepeat 3) s) (fun t => t.out.length == 1 && (t.iris 3).gaspNs == 106) = true := by decide +kernel
/-- An iris in training, with the lanes and the widest width of IRIS_CTRL, the cells of its LIMIT, and those of account 384. -/
def training (width lanes limit cells : Nat) : State :=
  ((((irisIn 1 5 { callSeen := true, echoSeen := true }).set (R.IRIS_CTRL.WIDTH_MAX 3) width).set (R.IRIS_CTRL.LANES_EN 3) lanes).set
    (R.IRIS_CREDIT.LIMIT 3) limit).set (R.BUF_ACCT.MIN 384) cells
theorem test_iris_trained : let s := training 2 15 4 4
    Instr.wf (.irisTrained 3 2 13) = true ∧ s.irisState 3 = 1 ∧ (s.iris 3).callSeen = true ∧ (s.iris 3).echoSeen = true ∧
    widest (min 2 (s.get (R.IRIS_CTRL.WIDTH_MAX 3))) (13 &&& s.get (R.IRIS_CTRL.LANES_EN 3)) = some (1, 12) ∧
    s.get (R.IRIS_CREDIT.LIMIT 3) ≤ s.fabricFree ∧
    after (exec (.irisTrained 3 2 13) s) (fun t => t.irisState 3 == 2 && t.get (R.IRIS_STATUS.WIDTH 3) == 1 &&
      t.get (R.IRIS_STATUS.LANES_ACT 3) == 12 && t.get (R.IRIS_STATUS.LANES_OK 3) == 13 && (t.iris 3).creditTotal == 4 && t.fab.advDue) = true := by decide +kernel
/-- One cell short of the credit it grants, an iris waits; with no lane in common it goes DOWN. -/
theorem test_iris_trained_waits : let s := training 2 15 4 3
    widest (min 0 (s.get (R.IRIS_CTRL.WIDTH_MAX 3))) (8 &&& s.get (R.IRIS_CTRL.LANES_EN 3)) = some (0, 8) ∧
    s.fabricFree < s.get (R.IRIS_CREDIT.LIMIT 3) ∧ after (exec (.irisTrained 3 0 8) s) (fun t => t.irisState 3 == 1) = true := by decide +kernel
theorem test_iris_trained_down : let s := training 2 7 4 4
    widest (min 2 (s.get (R.IRIS_CTRL.WIDTH_MAX 3))) (8 &&& s.get (R.IRIS_CTRL.LANES_EN 3)) = none ∧ s.noReturns 3 ∧
    after (exec (.irisTrained 3 2 8) s) (fun t => t.irisState 3 == 5 && t.get (R.IRIS_DOWN_CAP.CAUSE 3) == 6) = true := by decide +kernel
def lanesUp (act : Nat) (x : Iris) : State := ((irisIn 2 5 x).set (R.IRIS_STATUS.LANES_ACT 3) act).set (R.IRIS_STATUS.LANES_OK 3) 15
theorem test_lane_lock_loss : after (exec (.laneLockLoss 3 2) (lanesUp 3 {})) (fun t => t.irisState 3 == 2 && t.get (R.IRIS_STATUS.LANES_OK 3) == 11) = true ∧
    after (exec (.laneLockLoss 3 1) (lanesUp 3 {})) (fun t => t.irisState 3 == 5 && t.get (R.IRIS_DOWN_CAP.CAUSE 3) == 3) = true := by decide +kernel
theorem test_lane_threshold : let s := (((lanesUp 15 {}).set (R.IRIS_LANE.THRESH 3) 9).set (R.IRIS_CTRL.LANES_EN 3) 15).set (R.IRIS_CTRL.WIDTH_MAX 3) 2
    Instr.wf (.laneThreshold 3 0 10) = true ∧ widest (s.get (R.IRIS_CTRL.WIDTH_MAX 3)) (s.get (R.IRIS_CTRL.LANES_EN 3) - 2 ^ 0) = some (1, 12) ∧
    after (exec (.laneThreshold 3 0 10) s) (fun t => (t.iris 3).change.any fun c => c.width == 1 && c.mask == 14 && c.leader) = true := by decide +kernel
def changing : LinkChange := { leader := true, width := 1, mask := 3, same := false }
theorem test_rt_req_repeat : after (exec (.rtReqRepeat 3) (irisIn 2 10000 { change := some changing })) (fun t => (t.iris 3).change == some { changing with reqNs := 10000, repeats := 1 }) = true ∧
    after (exec (.rtReqRepeat 3) (irisIn 2 10000 { change := some { changing with repeats := 3 } })) (fun t => t.irisState 3 == 5) = true := by decide +kernel
set_option maxRecDepth 100000 in
theorem test_rt_ready_send : let s := irisIn 3 5 { change := some { changing with readyRecv := true } }
    (s.iris 3).ackSent = (s.iris 3).exp ∧ (s.iris 3).records.length < 15 ∧
    after (exec (.rtReadySend 3) s) (fun t => t.irisState 3 == 4 && ((t.iris 3).change.any fun c => c.readySent && c.startNs == 5) &&
      (t.iris 3).records.isEmpty && t.out == [.cell 3 (unsequenced 3 0 ((s.due 3 (record 16 [(0, 1, 0x12)])).ctrlPayload 3))]) = true ∧
    after (exec (.rtReadySend 3) (irisIn 3 5 { disabling := some 7 })) (fun t => t.irisState 3 == 0) = true := by decide +kernel
theorem test_retrain_complete : let s := ((irisIn 4 5 { change := some { changing with agreed := some (1, 12), cmd := some 7 } }).set (R.IRIS_CREDIT.LIMIT 3) 4).set (R.BUF_ACCT.MIN 384) 4
    let u : State := { s with cmd := (lcCmd 2 0 0 2).cmd }
    u.get (R.IRIS_CREDIT.LIMIT 3) ≤ u.fabricFree ∧
    after (exec (.retrainComplete 3) u) (fun t => t.irisState 3 == 2 && t.get (R.IRIS_STATUS.WIDTH 3) == 1 && (t.iris 3).change == none &&
      t.outcomeOf 7 == some (outcomeArea 0 0 0 5 [(16, 1, 1)])) = true := by decide +kernel
theorem test_retrain_timeout : after (exec (.retrainTimeout 3) (irisIn 4 40001 { change := some changing })) (fun t => t.irisState 3 == 5 && t.get (R.IRIS_DOWN_CAP.CAUSE 3) == 3) = true := by decide +kernel
/-- A DATA cell whose CRC field is 0. -/
def badCell : List Byte := beBytes 12 (2 ^ 93) ++ leBytes 260 0
set_option maxRecDepth 100000 in
theorem test_iris_cell_nack : badCell.length = 272 ∧ cellType badCell = 1 ∧ crcMatches (seqPrefix 0) badCell = false ∧
    after (exec (.irisCellReceive 3 badCell) (irisIn 2 5 {})) (fun t => (t.iris 3).nackOpen && t.get (R.IRIS_ERR.CRC 3) == 1) = true := by decide +kernel
/-- A link-scoped cell that carries a fragment. -/
def goodCell : List Byte := FCell.bytes { queue := 0xFFFF, cls := 7, payload := [1] } 0
set_option maxRecDepth 100000 in
theorem test_iris_cell_advert : goodCell.length = 272 ∧ cellType goodCell = 1 ∧ crcMatches (seqPrefix 0) goodCell = true ∧
    (cellOf goodCell).queue = 0xFFFF ∧ leAt (cellOf goodCell).payload 0 1 = 1 ∧
    after (exec (.irisCellReceive 3 goodCell) (irisIn 2 5 {})) (fun t => (t.iris 3).exp == 1 && (t.iris 3).creditTotal == 1 && t.fab.work.length == 1) = true := by decide +kernel
def gapped : State := (irisIn 2 70000 {}).setStream 9 1 (some { exp := 4, held := [(6, { first := true, last := true, src := 9, cls := 1, marker := true }, none)], gapNs := some 0 })
theorem test_reorder_timeout : Instr.wf (.reorderTimeout 9 1) = true ∧ (gapped.stream 9 1).gapNs = some 0 ∧ 0 + gapped.get R.FAB_REORDER.TIMEOUT ≤ gapped.ns ∧
    after (exec (.reorderTimeout 9 1) gapped) (fun t => (t.stream 9 1).exp == 7 && (t.stream 9 1).held.isEmpty && t.get R.FAB_LOSS.TIMEOUTS == 1) = true := by decide +kernel
theorem test_gap_limit : 0 + gapped.get R.FAB_REORDER.GAP_LIMIT < gapped.ns ∧
    after (exec (.gapLimit 9 1) gapped) (fun t => (t.stream 9 1).limit == some 7) = true := by decide +kernel
def queuedPkt (irisNs : Nat) : Pkt := { id := 4, src := 1, bytes := List.replicate 64 0, copy := 1, irisNs := irisNs }
theorem test_iris_deadline : let s := (irisIn 2 100 {}).setLeafQ (2 ^ 20 + 8 * 9 + 1) [queuedPkt 50, queuedPkt 150]
    Instr.wf (.irisDeadline 9 1) = true ∧ s.forwarding = true ∧ s.bit (R.FAB_DEST.REACH 9) = false ∧
    after (exec (.irisDeadline 9 1) s) (fun t => (t.leafQ (2 ^ 20 + 8 * 9 + 1)).length == 1) = true := by decide +kernel

/-! ### The SMBus management port -/

def smbW (data : List Byte) : SmbTx := ⟨0x58, .blockWrite, data, true⟩
def smbR : SmbTx := ⟨0x58, .blockRead, [], true⟩
theorem test_smb_pointers : inServe.hears (smbW []) ∧ inServe.hears smbR ∧
    after (exec (.smbJrnPointer (smbW (leBytes 6 5))) inServe) (fun t => t.cmd.jptr == 1280) = true ∧
    after (exec (.smbLogPointer (smbW (leBytes 4 5))) inServe) (fun t => t.fault.logPtr == 5) = true := by decide +kernel
theorem test_smb_reads : after (exec (.smbJrnRead smbR) { inServe with cmd := { inServe.cmd with jptr := 1280 + 224 } }) (fun t => t.cmd.jptr == 1280 && t.out.length == 1) = true ∧
    after (exec (.smbJrnStatus smbR) inServe) (fun t => t.out.length == 1) = true ∧
    after (exec (.smbLogRead smbR) inServe) (fun t => t.fault.logPtr == 1 && t.out.length == 1) = true := by decide +kernel
theorem test_smb_mode : after (exec (.smbModeQuery (smbW [0])) inServe) (fun t => t.mode == .serve && t.out.isEmpty) = true ∧
    after (exec (.smbModeRestart (smbW [1])) inServe) (fun t => t.mode == .dormant && t.prev == .serve) = true ∧
    after (exec (.smbModeSafe (smbW [2])) inServe) (fun t => t.mode == .safe && t.safeCause == 4) = true := by decide +kernel
theorem test_smb_unlisted : smbListed 0x33 = none ∧ after (exec (.smbUnlistedCommand 0x33 smbR) inServe) (fun t => t.out == [.smbusNack]) = true ∧
    after (exec (.smbUnlistedCommand 0x31 (smbW [])) inServe) (fun t => t.out == [.smbusNack]) = true := by decide +kernel
/-- SMB_ADDR = 3: the port answers at 0x5B alone, and a listed code in a byte transfer is not acknowledged. -/
theorem test_smb_address : let s : State := { inServe with power := { inServe.power with smbAddr := 3 } }
    smbR.addr ≠ 0x58 + s.power.smbAddr ∧ after (exec (.smbJrnRead smbR) s) (fun t => t.out.isEmpty && t.cmd.jptr == 0) = true ∧
    s.hears { smbR with addr := 0x5B } ∧ after (exec (.smbLogRead { smbR with addr := 0x5B }) s) (fun t => t.fault.logPtr == 1) = true ∧
    s.hears { smbR with addr := 0x5B, kind := .readByte } ∧ smbListed 0x31 = some (.blockRead, 32) ∧
    after (exec (.smbUnlistedCommand 0x31 { smbR with addr := 0x5B, kind := .readByte }) s) (fun t => t.out == [.smbusNack]) = true := by decide +kernel

/-! ### The Ethernet ports -/

/-- Port 2 at 100 Gb/s, its link up. -/
def portUp : State := ((inServe.set (R.MAC_CFG.SPEED 2) 4).set (R.MAC_CFG.MAXF 2) 1518).setBit (R.MAC_STATUS.LINK 2) true
def frame60 : List Byte := List.replicate 60 1
theorem test_frame_receive : Instr.wf (.frameReceive 2 frame60 0 true 0 false) = true ∧ portUp.receives 2 = true ∧
    portUp.frameTest 2 64 true = none ∧ beAt frame60 12 2 ≠ 0x8808 ∧ portUp.bit (R.SEC_MSEC_PORT.EN 2) = false ∧ portUp.takesCut 2 false = false ∧
    after (exec (.frameReceive 2 frame60 0 true 0 false) portUp) (fun t => t.word (R.MAC_CNT.COUNT 2 0).off == 1 &&
      t.word (R.MAC_CNT.COUNT 2 1).off == 64 && t.buf.rx.length == 1) = true := by decide +kernel
theorem test_frame_bad : portUp.frameTest 2 64 false = some 2 ∧
    after (exec (.frameReceive 2 frame60 0 false 0 false) portUp) (fun t => t.word (R.MAC_CNT.COUNT 2 2).off == 1 && t.buf.rx.isEmpty) = true ∧
    after (exec (.frameReceive 2 frame60 0 true 1 false) portUp) (fun t => t.word (R.MAC_CNT.COUNT 2 9).off == 1) = true := by decide +kernel
theorem test_pause_frame : let s := portUp.set (R.MAC_FC.MODE 2) 1
    Instr.wf (.pauseFrame 2 10) = true ∧ s.receives 2 = true ∧
    after (exec (.pauseFrame 2 10) s) (fun t => t.word (R.MAC_CNT.COUNT 2 7).off == 1 && decide (0 < SMap.find (fun _ => 0) t.mac.holds 40)) = true := by decide +kernel
theorem test_priority_pause : let s := portUp.set (R.MAC_FC.MODE 2) 2
    Instr.wf (.priorityPauseFrame 2 4 [0, 0, 9, 0, 0, 0, 0, 0]) = true ∧
    after (exec (.priorityPauseFrame 2 4 [0, 0, 9, 0, 0, 0, 0, 0]) s) (fun t => decide (0 < SMap.find (fun _ => 0) t.mac.holds 34) && SMap.find (fun _ => 0) t.mac.holds 33 == 0) = true := by decide +kernel
theorem test_pause_expiry : let s := { portUp with tb := 500 }.setHold 2 8 400
    after (exec (.pauseExpiry 2 8) s) (fun t => SMap.find (fun _ => 0) t.mac.holds 40 == 0) = true := by decide +kernel
def wmOn : State := let s := (((portUp.set (R.BUF_WM.HIGH 2) 1).setBit (R.BUF_WM.STATE 2) true).set (R.BUF_ACCT.USED 2) 4).set (R.MAC_FC.MODE 2) 1
  { s with tb := 2 ^ 50, mac := { s.mac with pauseSent := [(2, 1)] } }
set_option maxRecDepth 100000 in
theorem test_pause_refresh : wmOn.wm 2 = true ∧ wmOn.linkUp 2 = true ∧
    wmOn.refreshDue 2 = true ∧ SMap.find (fun _ => []) wmOn.mac.control 2 = [] ∧ wmOn.sending 2 = none ∧
    after (exec (.pauseRefresh 2) wmOn) (fun t => SMap.find (fun _ => 0) t.mac.pauseSent 2 == 1025) = true := by decide +kernel
theorem test_xoff_in_change : after (exec (.xoffInChange 3 false) { inServe with pace := { inServe.pace with xoffIn := (List.replicate 8 false).set 3 true } }) (fun t => t.pace.xoffIn == List.replicate 8 false) = true := by decide +kernel
theorem test_mac_link : portUp.portOn 2 = true ∧ after (exec (.macLink 2 true true false) portUp) (fun t => !t.linkUp 2 && t.bit (R.MAC_STATUS.LOCAL_FAULT 2) &&
      t.get (R.MAC_STATUS.DOWNS 2) == 1 && t.bit (faultBit 130)) = true := by decide +kernel
theorem test_link_up : let s := portUp.setBit (R.MAC_STATUS.LINK 2) false
    s.portOn 2 = true ∧ after (exec (.linkUp 2) s) (fun t => t.linkUp 2 && t.bit (R.MAC_STATUS.ALIGNED 2)) = true := by decide +kernel
def verifying (sent : Nat) : State := let s := ((portUp.setBit (R.MAC_PREEMPT.EN 2) true).setBit (R.MAC_PREEMPT.VERIFY_DIS 2) false).set (R.MAC_PREEMPT.VSTATUS 2) 2
  { s with mac := { s.mac with verifies := [(2, sent)] } }
theorem test_verify_timer : (verifying 1).receives 2 = true ∧ (verifying 1).verifying 2 = true ∧ (verifying 1).verifyDue 2 = true ∧
    after (exec (.verifyTimer 2 false) (verifying 1)) (fun t => SMap.find (fun _ => 0) t.mac.verifies 2 == 2 && t.out == [.verify 2 false]) = true ∧
    after (exec (.verifyTimer 2 false) (verifying 3)) (fun t => t.get (R.MAC_PREEMPT.VSTATUS 2) == 4 && t.bit (faultBit 27)) = true := by decide +kernel
theorem test_verify_frames : (verifying 1).bit (R.MAC_PREEMPT.EN 2) = true ∧ (verifying 1).get (R.MAC_CFG.SPEED 2) ≠ 7 ∧
    0 < SMap.find (fun _ => 0) (verifying 1).mac.verifies 2 ∧ after (exec (.verifyTimer 2 true) (verifying 1)) (fun t => t.get (R.MAC_PREEMPT.VSTATUS 2) == 3) = true ∧
    after (exec (.frameReceive 2 frame60 0 true 2 false) (verifying 1)) (fun t => t.out == [.verify 2 true]) = true := by decide +kernel
/-- Port 2's class with cut-through parsing. -/
def cutPort : State := portUp.setBit (R.PRISM_PROFILE.CUT 0 (portUp.profileOf 0 2)) true
theorem test_frame_bad_cut : cutPort.takesCut 2 false = true ∧ cutPort.frameTest 2 64 false = some 2 ∧ macControl frame60 = false ∧
    after (exec (.frameReceive 2 frame60 0 false 0 false) cutPort) (fun t => t.buf.rx.any fun f => f.bad == some 2 && f.cut) = true := by decide +kernel
/-- The published AES-256-GCM vector of a zero key and a zero initialisation vector without data (GCM specification, test case 13). -/
theorem test_gcm_vector : gcmSeal (List.replicate 32 0) (List.replicate 12 0) [] [] = beBytes 16 0x530F8AFBC74536B9A963B4F1C4CB738B := by decide +kernel
/-! ### Cells, the aperture, the prism and the handoff -/

/-- SERVE with one cell in use. -/
def cellUsed (w : Nat) : State := inServe.setLink 1000 w
theorem test_cell_free_twice : Instr.wf (.cellFree 1000 5 false) = true ∧ inServe.coreUp = true ∧ linkUsed (inServe.link 1000) = false ∧
    after (exec (.cellFree 1000 5 false) inServe) (fun t => t.bit (faultBit 20) && t.get R.BUF_ERR.DOUBLE_FREE == 1 && t.get R.BUF_FREE_CAP.CELL == 1000) = true := by decide +kernel
theorem test_cell_free : let w := linkWord (some 5) 1 true 10 0
    linkUsed w = true ∧ linkOwned w = true ∧ linkTag w = 5 ∧ (cellUsed w).chargeOf 1000 = none ∧
    after (exec (.cellFree 1000 5 false) (cellUsed w)) (fun t => t.link 1000 == bitsSet w 47 1 0) = true ∧
    after (exec (.cellFree 1000 5 true) (cellUsed w)) (fun t => t.link 1000 == bitsSet w 47 1 0) = true ∧
    after (exec (.cellFree 1000 6 true) (cellUsed w)) (fun t => t.get R.BUF_ERR.OWNER == 1 && t.link 1000 == w) = true := by decide +kernel
theorem test_cell_reference : let w := linkWord none 3 true 10 0
    linkOwned w = false ∧ linkTag w = 3 ∧ after (exec (.cellFree 1000 6 false) (cellUsed w)) (fun t => linkTag (t.link 1000) == 2) = true ∧
    after (exec (.cellFree 1000 6 false) (cellUsed (linkWord none 1 true 10 0))) (fun t => t.link 1000 == bitsSet (linkWord none 1 true 10 0) 47 1 0) = true := by decide +kernel
theorem test_chain_handoff : Instr.wf (.chainHandoff 1000 5 288) = true ∧
    after (exec (.chainHandoff 1000 5 288) (cellUsed (linkWord (some 5) 1 true 10 0))) (fun t => linkTag (t.link 1000) == 288) = true ∧
    after (exec (.chainHandoff 1000 6 288) (cellUsed (linkWord (some 5) 1 true 10 0))) (fun t => t.bit (faultBit 21)) = true := by decide +kernel
/-- A frame of 64 B from port 2 with its cells. -/
def arriving (cells : List Nat) (cut taken : Bool) (bad : Option Nat) : RxFrame :=
  { pkt := { id := 9, src := 2, bytes := frame60, fcs := 0, acct := 2, cells := cells }, len := 64, bad := bad, cut := cut, taken := taken, gone := false,
    outerTag := none, writeBack := none, wire := 64 }
def withRx (f : RxFrame) : State := let s := portUp.set (R.BUF_ACCT.MIN 2) 10; { s with buf := { s.buf with rx := [f], nextId := 10 } }
theorem test_cell_write : let f := arriving [] false false none
    Instr.wf (.cellWrite 2 7) = true ∧ (withRx f).writing 2 = some f ∧ (withRx f).freeIn 7 = some 7 ∧ (withRx f).landingKind 2 = some 0 ∧
    after (exec (.cellWrite 2 7) (withRx f)) (fun t => t.buf.rx.all (fun g => g.pkt.cells == [7]) && t.link 7 == linkWord none 1 true (fillOf 64 0) 0) = true := by decide +kernel
theorem test_cell_overrun : let f := arriving [] false false none
    let s := ((withRx f).set (R.BUF_ACCT.MIN 2) 0).set R.BUF_POOL.SHARED 0
    s.writing 2 = some f ∧ s.freeIn 7 = some 7 ∧ s.landingKind 2 = none ∧
    after (exec (.cellWrite 2 7) s) (fun t => t.buf.rx.isEmpty && t.get R.BUF_ERR.OVERRUN == 1) = true := by decide +kernel
theorem test_aperture_refuses : let f := arriving [] false false none
    let s0 := (withRx { f with pkt := { f.pkt with cells := [7] } }).setLink 7 (linkWord none 1 true 63 0)
    let s : State := { s0 with apr := { s0.apr with windowRefuse := true } }
    s.readyFrame 2 = some { f with pkt := { f.pkt with cells := [7] } } ∧ s.refusesAll (s.entryOf 2 % 16) = true ∧
    after (exec (.apertureDecision 2) s) (fun t => t.buf.rx.isEmpty && t.buf.toPrism.isEmpty && t.word (R.APR_REFUSE.COUNT 0).off == 1 && t.link 7 == bitsSet (linkWord none 1 true 63 0) 47 1 0) = true := by decide +kernel
theorem test_aperture_takes : let f := arriving [] false false none
    let s := (((withRx { f with pkt := { f.pkt with cells := [7] } }).setLink 7 (linkWord none 1 true 63 0)).set (R.BUF_ACCT.USED 2) 1).set R.BUF_POOL.SHARED 1000
    after (exec (.apertureDecision 2) s) (fun t => t.buf.rx.isEmpty && (SMap.find (fun _ => []) t.buf.toPrism 0).length == 1 && t.word (R.APR_ADMIT.COUNT 0).off == 1) = true := by decide +kernel
theorem test_frame_end : let f := arriving [7] true false none
    (withRx f).endingFrame 2 = some f ∧
    after (exec (.frameEndReport 2) { withRx f with tb := 7 * 2 ^ 40 }) (fun t => t.buf.rx.all (fun g => !g.cut && g.pkt.startNs == 7) && t.word (R.MAC_CNT.COUNT 2 0).off == 1) = true ∧
    after (exec (.frameEndReport 2) (withRx (arriving [7] true false (some 2)))) (fun t => t.buf.rx.isEmpty && t.word (R.MAC_CNT.COUNT 2 2).off == 1) = true := by decide +kernel
/-- Prism 0 with an interval of 4 steps. -/
def scheduled (p : Prism) : State := (inServe.set (R.PRISM_SCHED.II 0 0) 4).setPrism 0 p
theorem test_prism_step : (scheduled {}).forwarding = true ∧ (scheduled {}).interval 0 ((scheduled {}).gridBank 0) ≠ 0 ∧
    after (exec (.prismStep 0 false) (scheduled {})) (fun t => (t.prism 0).steps == 1 && (t.prism 0).flights.length == 1) = true := by decide +kernel
def farLook : Lookup := { id := 0, port := 26, win := 0, due := 3, ready := false, status := 0, value := 0, issueTb := 0, far := some 0 }
def farFlight : Flight := { pkt := some { id := 9, src := 2, bytes := [], cut := true }, age := 3, bank := 0, work := { looks := [farLook] }, tokens := [], inTb := 0 }
theorem test_prism_waits : (scheduled { flights := [farFlight] }).interval 0 ((scheduled { flights := [farFlight] }).gridBank 0) ≠ 0 ∧
    ((scheduled { flights := [farFlight] }).floorReady 0 ((scheduled { flights := [farFlight] }).prism 0)).unready = true ∧
    after (exec (.prismStep 0 false) (scheduled { flights := [farFlight] })) (fun t => (t.prism 0).wait && t.get (R.PRISM_WAIT.RETURN_WAITS 0) == 1) = true := by decide +kernel
theorem test_return_ready : let q : Prism := { flights := [{ farFlight with work := { looks := [{ farLook with port := 16 }] } }], wait := true }
    after (exec (.returnReady 0) (scheduled q)) (fun t => !(t.prism 0).unready && !(t.prism 0).wait) = true := by decide +kernel
theorem test_far_late : let s : State := { scheduled { flights := [farFlight], wait := true } with tb := 2 ^ 60 }
    (s.lateRead 0).isSome = true ∧ after (exec (.farLate 0) s) (fun t => t.bit (faultBit 15) && t.word (R.PRISM_FAR_LATE.COUNT 0).off == 1 && !(t.prism 0).wait) = true := by decide +kernel
def stalled : State := let s := scheduled { flights := [farFlight], stall := some (9, 1, 0) }
  { s with tb := 2 ^ 62, buf := { s.buf with rx := [arriving [] true true none] } }
theorem test_cut_segment : (stalled.prism 0).stall = some (9, 1, 0) ∧ (stalled.arrivingSegs 2).map (·.pkt.id) = some 9 ∧
    after (exec (.cutSegmentPresent 2) stalled) (fun t => (t.prism 0).stall == none && t.buf.rx.all (fun g => g.segs == 2)) = true ∧
    after (exec (.cutSegmentPresent 2) (stalled.setPrism 0 { flights := [farFlight] })) (fun t => t.buf.rx.all (fun g => g.segs == 2)) = true := by decide +kernel
theorem test_parse_cut : stalled.stallBudget 2 ≤ 0 + (stalled.tb - 0) ∧
    after (exec (.parseCut 0) stalled) (fun t => (t.prism 0).stall == none && t.bit (faultBit 14) && (t.prism 0).packets.isEmpty) = true := by decide +kernel
theorem test_enqueue : let p : Pkt := { queuedPkt 5 with leaf := 2 ^ 20 + 9 }
    let s : State := { inServe with buf := { inServe.buf with handoff := [p] } }
    s.forwarding = true ∧ nextReady s.buf.handoff [] = some p ∧ p.group = false ∧ s.migOf p.ep 0 = none ∧ isFabricLeaf p.leaf = true ∧
    after (exec .enqueue s) (fun t => t.buf.handoff.isEmpty && (t.leafQ (2 ^ 20 + 9)).length == 1) = true := by decide +kernel
theorem test_enqueue_idle : nextReady inServe.buf.handoff [] = none ∧ (after (exec .enqueue inServe) fun t => decide (t = inServe)) = true := by decide +kernel
/-- No frame of port 3 is arriving: the command changes nothing. -/
theorem test_cut_segment_none : inServe.arrivingSegs 3 = none ∧ (after (exec (.cutSegmentPresent 3) inServe) fun t => decide (t = inServe)) = true := by decide +kernel

/-! ### The collimator, spill, HBM, far memory -/

/-- Port 2 up, endpoint 7 in group 0 at port 2, class 0. -/
def grouped : State := { portUp with tb := 2 ^ 60, col := { portUp.col with epGroup := [(7, 1)], groupOut := [(0, 17)] } }
def leaf7 (p : Pkt) : State := grouped.setLeafQ 7 [p]
/-- A packet of endpoint 7, not accepted under a contract. -/
def pkt7 : Pkt := { id := 4, src := 2, bytes := frame60, copy := 1, leaf := 7 }
/-- The packet, its cell 1000 in use under the owner 291. -/
def held7 : Pkt := { pkt7 with cells := [1000] }
def holding : State := (leaf7 held7).setLink 1000 (linkWord (some 291) 1 true 63 0)
set_option maxRecDepth 100000 in
theorem test_select : ((holding.choose 2).any fun x => x.leaf == 7) = true ∧ holding.headOf 7 = some held7 ∧ holding.leafOut 7 = some (2, 0) ∧
    holding.unprotected 2 held7 = false ∧ holding.failingPlaces held7 = [] ∧ holding.bit (R.SEC_MSEC_PORT.EN 2) = false ∧
    holding.insertTag 2 0 frame60 = frame60 ∧ ptpAt (holding.get (R.MAC_TAG.TPID_X 2)) frame60 2 12 = none ∧ holding.groupOf 7 = some 0 ∧
    after (exec (.collimatorSelect 2 []) holding) (fun t => (t.leafQ 7).isEmpty && t.link 1000 == bitsSet (linkWord (some 291) 1 true 63 0) 47 1 0 &&
      t.out == [.frame 2 (frame60 ++ leBytes 4 (frameCheck frame60)) true] && t.word (R.MAC_CNT.COUNT 2 11).off == 1 &&
      t.word (R.MAC_CNT.COUNT 2 12).off == 64) = true := by decide +kernel
/-- Every shaper of the path is charged, and another output's is not. -/
theorem test_select_charges : holding.pathShapers 2 0 7 = [2, resKey 2 0, maxKey 2 0, epKey 7, groupKey 0] ∧ 3 ∉ holding.pathShapers 2 0 7 ∧
    after (exec (.collimatorSelect 2 []) holding) (fun t => (holding.pathShapers 2 0 7).all (fun k =>
      t.shaper k == (holding.chargeShaper k (holding.counted 2 held7)).shaper k) && t.shaper 3 == holding.shaper 3) = true := by decide +kernel
/-- Receive queue 5 with a descriptor ready, and the packet for it at output 96, class 0. -/
def hosted : State :=
  let s := (queue5 true).setReady 5 [(0, record 16 [(0, 8, 0x8000)])]
  { s with tb := 2 ^ 60, col := { s.col with epGroup := [(7, 1)], groupOut := [(0, 769)] } }.setLeafQ 7 [{ pkt7 with hostQ := some 5 }]
theorem test_select_host : ((hosted.choose 96).any fun x => x.leaf == 7) = true ∧ hosted.headOf 7 = some { pkt7 with hostQ := some 5 } ∧
    (hosted.leafOut 7).isSome = true ∧ hosted.ready 5 = [(0, record 16 [(0, 8, 0x8000)])] ∧ frame60.length ≤ hosted.bufBytes 5 ∧
    after (exec (.collimatorSelect 96 []) hosted) (fun t => (t.leafQ 7).isEmpty && t.get (R.HOST_QSTAT.C 5) == 1 &&
      t.out.contains (.hostWrite 0 0x8000 frame60 false false false)) = true := by decide +kernel
/-- A packet for device 9, class 0. -/
def remote9 : State :=
  (((({ inServe with tb := 2 ^ 60 }.set R.FAB_ADDR.STATE 2).set (R.FAB_NH.MASK 9) 8).set (R.IRIS_STATUS.STATE 3) 2).set (R.IRIS_CREDIT.AVAIL 3) 5).setLeafQ (2 ^ 20 + 72) [{ pkt7 with leaf := 2 ^ 20 + 72 }]
theorem test_select_fabric : ((remote9.choose 98).any fun x => x.leaf == 2 ^ 20 + 72) = true ∧ (2 ^ 20 + 72 - 2 ^ 20) / 8 = 9 ∧
    after (exec (.collimatorSelect 98 []) remote9) (fun t => (t.leafQ (2 ^ 20 + 72)).isEmpty &&
      SMap.find (fun _ => 0) t.fab.sent (streamKey 9 0) == 1) = true := by decide +kernel
theorem test_select_none : (grouped.choose 2).isNone = true ∧ after (exec (.collimatorSelect 2 []) grouped) (fun t => t.out.isEmpty) = true := by decide +kernel
theorem test_select_unprotected : let s := (leaf7 pkt7).setBit (R.SEC_MSEC_PORT.EN 2) true
    (s.choose 2).any (fun x => x.leaf == 7) = true ∧ s.unprotected 2 pkt7 = true ∧
    after (exec (.collimatorSelect 2 []) s) (fun t => !t.linkUp 2 && (t.leafQ 7).length == 1) = true := by decide +kernel
theorem test_starve : let s0 := (leaf7 pkt7).set R.COL_STARVE_LIMIT.CLASS_EN 1
    let s : State := { s0 with col := { s0.col with waited := [(7, 10 ^ 12)] } }
    s.leafOut 7 = some (2, 0) ∧ s.forwarding = true ∧ 1000 * s.get R.COL_STARVE_LIMIT.LIMIT < s.waitedNs 7 ∧
    after (exec (.starve 7) s) (fun t => t.col.starved == [7]) = true := by decide +kernel
theorem test_breach_link : let s := (leaf7 { pkt7 with accepted := true }).setBit (R.MAC_STATUS.LINK 2) false
    s.leafPort 7 = some (2, 0) ∧ s.linkBreach 2 { pkt7 with accepted := true } = true ∧
    after (exec (.breachLink 7) s) (fun t => (t.leafQ 7).isEmpty && t.word (R.CNT_REASON.COUNT 0x18).off == 1) = true ∧
    after (exec (.breachLink 7) (leaf7 pkt7)) (fun t => (t.leafQ 7).length == 1) = true := by decide +kernel
theorem test_breach_pause : let s0 := (leaf7 { pkt7 with accepted := true })
    let s : State := { s0 with mac := { s0.mac with holdTotal := [(16, 10 ^ 15)] } }
    s.pauseBreach 2 0 { pkt7 with accepted := true } = true ∧
    after (exec (.breachPause 7) s) (fun t => (t.leafQ 7).isEmpty && t.word (R.CNT_REASON.COUNT 0x1A).off == 1) = true := by decide +kernel
theorem test_switch_cut : let p : Pkt := { pkt7 with cut := true, copy := 0 }
    let s : State := { grouped with buf := { grouped.buf with handoff := [p] } }
    s.heldFrame 2 = some p ∧ s.leafPort 7 = some (2, 0) ∧ s.mayCut 2 2 0 p = true ∧
    after (exec (.switchCutStart ⟨2, []⟩) s) (fun t => t.buf.handoff.isEmpty && t.buf.cutting.length == 1 && t.get R.SWC_CUT.STARTS == 1) = true ∧
    after (exec (.switchCutStart ⟨2, []⟩) grouped) (fun t => t.buf.cutting.isEmpty) = true := by decide +kernel
/-- A packet whose cell lies in place 0 of HBM block 0. -/
def inBlock (p : Pkt) (b : Spill) : State := let s := leaf7 p; { s with buf := { s.buf with spills := [b], refillUsed := 0 } }
def block0 (isOpen : Bool) : Spill := { id := 0, far := false, leaf := 7, used := 1, live := 1, isOpen := isOpen, lastNs := 0, failed := false }
theorem test_spill_done : let p : Pkt := { pkt7 with spilling := some 1, who := 1, spots := [0] }
    let s := (inBlock p (block0 false)).set R.BUF_SPILL_CTRL.REFILL 0
    s.spilled 7 = some p ∧ (∀ x ∈ withAhead (s.leafQ 7) 0, x.1.spilling.isSome = true → s.get R.BUF_SPILL_CTRL.REFILL ≤ x.2) ∧
    after (exec (.spillWriteComplete 7) s) (fun t => (t.leafQ 7).all (fun q => q.tier == 1 && q.spilling == none) && t.buf.winHbm == 1) = true ∧
    ((leaf7 pkt7).spilled 7).isNone = true := by decide +kernel
theorem test_spill_cancelled : let p : Pkt := { pkt7 with spilling := some 1, who := 1, spots := [0] }
    let s := (inBlock p (block0 false)).set R.BUF_SPILL_CTRL.REFILL 10
    s.leafQ 7 = [p] ∧ after (exec (.spillWriteComplete 7) s) (fun t => t.leafQ 7 == [{ p with spilling := none, spots := [] }]) = true := by decide +kernel
theorem test_spill_flush : let s := inBlock { pkt7 with spilling := some 1, who := 1, spots := [0] } (block0 true)
    s.buf.spills.Nodup ∧ (block0 true).lastNs + 10000 ≤ s.ns ∧
    after (exec (.spillBlockFlush 0 false) s) (fun t => t.buf.spills == [block0 false] && t.mem.queue.length == 4) = true ∧
    after (exec (.spillBlockFlush 1 false) s) (fun t => t.buf.spills == [block0 true]) = true := by decide +kernel
theorem test_refill_start : let p : Pkt := { pkt7 with tier := 1, who := 1, spots := [0] }
    let s := ((inBlock p (block0 false)).set R.BUF_SPILL_CTRL.REFILL 10).set R.BUF_SPILL_CTRL.REFILL_RES 10
    s.toRefill 7 = some p ∧ cellsOf p.len ≤ s.get R.BUF_POOL.FREE ∧ s.buf.refillUsed + cellsOf p.len ≤ s.get R.BUF_SPILL_CTRL.REFILL_RES ∧
    after (exec (.refillStart 7) s) (fun t => (t.leafQ 7).all (fun q => q.refilling && q.cells.length == 1) && t.mem.queue.length == 4) = true ∧
    after (exec (.refillStart 7) (s.set R.BUF_SPILL_CTRL.REFILL_RES 0)) (fun t => t.mem.queue.isEmpty) = true := by decide +kernel
theorem test_refill_done : let p : Pkt := { pkt7 with tier := 1, who := 1, spots := [0], refilling := true }
    let s := inBlock p (block0 false)
    ((s.leafQ 7).find? fun q => q.refilling && s.transferDone q.who) = some p ∧ 0 + s.failedBlocks p = 0 ∧
    after (exec (.refillComplete 7 0) s) (fun t => (t.leafQ 7).all (fun q => q.tier == 0) && t.buf.spills.isEmpty && t.buf.winBack == 1) = true ∧
    after (exec (.refillComplete 7 1) s) (fun t => (t.leafQ 7).isEmpty && t.get R.BUF_ERR.UNCORR == 1) = true := by decide +kernel
theorem test_spill_window : let s : State := { grouped with buf := { grouped.buf with winHbm := 3 } }
    s.buf.winStart + 10000 ≤ s.ns ∧ after (exec .spillRateWindow s) (fun t => t.get R.BUF_SPILL_RATE.HBM_OUT == 3 && t.buf.winHbm == 0) = true := by decide +kernel
/-- One queued write of pseudo-channel 3. -/
def oneWrite : MemReq := { q := 3, line := 5, cls := 1, hintOpen := true, write := true, data := 77, ns := 0, who := 1 }
def oneRead : MemReq := { oneWrite with write := false, data := 0 }
def queued1 (r : MemReq) : State := { inServe with mem := { inServe.mem with queue := [r], bad := [2 ^ 25 * 3 + 5] } }
theorem queued_alone (r : MemReq) (h : r.q = 3) : (queued1 r).chooseReq 3 (Config.hbmBank r.line % 64) = some r := by
  have hs : bankHeads 3 (Config.hbmBank r.line % 64) [] (queued1 r).mem.queue = [r] := by simp [queued1, bankHeads, h]
  unfold State.chooseReq
  rw [hs]
  cases hd : decide (r.ns + 100 * (queued1 r).get R.HBM_CFG.AGE_LIMIT ≤ (queued1 r).ns) <;>
    cases ho : ((queued1 r).openRow 3 (Config.hbmBank r.line % 64) == some (Config.hbmRow r.line)) <;> simp_all
theorem test_bank_serves : Config.hbmBank 5 % 64 < 64 ∧ SMap.find (fun _ => 0) (queued1 oneWrite).mem.refresh 3 ≠ Config.hbmBank 5 % 64 + 1 ∧
    (queued1 oneWrite).get R.HBM_CFG.FWD_LINES ≤ oneWrite.line ∧ (queued1 oneWrite).chooseReq 3 (Config.hbmBank 5 % 64) = some oneWrite :=
  ⟨Nat.mod_lt _ (by decide), by simp [queued1, inServe, State.reset, SMap.find], by decide +kernel, queued_alone oneWrite rfl⟩
/-- The read of a line that holds the uncorrectable pattern. -/
theorem test_bank_reads_bad : (queued1 oneRead).mem.bad.contains (2 ^ 25 * 3 + oneRead.line) = true ∧ oneRead.who ≠ 0 ∧
    (queued1 oneRead).get R.HBM_CFG.FWD_LINES ≤ oneRead.line ∧ (queued1 oneRead).chooseReq 3 (Config.hbmBank 5 % 64) = some oneRead :=
  ⟨by decide +kernel, by decide +kernel, by decide +kernel, queued_alone oneRead rfl⟩
theorem test_row_busy : let s : State := { (inServe.setRow 3 9 (some 4)) with mem := { (inServe.setRow 3 9 (some 4)).mem with touched := [(201, 2)] } }
    s.rowIdle 3 9 = false ∧ inServe.rowIdle 3 9 = true := by
  simp [State.rowIdle, State.setRow, inServe, State.reset, SMap.find]
theorem test_bank_idle : (inServe.chooseReq 3 9).isNone = true ∧ after (exec (.dynamicRequest 3 9) inServe) (fun t => t.mem.queue.isEmpty) = true ∧
    after (exec (.openRowTimeout 3 9) (inServe.setRow 3 9 (some 4))) (fun t => t.openRow 3 9 == none) = true := by decide +kernel
/-- A refresh of pseudo-channel 131, the partner of 3, under way since `tb`. -/
def refreshing (tb : Nat) : State := { inServe with mem := { inServe.mem with refresh := [(131, 1)], refreshTb := [(131, tb)] } }
theorem test_refresh : partnerPc 3 = 131 ∧ inServe.mayRefresh 3 = true ∧
    after (exec (.hbmRefresh 3 9 true) (inServe.setRow 3 9 (some 4))) (fun t => t.refreshing 3 == 10 && t.openRow 3 9 == none) = true ∧
    (refreshing 0).mayRefresh 3 = false ∧
    after (exec (.hbmRefresh 3 9 true) (refreshing 0)) (fun t => t.refreshing 3 == 0 && t.mem.due == [(3, 9)]) = true ∧
    after (exec (.hbmRefresh 131 0 false) (refreshing 0)) (fun t => t.mem.refresh.isEmpty) = true := by decide +kernel
/-- Due together: the lower-numbered group goes first, and the other's bank waits; it begins as that refresh ends. -/
theorem test_refresh_together : (refreshing 1).refreshing 3 = 0 ∧ (refreshing 1).refreshing 131 ≠ 0 ∧
    SMap.find (fun _ => 0) (refreshing 1).mem.refreshTb 131 = (refreshing 1).tb + 1 ∧
    after (exec (.hbmRefresh 3 9 true) (refreshing 1)) (fun t => t.refreshing 3 == 10 && t.refreshing 131 == 0 && t.mem.due == [(131, 0)]) = true ∧
    (let s : State := { inServe with mem := { inServe.mem with refresh := [(3, 10)], due := [(131, 0)] } }
    s.refreshing 3 = 10 ∧ s.refreshing (partnerPc 3) = 0 ∧ (s.mem.due.find? fun x => x.1 == min 3 (partnerPc 3)) = none ∧
    after (exec (.hbmRefresh 3 9 false) s) (fun t => t.refreshing 131 == 1 && t.mem.due.isEmpty) = true) := by decide +kernel
/-- The end of the other's refresh lets the lower-numbered group's waiting bank begin. -/
theorem test_refresh_waiting : let s : State := { refreshing 0 with mem := { (refreshing 0).mem with due := [(3, 9)] } }
    s.refreshing 131 = 1 ∧ s.refreshing (partnerPc 131) = 0 ∧ (s.mem.due.find? fun x => x.1 == min 131 (partnerPc 131)) = some (3, 9) ∧
    after (exec (.hbmRefresh 131 0 false) s) (fun t => t.refreshing 3 == 10 && t.refreshing 131 == 0 && t.mem.due.isEmpty) = true := by decide +kernel
def retraining (ns : Nat) : State := let s := inServe.set (R.HBM_STACK.STATE 2) 1; { s with tb := ns * 2 ^ 40, mem := { s.mem with retrains := [(2, 101)], trained := [(2, 101)] } }
/-- One second after reset. -/
def second1 : State := { inServe with tb := 10 ^ 9 * 2 ^ 40 }
theorem test_retrain_start : second1.get (R.HBM_STACK.STATE (partner 2)) = 0 ∧ second1.mem.trained = [] ∧ second1.mem.due = [] ∧ second1.refreshing 192 = 0 ∧ second1.retrainDue 2 = true ∧
    after (exec (.hbmRetrainStart 2) second1) (fun t => t.get (R.HBM_STACK.STATE 2) == 1 && SMap.find (fun _ => 0) t.mem.trained 2 == 10 ^ 9 + 1) = true ∧
    after (exec (.hbmRetrainStart 2) inServe) (fun t => t.get (R.HBM_STACK.STATE 2) == 0) = true ∧
    after (exec (.hbmRetrainStart 3) (retraining 200)) (fun t => t.get (R.HBM_STACK.STATE 3) == 0) = true := by decide +kernel
theorem test_retrain_ends : (retraining 5100).retrainNs 2 = 5000 ∧
    after (exec (.hbmRetrainComplete 2) (retraining 5100)) (fun t => t.get (R.HBM_STACK.STATE 2) == 0 && t.get (R.HBM_STACK.RETRAINS 2) == 1 && t.get (R.HBM_STACK.LAST 2) == 500) = true ∧
    (retraining 20101).retrainNs 2 = 20001 ∧
    after (exec (.hbmRetrain 2) (retraining 20101)) (fun t => t.get (R.HBM_STACK.STATE 2) == 2 && t.bit (faultBit 242)) = true := by decide +kernel
def counted (acc : SMap Nat) (w : Bool) : State :=
  let s := (inServe.set R.HBM_SKEW_CFG.THRESH 300).set R.HBM_SKEW_CFG.WINDOWS 1
  { s with tb := 100000 * 2 ^ 40, mem := { s.mem with accesses := acc, winRetrain := w } }
theorem test_skew : 65536 * 1 / 2 = 32768 ∧ (counted [(4, 1), (6, 1)] false).mostLoaded = (4, 1) ∧
    after (exec .skewWindow (counted [(4, 1), (6, 1)] false)) (fun t => t.get R.HBM_SKEW_STAT.RATIO == 32768 && t.get R.HBM_SKEW_STAT.PC == 4 &&
      t.bit R.HBM_SKEW_STAT.ACTIVE && t.bit (faultBit 30) && t.mem.above == 1) = true ∧
    after (exec .skewWindow (counted [(4, 1)] true)) (fun t => !t.bit R.HBM_SKEW_STAT.ACTIVE && t.mem.accesses.isEmpty) = true := by decide +kernel
theorem test_skew_ends : let s := ((counted ((List.range 256).map fun i => (i, 1)) false).setBit R.HBM_SKEW_STAT.ACTIVE true).set R.HBM_SKEW_CFG.THRESH 400
    after (exec .skewWindow s) (fun t => t.get R.HBM_SKEW_STAT.RATIO == 256 && !t.bit R.HBM_SKEW_STAT.ACTIVE && t.mem.below == 1) = true := by decide +kernel
theorem test_scrub : inServe.scrubTurn 3 5 = true ∧ (inServe.scrubbed 0).1 + 1 < groupLines ∧
    after (exec (.hbmScrub 3 5 0) inServe) (fun t => t.get (R.HBM_ECC.CORRECTED 0) == 0) = true ∧
    after (exec (.hbmScrub 3 5 1) inServe) (fun t => t.get (R.HBM_ECC.CORRECTED 0) == 1 && SMap.find (fun _ => []) t.mem.corrected 0 == [0]) = true ∧
    after (exec (.hbmScrub 3 5 2) inServe) (fun t => t.bit (faultBit 31) && t.mem.bad == [2 ^ 25 * 3 + 5]) = true := by decide +kernel
/-- The last line of a pass counts it; with a request of its bank queued, the scrubber waits; a pass that would begin waits for PERIOD. -/
theorem test_scrub_pass : let s : State := { inServe with mem := { inServe.mem with scrubs := [(0, (groupLines - 1, 1))] } }
    s.scrubTurn 3 5 = true ∧ groupLines ≤ (s.scrubbed 0).1 + 1 ∧
    after (exec (.hbmScrub 3 5 0) s) (fun t => t.get (R.HBM_ECC.PASSES 0) == 1 && (t.scrubbed 0).1 == 0) = true ∧
    (let u : State := { inServe.set R.HBM_SCRUB.PERIOD 1 with mem := { inServe.mem with scrubs := [(0, (0, 1))] } }
    u.scrubTurn 3 5 = false ∧ after (exec (.hbmScrub 3 5 1) u) (fun t => t.get (R.HBM_ECC.CORRECTED 0) == 0) = true) := by decide +kernel
theorem test_scrub_table : let s := ((((inServe.set R.HBM_CFG.FWD_LINES 100).set (R.TBL_DESC.KIND 0) 2).set (R.TBL_DESC.TIER 0) 1).set (R.TBL_DESC.BBITS 0) 10).set (R.HBM_REPL.GROUPS 0) 0x11
    s.hbmTable 0 (32 * 5 + 3) = some 0 ∧
    after (exec (.hbmScrub 3 5 2) s) (fun t => t.bit (faultBit 19) && t.get (R.TBL_ERRC.PARITY 0) == 1) = true := by decide +kernel
def farOut (kind : FarKind) : State := let s := (inServe.setBit (R.FAR_PORT.UP 3) true).set (R.FAR_TAGS.TOTAL 3) 1; { s with mem := { s.mem with far := [⟨3, 8, kind, 0, 128⟩] } }
theorem test_far_completion : (FarKind.spill 6).who = some 6 ∧
    after (exec (.farCompletion 3 8 1 500 []) (farOut (.spill 6))) (fun t => t.mem.far.isEmpty && t.get (R.FAR_TAGS.TOTAL 3) == 0 && t.get (R.FAR_ERR.POISON 3) == 1 && t.mem.failed == [6]) = true ∧
    after (exec (.farCompletion 3 9 1 500 []) (farOut (.spill 6))) (fun t => t.mem.far.length == 1) = true := by decide +kernel
/-- A bulk mover's read returns its line, or loses it. -/
theorem test_far_mover : (FarKind.moverRead 6).who = some 6 ∧ (farOut (.moverRead 6)).mem.farWait = [] ∧
    after (exec (.farCompletion 3 8 0 500 (leBytes 64 77)) (farOut (.moverRead 6))) (fun t => t.mem.got == [(6, 2 ^ 33 + 2, 77)] && t.mem.lost.isEmpty) = true ∧
    after (exec (.farCompletion 3 8 2 500 []) (farOut (.moverRead 6))) (fun t => t.mem.lost == [(6, 2 ^ 33 + 2, 2)] && t.mem.got.isEmpty && t.get (R.FAR_ERR.FAILED 3) == 1) = true := by decide +kernel
theorem test_far_link : after (exec (.farLink 3) (farOut (.spill 6))) (fun t => !t.bit (R.FAR_PORT.UP 3) && t.bit (faultBit 227) && t.get (R.FAR_ERR.DOWNS 3) == 1 && t.mem.far.isEmpty) = true ∧
    after (exec (.farLink 3) inServe) (fun t => t.get (R.FAR_ERR.DOWNS 3) == 0) = true := by decide +kernel

/-! ### The governor, service facets, power -/

/-- The governor in SERVE after nine windows. -/
def governed (p : PaceState) : State :=
  let s := ((((inServe.set R.PACE_TARGET.GUARD 2200).set R.PACE_TARGET.TARGET 2300).set R.PACE_TARGET.BAND 50).set R.PACE_VREQ.VMAX 200).set R.PACE_VREQ.CODE 100
  { s with pace := { p with windows := 9, since := 15, cycles := 85 } }
/-- Of loops 1 to 63, loop 7 has counted `n` beats, every other one 900. -/
def loops (n : Nat) : List Nat := (List.replicate 63 900).set 6 n
def firstWindow : State := { inServe with pace := { inServe.pace with cycles := 80 } }
theorem test_first_windows : lowestCount (900 :: loops 800) = 800 ∧ slowestLoop (900 :: loops 800) = 7 ∧
    after (exec (.paceWindowEnd 900 (loops 800)) inServe) (fun t => t.pace.hist.isEmpty) = true ∧
    after (exec (.paceWindowEnd 900 (loops 800)) firstWindow) (fun t => t.get R.PACE_BEAT_RATE.SLOWEST == 7 && t.get R.PACE_BEAT_RATE.MIN_RATE == 2500 &&
      t.pace.windows == 1 && t.pace.hist == [800] && t.pace.cycles == 0) = true := by decide +kernel
theorem test_floor_lost : after (exec (.paceWindowEnd 900 (loops 600)) (governed {})) (fun t => t.pace.deficit == 72 && t.bit (faultBit 0) && t.get R.PACE_VREQ.CODE == 104 &&
      t.pace.since == 0 && t.out.contains (.strobe 104)) = true := by decide +kernel
theorem test_deficit : (governed {}).get R.PACE_DEFICIT.LIMIT < 0 + 672 - 600 ∧
    after (exec (.paceWindowEnd 900 (loops 600)) (governed {})) (fun t => t.bit (faultBit 1)) = true := by decide +kernel
theorem test_clear_run : let s := ((governed {}).set R.PACE_STATUS.CLEAR_RUN 31).setBit R.PACE_STATUS.ADMIT_HOLD true
    s.pace.deficit + 672 ≤ 736 ∧ s.get R.PACE_TARGET.GUARD * 1000 ≤ 736 * 3125 ∧
    after (exec (.paceWindowEnd 900 (loops 736)) s) (fun t => t.get R.PACE_STATUS.CLEAR_RUN == 32 && !t.bit R.PACE_STATUS.ADMIT_HOLD) = true ∧
    after (exec (.paceWindowEnd 900 (loops 736)) { s with mode := .dormant }) (fun t => t.pace.hist.isEmpty) = true := by decide +kernel
theorem test_request_one : 704 * 3125 < (2300 - 50) * 1000 ∧
    after (exec (.paceWindowEnd 900 (loops 704)) (governed {})) (fun t => t.get R.PACE_VREQ.CODE == 101) = true ∧
    after (exec (.paceWindowEnd 900 (loops 704)) ((governed {}).setBit R.PACE_CTRL.HOLD true)) (fun t => t.get R.PACE_VREQ.CODE == 100 && t.pace.since == 16) = true := by decide +kernel
theorem test_request_down : (∀ m ∈ (760 :: List.replicate 31 760).take 32, (2300 + 50) * 1000 < m * 3125) ∧
    after (exec (.paceWindowEnd 900 (loops 760)) (governed { hist := List.replicate 31 760 })) (fun t => t.get R.PACE_VREQ.CODE == 99) = true := by decide +kernel
theorem test_pins : after (exec (.paceVgood true) (governed { vgood := false, vgoodDead := true, vgoodLow := 9 })) (fun t => t.pace.vgood && !t.pace.vgoodDead && t.pace.vgoodLow == 0) = true ∧
    after (exec (.paceVmaxN false) inServe) (fun t => !t.pace.vmaxN) = true ∧
    after (exec .vgoodTimeout (governed { vgood := false, vgoodLow := 64 })) (fun t => t.pace.vgoodDead) = true := by decide +kernel
/-- Service facet 3 with every role, its entry at word 9. -/
def served (v : Service) (words : SMap Nat) : State :=
  { inServe with code := { inServe.code with roles := [(3, 63)], entries := [(2 * 483, 9)], services := [(3, v)], store := words } }
def idleItem : Item := { id := 1, role := 2, bank := 0, pkt := none, cmd := none, work := { upc := 9 }, inTb := 0 }
theorem test_work_arrives : (served {} []).takesWork 3 2 = true ∧ ((served {} []).arrival 3 2).isSome = true ∧
    after (exec (.serviceWorkArrival 3 2) (served {} [])) (fun t => t.get (R.SVC_STATE.STATE 3) == 1 && (t.service 3).running.any fun i => i.role == 2 && i.work.upc == 9) = true ∧
    after (exec (.serviceWorkArrival 3 2) (served { running := some idleItem } [])) (fun t => (t.service 3).queue.length == 1) = true ∧
    after (exec (.serviceWorkArrival 4 2) (served {} [])) (fun t => (t.service 4).running.isNone) = true := by decide +kernel
/-- A word without an operation: SEQ as given, no lookup. -/
def word (seq alu0 : Nat) : Nat := seq * 2 ^ 184 + alu0 * 2 ^ 133 + 63 * 2 ^ 67
/-- ADD of 1 to nibbles 4 to 7. -/
def addOne : Nat := 2 * 2 ^ 27 + 2 ^ 26 + 4 * 2 ^ 16 + 1 * 2 ^ 6 + 4
def running (m : Nat) : State := served { running := some idleItem } [(wordKey 483 0 9, m)]
theorem test_word_next : (running (word 0 addOne)).plainWord 3 (word 0 addOne) idleItem ∧ mCond (word 0 addOne) = 0 ∧ mMove (word 0 addOne) / 2 ^ 26 = 0 ∧
    mSeq (word 0 addOne) = 0 ∧
    after (exec (.serviceWordIssue 3) (running (word 0 addOne))) (fun t => (t.service 3).running.any fun i => i.work.upc == 10 && vget i.work.vec 4 4 == 1) = true := by decide +kernel
theorem test_word_done : (running (word 7 0)).plainWord 3 (word 7 0) idleItem ∧ mSeq (word 7 0) = 7 ∧
    after (exec (.serviceWordIssue 3) (running (word 7 0))) (fun t => (t.service 3).running.isNone && t.get (R.SVC_STATE.STATE 3) == 0) = true ∧
    after (exec (.serviceWordIssue 3) (served { running := some idleItem, waiting := true } [])) (fun t => (t.service 3).waiting) = true := by decide +kernel
def svcLook : Lookup := { id := 5, port := 16, win := 1, due := 0, ready := false, status := 12, value := 77, issueTb := 0 }
/-- A result whose request ended in error answers as a bad entry; one whose request has not ended waits. -/
theorem test_service_failed : let l : Lookup := { svcLook with who := 4 }
    let s0 := served { running := some { idleItem with work := { looks := [l] } }, waiting := true } []
    let s : State := { s0 with mem := { s0.mem with failed := [4] } }
    let w : State := { s0 with mem := { s0.mem with far := [⟨3, 8, .service 4, 0, 0⟩] } }
    (s.service 3).oldestLook = some l ∧ s.transferDone 4 = true ∧ 4 ∈ s.mem.failed ∧
    s.serviceAnswer l [] = { l with status := Answer.absent.status, value := Answer.absent.value } ∧
    after (exec (.serviceResult 3 []) s) (fun t => !(t.service 3).waiting) = true ∧
    w.transferDone 4 = false ∧ after (exec (.serviceResult 3 []) w) (fun t => (t.service 3).waiting) = true := by decide +kernel
/-- A command's routine issues no word in HOLD-UP. -/
theorem test_word_hold_up : let s : State := { served { running := some { idleItem with cmd := some 7 } } [(wordKey 483 0 9, word 0 addOne)] with mode := .holdUp }
    s.mode = .holdUp ∧ (∃ i, (s.service 3).running = some i ∧ i.cmd.isSome = true) ∧
    after (exec (.serviceWordIssue 3) s) (fun t => (t.service 3).running.any fun i => i.work.upc == 9) = true := by
  refine ⟨rfl, ⟨_, rfl, rfl⟩, by decide +kernel⟩
theorem test_service_result : let s := served { running := some { idleItem with work := { looks := [svcLook] } }, waiting := true } []
    (s.service 3).oldestLook = some svcLook ∧
    after (exec (.serviceResult 3 []) s) (fun t => !(t.service 3).waiting && (t.service 3).running.any fun i => i.work.looks.isEmpty && vget i.work.vec (winAddr 1) 128 == 77) = true ∧
    after (exec (.serviceResult 3 []) (served {} [])) (fun t => (t.service 3).running.isNone) = true := by decide +kernel
def inReset (b : Nat) (s : State) : State := { s with fault := { s.fault with blocks := [b] } }
theorem test_block_reset : after (exec (.blockResetComplete 0) (inReset 0 (scheduled { flights := [farFlight], wait := true }))) (fun t => (t.prism 0).flights.isEmpty && t.fault.blocks.isEmpty &&
      t.word (R.CNT_REASON.COUNT 4).off == 1) = true ∧
    after (exec (.blockResetComplete 19) (inReset 19 (served { running := some idleItem, parked := true } []))) (fun t => t.service 3 == {} && t.get (R.SVC_STATE.LOST 3) == 1) = true ∧
    after (exec (.blockResetFail 19) (inReset 19 inServe)) (fun t => t.bit (faultBit 6) && t.fault.lateBlocks == [19]) = true ∧
    after (exec (.blockResetComplete 19) inServe) (fun t => t.fault.blocks.isEmpty) = true := by decide +kernel

/-- A keeper that runs, the rails down. -/
def railsDown (p : PowerState) (m : Mode) : State := { State.reset with mode := m, prev := .prove, power := p }
theorem test_rails_start : after (exec .railSequenceStart (railsDown { en := 0, good := 0, railsGood := false, needHigh := true, highNs := 7, clock := 100000007 } .dormant)) (fun t => t.power.en == 1 && !t.power.needHigh && t.out == [.railEn 0 true]) = true ∧
    after (exec .railSequenceStart (railsDown { en := 0, latched := true } .dormant)) (fun t => t.power.en == 0) = true := by decide +kernel
theorem test_rails_good : after (exec (.railGroupGood 1) (railsDown { en := 3, good := 3, railsGood := false, clock := 1099999 } .dormant)) (fun t => t.power.en == 3) = true ∧
    after (exec (.railFail 1 3) (railsDown { en := 3, good := 3, railsGood := false, clock := 19999999 } .dormant)) (fun t => t.power.en == 3) = true ∧
    after (exec (.railGroupGood 1) (railsDown { en := 3, good := 3, railsGood := false, clock := 1100000 } .dormant)) (fun t => t.power.en == 7 && t.power.good == 15 && t.out == [.railEn 2 true]) = true ∧
    after (exec (.railGroupGood 3) (railsDown { en := 15, good := 0x7F, railsGood := false, tries := 1, clock := 100000 } .dormant)) (fun t => t.power.railsGood && t.power.good == 255 && t.power.tries == 0) = true := by decide +kernel
theorem test_rail_fails : 0x0F &&& groupRails 2 ≠ groupRails 2 ∧
    after (exec (.railFail 2 0x0F) (railsDown { en := 7, good := 15, railsGood := false, clock := 20000000 } .dormant)) (fun t => t.power.en == 0 && t.power.retryWait && t.get R.KEEP_RAIL.ATTEMPTS == 1 &&
      t.get R.KEEP_RAIL.FAIL_GROUP == 2 && t.get R.FLT_LOG.HEAD == 1 && t.out.length == 4) = true ∧
    after (exec (.railFail 2 0x0F) (railsDown { en := 7, good := 15, railsGood := false, tries := 2, clock := 20000000 } .serve)) (fun t => t.power.latched && t.bit (faultBit 5)) = true ∧
    after (exec .railRetry (railsDown { en := 0, railsGood := false, retryWait := true, failNs := 5, clock := 1000000005 } .dormant)) (fun t => t.power.en == 1 && !t.power.retryWait) = true := by decide +kernel
theorem test_reset_pin : let s := inServe.set R.KEEP_RAIL.HOLD_OFF 1
    after (exec .resetNLow s) (fun t => t.mode == .dormant && t.prev == .serve && t.power.ranReset && t.bit R.KEEP_RAIL.HOLD_OFF && t.regs.length == 1) = true ∧
    after (exec .resetNLow (railsDown {} .dormant)) (fun t => !t.power.resetN) = true ∧
    after (exec .resetNLow (railsDown {} .holdUp)) (fun t => t.mode == .dormant && t.prev == .holdUp && t.power.en == 0 && t.power.needHigh &&
      t.out == [.railEn 3 false, .railEn 2 false, .railEn 1 false, .railEn 0 false]) = true ∧
    after (exec .resetNHigh (railsDown { resetN := false, latched := true, tries := 3 } .dormant)) (fun t => t.power.resetN && !t.power.latched && t.power.tries == 0) = true := by decide +kernel
theorem test_dormant_exit : after (exec .dormantExit ((railsDown {} .dormant).set R.PACE_CTRL.HOLD 1)) (fun t => t.mode == .prove && t.get R.KEEP_THERM.TRIP == 108 && t.get R.KEEP_THERM.WARN == 100 &&
      t.get R.BOOT_STATUS.STEP == 0 && t.out == [.flashReset] && !t.bit R.PACE_CTRL.HOLD) = true ∧
    after (exec .dormantExit (railsDown { pwrfailN := false } .dormant)) (fun t => t.mode == .dormant) = true := by decide +kernel
theorem test_chip_reset : let s : State := { (inServe.set R.PACE_CTRL.HOLD 1).set R.BUF_POOL.SHARED 9 with fault := { chipReset := true } }
    after (exec .chipResetComplete s) (fun t => t.mode == .safe && t.safeCause == 3 && t.bit R.PACE_CTRL.HOLD && t.get R.BUF_POOL.SHARED != 9 && t.host == s.host.endpoints && t.out == [.flashReleased, .farPerst false]) = true ∧
    after (exec .chipResetComplete inServe) (fun t => t.mode == .serve) = true := by decide +kernel
theorem test_hold_up : after (exec .pwrfailN inServe) (fun t => t.mode == .holdUp && t.prev == .serve && t.get R.KEEP_EVENT.CAUSE == 0 && !t.power.pwrfailN &&
      t.get R.JRN_HEAD.HEAD == 1) = true ∧
    after (exec .coreSupplyLost State.reset) (fun t => t.mode == .holdUp && t.prev == .prove && t.get R.KEEP_EVENT.CAUSE == 1 && t.get R.JRN_HEAD.HEAD == 0) = true ∧
    after (exec .pwrfailN (railsDown {} .dormant)) (fun t => t.mode == .dormant && !t.power.pwrfailN) = true ∧
    after (exec .pwrfailNHigh (railsDown { pwrfailN := false } .dormant)) (fun t => t.power.pwrfailN && t.power.highNs == 0) = true := by decide +kernel
theorem test_hold_up_ends : let s : State := { railsDown {} .holdUp with tb := 15000 * 2 ^ 40 }
    after (exec .holdUpIsolation s) (fun t => t.power.isolated && !t.coreUp) = true ∧
    after (exec .holdUpExit s) (fun t => t.mode == .dormant && t.prev == .holdUp && t.power.en == 0 && t.power.needHigh && t.out.length == 4) = true ∧
    after (exec .holdUpExit inServe) (fun t => t.mode == .serve) = true := by decide +kernel
theorem test_keeper_start : after (exec (.keeperStart 1600 1750) (railsDown { keeper := false } .dormant)) (fun t => t.power.keeper && t.bit R.KEEP_SUPPLY.SEL && t.get R.KEEP_SUPPLY.AUX_MV == 1750) = true := by decide +kernel
theorem test_keeper_switch : after (exec (.keeperSwitch 1600 1750) inServe) (fun t => t.bit R.KEEP_SUPPLY.SEL && t.get R.KEEP_SUPPLY.SWITCHES == 1 && t.bit (faultBit 4)) = true ∧
    after (exec (.keeperSwitch 1600 1750) (railsDown {} .dormant)) (fun t => t.get R.FLT_LOG.HEAD == 1) = true ∧
    after (exec (.keeperSwitch 1700 1600) (inServe.set R.KEEP_SUPPLY.SEL 1)) (fun t => !t.bit R.KEEP_SUPPLY.SEL && t.get R.KEEP_SUPPLY.SWITCHES == 0) = true ∧
    after (exec (.keeperReturnMain 1700 1750 0) (railsDown { keeper := false } .dormant)) (fun t => t.get R.KEEP_SUPPLY.MAIN_MV == 0) = true := by decide +kernel
/-- On AUX since 5 ns, the clock at `c`. -/
def onAux (c : Nat) (dip : Option Nat) : State := let s := inServe.set R.KEEP_SUPPLY.SEL 1; { s with power := { s.power with mainNs := 5, dipNs := dip, clock := c } }
/-- The 10 ms end after 10,000,000 ns, not one sooner, and not at 1,699 mV; a dip of 999 ns passes unseen, and one of 1 µs starts them anew,
as does a fall below 1.70 V that has lasted as long. -/
theorem test_keeper_return : after (exec (.keeperReturnMain 1700 1750 999) (onAux 10000005 none)) (fun t => !t.bit R.KEEP_SUPPLY.SEL) = true ∧
    after (exec (.keeperReturnMain 1700 1750 0) (onAux 10000004 none)) (fun t => t.bit R.KEEP_SUPPLY.SEL) = true ∧
    after (exec (.keeperReturnMain 1699 1750 0) (onAux 10000005 none)) (fun t => t.bit R.KEEP_SUPPLY.SEL && t.power.dipNs == some 10000005) = true ∧
    after (exec (.keeperReturnMain 1700 1750 1000) (onAux 10000005 none)) (fun t => t.bit R.KEEP_SUPPLY.SEL && t.power.mainNs == 10000005) = true ∧
    after (exec (.keeperReturnMain 1700 1750 0) (onAux 10000005 (some 9999006))) (fun t => !t.bit R.KEEP_SUPPLY.SEL) = true ∧
    after (exec (.keeperReturnMain 1700 1750 0) (onAux 10000005 (some 9999005))) (fun t => t.bit R.KEEP_SUPPLY.SEL && t.power.mainNs == 10000005) = true := by decide +kernel
theorem test_brownout : after (exec (.keeperBrownout 1500 1600) (inServe.set R.KEEP_RAIL.FAIL_GROUP 2)) (fun t => t.mode == .dormant && !t.power.keeper && t.power.en == 0 &&
      t.get R.KEEP_SUPPLY.BROWNOUTS == 1 && t.get R.KEEP_RAIL.FAIL_GROUP == 2) = true := by decide +kernel
def hot (t : Nat) : List Nat := List.replicate 7 50 ++ [t] ++ List.replicate 24 50
def limits : State := (inServe.set R.KEEP_THERM.WARN 100).set R.KEEP_THERM.TRIP 108
theorem test_thermal : hottest 0 (hot 101) = (101, 7) ∧ Instr.wf (.thermalSample (hot 101)) = true ∧
    after (exec (.thermalSample (hot 101)) limits) (fun t => t.get R.KEEP_THERM.TJ == 101 && t.get R.KEEP_THERM.SENSOR == 7 && t.get R.KEEP_THERM.PEAK == 101 && t.bit (faultBit 2) &&
      !t.bit (faultBit 3) && !t.fault.warnArmed) = true ∧
    after (exec (.thermalSample (hot 94)) { limits with fault := { limits.fault with warnArmed := false } }) (fun t => t.fault.warnArmed && !t.bit (faultBit 2)) = true := by decide +kernel
def disarmed (warn trip : Nat) : State := let s := (inServe.set R.KEEP_THERM.WARN warn).set R.KEEP_THERM.TRIP trip
  { s with fault := { s.fault with warnArmed := false, tripArmed := false } }
/-- Disarmed, a sample at the limit or above raises nothing, and one 5 °C below does not arm; the next lower one does. -/
theorem test_thermal_disarmed : after (exec (.thermalSample (hot 108)) (disarmed 108 108)) (fun t => !t.bit (faultBit 2) && !t.bit (faultBit 3) && !t.fault.warnArmed && !t.fault.tripArmed) = true ∧
    after (exec (.thermalSample (hot 103)) (disarmed 108 108)) (fun t => !t.fault.warnArmed && !t.fault.tripArmed) = true ∧
    after (exec (.thermalSample (hot 102)) (disarmed 108 108)) (fun t => t.fault.warnArmed && t.fault.tripArmed) = true ∧
    after (exec (.thermalSample (hot 108)) ((inServe.set R.KEEP_THERM.WARN 109).set R.KEEP_THERM.TRIP 108)) (fun t => t.bit (faultBit 3) && !t.bit (faultBit 2) && t.fault.warnArmed) = true := by decide +kernel
theorem test_shutdown : after (exec (.thermalSample (hot 115)) limits) (fun t => t.mode == .dormant && t.power.en == 0 && t.power.latched && t.get R.KEEP_THERM.TJ == 115) = true := by decide +kernel

/-! ### Self-test and start-up -/

/-- Plan 0 running in a mode, the unit under test in each group begun at time 0, 1000 s ago. -/
def testing (m : Mode) (toStart : List Nat) (runs : List (Nat × List Nat)) : State :=
  { State.reset with mode := m, tb := 10 ^ 12 * 2 ^ 40, bist := { plan := some 0, toStart := toStart, running := runs, since := runs.map fun x => (x.1, 0), section_ := leBytes 2320 0 ++ beBytes 4 0xC900FFFF } }
theorem test_group_start : groupUnits (testing .serve [0] []).bist.section_ 0 0 = [201] ∧
    after (exec (.bistGroupStart 0) ((testing .serve [0] []).setBit (R.MAC_STATUS.LINK 2) true)) (fun t => t.bist.toStart.isEmpty && t.bist.running == [(0, [201])] &&
      t.get R.BIST_STATUS.UNIT == 201 && !t.linkUp 2) = true ∧
    after (exec (.bistGroupStart 1) (testing .serve [0] [])) (fun t => t.bist.toStart == [0]) = true := by decide +kernel
/-- Group 0 of plan 0 tests an SRAM block; SERVE saves what it holds, and a line of another block stays. -/
def sramPlan : State := let s := testing .serve [0] []
  { s with bist := { s.bist with section_ := leBytes 2320 0 ++ leBytes 4 0xFFFF0060 }, tbl := { s.tbl with lines := [(7, 5), (70000, 6)] } }
theorem test_group_saves : groupUnits sramPlan.bist.section_ 0 0 = [96] ∧
    after (exec (.bistGroupStart 0) sramPlan) (fun t => t.bist.saves == [sramPlan.saveOf 96]) = true ∧ (sramPlan.saveOf 96).lines = [(7, 5)] := by decide +kernel
/-- In SERVE the contents come back from the save; where it does not read back, what the test left stays. -/
def saved96 : State := let s := testing .serve [] [(0, [96])]
  { s with bist := { s.bist with saves := [sramPlan.saveOf 96] }, tbl := { s.tbl with lines := [(8, 1), (70000, 6)] } }
theorem test_unit_restored : saved96.unitOver 0 96 = true ∧ saved96.bist.saves = [sramPlan.saveOf 96] ∧
    after (exec (.bistUnitComplete 0 0 true) saved96) (fun t => t.tbl.lines == [(7, 5), (70000, 6)] && t.bist.saves.isEmpty && !t.bit (faultBit 37)) = true ∧
    after (exec (.bistUnitComplete 0 0 false) saved96) (fun t => t.tbl.lines == [(8, 1), (70000, 6)] && t.bit (faultBit 37)) = true := by decide +kernel
theorem test_unit_done : (testing .serve [] [(0, [5])]).unitOver 0 5 = true ∧
    after (exec (.bistUnitComplete 0 0 true) { testing .serve [] [(0, [5])] with tb := 0 }) (fun t => t.bist.running == [(0, [5])]) = true ∧
    (testing .serve [] [(0, [5])]).bist.running.find? (fun x => x.1 == 0) = some (0, [5]) ∧ unitSig (testing .serve [] []).bist.section_ 5 = 0 ∧
    after (exec (.bistUnitComplete 0 0 true) (testing .serve [] [(0, [5])])) (fun t => t.get (R.BIST_RESULT.RESULT 5) == 1 && t.get (R.BIST_RESULT.RUNS 5) == 1 && t.bist.running.isEmpty) = true ∧
    after (exec (.bistUnitComplete 0 9 false) (testing .serve [] [(0, [5])])) (fun t => t.get (R.BIST_RESULT.RESULT 5) == 2 && t.get R.BIST_STATUS.FAILS == 1 &&
      t.bit (faultBit 36) && t.bit (faultBit 37) && t.get (R.BIST_SIG.SIG 5) == 9) = true := by decide +kernel
theorem test_plan_end : (testing .serve [] []).planOver = true ∧ after (exec .bistPlanEnd (testing .serve [] [])) (fun t => t.get R.BIST_STATUS.STATE == 5 && t.bist.plan.isNone) = true ∧
    after (exec .bistPlanEnd { testing .prove [] [] with tbl := sramPlan.tbl }) (fun t => t.mode == .load && t.tbl.lines.isEmpty && t.get R.BOOT_STATUS.STEP == 4) = true ∧
    after (exec .bistPlanEnd ((testing .prove [] []).set R.BIST_STATUS.FAILS 1)) (fun t => t.mode == .safe && t.safeCause == 1) = true ∧
    after (exec .bistPlanEnd (testing .prove [0] [])) (fun t => t.bist.plan.isSome) = true := by decide +kernel
/-- PROVE once the flash has settled. -/
def settled : State := { State.reset with tb := 1010000 * 2 ^ 40 }
theorem test_flash : after (exec (.flashDiscovery true true 256) State.reset) (fun t => !t.boot.found) = true ∧
    after (exec (.flashDiscovery true true 256) settled) (fun t => t.get R.BOOT_FLASH.DENSITY == 256 && t.get R.BOOT_FLASH.MODE == 2 && t.get R.BOOT_FLASH.FREQ == 200 &&
      !t.boot.hasB && t.get (R.BOOT_SLOT.REASON 1) == 1 && t.get R.BOOT_STATUS.STEP == 2 && t.out == [.flashSfdp, .flashOctal]) = true ∧
    after (exec (.flashDiscovery false true 256) settled) (fun t => t.mode == .safe && t.safeCause == 2 && t.get (R.BOOT_SLOT.REASON 0) == 1) = true ∧
    after (exec (.flashDiscovery true true 256) inServe) (fun t => !t.boot.found) = true := by decide +kernel
/-- The flash found, with or without a slot B. -/
def flashFound (b : Bool) : State := { State.reset with boot := { found := true, hasB := b } }
theorem test_slot_header : headerFormed [] = false ∧ (flashFound true).loading = true ∧
    after (exec (.slotAuthenticate []) (flashFound true)) (fun t => t.mode == .prove && t.boot.next == 1 && t.get (R.BOOT_SLOT.REASON 0) == 2 && t.get R.BOOT_STATUS.STEP == 2 && t.out == [.flashRead 0]) = true ∧
    after (exec (.slotAuthenticate []) { flashFound true with boot := { (flashFound true).boot with next := 1 } }) (fun t => t.out.contains (.flashRead 0x10000000)) = true ∧
    after (exec (.slotAuthenticate []) (flashFound false)) (fun t => t.mode == .safe && t.safeCause == 2 && t.get (R.BOOT_SLOT.REASON 0) == 2) = true ∧
    after (exec (.slotAuthenticate []) State.reset) (fun t => t.mode == .prove && t.get (R.BOOT_SLOT.REASON 0) == 0) = true := by decide +kernel
theorem test_header_formed : headerFormed (record 32 [(0, 4, 0x50565254), (4, 4, 1), (8, 4, 3)]) = true ∧
    imgVersion (record 32 [(0, 4, 0x50565254), (4, 4, 1), (8, 4, 3)]) = 3 := by decide +kernel
/-- LOAD with a slot that has authenticated. -/
def inLoad (b : BootState) : State := { State.reset with mode := .load, prev := .prove, boot := { b with found := true, good := some ⟨0, [], [], [], 1⟩ } }
def noPlan : ImagePlan :=
  { apertureBase := 0, placements := [], shapers := [], groupOut := [], epGroup := [], assigned := [], roles := [], share := [], vfs := [], regions := [], spillBase := 0 }
def ports16 : List (Nat × Nat × Nat) := [(8, 2, 64), (4, 2, 64), (8, 2, 2049)] ++ List.replicate 13 (0, 0, 0)
theorem test_far_ports : Instr.wf (.farPortEnumerate ports16) = true ∧
    after (exec (.farPortEnumerate ports16) (inLoad {})) (fun t => t.bit (R.FAR_PORT.UP 0) && t.get (R.FAR_PORT.WIDTH 0) == 8 && t.get (R.FAR_PORT.CAPACITY 0) == 64 &&
      !t.bit (R.FAR_PORT.UP 1) && t.bit (faultBit 225) && t.get R.BOOT_STATUS.STEP == 5 && t.boot.farDone &&
      t.get (R.FAR_PORT.CAPACITY 2) == 2048 && t.out.contains (.farDecoder 2 2048) && t.out.contains (.farDecoder 0 64)) = true := by decide +kernel
theorem test_load_crc : let img := record 160 [(12, 1, 1), (152, 4, 1)]
    (secondRead ⟨0, [], [], [], 1⟩ img).any (fun e => e.reason == 7) = true ∧
    after (exec (.loadApply img noPlan) (inLoad { farDone := true, hasB := true })) (fun t => t.mode == .load && t.boot.next == 1 && t.get (R.BOOT_SLOT.REASON 0) == 7) = true := by decide +kernel
theorem test_load_sched : (match State.loadBanks [(0, [])] (inLoad { applied := true }) with | .inl _ => true | .inr _ => false) = true ∧
    (inLoad { applied := true }).ratesGood = true ∧ (inLoad { applied := true }).reservesGood = true ∧
    after (exec .loadSched (inLoad { applied := true })) (fun t => t.boot.checked && t.get R.BOOT_STATUS.STEP == 7) = true := by decide +kernel
theorem test_journal_scan : after (exec (.journalScan 0) (inLoad { checked := true })) (fun t => t.get R.JRN_HEAD.HEAD == 1 && t.boot.epochWritten && t.get R.JRN_EPOCH.COUNT == 1 && t.power.started) = true ∧
    after (exec (.journalScan 2) (inLoad { checked := true })) (fun t => !t.boot.epochWritten && t.bit (faultBit 34)) = true := by decide +kernel
/-- The slot of the next sequence holds an entry that GUARD keeps: no epoch entry, and no re-execution. -/
def guarded (b : BootState) : State := (((inLoad b).writeEntry 0 0 [] 0 0).1.set R.JRN_HEAD.HEAD 65536).setBit R.JRN_ACK.GUARD true
theorem test_slot_held : (guarded { checked := true }).slotHeld = true ∧
    after (exec (.journalScan 0) (guarded { checked := true })) (fun t => t.get R.JRN_HEAD.HEAD == 65536 && !t.boot.epochWritten) = true := by decide +kernel
theorem test_serve_held : let s : State := { guarded { epochWritten := true } with cmd := { (guarded {}).cmd with reexec := [4] } }
    s.slotHeld = true ∧ after (exec (.serveEntry 0) s) (fun t => t.mode == .serve && t.cmd.reexec == [4] && t.cmd.open_.isEmpty) = true := by decide +kernel
theorem test_serve_entry : let s := (inLoad { epochWritten := true }).setBit (R.IRIS_CTRL.ENABLE 3) true
    after (exec (.serveEntry 0) s) (fun t => t.mode == .serve && t.irisState 3 == 1 && t.fab.advDue && t.out == [.flashReleased]) = true ∧
    after (exec (.serveEntry 0) { s with cmd := { s.cmd with reexec := [4, 9] } }) (fun t => t.cmd.reexec == [9] && t.cmd.open_.length == 1) = true := by decide +kernel
theorem test_not_load : after (exec (.serveEntry 0) inServe) (fun t => t.out.isEmpty) = true ∧ after (exec .loadSched inServe) (fun t => !t.boot.checked) = true := by decide +kernel
theorem test_pps : inServe.atSecond = true ∧ inServe.ppsLevel = false ∧
    after (exec .ppsOut { inServe with power := { inServe.power with ppsNs := some 0 } }) (fun t => t.out.isEmpty) = true ∧ after (exec .ppsOut inServe) (fun t => t.out == [.pps] && t.ppsLevel) = true ∧
    ({ inServe with tb := 500 * 2 ^ 40 } : State).atSecond = false ∧
    after (exec .ppsOut { inServe with tb := 500 * 2 ^ 40 }) (fun t => t.out.isEmpty) = true := by decide +kernel

/-! ### The block as a whole -/

theorem test_step_front : after (step { inServe with pending := [.vgoodTimeout, .ppsOut, .paceVmaxN false] }) (fun t => t.pending == [.ppsOut, .paceVmaxN false] && t.out.isEmpty) = true := by decide +kernel
theorem test_step_idle : after (step inServe) (fun t => t.tb == 4 * 2 ^ 40 && t.power.todNs == 4 && t.power.clock == inServe.power.clock + 4 && t.pace.cycles == inServe.pace.cycles + 1) = true ∧
    after (step State.reset) (fun t => t.get R.BOOT_STATUS.STEP == 1) = true ∧
    after (step { inServe with power := { inServe.power with todNs := 999999996 } }) (fun t => t.power.todNs == 0 && t.get R.KEEP_TOD.SECONDS == 1) = true ∧
    after (step (railsDown { keeper := false } .dormant)) (fun t => t.tb == 0 && t.power.todNs == 0) = true := by decide +kernel
/-- What time itself brings: a write of the forwarding area completes, and verification restarts on an idle port. -/
def timely : State :=
  let s := (inServe.setBit (R.MAC_PREEMPT.EN 2) true).set (R.MAC_PREEMPT.VSTATUS 2) 3
  { s with tb := 100 * 2 ^ 40, mac := { s.mac with reverify := [2] }, mem := { s.mem with queue := [{ oneWrite with cls := 3 }] } }
theorem test_step_timely : timely.coreUp = true ∧ timely.slew = 0 ∧ timely.get R.TIME_ADJ.FREQ = 0 ∧ timely.sending 2 = none ∧
    after (step timely) (fun t => t.mem.queue.isEmpty && t.mac.reverify.isEmpty && t.get (R.MAC_PREEMPT.VSTATUS 2) == 1) = true ∧
    after (step { timely with tb := 90 * 2 ^ 40 }) (fun t => t.mem.queue.length == 1) = true := by decide +kernel
theorem test_no_word_spells_a_command : (inServe.withFetchWord 64 0).pending = [] ∧ Sys2Proof.decodeTableWord 64 0 = none := by decide +kernel
/-- Ill-formed operands of each kind that WellFormed checks. -/
theorem test_wellformed_port : Instr.wf (.linkUp 95) = true ∧ Instr.wf (.linkUp 96) = false ∧
    (after (exec (.linkUp 96) inServe) fun t => decide (t = inServe.settle)) = true := by decide +kernel
theorem test_wellformed_source : Instr.wf (.cmdDoorbell ⟨0, 0⟩ 63 0) = true ∧ Instr.wf (.cmdDoorbell ⟨2, 0⟩ 0 0) = false ∧ Instr.wf (.cmdDoorbell ⟨0, 4⟩ 0 0) = false ∧
    Instr.wf (.cmdDoorbell ⟨0, 0⟩ 64 0) = false ∧ Instr.wf (.cmdDoorbell ⟨0, 0⟩ 0 (2 ^ 64)) = false := by decide +kernel
theorem test_wellformed_words : Instr.wf (.registerWrite ⟨0, 0⟩ 3 0 []) = false ∧ Instr.wf (.registerWrite ⟨0, 0⟩ 0 0 [(0, 256)]) = false ∧
    Instr.wf (.registerWrite ⟨0, 0⟩ 0 0 (List.replicate 10 (0, 0))) = false ∧ Instr.wf (.registerWrite ⟨0, 0⟩ 0 0 [(0, 255)]) = true := by decide +kernel
theorem test_wellformed_arrays : Instr.wf (.bufWmWrite ⟨0, 0⟩ 1024 0) = false ∧ Instr.wf (.aprResWrite ⟨0, 0⟩ 4096 0) = false ∧ Instr.wf (.swcDqWrite ⟨0, 0⟩ 65536 0) = false ∧
    Instr.wf (.hostQWrite ⟨0, 0⟩ 16384 0) = false ∧ Instr.wf (.paceXoffInWrite ⟨0, 0⟩ 8 0) = false ∧ Instr.wf (.fltForceWrite ⟨0, 0⟩ 4 0) = false ∧
    Instr.wf (.captureRearm ⟨0, 0⟩ (2 ^ 26) 0) = false ∧ Instr.wf (.macPtpTsRead ⟨0, 0⟩ 96 .full) = false ∧ Instr.wf (.configRequest ⟨0, 0⟩ 4096 true 0) = false := by decide +kernel
theorem test_wellformed_units : Instr.wf (.prismStep 16 true) = false ∧ Instr.wf (.callSend 64) = false ∧ Instr.wf (.serviceWordIssue 32) = false ∧ Instr.wf (.blockResetFail 48) = false ∧
    Instr.wf (.hbmRetrain 8) = false ∧ Instr.wf (.dynamicRequest 256 0) = false ∧ Instr.wf (.dynamicRequest 0 64) = false ∧ Instr.wf (.farLink 16) = false ∧
    Instr.wf (.apertureDecision 384) = false ∧ Instr.wf (.collimatorSelect 99 []) = false ∧ Instr.wf (.starve (2 ^ 20)) = false ∧ Instr.wf (.agingVisit 256) = false := by decide +kernel
theorem test_wellformed_lists : Instr.wf (.irisCellReceive 0 (List.replicate 271 0)) = false ∧ Instr.wf (.thermalSample [1]) = false ∧ Instr.wf (.farPortEnumerate []) = false ∧
    Instr.wf (.priorityPauseFrame 0 0 [1]) = false ∧ Instr.wf (.serviceResult 0 (List.replicate 65 0)) = false := by decide +kernel
theorem test_wellformed_widths : Instr.wf (.pauseFrame 0 65536) = false ∧ Instr.wf (.railFail 0 256) = false ∧ Instr.wf (.keeperSwitch 4096 0) = false ∧ Instr.wf (.shaperTick 99) = false ∧
    Instr.wf (.irisTrained 0 3 0) = false ∧ Instr.wf (.hostLinkTrained 0 true 5 0) = false ∧ Instr.wf (.flashDiscovery true true 65536) = false := by decide +kernel
theorem test_reset_sound : State.reset.regs = [] ∧ State.reset.wm 3 = false ∧ State.reset.held 3 3 = false := by decide +kernel
theorem test_modes : after (step { (inLoad { epochWritten := true }) with pending := [.serveEntry 0] }) (fun t => t.mode == .serve && t.prev == .load) = true ∧
    after (step { (railsDown {} .dormant) with pending := [.dormantExit] }) (fun t => t.mode == .prove && t.prev == .dormant) = true := by decide +kernel
/-- A chip reset that waits in SERVE ends in SAFE, and HOLD-UP in DORMANT. -/
theorem test_modes_safe : let s : State := { inServe with fault := { chipReset := true }, pending := [.chipResetComplete] }
    (s.fault.chipReset = true → s.mode = .prove ∨ s.mode = .load ∨ s.mode = .serve) ∧ s.powered ∧
    after (step s) (fun t => t.mode == .safe && t.prev == .serve && !t.fault.chipReset) = true ∧
    after (step { (railsDown {} .holdUp) with pending := [.holdUpExit] }) (fun t => t.mode == .dormant) = true := by decide +kernel
theorem test_canonical : inServe.regsCanonical ∧ (inServe.set R.PACE_CTRL.HOLD 1).regs.length = 1 ∧
    ((inServe.set R.PACE_CTRL.HOLD 1).set R.PACE_CTRL.HOLD 0).regs = [] := by decide +kernel

/-! ### What table commands leave in a table -/

/-- SERVE with tables 3 and 4, and 5 a trie of one level for keys of 8 nibbles, from line 256; version 0 current, version 1 staged. -/
def tries : List (Nat × Nat) := tables ++
  [((R.TBL_DESC.KIND 5).off, 2 ^ (R.TBL_DESC.KIND 5).lo + 8 * 2 ^ (R.TBL_DESC.KEYN 5).lo + 256 * 2 ^ (R.TBL_DESC.BASE 5).lo),
   ((R.TBL_PLAN.R 5).off, 2 ^ (R.TBL_PLAN.R 5).lo), ((R.TBL_TRIE.PLEN_MAX 5).off, 32 * 2 ^ (R.TBL_TRIE.PLEN_MAX 5).lo), (R.APR_VERSION.STAGED.off, 2 ^ 20 + 2 ^ 19)]
def trieCmd (fields : List (Nat × Nat × Nat)) : State := setRegs (withCmd fields) tries
/-- A state after an image. -/
def having (img : List Byte) (t flags : Nat) (s : State) : State := match s.insertImage t img flags with | .inr u => u | .inl _ => s
/-- The prefix 5/4 with result 0x77, and a command for one image of a table. -/
def prefixImg : List Byte := makeImage 1 4 0 0 0x50000000 8 0x77
def oneImage (code table flags : Nat) : List (Nat × Nat × Nat) := [(0, 1, code), (16, 1, table), (17, 1, flags), (18, 2, 1), (24, 8, 64)]
/-- The state with the one image in the table already. -/
def withEntry (code flags : Nat) : State := having exactImg 4 0 (trieCmd (oneImage code 4 flags))
def withPrefix (code flags : Nat) : State := having prefixImg 5 0 (trieCmd (oneImage code 5 flags))
/-- What the image gives an entry, unversioned and at the staged version. -/
def plainEntry : Entry := ⟨0xABCD, 0x123456, 7, 1⟩
def stagedEntry : Entry := ⟨0xABCD, 0x123456, 7, 1 + 16 + 256⟩
def doneOne : Option (List Byte) := some (outcomeArea 0 0 0 0 [(16, 2, 1)])

theorem test_insert_lands : let s := trieCmd (oneImage 1 4 0)
    s.changesOne 7 1 7 (openOf 7 0 (oneImage 1 4 0)) ∧ s.imgGood 4 (tblImage exactImg 0) true = true ∧ s.placesOf 4 0xABCD = [] ∧
    s.freeWay 4 (s.bucketOf 4 0 0xABCD) = some 0 ∧
    after (exec (.tblInsert 7 exactImg) s) (fun t => t.outcomeOf 7 == doneOne && t.entryAt 4 (s.bucketOf 4 0 0xABCD) 0 == plainEntry) = true := by
  decide +kernel
theorem test_insert_lands_versioned : let s := trieCmd (oneImage 1 4 1)
    s.changesOne 7 1 7 (openOf 7 0 (oneImage 1 4 1)) ∧ s.staged = some 1 ∧
    after (exec (.tblInsert 7 exactImg) s) (fun t => t.outcomeOf 7 == doneOne && t.entryAt 4 (s.bucketOf 4 0 0xABCD) 0 == stagedEntry) = true := by
  decide +kernel
theorem test_insert_replaces : ((withEntry 1 2).placesOf 4 0xABCD).length = 1 ∧
    after (exec (.tblInsert 7 (makeImage 2 0 0 9 0xABCD 4 0x654321)) (withEntry 1 2)) (fun t => t.outcomeOf 7 == doneOne &&
      (t.placesOf 4 0xABCD).map (fun x => t.entryAt 4 x.1 x.2) == [⟨0xABCD, 0x654321, 9, 1⟩]) = true := by decide +kernel
theorem test_insert_present : after (exec (.tblInsert 7 exactImg) (withEntry 1 0)) (fun t =>
    t.outcomeOf 7 == some (outcomeArea 1 9 0 0 [(16, 2, 0)]) && t.tbl == (withEntry 1 0).tbl) = true := by decide +kernel
theorem test_delete_leaves : (withEntry 2 0).changesOne 7 2 1 (openOf 7 0 (oneImage 2 4 0)) ∧
    after (exec (.tblDelete 7 exactImg) (withEntry 2 0)) (fun t => t.outcomeOf 7 == doneOne && (t.entriesOf 4).isEmpty) = true := by decide +kernel
theorem test_delete_dies : ((withEntry 2 1).presentAt 4 0xABCD (some 1)).isSome = true ∧
    after (exec (.tblDelete 7 exactImg) (withEntry 2 1)) (fun t => t.outcomeOf 7 == doneOne &&
      (t.entriesOf 4).any fun e => e.2.dying && e.2.death == 1) = true := by decide +kernel
theorem test_delete_absent : after (exec (.tblDelete 7 exactImg) (trieCmd (oneImage 2 4 0))) (fun t =>
    t.outcomeOf 7 == some (outcomeArea 1 0xA 0 0 [(16, 2, 0)]) && t.tbl == (trieCmd []).tbl) = true := by decide +kernel
theorem test_prefix_lands : let s := trieCmd (oneImage 1 5 0)
    s.changesOne 7 1 7 (openOf 7 0 (oneImage 1 5 0)) ∧ ((s.insertImage 5 prefixImg 0).isRight) = true ∧
    after (exec (.tblInsert 7 prefixImg) s) (fun t => t.outcomeOf 7 == doneOne &&
      ((t.findPrefix 5 4 (5 * 2 ^ 124)).map fun p => (p.result, p.staged)) == some (some 0x77, none) && t.tline 261 != 0) = true := by decide +kernel
theorem test_prefix_staged : after (exec (.tblInsert 7 prefixImg) (trieCmd (oneImage 1 5 1))) (fun t => t.outcomeOf 7 == doneOne &&
    ((t.findPrefix 5 4 (5 * 2 ^ 124)).map fun p => (p.result, p.staged)) == some (none, some (1, some 0x77))) = true := by decide +kernel
theorem test_prefix_leaves : ((withPrefix 2 0).findPrefix 5 4 (5 * 2 ^ 124)).isSome = true ∧
    after (exec (.tblDelete 7 prefixImg) (withPrefix 2 0)) (fun t => t.outcomeOf 7 == doneOne && t.tbl.prefixes.isEmpty) = true := by decide +kernel
theorem test_prefix_dies : after (exec (.tblDelete 7 prefixImg) (withPrefix 2 1)) (fun t => t.outcomeOf 7 == doneOne &&
    t.tbl.prefixes.map (fun p => (p.result, p.staged)) == [(some 0x77, some (1, none))]) = true := by decide +kernel
theorem test_flush_leaves : let s := having exactImg 4 0 (trieCmd [(0, 1, 5), (16, 1, 4), (20, 4, 7)])
    s.begins 7 5 (openOf 7 0 [(0, 1, 5), (16, 1, 4), (20, 4, 7)]) ∧ s.tbl.fresh = [] ∧
    after (exec (.tblFlushPort 7) s) (fun t => t.outcomeOf 7 == some (outcomeArea 0 0 0 0 [(16, 4, 1)]) && (t.entriesOf 4).isEmpty) = true := by
  decide +kernel

/-! ### What the words and the verdict of a prism do -/

def packet9 : Pkt := { id := 9, src := 2, bytes := frame60 }
def flightAt (age : Nat) (w : Work) : Flight := { pkt := some packet9, age := age, bank := 0, work := w, tokens := [], inTb := 0 }
/-- Prism 0 at an interval of 4 steps, with one packet in it and words in its control stores. -/
def holdingOne (f : Flight) (store : SMap Nat) : State :=
  let s := scheduled { steps := 1, flights := [f] }
  { s with code := { s.code with store := store } }
/-- The packet in step 1 of facet 0. -/
def inFacet (w : Work) (store : SMap Nat) : State := holdingOne (flightAt 1 w) store
/-- The head of the flights of prism 0. -/
def head (t : State) (p : Flight → Bool) : Bool := (t.prism 0).flights.head?.any p
def runOf (m left : Nat) (writes : List (Nat × Nat × Nat)) : WordRun :=
  { addr := 5, word := m, left := left, holds := true, writes := writes, alu0 := some ⟨true, false, true⟩ }
theorem test_prism_serves : (inFacet {} []).servesOne 0 0 1 packet9 (flightAt 1 {}) {} := by decide +kernel
theorem test_prism_begins : (holdingOne (flightAt 4 {}) []).servesOne 0 1 0 packet9 (flightAt 4 {}) ((holdingOne (flightAt 4 {}) []).beginFacet 0 1 (flightAt 4 {})).work := by
  decide +kernel
theorem test_word_waits : let w : Work := { run := some (runOf (word 0 0) 2 [(4, 4, 7)]) }
    (inFacet w []).servesOne 0 0 1 packet9 (flightAt 1 w) w ∧
    after (exec (.prismStep 0 false) (inFacet w [])) (fun t => head t fun x => x == flightAt 2 { w with run := some (runOf (word 0 0) 1 [(4, 4, 7)]) }) = true := by decide +kernel
/-- What a word leaves at its last step: its two writes in order, its flags, and where SEQ goes. -/
def landsAt (m sp upc sp' : Nat) (done : Bool) : Bool :=
  let w : Work := { run := some (runOf m 1 [(4, 4, 0x1111), (6, 4, 0x2222)]), sp := sp, stack := List.replicate sp 77 }
  after (exec (.prismStep 0 false) (inFacet w [])) fun t => head t fun x => x.age == 2 && x.work.run.isNone && x.work.sp == sp' &&
    (done || x.work.upc == upc) && x.work.done == done && vget x.work.vec 4 6 == 0x112222 && x.work.f0 == ⟨true, false, true⟩
theorem test_word_lands : mMeta (word 0 0) / 2 ^ 14 = 0 ∧ mEmit (word 0 0) / 128 = 0 ∧ landsAt (word 0 0) 0 6 0 false = true ∧
    landsAt (word 1 0 + 300 * 2 ^ 171) 0 300 0 false = true ∧ landsAt (word 2 0 + 300 * 2 ^ 171) 0 300 0 false = true ∧
    landsAt (word 2 0 + 300 * 2 ^ 171 + 0x20 * 2 ^ 165) 0 6 0 false = true ∧ condReserved 0x20 = false ∧
    landsAt (word 4 0 + 300 * 2 ^ 171) 6 300 7 false = true ∧ landsAt (word 5 0) 3 77 2 false = true ∧ landsAt (word 7 0) 0 0 0 true = true := by decide +kernel
/-- The read-only nibbles at both ends, and the nibbles beside them. -/
theorem test_vput : let v : Vect := vput 0 0 1 0
    vget (vput v 511 19 (16 ^ 19 - 1)) 511 1 = 15 ∧ vget (vput v 511 19 (16 ^ 19 - 1)) 512 17 = vget v 512 17 ∧
    vget (vput v 511 19 (16 ^ 19 - 1)) 529 1 = 15 ∧ vget (vput v 632 5 (16 ^ 5 - 1)) 632 5 = 0xF000F ∧ vget (vput v 1020 4 0x1234) 1020 4 = 0x1234 ∧
    vget (vput v 529 104 5) 529 104 = 5 := by decide +kernel
/-- Facet 0 about to issue the word at microaddress 9. -/
def issuing (m : Nat) (w : Work) : State := inFacet { w with upc := 9 } [(wordKey 0 0 9, m)]
theorem test_word_reserved : (issuing (word 10 0) {}).issues 0 0 (flightAt 1 { upc := 9 }) { upc := 9 } (word 10 0) ∧ wordReserved (word 10 0) = true ∧
    after (exec (.prismStep 0 false) (issuing (word 10 0) {})) (fun t => (head t fun x => x.pkt.isNone) && t.word (R.CNT_REASON.COUNT 5).off == 1 && t.bit (faultBit 9) &&
      t.get (R.MCODE_FCAP.CAUSE 0) == 1 && t.get (R.MCODE_FCAP.MICROADDR 0) == 9) = true := by decide +kernel
theorem test_guard_miss : (issuing (word 0 0 + 5) {}).issues 0 0 (flightAt 1 { upc := 9 }) { upc := 9 } (word 0 0 + 5) ∧ wordReserved (word 0 0 + 5) = false ∧
    mGuard (word 0 0 + 5) ≠ 1 % 2048 ∧
    after (exec (.prismStep 0 false) (issuing (word 0 0 + 5) {})) (fun t => (head t fun x => x.pkt.isNone) && t.word (R.CNT_REASON.COUNT 3).off == 1 && t.bit (faultBit 8) &&
      t.get (R.PRISM_GUARD_CAP.PHASE 0) == 1 && t.get (R.PRISM_GUARD_CAP.GUARD 0) == 5) = true := by decide +kernel
/-- The guard of age 1; its predicate, flag 0, fails on a vector of zeros. -/
theorem test_predicate_fails : let m := word 0 addOne + 0x20 * 2 ^ 165 + 1
    mGuard m = 1 ∧ mDwell m = 0 ∧ mMeta m / 2 ^ 14 = 0 ∧ condReserved (mCond m) = false ∧ condHolds { upc := 9 } (mCond m) false false false = false ∧
    after (exec (.prismStep 0 false) (issuing m {})) (fun t => head t fun x => x == flightAt 2 { upc := 10 }) = true := by decide +kernel
theorem test_word_adds : let m := word 0 addOne + 1
    lPort m = 63 ∧ bitsGet (mCnt m) 8 2 = 0 ∧ mLoupe m = false ∧ mEmit m / 128 = 0 ∧ mMove m / 2 ^ 26 = 0 ∧ mAlu1 m / 2 ^ 27 = 0 ∧
    (aluRun 0 (mAlu0 m)) = (some (4, 4, 1), some ⟨false, false, false⟩) ∧
    after (exec (.prismStep 0 false) (issuing m {})) (fun t => head t fun x => x.work.upc == 10 && vget x.work.vec 4 4 == 1) = true := by decide +kernel
/-- A search of lens array 3 under profile 2, into window 1, with the key at nibble 8. -/
theorem test_word_looks : let m := (3 * 2 ^ 18 + 8 * 2 ^ 8 + 2 * 2 ^ 4 + 1 * 2 ^ 2) * 2 ^ 49 + 1
    wordReserved m = false ∧ mSeq m = 0 ∧ mCond m = 0 ∧ lPort m = 3 ∧ lWin m = 1 ∧ mMove m / 2 ^ 26 = 0 ∧ mAlu0 m / 2 ^ 27 = 0 ∧ mAlu1 m / 2 ^ 27 = 0 ∧
    after (exec (.prismStep 0 false) (issuing m {})) (fun t => head t fun x => x.work.looks.any fun l => l.port == 3 && l.win == 1 && l.due == 13) = true := by decide +kernel
def dueLook : Lookup := { id := 5, port := 3, win := 2, due := 1, ready := true, status := 12, value := 77, issueTb := 0 }
theorem test_result_due : let w : Work := { done := true, looks := [dueLook] }
    (inFacet w []).servesOne 0 0 1 packet9 (flightAt 1 w) w ∧
    after (exec (.prismStep 0 false) (inFacet w [])) (fun t => head t fun x => x.work.looks.isEmpty && winStatus x.work.vec 2 == 12 && vget x.work.vec (winAddr 2) 128 == 77) = true := by decide +kernel
/-- The packet at the handoff, with a verdict; list 1 of table 4 has the one operation `op`, and table 5 holds security associations in HBM. -/
def atHandoff (vd : Verdict) (op line : Nat) : State :=
  let s := holdingOne (flightAt 120 { verdict := vd }) []
  let u := (((((s.set R.SEC_EDIT.LIST_TABLE 4).set (R.TBL_DESC.BBITS 4) 4).set R.SEC_EDIT.SA_TABLE 5).set (R.TBL_DESC.BBITS 5) 4).set (R.TBL_DESC.BASE 4) 32).set (R.TBL_DESC.TIER 5) 1
  { u with tbl := { u.tbl with lines := [(33, 1 + op * 2 ^ 64), (2 ^ 40, line)] } }
theorem test_verdict_drops : let s := atHandoff { kind := 2, reason := 0x22 } 0 0
    s.holdsOne 0 packet9 (flightAt 120 { verdict := { kind := 2, reason := 0x22 } }) ∧ s.startAge 0 0 30 = 120 ∧
    after (exec (.prismStep 0 false) s) (fun t => (head t fun x => x.pkt.isNone) && t.word (R.CNT_REASON.COUNT 0x22).off == 1) = true := by decide +kernel
theorem test_verdict_excepts : after (exec (.prismStep 0 false) (atHandoff { kind := 3, reason := 0x22 } 0 0)) (fun t => (head t fun x => x.pkt.isNone) &&
    t.code.excepts.any fun e => e.1 == 0 && e.2.reason == 0x22 && e.2.bytes == frame60) = true := by decide +kernel
def forwards : Verdict := { kind := 1, dstKind := 3, edit := 1 }
/-- The hypotheses of a FORWARD through list 1. -/
def aimed (op line : Nat) : Bool :=
  let s := atHandoff forwards op line
  (match (s.forwardAim packet9 0 forwards).1 with
    | .inr (p1, list, []) => !p1.group && list == 1 && (s.placement p1.leaf).place != some placeGone && s.fitsPort p1 (frame60 ++ frame60)
    | _ => false) && s.host.parked.isEmpty && (match (s.directLine 4 1).1 with | .inr l => lget l 0 1 == 1 && lget l 8 8 == op | .inl _ => false)
/-- A tag 0x8100 after the addresses. -/
def pushTag : Nat := 1 * 2 ^ 58 + 2 ^ 57 + 12 * 2 ^ 47 + 100 * 2 ^ 37 + 0x8100
theorem test_edit_pushes : aimed pushTag 0 = true ∧ eOpc pushTag = 1 ∧
    after (exec (.prismStep 0 false) (atHandoff forwards pushTag 0)) (fun t => head t fun x => x.decided &&
      x.pkt.any fun q => q.bytes == frame60.take 12 ++ beBytes 4 0x81000000 ++ frame60.drop 12 && q.fcs == frameCheck q.bytes) = true := by decide +kernel
theorem test_edit_fails : aimed (0x21 * 2 ^ 58) 0 = true ∧ eOpc (0x21 * 2 ^ 58) = 0x21 ∧
    after (exec (.prismStep 0 false) (atHandoff forwards (0x21 * 2 ^ 58) 0)) (fun t => (head t fun x => x.pkt.isNone) && t.bit R.SEC_EDIT_CAP.VALID &&
      t.word (R.CNT_REASON.COUNT rEdit).off == 1) = true := by decide +kernel
/-- ESP from byte 34 on, outbound, under the association of SPI 0x01020304, sequence number 9. -/
def sealOp : Nat := 0x20 * 2 ^ 58 + 2 ^ 57 + 34 * 2 ^ 47 + 100 * 2 ^ 37
def saLine : Nat := 0x04030201 * 2 ^ 288 + 9 * 2 ^ 320 + 2 ^ 384
theorem test_edit_seals : aimed sealOp saLine = true ∧ eOpc sealOp = 0x20 ∧
    (match (atHandoff forwards sealOp saLine).espOp 0 sealOp { bytes := frame60 } with | (.ok e, _) => e.inserted == 0 | _ => false) = true ∧
    after (exec (.prismStep 0 false) (atHandoff forwards sealOp saLine)) (fun t => head t fun x => x.pkt.any fun q =>
      slice q.bytes 34 8 == beBytes 8 0x0102030400000009 && q.bytes.take 34 == frame60.take 34 && t.tline (2 ^ 40) == saLine + 2 ^ 320) = true := by decide +kernel

end Sys2Proof.Tests
end

section
/-! SUPPORT. Every meaning is completed under its well-formedness, and what holds of every command follows from that (log 5). -/
namespace Sys2Proof.Machine

/-- Each command's meaning is some effect, completed under the well-formedness of its operands. -/
theorem exec_eq_complete (c : Instr) (s : State) : ∃ t, exec c s = complete (Instr.wf c) s t := by
  cases c <;> exact ⟨_, rfl⟩

theorem complete_of_not {ok : Bool} (h : ok = false) (s t : State) : complete ok s t = .next s.settle := by simp [complete, h]

/-- Settles O56: each of the commands is completed under its well-formedness, and `complete` is total. -/
theorem wellFormedCommandsComplete : Obligations.WellFormedCommandsComplete := by
  intro s c
  obtain ⟨t, ht⟩ := exec_eq_complete c s
  exact ⟨fun hw => ⟨t.settle, ht.trans (complete_of hw s t)⟩, fun hw => ht.trans (complete_of_not hw s t)⟩

end Sys2Proof.Machine
end

section
/-! SUPPORT. Writes of registers that only store their fields: what logging a write event leaves as it was, which registers take
every value, and the path of a management function's write through BAR0 (R16, R18, R434, R572, R573). -/
namespace Sys2Proof.Machine

/-! ### Logging a write event (R573) -/

/-- The registers that logging a write event may change, by what `Raises` says of the raise of source 7. -/
abbrev regLogReg (k : Nat) : Prop := k = 0x20 ∨ k = 0x28 ∨ k = 0x30 ∨ raiseReg k

theorem State.count_word_other (s : State) {l : Loc} {k off : Nat} (h : off ≠ l.off) : (s.count l k).word off = s.word off :=
  State.word_setWord_other s _ h

theorem State.count_word_same (s : State) (l : Loc) (k : Nat) :
    (s.count l k).word l.off = BitVec.ofNat 64 (counterAdd (s.word l.off).toNat k).1 :=
  State.word_setWord_same s _ _

/-- A counter that fills its register goes up modulo 2^64. -/
theorem State.get_count_word (s : State) (off k : Nat) :
    (s.count ⟨off, 0, 64⟩ k).get ⟨off, 0, 64⟩ = (s.get ⟨off, 0, 64⟩ + k) % 2 ^ 64 := by
  have h := State.count_word_same s ⟨off, 0, 64⟩ k
  have hlt : (s.word off).toNat < 2 ^ 64 := (s.word off).isLt
  simp only [State.get, h, counterAdd, bitsGet, BitVec.toNat_ofNat]
  omega

theorem State.word_set_other (s : State) {l : Loc} {v off : Nat} (h : off ≠ l.off) : (s.set l v).word off = s.word off :=
  State.word_setWord_other s _ h

/-- Outside the capture and what the raise of source 7 touches, a register is as after the count. -/
theorem State.regLog_word_of_count (s : State) (kind bar : Nat) (src : HostSrc) (off v : Nat) {k : Nat} (h20 : k ≠ 0x20) (h28 : k ≠ 0x28)
    (hr : ¬ raiseReg k) : (s.regLog kind bar src off v).word k = (s.count R.TOP_REGLOG_CNT.COUNT 1).word k := by
  unfold State.regLog State.raise
  rw [(raises _ 7 0 none false).regs k hr]
  split
  · rfl
  · rw [State.word_setWord_other _ _ (show k ≠ R.TOP_REGLOG_VAL.VALUE.off from h28),
      State.word_set_other (l := R.TOP_REGLOG.OFFSET) _ h20, State.word_set_other (l := R.TOP_REGLOG.FUNC) _ h20,
      State.word_set_other (l := R.TOP_REGLOG.EP) _ h20, State.word_set_other (l := R.TOP_REGLOG.BAR) _ h20,
      State.word_set_other (l := R.TOP_REGLOG.KIND) _ h20, State.word_set_other (l := R.TOP_REGLOG.VALID) _ h20]

/-- Every register outside the log, the fault collector and ADMIT_HOLD is as it was. -/
theorem State.regLog_word_other (s : State) (kind bar : Nat) (src : HostSrc) (off v : Nat) {k : Nat} (h : ¬ regLogReg k) :
    (s.regLog kind bar src off v).word k = s.word k := by
  obtain ⟨h20, h28, h30, hr⟩ : k ≠ 0x20 ∧ k ≠ 0x28 ∧ k ≠ 0x30 ∧ ¬ raiseReg k := by simpa only [regLogReg, not_or] using h
  rw [State.regLog_word_of_count s kind bar src off v h20 h28 hr, State.count_word_other s h30]

/-- The event is counted. -/
theorem State.regLog_count (s : State) (kind bar : Nat) (src : HostSrc) (off v : Nat) :
    (s.regLog kind bar src off v).get R.TOP_REGLOG_CNT.COUNT = (s.get R.TOP_REGLOG_CNT.COUNT + 1) % 2 ^ 64 := by
  have h := State.regLog_word_of_count s kind bar src off v (k := 0x30) (by decide) (by decide) (by decide)
  calc (s.regLog kind bar src off v).get R.TOP_REGLOG_CNT.COUNT
      = (s.count R.TOP_REGLOG_CNT.COUNT 1).get R.TOP_REGLOG_CNT.COUNT := congrArg (fun w : Word => bitsGet w.toNat 0 64) h
    _ = _ := State.get_count_word s 0x30 1

/-! ### Fields that take every value (R18) -/

/-- No value of the field is a reserved encoding. -/
def WField.takesAll (f : WField) : Bool := f.acc != some .rw || (f.least == 0 && f.most == 2 ^ f.w - 1)

theorem storeField_takesAll {f : WField} (hf : f.takesAll = true) (old v : Nat) (acc : Nat × Bool) :
    (storeField old v acc f).2 = acc.2 := by
  have hx := bitsGet_lt v f.lo f.w
  unfold storeField
  split
  · rename_i ha
    obtain ⟨hl, hm⟩ : f.least = 0 ∧ f.most = 2 ^ f.w - 1 := by simpa [WField.takesAll, ha] using hf
    rw [if_pos (by omega)]
  · rfl
  · rfl

/-- A register all of whose fields take every value meets no reserved encoding. -/
theorem storeFields_takesAll {fs : List WField} (h : ∀ f ∈ fs, f.takesAll = true) (old v : Nat) : (storeFields old v fs).2 = false :=
  List.foldlRecOn fs (storeField old v) (motive := fun acc => acc.2 = false) rfl fun acc ha f hf =>
    (storeField_takesAll (h f hf) old v acc).trans ha

/-- In the table of registers: below the end of the fault collector only KEEP_THERM has a field that refuses a value. -/
theorem regTable_takesAll : ∀ d ∈ regTable,
    (∀ f ∈ d.fields, f.takesAll = true) ∨ 0x210000 ≤ d.base ∨ (d.base = 0x100010 ∧ d.dims = []) := by decide +kernel

theorem paceStatus_readOnly : (regAt 0x600008).any (fun d => d.fields.any fun f => f.acc.isSome) = false := by decide +kernel

theorem regAt_some {off : Nat} {d : RegDef} (h : regAt off = some d) : d ∈ regTable ∧ d.base ≤ off ∧ dimsHit d.dims (off - d.base) = true := by
  have hp := List.find?_some h
  simp only [Bool.and_eq_true, decide_eq_true_eq] at hp
  exact ⟨List.mem_of_find?_eq_some h, hp⟩

/-- A writable register that logging an event may change takes every value: no write of it is itself such an event. -/
theorem takesAll_of_regLogReg {off : Nat} {d : RegDef} (hd : regAt off = some d) (hw : (d.fields.any fun f => f.acc.isSome) = true)
    (hr : regLogReg off) : ∀ f ∈ d.fields, f.takesAll = true := by
  obtain ⟨hmem, hle, hhit⟩ := regAt_some hd
  have hne : off ≠ 0x600008 := by
    rintro rfl
    have h := paceStatus_readOnly
    rw [hd, Option.any_some, hw] at h
    cases h
  rcases regTable_takesAll d hmem with h | h | ⟨hb, hds⟩
  · exact h
  · simp only [regLogReg, raiseReg] at hr
    omega
  · have : off - d.base = 0 := by simpa [hds, dimsHit] using hhit
    simp only [regLogReg, raiseReg] at hr
    omega

/-! ### Registers whose write only stores -/

/-- The write of `v` at `off` runs no operation, meets no rule beside its fields, and no enabled ring or queue holds the register; nor does a
watermark or a count of what follows the command stand there. -/
structure State.StoresPlainly (s : State) (off v : Nat) : Prop where
  noOperation : off ∉ [0x18, 0x100020, 0x201038, 0x700008, 0x1B00210, 0x2200840, 0x2800008, 0x2900010, 0x2A00000]
  noFault : ¬ (0x200000 ≤ off ∧ off < 0x200040)
  noVerify : macOff off 0x30 = false
  noPort : ¬ (0x2200000 ≤ off ∧ off < 0x2200300)
  undisciplined : off = 0x700010 → s.fabricTime = false
  unheld : ∀ l, holdBit off = some l → s.bit l = false ∧ l.off ≠ off
  unfollowed : ¬ followReg off
  noRule : s.valueRules off v = (v, false)

section
variable {s : State} {off v : Nat} (hp : s.StoresPlainly off v)
include hp

/-- Nothing follows the stored word. -/
theorem State.StoresPlainly.written_eq (t : State) (old w : Nat) : t.written off old w = t := by
  have h := hp.noOperation
  simp only [List.mem_cons, List.not_mem_nil, or_false, not_or] at h
  unfold State.written
  simp only [h, hp.noVerify, hp.noPort, if_false, Bool.false_eq_true]
  split
  · rename_i l hl
    rw [if_neg fun hc => (hp.unheld l hl).2 hc.1]
  · rfl

theorem State.StoresPlainly.storeWord_eq (src : HostSrc) (fs : List WField) :
    s.storeWord src off v fs =
      if (storeFields (s.word off).toNat v fs).2 then
        (s.setWord off (BitVec.ofNat 64 (storeFields (s.word off).toNat v fs).1)).regLog 1 0 src off v
      else s.setWord off (BitVec.ofNat 64 (storeFields (s.word off).toNat v fs).1) := by
  have h : off ≠ 0x201038 := fun e => hp.noOperation (by simp [e])
  simp [State.storeWord, hp.noRule, h, hp.written_eq]

theorem State.StoresPlainly.regWord_eq (src : HostSrc) (fs : List WField) : s.regWord src off v fs = s.storeWord src off v fs := by
  have h := hp.noOperation
  have hf := hp.noFault
  have ht := hp.undisciplined
  simp only [List.mem_cons, List.not_mem_nil, or_false, not_or] at h
  have ht' : ¬ (off = 0x700010 ∧ s.fabricTime = true) := fun hc => by simp [ht hc.1] at hc
  unfold State.regWord
  rw [if_neg h.1, if_neg (by omega), if_neg (by omega)]
  simp only [h, false_or, ht', if_false]
  split
  · rename_i l hl
    rw [(hp.unheld l hl).1]
    rfl
  · rfl

/-- A management function's write of such a register in SERVE stores the word. -/
theorem State.StoresPlainly.bar0_eq {src : HostSrc} {d : RegDef} (hm : s.manages src) (hd : regAt off = some d)
    (hw : (d.fields.any fun f => f.acc.isSome) = true) : s.bar0 src off v = s.storeWord src off v d.fields := by
  obtain ⟨hmode, hreach, hman, -⟩ := hm
  have ha : s.accessMode = .serve := by simp [State.accessMode, hmode]
  rw [← hp.regWord_eq]
  simp [State.bar0, State.bar0Word, hreach, hman, ha, hd, hw]

/-- The effect of such a write, settled, is what the statement asks for. -/
theorem State.StoresPlainly.stores {src : HostSrc} {d : RegDef} (hm : s.manages src) (hd : regAt off = some d)
    (hw : (d.fields.any fun f => f.acc.isSome) = true) : s.stores (s.bar0 src off v).settle off v d := by
  rw [hp.bar0_eq hm hd hw, hp.storeWord_eq]
  unfold State.stores
  generalize hr : storeFields (s.word off).toNat v d.fields = r
  rw [State.settle_word _ hp.unfollowed]
  cases hres : r.2 with
  | false =>
    refine ⟨State.word_setWord_same s off _, ?_⟩
    exact State.kept_of (State.settle_still _) rfl rfl (fun k hk => State.word_setWord_other s _ hk) (List.append_nil _).symm
  | true =>
    have hlog : ¬ regLogReg off := fun h => by
      rw [← hr, storeFields_takesAll (takesAll_of_regLogReg hd hw h)] at hres
      cases hres
    have hcount : R.TOP_REGLOG_CNT.COUNT.off ≠ off := fun e => hlog (.inr (.inr (.inl e.symm)))
    refine ⟨(State.regLog_word_other _ 1 0 src off v hlog).trans (State.word_setWord_same s off _), ?_⟩
    rw [if_pos rfl, if_pos rfl, State.settle_get _ (by decide), State.regLog_count, State.get_setWord_of_off hcount]

/-- So a command whose meaning is that write leaves the word stored. -/
theorem State.StoresPlainly.complete_stores {src : HostSrc} {d : RegDef} (hm : s.manages src) (hd : regAt off = some d)
    (hw : (d.fields.any fun f => f.acc.isSome) = true) {ok : Bool} (hok : ok = true) :
    ∃ t, complete ok s (s.bar0 src off v) = .next t ∧ s.stores t off v d :=
  ⟨_, complete_of hok _ _, hp.stores hm hd hw⟩

end

/-! ### The registers of the commands -/

theorem macOff_eq_false {off rel : Nat} (h : off < 0x2000000 ∨ 0x2180000 ≤ off) : macOff off rel = false := by
  have : ¬ (0x2000000 ≤ off ∧ off < 0x2180000) := by omega
  simp [macOff, this]

theorem holdBit_eq_none {off : Nat} (h : (0x400800 ≤ off ∧ off < 0x2740000) ∨ (0x2780000 ≤ off ∧ off < 0x2800000)) : holdBit off = none := by
  unfold holdBit
  iterate 4 rw [if_neg (by omega)]

/-- CMD_POST is held by the ENABLE of its ring (R458). -/
theorem holdBit_cmdPost {r : Nat} (h : r < 64) : holdBit (0x400008 + 32 * r) = some (R.CMD_RING.ENABLE r) := by
  have : (0x400008 + 32 * r - 0x400000) / 32 = r := by omega
  unfold holdBit
  rw [if_pos (by omega), this]

/-- HOST_QBASE is held by the ENABLE of its queue (R441). -/
theorem holdBit_hostQbase {q : Nat} (h : q < 16384) : holdBit (0x2740008 + 16 * q) = some (R.HOST_Q.ENABLE q) := by
  have : (0x2740008 + 16 * q - 0x2740000) / 16 = q := by omega
  unfold holdBit
  rw [if_neg (by omega), if_pos (by omega), this]

/-- The registers that the commands with a register of their own write. -/
abbrev ownReg (off : Nat) : Prop :=
  (0x400000 ≤ off ∧ off < 0x400800) ∨ (0x600100 ≤ off ∧ off < 0x600180) ∨ off = 0x700010 ∨ (0x1C80000 ≤ off ∧ off < 0x1D18000) ∨
    (0x2740000 ≤ off ∧ off < 0x27A0200)

/-- No rule beside the fields' own stands there, but for those of PACE_XOFF_OUT, PACE_XOFF_IN and HOST_Q (R67, R78, R441). -/
theorem State.valueRules_ownReg (s : State) {off : Nat} (v : Nat) (h : ownReg off) (hx : ¬ (0x600100 ≤ off ∧ off < 0x600180))
    (hq : ¬ (off < 0x2780000 ∧ 0x2740000 ≤ off ∧ off % 16 = 0)) : s.valueRules off v = (v, false) := by
  have hmac : ¬ macOff off 0x20 = true := by simp [macOff_eq_false (off := off) (rel := 0x20) (by omega)]
  unfold State.valueRules
  dsimp only
  iterate 7 rw [if_neg (by omega)]
  rw [if_neg hmac, if_neg (by omega)]

/-- PACE_XOFF_OUT takes a listed watermark (R67). -/
theorem State.valueRules_xoffOut (s : State) {i v : Nat} (hi : i < 8) (hv : wmListed (v % 4096) = true) :
    s.valueRules (0x600100 + 8 * i) v = (v, false) := by
  have hw : wmListed (bitsGet v 0 12) = true := by simpa [bitsGet] using hv
  unfold State.valueRules
  dsimp only
  iterate 4 rw [if_neg (by omega)]
  rw [if_pos (by omega)]
  simp [rejectIf, hw]

/-- PACE_XOFF_IN takes a range of ports that exist (R78). -/
theorem State.valueRules_xoffIn (s : State) {i v : Nat} (hi : i < 8) (hle : bitsGet v 0 7 ≤ bitsGet v 8 7) (hlast : bitsGet v 8 7 ≤ 95) :
    s.valueRules (0x600140 + 8 * i) v = (v, false) := by
  have hfirst : ¬ 95 < bitsGet v 0 7 := by omega
  have hlast' : ¬ 95 < bitsGet v 8 7 := by omega
  have hle' : ¬ bitsGet v 8 7 < bitsGet v 0 7 := by omega
  unfold State.valueRules
  dsimp only
  iterate 5 rw [if_neg (by omega)]
  rw [if_pos (by omega)]
  simp [rejectIf, hfirst, hlast', hle']

theorem State.StoresPlainly.of_ownReg {s : State} {off v : Nat} (h : ownReg off) (ht : off = 0x700010 → s.fabricTime = false)
    (hu : ∀ l, holdBit off = some l → s.bit l = false ∧ l.off ≠ off) (hv : s.valueRules off v = (v, false)) : s.StoresPlainly off v where
  noOperation := by
    simp only [List.mem_cons, List.not_mem_nil, or_false]
    omega
  noFault := by omega
  noVerify := macOff_eq_false (by omega)
  noPort := by omega
  undisciplined := ht
  unheld := hu
  unfollowed := by
    simp only [followReg]
    omega
  noRule := hv

/-- One of those registers that no ring or queue holds. -/
theorem State.StoresPlainly.of_unheld {s : State} {off v : Nat} (h : ownReg off) (ht : off = 0x700010 → s.fabricTime = false)
    (hn : holdBit off = none) (hv : s.valueRules off v = (v, false)) : s.StoresPlainly off v :=
  .of_ownReg h ht (fun l hl => by simp [hn] at hl) hv

/-- TIME_OFFSET, SWC_DQ, APR_RES and HOST_WAKE, which neither a ring holds nor a rule guards. -/
theorem State.StoresPlainly.of_free {s : State} {off : Nat} (v : Nat)
    (h : off = 0x700010 ∨ (0x1C80000 ≤ off ∧ off < 0x1D18000) ∨ (0x27A0000 ≤ off ∧ off < 0x27A0200))
    (ht : off = 0x700010 → s.fabricTime = false) : s.StoresPlainly off v :=
  .of_unheld (by omega) ht (holdBit_eq_none (by omega)) (s.valueRules_ownReg v (by omega) (by omega) (by omega))

/-- The second register of a disabled ring or queue. -/
theorem State.StoresPlainly.of_disabled {s : State} {off : Nat} {l : Loc} (v : Nat)
    (h : (0x400000 ≤ off ∧ off < 0x400800) ∨ (0x2740000 ≤ off ∧ off < 0x2780000 ∧ off % 16 = 8))
    (hl : holdBit off = some l) (hb : s.bit l = false) (ho : l.off ≠ off) : s.StoresPlainly off v :=
  .of_ownReg (by omega) (fun e => by omega) (fun m hm => by rw [hl, Option.some.injEq] at hm; exact hm ▸ ⟨hb, ho⟩)
    (s.valueRules_ownReg v (by omega) (by omega) (by omega))

/-- A register whose write does nothing beside storing its fields, where no rule rejects the value. -/
theorem State.StoresPlainly.of_plainReg {s : State} {off v : Nat} (h : plainReg off) (hv : s.valueRules off v = (v, false)) :
    s.StoresPlainly off v := by
  obtain ⟨hops, hflt, hmac, hsec, hhold, hfollow⟩ := h
  simp only [List.mem_cons, List.not_mem_nil, or_false, not_or] at hops
  refine ⟨by simp [hops], hflt, hmac, hsec, fun e => ?_, fun l hl => ?_, hfollow, hv⟩
  · simp [e] at hops
  · simp [hhold] at hl

/-- A host write of one whole word by a management function is a write of BAR0 (R572). -/
theorem State.hostWrite_word {s : State} {src : HostSrc} {off : Nat} (v : Nat) (hm : s.manages src) (ha : off % 8 = 0) (ho : off < 2 ^ 26) :
    s.hostWrite src 0 off [(v, 255)] = s.bar0 src off v := by
  obtain ⟨-, hreach, hman, -⟩ := hm
  have h8 : off / 8 * 8 = off := by omega
  have hin : decide (off < barSize src 0) = true := by simpa [barSize, hman] using ho
  simp only [State.hostWrite, State.hostWords, State.hostWord, State.bar0, h8, hreach, hman, hin]
  simp

theorem exec_registerWrite (src : HostSrc) (bar off : Nat) (words : List (Nat × Nat)) (s : State) :
    exec (.registerWrite src bar off words) s =
      complete (Instr.wf (.registerWrite src bar off words)) s (s.hostWrite src bar off words) := rfl

theorem exec_captureRearm {off : Nat} (h : isCapture off = true) (src : HostSrc) (v : Nat) (s : State) :
    exec (.captureRearm src off v) s = complete (Instr.wf (.captureRearm src off v)) s (s.bar0 src off v) :=
  congrArg (complete _ s) (if_pos h)

/-- Settles O3: each of these writes is a word of BAR0 that only stores its fields. -/
theorem plainRegisterWritesStore : Obligations.PlainRegisterWritesStore := by
  intro s src off v d hm hv hoff hd hw
  have hsrc : src.wf = true := hm.2.2.2
  refine ⟨?registerWrite, ?xoffOut, ?xoffIn, ?aprRes, ?swcDq, ?cmdPost, ?hostQbase, ?timeOffset, ?hostWake, ?captureRearm⟩
  case registerWrite =>
    intro ha hpl hr
    rw [exec_registerWrite, State.hostWrite_word v hm ha hoff]
    exact (State.StoresPlainly.of_plainReg hpl hr).complete_stores hm hd hw (by simpa [Instr.wf, hsrc] using hv)
  case xoffOut =>
    rintro i hi rfl hwm
    exact (State.StoresPlainly.of_unheld (by omega) (by omega) (holdBit_eq_none (by omega))
      (s.valueRules_xoffOut hi hwm)).complete_stores hm hd hw (by simpa [Instr.wf, hsrc, hi] using hv)
  case xoffIn =>
    rintro i hi rfl hle hlast
    exact (State.StoresPlainly.of_unheld (by omega) (by omega) (holdBit_eq_none (by omega))
      (s.valueRules_xoffIn hi hle hlast)).complete_stores hm hd hw (by simpa [Instr.wf, hsrc, hi] using hv)
  case aprRes =>
    rintro r hr rfl
    exact (State.StoresPlainly.of_free v (by omega) (by omega)).complete_stores hm hd hw (by simpa [Instr.wf, hsrc, hr] using hv)
  case swcDq =>
    rintro q hq rfl
    exact (State.StoresPlainly.of_free v (by omega) (by omega)).complete_stores hm hd hw (by simpa [Instr.wf, hsrc, hq] using hv)
  case cmdPost =>
    rintro r hr rfl hb
    have hne : (R.CMD_RING.ENABLE r).off ≠ 0x400008 + 32 * r := by simp only [R.CMD_RING.ENABLE]; omega
    exact (State.StoresPlainly.of_disabled v (by omega) (holdBit_cmdPost hr) hb hne).complete_stores hm hd hw
      (by simpa [Instr.wf, hsrc, hr] using hv)
  case hostQbase =>
    rintro q hq rfl hb
    have hne : (R.HOST_Q.ENABLE q).off ≠ 0x2740008 + 16 * q := by simp only [R.HOST_Q.ENABLE]; omega
    exact (State.StoresPlainly.of_disabled v (by omega) (holdBit_hostQbase hq) hb hne).complete_stores hm hd hw
      (by simpa [Instr.wf, hsrc, hq] using hv)
  case timeOffset =>
    rintro rfl ht
    exact (State.StoresPlainly.of_free v (by omega) fun _ => ht).complete_stores hm hd hw (by simpa [Instr.wf, hsrc] using hv)
  case hostWake =>
    rintro w hw64 rfl
    exact (State.StoresPlainly.of_free v (by omega) (by omega)).complete_stores hm hd hw (by simpa [Instr.wf, hsrc, hw64] using hv)
  case captureRearm =>
    intro hc hpl hr
    rw [exec_captureRearm hc]
    exact (State.StoresPlainly.of_plainReg hpl hr).complete_stores hm hd hw (by simpa [Instr.wf, hsrc] using ⟨hoff, hv⟩)

end Sys2Proof.Machine
end

section
/-! SUPPORT. What follows every command leaves the state sound: it brings each hold clock to its present hold, each watermark to its
occupancy and SWC_HOLD to the hold stage, and no later stage undoes what an earlier one brought about (R65, R263, R287, R307). -/
namespace Sys2Proof.Machine

/-- A fold brings about what one of its steps brings about and every step keeps. -/
theorem foldl_establishes {σ α : Type} {P : σ → Prop} {f : σ → α → σ} {a : α} (ha : ∀ s, P (f s a)) :
    ∀ {l : List α}, a ∈ l → (∀ b ∈ l, ∀ s, P s → P (f s b)) → ∀ s, P (l.foldl f s)
  | b :: l, hm, hkeep, s => by
    have hrest : ∀ c ∈ l, ∀ t, P t → P (f t c) := fun c hc => hkeep c (List.mem_cons_of_mem _ hc)
    rcases List.mem_cons.mp hm with rfl | hm
    · exact List.foldlRecOn l f (ha s) fun t ht c hc => hrest c hc t ht
    · exact foldl_establishes ha hm hrest (f s b)

/-! ### Hold clocks (R307) -/

/-- A hold depends on the hold timers, the XOFF_IN levels and registers that nothing which follows a command changes. -/
theorem Settles.held {s t : State} (h : Settles s t) (n c : Nat) : t.held n c = s.held n c := by
  have hm : t.mac.holds = s.mac.holds := by rw [h.eq]
  have hp : t.pace = s.pace := by rw [h.eq]
  have hg : ∀ l : Loc, ¬ followReg l.off → t.get l = s.get l := fun l hl => by simp only [State.get, h.regs.1 l.off id hl]
  have hrx : t.get (R.MAC_PFC_MAP.RX n) = s.get (R.MAC_PFC_MAP.RX n) := hg _ (by simp only [R.MAC_PFC_MAP.RX]; omega)
  have hx : ∀ i, i < 8 → ∀ lo w, t.get ⟨0x600140 + 8 * i, lo, w⟩ = s.get ⟨0x600140 + 8 * i, lo, w⟩ :=
    fun i hi lo w => hg _ (by dsimp only; omega)
  have hpause : t.pauseHeld n c = s.pauseHeld n c := by simp only [State.pauseHeld, State.pauseRuns, hm, hrx]
  have hxoff : t.xoffHeld n c = s.xoffHeld n c := by
    rw [Bool.eq_iff_iff]
    simp only [State.xoffHeld, List.any_eq_true, List.mem_range]
    refine exists_congr fun i => and_congr_right fun hi => ?_
    simp only [State.bit, R.PACE_XOFF_IN.ENABLE, R.PACE_XOFF_IN.FIRST_PORT, R.PACE_XOFF_IN.LAST_PORT,
      R.PACE_XOFF_IN.CLASS_MASK, hx i hi, hp]
    rfl
  rw [State.held, hpause, hxoff, State.held]

/-- The hold clock of one port and class runs exactly while its hold is in force. -/
def State.clockAgrees (s : State) (n c : Nat) : Prop := SMap.find (fun _ => 0) s.mac.holdSince (8 * n + c) ≠ 0 ↔ s.held n c = true

theorem Settles.clockAgrees {s t : State} (h : Settles s t) (hs : t.mac.holdSince = s.mac.holdSince) {n c : Nat} (ha : s.clockAgrees n c) :
    t.clockAgrees n c := by
  rwa [State.clockAgrees, hs, h.held]

/-- A clock that does not agree with its hold starts or stops. -/
theorem State.holdSync_holdSince (s : State) (n c : Nat) : (s.holdSync n c).mac.holdSince =
    if (SMap.find (fun _ => 0) s.mac.holdSince (8 * n + c) ≠ 0 ↔ s.held n c = true) then s.mac.holdSince
    else s.mac.holdSince.put (fun _ => 0) (8 * n + c) (if s.held n c then s.ns + 1 else 0) := by
  unfold State.holdSync
  cases hheld : s.held n c <;> by_cases hsince : SMap.find (fun _ => 0) s.mac.holdSince (8 * n + c) = 0 <;> simp [hsince]

theorem State.holdSync_clockAgrees (s : State) (n c : Nat) : (s.holdSync n c).clockAgrees n c := by
  rw [State.clockAgrees, (settles_holdSync s n c).held, State.holdSync_holdSince]
  split
  · assumption
  · rw [SMap.find_put_same]
    split <;> simp_all

theorem State.holdSync_keeps_clockAgrees {s : State} {n c m d : Nat} (hc : c < 8) (hd : d < 8) (h : s.clockAgrees n c) :
    (s.holdSync m d).clockAgrees n c := by
  by_cases hk : 8 * n + c = 8 * m + d
  · obtain ⟨rfl, rfl⟩ : n = m ∧ c = d := by omega
    exact s.holdSync_clockAgrees n c
  · rw [State.clockAgrees, (settles_holdSync s m d).held, State.holdSync_holdSince]
    split
    · exact h
    · rwa [SMap.find_put_other _ _ _ _ _ hk]

/-- A port that the look at the holds passes over has neither a hold nor a clock that runs. -/
theorem State.clockAgrees_of_not_mem {s : State} {n c : Nat} (hn : n < 96) (hc : c < 8) (h : n ∉ s.holdPorts) : s.clockAgrees n c := by
  simp only [State.holdPorts, List.mem_append, List.mem_map, not_or, not_exists, not_and] at h
  obtain ⟨⟨hholds, hsince⟩, hx⟩ := h
  have hclock : SMap.find (fun _ => 0) s.mac.holdSince (8 * n + c) = 0 :=
    SMap.find_none _ _ _ fun e he hk => hsince e he (by omega)
  have hruns : ∀ p, p < 16 → s.pauseRuns n p = false := fun p hp => by
    have : SMap.find (fun _ => 0) s.mac.holds (16 * n + p) = 0 := SMap.find_none _ _ _ fun e he hk => hholds e he (by omega)
    simp [State.pauseRuns, this]
  have hpause : s.pauseHeld n c = false := by
    have hp : ∀ p, p < 8 → s.pauseRuns n p = false := fun p hp => hruns p (by omega)
    simp +contextual [State.pauseHeld, hruns 8 (by omega), hp]
  have hlow : ∀ i, s.pace.xoffIn.getD i false = false := by
    have hall : ∀ b ∈ s.pace.xoffIn, b = false := by
      by_contra hne
      simp_all
    intro i
    rw [List.getD_eq_getElem?_getD]
    cases hi : s.pace.xoffIn[i]? with
    | none => rfl
    | some b => exact hall b (List.mem_of_getElem? hi)
  have hxoff : s.xoffHeld n c = false := by simp only [State.xoffHeld, hlow, Bool.false_and, List.any_eq_false]; simp
  simp [State.clockAgrees, State.held, hclock, hpause, hxoff]

/-- The look at the eight classes of a port. -/
def State.holdPort (s : State) (m : Nat) : State := (List.range 8).foldl (fun u d => u.holdSync m d) s

theorem State.holdClocks_eq (s : State) : s.holdClocks = s.holdPorts.foldl State.holdPort s := rfl

theorem State.holdPort_keeps_clockAgrees {s : State} {n c : Nat} (m : Nat) (hc : c < 8) (h : s.clockAgrees n c) :
    (s.holdPort m).clockAgrees n c := by
  unfold State.holdPort
  exact List.foldlRecOn (motive := fun t : State => t.clockAgrees n c) _ _ h fun _ ht _ hd =>
    State.holdSync_keeps_clockAgrees hc (List.mem_range.mp hd) ht

theorem State.holdPort_clockAgrees (s : State) (n : Nat) {c : Nat} (hc : c < 8) : (s.holdPort n).clockAgrees n c := by
  unfold State.holdPort
  exact foldl_establishes (P := fun t => t.clockAgrees n c) (fun t => t.holdSync_clockAgrees n c) (List.mem_range.mpr hc)
    (fun _ hd _ => State.holdSync_keeps_clockAgrees hc (List.mem_range.mp hd)) s

/-- After the look at the holds every clock agrees. -/
theorem State.holdClocks_clockAgrees (s : State) {n c : Nat} (hn : n < 96) (hc : c < 8) : s.holdClocks.clockAgrees n c := by
  rw [State.holdClocks_eq]
  by_cases hm : n ∈ s.holdPorts
  · exact foldl_establishes (P := fun t => t.clockAgrees n c) (fun t => t.holdPort_clockAgrees n hc) hm
      (fun m _ _ => State.holdPort_keeps_clockAgrees m hc) s
  · exact List.foldlRecOn (motive := fun t : State => t.clockAgrees n c) _ _ (State.clockAgrees_of_not_mem hn hc hm)
      fun _ ht m _ => State.holdPort_keeps_clockAgrees m hc ht

/-! ### Watermarks (R65) -/

theorem Settles.buf {s t : State} (h : Settles s t) : t.buf = s.buf := by rw [h.eq]

/-- What a watermark measures stays: no account and no use of spill is written by what follows a command. -/
theorem Settles.occupancy {s t : State} (h : Settles s t) (n : Nat) : t.occupancy n = s.occupancy n := by
  have hg : ∀ l : Loc, ¬ followReg l.off → t.get l = s.get l := fun l hl => by simp only [State.get, h.regs.1 l.off id hl]
  unfold State.occupancy
  rw [h.buf, hg R.BUF_SPILL_USED.HBM_BLOCKS (by decide), hg R.BUF_SPILL_USED.FAR_EXTENTS (by decide)]
  split
  · exact hg _ (by simp only [R.BUF_ACCT.USED]; omega)
  · split
    · exact hg _ (by simp only [R.BUF_CLASS.SHARED_USED]; omega)
    · rfl

/-- So the next state of a watermark turns on its present state alone. -/
theorem Settles.wmNext {s t : State} (h : Settles s t) {n : Nat} (hn : wmListed n = true) : t.wmNext n =
    (s.get (R.BUF_WM.HIGH n) != 0 &&
      (decide (s.get (R.BUF_WM.HIGH n) ≤ s.occupancy n) || (t.wm n && decide (s.get (R.BUF_WM.LOW n) < s.occupancy n)))) := by
  obtain ⟨hhigh, hlow⟩ := h.regs.2 n hn id
  simp only [State.wmNext, hhigh, hlow, h.occupancy, State.wm]

/-- A watermark that has taken its next state stays there at the same occupancy. -/
theorem Settles.wmNext_of_wm {s t : State} (h : Settles s t) {n : Nat} (hn : wmListed n = true) (hw : t.wm n = s.wmNext n) :
    t.wmNext n = s.wmNext n := by
  rw [h.wmNext hn, hw, (Settles.refl s).wmNext hn]
  cases s.get (R.BUF_WM.HIGH n) != 0 <;> cases decide (s.get (R.BUF_WM.HIGH n) ≤ s.occupancy n) <;>
    cases decide (s.get (R.BUF_WM.LOW n) < s.occupancy n) <;> simp

/-- The first offset past a family of registers. -/
def dimsEnd : List (Nat × Nat) → Nat
  | [] => 1
  | (n, st) :: ds => st * (n - 1) + dimsEnd ds

theorem lt_dimsEnd : ∀ {ds : List (Nat × Nat)} {x : Nat}, dimsHit ds x = true → x < dimsEnd ds
  | [], x, h => by
    have : x = 0 := by simpa [dimsHit] using h
    simp [dimsEnd, this]
  | (n, st) :: ds, x, h => by
    obtain ⟨hq, hr⟩ : x / st < n ∧ dimsHit ds (x % st) = true := by simpa [dimsHit] using h
    calc x = st * (x / st) + x % st := (Nat.div_add_mod x st).symm
      _ < st * (n - 1) + dimsEnd ds := Nat.add_lt_add_of_le_of_lt (Nat.mul_le_mul_left _ (by omega)) (lt_dimsEnd hr)

/-- A watermark's register is 0 at reset. -/
theorem resetWord_wm {n : Nat} (hn : n < 1024) : resetWord (0x1B04000 + 8 * n) = 0 := by
  have hnone : resetTable.find? (fun r => decide (r.1 ≤ 0x1B04000 + 8 * n) && dimsHit r.2.1 (0x1B04000 + 8 * n - r.1)) = none := by
    have hout : ∀ r ∈ resetTable, r.1 + dimsEnd r.2.1 ≤ 0x1B04000 ∨ 0x1B06000 ≤ r.1 := by decide +kernel
    refine List.find?_eq_none.mpr fun r hr hhit => ?_
    simp only [Bool.and_eq_true, decide_eq_true_eq] at hhit
    have := lt_dimsEnd hhit.2
    have := hout r hr
    omega
  unfold resetWord
  iterate 4 rw [if_neg (by omega)]
  rw [hnone]

theorem State.wm_setState (s : State) {m n : Nat} (b : Bool) :
    (s.setBit (R.BUF_WM.STATE m) b).wm n = if n = m then b else s.wm n := by
  split
  · rename_i h
    exact h ▸ State.bit_setBit_same _ _ _ rfl (by simp [R.BUF_WM.STATE])
  · have hoff : (R.BUF_WM.STATE n).off ≠ (R.BUF_WM.STATE m).off := by simp only [R.BUF_WM.STATE]; omega
    simp only [State.wm, State.bit, State.setBit, State.get_set_of_off hoff]

/-- A listed watermark whose register nothing has written is unconfigured. -/
theorem State.wmNext_of_not_configured {s : State} {n : Nat} (hn : wmListed n = true) (hc : n ∉ s.configured) :
    s.wm n = false ∧ s.wmNext n = false := by
  have hlt := wmListed_lt hn
  have hword : s.word (0x1B04000 + 8 * n) = 0 := by
    refine (SMap.find_none _ _ _ fun e he hk => hc ?_).trans (resetWord_wm (by omega))
    refine List.mem_filter.mpr ⟨List.mem_map.mpr ⟨e, List.mem_filter.mpr ⟨he, ?_⟩, ?_⟩, hn⟩
    · simp only [decide_eq_true_eq]
      omega
    · omega
  constructor <;> simp [State.wm, State.wmNext, State.bit, State.get, R.BUF_WM.STATE, R.BUF_WM.HIGH, hword, bitsGet]

/-- Every listed watermark takes its next state. -/
theorem State.watermarks_wm (s : State) {n : Nat} (hn : wmListed n = true) : s.watermarks.wm n = s.wmNext n := by
  unfold State.watermarks
  by_cases hc : n ∈ s.configured
  · refine foldl_establishes (P := fun t => t.wm n = s.wmNext n) (fun t => ?_) hc (fun m _ t ht => ?_) s
    · rw [State.wm_setState, if_pos rfl]
    · rw [State.wm_setState]
      split
      · rename_i h
        rw [h]
      · exact ht
  · obtain ⟨hwm, hnext⟩ := State.wmNext_of_not_configured hn hc
    rw [hnext]
    refine List.foldlRecOn (motive := fun t : State => t.wm n = false) _ _ hwm fun t ht m hm => ?_
    have hne : n ≠ m := fun h => hc (h ▸ hm)
    rw [State.wm_setState, if_neg hne]
    exact ht

/-! ### The later stages -/

/-- `t` has the watermark registers and the hold clocks of `s`. -/
structure KeepsClocksAndWatermarks (s t : State) : Prop where
  since : t.mac.holdSince = s.mac.holdSince
  regs : ∀ off, 0x1B04000 ≤ off → off < 0x1B06000 → t.word off = s.word off

namespace KeepsClocksAndWatermarks

theorem refl (s : State) : KeepsClocksAndWatermarks s s := ⟨rfl, fun _ _ _ => rfl⟩

theorem trans {s t u : State} (h : KeepsClocksAndWatermarks s t) (g : KeepsClocksAndWatermarks t u) : KeepsClocksAndWatermarks s u :=
  ⟨g.since.trans h.since, fun o h1 h2 => (g.regs o h1 h2).trans (h.regs o h1 h2)⟩

theorem foldl {α : Type} {f : State → α → State} (hf : ∀ s a, KeepsClocksAndWatermarks s (f s a)) (l : List α) (s : State) :
    KeepsClocksAndWatermarks s (l.foldl f s) :=
  List.foldlRecOn (motive := KeepsClocksAndWatermarks s) _ _ (.refl s) fun _ ht a _ => ht.trans (hf _ a)

/-- A change that writes no register. -/
theorem of_regs {s t : State} (hs : t.mac.holdSince = s.mac.holdSince) (hr : t.regs = s.regs) : KeepsClocksAndWatermarks s t :=
  ⟨hs, fun o _ _ => by simp only [State.word, hr]⟩

/-- A write of a register outside the watermarks. -/
theorem of_setWord (s : State) {k : Nat} (v : Word) (hk : k < 0x1B04000 ∨ 0x1B06000 ≤ k) : KeepsClocksAndWatermarks s (s.setWord k v) :=
  ⟨rfl, fun _ _ _ => State.word_setWord_other _ _ (by omega)⟩

theorem of_countAt (s : State) (n j k x : Nat) : KeepsClocksAndWatermarks s (s.countAt (R.MAC_CNT.COUNT n j) k x) :=
  (of_setWord s _ (by simp only [R.MAC_CNT.COUNT]; omega)).trans (.of_regs rfl rfl)

theorem of_startSending (s : State) (n : Nat) (b : Bool) (len x : Nat) : KeepsClocksAndWatermarks s (s.startSending n b len x) := by
  unfold State.startSending
  dsimp only
  split
  · exact (of_countAt s n 15 1 x).trans (.of_regs rfl rfl)
  · exact .of_regs rfl rfl

theorem of_eligClocks (s : State) : KeepsClocksAndWatermarks s s.eligClocks := by
  refine foldl (fun t e => ?_) _ s
  unfold State.eligSync
  dsimp only
  split <;> split <;> exact .of_regs rfl rfl

theorem of_crossings (s : State) : KeepsClocksAndWatermarks s s.crossings := by
  refine foldl (fun t n => ?_) _ s
  unfold State.sendPause
  split
  · split <;> exact .of_regs rfl rfl
  · exact .refl t

theorem of_holdFragments (s : State) : KeepsClocksAndWatermarks s s.holdFragments := by
  refine foldl (fun t e => ?_) _ s
  split
  · unfold State.holdFragment
    split
    · split
      · exact (of_countAt t _ 15 1 _).trans (.of_regs rfl rfl)
      · exact .refl t
    · exact .refl t
  · exact .refl t

theorem of_emit (s : State) (e : Emit) : KeepsClocksAndWatermarks s (s.emit e) := .of_regs rfl rfl

theorem of_startControl (s : State) (n : Nat) : KeepsClocksAndWatermarks s (s.startControl n) := by
  unfold State.startControl
  split
  · exact .refl s
  · split
    · exact .refl s
    · rename_i f rest _ _
      exact (((of_emit s _).trans (of_countAt _ n 13 1 _)).trans (of_startSending _ n false (f.length + 4) s.ns)).trans (.of_regs rfl rfl)

theorem of_startControls (s : State) : KeepsClocksAndWatermarks s s.startControls := by
  refine foldl (fun t e => ?_) _ s
  split
  · exact of_startControl t _
  · exact .refl t

theorem of_resumePorts (s : State) : KeepsClocksAndWatermarks s s.resumePorts := by
  refine foldl (fun t e => ?_) _ s
  unfold State.resumePort
  split
  · exact .refl t
  · split
    · exact .refl t
    · split <;> exact .of_regs rfl rfl

theorem of_syncHold (s : State) : KeepsClocksAndWatermarks s s.syncHold := by
  unfold State.syncHold State.peak
  dsimp only
  split
  · exact (of_setWord s _ (.inr (by decide))).trans (of_setWord _ _ (.inr (by decide)))
  · exact of_setWord s _ (.inr (by decide))

end KeepsClocksAndWatermarks

/-- The stages after the watermarks. -/
def State.send (s : State) : State := s.holdFragments.startControls.resumePorts.syncHold.endFreed

theorem State.settle_eq (s : State) : s.settle = s.holdClocks.eligClocks.endTurns.crossings.watermarks.send := rfl

theorem KeepsClocksAndWatermarks.of_send (s : State) : KeepsClocksAndWatermarks s s.send :=
  ((((of_holdFragments s).trans (of_startControls _)).trans (of_resumePorts _)).trans (of_syncHold _)).trans (.of_regs rfl rfl)

theorem settles_send (s : State) : Settles s s.send :=
  ((((settles_holdFragments s).trans (settles_startControls _)).trans (settles_resumePorts _)).trans (settles_syncHold _)).trans
    (settles_endFreed _)

/-! ### The state after a command -/

theorem State.settle_watermarksAgree (s : State) : s.settle.watermarksAgree := by
  intro n hn
  have hlt := wmListed_lt hn
  rw [State.settle_eq]
  generalize s.holdClocks.eligClocks.endTurns.crossings = u
  have hset : Settles u u.watermarks.send := (settles_watermarks u).trans (settles_send _)
  have hword : u.watermarks.send.word (R.BUF_WM.STATE n).off = u.watermarks.word (R.BUF_WM.STATE n).off :=
    (KeepsClocksAndWatermarks.of_send _).regs _ (by simp only [R.BUF_WM.STATE]; omega) (by simp only [R.BUF_WM.STATE]; omega)
  have hwm : u.watermarks.send.wm n = u.wmNext n := by
    rw [← u.watermarks_wm hn]
    simp only [State.wm, State.bit, State.get, hword]
  rw [hwm, hset.wmNext_of_wm hn hwm]

theorem State.watermarks_holdSince (s : State) : s.watermarks.mac.holdSince = s.mac.holdSince := by
  unfold State.watermarks
  exact List.foldlRecOn (motive := fun t : State => t.mac.holdSince = s.mac.holdSince) _ _ rfl fun _ ht _ _ => ht

theorem State.settle_holdClocksAgree (s : State) : s.settle.holdClocksAgree := by
  intro n c hn hc
  have hs : s.settle.mac.holdSince = s.holdClocks.mac.holdSince := by
    rw [State.settle_eq, (KeepsClocksAndWatermarks.of_send _).since, State.watermarks_holdSince,
      (KeepsClocksAndWatermarks.of_crossings _).since]
    exact (KeepsClocksAndWatermarks.of_eligClocks _).since
  have hafter : Settles s.holdClocks s.settle :=
    have helig : Settles s.holdClocks s.holdClocks.eligClocks := Settles.foldl _ (fun t e => settles_eligSync t (Prod.fst e)) _ _
    (((helig.trans (settles_endTurns _)).trans (settles_crossings _)).trans (settles_watermarks _)).trans (settles_send _)
  have := s.holdClocks_clockAgrees hn hc
  rwa [State.clockAgrees, ← hs, ← hafter.held] at this

theorem State.syncHold_heldCuts (s : State) : s.syncHold.heldCuts = s.heldCuts := by
  simp [State.syncHold, State.heldCuts]

theorem State.syncHold_holdStageAgrees (s : State) : s.syncHold.holdStageAgrees := by
  rw [State.holdStageAgrees, State.syncHold_heldCuts]
  have hnow : (s.set R.SWC_HOLD.NOW s.heldCuts).get R.SWC_HOLD.NOW = s.heldCuts % 2 ^ R.SWC_HOLD.NOW.w :=
    State.get_set_same s _ _ (by decide)
  show ((s.set R.SWC_HOLD.NOW s.heldCuts).peak R.SWC_HOLD.PEAK s.heldCuts).get R.SWC_HOLD.NOW = _
  unfold State.peak
  split
  · rw [State.get_set_of_bits (by decide) (by decide), hnow]
  · exact hnow

theorem State.settle_holdStageAgrees (s : State) : s.settle.holdStageAgrees := by
  unfold State.settle
  generalize s.holdClocks.eligClocks.endTurns.crossings.watermarks.holdFragments.startControls.resumePorts = u
  exact u.syncHold_holdStageAgrees

/-- What follows a command leaves the state sound. -/
theorem State.settle_sound (s : State) : s.settle.sound :=
  ⟨s.settle_watermarksAgree, s.settle_holdClocksAgree, s.settle_holdStageAgrees, s.settle_freed⟩

/-- Whatever a command or a cycle does, the state after it is settled. -/
theorem step_settles (s : State) : ∃ u : State, step s = .next u.settle := by
  unfold step
  split
  · exact ⟨_, rfl⟩
  · obtain ⟨t, ht⟩ := exec_eq_complete _ _
    exact ⟨_, ht⟩

/-- Settles O57: a step ends with what follows every command, whose result is sound whatever it starts from. -/
theorem everyStepLeavesTheStateSound : Obligations.EveryStepLeavesTheStateSound := by
  intro s t h
  obtain ⟨u, hu⟩ := step_settles s
  obtain rfl : u.settle = t := by simpa [hu] using h
  exact u.settle_sound

end Sys2Proof.Machine
end

section
/-! SUPPORT. Writes that a rule beside the ranges of single fields can reject, and partial words: the fields that a rejected write keeps,
and what a logged write event leaves behind (R66, R77, R78, R572, R573). -/
namespace Sys2Proof.Machine

/-! ### What stands at an offset (R575) -/

/-- The family has a register at the offset. -/
def RegDef.standsAt (off : Nat) (r : RegDef) : Bool := decide (r.base ≤ off) && dimsHit r.dims (off - r.base)

/-- The family can have a register in the stretch. -/
def RegDef.reaches (lo hi : Nat) (r : RegDef) : Bool := decide (r.base < hi) && decide (lo < r.base + dimsEnd r.dims)

theorem regAt_eq (off : Nat) : regAt off = regTable.find? (RegDef.standsAt off) := rfl

theorem RegDef.reaches_of_standsAt {lo hi off : Nat} (hlo : lo ≤ off) (hhi : off < hi) {r : RegDef} (h : r.standsAt off = true) :
    r.reaches lo hi = true := by
  simp only [RegDef.standsAt, RegDef.reaches, Bool.and_eq_true, decide_eq_true_eq] at h ⊢
  have := lt_dimsEnd h.2
  omega

/-- The one family that reaches into a stretch of offsets gives every register there. -/
theorem regAt_of_stretch {lo hi : Nat} {d : RegDef} (hone : regTable.filter (RegDef.reaches lo hi) = [d]) {off : Nat} (hlo : lo ≤ off)
    (hhi : off < hi) (hd : d.standsAt off = true) : regAt off = some d := by
  have hboth : ∀ r : RegDef, r.standsAt off = decide (r.reaches lo hi = true ∧ r.standsAt off = true) := fun r => by
    rw [Bool.eq_iff_iff]
    simpa using fun h => RegDef.reaches_of_standsAt hlo hhi h
  rw [regAt_eq, funext hboth, ← List.find?_filter, hone]
  simp [hd]

/-! PACE_TARGET, PACE_XOFF_IN and the watermarks as the register table has them. -/

def paceTargetReg : RegDef :=
  ⟨0x600020, [], [⟨32, 16, some .rw, 0, 65535, true⟩, ⟨16, 16, some .rw, 0, 65535, true⟩, ⟨0, 16, some .rw, 0, 65535, true⟩]⟩

def paceXoffInReg : RegDef :=
  ⟨0x600140, [(8, 0x8)], 
    [⟨31, 1, some .rw, 0, 1, true⟩, ⟨16, 8, some .rw, 0, 255, true⟩, ⟨8, 7, some .rw, 0, 95, true⟩, ⟨0, 7, some .rw, 0, 95, true⟩]⟩

def bufWmReg : RegDef :=
  ⟨0x1B04000, [(1024, 0x8)], [⟨28, 28, some .rw, 0, 268435455, true⟩, ⟨0, 28, some .rw, 0, 268435455, true⟩]⟩

theorem regAt_paceTarget : regAt 0x600020 = some paceTargetReg := by decide +kernel

theorem regAt_paceXoffIn {i : Nat} (hi : i < 8) : regAt (0x600140 + 8 * i) = some paceXoffInReg :=
  regAt_of_stretch (lo := 0x600140) (hi := 0x600180) (by decide +kernel) (by omega) (by omega)
    (by simp [RegDef.standsAt, paceXoffInReg, dimsHit, hi])

theorem regAt_bufWm {n : Nat} (hn : n < 1024) : regAt (0x1B04000 + 8 * n) = some bufWmReg :=
  regAt_of_stretch (lo := 0x1B04000) (hi := 0x1B06000) (by decide +kernel) (by omega) (by omega)
    (by simp [RegDef.standsAt, bufWmReg, dimsHit, hn])

/-! ### The fields of a stored word (R16, R18) -/

/-- Storing one field leaves the bits of another. -/
theorem bitsGet_storeField_disjoint {old v : Nat} (acc : Nat × Bool) {g : WField} {lo w : Nat} (h : g.lo + g.w ≤ lo ∨ lo + w ≤ g.lo) :
    bitsGet (storeField old v acc g).1 lo w = bitsGet acc.1 lo w := by
  unfold storeField
  dsimp only
  split
  · split
    · exact bitsGet_bitsSet_of_disjoint h
    · rfl
  · exact bitsGet_bitsSet_of_disjoint h
  · rfl

/-- A writable field takes a value that is no reserved encoding of it. -/
theorem bitsGet_storeFields_stored {fs : List WField} {f : WField} (hf : f ∈ fs) (ha : f.acc = some .rw) {old v : Nat}
    (hx : f.least ≤ bitsGet v f.lo f.w ∧ bitsGet v f.lo f.w ≤ f.most)
    (hd : ∀ g ∈ fs, g = f ∨ g.lo + g.w ≤ f.lo ∨ f.lo + f.w ≤ g.lo) :
    bitsGet (storeFields old v fs).1 f.lo f.w = bitsGet v f.lo f.w := by
  have hself : ∀ acc, bitsGet (storeField old v acc f).1 f.lo f.w = bitsGet v f.lo f.w := fun acc => by
    simp only [storeField, ha, if_pos hx, bitsGet_bitsSet_same]
    exact Nat.mod_eq_of_lt (bitsGet_lt ..)
  refine foldl_establishes (P := fun acc : Nat × Bool => bitsGet acc.1 f.lo f.w = bitsGet v f.lo f.w) hself hf (fun g hg acc hacc => ?_) _
  rcases hd g hg with rfl | hdis
  · exact hself acc
  · rw [bitsGet_storeField_disjoint acc hdis, hacc]

/-- Where the written word holds a field's old bits, the field keeps them. -/
theorem bitsGet_storeFields_kept {fs : List WField} {lo w old v : Nat} (hv : bitsGet v lo w = bitsGet old lo w)
    (hd : ∀ g ∈ fs, (g.lo = lo ∧ g.w = w ∧ g.acc = some .rw) ∨ g.lo + g.w ≤ lo ∨ lo + w ≤ g.lo) :
    bitsGet (storeFields old v fs).1 lo w = bitsGet old lo w := by
  refine List.foldlRecOn fs (storeField old v) (motive := fun acc : Nat × Bool => bitsGet acc.1 lo w = bitsGet old lo w) rfl
    fun acc hacc g hg => ?_
  rcases hd g hg with ⟨rfl, rfl, ha⟩ | hdis
  · simp only [storeField, ha]
    split
    · rw [bitsGet_bitsSet_same, hv, Nat.mod_eq_of_lt (bitsGet_lt ..)]
    · exact hacc
  · rw [bitsGet_storeField_disjoint acc hdis, hacc]

/-- A field that a rejected value leaves holds its old bits in the word that is stored. -/
theorem bitsGet_keepFields {fs : List (Nat × Nat)} {f : Nat × Nat} (hf : f ∈ fs) {old v : Nat}
    (hd : ∀ g ∈ fs, g = f ∨ g.1 + g.2 ≤ f.1 ∨ f.1 + f.2 ≤ g.1) : bitsGet (keepFields old v fs) f.1 f.2 = bitsGet old f.1 f.2 := by
  have hself : ∀ x, bitsGet (bitsSet x f.1 f.2 (bitsGet old f.1 f.2)) f.1 f.2 = bitsGet old f.1 f.2 := fun x => by
    rw [bitsGet_bitsSet_same, Nat.mod_eq_of_lt (bitsGet_lt ..)]
  unfold keepFields
  refine foldl_establishes (a := f) (P := fun x : Nat => bitsGet x f.1 f.2 = bitsGet old f.1 f.2) hself hf (fun g hg x hx => ?_) _
  rcases hd g hg with rfl | hdis
  · exact hself x
  · rw [bitsGet_bitsSet_of_disjoint hdis, hx]

theorem State.get_setWord_ofNat (s : State) (off n : Nat) {lo w : Nat} (h : lo + w ≤ 64) :
    (s.setWord off (BitVec.ofNat 64 n)).get ⟨off, lo, w⟩ = bitsGet n lo w := by
  simp only [State.get, State.word_setWord_same, BitVec.toNat_ofNat, bitsGet_mod n 64 lo w h]

/-! ### The registers whose value rules reject (R66, R77, R78) -/

/-- PACE_TARGET, PACE_XOFF_IN and the watermarks. -/
abbrev ruledReg (off : Nat) : Prop :=
  off = 0x600020 ∨ (0x600140 ≤ off ∧ off < 0x600180) ∨ (0x1B04000 ≤ off ∧ off < 0x1B06000)

/-- Every field is read and written by software, lies within the word and overlaps no other. -/
abbrev RegDef.apart (d : RegDef) : Prop :=
  (d.fields.any fun f => f.acc.isSome) = true ∧ (∀ f ∈ d.fields, f.acc = some .rw ∧ f.lo + f.w ≤ 64) ∧
    ∀ f ∈ d.fields, ∀ g ∈ d.fields, g = f ∨ g.lo + g.w ≤ f.lo ∨ f.lo + f.w ≤ g.lo

/-- The register at `off` is one of them, with the fields of `d`. -/
structure Ruled (off : Nat) (d : RegDef) : Prop where
  here : regAt off = some d
  ruled : ruledReg off
  apart : d.apart

theorem ruled_paceTarget : Ruled 0x600020 paceTargetReg := ⟨regAt_paceTarget, .inl rfl, by decide⟩

theorem ruled_paceXoffIn {i : Nat} (hi : i < 8) : Ruled (0x600140 + 8 * i) paceXoffInReg := ⟨regAt_paceXoffIn hi, by omega, by decide⟩

theorem ruled_bufWm {n : Nat} (hn : n < 1024) : Ruled (0x1B04000 + 8 * n) bufWmReg := ⟨regAt_bufWm hn, by omega, by decide⟩

/-- Their write is no operation and nothing follows the stored word: it is stored, and logged where a value was rejected. -/
theorem Ruled.bar0 {off : Nat} {d : RegDef} (h : Ruled off d) {s : State} {src : HostSrc} (hm : s.manages src) {v : Nat} {r w : Nat × Bool}
    (hv : s.valueRules off v = r) (hf : storeFields (s.word off).toNat r.1 d.fields = w) :
    s.bar0 src off v = if r.2 || w.2 then (s.setWord off (BitVec.ofNat 64 w.1)).regLog 1 0 src off v
      else s.setWord off (BitVec.ofNat 64 w.1) := by
  obtain ⟨hmode, hreach, hman, -⟩ := hm
  obtain ⟨hd, hr, hw, -⟩ := h
  have hserve : s.accessMode = .serve := by simp [State.accessMode, hmode]
  have hhold : holdBit off = none := holdBit_eq_none (by omega)
  have hwritten : ∀ t : State, t.written off (s.word off).toNat v = t := fun t => by
    unfold State.written
    iterate 2 rw [if_neg (by omega)]
    rw [if_neg (by simp [macOff_eq_false (off := off) (rel := 0x30) (by omega)])]
    iterate 3 rw [if_neg (by omega)]
    rw [hhold]
  have hstore : s.storeWord src off v d.fields = if r.2 || w.2 then (s.setWord off (BitVec.ofNat 64 w.1)).regLog 1 0 src off v
      else s.setWord off (BitVec.ofNat 64 w.1) := by
    have hne : off ≠ 0x201038 := by omega
    simp [State.storeWord, hv, hf, hne, hwritten]
  have hreg : s.regWord src off v d.fields = s.storeWord src off v d.fields := by
    unfold State.regWord
    iterate 7 rw [if_neg (by omega)]
    rw [hhold]
  simp only [State.bar0, State.bar0Word, hreach, hman, hserve, hd, hw]
  simpa [hreg] using hstore

/-! ### What a logged write event leaves (R573) -/

/-- The capture of a write event. -/
def State.capture (s : State) (kind bar : Nat) (src : HostSrc) (off v : Nat) : State :=
  ((((((s.set R.TOP_REGLOG.VALID 1).set R.TOP_REGLOG.KIND kind).set R.TOP_REGLOG.BAR bar).set R.TOP_REGLOG.EP src.ep).set
    R.TOP_REGLOG.FUNC src.func).set R.TOP_REGLOG.OFFSET off).setWord R.TOP_REGLOG_VAL.VALUE.off (BitVec.ofNat 64 v)

/-- The state in which a logged write event raises source 7. -/
def State.regLogged (s : State) (kind bar : Nat) (src : HostSrc) (off v : Nat) : State :=
  if (s.count R.TOP_REGLOG_CNT.COUNT 1).bit R.TOP_REGLOG.VALID then s.count R.TOP_REGLOG_CNT.COUNT 1
  else (s.count R.TOP_REGLOG_CNT.COUNT 1).capture kind bar src off v

theorem State.regLog_eq (s : State) (kind bar : Nat) (src : HostSrc) (off v : Nat) :
    s.regLog kind bar src off v = (s.regLogged kind bar src off v).raise 7 0 := rfl

theorem State.capture_get (s : State) (kind bar : Nat) (src : HostSrc) (off v : Nat) :
    (s.capture kind bar src off v).get R.TOP_REGLOG.VALID = 1 ∧ (s.capture kind bar src off v).get R.TOP_REGLOG.KIND = kind % 8 ∧
      (s.capture kind bar src off v).get R.TOP_REGLOG.BAR = bar % 4 ∧ (s.capture kind bar src off v).get R.TOP_REGLOG.OFFSET = off % 2 ^ 26 := by
  unfold State.capture
  simp (disch := decide) only [State.get_setWord_of_off, State.get_set_of_bits, State.get_set_same]
  exact ⟨rfl, rfl, rfl, rfl⟩

theorem State.count_mode (s : State) (l : Loc) (k : Nat) : (s.count l k).mode = s.mode := rfl

theorem State.regLogged_mode (s : State) (kind bar : Nat) (src : HostSrc) (off v : Nat) : (s.regLogged kind bar src off v).mode = s.mode := by
  unfold State.regLogged State.capture
  split <;> simp only [State.setWord_mode, State.set_mode, State.count_mode]

/-- A write event that a management function meets is counted, latches source 7, and is captured where no capture is held. -/
theorem State.logged_regLog {s x : State} (hmode : x.mode = .serve) (h20 : x.word 0x20 = s.word 0x20) (h30 : x.word 0x30 = s.word 0x30)
    {kind bar off : Nat} (hk : kind < 8) (hb : bar < 4) (ho : off < 2 ^ 26) (src : HostSrc) (v : Nat) :
    s.logged (x.regLog kind bar src off v).settle kind bar off := by
  have hfollow : ∀ l : Loc, ¬ followReg l.off → (x.regLog kind bar src off v).settle.get l = (x.regLog kind bar src off v).get l :=
    fun l hl => State.settle_get _ hl
  refine ⟨?count, ?latch, fun hvalid => ?capture⟩
  case count =>
    rw [hfollow _ (by decide), State.regLog_count]
    simp only [State.get, R.TOP_REGLOG_CNT.COUNT, h30]
  case latch =>
    rw [State.settle_bit _ (by decide), State.regLog_eq]
    exact State.raise_latches _ 7 0 (by decide) (by simp [State.coreUp, State.regLogged_mode, hmode])
  case capture =>
    have hfree : (x.count R.TOP_REGLOG_CNT.COUNT 1).bit R.TOP_REGLOG.VALID = false := by
      have hword : (x.count R.TOP_REGLOG_CNT.COUNT 1).word R.TOP_REGLOG.VALID.off = s.word R.TOP_REGLOG.VALID.off :=
        (State.count_word_other x (by decide)).trans h20
      rw [← hvalid]
      simp only [State.bit, State.get, hword]
    have hget : ∀ l : Loc, ¬ followReg l.off → ¬ raiseReg l.off → (x.regLog kind bar src off v).settle.get l =
        ((x.count R.TOP_REGLOG_CNT.COUNT 1).capture kind bar src off v).get l := fun l hl hr => by
      rw [hfollow l hl, State.regLog_eq, State.raise_get _ _ _ hr, State.regLogged, if_neg (by simp [hfree])]
    obtain ⟨hv, hkind, hbar, hoff⟩ := (x.count R.TOP_REGLOG_CNT.COUNT 1).capture_get kind bar src off v
    rw [State.bit, hget _ (by decide) (by decide), hget _ (by decide) (by decide), hget _ (by decide) (by decide),
      hget _ (by decide) (by decide), hv, hkind, hbar, hoff]
    exact ⟨rfl, Nat.mod_eq_of_lt hk, Nat.mod_eq_of_lt hb, Nat.mod_eq_of_lt ho⟩

/-! ### Accepted and rejected values -/

section
variable {s : State} {src : HostSrc} {off v : Nat} {d : RegDef} (h : Ruled off d) (hm : s.manages src)
include h hm

/-- A value that no rule rejects is stored. -/
theorem Ruled.bar0_accepted (hv : s.valueRules off v = (v, false)) (ht : ∀ f ∈ d.fields, f.takesAll = true) :
    s.bar0 src off v = s.setWord off (BitVec.ofNat 64 (storeFields (s.word off).toNat v d.fields).1) := by
  rw [h.bar0 hm hv rfl, storeFields_takesAll ht]
  rfl

/-- A rejected value is logged, and what is stored keeps the fields of the rule. -/
theorem Ruled.bar0_rejected {fs : List (Nat × Nat)} (hv : s.valueRules off v = (keepFields (s.word off).toNat v fs, true)) :
    s.bar0 src off v = (s.setWord off (BitVec.ofNat 64
      (storeFields (s.word off).toNat (keepFields (s.word off).toNat v fs) d.fields).1)).regLog 1 0 src off v := by
  rw [h.bar0 hm hv rfl]
  rfl

/-- An accepted value leaves each field as written. -/
theorem Ruled.get_accepted (hv : s.valueRules off v = (v, false)) (ht : ∀ f ∈ d.fields, f.takesAll = true) {f : WField}
    (hf : f ∈ d.fields) : (s.bar0 src off v).get ⟨off, f.lo, f.w⟩ = bitsGet v f.lo f.w := by
  obtain ⟨-, hfields, hdis⟩ := h.apart
  obtain ⟨ha, h64⟩ := hfields f hf
  obtain ⟨hleast, hmost⟩ : f.least = 0 ∧ f.most = 2 ^ f.w - 1 := by simpa [WField.takesAll, ha] using ht f hf
  have hlt := bitsGet_lt v f.lo f.w
  rw [h.bar0_accepted hm hv ht, State.get_setWord_ofNat _ _ _ h64]
  exact bitsGet_storeFields_stored hf ha (by omega) (hdis f hf)

/-- An accepted value changes its register alone. -/
theorem Ruled.kept_accepted (hv : s.valueRules off v = (v, false)) (ht : ∀ f ∈ d.fields, f.takesAll = true) :
    s.kept (s.bar0 src off v).settle [] fun k => k = off := by
  rw [h.bar0_accepted hm hv ht]
  exact State.kept_of (State.settle_still _) rfl rfl (fun k hk => State.word_setWord_other s _ hk) (List.append_nil _).symm

/-- A rejected value leaves each field of its rule as it was. -/
theorem Ruled.get_rejected {fs : List (Nat × Nat)} (hv : s.valueRules off v = (keepFields (s.word off).toNat v fs, true))
    (hsub : fs ⊆ d.fields.map fun g => (g.lo, g.w)) {f : Nat × Nat} (hf : f ∈ fs) :
    (s.bar0 src off v).get ⟨off, f.1, f.2⟩ = s.get ⟨off, f.1, f.2⟩ := by
  obtain ⟨-, hfields, hdis⟩ := h.apart
  obtain ⟨e, he, rfl⟩ := List.mem_map.mp (hsub hf)
  have hlog : ¬ regLogReg off := by
    have := h.ruled
    simp only [regLogReg, raiseReg]
    omega
  have hreg : ∀ x : State, (x.regLog 1 0 src off v).get ⟨off, e.lo, e.w⟩ = x.get ⟨off, e.lo, e.w⟩ := fun x => by
    simp only [State.get, State.regLog_word_other x 1 0 src off v hlog]
  obtain ⟨ha, h64⟩ := hfields e he
  rw [h.bar0_rejected hm hv, hreg, State.get_setWord_ofNat _ _ _ h64]
  refine bitsGet_storeFields_kept (bitsGet_keepFields hf fun g hg => ?_) fun g hg => ?_
  · obtain ⟨k, hk, rfl⟩ := List.mem_map.mp (hsub hg)
    exact (hdis e he k hk).imp_left (congrArg fun g : WField => (g.lo, g.w))
  · rcases hdis e he g hg with rfl | hge
    · exact .inl ⟨rfl, rfl, ha⟩
    · exact .inr hge

/-- A rejected value is logged. -/
theorem Ruled.logged_rejected {fs : List (Nat × Nat)} (hv : s.valueRules off v = (keepFields (s.word off).toNat v fs, true)) :
    s.logged (s.bar0 src off v).settle 1 0 off := by
  have hr := h.ruled
  have hother : ∀ w k, k ≠ off → (s.setWord off w).word k = s.word k := fun w k hk => State.word_setWord_other s w hk
  rw [h.bar0_rejected hm hv]
  exact State.logged_regLog (x := s.setWord off _) hm.1 (hother _ _ (by omega)) (hother _ _ (by omega)) (by decide)
    (by decide) (by omega) src v

end

/-! ### PACE_TARGET (R77) -/

theorem exec_paceTargetWrite (src : HostSrc) (v : Nat) (s : State) :
    exec (.paceTargetWrite src v) s = complete (Instr.wf (.paceTargetWrite src v)) s (s.bar0 src 0x600020 v) := rfl

/-- The two conditions of R77 on a written word. -/
abbrev State.takesTarget (s : State) (v : Nat) : Prop :=
  s.get R.PACE_FLOOR.FLOOR < bitsGet v 32 16 ∧ bitsGet v 32 16 + bitsGet v 0 16 < bitsGet v 16 16 ∧ bitsGet v 16 16 + bitsGet v 0 16 ≤ 2600

theorem State.valueRules_paceTarget (s : State) (v : Nat) : s.valueRules 0x600020 v =
    if s.takesTarget v then (v, false) else (keepFields (s.word 0x600020).toNat v [(0, 16), (16, 16), (32, 16)], true) := by
  unfold State.valueRules
  dsimp only
  iterate 2 rw [if_neg (by omega)]
  rw [if_pos rfl]
  by_cases h : s.takesTarget v <;> simp [rejectIf, h]

/-- Settles O4: the two conditions of R77 decide whether the word is stored, and of a rejected one no field is. -/
theorem paceTargetWrite : Obligations.PaceTargetWrite := by
  intro s src v hm hv
  have hwf : Instr.wf (.paceTargetWrite src v) = true := by simpa [Instr.wf, hm.2.2.2] using hv
  have hnext := (exec_paceTargetWrite src v s).trans (complete_of hwf _ _)
  have hsettle : ∀ lo, (s.bar0 src 0x600020 v).settle.get ⟨0x600020, lo, 16⟩ = (s.bar0 src 0x600020 v).get ⟨0x600020, lo, 16⟩ :=
    fun lo => State.settle_get _ (by dsimp only; decide)
  constructor
  · intro hgood
    have hrule := (s.valueRules_paceTarget v).trans (if_pos hgood)
    have htakes : ∀ f ∈ paceTargetReg.fields, f.takesAll = true := by decide
    have hfield : ∀ lo, (⟨lo, 16, some .rw, 0, 65535, true⟩ : WField) ∈ paceTargetReg.fields →
        (s.bar0 src 0x600020 v).settle.get ⟨0x600020, lo, 16⟩ = bitsGet v lo 16 :=
      fun lo hlo => (hsettle lo).trans (ruled_paceTarget.get_accepted hm hrule htakes hlo)
    exact ⟨_, hnext, hfield 32 (by decide), hfield 16 (by decide), hfield 0 (by decide), ruled_paceTarget.kept_accepted hm hrule htakes⟩
  · intro hbad
    have hrule := (s.valueRules_paceTarget v).trans (if_neg hbad)
    have hfield : ∀ lo, (lo, 16) ∈ [(0, 16), (16, 16), (32, 16)] →
        (s.bar0 src 0x600020 v).settle.get ⟨0x600020, lo, 16⟩ = s.get ⟨0x600020, lo, 16⟩ :=
      fun lo hlo => (hsettle lo).trans (ruled_paceTarget.get_rejected hm hrule (by decide) hlo)
    exact ⟨_, hnext, hfield 32 (by decide), hfield 16 (by decide), hfield 0 (by decide), ruled_paceTarget.logged_rejected hm hrule⟩

/-! ### Watermarks (R66) -/

theorem exec_bufWmWrite (src : HostSrc) (n v : Nat) (s : State) :
    exec (.bufWmWrite src n v) s = complete (Instr.wf (.bufWmWrite src n v)) s (s.bar0 src (0x1B04000 + 8 * n) v) := rfl

theorem State.valueRules_bufWm (s : State) {n : Nat} (hn : n < 1024) (v : Nat) : s.valueRules (0x1B04000 + 8 * n) v =
    if 0 < bitsGet v 28 28 ∧ bitsGet v 28 28 ≤ bitsGet v 0 28 then
      (keepFields (s.word (0x1B04000 + 8 * n)).toNat v [(28, 28), (0, 28)], true)
    else (v, false) := by
  unfold State.valueRules
  dsimp only
  iterate 6 rw [if_neg (by omega)]
  rw [if_pos (by omega)]
  by_cases h : 0 < bitsGet v 28 28 ∧ bitsGet v 28 28 ≤ bitsGet v 0 28 <;> simp [rejectIf, R.BUF_WM.HIGH, R.BUF_WM.LOW, h]

/-- Settles O5: thresholds are stored or kept as R66 says, and a watermark without a HIGH threshold settles as not asserted. -/
theorem watermarkWrite : Obligations.WatermarkWrite := by
  intro s src n v hm hn hv
  have hlt := wmListed_lt hn
  have hreg := ruled_bufWm (n := n) (by omega)
  have hwf : Instr.wf (.bufWmWrite src n v) = true := by simpa [Instr.wf, hm.2.2.2] using ⟨by omega, hv⟩
  have hnext := (exec_bufWmWrite src n v s).trans (complete_of hwf _ _)
  obtain ⟨hhigh, hlow⟩ := (settles (s.bar0 src (0x1B04000 + 8 * n) v)).regs.2 n hn id
  constructor
  · intro hgood
    have hrule := (s.valueRules_bufWm (n := n) (by omega) v).trans (if_neg (by omega))
    have htakes : ∀ f ∈ bufWmReg.fields, f.takesAll = true := by decide
    have hfield : ∀ lo, (⟨lo, 28, some .rw, 0, 268435455, true⟩ : WField) ∈ bufWmReg.fields →
        (s.bar0 src (0x1B04000 + 8 * n) v).get ⟨0x1B04000 + 8 * n, lo, 28⟩ = bitsGet v lo 28 :=
      fun lo hlo => hreg.get_accepted hm hrule htakes hlo
    have hset := hhigh.trans (hfield 28 (by decide))
    refine ⟨_, hnext, hset, hlow.trans (hfield 0 (by decide)), fun hzero => ?_, hreg.kept_accepted hm hrule htakes⟩
    rw [State.settle_watermarksAgree _ n hn, State.wmNext, hset, hzero]
    rfl
  · intro hbad
    have hrule := (s.valueRules_bufWm (n := n) (by omega) v).trans (if_pos hbad)
    have hfield : ∀ lo, (lo, 28) ∈ [(28, 28), (0, 28)] →
        (s.bar0 src (0x1B04000 + 8 * n) v).get ⟨0x1B04000 + 8 * n, lo, 28⟩ = s.get ⟨0x1B04000 + 8 * n, lo, 28⟩ :=
      fun lo hlo => hreg.get_rejected hm hrule (by decide) hlo
    exact ⟨_, hnext, hhigh.trans (hfield 28 (by decide)), hlow.trans (hfield 0 (by decide)), hreg.logged_rejected hm hrule⟩

/-! ### PACE_XOFF_IN (R78) -/

theorem exec_paceXoffInWrite (src : HostSrc) (i v : Nat) (s : State) :
    exec (.paceXoffInWrite src i v) s = complete (Instr.wf (.paceXoffInWrite src i v)) s (s.bar0 src (0x600140 + 8 * i) v) := rfl

theorem State.valueRules_xoffIn_rejected (s : State) {i v : Nat} (hi : i < 8)
    (hbad : 95 < bitsGet v 0 7 ∨ 95 < bitsGet v 8 7 ∨ bitsGet v 8 7 < bitsGet v 0 7) :
    s.valueRules (0x600140 + 8 * i) v = (keepFields (s.word (0x600140 + 8 * i)).toNat v [(0, 7), (8, 7)], true) := by
  unfold State.valueRules
  dsimp only
  iterate 5 rw [if_neg (by omega)]
  rw [if_pos (by omega)]
  simp [rejectIf, hbad, or_assoc]

/-- Ports out of range or order leave their fields and are logged (R78). -/
theorem paceXoffInWrite_rejected {s : State} {src : HostSrc} {i v : Nat} (hm : s.manages src) (hi : i < 8) (hv : v < 2 ^ 64)
    (hbad : 95 < bitsGet v 0 7 ∨ 95 < bitsGet v 8 7 ∨ bitsGet v 8 7 < bitsGet v 0 7) :
    ∃ t, exec (.paceXoffInWrite src i v) s = .next t ∧ t.get (R.PACE_XOFF_IN.FIRST_PORT i) = s.get (R.PACE_XOFF_IN.FIRST_PORT i) ∧
      t.get (R.PACE_XOFF_IN.LAST_PORT i) = s.get (R.PACE_XOFF_IN.LAST_PORT i) ∧ s.logged t 1 0 (0x600140 + 8 * i) := by
  have hreg := ruled_paceXoffIn hi
  have hwf : Instr.wf (.paceXoffInWrite src i v) = true := by simpa [Instr.wf, hm.2.2.2, hi] using hv
  have hrule := s.valueRules_xoffIn_rejected hi hbad
  have hfield : ∀ lo, (lo, 7) ∈ [(0, 7), (8, 7)] →
      (s.bar0 src (0x600140 + 8 * i) v).settle.get ⟨0x600140 + 8 * i, lo, 7⟩ = s.get ⟨0x600140 + 8 * i, lo, 7⟩ :=
    fun lo hlo => (State.settle_get _ (by dsimp only; omega)).trans (hreg.get_rejected hm hrule (by decide) hlo)
  exact ⟨_, (exec_paceXoffInWrite src i v s).trans (complete_of hwf _ _), hfield 0 (by decide), hfield 8 (by decide),
    hreg.logged_rejected hm hrule⟩

/-! ### Partial words (R572) -/

/-- The registers of `t` are those of `s` outside `but`. -/
def State.wordsBut (but : Nat → Prop) (s t : State) : Prop := ∀ k, ¬ but k → t.word k = s.word k

section
variable {but : Nat → Prop}

theorem State.wordsBut.trans {s t u : State} (h : State.wordsBut but s t) (g : State.wordsBut but t u) : State.wordsBut but s u :=
  fun k hk => (g k hk).trans (h k hk)

theorem State.wordsBut.mono {p : Nat → Prop} {s t : State} (h : State.wordsBut p s t) (hp : ∀ k, p k → but k) : State.wordsBut but s t :=
  fun k hk => h k fun hpk => hk (hp k hpk)

theorem State.wordsBut.ite {p : Prop} [Decidable p] {s a b : State} (ha : State.wordsBut but s a) (hb : State.wordsBut but s b) :
    State.wordsBut but s (if p then a else b) := by
  split <;> assumption

theorem State.wordsBut.of_regs {s t : State} (h : t.regs = s.regs) : State.wordsBut but s t := fun k _ => by simp only [State.word, h]

theorem State.wordsBut.of_setWord (s : State) {off : Nat} (v : Word) (h : but off) : State.wordsBut but s (s.setWord off v) :=
  fun _ hk => State.word_setWord_other s v fun e => hk (e ▸ h)

theorem State.wordsBut.of_set (s : State) {l : Loc} (v : Nat) (h : but l.off) : State.wordsBut but s (s.set l v) := .of_setWord s _ h

end

/-- A raise of source `n` writes its latch and COUNT, the count of lost records, the admission state and the fault log. -/
abbrev raiseWord (n k : Nat) : Prop :=
  k ∈ [(faultBit n).off, (R.FLT_REACT.COUNT n).off, 0x200060, 0x200068, 0x600008] ∨ (0x208000 ≤ k ∧ k < 0x210000)

theorem State.logFault_words (s : State) (n src info : Nat) (f e c : Bool) (time : Nat) :
    State.wordsBut (raiseWord n) s (s.logFault src info f e c time) := by
  unfold State.logFault
  refine .trans ?_ (.of_set _ _ (by simp [raiseWord, R.FLT_LOG.HEAD]))
  refine List.foldlRecOn (motive := State.wordsBut (raiseWord n) s) _ _ (fun _ _ => rfl) fun t ht i hi => ht.trans (.of_setWord t _ ?_)
  have := List.mem_range.mp hi
  exact .inr (by omega)

theorem State.postFault_words (s : State) (n : Nat) (e : FaultEvent) : State.wordsBut (raiseWord n) s (s.postFault e) := by
  unfold State.postFault
  refine .ite (.of_regs rfl) fun k hk => (State.count_word_other _ fun hoff => hk ?_).trans rfl
  simp [raiseWord, hoff, R.FLT_EVQ_LOST.COUNT]

theorem State.admitHold_words (s : State) (n : Nat) : State.wordsBut (raiseWord n) s s.admitHold :=
  .trans (.of_set _ _ (by simp [raiseWord, R.PACE_STATUS.ADMIT_HOLD])) (.of_set _ _ (by simp [raiseWord, R.PACE_STATUS.CLEAR_RUN]))

theorem State.chipReset_words (s : State) (n src : Nat) : State.wordsBut (raiseWord n) s
    { s with fault := { s.fault with chipReset := true, chipBy := src }, power := { s.power with ranChip := true } } := .of_regs rfl

theorem State.nmiChip_words (s : State) (n src info : Nat) (f e nmi chip : Bool) :
    State.wordsBut (raiseWord n) s (s.nmiChip src info f e nmi chip) := by
  unfold State.nmiChip
  split
  · exact (State.logFault_words s n src info f e true _).trans (State.chipReset_words _ n src)
  · exact .ite (State.logFault_words s n src info f e chip _) (.of_regs rfl)

theorem State.toHost_words (but : Nat → Prop) (s : State) (link : Nat) (e : Emit) : State.wordsBut but s (s.toHost link e) := by
  unfold State.toHost
  exact .ite (.of_regs rfl) (.of_regs rfl)

theorem State.raise_words (s : State) (n info : Nat) : State.wordsBut (raiseWord n) s (s.raise n info) := by
  unfold State.raise State.raiseAs
  refine .ite (.of_regs rfl) (.ite (.ite (State.logFault_words s n n info _ _ _ _) (.of_regs rfl)) ?_)
  have hlatch : State.wordsBut (raiseWord n) s ((s.setBit (faultBit n) true).sat (R.FLT_REACT.COUNT n) 1) :=
    .trans (.of_set _ _ (by simp [raiseWord])) (.of_set _ _ (by simp [raiseWord]))
  dsimp only
  split
  · exact (hlatch.trans (State.postFault_words _ n _)).trans (State.nmiChip_words _ n n info _ _ _ _)
  · refine .trans ?_ (State.nmiChip_words _ n n info _ _ _ _)
    refine .trans ?_ (.ite (State.toHost_words _ _ _ _) (.of_regs rfl))
    refine .trans ?_ (.ite (State.admitHold_words _ n) (.of_regs rfl))
    exact hlatch.trans (State.postFault_words _ n _)

/-- Logging a write event changes the registers of the log alone. -/
theorem State.regLog_words (s : State) (kind bar : Nat) (src : HostSrc) (off v : Nat) :
    State.wordsBut logReg s (s.regLog kind bar src off v) := by
  have hcount : State.wordsBut logReg s (s.count R.TOP_REGLOG_CNT.COUNT 1) :=
    fun k hk => State.count_word_other s fun hoff => hk (by rw [hoff]; decide)
  have hcapture : ∀ t : State, State.wordsBut logReg t (t.capture kind bar src off v) := fun t => by
    unfold State.capture
    refine .trans ?_ (.of_setWord _ _ (by decide))
    iterate 5 refine .trans ?_ (.of_set _ _ (by decide))
    exact .of_set _ _ (by decide)
  have hcounted : State.wordsBut logReg s (s.regLogged kind bar src off v) := .ite hcount (hcount.trans (hcapture _))
  rw [State.regLog_eq]
  exact hcounted.trans ((State.raise_words _ 7 0).mono fun k hk => by
    simp only [raiseWord, logReg, faultBit, R.FLT_REACT.COUNT, List.mem_cons, List.not_mem_nil, or_false] at hk ⊢
    omega)

theorem State.sameRegs_settle {s x : State} {but : Nat → Prop} (h : State.wordsBut but s x) : s.sameRegs x.settle but := by
  refine ⟨fun k hk hf => (State.settle_word x hf).trans (h k hk), fun n hn hk => ?_⟩
  have hget : ∀ lo w, x.get ⟨0x1B04000 + 8 * n, lo, w⟩ = s.get ⟨0x1B04000 + 8 * n, lo, w⟩ := fun lo w => by
    simp only [State.get, h _ hk]
  obtain ⟨hhigh, hlow⟩ := (settles x).regs.2 n hn id
  exact ⟨hhigh.trans (hget 28 28), hlow.trans (hget 0 28)⟩

theorem barSize_le (src : HostSrc) (bar : Nat) : barSize src bar ≤ 2 ^ 26 := by
  unfold barSize
  split
  · split <;> decide
  · split
    · split <;> decide
    · decide

/-- A write of one word of which only some bytes are enabled is logged with KIND 0. -/
theorem State.hostWrite_partial {s : State} {src : HostSrc} {bar off be : Nat} (v : Nat) (hm : s.manages src) (ha : off % 8 = 0)
    (ho : off < barSize src bar) (h0 : 0 < be) (h255 : be < 255) :
    s.hostWrite src bar off [(v, be)] = s.regLog 0 bar src off (enabledBits be v) := by
  have hreach : s.reach src = true := hm.2.1
  have h8 : off / 8 * 8 = off := by omega
  have hword : s.hostWord src bar off v be = s.regLog 0 bar src off (enabledBits be v) := by
    unfold State.hostWord
    rw [if_neg (by omega), if_pos (by omega)]
  simp [State.hostWrite, State.hostWords, hreach, ho, h8, hword]

/-- Settles O6: the ports that R78 rejects keep their fields, and a partial word only adds to the log. -/
theorem rejectedWritesKeepTheirRegister : Obligations.RejectedWritesKeepTheirRegister := by
  refine ⟨fun s src i v hm hi hv hbad => paceXoffInWrite_rejected hm hi hv hbad, ?_⟩
  intro s src bar off v be hm hbar ha ho hv h0 h255
  have hwf : Instr.wf (.registerWrite src bar off [(v, be)]) = true := by
    have h256 : be < 256 := by omega
    simpa [Instr.wf, hm.2.2.2, hbar, h256] using hv
  have hoff : off < 2 ^ 26 := Nat.lt_of_lt_of_le ho (barSize_le src bar)
  refine ⟨_, (exec_registerWrite src bar off _ s).trans (complete_of hwf _ _), ?_⟩
  rw [State.hostWrite_partial v hm ha ho h0 h255]
  exact ⟨State.logged_regLog hm.1 rfl rfl (by decide) (by omega) hoff src _, State.sameRegs_settle (State.regLog_words s 0 bar src off _)⟩

end Sys2Proof.Machine
end

section
/-! SUPPORT. The pace governor: what a window measures, what it makes of the deficit and the floor, and the voltage request that ends it
(R48 to R59). -/
namespace Sys2Proof.Machine

/-! ### What a window measures (R48) -/

theorem lowestCount_cons (b : Nat) (bs : List Nat) : (b :: bs).min? = some (lowestCount (b :: bs)) := by
  rw [List.min?_cons']
  simp [lowestCount]

/-- The count of a window is that of some loop, and no loop counted less. -/
theorem lowestCount_spec (b : Nat) (bs : List Nat) : lowestCount (b :: bs) ∈ b :: bs ∧ ∀ m ∈ b :: bs, lowestCount (b :: bs) ≤ m :=
  List.min?_eq_some_iff.mp (lowestCount_cons b bs)

theorem slowestLoop_lt {b : Nat} {bs : List Nat} (h : bs.length = 63) : slowestLoop (b :: bs) < 64 := by
  have hlt : slowestLoop (b :: bs) < (b :: bs).length := List.findIdx_lt_length_of_exists ⟨_, (lowestCount_spec b bs).1, by simp⟩
  simpa [h] using hlt

/-- The rate that a window of `n` beats shows. -/
def windowRate (n : Nat) : Nat := n * 25 / 8 + if n * 25 % 8 = 0 then 0 else b2n (Config.rateRoundsUp n)

/-- The windows counted at the end of one. -/
def State.windowPace (s : State) (n : Nat) : PaceState :=
  { s.pace with
    hist := (n :: s.pace.hist).take 32
    windows := min 9 (s.pace.windows + 1)
    since := s.pace.since + 1
    vgoodLow := if s.pace.vgood then 0 else min 64 (s.pace.vgoodLow + 1)
    ceilRun := if !s.pace.vmaxN && decide (s.pace.since + 1 ≤ s.get R.PACE_CTRL.SETTLE) then 0 else min 4 (s.pace.ceilRun + 1) }

/-- The two fields that every window writes. -/
def State.showRate (s : State) (n slowest : Nat) : State :=
  ({ s with pace := s.windowPace n }.set R.PACE_BEAT_RATE.SLOWEST slowest).set R.PACE_BEAT_RATE.MIN_RATE (min (windowRate n) 65535)

theorem State.measure_eq (s : State) (n slowest : Nat) : s.measure n slowest =
    if windowRate n < (s.showRate n slowest).get R.PACE_BEAT_RATE.LOW_WATER then
      (s.showRate n slowest).set R.PACE_BEAT_RATE.LOW_WATER (windowRate n)
    else s.showRate n slowest := rfl

/-- A window changes the governor's counts and PACE_BEAT_RATE, and nothing else. -/
structure Measures (s t : State) (n : Nat) : Prop where
  pace : t.pace = s.windowPace n
  mode : t.mode = s.mode
  power : t.power = s.power
  out : t.out = s.out
  still : ∀ p, ({ t with pace := p } : State).still = ({ s with pace := p } : State).still
  words : ∀ k, k ≠ 0x600010 → t.word k = s.word k

theorem Measures.set {s t : State} {n : Nat} (h : Measures s t n) {l : Loc} (v : Nat) (hl : l.off = 0x600010) : Measures s (t.set l v) n :=
  ⟨h.pace, h.mode, h.power, h.out, h.still, fun k hk => (State.word_set_other t (hl ▸ hk)).trans (h.words k hk)⟩

theorem State.showRate_measures (s : State) (n slowest : Nat) : Measures s (s.showRate n slowest) n := by
  have hcounts : Measures s { s with pace := s.windowPace n } n := ⟨rfl, rfl, rfl, rfl, fun _ => rfl, fun _ _ => rfl⟩
  exact (hcounts.set _ rfl).set _ rfl

theorem State.measure_measures (s : State) (n slowest : Nat) : Measures s (s.measure n slowest) n := by
  rw [State.measure_eq]
  split
  · exact (s.showRate_measures n slowest).set _ rfl
  · exact s.showRate_measures n slowest

/-- The loop and the rate of the window stand in PACE_BEAT_RATE, whatever LOW_WATER becomes. -/
theorem State.measure_rate (s : State) (n : Nat) {slowest : Nat} (h : slowest < 64) :
    (s.measure n slowest).get R.PACE_BEAT_RATE.SLOWEST = slowest ∧
      (s.measure n slowest).get R.PACE_BEAT_RATE.MIN_RATE = min (windowRate n) 65535 := by
  have hshow : (s.showRate n slowest).get R.PACE_BEAT_RATE.SLOWEST = slowest ∧
      (s.showRate n slowest).get R.PACE_BEAT_RATE.MIN_RATE = min (windowRate n) 65535 := by
    unfold State.showRate
    rw [State.get_set_of_bits (by decide) (by decide), State.get_set_same _ _ _ (by decide), State.get_set_same _ _ _ (by decide)]
    simp only [R.PACE_BEAT_RATE.SLOWEST, R.PACE_BEAT_RATE.MIN_RATE]
    omega
  rw [State.measure_eq]
  split
  · rwa [State.get_set_of_bits (by decide) (by decide), State.get_set_of_bits (by decide) (by decide)]
  · exact hshow

/-- The state as a window's end has measured it. -/
def State.measured (s : State) (counts : List Nat) : State :=
  { s with pace := { s.pace with cycles := s.pace.cycles - 80 } }.measure (lowestCount counts) (slowestLoop counts)

/-- The first eight windows are measured alone; every later one is governed (R51). -/
theorem State.windowEnd_eq {s : State} (hcore : s.coreUp = true) (hcyc : 80 ≤ s.pace.cycles) (counts : List Nat) :
    s.windowEnd counts = if s.pace.windows < 8 then s.measured counts else (s.measured counts).govern (lowestCount counts) := by
  have hwin : (s.measured counts).pace.windows = min 9 (s.pace.windows + 1) := by
    rw [State.measured, (State.measure_measures _ _ _).pace]
    rfl
  unfold State.windowEnd
  have hfull : decide (s.pace.cycles < windowCycles) = false := decide_eq_false (by unfold windowCycles; omega)
  rw [if_neg (by simp [hcore, hfull])]
  show (if (s.measured counts).pace.windows ≤ 8 then s.measured counts else (s.measured counts).govern (lowestCount counts)) = _
  have hfew : min 9 (s.pace.windows + 1) ≤ 8 ↔ s.pace.windows < 8 := by omega
  simp only [hwin, hfew]

theorem State.windowEnd_early {s : State} (h : s.coreUp = false ∨ s.pace.cycles < 80) (counts : List Nat) : s.windowEnd counts = s := by
  unfold State.windowEnd
  rw [if_pos]
  rw [Bool.or_eq_true, Bool.not_eq_true', decide_eq_true_eq]
  exact h

/-! ### The deficit and the floor (R49, R50, R57, R58) -/

/-- Up to the voltage request a governed window changes the deficit, PACE_DEFICIT and what raising a source touches. -/
structure Judges (s t : State) (d : Nat) : Prop where
  pace : t.pace = { s.pace with deficit := d }
  mode : t.mode = s.mode
  core : t.coreUp = s.coreUp
  out : ∃ l, t.out = s.out ++ l
  words : ∀ k, k ≠ 0x600030 → ¬ raiseReg k → t.word k = s.word k
  shown : t.get R.PACE_DEFICIT.CURRENT = min d 65535
  limit : t.get R.PACE_DEFICIT.LIMIT = s.get R.PACE_DEFICIT.LIMIT

theorem State.setBeatDeficit_word (s : State) (d : Nat) {k : Nat} (hk : k ≠ 0x600030) : (s.setBeatDeficit d).word k = s.word k := by
  unfold State.setBeatDeficit State.peak
  dsimp only
  split
  · exact (State.word_set_other _ hk).trans (State.word_set_other _ hk)
  · exact State.word_set_other _ hk

namespace Judges

theorem get {s t : State} {d : Nat} (h : Judges s t d) {l : Loc} (hk : l.off ≠ 0x600030) (hr : ¬ raiseReg l.off) : t.get l = s.get l := by
  simp only [State.get, h.words _ hk hr]

/-- A write of the other fields of PACE_DEFICIT. -/
theorem setPeak {s t : State} {d : Nat} (h : Judges s t d) (v : Nat) : Judges s (t.set R.PACE_DEFICIT.PEAK v) d :=
  ⟨h.pace, h.mode, h.core, h.out, fun k hk hr => (State.word_set_other t hk).trans (h.words k hk hr),
    (State.get_set_of_bits (by decide) (by decide)).trans h.shown, (State.get_set_of_bits (by decide) (by decide)).trans h.limit⟩

/-- The deficit is stored with its register and peak. -/
theorem of_setBeatDeficit (s : State) (d : Nat) : Judges s (s.setBeatDeficit d) d := by
  have hlt : min d 65535 < 2 ^ 16 := by omega
  unfold State.setBeatDeficit State.peak
  generalize hx : min d 65535 = x at hlt
  have hcurrent : Judges s ({ s with pace := { s.pace with deficit := d } }.set R.PACE_DEFICIT.CURRENT x) d :=
    ⟨rfl, rfl, rfl, ⟨[], (List.append_nil _).symm⟩, fun k hk _ => State.word_set_other _ hk,
      ((State.get_set_same _ _ _ (by decide)).trans (Nat.mod_eq_of_lt hlt)).trans hx.symm, State.get_set_of_bits (by decide) (by decide)⟩
  dsimp only
  split
  · exact hcurrent.setPeak _
  · exact hcurrent

theorem raise {s t : State} {d : Nat} (h : Judges s t d) (n info : Nat) : Judges s (t.raise n info) d := by
  have hraise := raises t n info none false
  obtain ⟨l, hl⟩ := h.out
  obtain ⟨m, hm⟩ := hraise.out
  have hcore : (t.raise n info).coreUp = t.coreUp := by
    rw [State.raise, hraise.eq]
    rfl
  exact ⟨(State.raise_pace ..).trans h.pace, (State.raise_mode ..).trans h.mode, hcore.trans h.core,
    ⟨l ++ m, by rw [State.raise, hm, hl, List.append_assoc]⟩,
    fun k hk hr => (hraise.regs k hr).trans (h.words k hk hr), (State.raise_get _ _ _ (by decide)).trans h.shown,
    (State.raise_get _ _ _ (by decide)).trans h.limit⟩

theorem raiseIf {s t : State} {d : Nat} (h : Judges s t d) (p : Prop) [Decidable p] (n info : Nat) :
    Judges s (if p then t.raise n info else t) d := by
  split
  · exact h.raise n info
  · exact h

/-- A write of PACE_STATUS. -/
theorem setStatus {s t : State} {d : Nat} (h : Judges s t d) {l : Loc} (v : Nat) (hl : l.off = 0x600008) : Judges s (t.set l v) d := by
  have hget : ∀ m : Loc, m.off ≠ 0x600008 → (t.set l v).get m = t.get m := fun m hm => State.get_set_of_off (hl ▸ hm)
  exact ⟨h.pace, h.mode, h.core, h.out, fun k hk hr => (State.word_set_other t fun e => hr (.inr (e.trans hl))).trans (h.words k hk hr),
    (hget _ (by decide)).trans h.shown, (hget _ (by decide)).trans h.limit⟩

theorem clearRun {s t : State} {d : Nat} (h : Judges s t d) (n : Nat) (lost : Bool) : Judges s (t.clearRun n lost) d := by
  unfold State.clearRun
  split
  · dsimp only
    split
    · exact (h.setStatus _ rfl).setStatus _ rfl
    · exact h.setStatus _ rfl
  · exact h.setStatus _ rfl

end Judges

/-- A latch that holds is not cleared by the run of clear windows. -/
theorem State.clearRun_word (s : State) (n : Nat) (lost : Bool) {k : Nat} (hk : k ≠ 0x600008) : (s.clearRun n lost).word k = s.word k := by
  have hset : ∀ (t : State) (l : Loc) (v : Nat), l.off = 0x600008 → (t.set l v).word k = t.word k :=
    fun t l v hl => State.word_set_other t (hl ▸ hk)
  unfold State.clearRun
  split
  · dsimp only
    split
    · exact (hset _ _ _ rfl).trans (hset _ _ _ rfl)
    · exact hset _ _ _ rfl
  · exact hset _ _ _ rfl

/-- The state after the deficit and the floor have been judged, before the voltage request. -/
def State.judged (s : State) (n : Nat) : State :=
  let t := s.setBeatDeficit (nextDeficit s.pace.deficit n)
  let u := if t.floorLost n then t.raise 0 0 else t
  (if u.get R.PACE_DEFICIT.LIMIT < u.pace.deficit then u.raise 1 0 else u).clearRun n (t.floorLost n)

theorem State.govern_eq (s : State) (n : Nat) : s.govern n = (s.judged n).voltageRequest n := rfl

theorem State.judged_judges (s : State) (n : Nat) : Judges s (s.judged n) (nextDeficit s.pace.deficit n) :=
  (((Judges.of_setBeatDeficit s _).raiseIf _ 0 0).raiseIf _ 1 0).clearRun n _

theorem State.raiseIf_latch {s : State} (p : Prop) [Decidable p] {n m info : Nat} (hm : m < 256) (h : s.bit (faultBit m) = true) :
    (if p then s.raise n info else s).bit (faultBit m) = true := by
  split
  · exact (raises s n info none false).latch m hm h
  · exact h

theorem State.clearRun_latch (s : State) (n : Nat) (lost : Bool) (m : Nat) (hm : m < 256) :
    (s.clearRun n lost).bit (faultBit m) = s.bit (faultBit m) := by
  have hk : (faultBit m).off ≠ 0x600008 := by
    simp only [faultBit]
    omega
  simp only [State.bit, State.get, State.clearRun_word s n lost hk]

/-- A window below the floor latches PACE_FLOOR_LOST (R50). -/
theorem State.judged_floor {s : State} {n : Nat} (hcore : s.coreUp = true) (hn : n < 672) : (s.judged n).bit (faultBit 0) = true := by
  have ht := Judges.of_setBeatDeficit s (nextDeficit s.pace.deficit n)
  have hlost : (s.setBeatDeficit (nextDeficit s.pace.deficit n)).floorLost n = true := by simp [State.floorLost, hn]
  unfold State.judged
  dsimp only
  rw [State.clearRun_latch _ _ _ 0 (by decide), if_pos hlost]
  exact State.raiseIf_latch _ (by decide) (State.raise_latches _ 0 0 (by decide) (ht.core.trans hcore))

/-- A deficit past LIMIT latches PACE_DEFICIT (R50). -/
theorem State.judged_deficit {s : State} {n : Nat} (hcore : s.coreUp = true)
    (hd : s.get R.PACE_DEFICIT.LIMIT < nextDeficit s.pace.deficit n) : (s.judged n).bit (faultBit 1) = true := by
  have hu := (Judges.of_setBeatDeficit s (nextDeficit s.pace.deficit n)).raiseIf
    ((s.setBeatDeficit (nextDeficit s.pace.deficit n)).floorLost n = true) 0 0
  unfold State.judged
  dsimp only
  rw [State.clearRun_latch _ _ _ 1 (by decide), if_pos (by rwa [hu.limit, hu.pace])]
  exact State.raise_latches _ 1 0 (by decide) (hu.core.trans hcore)

/-- A window that is not below GUARD and has no deficit loses nothing: neither source is raised. -/
theorem State.judged_clean {s : State} {n : Nat} {hist : List Nat} (hd : s.pace.deficit + 672 ≤ n)
    (hg : rateBelow n (s.get R.PACE_TARGET.GUARD) = false) (hh : s.pace.hist = n :: hist) :
    s.judged n = (s.setBeatDeficit 0).clearRun n false := by
  have hzero : nextDeficit s.pace.deficit n = 0 := by
    unfold nextDeficit
    omega
  have ht := Judges.of_setBeatDeficit s 0
  have hlost : (s.setBeatDeficit 0).floorLost n = false := by
    have hguard := ht.get (l := R.PACE_TARGET.GUARD) (by decide) (by decide)
    have hfour : (s.setBeatDeficit 0).lowFour = false := by simp [State.lowFour, ht.pace, hh, hguard, hg]
    have hn : ¬ n < 672 := by omega
    simp [State.floorLost, hfour, hn]
  unfold State.judged
  simp [hzero, hlost, ht.pace]

/-- A clean window counts, and the thirty-second in a row releases ADMIT_HOLD (R58). -/
theorem State.clearRun_clean {s : State} {n : Nat} (hg : rateBelow n (s.get R.PACE_TARGET.GUARD) = false) (hd : s.pace.deficit = 0) :
    (s.clearRun n false).get R.PACE_STATUS.CLEAR_RUN = min (s.get R.PACE_STATUS.CLEAR_RUN + 1) 65535 ∧
      (s.clearRun n false).bit R.PACE_STATUS.ADMIT_HOLD =
        (s.bit R.PACE_STATUS.ADMIT_HOLD && decide (s.get R.PACE_STATUS.CLEAR_RUN + 1 < 32)) := by
  have hrun : (s.sat R.PACE_STATUS.CLEAR_RUN 1).get R.PACE_STATUS.CLEAR_RUN = min (s.get R.PACE_STATUS.CLEAR_RUN + 1) 65535 := by
    rw [State.sat, State.get_set_same _ _ _ (by decide)]
    simp only [satAdd, R.PACE_STATUS.CLEAR_RUN]
    omega
  have hhold : (s.sat R.PACE_STATUS.CLEAR_RUN 1).bit R.PACE_STATUS.ADMIT_HOLD = s.bit R.PACE_STATUS.ADMIT_HOLD := by
    simp only [State.bit, State.sat]
    rw [State.get_set_of_bits (by decide) (by decide)]
  unfold State.clearRun
  rw [if_pos (by simp [hg, hd])]
  dsimp only
  split
  · rename_i hfull
    have hmany : ¬ s.get R.PACE_STATUS.CLEAR_RUN + 1 < 32 := by omega
    refine ⟨(State.get_set_of_bits (by decide) (by decide)).trans hrun, ?_⟩
    rw [State.bit_setBit_same _ _ _ rfl (by decide)]
    simp [hmany]
  · have hfew : s.get R.PACE_STATUS.CLEAR_RUN + 1 < 32 := by omega
    exact ⟨hrun, by simp [hhold, hfew]⟩

/-! ### The voltage request (R50, R53, R54) -/

/-- A window may end with a request: HOLD is clear, the regulator answers, SETTLE windows have passed, and it is not HOLD-UP. -/
abbrev State.mayRequest (s : State) : Prop :=
  s.bit R.PACE_CTRL.HOLD = false ∧ s.pace.vgood = true ∧ s.get R.PACE_CTRL.SETTLE ≤ s.pace.since ∧ s.mode ≠ .holdUp

/-- The request changes PACE_VREQ and the windows since the last one, and nothing else. -/
structure Requests (s t : State) : Prop where
  pace : ∃ since low, t.pace = { s.pace with since := since, vgoodLow := low }
  words : ∀ k, k ≠ 0x600028 → t.word k = s.word k

theorem Requests.refl (s : State) : Requests s s := ⟨⟨_, _, rfl⟩, fun _ _ => rfl⟩

theorem Requests.get {s t : State} (h : Requests s t) {l : Loc} (hl : l.off ≠ 0x600028) : t.get l = s.get l := by
  simp only [State.get, h.words _ hl]

theorem Requests.of_requestCode (s : State) (code : Nat) : Requests s (s.requestCode code) := by
  unfold State.requestCode
  split
  · exact .refl s
  · exact ⟨⟨_, _, rfl⟩, fun _ hk => State.word_set_other s hk⟩

theorem Requests.of_voltageRequest (s : State) (n : Nat) : Requests s (s.voltageRequest n) := by
  unfold State.voltageRequest
  dsimp only
  split
  · exact .refl s
  · split
    · exact .of_requestCode s _
    · split
      · exact .of_requestCode s _
      · split
        · exact .of_requestCode s _
        · exact .refl s

/-- A request shows its code; a new one is strobed, and starts the count of windows anew. -/
theorem State.requestCode_issues (s : State) {code : Nat} (h : code < 256) :
    (s.requestCode code).get R.PACE_VREQ.CODE = code ∧
      (code ≠ s.get R.PACE_VREQ.CODE → (s.requestCode code).pace.since = 0 ∧ (s.requestCode code).out = s.out ++ [.strobe code]) := by
  unfold State.requestCode
  split
  · rename_i he
    exact ⟨he.symm, fun hne => absurd he hne⟩
  · have hset : (s.set R.PACE_VREQ.CODE code).get R.PACE_VREQ.CODE = code :=
      (State.get_set_same _ _ _ (by decide)).trans (Nat.mod_eq_of_lt h)
    exact ⟨hset, fun _ => ⟨rfl, rfl⟩⟩

/-- No request is issued while one is barred. -/
theorem State.voltageRequest_barred {s : State} (h : ¬ s.mayRequest) (n : Nat) : s.voltageRequest n = s := by
  unfold State.voltageRequest
  dsimp only
  rw [if_pos]
  simp only [Bool.or_eq_true, Bool.not_eq_true', decide_eq_true_eq, beq_iff_eq]
  by_contra hnone
  simp only [not_or, Bool.not_eq_true, Bool.not_eq_false, Nat.not_lt] at hnone
  exact h ⟨hnone.1.1.1, hnone.1.1.2, hnone.1.2, hnone.2⟩

/-- The request of a window where none is barred, by the rate of the window. -/
theorem State.voltageRequest_open {s : State} (h : s.mayRequest) (n : Nat) : s.voltageRequest n =
    if rateBelow n (s.get R.PACE_TARGET.GUARD) then s.requestCode (min (s.get R.PACE_VREQ.CODE + 4) (s.get R.PACE_VREQ.VMAX))
    else if rateBelow n (s.get R.PACE_TARGET.TARGET - s.get R.PACE_TARGET.BAND) then
      s.requestCode (min (s.get R.PACE_VREQ.CODE + 1) (s.get R.PACE_VREQ.VMAX))
    else if decide (s.pace.hist.length = 32) && s.pace.hist.all fun m =>
        rateAbove m (s.get R.PACE_TARGET.TARGET + s.get R.PACE_TARGET.BAND) then
      s.requestCode (min (max (s.get R.PACE_VREQ.CODE - 1) (s.get R.PACE_VREQ.VMIN)) (s.get R.PACE_VREQ.VMAX))
    else s := by
  obtain ⟨hhold, hgood, hsettle, hmode⟩ := h
  have hsince : ¬ s.pace.since < s.get R.PACE_CTRL.SETTLE := by omega
  unfold State.voltageRequest
  dsimp only
  rw [if_neg (by simp [hhold, hgood, hsince, hmode])]

/-! ### The end of a window -/

theorem exec_paceWindowEnd (b : Nat) (bs : List Nat) (s : State) :
    exec (.paceWindowEnd b bs) s = complete (Instr.wf (.paceWindowEnd b bs)) s (s.windowEnd (b :: bs)) := rfl

theorem exec_paceWindowEnd_next {bs : List Nat} (h : bs.length = 63) (b : Nat) (s : State) :
    exec (.paceWindowEnd b bs) s = .next (s.windowEnd (b :: bs)).settle :=
  (exec_paceWindowEnd b bs s).trans (complete_of (by simp [Instr.wf, h]) _ _)

theorem State.measured_measures (s : State) (counts : List Nat) :
    Measures { s with pace := { s.pace with cycles := s.pace.cycles - 80 } } (s.measured counts) (lowestCount counts) :=
  State.measure_measures _ _ _

theorem State.measured_pace (s : State) (counts : List Nat) :
    (s.measured counts).pace = { s.windowPace (lowestCount counts) with cycles := s.pace.cycles - 80 } :=
  (s.measured_measures counts).pace

theorem State.measured_slowest (s : State) {b : Nat} {bs : List Nat} (h : bs.length = 63) :
    (s.measured (b :: bs)).get R.PACE_BEAT_RATE.SLOWEST = slowestLoop (b :: bs) :=
  (State.measure_rate _ _ (slowestLoop_lt h)).1

theorem State.measured_rate (s : State) {b : Nat} {bs : List Nat} (h : bs.length = 63) :
    (s.measured (b :: bs)).get R.PACE_BEAT_RATE.MIN_RATE = min (windowRate (lowestCount (b :: bs))) 65535 :=
  (State.measure_rate _ _ (slowestLoop_lt h)).2

theorem State.measured_word (s : State) (counts : List Nat) {k : Nat} (hk : k ≠ 0x600010) : (s.measured counts).word k = s.word k :=
  (s.measured_measures counts).words k hk

theorem State.measured_get (s : State) (counts : List Nat) {l : Loc} (hl : l.off ≠ 0x600010) : (s.measured counts).get l = s.get l := by
  simp only [State.get, s.measured_word counts hl]

theorem State.measured_out (s : State) (counts : List Nat) : (s.measured counts).out = s.out := (s.measured_measures counts).out

theorem State.measured_still (s : State) (counts : List Nat) : ({ s.measured counts with pace := s.pace } : State).still = s.still :=
  (s.measured_measures counts).still s.pace

theorem State.still_pace_congr {t u : State} (h : t.still = u.still) (p : PaceState) :
    ({ t with pace := p } : State).still = ({ u with pace := p } : State).still :=
  congrArg (fun x : State => { x with pace := p }) h

/-- The frame of a command that changes the governor's measurements. -/
theorem State.kept_pace {s x t : State} {but : Nat → Prop} (ht : t = x.settle)
    (hs : ({ x with pace := s.pace } : State).still = s.still) (ho : x.out = s.out) (hw : ∀ k, ¬ but k → x.word k = s.word k) :
    s.kept { t with pace := s.pace } [] but := by
  have hstill : t.still = x.still := ht ▸ x.settle_still
  have hregs : t.regs = x.settle.regs := ht ▸ rfl
  have hout : t.out = x.settle.out := ht ▸ rfl
  exact State.kept_of (x := x) ((State.still_pace_congr hstill s.pace).trans hs) hregs hout hw (ho.trans (List.append_nil _).symm)

/-- A measured window leaves everything but the governor's counts and PACE_BEAT_RATE. -/
theorem State.measured_kept (s : State) (counts : List Nat) :
    s.kept { (s.measured counts).settle with pace := s.pace } [] fun k => k = 0x600010 :=
  State.kept_pace rfl (s.measured_still counts) (s.measured_out counts) fun _ hk => s.measured_word counts hk

/-- A window that is governed, up to its voltage request. -/
def State.judgedWindow (s : State) (counts : List Nat) : State := (s.measured counts).judged (lowestCount counts)

theorem State.judgedWindow_judges (s : State) (counts : List Nat) :
    Judges (s.measured counts) (s.judgedWindow counts) (s.pace.deficit + 672 - lowestCount counts) := by
  have h := (s.measured counts).judged_judges (lowestCount counts)
  rwa [State.measured_pace] at h

theorem State.judgedWindow_pace (s : State) (counts : List Nat) : (s.judgedWindow counts).pace =
    { s.windowPace (lowestCount counts) with cycles := s.pace.cycles - 80, deficit := s.pace.deficit + 672 - lowestCount counts } := by
  rw [(s.judgedWindow_judges counts).pace, State.measured_pace]

theorem State.judgedWindow_get (s : State) (counts : List Nat) {l : Loc} (h10 : l.off ≠ 0x600010) (h30 : l.off ≠ 0x600030)
    (hr : ¬ raiseReg l.off) : (s.judgedWindow counts).get l = s.get l :=
  ((s.judgedWindow_judges counts).get h30 hr).trans (s.measured_get counts h10)

theorem State.measured_coreUp (s : State) (counts : List Nat) : (s.measured counts).coreUp = s.coreUp := by
  have h := s.measured_measures counts
  simp only [State.coreUp, h.mode, h.power]

theorem rateBelow_eq_false {n m : Nat} : rateBelow n m = false ↔ m * 1000 ≤ n * 3125 := by simp [rateBelow]

/-- A rate above the band is not below it. -/
theorem rateBelow_sub_of_above {n target band : Nat} (h : (target + band) * 1000 < n * 3125) : rateBelow n (target - band) = false :=
  rateBelow_eq_false.mpr (by omega)

section
variable {s : State} {counts : List Nat} (hd : s.pace.deficit + 672 ≤ lowestCount counts)
  (hg : s.get R.PACE_TARGET.GUARD * 1000 ≤ lowestCount counts * 3125)
include hd hg

/-- A clean window only counts in the run of clear windows. -/
theorem State.judgedWindow_clean :
    s.judgedWindow counts = ((s.measured counts).setBeatDeficit 0).clearRun (lowestCount counts) false := by
  have hpace := s.measured_pace counts
  refine State.judged_clean (hist := s.pace.hist.take 31) ?_ ?_ ?_
  · rwa [hpace]
  · rwa [s.measured_get _ (by decide), rateBelow_eq_false]
  · rw [hpace]
    rfl

theorem State.judgedWindow_clearRun :
    (s.judgedWindow counts).get R.PACE_STATUS.CLEAR_RUN = min (s.get R.PACE_STATUS.CLEAR_RUN + 1) 65535 ∧
      (s.judgedWindow counts).bit R.PACE_STATUS.ADMIT_HOLD =
        (s.bit R.PACE_STATUS.ADMIT_HOLD && decide (s.get R.PACE_STATUS.CLEAR_RUN + 1 < 32)) := by
  have hget : ∀ l : Loc, l.off ≠ 0x600010 → l.off ≠ 0x600030 → ((s.measured counts).setBeatDeficit 0).get l = s.get l := fun l h10 h30 => by
    simp only [State.get, State.setBeatDeficit_word _ 0 h30, s.measured_word counts h10]
  rw [State.judgedWindow_clean hd hg]
  have h := State.clearRun_clean (s := (s.measured counts).setBeatDeficit 0) (n := lowestCount counts)
    (by rwa [hget _ (by decide) (by decide), rateBelow_eq_false]) (by rw [(Judges.of_setBeatDeficit _ 0).pace])
  rwa [State.bit, State.bit, hget _ (by decide) (by decide), hget _ (by decide) (by decide)] at h

theorem State.judgedWindow_latch (m : Nat) (hm : m < 256) : (s.judgedWindow counts).bit (faultBit m) = s.bit (faultBit m) := by
  have h30 : (faultBit m).off ≠ 0x600030 := by
    simp only [faultBit]
    omega
  have h10 : (faultBit m).off ≠ 0x600010 := by
    simp only [faultBit]
    omega
  rw [State.judgedWindow_clean hd hg, State.clearRun_latch _ _ _ m hm]
  simp only [State.bit, State.get, State.setBeatDeficit_word _ 0 h30, s.measured_word counts h10]

end

/-- A window that is governed, with its voltage request. -/
def State.governedWindow (s : State) (counts : List Nat) : State := (s.judgedWindow counts).voltageRequest (lowestCount counts)

theorem State.governedWindow_get (s : State) (counts : List Nat) {l : Loc} (hl : l.off ≠ 0x600028) :
    (s.governedWindow counts).get l = (s.judgedWindow counts).get l :=
  (Requests.of_voltageRequest _ _).get hl

theorem State.governedWindow_pace (s : State) (counts : List Nat) :
    (s.governedWindow counts).pace.deficit = s.pace.deficit + 672 - lowestCount counts ∧
      (s.governedWindow counts).pace.hist = (lowestCount counts :: s.pace.hist).take 32 := by
  obtain ⟨since, low, hpace⟩ := (Requests.of_voltageRequest (s.judgedWindow counts) (lowestCount counts)).pace
  rw [State.governedWindow, hpace, State.judgedWindow_pace]
  exact ⟨rfl, rfl⟩

section
variable {s : State} {b : Nat} {bs : List Nat} (hlen : bs.length = 63) (hcore : s.coreUp = true) (hcyc : 80 ≤ s.pace.cycles)
include hlen hcore hcyc

theorem exec_paceWindowEnd_measured (h8 : s.pace.windows < 8) :
    exec (.paceWindowEnd b bs) s = .next (s.measured (b :: bs)).settle := by
  rw [exec_paceWindowEnd_next hlen, State.windowEnd_eq hcore hcyc, if_pos h8]

theorem exec_paceWindowEnd_governed (h8 : 8 ≤ s.pace.windows) :
    exec (.paceWindowEnd b bs) s = .next (s.governedWindow (b :: bs)).settle := by
  rw [exec_paceWindowEnd_next hlen, State.windowEnd_eq hcore hcyc, if_neg (by omega), State.govern_eq, State.governedWindow,
    State.judgedWindow]

end

/-- Settles O40: the clauses are read off what a window measures and what it judges. -/
theorem governorMeasures : Obligations.GovernorMeasures := by
  refine ⟨?_, ?_, ?_, ?_⟩
  · rintro s b bs n hlen rfl hcore hcyc h8
    have hpace := s.measured_pace (b :: bs)
    refine ⟨_, exec_paceWindowEnd_measured hlen hcore hcyc h8, ?_, fun hwhole => ?_, ?_, ?_, (lowestCount_spec b bs).2, ?_, ?_, ?_⟩
    · rw [State.settle_get _ (by decide), s.measured_slowest hlen]
    · rw [State.settle_get _ (by decide), s.measured_rate hlen, windowRate, if_pos hwhole, Nat.add_zero]
    · rw [State.settle_pace, hpace]
      exact Nat.min_eq_right (by omega)
    · rw [State.settle_pace, hpace]
    · rw [State.settle_pace, hpace]
      rfl
    · rw [State.settle_pace, hpace]
      rfl
    · exact s.measured_kept (b :: bs)
  · rintro s b bs n hlen rfl hcore hcyc h8
    have hj := s.judgedWindow_judges (b :: bs)
    have hpace := s.governedWindow_pace (b :: bs)
    refine ⟨_, exec_paceWindowEnd_governed hlen hcore hcyc h8, ?_, ?_, ?_, ?_, fun hfloor => ?_, fun hdef => ?_⟩
    · rw [State.settle_pace, hpace.1]
    · rw [State.settle_get _ (by decide), s.governedWindow_get _ (by decide), hj.shown]
    · rw [State.settle_get _ (by decide), s.governedWindow_get _ (by decide), hj.get (by decide) (by decide), s.measured_slowest hlen]
    · rw [State.settle_pace, hpace.2]
    · rw [State.settle_bit _ (by decide), State.bit, s.governedWindow_get _ (by decide)]
      exact State.judged_floor ((s.measured_coreUp _).trans hcore) hfloor
    · rw [State.settle_bit _ (by decide), State.bit, s.governedWindow_get _ (by decide)]
      refine State.judged_deficit ((s.measured_coreUp _).trans hcore) ?_
      rwa [s.measured_get _ (by decide), s.measured_pace]
  · rintro s b bs n hlen rfl hcore hcyc h8 hd hg
    obtain ⟨hrun, hhold⟩ := State.judgedWindow_clearRun hd hg
    refine ⟨_, exec_paceWindowEnd_governed hlen hcore hcyc h8, ?_, ?_, fun i hi => ?_⟩
    · rw [State.settle_get _ (by decide), s.governedWindow_get _ (by decide), hrun]
    · rw [State.settle_bit _ (by decide), State.bit, s.governedWindow_get _ (by decide)]
      exact hhold
    · have hfollow : ¬ followReg (faultBit i).off := by
        simp only [faultBit]
        omega
      have hvreq : (faultBit i).off ≠ 0x600028 := by
        simp only [faultBit]
        omega
      rw [State.settle_bit _ hfollow, State.bit, s.governedWindow_get _ hvreq]
      exact State.judgedWindow_latch hd hg i hi
  · intro s b bs hlen hidle
    refine ⟨_, exec_paceWindowEnd_next hlen b s, ?_⟩
    rw [State.windowEnd_early hidle]
    exact State.kept_of (State.settle_still s) rfl rfl (fun _ _ => rfl) (List.append_nil _).symm

/-! ### The regulator (R54 to R56) -/

theorem State.judgedWindow_mode (s : State) (counts : List Nat) : (s.judgedWindow counts).mode = s.mode :=
  (s.judgedWindow_judges counts).mode.trans (s.measured_measures counts).mode

/-- Whether the end of a window may request. -/
theorem State.judgedWindow_mayRequest (s : State) (counts : List Nat) : (s.judgedWindow counts).mayRequest ↔
    s.bit R.PACE_CTRL.HOLD = false ∧ s.pace.vgood = true ∧ s.get R.PACE_CTRL.SETTLE ≤ s.pace.since + 1 ∧ s.mode ≠ .holdUp := by
  rw [State.mayRequest, State.bit, s.judgedWindow_get counts (by decide) (by decide) (by decide),
    s.judgedWindow_get counts (by decide) (by decide) (by decide), s.judgedWindow_pace, s.judgedWindow_mode]
  rfl

theorem State.judgedWindow_out (s : State) (counts : List Nat) : ∃ l, (s.judgedWindow counts).out = s.out ++ l := by
  obtain ⟨l, hl⟩ := (s.judgedWindow_judges counts).out
  exact ⟨l, by rw [hl, s.measured_out]⟩

/-- The request of a governed window, by the rate of the window. -/
theorem State.governedWindow_open {s : State} {counts : List Nat} (h : (s.judgedWindow counts).mayRequest) : s.governedWindow counts =
    if rateBelow (lowestCount counts) (s.get R.PACE_TARGET.GUARD) then
      (s.judgedWindow counts).requestCode (min (s.get R.PACE_VREQ.CODE + 4) (s.get R.PACE_VREQ.VMAX))
    else if rateBelow (lowestCount counts) (s.get R.PACE_TARGET.TARGET - s.get R.PACE_TARGET.BAND) then
      (s.judgedWindow counts).requestCode (min (s.get R.PACE_VREQ.CODE + 1) (s.get R.PACE_VREQ.VMAX))
    else if decide ((s.judgedWindow counts).pace.hist.length = 32) && (s.judgedWindow counts).pace.hist.all fun m =>
        rateAbove m (s.get R.PACE_TARGET.TARGET + s.get R.PACE_TARGET.BAND) then
      (s.judgedWindow counts).requestCode (min (max (s.get R.PACE_VREQ.CODE - 1) (s.get R.PACE_VREQ.VMIN)) (s.get R.PACE_VREQ.VMAX))
    else s.judgedWindow counts := by
  have hget : ∀ l : Loc, l.off = 0x600020 ∨ l.off = 0x600028 → (s.judgedWindow counts).get l = s.get l := fun l hl =>
    s.judgedWindow_get counts (by omega) (by omega) (by simp only [raiseReg]; omega)
  rw [State.governedWindow, State.voltageRequest_open h, hget R.PACE_TARGET.GUARD (by decide), hget R.PACE_TARGET.TARGET (by decide),
    hget R.PACE_TARGET.BAND (by decide), hget R.PACE_VREQ.CODE (by decide), hget R.PACE_VREQ.VMAX (by decide),
    hget R.PACE_VREQ.VMIN (by decide)]

theorem State.vmax_lt (s : State) (x : Nat) : min x (s.get R.PACE_VREQ.VMAX) < 256 :=
  Nat.lt_of_le_of_lt (Nat.min_le_right ..) (s.get_lt R.PACE_VREQ.VMAX)

/-- What was sent last before a command settles is sent by that command. -/
theorem State.strobe_mem_settle_out {s t u : State} {e : Emit} (ht : ∃ l, t.out = s.out ++ l) (hu : u.out = t.out ++ [e]) :
    e ∈ u.settle.out.drop s.out.length := by
  obtain ⟨l, hl⟩ := ht
  obtain ⟨m, hm, -⟩ := (settles u).out
  simp [hm, hu, hl]

theorem exec_paceVgood (level : Bool) (s : State) : exec (.paceVgood level) s = .next (s.setVgood level).settle := rfl

theorem exec_paceVmaxN (level : Bool) (s : State) :
    exec (.paceVmaxN level) s = .next ({ s with pace := { s.pace with vmaxN := level } } : State).settle := rfl

theorem exec_vgoodTimeout (s : State) : exec .vgoodTimeout s = .next
    (if !s.pace.vgood && decide (64 ≤ s.pace.vgoodLow) then { s with pace := { s.pace with vgoodDead := true } } else s : State).settle := rfl

/-- A change of the governor's measurements alone. -/
theorem State.kept_of_pace (s : State) (p : PaceState) :
    s.kept { ({ s with pace := p } : State).settle with pace := s.pace } [] fun _ => False :=
  State.kept_pace rfl rfl rfl fun _ _ => rfl

/-- Settles O41: where a window may request, its rate gives the code; the pins change the governor's measurements alone. -/
theorem governorRequests : Obligations.GovernorRequests := by
  refine ⟨?four, ?one, ?down, ?none, ?vgood, ?vmaxN, ?timeout⟩
  case four =>
    rintro s b bs n hlen rfl hcore hcyc hmode h8 hhold hgood hsettle hlow
    have hmay := (s.judgedWindow_mayRequest (b :: bs)).mpr ⟨hhold, hgood, hsettle, hmode⟩
    refine ⟨_, exec_paceWindowEnd_governed hlen hcore hcyc h8, ?_⟩
    rw [State.governedWindow_open hmay, if_pos (by simpa [rateBelow] using hlow)]
    obtain ⟨hcode, hnew⟩ := (s.judgedWindow (b :: bs)).requestCode_issues (s.vmax_lt (s.get R.PACE_VREQ.CODE + 4))
    have hshown := (State.settle_get _ (by decide)).trans hcode
    refine ⟨hshown, fun hne => ?_⟩
    rw [hshown] at hne ⊢
    rw [s.judgedWindow_get (b :: bs) (l := R.PACE_VREQ.CODE) (by decide) (by decide) (by decide)] at hnew
    obtain ⟨hsince, hout⟩ := hnew hne
    exact ⟨by rw [State.settle_pace, hsince], State.strobe_mem_settle_out (s.judgedWindow_out _) hout⟩
  case one =>
    rintro s b bs n hlen rfl hcore hcyc hmode h8 hhold hgood hsettle hguard hlow
    have hmay := (s.judgedWindow_mayRequest (b :: bs)).mpr ⟨hhold, hgood, hsettle, hmode⟩
    refine ⟨_, exec_paceWindowEnd_governed hlen hcore hcyc h8, ?_⟩
    rw [State.settle_get _ (by decide), State.governedWindow_open hmay, if_neg (by simp [rateBelow_eq_false, hguard]),
      if_pos (by simpa [rateBelow] using hlow)]
    exact (State.requestCode_issues _ (s.vmax_lt _)).1
  case down =>
    rintro s b bs n hlen rfl hcore hcyc hmode h8 hhold hgood hsettle hguard hlong hhigh
    have hmay := (s.judgedWindow_mayRequest (b :: bs)).mpr ⟨hhold, hgood, hsettle, hmode⟩
    refine ⟨_, exec_paceWindowEnd_governed hlen hcore hcyc h8, ?_⟩
    have hmem : lowestCount (b :: bs) ∈ (lowestCount (b :: bs) :: s.pace.hist).take 32 := by simp
    have hn := hhigh _ hmem
    have hhist : (s.judgedWindow (b :: bs)).pace.hist = (lowestCount (b :: bs) :: s.pace.hist).take 32 := by
      rw [State.judgedWindow_pace]
      rfl
    have habove : (s.judgedWindow (b :: bs)).pace.hist.all (fun m =>
        rateAbove m (s.get R.PACE_TARGET.TARGET + s.get R.PACE_TARGET.BAND)) = true := by
      rw [hhist]
      simpa [rateAbove] using hhigh
    have hshort : rateBelow (lowestCount (b :: bs)) (s.get R.PACE_TARGET.TARGET - s.get R.PACE_TARGET.BAND) = false :=
      rateBelow_sub_of_above hn
    have hfull : (s.judgedWindow (b :: bs)).pace.hist.length = 32 := by
      rw [hhist, List.length_take, List.length_cons]
      omega
    rw [State.settle_get _ (by decide), State.governedWindow_open hmay, if_neg (by simp [rateBelow_eq_false, hguard]),
      if_neg (by simp [hshort]), if_pos (by simp only [hfull, habove]; rfl)]
    exact (State.requestCode_issues _ (s.vmax_lt _)).1
  case none =>
    rintro s b bs n hlen rfl hcore hcyc h8 hbar
    have hmay : ¬ (s.judgedWindow (b :: bs)).mayRequest := by
      rw [State.judgedWindow_mayRequest]
      rintro ⟨hhold, hgood, hsettle, hmode⟩
      rcases hbar with h | h | h | h
      · simp [hhold] at h
      · simp [hgood] at h
      · omega
      · exact hmode h
    refine ⟨_, exec_paceWindowEnd_governed hlen hcore hcyc h8, ?_⟩
    rw [State.settle_get _ (by decide), State.settle_pace, State.governedWindow, State.voltageRequest_barred hmay, s.judgedWindow_pace]
    exact ⟨s.judgedWindow_get _ (by decide) (by decide) (by decide), rfl⟩
  case vgood =>
    intro s level
    refine ⟨_, exec_paceVgood level s, ?_, ?_, ?_, s.kept_of_pace _⟩
    · rw [State.settle_pace]
      rfl
    · rintro rfl
      rw [State.settle_pace]
      exact ⟨rfl, rfl⟩
    · rintro rfl
      rw [State.settle_pace]
      rfl
  case vmaxN =>
    intro s level
    exact ⟨_, exec_paceVmaxN level s, State.settle_pace _, s.kept_of_pace _⟩
  case timeout =>
    intro s
    have hiff : (!s.pace.vgood && decide (64 ≤ s.pace.vgoodLow)) = true ↔ s.pace.vgood = false ∧ 64 ≤ s.pace.vgoodLow := by simp
    refine ⟨_, exec_vgoodTimeout s, ?_⟩
    simp only [hiff, State.settle_pace]
    split
    · exact ⟨rfl, s.kept_of_pace _⟩
    · exact ⟨rfl, s.kept_of_pace _⟩

end Sys2Proof.Machine
end

section
/-! SUPPORT. What releases of cells, drops, memory requests and spill leave as it was (R237, R262, R265, R278, R415, R430). -/
namespace Sys2Proof.Machine

/-! ### What stays -/

/-- What neither a release of cells, nor a spill, nor a count, nor the raise of a fault touches: prisms and service facets, migrations, whether
the core runs, the handoff, and the leaf queues. -/
def State.queues (s : State) : CodeState × MigState × Mode × Bool × List Pkt × SMap (List Pkt) :=
  (s.code, s.mig, s.mode, s.power.isolated, s.buf.handoff, s.buf.leaves)

theorem State.queues_eq_iff {s t : State} : t.queues = s.queues ↔ t.code = s.code ∧ t.mig = s.mig ∧ t.mode = s.mode ∧
    t.power.isolated = s.power.isolated ∧ t.buf.handoff = s.buf.handoff ∧ t.buf.leaves = s.buf.leaves := by
  simp only [State.queues, Prod.mk.injEq]

theorem State.coreUp_of_queues {s t : State} (h : t.queues = s.queues) : t.coreUp = s.coreUp := by
  obtain ⟨-, -, hmode, hisolated, -⟩ := State.queues_eq_iff.mp h
  simp only [State.coreUp, hmode, hisolated]

theorem State.leafQ_of_queues {s t : State} (h : t.queues = s.queues) (l : Nat) : t.leafQ l = s.leafQ l := by
  obtain ⟨-, -, -, -, -, hleaves⟩ := State.queues_eq_iff.mp h
  simp only [State.leafQ, hleaves]

theorem queues_foldl {α : Type} {f : State → α → State} (hf : ∀ s a, (f s a).queues = s.queues) (l : List α) (s : State) :
    (l.foldl f s).queues = s.queues := by
  induction l generalizing s with
  | nil => rfl
  | cons a l ih => exact (ih _).trans (hf s a)

theorem queues_ite {c : Prop} [Decidable c] {s a b : State} (ha : a.queues = s.queues) (hb : b.queues = s.queues) :
    (if c then a else b).queues = s.queues := by
  split
  · exact ha
  · exact hb

section
variable (s : State)

@[simp] theorem State.queues_set (l : Loc) (v : Nat) : (s.set l v).queues = s.queues := rfl
@[simp] theorem State.queues_sat (l : Loc) (k : Nat) : (s.sat l k).queues = s.queues := rfl
@[simp] theorem State.queues_dec (l : Loc) (k : Nat) : (s.dec l k).queues = s.queues := rfl
@[simp] theorem State.queues_countAt (l : Loc) (k t : Nat) : (s.countAt l k t).queues = s.queues := rfl
@[simp] theorem State.queues_settle : s.settle.queues = s.queues := by simp [State.queues]

@[simp] theorem State.queues_raiseAs (n info : Nat) (b : Option Nat) (f : Bool) : (s.raiseAs n info b f).queues = s.queues := by
  rw [State.queues_eq_iff, (raises s n info b f).eq]
  exact ⟨rfl, rfl, rfl, rfl, rfl, rfl⟩

@[simp] theorem State.queues_raise (n info : Nat) : (s.raise n info).queues = s.queues := s.queues_raiseAs ..
@[simp] theorem State.queues_raiseIn (n info b : Nat) : (s.raiseIn n info b).queues = s.queues := s.queues_raiseAs ..

/-! ### Cells and drops (R237, R262, R265) -/

@[simp] theorem State.queues_subCharge (a kind n : Nat) : (s.subCharge a kind n).queues = s.queues := by
  unfold State.subCharge
  split
  · rfl
  · dsimp only
    split <;> split <;> rfl

@[simp] theorem State.queues_creditBack (k : Nat) : (s.creditBack k).queues = s.queues := by
  unfold State.creditBack
  dsimp only
  split <;> rfl

@[simp] theorem State.queues_uncharge (i : Nat) : (s.uncharge i).queues = s.queues := by
  unfold State.uncharge
  split
  · rfl
  · dsimp only
    split
    · exact (State.queues_creditBack _ _).trans (State.queues_subCharge ..)
    · exact State.queues_subCharge ..

@[simp] theorem State.queues_freeCell (i : Nat) : (s.freeCell i).queues = s.queues := s.queues_uncharge i

@[simp] theorem State.queues_captureFree (kind requester owner cell : Nat) : (s.captureFree kind requester owner cell).queues = s.queues := by
  unfold State.captureFree
  split <;> rfl

@[simp] theorem State.queues_doubleFree (cell requester : Nat) : (s.doubleFree cell requester).queues = s.queues := by
  simp [State.doubleFree]

@[simp] theorem State.queues_ownerError (cell requester : Nat) : (s.ownerError cell requester).queues = s.queues := by
  simp [State.ownerError]

@[simp] theorem State.queues_releaseCell (requester i : Nat) : (s.releaseCell requester i).queues = s.queues := by
  unfold State.releaseCell
  dsimp only
  split
  · exact s.queues_doubleFree ..
  · split
    · split
      · exact s.queues_freeCell i
      · exact s.queues_ownerError ..
    · split
      · exact s.queues_freeCell i
      · rfl

@[simp] theorem State.queues_releaseCells (p : Pkt) : (s.releaseCells p).queues = s.queues := by
  have hcells : ∀ req, (p.cells.foldl (fun (t : State) i => t.releaseCell req i) s).queues = s.queues := fun req =>
    queues_foldl (fun t i => t.queues_releaseCell req i) _ _
  have hreserved := fun req => queues_ite (c := p.xResv = 0) (hcells req)
    ((State.queues_subCharge (p.cells.foldl (fun (t : State) i => t.releaseCell req i) s) p.acct 0 p.xResv).trans (hcells req))
  exact queues_ite (hreserved _) ((State.queues_subCharge ..).trans (hreserved _))

@[simp] theorem State.queues_dropPkt (r : Nat) (p : Pkt) : (s.dropPkt r p).queues = s.queues :=
  (State.queues_countAt ..).trans (s.queues_releaseCells p)

@[simp] theorem State.queues_verdictDrop (r : Nat) (p : Pkt) : (s.verdictDrop r p).queues = s.queues :=
  queues_ite (s.queues_dropPkt r p) (s.queues_dropPkt r p)

@[simp] theorem State.queues_migLate (p : Pkt) : (s.migLate p).queues = s.queues :=
  (State.queues_countAt ..).trans (queues_ite (s.queues_releaseCells p) (s.queues_dropPkt 0x11 p))

/-! ### Memory requests (R415, R420, R430) -/

@[simp] theorem State.queues_failWho (who : Nat) : (s.failWho who).queues = s.queues := by
  unfold State.failWho
  split <;> rfl

@[simp] theorem State.queues_loseLine (who key status : Nat) : (s.loseLine who key status).queues = s.queues := rfl

@[simp] theorem State.queues_lineFails (q line cls who : Nat) : (s.lineFails q line cls who).queues = s.queues := by
  unfold State.lineFails
  dsimp only
  split <;> split <;> simp

@[simp] theorem State.queues_memRequest (r : MemReq) : (s.memRequest r).queues = s.queues := by
  unfold State.memRequest
  dsimp only
  split
  · exact s.queues_lineFails ..
  · split
    · unfold State.keepRead
      split <;> rfl
    · rfl

@[simp] theorem State.queues_dynRequests (who cls : Nat) (hint write : Bool) (data : Nat → Nat) (n a : Nat) :
    (s.dynRequests who cls hint write data n a).queues = s.queues := by
  induction n generalizing s a with
  | zero => rfl
  | succ n ih => exact (ih _ _).trans (s.queues_memRequest _)

@[simp] theorem State.queues_failKind (kind : FarKind) (a status : Nat) : (s.failKind kind a status).queues = s.queues := by
  unfold State.failKind
  split
  · rfl
  · split
    · exact s.queues_failWho _
    · rfl

@[simp] theorem State.queues_farRequest (f : Nat) (kind : FarKind) (a : Nat) : (s.farRequest f kind a).queues = s.queues := by
  cases kind <;> rfl

@[simp] theorem State.queues_farSend (a : Nat) (kind : FarKind) : (s.farSend a kind).queues = s.queues := by
  unfold State.farSend
  dsimp only
  split
  · exact s.queues_failKind ..
  · split
    · exact s.queues_farRequest ..
    · rfl

/-! ### Spill (R278) -/

@[simp] theorem State.queues_setSpills (l : List Spill) : (s.setSpills l).queues = s.queues := rfl

@[simp] theorem State.queues_writeSpot (far : Bool) (who x : Nat) (bytes : List Byte) : (s.writeSpot far who x bytes).queues = s.queues := by
  unfold State.writeSpot
  dsimp only
  split
  · exact (queues_foldl (fun t i => t.queues_farSend ..) _ _).trans rfl
  · exact s.queues_dynRequests ..

@[simp] theorem State.queues_writeBlock (b : Spill) : (s.writeBlock b).queues = s.queues := by
  refine queues_foldl (fun t p => queues_ite (queues_foldl (fun u k => ?_) _ t) rfl) _ _
  exact queues_ite (State.queues_writeSpot ..) rfl

@[simp] theorem State.queues_closeSpill (b : Spill) : (s.closeSpill b).queues = s.queues := State.queues_writeBlock ..

@[simp] theorem State.queues_closeWhere (p : Spill → Bool) : (s.closeWhere p).queues = s.queues :=
  queues_foldl (fun t b => t.queues_closeSpill b) _ _

end

theorem State.newSpill_queues {s t : State} {leaf id : Nat} {far : Bool} (h : s.newSpill leaf far = some (id, t)) : t.queues = s.queues := by
  unfold State.newSpill at h
  split at h
  · split at h
    · cases h
    · cases h
      rfl
  · obtain ⟨_, -, hid⟩ := Option.map_eq_some_iff.mp h
    cases hid
    rfl

theorem State.giveSpot_queues {s t : State} {leaf x : Nat} {far : Bool} (h : s.giveSpot leaf far = some (t, x)) : t.queues = s.queues := by
  unfold State.giveSpot at h
  dsimp only at h
  split at h
  · cases h
  · rename_i id u hfound
    cases h
    rw [State.queues_setSpills]
    split at hfound
    · cases hfound
      rfl
    · exact State.newSpill_queues hfound

theorem State.giveSpots_queues {s t : State} {leaf : Nat} {far : Bool} {n : Nat} {got spots : List Nat}
    (h : s.giveSpots leaf far n got = some (t, spots)) : t.queues = s.queues := by
  induction n generalizing s got with
  | zero =>
    cases h
    rfl
  | succ n ih =>
    unfold State.giveSpots at h
    split at h
    · cases h
    · rename_i u x hspot
      exact (ih h).trans (State.giveSpot_queues hspot)

theorem State.startSpill_queues {s t : State} {leaf tier : Nat} {p r : Pkt} (h : s.startSpill leaf tier p = some (t, r)) :
    t.queues = s.queues := by
  unfold State.startSpill at h
  split at h
  · cases h
  · rename_i u spots hspots
    cases h
    have hgiven := State.giveSpots_queues hspots
    exact hgiven

end Sys2Proof.Machine
end

section
/-! SUPPORT. What a step does where a result is due or no packet is inside, how results become ready and stalls end, and where a descriptor
goes from the handoff (R79, R81, R89, R93, R164, R165, R252, R284). -/
namespace Sys2Proof.Machine

/-! ### A prism in the state -/

@[simp] theorem State.prism_setPrism_same (s : State) (k : Nat) (p : Prism) : (s.setPrism k p).prism k = p := SMap.find_put_same ..

theorem State.prism_setPrism_other (s : State) {k j : Nat} (p : Prism) (h : j ≠ k) : (s.setPrism k p).prism j = s.prism j :=
  SMap.find_put_other _ _ _ _ _ h

theorem State.prism_congr {s t : State} (h : t.code = s.code) (k : Nat) : t.prism k = s.prism k := by simp only [State.prism, h]

@[simp] theorem State.prism_set (s : State) (l : Loc) (v k : Nat) : (s.set l v).prism k = s.prism k := rfl
@[simp] theorem State.settle_prism (s : State) (k : Nat) : s.settle.prism k = s.prism k := State.prism_congr s.settle_code k

/-- A map whose values are changed by a function that keeps what an unlisted key reads as. -/
theorem SMap.find_map_values {α : Type} {d : Nat → α} {g : α → α} (hg : ∀ k, g (d k) = d k) (m : SMap α) (k : Nat) :
    SMap.find d (m.map fun e => (e.1, g e.2)) k = g (SMap.find d m k) := by
  induction m with
  | nil => exact (hg k).symm
  | cons e m ih =>
    simp only [List.map_cons, SMap.find, ih]
    split <;> rfl

/-- A prism whose packets are changed. -/
def Prism.mapPkts (p : Prism) (f : Pkt → Pkt) : Prism :=
  { p with flights := p.flights.map fun (x : Flight) => { x with pkt := x.pkt.map f } }

theorem State.prism_mapPkts (s : State) (f : Pkt → Pkt) (k : Nat) : (s.mapPkts f).prism k = (s.prism k).mapPkts f :=
  SMap.find_map_values (g := fun p : Prism => p.mapPkts f) (fun _ => rfl) _ k

/-- The frame of a command that changes the part of the state which `g` puts back. -/
theorem State.kept_of_masked {s x t : State} {but : Nat → Prop} {g : State → State} (hg : ∀ y, (g y).still = g y.still)
    (hregs : ∀ y, (g y).regs = y.regs) (hout : ∀ y, (g y).out = y.out) (ht : t = x.settle) (hs : (g x).still = s.still) (ho : x.out = s.out)
    (hw : ∀ k, ¬ but k → x.word k = s.word k) : s.kept (g t) [] but := by
  have hstill : (g t).still = s.still := by rw [hg, ht, x.settle_still, ← hg, hs]
  exact State.kept_of (x := x) hstill (by rw [hregs, ht]) (by rw [hout, ht]) hw (ho.trans (List.append_nil _).symm)

/-- The frame of a command that changes prisms. -/
theorem State.kept_code {s x t : State} {but : Nat → Prop} (ht : t = x.settle) (hs : ({ x with code := s.code } : State).still = s.still)
    (ho : x.out = s.out) (hw : ∀ k, ¬ but k → x.word k = s.word k) : s.kept { t with code := s.code } [] but :=
  State.kept_of_masked (g := fun y => { y with code := s.code }) (fun _ => rfl) (fun _ => rfl) (fun _ => rfl) ht hs ho hw

/-- The frame of a command that changes the buffers. -/
theorem State.kept_buf {s x t : State} {but : Nat → Prop} (ht : t = x.settle) (hs : ({ x with buf := s.buf } : State).still = s.still)
    (ho : x.out = s.out) (hw : ∀ k, ¬ but k → x.word k = s.word k) : s.kept { t with buf := s.buf } [] but :=
  State.kept_of_masked (g := fun y => { y with buf := s.buf }) (fun _ => rfl) (fun _ => rfl) (fun _ => rfl) ht hs ho hw

/-- A command without an effect leaves what there was. -/
theorem State.kept_settle (s : State) : s.kept s.settle [] fun _ => False :=
  State.kept_of_masked (g := fun y => y) (fun _ => rfl) (fun _ => rfl) (fun _ => rfl) rfl rfl rfl fun _ _ => rfl

/-! ### The step of a prism (R79, R89) -/

theorem exec_prismStep {k : Nat} (hk : k < 16) (late : Bool) (s : State) :
    exec (.prismStep k late) s = .next (s.prismStep k late).settle := complete_of (decide_eq_true hk) ..

/-- Prism `k` may step: packets are forwarded, it is in no reset and no stall, and its schedule is loaded (R79). -/
structure State.mayStep (s : State) (k : Nat) : Prop where
  forwarding : s.forwarding = true
  running : s.fault.blocks.contains k = false
  loaded : s.interval k (s.gridBank k) ≠ 0
  flowing : (s.prism k).stall = none

/-- The state that a step looks at: the results that are ready by their floor-paced times are so marked. -/
def State.readied (s : State) (k : Nat) : State := s.setPrism k (s.floorReady k (s.prism k))

/-- A prism that may step waits where a result that is due is not ready or comes late, stalls where a segment is missing, and advances
otherwise. -/
theorem State.prismStep_eq {s : State} {k : Nat} (h : s.mayStep k) (late : Bool) : s.prismStep k late =
    if (s.floorReady k (s.prism k)).unready then (s.readied k).beginWait k
    else if late && (s.floorReady k (s.prism k)).flights.any (fun f => f.work.looks.any fun l => (s.readied k).mayBeLate k f l) then
      ((s.readied k).setPrism k ((s.floorReady k (s.prism k)).mapLooks fun f l =>
        if (s.readied k).mayBeLate k f l then { l with ready := false } else l)).beginWait k
    else match (s.readied k).stallAt k ((s.readied k).draw.1 % 2 == 1) with
      | some (id, seg) => (s.readied k).setPrism k { s.floorReady k (s.prism k) with stall := some (id, seg, s.tb), wait := false }
      | none => (s.readied k).draw.2.advancePrism k ((s.readied k).draw.1 % 2 == 1) := by
  have hstop : (!s.forwarding || s.fault.blocks.contains k || s.interval k (s.gridBank k) == 0 || (s.prism k).stall.isSome) = false := by
    simpa [h.forwarding, h.loaded, h.flowing] using h.running
  unfold State.prismStep
  simp only [State.prism_setPrism_same]
  exact if_neg (ne_true_of_eq_false hstop)

theorem State.prismStep_waits {s : State} {k : Nat} (h : s.mayStep k) (late : Bool) (hu : (s.floorReady k (s.prism k)).unready = true) :
    s.prismStep k late = (s.readied k).beginWait k := (State.prismStep_eq h late).trans (if_pos hu)

/-- A wait that begins is counted; one that goes on is not. -/
theorem State.beginWait_eq (s : State) (k : Nat) :
    (s.beginWait k).prism k = { s.prism k with wait := true } ∧
      (s.beginWait k).get (R.PRISM_WAIT.RETURN_WAITS k) =
        (s.get (R.PRISM_WAIT.RETURN_WAITS k) + (if (s.prism k).wait then 0 else 1)) % 2 ^ 32 := by
  by_cases hw : (s.prism k).wait = true
  · have hs : s.beginWait k = s := by simp [State.beginWait, hw]
    rw [hs]
    exact ⟨by rw [← hw], by rw [if_pos hw, Nat.add_zero]; exact (Nat.mod_eq_of_lt (s.get_lt (R.PRISM_WAIT.RETURN_WAITS k))).symm⟩
  · have hs : s.beginWait k = (s.setPrism k { s.prism k with wait := true }).wrap (R.PRISM_WAIT.RETURN_WAITS k) 1 := by
      simp [State.beginWait, hw]
    rw [hs, if_neg hw]
    exact ⟨State.prism_setPrism_same .., (State.get_set_same _ _ _ (Nat.le_of_ble_eq_true rfl)).trans (Nat.mod_mod ..)⟩

/-- A wait changes its prism and the count of waits alone. -/
theorem State.beginWait_frame (s : State) (k : Nat) :
    ∃ c r, s.beginWait k = { s with code := c, regs := r } ∧
      ∀ j, j ≠ (R.PRISM_WAIT.RETURN_WAITS k).off → (s.beginWait k).word j = s.word j := by
  unfold State.beginWait
  dsimp only
  split
  · exact ⟨_, _, rfl, fun _ _ => rfl⟩
  · exact ⟨_, _, rfl, fun _ hj => State.word_set_other _ hj⟩

/-! ### A prism without packets (R81) -/

/-- A prism's count of steps goes on and its wait ends; at slot phase 0 a slot enters. -/
def State.entry (s : State) (k : Nat) : State × List Flight :=
  let s1 := s.setPrism k { s.prism k with steps := ((s.prism k).steps + 1) % 840, wait := false }
  if (s.prism k).steps % s.interval k (s.gridBank k) = 0 then ((s1.enterSlot k).1, [(s1.enterSlot k).2]) else (s1, [])

/-- A step is the entry, then the step of each slot, the newest first. -/
theorem State.advancePrism_eq (s : State) (k : Nat) (o : Bool) {u v : State} {new slots : List Flight} {samples : List Sample}
    (he : s.entry k = (u, new)) (hr : u.slotSteps k o (new ++ (s.prism k).flights.reverse) = (v, samples, slots)) :
    s.advancePrism k o = (v.setPrism k { v.prism k with flights := slots.reverse }).postSamples k samples := by
  have hs : s.advancePrism k o =
      (let e := s.entry k
      let r := e.1.slotSteps k o (e.2 ++ (s.prism k).flights.reverse)
      (r.1.setPrism k { r.1.prism k with flights := r.2.2.reverse }).postSamples k r.2.1) := rfl
  simp only [hs, he, hr]

/-- Slots without a packet that have just entered only age. -/
theorem State.slotSteps_of_empty (s : State) (k : Nat) (o : Bool) (l : List Flight) (hl : ∀ f ∈ l, f.pkt = none ∧ f.age = 0) :
    s.slotSteps k o l = (s, [], l.map fun f => { f with age := f.age + 1 }) := by
  induction l with
  | nil => rfl
  | cons f l ih =>
    obtain ⟨hp, hage⟩ := hl f (List.mem_cons_self ..)
    have hf : s.slotStep k f o = (s, [], some { f with age := f.age + 1 }) := by
      rw [State.slotStep, if_neg (by omega), hp]
    rw [State.slotSteps, hf, ih fun g hg => hl g (List.mem_cons_of_mem _ hg)]
    rfl

theorem State.postSamples_nil (s : State) (u : Nat) : s.postSamples u [] = s.set R.CNT_LOUPE_STAT.DEPTH s.cnt.loupe.length := by
  simp [State.postSamples]

/-- Where no packet waits an empty slot enters, and the buffers and the other prisms stay. -/
theorem State.enterSlot_of_empty {s : State} {k : Nat} (hq : SMap.find (fun _ => []) s.buf.toPrism k = []) :
    ∃ (u : State) (p : Prism) (f : Flight), s.enterSlot k = (u.setPrism k p, f) ∧ u.buf = s.buf ∧ u.code = s.code ∧ p.steps = (s.prism k).steps ∧
      p.wait = (s.prism k).wait ∧ f.pkt = none ∧ f.age = 0 ∧ f.bank = s.gridBank k := by
  have hnone : (if (s.prism k).hollow then [] else ([] : List Pkt)) = [] := ite_self ..
  unfold State.enterSlot
  simp only [hq, hnone]
  split <;> exact ⟨_, _, _, rfl, rfl, rfl, rfl, rfl, rfl, rfl, rfl⟩

theorem State.entry_of_empty {s : State} {k : Nat} (hq : SMap.find (fun _ => []) s.buf.toPrism k = []) :
    ∃ (u : State) (new : List Flight), s.entry k = (u, new) ∧ u.buf = s.buf ∧ (u.prism k).steps = ((s.prism k).steps + 1) % 840 ∧ (u.prism k).wait = false ∧
      (∀ j, j ≠ k → u.prism j = s.prism j) ∧ (∀ f ∈ new, f.pkt = none ∧ f.age = 0 ∧ f.bank = s.gridBank k) ∧
      new.length = if (s.prism k).steps % s.interval k (s.gridBank k) = 0 then 1 else 0 := by
  unfold State.entry
  dsimp only
  split
  · obtain ⟨u, p, f, he, hbuf, hcode, hsteps, hwait, hpkt, hage, hbank⟩ := State.enterSlot_of_empty
      (s := s.setPrism k { s.prism k with steps := ((s.prism k).steps + 1) % 840, wait := false }) (k := k) hq
    rw [State.prism_setPrism_same] at hsteps hwait
    refine ⟨u.setPrism k p, [f], by rw [he], hbuf, by rw [State.prism_setPrism_same, hsteps], by rw [State.prism_setPrism_same, hwait],
      fun j hj => ?_, ?_, rfl⟩
    · rw [State.prism_setPrism_other _ _ hj, State.prism_congr hcode, State.prism_setPrism_other _ _ hj]
    · simpa using ⟨hpkt, hage, hbank⟩
  · exact ⟨_, [], rfl, rfl, by rw [State.prism_setPrism_same], by rw [State.prism_setPrism_same],
      fun j hj => State.prism_setPrism_other _ _ hj, by simp, rfl⟩

/-- A step of a prism without packets: its empty slots age by one step. -/
theorem State.advancePrism_of_empty {s : State} {k : Nat} (hq : SMap.find (fun _ => []) s.buf.toPrism k = [])
    (hf : (s.prism k).flights = []) (o : Bool) :
    ((s.advancePrism k o).prism k).steps = ((s.prism k).steps + 1) % 840 ∧ ((s.advancePrism k o).prism k).wait = false ∧
      ((s.advancePrism k o).prism k).flights.length = (if (s.prism k).steps % s.interval k (s.gridBank k) = 0 then 1 else 0) ∧
      (∀ f ∈ ((s.advancePrism k o).prism k).flights, f.pkt = none ∧ f.age = 1 ∧ f.bank = s.gridBank k) ∧
      (s.advancePrism k o).buf = s.buf ∧ ∀ j, j ≠ k → (s.advancePrism k o).prism j = s.prism j := by
  obtain ⟨u, new, he, hbuf, hsteps, hwait, hother, hnew, hlen⟩ := State.entry_of_empty hq
  have hr : u.slotSteps k o (new ++ (s.prism k).flights.reverse) = (u, [], new.map fun f => { f with age := f.age + 1 }) := by
    rw [hf, List.reverse_nil, List.append_nil, u.slotSteps_of_empty k o new fun f hm => ⟨(hnew f hm).1, (hnew f hm).2.1⟩]
  rw [s.advancePrism_eq k o he hr, State.postSamples_nil]
  simp only [State.prism_set, State.prism_setPrism_same]
  refine ⟨hsteps, hwait, by simpa using hlen, fun f hm => ?_, hbuf, fun j hj => (State.prism_setPrism_other _ _ hj).trans (hother j hj)⟩
  obtain ⟨g, hg, rfl⟩ := List.mem_map.mp (List.mem_reverse.mp hm)
  obtain ⟨hpkt, hage, hbank⟩ := hnew g hg
  exact ⟨hpkt, by rw [hage], hbank⟩

theorem Prism.mapLooks_of_empty {p : Prism} (h : p.flights = []) (g : Flight → Lookup → Lookup) : p.mapLooks g = p := by
  obtain ⟨⟩ := p
  obtain rfl : _ = [] := h
  rfl

/-- No stall begins in a prism without packets. -/
theorem State.stallAt_of_empty {s : State} {k : Nat} (hq : SMap.find (fun _ => []) s.buf.toPrism k = [])
    (hf : (s.prism k).flights = []) (o : Bool) : s.stallAt k o = none := by
  simp [State.stallAt, hf, hq]

/-- A prism without packets advances. -/
theorem State.prismStep_of_empty {s : State} {k : Nat} (h : s.mayStep k) (hq : SMap.find (fun _ => []) s.buf.toPrism k = [])
    (hf : (s.prism k).flights = []) (late : Bool) :
    s.prismStep k late = (s.readied k).draw.2.advancePrism k ((s.readied k).draw.1 % 2 == 1) ∧ (s.readied k).prism k = s.prism k := by
  have hready : s.floorReady k (s.prism k) = s.prism k := Prism.mapLooks_of_empty hf _
  have hprism : (s.readied k).prism k = s.prism k := by rw [State.readied, State.prism_setPrism_same, hready]
  refine ⟨?_, hprism⟩
  rw [State.prismStep_eq h, hready, if_neg (by simp [Prism.unready, hf]), if_neg (by simp [hf]),
    State.stallAt_of_empty (s := s.readied k) hq (by rw [hprism, hf])]

/-! ### Results (R89, R93) -/

theorem exec_returnReady {k : Nat} (hk : k < 16) {s : State} (hc : s.coreUp = true) : exec (.returnReady k) s =
    .next (s.setPrism k ((s.prism k).mapLooks fun f l =>
      if l.due = f.age ∧ l.isFar = false then { l with ready := true } else l).checkWait).settle := by
  refine (complete_of (decide_eq_true hk) ..).trans ?_
  rw [if_neg (by simp [hc])]

/-- The far read of `l` is answered far-late in prism `k`. -/
def State.answeredLate (s : State) (k : Nat) (l : Lookup) : State :=
  s.setPrism k ((s.prism k).mapLooks fun _ x => if x.id = l.id then { x with ready := true, status := lookStatus + 9 } else x).checkWait

theorem exec_farLate {k : Nat} (hk : k < 16) {s : State} (hc : s.coreUp = true) {p : Pkt} {l : Lookup} (hl : s.lateRead k = some (p, l)) :
    exec (.farLate k) s =
      .next (((s.answeredLate k l).countAt (R.PRISM_FAR_LATE.COUNT k) 1 p.expo).raise 15 (farPort (l.far.getD 0))).settle := by
  refine (complete_of (decide_eq_true hk) ..).trans ?_
  rw [if_pos hc, hl]
  rfl

/-- A count of one event is one more, modulo 2^64. -/
theorem State.countAt_one (s : State) (l : Loc) (t : Nat) : (s.countAt l 1 t).word l.off = s.word l.off + 1 := by
  have h : (s.countAt l 1 t).word l.off = BitVec.ofNat 64 (counterAdd (s.word l.off).toNat 1).1 := State.word_setWord_same s _ _
  rw [h]
  refine BitVec.eq_of_toNat_eq ?_
  simp [counterAdd, BitVec.toNat_add]

/-- A raised source of those that are listed is latched, whatever block it names. -/
theorem State.raiseIn_latches {s : State} {n info b : Nat} (hn : sourceListed n = true) (hc : s.coreUp = true) :
    (s.raiseIn n info b).bit (faultBit n) = true := by
  have hlt := sourceListed_lt hn
  exact (raises_after s hn hc).latch n (by omega) (State.bit_setBit_same _ _ _ rfl (by simp only [faultBit]; omega))

theorem State.settle_latch (s : State) {n : Nat} (hn : n < 256) : s.settle.bit (faultBit n) = s.bit (faultBit n) := by
  refine State.settle_bit s ?_
  simp only [faultBit, followReg]
  omega

/-! ### Stalls (R164, R165) -/

/-- The next segment of the frame that arrives is present, and a stall that waits for it ends. -/
theorem exec_cutSegmentPresent {n : Nat} (hn : n < 96) {s : State} (hc : s.coreUp = true) {f : RxFrame} (hf : s.arrivingSegs n = some f) :
    exec (.cutSegmentPresent n) s =
      .next ((if (s.prism (n / 6)).stall.any (fun (x : Nat × Nat × Nat) => x.1 == f.pkt.id) then s.endStall (n / 6) else s).nextSegment
        f.pkt.id).settle := by
  refine (complete_of (decide_eq_true hn) ..).trans ?_
  rw [if_pos hc, hf]

theorem exec_cutSegmentPresent_none {n : Nat} (hn : n < 96) {s : State} (hc : s.coreUp = true) (hf : s.arrivingSegs n = none) :
    exec (.cutSegmentPresent n) s = .next s.settle := by
  refine (complete_of (decide_eq_true hn) ..).trans ?_
  rw [if_pos hc, hf]

/-- The end of a stall: no stall is left, no frame on its way in changes, and the core runs as before. -/
theorem State.endStall_spec {s : State} {k : Nat} {x : Nat × Nat × Nat} (h : (s.prism k).stall = some x) :
    ((s.endStall k).prism k).stall = none ∧ (s.endStall k).buf.rx = s.buf.rx ∧ (s.endStall k).coreUp = s.coreUp := by
  have hpeak : ∀ (u : State) (f : Pkt → Pkt) (l : Loc) (v : Nat), (((u.mapPkts f).peak l v).prism k).stall = (u.prism k).stall ∧
      ((u.mapPkts f).peak l v).buf.rx = u.buf.rx ∧ ((u.mapPkts f).peak l v).coreUp = u.coreUp := by
    intro u f l v
    have hprism : ((u.mapPkts f).prism k).stall = (u.prism k).stall := (congrArg Prism.stall (u.prism_mapPkts f k)).trans rfl
    unfold State.peak
    split
    · exact ⟨hprism, rfl, rfl⟩
    · exact ⟨hprism, rfl, rfl⟩
  unfold State.endStall
  dsimp only
  rw [h]
  exact ⟨(hpeak ..).1.trans (congrArg Prism.stall (State.prism_setPrism_same ..)), (hpeak ..).2.1, (hpeak ..).2.2⟩

/-- A packet cut off from its prism leaves the stall of that prism as it is. -/
theorem State.cutOut_spec (s : State) (k id : Nat) :
    ((s.cutOut k id).prism k).stall = (s.prism k).stall ∧ (s.cutOut k id).coreUp = s.coreUp := by
  have htake : ((s.takeOut k id).prism k).stall = (s.prism k).stall := by
    simp only [State.takeOut, State.removeWaiting]
    refine (congrArg Prism.stall (State.prism_setPrism_same ..)).trans ?_
    rw [State.prism_setPrism_same]
  refine ⟨?_, rfl⟩
  rw [State.cutOut]
  exact (congrArg Prism.stall (State.prism_setPrism_same ..)).trans htake

/-- The packet of a stall that has outlasted its budget leaves its prism and is dropped, counted and reported (R165). -/
def State.stallCut (s : State) (k id : Nat) (p : Pkt) : State :=
  ((((s.endStall k).cutOut k id).verdictDrop 8 p).countAt (R.PRISM_CUT_ABORT.COUNT k) 1 p.expo).raiseIn 14 k k

theorem exec_parseCut {k id seg t0 : Nat} {p : Pkt} (hk : k < 16) {s : State} (hc : s.coreUp = true) (hs : (s.prism k).stall = some (id, seg, t0))
    (hp : ((s.prism k).packets ++ SMap.find (fun _ => []) s.buf.toPrism k).find? (fun x => x.id == id) = some p)
    (hb : s.stallBudget p.src ≤ p.stallTb + (s.tb - t0)) : exec (.parseCut k) s = .next (s.stallCut k id p).settle := by
  refine (complete_of (decide_eq_true hk) ..).trans ?_
  rw [if_pos hc, hs]
  dsimp only
  rw [hp]
  dsimp only
  rw [if_neg (Nat.not_lt.mpr hb)]
  rfl

theorem State.stallCut_spec {s : State} {k id : Nat} {p : Pkt} {x : Nat × Nat × Nat} (hc : s.coreUp = true) (hs : (s.prism k).stall = some x) :
    ((s.stallCut k id p).prism k).stall = none ∧ (s.stallCut k id p).bit (faultBit 14) = true := by
  obtain ⟨hnone, -, hup⟩ := State.endStall_spec hs
  obtain ⟨hstall, hcore⟩ := (s.endStall k).cutOut_spec k id
  have hdrop := (State.queues_countAt _ (R.PRISM_CUT_ABORT.COUNT k) 1 p.expo).trans (((s.endStall k).cutOut k id).queues_verdictDrop 8 p)
  have hcut := (State.queues_raiseIn _ 14 k k).trans hdrop
  refine ⟨?_, State.raiseIn_latches rfl ((State.coreUp_of_queues hdrop).trans (hcore.trans (hup.trans hc)))⟩
  rw [State.stallCut, State.prism_congr (State.queues_eq_iff.mp hcut).1, hstall, hnone]

/-! ### The enqueue from the handoff (R252, R284) -/

theorem exec_enqueue (s : State) : exec .enqueue s = .next s.enqueueNext.settle := complete_of rfl ..

/-- A packet that joins a leaf queue stands last in it. -/
theorem State.joinLeaf_queues (s : State) (l : Nat) (p : Pkt) :
    ∃ r, (s.joinLeaf l p).queues = (s.setLeafQ l (s.leafQ l ++ [r])).queues := by
  have hput : ∀ (t : State) (r : Pkt), t.queues = s.queues →
      (t.setLeafQ l (s.leafQ l ++ [r])).queues = (s.setLeafQ l (s.leafQ l ++ [r])).queues := by
    intro t r ht
    obtain ⟨hcode, hmig, hmode, hisolated, hhandoff, hleaves⟩ := State.queues_eq_iff.mp ht
    exact State.queues_eq_iff.mpr ⟨hcode, hmig, hmode, hisolated, hhandoff, by simp only [State.setLeafQ, hleaves]⟩
  have hmix : ∀ x : Option (Nat × Nat), (match x with
      | some (_, c) => if !isFabricLeaf l && c != p.stamp.cls then s.wrap R.COL_ERR.CLASS_MIX 1 else s
      | none => s).queues = s.queues := by
    intro x
    split
    · exact queues_ite rfl rfl
    · rfl
  unfold State.joinLeaf
  dsimp only
  split
  · rename_i t r hspill
    have hstart := State.startSpill_queues (Option.ite_none_left_eq_some.mp hspill).2
    exact ⟨r, (State.queues_closeWhere ..).trans (hput t r (hstart.trans (queues_ite (hmix _) (hmix _))))⟩
  · exact ⟨_, (State.queues_closeWhere ..).trans (hput _ _ (queues_ite (hmix _) (hmix _)))⟩

/-- Where no IN migration is open, no arrival ends one (R255). -/
theorem State.endMarked_of_none {s : State} (h : ∀ m ∈ s.mig.open_, m.kind ≠ 2) (e : Nat) : s.endMarked e = s := by
  have hnone : s.migOf e 2 = none := List.find?_eq_none.mpr fun m hm => by simp [h m hm]
  rw [State.endMarked, hnone]

/-- A packet on its way to a leaf queue changes neither the handoff nor a migration, unless it is fenced by an IN migration. -/
theorem State.routeLeaf_keeps {s : State} (h : ∀ m ∈ s.mig.open_, m.kind ≠ 2) (p : Pkt) :
    (s.routeLeaf p).mig = s.mig ∧ (s.routeLeaf p).buf.handoff = s.buf.handoff := by
  have hjoin : ∀ l q, (s.joinLeaf l q).mig = s.mig ∧ (s.joinLeaf l q).buf.handoff = s.buf.handoff := by
    intro l q
    obtain ⟨r, hr⟩ := s.joinLeaf_queues l q
    obtain ⟨-, hmig, -, -, hhandoff, -⟩ := State.queues_eq_iff.mp hr
    exact ⟨hmig, hhandoff⟩
  have hnone : s.migOf p.leaf 2 = none := List.find?_eq_none.mpr fun m hm => by simp [h m hm]
  unfold State.routeLeaf
  dsimp only
  rw [hnone]
  split
  · exact hjoin ..
  · split
    · exact hjoin ..
    · split
      · obtain ⟨-, hmig, -, -, hhandoff, -⟩ := State.queues_eq_iff.mp (s.queues_migLate p)
        exact ⟨hmig, hhandoff⟩
      · exact hjoin ..

/-- A packet for the fabric joins its leaf queue, and no other. -/
theorem State.routeLeaf_fabric {s : State} {p : Pkt} (h : isFabricLeaf p.leaf = true) :
    ((s.routeLeaf p).leafQ p.leaf).length = (s.leafQ p.leaf).length + 1 ∧ ∀ l, l ≠ p.leaf → (s.routeLeaf p).leafQ l = s.leafQ l := by
  obtain ⟨r, hr⟩ := s.joinLeaf_queues p.leaf p
  rw [State.routeLeaf, if_pos h]
  refine ⟨?_, fun l hl => ?_⟩
  · rw [State.leafQ_of_queues hr, State.leafQ, State.setLeafQ, SMap.find_put_same, List.length_append, List.length_singleton]
  · rw [State.leafQ_of_queues hr]
    exact SMap.find_put_other _ _ _ _ _ hl

/-- The migration whose fence takes a packet: the LOCAL one of its endpoint, where the packet was admitted here and carries the new epoch
(R252). -/
def State.fenceOf (s : State) (p : Pkt) : Option Migration :=
  (if p.remote.isSome then none else s.migOf p.ep 0).filter fun m => p.stamp.epoch != m.oldEpoch

/-- A result that is not late goes to the fence that takes it, or on to its leaf queue. -/
theorem State.enqueuePkt_eq {s : State} {p : Pkt} (h : s.staleResult p = false) :
    s.enqueuePkt p = match s.fenceOf p with
      | some m => s.fencePkt m p
      | none => s.routeLeaf p := by
  rw [State.enqueuePkt, if_neg (by simp [h]), State.fenceOf]
  cases (if p.remote.isSome then none else s.migOf p.ep 0) with
  | none => rfl
  | some m =>
    by_cases he : p.stamp.epoch = m.oldEpoch
    · simp [he, Option.filter]
    · simp [he, Option.filter]

/-- A fence that takes a packet belongs to the open LOCAL migration of its endpoint. -/
theorem State.fenceOf_spec {s : State} {p : Pkt} {m : Migration} (h : s.fenceOf p = some m) :
    s.migOf p.ep 0 = some m ∧ p.remote = none ∧ p.stamp.epoch ≠ m.oldEpoch := by
  obtain ⟨hm, he⟩ := Option.filter_eq_some_iff.mp h
  split at hm
  · cases hm
  · rename_i hr
    exact ⟨hm, by simpa using hr, by simpa using he⟩

/-- Where some element meets the test, what replaces the first of them is in the list. -/
theorem mem_updFirst_of_mem {α : Type} {q : α → Bool} {l : List α} {a : α} (b : α) (ha : a ∈ l) (hq : q a = true) :
    b ∈ updFirst q (fun _ => b) l := by
  induction l with
  | nil => cases ha
  | cons c l ih =>
    rw [updFirst]
    split
    · exact List.mem_cons_self ..
    · rename_i hc
      rcases List.mem_cons.mp ha with rfl | ha
      · exact absurd hq hc
      · exact List.mem_cons_of_mem _ (ih ha)

theorem mem_of_mem_updFirst {α : Type} {q : α → Bool} {l : List α} {a b : α} (h : a ∈ updFirst q (fun _ => b) l) : a ∈ l ∨ a = b := by
  induction l with
  | nil => cases h
  | cons c l ih =>
    rw [updFirst] at h
    split at h
    · rcases List.mem_cons.mp h with rfl | h
      · exact .inr rfl
      · exact .inl (List.mem_cons_of_mem _ h)
    · rcases List.mem_cons.mp h with rfl | h
      · exact .inl (List.mem_cons_self ..)
      · exact (ih h).imp (List.mem_cons_of_mem _) id

/-- The state without the descriptor that is enqueued. -/
def State.unhanded (s : State) (p : Pkt) : State := { s with buf := { s.buf with handoff := s.buf.handoff.filter fun q => q.id != p.id } }

/-- The state in which a descriptor has left the handoff for the fence that takes it, or for its leaf queue. -/
def State.placed (s : State) (p : Pkt) : State :=
  match s.fenceOf p with
  | some m => (s.unhanded p).fencePkt m p
  | none => (s.unhanded p).routeLeaf p

theorem State.placed_keeps {s : State} (h : ∀ m ∈ s.mig.open_, m.kind ≠ 2) (p : Pkt) :
    (s.placed p).buf.handoff = (s.unhanded p).buf.handoff ∧ ∀ m ∈ (s.placed p).mig.open_, m.kind ≠ 2 := by
  unfold State.placed
  split
  · rename_i m hfence
    have hm := List.mem_of_find?_eq_some (State.fenceOf_spec hfence).1
    refine ⟨rfl, fun n hn => ?_⟩
    rcases mem_of_mem_updFirst hn with hn | rfl
    · exact h n hn
    · exact h m hm
  · obtain ⟨hmig, hhandoff⟩ := State.routeLeaf_keeps (s := s.unhanded p) h p
    exact ⟨hhandoff, by rw [hmig]; exact h⟩

theorem State.enqueueNext_placed {s : State} {p : Pkt} (hf : s.forwarding = true) (hn : nextReady s.buf.handoff [] = some p)
    (hg : p.group = false) (hl : s.staleResult p = false) (hin : ∀ m ∈ s.mig.open_, m.kind ≠ 2) : s.enqueueNext = s.placed p := by
  have henq : (s.unhanded p).enqueuePkt p = s.placed p := State.enqueuePkt_eq hl
  unfold State.enqueueNext
  rw [if_pos hf, hn]
  dsimp only
  rw [hg, if_neg Bool.false_ne_true]
  refine (congrArg (fun t : State => p.leaves.foldl (fun (t : State) l => t.endMarked l) t) henq).trans ?_
  exact List.foldl_fixed' (fun l => State.endMarked_of_none (s.placed_keeps hin p).2 l) p.leaves

theorem State.enqueueNext_idle {s : State} (h : s.forwarding = false ∨ nextReady s.buf.handoff [] = none) : s.enqueueNext = s := by
  have hnone : (if s.forwarding then nextReady s.buf.handoff [] else none) = none := by
    rcases h with h | h
    · rw [if_neg (by simp [h])]
    · rw [h, ite_self]
  rw [State.enqueueNext, hnone]

/-- The fence of an open migration takes a packet last. -/
theorem State.fencePkt_joins {s : State} {p : Pkt} {m : Migration} (h : s.migOf p.ep 0 = some m) :
    ∃ n ∈ (s.fencePkt m p).mig.open_, n.slot = m.slot ∧ n.fence = m.fence ++ [p] :=
  ⟨{ m with fence := m.fence ++ [p], firstNs := some (m.firstNs.getD s.ns) },
    mem_updFirst_of_mem _ (List.mem_of_find?_eq_some h) (beq_self_eq_true _), rfl, rfl⟩

/-- Settles O32: a clause for each command, with the two outcomes of PRISM_STEP and of ENQUEUE apart. -/
theorem prismsStepAndHandOff : Obligations.PrismsStepAndHandOff := by
  refine ⟨?advance, ?wait, ?ready, ?late, ?stall, ?segment, ?enqueue, ?idle⟩
  case advance =>
    intro s k late hk hf hb hi hs hflights hq
    obtain ⟨hstep, hprism⟩ := State.prismStep_of_empty ⟨hf, hb, hi, hs⟩ hq hflights late
    have hadv := State.advancePrism_of_empty (s := (s.readied k).draw.2) (k := k) hq (hprism ▸ hflights) ((s.readied k).draw.1 % 2 == 1)
    rw [← hstep] at hadv
    obtain ⟨hsteps, hwait, hlen, hempty, hbuf, hother⟩ := hadv
    have hpr : (s.readied k).draw.2.prism k = s.prism k := hprism
    rw [hpr] at hsteps hlen
    refine ⟨_, exec_prismStep hk late s, ?_⟩
    simp only [State.settle_prism, State.settle_buf]
    exact ⟨hsteps, hwait, hlen, hempty, hbuf, fun j hj => (hother j hj).trans (State.prism_setPrism_other _ _ hj)⟩
  case wait =>
    intro s k late hk hf hb hi hs hu
    refine ⟨_, exec_prismStep hk late s, ?_⟩
    rw [State.prismStep_waits ⟨hf, hb, hi, hs⟩ late hu]
    obtain ⟨hprism, hcount⟩ := (s.readied k).beginWait_eq k
    obtain ⟨c, r, hframe, hword⟩ := (s.readied k).beginWait_frame k
    rw [State.readied, State.prism_setPrism_same] at hprism hcount
    refine ⟨(State.settle_prism _ k).trans hprism, ?_, State.kept_code rfl (by rw [hframe]; rfl) (by rw [hframe]; rfl) hword⟩
    rw [State.settle_get _ (by simp only [R.PRISM_WAIT.RETURN_WAITS, followReg]; omega)]
    exact hcount
  case ready =>
    intro s k hk hc
    exact ⟨_, exec_returnReady hk hc, by rw [State.settle_prism, State.prism_setPrism_same],
      State.kept_code rfl rfl rfl fun _ _ => rfl⟩
  case late =>
    intro s k p l hk hc hl
    refine ⟨_, exec_farLate hk hc hl, ?_, ?_, ?_⟩
    · exact (State.settle_latch _ (by decide)).trans (State.raise_latches _ 15 _ rfl hc)
    · rw [State.settle_word _ (by simp only [R.PRISM_FAR_LATE.COUNT, followReg]; omega), State.raise,
        (raises _ 15 _ none false).regs _ (by simp only [R.PRISM_FAR_LATE.COUNT, raiseReg]; omega), State.countAt_one]
      rfl
    · rw [State.settle_prism, State.prism_congr (State.raise_code ..)]
      exact State.prism_setPrism_same ..
  case stall =>
    intro s k id seg t0 hk hc hs
    refine ⟨fun n f hn hport hf hid => ?_, fun p hp hb => ?_⟩
    · obtain ⟨hnone, hrx, -⟩ := State.endStall_spec hs
      have hstalled : ((s.prism (n / 6)).stall.any fun (x : Nat × Nat × Nat) => x.1 == f.pkt.id) = true := by simp [hport, hs, hid]
      refine ⟨_, exec_cutSegmentPresent hn hc hf, ?_⟩
      rw [if_pos hstalled, hport, hid, State.settle_prism, State.settle_buf, ← hrx]
      exact ⟨hnone, rfl⟩
    · obtain ⟨hnone, hlatch⟩ := State.stallCut_spec (id := id) (p := p) hc hs
      exact ⟨_, exec_parseCut hk hc hs hp hb, by rw [State.settle_prism, hnone], (State.settle_latch _ (by decide)).trans hlatch⟩
  case segment =>
    intro s n hn hc
    refine ⟨fun f hf hflow => ?_, fun hf => ⟨_, exec_cutSegmentPresent_none hn hc hf, s.kept_settle⟩⟩
    have hflows : ((s.prism (n / 6)).stall.any fun (x : Nat × Nat × Nat) => x.1 == f.pkt.id) = false := by
      cases hx : (s.prism (n / 6)).stall with
      | none => rfl
      | some x => simpa using hflow x hx
    refine ⟨_, exec_cutSegmentPresent hn hc hf, ?_⟩
    rw [hflows, if_neg Bool.false_ne_true, State.settle_buf]
    exact ⟨rfl, State.kept_buf rfl rfl rfl fun _ _ => rfl⟩
  case enqueue =>
    intro s p hf hn hg hl hin
    have hnext := State.enqueueNext_placed hf hn hg hl hin
    refine ⟨_, exec_enqueue s, ?_, fun hleaf hfab => ?_, fun m hr hm he => ?_⟩
    · rw [State.settle_buf, hnext, (s.placed_keeps hin p).1]
      rfl
    · have hfence : s.fenceOf p = none := by
        rcases hleaf with h | h
        · simp [State.fenceOf, h]
        · simp [State.fenceOf, h]
      obtain ⟨hlen, hother⟩ := State.routeLeaf_fabric (s := s.unhanded p) hfab
      rw [hnext, State.placed, hfence]
      simp only [State.leafQ_of_queues (State.queues_settle _)]
      exact ⟨hlen, hother⟩
    · have hfence : s.fenceOf p = some m := by simp [State.fenceOf, hr, hm, Option.filter, he]
      rw [hnext, State.placed, hfence, State.settle_mig]
      exact ⟨fun l => State.leafQ_of_queues (State.queues_settle _) l, State.fencePkt_joins (s := s.unhanded p) hm⟩
  case idle =>
    intro s h
    exact ⟨_, exec_enqueue s, by rw [State.enqueueNext_idle h]; exact s.kept_settle⟩

end Sys2Proof.Machine
end

section
/-! SUPPORT. A drop whose packet names an account that the device does not have: what the statement about verdicts leaves out. -/
namespace Sys2Proof.Machine

/-! ### A packet of a stray account (R269, R553) -/

/-- A packet that gives up one reserved cell beyond its chain. Its account is none of the 385 of R269: BUF_ACCT.USED of this number stands at
the offset of the counter of reason 0. -/
def strayPkt : Pkt := { id := 0, src := 0, bytes := [], acct := 0x1C0000, xResv := 1 }

/-- The packet at the end of the last facet of a prism whose facets take one step each, with a verdict of DROP for reason 0. -/
def strayFlight : Flight :=
  { pkt := some strayPkt, age := 30, bank := 0, work := { verdict := { kind := 2 } }, tokens := [], inTb := 0 }

/-- SERVE with that packet alone in prism 0, and a count of 2^20 packets dropped for reason 0: as BUF_ACCT, one cell in use. -/
def strayDrop : State :=
  let s : State := { State.reset with mode := .serve }
  ((s.set (R.PRISM_SCHED.II 0 0) 1).setWord (R.CNT_REASON.COUNT 0).off 0x100000#64).setPrism 0 { flights := [strayFlight] }

theorem strayDrop_holdsOne : strayDrop.holdsOne 0 strayPkt strayFlight := by decide +kernel

theorem strayDrop_atHandoff : strayFlight.age = strayDrop.startAge 0 strayFlight.bank 30 := by decide +kernel

theorem strayDrop_before : strayDrop.word (R.CNT_REASON.COUNT 0).off = 0x100000#64 := by decide +kernel

/-- The cell given up takes the count back to 0 before the drop is counted. -/
theorem strayDrop_after : (strayDrop.prismStep 0 false).word (R.CNT_REASON.COUNT 0).off = 1#64 := by decide +kernel

/-- Refutes O60: nothing bounds the account of the packet, and the cells that a dropped packet of account 0x1C0000 gives up are counted off the
word that counts the drop, so the count does not rise by 1. -/
theorem not_prismWordsTakeEffect : ¬ Obligations.PrismWordsTakeEffect := by
  rintro ⟨-, -, -, -, hverdict⟩
  obtain ⟨hdrop, -, -⟩ := hverdict strayDrop 0 false strayPkt strayFlight strayDrop_holdsOne rfl strayDrop_atHandoff rfl rfl
  obtain ⟨t, x, ht, -, -, hcount⟩ := hdrop rfl Nat.ofNat_pos
  obtain rfl : (strayDrop.prismStep 0 false).settle = t := by simpa [exec_prismStep] using ht
  have hreason : strayFlight.work.verdict.reason = 0 := rfl
  rw [hreason, State.settle_word _ (by decide), strayDrop_after, strayDrop_before] at hcount
  exact absurd hcount (by decide)

end Sys2Proof.Machine
end

section
/-! SUPPORT. Blocks that leave reset: what drops, drain tokens and raised faults leave of prisms, service facets and the record of resets, and
SVC_STATE as it shows a service facet (R61, R110, R138, R139, R528). -/
namespace Sys2Proof.Machine

/-! ### What drops, counts and faults that name no block leave -/

/-- Prisms and service facets, the blocks in reset, and what resets have discarded. -/
def State.facets (s : State) : CodeState × List Nat × LossState := (s.code, s.fault.blocks, s.loss)

theorem State.facets_eq_iff {s t : State} : t.facets = s.facets ↔ t.code = s.code ∧ t.fault.blocks = s.fault.blocks ∧ t.loss = s.loss := by
  simp only [State.facets, Prod.mk.injEq]

theorem facets_foldl {α : Type} {f : State → α → State} (hf : ∀ s a, (f s a).facets = s.facets) (l : List α) (s : State) :
    (l.foldl f s).facets = s.facets :=
  List.foldlRecOn (motive := fun t : State => t.facets = s.facets) l f rfl fun t ht a _ => (hf t a).trans ht

theorem facets_ite {c : Prop} [Decidable c] {s a b : State} (ha : a.facets = s.facets) (hb : b.facets = s.facets) :
    (if c then a else b).facets = s.facets := by
  split
  · exact ha
  · exact hb

section
variable (s : State)

@[simp] theorem State.facets_set (l : Loc) (v : Nat) : (s.set l v).facets = s.facets := rfl
@[simp] theorem State.facets_countAt (l : Loc) (k t : Nat) : (s.countAt l k t).facets = s.facets := rfl

/-! A raise that names no block resets none (R525). -/

@[simp] theorem State.facets_toHost (link : Nat) (e : Emit) : (s.toHost link e).facets = s.facets := facets_ite rfl rfl

@[simp] theorem State.facets_admitHold : s.admitHold.facets = s.facets := rfl

@[simp] theorem State.facets_logFault (n info : Nat) (f e c : Bool) (time : Nat) : (s.logFault n info f e c time).facets = s.facets := by
  unfold State.logFault
  exact (State.facets_set ..).trans (List.foldlRecOn (motive := fun t : State => t.facets = s.facets) _ _ rfl fun _ ht _ _ => ht)

theorem State.facets_chipReset (n : Nat) : ({ s with
    fault := { s.fault with chipReset := true, chipBy := n }, power := { s.power with ranChip := true } } : State).facets = s.facets := rfl

@[simp] theorem State.facets_nmiChip (n info : Nat) (f e nmi chip : Bool) : (s.nmiChip n info f e nmi chip).facets = s.facets := by
  unfold State.nmiChip
  split
  · exact (State.facets_chipReset _ n).trans (s.facets_logFault ..)
  · exact facets_ite (s.facets_logFault ..) rfl

@[simp] theorem State.facets_postFault (e : FaultEvent) : (s.postFault e).facets = s.facets := by
  unfold State.postFault
  exact facets_ite rfl (State.facets_countAt ..)

@[simp] theorem State.facets_raise (n info : Nat) : (s.raise n info).facets = s.facets := by
  have hlatched : ((s.setBit (faultBit n) true).sat (R.FLT_REACT.COUNT n) 1).facets = s.facets := rfl
  unfold State.raise State.raiseAs
  refine facets_ite rfl (facets_ite (facets_ite (s.facets_logFault ..) rfl) ?_)
  dsimp only
  split
  · exact (State.facets_nmiChip ..).trans ((State.facets_postFault ..).trans hlatched)
  · refine (State.facets_nmiChip ..).trans ((facets_ite (State.facets_toHost ..) rfl).trans ?_)
    exact (facets_ite (State.facets_admitHold _) rfl).trans ((State.facets_postFault ..).trans hlatched)

/-! Cells and drops (R237, R262, R265). -/

@[simp] theorem State.facets_subCharge (a kind n : Nat) : (s.subCharge a kind n).facets = s.facets := by
  unfold State.subCharge
  split
  · rfl
  · exact facets_ite (facets_ite rfl rfl) (facets_ite rfl rfl)

@[simp] theorem State.facets_creditBack (k : Nat) : (s.creditBack k).facets = s.facets := facets_ite rfl rfl

@[simp] theorem State.facets_uncharge (i : Nat) : (s.uncharge i).facets = s.facets := by
  unfold State.uncharge
  split
  · rfl
  · exact facets_ite ((State.facets_creditBack ..).trans (State.facets_subCharge ..)) (State.facets_subCharge ..)

@[simp] theorem State.facets_freeCell (i : Nat) : (s.freeCell i).facets = s.facets := s.facets_uncharge i

@[simp] theorem State.facets_captureFree (kind requester owner cell : Nat) : (s.captureFree kind requester owner cell).facets = s.facets :=
  facets_ite rfl rfl

@[simp] theorem State.facets_doubleFree (cell requester : Nat) : (s.doubleFree cell requester).facets = s.facets :=
  (State.facets_raise ..).trans (State.facets_captureFree ..)

@[simp] theorem State.facets_ownerError (cell requester : Nat) : (s.ownerError cell requester).facets = s.facets :=
  (State.facets_raise ..).trans (State.facets_captureFree ..)

@[simp] theorem State.facets_releaseCell (requester i : Nat) : (s.releaseCell requester i).facets = s.facets :=
  facets_ite (s.facets_doubleFree ..) <|
    facets_ite (facets_ite (s.facets_freeCell i) (s.facets_ownerError ..)) (facets_ite (s.facets_freeCell i) rfl)

@[simp] theorem State.facets_dropPkt (r : Nat) (p : Pkt) : (s.dropPkt r p).facets = s.facets := by
  have hcells : ∀ req, (p.cells.foldl (fun (t : State) i => t.releaseCell req i) s).facets = s.facets :=
    fun req => facets_foldl (fun t i => t.facets_releaseCell req i) _ _
  have hreserved := fun req => facets_ite (c := p.xResv = 0) (hcells req) ((State.facets_subCharge _ p.acct 0 p.xResv).trans (hcells req))
  exact facets_ite (hreserved _) ((State.facets_subCharge ..).trans (hreserved _))

@[simp] theorem State.facets_verdictDrop (r : Nat) (p : Pkt) : (s.verdictDrop r p).facets = s.facets :=
  facets_ite (s.facets_dropPkt r p) (s.facets_dropPkt r p)

/-! Drain tokens (R97, R230, R234). -/

@[simp] theorem State.facets_drainCheck : s.drainCheck.facets = s.facets := facets_ite rfl rfl

@[simp] theorem State.facets_tokenLeft (k id : Nat) : (s.tokenLeft k id).facets = s.facets := by
  have hswitch : (if id = s.ver.bankRound then { s with apr := { s.apr with switching := s.apr.switching.filter fun x => x != k } } else s).facets =
      s.facets := facets_ite rfl rfl
  exact facets_ite ((State.facets_drainCheck _).trans (facets_ite hswitch hswitch)) (facets_ite hswitch hswitch)

end

/-! ### Blocks in and out of reset (R138, R528) -/

theorem exec_blockResetComplete {b : Nat} (hb : b < 48) {s : State} (hc : s.coreUp = true) (hin : s.fault.blocks.contains b = true) :
    exec (.blockResetComplete b) s = .next (if b < 16 then (s.blockOut b).resetPrism b
      else ((s.blockOut b).resetService (b - 16)).syncService (b - 16)).settle := by
  refine (complete_of (decide_eq_true hb) ..).trans ?_
  rw [if_neg (by simp only [hc, hin]; decide)]

theorem exec_blockResetFail {b : Nat} (hb : b < 48) {s : State} (hc : s.coreUp = true) (hin : s.fault.blocks.contains b = true)
    (hearly : s.fault.lateBlocks.contains b = false) : exec (.blockResetFail b) s =
      .next (({ s with fault := { s.fault with lateBlocks := s.fault.lateBlocks ++ [b] } }).raise 6
        (if b < 16 then b else svcFacet (b - 16))).settle := by
  refine (complete_of (decide_eq_true hb) ..).trans ?_
  rw [if_neg (by simp only [hc, hin, hearly]; decide)]

/-- The end of a reset and its failure are nothing to a block that is not in reset. -/
theorem exec_blockReset_out {b : Nat} (hb : b < 48) {s : State} (hout : s.fault.blocks.contains b = false) :
    exec (.blockResetComplete b) s = .next s.settle ∧ exec (.blockResetFail b) s = .next s.settle := by
  constructor
  · refine (complete_of (decide_eq_true hb) ..).trans ?_
    rw [if_pos (by simp only [hout, Bool.not_false, Bool.or_true])]
  · refine (complete_of (decide_eq_true hb) ..).trans ?_
    rw [if_pos (by simp only [hout, Bool.not_false, Bool.or_true, Bool.true_or])]

/-! ### The reset of a prism (R61, R138) -/

/-- The end of a stall leaves the blocks in reset. -/
theorem State.endStall_blocks (s : State) (k : Nat) : (s.endStall k).fault.blocks = s.fault.blocks := by
  unfold State.endStall
  dsimp only
  split
  · rfl
  · unfold State.peak
    split <;> rfl

/-- The prism when its reset begins: no packet stalls it, and none that did waits before it. -/
def State.unstalled (s : State) (k : Nat) : State := (s.stalledAhead k).foldl (fun (t : State) (x : Pkt) => t.takeOut k x.id) (s.endStall k)

theorem State.unstalled_blocks (s : State) (k : Nat) : (s.unstalled k).fault.blocks = s.fault.blocks :=
  List.foldlRecOn (motive := fun t : State => t.fault.blocks = s.fault.blocks) _ _ (s.endStall_blocks k) fun _ ht _ _ => ht

/-- A prism that no packet stalls is as it stands. -/
theorem State.unstalled_of_flowing {s : State} {k : Nat} (h : (s.prism k).stall = none) : s.unstalled k = s ∧ s.stalledAhead k = [] := by
  have hahead : s.stalledAhead k = [] := by rw [State.stalledAhead, h]
  refine ⟨?_, hahead⟩
  rw [State.unstalled, hahead, List.foldl_nil, State.endStall]
  simp only [h]

/-- The prism emptied, its packets counted as flushed. -/
def State.prismEmptied (s : State) (k : Nat) : State :=
  ((s.unstalled k).setPrism k { (s.unstalled k).prism k with flights := [], parked := [], wait := false, hollow := false }).flush k
    (((s.unstalled k).prism k).packets ++ s.stalledAhead k).length

/-- The drops and the tokens that follow leave the emptied prism. -/
theorem State.resetPrism_facets (s : State) (k : Nat) : (s.resetPrism k).facets = (s.prismEmptied k).facets :=
  (facets_foldl (fun t id => t.facets_tokenLeft k id) _ _).trans (facets_foldl (f := fun (t : State) (x : Pkt) => t.verdictDrop 4 x)
    (fun t x => t.facets_verdictDrop 4 x) _ _)

/-- A prism that has been reset has nothing in it, and what it had is counted. -/
theorem State.resetPrism_spec (s : State) (k : Nat) :
    ((s.resetPrism k).prism k).flights = [] ∧ ((s.resetPrism k).prism k).parked = [] ∧
      (s.resetPrism k).fault.blocks = s.fault.blocks ∧
      ((s.prism k).stall = none → SMap.find (fun _ => 0) (s.resetPrism k).loss.flushed k =
        (SMap.find (fun _ => 0) s.loss.flushed k + (s.prism k).packets.length) % 2 ^ 64) := by
  obtain ⟨hcode, hblocks, hloss⟩ := State.facets_eq_iff.mp (s.resetPrism_facets k)
  have hprism : (s.prismEmptied k).prism k = { (s.unstalled k).prism k with flights := [], parked := [], wait := false, hollow := false } :=
    State.prism_setPrism_same ..
  refine ⟨?_, ?_, hblocks.trans (s.unstalled_blocks k), fun hflow => ?_⟩
  · rw [State.prism_congr hcode, hprism]
  · rw [State.prism_congr hcode, hprism]
  · obtain ⟨hsame, hahead⟩ := State.unstalled_of_flowing hflow
    rw [hloss, State.prismEmptied, hsame, hahead, List.append_nil]
    exact SMap.find_put_same ..

/-! ### A service facet in the state (R110, R139) -/

@[simp] theorem State.service_setService_same (s : State) (sf : Nat) (v : Service) : (s.setService sf v).service sf = v := SMap.find_put_same ..

theorem State.service_setService_other (s : State) {sf k : Nat} (v : Service) (h : k ≠ sf) : (s.setService sf v).service k = s.service k :=
  SMap.find_put_other _ _ _ _ _ h

theorem State.service_congr {s t : State} (h : t.code = s.code) (sf : Nat) : t.service sf = s.service sf := by simp only [State.service, h]

@[simp] theorem State.settle_service (s : State) (sf : Nat) : s.settle.service sf = s.service sf := State.service_congr s.settle_code sf

/-- What SVC_STATE.STATE shows of a service facet. -/
def State.serviceState (s : State) (sf : Nat) : Nat :=
  if s.fault.blocks.contains (16 + sf) then 5 else if (s.service sf).parked then 4
    else match (s.service sf).running with
      | none => 0
      | some _ => if (s.service sf).waiting then 2 else 1

theorem State.serviceState_lt (s : State) (sf : Nat) : s.serviceState sf < 8 := by
  unfold State.serviceState
  split
  · decide
  · split
    · decide
    · split
      · decide
      · split <;> decide

/-- SVC_STATE as it is brought up to date: STATE, DEPTH, MICROADDR, BANK, PRIO and SP. -/
theorem State.syncService_eq (s : State) (sf : Nat) : ∃ depth upc bank prio sp, s.syncService sf =
    (((((s.set (R.SVC_STATE.STATE sf) (s.serviceState sf)).set (R.SVC_STATE.DEPTH sf) depth).set (R.SVC_STATE.MICROADDR sf) upc).set
      (R.SVC_STATE.BANK sf) bank).set (R.SVC_STATE.PRIO sf) prio).set (R.SVC_STATE.SP sf) sp := by
  cases hrun : (s.service sf).running with
  | none => exact ⟨(s.service sf).saved.length, 0, 0, 0, 0, by simp only [State.syncService, State.serviceState, hrun]⟩
  | some i => exact ⟨(s.service sf).saved.length, i.work.upc, i.bank, i.prio, i.work.sp, by
      simp only [State.syncService, State.serviceState, hrun]⟩

/-- `t` is `s` with the register at `off` written. -/
structure WritesReg (off : Nat) (s t : State) : Prop where
  eq : t = { s with regs := t.regs }
  words : State.wordsBut (· = off) s t

theorem WritesReg.refl (off : Nat) (s : State) : WritesReg off s s := ⟨rfl, fun _ _ => rfl⟩

theorem WritesReg.set {off : Nat} {s t : State} (h : WritesReg off s t) {l : Loc} (v : Nat) (hl : l.off = off) : WritesReg off s (t.set l v) :=
  ⟨congrArg (fun x : State => { x with regs := (t.set l v).regs }) h.eq, h.words.trans (.of_set t v hl)⟩

theorem State.syncService_writes (s : State) (sf : Nat) : WritesReg (R.SVC_STATE.STATE sf).off s (s.syncService sf) := by
  obtain ⟨depth, upc, bank, prio, sp, h⟩ := s.syncService_eq sf
  rw [h]
  iterate 6 refine WritesReg.set ?_ _ rfl
  exact .refl _ s

theorem State.syncService_state (s : State) (sf : Nat) : (s.syncService sf).get (R.SVC_STATE.STATE sf) = s.serviceState sf := by
  obtain ⟨depth, upc, bank, prio, sp, h⟩ := s.syncService_eq sf
  have hw : (R.SVC_STATE.STATE sf).lo + (R.SVC_STATE.STATE sf).w ≤ 64 := Nat.le_of_ble_eq_true rfl
  have hlow : ∀ {t : State} {v : Nat} (l : Loc), l.lo + l.w ≤ 13 → (t.set l v).get (R.SVC_STATE.STATE sf) = t.get (R.SVC_STATE.STATE sf) :=
    fun _ hl => State.get_set_of_bits hw (.inl hl)
  have hhigh : (R.SVC_STATE.STATE sf).lo + (R.SVC_STATE.STATE sf).w ≤ (R.SVC_STATE.MICROADDR sf).lo := Nat.le_of_ble_eq_true rfl
  rw [h, hlow (R.SVC_STATE.SP sf) (Nat.le_of_ble_eq_true rfl), hlow (R.SVC_STATE.PRIO sf) (Nat.le_of_ble_eq_true rfl),
    hlow (R.SVC_STATE.BANK sf) (Nat.le_of_ble_eq_true rfl), State.get_set_of_bits hw (.inr hhigh),
    hlow (R.SVC_STATE.DEPTH sf) (Nat.le_of_ble_eq_true rfl), State.get_set_same _ _ _ hw]
  exact Nat.mod_eq_of_lt (s.serviceState_lt sf)

theorem State.syncService_facets (s : State) (sf : Nat) : (s.syncService sf).facets = s.facets := by
  rw [(s.syncService_writes sf).eq]
  rfl

/-- What a command that ends by bringing SVC_STATE up to date leaves of the facets, and shows. -/
theorem State.synced_service (s : State) (sf k : Nat) : (s.syncService sf).settle.service k = s.service k := by
  obtain ⟨hcode, -, -⟩ := State.facets_eq_iff.mp (s.syncService_facets sf)
  rw [State.settle_service, State.service_congr hcode]

theorem State.synced_state (s : State) {sf : Nat} (h : sf < 32) : (s.syncService sf).settle.get (R.SVC_STATE.STATE sf) = s.serviceState sf := by
  rw [State.settle_get _ (by simp only [R.SVC_STATE.STATE, followReg]; omega), State.syncService_state]

/-- Without waiting work nothing starts. -/
theorem State.startBest_of_empty {s : State} {sf : Nat} (h : (s.service sf).queue = []) : s.startBest sf = s := by
  simp [State.startBest, Service.best, h]

/-! ### The reset of a service facet (R138) -/

/-- An item that a reset ends leaves the service facets and the blocks in reset. -/
theorem State.loseItem_keeps (s : State) (sf : Nat) (i : Item) :
    (s.loseItem sf i).code = s.code ∧ (s.loseItem sf i).fault.blocks = s.fault.blocks := by
  unfold State.loseItem
  split
  · split <;> exact ⟨rfl, rfl⟩
  · rename_i p _ _
    obtain ⟨hcode, hblocks, -⟩ := State.facets_eq_iff.mp (s.facets_dropPkt 4 p)
    exact ⟨hcode, hblocks⟩
  · exact ⟨rfl, rfl⟩

/-- The facet with its items taken away. -/
def State.idled (s : State) (sf : Nat) : State :=
  s.setService sf { s.service sf with running := none, saved := [], waiting := false, parked := false }

/-- A service facet without waiting work has nothing in it once it has been reset. -/
theorem State.resetService_spec {s : State} {sf : Nat} (h : (s.service sf).queue = []) :
    (s.resetService sf).service sf = {} ∧ (s.resetService sf).fault.blocks = s.fault.blocks := by
  have hempty : (s.idled sf).service sf = {} := by
    rw [State.idled, State.service_setService_same]
    simp only [h]
  obtain ⟨hcode, hblocks⟩ := List.foldlRecOn
    (motive := fun t : State => t.code = (s.idled sf).code ∧ t.fault.blocks = (s.idled sf).fault.blocks)
    ((s.service sf).running.toList ++ (s.service sf).saved) (fun (t : State) (i : Item) => t.loseItem sf i)
    ⟨rfl, rfl⟩ fun t ht i _ => ⟨(t.loseItem_keeps sf i).1.trans ht.1, (t.loseItem_keeps sf i).2.trans ht.2⟩
  obtain ⟨hcheck, hstay, -⟩ := State.facets_eq_iff.mp (State.facets_drainCheck
    (((s.service sf).running.toList ++ (s.service sf).saved).foldl (fun (t : State) (i : Item) => t.loseItem sf i) (s.idled sf)))
  have hservice := (State.service_congr (hcheck.trans hcode) sf).trans hempty
  have hstart := State.startBest_of_empty (congrArg Service.queue hservice)
  have hreset : s.resetService sf = (((s.service sf).running.toList ++ (s.service sf).saved).foldl
    (fun (t : State) (i : Item) => t.loseItem sf i) (s.idled sf)).drainCheck := hstart
  rw [hreset]
  exact ⟨hservice, hstay.trans hblocks⟩

/-- Settles O43: a clause for prisms, for service facets, for a reset that fails, and for a block that is not in reset. -/
theorem blocksLeaveReset : Obligations.BlocksLeaveReset := by
  refine ⟨?prism, ?service, ?late, ?out⟩
  case prism =>
    intro s b hb hc hin
    obtain ⟨hflights, hparked, hblocks, hflushed⟩ := (s.blockOut b).resetPrism_spec b
    refine ⟨_, exec_blockResetComplete (by omega) hc hin, ?_⟩
    rw [if_pos hb]
    simp only [State.settle_prism, State.settle_fault, State.settle_loss]
    exact ⟨hflights, hparked, hblocks, hflushed⟩
  case service =>
    intro s sf hsf hc hin hq
    obtain ⟨hempty, hblocks⟩ := State.resetService_spec (s := s.blockOut (16 + sf)) hq
    have hout : ((s.blockOut (16 + sf)).resetService sf).fault.blocks = s.fault.blocks.filter (fun x => x != 16 + sf) := hblocks
    obtain ⟨-, hstay, -⟩ := State.facets_eq_iff.mp (((s.blockOut (16 + sf)).resetService sf).syncService_facets sf)
    refine ⟨_, exec_blockResetComplete (by omega) hc hin, ?_⟩
    rw [if_neg (by omega), Nat.add_sub_cancel_left, State.synced_service, State.synced_state _ hsf, State.settle_fault, hstay]
    refine ⟨hempty, hout, ?_⟩
    rw [State.serviceState, hempty, hout]
    simp
  case late =>
    intro s b hb hc hin hearly
    refine ⟨_, exec_blockResetFail hb hc hin hearly, ?_, ?_⟩
    · exact (State.settle_latch _ (by decide)).trans (State.raise_latches _ 6 _ rfl hc)
    · rw [State.settle_fault, State.raise, (raises _ 6 _ none false).eq]
  case out =>
    intro s b hb hout
    obtain ⟨hcomplete, hfail⟩ := exec_blockReset_out hb hout
    exact ⟨⟨_, hcomplete, s.kept_settle⟩, _, hfail, s.kept_settle⟩

end Sys2Proof.Machine
end

section
/-! SUPPORT. Service facets: the work that arrives, the words that need nothing but the facet itself, and the results that reach a window
(R113, R118, R122, R132, R139, R140, R142, R476). -/
namespace Sys2Proof.Machine

/-! ### Work that arrives (R132, R139) -/

/-- An arrival takes its item from the queues of packets and numbers it; facets and entries stay. -/
theorem State.arrival_frame {s u : State} {sf role : Nat} {i : Item} (h : s.arrival sf role = some (i, u)) :
    ∃ c b, u = { s with code := c, buf := b } ∧ c.services = s.code.services ∧ c.entries = s.code.entries := by
  unfold State.arrival at h
  dsimp only at h
  split at h
  · obtain ⟨c, -, hc⟩ := Option.map_eq_some_iff.mp h
    cases hc
    exact ⟨_, _, rfl, rfl, rfl⟩
  · split at h
    · cases h
    · cases h
      exact ⟨_, _, rfl, rfl, rfl⟩
  · split at h
    · cases h
      exact ⟨_, _, rfl, rfl, rfl⟩
    · split at h
      · cases h
        exact ⟨_, _, rfl, rfl, rfl⟩
      · cases h
  · cases h
    exact ⟨_, _, rfl, rfl, rfl⟩

/-- A facet that takes work is neither parked nor in reset. -/
theorem State.takesWork_up {s : State} {sf role : Nat} (h : s.takesWork sf role = true) :
    (s.service sf).parked = false ∧ s.fault.blocks.contains (16 + sf) = false := by
  simp only [State.takesWork, State.facetServes, Bool.and_eq_true, Bool.not_eq_true'] at h
  obtain ⟨⟨-, ⟨-, hparked⟩, hblocks⟩, -⟩ := h
  exact ⟨hparked, hblocks⟩

/-- An item waits last in the queue of a facet. -/
def State.queued (s : State) (sf : Nat) (i : Item) : State :=
  s.setService sf { s.service sf with queue := (s.service sf).queue ++ [i], waiting := false }

theorem exec_serviceWorkArrival {sf role : Nat} (hsf : sf < 32) (hrole : role < 6) {s u : State} {i : Item} (ht : s.takesWork sf role = true)
    (ha : s.arrival sf role = some (i, u)) : exec (.serviceWorkArrival sf role) s =
      .next ((if (u.service sf).running.isNone then (u.queued sf i).startBest sf else u.queued sf i).syncService sf).settle := by
  refine (complete_of (by simp only [Instr.wf, hsf, hrole, decide_true, Bool.and_self]) ..).trans ?_
  rw [ht, ha]
  rfl

/-- Where no work is taken, or none is there, nothing arrives. -/
theorem exec_serviceWorkArrival_none {sf role : Nat} (hsf : sf < 32) (hrole : role < 6) {s : State}
    (h : s.takesWork sf role = false ∨ (s.arrival sf role).isNone = true) : exec (.serviceWorkArrival sf role) s = .next s.settle := by
  refine (complete_of (by simp only [Instr.wf, hsf, hrole, decide_true, Bool.and_self]) ..).trans ?_
  rcases h with h | h
  · rw [h]
    rfl
  · rw [Option.isNone_iff_eq_none.mp h, ite_self]

/-- The only waiting item starts on an idle facet. -/
theorem State.startBest_of_one {s : State} {sf : Nat} {i : Item} (hq : (s.service sf).queue = [i]) (hr : (s.service sf).running = none) :
    s.startBest sf = s.setService sf { s.service sf with running := some (s.startItem sf i), waiting := false, queue := [] } := by
  simp [State.startBest, Service.best, hq, hr]

/-- Work for an idle facet starts. -/
theorem State.startBest_queued {s : State} {sf : Nat} (i : Item) (hq : (s.service sf).queue = []) (hr : (s.service sf).running = none) :
    (s.queued sf i).startBest sf = (s.queued sf i).setService sf
      { s.service sf with running := some ((s.queued sf i).startItem sf i), waiting := false, queue := [] } := by
  have hv : (s.queued sf i).service sf = { s.service sf with queue := [i], waiting := false } := by
    rw [State.queued, State.service_setService_same, hq, List.nil_append]
  rw [State.startBest_of_one (congrArg Service.queue hv) ((congrArg Service.running hv).trans hr), hv]

/-- The frame of a command that changes a facet and the queues it is served from. -/
theorem State.kept_syncService {s y : State} {sf : Nat} (h : y = { s with code := y.code, buf := y.buf }) :
    s.kept { (y.syncService sf).settle with code := s.code, buf := s.buf } [] fun k => k = (R.SVC_STATE.STATE sf).off := by
  have hsync := y.syncService_writes sf
  have hmask : ∀ {t u : State}, t = u → ({ t with code := s.code, buf := s.buf } : State).still =
      ({ u with code := s.code, buf := s.buf } : State).still := fun htu => by rw [htu]
  have hstill := (hmask hsync.eq).trans (hmask (t := { y with regs := (y.syncService sf).regs }) (u := { s with
    code := y.code, buf := y.buf, regs := (y.syncService sf).regs }) (congrArg (fun t : State => { t with regs := (y.syncService sf).regs }) h))
  have hout : (y.syncService sf).out = s.out := (congrArg State.out hsync.eq).trans (congrArg State.out h :)
  refine State.kept_of_masked (g := fun t => { t with code := s.code, buf := s.buf }) (fun _ => rfl) (fun _ => rfl) (fun _ => rfl) rfl
    hstill hout fun k hk => ?_
  exact (hsync.words k hk).trans (congrArg (fun t : State => t.word k) h :)

/-! ### Words that look nothing up (R113, R118, R122) -/

section
variable (s : State)

@[simp] theorem State.facets_cntIndex (j : Nat) (v : Vect) : (s.cntIndex j v).2.facets = s.facets := by
  unfold State.cntIndex
  split <;> rfl

@[simp] theorem State.facets_countPair (i half k t : Nat) : (s.countPair i half k t).facets = s.facets := rfl
@[simp] theorem State.facets_meterCharge (e len : Nat) : (s.meterCharge e len).facets = s.facets := rfl

@[simp] theorem State.facets_cntUpdate (v : Vect) (t m : Nat) : (s.cntUpdate v t m).facets = s.facets := by
  have hindex := s.facets_cntIndex (bitsGet (mCnt m) 4 4) v
  unfold State.cntUpdate
  dsimp only
  refine facets_ite rfl (facets_ite ?_ (facets_ite (facets_ite ?_ hindex) (facets_ite ?_ ?_)))
  · exact (State.facets_set ..).trans hindex
  · exact (State.facets_meterCharge ..).trans hindex
  · exact (State.facets_countPair ..).trans ((State.facets_countPair ..).trans hindex)
  · exact (State.facets_countPair ..).trans hindex

@[simp] theorem State.facets_serviceSample (sf : Nat) (i : Item) (m : Nat) : (s.serviceSample sf i m).facets = s.facets := by
  refine facets_ite ?_ rfl
  unfold State.postSamples
  exact facets_ite rfl rfl

end

/-- The run of a word whose predicate holds, as its first step leaves it. -/
def Work.opened (w : Work) (m : Nat) : WordRun :=
  ⟨w.upc, m, mDwell m, true, (aluRun w.vec (mAlu0 m)).1.toList ++ (aluRun w.vec (mAlu1 m)).1.toList ++ (moveRun w.vec m).1.toList,
    (aluRun w.vec (mAlu0 m)).2, (aluRun w.vec (mAlu1 m)).2, (moveRun w.vec m).2.1, (moveRun w.vec m).2.2⟩

/-- The working state while that word is in progress. -/
def Work.begun (w : Work) (m : Nat) : Work := { w with run := some (w.opened m) }

/-- The working state behind that word. -/
def Work.ran (w : Work) (m : Nat) : Work := (w.begun m).finishWord (w.opened m) true

theorem Work.begin_holds (w : Work) (m : Nat) : w.begin w.upc m true = w.begun m := rfl

theorem moveRun_of_none {m : Nat} (h : mMove m / 2 ^ 26 = 0) (v : Vect) : moveRun v m = (none, none, false) := by
  simp only [moveRun, h]

/-- A word without a MOVE leaves the results of its ALU fields, with its flags, and the microstack. -/
theorem Work.ran_spec {w : Work} {m : Nat} (hmove : mMove m / 2 ^ 26 = 0) (hland : w.landing = none) :
    (w.ran m).vec = metaFlags (((aluRun w.vec (mAlu0 m)).1.toList ++ (aluRun w.vec (mAlu1 m)).1.toList).foldl
        (fun v x => vput v x.1 x.2.1 x.2.2) w.vec) (mMeta m) true true ∧
      (w.ran m).sp = w.sp ∧ (w.ran m).stack = w.stack ∧ (w.ran m).run = none ∧ (w.ran m).landing = none := by
  have hmv := moveRun_of_none hmove w.vec
  have hopened : w.opened m = ⟨w.upc, m, mDwell m, true, (aluRun w.vec (mAlu0 m)).1.toList ++ (aluRun w.vec (mAlu1 m)).1.toList,
      (aluRun w.vec (mAlu0 m)).2, (aluRun w.vec (mAlu1 m)).2, none, false⟩ := by
    rw [Work.opened, hmv, Option.toList_none, List.append_nil]
  rw [Work.ran, Work.begun, hopened]
  exact ⟨rfl, rfl, rfl, rfl, hland⟩

/-- A word whose condition is "always", and that looks nothing up. -/
structure AlwaysWord (m : Nat) : Prop where
  cond : mCond m = 0
  port : lPort m = 63

theorem condHolds_zero (w : Work) (pend irq o : Bool) : condHolds w 0 pend irq o = true := rfl

theorem AlwaysWord.holds {m : Nat} (h : AlwaysWord m) (w : Work) (pend irq o : Bool) : predicate w m pend irq o = true := by
  rw [predicate, h.cond, condHolds_zero, Bool.or_true]

/-- The word's COND at its end is its predicate, where SEQ is NEXT, JUMP or DONE. -/
theorem Work.condAtEnd_opened {w : Work} {m : Nat} (h : mSeq m = 0 ∨ mSeq m = 1 ∨ mSeq m = 7) (u : Work) (pend irq o : Bool) :
    u.condAtEnd (w.opened m) pend irq o = true := by
  have h6 : mSeq m ≠ 6 := by omega
  have hbranch : branches m = false := by
    rcases h with h | h | h <;> simp [branches, h]
  simp [Work.condAtEnd, Work.opened, h6, hbranch]

@[simp] theorem Work.begun_run (w : Work) (m : Nat) : (w.begun m).run = some (w.opened m) := rfl

theorem AlwaysWord.unreserved {m : Nat} (h : AlwaysWord m) : condReserved (mCond m) = false := by
  rw [h.cond]
  rfl

/-- The counts and the sample of a word that issues for an item. -/
def State.wordCounted (s : State) (sf : Nat) (i : Item) (m : Nat) : State :=
  (s.cntUpdate i.work.vec (match i.pkt with | some p => p.expo | none => s.ns) m).serviceSample sf i m

theorem State.facets_wordCounted (s : State) (sf : Nat) (i : Item) (m : Nat) : (s.wordCounted sf i m).facets = s.facets :=
  (State.facets_serviceSample ..).trans (s.facets_cntUpdate ..)

/-- The new cursor of a word lands at the word's end. -/
def Work.landed (w : Work) : Work := match w.landing with | some (_, c) => { w.setCursor c with landing := none } | none => w

/-- The microaddress that SEQ gives where it is NEXT or JUMP, within the bank. -/
abbrev goesTo (upc m a : Nat) : Prop := (mSeq m = 0 ∧ upc + 1 < 8192 ∧ a = upc + 1) ∨ (mSeq m = 1 ∧ a = mTarget m)

theorem nextOf_goes {upc m a : Nat} (h : goesTo upc m a) (w : Work) (c : Bool) (v : Nat) : nextOf w upc m 8192 c v = .go a := by
  rcases h with ⟨hseq, hlt, rfl⟩ | ⟨hseq, rfl⟩
  · simp only [nextOf, hseq, inBank, if_pos hlt]
  · have hlt : mTarget m < 8192 := bitsGet_lt m 171 13
    simp only [nextOf, hseq, inBank, if_pos hlt]

theorem nextOf_done {m : Nat} (h : mSeq m = 7) (w : Work) (upc : Nat) (c : Bool) (v : Nat) : nextOf w upc m 8192 c v = .done := by
  simp only [nextOf, h]

/-- Such a word with NEXT or JUMP leaves its item at the next word. -/
theorem State.runWord_goes {s : State} {sf m a : Nat} {i : Item} (h : AlwaysWord m) (hmove : mMove m / 2 ^ 26 = 0) (hland : i.work.landing = none)
    (hseq : goesTo i.work.upc m a) :
    s.runWord sf i m = (s.wordCounted sf i m).setRunning sf { i with work := { i.work.ran m with upc := a } } := by
  have hcond := Work.condAtEnd_opened (w := i.work) (m := m) (by omega)
  have hran : (i.work.begun m).finishWord (i.work.opened m) true = i.work.ran m := rfl
  obtain ⟨-, -, -, -, hlanded⟩ := Work.ran_spec hmove hland
  unfold State.runWord
  simp only [h.holds, if_true, h.unreserved, Bool.false_eq_true, if_false, State.serviceIssue, h.port, Work.begin_holds, Work.begun_run,
    nextOf_goes hseq, hcond, hran, hlanded]
  rfl

/-- Such a word with DONE ends its item. -/
theorem State.runWord_ends {s : State} {sf m : Nat} {i : Item} (h : AlwaysWord m) (hseq : mSeq m = 7) :
    s.runWord sf i m = (s.wordCounted sf i m).itemDone sf { i with work := (i.work.ran m).landed } := by
  have hcond := Work.condAtEnd_opened (w := i.work) (m := m) (.inr (.inr hseq))
  unfold State.runWord
  simp only [h.holds, if_true, h.unreserved, Bool.false_eq_true, if_false, State.serviceIssue, h.port, Work.begin_holds, Work.begun_run,
    nextOf_done hseq, hcond]
  rfl

/-- A facet at such a word runs it: neither an interrupt, nor an exception, nor a pending window keeps it from it. -/
theorem State.serviceStep_of_plainWord {s : State} {sf m : Nat} {i : Item} (h : s.plainWord sf m i) :
    s.serviceStep sf = s.runWord sf i m := by
  obtain ⟨-, -, -, -, hrun, hint, hlooks, -, hwrong, hm, hres, -, -⟩ := h
  have hfetch : s.fetchWord (svcFacet sf) i.bank i.work.upc = (some m, s) := by simp only [State.fetchWord, hwrong, ← hm]
  have hpending : s.readsPending i.work m = false := by simp only [State.readsPending, hlooks, List.any_nil]
  unfold State.serviceStep
  simp only [hrun, hfetch, hint, hres, hpending, Bool.and_false, Bool.false_and, Bool.false_eq_true, if_false]

theorem exec_serviceWordIssue {sf m : Nat} (hsf : sf < 32) {s : State} {i : Item} (h : s.plainWord sf m i) :
    exec (.serviceWordIssue sf) s = .next ((s.serviceStep sf).syncService sf).settle := by
  obtain ⟨hfwd, hparked, hwaiting, hblocks, hrun, -, -, -, -, -, -, -, hcmd⟩ := h
  have hheld : (s.mode == .holdUp && (s.service sf).running.any fun i => i.cmd.isSome) = false := by
    rw [hrun, Bool.and_eq_false_imp, beq_iff_eq]
    intro hmode
    simp [hcmd hmode]
  refine (complete_of (decide_eq_true hsf) ..).trans ?_
  rw [if_neg (by simp only [hfwd, hheld, hparked, hwaiting, hblocks]; decide)]

/-- A facet that waits or is parked, the routine of a command in HOLD-UP, and any facet while nothing is forwarded issue no word. -/
theorem exec_serviceWordIssue_none {sf : Nat} (hsf : sf < 32) {s : State} (h : (s.service sf).waiting = true ∨ (s.service sf).parked = true ∨
    s.forwarding = false ∨ (s.mode = .holdUp ∧ ∃ i, (s.service sf).running = some i ∧ i.cmd.isSome = true)) :
    exec (.serviceWordIssue sf) s = .next s.settle := by
  refine (complete_of (decide_eq_true hsf) ..).trans ?_
  rw [if_pos]
  rcases h with h | h | h | ⟨hmode, i, hrun, hcmd⟩
  · simp [h]
  · simp [h]
  · simp [h]
  · simp [hmode, hrun, hcmd]

/-- A facet that falls idle: no item runs, and none is saved. -/
def State.fallIdle (s : State) (sf : Nat) : State :=
  (s.setService sf { s.service sf with running := none, saved := [] }).setService sf
    { s.service sf with running := none, waiting := false, saved := [] }

/-- With nothing saved and nothing waiting a facet falls idle as its item ends. -/
theorem State.itemDone_idles {s : State} {sf : Nat} {i : Item} (hp : i.pkt = none) (hs : (s.service sf).saved = [])
    (hq : (s.service sf).queue = []) : (s.itemDone sf i).facets = (s.fallIdle sf).facets := by
  have hv : (s.fallIdle sf).service sf = { s.service sf with running := none, waiting := false, saved := [] } := State.service_setService_same ..
  have hstart : (s.fallIdle sf).startBest sf = s.fallIdle sf := State.startBest_of_empty ((congrArg Service.queue hv).trans hq)
  have hdone : s.itemDone sf i = (s.fallIdle sf).drainCheck := by
    unfold State.itemDone State.resume
    simp only [hp, State.service_setService_same, hs]
    exact congrArg State.drainCheck hstart
  rw [hdone, State.facets_drainCheck]

/-! ### Results (R142) -/

theorem State.serviceAnswer_id (s : State) (l : Lookup) (data : List Byte) : (s.serviceAnswer l data).id = l.id := by
  unfold State.serviceAnswer
  split
  · rfl
  · split <;> rfl

/-- The answer of a request that did not fail, and whose line is no far one, came with the lookup (log 197). -/
theorem State.serviceAnswer_kept {s : State} {l : Lookup} (hfar : l.far = none) (hw : l.who = 0 ∨ l.who ∉ s.mem.failed) (data : List Byte) :
    s.serviceAnswer l data = l := by
  have hok : ¬ (l.who != 0 && s.mem.failed.contains l.who) = true := by
    rcases hw with h | h <;> simp [h]
  rw [State.serviceAnswer, if_neg hok, hfar]

theorem State.serviceAnswer_failed {s : State} {l : Lookup} (hw : l.who ≠ 0) (hf : l.who ∈ s.mem.failed) (data : List Byte) :
    s.serviceAnswer l data = { l with status := Answer.absent.status, value := Answer.absent.value } := by
  rw [State.serviceAnswer, if_pos (by simp [hw, hf])]

/-- A result reaches the items of a facet. -/
def Service.receive (v : Service) (l : Lookup) : Service :=
  { v with
    running := v.running.map fun i => i.receive l
    saved := v.saved.map fun i => i.receive l
    waiting := v.waiting && !v.running.any fun i => i.work.looks.any fun x => x.id == l.id }

theorem exec_serviceResult {sf : Nat} (hsf : sf < 32) {data : List Byte} (hd : data.length ≤ 64) {s : State} (hc : s.coreUp = true)
    {l : Lookup} (hl : (s.service sf).oldestLook = some l) (hw : l.who = 0 ∨ s.transferDone l.who = true) :
    exec (.serviceResult sf data) s =
      .next ((s.setService sf ((s.service sf).receive (s.serviceAnswer l data))).syncService sf).settle := by
  have hready : ¬ (l.who != 0 && !s.transferDone l.who) = true := by
    rcases hw with h | h <;> simp [h]
  refine (complete_of (by simp only [Instr.wf, hsf, hd, decide_true, Bool.and_self]) ..).trans ?_
  rw [hc, hl]
  simp only [Bool.not_true, Bool.false_eq_true, if_false, if_neg hready]
  rfl

/-- No result arrives where no lookup waits, or where the request that reads the line of the oldest is open. -/
theorem exec_serviceResult_none {sf : Nat} (hsf : sf < 32) {data : List Byte} (hd : data.length ≤ 64) {s : State}
    (h : (s.service sf).oldestLook = none ∨ ∃ l, (s.service sf).oldestLook = some l ∧ l.who ≠ 0 ∧ s.transferDone l.who = false) :
    exec (.serviceResult sf data) s = .next s.settle := by
  refine (complete_of (by simp only [Instr.wf, hsf, hd, decide_true, Bool.and_self]) ..).trans ?_
  rcases h with h | ⟨l, hl, hwho, hopen⟩
  · rw [h, ite_self]
  · rw [hl]
    simp only [hopen, Bool.not_false, Bool.and_true, bne_iff_ne, ne_eq, hwho, not_false_eq_true, if_true, ite_self]

/-- A running item that waits for the result has it in its window, and the facet waits no longer. -/
theorem Service.receive_running {v : Service} {i : Item} {l : Lookup} (hr : v.running = some i) (hx : ∃ x ∈ i.work.looks, x.id = l.id) :
    (v.receive l).waiting = false ∧ (v.receive l).running =
      some { i with work := { i.work with vec := deposit i.work.vec l, looks := i.work.looks.filter fun x => x.id != l.id } } := by
  have hmine : (i.work.looks.any fun x => x.id == l.id) = true := by simpa using hx
  have hreceive : i.receive l = { i with work := { i.work with
      vec := deposit i.work.vec l, looks := i.work.looks.filter fun x => x.id != l.id } } := if_pos hmine
  simp only [Service.receive, hr, Option.any_some, hmine, Option.map_some, hreceive, Bool.not_true, Bool.and_false, and_self]

/-- Settles O42: for each command the cases in which it acts, and those in which nothing happens. -/
theorem servicesRunTheirWork : Obligations.ServicesRunTheirWork := by
  refine ⟨?starts, ?waits, ?noWork, ?goes, ?ends, ?noWord, ?result, ?noResult⟩
  case starts =>
    intro s u sf role i hsf hrole ht ha hr hq hs
    obtain ⟨c, b, rfl, hservices, hentries⟩ := State.arrival_frame ha
    obtain ⟨hparked, hblocks⟩ := State.takesWork_up ht
    have hold : ∀ k, ({ s with code := c, buf := b } : State).service k = s.service k := fun k => by simp only [State.service, hservices]
    have hbest := State.startBest_queued (s := { s with code := c, buf := b }) (sf := sf) i (by rw [hold, hq]) (by rw [hold, hr])
    have hexec := exec_serviceWorkArrival hsf hrole ht ha
    rw [hold, hr, Option.isNone_none, if_pos rfl, hbest, hold] at hexec
    refine ⟨_, ({ s with code := c, buf := b } : State).queued sf i |>.startItem sf i, hexec, ?_, ?_, rfl, rfl, rfl, rfl, rfl,
      ?_, ?_, fun k hk => ?_, State.kept_syncService rfl⟩
    · rw [State.synced_service, State.service_setService_same]
    · rw [State.synced_service, State.service_setService_same]
    · exact congrArg (fun m => SMap.find (fun _ => 0) m (2 * svcFacet sf + s.get R.MCODE_ACTIVE.BANK)) hentries
    · rw [State.synced_state _ hsf, State.serviceState, State.service_setService_same]
      simp only [hparked]
      exact if_neg (ne_true_of_eq_false hblocks)
    · rw [State.synced_service, State.service_setService_other _ _ hk, State.queued, State.service_setService_other _ _ hk, hold]
  case waits =>
    intro s u sf role i hsf hrole ht ha hr
    obtain ⟨c, b, rfl, hservices, -⟩ := State.arrival_frame ha
    have hold : ∀ k, ({ s with code := c, buf := b } : State).service k = s.service k := fun k => by simp only [State.service, hservices]
    have hexec := exec_serviceWorkArrival hsf hrole ht ha
    rw [hold, if_neg (by simpa [Option.isSome_iff_ne_none] using hr)] at hexec
    refine ⟨_, hexec, ?_, ?_, fun k hk => ?_, State.kept_syncService rfl⟩
    · rw [State.synced_service, State.queued, State.service_setService_same, hold]
    · rw [State.synced_service, State.queued, State.service_setService_same, hold]
    · rw [State.synced_service, State.queued, State.service_setService_other _ _ hk, hold]
  case noWork =>
    intro s sf role hsf hrole h
    exact ⟨_, exec_serviceWorkArrival_none hsf hrole h, s.kept_settle⟩
  case goes =>
    intro s sf m i hsf h hc hmove hseq
    obtain ⟨-, -, -, -, -, -, -, hland, -, -, -, hport, -⟩ := id h
    obtain ⟨hvec, hsp, hstack, hrun, -⟩ := Work.ran_spec hmove hland
    obtain ⟨hcode, -, -⟩ := State.facets_eq_iff.mp (s.facets_wordCounted sf i m)
    have hgoes : goesTo i.work.upc m (if mSeq m = 0 then i.work.upc + 1 else mTarget m) := by
      rcases hseq with ⟨hzero, hlt⟩ | hone
      · exact .inl ⟨hzero, hlt, if_pos hzero⟩
      · exact .inr ⟨hone, if_neg (by omega)⟩
    have hexec := exec_serviceWordIssue hsf h
    rw [State.serviceStep_of_plainWord h, State.runWord_goes ⟨hc, hport⟩ hmove hland hgoes] at hexec
    refine ⟨_, { i.work.ran m with upc := if mSeq m = 0 then i.work.upc + 1 else mTarget m }, hexec, ?_, rfl, hsp, hstack, hrun, hvec,
      fun k hk => ?_⟩
    · rw [State.synced_service, State.setRunning, State.service_setService_same]
    · rw [State.synced_service, State.setRunning, State.service_setService_other _ _ hk, State.service_congr hcode]
  case ends =>
    intro s sf m i hsf h hc hseq hp hs hq
    obtain ⟨-, hparked, -, hblocks, -, -, -, -, -, -, -, hport, -⟩ := id h
    obtain ⟨hcode, hstay, -⟩ := State.facets_eq_iff.mp (s.facets_wordCounted sf i m)
    have hcounted := State.service_congr hcode
    obtain ⟨hdone, hout, -⟩ := State.facets_eq_iff.mp (State.itemDone_idles (s := s.wordCounted sf i m) (sf := sf)
      (i := { i with work := (i.work.ran m).landed }) hp (by rw [hcounted, hs]) (by rw [hcounted, hq]))
    have hidle := (State.service_congr hdone sf).trans (State.service_setService_same ..)
    have hexec := exec_serviceWordIssue hsf h
    rw [State.serviceStep_of_plainWord h, State.runWord_ends ⟨hc, hport⟩ hseq] at hexec
    refine ⟨_, hexec, ?_, ?_, fun k hk => ?_⟩
    · rw [State.synced_service, hidle]
    · have hup : ((s.wordCounted sf i m).itemDone sf { i with work := (i.work.ran m).landed }).fault.blocks.contains (16 + sf) = false := by
        rw [hout]
        exact (congrArg (fun l : List Nat => l.contains (16 + sf)) hstay).trans hblocks
      rw [State.synced_state _ hsf, State.serviceState, hidle, hup]
      simp [hcounted, hparked]
    · rw [State.synced_service, State.service_congr hdone, State.fallIdle, State.service_setService_other _ _ hk,
        State.service_setService_other _ _ hk, hcounted]
  case noWord =>
    intro s sf hsf h
    exact ⟨_, exec_serviceWordIssue_none hsf h, s.kept_settle⟩
  case result =>
    intro s sf data i l hsf hd hc hr hl hw hx
    have hid := s.serviceAnswer_id l data
    obtain ⟨hwait, hrun⟩ := Service.receive_running (l := s.serviceAnswer l data) hr (by simpa only [hid] using hx)
    rw [hid] at hrun
    refine ⟨_, exec_serviceResult hsf hd hc hl hw, ?_, ?_, fun hfar hok => State.serviceAnswer_kept hfar hok data,
      fun hwho hf => State.serviceAnswer_failed hwho hf data, ?_⟩
    · rw [State.synced_service, State.service_setService_same, hwait]
    · rw [State.synced_service, State.service_setService_same, hrun]
    · have hbuf : ((s.setService sf ((s.service sf).receive (s.serviceAnswer l data))).syncService sf).settle.buf = s.buf :=
        (State.settle_buf _).trans (congrArg State.buf (State.syncService_writes _ sf).eq :)
      have hkept := State.kept_syncService (s := s) (y := s.setService sf ((s.service sf).receive (s.serviceAnswer l data))) (sf := sf) rfl
      rwa [← hbuf] at hkept
  case noResult =>
    intro s sf data hsf hd h
    exact ⟨_, exec_serviceResult_none hsf hd h, s.kept_settle⟩

end Sys2Proof.Machine
end

section
/-! SUPPORT. What comparisons of rows and writes of shadows leave as it was, and what LENS_WRITE and LENS_INVALIDATE make of the rows that they
name (R178, R182, R184, R186 to R189). -/
namespace Sys2Proof.Machine

/-! ### What stays while rows are compared and changed -/

/-- The timebase and the commands: no change of a row, no shadow read or written, and no raise of a fault touches them. -/
def State.clocked (s : State) : Nat × CmdState := (s.tb, s.cmd)

theorem State.clocked_eq_iff {s t : State} : t.clocked = s.clocked ↔ t.tb = s.tb ∧ t.cmd = s.cmd := by
  simp only [State.clocked, Prod.mk.injEq]

theorem clocked_foldl {α : Type} {f : State → α → State} (hf : ∀ s a, (f s a).clocked = s.clocked) (l : List α) (s : State) :
    (l.foldl f s).clocked = s.clocked :=
  List.foldlRecOn (motive := fun t : State => t.clocked = s.clocked) l f rfl fun t ht a _ => (hf t a).trans ht

theorem clocked_ite {c : Prop} [Decidable c] {s a b : State} (ha : a.clocked = s.clocked) (hb : b.clocked = s.clocked) :
    (if c then a else b).clocked = s.clocked := by
  split
  · exact ha
  · exact hb

section
variable (s : State)

@[simp] theorem State.clocked_setWord (off : Nat) (v : Word) : (s.setWord off v).clocked = s.clocked := rfl
@[simp] theorem State.clocked_set (l : Loc) (v : Nat) : (s.set l v).clocked = s.clocked := rfl
@[simp] theorem State.clocked_sat (l : Loc) (k : Nat) : (s.sat l k).clocked = s.clocked := rfl

@[simp] theorem State.clocked_raise (n info : Nat) : (s.raise n info).clocked = s.clocked :=
  State.clocked_eq_iff.mpr ⟨s.raise_tb n info, s.raise_cmd n info⟩

@[simp] theorem State.clocked_lineFails (q line cls who : Nat) : (s.lineFails q line cls who).clocked = s.clocked := by
  have hcounted : (if line < s.get R.HBM_CFG.FWD_LINES then s else (s.sat (R.HBM_ECC.UNCORRECTED (q / 32)) 1).raise 31 (q / 32)).clocked =
      s.clocked := clocked_ite rfl (State.clocked_raise ..)
  exact clocked_ite (clocked_ite hcounted hcounted) (clocked_ite hcounted hcounted)

@[simp] theorem State.clocked_memRequest (r : MemReq) : (s.memRequest r).clocked = s.clocked := by
  unfold State.memRequest
  refine clocked_ite (s.clocked_lineFails ..) ?_
  split
  · exact clocked_ite rfl rfl
  · rfl

@[simp] theorem State.clocked_dynRequests (who cls : Nat) (hint write : Bool) (data : Nat → Nat) (n a : Nat) :
    (s.dynRequests who cls hint write data n a).clocked = s.clocked := by
  induction n generalizing s a with
  | zero => rfl
  | succ n ih => exact (ih _ _).trans (s.clocked_memRequest _)

@[simp] theorem State.clocked_shadowWrite (a r : Nat) (x : LensRow) : (s.shadowWrite a r x).clocked = s.clocked := s.clocked_dynRequests ..

@[simp] theorem State.clocked_access (q bank line : Nat) (h : Bool) : (s.access q bank line h).clocked = s.clocked := rfl

@[simp] theorem State.clocked_shadowLine (address : Nat) : (s.shadowLine address).2.clocked = s.clocked := by
  unfold State.shadowLine
  dsimp only
  split
  · exact s.clocked_lineFails ..
  · split
    · rfl
    · split
      · exact (State.clocked_lineFails ..).trans (s.clocked_access ..)
      · rfl

@[simp] theorem State.clocked_shadowRead (a r : Nat) : (s.shadowRead a r).2.clocked = s.clocked :=
  List.foldlRecOn (motive := fun x : Bool × State => x.2.clocked = s.clocked) _ _ rfl fun x hx _ _ =>
    (x.2.clocked_shadowLine _).trans hx

@[simp] theorem State.clocked_captureScrub (kind a r cells : Nat) (m : Bool) : (s.captureScrub kind a r cells m).clocked = s.clocked := by
  refine clocked_ite rfl ?_
  simp only [State.clocked_set, State.clocked_setWord]

@[simp] theorem State.clocked_compareRow (a r : Nat) (lost : Bool) : (s.compareRow a r lost).clocked = s.clocked := by
  unfold State.compareRow
  dsimp only
  have hread : ((if (lost || (s.shadowRead a r).1) = true then s.raise 18 a else s).shadowRead a r).2.clocked = s.clocked :=
    (State.clocked_shadowRead ..).trans (clocked_ite (s.clocked_raise ..) rfl)
  refine clocked_ite ?_ (clocked_ite hread ?_)
  · exact (State.clocked_captureScrub ..).trans ((State.clocked_shadowWrite ..).trans hread)
  · exact (State.clocked_raise ..).trans ((State.clocked_captureScrub ..).trans hread)

@[simp] theorem State.clocked_compareQueued (a : Nat) : (s.compareQueued a).clocked = s.clocked :=
  clocked_ite rfl ((clocked_foldl (fun t e => t.clocked_compareRow a (Prod.snd e) false) _ _).trans rfl)

@[simp] theorem State.clocked_changeRow (a r : Nat) (shadow : LensRow) (cells : Nat) : (s.changeRow a r shadow cells).clocked = s.clocked :=
  s.clocked_shadowWrite a r shadow

@[simp] theorem State.clocked_lensApply (a op : Nat) (img : List Byte) : (s.lensApply a op img).clocked = s.clocked := by
  unfold State.lensApply
  dsimp only
  split <;> exact s.clocked_changeRow ..

end

theorem State.now_of_clocked {s t : State} (h : t.clocked = s.clocked) : t.now = s.now := by
  rw [State.now, (State.clocked_eq_iff.mp h).1, State.now]

/-- A command that ends done after row changes alone has the outcome of its takeover then (R469). -/
theorem State.done_outcomeOf {s x : State} {seq : Nat} {c : OpenCmd} (hc : s.findCmd seq = some c) (hx : x.clocked = s.clocked)
    (d : List (Nat × Nat × Nat)) : (x.done seq d).settle.outcomeOf seq = some (outcomeArea 0 0 0 s.now d) := by
  have hfind : x.findCmd seq = some c := (State.findCmd_congr (State.clocked_eq_iff.mp hx).2 seq).trans hc
  rw [State.settle_outcomeOf, State.done, State.outcomeOf_finish hfind, State.now_of_clocked hx]

/-! ### Where every stack serves its shadows -/

/-- No stack has failed. -/
def State.stacksServe (s : State) : Prop := ∀ g, g < 8 → s.stackFailed g = false

/-- `t` is `s` beside the lens arrays and the memory requests. -/
def State.lensOnly (s t : State) : Prop := t = { s with lens := t.lens, mem := t.mem }

theorem State.lensOnly.trans {s t u : State} (h : s.lensOnly t) (g : t.lensOnly u) : s.lensOnly u := by
  unfold State.lensOnly at h g ⊢
  rw [h] at g
  exact g

theorem State.lensOnly.stacksServe {s t : State} (h : s.lensOnly t) (hs : s.stacksServe) : t.stacksServe := fun g hg => by
  have hregs : t.regs = s.regs := (congrArg State.regs h :)
  simpa only [State.stackFailed, State.get, State.word, hregs] using hs g hg

theorem State.lensOnly.foldl {α : Type} {f : State → α → State} (hf : ∀ (s : State) a, s.stacksServe → s.lensOnly (f s a)) (l : List α) {s : State}
    (hs : s.stacksServe) : s.lensOnly (l.foldl f s) :=
  List.foldlRecOn (motive := s.lensOnly) l f rfl fun t (ht : s.lensOnly t) a _ => ht.trans (hf t a (ht.stacksServe hs))

/-- What `t` has beside the lens arrays and the memory requests, for which it takes those of `s`. -/
def State.beside (s t : State) : State := ({ t with lens := s.lens, mem := s.mem } : State).still

theorem State.lensOnly.beside_eq {s t : State} (h : s.lensOnly t) (u : State) : u.beside t = u.beside s := (congrArg u.beside h :)

theorem State.interleave_lt (s : State) (a : Nat) : (s.interleave a).1 < 256 :=
  List.foldlRecOn (motive := fun q : Nat => q < 256) _ _ (by decide) fun _ hq _ _ =>
    Nat.xor_lt_two_pow (n := 8) hq (Nat.mod_lt _ (by decide))

/-- A write whose stack serves it joins the queue, and nothing else happens. -/
theorem State.lensOnly_memRequest {s : State} {r : MemReq} (hs : s.stackFailed (r.q / 32) = false) (hw : r.write = true) :
    s.lensOnly (s.memRequest r) := by
  unfold State.lensOnly State.memRequest
  simp only [hs, hw, if_true, Bool.false_eq_true, if_false]

theorem State.lensOnly_dynRequests {s : State} (hs : s.stacksServe) (who cls : Nat) (hint : Bool) (data : Nat → Nat) (n a : Nat) :
    s.lensOnly (s.dynRequests who cls hint true data n a) := by
  induction n generalizing s a with
  | zero => exact rfl
  | succ n ih =>
    have hlt := s.interleave_lt a
    have hone : s.lensOnly (s.memRequest ⟨(s.interleave a).1, (s.interleave a).2, cls, hint, true, data a, s.ns, who⟩) :=
      State.lensOnly_memRequest (hs _ (by dsimp only; omega)) rfl
    exact hone.trans (ih (hone.stacksServe hs) (a + 64))

theorem State.lensOnly_changeRow {s : State} (hs : s.stacksServe) (a r : Nat) (shadow : LensRow) (cells : Nat) :
    s.lensOnly (s.changeRow a r shadow cells) := by
  have hwrite : s.lensOnly (s.shadowWrite a r shadow) := State.lensOnly_dynRequests hs ..
  exact hwrite.trans rfl

theorem State.lensOnly_lensApply {s : State} (hs : s.stacksServe) (a op : Nat) (img : List Byte) : s.lensOnly (s.lensApply a op img) := by
  unfold State.lensApply
  dsimp only
  split <;> exact State.lensOnly_changeRow hs ..

/-- With no row of the array queued, no row is compared ahead of the command. -/
theorem State.lensOnly_compareQueued {s : State} {a : Nat} (h : (s.lens.queued.find? fun e => e.1 == a) = none) :
    s.lensOnly (s.compareQueued a) := by
  have hnone : (s.lens.queued.filter fun e => e.1 == a && !s.shadowWaits a e.2) = [] :=
    List.filter_eq_nil_iff.mpr fun e he => by simp [List.find?_eq_none.mp h e he]
  unfold State.lensOnly State.compareQueued
  split
  · rfl
  · dsimp only
    rw [hnone]
    rfl

/-! ### Rows (R182, R186) -/

theorem State.lensRow_changeRow_same (s : State) (a r : Nat) (shadow : LensRow) (cells : Nat) :
    (s.changeRow a r shadow cells).lensRow a r = { shadow with bad := false, cells := cells } := SMap.find_put_same ..

theorem State.lensRow_changeRow_other (s : State) (a : Nat) {r q : Nat} (h : q ≠ r) (shadow : LensRow) (cells : Nat) :
    (s.changeRow a r shadow cells).lensRow a q = s.lensRow a q :=
  SMap.find_put_other _ _ _ _ _ (by simp only [lensKey]; omega)

theorem State.lensRow_changeFields_same (s : State) (a r : Nat) (f : LensRow → LensRow) :
    (s.changeFields a r f).lensRow a r = { f (s.lensShadow a r) with bad := false, cells := (s.lensRow a r).cells } :=
  s.lensRow_changeRow_same ..

/-! What each operation makes of the row that an entry names. -/

theorem State.lensRow_lensApply_write (s : State) (a : Nat) (img : List Byte) :
    (s.lensApply a 0 img).lensRow a (imageRow img) = imageEntry img := s.lensRow_changeRow_same ..

theorem State.lensRow_lensApply_death (s : State) (a : Nat) (img : List Byte) :
    ((s.lensApply a 1 img).lensRow a (imageRow img)).dying = true ∧
      ((s.lensApply a 1 img).lensRow a (imageRow img)).death = (imageEntry img).death := by
  have hrow := s.lensRow_changeFields_same a (imageRow img) fun x => { x with dying := true, death := (imageEntry img).death }
  exact ⟨congrArg LensRow.dying hrow, (congrArg LensRow.death hrow :)⟩

theorem State.lensRow_lensApply_revive (s : State) (a : Nat) (img : List Byte) :
    ((s.lensApply a 2 img).lensRow a (imageRow img)).dying = false :=
  congrArg LensRow.dying (s.lensRow_changeFields_same a (imageRow img) fun x => { x with dying := false })

/-- A cleared row is not valid, and no other row becomes so. -/
theorem State.clearRow_valid (s : State) (a r q : Nat) (h : q = r ∨ (s.lensRow a q).valid = false) :
    ((s.clearRow a r).lensRow a q).valid = false := by
  by_cases hq : q = r
  · rw [hq]
    exact congrArg LensRow.valid (s.lensRow_changeFields_same ..)
  · rw [State.clearRow, State.changeFields, State.lensRow_changeRow_other s a hq]
    exact h.resolve_left hq

theorem State.settle_lensRow (s : State) (a r : Nat) : s.settle.lensRow a r = s.lensRow a r := by
  rw [State.lensRow, State.settle_lens, State.lensRow]

/-- What is put back after what follows a command can be put back before it. -/
theorem State.still_settle_masked {g : State → State} (hg : ∀ y, (g y).still = g y.still) (x : State) : (g x.settle).still = (g x).still := by
  rw [hg, x.settle_still, ← hg]

/-! ### LENS_WRITE (R182) -/

/-- The command `c` of sequence `seq` may begin and is a well-formed LENS_WRITE of operation `op`, and the entries of `block` pass their
checks. -/
structure State.writesLens (s : State) (seq op : Nat) (c : OpenCmd) (block : List Byte) : Prop where
  begins : s.begins seq 0x10 c
  formed : c.formed [(20, 4), (32, 32)] = true
  array : c.op 16 1 < 16
  operation : c.op 17 1 = op
  listed : op < 3
  present : 1 ≤ c.op 18 2
  most : c.op 18 2 ≤ 4096
  aligned : c.op 24 8 % 64 = 0
  checked : (s.compareQueued (c.op 16 1)).lensFirstBad (c.op 16 1) op block (c.op 18 2) = none

/-- The rows queued have been compared and the entries are read. -/
def State.lensStart (s : State) (c : OpenCmd) : State :=
  (s.compareQueued (c.op 16 1)).emitAll (s.pfReads (s.cmdPf c) (c.op 24 8) (192 * c.op 18 2))

/-- The entries of a block. -/
def OpenCmd.lensImages (c : OpenCmd) (block : List Byte) : List (List Byte) := (List.range (c.op 18 2)).map (lensImage block)

/-- The entries are applied. -/
def State.lensEntries (s : State) (op : Nat) (c : OpenCmd) (block : List Byte) : State :=
  (c.lensImages block).foldl (fun u img => u.lensApply (c.op 16 1) op img) (s.lensStart c)

/-- The command is noted where it has written staged entries. -/
def State.lensWritten (s : State) (seq op : Nat) (c : OpenCmd) (block : List Byte) : State :=
  if op = 0 ∧ ((c.lensImages block).any fun img => (imageEntry img).born) = false then s.lensEntries op c block
  else (s.lensEntries op c block).noteStaged seq

theorem State.lensWritten_eq (s : State) (seq op : Nat) (c : OpenCmd) (block : List Byte) :
    ∃ v, s.lensWritten seq op c block = { s.lensEntries op c block with ver := v } := by
  unfold State.lensWritten
  split
  · exact ⟨_, rfl⟩
  · exact ⟨_, rfl⟩

theorem exec_lensWrite (seq : Nat) (block : List Byte) (s : State) :
    exec (.lensWrite seq block) s = .next (s.lensWrite seq 0 block).settle := complete_true ..

theorem exec_lensDeath (seq : Nat) (block : List Byte) (s : State) :
    exec (.lensDeath seq block) s = .next (s.lensWrite seq 1 block).settle := complete_true ..

theorem exec_lensRevive (seq : Nat) (block : List Byte) (s : State) :
    exec (.lensRevive seq block) s = .next (s.lensWrite seq 2 block).settle := complete_true ..

section
variable {s : State} {seq op : Nat} {c : OpenCmd} {block : List Byte} (h : s.writesLens seq op c block)
include h

theorem State.writesLens.lensWrite_eq : s.lensWrite seq op block = (s.lensWritten seq op c block).done seq [(16, 2, c.op 18 2)] := by
  have hchecked : (s.lensStart c).lensFirstBad (c.op 16 1) op block (c.op 18 2) = none := h.checked
  have harray := h.array
  have hlisted := h.listed
  have hpresent := h.present
  have hmost := h.most
  have hsame : ¬ (c.op 17 1 ≠ op ∧ c.op 17 1 < 3) := fun hne => hne.1 h.operation
  have hformed : ¬ (!c.formed [(20, 4), (32, 32)] || decide (16 ≤ c.op 16 1) || decide (3 ≤ c.op 17 1) || c.op 18 2 == 0 ||
      decide (4096 < c.op 18 2) || c.op 24 8 % 64 != 0) = true := by
    simp [h.formed, h.operation, h.aligned]
    omega
  rw [State.lensWrite, State.runCmd_of h.begins]
  dsimp only
  rw [if_neg hsame, if_neg hformed, ← State.lensStart, hchecked]
  rfl

theorem State.writesLens.outcome : (s.lensWrite seq op block).settle.outcomeOf seq = some (outcomeArea 0 0 0 s.now [(16, 2, c.op 18 2)]) := by
  have hentries : (s.lensEntries op c block).clocked = s.clocked :=
    (clocked_foldl (fun t img => t.clocked_lensApply _ _ img) _ _).trans (s.clocked_compareQueued _)
  obtain ⟨v, hv⟩ := s.lensWritten_eq seq op c block
  rw [h.lensWrite_eq]
  exact State.done_outcomeOf h.begins.1 ((congrArg State.clocked hv).trans hentries) _

/-- One entry has the effect of its operation on the row that it names. -/
theorem State.writesLens.row (hone : c.op 18 2 = 1) (r : Nat) : (s.lensWrite seq op block).settle.lensRow (c.op 16 1) r =
    ((s.lensStart c).lensApply (c.op 16 1) op (lensImage block 0)).lensRow (c.op 16 1) r := by
  have hentries : s.lensEntries op c block = (s.lensStart c).lensApply (c.op 16 1) op (lensImage block 0) := by
    rw [State.lensEntries, OpenCmd.lensImages, hone]
    rfl
  obtain ⟨v, hv⟩ := s.lensWritten_eq seq op c block
  rw [State.settle_lensRow, h.lensWrite_eq, hv, hentries]
  rfl

/-- Where no row waits for a comparison and every stack serves its shadows, the array and the writes of its shadow alone change. -/
theorem State.writesLens.rest (hq : (s.lens.queued.find? fun e => e.1 == c.op 16 1) = none) (hs : s.stacksServe) :
    ({ (s.lensWrite seq op block).settle with cmd := s.cmd, lens := s.lens, ver := s.ver, mem := s.mem } : State).still = s.still := by
  have hcompared := State.lensOnly_compareQueued hq
  have hstart : (s.lensStart c).stacksServe := hcompared.stacksServe hs
  have happlied : (s.lensStart c).lensOnly (s.lensEntries op c block) :=
    State.lensOnly.foldl (fun _ img ht => State.lensOnly_lensApply ht _ op img) _ hstart
  have hbeside : s.beside (s.lensEntries op c block) = s.still := (happlied.beside_eq s).trans (hcompared.beside_eq s)
  obtain ⟨v, hv⟩ := s.lensWritten_eq seq op c block
  refine (State.still_settle_masked (g := fun y => { y with cmd := s.cmd, lens := s.lens, ver := s.ver, mem := s.mem }) (fun _ => rfl) _).trans ?_
  rw [h.lensWrite_eq, hv]
  generalize s.lensEntries op c block = y at hbeside ⊢
  exact (congrArg (fun z : State => { z with cmd := s.cmd, ver := s.ver }) hbeside :)

end

/-! ### LENS_INVALIDATE (R186, R187) -/

/-- The command `c` of sequence `seq` may begin and is a well-formed LENS_INVALIDATE, and no row of it is live where it has to be. -/
structure State.clearsLens (s : State) (seq : Nat) (c : OpenCmd) : Prop where
  begins : s.begins seq 0x11 c
  formed : c.formed [(22, 42)] = true
  array : c.op 16 1 < 16
  mode : c.op 17 1 ≤ 1
  present : 1 ≤ c.op 20 2
  inside : c.op 18 2 + c.op 20 2 ≤ 16384
  unused : c.op 17 1 = 0 → ∀ i, i < c.op 20 2 → s.rowLive (c.op 16 1) (c.op 18 2 + i) = false

/-- The rows that the command names. -/
def OpenCmd.lensRows (c : OpenCmd) : List Nat := (List.range (c.op 20 2)).map fun i => c.op 18 2 + i

/-- The rows queued have been compared and those of the command are cleared. -/
def State.rowsCleared (s : State) (c : OpenCmd) : State :=
  c.lensRows.foldl (fun u r => u.clearRow (c.op 16 1) r) (s.compareQueued (c.op 16 1))

/-- Rows cleared although they were live are counted. -/
def State.forcedCounted (s t : State) (c : OpenCmd) : State :=
  if c.op 17 1 = 0 then t else t.sat (R.LENS_ERR.FORCED (c.op 16 1)) (c.lensRows.filter (s.rowLive (c.op 16 1))).length

theorem State.forcedCounted_eq (s t : State) (c : OpenCmd) : ∃ r, s.forcedCounted t c = { t with regs := r } := by
  unfold State.forcedCounted
  split <;> exact ⟨_, rfl⟩

theorem State.rowsCleared_valid (s : State) {c : OpenCmd} {q : Nat} (hq : q ∈ c.lensRows) : ((s.rowsCleared c).lensRow (c.op 16 1) q).valid = false :=
  foldl_establishes (P := fun t : State => (t.lensRow (c.op 16 1) q).valid = false) (fun t => t.clearRow_valid _ q q (.inl rfl)) hq
    (fun r _ t ht => t.clearRow_valid _ r q (.inr ht)) _

/-- Where no row waits for a comparison and every stack serves its shadows, the array and the writes of its shadow alone change. -/
theorem State.rowsCleared_rest {s : State} {c : OpenCmd} (seq : Nat) (hq : (s.lens.queued.find? fun e => e.1 == c.op 16 1) = none) (hs : s.stacksServe) :
    ({ ((s.forcedCounted (s.rowsCleared c) c).done seq [(16, 2, c.op 20 2)]).settle with
      cmd := s.cmd, lens := s.lens, mem := s.mem } : State).still = s.still := by
  have hcompared := State.lensOnly_compareQueued hq
  have hcleared : (s.compareQueued (c.op 16 1)).lensOnly (s.rowsCleared c) :=
    State.lensOnly.foldl (fun _ r ht => State.lensOnly_changeRow ht _ r _ _) _ (hcompared.stacksServe hs)
  have hbeside : s.beside (s.rowsCleared c) = s.still := (hcleared.beside_eq s).trans (hcompared.beside_eq s)
  obtain ⟨r, hr⟩ := s.forcedCounted_eq (s.rowsCleared c) c
  refine (State.still_settle_masked (g := fun y => { y with cmd := s.cmd, lens := s.lens, mem := s.mem }) (fun _ => rfl) _).trans ?_
  rw [hr]
  generalize s.rowsCleared c = y at hbeside ⊢
  exact (congrArg (fun z : State => { z with cmd := s.cmd }) hbeside :)

section
variable {s : State} {seq : Nat} {c : OpenCmd} (h : s.clearsLens seq c)
include h

theorem State.clearsLens.exec_eq :
    exec (.lensInvalidate seq) s = .next ((s.forcedCounted (s.rowsCleared c) c).done seq [(16, 2, c.op 20 2)]).settle := by
  have harray := h.array
  have hmode := h.mode
  have hpresent := h.present
  have hinside := h.inside
  have hformed : ¬ (!c.formed [(22, 42)] || decide (16 ≤ c.op 16 1) || decide (2 ≤ c.op 17 1) || c.op 20 2 == 0 ||
      decide (16384 < c.op 18 2 + c.op 20 2)) = true := by
    simp [h.formed]
    omega
  have hunused : ¬ (c.op 17 1 = 0 ∧ (c.lensRows.filter (s.rowLive (c.op 16 1))).isEmpty = false) := by
    rintro ⟨hzero, hlive⟩
    have hnone : c.lensRows.filter (s.rowLive (c.op 16 1)) = [] := by
      simpa [List.filter_eq_nil_iff, OpenCmd.lensRows] using h.unused hzero
    simp [hnone] at hlive
  refine (congrArg (complete true s) (State.runCmd_of h.begins _)).trans ?_
  dsimp only
  rw [if_neg hformed]
  exact congrArg (complete true s) (if_neg hunused)

theorem State.clearsLens.outcome : ((s.forcedCounted (s.rowsCleared c) c).done seq [(16, 2, c.op 20 2)]).settle.outcomeOf seq =
    some (outcomeArea 0 0 0 s.now [(16, 2, c.op 20 2)]) := by
  have hcleared : (s.rowsCleared c).clocked = s.clocked :=
    (clocked_foldl (fun t r => t.clocked_changeRow _ r _ _) _ _).trans (s.clocked_compareQueued _)
  obtain ⟨r, hr⟩ := s.forcedCounted_eq (s.rowsCleared c) c
  exact State.done_outcomeOf h.begins.1 ((congrArg State.clocked hr).trans hcleared) _

end

/-- Settles O12: the rows that the command names take its effect one by one, each with a write of its shadow and nothing else where every
stack serves it; comparisons ahead of them touch neither the timebase nor the command. -/
theorem lensCommandsComplete : Obligations.LensCommandsComplete := by
  refine ⟨?write, ?invalidate⟩
  case write =>
    intro s seq op c block hb hf ha ho hpresent hmost haligned hchecked
    refine ⟨?_, ?_, ?_⟩
    · rintro rfl
      have h : s.writesLens seq 0 c block := ⟨hb, hf, ha, ho, by decide, hpresent, hmost, haligned, hchecked⟩
      exact ⟨_, exec_lensWrite .., h.outcome, fun hone => (h.row hone _).trans (State.lensRow_lensApply_write ..), h.rest⟩
    · rintro rfl
      have h : s.writesLens seq 1 c block := ⟨hb, hf, ha, ho, by decide, hpresent, hmost, haligned, hchecked⟩
      refine ⟨_, exec_lensDeath .., h.outcome, fun hone => ?_, h.rest⟩
      rw [h.row hone]
      exact State.lensRow_lensApply_death ..
    · rintro rfl
      have h : s.writesLens seq 2 c block := ⟨hb, hf, ha, ho, by decide, hpresent, hmost, haligned, hchecked⟩
      refine ⟨_, exec_lensRevive .., h.outcome, fun hone => ?_, h.rest⟩
      rw [h.row hone]
      exact State.lensRow_lensApply_revive ..
  case invalidate =>
    intro s seq c hb hf ha hmode hpresent hinside hunused
    have h : s.clearsLens seq c := ⟨hb, hf, ha, hmode, hpresent, hinside, hunused⟩
    refine ⟨_, h.exec_eq, h.outcome, fun i hi => ?_, State.rowsCleared_rest seq⟩
    obtain ⟨r, hr⟩ := s.forcedCounted_eq (s.rowsCleared c) c
    rw [State.settle_lensRow, hr]
    exact s.rowsCleared_valid (List.mem_map.mpr ⟨i, List.mem_range.mpr hi, rfl⟩)

end Sys2Proof.Machine
end

section
/-! SUPPORT. A cycle of the reference clock that raises a fault: the state that refutes the statement about idle cycles (R180, R400, R415,
R514). -/
namespace Sys2Proof.Machine

theorem step_of_empty {s : State} (h : s.pending = []) : step s = .next s.tick := by
  rw [step, h]

/-- A read of class 3 has been due for 100 ns, its line of the dynamic area is bad, and HBM_UNCORR (source 31) resets the chip. -/
def spoiltRead : State :=
  { State.reset.setBit (R.FLT_REACT.CHIP 31) true with
    tb := 100 * 2 ^ 40
    mem := { bad := [0], queue := [⟨0, 0, 3, false, false, 0, 0, 0⟩] } }

/-- The cycle ends the read as an uncorrectable error, and the keeper records the chip reset that follows (R424, R504, R529). -/
theorem tick_spoiltRead : spoiltRead.tick.power.ranChip = true := by decide +kernel

/-- Refutes O54: the statement has the power state advance its clocks alone while the keeper runs, in every state; but the cycle serves any
request of class 3 that is due, and a read among them that meets a bad line raises source 31, whose CHIP reaction the keeper records. No
command queues such a read: class 3 holds writes of the forwarding area alone (R415, R417), which the statement does not suppose. -/
theorem not_idleCyclesPass : ¬ Obligations.IdleCyclesPass := by
  intro h
  obtain ⟨t, ht, -, -, -, -, hday, -⟩ := h spoiltRead rfl
  obtain rfl : spoiltRead.tick = t := by simpa [step_of_empty (s := spoiltRead) rfl] using ht
  have hkept : spoiltRead.tick.power.ranChip = false := congrArg PowerState.ranChip (hday (by decide) (by decide))
  rw [tick_spoiltRead] at hkept
  cases hkept

end Sys2Proof.Machine
end

section
/-! SUPPORT. What the table commands leave as it was while they write lines: the timebase and the commands, the hash seeds, and the
prefixes, beside the one that a change names (R199, R201, R204, R208, R217, R220). -/
namespace Sys2Proof.Machine

/-! ### What stays while lines are written -/

/-- What no write of a table line touches: the timebase, the commands, the hash seeds and the prefixes. -/
def State.steady (s : State) : (Nat × CmdState) × SMap Nat × List Prefix := (s.clocked, s.tbl.seeds, s.tbl.prefixes)

theorem State.clocked_of_steady {s t : State} (h : t.steady = s.steady) : t.clocked = s.clocked := congrArg Prod.fst h

/-- A fold keeps what each of its steps keeps. -/
theorem foldl_keeps {σ α β : Type} {g : σ → β} {f : σ → α → σ} (hf : ∀ s a, g (f s a) = g s) (l : List α) (s : σ) :
    g (l.foldl f s) = g s :=
  List.foldlRecOn (motive := fun t => g t = g s) l f rfl fun t ht a _ => (hf t a).trans ht

theorem ite_keeps {σ β : Type} {g : σ → β} {c : Prop} [Decidable c] {a b : σ} {x : β} (ha : g a = x) (hb : g b = x) :
    g (if c then a else b) = x := by
  split
  · exact ha
  · exact hb

/-- A fold that can fail, and does not, keeps what each of its steps keeps where it does not fail. -/
theorem foldl_some_keeps {σ α β γ : Type} {g : σ → β} {f : Option (γ × σ) → α → Option (γ × σ)} (hnone : ∀ a, f none a = none)
    (hsome : ∀ x a y, f (some x) a = some y → g y.2 = g x.2) (l : List α) {x y : γ × σ} (h : l.foldl f (some x) = some y) : g y.2 = g x.2 := by
  induction l generalizing x with
  | nil => cases h; rfl
  | cons a l ih =>
    rw [List.foldl_cons] at h
    cases hstep : f (some x) a with
    | none =>
      rw [hstep, List.foldl_fixed' hnone] at h
      cases h
    | some z =>
      rw [hstep] at h
      exact (ih h).trans (hsome x a z hstep)

section
variable (s : State)

@[simp] theorem State.steady_set (l : Loc) (v : Nat) : (s.set l v).steady = s.steady := rfl
@[simp] theorem State.steady_wrap (l : Loc) (k : Nat) : (s.wrap l k).steady = s.steady := rfl
@[simp] theorem State.steady_dec (l : Loc) (k : Nat) : (s.dec l k).steady = s.steady := rfl
@[simp] theorem State.steady_setPrism (k : Nat) (p : Prism) : (s.setPrism k p).steady = s.steady := rfl

@[simp] theorem State.steady_raise (n info : Nat) : (s.raise n info).steady = s.steady := by
  rw [State.raise, (raises s n info none false).eq]
  rfl

/-! Memory requests (R415, R420, R430). -/

@[simp] theorem State.steady_failWho (who : Nat) : (s.failWho who).steady = s.steady := ite_keeps rfl rfl

@[simp] theorem State.steady_lineFails (q line cls who : Nat) : (s.lineFails q line cls who).steady = s.steady := by
  have hcounted : (if line < s.get R.HBM_CFG.FWD_LINES then s else (s.sat (R.HBM_ECC.UNCORRECTED (q / 32)) 1).raise 31 (q / 32)).steady =
      s.steady := ite_keeps rfl (State.steady_raise ..)
  exact (State.steady_failWho ..).trans (ite_keeps hcounted hcounted)

@[simp] theorem State.steady_memRequest (r : MemReq) : (s.memRequest r).steady = s.steady := by
  refine ite_keeps (s.steady_lineFails ..) ?_
  split
  · exact ite_keeps rfl rfl
  · rfl

@[simp] theorem State.steady_dynRequests (who cls : Nat) (hint write : Bool) (data : Nat → Nat) (n a : Nat) :
    (s.dynRequests who cls hint write data n a).steady = s.steady := by
  induction n generalizing s a with
  | zero => rfl
  | succ n ih => exact (ih _ _).trans (s.steady_memRequest _)

@[simp] theorem State.steady_forwardWrite (groups : List Nat) (line : Nat) : (s.forwardWrite groups line).steady = s.steady :=
  foldl_keeps (fun t _ => t.steady_memRequest _) _ _

@[simp] theorem State.steady_farSend_table (a : Nat) : (s.farSend a .table).steady = s.steady := ite_keeps rfl (ite_keeps rfl rfl)

/-! Lines and entries (R205, R208, R210, R220). -/

@[simp] theorem State.steady_lineWrites (k v : Nat) : (s.lineWrites k v).steady = s.steady := by
  unfold State.lineWrites
  split
  · rfl
  · exact s.steady_forwardWrite ..
  · exact State.steady_farSend_table ..

@[simp] theorem State.steady_setTline (k v : Nat) : (s.setTline k v).steady = s.steady := by
  have hclocked : (s.lineWrites k v).clocked = s.clocked := State.clocked_of_steady (s.steady_lineWrites k v)
  exact (congrArg (fun c => (c, s.tbl.seeds, s.tbl.prefixes)) hclocked :)

@[simp] theorem State.steady_putEntry (t b w : Nat) (e : Entry) : (s.putEntry t b w e).steady = s.steady :=
  ite_keeps (s.steady_setTline ..) (s.steady_setTline ..)

@[simp] theorem State.steady_markDying (t : Nat) (x : Nat × Nat) (v : Nat) : (s.markDying t x v).steady = s.steady := s.steady_putEntry ..

@[simp] theorem State.steady_clearEntry (t b w : Nat) : (s.clearEntry t b w).steady = s.steady :=
  (State.steady_dec ..).trans (ite_keeps ((State.steady_setTline ..).trans (State.steady_setTline ..)) (State.steady_setTline ..))

@[simp] theorem State.steady_moveEntry (t b w b1 w1 : Nat) : (s.moveEntry t b w b1 w1).steady = s.steady :=
  (State.steady_wrap ..).trans ((State.steady_setTline ..).trans ((State.steady_setTline ..).trans rfl))

@[simp] theorem State.steady_runChain (t : Nat) (path : List (Nat × Nat)) (dst : Nat) : (s.runChain t path dst).steady = s.steady := by
  induction path generalizing s dst with
  | nil => rfl
  | cons x path ih =>
    unfold State.runChain
    split
    · exact (ih ..).trans (s.steady_moveEntry ..)
    · rfl

@[simp] theorem State.steady_spared (t key : Nat) : (s.spared t key).2.steady = s.steady :=
  ite_keeps (g := fun x : Bool × State => x.2.steady) rfl rfl

@[simp] theorem State.steady_flushEntry (t owner : Nat) (static : Bool) (ver : Option Nat) (pos : Nat) (e : Entry) :
    (s.flushEntry t owner static ver pos e).2.steady = s.steady := by
  unfold State.flushEntry
  dsimp only
  split
  · rfl
  · split
    · exact s.steady_spared ..
    · split
      · exact (State.steady_markDying ..).trans (s.steady_spared ..)
      · exact (State.steady_clearEntry ..).trans (s.steady_spared ..)

@[simp] theorem State.steady_flushTable (t owner : Nat) (static : Bool) (ver : Option Nat) (n : Nat) :
    (s.flushTable t owner static ver n).2.steady = s.steady := by
  unfold State.flushTable
  refine foldl_keeps (g := fun x : Nat × State => x.2.steady) (fun x e => ?_) _ (n, s)
  exact x.2.steady_flushEntry ..

end

theorem State.fillWay_steady {s u : State} {t b w : Nat} {e : Entry} (h : s.fillWay t b w e = some u) : u.steady = s.steady := by
  unfold State.fillWay at h
  split at h
  · split at h
    · cases h
      exact (State.steady_setTline ..).trans (State.steady_setTline ..)
    · cases h
  · cases h
    exact State.steady_setTline ..

theorem State.insertEntry_steady {s u : State} {t : Nat} {e : Entry} (h : s.insertEntry t e = some u) : u.steady = s.steady := by
  unfold State.insertEntry at h
  dsimp only at h
  split at h
  · rename_i b w v hplace
    have hv : v.steady = s.steady := by
      split at hplace
      · cases hplace
        rfl
      · cases hplace
        rfl
      · split at hplace
        · obtain ⟨x, -, hx⟩ := Option.map_eq_some_iff.mp hplace
          cases hx
          exact s.steady_runChain ..
        · cases hplace
    obtain ⟨y, hy, rfl⟩ := Option.map_eq_some_iff.mp h
    exact (State.steady_set ..).trans ((State.fillWay_steady hy).trans hv)
  · cases h

/-! ### What stays while a trie is rebuilt (R199 to R201) -/

theorem State.allocLines_steady {s u : State} {t tier n c : Nat} (h : s.allocLines t tier n = some (c, u)) : u.steady = s.steady := by
  unfold State.allocLines at h
  dsimp only at h
  split at h
  · cases h
  · cases h
    rfl

theorem buildNode_steady {t : Nat} {ps : List Prefix} {levels : List (Nat × Nat)} {old lo bits line : Nat} {s u : State}
    (h : buildNode t ps levels old lo bits s = some (line, u)) : u.steady = s.steady := by
  induction levels generalizing old lo bits line s u with
  | nil =>
    cases h
    rfl
  | cons level levels ih =>
    unfold buildNode at h
    split at h
    · cases h
      rfl
    · split at h
      · cases h
      · dsimp only at h
        split at h
        · cases h
        · rename_i ls v hkids
          have hv : v.steady = s.steady := by
            refine foldl_some_keeps (g := State.steady) (fun _ => rfl) (fun x i y hy => ?_) _ hkids
            dsimp only at hy
            split at hy
            · rename_i hkid
              cases hy
              exact ih hkid
            · cases hy
          split at h
          · cases h
            exact hv
          · split at h
            · cases h
            · rename_i hlines
              cases h
              exact (foldl_keeps (fun w i => w.steady_setTline ..) _ _).trans ((State.allocLines_steady hlines).trans hv)

theorem State.rewriteBelow_steady {t : Nat} {ps : List Prefix} {levels : List (Nat × Nat)} {k lo bits : Nat} {s u : State}
    (h : State.rewriteBelow t ps levels k lo bits s = some u) : u.steady = s.steady := by
  induction levels generalizing k lo bits s u with
  | nil =>
    cases h
    exact ite_keeps rfl (s.steady_setTline ..)
  | cons level levels ih =>
    have hhere : ∀ {x : Option (Nat × State)} {v : State}, x = buildNode t ps (level :: levels) (nodeOrLeaf (s.tline k)) lo bits s →
        (match x with
          | some (line, w) => some (if line = nodeOrLeaf (s.tline k) then s else w.setTline k line)
          | none => none) = some v → v.steady = s.steady := by
      intro x v hx hv
      split at hv
      · cases hv
        exact ite_keeps rfl ((State.steady_setTline ..).trans (buildNode_steady hx.symm))
      · cases hv
    unfold State.rewriteBelow at h
    dsimp only at h
    split at h
    · exact hhere rfl h
    · split at h
      · cases h
      · split at h
        · split at h
          · cases h
            rfl
          · split at h
            · exact ih h
            · exact hhere rfl h
          · exact hhere rfl h
        · exact hhere rfl h

theorem State.rebuildRoot_steady {s u : State} {t i : Nat} {old : List Nat} (h : s.rebuildRoot t i = some (old, u)) : u.steady = s.steady := by
  unfold State.rebuildRoot at h
  dsimp only at h
  split at h
  · rename_i hroot
    cases h
    exact State.rewriteBelow_steady hroot
  · cases h

@[simp] theorem State.steady_startRound (s : State) (ks : List Nat) (commit : Bool) : (s.startRound ks commit).2.steady = s.steady :=
  (foldl_keeps (fun t _ => t.steady_setPrism ..) _ _).trans rfl

theorem State.rebuild_steady {s u : State} {t : Nat} {p : Prefix} (h : s.rebuild t p = some u) : u.steady = s.steady := by
  have hroots : ∀ {y}, ((s.rootsOf t p).foldl (fun (acc : Option (List Nat × State)) i =>
      match acc with
      | none => none
      | some (old, v) =>
        match v.rebuildRoot t i with
        | some (o, w) => some (old ++ o, w)
        | none => none) (some ([], s))) = some y → y.2.steady = s.steady := by
    intro y hy
    refine foldl_some_keeps (g := State.steady) (fun _ => rfl) (fun x i z hz => ?_) _ hy
    dsimp only at hz
    split at hz
    · rename_i hroot
      cases hz
      exact State.rebuildRoot_steady hroot
    · cases hz
  unfold State.rebuild at h
  dsimp only at h
  split at h
  · cases h
  · rename_i hfold
    cases h
    exact hroots hfold
  · rename_i v _ hfold
    split at h
    · cases h
      exact hroots hfold
    · have hround : (v.startRound (List.range 16) false).2.steady = v.steady := v.steady_startRound ..
      generalize v.startRound (List.range 16) false = round at h hround
      cases h
      exact hround.trans (hroots hfold)

@[simp] theorem State.steady_prefixTraffic (s : State) (ps : List Prefix) (p : Prefix) : (s.prefixTraffic ps p).steady = s.steady :=
  (State.steady_dynRequests ..).trans (foldl_keeps (fun t _ => t.steady_dynRequests ..) _ _)

/-- A change to the prefixes touches neither the timebase nor a command. -/
theorem State.changePrefix_clocked {s u : State} {t : Nat} {p : Prefix} (h : s.changePrefix t p = .inr u) : u.clocked = s.clocked := by
  unfold State.changePrefix at h
  dsimp only at h
  split at h
  · cases h
  · split at h
    · cases h
    · split at h
      · cases h
      · rename_i hbuilt
        cases h
        have hrebuilt := State.clocked_of_steady (State.rebuild_steady hbuilt)
        exact (State.clocked_of_steady (State.steady_prefixTraffic ..)).trans hrebuilt

end Sys2Proof.Machine
end

section
/-! SUPPORT. The table commands: what the images of TBL_INSERT and TBL_DELETE leave of the command that brings them, and how each of the five
commands ends (R217 to R220). -/
namespace Sys2Proof.Machine

/-! ### One image (R217) -/

theorem State.insertExact_clocked {s u : State} {t : Nat} {img : List Byte} {replace static : Bool} {ver : Option Nat}
    (h : s.insertExact t img replace static ver = .inr u) : u.clocked = s.clocked := by
  unfold State.insertExact at h
  dsimp only at h
  split at h
  · split at h
    · cases h
    · split at h
      · cases h
        exact State.clocked_of_steady (State.steady_putEntry ..)
      · split at h
        · rename_i hin
          split at h <;> cases h <;> exact State.clocked_of_steady ((State.steady_markDying ..).trans (State.insertEntry_steady hin))
        · cases h
  · split at h
    · rename_i hin
      cases h
      exact State.clocked_of_steady (State.insertEntry_steady hin)
    · cases h

theorem State.insertPrefix_clocked {s u : State} {t : Nat} {img : List Byte} {replace : Bool} {ver : Option Nat}
    (h : s.insertPrefix t img replace ver = .inr u) : u.clocked = s.clocked := by
  obtain ⟨-, h⟩ | ⟨-, h⟩ := ite_eq_iff.mp h
  · cases h
  · exact State.changePrefix_clocked h

/-- An image that is inserted touches neither the timebase nor a command. -/
theorem State.insertImage_clocked {s u : State} {t flags : Nat} {img : List Byte} (h : s.insertImage t img flags = .inr u) :
    u.clocked = s.clocked := by
  unfold State.insertImage at h
  dsimp only at h
  split at h
  · cases h
  · split at h
    · cases h
    · split at h
      · exact State.insertPrefix_clocked h
      · split at h
        · exact State.insertExact_clocked h
        · cases h
          exact State.clocked_of_steady (State.steady_setTline ..)

/-- An image that is deleted touches neither the timebase nor a command. -/
theorem State.deleteImage_clocked {s u : State} {t flags : Nat} {img : List Byte} (h : s.deleteImage t img flags = .inr u) :
    u.clocked = s.clocked := by
  unfold State.deleteImage at h
  dsimp only at h
  split at h
  · cases h
  · split at h
    · cases h
    · split at h
      · split at h
        · cases h
        · split at h
          · split at h
            · cases h
            · exact State.changePrefix_clocked h
          · exact State.changePrefix_clocked h
      · split at h
        · split at h
          · cases h
          · cases h
            exact State.clocked_of_steady (State.steady_markDying ..)
          · cases h
            exact State.clocked_of_steady (State.steady_clearEntry ..)
        · cases h
          exact State.clocked_of_steady (State.steady_setTline ..)

/-- In a direct table the result of an image that is inserted stands in its line. -/
theorem State.insertImage_direct {s u : State} {t flags : Nat} {img : List Byte} (hkind : s.get (R.TBL_DESC.KIND t) = 4)
    (h : s.insertImage t img flags = .inr u) : u.tline (s.imgLine t img) = imgResult img 64 := by
  unfold State.insertImage at h
  dsimp only at h
  rw [hkind] at h
  split at h
  · cases h
  · split at h
    · cases h
    · cases h
      exact SMap.find_put_same ..

/-- In a direct table the line of an image that is deleted becomes 0 (the model's choice, log 50). -/
theorem State.deleteImage_direct {s u : State} {t flags : Nat} {img : List Byte} (hkind : s.get (R.TBL_DESC.KIND t) = 4)
    (h : s.deleteImage t img flags = .inr u) : u.tline (s.imgLine t img) = 0 := by
  unfold State.deleteImage at h
  dsimp only at h
  rw [hkind] at h
  split at h
  · cases h
  · split at h
    · cases h
    · cases h
      exact SMap.find_put_same ..

/-! ### Images in order -/

section
variable {f : State → List Byte → Nat ⊕ State}

theorem applyImages_clocked (hf : ∀ {s u : State} {img : List Byte}, f s img = .inr u → u.clocked = s.clocked) (imgs : List (List Byte)) (n : Nat)
    (s : State) : (applyImages f imgs n s).2.2.clocked = s.clocked := by
  induction imgs generalizing n s with
  | nil => rfl
  | cons img imgs ih =>
    unfold applyImages
    split
    · rfl
    · rename_i himg
      exact (ih ..).trans (hf himg)

/-- Where no image fails, as many stand as there are. -/
theorem applyImages_count {imgs : List (List Byte)} {n : Nat} {s : State} (h : (applyImages f imgs n s).2.1 = none) :
    (applyImages f imgs n s).1 = n + imgs.length := by
  induction imgs generalizing n s with
  | nil => rfl
  | cons img imgs ih =>
    unfold applyImages at h ⊢
    split at h
    · cases h
    · rw [ih h, List.length_cons]
      omega

theorem applyImages_one {img : List Byte} {s : State} (h : (applyImages f [img] 0 s).2.1 = none) :
    f s img = .inr (applyImages f [img] 0 s).2.2 := by
  unfold applyImages at h ⊢
  split at h
  · cases h
  · assumption

end

/-! ### TBL_INSERT and TBL_DELETE (R217) -/

/-- The images of the command `c`, read and changed one after the other by `f`, which takes the table and the flags. -/
def State.imagesApplied (s : State) (c : OpenCmd) (images : List Byte) (f : Nat → Nat → State → List Byte → Nat ⊕ State) : Nat × Option Nat × State :=
  applyImages (f (c.op 16 1) (c.op 17 1)) ((List.range (c.op 18 2)).map (tblImage images)) 0
    (s.emitAll (s.pfReads (s.cmdPf c) (c.op 24 8) (128 * c.op 18 2)))

/-- The open command `c` of sequence `seq` may begin and is a well-formed TBL_INSERT or TBL_DELETE, whose flags byte is at most `mask`, of
images that `f` changes without a failure. -/
structure State.changesAll (s : State) (seq code mask : Nat) (c : OpenCmd) (images : List Byte) (f : Nat → Nat → State → List Byte → Nat ⊕ State) :
    Prop where
  begins : s.begins seq code c
  formed : c.formed [(20, 4), (32, 32)] = true
  flags : c.op 17 1 ≤ mask
  present : 1 ≤ c.op 18 2
  most : c.op 18 2 ≤ 1024
  aligned : c.op 24 8 % 64 = 0
  described : s.get (R.TBL_DESC.KIND (c.op 16 1)) ≠ 0
  applied : (s.imagesApplied c images f).2.1 = none

/-- The command is noted where it has written staged entries. -/
def State.imagesNoted (s : State) (seq : Nat) (c : OpenCmd) (images : List Byte) (f : Nat → Nat → State → List Byte → Nat ⊕ State) : State :=
  if (c.op 17 1).testBit 0 && decide (0 < (s.imagesApplied c images f).1) then (s.imagesApplied c images f).2.2.noteStaged seq
  else (s.imagesApplied c images f).2.2

theorem State.imagesNoted_eq (s : State) (seq : Nat) (c : OpenCmd) (images : List Byte) (f : Nat → Nat → State → List Byte → Nat ⊕ State) :
    ∃ v, s.imagesNoted seq c images f = { (s.imagesApplied c images f).2.2 with ver := v } := by
  unfold State.imagesNoted
  split
  · exact ⟨_, rfl⟩
  · exact ⟨_, rfl⟩

theorem exec_tblInsert (seq : Nat) (images : List Byte) (s : State) : exec (.tblInsert seq images) s =
    .next (s.tblChange seq 0x01 7 images fun t fl u img => u.insertImage t img fl).settle := complete_true ..

theorem exec_tblDelete (seq : Nat) (images : List Byte) (s : State) : exec (.tblDelete seq images) s =
    .next (s.tblChange seq 0x02 1 images fun t fl u img => u.deleteImage t img fl).settle := complete_true ..

section
variable {s : State} {seq code mask : Nat} {c : OpenCmd} {images : List Byte} {f : Nat → Nat → State → List Byte → Nat ⊕ State}
  (h : s.changesAll seq code mask c images f)
include h

theorem State.changesAll.tblChange_eq :
    s.tblChange seq code mask images f = (s.imagesNoted seq c images f).done seq [(16, 2, c.op 18 2)] := by
  have hflags := h.flags
  have hpresent := h.present
  have hmost := h.most
  have hformed : ¬ (!c.formed [(20, 4), (32, 32)] || decide (mask < c.op 17 1) || c.op 18 2 == 0 || decide (1024 < c.op 18 2) ||
      c.op 24 8 % 64 != 0 || s.get (R.TBL_DESC.KIND (c.op 16 1)) == 0) = true := by
    simp [h.formed, h.aligned, h.described]
    omega
  have hcount : (s.imagesApplied c images f).1 = c.op 18 2 := by
    have hlength := applyImages_count h.applied
    rwa [List.length_map, List.length_range, Nat.zero_add] at hlength
  rw [State.tblChange, State.runCmd_of h.begins]
  dsimp only
  rw [if_neg hformed, ← State.imagesApplied, h.applied, ← hcount]
  rfl

theorem State.changesAll.outcome (hf : ∀ {t fl : Nat} {v u : State} {img : List Byte}, f t fl v img = .inr u → u.clocked = v.clocked) :
    (s.tblChange seq code mask images f).settle.outcomeOf seq = some (outcomeArea 0 0 0 s.now [(16, 2, c.op 18 2)]) := by
  have happlied : (s.imagesApplied c images f).2.2.clocked = s.clocked := applyImages_clocked hf ..
  obtain ⟨v, hv⟩ := s.imagesNoted_eq seq c images f
  rw [h.tblChange_eq]
  exact State.done_outcomeOf h.begins.1 ((congrArg State.clocked hv).trans happlied) _

/-- A single image leaves its table as `f` does. -/
theorem State.changesAll.one (hone : c.op 18 2 = 1) : ∃ u,
    f (c.op 16 1) (c.op 17 1) (s.emitAll (s.pfReads (s.cmdPf c) (c.op 24 8) (128 * c.op 18 2))) (tblImage images 0) = .inr u ∧
      (s.tblChange seq code mask images f).settle.tbl = u.tbl := by
  have happlied := h.applied
  obtain ⟨v, hv⟩ := s.imagesNoted_eq seq c images f
  have htbl : (s.tblChange seq code mask images f).settle.tbl = (s.imagesApplied c images f).2.2.tbl := by
    rw [State.settle_tbl, h.tblChange_eq, hv]
    rfl
  have himages : (List.range (c.op 18 2)).map (tblImage images) = [tblImage images 0] := by rw [hone]; rfl
  rw [State.imagesApplied, himages] at happlied htbl
  exact ⟨_, applyImages_one happlied, htbl⟩

end

theorem State.tline_of_tbl {s t : State} (h : t.tbl = s.tbl) (k : Nat) : t.tline k = s.tline k := by rw [State.tline, h, State.tline]

/-! ### Commands that change no table -/

theorem State.emitAll_emitAll (s : State) (a b : List Emit) : (s.emitAll a).emitAll b = s.emitAll (a ++ b) := by
  simp only [State.emitAll, List.append_assoc]

theorem State.emitAll_nil (s : State) : s.emitAll [] = s := by
  simp only [State.emitAll, List.append_nil]

theorem State.emitAll_current (s : State) (outs : List Emit) : (s.emitAll outs).current = s.current := rfl

/-- A command that sends outputs and ends has its outcome. -/
theorem State.sent_outcome {s : State} {seq : Nat} {c : OpenCmd} (hc : s.findCmd seq = some c) (outs : List Emit) (a b i k : Nat)
    (d : List (Nat × Nat × Nat)) : ((s.emitAll outs).finish seq a b i k d).settle.outcomeOf seq = some (outcomeArea a b i k d) := by
  rw [State.settle_outcomeOf, State.outcomeOf_finish (s := s.emitAll outs) hc]

/-- The frame of a command that changes open commands. -/
theorem State.kept_cmd {s x t : State} {outs : List Emit} (ht : t = x.settle) (hs : ({ x with cmd := s.cmd } : State).still = s.still)
    (ho : x.out = s.out ++ outs) (hw : ∀ off, x.word off = s.word off) : s.kept { t with cmd := s.cmd } outs fun _ => False := by
  have hstill : ({ t with cmd := s.cmd } : State).still = s.still := by
    rw [ht]
    exact (State.still_settle_masked (g := fun y => { y with cmd := s.cmd }) (fun _ => rfl) x).trans hs
  have hregs : t.regs = x.settle.regs := by rw [ht]
  have hout : t.out = x.settle.out := by rw [ht]
  exact State.kept_of hstill hregs hout (fun off _ => hw off) ho

/-- Beside its outcome and its outputs such a command leaves everything as it was. -/
theorem State.sent_kept (s : State) (seq : Nat) (outs : List Emit) (a b i k : Nat) (d : List (Nat × Nat × Nat)) :
    s.kept { ((s.emitAll outs).finish seq a b i k d).settle with cmd := s.cmd } outs fun _ => False :=
  State.kept_cmd rfl rfl rfl fun _ => rfl

/-! ### TBL_SEARCH (R218) -/

/-- The open command `c` of sequence `seq` may begin and is a well-formed TBL_SEARCH whose image passes its checks; it searches at version
`v`. -/
structure State.searches (s : State) (seq v : Nat) (c : OpenCmd) (image : List Byte) : Prop where
  begins : s.begins seq 0x03 c
  formed : c.formed [(19, 5), (32, 32)] = true
  mode : c.op 17 1 ≤ 2
  unreserved : c.op 18 1 / 16 % 8 = 0
  described : s.get (R.TBL_DESC.KIND (c.op 16 1)) ≠ 0
  longest : c.op 17 1 = 1 → s.get (R.TBL_DESC.KIND (c.op 16 1)) = 1
  owner : c.op 17 1 = 2 → exactKind (s.get (R.TBL_DESC.KIND (c.op 16 1))) = true
  version : if (c.op 18 1).testBit 7 then v = c.op 18 1 % 16 ∧ s.liveVersions.contains v = true else v = s.current
  good : s.imgGood (c.op 16 1) (slice image 0 2 ++ [0] ++ slice image 3 61 ++ leBytes 64 0) (c.op 17 1 == 0) = true

/-- How such a search ends. -/
def State.searchEnd (s : State) (seq v : Nat) (c : OpenCmd) (image : List Byte) : State :=
  match s.searchTable (c.op 16 1) (c.op 17 1) v (slice image 0 128) with
  | some found => (s.emitAll (s.pfReads (s.cmdPf c) (c.op 24 8) 128 ++ s.pfWrites (s.cmdPf c) (c.op 24 8) found)).finish seq 4 0 0 0 []
  | none => (s.emitAll (s.pfReads (s.cmdPf c) (c.op 24 8) 128)).finish seq 5 0 0 0 []

theorem State.searches.exec_eq {s : State} {seq v : Nat} {c : OpenCmd} {image : List Byte} (h : s.searches seq v c image) :
    exec (.tblSearch seq image) s = .next (s.searchEnd seq v c image).settle := by
  have hmode := h.mode
  have hlongest := h.longest
  have howner := h.owner
  have hversion := h.version
  have hformed : ¬ (!c.formed [(19, 5), (32, 32)] || decide (2 < c.op 17 1) || c.op 18 1 / 16 % 8 != 0 ||
      s.get (R.TBL_DESC.KIND (c.op 16 1)) == 0 || (c.op 17 1 == 1 && s.get (R.TBL_DESC.KIND (c.op 16 1)) != 1) ||
      (c.op 17 1 == 2 && !exactKind (s.get (R.TBL_DESC.KIND (c.op 16 1))))) = true := by
    simp [h.formed, h.unreserved, h.described]
    exact ⟨⟨hmode, hlongest⟩, howner⟩
  have hlive : ¬ ((c.op 18 1).testBit 7 && !s.liveVersions.contains (c.op 18 1 % 16)) = true := by
    split at hversion
    · rw [← hversion.1, hversion.2]
      simp
    · simp [*]
  have hv : (if (c.op 18 1).testBit 7 then c.op 18 1 % 16 else s.current) = v := by
    split at hversion
    · rw [if_pos ‹_›, hversion.1]
    · rw [if_neg ‹_›, hversion]
  have hgood : ¬ (!(s.emitAll (s.pfReads (s.cmdPf c) (c.op 24 8) 128)).imgGood (c.op 16 1)
      (slice image 0 2 ++ [0] ++ slice image 3 61 ++ leBytes 64 0) (c.op 17 1 == 0)) = true := by
    have hread : (s.emitAll (s.pfReads (s.cmdPf c) (c.op 24 8) 128)).imgGood (c.op 16 1)
        (slice image 0 2 ++ [0] ++ slice image 3 61 ++ leBytes 64 0) (c.op 17 1 == 0) = true := h.good
    rw [hread]
    exact Bool.false_ne_true
  have hread : (s.emitAll (s.pfReads (s.cmdPf c) (c.op 24 8) 128)).searchTable (c.op 16 1) (c.op 17 1) v (slice image 0 128) =
    s.searchTable (c.op 16 1) (c.op 17 1) v (slice image 0 128) := rfl
  refine (congrArg (complete true s) (State.runCmd_of h.begins _)).trans ?_
  dsimp only
  rw [if_neg hformed, if_neg hlive, if_neg hgood, State.emitAll_current, hv, hread, State.searchEnd]
  cases s.searchTable (c.op 16 1) (c.op 17 1) v (slice image 0 128) with
  | none => rfl
  | some found => exact congrArg (fun u : State => complete true s (u.finish seq 4 0 0 0 [])) (s.emitAll_emitAll ..)

/-! ### TBL_NEXT (R219) -/

/-- The images that TBL_NEXT gives. -/
def State.nextImages (s : State) (c : OpenCmd) : List (Nat × List Byte) := s.imagesFrom (c.op 16 1) (c.op 24 8 % 2 ^ 32) (c.op 18 2)

/-- The position after them. -/
def State.nextPosition (s : State) (c : OpenCmd) : Nat := match (s.nextImages c).getLast? with | some x => x.1 | none => c.op 24 8 % 2 ^ 32

/-- MOVES when the iteration began. -/
def State.movesAtStart (s : State) (c : OpenCmd) : Nat := if c.op 24 8 = 0 then s.get (R.TBL_FILL.MOVES (c.op 16 1)) else c.op 24 8 / 2 ^ 32

/-- The cursor that TBL_NEXT returns, and the moves since the iteration began. -/
def State.nextCursor (s : State) (c : OpenCmd) : List (Nat × Nat × Nat) :=
  [(24, 8, if !(s.imagesFrom (c.op 16 1) (s.nextPosition c) 1).isEmpty then s.nextPosition c % 2 ^ 32 + s.movesAtStart c * 2 ^ 32 else 0),
    (32, 4, (s.get (R.TBL_FILL.MOVES (c.op 16 1)) + 2 ^ 32 - s.movesAtStart c) % 2 ^ 32)]

/-- The images are written where there are any. -/
def State.nextWritten (s : State) (c : OpenCmd) : State :=
  if (s.nextImages c).isEmpty then s else s.emitAll (s.pfWrites (s.cmdPf c) (c.op 32 8) ((s.nextImages c).flatMap (·.2)))

theorem State.nextWritten_of_none {s : State} {c : OpenCmd} (h : s.nextImages c = []) : s.nextWritten c = s.emitAll [] := by
  rw [State.nextWritten, h, if_pos List.isEmpty_nil, State.emitAll_nil]

theorem State.nextWritten_of_some {s : State} {c : OpenCmd} (h : s.nextImages c ≠ []) :
    s.nextWritten c = s.emitAll (s.pfWrites (s.cmdPf c) (c.op 32 8) ((s.nextImages c).flatMap (·.2))) :=
  if_neg fun hempty => h (List.isEmpty_iff.mp hempty)

theorem exec_tblNext {s : State} {seq : Nat} {c : OpenCmd} (hb : s.begins seq 0x04 c) (hf : c.formed [(17, 1), (20, 4), (40, 24)] = true)
    (hpresent : 1 ≤ c.op 18 2) (hmost : c.op 18 2 ≤ 1024) (hdescribed : s.get (R.TBL_DESC.KIND (c.op 16 1)) ≠ 0) :
    exec (.tblNext seq) s =
      .next ((s.nextWritten c).finish seq 0 0 0 0 ([(16, 2, (s.nextImages c).length)] ++ s.nextCursor c)).settle := by
  have hformed : ¬ (!c.formed [(17, 1), (20, 4), (40, 24)] || c.op 18 2 == 0 || decide (1024 < c.op 18 2) ||
      s.get (R.TBL_DESC.KIND (c.op 16 1)) == 0) = true := by
    simp [hf, hdescribed]
    omega
  exact (congrArg (complete true s) (State.runCmd_of hb _)).trans (congrArg (complete true s) (if_neg hformed))

/-! ### TBL_FLUSH_PORT (R220) -/

/-- The open command `c` of sequence `seq` may begin and is a well-formed TBL_FLUSH_PORT of tables of exact matches. -/
structure State.flushes (s : State) (seq : Nat) (c : OpenCmd) : Prop where
  begins : s.begins seq 0x05 c
  formed : c.formed [(18, 2), (24, 40)] = true
  flags : c.op 17 1 ≤ 3
  owner : c.op 20 4 < 2 ^ 21
  exact_ : c.op 16 1 ≠ 0xFF → exactKind (s.get (R.TBL_DESC.KIND (c.op 16 1))) = true
  versioned : (c.op 17 1).testBit 0 = true → s.staged ≠ none ∧ (c.op 16 1 = 0xFF → ∀ x, x < 256 → s.bit (R.TBL_DESC.FLUSH x) = true →
    s.get (R.TBL_DESC.KIND x) = 0 ∨ exactKind (s.get (R.TBL_DESC.KIND x)) = true)

/-- The tables that the flush may reach where it names none, and those that it takes. -/
def State.flushable (s : State) : List Nat := (s.tablesOf fun k => k != 0).filter fun x => s.bit (R.TBL_DESC.FLUSH x)
def State.flushedTables (s : State) (c : OpenCmd) : List Nat :=
  if c.op 16 1 = 0xFF then s.flushable.filter fun x => exactKind (s.get (R.TBL_DESC.KIND x)) else [c.op 16 1]

theorem State.mem_flushable (s : State) {x : Nat} :
    x ∈ s.flushable ↔ x < 256 ∧ s.get (R.TBL_DESC.KIND x) ≠ 0 ∧ s.bit (R.TBL_DESC.FLUSH x) = true := by
  simp only [State.flushable, State.tablesOf, List.mem_filter, List.mem_range, bne_iff_ne]
  exact and_assoc

/-- The number of entries flushed, and the state without them. -/
def State.portFlushed (s : State) (c : OpenCmd) : Nat × State :=
  (s.flushedTables c).foldl (fun (acc : Nat × State) x =>
    acc.2.flushTable x (c.op 20 4) ((c.op 17 1).testBit 1) (if (c.op 17 1).testBit 0 then s.staged else none) acc.1) (0, s)

/-- How such a flush ends. -/
def State.flushEnd (s : State) (seq : Nat) (c : OpenCmd) : State :=
  if (s.portFlushed c).1 = 0 then (s.portFlushed c).2.told seq [(16, 4, 0)]
  else (if (c.op 17 1).testBit 0 then (s.portFlushed c).2.noteStaged seq else (s.portFlushed c).2).done seq [(16, 4, (s.portFlushed c).1)]

theorem State.steady_portFlushed (s : State) (c : OpenCmd) : (s.portFlushed c).2.steady = s.steady := by
  refine foldl_keeps (g := fun x : Nat × State => x.2.steady) (fun x t => ?_) _ (0, s)
  exact x.2.steady_flushTable ..

section
variable {s : State} {seq : Nat} {c : OpenCmd} (h : s.flushes seq c)
include h

theorem State.flushes.exec_eq : exec (.tblFlushPort seq) s = .next (s.flushEnd seq c).settle := by
  have hflags := h.flags
  have howner := h.owner
  have hexact := h.exact_
  have hformed : ¬ (!c.formed [(18, 2), (24, 40)] || decide (3 < c.op 17 1) || decide (2 ^ 21 ≤ c.op 20 4) ||
      (c.op 16 1 != 0xFF && !exactKind (s.get (R.TBL_DESC.KIND (c.op 16 1))))) = true := by
    simp [h.formed]
    exact ⟨⟨hflags, howner⟩, hexact⟩
  have hversioned : ¬ ((c.op 17 1).testBit 0 && (s.staged.isNone || (c.op 16 1 == 0xFF &&
      s.flushable.any fun x => s.get (R.TBL_DESC.KIND x) == 1 || s.get (R.TBL_DESC.KIND x) == 4))) = true := by
    intro hrefused
    obtain ⟨hbit, hodd⟩ := (Bool.and_eq_true ..).mp hrefused
    obtain ⟨hstaged, hexacts⟩ := h.versioned hbit
    obtain hnone | hodd := (Bool.or_eq_true ..).mp hodd
    · exact hstaged (Option.isNone_iff_eq_none.mp hnone)
    · obtain ⟨hall, hany⟩ := (Bool.and_eq_true ..).mp hodd
      obtain ⟨x, hx, hkind⟩ := List.any_eq_true.mp hany
      obtain ⟨hx, hpresent, hflush⟩ := s.mem_flushable.mp hx
      obtain hzero | hmatch := hexacts (beq_iff_eq.mp hall) x hx hflush
      · exact hpresent hzero
      · simp only [exactKind, Bool.or_eq_true, beq_iff_eq] at hkind hmatch
        omega
  refine (congrArg (complete true s) (State.runCmd_of h.begins _)).trans ?_
  dsimp only
  rw [if_neg hformed]
  exact congrArg (complete true s) (if_neg hversioned)

theorem State.flushes.outcome : (s.flushEnd seq c).settle.outcomeOf seq =
    some (outcomeArea 0 0 0 (if (s.portFlushed c).1 = 0 then 0 else s.now) [(16, 4, (s.portFlushed c).1)]) := by
  have hclocked := State.clocked_of_steady (s.steady_portFlushed c)
  unfold State.flushEnd
  split
  · rename_i hnone
    rw [hnone, State.settle_outcomeOf, State.told]
    exact State.outcomeOf_finish ((State.findCmd_congr (State.clocked_eq_iff.mp hclocked).2 seq).trans h.begins.1) ..
  · refine State.done_outcomeOf h.begins.1 (Eq.trans ?_ hclocked) _
    split <;> rfl

end

theorem State.flushEnd_tbl (s : State) (seq : Nat) (c : OpenCmd) : (s.flushEnd seq c).settle.tbl = (s.portFlushed c).2.tbl := by
  rw [State.settle_tbl, State.flushEnd]
  split
  · rfl
  · split <;> rfl

/-! ### The obligation -/

/-- Settles O10: no image, and no entry flushed, touches the timebase or the command, so the takeover is now; that a deleted line of a direct
table becomes 0 is the model's choice (log 50). -/
theorem tableCommandsComplete : Obligations.TableCommandsComplete := by
  refine ⟨?insert, ?delete, ?search, ?next, ?flush⟩
  case insert =>
    intro s seq c images hb hf hflags hpresent hmost ha hdescribed happlied
    have h : s.changesAll seq 0x01 7 c images fun t fl u img => u.insertImage t img fl :=
      ⟨hb, hf, hflags, hpresent, hmost, ha, hdescribed, happlied⟩
    refine ⟨_, exec_tblInsert .., h.outcome State.insertImage_clocked, fun hkind hone => ?_⟩
    obtain ⟨u, hu, htbl⟩ := h.one hone
    exact (State.tline_of_tbl htbl _).trans (State.insertImage_direct (s := s.emitAll _) hkind hu)
  case delete =>
    intro s seq c images hb hf hflags hpresent hmost ha hdescribed happlied
    have h : s.changesAll seq 0x02 1 c images fun t fl u img => u.deleteImage t img fl :=
      ⟨hb, hf, hflags, hpresent, hmost, ha, hdescribed, happlied⟩
    refine ⟨_, exec_tblDelete .., h.outcome State.deleteImage_clocked, fun hkind hone => ?_⟩
    obtain ⟨u, hu, htbl⟩ := h.one hone
    exact (State.tline_of_tbl htbl _).trans (State.deleteImage_direct (s := s.emitAll _) hkind hu)
  case search =>
    intro s seq v c image hb hf hmode hreserved hdescribed hlongest howner hversion hgood
    have h : s.searches seq v c image := ⟨hb, hf, hmode, hreserved, hdescribed, hlongest, howner, hversion, hgood⟩
    refine ⟨fun found hfound => ⟨_, h.exec_eq, ?_⟩, fun hnone => ⟨_, h.exec_eq, ?_⟩⟩
    · rw [State.searchEnd, hfound]
      exact ⟨State.sent_outcome hb.1 .., s.sent_kept ..⟩
    · rw [State.searchEnd, hnone]
      exact ⟨State.sent_outcome hb.1 .., s.sent_kept ..⟩
  case next =>
    intro s seq c hb hf hpresent hmost hdescribed
    have hexec := exec_tblNext hb hf hpresent hmost hdescribed
    refine ⟨fun hnone => ?_, fun hsome => ?_⟩
    · rw [State.nextWritten_of_none hnone, show s.nextImages c = [] from hnone] at hexec
      exact ⟨_, hexec, ⟨_, State.sent_outcome hb.1 ..⟩, s.sent_kept ..⟩
    · rw [State.nextWritten_of_some hsome] at hexec
      exact ⟨_, hexec, ⟨_, State.sent_outcome hb.1 ..⟩, s.sent_kept ..⟩
  case flush =>
    intro s seq c hb hf hflags howner hexact hversioned
    have h : s.flushes seq c := ⟨hb, hf, hflags, howner, hexact, hversioned⟩
    have hsteady := s.steady_portFlushed c
    simp only [State.steady, Prod.mk.injEq] at hsteady
    obtain ⟨-, hseeds, hprefixes⟩ := hsteady
    refine ⟨_, (s.portFlushed c).1, h.exec_eq, h.outcome, ?_, ?_⟩
    · rw [State.flushEnd_tbl, hseeds]
    · rw [State.flushEnd_tbl, hprefixes]

end Sys2Proof.Machine
end

section
/-! SUPPORT. An insert into a wide table without key nibbles: the state that refutes the statement about what table commands leave (R204, R206,
R217). -/
namespace Sys2Proof.Machine

/-! ### A tag wider than its field (R204, R206) -/

/-- A TBL_INSERT of one image into table 0, which may begin. -/
def insertOne : OpenCmd := ⟨7, 0, 0, record 64 [(0, 1, 1), (18, 2, 1)], false, 0, none, false, none, 0⟩

/-- The image of the entry without key, result, owner and flags of its own in a wide table. -/
def wideImage : List Byte := [3#8]

/-- SERVE with that command and table 0 wide, of one bucket and keys of 0 nibbles. No word of a key is hashed, so the hash is SEED[0] itself,
and this seed is wider than the 64 bits that R204 gives it: the tag takes 33 bits. -/
def unkeyedWide : State :=
  let s : State := { State.reset with
    mode := .serve
    code := { roles := [(0, 1)] }
    cmd := { open_ := [insertOne] }
    tbl := { seeds := [(0, 2 ^ 64)] } }
  s.set (R.TBL_DESC.KIND 0) 3

theorem unkeyedWide_changesOne : unkeyedWide.changesOne 7 0x01 7 insertOne := by decide +kernel

theorem unkeyedWide_wide : unkeyedWide.get (R.TBL_DESC.KIND 0) = 3 ∧ unkeyedWide.get (R.TBL_DESC.KEYN 0) ≤ 80 ∧
    unkeyedWide.get (R.TBL_DESC.BBITS 0) ≤ 28 ∧ (unkeyedWide.freeRecord 0 (4 * 2 ^ unkeyedWide.get (R.TBL_DESC.BBITS 0)) 0).isSome = true := by
  decide +kernel

theorem unkeyedWide_image : unkeyedWide.imgGood 0 (tblImage wideImage 0) true = true := by decide +kernel

theorem unkeyedWide_free : unkeyedWide.placesOf 0 0 = [] ∧ unkeyedWide.freeWay 0 (unkeyedWide.bucketOf 0 0 0) = some 0 := by decide +kernel

/-- The entry goes to record 0, but bit 32 of the tag lands in the record number of the way, which so names record 1, where no entry is. -/
theorem unkeyedWide_inserted :
    (unkeyedWide.tblChange 7 0x01 7 wideImage fun t fl u img => u.insertImage t img fl).settle.entryAt 0 (unkeyedWide.bucketOf 0 0 0) 0 =
      ⟨0, 0, 0, 0⟩ := by decide +kernel

/-- Refutes O59: the statement bounds neither the key of a wide table from below nor the hash seeds. With a key of 0 nibbles and a seed above
64 bits the tag, which R204 takes from bits [63:32] of the hash and the model from all bits above 31, is wider than its field, and the way of a
new entry does not name the entry's record. The device reaches no such state: the seeds of an image have 64 bits, and its keys 1 nibble at
least. -/
theorem not_tableCommandsTakeEffect : ¬ Obligations.TableCommandsTakeEffect := by
  rintro ⟨hinsert, -⟩
  obtain ⟨hnew, -⟩ := hinsert unkeyedWide 7 0 0 0 insertOne wideImage ⟨0, 0, 0, 1⟩ unkeyedWide_changesOne rfl (.inr unkeyedWide_wide)
    unkeyedWide_image (by decide +kernel) (by decide +kernel) (by decide +kernel)
  obtain ⟨t, ht, -, hentry⟩ := hnew unkeyedWide_free.1 unkeyedWide_free.2
  rw [← Host.Outcome.next.inj ((exec_tblInsert ..).symm.trans ht)] at hentry
  exact absurd (unkeyedWide_inserted.symm.trans hentry) (by decide)

end Sys2Proof.Machine
end

section
/-! SUPPORT. What packets that give up cells, spill, and join leaf queues leave of the timebase and the commands, and the outcomes of commands
that go on (R237, R262, R265, R277, R278, R430, R469). -/
namespace Sys2Proof.Machine

section
variable (s : State)

/-! ### Cells and drops (R237, R262, R265) -/

@[simp] theorem State.clocked_subCharge (a kind n : Nat) : (s.subCharge a kind n).clocked = s.clocked :=
  clocked_ite rfl (clocked_ite (clocked_ite rfl rfl) (clocked_ite rfl rfl))

@[simp] theorem State.clocked_creditBack (k : Nat) : (s.creditBack k).clocked = s.clocked := clocked_ite rfl rfl

@[simp] theorem State.clocked_uncharge (i : Nat) : (s.uncharge i).clocked = s.clocked := by
  unfold State.uncharge
  split
  · rfl
  · exact clocked_ite ((State.clocked_creditBack ..).trans (State.clocked_subCharge ..)) (State.clocked_subCharge ..)

@[simp] theorem State.clocked_captureFree (kind requester owner cell : Nat) : (s.captureFree kind requester owner cell).clocked = s.clocked :=
  clocked_ite rfl rfl

@[simp] theorem State.clocked_releaseCell (requester i : Nat) : (s.releaseCell requester i).clocked = s.clocked := by
  have hrefused : ∀ (l : Loc) (kind owner n : Nat), (((s.sat l 1).captureFree kind requester owner i).raise n 0).clocked = s.clocked :=
    fun _ _ _ _ => (State.clocked_raise ..).trans (State.clocked_captureFree ..)
  have hfreed : (s.freeCell i).clocked = s.clocked := s.clocked_uncharge i
  exact clocked_ite (hrefused ..) (clocked_ite (clocked_ite hfreed (hrefused ..)) (clocked_ite hfreed rfl))

@[simp] theorem State.clocked_releaseCells (p : Pkt) : (s.releaseCells p).clocked = s.clocked := by
  have hcells := fun req => clocked_foldl (fun t i => t.clocked_releaseCell req i) p.cells s
  have hreserved := fun req => clocked_ite (c := p.xResv = 0) (hcells req) ((State.clocked_subCharge _ p.acct 0 p.xResv).trans (hcells req))
  exact clocked_ite (hreserved _) ((State.clocked_subCharge ..).trans (hreserved _))

@[simp] theorem State.clocked_migLate (p : Pkt) : (s.migLate p).clocked = s.clocked :=
  clocked_ite (a := s.releaseCells p) (b := s.dropPkt 0x11 p) (s.clocked_releaseCells p) (s.clocked_releaseCells p)

/-! ### Spill writes (R278, R430) -/

@[simp] theorem State.clocked_farSend (a : Nat) (kind : FarKind) : (s.farSend a kind).clocked = s.clocked := by
  refine clocked_ite ?_ (clocked_ite ?_ rfl)
  · unfold State.failKind
    split
    · rfl
    · split
      · exact State.clocked_of_steady (s.steady_failWho _)
      · rfl
  · cases kind <;> rfl

@[simp] theorem State.clocked_writeSpot (far : Bool) (who x : Nat) (bytes : List Byte) : (s.writeSpot far who x bytes).clocked = s.clocked :=
  clocked_ite ((clocked_foldl (fun t _ => t.clocked_farSend ..) _ _).trans rfl) (s.clocked_dynRequests ..)

@[simp] theorem State.clocked_closeSpill (b : Spill) : (s.closeSpill b).clocked = s.clocked :=
  clocked_foldl (fun t _ => clocked_ite (clocked_foldl (fun u _ => clocked_ite (u.clocked_writeSpot ..) rfl) _ t) rfl) _ _

@[simp] theorem State.clocked_closeWhere (p : Spill → Bool) : (s.closeWhere p).clocked = s.clocked :=
  clocked_foldl (fun t b => t.clocked_closeSpill b) _ _

end

theorem State.newSpill_clocked {s t : State} {leaf id : Nat} {far : Bool} (h : s.newSpill leaf far = some (id, t)) : t.clocked = s.clocked := by
  unfold State.newSpill at h
  split at h
  · split at h <;> cases h
    rfl
  · obtain ⟨_, -, hid⟩ := Option.map_eq_some_iff.mp h
    cases hid
    rfl

theorem State.giveSpot_clocked {s t : State} {leaf x : Nat} {far : Bool} (h : s.giveSpot leaf far = some (t, x)) : t.clocked = s.clocked := by
  unfold State.giveSpot at h
  dsimp only at h
  split at h
  · cases h
  · rename_i id u hfound
    have hu : u.clocked = s.clocked := by
      split at hfound
      · cases hfound
        rfl
      · exact State.newSpill_clocked hfound
    cases h
    exact hu

theorem State.giveSpots_clocked {s t : State} {leaf : Nat} {far : Bool} {n : Nat} {got spots : List Nat}
    (h : s.giveSpots leaf far n got = some (t, spots)) : t.clocked = s.clocked := by
  induction n generalizing s got with
  | zero =>
    cases h
    rfl
  | succ n ih =>
    unfold State.giveSpots at h
    split at h
    · cases h
    · rename_i hspot
      exact (ih h).trans (State.giveSpot_clocked hspot)

theorem State.startSpill_clocked {s t : State} {leaf tier : Nat} {p r : Pkt} (h : s.startSpill leaf tier p = some (t, r)) :
    t.clocked = s.clocked := by
  unfold State.startSpill at h
  split at h
  · cases h
  · rename_i u spots hspots
    have hgiven := State.giveSpots_clocked hspots
    cases h
    exact hgiven

/-! ### Leaf queues (R277, R325) -/

@[simp] theorem State.clocked_joinLeaf (s : State) (l : Nat) (p : Pkt) : (s.joinLeaf l p).clocked = s.clocked := by
  have hmix : ∀ x : Option (Nat × Nat), (match x with
      | some (_, c) => if !isFabricLeaf l && c != p.stamp.cls then s.wrap R.COL_ERR.CLASS_MIX 1 else s
      | none => s).clocked = s.clocked := by
    intro x
    split
    · exact clocked_ite rfl rfl
    · rfl
  unfold State.joinLeaf
  dsimp only
  split
  · rename_i t r hspill
    have hstart := State.startSpill_clocked (Option.ite_none_left_eq_some.mp hspill).2
    exact (State.clocked_closeWhere ..).trans (hstart.trans (clocked_ite (hmix _) (hmix _)))
  · exact (State.clocked_closeWhere ..).trans (clocked_ite (hmix _) (hmix _))

theorem State.joinLeaf_mig (s : State) (l : Nat) (p : Pkt) : (s.joinLeaf l p).mig = s.mig := by
  obtain ⟨r, hr⟩ := s.joinLeaf_queues l p
  obtain ⟨-, hmig, -⟩ := State.queues_eq_iff.mp hr
  exact hmig

end Sys2Proof.Machine
end

section
/-! SUPPORT. Migrations: how EP_MIGRATE opens one in the lowest free slot, what packets that leave a fence keep, and how a migration ends
(R250 to R255). -/
namespace Sys2Proof.Machine

/-! ### Open commands (R469, R473) -/

/-- A command that has begun and goes on has the outcome that it had. -/
theorem State.outcomeOf_started {s : State} {seq : Nat} {c : OpenCmd} (h : s.findCmd seq = some c) :
    (s.updCmd seq fun d => { d with started := true }).outcomeOf seq = c.outcome := by
  have hfind := s.findCmd_updCmd seq (fun d => { d with started := true }) fun _ => rfl
  rw [State.outcomeOf, hfind, h]
  rfl

theorem State.outcomeOf_congr {s t : State} (h : t.cmd = s.cmd) (seq : Nat) : t.outcomeOf seq = s.outcomeOf seq := by
  rw [State.outcomeOf, State.findCmd_congr h, State.outcomeOf]

/-- A command that may begin has no outcome. -/
theorem State.begins.no_outcome {s : State} {seq code : Nat} {c : OpenCmd} (h : s.begins seq code c) : c.outcome = none := by
  obtain ⟨-, -, -, -, -, hmay⟩ := h
  simp only [State.mayBegin, Bool.and_eq_true, Option.isNone_iff_eq_none] at hmay
  obtain ⟨⟨⟨⟨-, hnone⟩, -⟩, -⟩, -⟩ := hmay
  exact hnone

/-! ### Registers -/

theorem State.word_of_regs {s t : State} (h : t.regs = s.regs) (off : Nat) : t.word off = s.word off := by rw [State.word, h, State.word]

theorem State.get_of_word {s t : State} {l : Loc} (h : t.word l.off = s.word l.off) : t.get l = s.get l := by rw [State.get, h, State.get]

theorem State.get_of_regs {s t : State} (h : t.regs = s.regs) (l : Loc) : t.get l = s.get l := State.get_of_word (State.word_of_regs h _)

/-- A field above the one that was set is as before. -/
theorem State.get_set_below {s : State} {l m : Loc} {v : Nat} (hm : m.lo + m.w ≤ 64) (h : l.lo + l.w ≤ m.lo) : (s.set l v).get m = s.get m :=
  State.get_set_of_bits hm (.inl h)

/-- The frame of a command that sends nothing, with the parts put back that `g` puts back. -/
theorem State.kept_put {s x t : State} {g : State → State} {but : Nat → Prop} (hg : ∀ y, (g y).still = g y.still)
    (hr : ∀ y, (g y).regs = y.regs) (ho : ∀ y, (g y).out = y.out) (ht : t = x.settle) (hs : (g x).still = s.still) (hout : x.out = s.out)
    (hw : ∀ off, ¬ but off → x.word off = s.word off) : s.kept (g t) [] but := by
  subst ht
  exact State.kept_of ((State.still_settle_masked hg x).trans hs) (hr _) (ho _) hw (hout.trans (List.append_nil _).symm)

/-! ### Slots (R251) -/

theorem State.slotMig_slot {s : State} {i kind : Nat} {m : Migration} (h : s.slotMig i kind = some m) : m.slot = i := by
  have hm := List.find?_some h
  simp only [Bool.and_eq_true, beq_iff_eq] at hm
  exact hm.1

theorem State.freeSlot_lt {s : State} {i : Nat} (h : s.freeSlot = some i) : i < 256 := List.mem_range.mp (List.mem_of_find?_eq_some h)

theorem State.freeSlot_unused {s : State} {i : Nat} (h : s.freeSlot = some i) {m : Migration} (hm : m ∈ s.mig.open_) : m.slot ≠ i := by
  have hall := List.find?_some h
  simpa using List.all_eq_true.mp hall m hm

/-- A migration that takes a free slot is the one found there. -/
theorem slotMig_of_added {s t : State} {m : Migration} (h : s.freeSlot = some m.slot) (ht : t.mig.open_ = s.mig.open_ ++ [m]) :
    t.slotMig m.slot m.kind = some m := by
  have hnone : (s.mig.open_.find? fun n => n.slot == m.slot && n.kind == m.kind) = none :=
    List.find?_eq_none.mpr fun n hn => by simp [State.freeSlot_unused h hn]
  rw [State.slotMig, ht, List.find?_append, hnone]
  simp

/-! ### The frame of a migration -/

/-- `t` is `s` beside registers, migrations and commands. -/
def State.migOnly (s t : State) : Prop := t = { s with regs := t.regs, mig := t.mig, cmd := t.cmd }

theorem State.migOnly.trans {s t u : State} (h : s.migOnly t) (g : t.migOnly u) : s.migOnly u := by
  unfold State.migOnly at h g ⊢
  rw [h] at g
  exact g

/-- What touches but the register of its slot and the number of migrations leaves every other register as it was. -/
theorem State.migOnly.kept {s x t : State} (h : s.migOnly x) (ht : t = x.settle) {i : Nat}
    (hw : ∀ off, off ≠ 0x1C08100 + 8 * i → off ≠ 0x1C08000 → x.word off = s.word off) :
    s.kept { t with cmd := s.cmd, mig := s.mig } [] fun k => k = (R.SWC_MIG.STATE i).off ∨ k = R.SWC_MIG_CTRL.ACTIVE.off := by
  unfold State.migOnly at h
  have hstill : ({ x with cmd := s.cmd, mig := s.mig } : State).still = s.still :=
    (congrArg (fun y : State => ({ y with cmd := s.cmd, mig := s.mig } : State).still) h :)
  have hout : x.out = s.out := by rw [h]
  refine State.kept_put (g := fun y => { y with cmd := s.cmd, mig := s.mig }) (fun _ => rfl) (fun _ => rfl) (fun _ => rfl) ht hstill hout
    fun off hoff => ?_
  obtain ⟨hslot, hactive⟩ := not_or.mp hoff
  exact hw off hslot hactive

/-- What follows a command touches no register of a slot. -/
theorem State.settle_get_migSlot (s : State) {i : Nat} (hi : i < 256) {l : Loc} (hl : l.off = 0x1C08100 + 8 * i) : s.settle.get l = s.get l :=
  State.settle_get s (by simp only [followReg, hl]; omega)

/-! ### What a migration that begins shows (R251) -/

section
variable (s : State) (m : Migration) (state tkind target : Nat)

/-- The record of its slot. -/
def State.migRecord : State :=
  ((((s.setWord (0x1C08100 + 8 * m.slot) 0).set (R.SWC_MIG.STATE m.slot) state).set (R.SWC_MIG.DEVICE m.slot) m.device).set
    (R.SWC_MIG.TARGET m.slot) target).set (R.SWC_MIG.TKIND m.slot) tkind |>.set (R.SWC_MIG.ENDPOINT m.slot) m.ep

/-- It is counted. -/
def State.migCounted : State :=
  (s.migRecord m state tkind target).set R.SWC_MIG_CTRL.ACTIVE ((s.migRecord m state tkind target).get R.SWC_MIG_CTRL.ACTIVE + 1)

theorem State.openMig_regs : (s.openMig m state tkind target).regs = (s.migCounted m state tkind target).regs := rfl

theorem State.openMig_mig : (s.openMig m state tkind target).mig = { s.mig with open_ := s.mig.open_ ++ [m] } := rfl

theorem State.openMig_cmd : (s.openMig m state tkind target).cmd = (s.updCmd m.seq fun c => { c with started := true }).cmd := by
  simp only [State.openMig, State.updCmd, State.set_cmd, State.setWord_cmd]

theorem State.migRecord_word {off : Nat} (h : off ≠ 0x1C08100 + 8 * m.slot) : (s.migRecord m state tkind target).word off = s.word off := by
  unfold State.migRecord
  rw [State.word_set_other (l := R.SWC_MIG.ENDPOINT m.slot) _ h, State.word_set_other (l := R.SWC_MIG.TKIND m.slot) _ h,
    State.word_set_other (l := R.SWC_MIG.TARGET m.slot) _ h, State.word_set_other (l := R.SWC_MIG.DEVICE m.slot) _ h,
    State.word_set_other (l := R.SWC_MIG.STATE m.slot) _ h, State.word_setWord_other _ _ h]

/-- Beside the record of its slot and the number of migrations no register changes. -/
theorem State.openMig_word {off : Nat} (hslot : off ≠ 0x1C08100 + 8 * m.slot) (hactive : off ≠ 0x1C08000) :
    (s.openMig m state tkind target).word off = s.word off := by
  rw [State.word_of_regs (s.openMig_regs m state tkind target), State.migCounted,
    State.word_set_other (l := R.SWC_MIG_CTRL.ACTIVE) _ hactive, s.migRecord_word m state tkind target hslot]

theorem State.openMig_record {l : Loc} (h : l.off ≠ 0x1C08000) :
    (s.openMig m state tkind target).get l = (s.migRecord m state tkind target).get l := by
  rw [State.get_of_regs (s.openMig_regs m state tkind target), State.migCounted, State.get_set_of_off (l := R.SWC_MIG_CTRL.ACTIVE) h]

theorem State.openMig_state : (s.openMig m state tkind target).get (R.SWC_MIG.STATE m.slot) = state % 2 ^ 3 := by
  have hactive : (R.SWC_MIG.STATE m.slot).off ≠ 0x1C08000 := by simp only [R.SWC_MIG.STATE]; omega
  rw [s.openMig_record m state tkind target hactive, State.migRecord]
  simp (disch := exact Nat.le_of_ble_eq_true rfl) only [State.get_set_below, State.get_set_same]
  rfl

theorem State.openMig_device : (s.openMig m state tkind target).get (R.SWC_MIG.DEVICE m.slot) = m.device % 2 ^ 12 := by
  have hactive : (R.SWC_MIG.DEVICE m.slot).off ≠ 0x1C08000 := by simp only [R.SWC_MIG.DEVICE]; omega
  rw [s.openMig_record m state tkind target hactive, State.migRecord]
  simp (disch := exact Nat.le_of_ble_eq_true rfl) only [State.get_set_below, State.get_set_same]
  rfl

theorem State.openMig_endpoint : (s.openMig m state tkind target).get (R.SWC_MIG.ENDPOINT m.slot) = m.ep % 2 ^ 20 := by
  have hactive : (R.SWC_MIG.ENDPOINT m.slot).off ≠ 0x1C08000 := by simp only [R.SWC_MIG.ENDPOINT]; omega
  rw [s.openMig_record m state tkind target hactive, State.migRecord, State.get_set_same _ _ _ (by simp [R.SWC_MIG.ENDPOINT])]
  rfl

/-- Beside its record it touches the list of migrations and its command alone. -/
theorem State.openMig_only : s.migOnly (s.openMig m state tkind target) := by
  simp only [State.migOnly, State.openMig, State.updCmd, State.set, State.setWord]

end

/-! ### EP_MIGRATE (R251) -/

/-- The command `c` of sequence `seq` may begin and is a well-formed EP_MIGRATE of one kind, whose endpoint has no migration and is GONE for an
IN migration alone; slot `i` is the lowest free one. -/
structure State.migrates (s : State) (seq kind i : Nat) (c : OpenCmd) : Prop where
  begins : s.begins seq 0x40 c
  operation : c.op 20 1 = kind
  listed : kind < 3
  formed : c.formed [(30, 34)] = true
  endpoint : c.op 16 4 < 2 ^ 20
  target : kind ≠ 1 → targetGood (c.op 21 1) = true
  device : c.op 24 2 < 4096
  window : c.op 28 2 ≤ 1000
  group : kind = 0 → c.op 22 2 < 256 ∨ c.op 22 2 = 0xFFFF
  single : (s.mig.open_.any fun m => m.ep == c.op 16 4) = false
  slot : s.freeSlot = some i
  placed : (s.placement (c.op 16 4)).place = some placeGone ↔ kind = 2

theorem State.migrates.migrate_eq {s : State} {seq kind i : Nat} {c : OpenCmd} (h : s.migrates seq kind i c)
    (body : OpenCmd → Nat → State → State) :
    s.migrate seq kind body = body c i s := by
  obtain ⟨hbegins, hkind, hlisted, hformed, hep, htarget, hdevice, hwindow, hgroup, hsingle, hslot, hplaced⟩ := h
  have hgone : ((s.placement (c.op 16 4)).place == some placeGone) = (kind == 2) :=
    Bool.eq_iff_iff.mpr (by simpa only [beq_iff_eq] using hplaced)
  have hgood : (kind != 1 && !targetGood (c.op 21 1)) = false := by
    by_cases hout : kind = 1
    · simp [hout]
    · simp [htarget hout]
  have hassigned : (kind == 0 && decide (256 ≤ c.op 22 2) && c.op 22 2 != 0xFFFF) = false := by
    by_cases hlocal : kind = 0
    · rcases hgroup hlocal with hg | hg
      · simp [hg]
      · simp [hg]
    · simp [hlocal]
  have hbound : decide (2 ^ 20 ≤ c.op 16 4) = false := decide_eq_false (Nat.not_le.mpr hep)
  refine (State.runCmd_of hbegins _).trans ?_
  dsimp only
  rw [if_neg fun hn => hn.1 hkind, hsingle, hgone, hbound, if_neg (by simp [hformed, hkind, hlisted, hgood, hdevice, hwindow, hassigned])]
  simp [hslot]

/-- What an opened migration shows beside its registers: its command goes on, it stands in the slot that was free, and its endpoint alone has
a new placement. -/
theorem State.migrates.opened {s x t : State} {seq i kind state tkind target : Nat} {c : OpenCmd} {m : Migration} {pl : Placement}
    (h : s.migrates seq kind i c) (hslot : m.slot = i) (hseq : m.seq = seq) (hkind : m.kind = kind) (hcmd : x.cmd = s.cmd)
    (hopen : x.mig.open_ = s.mig.open_) (hplaces : x.mig.places = s.mig.places.put (fun _ => {}) (c.op 16 4) pl)
    (htm : t.mig = (x.openMig m state tkind target).mig) (htc : t.cmd = (x.openMig m state tkind target).cmd) :
    t.outcomeOf seq = none ∧ t.slotMig i kind = some m ∧ t.placement (c.op 16 4) = pl ∧
      ∀ e, e ≠ c.op 16 4 → t.placement e = s.placement e := by
  rw [State.openMig_mig] at htm
  have htp : t.mig.places = s.mig.places.put (fun _ => {}) (c.op 16 4) pl := by rw [htm, ← hplaces]
  refine ⟨?outcome, ?slot, ?moved, fun e he => ?others⟩
  case outcome =>
    have hfind : x.findCmd seq = some c := (State.findCmd_congr hcmd seq).trans h.begins.1
    rw [State.outcomeOf_congr (htc.trans (x.openMig_cmd ..)), hseq, State.outcomeOf_started hfind, h.begins.no_outcome]
  case slot =>
    have hfree : s.freeSlot = some m.slot := h.slot.trans (congrArg some hslot.symm)
    rw [← hslot, ← hkind]
    exact slotMig_of_added hfree (by rw [htm, ← hopen])
  case moved => rw [State.placement, htp, SMap.find_put_same]
  case others => rw [State.placement, htp, SMap.find_put_other _ _ _ _ _ he, State.placement]

/-! ### LOCAL (R252) -/

/-- A drain round changes its list of rounds, the prisms that hold its tokens and what APR_VERSION shows of it alone (R229). -/
theorem State.startRound_eq (s : State) (ks : List Nat) (commit : Bool) : (s.startRound ks commit).2 = { s.set R.APR_VERSION.DRAIN 0 with
    ver := { s.ver with rounds := s.ver.rounds ++ [⟨s.ver.nextRound, ks, commit⟩], nextRound := s.ver.nextRound + 1 }
    code := (s.startRound ks commit).2.code } :=
  List.foldlRecOn (motive := fun t : State => t = { s.set R.APR_VERSION.DRAIN 0 with
    ver := { s.ver with rounds := s.ver.rounds ++ [⟨s.ver.nextRound, ks, commit⟩], nextRound := s.ver.nextRound + 1 }
    code := t.code }) ks _ rfl fun t ht k _ => by rw [State.setPrism, ht]

/-- The token that a LOCAL migration of endpoint `e` follows, and the state with it: a drain token through the prism that had the endpoint, the
endpoint's packets at a service facet. -/
def State.localToken (s : State) (e : Nat) : List Nat × State :=
  match s.placeOf e with
  | some k => if k < 16 then ([(s.startRound [k] false).1], (s.startRound [k] false).2) else (s.servicePackets (k - 16) e, s)
  | none => ([], s)

theorem State.localToken_eq (s : State) (e : Nat) : (s.localToken e).2 = { s with
    regs := (s.localToken e).2.regs
    ver := (s.localToken e).2.ver
    code := (s.localToken e).2.code } := by
  unfold State.localToken
  split
  · split
    · dsimp only
      rw [s.startRound_eq]
      rfl
    · rfl
  · rfl

/-- What LOCAL opens. -/
def State.localMig (s : State) (seq i : Nat) (c : OpenCmd) : Migration where
  slot := i
  ep := c.op 16 4
  seq := seq
  kind := 0
  oldPlace := s.placeOf (c.op 16 4)
  oldEpoch := (s.placement (c.op 16 4)).epoch
  takeNs := s.ns
  waits := (s.localToken (c.op 16 4)).1

/-- The reservation group that it names goes to the target (R252). -/
def State.localAssigned (s : State) (c : OpenCmd) : State :=
  let t := (s.localToken (c.op 16 4)).2
  if c.op 22 2 = 0xFFFF then t
  else { t with apr := { t.apr with assigned := t.apr.assigned.put (fun _ => 0) (96 + c.op 22 2) (targetPlace (c.op 21 1)) } }

/-- The record with its new place and the epoch flipped. -/
def State.localPlacement (s : State) (c : OpenCmd) : Placement :=
  { s.placement (c.op 16 4) with place := some (targetPlace (c.op 21 1)), epoch := 1 - (s.placement (c.op 16 4)).epoch }

def State.localMoved (s : State) (c : OpenCmd) : State :=
  let t := (s.localAssigned c).setPlacement (c.op 16 4) (s.localPlacement c)
  { t with mig := { t.mig with late := t.mig.late.filter fun x => x != (c.op 16 4, (s.localPlacement c).epoch) } }

/-- The move of endpoint `e` to `target` is too deep (R252). -/
def State.localDeep (s : State) (e target : Nat) : Bool :=
  match s.placeOf e with
  | some p => decide (p < 16 ∧ target < 16) && s.tooDeep p target
  | none => false

theorem State.localDeep_eq_false {s : State} {e target : Nat}
    (h : ∀ p, s.placeOf e = some p → p < 16 → target < 16 → s.tooDeep p target = false) :
    s.localDeep e target = false := by
  unfold State.localDeep
  split
  · rename_i p hp
    by_cases hprisms : p < 16 ∧ target < 16
    · simp [h p hp hprisms.1 hprisms.2]
    · simp [hprisms]
  · rfl

def State.localOpened (s : State) (seq i : Nat) (c : OpenCmd) : State :=
  (s.localMoved c).openMig (s.localMig seq i c) 1 (c.op 21 1 / 128) (c.op 21 1 % 32)

theorem State.localOpened_apr (s : State) (seq i : Nat) (c : OpenCmd) : (s.localOpened seq i c).apr = (s.localMoved c).apr := by
  rw [State.localOpened, State.openMig_only]

theorem State.localAssigned_eq (s : State) (c : OpenCmd) : s.localAssigned c = { s with
    regs := (s.localAssigned c).regs
    ver := (s.localAssigned c).ver
    code := (s.localAssigned c).code
    apr := (s.localAssigned c).apr } := by
  unfold State.localAssigned
  dsimp only
  rw [s.localToken_eq]
  split <;> rfl

theorem State.localMoved_cmd (s : State) (c : OpenCmd) : (s.localMoved c).cmd = s.cmd := by
  rw [State.localMoved, s.localAssigned_eq]
  rfl

theorem State.localMoved_open (s : State) (c : OpenCmd) : (s.localMoved c).mig.open_ = s.mig.open_ := by
  rw [State.localMoved, s.localAssigned_eq]
  rfl

theorem State.localMoved_places (s : State) (c : OpenCmd) :
    (s.localMoved c).mig.places = s.mig.places.put (fun _ => {}) (c.op 16 4) (s.localPlacement c) := by
  rw [State.localMoved, s.localAssigned_eq]
  rfl

theorem State.localMoved_assigned (s : State) {c : OpenCmd} (hg : c.op 22 2 ≠ 0xFFFF) :
    SMap.find (fun _ => 0) (s.localMoved c).apr.assigned (96 + c.op 22 2) = targetPlace (c.op 21 1) := by
  have hput : (s.localAssigned c).apr.assigned = _ := congrArg (fun t : State => t.apr.assigned) (if_neg hg)
  exact (congrArg (fun x => SMap.find (fun _ => 0) x (96 + c.op 22 2)) hput).trans (SMap.find_put_same ..)

section
variable {s : State} {seq i : Nat} {c : OpenCmd} (h : s.migrates seq 0 i c)
include h

theorem State.migrates.local_eq (hdeep : s.localDeep (c.op 16 4) (targetPlace (c.op 21 1)) = false) : exec (.epMigrateLocal seq) s =
    .next (s.localOpened seq i c).settle :=
  congrArg (complete true s) ((h.migrate_eq _).trans (if_neg (Bool.not_eq_true _ ▸ hdeep)))

end

/-! ### OUT (R254) -/

/-- What OUT opens, and the record of its endpoint. -/
def State.outMig (s : State) (seq i : Nat) (c : OpenCmd) : Migration where
  slot := i
  ep := c.op 16 4
  seq := seq
  kind := 1
  device := c.op 24 2
  queue := c.op 26 2
  takeNs := s.ns
  endNs := s.ns + 10000 * if c.op 28 2 = 0 then 1000 else c.op 28 2

def State.outPlacement (s : State) (c : OpenCmd) : Placement :=
  { s.placement (c.op 16 4) with place := some placeTail, device := c.op 24 2, queue := c.op 26 2 }

def State.outOpened (s : State) (seq i : Nat) (c : OpenCmd) : State :=
  (s.setPlacement (c.op 16 4) (s.outPlacement c)).openMig (s.outMig seq i c) 3 0 0

theorem State.outOpened_buf (s : State) (seq i : Nat) (c : OpenCmd) : (s.outOpened seq i c).buf = s.buf := by
  rw [State.outOpened, State.openMig_only]
  rfl

/-- The packets that wait for the endpoint go to the fabric queues of its new device, and the markers behind them. -/
def State.redirected (s : State) (e : Nat) (pl : Placement) : State :=
  let t := s.closeWhere fun b => b.leaf == e
  (((t.leafQ e).foldl (fun u p => u.redirect pl p) (t.setLeafQ e [])).emptied e).sendMarkers e pl.device (t.leafQ e)

theorem State.migrates.out_eq {s : State} {seq i : Nat} {c : OpenCmd} (h : s.migrates seq 1 i c) :
    exec (.epMigrateOut seq) s = .next ((s.outOpened seq i c).redirected (c.op 16 4) (s.outPlacement c)).settle :=
  congrArg (complete true s) (h.migrate_eq _)

/-- A queue found empty clears clocks and deficits of the collimator alone. -/
theorem State.emptied_eq (s : State) (l : Nat) : s.emptied l = { s with col := (s.emptied l).col } := by
  unfold State.emptied
  dsimp only
  split
  · rfl
  · split
    · rfl
    · split
      · split <;> rfl
      · rfl

section
variable (s : State) (e : Nat)

theorem State.sendMarkers_clocked (device : Nat) (moved : List Pkt) : (s.sendMarkers e device moved).clocked = s.clocked :=
  clocked_foldl (fun t c => by dsimp only; rw [State.clocked_joinLeaf, State.clocked]; rfl) _ _

theorem State.sendMarkers_mig (device : Nat) (moved : List Pkt) : (s.sendMarkers e device moved).mig = s.mig :=
  foldl_keeps (g := State.mig) (fun t c => by dsimp only; rw [State.joinLeaf_mig]) _ _

theorem State.redirected_clocked (pl : Placement) : (s.redirected e pl).clocked = s.clocked := by
  unfold State.redirected
  rw [State.sendMarkers_clocked, State.emptied_eq]
  refine (clocked_foldl (fun t p => t.clocked_joinLeaf ..) _ _).trans ?_
  exact s.clocked_closeWhere _

theorem State.redirected_mig (pl : Placement) : (s.redirected e pl).mig = s.mig := by
  unfold State.redirected
  rw [State.sendMarkers_mig, State.emptied_eq]
  refine (foldl_keeps (g := State.mig) (fun t p => t.joinLeaf_mig ..) _ _).trans ?_
  exact (State.queues_eq_iff.mp (s.queues_closeWhere _)).2.1

end

/-- With no block or extent in use, none is written out. -/
theorem State.closeWhere_of_none {s : State} (h : s.buf.spills = []) (p : Spill → Bool) : s.closeWhere p = s := by
  rw [State.closeWhere, h]
  rfl

/-- A marker joins a fabric queue on-die. -/
theorem State.joinLeaf_marker {s : State} {l : Nat} {p : Pkt} (hs : s.buf.spills = []) (hl : isFabricLeaf l = true) (hp : p.marker = true) :
    (s.joinLeaf l p).regs = s.regs ∧ (s.joinLeaf l p).buf.spills = [] := by
  unfold State.joinLeaf State.leafOut
  simp only [hl, hp, if_true, Bool.not_true, Bool.false_and, Bool.false_eq_true, if_false, Bool.true_or]
  split <;> (rw [State.closeWhere_of_none (by exact hs)]; exact ⟨rfl, hs⟩)

theorem State.sendMarkers_regs {s : State} (hs : s.buf.spills = []) (e device : Nat) (moved : List Pkt) :
    (s.sendMarkers e device moved).regs = s.regs := by
  refine (List.foldlRecOn (motive := fun t : State => t.regs = s.regs ∧ t.buf.spills = []) _ _ ⟨rfl, hs⟩ fun t ht c _ => ?_).1
  have hjoin := fun p hp => State.joinLeaf_marker (s := { t with buf := { t.buf with nextId := t.buf.nextId + 1 } })
    (l := 2 ^ 20 + 8 * device + c) (p := p) ht.2 (decide_eq_true (by omega)) hp
  exact ⟨(hjoin _ rfl).1.trans ht.1, (hjoin _ rfl).2⟩

/-- With nothing to redirect and nothing spilled, the markers go and no register changes. -/
theorem State.redirected_regs {s : State} {e : Nat} (hq : s.leafQ e = []) (hs : s.buf.spills = []) (pl : Placement) :
    (s.redirected e pl).regs = s.regs := by
  unfold State.redirected
  dsimp only
  rw [State.closeWhere_of_none hs, hq, State.emptied_eq, State.sendMarkers_regs (by exact hs)]
  rfl

/-! ### IN (R255) -/

/-- What IN opens. -/
def State.inMig (s : State) (seq i : Nat) (c : OpenCmd) : Migration where
  slot := i
  ep := c.op 16 4
  seq := seq
  kind := 2
  device := c.op 24 2
  takeNs := s.ns

def State.inPlaced (s : State) (c : OpenCmd) : State :=
  s.setPlacement (c.op 16 4) { s.placement (c.op 16 4) with place := some (targetPlace (c.op 21 1)) }

def State.inOpened (s : State) (seq i : Nat) (c : OpenCmd) : State :=
  (s.inPlaced c).openMig (s.inMig seq i c) 2 (c.op 21 1 / 128) (c.op 21 1 % 32)

theorem State.migrates.in_eq {s : State} {seq i : Nat} {c : OpenCmd} (h : s.migrates seq 2 i c) :
    exec (.epMigrateIn seq) s = .next (s.inOpened seq i c).settle := congrArg (complete true s) (h.migrate_eq _)

theorem State.inOpened_kept (s : State) (seq i : Nat) (c : OpenCmd) :
    s.kept { (s.inOpened seq i c).settle with cmd := s.cmd, mig := s.mig } []
      fun k => k = (R.SWC_MIG.STATE i).off ∨ k = R.SWC_MIG_CTRL.ACTIVE.off := by
  have hplaced : s.migOnly (s.inPlaced c) := rfl
  have hopen : s.migOnly (s.inOpened seq i c) := hplaced.trans (State.openMig_only ..)
  exact hopen.kept rfl fun off hslot hactive => State.openMig_word _ (s.inMig seq i c) _ _ _ hslot hactive

/-- Settles O16: each kind opens the migration that it describes in the slot that was free, and the placement of its endpoint changes with it;
what OUT redirects, and the markers behind it, touch no migration. -/
theorem migrationsBegin : Obligations.MigrationsBegin := by
  refine ⟨?withinDevice, ?leaves, ?arrives⟩
  case withinDevice =>
    intro s seq i c hb hk hf he htarget hd hw hg hsingle hslot hplace hdeep
    have h : s.migrates seq 0 i c := ⟨hb, hk, by decide, hf, he, fun _ => htarget, hd, hw, fun _ => hg, hsingle, hslot, by simpa using hplace⟩
    have hi := State.freeSlot_lt hslot
    obtain ⟨hout, hfound, hmoved, hothers⟩ := h.opened (m := s.localMig seq i c) (t := (s.localOpened seq i c).settle) rfl rfl rfl
      (s.localMoved_cmd c) (s.localMoved_open c) (s.localMoved_places c) (State.settle_mig _) (State.settle_cmd _)
    refine ⟨_, h.local_eq (State.localDeep_eq_false hdeep), hout, hmoved, ?_, ?_, ⟨_, hfound, rfl, rfl, rfl, rfl, rfl⟩,
      fun hgroup => ?_, hothers⟩
    · exact (State.settle_get_migSlot _ hi rfl).trans (State.openMig_state _ (s.localMig seq i c) ..)
    · exact (State.settle_get_migSlot _ hi rfl).trans ((State.openMig_endpoint _ (s.localMig seq i c) ..).trans (Nat.mod_eq_of_lt he))
    · rw [State.settle_apr, s.localOpened_apr]
      exact s.localMoved_assigned (by omega)
  case leaves =>
    intro s seq i c hb hk hf he hd hw hsingle hslot hplace
    have h : s.migrates seq 1 i c := ⟨hb, hk, by decide, hf, he, fun hn => absurd rfl hn, hd, hw, nofun, hsingle, hslot, by simpa using hplace⟩
    have hi := State.freeSlot_lt hslot
    have hmig := (State.settle_mig _).trans (State.redirected_mig (s.outOpened seq i c) (c.op 16 4) (s.outPlacement c))
    have hcmd := (State.settle_cmd _).trans
      (State.clocked_eq_iff.mp (State.redirected_clocked (s.outOpened seq i c) (c.op 16 4) (s.outPlacement c))).2
    obtain ⟨hout, hfound, hmoved, hothers⟩ := h.opened (m := s.outMig seq i c)
      (x := s.setPlacement (c.op 16 4) (s.outPlacement c)) rfl rfl rfl rfl rfl rfl hmig hcmd
    refine ⟨_, h.out_eq, hout, hmoved, ⟨_, hfound, rfl, rfl, rfl, rfl, rfl⟩, fun hq hs => ?_, hothers⟩
    have hbuf := s.outOpened_buf seq i c
    have hregs := State.redirected_regs (s := s.outOpened seq i c) (e := c.op 16 4) (by rwa [State.leafQ, hbuf]) (by rwa [hbuf]) (s.outPlacement c)
    exact (State.settle_get_migSlot _ hi rfl).trans ((State.get_of_regs hregs _).trans (State.openMig_state _ (s.outMig seq i c) ..))
  case arrives =>
    intro s seq i c hb hk hf he htarget hd hw hsingle hslot hplace
    have h : s.migrates seq 2 i c := ⟨hb, hk, by decide, hf, he, fun _ => htarget, hd, hw, nofun, hsingle, hslot, by simpa using hplace⟩
    have hi := State.freeSlot_lt hslot
    obtain ⟨hout, hfound, hmoved, hothers⟩ := h.opened (m := s.inMig seq i c) (x := s.inPlaced c) (t := (s.inOpened seq i c).settle)
      rfl rfl rfl rfl rfl rfl (State.settle_mig _) (State.settle_cmd _)
    refine ⟨_, h.in_eq, hout, hmoved, ?_, ?_, ⟨_, hfound, rfl, rfl, rfl⟩, hothers, s.inOpened_kept seq i c⟩
    · exact (State.settle_get_migSlot _ hi rfl).trans (State.openMig_state _ (s.inMig seq i c) ..)
    · exact (State.settle_get_migSlot _ hi rfl).trans ((State.openMig_device _ (s.inMig seq i c) ..).trans (Nat.mod_eq_of_lt hd))

end Sys2Proof.Machine
end

section
/-! SUPPORT. How migrations end: what packets that leave a fence leave of migrations, commands and placements, and the events that end each kind;
endpoints park and unpark (R252 to R255, R452). -/
namespace Sys2Proof.Machine

/-! ### Packets that leave a fence (R252, R254, R255) -/

theorem updFirst_map {α β : Type} {g : α → β} {p : α → Bool} {f : α → α} (h : ∀ a, p a = true → g (f a) = g a) (l : List α) :
    (updFirst p f l).map g = l.map g := by
  induction l with
  | nil => rfl
  | cons a l ih =>
    unfold updFirst
    split
    · rename_i ha
      rw [List.map_cons, List.map_cons, h a ha]
    · rw [List.map_cons, List.map_cons, ih]

/-- What no packet on its way to a leaf queue or a fence touches: the timebase and the commands, the placements, the epochs whose results are
late, and the slots taken. -/
def State.booked (s : State) : (Nat × CmdState) × SMap Placement × List (Nat × Nat) × List Nat :=
  (s.clocked, s.mig.places, s.mig.late, s.mig.open_.map Migration.slot)

theorem State.booked_of {s t : State} (hc : t.clocked = s.clocked) (hm : t.mig = s.mig) : t.booked = s.booked := by
  rw [State.booked, hc, hm, State.booked]

theorem State.booked_joinLeaf (s : State) (l : Nat) (p : Pkt) : (s.joinLeaf l p).booked = s.booked :=
  State.booked_of (s.clocked_joinLeaf l p) (s.joinLeaf_mig l p)

theorem State.booked_migLate (s : State) (p : Pkt) : (s.migLate p).booked = s.booked :=
  State.booked_of (s.clocked_migLate p) (State.queues_eq_iff.mp (s.queues_migLate p)).2.1

/-- A migration whose fence grows keeps its slot. -/
theorem State.booked_fencePkt (s : State) (m : Migration) (p : Pkt) : (s.fencePkt m p).booked = s.booked := by
  have hslots := updFirst_map (g := Migration.slot) (p := fun n : Migration => n.slot == m.slot)
    (f := fun _ => { m with fence := m.fence ++ [p], firstNs := some (m.firstNs.getD s.ns) }) (fun n hn => (beq_iff_eq.mp hn).symm) s.mig.open_
  exact congrArg (fun x => (s.clocked, s.mig.places, s.mig.late, x)) hslots

theorem State.booked_routeLeaf (s : State) (p : Pkt) : (s.routeLeaf p).booked = s.booked := by
  refine ite_keeps (s.booked_joinLeaf ..) (ite_keeps (s.booked_joinLeaf ..) (ite_keeps (s.booked_migLate p) ?_))
  split
  · exact ite_keeps (s.booked_joinLeaf ..) (s.booked_fencePkt ..)
  · exact s.booked_joinLeaf ..

/-! ### The end of a migration (R252 to R255) -/

/-- The slot of migration `m` is free. -/
def State.slotFreed (s : State) (m : Migration) : State :=
  (({ s with mig := { s.mig with open_ := s.mig.open_.filter fun n => n.slot != m.slot } } : State).set (R.SWC_MIG.STATE m.slot) 0).dec
    R.SWC_MIG_CTRL.ACTIVE 1

/-- Its fence is spliced behind. -/
def State.spliced (s : State) (m : Migration) : State := m.fence.foldl (fun t p => t.routeLeaf p) (s.slotFreed m)

theorem State.endMig_eq (s : State) (m : Migration) (code : Nat) :
    s.endMig m code = (s.spliced m).finish m.seq code 0 0 (m.takeNs % 2 ^ 48) [] := rfl

theorem State.booked_spliced (s : State) (m : Migration) : (s.spliced m).booked = (s.slotFreed m).booked :=
  foldl_keeps (fun t p => t.booked_routeLeaf p) _ _

theorem State.booked_eq_iff {s t : State} : t.booked = s.booked ↔ t.clocked = s.clocked ∧ t.mig.places = s.mig.places ∧
    t.mig.late = s.mig.late ∧ t.mig.open_.map Migration.slot = s.mig.open_.map Migration.slot := by
  simp only [State.booked, Prod.mk.injEq]

section
variable (s : State) (m : Migration) (code : Nat)

/-- Placements and late epochs stay. -/
theorem State.endMig_places : (s.endMig m code).mig.places = s.mig.places := (State.booked_eq_iff.mp (s.booked_spliced m)).2.1

theorem State.endMig_late : (s.endMig m code).mig.late = s.mig.late := (State.booked_eq_iff.mp (s.booked_spliced m)).2.2.1

/-- No migration is in its slot. -/
theorem State.endMig_slot : ∀ n ∈ (s.endMig m code).mig.open_, n.slot ≠ m.slot := by
  intro n hn
  obtain ⟨-, -, -, hslots⟩ := State.booked_eq_iff.mp (s.booked_spliced m)
  have hin : n.slot ∈ (s.slotFreed m).mig.open_.map Migration.slot := hslots ▸ List.mem_map_of_mem hn
  obtain ⟨k, hk, hkn⟩ := List.mem_map.mp hin
  have hother := (List.mem_filter.mp hk).2
  rw [← hkn]
  simpa using hother

theorem State.endMig_outcome {c : OpenCmd} (h : s.findCmd m.seq = some c) :
    (s.endMig m code).outcomeOf m.seq = some (outcomeArea code 0 0 (m.takeNs % 2 ^ 48) []) := by
  obtain ⟨hclocked, -⟩ := State.booked_eq_iff.mp (s.booked_spliced m)
  have hcmd : (s.spliced m).cmd = s.cmd := (State.clocked_eq_iff.mp hclocked).2
  exact State.outcomeOf_finish ((State.findCmd_congr hcmd m.seq).trans h) ..

/-- With an empty fence the slot shows that it is free, and nothing else changes. -/
theorem State.endMig_regs (h : m.fence = []) : (s.endMig m code).regs = (s.slotFreed m).regs := by
  rw [s.endMig_eq, State.spliced, h]
  rfl

theorem State.endMig_only (h : m.fence = []) : s.migOnly (s.endMig m code) := by
  rw [s.endMig_eq, State.spliced, h]
  rfl

theorem State.slotFreed_word {off : Nat} (hslot : off ≠ 0x1C08100 + 8 * m.slot) (hactive : off ≠ 0x1C08000) :
    (s.slotFreed m).word off = s.word off := by
  rw [State.slotFreed, State.dec, State.word_set_other (l := R.SWC_MIG_CTRL.ACTIVE) _ hactive,
    State.word_set_other (l := R.SWC_MIG.STATE m.slot) _ hslot]
  rfl

theorem State.slotFreed_state : (s.slotFreed m).get (R.SWC_MIG.STATE m.slot) = 0 := by
  have hactive : (R.SWC_MIG.STATE m.slot).off ≠ R.SWC_MIG_CTRL.ACTIVE.off := by simp only [R.SWC_MIG.STATE, R.SWC_MIG_CTRL.ACTIVE]; omega
  rw [State.slotFreed, State.dec, State.get_set_of_off hactive, State.get_set_same _ _ _ (Nat.le_of_ble_eq_true rfl)]
  rfl

end

/-- `t` is `s` where the migration `m` of slot `i` has ended with an outcome code: its slot is free and its command has its outcome; with an empty
fence nothing else has changed. -/
def State.migEnded (s t : State) (i code : Nat) (m : Migration) : Prop :=
  (∀ n ∈ t.mig.open_, n.slot ≠ i) ∧ t.outcomeOf m.seq = some (outcomeArea code 0 0 (m.takeNs % 2 ^ 48) []) ∧
    (m.fence = [] → t.get (R.SWC_MIG.STATE i) = 0 ∧
      s.kept { t with cmd := s.cmd, mig := s.mig } [] fun k => k = (R.SWC_MIG.STATE i).off ∨ k = R.SWC_MIG_CTRL.ACTIVE.off)

/-- The end of a migration, where the migrations and placements alone have changed before. -/
theorem State.migEnded_endMig {s x : State} {i : Nat} {m : Migration} {c : OpenCmd} (hi : i < 256) (hslot : m.slot = i)
    (hc : s.findCmd m.seq = some c) {g : MigState} (hx : x = { s with mig := g }) (code : Nat) : s.migEnded (x.endMig m code).settle i code m := by
  subst hslot hx
  refine ⟨?_, ?_, fun hfence => ⟨?_, ?_⟩⟩
  · rw [State.settle_mig]
    exact State.endMig_slot _ m code
  · rw [State.settle_outcomeOf]
    exact State.endMig_outcome _ m code hc
  · rw [State.settle_get_migSlot _ hi rfl, State.get_of_regs (State.endMig_regs _ m code hfence)]
    exact State.slotFreed_state _ m
  · have hplaced : s.migOnly { s with mig := g } := rfl
    refine (hplaced.trans (State.endMig_only _ m code hfence)).kept rfl fun off hoff hactive => ?_
    rw [State.word_of_regs (State.endMig_regs _ m code hfence), State.slotFreed_word _ m hoff hactive]
    rfl

/-- A command whose operands name something, with what its effect comes to. -/
theorem complete_of_eq {ok : Bool} {s t u : State} (h : ok = true) (ht : t = u) : complete ok s t = .next u.settle := ht ▸ complete_of h s t

/-! ### The events (R252 to R255) -/

/-- A LOCAL migration ends once the epochs with late results have taken what R253 adds. -/
theorem State.endLocal_eq (s : State) (m : Migration) : ∃ g : MigState, s.endLocal m = ({ s with mig := g } : State).endMig m 0 ∧
    ((m.oldPlace.any fun k => decide (16 ≤ k)) = true → (m.ep, m.oldEpoch) ∈ g.late) := by
  unfold State.endLocal
  split
  · exact ⟨_, rfl, fun _ => List.mem_cons_self ..⟩
  · rename_i hprism
    exact ⟨s.mig, rfl, fun hfacet => absurd hfacet hprism⟩

/-- The record of an endpoint that has moved away (R254). -/
def State.recordGone (s : State) (e : Nat) : State := s.setPlacement e { s.placement e with place := some placeGone }

section
variable {s : State} {i : Nat} {m : Migration} (hi : i < 256) (hx : s.executing = true)
include hi hx

theorem exec_migTokenArrival (hm : s.slotMig i 0 = some m) (ht : s.tokenThrough m = true) :
    exec (.migTokenArrival i) s = .next (s.endLocal m).settle := by
  refine complete_of_eq (decide_eq_true hi) ?_
  rw [hm]
  exact if_pos (by rw [hx, ht]; rfl)

theorem exec_fenceLimitExpiry (hm : s.slotMig i 0 = some m) (hfacet : (m.oldPlace.any fun k => decide (16 ≤ k)) = true)
    (hlate : (m.firstNs.any fun t => decide (10 * s.get R.SWC_MIG_CTRL.FENCE_LIMIT ≤ 21 * (s.ns - t))) = true) :
    exec (.fenceLimitExpiry i) s = .next (s.endLocal m).settle := by
  refine complete_of_eq (decide_eq_true hi) ?_
  rw [hm]
  exact if_pos (by rw [hx, hfacet, hlate]; rfl)

theorem exec_tailWindowEnd (hm : s.slotMig i 1 = some m) (hend : m.endNs ≤ s.ns) :
    exec (.tailWindowEnd i) s = .next ((s.recordGone m.ep).endMig m 0).settle := by
  refine complete_of_eq (decide_eq_true hi) ?_
  rw [hm]
  exact if_pos (by rw [hx, decide_eq_true hend]; rfl)

theorem exec_markerLimitExpiry (hm : s.slotMig i 2 = some m) (hmarkers : s.get (R.SWC_MIG.MARKERS i) ≠ 255)
    (hlate : (m.firstNs.any fun t => decide (t + 1000 * s.get R.SWC_MIG_CTRL.MARKER_LIMIT ≤ s.ns)) = true) :
    exec (.markerLimitExpiry i) s = .next (s.endMig m 3).settle := by
  refine complete_of_eq (decide_eq_true hi) ?_
  rw [hm]
  exact if_pos (by rw [hx, hlate, bne_iff_ne.mpr hmarkers]; rfl)

end

/-! ### Parking (R452) -/

/-- The body of EP_PARK and EP_UNPARK runs where the endpoint has no migration and is parked as the command wants it. -/
theorem State.parkCmd_of {s : State} {seq code : Nat} {c : OpenCmd} {wants : Bool} (hb : s.begins seq code c) (hf : c.formed [(20, 44)] = true)
    (he : c.op 16 4 < 2 ^ 20) (hmig : (s.mig.open_.any fun m => m.ep == c.op 16 4) = false) (hp : s.host.parked.contains (c.op 16 4) = wants)
    (body : Nat → State → State) : s.parkCmd seq code wants body = body (c.op 16 4) s := by
  have hbound : decide (2 ^ 20 ≤ c.op 16 4) = false := decide_eq_false (Nat.not_le.mpr he)
  refine (State.runCmd_of hb _).trans ?_
  dsimp only
  rw [hf, hbound, hmig, hp]
  simp

theorem exec_parkComplete {s : State} {e seq t0 : Nat} (he : e < 2 ^ 20) (hx : s.executing = true) (hq : s.leafQ e = [])
    (hp : (s.host.parking.find? fun x => x.1 == e) = some (e, seq, t0)) : exec (.parkComplete e) s =
      .next (({ s with host := { s.host with parking := s.host.parking.filter fun x => x.2.1 != seq } } : State).finish seq 0 0 0
        (t0 % 2 ^ 48) []).settle := by
  refine complete_of_eq (decide_eq_true he) ?_
  rw [hp]
  exact if_pos (by rw [hx, hq]; rfl)

/-- A command that touches parked endpoints and commands alone leaves everything else as it was. -/
theorem State.kept_host {s x t : State} (hx : x = { s with host := x.host, cmd := x.cmd }) (ht : t = x.settle) :
    s.kept { t with cmd := s.cmd, host := s.host } [] fun _ => False := by
  have hstill : ({ x with cmd := s.cmd, host := s.host } : State).still = s.still :=
    (congrArg (fun y : State => ({ y with cmd := s.cmd, host := s.host } : State).still) hx :)
  have hregs : x.regs = s.regs := by rw [hx]
  have hout : x.out = s.out := by rw [hx]
  exact State.kept_put (g := fun y => { y with cmd := s.cmd, host := s.host }) (fun _ => rfl) (fun _ => rfl) (fun _ => rfl) ht hstill hout
    fun off _ => State.word_of_regs hregs off

/-- Settles O17: every event runs into the end of its migration, which the fence's packets leave as it is; parking and unparking touch the lists of
parked endpoints alone. -/
theorem migrationsEndAndEndpointsPark : Obligations.MigrationsEndAndEndpointsPark := by
  refine ⟨?token, ?fenceLimit, ?tail, ?markers, ?park, ?parked, ?unpark⟩
  case token =>
    intro s i m c hi hx hm hc ht
    obtain ⟨g, hend, -⟩ := s.endLocal_eq m
    refine ⟨_, exec_migTokenArrival hi hx hm ht, ?_⟩
    rw [hend]
    exact State.migEnded_endMig hi (State.slotMig_slot hm) hc rfl 0
  case fenceLimit =>
    intro s i k t0 m c hi hx hm hc hk hfacet hfirst hlate
    obtain ⟨g, hend, hlisted⟩ := s.endLocal_eq m
    have hany : (m.oldPlace.any fun k => decide (16 ≤ k)) = true := by simpa [hk] using hfacet
    refine ⟨_, exec_fenceLimitExpiry hi hx hm hany (by simpa [hfirst] using hlate), ?_⟩
    rw [hend]
    obtain ⟨hslot, hout, hrest⟩ := State.migEnded_endMig hi (State.slotMig_slot hm) hc (x := { s with mig := g }) rfl 0
    refine ⟨hslot, ?_, hout, hrest⟩
    rw [State.settle_mig, State.endMig_late]
    exact hlisted hany
  case tail =>
    intro s i m c hi hx hm hc hend
    obtain ⟨hslot, hout, hrest⟩ := State.migEnded_endMig hi (State.slotMig_slot hm) hc (x := s.recordGone m.ep) rfl 0
    refine ⟨_, exec_tailWindowEnd hi hx hm hend, hslot, ?_, hout, hrest⟩
    rw [State.placement, State.settle_mig, State.endMig_places, State.recordGone, State.setPlacement, SMap.find_put_same]
  case markers =>
    intro s i t0 m c hi hx hm hc hmarkers hfirst hlate
    exact ⟨_, exec_markerLimitExpiry hi hx hm hmarkers (by simpa [hfirst] using hlate),
      State.migEnded_endMig hi (State.slotMig_slot hm) hc (x := s) rfl 3⟩
  case park =>
    intro s seq c hb hf he hmig hp
    refine ⟨_, congrArg (complete true s) (State.parkCmd_of hb hf he hmig hp _), ?_, ?_, ?_, State.kept_host rfl rfl⟩
    · rw [State.settle_host]
      rfl
    · rw [State.settle_host]
      rfl
    · rw [State.settle_outcomeOf]
      exact (State.outcomeOf_started (by exact hb.1)).trans hb.no_outcome
  case parked =>
    intro s e seq t0 c he hx hq hp hc
    refine ⟨_, exec_parkComplete he hx hq hp, ?_, fun x hin => ?_, ?_, State.kept_host rfl rfl⟩
    · rw [State.settle_outcomeOf]
      exact State.outcomeOf_finish (by exact hc) ..
    · rw [State.settle_host] at hin
      simpa using (List.mem_filter.mp hin).2
    · rw [State.settle_host]
      rfl
  case unpark =>
    intro s seq c hb hf he hmig hp
    refine ⟨_, congrArg (complete true s) (State.parkCmd_of hb hf he hmig hp _), ?_, ?_, State.kept_host rfl rfl⟩
    · rw [State.settle_host]
      exact Bool.eq_false_iff.mpr fun hin => absurd (List.mem_filter.mp (List.contains_iff_mem.mp hin)).2 (by simp)
    · rw [State.settle_outcomeOf]
      exact State.outcomeOf_finish (by exact hb.1) ..

end Sys2Proof.Machine
end

section
/-! SUPPORT. Rule versions and microcode patches: what sweeps and patches leave of the timebase and the commands, what staging, takeover,
retirement and settling make of the version registers, and how each of their commands ends (R145, R147, R175, R224 to R228, R233). -/
namespace Sys2Proof.Machine

/-! ### Sweeps (R175, R203, R225) -/

section
variable (s : State)

theorem State.clocked_sweepRow (f : LensRow → LensRow) (k : Nat) : (s.sweepRow f k).clocked = s.clocked := by
  refine clocked_ite rfl ?_
  exact s.clocked_shadowWrite ..

theorem State.clocked_sweepRows (a : Nat) (f : LensRow → LensRow) : (s.sweepRows a f).clocked = s.clocked :=
  clocked_foldl (fun t k => t.clocked_sweepRow f k) _ _

theorem State.clocked_sweepEntries (f : Entry → Option Entry) : (s.sweepEntries f).clocked = s.clocked := by
  refine clocked_foldl (fun t n => clocked_foldl (fun u x => ?_) _ t) _ _
  split
  · exact State.clocked_of_steady (u.steady_clearEntry ..)
  · exact clocked_ite rfl (State.clocked_of_steady (u.steady_putEntry ..))

theorem State.clocked_countPrefixes (t was now : Nat) : (s.countPrefixes t was now).clocked = s.clocked := rfl

theorem State.clocked_sweepTries (fp : Prefix → Prefix) (fl : Nat → Nat) : (s.sweepTries fp fl).clocked = s.clocked := by
  refine (clocked_foldl (fun u t => u.clocked_countPrefixes ..) _ _).trans ?_
  exact clocked_foldl (fun u t => clocked_foldl (fun v k => clocked_ite rfl (State.clocked_of_steady (v.steady_setTline ..))) _ u) _ s

theorem State.clocked_abandonSweep (v : Nat) : (s.abandonSweep v).clocked = s.clocked := by
  have hrows : ((List.range 16).foldl (fun (t : State) a => (t.compareQueued a).sweepRows a (LensRow.abandon v)) s).clocked = s.clocked :=
    clocked_foldl (fun t a => (State.clocked_sweepRows ..).trans (t.clocked_compareQueued a)) _ _
  exact (State.clocked_sweepTries ..).trans ((State.clocked_sweepEntries ..).trans hrows)

end

/-! ### Registers beside the version state and the outcomes -/

section
variable (s : State)

theorem State.get_withVer (v : VerState) (l : Loc) : ({ s with ver := v } : State).get l = s.get l := rfl
theorem State.get_finish (seq a b i k : Nat) (d : List (Nat × Nat × Nat)) (l : Loc) : (s.finish seq a b i k d).get l = s.get l := rfl
theorem State.ver_finish (seq a b i k : Nat) (d : List (Nat × Nat × Nat)) : (s.finish seq a b i k d).ver = s.ver := rfl

/-- A register as it stands after a command that ends. -/
theorem State.settle_get_finish {seq a b i k : Nat} {d : List (Nat × Nat × Nat)} {l : Loc} (h : ¬ followReg l.off) :
    (s.finish seq a b i k d).settle.get l = s.get l := (State.settle_get _ h).trans (s.get_finish ..)

end

/-! ### VERSION_STAGE (R224, R225) -/

theorem State.versionStage_of {s : State} {seq op : Nat} {c : OpenCmd} (hb : s.begins seq 0x20 c) (hf : c.formed [(17, 47)] = true)
    (ho : c.op 16 1 = op) (hop : op < 2) (body : State → State) : s.versionStage seq op body = body s := by
  refine (State.runCmd_of hb _).trans ?_
  dsimp only
  rw [if_neg fun hn => hn.1 ho, hf, ho, decide_eq_false (Nat.not_le.mpr hop)]
  rfl

/-- Staging opens at the version behind the current one. -/
def State.stageOpened (s : State) : State := (s.setBit R.APR_VERSION.STAGE_OPEN true).set R.APR_VERSION.STAGED ((s.current + 1) % 16)

/-- An ABANDON begins to sweep. -/
def State.abandonBegun (s : State) (seq : Nat) : State :=
  { s.updCmd seq fun c => { c with started := true } with ver := { s.ver with abandoning := s.ver.abandoning ++ [(seq, s.now)] } }

/-- Staging is open at that version, and the current one stays. -/
theorem State.stageOpened_version (s : State) : s.stageOpened.bit R.APR_VERSION.STAGE_OPEN = true ∧
    s.stageOpened.get R.APR_VERSION.STAGED = (s.get R.APR_VERSION.CURRENT + 1) % 16 ∧
      s.stageOpened.get R.APR_VERSION.CURRENT = s.get R.APR_VERSION.CURRENT := by
  have hstaged : (s.get R.APR_VERSION.CURRENT + 1) % 16 % 2 ^ 4 = (s.get R.APR_VERSION.CURRENT + 1) % 16 := Nat.mod_mod _ _
  unfold State.stageOpened State.setBit State.bit State.current
  simp (disch := decide) only [State.get_set_of_bits, State.get_set_same]
  exact ⟨rfl, hstaged, trivial⟩

section
variable {s : State} {seq : Nat} {c : OpenCmd}

theorem State.stageOpened_outcome (h : s.findCmd seq = some c) (d : List (Nat × Nat × Nat)) :
    (s.stageOpened.done seq d).settle.outcomeOf seq = some (outcomeArea 0 0 0 s.now d) :=
  State.done_outcomeOf h (by rw [State.stageOpened, State.setBit, State.clocked_set, State.clocked_set]) d

theorem State.abandonBegun_outcome (h : s.findCmd seq = some c) : (s.abandonBegun seq).outcomeOf seq = c.outcome :=
  (State.outcomeOf_congr (s := s.updCmd seq fun d => { d with started := true }) rfl seq).trans (State.outcomeOf_started h)

theorem exec_versionStageOpen (hb : s.begins seq 0x20 c) (hf : c.formed [(17, 47)] = true) (ho : c.op 16 1 = 0)
    (hs : s.bit R.APR_VERSION.STAGE_OPEN = false) :
    exec (.versionStageOpen seq) s = .next (s.stageOpened.done seq [(16, 1, (s.get R.APR_VERSION.CURRENT + 1) % 16)]).settle :=
  complete_of_eq rfl ((State.versionStage_of hb hf ho (by decide) _).trans (if_neg (by simp [hs])))

theorem exec_versionStageAbandon (hb : s.begins seq 0x20 c) (hf : c.formed [(17, 47)] = true) (ho : c.op 16 1 = 1)
    (hs : s.bit R.APR_VERSION.STAGE_OPEN = true) (hr : s.rulesWaiting = false) :
    exec (.versionStageAbandon seq) s = .next (s.abandonBegun seq).settle :=
  complete_of_eq rfl ((State.versionStage_of hb hf ho (by decide) _).trans ((if_neg (by simp [hs])).trans (if_neg (by simp [hr]))))

/-- The sweep has ended for the one ABANDON that waits for it. -/
def State.abandoned (s : State) : State :=
  let t := (s.abandonSweep (s.get R.APR_VERSION.STAGED)).setBit R.APR_VERSION.STAGE_OPEN false
  { t with ver := { t.ver with abandoning := [], stagers := [] } }

theorem exec_abandonSweepComplete {t0 : Nat} (hx : s.executing = true) (ha : s.ver.abandoning = [(seq, t0)]) :
    exec .abandonSweepComplete s = .next (s.abandoned.finish seq 0 0 0 t0 []).settle := by
  refine complete_of_eq rfl ((if_pos (by simp [hx, ha])).trans ?_)
  rw [ha]
  rfl

theorem State.abandoned_findCmd (h : s.findCmd seq = some c) : s.abandoned.findCmd seq = some c :=
  (State.findCmd_congr (State.clocked_eq_iff.mp (s.clocked_abandonSweep _)).2 seq).trans h

theorem State.abandoned_unstaged : s.abandoned.bit R.APR_VERSION.STAGE_OPEN = false := by
  rw [State.abandoned, State.bit, State.get_withVer]
  exact State.bit_setBit_same _ _ _ rfl (by decide)

theorem State.abandoned_ver : s.abandoned.ver.abandoning = [] ∧ s.abandoned.ver.stagers = [] := ⟨rfl, rfl⟩

end

/-! ### VERSION_COMMIT (R147, R226, R227) -/

/-- A commit waits for its conditions. -/
def State.commitWaits (s : State) (seq : Nat) : State :=
  let t := (s.updCmd seq fun d => { d with started := true }).setBit R.APR_VERSION.COMMIT_WAIT true
  { t with ver := { t.ver with waiting := some seq } }

section
variable {s : State} {seq : Nat} {c : OpenCmd}

theorem exec_versionCommit (hb : s.begins seq 0x21 c) (hw : s.ver.waiting = none) (hp : (commitBank c && s.patchAhead seq) = false)
    (hc : s.commitBad c = none) : exec (.versionCommit seq) s = .next (s.commitWaits seq).settle := by
  refine complete_of_eq rfl ((State.runCmd_of hb _).trans ((if_neg (by simp [hw])).trans ((if_neg (by simp [hp])).trans ?_)))
  rw [hc]
  rfl

theorem exec_versionCommit_held (hb : s.begins seq 0x21 c) (hw : s.ver.waiting = none) (hbank : commitBank c = true)
    (hp : s.patchAhead seq = true) : exec (.versionCommit seq) s = .next (s.setBit R.APR_VERSION.COMMIT_WAIT true).settle :=
  complete_of_eq rfl ((State.runCmd_of hb _).trans ((if_neg (by simp [hw])).trans (if_pos (by simp [hbank, hp]))))

end

/-! ### COMMIT_TAKEOVER (R228) -/

/-- The registers that show the schedules of prisms (R96, R97). -/
abbrev schedReg (off : Nat) : Prop := 0x800000 ≤ off ∧ off < 0x1800000

/-- The registers of one prism. -/
def State.schedShown (s : State) (p : Nat) (same : Bool) (cut parse : Nat) : State :=
  (((s.setBit (R.PRISM_SCHED.CAL_SAME p 0) same).setBit (R.PRISM_SCHED.CAL_SAME p 1) same).set (R.PRISM_ALLOW.S_CUT p) cut).set
    (R.PRISM_ALLOW.A_PARSE p) parse

theorem State.schedRegs_eq (s : State) : s.schedRegs = (List.range 16).foldl (fun t p => t.schedShown p (s.calSame p) (s.sCut p)
    (SMap.find (fun _ => 0) s.code.parse (2 * p + s.get R.MCODE_ACTIVE.BANK))) s := rfl

theorem State.schedShown_word (s : State) {p off : Nat} (hp : p < 16) (h : ¬ schedReg off) (same : Bool) (cut parse : Nat) :
    (s.schedShown p same cut parse).word off = s.word off := by
  have hout : ∀ l : Loc, schedReg l.off → off ≠ l.off := fun l hl he => h (he ▸ hl)
  rw [State.schedShown, State.word_set_other _ (hout (R.PRISM_ALLOW.A_PARSE p) (by simp only [R.PRISM_ALLOW.A_PARSE]; omega)),
    State.word_set_other _ (hout (R.PRISM_ALLOW.S_CUT p) (by simp only [R.PRISM_ALLOW.S_CUT]; omega)), State.setBit,
    State.word_set_other _ (hout (R.PRISM_SCHED.CAL_SAME p 1) (by simp only [R.PRISM_SCHED.CAL_SAME]; omega)), State.setBit,
    State.word_set_other _ (hout (R.PRISM_SCHED.CAL_SAME p 0) (by simp only [R.PRISM_SCHED.CAL_SAME]; omega))]

theorem State.schedRegs_word (s : State) {off : Nat} (h : ¬ schedReg off) : s.schedRegs.word off = s.word off := by
  rw [s.schedRegs_eq]
  exact List.foldlRecOn (motive := fun t : State => t.word off = s.word off) _ _ rfl fun t ht p hp =>
    (t.schedShown_word (List.mem_range.mp hp) h ..).trans ht

theorem State.clocked_schedShown (s : State) (p : Nat) (same : Bool) (cut parse : Nat) : (s.schedShown p same cut parse).clocked = s.clocked := by
  simp only [State.schedShown, State.setBit, State.clocked_set]

theorem State.clocked_schedRegs (s : State) : s.schedRegs.clocked = s.clocked := by
  rw [s.schedRegs_eq]
  exact clocked_foldl (fun t p => t.clocked_schedShown ..) _ _

section
variable (s : State) (c : OpenCmd) (id : Nat)

/-- The rules' part of a takeover. -/
def State.rulesTaken : State := if commitRules c then s.commitVersion id else s

/-- The banks' part. -/
def State.bankTaken : State := if commitBank c then s.commitSwitch id else s

theorem State.commitVersion_regs : (s.commitVersion id).regs = (((s.set R.APR_VERSION.CURRENT (s.get R.APR_VERSION.STAGED)).set
    R.APR_VERSION.STAGE_OPEN 0).set R.APR_VERSION.LIVE (s.get R.APR_VERSION.LIVE + 1)).regs := rfl

theorem State.rulesTaken_word {off : Nat} (h : off ≠ 0x1D00400) : (s.rulesTaken c id).word off = s.word off := by
  unfold State.rulesTaken
  split
  · rw [State.word_of_regs (s.commitVersion_regs id), State.word_set_other (l := R.APR_VERSION.LIVE) _ h,
      State.word_set_other (l := R.APR_VERSION.STAGE_OPEN) _ h, State.word_set_other (l := R.APR_VERSION.CURRENT) _ h]
  · rfl

/-- The staged version is current, and one more is live. -/
theorem State.rulesTaken_version : if commitRules c then
      (s.rulesTaken c id).get R.APR_VERSION.CURRENT = s.get R.APR_VERSION.STAGED ∧ (s.rulesTaken c id).bit R.APR_VERSION.STAGE_OPEN = false ∧
        (s.rulesTaken c id).get R.APR_VERSION.LIVE = (s.get R.APR_VERSION.LIVE + 1) % 8
    else (s.rulesTaken c id).get R.APR_VERSION.CURRENT = s.get R.APR_VERSION.CURRENT ∧
      (s.rulesTaken c id).get R.APR_VERSION.LIVE = s.get R.APR_VERSION.LIVE := by
  have hstaged : s.get R.APR_VERSION.STAGED % 2 ^ 4 = s.get R.APR_VERSION.STAGED := Nat.mod_eq_of_lt (s.get_lt R.APR_VERSION.STAGED)
  unfold State.rulesTaken
  split
  · simp only [State.bit, State.get_of_regs (s.commitVersion_regs id)]
    simp (disch := decide) only [State.get_set_of_bits, State.get_set_same]
    exact ⟨hstaged, rfl, rfl⟩
  · exact ⟨rfl, rfl⟩

theorem State.clocked_rulesTaken : (s.rulesTaken c id).clocked = s.clocked := clocked_ite rfl rfl

/-- The switch before the schedules show it. -/
def State.bankSwitched : State := (s.set R.MCODE_ACTIVE.BANK (1 - s.get R.MCODE_ACTIVE.BANK)).setBit R.MCODE_ACTIVE.DRAINING true

theorem State.commitSwitch_eq : ∃ v a, s.commitSwitch id = { s.bankSwitched.schedRegs with ver := v, apr := a } := ⟨_, _, rfl⟩

theorem State.word_withVer (v : VerState) (a : AprState) (off : Nat) : ({ s with ver := v, apr := a } : State).word off = s.word off := rfl

theorem State.clocked_withVer (v : VerState) (a : AprState) : ({ s with ver := v, apr := a } : State).clocked = s.clocked := rfl

theorem State.commitSwitch_word {off : Nat} (h : ¬ schedReg off) : (s.commitSwitch id).word off = s.bankSwitched.word off := by
  obtain ⟨v, a, hswitch⟩ := s.commitSwitch_eq id
  rw [hswitch, State.word_withVer, State.schedRegs_word _ h]

theorem State.clocked_commitSwitch : (s.commitSwitch id).clocked = s.clocked := by
  obtain ⟨v, a, hswitch⟩ := s.commitSwitch_eq id
  rw [hswitch, State.clocked_withVer, State.clocked_schedRegs, State.bankSwitched, State.setBit, State.clocked_set, State.clocked_set]

theorem State.bankTaken_word {off : Nat} (h : off ≠ 0x2B00010) (hs : ¬ schedReg off) : (s.bankTaken c id).word off = s.word off := by
  unfold State.bankTaken
  split
  · rw [s.commitSwitch_word id hs, State.bankSwitched, State.setBit,
      State.word_set_other (l := R.MCODE_ACTIVE.DRAINING) _ h, State.word_set_other (l := R.MCODE_ACTIVE.BANK) _ h]
  · rfl

/-- The other bank is active, and the former one drains. -/
theorem State.bankTaken_bank : if commitBank c then
      (s.bankTaken c id).get R.MCODE_ACTIVE.BANK = 1 - s.get R.MCODE_ACTIVE.BANK ∧ (s.bankTaken c id).bit R.MCODE_ACTIVE.DRAINING = true
    else (s.bankTaken c id).get R.MCODE_ACTIVE.BANK = s.get R.MCODE_ACTIVE.BANK := by
  have hbank : 1 - s.get R.MCODE_ACTIVE.BANK < 2 ^ (R.MCODE_ACTIVE.BANK).w := by simp only [R.MCODE_ACTIVE.BANK]; omega
  have hget : ∀ l : Loc, l.off = 0x2B00010 → (s.commitSwitch id).get l = s.bankSwitched.get l := fun l hl =>
    State.get_of_word (s.commitSwitch_word id (by rw [hl]; decide))
  unfold State.bankTaken
  split
  · simp only [State.bit]
    rw [hget _ rfl, hget _ rfl, State.bankSwitched, State.setBit]
    simp (disch := decide) only [State.get_set_of_bits, State.get_set_same]
    exact ⟨Nat.mod_eq_of_lt hbank, rfl⟩
  · rfl

theorem State.clocked_bankTaken : (s.bankTaken c id).clocked = s.clocked := clocked_ite (s.clocked_commitSwitch id) rfl

end

/-- The takeover but for the outcome: the drain round begins, and the rules and banks that the command names are taken. -/
def State.takenOver (s : State) (c : OpenCmd) : State :=
  let r := s.startRound (List.range 16) true
  let t := (r.2.rulesTaken c r.1).bankTaken c r.1
  ({ t with ver := { t.ver with waiting := none, takeNs := some s.ns } }).setBit R.APR_VERSION.COMMIT_WAIT false

/-- What the takeover tells (R228). -/
def State.takenData (s : State) (c : OpenCmd) : List (Nat × Nat × Nat) :=
  [(16, 1, (s.takenOver c).get R.APR_VERSION.CURRENT), (17, 1, (s.takenOver c).get R.MCODE_ACTIVE.BANK)]

theorem State.takeover_eq (s : State) (c : OpenCmd) : s.takeover c = (s.takenOver c).done c.seq (s.takenData c) := rfl

theorem exec_commitTakeover {s : State} {c : OpenCmd} (hx : s.executing = true) (hw : s.ver.waiting = some c.seq)
    (hc : s.findCmd c.seq = some c) (hr : s.commitReady c = true) :
    exec .commitTakeover s = .next ((s.takenOver c).done c.seq (s.takenData c)).settle := by
  refine complete_of_eq rfl ?_
  rw [hx, if_pos rfl, hw]
  dsimp only
  rw [hc]
  exact (if_pos hr).trans (s.takeover_eq c)

/-- A drain round shows in APR_VERSION.DRAIN alone. -/
theorem State.startRound_get (s : State) (ks : List Nat) (commit : Bool) {l : Loc} (hw : l.lo + l.w ≤ 64) (hl : l.lo + l.w ≤ 48) :
    (s.startRound ks commit).2.get l = s.get l := by
  have hregs : (s.startRound ks commit).2.regs = (s.set R.APR_VERSION.DRAIN 0).regs := by rw [s.startRound_eq]
  rw [State.get_of_regs hregs, State.get_set_of_bits hw (.inr hl)]

section
variable (s : State) (c : OpenCmd)

theorem State.clocked_takenOver : (s.takenOver c).clocked = s.clocked := by
  have hround : (s.startRound (List.range 16) true).2.clocked = s.clocked := State.clocked_of_steady (s.steady_startRound ..)
  exact (State.clocked_bankTaken ..).trans ((State.clocked_rulesTaken ..).trans hround)

/-- The version registers but for COMMIT_WAIT are as the rules' part leaves them. -/
theorem State.takenOver_get {l : Loc} (hoff : l.off = 0x1D00400) (hw : l.lo + l.w ≤ 64) (hl : 12 + 1 ≤ l.lo ∨ l.lo + l.w ≤ 12) :
    (s.takenOver c).get l = ((s.startRound (List.range 16) true).2.rulesTaken c (s.startRound (List.range 16) true).1).get l := by
  refine (State.get_set_of_bits (l := R.APR_VERSION.COMMIT_WAIT) hw hl).trans ?_
  exact State.get_of_word (State.bankTaken_word _ c _ (by rw [hoff]; decide) (by rw [hoff]; decide))

theorem State.takenOver_version : if commitRules c then
      (s.takenOver c).get R.APR_VERSION.CURRENT = s.get R.APR_VERSION.STAGED ∧ (s.takenOver c).bit R.APR_VERSION.STAGE_OPEN = false ∧
        (s.takenOver c).get R.APR_VERSION.LIVE = (s.get R.APR_VERSION.LIVE + 1) % 8
    else (s.takenOver c).get R.APR_VERSION.CURRENT = s.get R.APR_VERSION.CURRENT ∧
      (s.takenOver c).get R.APR_VERSION.LIVE = s.get R.APR_VERSION.LIVE := by
  have hrules := State.rulesTaken_version (s.startRound (List.range 16) true).2 c (s.startRound (List.range 16) true).1
  rw [State.startRound_get _ _ _ (by decide) (by decide), State.startRound_get _ _ _ (by decide) (by decide),
    State.startRound_get _ _ _ (by decide) (by decide)] at hrules
  rw [s.takenOver_get c rfl (by decide) (by decide), State.bit, s.takenOver_get c rfl (by decide) (by decide),
    s.takenOver_get c rfl (by decide) (by decide)]
  exact hrules

theorem State.takenOver_bank : if commitBank c then
      (s.takenOver c).get R.MCODE_ACTIVE.BANK = 1 - s.get R.MCODE_ACTIVE.BANK ∧ (s.takenOver c).bit R.MCODE_ACTIVE.DRAINING = true
    else (s.takenOver c).get R.MCODE_ACTIVE.BANK = s.get R.MCODE_ACTIVE.BANK := by
  have hwait : ∀ l : Loc, l.off = 0x2B00010 → (s.takenOver c).get l = (((s.startRound (List.range 16) true).2.rulesTaken c
      (s.startRound (List.range 16) true).1).bankTaken c (s.startRound (List.range 16) true).1).get l := fun l hl =>
    State.get_set_of_off (l := R.APR_VERSION.COMMIT_WAIT) (by rw [hl]; decide)
  have hbank := State.bankTaken_bank ((s.startRound (List.range 16) true).2.rulesTaken c (s.startRound (List.range 16) true).1) c
    (s.startRound (List.range 16) true).1
  have hbefore := State.get_of_word (l := R.MCODE_ACTIVE.BANK)
    (State.rulesTaken_word (s.startRound (List.range 16) true).2 c (s.startRound (List.range 16) true).1 (by decide))
  rw [hbefore, State.startRound_get _ _ _ (by decide) (by decide)] at hbank
  rw [hwait _ rfl, State.bit, hwait _ rfl]
  exact hbank

theorem State.takenOver_waiting : (s.takenOver c).ver.waiting = none := rfl

theorem State.takenOver_wait : (s.takenOver c).bit R.APR_VERSION.COMMIT_WAIT = false := State.bit_setBit_same _ _ _ rfl (by decide)

end

/-! ### Retirement and settling (R175, R203, R233) -/

/-- O advances, and the settle passes for the new O begin. -/
def State.retired (s : State) : State :=
  let o := (s.oldest + 1) % 16
  ((((s.set R.LENS_VERSION.OLDEST o).set R.APR_VERSION.OLDEST o).set R.APR_VERSION.LIVE (s.get R.APR_VERSION.LIVE - 1)).set
    R.LENS_VERSION.SETTLING 0xFFFF).setBit R.TBL_SETTLE.SETTLING true

theorem exec_versionRetire {s : State} (hf : s.forwarding = true) (hr : s.mayRetire = true) :
    exec .versionRetire s = .next s.retired.settle := complete_of_eq rfl (if_pos (by rw [hf, hr]; rfl))

theorem State.retired_registers (s : State) :
    s.retired.get R.APR_VERSION.OLDEST = (s.get R.LENS_VERSION.OLDEST + 1) % 16 ∧
      s.retired.get R.LENS_VERSION.OLDEST = (s.get R.LENS_VERSION.OLDEST + 1) % 16 ∧
      s.retired.get R.APR_VERSION.LIVE = s.get R.APR_VERSION.LIVE - 1 ∧ s.retired.get R.LENS_VERSION.SETTLING = 0xFFFF ∧
      s.retired.bit R.TBL_SETTLE.SETTLING = true := by
  have hlive : s.get R.APR_VERSION.LIVE < 2 ^ 3 := s.get_lt R.APR_VERSION.LIVE
  have hmod : (s.get R.APR_VERSION.LIVE - 1) % 2 ^ 3 = s.get R.APR_VERSION.LIVE - 1 := Nat.mod_eq_of_lt (by omega)
  have holdest : (s.get R.LENS_VERSION.OLDEST + 1) % 16 % 2 ^ 4 = (s.get R.LENS_VERSION.OLDEST + 1) % 16 := Nat.mod_mod _ _
  unfold State.retired State.setBit State.bit State.oldest
  simp (disch := decide) only [State.get_set_of_bits, State.get_set_of_off, State.get_set_same]
  exact ⟨holdest, holdest, hmod, rfl, rfl⟩

theorem exec_settlePassComplete {s : State} {a : Nat} (ha : a < 17) (hf : s.forwarding = true) :
    exec (.settlePassComplete a) s = .next (s.settlePass a).settle := complete_of_eq (decide_eq_true ha) (if_pos hf)

theorem State.settlePass_array {s : State} {a : Nat} (ha : a < 16) (hs : (s.get R.LENS_VERSION.SETTLING).testBit a = true) :
    (s.settlePass a).get R.LENS_VERSION.SETTLING = s.get R.LENS_VERSION.SETTLING - 2 ^ a := by
  have hlt : s.get R.LENS_VERSION.SETTLING < 2 ^ 16 := s.get_lt R.LENS_VERSION.SETTLING
  have hmod : (s.get R.LENS_VERSION.SETTLING - 2 ^ a) % 2 ^ 16 = s.get R.LENS_VERSION.SETTLING - 2 ^ a :=
    Nat.mod_eq_of_lt (Nat.lt_of_le_of_lt (Nat.sub_le ..) hlt)
  unfold State.settlePass
  dsimp only
  rw [if_pos ha, if_pos hs, State.get_set_same _ _ _ (by decide)]
  exact hmod

theorem State.settlePass_tables {s : State} (hs : s.bit R.TBL_SETTLE.SETTLING = true) :
    (s.settlePass 16).bit R.TBL_SETTLE.SETTLING = false := by
  unfold State.settlePass
  dsimp only
  rw [if_neg (by decide), if_pos hs, State.bit_setBit_same _ _ _ rfl (by decide)]

/-! ### MCODE_PATCH (R145 to R148) -/

section
variable (s : State)

theorem State.clocked_copyBank (b : Nat) : (s.copyBank b).clocked = s.clocked := by
  unfold State.copyBank
  dsimp only
  rw [State.clocked_setWord]
  exact (clocked_foldl (fun t p => t.clocked_setWord ..) _ _).trans rfl

theorem State.clocked_patchWord (f b a w : Nat) : (s.patchWord f b a w).clocked = s.clocked := clocked_ite rfl rfl

theorem State.clocked_putPatch (patch : List Byte) (b : Nat) : (s.putPatch patch b).clocked = s.clocked :=
  clocked_foldl (fun t _ => t.clocked_patchWord ..) _ _

theorem State.clocked_withCode (c : CodeState) : ({ s with code := c } : State).clocked = s.clocked := rfl

theorem State.clocked_bankEdges (b : Nat) : (s.bankEdges b).clocked = s.clocked := by rw [State.bankEdges, State.clocked_withCode]

end

/-- The patched bank, with the words of the active one where it is copied first, and the next patch level. -/
def State.patched (s : State) (b : Nat) (copy : Bool) (patch : List Byte) : State :=
  let active := s.get R.MCODE_ACTIVE.BANK
  let level := s.get (R.MCODE_VERSION.PATCH_LEVEL (if copy then active else b))
  ((((if copy then s.copyBank active else s).putPatch patch b).set (R.MCODE_VERSION.PATCH_LEVEL b) (level + 1)).bankEdges b).schedRegs

/-- A patch that passes its checks gives the patched bank: each of the six checks on the way refuses (R145). -/
theorem State.patchBank_inr {s u : State} {b : Nat} {copy : Bool} {patch : List Byte} (h : s.patchBank b copy patch = .inr u) :
    u = s.patched b copy patch := by
  unfold State.patchBank at h
  unfold State.patched
  dsimp only at h ⊢
  generalize (if copy = true then s.get R.MCODE_ACTIVE.BANK else b) = ref at h ⊢
  generalize (if copy = true then s.copyBank (s.get R.MCODE_ACTIVE.BANK) else s) = t at h ⊢
  iterate 6 (split at h; · cases h)
  exact (Sum.inr.inj h).symm

/-- It touches neither the timebase nor a command. -/
theorem State.clocked_patched (s : State) (b : Nat) (copy : Bool) (patch : List Byte) : (s.patched b copy patch).clocked = s.clocked := by
  unfold State.patched
  dsimp only
  rw [State.clocked_schedRegs, State.clocked_bankEdges, State.clocked_set, State.clocked_putPatch]
  exact clocked_ite (s.clocked_copyBank _) rfl

/-- The patch has been read from host memory. -/
def State.patchRead (s : State) (c : OpenCmd) : State := s.emitAll (s.pfReads (s.cmdPf c) (c.op 24 8) (c.op 32 4))

/-- How a MCODE_PATCH with a good header ends. -/
def State.patchEnd (s : State) (seq : Nat) (c : OpenCmd) (patch : List Byte) : State :=
  match (s.patchRead c).patchBank (c.op 16 1 % 2) ((c.op 17 1).testBit 0) patch with
  | .inl (r, i) => (s.patchRead c).refuseAt seq r i
  | .inr u => u.done seq [(16, 2, leAt patch 8 2 + 1)]

theorem exec_mcodePatch {s : State} {seq : Nat} {c : OpenCmd} (hb : s.begins seq 0x22 c) (hc : s.commitAhead seq = false)
    (hh : headerGood c.bytes = true) (patch : List Byte) : exec (.mcodePatch seq patch) s = .next (s.patchEnd seq c patch).settle :=
  complete_of_eq rfl ((State.runCmd_of hb _).trans ((if_neg (by simp [hc])).trans (if_neg (by simp [hh]))))

/-! ### The frames of these commands -/

section
variable {s : State} {seq : Nat}

/-- What staging changes stands in one register. -/
theorem State.stageOpened_kept (d : List (Nat × Nat × Nat)) :
    s.kept { (s.stageOpened.done seq d).settle with cmd := s.cmd } [] fun k => k = R.APR_VERSION.STAGED.off :=
  State.kept_put (g := fun y => { y with cmd := s.cmd }) (fun _ => rfl) (fun _ => rfl) (fun _ => rfl) rfl rfl rfl fun _ hoff =>
    (State.word_set_other (l := R.APR_VERSION.STAGED) _ hoff).trans (State.word_set_other (l := R.APR_VERSION.STAGE_OPEN) _ hoff)

/-- An ABANDON that begins is noted, and nothing else changes. -/
theorem State.abandonBegun_kept : s.kept { (s.abandonBegun seq).settle with cmd := s.cmd, ver := s.ver } [] fun _ => False :=
  State.kept_put (g := fun y => { y with cmd := s.cmd, ver := s.ver }) (fun _ => rfl) (fun _ => rfl) (fun _ => rfl) rfl rfl rfl
    fun _ _ => rfl

/-- A commit that waits is noted, and COMMIT_WAIT shows it. -/
theorem State.commitWaits_kept : s.kept { (s.commitWaits seq).settle with cmd := s.cmd, ver := s.ver } []
    fun k => k = R.APR_VERSION.COMMIT_WAIT.off :=
  State.kept_put (g := fun y => { y with cmd := s.cmd, ver := s.ver }) (fun _ => rfl) (fun _ => rfl) (fun _ => rfl) rfl rfl rfl
    fun _ hoff => State.word_set_other (l := R.APR_VERSION.COMMIT_WAIT) _ hoff

theorem State.commitHeld_kept : s.kept (s.setBit R.APR_VERSION.COMMIT_WAIT true).settle [] fun k => k = R.APR_VERSION.COMMIT_WAIT.off :=
  State.kept_put (g := id) (fun _ => rfl) (fun _ => rfl) (fun _ => rfl) rfl rfl rfl
    fun _ hoff => State.word_set_other (l := R.APR_VERSION.COMMIT_WAIT) _ hoff

end

/-- Settles O13: the version registers are read off what each step sets, and neither sweeps nor takeovers nor patches touch the command that ends
with them. -/
theorem versionsAndPatchesMove : Obligations.VersionsAndPatchesMove := by
  refine ⟨?stage, ?abandoned, ?waits, ?held, ?takeover, ?retire, ?settle, ?patch⟩
  case stage =>
    intro s seq c hb hf
    refine ⟨fun ho hs => ?_, fun ho hs hr => ?_⟩
    · obtain ⟨hopen, hstaged, hcurrent⟩ := s.stageOpened_version
      refine ⟨_, exec_versionStageOpen hb hf ho hs, ?_, ?_, ?_, State.stageOpened_outcome hb.1 _, State.stageOpened_kept _⟩
      · rw [State.bit, State.done, State.settle_get_finish _ (by decide)]
        exact hopen
      · rw [State.done, State.settle_get_finish _ (by decide), hstaged]
      · rw [State.done, State.settle_get_finish _ (by decide), hcurrent]
    · refine ⟨_, exec_versionStageAbandon hb hf ho hs hr, ?_, ?_, State.abandonBegun_kept⟩
      · rw [State.settle_ver, State.abandonBegun]
      · rw [State.settle_outcomeOf, State.abandonBegun_outcome hb.1]
  case abandoned =>
    intro s seq t0 c hx ha hc
    refine ⟨_, exec_abandonSweepComplete hx ha, ?_, ?_, ?_, ?_⟩
    · rw [State.bit, State.settle_get_finish _ (by decide)]
      exact s.abandoned_unstaged
    · rw [State.settle_ver, State.ver_finish, s.abandoned_ver.1]
    · rw [State.settle_ver, State.ver_finish, s.abandoned_ver.2]
    · rw [State.settle_outcomeOf, State.outcomeOf_finish (State.abandoned_findCmd hc)]
  case waits =>
    intro s seq c hb hw hp hc
    refine ⟨_, exec_versionCommit hb hw hp hc, ?_, ?_, State.commitWaits_kept⟩
    · rw [State.settle_ver]
      rfl
    · rw [State.settle_bit _ (by decide)]
      exact State.bit_setBit_same _ _ _ rfl (by decide)
  case held =>
    intro s seq c hb hw hbank hp
    refine ⟨_, exec_versionCommit_held hb hw hbank hp, ?_, ?_, State.commitHeld_kept⟩
    · rw [State.settle_findCmd]
      exact hb.1
    · rw [State.settle_bit _ (by decide)]
      exact State.bit_setBit_same _ _ _ rfl (by decide)
  case takeover =>
    intro s c hx hw hc hr
    have hget : ∀ l : Loc, ¬ followReg l.off → ((s.takenOver c).done c.seq (s.takenData c)).settle.get l = (s.takenOver c).get l :=
      fun l hl => State.settle_get_finish _ hl
    refine ⟨_, exec_commitTakeover hx hw hc hr, ?_, ?_, ?_, ?_, ?_⟩
    · rw [hget _ (by decide), State.bit, hget _ (by decide), hget _ (by decide)]
      exact s.takenOver_version c
    · rw [hget _ (by decide), State.bit, hget _ (by decide)]
      exact s.takenOver_bank c
    · rw [State.bit, hget _ (by decide)]
      exact s.takenOver_wait c
    · rw [State.settle_ver, State.done, State.ver_finish, s.takenOver_waiting]
    · rw [hget _ (by decide), hget _ (by decide), ← State.takenData]
      exact State.done_outcomeOf hc (s.clocked_takenOver c) _
  case retire =>
    intro s hf hr
    refine ⟨_, exec_versionRetire hf hr, ?_⟩
    rw [State.settle_get _ (by decide), State.settle_get _ (by decide), State.settle_get _ (by decide), State.settle_get _ (by decide),
      State.settle_bit _ (by decide)]
    exact s.retired_registers
  case settle =>
    intro s a hf
    refine ⟨fun ha hs => ⟨_, exec_settlePassComplete (by omega) hf, ?_⟩, fun ha hs => ⟨_, exec_settlePassComplete (by omega) hf, ?_⟩⟩
    · rw [State.settle_get _ (by decide)]
      exact State.settlePass_array ha hs
    · rw [State.settle_bit _ (by decide), ha]
      exact State.settlePass_tables hs
  case patch =>
    intro s seq c patch hb hc hh
    refine ⟨_, exec_mcodePatch hb hc hh patch, ?_⟩
    unfold State.patchEnd
    rw [State.patchRead]
    cases hp : (s.emitAll (s.pfReads (s.cmdPf c) (c.op 24 8) (c.op 32 4))).patchBank (c.op 16 1 % 2) ((c.op 17 1).testBit 0) patch with
    | inl x =>
      refine ⟨?_, ?_⟩
      · exact State.sent_outcome hb.1 ..
      · rw [State.settle_code]
        rfl
    | inr u =>
      have hu : u.clocked = s.clocked := (congrArg State.clocked (State.patchBank_inr hp)).trans (State.clocked_patched ..)
      refine ⟨?_, State.done_outcomeOf hb.1 hu _⟩
      rw [State.settle_code]
      rfl

end Sys2Proof.Machine
end

section
/-! SUPPORT. What charges, links and frees of cells leave of packet memory, and what releasing one cell, or the cells of a chain, makes of the
link words (R258, R262, R265, R266, R269). -/
namespace Sys2Proof.Machine

/-! ### What stays -/

/-- What no charge of a cell to an account touches: packet memory without the numbers of shared and of refill cells in use, and the number of
the next transfer. -/
def State.unpriced (s : State) : BufState × Nat := ({ s.buf with sharedUsed := 0, refillUsed := 0 }, s.mem.nextWho)

/-- What nothing that is done to cells and spill blocks touches: the frames and packets of packet memory with the figures of its spill window,
and the number of the next transfer. -/
def State.packets (s : State) : BufState × Nat :=
  ({ s.buf with links := [], linkWrong := [], failing := [], charges := [], sharedUsed := 0, refillUsed := 0, spills := [] }, s.mem.nextWho)

theorem State.packets_of_unpriced {s t : State} (h : t.unpriced = s.unpriced) : t.packets = s.packets :=
  congrArg (fun x : BufState × Nat => (({ x.1 with
    links := [], linkWrong := [], failing := [], charges := [], sharedUsed := 0, refillUsed := 0, spills := [] } : BufState), x.2)) h

theorem State.links_of_unpriced {s t : State} (h : t.unpriced = s.unpriced) : t.buf.links = s.buf.links :=
  congrArg (fun x : BufState × Nat => x.1.links) h

theorem State.rx_of_packets {s t : State} (h : t.packets = s.packets) : t.buf.rx = s.buf.rx := congrArg (fun x : BufState × Nat => x.1.rx) h

theorem State.toPrism_of_packets {s t : State} (h : t.packets = s.packets) : t.buf.toPrism = s.buf.toPrism :=
  congrArg (fun x : BufState × Nat => x.1.toPrism) h

theorem State.leafQ_of_packets {s t : State} (h : t.packets = s.packets) (l : Nat) : t.leafQ l = s.leafQ l :=
  congrArg (fun x : BufState × Nat => SMap.find (fun _ => []) x.1.leaves l) h

/-- The frame of a command that changes nothing but the buffers. -/
theorem State.kept_of_buf {s x : State} (h : ({ x with buf := s.buf } : State) = s) :
    s.kept { x.settle with buf := s.buf } [] fun _ => False :=
  State.kept_buf rfl (congrArg State.still h) (congrArg State.out h :) fun k _ => State.word_of_regs (congrArg State.regs h :) k

section
variable (s : State)

/-! ### Charges (R269, R344) -/

@[simp] theorem State.unpriced_set (l : Loc) (v : Nat) : (s.set l v).unpriced = s.unpriced := rfl
@[simp] theorem State.unpriced_sat (l : Loc) (k : Nat) : (s.sat l k).unpriced = s.unpriced := rfl
@[simp] theorem State.unpriced_dec (l : Loc) (k : Nat) : (s.dec l k).unpriced = s.unpriced := rfl
@[simp] theorem State.unpriced_peak (l : Loc) (v : Nat) : (s.peak l v).unpriced = s.unpriced := ite_keeps rfl rfl

@[simp] theorem State.unpriced_subCharge (a kind n : Nat) : (s.subCharge a kind n).unpriced = s.unpriced := by
  have hshared : (if 1 ≤ kind ∧ kind < 10 then
      { s.dec (R.BUF_ACCT.USED a) n with buf := { s.buf with sharedUsed := s.buf.sharedUsed - n } }
      else s.dec (R.BUF_ACCT.USED a) n).unpriced = s.unpriced := ite_keeps rfl rfl
  exact ite_keeps rfl (ite_keeps hshared hshared)

@[simp] theorem State.unpriced_addCharge (a kind n : Nat) : (s.addCharge a kind n).unpriced = s.unpriced := by
  unfold State.addCharge
  dsimp only
  generalize hpeak : (s.set (R.BUF_ACCT.USED a) (s.get (R.BUF_ACCT.USED a) + n)).peak _ _ = u
  have hu : u.unpriced = s.unpriced := hpeak ▸ State.unpriced_peak ..
  have hshared : (if 1 ≤ kind ∧ kind < 10 then { u with buf := { u.buf with sharedUsed := u.buf.sharedUsed + n } } else u).unpriced = s.unpriced :=
    ite_keeps hu hu
  exact ite_keeps rfl (ite_keeps hshared hshared)

@[simp] theorem State.unpriced_creditBack (k : Nat) : (s.creditBack k).unpriced = s.unpriced := ite_keeps rfl rfl

@[simp] theorem State.unpriced_raise (n info : Nat) : (s.raise n info).unpriced = s.unpriced := by
  rw [State.unpriced, State.raise_buf, State.raise_mem, State.unpriced]

@[simp] theorem State.unpriced_captureFree (kind requester owner cell : Nat) :
    (s.captureFree kind requester owner cell).unpriced = s.unpriced := ite_keeps rfl (by simp only [State.unpriced_set])

/-- A cell without its charge: no link word, frame or packet changes. -/
theorem State.uncharge_spec (i : Nat) :
    (s.uncharge i).chargeOf i = none ∧ (s.uncharge i).buf.links = s.buf.links ∧ (s.uncharge i).packets = s.packets := by
  unfold State.uncharge
  split
  · rename_i hnone
    exact ⟨hnone, rfl, rfl⟩
  · rename_i c hc
    have hsub : ∀ u : State, (if 16 ≤ c.kind then (u.subCharge c.acct c.kind 1).creditBack (c.kind - 16) else u.subCharge c.acct c.kind 1).unpriced =
        u.unpriced := fun u => ite_keeps ((State.unpriced_creditBack ..).trans (u.unpriced_subCharge ..)) (u.unpriced_subCharge ..)
    have hput := hsub { s with buf := { s.buf with charges := s.buf.charges.put (fun _ => none) i none } }
    dsimp only
    refine ⟨?_, (State.links_of_unpriced hput).trans rfl, (State.packets_of_unpriced hput).trans rfl⟩
    refine (congrArg (fun x : BufState × Nat => SMap.find (fun _ => none) x.1.charges i) hput).trans ?_
    exact SMap.find_put_same ..

@[simp] theorem State.links_charge (i a kind : Nat) : (s.charge i a kind).buf.links = s.buf.links :=
  (State.links_of_unpriced (State.unpriced_addCharge ..)).trans (s.uncharge_spec i).2.1

@[simp] theorem State.packets_charge (i a kind : Nat) : (s.charge i a kind).packets = s.packets :=
  (State.packets_of_unpriced (State.unpriced_addCharge ..)).trans (s.uncharge_spec i).2.2

/-! ### Refused requests (R262, R266) -/

theorem State.captureFree_buf (kind requester owner cell : Nat) : (s.captureFree kind requester owner cell).buf = s.buf := ite_keeps rfl rfl

@[simp] theorem State.doubleFree_buf (cell requester : Nat) : (s.doubleFree cell requester).buf = s.buf :=
  (State.raise_buf ..).trans (State.captureFree_buf ..)

@[simp] theorem State.ownerError_buf (cell requester : Nat) : (s.ownerError cell requester).buf = s.buf :=
  (State.raise_buf ..).trans (State.captureFree_buf ..)

@[simp] theorem State.packets_doubleFree (cell requester : Nat) : (s.doubleFree cell requester).packets = s.packets :=
  State.packets_of_unpriced ((State.unpriced_raise ..).trans (State.unpriced_captureFree ..))

@[simp] theorem State.packets_ownerError (cell requester : Nat) : (s.ownerError cell requester).packets = s.packets :=
  State.packets_of_unpriced ((State.unpriced_raise ..).trans (State.unpriced_captureFree ..))

/-! ### Link words (R258) -/

@[simp] theorem State.link_setLink_same (i w : Nat) : (s.setLink i w).link i = w := SMap.find_put_same ..

theorem State.link_setLink_other {i j : Nat} (w : Nat) (h : j ≠ i) : (s.setLink i w).link j = s.link j := SMap.find_put_other _ _ _ _ _ h

/-- A word whose STATE is 0 is that of a free cell (R258). -/
theorem linkUsed_freed (w : Nat) : linkUsed (bitsSet w 47 1 0) = false := by
  rw [linkUsed, bitsSet_testBit, if_neg (by decide), if_pos (by decide)]
  rfl

theorem linkTag_renamed (w : Nat) {owner : Nat} (h : owner < 4096) : linkTag (bitsSet w 32 12 owner) = owner :=
  (bitsGet_bitsSet_same ..).trans (Nat.mod_eq_of_lt h)

/-! ### Freeing one cell (R262) -/

@[simp] theorem State.link_freeCell_same (i : Nat) : (s.freeCell i).link i = bitsSet (s.link i) 47 1 0 := SMap.find_put_same ..

theorem State.link_freeCell_other {i j : Nat} (h : j ≠ i) : (s.freeCell i).link j = s.link j :=
  (SMap.find_put_other _ _ _ _ _ h).trans (congrArg (fun m => SMap.find (fun _ => 0) m j) (s.uncharge_spec i).2.1)

@[simp] theorem State.chargeOf_freeCell (i : Nat) : (s.freeCell i).chargeOf i = none := (s.uncharge_spec i).1

@[simp] theorem State.packets_freeCell (i : Nat) : (s.freeCell i).packets = s.packets := (s.uncharge_spec i).2.2

/-! ### Releasing one cell (R265) -/

/-- What releasing a cell can come to. -/
theorem State.releaseCell_cases (requester i : Nat) :
    ((s.releaseCell requester i).buf = s.buf ∧ (s.releaseCell requester i).packets = s.packets) ∨ s.releaseCell requester i = s.freeCell i ∨
      (linkUsed (s.link i) = true ∧ s.releaseCell requester i = s.setLink i (bitsSet (s.link i) 32 12 (linkTag (s.link i) - 1))) := by
  unfold State.releaseCell
  dsimp only
  split
  · exact .inl ⟨s.doubleFree_buf .., s.packets_doubleFree ..⟩
  · rename_i hused
    split
    · split
      · exact .inr (.inl rfl)
      · exact .inl ⟨s.ownerError_buf .., s.packets_ownerError ..⟩
    · split
      · exact .inr (.inl rfl)
      · exact .inr (.inr ⟨by simpa using hused, rfl⟩)

@[simp] theorem State.packets_releaseCell (requester i : Nat) : (s.releaseCell requester i).packets = s.packets := by
  obtain ⟨-, h⟩ | h | ⟨-, h⟩ := s.releaseCell_cases requester i
  · exact h
  · rw [h, s.packets_freeCell]
  · rw [h]
    rfl

theorem State.link_releaseCell_other (requester : Nat) {i j : Nat} (hj : j ≠ i) : (s.releaseCell requester i).link j = s.link j := by
  obtain ⟨h, -⟩ | h | ⟨-, h⟩ := s.releaseCell_cases requester i
  · rw [State.link, h, State.link]
  · rw [h, s.link_freeCell_other hj]
  · rw [h, s.link_setLink_other _ hj]

end

theorem State.releaseCell_of_owner {s : State} {requester i : Nat} (hused : linkUsed (s.link i) = true) (howned : linkOwned (s.link i) = true)
    (htag : linkTag (s.link i) = requester) : s.releaseCell requester i = s.freeCell i := by
  simp [State.releaseCell, hused, howned, htag]

theorem State.releaseCell_of_foreign {s : State} {requester i : Nat} (hused : linkUsed (s.link i) = true)
    (howned : linkOwned (s.link i) = true) (htag : linkTag (s.link i) ≠ requester) : s.releaseCell requester i = s.ownerError i requester := by
  simp [State.releaseCell, hused, howned, htag]

theorem State.releaseCell_of_last {s : State} {i : Nat} (requester : Nat) (hused : linkUsed (s.link i) = true)
    (howned : linkOwned (s.link i) = false) (htag : linkTag (s.link i) ≤ 1) : s.releaseCell requester i = s.freeCell i := by
  simp [State.releaseCell, hused, howned, htag]

theorem State.releaseCell_of_shared {s : State} {i : Nat} (requester : Nat) (hused : linkUsed (s.link i) = true)
    (howned : linkOwned (s.link i) = false) (htag : 1 < linkTag (s.link i)) :
    s.releaseCell requester i = s.setLink i (bitsSet (s.link i) 32 12 (linkTag (s.link i) - 1)) := by
  simp [State.releaseCell, hused, howned, Nat.not_le.mpr htag]

/-- The word of a free cell stays, whatever is released. -/
theorem State.link_releaseCell_unused {s : State} {j : Nat} (h : linkUsed (s.link j) = false) (requester i : Nat) :
    (s.releaseCell requester i).link j = s.link j := by
  by_cases hj : j = i
  · subst hj
    have hfree : s.releaseCell requester j = s.doubleFree j requester := by simp [State.releaseCell, h]
    rw [hfree, State.link, s.doubleFree_buf, State.link]
  · exact s.link_releaseCell_other requester hj

/-! ### Releasing the cells of a chain (R266) -/

theorem foldl_releaseCell_link_other (requester : Nat) {is : List Nat} {j : Nat} (hj : j ∉ is) (s : State) :
    (is.foldl (fun (t : State) i => t.releaseCell requester i) s).link j = s.link j :=
  List.foldlRecOn (motive := fun t : State => t.link j = s.link j) is _ rfl fun t ht _ hi =>
    (t.link_releaseCell_other requester fun h : j = _ => hj (h.symm ▸ hi)).trans ht

theorem foldl_releaseCell_link_unused (requester : Nat) (is : List Nat) {s : State} {j : Nat} (h : linkUsed (s.link j) = false) :
    (is.foldl (fun (t : State) i => t.releaseCell requester i) s).link j = s.link j :=
  List.foldlRecOn (motive := fun t : State => t.link j = s.link j) is _ rfl fun _ ht i _ =>
    (State.link_releaseCell_unused (ht ▸ h) requester i).trans ht

/-- A chain begins with its first cell. -/
theorem State.chainFrom_head (s : State) (n i : Nat) : ∃ is, s.chainFrom (n + 1) i = i :: is := by
  rw [State.chainFrom]
  split
  · exact ⟨[], rfl⟩
  · exact ⟨_, rfl⟩

@[simp] theorem State.packets_releaseCells (s : State) (p : Pkt) : (s.releaseCells p).packets = s.packets := by
  have hcells := fun req => foldl_keeps (g := State.packets) (fun t i => t.packets_releaseCell req i) p.cells s
  have hsub : ∀ (u : State) (a kind n : Nat), (u.subCharge a kind n).packets = u.packets := fun u _ _ _ =>
    State.packets_of_unpriced (u.unpriced_subCharge ..)
  have hreserved := fun req => ite_keeps (g := State.packets) (c := p.xResv = 0) (hcells req) ((hsub _ p.acct 0 p.xResv).trans (hcells req))
  exact ite_keeps (hreserved _) ((hsub ..).trans (hreserved _))

/-! ### Handing a chain off (R266) -/

/-- The cells of a chain with TAG renamed. -/
def State.renamed (s : State) (owner : Nat) (is : List Nat) : State :=
  is.foldl (fun (t : State) i => t.setLink i (bitsSet (t.link i) 32 12 owner)) s

theorem State.link_renamed_other {is : List Nat} {j : Nat} (hj : j ∉ is) (s : State) (owner : Nat) : (s.renamed owner is).link j = s.link j :=
  List.foldlRecOn (motive := fun t : State => t.link j = s.link j) is _ rfl fun t ht _ hi =>
    (t.link_setLink_other _ fun h : j = _ => hj (h.symm ▸ hi)).trans ht

theorem State.linkTag_renamed {owner : Nat} (h : owner < 4096) {is : List Nat} {j : Nat} (hj : j ∈ is) (s : State) :
    linkTag ((s.renamed owner is).link j) = owner := by
  induction is generalizing s with
  | nil => cases hj
  | cons i is ih =>
    by_cases htail : j ∈ is
    · exact ih htail _
    · obtain rfl : j = i := (List.mem_cons.mp hj).resolve_right htail
      refine (congrArg linkTag (State.link_renamed_other htail _ owner)).trans ?_
      rw [State.link_setLink_same, Machine.linkTag_renamed _ h]

/-- A handoff changes link words alone. -/
theorem State.renamed_buf (s : State) (owner : Nat) (is : List Nat) : ({ s.renamed owner is with buf := s.buf } : State) = s :=
  foldl_keeps (g := fun t : State => ({ t with buf := s.buf } : State)) (f := fun t i => t.setLink i (bitsSet (t.link i) 32 12 owner))
    (fun _ _ => rfl) is s

end Sys2Proof.Machine
end

section
/-! SUPPORT. Frees that are refused: what their count, their capture and their fault show (R262, R266). -/
namespace Sys2Proof.Machine

/-- A request that is refused: counted at `l`, captured, and raised as source `n`. -/
def State.refused (s : State) (l : Loc) (kind n cell requester : Nat) : State :=
  ((s.sat l 1).captureFree kind requester (linkTag (s.link cell)) cell).raise n 0

theorem State.doubleFree_eq (s : State) (cell requester : Nat) : s.doubleFree cell requester = s.refused R.BUF_ERR.DOUBLE_FREE 0 20 cell requester :=
  rfl

theorem State.ownerError_eq (s : State) (cell requester : Nat) : s.ownerError cell requester = s.refused R.BUF_ERR.OWNER 1 21 cell requester := rfl

theorem State.captureFree_word (s : State) (kind requester owner cell : Nat) {off : Nat} (h : off ≠ 0x1B00308) :
    (s.captureFree kind requester owner cell).word off = s.word off := by
  have hset : ∀ (u : State) (l : Loc) (v : Nat), l.off = 0x1B00308 → (u.set l v).word off = u.word off := fun u l v hl =>
    u.word_set_other (hl ▸ h)
  refine ite_keeps (g := fun t : State => t.word off) rfl ?_
  rw [hset _ R.BUF_FREE_CAP.CELL _ rfl, hset _ R.BUF_FREE_CAP.OWNER _ rfl, hset _ R.BUF_FREE_CAP.REQUESTER _ rfl, hset _ R.BUF_FREE_CAP.KIND _ rfl,
    hset _ R.BUF_FREE_CAP.VALID _ rfl]

/-- What the capture shows of a request, where it held none. -/
theorem State.captureFree_fields {s : State} (h : s.bit R.BUF_FREE_CAP.VALID = false) (kind requester owner cell : Nat) :
    (s.captureFree kind requester owner cell).get R.BUF_FREE_CAP.VALID = 1 ∧
      (s.captureFree kind requester owner cell).get R.BUF_FREE_CAP.KIND = kind % 2 ∧
      (s.captureFree kind requester owner cell).get R.BUF_FREE_CAP.CELL = cell % 2 ^ 20 ∧
      (s.captureFree kind requester owner cell).get R.BUF_FREE_CAP.REQUESTER = requester % 2 ^ 12 := by
  have hskip : ∀ (u : State) (l m : Loc) (v : Nat), m.lo + m.w ≤ 64 → l.lo + l.w ≤ m.lo → (u.set l v).get m = u.get m :=
    fun _ _ _ _ hm hlo => State.get_set_below hm hlo
  unfold State.captureFree
  rw [if_neg (by simp [h])]
  refine ⟨?_, ?_, State.get_set_same _ _ _ (by decide), ?_⟩
  · rw [hskip _ R.BUF_FREE_CAP.CELL _ _ (by decide) (by decide), hskip _ R.BUF_FREE_CAP.OWNER _ _ (by decide) (by decide),
      hskip _ R.BUF_FREE_CAP.REQUESTER _ _ (by decide) (by decide), hskip _ R.BUF_FREE_CAP.KIND _ _ (by decide) (by decide)]
    exact State.get_set_same _ _ _ (by decide)
  · rw [hskip _ R.BUF_FREE_CAP.CELL _ _ (by decide) (by decide), hskip _ R.BUF_FREE_CAP.OWNER _ _ (by decide) (by decide),
      hskip _ R.BUF_FREE_CAP.REQUESTER _ _ (by decide) (by decide)]
    exact State.get_set_same _ _ _ (by decide)
  · rw [hskip _ R.BUF_FREE_CAP.CELL _ _ (by decide) (by decide), hskip _ R.BUF_FREE_CAP.OWNER _ _ (by decide) (by decide)]
    exact State.get_set_same _ _ _ (by decide)

theorem State.get_sat_same (s : State) (l : Loc) (k : Nat) (h : l.lo + l.w ≤ 64) : (s.sat l k).get l = min (s.get l + k) (2 ^ l.w - 1) := by
  have hpos := Nat.two_pow_pos l.w
  rw [State.sat, State.get_set_same _ _ _ h, satAdd, Nat.mod_eq_of_lt (by omega)]

/-- What BUF_ERR and the capture show of a refused request once what follows it is done. -/
theorem State.refused_get (s : State) (l : Loc) (kind n cell requester : Nat) {m : Loc} (hm : m.off = 0x1B00300 ∨ m.off = 0x1B00308) :
    (s.refused l kind n cell requester).settle.get m = ((s.sat l 1).captureFree kind requester (linkTag (s.link cell)) cell).get m := by
  have hfollow : ¬ followReg m.off := by rcases hm with h | h <;> rw [h] <;> decide
  have hraise : ¬ raiseReg m.off := by rcases hm with h | h <;> rw [h] <;> decide
  rw [State.settle_get _ hfollow, State.refused, State.raise_get _ _ _ hraise]

theorem State.refused_latches {s : State} (hc : s.coreUp = true) {n : Nat} (hn : sourceListed n = true) (l : Loc) (kind cell requester : Nat) :
    (s.refused l kind n cell requester).settle.bit (faultBit n) = true := by
  have hlt := sourceListed_lt hn
  have hup : ((s.sat l 1).captureFree kind requester (linkTag (s.link cell)) cell).coreUp = true :=
    (State.coreUp_of_queues (State.queues_captureFree ..)).trans hc
  exact (State.settle_latch _ (by omega)).trans (State.raise_latches _ n 0 hn hup)

theorem State.refused_counts (s : State) {l : Loc} (hl : l.off = 0x1B00300) (hw : l.lo + l.w ≤ 64) (kind n cell requester : Nat) :
    (s.refused l kind n cell requester).settle.get l = min (s.get l + 1) (2 ^ l.w - 1) := by
  rw [s.refused_get l kind n cell requester (.inl hl), ← s.get_sat_same l 1 hw]
  exact State.get_of_word (State.captureFree_word _ _ _ _ _ (by rw [hl]; decide))

theorem State.refused_captures {s : State} (h : s.bit R.BUF_FREE_CAP.VALID = false) {l : Loc} (hl : l.off = 0x1B00300) (kind n : Nat)
    {cell requester : Nat} (hcell : cell < 2 ^ 20) (hreq : requester < 2 ^ 12) :
    (s.refused l kind n cell requester).settle.bit R.BUF_FREE_CAP.VALID = true ∧
      (s.refused l kind n cell requester).settle.get R.BUF_FREE_CAP.KIND = kind % 2 ∧
      (s.refused l kind n cell requester).settle.get R.BUF_FREE_CAP.CELL = cell ∧
      (s.refused l kind n cell requester).settle.get R.BUF_FREE_CAP.REQUESTER = requester := by
  have hvalid : (s.sat l 1).bit R.BUF_FREE_CAP.VALID = false := by
    rw [State.bit, State.sat, State.get_set_of_off (by rw [hl]; decide)]
    exact h
  obtain ⟨h1, h2, h3, h4⟩ := State.captureFree_fields hvalid kind requester (linkTag (s.link cell)) cell
  rw [Nat.mod_eq_of_lt hcell] at h3
  rw [Nat.mod_eq_of_lt hreq] at h4
  refine ⟨?_, ?_, ?_, ?_⟩
  · rw [State.bit, s.refused_get l kind n cell requester (.inr rfl), h1]
    rfl
  · rw [s.refused_get l kind n cell requester (.inr rfl), h2]
  · rw [s.refused_get l kind n cell requester (.inr rfl), h3]
  · rw [s.refused_get l kind n cell requester (.inr rfl), h4]

/-- A request by another than the owner is raised, counted, and changes nothing in packet memory. -/
theorem State.ownerError_spec {s : State} (hc : s.coreUp = true) (cell requester : Nat) :
    (s.ownerError cell requester).settle.bit (faultBit 21) = true ∧ (s.ownerError cell requester).settle.buf = s.buf ∧
      (s.ownerError cell requester).settle.get R.BUF_ERR.OWNER = min (s.get R.BUF_ERR.OWNER + 1) 65535 :=
  ⟨State.refused_latches hc rfl .., (State.settle_buf _).trans (s.ownerError_buf ..), State.refused_counts s rfl (by decide) ..⟩

/-! ### The requests (R262, R266) -/

theorem exec_cellFree {cell requester : Nat} {asOwner : Bool} (hw : Instr.wf (.cellFree cell requester asOwner) = true) {s : State}
    (hc : s.coreUp = true) : exec (.cellFree cell requester asOwner) s = .next (s.freeRequest cell requester asOwner).settle :=
  complete_of_eq hw (if_pos hc)

theorem exec_chainHandoff {cell requester owner : Nat} (hw : Instr.wf (.chainHandoff cell requester owner) = true) {s : State}
    (hc : s.coreUp = true) : exec (.chainHandoff cell requester owner) s = .next (s.handoffChain cell requester owner).settle :=
  complete_of_eq hw (if_pos hc)

theorem wf_cellFree {cell requester : Nat} {asOwner : Bool} (h : Instr.wf (.cellFree cell requester asOwner) = true) :
    cell < 786432 ∧ requester < 292 := by
  simpa [Instr.wf] using h

theorem State.freeRequest_of_unused {s : State} {cell : Nat} (h : linkUsed (s.link cell) = false) (requester : Nat) (asOwner : Bool) :
    s.freeRequest cell requester asOwner = s.doubleFree cell requester := by
  simp [State.freeRequest, h]

theorem State.freeRequest_of_foreign {s : State} {cell requester : Nat} (hused : linkUsed (s.link cell) = true)
    (howned : linkOwned (s.link cell) = true) (htag : linkTag (s.link cell) ≠ requester) (asOwner : Bool) :
    s.freeRequest cell requester asOwner = s.ownerError cell requester := by
  cases asOwner with
  | false => simp [State.freeRequest, hused, State.releaseCell_of_foreign hused howned htag]
  | true => simp [State.freeRequest, hused, htag]

theorem State.freeRequest_cell {s : State} {cell : Nat} (hused : linkUsed (s.link cell) = true) (requester : Nat) :
    s.freeRequest cell requester false = s.releaseCell requester cell := by
  simp [State.freeRequest, hused]

theorem State.freeRequest_chain {s : State} {cell requester : Nat} (hused : linkUsed (s.link cell) = true)
    (howned : linkOwned (s.link cell) = true) (htag : linkTag (s.link cell) = requester) :
    s.freeRequest cell requester true = (s.chainFrom 64 cell).foldl (fun (t : State) i => t.releaseCell requester i) s := by
  simp [State.freeRequest, hused, howned, htag]

theorem State.freeRequest_counted {s : State} {cell : Nat} (hused : linkUsed (s.link cell) = true) (howned : linkOwned (s.link cell) = false)
    (requester : Nat) : s.freeRequest cell requester true = s.ownerError cell requester := by
  simp [State.freeRequest, hused, howned]

/-- An owner's free of a chain frees its first cell, and leaves the cells outside the chain. -/
theorem State.freeChain_links {s : State} {cell requester : Nat} (hused : linkUsed (s.link cell) = true)
    (howned : linkOwned (s.link cell) = true) (htag : linkTag (s.link cell) = requester) :
    (s.freeRequest cell requester true).link cell = bitsSet (s.link cell) 47 1 0 ∧
      ∀ i, i ∉ s.chainFrom 64 cell → (s.freeRequest cell requester true).link i = s.link i := by
  rw [State.freeRequest_chain hused howned htag]
  refine ⟨?_, fun i hi => foldl_releaseCell_link_other requester hi s⟩
  obtain ⟨is, hchain⟩ := s.chainFrom_head 63 cell
  have hunused : linkUsed ((s.freeCell cell).link cell) = false := by rw [s.link_freeCell_same, linkUsed_freed]
  rw [hchain, List.foldl_cons, State.releaseCell_of_owner hused howned htag, foldl_releaseCell_link_unused requester is hunused,
    s.link_freeCell_same]

/-- A cell without a charge that is freed adds one to the free cells, and changes nothing else outside the link words. -/
theorem State.freeCell_uncharged {s : State} {i : Nat} (h : s.chargeOf i = none) :
    (s.freeCell i).settle.get R.BUF_POOL.FREE = (s.get R.BUF_POOL.FREE + 1) % 2 ^ 20 ∧
      s.kept { (s.freeCell i).settle with buf := s.buf } [] fun k => k = R.BUF_POOL.FREE.off := by
  have hsame : s.uncharge i = s := by rw [State.uncharge, h]
  unfold State.freeCell
  rw [hsame]
  refine ⟨?_, State.kept_buf rfl rfl rfl fun k hk => ?_⟩
  · rw [State.settle_get _ (by decide)]
    exact State.get_set_same _ _ _ (by decide)
  · exact State.word_set_other _ hk

end Sys2Proof.Machine
end

section
/-! SUPPORT. Frames that take cells and frames that end: what a landing cell makes of its frame, and what an overrun, a completed transmit
descriptor and a stall that ends leave of the frames on their way (R154, R164, R261, R270, R447). -/
namespace Sys2Proof.Machine

/-! ### What host queues leave of packet memory (R437, R444, R447, R449) -/

section
variable (s : State)

@[simp] theorem State.toHost_buf (link : Nat) (e : Emit) : (s.toHost link e).buf = s.buf := ite_keeps rfl rfl

@[simp] theorem State.syncTags_buf : s.syncTags.buf = s.buf := ite_keeps rfl rfl

@[simp] theorem State.sendPiece_buf (w : HostWait) : (s.sendPiece w).buf = s.buf :=
  (State.syncTags_buf _).trans (State.toHost_buf ..)

theorem State.serveTags_buf (n : Nat) : (s.serveTags n).buf = s.buf := by
  induction n generalizing s with
  | zero => rfl
  | succ n ih =>
    unfold State.serveTags
    split
    · rfl
    · exact (ih _).trans (s.sendPiece_buf _)

@[simp] theorem State.queueRead_buf (q : Nat) (req : HostReq) (addr len : Nat) (ns ro : Bool) : (s.queueRead q req addr len ns ro).buf = s.buf :=
  State.serveTags_buf ..

@[simp] theorem State.countCompletion_buf (q : Nat) : (s.countCompletion q).buf = s.buf :=
  ite_keeps (State.toHost_buf ..) rfl

@[simp] theorem State.txDone_buf (q number status : Nat) : (s.txDone q number status).buf = s.buf := State.countCompletion_buf ..

theorem State.startTx_buf (q n : Nat) : (s.startTx q n).buf = s.buf := by
  induction n generalizing s with
  | zero => rfl
  | succ n ih =>
    unfold State.startTx
    split
    · rfl
    · split
      · rfl
      · exact ite_keeps ((ih _).trans (s.txDone_buf ..)) (s.queueRead_buf ..)

@[simp] theorem State.fetchQueue_buf (q : Nat) : (s.fetchQueue q).buf = s.buf := ite_keeps rfl (s.queueRead_buf ..)

@[simp] theorem State.runQueue_buf (q : Nat) : (s.runQueue q).buf = s.buf := (State.fetchQueue_buf ..).trans (s.startTx_buf ..)

/-! ### Frames that land (R261, R270) -/

/-- A frame that replaces one of its number is among the frames on their way. -/
theorem State.mem_putRx {f g : RxFrame} (hf : f ∈ s.buf.rx) (hid : g.pkt.id = f.pkt.id) : g ∈ (s.putRx g).buf.rx :=
  List.mem_map.mpr ⟨f, hf, if_pos hid.symm⟩

/-- A frame with a cell more is among the frames on their way after its last cell too, whose descriptor is then written back. -/
theorem State.landed_spec {g : RxFrame} (hg : g ∈ s.buf.rx) :
    (∃ h ∈ (s.landed g).buf.rx, h.pkt.id = g.pkt.id ∧ h.pkt.cells = g.pkt.cells) ∧ (s.landed g).buf.links = s.buf.links := by
  have hstart : ∀ u : State, u = (if g.pkt.src < 96 then s else s.putRx { g with pkt := { g.pkt with startNs := s.ns }, writeBack := none }) →
      (∃ h ∈ u.buf.rx, h.pkt.id = g.pkt.id ∧ h.pkt.cells = g.pkt.cells) ∧ u.buf.links = s.buf.links := by
    rintro u rfl
    split
    · exact ⟨⟨g, hg, rfl, rfl⟩, rfl⟩
    · exact ⟨⟨_, s.mem_putRx hg rfl, rfl, rfl⟩, rfl⟩
  unfold State.landed
  split
  · exact ⟨⟨g, hg, rfl, rfl⟩, rfl⟩
  · dsimp only
    split
    · exact hstart _ rfl
    · rw [State.runQueue_buf, State.txDone_buf]
      exact hstart _ rfl

/-- The state in which a frame has cell `i`, charged as `kind`, linked behind its last. -/
def State.landedCell (s : State) (f : RxFrame) (i kind : Nat) : State :=
  let k := f.pkt.cells.length
  let s1 := (s.takeCell i (linkWord f.pkt.owner 1 (decide (f.pkt.len ≤ 256 * (k + 1))) (fillOf f.pkt.len k) 0)).charge i f.pkt.acct kind
  match f.pkt.cells.getLast? with
  | some j => s1.setLink j (bitsSet (s1.link j) 0 20 i)
  | none => s1

/-- The frame with cell `i` last. -/
def RxFrame.withCell (f : RxFrame) (i : Nat) : RxFrame := { f with pkt := { f.pkt with cells := f.pkt.cells ++ [i] } }

theorem State.landCell_eq {s : State} {f : RxFrame} {kind : Nat} (h : s.landingKind f.pkt.acct = some kind) (i : Nat) :
    s.landCell f (some i) = some (s.landedCell f i kind, (f.withCell i).pkt) := by
  unfold State.landCell
  simp only [h]
  rfl

theorem State.landedCell_packets (f : RxFrame) (i kind : Nat) : (s.landedCell f i kind).packets = s.packets := by
  unfold State.landedCell
  dsimp only
  split
  · exact State.packets_charge ..
  · exact State.packets_charge ..

/-- The first cell of a frame holds the link word of a frame without a second. -/
theorem State.link_landedCell_first {f : RxFrame} (h : f.pkt.cells = []) (i kind : Nat) :
    (s.landedCell f i kind).link i = linkWord f.pkt.owner 1 (decide (f.pkt.len ≤ 256)) (fillOf f.pkt.len 0) 0 := by
  unfold State.landedCell
  rw [h]
  refine (congrArg (fun m => SMap.find (fun _ => 0) m i) (State.links_charge ..)).trans ?_
  exact SMap.find_put_same ..

/-! ### Stalls and overruns (R164, R270) -/

theorem State.endStall_rx (k : Nat) : (s.endStall k).buf.rx = s.buf.rx := by
  cases h : (s.prism k).stall with
  | none => rw [State.endStall, h]
  | some x => exact (State.endStall_spec h).2.1

theorem State.endStallOf_rx (id : Nat) : (s.endStallOf id).buf.rx = s.buf.rx := by
  unfold State.endStallOf
  refine foldl_keeps (g := fun t : State => t.buf.rx) (fun t k => ?_) (List.range 16) s
  split
  · exact t.endStall_rx k
  · rfl

theorem State.rxOverrun_rx (f : RxFrame) : (s.rxOverrun f).buf.rx = s.buf.rx.filter fun g => g.pkt.id != f.pkt.id := by
  unfold State.rxOverrun
  dsimp only
  refine (State.rx_of_packets (s := (s.dropRx f.pkt.id).releaseCells f.pkt) rfl).trans ?_
  exact State.rx_of_packets (State.packets_releaseCells ..)

end

theorem exec_cellWrite {src bank : Nat} (hw : Instr.wf (.cellWrite src bank) = true) (s : State) :
    exec (.cellWrite src bank) s = .next (s.cellWrite src bank).settle := complete_of hw ..

theorem State.writing_mem {s : State} {src : Nat} {f : RxFrame} (h : s.writing src = some f) : f ∈ s.buf.rx := List.mem_of_find?_eq_some h

/-- A whole frame that the aperture has not taken takes its next cell. -/
theorem State.cellWrite_lands {s : State} {src bank i kind : Nat} {f : RxFrame} (hc : s.coreUp = true) (hf : s.writing src = some f)
    (hi : s.freeIn bank = some i) (ht : f.taken = false) (hk : s.landingKind f.pkt.acct = some kind) (hcut : f.cut = false) :
    s.cellWrite src bank = ((s.landedCell f i kind).putRx (f.withCell i)).landed (f.withCell i) := by
  unfold State.cellWrite
  rw [if_pos hc, hf, hi]
  dsimp only
  rw [if_neg (ne_true_of_eq_false ht), State.landCell_eq hk, if_neg fun h => ne_true_of_eq_false hcut h.1]
  rfl

/-- A port frame without a landing cell leaves the frames on their way. -/
theorem State.cellWrite_overruns {s : State} {src bank i : Nat} {f : RxFrame} (hc : s.coreUp = true) (hsrc : src < 96)
    (hf : s.writing src = some f) (hi : s.freeIn bank = some i) (ht : f.taken = false) (hk : s.landingKind f.pkt.acct = none) :
    (s.cellWrite src bank).buf.rx = s.buf.rx.filter fun g => g.pkt.id != f.pkt.id := by
  have hland : s.landCell f (some i) = none := by
    unfold State.landCell
    simp only [hk]
  unfold State.cellWrite
  rw [if_pos hc, hf, hi]
  dsimp only
  rw [if_neg (ne_true_of_eq_false ht), hland]
  dsimp only
  rw [if_pos hsrc]
  exact ite_keeps (g := fun t : State => t.buf.rx) ((State.endStallOf_rx ..).trans (s.rxOverrun_rx f)) (s.rxOverrun_rx f)

/-! ### The end of a cut-through frame (R154, R292) -/

theorem exec_frameEndReport {n : Nat} (hn : n < 96) (s : State) : exec (.frameEndReport n) s = .next (s.frameEnd n).settle :=
  complete_of (decide_eq_true hn) ..

/-- The frame of a good end that the aperture has not taken yet: whole, counted, its bound running from now. -/
def RxFrame.endedAt (f : RxFrame) (ns : Nat) : RxFrame := { f with cut := false, countedNs := some ns, pkt := { f.pkt with startNs := ns } }

theorem State.frameEnd_good {s : State} {n : Nat} {f : RxFrame} (hc : s.coreUp = true) (hf : s.endingFrame n = some f) (hb : f.bad = none)
    (ht : f.taken = false) : s.frameEnd n = (s.countGoodAt n f.wire s.ns).putRx (f.endedAt s.ns) := by
  unfold State.frameEnd RxFrame.endedAt
  rw [if_pos hc, hf]
  dsimp only
  rw [hb]
  dsimp only
  rw [ht]
  rfl

theorem State.frameEnd_bad {s : State} {n j : Nat} {f : RxFrame} (hc : s.coreUp = true) (hf : s.endingFrame n = some f) (hb : f.bad = some j)
    (ht : f.taken = false) : s.frameEnd n = ((s.countAt (R.MAC_CNT.COUNT n j) 1 s.ns).dropRx f.pkt.id).releaseCells f.pkt := by
  unfold State.frameEnd
  rw [if_pos hc, hf]
  dsimp only
  rw [hb]
  dsimp only
  rw [ht]
  rfl

theorem State.countAt_word_other (s : State) {l : Loc} {off : Nat} (h : off ≠ l.off) (k t : Nat) : (s.countAt l k t).word off = s.word off :=
  State.word_setWord_other s _ h

theorem State.countAt_still (s : State) (l : Loc) (k t : Nat) : (s.countAt l k t).still = s.still := rfl

theorem State.countAt_out (s : State) (l : Loc) (k t : Nat) : (s.countAt l k t).out = s.out := rfl

theorem State.countAt_buf (s : State) (l : Loc) (k t : Nat) : (s.countAt l k t).buf = s.buf := rfl

/-- A good frame counts once, with its bytes. -/
theorem State.countGoodAt_word (s : State) (n len t : Nat) :
    (s.countGoodAt n len t).word (R.MAC_CNT.COUNT n 0).off = s.word (R.MAC_CNT.COUNT n 0).off + 1 ∧
      ∀ off, ¬ (off = (R.MAC_CNT.COUNT n 0).off ∨ off = (R.MAC_CNT.COUNT n 1).off) → (s.countGoodAt n len t).word off = s.word off := by
  unfold State.countGoodAt
  refine ⟨?_, fun off hoff => ?_⟩
  · rw [State.countAt_word_other _ (by simp [R.MAC_CNT.COUNT]), State.countAt_one]
  · obtain ⟨h0, h1⟩ := not_or.mp hoff
    rw [State.countAt_word_other _ h1, State.countAt_word_other _ h0]

/-- The good end of a frame that the aperture has not taken yet changes its counts and the frame alone. -/
theorem State.kept_countGoodAt (s : State) (n len t : Nat) (g : RxFrame) :
    s.kept { ((s.countGoodAt n len t).putRx g).settle with buf := s.buf } [] fun k => k = (R.MAC_CNT.COUNT n 0).off ∨ k = (R.MAC_CNT.COUNT n 1).off := by
  have hstill : (s.countGoodAt n len t).still = s.still := (State.countAt_still ..).trans (s.countAt_still ..)
  have hout : (s.countGoodAt n len t).out = s.out := (State.countAt_out ..).trans (s.countAt_out ..)
  exact State.kept_buf rfl (congrArg (fun u : State => ({ u with buf := s.buf } : State)) hstill) hout (s.countGoodAt_word n len t).2

end Sys2Proof.Machine
end

section
/-! SUPPORT. The aperture's decision: what it leaves of the frames on their way, and that it does not depend on the counters of an open exposure
(R271, R303, R556). -/
namespace Sys2Proof.Machine

/-! ### What the decision leaves (R271, R298, R303) -/

section
variable (s : State)

theorem State.packets_sat (l : Loc) (k : Nat) : (s.sat l k).packets = s.packets := rfl

theorem State.packets_deadlineAdmit (k b e c lm n need : Nat) : (s.deadlineAdmit k b e c lm n need).2.packets = s.packets := by
  unfold State.deadlineAdmit
  dsimp only
  split
  · rfl
  · split
    · rfl
    · split
      · rfl
      · exact ite_keeps rfl rfl

theorem State.packets_admission (k b e c lm n : Nat) (p : Pkt) : (s.admission k b e c lm n p).2.packets = s.packets := by
  unfold State.admission
  split
  · rfl
  · split
    · split
      · rfl
      · exact s.packets_deadlineAdmit ..
    · rfl

theorem State.packets_decide (k b e c lm n : Nat) (p : Pkt) : (s.decide_ k b e c lm n p).2.2.packets = s.packets := by
  unfold State.decide_
  dsimp only
  split
  · rfl
  · split
    · split
      · rfl
      · split
        · rfl
        · exact State.packets_admission ..
      · exact State.packets_admission ..
    · exact s.packets_admission ..

theorem State.packets_chargeSplit (a c : Nat) (is : List Nat) (r : Nat) : (s.chargeSplit a c is r).packets = s.packets := by
  induction is generalizing s r with
  | nil => cases r <;> rfl
  | cons i is ih =>
    cases r with
    | zero => exact (ih _ _).trans (s.packets_charge ..)
    | succ r => exact (ih _ _).trans (s.packets_charge ..)

theorem State.packets_addCharge (a kind n : Nat) : (s.addCharge a kind n).packets = s.packets :=
  State.packets_of_unpriced (s.unpriced_addCharge ..)

theorem State.packets_enterCharge (p : Pkt) (c n need : Nat) : (s.enterCharge p c n need).1.packets = s.packets := by
  have hcells := s.packets_chargeSplit p.acct c p.cells (n - need)
  have hadd := fun (u : State) (a kind n : Nat) (hu : u.packets = s.packets) => (u.packets_addCharge a kind n).trans hu
  have hreserved := ite_keeps (g := State.packets) (c := n - need - p.cells.length = 0) hcells
    (hadd _ p.acct 0 (n - need - p.cells.length) hcells)
  exact ite_keeps (g := State.packets) hreserved (hadd _ _ _ _ hreserved)

theorem State.packets_loupeSelect (k : Nat) (p : Pkt) : (s.loupeSelect k p).1.packets = s.packets := by
  unfold State.loupeSelect
  dsimp only
  split
  · rfl
  · rfl

theorem State.packets_acceptPkt (k e c n need rel iris : Nat) (mc mp : Bool) (p : Pkt) :
    (s.acceptPkt k e c n need rel iris mc mp p).1.packets = s.packets := by
  have hloupe := fun (q : Pkt) => (State.packets_loupeSelect (s.enterCharge p c n need).1 k q).trans (s.packets_enterCharge p c n need)
  exact ite_keeps (g := State.packets) (hloupe _) (hloupe _)

theorem State.packets_refuseFrame (k : Nat) (police : Bool) (p : Pkt) : (s.refuseFrame k police p).packets = s.packets :=
  s.packets_releaseCells _

/-- The outcome of a decision on a frame that enters at `k`: the frames on their way stay, and one that is taken is the last that waits there. -/
def State.decidedAt (k : Nat) (r : State × Bool × Pkt) : Prop :=
  r.1.buf.rx = s.buf.rx ∧ SMap.find (fun _ => []) r.1.buf.toPrism k =
    SMap.find (fun _ => []) s.buf.toPrism k ++ (if r.2.1 then [r.2.2] else [])

theorem State.decided_refused {s u : State} (h : u.packets = s.packets) (k : Nat) (q : Pkt) : s.decidedAt k (u, false, q) :=
  ⟨State.rx_of_packets h, (congrArg (fun m => SMap.find (fun _ => []) m k) (State.toPrism_of_packets h)).trans (List.append_nil _).symm⟩

theorem State.decided_taken {s u : State} (h : u.packets = s.packets) (k : Nat) (q : Pkt) : s.decidedAt k (u.toPrism k q, true, q) :=
  ⟨(State.rx_of_packets h :), (SMap.find_put_same ..).trans (congrArg (fun m => SMap.find (fun _ => []) m k ++ [q]) (State.toPrism_of_packets h))⟩

theorem State.aperture_decidedAt (src : Nat) (tag : Option Nat) (lm n : Nat) (p : Pkt) :
    s.decidedAt (s.entryOf src) (s.aperture src tag lm n p) := by
  have hpackets := s.packets_decide (s.entryOf src % 16) (s.get R.MCODE_ACTIVE.BANK)
    (s.sourceClass src tag (decide (p.tagNibble ≥ 8)) p.bytes).1 (s.sourceClass src tag (decide (p.tagNibble ≥ 8)) p.bytes).2 lm n p
  unfold State.aperture
  dsimp only
  generalize s.decide_ _ _ _ _ lm n p = d at hpackets ⊢
  have hrefuse := fun (police : Bool) => (d.2.2.packets_refuseFrame (s.entryOf src % 16) police p).trans hpackets
  split
  · exact State.decided_refused (hrefuse true) ..
  · refine State.decided_refused ?_ ..
    split
    · exact (State.packets_sat ..).trans (hrefuse false)
    · exact hrefuse false
  · exact State.decided_taken ((State.packets_acceptPkt ..).trans hpackets) ..

/-- An aperture that refuses every packet takes none. -/
theorem State.aperture_refuses {src : Nat} (h : s.refusesAll (s.entryOf src % 16) = true) (tag : Option Nat) (lm n : Nat) (p : Pkt) :
    (s.aperture src tag lm n p).2.1 = false := by
  unfold State.aperture State.decide_
  simp only [h, if_true]

/-! ### The counters of an open exposure (R556) -/

/-- The state with another exposure open. -/
def State.exposing (e : Option Exposure) : State := { s with cnt := { s.cnt with exposure := e } }

variable (x : Option Exposure)

@[simp] theorem State.exposing_get (l : Loc) : (s.exposing x).get l = s.get l := rfl
@[simp] theorem State.exposing_bit (l : Loc) : (s.exposing x).bit l = s.bit l := rfl
@[simp] theorem State.exposing_ns : (s.exposing x).ns = s.ns := rfl
@[simp] theorem State.exposing_buf : (s.exposing x).buf = s.buf := rfl
@[simp] theorem State.exposing_aprRec (e : Nat) : (s.exposing x).aprRec e = s.aprRec e := rfl
@[simp] theorem State.exposing_set (l : Loc) (v : Nat) : (s.exposing x).set l v = (s.set l v).exposing x := rfl
@[simp] theorem State.exposing_dec (l : Loc) (k : Nat) : (s.exposing x).dec l k = (s.dec l k).exposing x := rfl
theorem State.exposing_setBuf (b : BufState) : ({ s.exposing x with buf := b } : State) = ({ s with buf := b } : State).exposing x := rfl

theorem State.exposing_ite (c : Prop) [Decidable c] (a b : State) :
    (if c then a.exposing x else b.exposing x) = (if c then a else b).exposing x := (apply_ite (fun t : State => t.exposing x) c a b).symm

@[simp] theorem State.exposing_peak (l : Loc) (v : Nat) : (s.exposing x).peak l v = (s.peak l v).exposing x := by
  unfold State.peak
  exact State.exposing_ite x (s.get l < v) (s.set l (min v (2 ^ l.w - 1))) s

@[simp] theorem State.exposing_subCharge (a kind n : Nat) : (s.exposing x).subCharge a kind n = (s.subCharge a kind n).exposing x := by
  unfold State.subCharge
  simp only [State.exposing_dec, State.exposing_buf, State.exposing_setBuf, State.exposing_ite]

@[simp] theorem State.exposing_addCharge (a kind n : Nat) : (s.exposing x).addCharge a kind n = (s.addCharge a kind n).exposing x := by
  unfold State.addCharge
  simp only [State.exposing_set, State.exposing_get, State.exposing_peak, State.exposing_buf, State.exposing_setBuf, State.exposing_ite]

theorem State.exposing_creditBack (k : Nat) : (s.exposing x).creditBack k = (s.creditBack k).exposing x := by
  have hiris : (s.exposing x).iris (k % 64) = s.iris (k % 64) := rfl
  have hset : ∀ v, (s.exposing x).setIris (k % 64) v = (s.setIris (k % 64) v).exposing x := fun _ => rfl
  unfold State.creditBack
  simp only [hiris, hset, State.exposing_dec, State.exposing_ite]

theorem State.exposing_uncharge (i : Nat) : (s.exposing x).uncharge i = (s.uncharge i).exposing x := by
  unfold State.uncharge
  have hcharge : (s.exposing x).chargeOf i = s.chargeOf i := rfl
  rw [hcharge]
  cases s.chargeOf i with
  | none => rfl
  | some c =>
    simp only [State.exposing_buf, State.exposing_setBuf, State.exposing_subCharge, State.exposing_creditBack, State.exposing_ite]

theorem State.exposing_charge (i a kind : Nat) : (s.exposing x).charge i a kind = (s.charge i a kind).exposing x := by
  unfold State.charge
  simp only [State.exposing_uncharge, State.exposing_buf, State.exposing_setBuf, State.exposing_addCharge]

theorem State.exposing_chargeSplit (a c : Nat) (is : List Nat) (r : Nat) :
    (s.exposing x).chargeSplit a c is r = (s.chargeSplit a c is r).exposing x := by
  induction is generalizing s r with
  | nil => cases r <;> rfl
  | cons i is ih =>
    cases r with
    | zero => rw [State.chargeSplit, State.chargeSplit, s.exposing_charge, ih]
    | succ r => rw [State.chargeSplit, State.chargeSplit, s.exposing_charge, ih]

theorem State.exposing_enterCharge (p : Pkt) (c n need : Nat) :
    (s.exposing x).enterCharge p c n need = ((s.enterCharge p c n need).1.exposing x, (s.enterCharge p c n need).2) := by
  unfold State.enterCharge
  simp only [State.exposing_chargeSplit, State.exposing_addCharge, State.exposing_ite]

theorem State.exposing_deadlineAdmit (k b e c lm n need : Nat) :
    (s.exposing x).deadlineAdmit k b e c lm n need = ((s.deadlineAdmit k b e c lm n need).1, (s.deadlineAdmit k b e c lm n need).2.exposing x) := by
  have hprojection : ∀ r, (s.exposing x).projection e c r lm n = s.projection e c r lm n := fun _ => rfl
  have hbudget : ∀ r, (s.exposing x).budget k b c r = s.budget k b c r := fun _ => rfl
  have hfixed : (s.exposing x).fixedBeats k b = s.fixedBeats k b := rfl
  have hclock : ∀ r v, (s.exposing x).setVc r v = (s.setVc r v).exposing x := fun _ _ => rfl
  have hcrypto : ∀ (u : State) (a : AprState), ({ u.exposing x with apr := a } : State) = ({ u with apr := a } : State).exposing x := fun _ _ => rfl
  have hapr : ∀ u : State, (u.exposing x).apr = u.apr := fun _ => rfl
  unfold State.deadlineAdmit
  simp only [hprojection, hbudget, hfixed, hclock, hapr, hcrypto, State.exposing_ite, State.exposing_aprRec, State.exposing_get, State.exposing_bit,
    State.exposing_ns]
  split
  · rfl
  · split
    · rfl
    · split
      · rfl
      · rfl

theorem State.exposing_admission (k b e c lm n : Nat) (p : Pkt) :
    (s.exposing x).admission k b e c lm n p = ((s.admission k b e c lm n p).1, (s.admission k b e c lm n p).2.exposing x) := by
  have hbuffer : (s.exposing x).bufferTest p.acct c n p.cells.length ((s.exposing x).sharedCells p) =
    s.bufferTest p.acct c n p.cells.length (s.sharedCells p) := rfl
  unfold State.admission
  simp only [hbuffer, State.exposing_bit, State.exposing_deadlineAdmit]
  split
  · rfl
  · split
    · split <;> rfl
    · rfl

theorem State.exposing_decide (k b e c lm n : Nat) (p : Pkt) :
    (s.exposing x).decide_ k b e c lm n p =
      ((s.decide_ k b e c lm n p).1, (s.decide_ k b e c lm n p).2.1, (s.decide_ k b e c lm n p).2.2.exposing x) := by
  have hrefuses : (s.exposing x).refusesAll k = s.refusesAll k := rfl
  have hrecord : ∀ r, (s.exposing x).setAprRec e r = (s.setAprRec e r).exposing x := fun _ => rfl
  unfold State.decide_
  simp only [hrefuses, hrecord, State.exposing_aprRec, State.exposing_ns, State.exposing_get, State.exposing_admission]
  split
  · rfl
  · split
    · split
      · rfl
      · split <;> rfl
      · rfl
    · rfl

theorem State.exposing_acceptPkt (k e c n need rel iris : Nat) (mc mp : Bool) (p : Pkt) :
    ((s.exposing x).acceptPkt k e c n need rel iris mc mp p).2 = (s.acceptPkt k e c n need rel iris mc mp p).2 := by
  have hloupe : ∀ (u : State) (q : Pkt), ((u.exposing x).loupeSelect k q).2 = (u.loupeSelect k q).2 := by
    intro u q
    have hword : ∀ off, (u.exposing x).word off = u.word off := fun _ => rfl
    unfold State.loupeSelect
    simp only [hword, State.exposing_bit, State.exposing_get]
    split <;> rfl
  unfold State.acceptPkt
  simp only [State.exposing_enterCharge, hloupe]
  rfl

/-- The decision does not look at the counters of an open exposure. -/
theorem State.exposing_aperture (src : Nat) (tag : Option Nat) (lm n : Nat) (p : Pkt) :
    ((s.exposing x).aperture src tag lm n p).2 = (s.aperture src tag lm n p).2 := by
  have hentry : (s.exposing x).entryOf src = s.entryOf src := rfl
  have hclass : ∀ stripped, (s.exposing x).sourceClass src tag stripped p.bytes = s.sourceClass src tag stripped p.bytes := fun _ => rfl
  unfold State.aperture
  simp only [hentry, hclass, State.exposing_decide, State.exposing_get, State.exposing_ns]
  split
  · rfl
  · rfl
  · exact congrArg (fun q => (true, q)) (State.exposing_acceptPkt ..)

/-- What a frame that counts in the next exposure changes (R556). -/
theorem State.countLater_exposing (f : RxFrame) : ∃ y, s.countLater f = s.exposing y := by
  unfold State.countLater
  split
  · split
    · exact ⟨_, rfl⟩
    · exact ⟨s.cnt.exposure, rfl⟩
  · exact ⟨s.cnt.exposure, rfl⟩

end

theorem exec_apertureDecision {src : Nat} (h : src < 384) (s : State) : exec (.apertureDecision src) s = .next (s.decideNext src).settle :=
  complete_of (decide_eq_true h) ..

/-- The decision on a whole frame is that of the state without it. -/
theorem State.decideNext_whole {s : State} {src : Nat} {f : RxFrame} (hc : s.coreUp = true) (hf : s.readyFrame src = some f)
    (hcut : f.cut = false) :
    ∃ y, s.decideNext src = (((s.dropRx f.pkt.id).exposing y).aperture src f.outerTag f.len (cellsOf f.pkt.len) f.pkt).1 := by
  obtain ⟨y, hy⟩ := s.countLater_exposing f
  refine ⟨y, ?_⟩
  unfold State.decideNext
  rw [if_neg (by simp [hc]), hf]
  dsimp only
  rw [if_neg (ne_true_of_eq_false hcut), hy]
  rfl

end Sys2Proof.Machine
end

section
/-! SUPPORT. Cells of packet memory are taken and freed: the clauses of the statement, from what frees, landings, decisions and frame ends do (R154,
R261, R262, R265, R266, R270, R292, R303). -/
namespace Sys2Proof.Machine

/-- Settles O31: a clause for each request, landing, decision and frame end. -/
theorem cellsAreTakenAndFreed : Obligations.CellsAreTakenAndFreed := by
  refine ⟨?refused, ?cell, ?chain, ?handoff, ?lands, ?overruns, ?decides, ?good, ?bad⟩
  case refused =>
    intro s cell requester asOwner hw hc
    obtain ⟨hcell, hreq⟩ := wf_cellFree hw
    refine ⟨fun hunused => ⟨_, exec_cellFree hw hc, ?_⟩, fun hused howned htag => ⟨_, exec_cellFree hw hc, ?_⟩⟩
    · rw [State.freeRequest_of_unused hunused, State.settle_buf, s.doubleFree_buf, s.doubleFree_eq]
      exact ⟨State.refused_latches hc rfl .., State.refused_counts s rfl (by decide) .., rfl,
        fun hvalid => State.refused_captures hvalid rfl 0 20 (by omega) (by omega)⟩
    · rw [State.freeRequest_of_foreign hused howned htag]
      exact State.ownerError_spec hc ..
  case cell =>
    intro s cell requester hw hc hused
    have hlink : ∀ i, (s.freeRequest cell requester false).settle.link i = (s.releaseCell requester cell).link i := fun i => by
      rw [State.freeRequest_cell hused, State.link, State.settle_buf, State.link]
    refine ⟨fun howned htag => ⟨_, exec_cellFree hw hc, ?_⟩, fun howned htag => ⟨_, exec_cellFree hw hc, ?_⟩,
      fun howned htag => ⟨_, exec_cellFree hw hc, ?_⟩⟩
    · simp only [hlink, State.releaseCell_of_owner hused howned htag]
      refine ⟨s.link_freeCell_same cell, ?_, fun i hi => s.link_freeCell_other hi, fun hcharge => ?_⟩
      · rw [State.freeRequest_cell hused, State.releaseCell_of_owner hused howned htag, State.chargeOf, State.settle_buf]
        exact s.chargeOf_freeCell cell
      · rw [State.freeRequest_cell hused, State.releaseCell_of_owner hused howned htag]
        exact State.freeCell_uncharged hcharge
    · simp only [hlink, State.releaseCell_of_shared requester hused howned htag]
      refine ⟨s.link_setLink_same .., fun i hi => s.link_setLink_other _ hi, ?_⟩
      rw [State.freeRequest_cell hused, State.releaseCell_of_shared requester hused howned htag]
      exact State.kept_of_buf rfl
    · simp only [hlink, State.releaseCell_of_last requester hused howned htag]
      exact ⟨s.link_freeCell_same cell, fun i hi => s.link_freeCell_other hi⟩
  case chain =>
    intro s cell requester hw hc hused
    refine ⟨fun howned htag => ⟨_, exec_cellFree hw hc, ?_⟩, fun howned => ⟨_, exec_cellFree hw hc, ?_⟩⟩
    · simp only [State.link, State.settle_buf]
      exact State.freeChain_links hused howned htag
    · rw [State.freeRequest_counted hused howned]
      exact State.ownerError_spec hc ..
  case handoff =>
    intro s cell requester owner hw hc
    refine ⟨fun hused howned htag => ⟨_, exec_chainHandoff hw hc, ?_⟩, fun hrefused => ⟨_, exec_chainHandoff hw hc, ?_⟩⟩
    · have howner : owner < 4096 := by
        have hbounds : (cell < 786432 ∧ requester < 292) ∧ owner < 292 := by simpa [Instr.wf] using hw
        omega
      have hrenamed : s.handoffChain cell requester owner = s.renamed owner (s.chainFrom 64 cell) := by
        simp [State.handoffChain, hused, howned, htag, State.renamed]
      rw [hrenamed]
      simp only [State.link, State.settle_buf]
      exact ⟨fun i hi => State.linkTag_renamed howner hi s, fun i hi => State.link_renamed_other hi s owner, State.kept_of_buf (s.renamed_buf ..)⟩
    · have herror : s.handoffChain cell requester owner = s.ownerError cell requester := if_neg (ne_true_of_eq_false hrefused)
      rw [herror]
      exact State.ownerError_spec hc ..
  case lands =>
    intro s src bank i kind f hw hc hf hi ht hk hcut
    have hmem : f ∈ (s.landedCell f i kind).buf.rx := by
      rw [State.rx_of_packets (s.landedCell_packets f i kind)]
      exact State.writing_mem hf
    obtain ⟨hframe, hlinks⟩ := State.landed_spec _ (State.mem_putRx (g := f.withCell i) _ hmem rfl)
    refine ⟨_, exec_cellWrite hw s, ?_⟩
    rw [State.cellWrite_lands hc hf hi ht hk hcut, State.link, State.settle_buf, hlinks]
    exact ⟨hframe, fun hfirst => s.link_landedCell_first hfirst i kind⟩
  case overruns =>
    intro s src bank i f hw hc hsrc hf hi ht hk
    refine ⟨_, exec_cellWrite hw s, fun g hg => ?_⟩
    rw [State.settle_buf, State.cellWrite_overruns hc hsrc hf hi ht hk] at hg
    exact bne_iff_ne.mp (List.mem_filter.mp hg).2
  case decides =>
    intro s u src f hsrc hc hf hcut hu
    obtain ⟨y, hy⟩ := State.decideNext_whole hc hf hcut
    obtain rfl : u = s.dropRx f.pkt.id := hu
    obtain ⟨hrx, hwaits⟩ := ((s.dropRx f.pkt.id).exposing y).aperture_decidedAt src f.outerTag f.len (cellsOf f.pkt.len) f.pkt
    rw [State.exposing_aperture] at hwaits
    refine ⟨_, exec_apertureDecision hsrc s, ?_⟩
    rw [State.settle_buf, hy]
    exact ⟨hrx, hwaits, fun hrefuses => (s.dropRx f.pkt.id).aperture_refuses hrefuses ..⟩
  case good =>
    intro s n f hn hc hf hb ht
    refine ⟨_, exec_frameEndReport hn s, ?_⟩
    rw [State.frameEnd_good hc hf hb ht]
    refine ⟨?_, ?_, s.kept_countGoodAt ..⟩
    · rw [State.settle_word _ (by simp only [R.MAC_CNT.COUNT, followReg]; omega)]
      exact (s.countGoodAt_word n f.wire s.ns).1
    · rw [State.settle_buf]
      exact congrArg (fun b : BufState => b.rx.map fun g => if g.pkt.id = f.pkt.id then f.endedAt s.ns else g)
        ((State.countAt_buf ..).trans (s.countAt_buf ..))
  case bad =>
    intro s n j f hn hc hf hb ht
    refine ⟨_, exec_frameEndReport hn s, ?_⟩
    rw [State.frameEnd_bad hc hf hb ht, State.settle_buf]
    exact State.rx_of_packets (State.packets_releaseCells ..)

end Sys2Proof.Machine
end

section
/-! SUPPORT. What memory requests, spill and refill leave of packet memory, which packets of a leaf queue keep their spill write, and how a leaf
queue stands after its packets spilled, came back or were lost (R277 to R282, R415, R430). -/
namespace Sys2Proof.Machine

/-! ### Memory requests (R415, R420, R430) -/

/-- What no memory request touches: packet memory and the number of the next transfer. -/
def State.stocked (s : State) : BufState × Nat := (s.buf, s.mem.nextWho)

theorem State.packets_of_stocked {s t : State} (h : t.stocked = s.stocked) : t.packets = s.packets := by
  obtain ⟨hbuf, hwho⟩ := Prod.mk.injEq .. ▸ h
  simp only [State.packets, hbuf, hwho]

section
variable (s : State)

@[simp] theorem State.stocked_set (l : Loc) (v : Nat) : (s.set l v).stocked = s.stocked := rfl

@[simp] theorem State.stocked_raise (n info : Nat) : (s.raise n info).stocked = s.stocked := by
  rw [State.stocked, State.raise_buf, State.raise_mem, State.stocked]

@[simp] theorem State.stocked_failWho (who : Nat) : (s.failWho who).stocked = s.stocked := ite_keeps rfl rfl

@[simp] theorem State.stocked_lineFails (q line cls who : Nat) : (s.lineFails q line cls who).stocked = s.stocked := by
  have hcounted : (if line < s.get R.HBM_CFG.FWD_LINES then s else (s.sat (R.HBM_ECC.UNCORRECTED (q / 32)) 1).raise 31 (q / 32)).stocked =
      s.stocked := ite_keeps rfl (State.stocked_raise ..)
  exact (State.stocked_failWho ..).trans (ite_keeps hcounted hcounted)

@[simp] theorem State.stocked_memRequest (r : MemReq) : (s.memRequest r).stocked = s.stocked := by
  refine ite_keeps (s.stocked_lineFails ..) ?_
  split
  · exact ite_keeps rfl rfl
  · rfl

@[simp] theorem State.stocked_dynRequests (who cls : Nat) (hint write : Bool) (data : Nat → Nat) (n a : Nat) :
    (s.dynRequests who cls hint write data n a).stocked = s.stocked := by
  induction n generalizing s a with
  | zero => rfl
  | succ n ih => exact (ih _ _).trans (s.stocked_memRequest _)

@[simp] theorem State.stocked_farSend (a : Nat) (kind : FarKind) : (s.farSend a kind).stocked = s.stocked := by
  refine ite_keeps ?_ (ite_keeps ?_ rfl)
  · unfold State.failKind
    split
    · rfl
    · split
      · exact s.stocked_failWho _
      · rfl
  · cases kind <;> rfl

@[simp] theorem State.stocked_readSpot (far : Bool) (who x : Nat) : (s.readSpot far who x).stocked = s.stocked :=
  ite_keeps ((foldl_keeps (fun t _ => t.stocked_farSend ..) _ _).trans rfl) (s.stocked_dynRequests ..)

@[simp] theorem State.stocked_writeSpot (far : Bool) (who x : Nat) (bytes : List Byte) : (s.writeSpot far who x bytes).stocked = s.stocked :=
  ite_keeps ((foldl_keeps (fun t _ => t.stocked_farSend ..) _ _).trans rfl) (s.stocked_dynRequests ..)

@[simp] theorem State.stocked_writeBlock (b : Spill) : (s.writeBlock b).stocked = s.stocked := by
  refine foldl_keeps (g := State.stocked) (fun t p => ite_keeps (foldl_keeps (g := State.stocked) (fun u k => ?_) _ t) rfl) _ _
  exact ite_keeps (State.stocked_writeSpot ..) rfl

/-! ### Cells taken and packets lost (R264, R282) -/

@[simp] theorem State.packets_takeCells (owner : Option Nat) (a : Nat) (kind : Nat → Nat) (n : Nat) (got : List Nat) :
    (s.takeCells owner a kind n got).1.packets = s.packets := by
  induction n generalizing s got with
  | zero => rfl
  | succ n ih =>
    have hdraw : s.freeAny.2.packets = s.packets := rfl
    unfold State.takeCells
    split
    · rename_i t hfree
      rwa [hfree] at hdraw
    · rename_i i t hfree
      rw [hfree] at hdraw
      have htake : ∀ w, (t.takeCell i w).packets = t.packets := fun _ => rfl
      exact (ih _ _).trans ((State.packets_charge ..).trans ((htake _).trans hdraw))

@[simp] theorem State.packets_relink (owner : Option Nat) (len : Nat) (is : List Nat) (k : Nat) :
    (s.relink owner len is k).packets = s.packets := by
  have hlink : ∀ (t : State) (i w : Nat), (t.setLink i w).packets = t.packets := fun _ _ _ => rfl
  induction is generalizing s k with
  | nil => rfl
  | cons i is ih =>
    cases is with
    | nil => exact hlink ..
    | cons j is => exact (ih _ _).trans (hlink ..)

@[simp] theorem State.packets_releaseSpots (far : Bool) (spots : List Nat) : (s.releaseSpots far spots).packets = s.packets := rfl

@[simp] theorem State.packets_discard (p : Pkt) : (s.discard p).packets = s.packets :=
  ite_keeps (s.packets_releaseCells p) ((State.packets_releaseSpots ..).trans (s.packets_releaseCells p))

theorem State.packets_countAt (l : Loc) (k t : Nat) : (s.countAt l k t).packets = s.packets := rfl

@[simp] theorem State.packets_raise (n info : Nat) : (s.raise n info).packets = s.packets := State.packets_of_stocked (s.stocked_raise ..)

@[simp] theorem State.packets_breachOf (cause : Nat) (l : Lost) : (s.breachOf cause l).packets = s.packets := by
  have hcount : ((s.countAt (R.APR_BREACH.COUNT l.cls (if l.bounded then cause - 0x18 else 3)) 1 l.expo).countAt
    (R.CNT_REASON.COUNT cause) 1 l.expo).packets = s.packets := (State.packets_countAt ..).trans (s.packets_countAt ..)
  refine ite_keeps hcount ((State.packets_raise ..).trans (ite_keeps ?_ ((State.packets_countAt ..).trans ?_)))
  · exact hcount
  · exact hcount

@[simp] theorem State.packets_copyLost (p : Pkt) : (s.copyLost p).packets = s.packets :=
  ite_keeps (s.packets_countAt ..) (ite_keeps (s.packets_countAt ..) (ite_keeps rfl rfl))

@[simp] theorem State.packets_memoryFailure (n : Nat) (p : Pkt) : (s.memoryFailure n p).packets = s.packets := by
  have hdiscard : ((s.sat R.BUF_ERR.UNCORR n).discard p).packets = s.packets := State.packets_discard ..
  exact ite_keeps ((State.packets_breachOf ..).trans hdiscard) ((State.packets_copyLost ..).trans hdiscard)

/-! ### Leaf queues -/

@[simp] theorem State.leafQ_setLeafQ_same (l : Nat) (q : List Pkt) : (s.setLeafQ l q).leafQ l = q := SMap.find_put_same ..

theorem State.leafQ_setLeafQ_other {l k : Nat} (q : List Pkt) (h : k ≠ l) : (s.setLeafQ l q).leafQ k = s.leafQ k :=
  SMap.find_put_other _ _ _ _ _ h

theorem State.leafQ_settle (l : Nat) : s.settle.leafQ l = s.leafQ l := State.leafQ_of_queues s.queues_settle l

/-- A queue set to what it holds. -/
theorem State.leafQ_setLeafQ_self (l k : Nat) : (s.setLeafQ l (s.leafQ l)).leafQ k = s.leafQ k := by
  by_cases h : k = l
  · rw [h, s.leafQ_setLeafQ_same]
  · exact s.leafQ_setLeafQ_other _ h

end

/-- A queue with a packet replaced, where all else is as in `s`. -/
theorem State.leafQ_putLeaf {s t : State} (h : t.packets = s.packets) (l : Nat) (p : Pkt) :
    (t.putLeaf l p).leafQ l = updFirst (fun q => q.id == p.id) (fun _ => p) (s.leafQ l) ∧ ∀ k, k ≠ l → (t.putLeaf l p).leafQ k = s.leafQ k := by
  unfold State.putLeaf
  refine ⟨?_, fun k hk => ?_⟩
  · rw [State.leafQ_setLeafQ_same, State.leafQ_of_packets h]
  · rw [State.leafQ_setLeafQ_other _ _ hk, State.leafQ_of_packets h]

/-! ### The refill window (R280) -/

/-- One packet of a queue, with the cells ahead of it: its spill write is cancelled where it has come into the refill window. -/
def State.windowStep (s : State) (acc : State × List Pkt) (x : Pkt × Nat) : State × List Pkt :=
  if x.1.spilling.isSome && decide (x.2 < s.get R.BUF_SPILL_CTRL.REFILL) then ((acc.1.cancelSpill x.1).1, acc.2 ++ [(acc.1.cancelSpill x.1).2])
  else (acc.1, acc.2 ++ [x.1])

/-- What the refill window makes of a queue's packets, and of the state beside the queue. -/
def State.windowed (s : State) (l : Nat) : State × List Pkt := (withAhead (s.leafQ l) 0).foldl s.windowStep (s, [])

theorem State.refillWindow_eq (s : State) (l : Nat) : s.refillWindow l = (s.windowed l).1.setLeafQ l (s.windowed l).2 := rfl

theorem withAhead_map_fst (q : List Pkt) (n : Nat) : (withAhead q n).map Prod.fst = q := by
  induction q generalizing n with
  | nil => rfl
  | cons p ps ih => exact congrArg (p :: ·) (ih _)

/-- Where no packet under way to the spill region is inside the window, the queue stays. -/
theorem State.windowed_of_quiet {s : State} {l : Nat}
    (h : ∀ x ∈ withAhead (s.leafQ l) 0, x.1.spilling.isSome = true → s.get R.BUF_SPILL_CTRL.REFILL ≤ x.2) : s.windowed l = (s, s.leafQ l) := by
  have hfold : ∀ (xs : List (Pkt × Nat)) (q : List Pkt), (∀ x ∈ xs, x.1.spilling.isSome = true → s.get R.BUF_SPILL_CTRL.REFILL ≤ x.2) →
      xs.foldl s.windowStep (s, q) = (s, q ++ xs.map Prod.fst) := by
    intro xs
    induction xs with
    | nil => exact fun q _ => by rw [List.map_nil, List.append_nil]; rfl
    | cons x xs ih =>
      intro q hquiet
      have hstep : s.windowStep (s, q) x = (s, q ++ [x.1]) := by
        refine if_neg fun hin => ?_
        obtain ⟨hspill, hahead⟩ := (Bool.and_eq_true _ _).mp hin
        exact absurd (hquiet x (List.mem_cons_self ..) hspill) (Nat.not_le.mpr (of_decide_eq_true hahead))
      rw [List.foldl_cons, hstep, ih _ fun y hy => hquiet y (List.mem_cons_of_mem _ hy), List.map_cons, List.append_assoc]
      rfl
  rw [State.windowed, hfold _ [] h, withAhead_map_fst]
  rfl

theorem State.refillWindow_of_quiet {s : State} {l : Nat}
    (h : ∀ x ∈ withAhead (s.leafQ l) 0, x.1.spilling.isSome = true → s.get R.BUF_SPILL_CTRL.REFILL ≤ x.2) :
    s.refillWindow l = s.setLeafQ l (s.leafQ l) := by
  rw [s.refillWindow_eq, State.windowed_of_quiet h]

/-- A cancelled spill write leaves the queues, and its packet its number. -/
theorem State.windowed_keeps (s : State) (l : Nat) :
    (s.windowed l).1.packets = s.packets ∧ (s.windowed l).2.map (fun q => q.id) = (s.leafQ l).map fun q => q.id := by
  have hfold : ∀ (xs : List (Pkt × Nat)) (acc : State × List Pkt), (xs.foldl s.windowStep acc).1.packets = acc.1.packets ∧
      (xs.foldl s.windowStep acc).2.map (fun q => q.id) = acc.2.map (fun q => q.id) ++ (xs.map Prod.fst).map fun q => q.id := by
    intro xs
    induction xs with
    | nil => exact fun acc => ⟨rfl, (List.append_nil _).symm⟩
    | cons x xs ih =>
      intro acc
      have hstep : (s.windowStep acc x).1.packets = acc.1.packets ∧
          (s.windowStep acc x).2.map (fun q => q.id) = acc.2.map (fun q => q.id) ++ [x.1.id] := by
        unfold State.windowStep
        split
        · exact ⟨rfl, List.map_append ..⟩
        · exact ⟨rfl, List.map_append ..⟩
      obtain ⟨hpackets, hids⟩ := ih (s.windowStep acc x)
      refine ⟨hpackets.trans hstep.1, ?_⟩
      rw [List.foldl_cons, hids, hstep.2, List.append_assoc]
      rfl
  obtain ⟨hpackets, hids⟩ := hfold (withAhead (s.leafQ l) 0) (s, [])
  rw [withAhead_map_fst] at hids
  exact ⟨hpackets, hids⟩

/-- A queue of one packet, under way to the spill region inside the window: its spill write is cancelled. -/
theorem State.windowed_single {s : State} {l : Nat} {p : Pkt} (hq : s.leafQ l = [p]) (hs : p.spilling.isSome = true)
    (hr : 0 < s.get R.BUF_SPILL_CTRL.REFILL) : (s.windowed l).2 = [{ p with spilling := none, spots := [] }] := by
  have hstep : s.windowStep (s, []) (p, 0) = ((s.cancelSpill p).1, [(s.cancelSpill p).2]) :=
    if_pos ((Bool.and_eq_true _ _).mpr ⟨hs, decide_eq_true hr⟩)
  rw [State.windowed, hq]
  exact congrArg Prod.snd hstep

/-- Packets that have left a queue leave the others, and in order those behind them. -/
theorem State.leftLeaf_leafQ (s : State) (l : Nat) :
    ((s.leftLeaf l).leafQ l).map (fun q => q.id) = (s.leafQ l).map (fun q => q.id) ∧ ∀ k, k ≠ l → (s.leftLeaf l).leafQ k = s.leafQ k := by
  obtain ⟨hpackets, hids⟩ := s.windowed_keeps l
  have hleft : ∀ k, (s.leftLeaf l).leafQ k = (s.refillWindow l).leafQ k := fun k => by
    rw [State.leftLeaf, State.emptied_eq]
    rfl
  simp only [hleft, s.refillWindow_eq]
  refine ⟨?_, fun k hk => ?_⟩
  · rw [State.leafQ_setLeafQ_same, hids]
  · rw [State.leafQ_setLeafQ_other _ _ hk, State.leafQ_of_packets hpackets]

theorem State.leftLeaf_winBack (s : State) (l : Nat) : (s.leftLeaf l).buf.winBack = s.buf.winBack := by
  rw [State.leftLeaf, State.emptied_eq]
  exact congrArg (fun x : BufState × Nat => x.1.winBack) (s.windowed_keeps l).1

/-! ### Spill writes that end (R277, R280) -/

/-- The state in which the spill write of a packet has ended: its cells are free, and the window's figures count it. -/
def State.spillEnded (s : State) (l : Nat) (p : Pkt) : State :=
  let far := p.spilling == some 2
  let n := cellsOf p.len
  let s1 := ((s.refillWindow l).releaseCells p).putLeaf l
    { p with cells := [], xResv := 0, xShar := 0, spilling := none, tier := if far then 2 else 1 }
  { s1 with buf := { s1.buf with
    spills := s1.buf.spills.map fun (b : Spill) =>
      if s.mem.failed.contains p.who && b.far == far && p.spots.any fun x => x / spillSize far == b.id then { b with failed := true } else b
    winHbm := s1.buf.winHbm + (if far then 0 else n)
    winFar := s1.buf.winFar + (if far then n else 0) } }

theorem exec_spillWriteComplete {l : Nat} (hw : Instr.wf (.spillWriteComplete l) = true) {s : State} (hc : s.coreUp = true) {p : Pkt}
    (hp : (s.refillWindow l).spilled l = some p) : exec (.spillWriteComplete l) s = .next (s.spillEnded l p).settle := by
  refine complete_of_eq hw ?_
  rw [if_pos hc, hp]
  rfl

theorem exec_spillWriteComplete_none {l : Nat} (hw : Instr.wf (.spillWriteComplete l) = true) {s : State}
    (hp : (s.refillWindow l).spilled l = none) :
    exec (.spillWriteComplete l) s = .next (if s.coreUp then s.refillWindow l else s).settle := by
  refine complete_of_eq hw ?_
  rw [hp, ite_self]

/-- What has spilled of a queue depends on the queue alone, beside the transfers and the blocks. -/
theorem State.spilled_setLeafQ_self (s : State) (l : Nat) : (s.setLeafQ l (s.leafQ l)).spilled l = s.spilled l := by
  unfold State.spilled
  rw [s.leafQ_setLeafQ_same]
  rfl

/-! ### Blocks that are written out (R278) -/

theorem State.closeSpill_spills (s : State) (b : Spill) : (s.closeSpill b).buf.spills =
    (updFirst (fun c => c.far == b.far && c.id == b.id) (fun c => { c with isOpen := false }) s.buf.spills).filter
      fun c => c.isOpen || decide (0 < c.live) :=
  congrArg (fun x : BufState × Nat => x.1.spills) (State.stocked_writeBlock ..)

theorem exec_spillBlockFlush (id : Nat) (far : Bool) (s : State) : exec (.spillBlockFlush id far) s = .next
    (if s.coreUp then s.closeWhere fun b => b.id == id && b.far == far && decide (b.lastNs + 10000 ≤ s.ns) else s).settle := complete_of rfl ..

/-- Where one open block alone satisfies a test, it is the one written out. -/
theorem State.closeWhere_of_unique {s : State} {b : Spill} {t : Spill → Bool} (hb : b ∈ s.buf.spills) (hn : s.buf.spills.Nodup)
    (ht : ∀ c ∈ s.buf.spills, (c.isOpen && t c) = true ↔ c = b) : s.closeWhere t = s.closeSpill b := by
  have hfilter : (s.buf.spills.filter fun c => c.isOpen && t c) = [b] := by
    rw [List.filter_congr fun c hc => Bool.eq_iff_iff.mpr ((ht c hc).trans beq_iff_eq.symm), List.filter_beq,
      List.count_eq_one_of_mem hn hb]
    rfl
  rw [State.closeWhere, hfilter]
  rfl

/-- Of entries that differ, those behind the one replaced are others. -/
theorem eq_of_mem_updFirst {α : Type} {t : α → Bool} {g : α → α} {l : List α} {b : α} (hn : l.Nodup) (hb : b ∈ l)
    (ht : ∀ c ∈ l, t c = true ↔ c = b) {c : α} (hc : c ∈ updFirst t g l) : c = g b ∨ (c ∈ l ∧ c ≠ b) := by
  induction l with
  | nil => cases hb
  | cons a l ih =>
    obtain ⟨ha, hl⟩ := List.nodup_cons.mp hn
    unfold updFirst at hc
    by_cases hab : a = b
    · rw [if_pos ((ht a (List.mem_cons_self ..)).mpr hab)] at hc
      rcases List.mem_cons.mp hc with rfl | hc
      · exact .inl (congrArg g hab)
      · exact .inr ⟨List.mem_cons_of_mem _ hc, fun h => ha (hab ▸ h ▸ hc)⟩
    · rw [if_neg fun h => hab ((ht a (List.mem_cons_self ..)).mp h)] at hc
      rcases List.mem_cons.mp hc with rfl | hc
      · exact .inr ⟨List.mem_cons_self .., hab⟩
      · refine (ih hl ((List.mem_cons.mp hb).resolve_left fun h => hab h.symm) (fun d hd => ht d (List.mem_cons_of_mem _ hd)) hc).imp id ?_
        exact fun h => ⟨List.mem_cons_of_mem _ h.1, h.2⟩

theorem mem_updFirst {α : Type} {t : α → Bool} {g : α → α} {l : List α} {b : α} (hb : b ∈ l) (ht : ∀ c ∈ l, t c = true ↔ c = b) :
    g b ∈ updFirst t g l := by
  induction l with
  | nil => cases hb
  | cons a l ih =>
    unfold updFirst
    by_cases hab : a = b
    · rw [if_pos ((ht a (List.mem_cons_self ..)).mpr hab), hab]
      exact List.mem_cons_self ..
    · rw [if_neg fun h => hab ((ht a (List.mem_cons_self ..)).mp h)]
      refine List.mem_cons_of_mem _ (ih ((List.mem_cons.mp hb).resolve_left fun h => hab h.symm) fun d hd => ht d (List.mem_cons_of_mem _ hd))

/-! ### Refills (R279, R282) -/

/-- The state in which a packet has taken fresh cells for its refill. -/
def State.refillTaken (s : State) (l : Nat) (p : Pkt) : State :=
  let t := s.newWho.2.takeCells p.owner p.acct (fun _ => 10) (cellsOf p.len) []
  (t.1.relink p.owner p.len t.2 0).putLeaf l { p with cells := t.2, refilling := true, who := s.mem.nextWho }

theorem exec_refillStart {l : Nat} (hw : Instr.wf (.refillStart l) = true) {s : State} (hc : s.coreUp = true) {p : Pkt}
    (hp : s.toRefill l = some p) : exec (.refillStart l) s = .next
      (if s.get R.BUF_SPILL_CTRL.REFILL_RES < s.buf.refillUsed + cellsOf p.len ∨ s.freeCells < cellsOf p.len then s
        else p.spots.foldl (fun u x => u.readSpot (p.tier == 2) s.mem.nextWho x) (s.refillTaken l p)).settle := by
  refine complete_of_eq hw ?_
  rw [if_pos hc, hp]
  rfl

/-- The state in which the oldest refill of a queue has ended with `n` blocks in error. -/
def State.refillEnded (s : State) (l : Nat) (p : Pkt) (n : Nat) : State :=
  let s1 : State := { s with buf := { s.buf with winBack := s.buf.winBack + cellsOf p.len } }
  if n = 0 then (s1.releaseSpots (p.tier == 2) p.spots).putLeaf l { p with tier := 0, refilling := false, spots := [] }
  else ((s1.setLeafQ l ((s1.leafQ l).filter fun q => q.id != p.id)).memoryFailure n p).leftLeaf l

theorem exec_refillComplete {l failures : Nat} (hw : Instr.wf (.refillComplete l failures) = true) {s : State} (hc : s.coreUp = true) {p : Pkt}
    (hp : ((s.leafQ l).find? fun q => q.refilling && s.transferDone q.who) = some p) :
    exec (.refillComplete l failures) s = .next (s.refillEnded l p (failures + s.failedBlocks p)).settle := by
  refine complete_of_eq hw ?_
  rw [if_pos hc, hp]
  rfl

/-- A refill without an error leaves the packet whole in its queue. -/
theorem State.refillEnded_whole (s : State) (l : Nat) (p : Pkt) :
    (s.refillEnded l p 0).leafQ l = updFirst (fun q => q.id == p.id) (fun _ => { p with tier := 0, refilling := false, spots := [] }) (s.leafQ l) ∧
      (∀ k, k ≠ l → (s.refillEnded l p 0).leafQ k = s.leafQ k) ∧ (s.refillEnded l p 0).buf.winBack = s.buf.winBack + cellsOf p.len := by
  obtain ⟨hqueue, hothers⟩ := State.leafQ_putLeaf (s := { s with buf := { s.buf with winBack := s.buf.winBack + cellsOf p.len } })
    (State.packets_releaseSpots _ (p.tier == 2) p.spots) l { p with tier := 0, refilling := false, spots := [] }
  exact ⟨hqueue, hothers, rfl⟩

/-- A refill with an error takes its packet out of the queue. -/
theorem State.refillEnded_lost (s : State) (l : Nat) (p : Pkt) {n : Nat} (hn : 0 < n) :
    ((s.refillEnded l p n).leafQ l).map (fun q => q.id) = ((s.leafQ l).filter fun q => q.id != p.id).map (fun q => q.id) ∧
      (∀ k, k ≠ l → (s.refillEnded l p n).leafQ k = s.leafQ k) ∧ (s.refillEnded l p n).buf.winBack = s.buf.winBack + cellsOf p.len := by
  unfold State.refillEnded
  dsimp only
  rw [if_neg (Nat.ne_of_gt hn)]
  generalize hu : ({ s with buf := { s.buf with winBack := s.buf.winBack + cellsOf p.len } } : State) = u
  have hleaf : ∀ k, u.leafQ k = s.leafQ k := fun k => hu ▸ rfl
  have hback : u.buf.winBack = s.buf.winBack + cellsOf p.len := hu ▸ rfl
  have hfailed := (u.setLeafQ l ((u.leafQ l).filter fun q => q.id != p.id)).packets_memoryFailure n p
  obtain ⟨hids, hothers⟩ := State.leftLeaf_leafQ ((u.setLeafQ l ((u.leafQ l).filter fun q => q.id != p.id)).memoryFailure n p) l
  refine ⟨?_, fun k hk => ?_, ?_⟩
  · rw [hids, State.leafQ_of_packets hfailed, State.leafQ_setLeafQ_same, hleaf]
  · rw [hothers k hk, State.leafQ_of_packets hfailed, State.leafQ_setLeafQ_other _ _ hk, hleaf]
  · rw [State.leftLeaf_winBack, ← hback]
    exact congrArg (fun x : BufState × Nat => x.1.winBack) hfailed

/-! ### Throughput figures (R281) -/

/-- The state with the figures of a window shown. -/
def State.ratesShown (s : State) : State :=
  (((s.set R.BUF_SPILL_RATE.HBM_OUT (min s.buf.winHbm 65535)).set R.BUF_SPILL_RATE.FAR_OUT (min s.buf.winFar 65535)).set
    R.BUF_SPILL_RATE.REFILLED (min s.buf.winBack 65535)).set R.BUF_SPILL_RATE.WAITING (min s.awaiting 65535)

/-- The state in which a window has ended. -/
def State.windowEnded (s : State) : State :=
  { s.ratesShown with buf := { s.buf with winHbm := 0, winFar := 0, winBack := 0, winStart := s.ns } }

theorem exec_spillRateWindow {s : State} (hc : s.coreUp = true) (ht : s.buf.winStart + 10000 ≤ s.ns) :
    exec .spillRateWindow s = .next s.windowEnded.settle :=
  complete_of_eq rfl (if_pos ((Bool.and_eq_true _ _).mpr ⟨hc, decide_eq_true ht⟩))

theorem State.ratesShown_get (s : State) :
    s.ratesShown.get R.BUF_SPILL_RATE.HBM_OUT = min s.buf.winHbm 65535 ∧ s.ratesShown.get R.BUF_SPILL_RATE.FAR_OUT = min s.buf.winFar 65535 ∧
      s.ratesShown.get R.BUF_SPILL_RATE.REFILLED = min s.buf.winBack 65535 ∧ s.ratesShown.get R.BUF_SPILL_RATE.WAITING = min s.awaiting 65535 := by
  have hsame : ∀ (u : State) (l : Loc) (v : Nat), l.lo + l.w ≤ 64 → l.w = 16 → (u.set l (min v 65535)).get l = min v 65535 := by
    intro u l v hl hw
    rw [State.get_set_same _ _ _ hl, hw, Nat.mod_eq_of_lt (by omega)]
  have hskip : ∀ (u : State) (l m : Loc) (v : Nat), m.lo + m.w ≤ 64 → l.lo + l.w ≤ m.lo → (u.set l v).get m = u.get m :=
    fun _ _ _ _ hm hlo => State.get_set_below hm hlo
  unfold State.ratesShown
  refine ⟨?_, ?_, ?_, hsame _ R.BUF_SPILL_RATE.WAITING _ (by decide) rfl⟩
  · rw [hskip _ R.BUF_SPILL_RATE.WAITING _ _ (by decide) (by decide), hskip _ R.BUF_SPILL_RATE.REFILLED _ _ (by decide) (by decide),
      hskip _ R.BUF_SPILL_RATE.FAR_OUT _ _ (by decide) (by decide)]
    exact hsame _ R.BUF_SPILL_RATE.HBM_OUT _ (by decide) rfl
  · rw [hskip _ R.BUF_SPILL_RATE.WAITING _ _ (by decide) (by decide), hskip _ R.BUF_SPILL_RATE.REFILLED _ _ (by decide) (by decide)]
    exact hsame _ R.BUF_SPILL_RATE.FAR_OUT _ (by decide) rfl
  · rw [hskip _ R.BUF_SPILL_RATE.WAITING _ _ (by decide) (by decide)]
    exact hsame _ R.BUF_SPILL_RATE.REFILLED _ (by decide) rfl

theorem State.ratesShown_word (s : State) {off : Nat} (h : off ≠ R.BUF_SPILL_RATE.WAITING.off) : s.ratesShown.word off = s.word off := by
  have hset : ∀ (u : State) (l : Loc) (v : Nat), l.off = R.BUF_SPILL_RATE.WAITING.off → (u.set l v).word off = u.word off :=
    fun u l v hl => u.word_set_other (hl ▸ h)
  unfold State.ratesShown
  rw [hset _ R.BUF_SPILL_RATE.WAITING _ rfl, hset _ R.BUF_SPILL_RATE.REFILLED _ rfl, hset _ R.BUF_SPILL_RATE.FAR_OUT _ rfl,
    hset _ R.BUF_SPILL_RATE.HBM_OUT _ rfl]

/-- The end of a window changes BUF_SPILL_RATE and its figures alone. -/
theorem State.kept_windowEnded (s : State) : s.kept { s.windowEnded.settle with buf := s.buf } [] fun k => k = R.BUF_SPILL_RATE.WAITING.off := by
  have hset : ∀ (u : State) (l : Loc) (v : Nat), (u.set l v).still = u.still := fun _ _ _ => rfl
  have hstill : s.ratesShown.still = s.still := by rw [State.ratesShown, hset, hset, hset, hset]
  have hout : s.ratesShown.out = s.out := by simp only [State.ratesShown, State.set_out]
  have hword := fun (k : Nat) (hk : ¬ k = R.BUF_SPILL_RATE.WAITING.off) => s.ratesShown_word hk
  unfold State.windowEnded
  generalize s.ratesShown = u at hstill hout hword
  exact State.kept_buf rfl (congrArg (fun u : State => ({ u with buf := s.buf } : State)) hstill) hout hword

/-- The figures that a window shows. -/
theorem State.windowEnded_get (s : State) {l : Loc} (h : l.off = R.BUF_SPILL_RATE.WAITING.off) :
    s.windowEnded.settle.get l = s.ratesShown.get l := by
  have hregs : s.windowEnded.regs = s.ratesShown.regs := rfl
  rw [State.settle_get _ (by rw [h]; decide)]
  exact State.get_of_regs hregs l

end Sys2Proof.Machine
end

section
/-! SUPPORT. Packets spill, come back and are lost: the clauses of the statement, from what spill writes, flushes, refills and windows do (R277 to
R282). -/
namespace Sys2Proof.Machine

/-- A refill that has found its cells leaves the packet in its queue with them, and one more transfer begun. -/
theorem State.refillTaken_spec (s : State) (l : Nat) (p : Pkt) :
    ∃ cells, (s.refillTaken l p).leafQ l =
        updFirst (fun q => q.id == p.id) (fun _ => { p with cells := cells, refilling := true, who := s.mem.nextWho }) (s.leafQ l) ∧
      (∀ k, k ≠ l → (s.refillTaken l p).leafQ k = s.leafQ k) ∧ (s.refillTaken l p).mem.nextWho = s.mem.nextWho + 1 := by
  have hcells : ∀ (u : State) (len : Nat), ((u.takeCells p.owner p.acct (fun _ => 10) len []).1.relink p.owner p.len
      (u.takeCells p.owner p.acct (fun _ => 10) len []).2 0).packets = u.packets := fun u _ =>
    (State.packets_relink ..).trans (u.packets_takeCells ..)
  have htaken := hcells s.newWho.2 (cellsOf p.len)
  obtain ⟨hqueue, hothers⟩ := State.leafQ_putLeaf htaken l
    { p with cells := (s.newWho.2.takeCells p.owner p.acct (fun _ => 10) (cellsOf p.len) []).2, refilling := true, who := s.mem.nextWho }
  exact ⟨_, hqueue, hothers, congrArg Prod.snd htaken⟩

/-- Where one open block alone has been idle for 10 µs, the flush leaves it closed, while it holds cells. -/
theorem State.closeWhere_spills {s : State} {b : Spill} {t : Spill → Bool} (hb : b ∈ s.buf.spills) (hn : s.buf.spills.Nodup)
    (hone : ∀ c ∈ s.buf.spills, c.id = b.id → c.far = b.far → c = b) (ht : ∀ c ∈ s.buf.spills, (c.isOpen && t c) = true ↔ c = b) :
    (0 < b.live → { b with isOpen := false } ∈ (s.closeWhere t).buf.spills) ∧
      ∀ c ∈ (s.closeWhere t).buf.spills, c.id = b.id → c.far = b.far → c = { b with isOpen := false } := by
  have hfirst : ∀ c ∈ s.buf.spills, (c.far == b.far && c.id == b.id) = true ↔ c = b := by
    intro c hc
    rw [Bool.and_eq_true, beq_iff_eq, beq_iff_eq]
    exact ⟨fun h => hone c hc h.2 h.1, fun h => h ▸ ⟨rfl, rfl⟩⟩
  rw [State.closeWhere_of_unique hb hn ht, State.closeSpill_spills]
  refine ⟨fun hlive => List.mem_filter.mpr ⟨mem_updFirst hb hfirst, ?_⟩, fun c hc hid hfar => ?_⟩
  · simpa using hlive
  · rcases eq_of_mem_updFirst hn hb hfirst (List.mem_filter.mp hc).1 with h | ⟨hin, hne⟩
    · exact h
    · exact absurd (hone c hin hid hfar) hne

/-- Settles O35: a clause for each spill write, flush, refill and window. -/
theorem spillsGoAndReturn : Obligations.SpillsGoAndReturn := by
  refine ⟨?written, ?none, ?window, ?flush, ?idle, ?begin, ?complete, ?rates⟩
  case written =>
    intro s l p hw hc hp hquiet
    have hquietWindow := State.refillWindow_of_quiet hquiet
    have hspilled : (s.refillWindow l).spilled l = some p := by rw [hquietWindow, s.spilled_setLeafQ_self, hp]
    have hpackets : ((s.refillWindow l).releaseCells p).packets = (s.setLeafQ l (s.leafQ l)).packets := by
      rw [State.packets_releaseCells, hquietWindow]
    obtain ⟨hqueue, hothers⟩ := State.leafQ_putLeaf hpackets l
      { p with cells := [], xResv := 0, xShar := 0, spilling := none, tier := if p.spilling == some 2 then 2 else 1 }
    have hfar : ((s.refillWindow l).releaseCells p).buf.winFar = s.buf.winFar := congrArg (fun x : BufState × Nat => x.1.winFar) hpackets
    have hhbm : ((s.refillWindow l).releaseCells p).buf.winHbm = s.buf.winHbm := congrArg (fun x : BufState × Nat => x.1.winHbm) hpackets
    refine ⟨_, exec_spillWriteComplete hw hc hspilled, ?_, fun k hk => ?_, fun hsp => ?_, fun hsp => ?_⟩
    · rw [State.leafQ_settle]
      refine hqueue.trans ?_
      simp only [s.leafQ_setLeafQ_same, beq_iff_eq]
    · rw [State.leafQ_settle]
      exact (hothers k hk).trans (s.leafQ_setLeafQ_self l k)
    · rw [State.settle_buf, ← hfar, ← hhbm]
      have htier : (p.spilling == some 2) = true := beq_iff_eq.mpr hsp
      simp only [State.spillEnded, htier, if_true]
      exact ⟨rfl, rfl⟩
    · rw [State.settle_buf, ← hfar, ← hhbm]
      have htier : (p.spilling == some 2) = false := beq_eq_false_iff_ne.mpr hsp
      simp only [State.spillEnded, htier, Bool.false_eq_true, if_false]
      exact ⟨rfl, rfl⟩
  case none =>
    intro s l hw hp hquiet
    have hquietWindow := State.refillWindow_of_quiet hquiet
    have hnone : (s.refillWindow l).spilled l = none := by rw [hquietWindow, s.spilled_setLeafQ_self, Option.isNone_iff_eq_none.mp hp]
    refine ⟨_, exec_spillWriteComplete_none hw hnone, fun k => ?_, ?_⟩
    · rw [State.leafQ_settle, hquietWindow]
      split
      · exact s.leafQ_setLeafQ_self l k
      · rfl
    · rw [hquietWindow]
      split
      · exact State.kept_of_buf rfl
      · exact State.kept_of_buf rfl
  case window =>
    intro s l p hw hc hq hs hr
    have hleaf : (s.refillWindow l).leafQ l = [{ p with spilling := none, spots := [] }] := by
      rw [s.refillWindow_eq, State.leafQ_setLeafQ_same, State.windowed_single hq hs hr]
    have hnone : (s.refillWindow l).spilled l = none := by
      rw [State.spilled, hleaf]
      rfl
    refine ⟨_, exec_spillWriteComplete_none hw hnone, ?_⟩
    rw [if_pos hc, State.leafQ_settle, hleaf]
  case flush =>
    intro s b hc hb ho ht hone hn
    have hidle : ∀ c ∈ s.buf.spills, (c.isOpen && (c.id == b.id && c.far == b.far && decide (c.lastNs + 10000 ≤ s.ns))) = true ↔ c = b := by
      intro c hmem
      simp only [Bool.and_eq_true, beq_iff_eq, decide_eq_true_eq]
      refine ⟨fun ⟨_, ⟨hid, hfar⟩, _⟩ => hone c hmem hid hfar, ?_⟩
      rintro rfl
      exact ⟨ho, ⟨rfl, rfl⟩, ht⟩
    obtain ⟨hclosed, honly⟩ := State.closeWhere_spills hb hn hone hidle
    refine ⟨_, exec_spillBlockFlush .., ?_⟩
    rw [if_pos hc, State.settle_buf]
    exact ⟨hclosed, honly, fun l => (State.leafQ_settle ..).trans (State.leafQ_of_queues (State.queues_closeWhere ..) l)⟩
  case idle =>
    intro s id far h
    have hnone : (s.closeWhere fun b => b.id == id && b.far == far && decide (b.lastNs + 10000 ≤ s.ns)) = s := by
      have hfilter : (s.buf.spills.filter fun b => b.isOpen && (b.id == id && b.far == far && decide (b.lastNs + 10000 ≤ s.ns))) = [] := by
        refine List.filter_eq_nil_iff.mpr fun b hb hidle => ?_
        simp only [Bool.and_eq_true, beq_iff_eq, decide_eq_true_eq] at hidle
        obtain ⟨ho, ⟨hid, hfar⟩, ht⟩ := hidle
        exact absurd (h b hb hid hfar ho) (Nat.not_lt.mpr ht)
      rw [State.closeWhere, hfilter]
      rfl
    refine ⟨_, exec_spillBlockFlush .., ?_⟩
    rw [hnone, ite_self]
    exact s.kept_settle
  case begin =>
    intro s l p hw hc hp
    refine ⟨fun hres hfree => ?_, fun hfull => ⟨_, exec_refillStart hw hc hp, ?_⟩⟩
    · obtain ⟨cells, hqueue, hothers, hwho⟩ := s.refillTaken_spec l p
      have hreads := foldl_keeps (g := State.stocked) (fun u x => u.stocked_readSpot (p.tier == 2) s.mem.nextWho x) p.spots (s.refillTaken l p)
      have hleaf := State.leafQ_of_packets (State.packets_of_stocked hreads)
      refine ⟨_, cells, exec_refillStart hw hc hp, ?_⟩
      rw [if_neg fun h => h.elim (Nat.not_lt.mpr hres) (Nat.not_lt.mpr hfree), State.settle_mem]
      simp only [State.leafQ_settle, hleaf]
      exact ⟨hqueue, hothers, (congrArg Prod.snd hreads).trans hwho⟩
    · rw [if_pos hfull]
      exact s.kept_settle
  case complete =>
    intro s l failures p hw hc hp
    refine ⟨fun hzero => ⟨_, exec_refillComplete hw hc hp, ?_⟩, fun hpos => ⟨_, exec_refillComplete hw hc hp, ?_⟩⟩
    · simp only [hzero, State.leafQ_settle, State.settle_buf]
      exact s.refillEnded_whole l p
    · simp only [State.leafQ_settle, State.settle_buf]
      exact s.refillEnded_lost l p hpos
  case rates =>
    intro s hc ht
    obtain ⟨hout, hfar, hback, hwaiting⟩ := s.ratesShown_get
    refine ⟨_, exec_spillRateWindow hc ht, State.settle_buf .., ?_, ?_, ?_, ?_, s.kept_windowEnded⟩
    · exact (s.windowEnded_get (l := R.BUF_SPILL_RATE.HBM_OUT) rfl).trans hout
    · exact (s.windowEnded_get (l := R.BUF_SPILL_RATE.FAR_OUT) rfl).trans hfar
    · exact (s.windowEnded_get (l := R.BUF_SPILL_RATE.REFILLED) rfl).trans hback
    · exact (s.windowEnded_get (l := R.BUF_SPILL_RATE.WAITING) rfl).trans hwaiting

end Sys2Proof.Machine
end

section
/-! SUPPORT. Breaches and cuts: the packets of a leaf queue that a test finds leave it in a breach (R309), and a held frame whose output is free
starts to leave: what its charges leave beside the collimator, and how its MAC and MACsec start it (R288, R323, R396, R403). -/
namespace Sys2Proof.Machine

/-! ### Breaches of queued packets (R309) -/

/-- The cause that a test of packets gives, with the code of each packet that it finds. -/
def causeIf (test : Pkt → Bool) (code : Pkt → Nat) (p : Pkt) : Option Nat := if test p then some (code p) else none

theorem causeIf_isNone (test : Pkt → Bool) (code : Pkt → Nat) (p : Pkt) : (causeIf test code p).isNone = !test p := by
  unfold causeIf
  cases test p <;> rfl

theorem exec_breachLink {s : State} {l n c : Nat} (hl : l < 2 ^ 20) (hf : s.forwarding = true) (hp : s.leafPort l = some (n, c)) :
    exec (.breachLink l) s = .next (s.breachWhere l (causeIf (s.linkBreach n) fun _ => 0x18)).settle := by
  refine complete_of_eq (decide_eq_true hl) ?_
  rw [hp]
  exact if_pos hf

theorem exec_breachPause {s : State} {l n c : Nat} (hl : l < 2 ^ 20) (hf : s.forwarding = true) (hp : s.leafPort l = some (n, c)) :
    exec (.breachPause l) s =
      .next (s.breachWhere l (causeIf (s.pauseBreach n c) fun p => if s.linkBreach n p then 0x18 else 0x1A)).settle := by
  refine complete_of_eq (decide_eq_true hl) ?_
  rw [hp]
  exact if_pos hf

/-- A test that finds no packet of the queue changes nothing. -/
theorem State.breachWhere_of_none {s : State} {l : Nat} {cause : Pkt → Option Nat} (h : ∀ p ∈ s.leafQ l, cause p = none) :
    s.breachWhere l cause = s := by
  have hbad : ((s.leafQ l).filter fun p => (cause p).isSome) = [] :=
    List.filter_eq_nil_iff.mpr fun p hp hsome => by rw [h p hp] at hsome; exact Bool.false_ne_true hsome
  rw [State.breachWhere, hbad]
  rfl

/-- The packets that a test finds leave the queue; the others stay in order, and every other queue as it was. -/
theorem State.breachWhere_leafQ (s : State) (l : Nat) (cause : Pkt → Option Nat) :
    ((s.breachWhere l cause).leafQ l).map (fun q => q.id) = ((s.leafQ l).filter fun p => (cause p).isNone).map (fun q => q.id) ∧
      ∀ k, k ≠ l → (s.breachWhere l cause).leafQ k = s.leafQ k := by
  by_cases hbad : ∀ p ∈ s.leafQ l, cause p = none
  · rw [State.breachWhere_of_none hbad, List.filter_eq_self.mpr fun p hp => Option.isNone_iff_eq_none.mpr (hbad p hp)]
    exact ⟨rfl, fun _ _ => rfl⟩
  · have hsome : ((s.leafQ l).filter fun p => (cause p).isSome).isEmpty ≠ true := fun hempty => hbad fun p hp =>
      Option.not_isSome_iff_eq_none.mp (List.filter_eq_nil_iff.mp (List.isEmpty_iff.mp hempty) p hp)
    have hdrop : ∀ t p, State.packets ((State.discard t p).breach ((cause p).getD 0x18) p) = t.packets := fun t p =>
      (State.packets_breachOf ..).trans (t.packets_discard p)
    have hleaf := State.leafQ_of_packets (foldl_keeps (g := State.packets) hdrop ((s.leafQ l).filter fun p => (cause p).isSome)
      (s.setLeafQ l ((s.leafQ l).filter fun p => (cause p).isNone)))
    rw [State.breachWhere, if_neg hsome]
    obtain ⟨hids, hothers⟩ := State.leftLeaf_leafQ (((s.leafQ l).filter fun p => (cause p).isSome).foldl
      (fun t p => (t.discard p).breach ((cause p).getD 0x18) p) (s.setLeafQ l ((s.leafQ l).filter fun p => (cause p).isNone))) l
    refine ⟨?_, fun k hk => ?_⟩
    · rw [hids, hleaf, State.leafQ_setLeafQ_same]
    · rw [hothers k hk, hleaf, State.leafQ_setLeafQ_other _ _ hk]

/-- The breaches that a test finds, settled. -/
theorem State.breachWhere_spec (s : State) (l : Nat) (test : Pkt → Bool) (code : Pkt → Nat) :
    ((s.breachWhere l (causeIf test code)).settle.leafQ l).map (fun q => q.id) = ((s.leafQ l).filter fun p => !test p).map (fun q => q.id) ∧
      (∀ k, k ≠ l → (s.breachWhere l (causeIf test code)).settle.leafQ k = s.leafQ k) ∧
      ((∀ p ∈ s.leafQ l, test p = false) → s.kept (s.breachWhere l (causeIf test code)).settle [] fun _ => False) := by
  simp only [State.leafQ_settle, ← causeIf_isNone test code]
  obtain ⟨hids, hothers⟩ := s.breachWhere_leafQ l (causeIf test code)
  refine ⟨hids, hothers, fun hnone => ?_⟩
  rw [State.breachWhere_of_none fun p hp => Option.isNone_iff_eq_none.mp (by rw [causeIf_isNone, hnone p hp]; rfl)]
  exact s.kept_settle

/-! ### A free output (R288) -/

/-- No leaf queue of a free output holds a packet. -/
theorem State.leafQ_of_portIdle {s : State} {o c l : Nat} (h : s.portIdle o = true) (hl : s.leafOut l = some (o, c)) : s.leafQ l = [] := by
  obtain ⟨hleaves, -⟩ := (Bool.and_eq_true _ _).mp h
  refine SMap.find_none _ _ _ fun e he hel => ?_
  have hout := List.all_eq_true.mp hleaves e he
  rw [hel, hl] at hout
  simp at hout

/-- A free output has sent out all of its last frame. -/
theorem State.sending_of_portIdle {s : State} {o : Nat} (h : s.portIdle o = true) {x : Sending} (hx : s.sending o = some x) :
    x.endTb ≤ s.tb ∧ x.left = 0 := by
  obtain ⟨-, hsent⟩ := (Bool.and_eq_true _ _).mp h
  rw [hx] at hsent
  exact of_decide_eq_true hsent

theorem State.leafOut_of_leafPort {s : State} {l o c : Nat} (h : s.leafPort l = some (o, c)) : s.leafOut l = some (o, c) :=
  (Option.filter_eq_some_iff.mp h).1

/-! ### The charges of a path (R320, R323) -/

/-- The state beside the collimator. -/
def State.uncollimated (s : State) : State := { s with col := {} }

theorem State.uncollimated_chargeShaper (s : State) (k lc : Nat) : (s.chargeShaper k lc).uncollimated = s.uncollimated := ite_keeps rfl rfl

theorem State.uncollimated_setDeficit (s : State) (k : Nat) (v : Int) : (s.setDeficit k v).uncollimated = s.uncollimated := rfl

theorem State.uncollimated_chargePath (s : State) (o c l lc : Nat) : (s.chargePath o c l lc).uncollimated = s.uncollimated := by
  unfold State.chargePath
  refine ite_keeps ?_ ?_
  · simp only [State.uncollimated_chargeShaper]
  · split
    · simp only [State.uncollimated_setDeficit, State.uncollimated_chargeShaper]
    · simp only [State.uncollimated_setDeficit, State.uncollimated_chargeShaper]

theorem State.uncollimated_emptied (s : State) (l : Nat) : (s.emptied l).uncollimated = s.uncollimated := by
  rw [s.emptied_eq]
  rfl

theorem State.deficit_setDeficit_zero {s : State} {k : Nat} (h : s.deficit k = 0) (j : Nat) : (s.setDeficit j 0).deficit k = 0 := by
  by_cases hkj : k = j
  · exact hkj ▸ SMap.find_put_same ..
  · exact (SMap.find_put_other _ _ _ _ _ hkj).trans h

/-- The deficit of an endpoint whose leaf queue is empty is 0 (R323). -/
theorem State.deficit_emptied {s : State} {l : Nat} (hq : s.leafQ l = []) (hl : isFabricLeaf l = false) :
    (s.emptied l).deficit (epDeficit l) = 0 := by
  have hzero : ((s.clearWait l).setDeficit (epDeficit l) 0).deficit (epDeficit l) = 0 := SMap.find_put_same ..
  unfold State.emptied
  rw [hq, if_neg (by simp), hl, if_neg Bool.false_ne_true]
  split
  · exact ite_keeps (g := fun t : State => t.deficit (epDeficit l)) hzero (State.deficit_setDeficit_zero hzero _)
  · exact hzero

/-! ### A frame starts on a port (R396, R403) -/

/-- On a port that has sent out its last frame, the next one starts now and interrupts none. -/
theorem State.startSending_of_idle {s : State} {n : Nat} (h : ∀ x, s.sending n = some x → x.endTb ≤ s.tb ∧ x.left = 0)
    (preemptable : Bool) (len expo : Nat) :
    s.startSending n preemptable len expo = s.setSending n ⟨s.tb, s.tb + s.wireTb n (len + 20), preemptable, 0⟩ := by
  unfold State.startSending
  cases hx : s.sending n with
  | none => rfl
  | some x =>
    obtain ⟨hend, hleft⟩ := h x hx
    simp [Nat.not_lt.mpr hend, hleft]

theorem State.begunTb_setSending (s : State) (n : Nat) (x : Sending) : (s.setSending n x).begunTb n = x.startTb := by
  simp only [State.begunTb, State.setSending, SMap.find_put_same]

/-- What protects a frame depends on the associations and on the port's MACsec register alone. -/
theorem State.macsecStart_protection {s t : State} {n : Nat} (ha : t.mac.assocs = s.mac.assocs)
    (hw : t.word (R.SEC_MSEC_PORT.EN n).off = s.word (R.SEC_MSEC_PORT.EN n).off) (plain : Bool) :
    (t.macsecStart n plain).2 = (s.macsecStart n plain).2 := by
  have hget : ∀ l : Loc, l.off = (R.SEC_MSEC_PORT.EN n).off → t.get l = s.get l := fun l hl => State.get_of_word (hl ▸ hw)
  have hbit : ∀ l : Loc, l.off = (R.SEC_MSEC_PORT.EN n).off → t.bit l = s.bit l := fun l hl => congrArg (· == 1) (hget l hl)
  have hassoc : t.txAssoc n = s.txAssoc n := by
    simp only [State.txAssoc, State.assoc, ha, hget (R.SEC_MSEC_PORT.TX_AN n) rfl]
  unfold State.macsecStart
  rw [hassoc, hbit (R.SEC_MSEC_PORT.EN n) rfl]
  split
  · rfl
  · split
    · rfl
    · simp only [hbit (R.SEC_MSEC_PORT.XPN n) rfl, hget (R.SEC_MSEC_PORT.TX_AN n) rfl, hbit (R.SEC_MSEC_PORT.CONF n) rfl,
        hbit (R.SEC_MSEC_PORT.SCI_INC n) rfl]

/-- Protection takes a packet number of an association, and can raise a fault. -/
theorem State.macsecStart_raises (s : State) (n : Nat) (plain : Bool) :
    ∃ a, Raises { s with mac := { s.mac with assocs := a } } (s.macsecStart n plain).1 := by
  unfold State.macsecStart
  split
  · exact ⟨_, .refl s⟩
  · split
    · exact ⟨_, .refl s⟩
    · exact ⟨_, .ite (raises ..) (.refl _)⟩

/-- A packet's frame on a port that sends nothing else. -/
def State.soleSending (s : State) (n c : Nat) (p : Pkt) : Sending :=
  ⟨s.tb, s.tb + s.wireTb n (s.leavingLen n p + 20), s.preemptable n c, 0⟩

theorem State.macStart_of_idle {s : State} {n : Nat} (h : ∀ x, s.sending n = some x → x.endTb ≤ s.tb ∧ x.left = 0) (c : Nat) (p : Pkt) :
    s.macStart n c p = (((s.setSending n (s.soleSending n c p)).macsecStart n (plainFrame p.bytes)).1, { p with
      sentTb := s.tb, express := !s.preemptable n c, sec := (s.macsecStart n (plainFrame p.bytes)).2 }) := by
  have hsec : ((s.setSending n (s.soleSending n c p)).macsecStart n (plainFrame p.bytes)).2 = (s.macsecStart n (plainFrame p.bytes)).2 :=
    State.macsecStart_protection (s := s) (t := s.setSending n (s.soleSending n c p)) rfl rfl _
  unfold State.macStart
  simp only [State.startSending_of_idle h, State.begunTb_setSending, ← hsec]
  rfl

/-- A frame that starts on such a port leaves packet memory, the collimator, and the registers that no fault changes. -/
theorem State.macStart_rest {s : State} {n : Nat} (h : ∀ x, s.sending n = some x → x.endTb ≤ s.tb ∧ x.left = 0) (c : Nat) (p : Pkt) :
    (s.macStart n c p).1.buf = s.buf ∧ (s.macStart n c p).1.col = s.col ∧ ∀ l, ¬ raiseReg l.off → (s.macStart n c p).1.get l = s.get l := by
  obtain ⟨a, hraises⟩ := (s.setSending n (s.soleSending n c p)).macsecStart_raises n (plainFrame p.bytes)
  rw [State.macStart_of_idle h]
  refine ⟨?_, ?_, fun l hl => State.get_of_word (hraises.regs _ hl)⟩
  · rw [hraises.eq]
    rfl
  · rw [hraises.eq]
    rfl

/-! ### Switch cut-through (R288) -/

/-- The path of a held frame charged, its endpoint's deficit 0 again, and its start counted. -/
def State.cutCharged (s : State) (o c : Nat) (p : Pkt) : State :=
  ((s.chargePath o c p.leaf (s.counted o p)).emptied p.leaf).wrap R.SWC_CUT.STARTS 1

/-- A held frame has left the hold stage and is being sent. -/
def State.cutStarted (s : State) (o c : Nat) (bad : List Nat) (p : Pkt) : State :=
  let x := (s.cutCharged o c p).macStart o c { p with failing := bad, lateStart := s.pastRelease p }
  { x.1 with buf := { x.1.buf with
    handoff := x.1.buf.handoff.filter fun q => q.id != p.id
    cutting := x.1.buf.cutting ++ [(o, x.2)] } }

theorem wf_switchCutStart {n : Nat} {bad : List Nat} (hn : n < 96) (hbad : ∀ k ∈ bad, k < 64) :
    Instr.wf (.switchCutStart ⟨n, bad⟩) = true :=
  (Bool.and_eq_true _ _).mpr ⟨decide_eq_true hn, List.all_eq_true.mpr fun k hk => decide_eq_true (hbad k hk)⟩

theorem exec_switchCutStart {s : State} {n o c : Nat} {bad : List Nat} {p : Pkt} (hw : Instr.wf (.switchCutStart ⟨n, bad⟩) = true)
    (hp : s.heldFrame n = some p) (ho : s.leafPort p.leaf = some (o, c)) (hf : s.forwarding = true) (hcut : s.mayCut n o c p = true)
    (hsrc : ∀ x ∈ s.buf.cutting, x.2.src ≠ n) : exec (.switchCutStart ⟨n, bad⟩) s = .next (s.cutStarted o c bad p).settle := by
  refine complete_of_eq hw ?_
  have hnone : (s.buf.cutting.any fun x => x.2.src == n) = false :=
    List.any_eq_false.mpr fun x hx => fun heq => hsrc x hx (beq_iff_eq.mp heq)
  simp only [hp, ho, hf, hcut, hnone]
  rfl

/-- Where no held frame of the port may leave, nothing starts. -/
theorem exec_switchCutStart_none {s : State} {n : Nat} {bad : List Nat} (hw : Instr.wf (.switchCutStart ⟨n, bad⟩) = true)
    (h : ∀ p, s.heldFrame n = some p → ∀ o c, s.leafPort p.leaf = some (o, c) → s.mayCut n o c p = false) :
    exec (.switchCutStart ⟨n, bad⟩) s = .next s.settle := by
  refine complete_of_eq hw ?_
  dsimp only
  split
  · rfl
  · rename_i p hp
    split
    · rfl
    · rename_i o c ho
      rw [h p hp o c ho]
      exact if_pos (by simp)

/-- The charges of a start change the collimator and the count of starts alone. -/
theorem State.uncollimated_cutCharged (s : State) (o c : Nat) (p : Pkt) :
    (s.cutCharged o c p).uncollimated = (s.wrap R.SWC_CUT.STARTS 1).uncollimated := by
  have hpath : ((s.chargePath o c p.leaf (s.counted o p)).emptied p.leaf).uncollimated = s.uncollimated :=
    (State.uncollimated_emptied ..).trans (State.uncollimated_chargePath ..)
  exact congrArg (fun t : State => t.wrap R.SWC_CUT.STARTS 1) hpath

theorem State.cutCharged_word (s : State) (o c : Nat) (p : Pkt) {off : Nat} (h : off ≠ 0x1C00008) :
    (s.cutCharged o c p).word off = s.word off :=
  (State.word_of_regs (congrArg State.regs (s.uncollimated_cutCharged o c p) :) off).trans (State.word_setWord_other _ _ h)

theorem State.cutCharged_starts (s : State) (o c : Nat) (p : Pkt) :
    (s.cutCharged o c p).get R.SWC_CUT.STARTS = (s.get R.SWC_CUT.STARTS + 1) % 2 ^ 32 := by
  have hregs : (s.cutCharged o c p).regs = (s.wrap R.SWC_CUT.STARTS 1).regs := (congrArg State.regs (s.uncollimated_cutCharged o c p) :)
  exact (State.get_of_regs hregs _).trans ((State.get_set_same _ _ _ (by decide)).trans (Nat.mod_mod ..))

/-- The charges leave what a port is sending. -/
theorem State.cutCharged_sending (s : State) (o c : Nat) (p : Pkt) (n : Nat) : (s.cutCharged o c p).sending n = s.sending n :=
  (congrArg (fun t : State => t.sending n) (s.uncollimated_cutCharged o c p) :)

/-- The charges leave which frames are preemptable. -/
theorem State.cutCharged_preemptable (s : State) (o c : Nat) (p : Pkt) : (s.cutCharged o c p).preemptable o c = s.preemptable o c := by
  have hget : ∀ l : Loc, 0x2000000 ≤ l.off → (s.cutCharged o c p).get l = s.get l := fun l hl =>
    State.get_of_word (s.cutCharged_word o c p (by omega))
  simp only [State.preemptable, State.preempting, State.bit, hget (R.MAC_CFG.SPEED o) (Nat.le_add_right ..),
    hget (R.MAC_PREEMPT.EN o) (by simp only [R.MAC_PREEMPT.EN]; omega),
    hget (R.MAC_PREEMPT.VERIFY_DIS o) (by simp only [R.MAC_PREEMPT.VERIFY_DIS]; omega),
    hget (R.MAC_PREEMPT.VSTATUS o) (by simp only [R.MAC_PREEMPT.VSTATUS]; omega),
    hget (R.MAC_PREEMPT.PMASK o) (by simp only [R.MAC_PREEMPT.PMASK]; omega)]

theorem State.mayCut_output {s : State} {n o c : Nat} {p : Pkt} (h : s.mayCut n o c p = true) :
    isFabricLeaf p.leaf = false ∧ s.portIdle o = true := by
  simp only [State.mayCut, Bool.and_eq_true, Bool.not_eq_true'] at h
  obtain ⟨⟨⟨⟨⟨⟨⟨⟨⟨⟨⟨hleaf, -⟩, -⟩, hidle⟩, -⟩, -⟩, -⟩, -⟩, -⟩, -⟩, -⟩, -⟩ := h
  exact ⟨hleaf, hidle⟩

/-- The leaf queue of a held frame that may leave is empty, so the deficit of its endpoint is 0 after the charges. -/
theorem State.cutCharged_deficit {s : State} {n o c : Nat} {p : Pkt} (ho : s.leafOut p.leaf = some (o, c)) (hcut : s.mayCut n o c p = true) :
    (s.cutCharged o c p).deficit (epDeficit p.leaf) = 0 := by
  obtain ⟨hleaf, hidle⟩ := State.mayCut_output hcut
  have hbuf : (s.chargePath o c p.leaf (s.counted o p)).leafQ p.leaf = s.leafQ p.leaf :=
    (congrArg (fun t : State => t.leafQ p.leaf) (s.uncollimated_chargePath o c p.leaf (s.counted o p)) :)
  exact State.deficit_emptied (hbuf.trans (State.leafQ_of_portIdle hidle ho)) hleaf

/-- What a frame that starts leaves, and what it takes along. -/
theorem State.cutStarted_spec {s : State} {n o c : Nat} {p : Pkt} (bad : List Nat) (ho : s.leafPort p.leaf = some (o, c))
    (hcut : s.mayCut n o c p = true) :
    (s.cutStarted o c bad p).buf = { s.buf with
      handoff := s.buf.handoff.filter fun q => q.id != p.id
      cutting := s.buf.cutting ++ [(o, { p with
        failing := bad, lateStart := s.pastRelease p, sentTb := s.tb, express := !s.preemptable o c
        sec := (s.macsecStart o (plainFrame p.bytes)).2 })] } ∧
      (s.cutStarted o c bad p).deficit (epDeficit p.leaf) = 0 ∧
      (s.cutStarted o c bad p).get R.SWC_CUT.STARTS = (s.get R.SWC_CUT.STARTS + 1) % 2 ^ 32 := by
  have hbeside := s.uncollimated_cutCharged o c p
  have hbuf : (s.cutCharged o c p).buf = s.buf := (congrArg State.buf hbeside :)
  have htb : (s.cutCharged o c p).tb = s.tb := (congrArg State.tb hbeside :)
  have hidle : ∀ x, (s.cutCharged o c p).sending o = some x → x.endTb ≤ (s.cutCharged o c p).tb ∧ x.left = 0 := by
    rw [s.cutCharged_sending, htb]
    exact fun x hx => State.sending_of_portIdle (State.mayCut_output hcut).2 hx
  have hassocs : (s.cutCharged o c p).mac.assocs = s.mac.assocs := (congrArg (fun t : State => t.mac.assocs) hbeside :)
  have hsec : ((s.cutCharged o c p).macsecStart o (plainFrame p.bytes)).2 = (s.macsecStart o (plainFrame p.bytes)).2 :=
    State.macsecStart_protection hassocs (s.cutCharged_word o c p (by simp only [R.SEC_MSEC_PORT.EN]; omega)) _
  obtain ⟨hmem, hcol, hregs⟩ := State.macStart_rest hidle c { p with failing := bad, lateStart := s.pastRelease p }
  have hpkt := congrArg Prod.snd (State.macStart_of_idle hidle c { p with failing := bad, lateStart := s.pastRelease p })
  refine ⟨?_, ?_, ?_⟩
  · simp only [State.cutStarted, hmem, hpkt, hbuf, htb, hsec, s.cutCharged_preemptable]
  · have hdeficit := State.cutCharged_deficit (State.leafOut_of_leafPort ho) hcut
    rw [State.deficit] at hdeficit ⊢
    rwa [← hcol] at hdeficit
  · exact (hregs R.SWC_CUT.STARTS (by decide)).trans (s.cutCharged_starts o c p)

/-! ### The obligation -/

/-- Settles O34: dropping the packets that a test finds touches no other queue, and where the conditions of a cut hold, its output's leaf queues
are empty and its last frame has been sent. -/
theorem breachesAndCuts : Obligations.BreachesAndCuts := by
  refine ⟨fun s l n c hl hf hp => ⟨?link, ?pause⟩, fun s n o c bad p hn hbad hheld ho hf hcut hsrc => ?starts, fun s n bad hn hbad h => ?stays⟩
  case link => exact ⟨_, exec_breachLink hl hf hp, s.breachWhere_spec ..⟩
  case pause => exact ⟨_, exec_breachPause hl hf hp, s.breachWhere_spec ..⟩
  case starts =>
    obtain ⟨hbuf, hdeficit, hstarts⟩ := State.cutStarted_spec bad ho hcut
    refine ⟨_, exec_switchCutStart (wf_switchCutStart hn hbad) hheld ho hf hcut hsrc, ?_, ?_, ?_, ?_, fun l => ?_⟩
    · rw [State.settle_buf, hbuf]
    · rwa [State.deficit, State.settle_col_deficits]
    · rw [State.settle_buf, hbuf]
    · rwa [State.settle_get _ (by decide)]
    · rw [State.leafQ_settle, State.leafQ, hbuf]
      rfl
  case stays => exact ⟨_, exec_switchCutStart_none (wf_switchCutStart hn hbad) h, s.kept_settle⟩

end Sys2Proof.Machine
end

section
/-! SUPPORT. Shapers and meters: what a tick and a landed change make of a shaper, what SHAPER_SET shows in the registers and leaves beside them,
and the record of METER_SET (R301, R317, R329). -/
namespace Sys2Proof.Machine

/-! ### Shapers in the state (R317) -/

section
variable (s : State)

@[simp] theorem State.shaper_setShaper_same (k : Nat) (v : Shaper) : (s.setShaper k v).shaper k = v := SMap.find_put_same ..

theorem State.shaper_setShaper_other {k j : Nat} (v : Shaper) (h : j ≠ k) : (s.setShaper k v).shaper j = s.shaper j :=
  SMap.find_put_other _ _ _ _ _ h

@[simp] theorem State.shaper_settle (k : Nat) : s.settle.shaper k = s.shaper k := by rw [State.shaper, State.settle_col_shapers, State.shaper]

/-- A change that lands waits for its tick (R317). -/
theorem State.landChange_change (k rate burst : Nat) (weight : Option Nat) (compat : Nat) :
    ((s.landChange k rate burst weight compat).shaper k).change = some ⟨rate, burst, weight, compat, s.ns⟩ := by
  rw [State.landChange, State.shaper_setShaper_same]

theorem State.landChange_other {k j : Nat} (rate burst : Nat) (weight : Option Nat) (compat : Nat) (h : j ≠ k) :
    (s.landChange k rate burst weight compat).shaper j = s.shaper j := s.shaper_setShaper_other _ h

theorem State.landChange_word (k rate burst : Nat) (weight : Option Nat) (compat off : Nat) :
    (s.landChange k rate burst weight compat).word off = s.word off := State.word_of_regs rfl off

theorem State.landChange_get (k rate burst : Nat) (weight : Option Nat) (compat : Nat) (l : Loc) :
    (s.landChange k rate burst weight compat).get l = s.get l := State.get_of_regs rfl l

end

theorem Shaper.tickTo_ticks (sh : Shaper) (k t : Nat) : (sh.tickTo k t).ticks = t / tickOf k := by
  unfold Shaper.tickTo
  split
  · rfl
  · exact ite_keeps rfl rfl

/-- Without a change under way, the ticks add their credit (R317). -/
theorem Shaper.tickTo_credit {sh : Shaper} (h : sh.change = none) (k t : Nat) :
    (sh.tickTo k t).credit = sh.refill k (t / tickOf k - sh.ticks) := by
  rw [Shaper.tickTo, h]

theorem exec_shaperTick {s : State} {k : Nat} (hk : Instr.wf (.shaperTick k) = true) (hf : s.forwarding = true)
    (ht : (s.shaper k).ticks < s.ns / tickOf k) :
    exec (.shaperTick k) s = .next (s.setShaper k ((s.shaper k).tickTo k s.ns)).settle :=
  complete_of_eq hk (if_pos ((Bool.and_eq_true _ _).mpr ⟨hf, decide_eq_true ht⟩))

/-! ### SHAPER_SET (R329) -/

/-- The state beside registers and shapers. -/
def State.unshaped (s : State) : State := { s with regs := [], col := { s.col with shapers := [] } }

theorem State.unshaped_set (s : State) (l : Loc) (v : Nat) : (s.set l v).unshaped = s.unshaped := rfl

theorem State.unshaped_landChange (s : State) (k rate burst : Nat) (weight : Option Nat) (compat : Nat) :
    (s.landChange k rate burst weight compat).unshaped = s.unshaped := rfl

section
variable {s : State} {seq : Nat} {c : OpenCmd}

theorem exec_shaperSet (hb : s.begins seq 0x30 c) (hq : (c.op 17 1).testBit 2 = false) (hform : shaperFormed c = true)
    (hnode : s.shaperNode c = true) (hvalues : s.shaperValues c = true) (hfabric : s.fabricNode c = false) (hrate : s.rateBroken c = false) :
    exec (.shaperSet seq) s = .next ((s.shaperLand c).done seq []).settle := by
  refine complete_of_eq rfl ((State.runCmd_of hb _).trans ?_)
  rw [hq, hform, hnode, hvalues, hfabric, hrate]
  rfl

theorem exec_shaperQuery (hb : s.begins seq 0x30 c) (hq : (c.op 17 1).testBit 2 = true) (hnode : s.shaperNode c = true) :
    exec (.shaperQuery seq) s = .next (s.told seq (s.shaperQuery c)).settle := by
  refine complete_of_eq rfl ((State.runCmd_of hb _).trans ?_)
  rw [hq, hnode]
  rfl

/-- A command that names an output names one that the device has. -/
theorem State.shaperNode_output (h : s.shaperNode c = true) (hk : c.op 16 1 = 0) : c.op 20 4 < 99 := by
  simp only [State.shaperNode, hk, Bool.and_eq_true, decide_eq_true_eq] at h
  exact h.2

/-- A command that names a class of an output names ones that the device has. -/
theorem State.shaperNode_class (h : s.shaperNode c = true) (hk : c.op 16 1 = 1) : c.op 20 4 < 99 ∧ c.op 18 1 < 8 := by
  simp only [State.shaperNode, hk, Bool.and_eq_true, decide_eq_true_eq] at h
  exact h.2

/-- The maximum rate of a class fits its field. -/
theorem State.shaperValues_max (h : s.shaperValues c = true) (hk : c.op 16 1 = 1) : c.op 28 4 < 2 ^ 28 := by
  simp only [State.shaperValues, hk, Bool.and_eq_true, decide_eq_true_eq] at h
  obtain ⟨⟨⟨⟨⟨-, hmax⟩, -⟩, -⟩, -⟩, -⟩ := h
  exact hmax

/-- A change lands in registers and shapers alone. -/
theorem State.unshaped_shaperLand (s : State) (c : OpenCmd) : (s.shaperLand c).unshaped = s.unshaped := by
  unfold State.shaperLand
  dsimp only
  split <;> simp only [State.unshaped_landChange, State.unshaped_set]

theorem State.clocked_shaperLand (s : State) (c : OpenCmd) : (s.shaperLand c).clocked = s.clocked :=
  (congrArg State.clocked (s.unshaped_shaperLand c) :)

/-- The registers of outputs and their classes are the only ones in which a change shows (COL_OUT, COL_OC_RATE, COL_OC_BURST). -/
theorem State.shaperLand_word (h : s.shaperNode c = true) {off : Nat} (hoff : ¬ (0x1E01000 ≤ off ∧ off < 0x1E08000)) :
    (s.shaperLand c).word off = s.word off := by
  have hset : ∀ (t : State) (l : Loc) (v : Nat), 0x1E01000 ≤ l.off ∧ l.off < 0x1E08000 → (t.set l v).word off = t.word off :=
    fun t l v hl => t.word_set_other fun heq => hoff (heq ▸ hl)
  unfold State.shaperLand
  dsimp only
  split
  · rename_i hk
    have hi := State.shaperNode_output h hk
    rw [State.landChange_word, hset _ _ _ (by simp only [R.COL_OUT.SHAPE]; omega)]
  · rename_i hk
    obtain ⟨hi, hc⟩ := State.shaperNode_class h hk
    rw [State.landChange_word, State.landChange_word, hset _ _ _ (by simp only [R.COL_OC_BURST.MAX_BURST]; omega),
      hset _ _ _ (by simp only [R.COL_OC_BURST.RES_BURST]; omega), hset _ _ _ (by simp only [R.COL_OC_RATE.MAX]; omega),
      hset _ _ _ (by simp only [R.COL_OC_RATE.RES]; omega)]
  · rw [State.landChange_word]
  · rw [State.landChange_word]

theorem State.shaperSet_kept (h : s.shaperNode c = true) :
    s.kept { ((s.shaperLand c).done seq []).settle with
      cmd := s.cmd, col := { ((s.shaperLand c).done seq []).settle.col with shapers := s.col.shapers } } []
      fun k => 0x1E01000 ≤ k ∧ k < 0x1E08000 := by
  have hland := s.unshaped_shaperLand c
  have hstill := congrArg (fun y : State => ({ y with cmd := s.cmd, col := { y.col with shapers := s.col.shapers } } : State).still) hland
  refine State.kept_put (g := fun y => { y with cmd := s.cmd, col := { y.col with shapers := s.col.shapers } }) (fun _ => rfl) (fun _ => rfl)
    (fun _ => rfl) rfl hstill (congrArg State.out hland :) fun off hoff => State.shaperLand_word h hoff

/-- A change of an output's shape (COL_OUT). -/
theorem State.shaperLand_output (s : State) (hk : c.op 16 1 = 0) :
    (s.shaperLand c).get (R.COL_OUT.SHAPE (c.op 20 4)) = c.op 24 4 % 2 ^ 28 ∧
      ((s.shaperLand c).shaper (c.op 20 4)).change = some ⟨c.op 24 4, 16384, none, c.op 17 1 % 4, s.ns⟩ := by
  simp only [State.shaperLand, hk]
  exact ⟨State.get_set_same _ _ _ (by simp [R.COL_OUT.SHAPE]), State.landChange_change ..⟩

/-- A change of an output's class takes its reserved and its maximum shaper. -/
theorem State.shaperLand_class_change (h : s.shaperNode c = true) (hk : c.op 16 1 = 1) :
    ((s.shaperLand c).shaper (resKey (c.op 20 4) (c.op 18 1))).change =
        some ⟨c.op 24 4, burstApplied (c.op 32 4), none, c.op 17 1 % 4, s.ns⟩ ∧
      ((s.shaperLand c).shaper (maxKey (c.op 20 4) (c.op 18 1))).change =
        some ⟨c.op 28 4, burstApplied (c.op 36 4), none, c.op 17 1 % 4, s.ns⟩ := by
  obtain ⟨hi, hc⟩ := State.shaperNode_class h hk
  have hkeys : resKey (c.op 20 4) (c.op 18 1) ≠ maxKey (c.op 20 4) (c.op 18 1) := by
    simp only [resKey, maxKey]
    omega
  simp only [State.shaperLand, hk]
  refine ⟨?_, State.landChange_change ..⟩
  rw [State.landChange_other _ _ _ _ _ hkeys]
  exact State.landChange_change ..

/-- The registers of an output's class show a change (COL_OC_RATE, COL_OC_BURST). -/
theorem State.shaperLand_class_shown (s : State) (hk : c.op 16 1 = 1) :
    (s.shaperLand c).get (R.COL_OC_RATE.RES (c.op 20 4) (c.op 18 1)) = c.op 24 4 % 2 ^ 28 ∧
      (s.shaperLand c).get (R.COL_OC_RATE.MAX (c.op 20 4) (c.op 18 1)) = c.op 28 4 % 2 ^ 28 ∧
      (s.shaperLand c).get (R.COL_OC_BURST.RES_BURST (c.op 20 4) (c.op 18 1)) = burstUnits (c.op 32 4) % 2 ^ 20 ∧
      (s.shaperLand c).get (R.COL_OC_BURST.MAX_BURST (c.op 20 4) (c.op 18 1)) = burstUnits (c.op 36 4) % 2 ^ 20 := by
  simp only [State.shaperLand, hk, State.landChange_get]
  simp (disch := (simp only [R.COL_OC_RATE.RES, R.COL_OC_RATE.MAX, R.COL_OC_BURST.RES_BURST, R.COL_OC_BURST.MAX_BURST]; omega)) only
    [State.get_set_of_off, State.get_set_of_bits, State.get_set_same]
  exact ⟨rfl, rfl, rfl, rfl⟩

theorem burstUnits_lt (b : Nat) : burstUnits b < 2 ^ 20 := by
  unfold burstUnits
  omega

/-- A change of a group's shaper. -/
theorem State.shaperLand_group (s : State) (hk : c.op 16 1 = 2) : ((s.shaperLand c).shaper (groupKey (c.op 20 4))).change =
    some ⟨c.op 24 4, c.op 32 4, if c.op 40 2 = 0 then none else some (c.op 40 2), c.op 17 1 % 4, s.ns⟩ := by
  simp only [State.shaperLand, hk]
  exact State.landChange_change ..

/-- A change of an endpoint's shaper. -/
theorem State.shaperLand_endpoint (s : State) (hk : c.op 16 1 = 3) : ((s.shaperLand c).shaper (epKey (c.op 20 4))).change =
    some ⟨c.op 24 4, c.op 32 4, if c.op 40 2 = 0 then none else some (c.op 40 2), c.op 17 1 % 4, s.ns⟩ := by
  simp only [State.shaperLand, hk]
  exact State.landChange_change ..

end

/-! ### METER_SET (R301) -/

@[simp] theorem State.aprRec_setAprRec_same (s : State) (e : Nat) (r : AprRec) : (s.setAprRec e r).aprRec e = r := SMap.find_put_same ..

theorem State.aprRec_setAprRec_other (s : State) {e k : Nat} (r : AprRec) (h : k ≠ e) : (s.setAprRec e r).aprRec k = s.aprRec k :=
  SMap.find_put_other _ _ _ _ _ h

theorem State.clocked_setAprRec (s : State) (e : Nat) (r : AprRec) : (s.setAprRec e r).clocked = s.clocked := rfl

@[simp] theorem State.aprRec_settle (s : State) (e : Nat) : s.settle.aprRec e = s.aprRec e := by
  rw [State.aprRec, State.settle_apr, State.aprRec]

theorem exec_meterSet {s : State} {seq : Nat} {c : OpenCmd} (hb : s.begins seq 0x32 c) (hgood : meterBad c = false) :
    exec (.meterSet seq) s =
      .next ((s.setAprRec (c.op 16 4) (meterRecord ((s.aprRec (c.op 16 4)).refill s.ns) c)).done seq []).settle := by
  refine complete_of_eq rfl ((State.runCmd_of hb _).trans ?_)
  rw [hgood]
  rfl

end Sys2Proof.Machine
end

section
/-! SUPPORT. Gates: what a list in force, a hold of preemptable traffic and a pending list change, and the commands that bring a list or a STOP
(R326, R328, R394). -/
namespace Sys2Proof.Machine

/-! ### Gates in the state (R326, R328) -/

section
variable (s : State)

@[simp] theorem State.gateList_settle (o : Nat) : s.settle.gateList o = s.gateList o := by
  rw [State.gateList, State.settle_col_gates, State.gateList]

@[simp] theorem State.pendingGates_settle (o : Nat) : s.settle.pendingGates o = s.pendingGates o := by
  rw [State.pendingGates, State.settle_col_gatePending, State.pendingGates]

theorem State.gateList_of_col {s t : State} (h : t.col = s.col) (o : Nat) : t.gateList o = s.gateList o := by
  rw [State.gateList, h, State.gateList]

theorem State.pendingGates_of_col {s t : State} (h : t.col = s.col) (o : Nat) : t.pendingGates o = s.pendingGates o := by
  rw [State.pendingGates, h, State.pendingGates]

end

/-- The state beside which ports are held and what they are sending. -/
def State.unheld (s : State) : State := { s with mac := { s.mac with held := [], sending := [] } }

/-- A hold that begins or ends changes which port is held and what it is sending, and nothing else (R394). -/
theorem State.unheld_setMacHold (s : State) (o : Nat) (b : Bool) : (s.setMacHold o b).unheld = s.unheld := by
  unfold State.setMacHold
  split
  · split <;> rfl
  · rfl

/-- A command that changes a hold beside a register leaves what it leaves beside the hold. -/
theorem State.kept_held {s x y : State} {but : Nat → Prop} (h : x.unheld = y.unheld)
    (hs : ({ y with mac := { y.mac with held := s.mac.held } } : State).still = s.still) (ho : y.out = s.out)
    (hw : ∀ off, ¬ but off → y.word off = s.word off) :
    s.kept { x.settle with mac := { x.settle.mac with held := s.mac.held } } [] but := by
  have hstill : ({ x with mac := { x.mac with held := s.mac.held } } : State).still =
      ({ y with mac := { y.mac with held := s.mac.held } } : State).still :=
    (congrArg (fun u : State => ({ u with mac := { u.mac with held := s.mac.held } } : State).still) h :)
  exact State.kept_put (g := fun u => { u with mac := { u.mac with held := s.mac.held } }) (fun _ => rfl) (fun _ => rfl) (fun _ => rfl) rfl
    (hstill.trans hs) ((congrArg State.out h :).trans ho) fun off hoff =>
      (State.word_of_regs (congrArg State.regs h :) off).trans (hw off hoff)

/-- What a hold leaves as it was. -/
theorem State.beside_hold {s t : State} (h : t.unheld = s.unheld) : t.col = s.col ∧ ∀ l, t.get l = s.get l :=
  ⟨(congrArg State.col h :), State.get_of_regs (congrArg State.regs h :)⟩

theorem State.setMacHold_held (s : State) (o : Nat) (b : Bool) : SMap.find (fun _ => false) (s.setMacHold o b).mac.held o = b :=
  SMap.find_put_same ..

/-- COL_GATE shows the entry in force (R326). -/
def State.gateShown (s : State) (o : Nat) (g : GateList) : State :=
  (s.set (R.COL_GATE.STATE o) (g.at_ (s.gateMoment o g)).2.1).set (R.COL_GATE.ENTRY o) (g.at_ (s.gateMoment o g)).1

theorem State.gateShown_col (s : State) (o : Nat) (g : GateList) : (s.gateShown o g).col = s.col := rfl

theorem State.gateShown_word (s : State) {o : Nat} (g : GateList) {off : Nat} (h : off ≠ (R.COL_GATE.STATE o).off) :
    (s.gateShown o g).word off = s.word off :=
  (State.word_set_other (l := R.COL_GATE.ENTRY o) _ h).trans (State.word_set_other _ h)

theorem State.gateShown_fields (s : State) (o : Nat) (g : GateList) :
    (s.gateShown o g).get (R.COL_GATE.STATE o) = (g.at_ (s.gateMoment o g)).2.1 % 256 ∧
      (s.gateShown o g).get (R.COL_GATE.ENTRY o) = (g.at_ (s.gateMoment o g)).1 % 1024 ∧
      (s.gateShown o g).bit (R.COL_GATE.PENDING o) = s.bit (R.COL_GATE.PENDING o) ∧
      (s.gateShown o g).bit (R.COL_GATE.ACTIVE o) = s.bit (R.COL_GATE.ACTIVE o) := by
  simp (disch := (simp only [R.COL_GATE.STATE, R.COL_GATE.ENTRY, R.COL_GATE.PENDING, R.COL_GATE.ACTIVE]; omega)) only
    [State.gateShown, State.bit, State.get_set_of_bits, State.get_set_same]
  exact ⟨rfl, rfl, trivial, trivial⟩

/-- Beside COL_GATE, the list in force acts on the hold of preemptable traffic alone (R326, R394). -/
theorem State.unheld_gateSync {s : State} {o : Nat} {g : GateList} (h : s.gateList o = some g) :
    (s.gateSync o).unheld = (s.gateShown o g).unheld := by
  unfold State.gateSync
  rw [h]
  exact ite_keeps (State.unheld_setMacHold ..) rfl

/-- What follows a command leaves COL_GATE. -/
theorem State.settle_gate_get {s : State} {o : Nat} {l : Loc} (ho : o < 96) (hl : l.off = 0x1E08000 + 0x10 * o) : s.settle.get l = s.get l :=
  s.settle_get (by simp only [followReg, hl]; omega)

theorem State.settle_gate_bit {s : State} {o : Nat} {l : Loc} (ho : o < 96) (hl : l.off = 0x1E08000 + 0x10 * o) : s.settle.bit l = s.bit l :=
  congrArg (· == 1) (State.settle_gate_get ho hl)

theorem exec_gateTransition {s : State} {o : Nat} (ho : o < 96) (hf : s.forwarding = true) :
    exec (.gateTransition o) s = .next (s.gateSync o).settle := complete_of_eq (decide_eq_true ho) (if_pos hf)

/-! ### Changes of a list (R328) -/

/-- A pending list or STOP is in force. -/
def State.gateApplied (s : State) (o : Nat) (new : Option GateList) : State :=
  (((s.setGates o new).setPendingGates o none).setBit (R.COL_GATE.PENDING o) false).setBit (R.COL_GATE.ACTIVE o) new.isSome

/-- Without a list every gate is open. -/
def State.gatesOpened (s : State) (o : Nat) : State := (s.set (R.COL_GATE.STATE o) 255).set (R.COL_GATE.ENTRY o) 0

/-- A pending list, or a STOP, is stored with its change time. -/
def State.gatesStored (s : State) (o change : Nat) (g : Option GateList) : State :=
  ((s.setPendingGates o (some (change, g))).setBit (R.COL_GATE.PENDING o) true).set (R.COL_GATE_CHANGE.CHANGE o) (change % 2 ^ 48)

section
variable (s : State) (o : Nat)

theorem State.gateApplied_lists (new : Option GateList) :
    (s.gateApplied o new).gateList o = new ∧ (s.gateApplied o new).pendingGates o = none :=
  ⟨SMap.find_put_same .., SMap.find_put_same ..⟩

theorem State.gateApplied_bits (new : Option GateList) :
    (s.gateApplied o new).bit (R.COL_GATE.PENDING o) = false ∧ (s.gateApplied o new).bit (R.COL_GATE.ACTIVE o) = new.isSome := by
  refine ⟨?_, State.bit_setBit_same _ _ _ rfl (by simp [R.COL_GATE.ACTIVE])⟩
  rw [State.gateApplied, State.bit, State.setBit,
    State.get_set_of_bits (by simp [R.COL_GATE.PENDING]) (by simp [R.COL_GATE.PENDING, R.COL_GATE.ACTIVE])]
  exact State.bit_setBit_same _ _ _ rfl (by simp [R.COL_GATE.PENDING])

theorem State.gatesOpened_col : (s.gatesOpened o).col = s.col := rfl

theorem State.gatesOpened_fields : (s.gatesOpened o).get (R.COL_GATE.STATE o) = 255 ∧
    (s.gatesOpened o).bit (R.COL_GATE.PENDING o) = s.bit (R.COL_GATE.PENDING o) ∧
      (s.gatesOpened o).bit (R.COL_GATE.ACTIVE o) = s.bit (R.COL_GATE.ACTIVE o) := by
  simp (disch := (simp only [R.COL_GATE.STATE, R.COL_GATE.ENTRY, R.COL_GATE.PENDING, R.COL_GATE.ACTIVE]; omega)) only
    [State.gatesOpened, State.bit, State.get_set_of_bits, State.get_set_same]
  exact ⟨rfl, trivial, trivial⟩

theorem State.gateChange_none : s.gateChange o none = ((s.gateApplied o none).gatesOpened o).setMacHold o false := rfl
theorem State.gateChange_some (g : GateList) : s.gateChange o (some g) = (s.gateApplied o (some g)).gateSync o := rfl

/-- At its change time a pending list, or a STOP, is in force, and COL_GATE shows it. -/
theorem State.gateChange_spec (new : Option GateList) :
    (s.gateChange o new).col = (s.gateApplied o new).col ∧ (s.gateChange o new).bit (R.COL_GATE.PENDING o) = false ∧
      (s.gateChange o new).bit (R.COL_GATE.ACTIVE o) = new.isSome ∧ (new = none → (s.gateChange o new).get (R.COL_GATE.STATE o) = 255) := by
  obtain ⟨hpending, hactive⟩ := s.gateApplied_bits o new
  cases new with
  | none =>
    obtain ⟨hcol, hget⟩ := State.beside_hold (((s.gateApplied o none).gatesOpened o).unheld_setMacHold o false)
    obtain ⟨hstate, hpend, hact⟩ := (s.gateApplied o none).gatesOpened_fields o
    rw [State.gateChange_none, hcol, State.bit, State.bit, hget, hget, hget]
    exact ⟨State.gatesOpened_col .., hpend.trans hpending, hact.trans hactive, fun _ => hstate⟩
  | some g =>
    obtain ⟨hcol, hget⟩ := State.beside_hold (State.unheld_gateSync (s.gateApplied_lists o (some g)).1)
    obtain ⟨-, -, hpend, hact⟩ := (s.gateApplied o (some g)).gateShown_fields o g
    rw [State.gateChange_some, hcol, State.bit, State.bit, hget, hget]
    exact ⟨State.gateShown_col .., hpend.trans hpending, hact.trans hactive, fun h => nomatch h⟩

theorem State.gatesStored_pending (change : Nat) (g : Option GateList) :
    (s.gatesStored o change g).pendingGates o = some (change, g) ∧ (s.gatesStored o change g).bit (R.COL_GATE.PENDING o) = true := by
  refine ⟨SMap.find_put_same .., ?_⟩
  rw [State.gatesStored, State.bit, State.get_set_of_off (by simp only [R.COL_GATE.PENDING, R.COL_GATE_CHANGE.CHANGE]; omega)]
  exact State.bit_setBit_same _ _ _ rfl (by simp [R.COL_GATE.PENDING])

theorem State.done_col (seq : Nat) (d : List (Nat × Nat × Nat)) : (s.done seq d).col = s.col := rfl

/-- A command that stores a list or a STOP leaves it pending. -/
theorem State.gatesStored_done {o : Nat} (ho : o < 96) (change seq : Nat) (g : Option GateList) (d : List (Nat × Nat × Nat)) :
    ((s.gatesStored o change g).done seq d).settle.pendingGates o = some (change, g) ∧
      ((s.gatesStored o change g).done seq d).settle.bit (R.COL_GATE.PENDING o) = true := by
  obtain ⟨hpending, hbit⟩ := s.gatesStored_pending o change g
  refine ⟨?_, ?_⟩
  · rw [State.pendingGates_settle, State.pendingGates_of_col (State.done_col ..), hpending]
  · rw [State.settle_gate_bit ho rfl, State.bit, State.done, State.get_finish]
    exact hbit

theorem State.clocked_gatesStored (change : Nat) (g : Option GateList) : (s.gatesStored o change g).clocked = s.clocked := rfl

end

section
variable {s : State} {o seq : Nat} {c : OpenCmd}

theorem exec_gateChange {ch : Nat} {new : Option GateList} (ho : o < 96) (hf : s.forwarding = true)
    (hp : s.pendingGates o = some (ch, new)) (hch : ch ≤ s.ns) : exec (.gateChange o) s = .next (s.gateChange o new).settle := by
  refine complete_of_eq (decide_eq_true ho) ?_
  rw [hp]
  exact if_pos ((Bool.and_eq_true _ _).mpr ⟨hf, decide_eq_true hch⟩)

theorem exec_setAndHoldMac {g : GateList} (ho : o < 96) (hf : s.forwarding = true) (hg : s.gateList o = some g) (hbase : g.base ≤ s.ns)
    (hop : g.op (g.at_ (s.gateMoment o g)).1 = 1) : exec (.setAndHoldMac o) s = .next (s.setMacHold o true).settle := by
  have hnear : s.holdNear o g (s.entriesStop o g) = true := by simp [State.holdNear, hbase, hop]
  exact complete_of_eq (decide_eq_true ho) (if_pos (by simp [hf, hg, hnear]))

/-- A command of gates names a port. -/
theorem State.gateCmdGood_port (s : State) (h : s.gateCmdGood c = true) : c.op 16 1 < 96 := by
  simp only [State.gateCmdGood, Bool.and_eq_true, decide_eq_true_eq] at h
  obtain ⟨⟨⟨⟨-, hport⟩, -⟩, -⟩, -⟩ := h
  exact hport

theorem exec_gateListStop (hb : s.begins seq 0x31 c) (hstop : (c.op 17 1).testBit 0 = true) (hgood : s.gateCmdGood c = true) :
    exec (.gateListStop seq) s = .next ((s.gatesStored (c.op 16 1) (s.changeTime (c.op 32 8) (c.op 40 4)) none).done seq
      [(16, 6, s.changeTime (c.op 32 8) (c.op 40 4) % 2 ^ 48)]).settle := by
  refine complete_of_eq rfl ((State.runCmd_of hb _).trans ?_)
  rw [hstop, hgood]
  rfl

theorem State.clocked_emitAll (s : State) (es : List Emit) : (s.emitAll es).clocked = s.clocked := rfl

theorem State.changeTime_emitAll (s : State) (es : List Emit) (base cycle : Nat) :
    (s.emitAll es).changeTime base cycle = s.changeTime base cycle := rfl

/-- Whether a class finds an open window is read off registers alone (R327, R328). -/
theorem State.windowGood_of_regs {s t : State} (h : t.regs = s.regs) (o k : Nat) (g : GateList) :
    t.windowGood o k g = s.windowGood o k g := by
  unfold State.windowGood State.preemptable State.preempting State.bit State.wireTb State.portMbps
  rw [funext (State.get_of_regs h)]

/-- The list that a GATE_LIST_SET brings (R328). -/
def State.gatesBrought (s : State) (c : OpenCmd) (entries : List Byte) : GateList :=
  ⟨(List.range (c.op 18 2)).map (gateOf entries), s.changeTime (c.op 32 8) (c.op 40 4), c.op 40 4, c.op 44 4, s.ns⟩

theorem exec_gateListSet {entries : List Byte} (hb : s.begins seq 0x31 c) (hset : (c.op 17 1).testBit 0 = false)
    (hgood : s.gateCmdGood c = true) (hn : 1 ≤ c.op 18 2) (hmax : c.op 18 2 ≤ 1024) (haddr : c.op 24 8 % 64 = 0)
    (hext : c.op 44 4 ≤ c.op 40 4) (hentries : ((List.range (c.op 18 2)).all (gateGood entries)) = true)
    (hwindows : ((List.range 8).all fun k => s.windowGood (c.op 16 1) k (s.gatesBrought c entries)) = true) :
    exec (.gateListSet seq entries) s = .next (((s.emitAll (s.pfReads (s.cmdPf c) (c.op 24 8) (8 * c.op 18 2))).gatesStored (c.op 16 1)
      (s.changeTime (c.op 32 8) (c.op 40 4)) (some (s.gatesBrought c entries))).done seq
        [(16, 6, s.changeTime (c.op 32 8) (c.op 40 4) % 2 ^ 48)]).settle := by
  have hread : ((List.range 8).all fun k => (s.emitAll (s.pfReads (s.cmdPf c) (c.op 24 8) (8 * c.op 18 2))).windowGood (c.op 16 1) k
      (s.gatesBrought c entries)) = true := by simpa only [State.windowGood_of_regs (s.emitAll_regs _)] using hwindows
  have hlimits : (!s.gateCmdGood c || c.op 18 2 == 0 || decide (1024 < c.op 18 2) || c.op 24 8 % 64 != 0 ||
      decide (c.op 40 4 < c.op 44 4)) = false := by simp [hgood, haddr, hmax, hext, Nat.ne_of_gt hn]
  refine complete_of_eq rfl ((State.runCmd_of hb _).trans ?_)
  dsimp only
  rw [hset, hlimits, hentries, State.changeTime_emitAll, ← State.gatesBrought, hread]
  rfl

end

/-- Settles O14: each command sets what it names, and every other shaper, record and register stays. -/
theorem shapersMetersAndGatesSet : Obligations.ShapersMetersAndGatesSet := by
  refine ⟨?shaper, ?query, ?tick, ?meter, ?stop, ?list, ?change, ?transition, ?hold⟩
  case shaper =>
    intro s seq c hb hq hform hnode hvalues hfabric hrate
    have hget : ∀ l : Loc, ¬ followReg l.off → ((s.shaperLand c).done seq []).settle.get l = (s.shaperLand c).get l :=
      fun l hl => State.settle_get_finish _ hl
    have hshaper : ∀ k, ((s.shaperLand c).done seq []).settle.shaper k = (s.shaperLand c).shaper k := fun k => State.shaper_settle _ k
    refine ⟨_, exec_shaperSet hb hq hform hnode hvalues hfabric hrate, State.done_outcomeOf hb.1 (s.clocked_shaperLand c) _,
      fun hk => ?_, fun hk => ?_, fun hk => ?_, fun hk => ?_, State.shaperSet_kept hnode⟩
    · have hi := State.shaperNode_output hnode hk
      rw [hget _ (by simp only [R.COL_OUT.SHAPE, followReg]; omega), hshaper]
      exact s.shaperLand_output hk
    · obtain ⟨hi, hc⟩ := State.shaperNode_class hnode hk
      obtain ⟨hres, hmax, hresBurst, hmaxBurst⟩ := s.shaperLand_class_shown hk
      rw [hget _ (by simp only [R.COL_OC_RATE.RES, followReg]; omega), hget _ (by simp only [R.COL_OC_RATE.MAX, followReg]; omega),
        hget _ (by simp only [R.COL_OC_BURST.RES_BURST, followReg]; omega),
        hget _ (by simp only [R.COL_OC_BURST.MAX_BURST, followReg]; omega), hshaper, hshaper, hmax, hresBurst, hmaxBurst,
        Nat.mod_eq_of_lt (State.shaperValues_max hvalues hk), Nat.mod_eq_of_lt (burstUnits_lt _), Nat.mod_eq_of_lt (burstUnits_lt _)]
      exact ⟨hres, rfl, rfl, rfl, State.shaperLand_class_change hnode hk⟩
    · rw [hshaper]
      exact s.shaperLand_group hk
    · rw [hshaper]
      exact s.shaperLand_endpoint hk
  case query =>
    intro s seq c hb hq hnode
    refine ⟨_, exec_shaperQuery hb hq hnode, ?_, State.kept_cmd rfl rfl (List.append_nil _).symm fun _ => rfl⟩
    rw [State.settle_outcomeOf, State.told, State.outcomeOf_finish hb.1]
  case tick =>
    intro s k hk hf ht
    refine ⟨_, exec_shaperTick hk hf ht, ?_, fun hnone => ?_, fun j hj => ?_, ?_⟩
    · rw [State.shaper_settle, State.shaper_setShaper_same, Shaper.tickTo_ticks]
    · rw [State.shaper_settle, State.shaper_setShaper_same, Shaper.tickTo_credit hnone]
    · rw [State.shaper_settle, s.shaper_setShaper_other _ hj]
    · exact State.kept_put (g := fun y => { y with col := { y.col with shapers := s.col.shapers } }) (fun _ => rfl) (fun _ => rfl) (fun _ => rfl)
        rfl rfl rfl fun _ _ => rfl
  case meter =>
    intro s seq c hb hgood
    refine ⟨_, exec_meterSet hb hgood, State.done_outcomeOf hb.1 (State.clocked_setAprRec ..) _, ?_, fun e he => ?_, ?_⟩
    · exact (State.aprRec_settle ..).trans (State.aprRec_setAprRec_same ..)
    · exact (State.aprRec_settle ..).trans (s.aprRec_setAprRec_other _ he)
    · exact State.kept_put (g := fun y => { y with cmd := s.cmd, apr := s.apr }) (fun _ => rfl) (fun _ => rfl) (fun _ => rfl)
        rfl rfl rfl fun _ _ => rfl
  case stop =>
    intro s seq c hb hstop hgood
    obtain ⟨hpending, hbit⟩ := s.gatesStored_done (s.gateCmdGood_port hgood) (s.changeTime (c.op 32 8) (c.op 40 4)) seq none
      [(16, 6, s.changeTime (c.op 32 8) (c.op 40 4) % 2 ^ 48)]
    exact ⟨_, exec_gateListStop hb hstop hgood, hpending, hbit, State.done_outcomeOf hb.1 (State.clocked_gatesStored ..) _⟩
  case list =>
    intro s seq c entries hb hset hgood hn hmax haddr hext hentries hwindows
    obtain ⟨hpending, hbit⟩ := (s.emitAll (s.pfReads (s.cmdPf c) (c.op 24 8) (8 * c.op 18 2))).gatesStored_done
      (s.gateCmdGood_port hgood) (s.changeTime (c.op 32 8) (c.op 40 4)) seq (some (s.gatesBrought c entries))
      [(16, 6, s.changeTime (c.op 32 8) (c.op 40 4) % 2 ^ 48)]
    exact ⟨_, exec_gateListSet hb hset hgood hn hmax haddr hext hentries hwindows, hpending, hbit,
      State.done_outcomeOf hb.1 ((State.clocked_gatesStored ..).trans (s.clocked_emitAll _)) _⟩
  case change =>
    intro s o ch new ho hf hp hch
    obtain ⟨hcol, hpending, hactive, hstate⟩ := s.gateChange_spec o new
    obtain ⟨hlist, hnone⟩ := s.gateApplied_lists o new
    refine ⟨_, exec_gateChange ho hf hp hch, ?_, ?_, ?_, ?_, fun h => ?_⟩
    · rw [State.gateList_settle, State.gateList_of_col hcol, hlist]
    · rw [State.pendingGates_settle, State.pendingGates_of_col hcol, hnone]
    · rw [State.settle_gate_bit ho rfl, hpending]
    · rw [State.settle_gate_bit ho rfl, hactive]
    · rw [State.settle_gate_get ho rfl, hstate h]
  case transition =>
    intro s o g ho hf hg
    have hunheld := State.unheld_gateSync hg
    obtain ⟨hcol, hget⟩ := State.beside_hold hunheld
    obtain ⟨hstate, hentry, -, -⟩ := s.gateShown_fields o g
    refine ⟨_, exec_gateTransition ho hf, ?_, ?_, ?_, ?_⟩
    · rw [State.settle_gate_get ho rfl, hget, hstate]
    · rw [State.settle_gate_get ho rfl, hget, hentry]
    · rw [State.gateList_settle, State.gateList_of_col hcol, State.gateList_of_col (s.gateShown_col o g), hg]
    · exact State.kept_held hunheld rfl rfl fun off hoff => s.gateShown_word g hoff
  case hold =>
    intro s o g ho hf hg hbase hop
    refine ⟨_, exec_setAndHoldMac ho hf hg hbase hop, ?_, ?_⟩
    · rw [State.settle_mac_held, State.setMacHold_held]
    · exact State.kept_held (s.unheld_setMacHold o true) rfl rfl fun _ _ => rfl

end Sys2Proof.Machine
end

section
/-! SUPPORT. A frame whose packet names an account that the device does not have: what the statement about outputs leaves out (R269, R387). -/
namespace Sys2Proof.Machine

/-! ### A frame of a stray account (R269, R387) -/

/-- A packet that gives up one reserved cell beyond its chain. Its account is none of the 385 of R269: BUF_ACCT.USED of this number stands at
the offset of port 0's count of frames sent. -/
def strayFrame : Pkt := { id := 0, src := 0, bytes := [], acct := 0x9FE2B, xResv := 1, leaf := 7 }

/-- SERVE, port 0 up, and that packet alone in the leaf queue of endpoint 7, which leaves port 0 in class 0; 2^20 frames have been sent: as
BUF_ACCT, one cell in use. -/
def straySend : State :=
  let s : State := { State.reset with mode := .serve, col := { epGroup := [(7, 1)], groupOut := [(0, 1)] } }
  (((s.set (R.MAC_CFG.SPEED 0) 4).setBit (R.MAC_STATUS.LINK 0) true).setWord (R.MAC_CNT.COUNT 0 11).off 0x100000#64).setLeafQ 7 [strayFrame]

theorem straySend_head : straySend.forwarding = true ∧ straySend.headOf 7 = some strayFrame ∧ straySend.leafOut 7 = some (0, 0) := by
  decide +kernel

theorem straySend_plain : straySend.failingPlaces strayFrame = [] ∧ straySend.bit (R.SEC_MSEC_PORT.EN 0) = false ∧
    ptpAt (straySend.get (R.MAC_TAG.TPID_X 0)) (straySend.insertTag 0 0 []) 2 12 = none := by decide +kernel

theorem straySend_before : straySend.word (R.MAC_CNT.COUNT 0 11).off = 0x100000#64 := by decide +kernel

/-- The frame is chosen; the cell given up as it leaves takes 2^20 off the count, which has just counted it. -/
theorem straySend_after : (straySend.choose 0).any (fun x =>
    x.leaf == 7 && (State.release x 0 []).word (R.MAC_CNT.COUNT 0 11).off == 1#64) = true := by decide +kernel

/-- An output that finds a head releases it (R320). -/
theorem exec_collimatorSelect {s : State} {o : Nat} {bad : List Nat} {x : Choice} (ho : o < 99) (hbad : ∀ k ∈ bad, k < 64)
    (hf : s.forwarding = true) (hx : s.choose o = some x) :
    exec (.collimatorSelect o bad) s = .next (State.release x o bad).settle := by
  have hwf : Instr.wf (.collimatorSelect o bad) = true :=
    (Bool.and_eq_true _ _).mpr ⟨decide_eq_true ho, List.all_eq_true.mpr fun k hk => decide_eq_true (hbad k hk)⟩
  refine complete_of_eq hwf ?_
  rw [hf, hx]
  rfl

/-- Refutes O33: nothing bounds the account of a packet in a leaf queue, and the reserved cell that a frame of account 0x9FE2B gives up as it
leaves port 0 is counted off the word that counts the frames sent, so that count does not rise by 1. The device reaches no such state: its
accounts are those of R269. -/
theorem not_outputsServe : ¬ Obligations.OutputsServe := by
  rintro ⟨-, -, -, hmac, -⟩
  obtain ⟨hforward, hhead, hout⟩ := straySend_head
  obtain ⟨hwhole, hopen, hptp⟩ := straySend_plain
  obtain ⟨x, hchoose, hx⟩ := (Option.any_eq_true _ _).mp straySend_after
  obtain ⟨hleaf, hafter⟩ := (Bool.and_eq_true _ _).mp hx
  rw [← eq_of_beq hleaf] at hhead hout
  obtain ⟨t, -, ht, -, -, hcount, -⟩ := hmac straySend 0 0 x strayFrame _ (by decide) hforward hchoose hhead hout hwhole hopen rfl hptp
  rw [← Host.Outcome.next.inj ((exec_collimatorSelect (by decide) (by decide) hforward hchoose).symm.trans ht),
    State.settle_word _ (by decide), eq_of_beq hafter, straySend_before] at hcount
  exact absurd hcount (by decide)

end Sys2Proof.Machine
end

section
/-! SUPPORT. Fabric links: the registers and fields of an iris, and what its DOWN makes of them (R347, R348, R364). -/
namespace Sys2Proof.Machine

/-! ### An iris in the state -/

section
variable (s : State)

@[simp] theorem State.iris_setIris_same (i : Nat) (v : Iris) : (s.setIris i v).iris i = v := SMap.find_put_same ..

theorem State.iris_congr {t : State} (h : t.irises = s.irises) (i : Nat) : t.iris i = s.iris i := by simp only [State.iris, h]

@[simp] theorem State.iris_settle (i : Nat) : s.settle.iris i = s.iris i := s.iris_congr s.settle_irises i
@[simp] theorem State.iris_set (l : Loc) (v i : Nat) : (s.set l v).iris i = s.iris i := rfl
@[simp] theorem State.iris_sat (l : Loc) (k i : Nat) : (s.sat l k).iris i = s.iris i := rfl

@[simp] theorem State.clocked_setIris (i : Nat) (v : Iris) : (s.setIris i v).clocked = s.clocked := rfl
@[simp] theorem State.get_setIris (i : Nat) (v : Iris) (l : Loc) : (s.setIris i v).get l = s.get l := rfl
@[simp] theorem State.cmd_setIris (i : Nat) (v : Iris) : (s.setIris i v).cmd = s.cmd := rfl
@[simp] theorem State.word_setIris (i : Nat) (v : Iris) (off : Nat) : (s.setIris i v).word off = s.word off := rfl

end

/-- What follows a command leaves the registers of the irises. -/
theorem State.settle_get_iris (s : State) {i r : Nat} {l : Loc} (hi : i < 64) (hl : l.off = r + 0x4000 * i)
    (hr : 0x2300000 ≤ r ∧ r < 0x2304000) : s.settle.get l = s.get l :=
  State.settle_get s (by simp only [followReg]; omega)

theorem State.settle_irisState (s : State) {i : Nat} (hi : i < 64) : s.settle.irisState i = s.irisState i :=
  s.settle_get_iris hi rfl (by decide)

/-- So does a raise. -/
theorem State.raise_get_iris (s : State) (n info : Nat) {i r : Nat} {l : Loc} (hl : l.off = r + 0x4000 * i) (hr : 0x2300000 ≤ r) :
    (s.raise n info).get l = s.get l :=
  State.raise_get s n info (by simp only [raiseReg]; omega)

theorem State.irisesRun_coreUp {s : State} (h : s.irisesRun = true) : s.coreUp = true := by
  simp only [State.irisesRun, Bool.or_eq_true, Bool.and_eq_true, beq_iff_eq] at h
  rcases h with h | ⟨h, hisolated⟩
  · simp [State.coreUp, h]
  · simpa [State.coreUp, h] using hisolated

theorem State.irisesRun_of_serve {s : State} (h : s.mode = .serve) : s.irisesRun = true := by simp [State.irisesRun, h]

/-! ### What irises leave -/

/-- The state beside registers, irises and commands. -/
def State.bare (s : State) : State := { s with regs := [], irises := [], cmd := {} }

section
variable (s : State)

@[simp] theorem State.bare_set (l : Loc) (v : Nat) : (s.set l v).bare = s.bare := rfl
@[simp] theorem State.bare_setBit (l : Loc) (b : Bool) : (s.setBit l b).bare = s.bare := rfl
@[simp] theorem State.bare_sat (l : Loc) (k : Nat) : (s.sat l k).bare = s.bare := rfl
@[simp] theorem State.bare_setIris (i : Nat) (v : Iris) : (s.setIris i v).bare = s.bare := rfl
@[simp] theorem State.bare_finish (seq a b i k : Nat) (d : List (Nat × Nat × Nat)) : (s.finish seq a b i k d).bare = s.bare := rfl
@[simp] theorem State.bare_done (seq : Nat) (d : List (Nat × Nat × Nat)) : (s.done seq d).bare = s.bare := rfl

end

/-- What is sent after two states that agree. -/
theorem State.bare_emitAll {s t : State} (h : t.bare = s.bare) (es : List Emit) : (t.emitAll es).bare = (s.emitAll es).bare :=
  (congrArg (fun u : State => { u with out := u.out ++ es }) h :)

section
variable {s x : State} {outs : List Emit} {but : Nat → Prop}

/-- The frame of a command that sends `outs`, with the parts put back that `g` puts back. -/
theorem State.kept_sent {g : State → State} (hg : ∀ y, (g y).still = g y.still)
    (hr : ∀ y, (g y).regs = y.regs) (ho : ∀ y, (g y).out = y.out) (hs : (g x).still = s.still) (hout : x.out = s.out ++ outs)
    (hw : ∀ k, ¬ but k → x.word k = s.word k) : s.kept (g x.settle) outs but :=
  State.kept_of ((State.still_settle_masked hg x).trans hs) (hr _) (ho _) hw hout

/-- The frame of a command that changes registers, irises and commands and sends `outs`. -/
theorem State.kept_link_sent (hb : x.bare = (s.emitAll outs).bare) (hw : ∀ k, ¬ but k → x.word k = s.word k) :
    s.kept { x.settle with cmd := s.cmd, irises := s.irises } outs but := by
  have hstill : ({ x with cmd := s.cmd, irises := s.irises } : State).still = s.still :=
    (congrArg (fun y : State => ({ y with cmd := s.cmd, irises := s.irises } : State).still) hb :)
  have hout : x.out = s.out ++ outs := (congrArg State.out hb :)
  exact State.kept_sent (g := fun y => { y with cmd := s.cmd, irises := s.irises }) (fun _ => rfl) (fun _ => rfl) (fun _ => rfl) hstill hout hw

/-! Parts that stay need not be put back. -/

theorem State.kept_irises_of_cmd {y : State} (hc : y.cmd = s.cmd) (h : s.kept { y with cmd := s.cmd, irises := s.irises } outs but) :
    s.kept { y with irises := s.irises } outs but := by
  rwa [← hc] at h

theorem State.kept_cmd_of_irises {y : State} (hi : y.irises = s.irises) (h : s.kept { y with cmd := s.cmd, irises := s.irises } outs but) :
    s.kept { y with cmd := s.cmd } outs but := by
  rwa [← hi] at h

theorem State.kept_of_irises {y : State} (hi : y.irises = s.irises) (h : s.kept { y with irises := s.irises } outs but) :
    s.kept y outs but := by
  rwa [← hi] at h

/-- The frame of one that leaves commands. -/
theorem State.kept_irises_sent (hb : x.bare = (s.emitAll outs).bare) (hc : x.cmd = s.cmd) (hw : ∀ k, ¬ but k → x.word k = s.word k) :
    s.kept { x.settle with irises := s.irises } outs but :=
  State.kept_irises_of_cmd (x.settle_cmd.trans hc) (State.kept_link_sent hb hw)

/-! One that sends nothing. -/

theorem State.kept_link (hb : x.bare = s.bare) (hw : ∀ k, ¬ but k → x.word k = s.word k) :
    s.kept { x.settle with cmd := s.cmd, irises := s.irises } [] but :=
  State.kept_link_sent (s.emitAll_nil.symm ▸ hb) hw

theorem State.kept_irises (hb : x.bare = s.bare) (hc : x.cmd = s.cmd) (hw : ∀ k, ¬ but k → x.word k = s.word k) :
    s.kept { x.settle with irises := s.irises } [] but :=
  State.kept_irises_sent (s.emitAll_nil.symm ▸ hb) hc hw

theorem State.kept_commands (hb : x.bare = s.bare) (hi : x.irises = s.irises) (hw : ∀ k, ¬ but k → x.word k = s.word k) :
    s.kept { x.settle with cmd := s.cmd } [] but :=
  State.kept_cmd_of_irises (x.settle_irises.trans hi) (State.kept_link hb hw)

theorem State.kept_registers (hb : x.bare = s.bare) (hc : x.cmd = s.cmd) (hi : x.irises = s.irises) (hw : ∀ k, ¬ but k → x.word k = s.word k) :
    s.kept x.settle [] but :=
  State.kept_of_irises (x.settle_irises.trans hi) (State.kept_irises hb hc hw)

end

/-! ### Next-hop masks (R364, R368) -/

/-- `t` is `s` but for next-hop masks, what FAB_DEST shows, and the open values drawn. -/
structure Repoints (s t : State) : Prop where
  eq : t = { s with regs := t.regs, free := t.free }
  regs : ∀ k, ¬ (0x2408000 ≤ k ∧ k < 0x2418000) → t.word k = s.word k

theorem Repoints.refl (s : State) : Repoints s s := ⟨rfl, fun _ _ => rfl⟩

theorem Repoints.trans {s t u : State} (h : Repoints s t) (g : Repoints t u) : Repoints s u := by
  refine ⟨?_, fun k hk => (g.regs k hk).trans (h.regs k hk)⟩
  have hu := g.eq
  rw [h.eq] at hu
  exact hu

theorem Repoints.of_set (s : State) {l : Loc} (v : Nat) (h : 0x2408000 ≤ l.off ∧ l.off < 0x2418000) : Repoints s (s.set l v) :=
  ⟨rfl, fun _ hk => State.word_set_other s fun e => hk (e ▸ h)⟩

theorem Repoints.get {s t : State} (h : Repoints s t) {l : Loc} (hl : l.off < 0x2408000) : t.get l = s.get l :=
  State.get_of_word (h.regs _ (by omega))

theorem repoints_redraw (s : State) {d : Nat} (hd : d < 4096) : Repoints s (s.redraw d) := by
  have hptr : 0x2408000 ≤ (R.FAB_DEST.PTR d).off ∧ (R.FAB_DEST.PTR d).off < 0x2418000 := by
    simp only [R.FAB_DEST.PTR]
    omega
  unfold State.redraw
  dsimp only
  split
  · exact .of_set s 0 hptr
  · exact .trans (t := s.draw.2) ⟨rfl, fun _ _ => rfl⟩ (.of_set _ _ hptr)

theorem repoints_clearNext (s : State) (i : Nat) : Repoints s (s.clearNext i) := by
  unfold State.clearNext
  refine List.foldlRecOn (motive := Repoints s) _ _ (.refl s) fun t ht e he => ht.trans ?_
  have hoff := of_decide_eq_true (List.mem_filter.mp he).2
  have hd : (e.1 - 0x2408000) / 8 < 4096 := by omega
  dsimp only
  split
  · refine .trans (.of_set t _ ?_) (.trans (.of_set _ _ ?_) (repoints_redraw _ hd)) <;>
      simp only [R.FAB_NH.MASK, R.FAB_DEST.COUNT] <;> omega
  · exact .refl t

@[simp] theorem State.iris_clearNext (s : State) (i j : Nat) : (s.clearNext i).iris j = s.iris j := by
  rw [(repoints_clearNext s i).eq]
  rfl

/-- What a DOWN asks of the device beside registers, irises and commands: its mode, its power, and the fabric. -/
def State.standing (s : State) : Mode × PowerState × FabState := (s.mode, s.power, s.fab)

theorem State.standing_of_bare {s t : State} (h : t.bare = s.bare) : t.standing = s.standing := (congrArg State.standing h :)

theorem State.coreUp_of_standing {s t : State} (h : t.standing = s.standing) : t.coreUp = s.coreUp := by
  rw [State.coreUp, show t.mode = s.mode from congrArg (·.1) h, show t.power = s.power from congrArg (·.2.1) h, State.coreUp]

theorem State.waiting_of_standing {s t : State} (h : t.standing = s.standing) : t.fab.waiting = s.fab.waiting :=
  (congrArg (·.2.2.waiting) h :)

theorem State.standing_clearNext (s : State) (i : Nat) : (s.clearNext i).standing = s.standing := by
  rw [(repoints_clearNext s i).eq]
  rfl

theorem State.cmd_clearNext (s : State) (i : Nat) : (s.clearNext i).cmd = s.cmd := by rw [(repoints_clearNext s i).eq]

/-! ### Waiting cells (R366) -/

theorem State.drainWaiting_of_none {s : State} (h : s.fab.waiting = []) : s.drainWaiting = s := by
  unfold State.drainWaiting
  rw [h]
  split
  · rfl
  · have hnone : s.waitOrder [] = [] := by simp [State.waitOrder]
    rw [hnone, List.foldl_nil, ← h]

/-! ### The end of a change (R352) -/

/-- The end of a change touches the iris and the command that waits for it. -/
theorem State.endChange_eq (s : State) (i code : Nat) : s.endChange i code =
    { s.setIris i { s.iris i with change := none } with cmd := (s.endChange i code).cmd } := by
  unfold State.endChange
  dsimp only
  split <;> rfl

theorem State.endChange_of_none {s : State} {i : Nat} (h : (s.iris i).change = none) (code : Nat) :
    (s.endChange i code).cmd = s.cmd := by
  simp only [State.endChange, h]
  rfl

theorem State.endChange_commanded {s : State} {i q code : Nat} {c : LinkChange} (h : (s.iris i).change = some c) (hq : c.cmd = some q) :
    s.endChange i code = (s.setIris i { s.iris i with change := none }).finish q code 0 0 (if code = 7 then 0 else s.now)
      [(16, 1, s.get (R.IRIS_STATUS.WIDTH i))] := by
  simp only [State.endChange, h, hq]

@[simp] theorem State.bare_endChange (s : State) (i code : Nat) : (s.endChange i code).bare = s.bare := by
  rw [s.endChange_eq i code]
  rfl

@[simp] theorem State.get_endChange (s : State) (i code : Nat) (l : Loc) : (s.endChange i code).get l = s.get l := by
  rw [s.endChange_eq i code]
  rfl

/-! ### DOWN (R347, R348) -/

/-- A DOWN writes IRIS_DOWN_CAP and IRIS_ERR first, and records its cause where none is recorded. -/
theorem State.recordDown_spec (s : State) (i time gasp : Nat) {cause : Nat} (hc : cause < 16) :
    (s.recordDown i cause time gasp).bit (R.IRIS_DOWN_CAP.VALID i) = true ∧
      (s.bit (R.IRIS_DOWN_CAP.VALID i) = false → (s.recordDown i cause time gasp).get (R.IRIS_DOWN_CAP.CAUSE i) = cause) := by
  have hother : ∀ (t : State) (l : Loc), l.off = 0x2300030 + 0x4000 * i → (t.sat (R.IRIS_ERR.DOWNS i) 1).get l = t.get l :=
    fun t l hl => State.get_set_of_off (by simp [hl, R.IRIS_ERR.DOWNS])
  by_cases hvalid : s.bit (R.IRIS_DOWN_CAP.VALID i) = true
  · refine ⟨?_, fun hn => absurd (hvalid.symm.trans hn) (by decide)⟩
    rw [State.recordDown, if_pos hvalid, State.bit, hother _ _ rfl]
    exact hvalid
  · rw [State.recordDown, if_neg hvalid, State.bit, hother _ _ rfl, hother _ _ rfl]
    simp (disch := exact of_decide_eq_true rfl) only [State.get_set_of_bits, State.get_set_same]
    exact ⟨rfl, fun _ => Nat.mod_eq_of_lt hc⟩

/-- What is beside the registers, where the registers alone change. -/
theorem State.recordDown_rest (s : State) (i cause time gasp : Nat) : (s.recordDown i cause time gasp).bare = s.bare ∧
    (s.recordDown i cause time gasp).irises = s.irises ∧ (s.recordDown i cause time gasp).cmd = s.cmd := by
  unfold State.recordDown
  dsimp only
  simp only [State.bare_sat, State.sat_irises, State.sat_cmd]
  exact ⟨ite_keeps rfl (by simp only [State.bare_set]), ite_keeps rfl (by simp only [State.set_irises]), ite_keeps rfl (by simp only [State.set_cmd])⟩

/-- The state that an iris goes DOWN to: DISABLED where a DISABLE or the cause says so. -/
def Iris.fallsTo (x : Iris) (cause : Nat) : Nat := if x.disabling.isSome ∨ cause = 7 then 0 else 5

/-- Iris `i` has stopped: its cause is recorded, a change has ended, and its fields and registers and the next-hop masks say so. -/
def State.irisStopped (s : State) (i cause time gasp : Nat) : State :=
  let x := s.iris i
  let s2 := (s.recordDown i cause time gasp).endChange i 7
  let s3 := (s2.set (R.IRIS_STATUS.STATE i) (x.fallsTo cause)).set (R.IRIS_STATUS.LANES_ACT i) 0
  ((s3.setIris i { ups := x.ups, tag := x.tag, held := x.held || cause == 5 || cause == 7, exp := x.exp, creditTotal := x.creditTotal }).clearNext
    i).syncIris i

/-- It is off where it falls to DISABLED, and a DISABLE that drained it has ended. -/
def State.irisOff (s : State) (i cause time gasp : Nat) : State :=
  let x := s.iris i
  let s4 := s.irisStopped i cause time gasp
  let s5 := if cause = 7 ∨ x.disabling.isSome then s4.setBit (R.IRIS_CTRL.ENABLE i) false else s4
  match x.disabling with
  | some q => s5.finish q (if cause = 7 then 0 else 7) 0 0 (if cause = 7 then s.now else 0) [(16, 1, s.get (R.IRIS_STATUS.WIDTH i))]
  | none => s5

section
variable (s : State) (i cause time gasp : Nat)

@[simp] theorem State.bare_syncIris : (s.syncIris i).bare = s.bare := rfl

theorem State.standing_irisStopped : (s.irisStopped i cause time gasp).standing = s.standing := by
  obtain ⟨hbare, -, -⟩ := s.recordDown_rest i cause time gasp
  exact (State.standing_of_bare (State.bare_syncIris ..)).trans ((State.standing_clearNext ..).trans (State.standing_of_bare (by simp [hbare])))

theorem State.standing_irisOff : (s.irisOff i cause time gasp).standing = s.standing := by
  unfold State.irisOff
  dsimp only
  split <;> exact (ite_keeps (State.standing_of_bare (State.bare_setBit ..)) rfl).trans (s.standing_irisStopped i cause time gasp)

/-- The counts of credit and of queued cells leave every field of another register. -/
theorem State.get_syncIris {l : Loc} (hc : l.off ≠ (R.IRIS_CREDIT.AVAIL i).off) (hr : l.off ≠ (R.IRIS_RETRY.QUEUED i).off) :
    (s.syncIris i).get l = s.get l :=
  (State.get_set_of_off hr).trans (State.get_set_of_off hc)

theorem State.irisStopped_status (hi : i < 64) : (s.irisStopped i cause time gasp).get (R.IRIS_STATUS.STATE i) = (s.iris i).fallsTo cause ∧
    (s.irisStopped i cause time gasp).get (R.IRIS_STATUS.LANES_ACT i) = 0 := by
  have hnext : ∀ (t : State) (l : Loc), l.off = 0x2300008 + 0x4000 * i → ((t.clearNext i).syncIris i).get l = t.get l := fun t l hl => by
    rw [State.get_syncIris _ _ (by simp [hl, R.IRIS_CREDIT.AVAIL]) (by simp [hl, R.IRIS_RETRY.QUEUED]),
      (repoints_clearNext t i).get (by omega)]
  have hfalls : (s.iris i).fallsTo cause < 8 := by unfold Iris.fallsTo; split <;> decide
  unfold State.irisStopped
  dsimp only
  rw [hnext _ _ rfl, hnext _ _ rfl, State.get_setIris, State.get_setIris]
  simp (disch := exact of_decide_eq_true rfl) only [State.get_set_of_bits, State.get_set_same]
  exact ⟨Nat.mod_eq_of_lt hfalls, rfl⟩

theorem State.irisStopped_cap {l : Loc} (hi : i < 64) (hl : l.off = 0x2300030 + 0x4000 * i) :
    (s.irisStopped i cause time gasp).get l = (s.recordDown i cause time gasp).get l := by
  unfold State.irisStopped
  dsimp only
  rw [State.get_syncIris _ _ (by simp [hl, R.IRIS_CREDIT.AVAIL]) (by simp [hl, R.IRIS_RETRY.QUEUED]),
    (repoints_clearNext _ i).get (by omega), State.get_setIris, State.get_set_of_off (by simp [hl, R.IRIS_STATUS.LANES_ACT]),
    State.get_set_of_off (by simp [hl, R.IRIS_STATUS.STATE]), State.get_endChange]

/-- Turning the iris off writes IRIS_CTRL alone. -/
theorem State.irisOff_get {l : Loc} (hl : l.off ≠ (R.IRIS_CTRL.ENABLE i).off) :
    (s.irisOff i cause time gasp).get l = (s.irisStopped i cause time gasp).get l := by
  unfold State.irisOff
  dsimp only
  split <;> exact ite_keeps (g := fun t : State => t.get l) (State.get_set_of_off hl) rfl

end

/-- Without cells to give back the DOWN ends with the count of those lost, and the raise. -/
theorem State.irisDown_of_noReturns {s : State} {i : Nat} (h : s.noReturns i) (cause time gasp : Nat) : s.irisDown i cause time gasp =
    (if s.irisState i == 2 then ((s.irisOff i cause time gasp).sat R.FAB_LOSS.NOROUTE (s.iris i).queue.length).linkChanged
      else (s.irisOff i cause time gasp).sat R.FAB_LOSS.NOROUTE (s.iris i).queue.length).raise (64 + i) i := by
  obtain ⟨hwaiting, hqueue⟩ := h
  have hback : (s.iris i).queue.filter (fun e => e.cell.queue != 0xFFFF) = [] :=
    List.filter_eq_nil_iff.mpr fun e he => by simp [hqueue e he]
  have hoff : (s.irisOff i cause time gasp).fab.waiting = [] :=
    (State.waiting_of_standing (s.standing_irisOff i cause time gasp)).trans hwaiting
  unfold State.irisDown
  dsimp only
  rw [hback]
  simp only [List.map_nil, List.append_nil, List.length_nil, Nat.sub_zero]
  rw [State.drainWaiting_of_none]
  · rfl
  · exact ite_keeps (g := fun t : State => t.fab.waiting) hoff hoff

theorem State.coreUp_linkChangedIf (s : State) (p : Prop) [Decidable p] : (if p then s.linkChanged else s).coreUp = s.coreUp :=
  ite_keeps rfl rfl

theorem State.cmd_linkChangedIf (s : State) (p : Prop) [Decidable p] : (if p then s.linkChanged else s).cmd = s.cmd := ite_keeps rfl rfl

/-- Without cells to give back an iris that goes DOWN reads as its registers were left, but for the latch of its source and what that raises. -/
theorem State.irisDown_get {s : State} {i : Nat} (h : s.noReturns i) (cause time gasp : Nat) {r : Nat} {l : Loc}
    (hi : i < 64) (hl : l.off = r + 0x4000 * i) (hr : 0x2300000 ≤ r ∧ r < 0x2304000) :
    (s.irisDown i cause time gasp).get l = (s.irisOff i cause time gasp).get l := by
  have hloss : l.off ≠ R.FAB_LOSS.NOROUTE.off := by
    simp only [R.FAB_LOSS.NOROUTE]
    omega
  rw [State.irisDown_of_noReturns h, State.raise_get_iris _ _ _ hl hr.1]
  exact ite_keeps (g := fun t : State => t.get l) (State.get_set_of_off hloss) (State.get_set_of_off hloss)

/-- Iris `i` of `x`, which has the cells of `s`, the DISABLE and the record of a former DOWN, goes DOWN and says so. -/
theorem State.irisDown_wentDown {s x : State} {i cause : Nat} (time gasp : Nat) (hi : i < 64) (hup : x.coreUp = true) (hc : cause < 16)
    (hwaiting : x.fab.waiting = s.fab.waiting) (hqueue : (x.iris i).queue = (s.iris i).queue)
    (hfalls : (x.iris i).fallsTo cause = (s.iris i).fallsTo cause)
    (hvalid : x.bit (R.IRIS_DOWN_CAP.VALID i) = s.bit (R.IRIS_DOWN_CAP.VALID i)) :
    s.wentDown (x.irisDown i cause time gasp).settle i cause := by
  rintro ⟨hnone, hlink⟩
  have hx : x.noReturns i := ⟨hwaiting.trans hnone, fun e he => hlink e (hqueue ▸ he)⟩
  have hread : ∀ l : Loc, l.off = 0x2300008 + 0x4000 * i ∨ l.off = 0x2300030 + 0x4000 * i →
      (x.irisDown i cause time gasp).settle.get l = (x.irisStopped i cause time gasp).get l := fun l hl => by
    have hctrl : l.off ≠ (R.IRIS_CTRL.ENABLE i).off := by
      simp only [R.IRIS_CTRL.ENABLE]
      omega
    rcases hl with hl | hl <;>
      rw [State.settle_get_iris _ hi hl (by decide), State.irisDown_get hx _ _ _ hi hl (by decide), State.irisOff_get _ _ _ _ _ hctrl]
  obtain ⟨hstate, hlanes⟩ := x.irisStopped_status i cause time gasp hi
  obtain ⟨hset, hcause⟩ := x.recordDown_spec i time gasp hc
  refine ⟨?_, ?_, ?_, ?_, fun h => ?_⟩
  · rw [State.irisState, hread _ (.inl rfl), hstate, hfalls]
    rfl
  · rw [hread _ (.inl rfl), hlanes]
  · rw [State.settle_latch _ (by omega), State.irisDown_of_noReturns hx]
    refine State.raise_latches _ _ _ (by simp [sourceListed]; omega) ?_
    rw [State.coreUp_linkChangedIf]
    exact (State.coreUp_of_standing ((State.standing_of_bare (State.bare_sat ..)).trans (x.standing_irisOff ..))).trans hup
  · rw [State.bit, hread _ (.inr rfl), State.irisStopped_cap _ _ _ _ _ hi rfl]
    exact hset
  · rw [hread _ (.inr rfl), State.irisStopped_cap _ _ _ _ _ hi rfl]
    exact hcause (hvalid.trans h)

theorem State.irisOff_of_disabling {s : State} {i q : Nat} (h : (s.iris i).disabling = some q) (time gasp : Nat) :
    s.irisOff i 7 time gasp = ((s.irisStopped i 7 time gasp).setBit (R.IRIS_CTRL.ENABLE i) false).finish q 0 0 0 s.now
      [(16, 1, s.get (R.IRIS_STATUS.WIDTH i))] := by
  unfold State.irisOff
  dsimp only
  rw [h]
  simp only [true_or, if_true]

theorem State.irisStopped_cmd {s : State} {i : Nat} (h : (s.iris i).change = none) (cause time gasp : Nat) :
    (s.irisStopped i cause time gasp).cmd = s.cmd := by
  obtain ⟨-, hiris, hcmd⟩ := s.recordDown_rest i cause time gasp
  have hnone : ((s.recordDown i cause time gasp).iris i).change = none := by rw [State.iris_congr s hiris, h]
  simp only [State.irisStopped, State.syncIris, State.set_cmd, State.cmd_clearNext, State.cmd_setIris, State.endChange_of_none hnone, hcmd]

/-- The iris is off and the DISABLE that drained it is done once the iris is DISABLED (R352). -/
theorem State.irisDown_disabled {s : State} {i q : Nat} {c : OpenCmd} (hi : i < 64) (h : s.noReturns i) (hchange : (s.iris i).change = none)
    (hq : (s.iris i).disabling = some q) (hc : s.findCmd q = some c) (time gasp : Nat) :
    (s.irisDown i 7 time gasp).bit (R.IRIS_CTRL.ENABLE i) = false ∧
      (s.irisDown i 7 time gasp).outcomeOf q = some (outcomeArea 0 0 0 s.now [(16, 1, s.get (R.IRIS_STATUS.WIDTH i))]) := by
  have hcmd : (s.irisDown i 7 time gasp).cmd = (s.irisOff i 7 time gasp).cmd := by
    rw [State.irisDown_of_noReturns h, State.raise_cmd, State.cmd_linkChangedIf, State.sat_cmd]
  have hfind : ((s.irisStopped i 7 time gasp).setBit (R.IRIS_CTRL.ENABLE i) false).findCmd q = some c :=
    (State.findCmd_congr ((State.setBit_cmd ..).trans (State.irisStopped_cmd hchange 7 time gasp)) q).trans hc
  constructor
  · rw [State.bit, State.irisDown_get h _ _ _ hi rfl (by decide), State.irisOff_of_disabling hq, State.get_finish]
    exact State.bit_setBit_same _ _ _ rfl (by simp [R.IRIS_CTRL.ENABLE])
  · rw [State.outcomeOf_congr hcmd, State.irisOff_of_disabling hq, State.outcomeOf_finish hfind]

end Sys2Proof.Machine
end

section
/-! SUPPORT. The six operations of FAB_LINK_CTL (R352). -/
namespace Sys2Proof.Machine

/-! ### The commands -/

/-- A well-formed FAB_LINK_CTL that may begin runs its operation: one without operands. -/
theorem State.linkCtl_plain {s : State} {seq op i : Nat} {c : OpenCmd} (hb : s.begins seq 0x71 c) (hl : c.linkOp op i 0 0)
    (hop : op = 0 ∨ op = 2 ∨ op = 4 ∨ op = 5) (body : Nat → Nat → Nat → State → State) : s.linkCtl seq op body = body i 0 0 s := by
  obtain ⟨hform, hcode, hiris, hwidth, hmask, hi⟩ := hl
  rw [State.linkCtl, State.runCmd_of hb]
  rcases hop with rfl | rfl | rfl | rfl <;> simp [hform, hcode, hiris, hwidth, hmask, Nat.not_le.mpr hi]

/-- One that names a width and lanes. -/
theorem State.linkCtl_wide {s : State} {seq op i w m : Nat} {c : OpenCmd} (hb : s.begins seq 0x71 c) (hl : c.linkOp op i w m)
    (hop : op = 1 ∨ op = 3) (hw : w < 3) (hm : m < 16) (hg : (groupIn w m).isSome = true) (body : Nat → Nat → Nat → State → State) :
    s.linkCtl seq op body = body i w m s := by
  obtain ⟨hform, hcode, hiris, hwidth, hmask, hi⟩ := hl
  have hgroup : (groupIn w m).isNone = false := by rw [← Option.not_isSome, hg]; rfl
  rw [State.linkCtl, State.runCmd_of hb]
  rcases hop with rfl | rfl <;>
    simp [hform, hcode, hiris, hwidth, hmask, hgroup, Nat.not_le.mpr hi, Nat.not_le.mpr hw, Nat.not_le.mpr hm]

/-- A command that sets or clears one bit and is done. -/
theorem State.setBit_done {s : State} {seq : Nat} {c : OpenCmd} {l : Loc} (hc : s.findCmd seq = some c) (hl : ¬ followReg l.off) (hw : l.w = 1)
    (hlo : l.lo < 64) (b : Bool) (d : List (Nat × Nat × Nat)) :
    ((s.setBit l b).done seq d).settle.bit l = b ∧ ((s.setBit l b).done seq d).settle.outcomeOf seq = some (outcomeArea 0 0 0 s.now d) ∧
      s.kept { ((s.setBit l b).done seq d).settle with cmd := s.cmd } [] fun k => k = l.off := by
  have hword : ∀ k, k ≠ l.off → (s.setBit l b).word k = s.word k := fun k hk => State.word_set_other s hk
  refine ⟨?_, State.done_outcomeOf hc (State.clocked_set ..) d, State.kept_commands ((State.bare_finish ..).trans (State.bare_setBit ..)) rfl hword⟩
  rw [State.settle_bit _ hl, State.bit, State.done, State.get_finish]
  exact State.bit_setBit_same s l b hw hlo

theorem not_followReg_iris {i r off : Nat} (hi : i < 64) (hl : off = r + 0x4000 * i) (hr : 0x2300000 ≤ r ∧ r < 0x2304000) : ¬ followReg off := by
  simp only [followReg]
  omega

section
variable {s : State} {seq i w m : Nat} {c : OpenCmd}

/-! ### AUTO_OFF and AUTO_ON -/

theorem exec_fabLinkAutoOff (hb : s.begins seq 0x71 c) (hl : c.linkOp 4 i 0 0) (hchange : (s.iris i).change = none) :
    exec (.fabLinkAutoOff seq) s = .next ((s.setBit (R.IRIS_CTRL.AUTO i) false).done seq [(16, 1, s.get (R.IRIS_STATUS.WIDTH i))]).settle :=
  complete_of_eq rfl ((State.linkCtl_plain hb hl (by decide) _).trans (if_neg (by simp [hchange])))

theorem exec_fabLinkAutoOn (hb : s.begins seq 0x71 c) (hl : c.linkOp 5 i 0 0) (hchange : (s.iris i).change = none) :
    exec (.fabLinkAutoOn seq) s = .next ((s.setBit (R.IRIS_CTRL.AUTO i) true).done seq [(16, 1, s.get (R.IRIS_STATUS.WIDTH i))]).settle :=
  complete_of_eq rfl ((State.linkCtl_plain hb hl (by decide) _).trans (if_neg (by simp [hchange])))

/-! ### ENABLE -/

/-- The iris as ENABLE leaves it, TRAINING. -/
def State.irisEnabled (s : State) (i w m : Nat) : State :=
  ((((s.setBit (R.IRIS_CTRL.ENABLE i) true).set (R.IRIS_CTRL.LANES_EN i) m).set (R.IRIS_CTRL.WIDTH_MAX i) w).setIris i
    { ups := (s.iris i).ups, tag := (s.iris i).tag }).set (R.IRIS_STATUS.STATE i) 1

theorem exec_fabLinkEnable (hb : s.begins seq 0x71 c) (hl : c.linkOp 1 i w m) (hw : w < 3) (hm : m < 16) (hg : (groupIn w m).isSome = true)
    (hstate : s.irisState i = 0) : exec (.fabLinkEnable seq) s = .next ((s.irisEnabled i w m).done seq [(16, 1, w)]).settle :=
  complete_of_eq rfl ((State.linkCtl_wide hb hl (by decide) hw hm hg _).trans (if_neg (not_not.mpr hstate)))

theorem State.irisEnabled_spec (hw : w < 3) (hm : m < 16) : (s.irisEnabled i w m).irisState i = 1 ∧
    (s.irisEnabled i w m).bit (R.IRIS_CTRL.ENABLE i) = true ∧ (s.irisEnabled i w m).get (R.IRIS_CTRL.LANES_EN i) = m ∧
    (s.irisEnabled i w m).get (R.IRIS_CTRL.WIDTH_MAX i) = w := by
  have hctrl : ∀ l : Loc, l.off = 0x2300000 + 0x4000 * i → (s.irisEnabled i w m).get l =
      (((s.setBit (R.IRIS_CTRL.ENABLE i) true).set (R.IRIS_CTRL.LANES_EN i) m).set (R.IRIS_CTRL.WIDTH_MAX i) w).get l := fun l hl => by
    rw [State.irisEnabled, State.get_set_of_off (by simp [hl, R.IRIS_STATUS.STATE]), State.get_setIris]
  refine ⟨?_, ?_, ?_, ?_⟩
  · rw [State.irisState, State.irisEnabled, State.get_set_same _ _ _ (of_decide_eq_true rfl)]
    rfl
  · rw [State.bit, hctrl _ rfl]
    simp (disch := exact of_decide_eq_true rfl) only [State.get_set_of_bits]
    exact State.bit_setBit_same s _ true rfl (of_decide_eq_true rfl)
  · rw [hctrl _ rfl]
    simp (disch := exact of_decide_eq_true rfl) only [State.get_set_of_bits, State.get_set_same]
    exact Nat.mod_eq_of_lt hm
  · rw [hctrl _ rfl, State.get_set_same _ _ _ (of_decide_eq_true rfl)]
    exact Nat.mod_eq_of_lt (Nat.lt_succ_of_lt hw)

theorem State.irisEnabled_rest (s : State) (i w m : Nat) : (s.irisEnabled i w m).bare = s.bare ∧ (s.irisEnabled i w m).clocked = s.clocked ∧
    ∀ k, ¬ (k = (R.IRIS_CTRL.ENABLE i).off ∨ k = (R.IRIS_STATUS.STATE i).off) → (s.irisEnabled i w m).word k = s.word k := by
  refine ⟨by simp [State.irisEnabled], by simp [State.irisEnabled, State.setBit], fun k hk => ?_⟩
  obtain ⟨hctrl, hstatus⟩ := not_or.mp hk
  rw [State.irisEnabled, State.word_set_other _ hstatus, State.word_setIris, State.word_set_other (l := R.IRIS_CTRL.WIDTH_MAX i) _ hctrl,
    State.word_set_other (l := R.IRIS_CTRL.LANES_EN i) _ hctrl, State.setBit, State.word_set_other (l := R.IRIS_CTRL.ENABLE i) _ hctrl]

theorem State.word_done (s : State) (seq : Nat) (d : List (Nat × Nat × Nat)) (k : Nat) : (s.done seq d).word k = s.word k := rfl

theorem State.get_done (s : State) (seq : Nat) (d : List (Nat × Nat × Nat)) (l : Loc) : (s.done seq d).get l = s.get l := rfl

theorem State.irisEnabled_kept (s : State) (seq i w m : Nat) (d : List (Nat × Nat × Nat)) :
    s.kept { ((s.irisEnabled i w m).done seq d).settle with cmd := s.cmd, irises := s.irises } []
      fun k => k = (R.IRIS_CTRL.ENABLE i).off ∨ k = (R.IRIS_STATUS.STATE i).off := by
  obtain ⟨hbare, -, hword⟩ := s.irisEnabled_rest i w m
  exact State.kept_link ((State.bare_done ..).trans hbare) fun k hk => (State.word_done ..).trans (hword k hk)

/-! ### RETRAIN and WIDTH -/

/-- A planned change has begun for command `seq`. -/
def State.changeBegun (s : State) (seq i w m : Nat) (same : Bool) : State :=
  (s.updCmd seq fun d => { d with started := true }).startChange i w m same (some seq)

theorem State.softChange_of (hstate : s.irisState i = 2) (hchange : (s.iris i).change = none) (hdis : (s.iris i).disabling = none) (same : Bool) :
    s.softChange seq i w m same = s.changeBegun seq i w m same := by
  rw [State.softChange, if_neg (not_not.mpr hstate), if_neg (by simp [hchange, hdis])]
  rfl

theorem exec_fabLinkRetrain (hb : s.begins seq 0x71 c) (hl : c.linkOp 2 i 0 0) (hstate : s.irisState i = 2) (hchange : (s.iris i).change = none)
    (hdis : (s.iris i).disabling = none) : exec (.fabLinkRetrain seq) s =
      .next (s.changeBegun seq i (s.get (R.IRIS_STATUS.WIDTH i)) (s.get (R.IRIS_CTRL.LANES_EN i)) true).settle :=
  complete_of_eq rfl ((State.linkCtl_plain hb hl (by decide) _).trans (State.softChange_of hstate hchange hdis true))

theorem exec_fabLinkWidth (hb : s.begins seq 0x71 c) (hl : c.linkOp 3 i w m) (hw : w < 3) (hm : m < 16) (hg : (groupIn w m).isSome = true)
    (hstate : s.irisState i = 2) (hchange : (s.iris i).change = none) (hdis : (s.iris i).disabling = none) : exec (.fabLinkWidth seq) s =
      .next (((s.changeBegun seq i w m false).set (R.IRIS_CTRL.LANES_EN i) m).set (R.IRIS_CTRL.WIDTH_MAX i) w).settle := by
  refine complete_of_eq rfl ((State.linkCtl_wide hb hl (by decide) hw hm hg _).trans ?_)
  dsimp only
  rw [if_pos ⟨hstate, by rw [hchange]; rfl, by rw [hdis]; rfl⟩, State.softChange_of hstate hchange hdis]

/-- The change that a command has begun. -/
theorem State.changeBegun_change (s : State) (seq i w m : Nat) (same : Bool) : ((s.changeBegun seq i w m same).iris i).change =
    some { leader := true, width := w, mask := m, same := same, reqNs := s.ns, cmd := some seq } := by
  simp only [State.changeBegun, State.startChange, State.rtReq, State.due, State.iris_setIris_same]
  rfl

theorem State.bare_changeBegun (s : State) (seq i w m : Nat) (same : Bool) : (s.changeBegun seq i w m same).bare = s.bare := rfl

theorem State.word_changeBegun (s : State) (seq i w m : Nat) (same : Bool) (k : Nat) : (s.changeBegun seq i w m same).word k = s.word k := rfl

/-- Its command goes on. -/
theorem State.changeBegun_outcome (hb : s.begins seq 0x71 c) (i w m : Nat) (same : Bool) : (s.changeBegun seq i w m same).outcomeOf seq = none := by
  obtain ⟨hc, -⟩ := id hb
  exact (State.outcomeOf_congr (t := s.changeBegun seq i w m same) rfl seq).trans ((State.outcomeOf_started hc).trans hb.no_outcome)

/-! ### DISABLE -/

/-- The iris belongs to the DISABLE, which has begun. -/
def State.disableBegun (s : State) (seq i : Nat) : State :=
  (s.updCmd seq fun d => { d with started := true }).setIris i { s.iris i with disabling := some seq }

theorem exec_fabLinkDisable (hb : s.begins seq 0x71 c) (hl : c.linkOp 0 i 0 0) (hchange : (s.iris i).change = none)
    (hdis : (s.iris i).disabling = none) : exec (.fabLinkDisable seq) s = .next (State.settle (
      if s.irisState i = 2 then (((s.disableBegun seq i).set (R.IRIS_STATUS.STATE i) 3).clearNext i).linkChanged
      else if s.irisState i = 0 then (s.setBit (R.IRIS_CTRL.ENABLE i) false).done seq [(16, 1, s.get (R.IRIS_STATUS.WIDTH i))]
      else (s.disableBegun seq i).irisDown i 7 s.now 0)) :=
  complete_of_eq rfl ((State.linkCtl_plain hb hl (by decide) _).trans (if_neg (by simp [hchange, hdis])))

/-- The iris has left UP for DRAINING. -/
theorem State.disableBegun_drains (hb : s.begins seq 0x71 c) (hi : i < 64) :
    let t := ((((s.disableBegun seq i).set (R.IRIS_STATUS.STATE i) 3).clearNext i).linkChanged).settle
    t.irisState i = 3 ∧ (t.iris i).disabling = some seq ∧ t.outcomeOf seq = none ∧ t.fab.advDue = true := by
  have hcmd := State.cmd_clearNext ((s.disableBegun seq i).set (R.IRIS_STATUS.STATE i) 3) i
  obtain ⟨hc, -⟩ := id hb
  refine ⟨?_, ?_, ?_, ?_⟩
  · rw [State.settle_irisState _ hi]
    refine ((repoints_clearNext _ i).get (l := R.IRIS_STATUS.STATE i) ?_).trans (State.get_set_same _ _ _ (of_decide_eq_true rfl))
    simp only [R.IRIS_STATUS.STATE]
    omega
  · rw [State.iris_settle]
    show (((State.set _ _ _).clearNext i).iris i).disabling = _
    rw [State.iris_clearNext, State.iris_set, State.disableBegun, State.iris_setIris_same]
  · rw [State.settle_outcomeOf]
    exact (State.outcomeOf_congr (s := s.updCmd seq _) hcmd seq).trans ((State.outcomeOf_started hc).trans hb.no_outcome)
  · rw [State.settle_fab]
    rfl

/-- An iris that is neither UP nor DISABLED is DISABLED at once. -/
theorem State.disableBegun_down (hb : s.begins seq 0x71 c) (hi : i < 64) (hchange : (s.iris i).change = none) (time : Nat) :
    let t := ((s.disableBegun seq i).irisDown i 7 time 0).settle
    s.wentDown t i 7 ∧ (s.noReturns i → t.bit (R.IRIS_CTRL.ENABLE i) = false ∧
      t.outcomeOf seq = some (outcomeArea 0 0 0 s.now [(16, 1, s.get (R.IRIS_STATUS.WIDTH i))])) := by
  obtain ⟨hc, -, hserve, -⟩ := id hb
  have hiris : (s.disableBegun seq i).iris i = { s.iris i with disabling := some seq } := State.iris_setIris_same ..
  have hup : (s.disableBegun seq i).coreUp = true := State.irisesRun_coreUp (State.irisesRun_of_serve hserve)
  have hfind : (s.disableBegun seq i).findCmd seq = some { c with started := true } := by
    rw [State.disableBegun, State.findCmd_congr (State.cmd_setIris ..), State.findCmd_updCmd _ _ (fun d => { d with started := true }) fun _ => rfl, hc]
    rfl
  refine ⟨State.irisDown_wentDown _ _ hi hup (by decide) rfl (by rw [hiris]) (by simp [Iris.fallsTo]) rfl, fun h => ?_⟩
  have hreturns : (s.disableBegun seq i).noReturns i := ⟨h.1, by rw [hiris]; exact h.2⟩
  obtain ⟨henable, hout⟩ := State.irisDown_disabled hi hreturns (by rw [hiris, ← hchange]) (by rw [hiris]) hfind time 0
  refine ⟨?_, (State.settle_outcomeOf ..).trans hout⟩
  rw [State.settle_bit _ (not_followReg_iris hi rfl (by decide)), henable]

end

/-- Settles O23: each operation sets what it names in its iris, and DISABLE of an iris that is neither UP nor DISABLED is a DOWN. -/
theorem linkCommandsAct : Obligations.LinkCommandsAct := by
  have hread : ∀ (x : State) {i r : Nat} {l : Loc}, i < 64 → l.off = r + 0x4000 * i → 0x2300000 ≤ r ∧ r < 0x2304000 →
      x.settle.get l = x.get l := fun x _ _ _ hi hl hr => x.settle_get_iris hi hl hr
  unfold Obligations.LinkCommandsAct
  refine ⟨?_, ?_, ?_, ?_, ?_, ?_⟩
  · intro s seq i c hb hl hchange hdis
    obtain ⟨hc, -⟩ := id hb
    obtain ⟨-, -, -, -, -, hi⟩ := id hl
    refine ⟨_, exec_fabLinkDisable hb hl hchange hdis, fun h => ?_, fun h => ?_, fun hup hoff => ?_⟩
    · rw [if_pos h]
      exact State.disableBegun_drains hb hi
    · rw [if_neg (by omega), if_pos h]
      exact State.setBit_done hc (not_followReg_iris hi rfl (by decide)) rfl (of_decide_eq_true rfl) false _
    · rw [if_neg hup, if_neg hoff]
      exact State.disableBegun_down hb hi hchange s.now
  · intro s seq i w m c hb hl hw hm hg hstate
    obtain ⟨hc, -⟩ := id hb
    obtain ⟨-, -, -, -, -, hi⟩ := id hl
    obtain ⟨-, hclocked, -⟩ := s.irisEnabled_rest i w m
    obtain ⟨htrains, henable, hlanes, hwidth⟩ := s.irisEnabled_spec (i := i) hw hm
    refine ⟨_, exec_fabLinkEnable hb hl hw hm hg hstate, ?_, ?_, ?_, ?_, State.done_outcomeOf hc hclocked _,
      State.irisEnabled_kept ..⟩
    · rw [State.settle_irisState _ hi, State.irisState, State.get_done]
      exact htrains
    · rw [State.bit, hread _ hi rfl (by decide), State.get_done]
      exact henable
    · rw [hread _ hi rfl (by decide), State.get_done, hlanes]
    · rw [hread _ hi rfl (by decide), State.get_done, hwidth]
  · intro s seq i c hb hl hstate hchange hdis
    refine ⟨_, exec_fabLinkRetrain hb hl hstate hchange hdis, ?_, ?_, ?_⟩
    · rw [State.settle_outcomeOf, State.changeBegun_outcome hb _ _ _ true]
    · rw [State.iris_settle, State.changeBegun_change]
    · exact State.kept_link (State.bare_changeBegun ..) fun _ _ => State.word_changeBegun ..
  · intro s seq i w m c hb hl hw hm hg hstate hchange hdis
    obtain ⟨-, -, -, -, -, hi⟩ := id hl
    refine ⟨_, exec_fabLinkWidth hb hl hw hm hg hstate hchange hdis, ?_, ?_, ?_, ?_, ?_⟩
    · rw [State.settle_outcomeOf]
      exact State.changeBegun_outcome hb i w m false
    · rw [hread _ hi rfl (by decide), State.get_set_of_bits (of_decide_eq_true rfl) (of_decide_eq_true rfl),
        State.get_set_same _ _ _ (of_decide_eq_true rfl)]
      exact Nat.mod_eq_of_lt hm
    · rw [hread _ hi rfl (by decide), State.get_set_same _ _ _ (of_decide_eq_true rfl)]
      exact Nat.mod_eq_of_lt (Nat.lt_succ_of_lt hw)
    · rw [State.iris_settle, State.iris_set, State.iris_set, State.changeBegun_change]
    · exact State.kept_link ((State.bare_set ..).trans ((State.bare_set ..).trans (State.bare_changeBegun ..))) fun k hk =>
        (State.word_set_other (l := R.IRIS_CTRL.WIDTH_MAX i) _ hk).trans ((State.word_set_other (l := R.IRIS_CTRL.LANES_EN i) _ hk).trans
          (State.word_changeBegun ..))
  · intro s seq i c hb hl hchange
    obtain ⟨hc, -⟩ := id hb
    obtain ⟨-, -, -, -, -, hi⟩ := id hl
    exact ⟨_, exec_fabLinkAutoOff hb hl hchange, State.setBit_done hc (not_followReg_iris hi rfl (by decide)) rfl (of_decide_eq_true rfl) false _⟩
  · intro s seq i c hb hl hchange
    obtain ⟨hc, -⟩ := id hb
    obtain ⟨-, -, -, -, -, hi⟩ := id hl
    exact ⟨_, exec_fabLinkAutoOn hb hl hchange, State.setBit_done hc (not_followReg_iris hi rfl (by decide)) rfl (of_decide_eq_true rfl) true _⟩

end Sys2Proof.Machine
end

section
/-! SUPPORT. SERVE begins while the entry of the first re-execution fails: what the statement about SERVE leaves out (R466, R468, R478). -/
namespace Sys2Proof.Machine

/-! ### The slot of the next sequence (R468) -/

section
variable (s : State)

theorem State.jword_setJword_other {q v : Nat} (x : Nat) {p w : Nat} (h : 32 * (p % 65536) + w ≠ 32 * (q % 65536) + v) :
    (s.setJword q v x).jword p w = s.jword p w :=
  SMap.find_put_other _ _ _ _ _ h

theorem State.reexec_setJword (q v x : Nat) : (s.setJword q v x).cmd.reexec = s.cmd.reexec := rfl

theorem State.get_draw (l : Loc) : s.draw.2.get l = s.get l := rfl

theorem State.slotHeld_draw : s.draw.2.slotHeld = s.slotHeld := rfl

/-- A word of another slot leaves the slot's bytes. -/
theorem State.jbytes_setJword_other {q v : Nat} (x : Nat) {p w n : Nat} (hv : v < 32) (hw : w + n ≤ 32) (h : p % 65536 ≠ q % 65536) :
    (s.setJword q v x).jbytes p w n = s.jbytes p w n := by
  simp only [State.jbytes, List.flatMap_def]
  congr 1
  refine List.map_congr_left fun j hj => ?_
  have := List.mem_range.mp hj
  rw [s.jword_setJword_other x (by omega)]

/-- So whether the next sequence finds its slot free does not turn on the words of another slot. -/
theorem State.slotHeld_setJword_other {q v : Nat} (x : Nat) (hv : v < 32) (h : s.get R.JRN_HEAD.HEAD % 65536 ≠ q % 65536) :
    (s.setJword q v x).slotHeld = s.slotHeld := by
  have hseq : ∀ p, p % 65536 ≠ q % 65536 → (s.setJword q v x).jseq p = s.jseq p := fun p hp => by
    rw [State.jseq, s.jword_setJword_other x (by omega), State.jseq]
  have hhead : (s.setJword q v x).jseq ((s.setJword q v x).get R.JRN_HEAD.HEAD) = s.jseq (s.get R.JRN_HEAD.HEAD) := hseq _ h
  rw [State.slotHeld, State.slotHeld, hhead]
  by_cases hold : s.jseq (s.get R.JRN_HEAD.HEAD) % 65536 = s.get R.JRN_HEAD.HEAD % 65536
  · generalize s.jseq (s.get R.JRN_HEAD.HEAD) = old at hold
    have hother : old % 65536 ≠ q % 65536 := hold ▸ h
    simp only [State.entryValid, State.committed, State.crcGood, State.outcomeValid, hseq _ hother,
      s.jbytes_setJword_other x hv (show 0 + 24 ≤ 32 by decide) hother, s.jbytes_setJword_other x hv (show 24 + 6 ≤ 32 by decide) hother,
      s.jword_setJword_other x (show 32 * (old % 65536) + 10 ≠ 32 * (q % 65536) + v by omega),
      s.jword_setJword_other x (show 32 * (old % 65536) + 30 ≠ 32 * (q % 65536) + v by omega),
      s.jword_setJword_other x (show 32 * (old % 65536) + 31 ≠ 32 * (q % 65536) + v by omega)]
    rfl
  · have hfalse : (s.jseq (s.get R.JRN_HEAD.HEAD) % 65536 == s.get R.JRN_HEAD.HEAD % 65536) = false := by simpa using hold
    have hget : (s.setJword q v x).get R.JRN_HEAD.HEAD = s.get R.JRN_HEAD.HEAD := rfl
    simp only [hget, hfalse, Bool.and_false, Bool.false_and]

/-- The next entry before its commit word. -/
def State.entryOpen (ring flags : Nat) (cmd : List Byte) (orig : Nat) : State :=
  s.advanceHead.setJbytes (s.get R.JRN_HEAD.HEAD) 0 (entryBytes (s.get R.JRN_HEAD.HEAD) ring flags s.now cmd orig)

/-- Two failed read-backs leave the commit word open. -/
theorem State.writeEntry_failed (ring flags : Nat) (cmd : List Byte) (orig : Nat) : (s.writeEntry ring flags cmd orig 2).1 =
    (s.entryOpen ring flags cmd orig).draw.2.setJword (s.get R.JRN_HEAD.HEAD) 31 (s.entryOpen ring flags cmd orig).draw.1 := rfl

/-- Nor on what a failed read-back reports. -/
theorem State.slotHeld_journalFail (ring : Nat) : (s.journalFail ring).slotHeld = s.slotHeld := by
  have hget : ∀ l : Loc, l.off ≠ R.JRN_STAT.WRITE_FAIL.off → ¬ raiseReg l.off → (s.journalFail ring).get l = s.get l := fun l hl hr =>
    (State.raise_get _ _ _ hr).trans (State.get_set_of_off hl)
  have hcmd : (s.journalFail ring).cmd = s.cmd := State.raise_cmd ..
  have hseq : ∀ p, (s.journalFail ring).jseq p = s.jseq p := fun p => by simp only [State.jseq, State.jword, hcmd]
  have hentry : ∀ p, (s.journalFail ring).entryValid p = s.entryValid p := fun p => by
    simp only [State.entryValid, State.committed, State.crcGood, State.jseq, State.jbytes, State.jword, hcmd]
  have houtcome : ∀ p, (s.journalFail ring).outcomeValid p = s.outcomeValid p := fun p => by
    simp only [State.outcomeValid, State.jseq, State.jbytes, State.jword, hcmd]
  rw [State.slotHeld, State.slotHeld, State.bit, State.bit, hget R.JRN_HEAD.HEAD (by decide) (by decide),
    hget R.JRN_LAST_EPOCH.SEQ (by decide) (by decide), hget R.JRN_ACK.GUARD (by decide) (by decide),
    hget R.JRN_ACK.ACK (by decide) (by decide), hseq, hentry, houtcome, hcmd]

end

/-! ### A first re-execution that takes a second slot (R466, R468) -/

/-- A first re-execution whose entry has failed twice waits where the sequence that follows finds its slot held. -/
theorem State.reexecuteNext_waits {s : State} {o : Nat} {rest : List Nat} (h : s.cmd.reexec = o :: rest) (hfree : s.slotHeld = false)
    (hheld : ((s.reexecEntry o 2).1.journalFail 0xFF).slotHeld = true) :
    s.reexecuteNext 2 = (s.reexecEntry o 2).1.journalFail 0xFF := by
  rw [State.reexecuteNext, h]
  simp [hfree, hheld]

/-- LOAD with the epoch entry written and entry 0 marked for re-execution. GUARD keeps the entries 0 and 1 but for entry 0, which is
acknowledged: the next sequence, 65536, finds its slot free, and the one that follows, 65537, finds its slot held. -/
def nextSlotHeld : State :=
  let s : State := { State.reset with mode := .load, prev := .prove, boot := { epochWritten := true } }
  let t := ((s.writeEntry 0 0 [] 0 0).1.writeEntry 0 0 [] 0 0).1
  let u := (((t.set R.JRN_HEAD.HEAD 65536).set R.JRN_LAST_EPOCH.SEQ 65535).setBit R.JRN_ACK.GUARD true).set R.JRN_ACK.ACK 1
  { u with cmd := { u.cmd with reexec := [0] } }

theorem nextSlotHeld_load : nextSlotHeld.mode = .load ∧ nextSlotHeld.fault.chipReset = false ∧ nextSlotHeld.boot.epochWritten = true ∧
    nextSlotHeld.cmd.reexec = [0] := by decide +kernel

theorem nextSlotHeld_free : nextSlotHeld.slotHeld = false := by decide +kernel

/-- SERVE as it begins, before the first re-execution. -/
def State.served (s : State) : State :=
  let s1 := ({ s with mode := .serve, prev := .load }.set R.BOOT_STATUS.STEP 15).emit .flashReleased
  let s2 := s1.set R.FAB_TOPO.EPOCH (s1.get R.JRN_EPOCH.COUNT)
  let s3 := if s2.bit R.FAB_CFG.CONFIGURED then s2.setAddress 2 (s2.get R.FAB_CFG.ADDR) false else s2
  let s4 := (List.range 64).foldl (fun (t : State) i => if t.bit (R.IRIS_CTRL.ENABLE i) then t.set (R.IRIS_STATUS.STATE i) 1 else t) s3
  { s4 with fab := { s4.fab with advDue := true } }

theorem State.enterServe_served (s : State) (fails : Nat) : s.enterServe fails = s.served.reexecuteNext fails := rfl

/-- The entry at 65536 before its commit word, which two failed read-backs leave open. -/
def nextSlotOpen : State :=
  nextSlotHeld.served.entryOpen (nextSlotHeld.served.jword 0 0 / 2 ^ 48 % 256) 4 (nextSlotHeld.served.jbytes 0 2 8) 0

theorem nextSlotOpen_held : nextSlotOpen.slotHeld = true := by decide +kernel

theorem nextSlotOpen_head : nextSlotOpen.get R.JRN_HEAD.HEAD = 65537 := by decide +kernel

/-- Once the entry at 65536 has failed twice, the next lacks its slot, and the re-execution waits. -/
theorem nextSlotHeld_waits : (nextSlotHeld.enterServe 2).cmd.reexec = [0] := by
  have hhead : nextSlotHeld.served.get R.JRN_HEAD.HEAD = 65536 := by decide +kernel
  have hfail : (nextSlotHeld.served.reexecEntry 0 2).1 = nextSlotOpen.draw.2.setJword 65536 31 nextSlotOpen.draw.1 := by
    rw [State.reexecEntry, State.writeEntry_failed, hhead, nextSlotOpen]
  have hheld : ((nextSlotHeld.served.reexecEntry 0 2).1.journalFail 0xFF).slotHeld = true := by
    rw [hfail, State.slotHeld_journalFail, State.slotHeld_setJword_other _ _ (by decide)]
    · rw [State.slotHeld_draw, nextSlotOpen_held]
    · rw [State.get_draw, nextSlotOpen_head]
      decide
  have hmarked : nextSlotOpen.cmd.reexec = [0] := by decide +kernel
  rw [State.enterServe_served, State.reexecuteNext_waits (rest := []) (by decide +kernel) (by decide +kernel) hheld, hfail,
    State.journalFail, State.raise_cmd, State.sat_cmd, State.reexec_setJword, State.draw_cmd, hmarked]

/-- SERVE_ENTRY in LOAD, once the epoch entry is written (R478). -/
theorem exec_serveEntry {s : State} (fails : Nat) (hload : s.mode = .load) (hreset : s.fault.chipReset = false)
    (hepoch : s.boot.epochWritten = true) : exec (.serveEntry fails) s = .next (s.enterServe fails).settle :=
  complete_of_eq rfl (if_pos (by simp [hload, hreset, hepoch]))

/-- Refutes O52: where the entry of the first re-execution fails twice, its sequence is spent, and the entry that follows needs its own slot of
the journal; GUARD holds that slot here, so the entry waits, though the slot of the next sequence was free when SERVE began. -/
theorem not_serveBegins : ¬ Obligations.ServeBegins := by
  rintro ⟨hserve, -⟩
  obtain ⟨hload, hreset, hepoch, hmarked⟩ := nextSlotHeld_load
  obtain ⟨t, ht, -, -, -, -, -, -, -, hopens⟩ := hserve nextSlotHeld 2 hload hreset hepoch
  obtain ⟨hrest, -⟩ := hopens 0 [] hmarked nextSlotHeld_free
  rw [← Host.Outcome.next.inj ((exec_serveEntry 2 hload hreset hepoch).symm.trans ht), State.settle_cmd, nextSlotHeld_waits] at hrest
  exact absurd hrest (by decide)

end Sys2Proof.Machine
end

section
/-! SUPPORT. A gap whose lost cells name a class that the device does not have: what the statement about gaps leaves out (R310, R371). -/
namespace Sys2Proof.Machine

/-! ### A lost cell of a stray class (R310, R371) -/

/-- One of the cells lost with the gap. Its class is none of the eight: the fourth APR_BREACH.COUNT of this number stands at the offset of
FAB_LOSS. -/
def strayCell : FCell := { cls := 0x37FD9 }

/-- SERVE with a gap at the start of a stream: sequence 1 waits for 0, and the cell before belongs to the packet being rebuilt. FAB_LOSS reads as
no time-outs, its other fields all ones. -/
def strayGap : State :=
  let s : State := { State.reset with mode := .serve, tb := 2 ^ 80 }
  (s.setWord R.FAB_LOSS.TIMEOUTS.off 0x0000FFFFFFFFFFFF#64).setStream 0 0
    (some { held := [(1, { first := false }, none)], parts := [(strayCell, none)], gapNs := some 0 })

theorem strayGap_due : strayGap.mode = .serve ∧ (strayGap.stream 0 0).gapNs = some 0 ∧ 0 + strayGap.get R.FAB_REORDER.TIMEOUT ≤ strayGap.ns ∧
    (strayGap.stream 0 0).held ≠ [] := by decide +kernel

theorem strayGap_before : strayGap.get R.FAB_LOSS.TIMEOUTS = 0 := by decide +kernel

/-- The time-out is counted, and the breach carries into the count. -/
theorem strayGap_after : (strayGap.closeGap 0 0).get R.FAB_LOSS.TIMEOUTS = 2 := by decide +kernel

/-- REORDER_TIMEOUT closes a gap that is due (R371). -/
theorem exec_reorderTimeout {s : State} {d cls t0 : Nat} (hwf : Instr.wf (.reorderTimeout d cls) = true) (hruns : s.irisesRun = true)
    (hgap : (s.stream d cls).gapNs = some t0) (hdue : t0 + s.get R.FAB_REORDER.TIMEOUT ≤ s.ns) :
    exec (.reorderTimeout d cls) s = .next (s.closeGap d cls).settle :=
  complete_of_eq hwf (if_pos (by simp [hruns, hgap, hdue]))

/-- Refutes O26: nothing bounds the class of a cell in a stream, and the breach of a lost packet of class 0x37FD9 is counted in the word of
FAB_LOSS, where its carry raises TIMEOUTS a second time. The device reaches no such state: the class of a cell has 3 bits (R334). -/
theorem not_cellsArriveAndGapsClose : ¬ Obligations.CellsArriveAndGapsClose := by
  rintro ⟨-, -, hcloses, -⟩
  obtain ⟨hserve, hgap, hdue, hheld⟩ := strayGap_due
  have hruns := State.irisesRun_of_serve hserve
  obtain ⟨t, ht, hcount, -⟩ := hcloses strayGap 0 0 0 (by decide) hruns hgap hdue hheld
  rw [← Host.Outcome.next.inj ((exec_reorderTimeout (by decide) hruns hgap hdue).symm.trans ht), State.settle_get _ (by decide), strayGap_after,
    strayGap_before] at hcount
  exact absurd hcount (by decide)

end Sys2Proof.Machine
end

section
/-! SUPPORT. What an iris sends: CTRL cells, CALL, GASP and replay (R338, R342, R343, R346, R353). -/
namespace Sys2Proof.Machine

section
variable {s : State} {i : Nat}

/-! ### CTRL cells and the dying gasp (R338, R353) -/

/-- One cell is sent, and the iris notes it. -/
theorem State.cellSent_spec (s : State) (i : Nat) (y : Iris) (e : Emit) : (((s.setIris i y).emit e).settle.iris i = y) ∧
    s.kept { ((s.setIris i y).emit e).settle with irises := s.irises } [e] fun _ => False := by
  refine ⟨?_, State.kept_irises_sent rfl rfl fun _ _ => rfl⟩
  rw [State.iris_settle]
  exact State.iris_setIris_same ..

theorem exec_irisCtrlSend (hi : i < 64) (hruns : s.irisesRun = true) (hstate : 1 ≤ s.irisState i ∧ s.irisState i ≤ 3) :
    exec (.irisCtrlSend i) s = .next (s.sendCtrl i).settle :=
  complete_of_eq (decide_eq_true hi) (if_pos (by simp [hruns, hstate]))

theorem exec_gaspRepeat (hi : i < 64) (hmode : s.mode = .holdUp) (hon : s.power.isolated = false) (hstate : s.irisState i = 2 ∨ s.irisState i = 3)
    (hdue : (s.iris i).gaspNs + 99 ≤ s.ns) : exec (.gaspRepeat i) s = .next (s.gasp i).settle := by
  have hlater : (s.iris i).gaspNs + 100 ≤ s.ns + 1 := by omega
  exact complete_of_eq (decide_eq_true hi) (if_pos (by simp [hmode, hon, hstate, hlater]))

/-! ### CALL and ECHO (R346) -/

/-- A CALL with the next tag joins the records of the next CTRL cell. -/
def State.called (s : State) (i : Nat) : State :=
  (s.setIris i { s.iris i with tag := wrapAdd 16 (s.iris i).tag 1, calls := (s.iris i).calls ++ [((s.iris i).tag, s.ns)], callNs := s.ns + 1 }).due
    i (s.callRecord 1 (s.iris i).tag)

theorem State.called_iris (s : State) (i : Nat) : (s.called i).iris i = { s.iris i with
    tag := ((s.iris i).tag + 1) % 65536, calls := (s.iris i).calls ++ [((s.iris i).tag, s.ns)], callNs := s.ns + 1
    records := (s.iris i).records ++ [slice (s.callRecord 1 (s.iris i).tag) 0 16] } := by
  simp only [State.called, State.due, State.iris_setIris_same]
  rfl

/-- An iris that is DOWN with AUTO, and not held, begins TRAINING (R331). -/
def State.trainsAgain (s : State) (i : Nat) : State :=
  if s.mode == .serve && s.irisState i == 5 && s.bit (R.IRIS_CTRL.AUTO i) && !(s.iris i).held then s.set (R.IRIS_STATUS.STATE i) 1 else s

/-- In TRAINING or UP it sends a CALL that is due. -/
def State.callIfDue (s : State) (i : Nat) : State :=
  if (s.irisState i == 1 || s.irisState i == 2) && ((s.iris i).callNs == 0 || decide ((s.iris i).callNs - 1 + 1000 ≤ s.ns)) then s.called i else s

theorem exec_callSend (hi : i < 64) (hruns : s.irisesRun = true) :
    exec (.callSend i) s = .next ((s.trainsAgain i).callIfDue i).settle :=
  complete_of_eq (decide_eq_true hi) (if_neg (by simp [hruns]))

theorem State.trainsAgain_of_state (h : s.irisState i ≠ 5) : s.trainsAgain i = s := if_neg (by simp [h])

theorem State.trainsAgain_of_down (hserve : s.mode = .serve) (hstate : s.irisState i = 5) (hauto : s.bit (R.IRIS_CTRL.AUTO i) = true)
    (hheld : (s.iris i).held = false) : s.trainsAgain i = s.set (R.IRIS_STATUS.STATE i) 1 :=
  if_pos (by simp [hserve, hstate, hauto, hheld])

theorem State.callIfDue_of_due (hstate : s.irisState i = 1 ∨ s.irisState i = 2) (hdue : (s.iris i).callNs = 0 ∨ (s.iris i).callNs + 999 ≤ s.ns) :
    s.callIfDue i = s.called i := by
  have hlater : (s.iris i).callNs = 0 ∨ (s.iris i).callNs - 1 + 1000 ≤ s.ns := by omega
  refine if_pos ?_
  simpa using ⟨hstate, hlater⟩

/-- The CALL touches the iris alone. -/
theorem State.callIfDue_rest (s : State) (i : Nat) : (s.callIfDue i).bare = s.bare ∧ (s.callIfDue i).cmd = s.cmd ∧
    (s.callIfDue i).regs = s.regs :=
  ⟨ite_keeps rfl rfl, ite_keeps rfl rfl, ite_keeps rfl rfl⟩

/-- Those of TRAINING stay (R331). -/
theorem State.callIfDue_kept (s : State) (i : Nat) : s.kept { (s.callIfDue i).settle with irises := s.irises } [] fun _ => False := by
  obtain ⟨hbare, hcmd, hregs⟩ := s.callIfDue_rest i
  exact State.kept_irises hbare hcmd fun k _ => State.word_of_regs hregs k

/-! ### The third ECHO missed (R346) -/

/-- The CALL that lacks its ECHO is counted. -/
def State.echoLost (s : State) (i : Nat) (cs : List (Nat × Nat)) : State :=
  (s.setIris i { s.iris i with calls := cs, misses := (s.iris i).misses + 1 }).sat (R.IRIS_ERR.MISSED i) 1

theorem exec_echoMissed {tag t0 : Nat} {cs : List (Nat × Nat)} (hi : i < 64) (hruns : s.irisesRun = true) (hcalls : (s.iris i).calls = (tag, t0) :: cs)
    (hdue : t0 + 2000 ≤ s.ns) : exec (.echoMissed i) s =
      .next (State.settle (if 3 ≤ (s.iris i).misses + 1 then (s.echoLost i cs).downFor i 1 else s.echoLost i cs)) := by
  refine complete_of_eq (decide_eq_true hi) ?_
  dsimp only
  rw [hcalls]
  exact if_pos (by simp [hruns, hdue])

theorem State.downFor_of_active (h : s.irisActive i = true) (cause : Nat) : s.downFor i cause = s.irisDown i cause s.now 0 := if_pos h

/-! ### Replay (R342, R343) -/

/-- Cells sent one by one. -/
theorem State.foldl_emit {α : Type} (f : α → Emit) (es : List α) (s : State) : es.foldl (fun t e => t.emit (f e)) s = s.emitAll (es.map f) := by
  induction es generalizing s with
  | nil => exact s.emitAll_nil.symm
  | cons e es ih =>
    rw [List.foldl_cons, ih, List.map_cons]
    simp [State.emitAll, State.emit]

/-- The replay begun, before the cells are sent again. -/
def State.replayBegun (s : State) (i q : Nat) : State :=
  (s.setIris i { s.iris i with replay := some (q, s.ns) }).sat (R.IRIS_ERR.REWINDS i) 1

theorem State.rewind_eq (s : State) (i q : Nat) : s.rewind i q = (s.replayBegun i q).emitAll
    (((s.iris i).queue.filter fun e => decide ((e.lseq + 65536 - (s.iris i).mark) % 65536 ≥ (q + 65536 - (s.iris i).mark) % 65536)).map
      fun e => .cell i (e.cell.bytes e.lseq)) :=
  State.foldl_emit ..

theorem exec_ackTimeout (hi : i < 64) (hserve : s.mode = .serve) (hstate : s.irisState i = 2 ∨ s.irisState i = 3) (hqueue : (s.iris i).queue ≠ [])
    (hdue : (s.iris i).markNs + s.get (R.IRIS_RETRY.ACK_TIMEOUT i) ≤ s.ns) (hidle : s.replaying i (s.iris i).mark = false) :
    exec (.ackTimeout i) s = .next (s.rewind i (s.iris i).mark).settle :=
  complete_of_eq (decide_eq_true hi) (if_pos (by simp [hserve, hstate, hqueue, hdue, hidle]))

theorem exec_retryBudget {e : TxEntry} {es : List TxEntry} (hi : i < 64) (hruns : s.irisesRun = true) (hqueue : (s.iris i).queue = e :: es)
    (hdue : e.firstNs + s.get (R.IRIS_RETRY.BUDGET i) < s.ns) : exec (.retryBudget i) s = .next (s.downFor i 2).settle := by
  refine complete_of_eq (decide_eq_true hi) ?_
  rw [hqueue]
  exact if_pos (by simp [hruns, hdue])

/-- A count of errors goes up, and what follows leaves it. -/
theorem State.sat_errors {x : State} {l : Loc} (hi : i < 64) (hl : l.off = 0x2300028 + 0x4000 * i) (hw : l.lo + l.w ≤ 64)
    (h : x.get l = (s.sat l 1).get l) : x.settle.get l = min (s.get l + 1) (2 ^ l.w - 1) := by
  rw [State.settle_get_iris x hi hl (by decide), h, State.get_sat_same s l 1 hw]

end

/-- Settles O24: each clause by what its command leaves of the iris; the third ECHO missed and the end of the retry budget are DOWNs. -/
theorem irisesSend : Obligations.IrisesSend := by
  unfold Obligations.IrisesSend
  refine ⟨?_, ?_, ?_, ?_, ?_, ?_, ?_⟩
  · intro s i hi hruns hfrom hto
    exact ⟨_, exec_irisCtrlSend hi hruns ⟨hfrom, hto⟩, State.cellSent_spec ..⟩
  · intro s i hi hruns hstate hdue
    refine ⟨_, exec_callSend hi hruns, ?_, ?_⟩
    · rw [State.trainsAgain_of_state (by omega), State.callIfDue_of_due hstate hdue, State.iris_settle, State.called_iris]
    · rw [State.trainsAgain_of_state (by omega)]
      exact State.callIfDue_kept s i
  · intro s i hi hserve hstate hauto hheld
    refine ⟨_, exec_callSend hi (State.irisesRun_of_serve hserve), ?_⟩
    rw [State.trainsAgain_of_down hserve hstate hauto hheld]
    obtain ⟨hbare, hcmd, hregs⟩ := (s.set (R.IRIS_STATUS.STATE i) 1).callIfDue_rest i
    have htrains : (s.set (R.IRIS_STATUS.STATE i) 1).irisState i = 1 := State.get_set_same _ _ _ (of_decide_eq_true rfl)
    refine ⟨?_, fun hdue => ?_, ?_⟩
    · rw [State.settle_irisState _ hi, State.irisState, State.get_of_word (State.word_of_regs hregs _)]
      exact htrains
    · rw [State.callIfDue_of_due (.inl htrains) hdue, State.iris_settle, State.called_iris, State.iris_set]
    · exact State.kept_irises (hbare.trans (State.bare_set ..)) (hcmd.trans (State.set_cmd ..)) fun k hk =>
        (State.word_of_regs hregs k).trans (State.word_set_other s hk)
  · intro s i tag t0 cs hi hruns hcalls hdue
    refine ⟨_, exec_echoMissed hi hruns hcalls hdue, fun h => ?_, fun h hactive => ?_⟩
    · rw [if_neg (by omega)]
      refine ⟨?_, State.sat_errors hi rfl (of_decide_eq_true rfl) rfl, State.kept_irises rfl rfl fun k hk => State.word_set_other _ hk⟩
      rw [State.iris_settle, State.echoLost, State.iris_sat, State.iris_setIris_same]
    · have hx : (s.echoLost i cs).irisState i = s.irisState i := State.get_set_of_off (by simp [R.IRIS_STATUS.STATE, R.IRIS_ERR.MISSED])
      have hiris : (s.echoLost i cs).iris i = { s.iris i with calls := cs, misses := (s.iris i).misses + 1 } := by
        rw [State.echoLost, State.iris_sat, State.iris_setIris_same]
      have hvalid : (s.echoLost i cs).bit (R.IRIS_DOWN_CAP.VALID i) = s.bit (R.IRIS_DOWN_CAP.VALID i) := by
        rw [State.bit, State.echoLost, State.sat, State.get_set_of_off (by simp [R.IRIS_DOWN_CAP.VALID, R.IRIS_ERR.MISSED]), State.get_setIris, State.bit]
      rw [if_pos (by omega), State.downFor_of_active (by rw [State.irisActive, hx]; exact hactive)]
      exact State.irisDown_wentDown _ _ hi (State.irisesRun_coreUp hruns) (by decide) rfl (by rw [hiris]) (by rw [hiris]; rfl)
        hvalid
  · intro s i hi hserve hstate hqueue hdue hidle
    refine ⟨_, exec_ackTimeout hi hserve hstate hqueue hdue hidle, ?_, ?_, ?_⟩
    · rw [State.iris_settle, State.rewind_eq]
      show ((s.replayBegun i _).iris i).replay = _
      rw [State.replayBegun, State.iris_sat, State.iris_setIris_same]
    · rw [State.rewind_eq]
      exact State.sat_errors hi rfl (of_decide_eq_true rfl) rfl
    · rw [State.rewind_eq]
      exact State.kept_irises_sent (State.bare_emitAll rfl _) rfl fun k hk => State.word_set_other _ hk
  · intro s i e es hi hruns hqueue hdue hactive
    refine ⟨_, exec_retryBudget hi hruns hqueue hdue, ?_⟩
    rw [State.downFor_of_active hactive]
    exact State.irisDown_wentDown _ _ hi (State.irisesRun_coreUp hruns) (by decide) rfl rfl rfl rfl
  · intro s i hi hmode hon hstate hdue
    exact ⟨_, exec_gaspRepeat hi hmode hon hstate hdue, State.cellSent_spec ..⟩

end Sys2Proof.Machine
end

section
/-! SUPPORT. Training, retraining and lanes of an iris (R330, R333, R347, R349, R350). -/
namespace Sys2Proof.Machine

/-! ### Lane groups (R330) -/

theorem groupIn_spec {w mask g : Nat} (h : groupIn w mask = some g) : g &&& mask = g ∧ g < 16 := by
  have hmask := List.find?_some (p := fun g => (g &&& mask) == g) h
  have hmem := List.mem_of_find?_eq_some (p := fun g => (g &&& mask) == g) h
  refine ⟨beq_iff_eq.mp hmask, ?_⟩
  unfold laneGroups at hmem
  split at hmem <;> simp only [List.mem_cons, List.not_mem_nil, or_false] at hmem <;> omega

/-- The widest group is no wider than asked for, and lies within the mask. -/
theorem widest_spec {n mask w g : Nat} (h : widest n mask = some (w, g)) : w ≤ n ∧ g &&& mask = g ∧ g < 16 := by
  induction n with
  | zero =>
    obtain ⟨x, hx, he⟩ := Option.map_eq_some_iff.mp h
    obtain ⟨rfl, rfl⟩ := Prod.mk.inj he
    exact ⟨Nat.le_refl _, groupIn_spec hx⟩
  | succ n ih =>
    rw [widest] at h
    split at h
    · next hx =>
      obtain ⟨rfl, rfl⟩ := Prod.mk.inj (Option.some.inj h)
      exact ⟨Nat.le_refl _, groupIn_spec hx⟩
    · obtain ⟨hw, hmask⟩ := ih h
      exact ⟨Nat.le_succ_of_le hw, hmask⟩

/-- The lanes of a group within both masks are among those of the first. -/
theorem lor_eq_of_and_eq {g lanes en : Nat} (h : g &&& (lanes &&& en) = g) : lanes ||| g = lanes := by
  refine Nat.eq_of_testBit_eq fun k => ?_
  have hk := congrArg (Nat.testBit · k) h
  simp only [Nat.testBit_and, Nat.testBit_or] at hk ⊢
  cases hl : lanes.testBit k <;> simp_all

/-- A lane that has left its set of lanes. -/
theorem testBit_lane_removed {ok lane : Nat} (hok : ok < 16) (hlane : lane < 4) :
    (if ok.testBit lane then ok - 2 ^ lane else ok).testBit lane = false := by
  split
  · next h =>
    have hall : ∀ a < 16, ∀ b < 4, a.testBit b = true → (a - 2 ^ b).testBit b = false := by decide
    exact hall ok hok lane hlane h
  · next h => exact Bool.eq_false_iff.mpr h

/-! ### Account 384 (R274) -/

/-- The lanes in lock say nothing of the cells that credit speaks for. -/
theorem State.fabricFree_lanesOk (s : State) (i v : Nat) : (s.set (R.IRIS_STATUS.LANES_OK i) v).fabricFree = s.fabricFree := by
  have hstate : ∀ j, (s.set (R.IRIS_STATUS.LANES_OK i) v).get (R.IRIS_STATUS.STATE j) = s.get (R.IRIS_STATUS.STATE j) := fun _ =>
    State.get_set_of_bits (of_decide_eq_true rfl) (of_decide_eq_true rfl)
  have hacct : ∀ l : Loc, l.off = 0x1B01C00 → (s.set (R.IRIS_STATUS.LANES_OK i) v).get l = s.get l := fun l hl =>
    State.get_set_of_off (by simp only [hl, R.IRIS_STATUS.LANES_OK]; omega)
  simp only [State.fabricFree, State.promised, hstate, hacct (R.BUF_ACCT.MIN 384) rfl, hacct (R.BUF_ACCT.USED 384) rfl, State.set_irises]

/-! ### Entry to UP (R333, R336, R344) -/

/-- The iris as it enters UP. -/
def Iris.entered (x : Iris) (limit now : Nat) : Iris :=
  { ups := x.ups + 1, tag := x.tag, calls := x.calls, callNs := x.callNs, misses := x.misses, records := x.records, creditTotal := limit,
    markNs := now, ctrlNs := x.ctrlNs, linkCells := x.linkCells }

/-- Its state, width, lanes and credit. -/
def State.upFields (s : State) (i width lanes : Nat) : State :=
  let s1 := (s.setIris i ((s.iris i).entered (s.get (R.IRIS_CREDIT.LIMIT i)) s.ns)).set (R.IRIS_STATUS.STATE i) 2
  (((s1.set (R.IRIS_STATUS.WIDTH i) width).set (R.IRIS_STATUS.LANES_ACT i) lanes).set (R.IRIS_STATUS.LANES_OK i)
    (s1.get (R.IRIS_STATUS.LANES_OK i) ||| lanes)).set (R.IRIS_CREDIT.HELD i) 0

/-- The state with another state of the fabric. -/
def State.withFab (s : State) (f : FabState) : State := { s with fab := f }

section
variable (s : State) (i width lanes : Nat)

theorem State.set_withFab (f : FabState) (l : Loc) (v : Nat) : (s.withFab f).set l v = (s.set l v).withFab f := rfl

theorem State.bare_withFab (f : FabState) : (s.withFab f).bare = s.bare.withFab f := rfl

theorem State.iris_withFab (f : FabState) (j : Nat) : (s.withFab f).iris j = s.iris j := rfl

theorem State.syncIris_withFab (f : FabState) : (s.withFab f).syncIris i = (s.syncIris i).withFab f := by
  rw [State.syncIris, State.syncIris, State.iris_withFab, State.set_withFab, State.set_withFab]

theorem State.linkChanged_withFab : s.linkChanged = s.withFab { s.fab with advDue := true } := rfl

theorem State.enterUp_fields : s.enterUp i width lanes = ((if (List.range 64).any fun j => s.irisState j == 2 then s.upFields i width lanes
    else (s.upFields i width lanes).withFab { (s.upFields i width lanes).fab with quietNs := (s.upFields i width lanes).ns }).syncIris
      i).linkChanged := by
  rw [State.enterUp, State.upFields, Iris.entered, State.withFab]

/-- Beside that the entry touches the fabric's state. -/
theorem State.enterUp_keeps {α : Type} (g : State → α) (hg : ∀ y f, g (State.withFab y f) = g y) :
    g (s.enterUp i width lanes) = g ((s.upFields i width lanes).syncIris i) := by
  rw [s.enterUp_fields, State.linkChanged_withFab, hg]
  split
  · rfl
  · rw [State.syncIris_withFab, hg]

theorem State.linkChanged_advDue : s.linkChanged.fab.advDue = true := rfl

theorem State.enterUp_advDue : (s.enterUp i width lanes).fab.advDue = true := by rw [s.enterUp_fields, State.linkChanged_advDue]

theorem State.upFields_rest : (s.upFields i width lanes).bare = s.bare ∧ (s.upFields i width lanes).cmd = s.cmd ∧
    (s.upFields i width lanes).iris i = (s.iris i).entered (s.get (R.IRIS_CREDIT.LIMIT i)) s.ns := by
  simp [State.upFields]

@[simp] theorem State.iris_syncIris (j : Nat) : (s.syncIris i).iris j = s.iris j := rfl

@[simp] theorem State.cmd_syncIris : (s.syncIris i).cmd = s.cmd := rfl

theorem State.enterUp_get (l : Loc) : (s.enterUp i width lanes).get l = ((s.upFields i width lanes).syncIris i).get l :=
  s.enterUp_keeps i width lanes (·.get l) fun _ _ => rfl

theorem State.enterUp_iris : (s.enterUp i width lanes).iris i = (s.iris i).entered (s.get (R.IRIS_CREDIT.LIMIT i)) s.ns := by
  obtain ⟨-, -, hiris⟩ := s.upFields_rest i width lanes
  rw [s.enterUp_keeps i width lanes (·.iris i) fun _ _ => rfl, State.iris_syncIris, hiris]

theorem State.enterUp_cmd : (s.enterUp i width lanes).cmd = s.cmd := by
  obtain ⟨-, hcmd, -⟩ := s.upFields_rest i width lanes
  rw [s.enterUp_keeps i width lanes (·.cmd) fun _ _ => rfl, State.cmd_syncIris, hcmd]

theorem State.enterUp_status : (s.enterUp i width lanes).get (R.IRIS_STATUS.STATE i) = 2 ∧
    (s.enterUp i width lanes).get (R.IRIS_STATUS.WIDTH i) = width % 4 ∧ (s.enterUp i width lanes).get (R.IRIS_STATUS.LANES_ACT i) = lanes % 16 ∧
    (s.enterUp i width lanes).get (R.IRIS_STATUS.LANES_OK i) = (s.get (R.IRIS_STATUS.LANES_OK i) ||| lanes) % 16 := by
  have hread : ∀ l : Loc, l.off = 0x2300008 + 0x4000 * i → (s.enterUp i width lanes).get l = (s.upFields i width lanes).get l := fun l hl => by
    rw [s.enterUp_get, State.get_syncIris _ _ (by simp [hl, R.IRIS_CREDIT.AVAIL]) (by simp [hl, R.IRIS_RETRY.QUEUED])]
  rw [hread _ rfl, hread _ rfl, hread _ rfl, hread _ rfl, State.upFields]
  simp (disch := exact of_decide_eq_true rfl) only [State.get_set_of_bits, State.get_set_same, State.get_setIris]
  exact ⟨rfl, rfl, rfl, rfl⟩

theorem State.enterUp_held : (s.enterUp i width lanes).get (R.IRIS_CREDIT.HELD i) = 0 := by
  rw [s.enterUp_get, State.syncIris, State.get_set_of_off (by simp [R.IRIS_CREDIT.HELD, R.IRIS_RETRY.QUEUED]),
    State.get_set_of_bits (of_decide_eq_true rfl) (of_decide_eq_true rfl), State.upFields, State.get_set_same _ _ _ (of_decide_eq_true rfl)]
  rfl

theorem State.enterUp_word {k : Nat} (hk : ¬ (0x2300000 + 0x4000 * i ≤ k ∧ k < 0x2304000 + 0x4000 * i)) :
    (s.enterUp i width lanes).word k = s.word k := by
  have hother : ∀ (t : State) (l : Loc) (r v : Nat), l.off = r + 0x4000 * i → 0x2300000 ≤ r ∧ r < 0x2304000 → (t.set l v).word k = t.word k :=
    fun t l r v hl hr => State.word_set_other t (by omega)
  rw [s.enterUp_keeps i width lanes (·.word k) fun _ _ => rfl, State.syncIris, State.upFields]
  simp only [hother _ (R.IRIS_RETRY.QUEUED i) _ _ rfl (by decide), hother _ (R.IRIS_CREDIT.AVAIL i) _ _ rfl (by decide),
    hother _ (R.IRIS_CREDIT.HELD i) _ _ rfl (by decide), hother _ (R.IRIS_STATUS.LANES_OK i) _ _ rfl (by decide),
    hother _ (R.IRIS_STATUS.LANES_ACT i) _ _ rfl (by decide), hother _ (R.IRIS_STATUS.WIDTH i) _ _ rfl (by decide),
    hother _ (R.IRIS_STATUS.STATE i) _ _ rfl (by decide), State.word_setIris]

theorem State.enterUp_bare : ((s.enterUp i width lanes).withFab s.fab).bare = s.bare := by
  obtain ⟨hbare, -, -⟩ := s.upFields_rest i width lanes
  rw [s.enterUp_keeps i width lanes (fun y => (y.withFab s.fab).bare) fun _ _ => rfl, State.bare_withFab, State.bare_syncIris, hbare]
  rfl

end

/-- The frame of a command that touches registers, irises and the fabric's state. -/
theorem State.kept_irises_fab {s x : State} {but : Nat → Prop} (hb : (x.withFab s.fab).bare = s.bare) (hc : x.cmd = s.cmd)
    (hw : ∀ k, ¬ but k → x.word k = s.word k) : s.kept { x.settle with irises := s.irises, fab := s.fab } [] but := by
  have hstill : ({ x with cmd := s.cmd, irises := s.irises, fab := s.fab } : State).still = s.still :=
    (congrArg (fun y : State => ({ y with cmd := s.cmd, irises := s.irises } : State).still) hb :)
  have hout : x.out = s.out ++ [] := ((congrArg State.out hb :) : x.out = s.out).trans (List.append_nil _).symm
  have hkept : s.kept { x.settle with cmd := s.cmd, irises := s.irises, fab := s.fab } [] but :=
    State.kept_sent (g := fun y => { y with cmd := s.cmd, irises := s.irises, fab := s.fab }) (fun _ => rfl) (fun _ => rfl) (fun _ => rfl) hstill hout hw
  rwa [← x.settle_cmd.trans hc] at hkept

/-! ### Training (R333, R347, R349) -/

section
variable {s : State} {i width lanes : Nat}

/-- Lane training has completed at both ends. -/
structure State.Trained (s : State) (i width lanes : Nat) : Prop where
  wf : Instr.wf (.irisTrained i width lanes) = true
  serve : s.mode = .serve
  state : s.irisState i = 1
  call : (s.iris i).callSeen = true
  echo : (s.iris i).echoSeen = true

/-- The widest group that the lanes allow. -/
abbrev State.groupFor (s : State) (i width lanes : Nat) : Option (Nat × Nat) :=
  widest (min width (s.get (R.IRIS_CTRL.WIDTH_MAX i))) (lanes &&& s.get (R.IRIS_CTRL.LANES_EN i))

theorem exec_irisTrained_some (h : s.Trained i width lanes) {w g : Nat} (hg : s.groupFor i width lanes = some (w, g)) :
    exec (.irisTrained i width lanes) s = .next (State.settle (if s.mayEnter i then (s.set (R.IRIS_STATUS.LANES_OK i) lanes).enterUp i w g
      else s.set (R.IRIS_STATUS.LANES_OK i) lanes)) := by
  obtain ⟨hwf, hserve, hstate, hcall, hecho⟩ := h
  have hmay : (s.set (R.IRIS_STATUS.LANES_OK i) lanes).mayEnter i = s.mayEnter i := by
    rw [State.mayEnter, State.fabricFree_lanesOk, State.get_set_of_off (by simp [R.IRIS_STATUS.LANES_OK, R.IRIS_CREDIT.LIMIT]), State.mayEnter]
  rw [← hmay]
  refine complete_of_eq hwf ((if_pos (by simp [hserve, hstate, hcall, hecho])).trans ?_)
  rw [State.groupFor] at hg
  dsimp only
  rw [hg]

theorem exec_irisTrained_none (h : s.Trained i width lanes) (hg : s.groupFor i width lanes = none) :
    exec (.irisTrained i width lanes) s = .next ((s.set (R.IRIS_STATUS.LANES_OK i) lanes).downFor i 6).settle := by
  obtain ⟨hwf, hserve, hstate, hcall, hecho⟩ := h
  refine complete_of_eq hwf ((if_pos (by simp [hserve, hstate, hcall, hecho])).trans ?_)
  rw [State.groupFor] at hg
  dsimp only
  rw [hg]

theorem State.Trained.bounds (h : s.Trained i width lanes) : i < 64 ∧ width < 3 ∧ lanes < 16 := by
  obtain ⟨hiris, hlanes⟩ := (Bool.and_eq_true _ _).mp h.wf
  obtain ⟨hi, hwidth⟩ := (Bool.and_eq_true _ _).mp hiris
  exact ⟨of_decide_eq_true hi, of_decide_eq_true hwidth, of_decide_eq_true hlanes⟩

/-- The lanes in lock are recorded, and the rest of the status stays. -/
theorem State.lanesOk_get (hi : i < 64) (hl : lanes < 16) : (s.set (R.IRIS_STATUS.LANES_OK i) lanes).settle.irisState i = s.irisState i ∧
    (s.set (R.IRIS_STATUS.LANES_OK i) lanes).get (R.IRIS_STATUS.LANES_OK i) = lanes := by
  refine ⟨?_, (State.get_set_same _ _ _ (of_decide_eq_true rfl)).trans (Nat.mod_eq_of_lt hl)⟩
  rw [State.settle_irisState _ hi, State.irisState, State.get_set_of_bits (of_decide_eq_true rfl) (of_decide_eq_true rfl), State.irisState]

/-- An iris that carries cells or trains goes DOWN whatever lanes are in lock. -/
theorem State.lanesOk_wentDown (v : Nat) {cause : Nat} (hi : i < 64) (hruns : s.irisesRun = true) (hactive : s.irisActive i = true) (hc : cause < 16) :
    s.wentDown ((s.set (R.IRIS_STATUS.LANES_OK i) v).downFor i cause).settle i cause := by
  have hstate : (s.set (R.IRIS_STATUS.LANES_OK i) v).irisState i = s.irisState i :=
    State.get_set_of_bits (of_decide_eq_true rfl) (of_decide_eq_true rfl)
  have hvalid : (s.set (R.IRIS_STATUS.LANES_OK i) v).bit (R.IRIS_DOWN_CAP.VALID i) = s.bit (R.IRIS_DOWN_CAP.VALID i) := by
    rw [State.bit, State.get_set_of_off (by simp [R.IRIS_DOWN_CAP.VALID, R.IRIS_STATUS.LANES_OK]), State.bit]
  rw [State.downFor_of_active (by rw [State.irisActive, hstate]; exact hactive)]
  exact State.irisDown_wentDown _ _ hi (State.irisesRun_coreUp hruns) hc rfl rfl rfl hvalid

/-- The iris is UP at the group's width, on its lanes. -/
theorem State.trained_status (h : s.Trained i width lanes) {w g : Nat} (hg : s.groupFor i width lanes = some (w, g)) :
    ((s.set (R.IRIS_STATUS.LANES_OK i) lanes).enterUp i w g).get (R.IRIS_STATUS.STATE i) = 2 ∧
      ((s.set (R.IRIS_STATUS.LANES_OK i) lanes).enterUp i w g).get (R.IRIS_STATUS.WIDTH i) = w ∧
      ((s.set (R.IRIS_STATUS.LANES_OK i) lanes).enterUp i w g).get (R.IRIS_STATUS.LANES_ACT i) = g ∧
      ((s.set (R.IRIS_STATUS.LANES_OK i) lanes).enterUp i w g).get (R.IRIS_STATUS.LANES_OK i) = lanes := by
  obtain ⟨hi, hwidth, hlanes⟩ := h.bounds
  obtain ⟨hw, hmask, hlow⟩ := widest_spec hg
  obtain ⟨-, hok⟩ := s.lanesOk_get hi hlanes
  obtain ⟨hstate, hwide, hact, hlock⟩ := (s.set (R.IRIS_STATUS.LANES_OK i) lanes).enterUp_status i w g
  refine ⟨hstate, hwide.trans (Nat.mod_eq_of_lt (by omega)), hact.trans (Nat.mod_eq_of_lt hlow), ?_⟩
  rw [hlock, hok, lor_eq_of_and_eq hmask, Nat.mod_eq_of_lt hlanes]

/-! ### A lane that loses lock, and one over its threshold (R349) -/

/-- The lane has left LANES_OK. -/
def State.laneLost (s : State) (i lane : Nat) : State :=
  s.set (R.IRIS_STATUS.LANES_OK i) (if (s.get (R.IRIS_STATUS.LANES_OK i)).testBit lane then s.get (R.IRIS_STATUS.LANES_OK i) - 2 ^ lane
    else s.get (R.IRIS_STATUS.LANES_OK i))

theorem exec_laneLockLoss {lane : Nat} (hwf : Instr.wf (.laneLockLoss i lane) = true) (hruns : s.irisesRun = true) :
    exec (.laneLockLoss i lane) s = .next (State.settle (if (s.get (R.IRIS_STATUS.LANES_ACT i)).testBit lane then (s.laneLost i lane).downFor i 3
      else s.laneLost i lane)) :=
  complete_of_eq hwf (if_neg (by simp [hruns]))

theorem State.laneLost_ok {lane : Nat} (hlane : lane < 4) : ((s.laneLost i lane).get (R.IRIS_STATUS.LANES_OK i)).testBit lane = false := by
  have hok : s.get (R.IRIS_STATUS.LANES_OK i) < 16 := State.get_lt ..
  rw [State.laneLost, State.get_set_same _ _ _ (of_decide_eq_true rfl), Nat.mod_eq_of_lt]
  · exact testBit_lane_removed hok hlane
  · split
    · exact lt_of_le_of_lt (Nat.sub_le ..) hok
    · exact hok

theorem exec_laneThreshold {lane rate w g : Nat} (hwf : Instr.wf (.laneThreshold i lane rate) = true) (hruns : s.irisesRun = true)
    (hstate : s.irisState i = 2) (hact : (s.get (R.IRIS_STATUS.LANES_ACT i)).testBit lane = true) (hset : s.get (R.IRIS_LANE.THRESH i) ≠ 0)
    (hover : s.get (R.IRIS_LANE.THRESH i) < rate) (hchange : (s.iris i).change = none) (hlane : (s.get (R.IRIS_CTRL.LANES_EN i)).testBit lane = true)
    (hg : widest (s.get (R.IRIS_CTRL.WIDTH_MAX i)) (s.get (R.IRIS_CTRL.LANES_EN i) - 2 ^ lane) = some (w, g)) :
    exec (.laneThreshold i lane rate) s = .next (s.startChange i w (s.get (R.IRIS_CTRL.LANES_EN i) - 2 ^ lane) false none).settle := by
  refine complete_of_eq hwf ?_
  dsimp only
  rw [if_pos (by simp [hruns, hstate, hact, hset, hover, hchange]), if_pos hlane, hg]

/-! ### RT_REQ and its repeats (R350) -/

/-- The RT_REQ of a change joins the records. -/
def State.asked (s : State) (i : Nat) (c : LinkChange) : State := (s.setIris i { s.iris i with change := some c }).rtReq i c

theorem State.asked_change (s : State) (i : Nat) (c : LinkChange) : ((s.asked i c).iris i).change = some c := by
  simp only [State.asked, State.rtReq, State.due, State.iris_setIris_same]

theorem State.asked_kept (s : State) (i : Nat) (c : LinkChange) : s.kept { (s.asked i c).settle with irises := s.irises } [] fun _ => False :=
  State.kept_irises rfl rfl fun _ _ => rfl

theorem exec_rtReqRepeat {c : LinkChange} (hi : i < 64) (hruns : s.irisesRun = true) (hstate : s.irisState i = 2)
    (hchange : (s.iris i).change = some c) (hleads : c.leader = true) (hopen : c.agreed = none) (hdue : c.reqNs + 10000 ≤ s.ns) :
    exec (.rtReqRepeat i) s = .next (State.settle (if 3 ≤ c.repeats then s.downFor i 8
      else s.asked i { c with reqNs := s.ns, repeats := c.repeats + 1 })) := by
  refine complete_of_eq (decide_eq_true hi) ?_
  dsimp only
  rw [hchange]
  exact if_pos (by simp [hruns, hstate, hleads, hopen, hdue])

/-! ### CTRL cells until no record is due (R338) -/

/-- `t` is `s` but for CTRL cells sent on iris `i`, which have carried `n` records. -/
structure SentCtrl (s t : State) (i n : Nat) : Prop where
  eq : t = { s with irises := t.irises, out := t.out }
  iris : t.iris i = { s.iris i with records := (s.iris i).records.drop n, ctrlNs := (t.iris i).ctrlNs, ackSent := (t.iris i).ackSent }

theorem State.sendCtrl_iris (s : State) (i : Nat) : (s.sendCtrl i).iris i =
    { s.iris i with records := (s.iris i).records.drop 15, ctrlNs := s.ns, ackSent := (s.iris i).exp } :=
  State.iris_setIris_same ..

theorem SentCtrl.send {t : State} {n : Nat} (h : SentCtrl s t i n) : SentCtrl s (t.sendCtrl i) i (n + 15) := by
  obtain ⟨heq, hiris⟩ := h
  refine ⟨(congrArg (fun u : State => { u with irises := (t.sendCtrl i).irises, out := (t.sendCtrl i).out }) heq :), ?_⟩
  rw [t.sendCtrl_iris, hiris, List.drop_drop]

/-- CTRL cells go out until no record is due. -/
theorem State.flushCtrl_sent (s : State) (i : Nat) : ∃ n, (s.iris i).records.length ≤ n ∧ SentCtrl s (s.flushCtrl i) i n := by
  have hsent : ∀ n, SentCtrl s ((List.range n).foldl (fun t _ => t.sendCtrl i) s) i (15 * n) := fun n => by
    induction n with
    | zero => exact ⟨rfl, rfl⟩
    | succ n ih =>
      rw [List.range_succ, List.foldl_append]
      exact ih.send
  refine ⟨_, ?_, hsent _⟩
  simp only [ceilDiv]
  omega

/-- One of them is enough for up to 15 records. -/
theorem State.flushCtrl_one (hsome : 1 ≤ (s.iris i).records.length) (hfew : (s.iris i).records.length ≤ 15) : s.flushCtrl i = s.sendCtrl i := by
  have hone : ceilDiv (s.iris i).records.length 15 = 1 := by simp only [ceilDiv]; omega
  rw [State.flushCtrl, hone]
  rfl

/-! ### RT_READY (R350, R352) -/

theorem State.due_iris (s : State) (i : Nat) (r : List Byte) : (s.due i r).iris i = { s.iris i with records := (s.iris i).records ++ [slice r 0 16] } :=
  State.iris_setIris_same ..

/-- RT_READY has left with the records before it. -/
theorem State.sendReady_spec (s : State) (i : Nat) : s.sendReady i = { s with irises := (s.sendReady i).irises, out := (s.sendReady i).out } ∧
    (s.sendReady i).iris i = { s.iris i with records := [], ctrlNs := ((s.sendReady i).iris i).ctrlNs, ackSent := ((s.sendReady i).iris i).ackSent } := by
  obtain ⟨n, hn, heq, hiris⟩ := (s.due i (record 16 [(0, 1, 0x12)])).flushCtrl_sent i
  refine ⟨heq, ?_⟩
  have hempty : ((s.due i (record 16 [(0, 1, 0x12)])).iris i).records.drop n = [] := List.drop_eq_nil_of_le hn
  rw [hempty, State.due_iris] at hiris
  exact hiris

theorem exec_rtReadySend_down {seq : Nat} (hi : i < 64) (hruns : s.irisesRun = true) (hstate : s.irisState i = 3) (hqueue : (s.iris i).queue = [])
    (hdis : (s.iris i).disabling = some seq) (hack : (s.iris i).ackSent = (s.iris i).exp) :
    exec (.rtReadySend i) s = .next ((s.sendReady i).irisDown i 7 s.now 0).settle :=
  complete_of_eq (decide_eq_true hi) ((if_neg (by simp [hruns, hstate, hqueue, hack])).trans (if_pos (by simp [hdis])))

theorem exec_rtReadySend {c : LinkChange} (hi : i < 64) (hruns : s.irisesRun = true) (hstate : s.irisState i = 3) (hqueue : (s.iris i).queue = [])
    (hdis : (s.iris i).disabling = none) (hchange : (s.iris i).change = some c) (hready : c.readySent = false)
    (hack : (s.iris i).ackSent = (s.iris i).exp) :
    exec (.rtReadySend i) s = .next ((s.sendReady i).tryRetrain i { c with readySent := true }).settle := by
  refine complete_of_eq (decide_eq_true hi) ((if_neg (by simp [hruns, hstate, hqueue, hack])).trans ((if_neg (by simp [hdis])).trans ?_))
  rw [hchange]
  exact if_neg (by simp [hready])

/-- Once both ends are ready the iris is RETRAINING. -/
theorem State.tryRetrain_spec (s : State) (i : Nat) (c : LinkChange) :
    (s.tryRetrain i c).iris i = { s.iris i with change := some { c with startNs := s.ns } } ∧
      (s.tryRetrain i c).bare = s.bare ∧ (s.tryRetrain i c).cmd = s.cmd ∧
      (s.tryRetrain i c).irisState i = (if c.readySent && c.readyRecv then 4 else s.irisState i) ∧
      ∀ k, k ≠ (R.IRIS_STATUS.STATE i).off → (s.tryRetrain i c).word k = s.word k := by
  rw [State.tryRetrain]
  split
  · exact ⟨State.iris_setIris_same .., rfl, rfl, State.get_set_same _ _ _ (of_decide_eq_true rfl), fun k hk => State.word_set_other _ hk⟩
  · exact ⟨State.iris_setIris_same .., rfl, rfl, rfl, fun _ _ => rfl⟩

/-! ### The end of a retrain (R347, R350) -/

theorem exec_retrainTimeout {c : LinkChange} (hi : i < 64) (hruns : s.irisesRun = true) (hstate : s.irisState i = 4)
    (hchange : (s.iris i).change = some c) (hover : c.startNs + 40000 < s.ns) : exec (.retrainTimeout i) s = .next (s.downFor i 3).settle := by
  refine complete_of_eq (decide_eq_true hi) ?_
  rw [hchange]
  exact if_pos (by simp [hruns, hstate, hover])

/-- The iris is UP at what was agreed, with the change still to end. -/
def State.retrained (s : State) (i : Nat) (c : LinkChange) : State :=
  (s.enterUp i (c.agreed.getD (0, 1)).1 (c.agreed.getD (0, 1)).2).setIris i
    { (s.enterUp i (c.agreed.getD (0, 1)).1 (c.agreed.getD (0, 1)).2).iris i with change := some c }

theorem exec_retrainComplete {c : LinkChange} (hi : i < 64) (hruns : s.irisesRun = true) (hstate : s.irisState i = 4)
    (hchange : (s.iris i).change = some c) (htime : s.ns ≤ c.startNs + 40000) (hmay : s.get (R.IRIS_CREDIT.LIMIT i) ≤ s.fabricFree) :
    exec (.retrainComplete i) s = .next ((s.retrained i c).endChange i (if c.abandoned then 6 else 0)).settle := by
  refine complete_of_eq (decide_eq_true hi) ?_
  rw [hchange]
  exact if_pos (by simp [hruns, hstate, htime, State.mayEnter, hmay])

theorem State.retrained_change (s : State) (i : Nat) (c : LinkChange) : ((s.retrained i c).iris i).change = some c := by
  rw [State.retrained, State.iris_setIris_same]

theorem State.retrained_get (s : State) (i : Nat) (c : LinkChange) (l : Loc) :
    (s.retrained i c).get l = (s.enterUp i (c.agreed.getD (0, 1)).1 (c.agreed.getD (0, 1)).2).get l :=
  State.get_setIris ..

theorem State.retrained_cmd (s : State) (i : Nat) (c : LinkChange) : (s.retrained i c).cmd = s.cmd := by
  rw [State.retrained, State.cmd_setIris, State.enterUp_cmd]

theorem State.now_of_bare {t : State} (h : t.bare = s.bare) : t.now = s.now := (congrArg State.now h :)

theorem State.now_withFab (s : State) (f : FabState) : (s.withFab f).now = s.now := rfl

theorem State.now_setIris (s : State) (i : Nat) (v : Iris) : (s.setIris i v).now = s.now := rfl

theorem State.retrained_now (s : State) (i : Nat) (c : LinkChange) : (s.retrained i c).now = s.now := by
  rw [State.retrained, State.now_setIris, ← State.now_withFab _ s.fab]
  exact State.now_of_bare (s.enterUp_bare i _ _)

/-- The change ends. -/
theorem State.endChange_change (s : State) (i code : Nat) : ((s.endChange i code).iris i).change = none := by
  rw [State.iris_congr (s := s.setIris i { s.iris i with change := none }) (congrArg State.irises (s.endChange_eq i code) :), State.iris_setIris_same]

/-- So does the command that waits for it. -/
theorem State.retrained_outcome {c : LinkChange} {q : Nat} {d : OpenCmd} (hq : c.cmd = some q) (hd : s.findCmd q = some d) {code : Nat} (hcode : code ≠ 7) :
    ((s.retrained i c).endChange i code).outcomeOf q =
      some (outcomeArea code 0 0 s.now [(16, 1, (s.retrained i c).get (R.IRIS_STATUS.WIDTH i))]) := by
  rw [State.endChange_commanded (s.retrained_change i c) hq, if_neg hcode, State.retrained_now]
  have hcmd : ((s.retrained i c).setIris i { (s.retrained i c).iris i with change := none }).cmd = s.cmd := by
    rw [State.cmd_setIris, State.retrained_cmd]
  exact State.outcomeOf_finish ((State.findCmd_congr hcmd q).trans hd) _ _ _ _ _

end

/-- Settles O25: an entry to UP by its fields, a DOWN by its record, and what a change sends by the records it leaves. -/
theorem irisesTrain : Obligations.IrisesTrain := by
  unfold Obligations.IrisesTrain
  refine ⟨?_, ?_, ?_, ?_, ?_, ?_, ?_, ?_, ?_, ?_⟩
  · intro s i width lanes w g hwf hserve hstate hcall hecho hg hfree
    have h : s.Trained i width lanes := ⟨hwf, hserve, hstate, hcall, hecho⟩
    obtain ⟨hi, -, -⟩ := h.bounds
    obtain ⟨hup, hw, hact, hok⟩ := State.trained_status h hg
    have hread : ∀ (x : State) {r : Nat} {l : Loc}, l.off = r + 0x4000 * i → 0x2300000 ≤ r ∧ r < 0x2304000 → x.settle.get l = x.get l :=
      fun x _ _ hl hr => x.settle_get_iris hi hl hr
    have hiris := (s.set (R.IRIS_STATUS.LANES_OK i) lanes).enterUp_iris i w g
    have hlimit : (s.set (R.IRIS_STATUS.LANES_OK i) lanes).get (R.IRIS_CREDIT.LIMIT i) = s.get (R.IRIS_CREDIT.LIMIT i) :=
      State.get_set_of_off (by simp [R.IRIS_STATUS.LANES_OK, R.IRIS_CREDIT.LIMIT])
    refine ⟨_, exec_irisTrained_some h hg, ?_⟩
    rw [if_pos (show s.mayEnter i = true from decide_eq_true hfree), State.irisState, hread _ rfl (by decide), hread _ rfl (by decide), hread _ rfl (by decide),
      hread _ rfl (by decide), hread _ rfl (by decide), State.iris_settle, State.settle_fab, hiris]
    refine ⟨hup, hw, hact, hok, State.enterUp_held .., rfl, rfl, hlimit, rfl, State.enterUp_advDue .., ?_⟩
    refine State.kept_irises_fab (State.enterUp_bare ..) (State.enterUp_cmd ..) fun k hk => (State.enterUp_word _ _ _ _ hk).trans ?_
    exact State.word_set_other s fun e => hk (by simp only [e, R.IRIS_STATUS.LANES_OK]; omega)
  · intro s i width lanes w g hwf hserve hstate hcall hecho hg hfull
    have h : s.Trained i width lanes := ⟨hwf, hserve, hstate, hcall, hecho⟩
    obtain ⟨hi, -, hlanes⟩ := h.bounds
    obtain ⟨htrains, hok⟩ := s.lanesOk_get hi hlanes
    refine ⟨_, exec_irisTrained_some h hg, ?_⟩
    rw [if_neg (by simp [State.mayEnter, Nat.not_le.mpr hfull]), htrains, State.settle_get_iris _ hi rfl (by decide)]
    exact ⟨hstate, hok, State.kept_registers rfl rfl rfl fun k hk => State.word_set_other s hk⟩
  · intro s i width lanes hwf hserve hstate hcall hecho hg
    have h : s.Trained i width lanes := ⟨hwf, hserve, hstate, hcall, hecho⟩
    obtain ⟨hi, -, -⟩ := h.bounds
    exact ⟨_, exec_irisTrained_none h hg,
      State.lanesOk_wentDown _ hi (State.irisesRun_of_serve hserve) (by simp [State.irisActive, hstate]) (by decide)⟩
  · intro s i lane hwf hruns
    obtain ⟨hi, hlane⟩ := (Bool.and_eq_true _ _).mp hwf
    have hi := of_decide_eq_true hi
    have hlane := of_decide_eq_true hlane
    refine ⟨_, exec_laneLockLoss hwf hruns, fun hact => ?_, fun hact hactive => ?_⟩
    · rw [if_neg (by simp [hact]), State.settle_get_iris _ hi rfl (by decide)]
      exact ⟨State.laneLost_ok hlane, State.kept_registers rfl rfl rfl fun k hk => State.word_set_other s hk⟩
    · rw [if_pos hact]
      exact State.lanesOk_wentDown _ hi hruns hactive (by decide)
  · intro s i lane rate w g hwf hruns hstate hact hset hover hchange hlane hg
    refine ⟨_, exec_laneThreshold hwf hruns hstate hact hset hover hchange hlane hg, ?_, State.asked_kept ..⟩
    rw [State.iris_settle]
    exact State.asked_change ..
  · intro s i c hi hruns hstate hchange hleads hopen hdue
    refine ⟨_, exec_rtReqRepeat hi hruns hstate hchange hleads hopen hdue, fun hmore => ?_, fun hlast => ?_⟩
    · rw [if_neg (by omega), State.iris_settle]
      exact ⟨State.asked_change .., State.asked_kept ..⟩
    · rw [if_pos hlast, State.downFor_of_active (by simp [State.irisActive, hstate])]
      exact State.irisDown_wentDown _ _ hi (State.irisesRun_coreUp hruns) (by decide) rfl rfl rfl rfl
  · intro s i c hi hruns hstate hqueue hdis hchange hready hack
    obtain ⟨heq, hiris⟩ := s.sendReady_spec i
    obtain ⟨hthen, hbare, hcmd, hretrains, hword⟩ := (s.sendReady i).tryRetrain_spec i { c with readySent := true }
    have hregs : (s.sendReady i).regs = s.regs := (congrArg State.regs heq :)
    have htime : (s.sendReady i).ns = s.ns := (congrArg State.ns heq :)
    refine ⟨_, exec_rtReadySend hi hruns hstate hqueue hdis hchange hready hack, ?_, ?_, ?_, fun hfew => ?_⟩
    · rw [State.iris_settle, hthen, htime]
    · rw [State.settle_irisState _ hi, hretrains, State.irisState, State.get_of_word (State.word_of_regs hregs _)]
      exact if_congr (by simp) rfl hstate
    · rw [State.iris_settle, hthen, hiris]
    · have hone : s.sendReady i = (s.due i (record 16 [(0, 1, 0x12)])).sendCtrl i :=
        State.flushCtrl_one (by rw [State.due_iris]; simp) (by rw [State.due_iris]; simpa using hfew)
      refine State.kept_irises_sent (hbare.trans ?_) (hcmd.trans (congrArg State.cmd heq :)) fun k hk =>
        (hword k hk).trans (State.word_of_regs hregs k)
      rw [hone]
      rfl
  · intro s i seq hi hruns hstate hqueue hdis hack
    obtain ⟨heq, hiris⟩ := s.sendReady_spec i
    refine ⟨_, exec_rtReadySend_down hi hruns hstate hqueue hdis hack, ?_⟩
    refine State.irisDown_wentDown _ _ hi ((congrArg State.coreUp heq :).trans (State.irisesRun_coreUp hruns)) (by decide)
      (congrArg (·.fab.waiting) heq :) (by rw [hiris]) (by rw [hiris]; rfl) ?_
    exact (congrArg (State.bit · (R.IRIS_DOWN_CAP.VALID i)) heq :)
  · intro s i c hi hruns hstate hchange htime hmay
    obtain ⟨hup, hwide, hact, -⟩ := s.enterUp_status i (c.agreed.getD (0, 1)).1 (c.agreed.getD (0, 1)).2
    have hread : ∀ l : Loc, l.off = 0x2300008 + 0x4000 * i → ((s.retrained i c).endChange i (if c.abandoned then 6 else 0)).settle.get l =
        (s.enterUp i (c.agreed.getD (0, 1)).1 (c.agreed.getD (0, 1)).2).get l := fun l hl => by
      rw [State.settle_get_iris _ hi hl (by decide), State.get_endChange, State.retrained_get]
    refine ⟨_, exec_retrainComplete hi hruns hstate hchange htime hmay, ?_, ?_, fun w m hagreed => ?_, fun q d hq hd => ?_⟩
    · rw [State.irisState, hread _ rfl, hup]
    · rw [State.iris_settle, State.endChange_change]
    · rw [hread _ rfl, hread _ rfl, hwide, hact, hagreed]
      exact ⟨rfl, rfl⟩
    · rw [State.settle_outcomeOf, State.retrained_outcome hq hd (by split <;> decide), hread _ rfl, State.retrained_get]
  · intro s i c hi hruns hstate hchange hover
    refine ⟨_, exec_retrainTimeout hi hruns hstate hchange hover, ?_⟩
    rw [State.downFor_of_active (by simp [State.irisActive, hstate])]
    exact State.irisDown_wentDown _ _ hi (State.irisesRun_coreUp hruns) (by decide) rfl rfl rfl rfl

end Sys2Proof.Machine
end

section
/-! SUPPORT. The modes: what the operations of the model leave of TOP_MODE, of the mode before and of a waiting chip reset (R503, R525, R526). -/
namespace Sys2Proof.Machine

/-! ### What stays -/

/-- The modes in which a chip reset may wait (R525, R526). -/
def Mode.runs : Mode → Bool
  | .prove | .load | .serve => true
  | _ => false

/-- The mode, the one before it, and whether a chip reset waits where none may. -/
def State.modes (s : State) : Mode × Mode × Bool := (s.mode, s.prev, s.fault.chipReset && !s.mode.runs)

@[simp] theorem State.modes_fold (s : State) : (s.mode, s.prev, s.fault.chipReset && !s.mode.runs) = s.modes := rfl

@[simp] theorem State.modes_mk {pending mode prev safeCause tb slew fabSlew free regs out pace fault power cmd boot bist cnt buf apr col mac irises fab host code lens tbl ver mig mem loss freed} :
    (State.mk pending mode prev safeCause tb slew fabSlew free regs out pace fault power cmd boot bist cnt buf apr col mac irises fab host code lens tbl ver mig mem loss freed).modes = (mode, prev, fault.chipReset && !mode.runs) := rfl

theorem State.modes_congr {s t : State} (hm : t.mode = s.mode) (hp : t.prev = s.prev) (hf : t.fault.chipReset = s.fault.chipReset) :
    t.modes = s.modes := by
  simp only [State.modes, hm, hp, hf]

/-! Each part beside the mode, the one before it and the fault collector. -/

theorem State.modes_cmd (s : State) (x : CmdState) : ({ s with cmd := x } : State).modes = s.modes := rfl
theorem State.modes_tbl (s : State) (x : TblState) : ({ s with tbl := x } : State).modes = s.modes := rfl
theorem State.modes_host (s : State) (x : HostState) : ({ s with host := x } : State).modes = s.modes := rfl
theorem State.modes_cnt (s : State) (x : CntState) : ({ s with cnt := x } : State).modes = s.modes := rfl
theorem State.modes_boot (s : State) (x : BootState) : ({ s with boot := x } : State).modes = s.modes := rfl
theorem State.modes_fab (s : State) (x : FabState) : ({ s with fab := x } : State).modes = s.modes := rfl
theorem State.modes_lens (s : State) (x : LensState) : ({ s with lens := x } : State).modes = s.modes := rfl
theorem State.modes_power (s : State) (x : PowerState) : ({ s with power := x } : State).modes = s.modes := rfl

@[simp] theorem State.modes_setWord (s : State) (k : Nat) (v : Word) : (s.setWord k v).modes = s.modes :=
  State.modes_congr rfl rfl rfl
theorem State.chipReset_postFault (s : State) (e : FaultEvent) : (s.postFault e).fault.chipReset = s.fault.chipReset := by
  unfold State.postFault
  dsimp only
  split <;> rfl

theorem State.chipReset_blockReset (s : State) (b : Nat) : (s.blockReset b).fault.chipReset = s.fault.chipReset := by
  unfold State.blockReset
  split <;> rfl

theorem State.chipReset_nmiChip (s : State) (n info : Nat) (forced esc nmi : Bool) :
    (s.nmiChip n info forced esc nmi false).fault.chipReset = s.fault.chipReset := by
  unfold State.nmiChip
  rw [if_neg (by simp)]
  split <;> rfl

/-- A raise begins a chip reset only where one may wait (R526). -/
theorem State.chipReset_raiseAs (s : State) (n info : Nat) (b : Option Nat) (f : Bool) :
    s.mode.runs = true ∨ (s.raiseAs n info b f).fault.chipReset = s.fault.chipReset := by
  by_cases hl : sourceListed n = true
  swap
  · rw [State.raiseAs, if_pos (by simp [hl])]
    exact .inr rfl
  by_cases hc : s.coreUp = true
  swap
  · rw [State.raiseAs, if_neg (by simp [hl]), if_pos (by simp [hc])]
    split <;> exact .inr rfl
  rw [State.raiseAs, if_neg (by simp [hl]), if_neg (by simp [hc])]
  extract_lets was s1 esc s2 chip s3 s4
  have hpost : s2.fault.chipReset = s.fault.chipReset := State.chipReset_postFault ..
  cases hm : s.mode with
  | prove | load | serve => exact .inl rfl
  | dormant => exact absurd hc (by simp [State.coreUp, hm])
  | holdUp => exact .inr ((State.chipReset_nmiChip ..).trans hpost)
  | safe =>
    right
    dsimp -zeta only
    extract_lets s5
    have h3 : s3.fault.chipReset = s.fault.chipReset := by
      unfold s3
      split <;> exact hpost
    have h4 : s4.fault.chipReset = s.fault.chipReset := by
      cases b with
      | none => exact h3
      | some b =>
        unfold s4
        dsimp only
        split
        · exact (State.chipReset_blockReset ..).trans h3
        · exact h3
    have h5 : s5 = s4 := if_neg (by simp)
    rw [bne_self_eq_false, Bool.and_false, State.chipReset_nmiChip, h5, h4]

@[simp] theorem State.modes_raiseAs (s : State) (n info : Nat) (b : Option Nat) (f : Bool) : (s.raiseAs n info b f).modes = s.modes := by
  have hm : (s.raiseAs n info b f).mode = s.mode := by rw [(raises s n info b f).eq]
  have hp : (s.raiseAs n info b f).prev = s.prev := by rw [(raises s n info b f).eq]
  rcases s.chipReset_raiseAs n info b f with hc | hc
  · unfold State.modes
    simp only [hm, hp, hc, Bool.not_true, Bool.and_false]
  · exact State.modes_congr hm hp hc

@[simp] theorem modes_foldl {α : Type} {f : State → α → State} (hf : ∀ s a, (f s a).modes = s.modes) (l : List α) (s : State) :
    (l.foldl f s).modes = s.modes := foldl_keeps hf l s
@[simp] theorem modes_ite {c : Prop} [Decidable c] {a b : State} : (if c then a else b).modes = if c then a.modes else b.modes := apply_ite ..

@[simp] theorem State.modes_set (s : State) (l : Loc) (v : Nat) : (s.set l v).modes = s.modes :=
  State.modes_congr rfl rfl rfl

@[simp] theorem State.modes_setBit (s : State) (l : Loc) (b : Bool) : (s.setBit l b).modes = s.modes :=
  State.modes_congr rfl rfl rfl

@[simp] theorem State.modes_sat (s : State) (l : Loc) (k : Nat) : (s.sat l k).modes = s.modes :=
  State.modes_congr rfl rfl rfl

@[simp] theorem State.modes_wrap (s : State) (l : Loc) (k : Nat) : (s.wrap l k).modes = s.modes :=
  State.modes_congr rfl rfl rfl

@[simp] theorem State.modes_peak (s : State) (l : Loc) (v : Nat) : (s.peak l v).modes = s.modes := by
  simp [State.peak]

@[simp] theorem State.modes_dec (s : State) (l : Loc) (k : Nat) : (s.dec l k).modes = s.modes :=
  State.modes_congr rfl rfl rfl

@[simp] theorem State.modes_emit (s : State) (e : Emit) : (s.emit e).modes = s.modes :=
  State.modes_congr rfl rfl rfl

@[simp] theorem State.modes_draw (s : State) : (s.draw).2.modes = s.modes :=
  State.modes_congr rfl rfl rfl

@[simp] theorem State.modes_toHost (s : State) (link : Nat) (e : Emit) : (s.toHost link e).modes = s.modes := by
  simp [State.toHost]

@[simp] theorem State.modes_emitAll (s : State) (es : List Emit) : (s.emitAll es).modes = s.modes :=
  State.modes_congr rfl rfl rfl

@[simp] theorem State.modes_setPrism (s : State) (k : Nat) (p : Prism) : (s.setPrism k p).modes = s.modes :=
  State.modes_congr rfl rfl rfl

@[simp] theorem State.modes_setService (s : State) (i : Nat) (v : Service) : (s.setService i v).modes = s.modes :=
  State.modes_congr rfl rfl rfl

@[simp] theorem State.modes_flush (s : State) (b n : Nat) : (s.flush b n).modes = s.modes :=
  State.modes_congr rfl rfl rfl

@[simp] theorem State.modes_discardItems (s : State) (p : Nat → Bool) (cause : Nat) : (s.discardItems p cause).modes = s.modes :=
  State.modes_congr rfl rfl rfl

@[simp] theorem State.modes_flushAll (s : State) : (s.flushAll).modes = s.modes := by
  simp [State.flushAll]

@[simp] theorem State.modes_countAt (s : State) (l : Loc) (k t : Nat) : (s.countAt l k t).modes = s.modes :=
  State.modes_congr rfl rfl rfl

@[simp] theorem State.modes_uncount (s : State) (l : Loc) (k : Nat) : (s.uncount l k).modes = s.modes :=
  State.modes_congr rfl rfl rfl

@[simp] theorem State.modes_countLater (s : State) (f : RxFrame) : (s.countLater f).modes = s.modes := by
  unfold State.countLater
  split
  · split <;> simp
  · rfl

@[simp] theorem State.modes_count (s : State) (l : Loc) (k : Nat) : (s.count l k).modes = s.modes :=
  State.modes_congr rfl rfl rfl

@[simp] theorem State.modes_countPair (s : State) (i half k t : Nat) : (s.countPair i half k t).modes = s.modes :=
  State.modes_congr rfl rfl rfl

@[simp] theorem State.modes_logFault (s : State) (source info : Nat) (forced escalated chip : Bool) (time : Nat) : (s.logFault source info forced escalated chip time).modes = s.modes :=
  State.modes_congr rfl rfl rfl

@[simp] theorem State.modes_postFault (s : State) (e : FaultEvent) : (s.postFault e).modes = s.modes := by
  simp [State.postFault]

@[simp] theorem State.modes_blockReset (s : State) (b : Nat) : (s.blockReset b).modes = s.modes := by
  simp [State.blockReset]

@[simp] theorem State.modes_admitHold (s : State) : (s.admitHold).modes = s.modes :=
  State.modes_congr rfl rfl rfl

@[simp] theorem State.modes_raise (s : State) (n info : Nat) : (s.raise n info).modes = s.modes := by
  simp [State.raise]

@[simp] theorem State.modes_raiseIn (s : State) (n info b : Nat) : (s.raiseIn n info b).modes = s.modes := by
  simp [State.raiseIn]

@[simp] theorem State.modes_setShaper (s : State) (k : Nat) (v : Shaper) : (s.setShaper k v).modes = s.modes :=
  State.modes_congr rfl rfl rfl

@[simp] theorem State.modes_setDeficit (s : State) (k : Nat) (v : Int) : (s.setDeficit k v).modes = s.modes :=
  State.modes_congr rfl rfl rfl

@[simp] theorem State.modes_setLeafQ (s : State) (l : Nat) (q : List Pkt) : (s.setLeafQ l q).modes = s.modes :=
  State.modes_congr rfl rfl rfl

@[simp] theorem State.modes_setIris (s : State) (i : Nat) (v : Iris) : (s.setIris i v).modes = s.modes :=
  State.modes_congr rfl rfl rfl

@[simp] theorem State.modes_setReady (s : State) (q : Nat) (d : List (Nat × List Byte)) : (s.setReady q d).modes = s.modes :=
  State.modes_congr rfl rfl rfl

@[simp] theorem State.modes_setSending (s : State) (n : Nat) (x : Sending) : (s.setSending n x).modes = s.modes :=
  State.modes_congr rfl rfl rfl

@[simp] theorem State.modes_startSending (s : State) (n : Nat) (preemptable : Bool) (len expo : Nat) : (s.startSending n preemptable len expo).modes = s.modes := by
  simp [State.startSending]

@[simp] theorem State.modes_holdFragment (s : State) (n : Nat) : (s.holdFragment n).modes = s.modes := by
  unfold State.holdFragment
  simp
  (repeat' split) <;> simp

@[simp] theorem State.modes_holdFragments (s : State) : (s.holdFragments).modes = s.modes := by
  simp [State.holdFragments]

@[simp] theorem State.modes_restartVerify (s : State) (n : Nat) : (s.restartVerify n).modes = s.modes :=
  State.modes_congr rfl rfl rfl

@[simp] theorem State.modes_reverify (s : State) (n : Nat) : (s.reverify n).modes = s.modes := by
  simp [State.reverify]

@[simp] theorem State.modes_restartVerifies (s : State) : (s.restartVerifies).modes = s.modes := by
  simp [State.restartVerifies]

@[simp] theorem State.modes_sendPause (s : State) (n q : Nat) : (s.sendPause n q).modes = s.modes := by
  simp [State.sendPause]

@[simp] theorem State.modes_startControl (s : State) (n : Nat) : (s.startControl n).modes = s.modes := by
  unfold State.startControl
  dsimp only
  split <;> simp

@[simp] theorem State.modes_startControls (s : State) : (s.startControls).modes = s.modes := by
  simp [State.startControls]

@[simp] theorem State.modes_resumePort (s : State) (n : Nat) : (s.resumePort n).modes = s.modes :=
  State.modes_congr (by rw [(settles_resumePort s n).eq]) (by rw [(settles_resumePort s n).eq]) (by rw [(settles_resumePort s n).eq])

@[simp] theorem State.modes_resumePorts (s : State) : (s.resumePorts).modes = s.modes := by
  simp [State.resumePorts]

@[simp] theorem State.modes_crossings (s : State) : (s.crossings).modes = s.modes := by
  simp [State.crossings]

@[simp] theorem State.modes_watermarks (s : State) : (s.watermarks).modes = s.modes := by
  simp [State.watermarks]

@[simp] theorem State.modes_holdSync (s : State) (n c : Nat) : (s.holdSync n c).modes = s.modes := by
  simp [State.holdSync]

@[simp] theorem State.modes_holdClocks (s : State) : (s.holdClocks).modes = s.modes := by
  simp [State.holdClocks]

@[simp] theorem State.modes_clearWait (s : State) (l : Nat) : (s.clearWait l).modes = s.modes :=
  State.modes_congr rfl rfl rfl

@[simp] theorem State.modes_eligSync (s : State) (l : Nat) : (s.eligSync l).modes = s.modes := by
  simp [State.eligSync]

@[simp] theorem State.modes_eligClocks (s : State) : (s.eligClocks).modes = s.modes := by
  simp [State.eligClocks]

@[simp] theorem State.modes_endTurns (s : State) : (s.endTurns).modes = s.modes :=
  State.modes_congr rfl rfl rfl

@[simp] theorem State.modes_syncHold (s : State) : (s.syncHold).modes = s.modes := by
  simp [State.syncHold]

@[simp] theorem State.modes_endFreed (s : State) : (s.endFreed).modes = s.modes :=
  State.modes_congr rfl rfl rfl

@[simp] theorem State.modes_settle (s : State) : (s.settle).modes = s.modes := by
  simp [State.settle]

@[simp] theorem State.modes_regLog (s : State) (kind bar : Nat) (src : HostSrc) (off value : Nat) : (s.regLog kind bar src off value).modes = s.modes := by
  unfold State.regLog
  dsimp only
  rw [State.modes_raise]
  split <;> simp only [State.modes_setWord, State.modes_set, State.modes_count]

@[simp] theorem State.modes_setJword (s : State) (seq w v : Nat) : (s.setJword seq w v).modes = s.modes :=
  State.modes_congr rfl rfl rfl

@[simp] theorem State.modes_setJbytes (s : State) (seq w : Nat) (bs : List Byte) : (s.setJbytes seq w bs).modes = s.modes := by
  simp [State.setJbytes]

@[simp] theorem State.modes_writeOutcome (s : State) (seq : Nat) (outcome : List Byte) : (s.writeOutcome seq outcome).modes = s.modes := by
  simp [State.writeOutcome]

@[simp] theorem State.modes_advanceHead (s : State) : (s.advanceHead).modes = s.modes :=
  State.modes_congr rfl rfl rfl

@[simp] theorem State.modes_writeEntry (s : State) (ring flags : Nat) (cmd : List Byte) (orig fails : Nat) : (s.writeEntry ring flags cmd orig fails).1.modes = s.modes := by
  unfold State.writeEntry
  dsimp only
  split <;> simp

@[simp] theorem State.modes_journalFail (s : State) (ring : Nat) : (s.journalFail ring).modes = s.modes := by
  simp [State.journalFail]

@[simp] theorem State.modes_cmdDoorbell (s : State) (src : HostSrc) (r value : Nat) : (s.cmdDoorbell src r value).modes = s.modes := by
  unfold State.cmdDoorbell
  dsimp only
  (repeat' split) <;> simp

@[simp] theorem State.modes_post (s : State) (r num st seq : Nat) (outcome : List Byte) : (s.post r num st seq outcome).modes = s.modes :=
  State.modes_congr rfl rfl rfl

@[simp] theorem State.modes_openCmd (s : State) (c : OpenCmd) : (s.openCmd c).modes = s.modes :=
  State.modes_congr rfl rfl rfl

@[simp] theorem State.modes_takeCommand (s : State) (r fails : Nat) : (s.takeCommand r fails).modes = s.modes := by
  unfold State.takeCommand
  dsimp only
  (repeat' split) <;> simp

@[simp] theorem State.modes_reexecEntry (s : State) (o fails : Nat) : (s.reexecEntry o fails).1.modes = s.modes := by
  simp [State.reexecEntry]

@[simp] theorem State.modes_reexecuteNext (s : State) (fails : Nat) : (s.reexecuteNext fails).modes = s.modes := by
  unfold State.reexecuteNext
  split
  · rfl
  · extract_lets t
    have ht : t.modes = s.modes := by
      unfold t
      split <;> simp
    split
    · exact ht
    · rw [State.modes_openCmd, State.modes_cmd, State.modes_writeOutcome, State.modes_reexecEntry, ht]

@[simp] theorem State.modes_acceptNext (s : State) (fails : Nat) : (s.acceptNext fails).modes = s.modes := by
  unfold State.acceptNext
  simp
  (repeat' split) <;> simp

@[simp] theorem State.modes_updCmd (s : State) (seq : Nat) (f : OpenCmd → OpenCmd) : (s.updCmd seq f).modes = s.modes :=
  State.modes_congr rfl rfl rfl

@[simp] theorem State.modes_finish (s : State) (seq code reason index takeover : Nat) (data : List (Nat × Nat × Nat)) : (s.finish seq code reason index takeover data).modes = s.modes :=
  State.modes_congr rfl rfl rfl

@[simp] theorem State.modes_done (s : State) (seq : Nat) (data : List (Nat × Nat × Nat)) : (s.done seq data).modes = s.modes :=
  State.modes_congr rfl rfl rfl

@[simp] theorem State.modes_told (s : State) (seq : Nat) (data : List (Nat × Nat × Nat)) : (s.told seq data).modes = s.modes :=
  State.modes_congr rfl rfl rfl

@[simp] theorem State.modes_begun (s : State) (seq : Nat) : (s.begun seq).modes = s.modes :=
  State.modes_congr rfl rfl rfl

@[simp] theorem State.modes_refuse (s : State) (seq reason : Nat) : (s.refuse seq reason).modes = s.modes :=
  State.modes_congr rfl rfl rfl

@[simp] theorem State.modes_refuseAt (s : State) (seq reason index : Nat) : (s.refuseAt seq reason index).modes = s.modes :=
  State.modes_congr rfl rfl rfl

/-- A command's body decides what its run leaves. -/
@[simp] theorem State.modes_runCmd (s : State) (seq code : Nat) {body : OpenCmd → State → State} (h : ∀ c t, (body c t).modes = t.modes) :
    (s.runCmd seq code body).modes = s.modes := by
  rcases s.runCmd_cases seq code body with hr | ⟨c, -, hr⟩
  · rw [hr]
  · rw [hr, h]

@[simp] theorem State.modes_nop (s : State) (seq : Nat) : (s.nop seq).modes = s.modes := by
  simp [State.nop]

@[simp] theorem State.modes_endUnrun (s : State) (c : OpenCmd) (code reason : Nat) : (s.endUnrun c code reason).modes = s.modes := by
  simp [State.endUnrun]

@[simp] theorem State.modes_gatePulse (s : State) : (s.gatePulse).modes = s.modes := by
  unfold State.gatePulse
  dsimp only
  (repeat' split) <;> simp

@[simp] theorem State.modes_completeCmd (s : State) (seq fails : Nat) : (s.completeCmd seq fails).modes = s.modes := by
  unfold State.completeCmd
  dsimp only
  (repeat' split) <;> simp

@[simp] theorem State.modes_setLink (s : State) (i w : Nat) : (s.setLink i w).modes = s.modes :=
  State.modes_congr rfl rfl rfl

@[simp] theorem State.modes_freeAny (s : State) : (s.freeAny).2.modes = s.modes :=
  State.modes_congr rfl rfl rfl

@[simp] theorem State.modes_addCharge (s : State) (a kind n : Nat) : (s.addCharge a kind n).modes = s.modes := by
  simp [State.addCharge]

@[simp] theorem State.modes_subCharge (s : State) (a kind n : Nat) : (s.subCharge a kind n).modes = s.modes := by
  simp [State.subCharge]

@[simp] theorem State.modes_creditBack (s : State) (k : Nat) : (s.creditBack k).modes = s.modes := by
  simp [State.creditBack]

@[simp] theorem State.modes_uncharge (s : State) (i : Nat) : (s.uncharge i).modes = s.modes := by
  unfold State.uncharge
  dsimp only
  split <;> simp

@[simp] theorem State.modes_charge (s : State) (i a kind : Nat) : (s.charge i a kind).modes = s.modes := by
  simp [State.charge]

@[simp] theorem State.modes_takeCell (s : State) (i w : Nat) : (s.takeCell i w).modes = s.modes :=
  State.modes_congr rfl rfl rfl

@[simp] theorem State.modes_freeCell (s : State) (i : Nat) : (s.freeCell i).modes = s.modes := by
  simp [State.freeCell]

@[simp] theorem State.modes_captureFree (s : State) (kind requester owner cell : Nat) : (s.captureFree kind requester owner cell).modes = s.modes := by
  simp [State.captureFree]

@[simp] theorem State.modes_doubleFree (s : State) (cell requester : Nat) : (s.doubleFree cell requester).modes = s.modes := by
  simp [State.doubleFree]

@[simp] theorem State.modes_ownerError (s : State) (cell requester : Nat) : (s.ownerError cell requester).modes = s.modes := by
  simp [State.ownerError]

@[simp] theorem State.modes_releaseCell (s : State) (requester i : Nat) : (s.releaseCell requester i).modes = s.modes := by
  simp [State.releaseCell]

@[simp] theorem State.modes_releaseCells (s : State) (p : Pkt) : (s.releaseCells p).modes = s.modes := by
  simp [State.releaseCells]

@[simp] theorem State.modes_chargeSplit (s : State) (a c : Nat) (is : List Nat) (r : Nat) : (s.chargeSplit a c is r).modes = s.modes := by
  induction is generalizing s r with
  | nil => rfl
  | cons i is ih => cases r <;> exact (ih _ _).trans (State.modes_charge ..)

@[simp] theorem State.modes_enterCharge (s : State) (p : Pkt) (c n need : Nat) : ((s.enterCharge p c n need).1).modes = s.modes := by
  unfold State.enterCharge
  dsimp only
  split <;> split <;> simp

@[simp] theorem State.modes_chargeTaken (s : State) (p : Pkt) (i : Nat) : ((s.chargeTaken p i).1).modes = s.modes := by
  unfold State.chargeTaken
  split <;> exact (State.modes_charge ..).trans (State.modes_subCharge ..)

@[simp] theorem State.modes_relink (s : State) (owner : Option Nat) (len : Nat) (is : List Nat) (k : Nat) :
    (s.relink owner len is k).modes = s.modes := by
  induction is generalizing s k with
  | nil => rfl
  | cons i is ih =>
    cases is with
    | nil => exact State.modes_setLink ..
    | cons j js => exact (ih _ _).trans (State.modes_setLink ..)

@[simp] theorem State.modes_markFailing (s : State) (p : Pkt) (places : List Nat) : (s.markFailing p places).modes = s.modes :=
  State.modes_congr rfl rfl rfl

@[simp] theorem State.modes_takeCells (s : State) (owner : Option Nat) (a : Nat) (kind : Nat → Nat) (n : Nat) (got : List Nat) :
    (s.takeCells owner a kind n got).1.modes = s.modes := by
  induction n generalizing s got with
  | zero => rfl
  | succ n ih =>
    have hany := s.modes_freeAny
    unfold State.takeCells
    split
    · rename_i h
      rwa [h] at hany
    · rename_i h
      rw [h] at hany
      rw [ih, State.modes_charge, State.modes_takeCell, hany]

@[simp] theorem State.modes_privateChain (s : State) (p : Pkt) (owner : Option Nat) (c len : Nat) :
    ((s.privateChain p owner c len).1).modes = s.modes := by
  unfold State.privateChain
  dsimp only
  split
  · rfl
  · split <;> simp

theorem State.modes_linkAgain {s t : State} {i : Nat} (h : s.linkAgain i = some t) : t.modes = s.modes := by
  unfold State.linkAgain at h
  dsimp only at h
  split at h
  · cases h
  · cases h
    exact State.modes_setLink ..

@[simp] theorem State.modes_linkAll (s : State) (is : List Nat) : (s.linkAll is).modes = s.modes := by
  refine foldl_keeps (fun t i => ?_) is s
  cases h : t.linkAgain i with
  | none => rfl
  | some u => exact State.modes_linkAgain h

@[simp] theorem State.modes_relinkOwn (s : State) (len : Nat) (shared is : List Nat) (k : Nat) :
    (s.relinkOwn len shared is k).modes = s.modes := by
  induction is generalizing s k with
  | nil => rfl
  | cons i is ih => exact (ih _ _).trans (ite_keeps rfl (State.modes_setLink ..))

@[simp] theorem State.modes_copyChain (s : State) (p : Pkt) (c len : Nat) (share : Nat → Bool) :
    ((s.copyChain p c len share).1).modes = s.modes := by
  unfold State.copyChain
  dsimp only
  split
  · rfl
  · split <;> simp

@[simp] theorem State.modes_freeRequest (s : State) (cell requester : Nat) (asOwner : Bool) : (s.freeRequest cell requester asOwner).modes = s.modes := by
  simp [State.freeRequest]

@[simp] theorem State.modes_handoffChain (s : State) (cell requester owner : Nat) : (s.handoffChain cell requester owner).modes = s.modes := by
  simp [State.handoffChain]

@[simp] theorem State.modes_countReason (s : State) (r : Nat) (p : Pkt) : (s.countReason r p).modes = s.modes :=
  State.modes_congr rfl rfl rfl

@[simp] theorem State.modes_breachOf (s : State) (cause : Nat) (l : Lost) : (s.breachOf cause l).modes = s.modes := by
  simp [State.breachOf]

@[simp] theorem State.modes_breach (s : State) (cause : Nat) (p : Pkt) : (s.breach cause p).modes = s.modes := by
  simp [State.breach]

@[simp] theorem State.modes_late (s : State) : (s.late).modes = s.modes := by
  simp [State.late]

@[simp] theorem State.modes_dropPkt (s : State) (r : Nat) (p : Pkt) : (s.dropPkt r p).modes = s.modes := by
  simp [State.dropPkt]

@[simp] theorem State.modes_setDynLine (s : State) (q line v : Nat) : (s.setDynLine q line v).modes = s.modes :=
  State.modes_congr rfl rfl rfl

@[simp] theorem State.modes_spoil (s : State) (n a : Nat) : (s.spoil n a).modes = s.modes := by
  induction n generalizing s a with
  | zero => rfl
  | succ n ih => exact ih _ _

@[simp] theorem State.modes_failWho (s : State) (who : Nat) : (s.failWho who).modes = s.modes := by
  simp [State.failWho]

@[simp] theorem State.modes_loseLine (s : State) (who key status : Nat) : (s.loseLine who key status).modes = s.modes :=
  State.modes_congr rfl rfl rfl

@[simp] theorem State.modes_lineFails (s : State) (q line cls who : Nat) : (s.lineFails q line cls who).modes = s.modes := by
  simp [State.lineFails]

@[simp] theorem State.modes_keepRead (s : State) (who cls key v : Nat) : (s.keepRead who cls key v).modes = s.modes := by
  simp [State.keepRead]

@[simp] theorem State.modes_memRequest (s : State) (r : MemReq) : (s.memRequest r).modes = s.modes := by
  unfold State.memRequest
  dsimp only
  (repeat' split) <;> simp

@[simp] theorem State.modes_dynRequests (s : State) (who cls : Nat) (hint write : Bool) (data : Nat → Nat) (n a : Nat) :
    (s.dynRequests who cls hint write data n a).modes = s.modes := by
  induction n generalizing s a with
  | zero => rfl
  | succ n ih => exact (ih _ _).trans (State.modes_memRequest ..)

@[simp] theorem State.modes_forwardWrite (s : State) (groups : List Nat) (line : Nat) : (s.forwardWrite groups line).modes = s.modes := by
  simp [State.forwardWrite]

@[simp] theorem State.modes_newWho (s : State) : (s.newWho).2.modes = s.modes :=
  State.modes_congr rfl rfl rfl

@[simp] theorem State.modes_setRow (s : State) (q bank : Nat) (r : Option Nat) : (s.setRow q bank r).modes = s.modes :=
  State.modes_congr rfl rfl rfl

@[simp] theorem State.modes_access (s : State) (q bank line : Nat) (hintOpen : Bool) : (s.access q bank line hintOpen).modes = s.modes :=
  State.modes_congr rfl rfl rfl

@[simp] theorem State.modes_serveReq (s : State) (r : MemReq) : (s.serveReq r).modes = s.modes := by
  simp [State.serveReq]

@[simp] theorem State.modes_dynService (s : State) (q bank : Nat) : (s.dynService q bank).modes = s.modes := by
  unfold State.dynService
  simp
  (repeat' split) <;> simp

@[simp] theorem State.modes_forwardDue (s : State) : (s.forwardDue).modes = s.modes := by
  simp [State.forwardDue]

@[simp] theorem State.modes_beginRefresh (s : State) (q bank : Nat) : (s.beginRefresh q bank).modes = s.modes :=
  State.modes_congr rfl rfl rfl

@[simp] theorem State.modes_startDue (s : State) (q : Nat) : (s.startDue q).modes = s.modes := by
  unfold State.startDue
  dsimp only
  split <;> simp

@[simp] theorem State.modes_startPair (s : State) (q : Nat) : (s.startPair q).modes = s.modes := by
  simp [State.startPair]

@[simp] theorem State.modes_fallsDue (s : State) (q bank : Nat) : (s.fallsDue q bank).modes = s.modes := by
  simp [State.fallsDue]

@[simp] theorem State.modes_refreshBank (s : State) (q bank : Nat) (begins : Bool) : (s.refreshBank q bank begins).modes = s.modes := by
  simp [State.refreshBank]

@[simp] theorem State.modes_startPostponed (s : State) (m : Nat) : (s.startPostponed m).modes = s.modes := by
  simp [State.startPostponed]

@[simp] theorem State.modes_noteCorrected (s : State) (g : Nat) : (s.noteCorrected g).modes = s.modes :=
  State.modes_congr rfl rfl rfl

@[simp] theorem State.modes_retrainStart (s : State) (m : Nat) : (s.retrainStart m).modes = s.modes := by
  simp [State.retrainStart]

@[simp] theorem State.modes_retrainDone (s : State) (m : Nat) : (s.retrainDone m).modes = s.modes := by
  simp [State.retrainDone]

@[simp] theorem State.modes_retrainFail (s : State) (m : Nat) : (s.retrainFail m).modes = s.modes := by
  simp [State.retrainFail]

@[simp] theorem State.modes_skew (s : State) : (s.skew).2.modes = s.modes := by
  unfold State.skew
  dsimp only
  split <;> simp

@[simp] theorem State.modes_skewCounted (s : State) : (s.skewCounted).modes = s.modes := by
  simp [State.skewCounted]

@[simp] theorem State.modes_skewWindow (s : State) : (s.skewWindow).modes = s.modes := by
  simp [State.skewWindow]

@[simp] theorem State.modes_farRequest (s : State) (f : Nat) (kind : FarKind) (a : Nat) : (s.farRequest f kind a).modes = s.modes := by
  cases kind <;> exact State.modes_congr rfl rfl rfl

@[simp] theorem State.modes_farRetire (s : State) (r : FarReq) : (s.farRetire r).modes = s.modes := by
  obtain ⟨port, id, kind, ns, addr⟩ := r
  cases kind <;> exact State.modes_congr rfl rfl rfl

@[simp] theorem State.modes_farLatency (s : State) (f lat : Nat) : (s.farLatency f lat).modes = s.modes := by
  simp [State.farLatency]

@[simp] theorem State.modes_lensMean (s : State) (a : Nat) (l : List (Nat × Nat)) : (s.lensMean a l).modes = s.modes := by
  simp [State.lensMean]

@[simp] theorem State.modes_lensPower (s : State) (a f : Nat) : (s.lensPower a f).modes = s.modes := by
  simp [State.lensPower]

@[simp] theorem State.modes_lensAge (s : State) : (s.lensAge).modes = s.modes := by
  simp [State.lensAge]

@[simp] theorem State.modes_lensSearch (s : State) (a j key v : Nat) : (s.lensSearch a j key v).2.2.modes = s.modes := by
  unfold State.lensSearch
  dsimp only
  split <;> dsimp only <;> split <;> simp only [State.modes_lens, State.modes_raise, State.modes_wrap, State.modes_lensPower]

@[simp] theorem State.modes_shadowWrite (s : State) (a r : Nat) (x : LensRow) : (s.shadowWrite a r x).modes = s.modes := by
  simp [State.shadowWrite]

@[simp] theorem State.modes_shadowLine (s : State) (address : Nat) : (s.shadowLine address).2.modes = s.modes := by
  unfold State.shadowLine
  dsimp only
  (repeat' split) <;> simp

@[simp] theorem State.modes_shadowRead (s : State) (a r : Nat) : (s.shadowRead a r).2.modes = s.modes :=
  foldl_keeps (g := fun x : Bool × State => x.2.modes) (fun x i => x.2.modes_shadowLine (s.shadowAddr a r + 64 * i)) (List.range 3) (false, s)

@[simp] theorem State.modes_changeRow (s : State) (a r : Nat) (shadow : LensRow) (cells : Nat) : (s.changeRow a r shadow cells).modes = s.modes := by
  simp [State.changeRow]

@[simp] theorem State.modes_changeFields (s : State) (a r : Nat) (f : LensRow → LensRow) : (s.changeFields a r f).modes = s.modes := by
  simp [State.changeFields]

@[simp] theorem State.modes_sweepRow (s : State) (f : LensRow → LensRow) (k : Nat) : (s.sweepRow f k).modes = s.modes := by
  simp [State.sweepRow]

@[simp] theorem State.modes_sweepRows (s : State) (a : Nat) (f : LensRow → LensRow) : (s.sweepRows a f).modes = s.modes := by
  simp [State.sweepRows]

@[simp] theorem State.modes_captureScrub (s : State) (kind a r cells : Nat) (meta_ : Bool) : (s.captureScrub kind a r cells meta_).modes = s.modes := by
  simp [State.captureScrub]

@[simp] theorem State.modes_compareRow (s0 : State) (a r : Nat) (readError : Bool) : (s0.compareRow a r readError).modes = s0.modes := by
  simp [State.compareRow]

@[simp] theorem State.modes_compareQueued (s : State) (a : Nat) : (s.compareQueued a).modes = s.modes := by
  simp [State.compareQueued]

@[simp] theorem State.modes_lensApply (s : State) (a op : Nat) (img : List Byte) : (s.lensApply a op img).modes = s.modes := by
  unfold State.lensApply
  dsimp only
  split <;> simp

@[simp] theorem State.modes_noteStaged (s : State) (seq : Nat) : (s.noteStaged seq).modes = s.modes :=
  State.modes_congr rfl rfl rfl

@[simp] theorem State.modes_lensWrite (s : State) (seq op : Nat) (block : List Byte) : (s.lensWrite seq op block).modes = s.modes := by
  refine State.modes_runCmd _ _ _ fun c t => ?_
  dsimp only
  split
  · rfl
  · split
    · simp
    · split
      · simp
      · rw [State.modes_done]
        split <;> simp

@[simp] theorem State.modes_clearRow (s : State) (a r : Nat) : (s.clearRow a r).modes = s.modes := by
  simp [State.clearRow]

@[simp] theorem State.modes_nextCompare (s : State) (a : Nat) : (s.nextCompare a).modes = s.modes := by
  simp [State.nextCompare]

@[simp] theorem State.modes_setAprRec (s : State) (e : Nat) (r : AprRec) : (s.setAprRec e r).modes = s.modes :=
  State.modes_congr rfl rfl rfl

@[simp] theorem State.modes_setVc (s : State) (r : Nat) (v : Ratio) : (s.setVc r v).modes = s.modes :=
  State.modes_congr rfl rfl rfl

@[simp] theorem State.modes_deadlineAdmit (s : State) (k b e c lm n need : Nat) : (s.deadlineAdmit k b e c lm n need).2.modes = s.modes := by
  unfold State.deadlineAdmit
  dsimp only
  (repeat' split) <;> simp

@[simp] theorem State.modes_admission (s : State) (k b e c lm n : Nat) (p : Pkt) : (s.admission k b e c lm n p).2.modes = s.modes := by
  unfold State.admission
  dsimp only
  (repeat' split) <;> simp

@[simp] theorem State.modes_decide_ (s : State) (k b e c lm n : Nat) (p : Pkt) : (s.decide_ k b e c lm n p).2.2.modes = s.modes := by
  unfold State.decide_
  dsimp only
  (repeat' split) <;> simp

@[simp] theorem State.modes_loupeSelect (s : State) (k : Nat) (p : Pkt) : (s.loupeSelect k p).1.modes = s.modes := by
  unfold State.loupeSelect
  dsimp only
  split <;> simp

@[simp] theorem State.modes_acceptPkt (s : State) (k e c n need rel iris : Nat) (mc mp : Bool) (p : Pkt) : (s.acceptPkt k e c n need rel iris mc mp p).1.modes = s.modes := by
  simp [State.acceptPkt]

@[simp] theorem State.modes_toPrism (s : State) (k : Nat) (p : Pkt) : (s.toPrism k p).modes = s.modes :=
  State.modes_congr rfl rfl rfl

@[simp] theorem State.modes_refuseFrame (s : State) (k : Nat) (police : Bool) (p : Pkt) : (s.refuseFrame k police p).modes = s.modes := by
  simp [State.refuseFrame]

@[simp] theorem State.modes_aperture (s : State) (src : Nat) (tag : Option Nat) (lm n : Nat) (p : Pkt) : (s.aperture src tag lm n p).1.modes = s.modes := by
  unfold State.aperture
  dsimp only
  split <;> simp

@[simp] theorem State.modes_decideNext (s : State) (src : Nat) : (s.decideNext src).modes = s.modes := by
  unfold State.decideNext
  dsimp only
  (repeat' split) <;> simp

@[simp] theorem State.modes_returnTokens (s : State) (p : Pkt) (k : Nat) : (s.returnTokens p k).modes = s.modes :=
  State.modes_congr rfl rfl rfl

@[simp] theorem State.modes_returnClock (s : State) (p : Pkt) (k : Nat) : (s.returnClock p k).modes = s.modes := by
  simp [State.returnClock]

@[simp] theorem State.modes_setAssoc (s : State) (k : Nat) (a : Option Assoc) : (s.setAssoc k a).modes = s.modes :=
  State.modes_congr rfl rfl rfl

@[simp] theorem State.modes_macsecStart (s : State) (n : Nat) (plain : Bool) : (s.macsecStart n plain).1.modes = s.modes := by
  unfold State.macsecStart
  dsimp only
  (repeat' split) <;> simp

@[simp] theorem State.modes_linkFalls (s : State) (n : Nat) : (s.linkFalls n).modes = s.modes := by
  simp [State.linkFalls]

@[simp] theorem State.modes_setHold (s : State) (n p v : Nat) : (s.setHold n p v).modes = s.modes :=
  State.modes_congr rfl rfl rfl

@[simp] theorem State.modes_pauseReceived (s : State) (n q : Nat) : (s.pauseReceived n q).modes = s.modes :=
  State.modes_congr rfl rfl rfl

@[simp] theorem State.modes_prioReceived (s : State) (n enable : Nat) (quanta : List Nat) : (s.prioReceived n enable quanta).modes = s.modes := by
  simp [State.prioReceived]

@[simp] theorem State.modes_countGoodAt (s : State) (n len t : Nat) : (s.countGoodAt n len t).modes = s.modes :=
  State.modes_congr rfl rfl rfl

@[simp] theorem State.modes_countGood (s : State) (n len : Nat) : (s.countGood n len).modes = s.modes :=
  State.modes_congr rfl rfl rfl

@[simp] theorem State.modes_controlFrame (s : State) (n : Nat) (bytes : List Byte) : (s.controlFrame n bytes).modes = s.modes := by
  simp [State.controlFrame]

@[simp] theorem State.modes_verifyTimer (s : State) (n : Nat) : (s.verifyTimer n).modes = s.modes := by
  simp [State.verifyTimer]

@[simp] theorem State.modes_answerIn (s : State) (n : Nat) : (s.answerIn n).modes = s.modes := by
  simp [State.answerIn]

@[simp] theorem State.modes_verifyIn (s : State) (n : Nat) : (s.verifyIn n).modes = s.modes := by
  simp [State.verifyIn]

@[simp] theorem State.modes_ptpSend (s : State) (n sentTb : Nat) (bytes : List Byte) : (s.ptpSend n sentTb bytes).1.modes = s.modes := by
  unfold State.ptpSend
  dsimp only
  (repeat' split) <;> simp

@[simp] theorem State.modes_macStart (s : State) (n c : Nat) (p : Pkt) : (s.macStart n c p).1.modes = s.modes := by
  simp [State.macStart]

@[simp] theorem State.modes_macFrame (s : State) (n : Nat) (stomp : Bool) (p : Pkt) : (s.macFrame n stomp p).modes = s.modes := by
  simp [State.macFrame]

@[simp] theorem State.modes_macSend (s : State) (n c : Nat) (p : Pkt) : (s.macSend n c p).modes = s.modes := by
  simp [State.macSend]

@[simp] theorem State.modes_exhaust (s : State) (n : Nat) : (s.exhaust n).modes = s.modes := by
  simp [State.exhaust]

@[simp] theorem State.modes_newRx (s : State) (p : Pkt) (len : Nat) (bad : Option Nat) (cut : Bool) (tag : Option Nat) (wb : Option (Nat × Nat)) (wire : Nat) : (s.newRx p len bad cut tag wb wire).modes = s.modes :=
  State.modes_congr rfl rfl rfl

@[simp] theorem State.modes_frameIn (s : State) (n : Nat) (bytes : List Byte) (firstNs : Nat) (fcs : Bool) (kind : Nat) (preemptable : Bool) : (s.frameIn n bytes firstNs fcs kind preemptable).modes = s.modes := by
  unfold State.frameIn
  dsimp only
  (repeat' split) <;> simp

@[simp] theorem State.modes_syncTags (s : State) : (s.syncTags).modes = s.modes := by
  simp [State.syncTags]

@[simp] theorem State.modes_sendPiece (s : State) (w : HostWait) : (s.sendPiece w).modes = s.modes := by
  simp [State.sendPiece]

@[simp] theorem State.modes_serveTags (s : State) (fuel : Nat) : (s.serveTags fuel).modes = s.modes := by
  induction fuel generalizing s with
  | zero => rfl
  | succ fuel ih =>
    unfold State.serveTags
    split
    · rfl
    · exact (ih _).trans (State.modes_sendPiece ..)

@[simp] theorem State.modes_serve (s : State) : (s.serve).modes = s.modes := by
  simp [State.serve]

@[simp] theorem State.modes_sendRead (s : State) (req : HostReq) (func link addr len : Nat) (ns ro : Bool) : (s.sendRead req func link addr len ns ro).modes = s.modes := by
  simp [State.sendRead]

@[simp] theorem State.modes_dropRead (s : State) (p : HostReq → Bool) : (s.dropRead p).modes = s.modes :=
  State.modes_congr rfl rfl rfl

@[simp] theorem State.modes_setRetry (s : State) (q : Nat) (r : Nat × Nat) : (s.setRetry q r).modes = s.modes :=
  State.modes_congr rfl rfl rfl

@[simp] theorem State.modes_queueRead (s : State) (q : Nat) (req : HostReq) (addr len : Nat) (ns ro : Bool) : (s.queueRead q req addr len ns ro).modes = s.modes := by
  simp [State.queueRead]

@[simp] theorem State.modes_queueWrite (s : State) (q addr : Nat) (bytes : List Byte) (ns ro : Bool) : (s.queueWrite q addr bytes ns ro).modes = s.modes :=
  State.modes_congr rfl rfl rfl

@[simp] theorem State.modes_syncBusy (s : State) (q : Nat) : (s.syncBusy q).modes = s.modes :=
  State.modes_congr rfl rfl rfl

@[simp] theorem State.modes_fetchQueue (s : State) (q : Nat) : (s.fetchQueue q).modes = s.modes := by
  simp [State.fetchQueue]

@[simp] theorem State.modes_stopQueue (s : State) (q code : Nat) : (s.stopQueue q code).modes = s.modes :=
  State.modes_congr rfl rfl rfl

@[simp] theorem State.modes_endReset (s : State) (q : Nat) : (s.endReset q).modes = s.modes := by
  simp [State.endReset]

@[simp] theorem State.modes_endReads (s : State) (p : HostRead → Bool) : (s.endReads p).modes = s.modes := by
  simp [State.endReads]

@[simp] theorem State.modes_arrive (s : State) (req : HostReq) (data : List Byte) : (s.arrive req data).2.modes = s.modes := by
  unfold State.arrive
  dsimp only
  split <;> simp

@[simp] theorem State.modes_sendMsix (s : State) (func vec : Nat) : (s.sendMsix func vec).modes = s.modes := by
  simp [State.sendMsix]

@[simp] theorem State.modes_countCompletion (s : State) (q : Nat) : (s.countCompletion q).modes = s.modes := by
  simp [State.countCompletion]

@[simp] theorem State.modes_useDescriptor (s : State) (q : Nat) : (s.useDescriptor q).modes = s.modes :=
  State.modes_congr rfl rfl rfl

@[simp] theorem State.modes_txDone (s : State) (q number status : Nat) : (s.txDone q number status).modes = s.modes := by
  simp [State.txDone]

@[simp] theorem State.modes_startTx (s : State) (q fuel : Nat) : (s.startTx q fuel).modes = s.modes := by
  induction fuel generalizing s with
  | zero => rfl
  | succ fuel ih =>
    unfold State.startTx
    split
    · rfl
    · split
      · rfl
      · dsimp only
        split
        · exact (ih _).trans (State.modes_txDone ..)
        · exact State.modes_queueRead ..

@[simp] theorem State.modes_runQueue (s : State) (q : Nat) : (s.runQueue q).modes = s.modes := by
  simp [State.runQueue]

@[simp] theorem State.modes_mismatch (s : State) (q : Nat) : (s.mismatch q).modes = s.modes := by
  simp [State.mismatch]

@[simp] theorem State.modes_descriptorsIn (s : State) (q : Nat) (data : List Byte) (poison : Bool) : (s.descriptorsIn q data poison).modes = s.modes := by
  unfold State.descriptorsIn
  dsimp only
  (repeat' split) <;> simp

@[simp] theorem State.modes_rereadQueue (s : State) (q : Nat) : (s.rereadQueue q).modes = s.modes := by
  simp [State.rereadQueue]

theorem State.modes_landCell {s t : State} {f : RxFrame} {cell : Option Nat} {p : Pkt} (h : s.landCell f cell = some (t, p)) : t.modes = s.modes := by
  unfold State.landCell at h
  split at h
  · cases h
    split <;> simp
  · cases h

@[simp] theorem State.modes_putRx (s : State) (f : RxFrame) : (s.putRx f).modes = s.modes :=
  State.modes_congr rfl rfl rfl

@[simp] theorem State.modes_landed (s : State) (f : RxFrame) : (s.landed f).modes = s.modes := by
  unfold State.landed
  dsimp only
  (repeat' split) <;> simp

@[simp] theorem State.modes_landAll (s : State) (id fuel : Nat) : (s.landAll id fuel).modes = s.modes := by
  induction fuel generalizing s with
  | zero => rfl
  | succ fuel ih =>
    unfold State.landAll
    split
    · rfl
    · split
      · rfl
      · dsimp only
        split
        · rfl
        · rename_i h
          rw [ih, State.modes_landed, State.modes_putRx, State.modes_landCell h, State.modes_freeAny]

@[simp] theorem State.modes_txDataIn (s : State) (q : Nat) (data : List Byte) (poison : Bool) : (s.txDataIn q data poison).modes = s.modes := by
  unfold State.txDataIn
  dsimp only
  (repeat' split) <;> simp

@[simp] theorem State.modes_deliverHost (s : State) (q ep cls : Nat) (bytes : List Byte) : (s.deliverHost q ep cls bytes).modes = s.modes := by
  simp [State.deliverHost]

@[simp] theorem State.modes_startReset (s : State) (q : Nat) : (s.startReset q).modes = s.modes := by
  simp [State.startReset]

@[simp] theorem State.modes_queueDoorbell (s : State) (src : HostSrc) (q value : Nat) : (s.queueDoorbell src q value).modes = s.modes := by
  unfold State.queueDoorbell
  dsimp only
  (repeat' split) <;> simp

@[simp] theorem State.modes_setGates (s : State) (o : Nat) (g : Option GateList) : (s.setGates o g).modes = s.modes :=
  State.modes_congr rfl rfl rfl

@[simp] theorem State.modes_setPendingGates (s : State) (o : Nat) (g : Option (Nat × Option GateList)) : (s.setPendingGates o g).modes = s.modes :=
  State.modes_congr rfl rfl rfl

@[simp] theorem State.modes_setMacHold (s : State) (o : Nat) (b : Bool) : (s.setMacHold o b).modes = s.modes := by
  unfold State.setMacHold
  dsimp only
  split <;> simp

@[simp] theorem State.modes_gateSync (s : State) (o : Nat) : (s.gateSync o).modes = s.modes := by
  unfold State.gateSync
  dsimp only
  split <;> simp

@[simp] theorem State.modes_gateChange (s : State) (o : Nat) (new : Option GateList) : (s.gateChange o new).modes = s.modes := by
  unfold State.gateChange
  dsimp only
  split <;> simp

@[simp] theorem State.modes_storeGates (s : State) (seq o change : Nat) (g : Option GateList) : (s.storeGates seq o change g).modes = s.modes :=
  State.modes_congr rfl rfl rfl

@[simp] theorem State.modes_failKind (s : State) (kind : FarKind) (a status : Nat) : (s.failKind kind a status).modes = s.modes := by
  unfold State.failKind
  simp
  (repeat' split) <;> simp

@[simp] theorem State.modes_farSend (s : State) (a : Nat) (kind : FarKind) : (s.farSend a kind).modes = s.modes := by
  simp [State.farSend]

@[simp] theorem State.modes_sendWaits (s : State) (f fuel : Nat) : (s.sendWaits f fuel).modes = s.modes := by
  induction fuel generalizing s with
  | zero => rfl
  | succ fuel ih =>
    unfold State.sendWaits
    split
    · rfl
    · exact (ih _).trans (State.modes_farRequest ..)

@[simp] theorem State.modes_farDrain (s : State) (f : Nat) : (s.farDrain f).modes = s.modes := by
  simp [State.farDrain]

@[simp] theorem State.modes_syncSpill (s : State) : (s.syncSpill).modes = s.modes :=
  State.modes_congr rfl rfl rfl

@[simp] theorem State.modes_setSpills (s : State) (l : List Spill) : (s.setSpills l).modes = s.modes :=
  State.modes_congr rfl rfl rfl

theorem State.modes_newSpill {s t : State} {leaf id : Nat} {far : Bool} (h : s.newSpill leaf far = some (id, t)) : t.modes = s.modes := by
  unfold State.newSpill at h
  split at h
  · split at h <;> cases h
    exact State.modes_setSpills ..
  · obtain ⟨_, -, he⟩ := Option.map_eq_some_iff.mp h
    cases he
    exact State.modes_setSpills ..

theorem State.modes_giveSpot {s t : State} {leaf x : Nat} {far : Bool} (h : s.giveSpot leaf far = some (t, x)) : t.modes = s.modes := by
  unfold State.giveSpot at h
  dsimp only at h
  split at h
  · cases h
  · rename_i id u hfound
    cases h
    rw [State.modes_setSpills]
    split at hfound
    · cases hfound
      rfl
    · exact State.modes_newSpill hfound

theorem State.modes_giveSpots {s t : State} {leaf n : Nat} {far : Bool} {got spots : List Nat} (h : s.giveSpots leaf far n got = some (t, spots)) :
    t.modes = s.modes := by
  induction n generalizing s got with
  | zero => cases h; rfl
  | succ n ih =>
    unfold State.giveSpots at h
    split at h
    · cases h
    · rename_i hgive
      exact (ih h).trans (State.modes_giveSpot hgive)

@[simp] theorem State.modes_releaseSpots (s : State) (far : Bool) (spots : List Nat) : (s.releaseSpots far spots).modes = s.modes :=
  State.modes_congr rfl rfl rfl

@[simp] theorem State.modes_writeSpot (s : State) (far : Bool) (who x : Nat) (bytes : List Byte) : (s.writeSpot far who x bytes).modes = s.modes := by
  simp [State.writeSpot]

@[simp] theorem State.modes_writeBlock (s : State) (b : Spill) : (s.writeBlock b).modes = s.modes := by
  simp [State.writeBlock]

@[simp] theorem State.modes_closeSpill (s : State) (b : Spill) : (s.closeSpill b).modes = s.modes := by
  simp [State.closeSpill]

@[simp] theorem State.modes_closeWhere (s : State) (p : Spill → Bool) : (s.closeWhere p).modes = s.modes := by
  simp [State.closeWhere]

@[simp] theorem State.modes_emptied (s : State) (l : Nat) : (s.emptied l).modes = s.modes := by
  unfold State.emptied
  dsimp only
  (repeat' split) <;> simp

@[simp] theorem State.modes_discard (s : State) (p : Pkt) : (s.discard p).modes = s.modes := by
  simp [State.discard]

@[simp] theorem State.modes_copyLost (s : State) (p : Pkt) : (s.copyLost p).modes = s.modes := by
  simp [State.copyLost]

@[simp] theorem State.modes_memoryFailure (s : State) (n : Nat) (p : Pkt) : (s.memoryFailure n p).modes = s.modes := by
  simp [State.memoryFailure]

theorem State.modes_startSpill {s t : State} {leaf tier : Nat} {p q : Pkt} (h : s.startSpill leaf tier p = some (t, q)) : t.modes = s.modes := by
  unfold State.startSpill at h
  split at h
  · cases h
  · rename_i hgive
    cases h
    rw [State.modes_newWho, State.modes_giveSpots hgive]

@[simp] theorem State.modes_joinLeaf (s : State) (l : Nat) (p : Pkt) : (s.joinLeaf l p).modes = s.modes := by
  unfold State.joinLeaf
  extract_lets q base r s0 s1 tier
  have h0 : s0.modes = s.modes := by
    unfold s0
    split
    · split <;> simp
    · rfl
  have h1 : s1.modes = s.modes := by
    unfold s1
    split
    · exact (State.modes_clearWait ..).trans h0
    · exact h0
  split
  · rename_i t r hstart
    have ht : t.modes = s1.modes := by
      split at hstart
      · cases hstart
      · exact State.modes_startSpill hstart
    simp [ht, h1]
  · simp [h1]

@[simp] theorem State.modes_cancelSpill (s : State) (p : Pkt) : (s.cancelSpill p).1.modes = s.modes :=
  State.modes_congr rfl rfl rfl

@[simp] theorem State.modes_refillWindow (s : State) (l : Nat) : (s.refillWindow l).modes = s.modes := by
  refine (State.modes_setLeafQ ..).trans (foldl_keeps (g := fun x : State × List Pkt => x.1.modes) (fun x p => ?_) _ _)
  dsimp only
  split
  · exact State.modes_cancelSpill ..
  · rfl

@[simp] theorem State.modes_leftLeaf (s : State) (l : Nat) : (s.leftLeaf l).modes = s.modes := by
  simp [State.leftLeaf]

@[simp] theorem State.modes_refillWindows (s : State) : (s.refillWindows).modes = s.modes := by
  simp [State.refillWindows]

@[simp] theorem State.modes_putLeaf (s : State) (l : Nat) (p : Pkt) : (s.putLeaf l p).modes = s.modes :=
  State.modes_congr rfl rfl rfl

@[simp] theorem State.modes_readSpot (s : State) (far : Bool) (who x : Nat) : (s.readSpot far who x).modes = s.modes := by
  simp [State.readSpot]

@[simp] theorem State.modes_lineWrites (s : State) (k v : Nat) : (s.lineWrites k v).modes = s.modes := by
  unfold State.lineWrites
  simp
  (repeat' split) <;> simp

@[simp] theorem State.modes_setTline (s : State) (k v : Nat) : (s.setTline k v).modes = s.modes := by
  simp [State.setTline]

@[simp] theorem State.modes_captureTbl (s : State) (t rep kind k : Nat) : (s.captureTbl t rep kind k).modes = s.modes := by
  simp [State.captureTbl]

@[simp] theorem State.modes_meetBad (s : State) (t rep kind k n : Nat) : (s.meetBad t rep kind k n).modes = s.modes := by
  induction n generalizing s with
  | zero => rfl
  | succ n ih => rw [State.meetBad, ih, State.modes_raise, State.modes_captureTbl, State.modes_wrap]

@[simp] theorem State.modes_badEntry (s : State) (t rep kind k n : Nat) : (s.badEntry t rep kind k n).modes = s.modes := by
  simp [State.badEntry]

@[simp] theorem State.modes_postHit (s : State) (t lk : Nat) (hit : Option (Nat × Nat)) : (s.postHit t lk hit).modes = s.modes := by
  unfold State.postHit
  dsimp only
  split <;> simp

@[simp] theorem State.modes_readLine (s : State) (k j key v rep lk : Nat) : (s.readLine k j key v rep lk).2.modes = s.modes := by
  simp [State.readLine]

@[simp] theorem State.modes_postLearn (s : State) (e : LearnEvent) : (s.postLearn e).2.modes = s.modes := by
  simp [State.postLearn]

@[simp] theorem State.modes_espOp (s : State) (v : Vect) (w : Nat) (e : Edit) : (s.espOp v w e).2.modes = s.modes := by
  unfold State.espOp
  dsimp only
  (repeat' split) <;> simp

@[simp] theorem State.modes_directLine (s : State) (t i : Nat) : (s.directLine t i).2.modes = s.modes := by
  unfold State.directLine
  simp
  (repeat' split) <;> simp

theorem State.modes_of_directLine {s t : State} {a b : Nat} {r : Nat ⊕ Nat} (h : s.directLine a b = (r, t)) : t.modes = s.modes := by
  rw [← s.modes_directLine a b, h]

@[simp] theorem State.modes_editOp (s : State) (v : Vect) (w : Nat) (last : Bool) (e : Edit) : (s.editOp v w last e).2.modes = s.modes := by
  unfold State.editOp
  split
  · split
    · exact State.modes_espOp ..
    · rfl
  · split
    · dsimp only
      split <;> rename_i h1
      · exact State.modes_of_directLine h1
      · split <;> rename_i h2 <;> exact (State.modes_of_directLine h2).trans (State.modes_of_directLine h1)
    · rfl

@[simp] theorem State.modes_editOps (s : State) (v : Vect) (line n k i : Nat) (e : Edit) : (s.editOps v line n k i e).2.modes = s.modes := by
  induction k generalizing s i e with
  | zero => rfl
  | succ k ih =>
    have hop := s.modes_editOp v (lget line (8 + 8 * i) 8) (i + 1 == n) e
    unfold State.editOps
    split <;> rename_i h <;> rw [h] at hop
    · exact (ih _ _ _).trans hop
    · exact hop

@[simp] theorem State.modes_captureEdit (s : State) (reason prism op list : Nat) : (s.captureEdit reason prism op list).modes = s.modes := by
  simp [State.captureEdit]

@[simp] theorem State.modes_applyEdits (s : State) (prism : Nat) (v : Vect) (list : Nat) (bytes : List Byte) :
    (s.applyEdits prism v list bytes).2.2.modes = s.modes := by
  unfold State.applyEdits
  split
  · rfl
  · split
    · rename_i h
      exact (State.modes_captureEdit ..).trans (State.modes_of_directLine h)
    · rename_i line s1 h
      have h1 := State.modes_of_directLine h
      dsimp only
      split
      · exact (State.modes_captureEdit ..).trans h1
      · have hops := s1.modes_editOps v line (lget line 0 1) (lget line 0 1) 0 { bytes := bytes }
        split <;> rename_i h <;> rw [h] at hops
        · exact (State.modes_captureEdit ..).trans (hops.trans h1)
        · split
          · exact (State.modes_captureEdit ..).trans (hops.trans h1)
          · exact hops.trans h1

@[simp] theorem State.modes_syncIris (s : State) (i : Nat) : (s.syncIris i).modes = s.modes :=
  State.modes_congr rfl rfl rfl

@[simp] theorem State.modes_dropCell (s : State) (i : Nat) : (s.dropCell i).modes = s.modes := by
  simp [State.dropCell]

@[simp] theorem State.modes_sendOn (s : State) (i : Nat) (c : FCell) (mem relayFrom firstNs : Option Nat) : (s.sendOn i c mem relayFrom firstNs).modes = s.modes :=
  State.modes_congr rfl rfl rfl

@[simp] theorem State.modes_drainLink (s : State) (i fuel : Nat) : (s.drainLink i fuel).modes = s.modes := by
  induction fuel generalizing s with
  | zero => rfl
  | succ fuel ih =>
    unfold State.drainLink
    split
    · rfl
    · exact ite_keeps ((ih _).trans ((State.modes_sendOn ..).trans (State.modes_setIris ..))) rfl

@[simp] theorem State.modes_sendLink (s : State) (i : Nat) (payload : List Byte) : (s.sendLink i payload).modes = s.modes := by
  simp [State.sendLink]

@[simp] theorem State.modes_due (s : State) (i : Nat) (r : List Byte) : (s.due i r).modes = s.modes :=
  State.modes_congr rfl rfl rfl

@[simp] theorem State.modes_sendCtrl (s : State) (i : Nat) : (s.sendCtrl i).modes = s.modes :=
  State.modes_congr rfl rfl rfl

@[simp] theorem State.modes_flushCtrl (s : State) (i : Nat) : (s.flushCtrl i).modes = s.modes := by
  simp [State.flushCtrl]

@[simp] theorem State.modes_ackTo (s : State) (i ack : Nat) : (s.ackTo i ack).modes = s.modes := by
  unfold State.ackTo
  dsimp only
  split
  · rfl
  · rw [State.modes_syncIris, foldl_keeps (g := State.modes) fun t e => ?_, State.modes_setIris]
    split <;> simp

@[simp] theorem State.modes_rewind (s : State) (i from_ : Nat) : (s.rewind i from_).modes = s.modes := by
  simp [State.rewind]

@[simp] theorem State.modes_lostLen (s : State) (c : FCell) : (s.lostLen c).2.modes = s.modes := by
  unfold State.lostLen
  split
  · rfl
  · split
    · rfl
    · exact State.modes_draw ..

@[simp] theorem State.modes_loseCell (s : State) (c : FCell) : (s.loseCell c).modes = s.modes := by
  simp [State.loseCell]

@[simp] theorem State.modes_noRoute (s : State) (w : WaitCell) : (s.noRoute w).modes = s.modes := by
  unfold State.noRoute
  dsimp only
  split <;> simp

@[simp] theorem State.modes_redraw (s : State) (d : Nat) : (s.redraw d).modes = s.modes := by
  simp [State.redraw]

theorem State.modes_sprayCell {s t : State} {w : WaitCell} (h : s.sprayCell w = some t) : t.modes = s.modes := by
  unfold State.sprayCell at h
  dsimp only at h
  split at h
  · cases h
  · cases h
    split <;> simp

@[simp] theorem State.modes_sprayOrWait (s : State) (w : WaitCell) : (s.sprayOrWait w).modes = s.modes := by
  unfold State.sprayOrWait
  split
  · rename_i h
    exact State.modes_sprayCell h
  · rfl

@[simp] theorem State.modes_expire (s : State) (c : FCell) (m : Option Nat) : (s.expire c m).modes = s.modes := by
  unfold State.expire
  dsimp only
  split <;> simp

@[simp] theorem State.modes_drainWaiting (s : State) : (s.drainWaiting).modes = s.modes := by
  simp [State.drainWaiting]

@[simp] theorem State.modes_clearNext (s : State) (i : Nat) : (s.clearNext i).modes = s.modes := by
  simp [State.clearNext]

@[simp] theorem State.modes_linkChanged (s : State) : (s.linkChanged).modes = s.modes :=
  State.modes_congr rfl rfl rfl

@[simp] theorem State.modes_endChange (s : State) (i code : Nat) : (s.endChange i code).modes = s.modes := by
  unfold State.endChange
  dsimp only
  split <;> simp

@[simp] theorem State.modes_recordDown (s : State) (i cause time gasp : Nat) : (s.recordDown i cause time gasp).modes = s.modes := by
  simp [State.recordDown]

@[simp] theorem State.modes_irisDown (s : State) (i cause time gasp : Nat) : (s.irisDown i cause time gasp).modes = s.modes := by
  unfold State.irisDown
  refine (State.modes_raise ..).trans ((State.modes_drainWaiting ..).trans ?_)
  rw [modes_ite, State.modes_linkChanged, ite_self, State.modes_fab, State.modes_sat]
  generalize (s.iris i).disabling = dis
  cases dis <;> simp

@[simp] theorem State.modes_downFor (s : State) (i cause : Nat) : (s.downFor i cause).modes = s.modes := by
  simp [State.downFor]

@[simp] theorem State.modes_enterUp (s : State) (i width lanes : Nat) : (s.enterUp i width lanes).modes = s.modes := by
  simp [State.enterUp]

@[simp] theorem State.modes_rtReq (s : State) (i : Nat) (c : LinkChange) : (s.rtReq i c).modes = s.modes :=
  State.modes_congr rfl rfl rfl

@[simp] theorem State.modes_startChange (s : State) (i width mask : Nat) (same : Bool) (cmd : Option Nat) : (s.startChange i width mask same cmd).modes = s.modes :=
  State.modes_congr rfl rfl rfl

@[simp] theorem State.modes_drainFor (s : State) (i : Nat) (c : LinkChange) (w mask : Nat) : (s.drainFor i c w mask).modes = s.modes := by
  simp [State.drainFor]

@[simp] theorem State.modes_answerRt (s : State) (i width mask : Nat) (c : LinkChange) : (s.answerRt i width mask c).modes = s.modes := by
  unfold State.answerRt
  split
  · exact State.modes_downFor ..
  · exact (State.modes_drainFor ..).trans ((State.modes_flushCtrl ..).trans (State.modes_due ..))

@[simp] theorem State.modes_rtReqIn (s : State) (i : Nat) (r : List Byte) : (s.rtReqIn i r).modes = s.modes := by
  unfold State.rtReqIn
  dsimp only
  (repeat' split) <;> simp

@[simp] theorem State.modes_rtAckIn (s : State) (i : Nat) (r : List Byte) : (s.rtAckIn i r).modes = s.modes := by
  unfold State.rtAckIn
  simp
  (repeat' split) <;> simp

@[simp] theorem State.modes_tryRetrain (s : State) (i : Nat) (c : LinkChange) : (s.tryRetrain i c).modes = s.modes := by
  simp [State.tryRetrain]

@[simp] theorem State.modes_rtReadyIn (s : State) (i : Nat) : (s.rtReadyIn i).modes = s.modes := by
  unfold State.rtReadyIn
  split
  · split
    · exact State.modes_tryRetrain ..
    · rfl
  · rfl

@[simp] theorem State.modes_sendReady (s : State) (i : Nat) : (s.sendReady i).modes = s.modes := by
  simp [State.sendReady]

@[simp] theorem State.modes_gasp (s : State) (i : Nat) : (s.gasp i).modes = s.modes :=
  State.modes_congr rfl rfl rfl

@[simp] theorem State.modes_gaspAll (s : State) : (s.gaspAll).modes = s.modes := by
  simp [State.gaspAll]

@[simp] theorem State.modes_gaspIn (s : State) (i : Nat) (pl : List Byte) : (s.gaspIn i pl).modes = s.modes := by
  simp [State.gaspIn]

@[simp] theorem State.modes_recordIn (s : State) (i : Nat) (r : List Byte) : (s.recordIn i r).modes = s.modes := by
  unfold State.recordIn
  split
  · rfl
  · split
    · dsimp only
      split
      · exact State.modes_downFor ..
      · exact (State.modes_due ..).trans ((State.modes_setIris ..).trans ((State.modes_set ..).trans ((State.modes_setBit ..).trans (State.modes_set ..))))
    · exact State.modes_setIris ..
    · exact State.modes_rtReqIn ..
    · exact State.modes_rtAckIn ..
    · exact State.modes_rtReadyIn ..
    · rfl

@[simp] theorem State.modes_ctrlIn (s : State) (i : Nat) (pl : List Byte) : (s.ctrlIn i pl).modes = s.modes := by
  simp [State.ctrlIn]

/-- An operation of a link command decides what it leaves. -/
@[simp] theorem State.modes_linkCtl (s : State) (seq op : Nat) {body : Nat → Nat → Nat → State → State}
    (h : ∀ i w m t, (body i w m t).modes = t.modes) : (s.linkCtl seq op body).modes = s.modes := by
  refine State.modes_runCmd _ _ _ fun c t => ?_
  dsimp only
  split
  · rfl
  · split
    · exact State.modes_refuse ..
    · exact h ..

@[simp] theorem State.modes_softChange (t : State) (seq i width mask : Nat) (same : Bool) : (t.softChange seq i width mask same).modes = t.modes := by
  simp [State.softChange]

@[simp] theorem State.modes_startRound (s : State) (ks : List Nat) (commit : Bool) : (s.startRound ks commit).2.modes = s.modes := by
  simp [State.startRound]

@[simp] theorem State.modes_removeWaiting (s : State) (k : Nat) (gone : Pkt → Bool) : (s.removeWaiting k gone).modes = s.modes :=
  State.modes_congr rfl rfl rfl

@[simp] theorem State.modes_drainCheck (s : State) : (s.drainCheck).modes = s.modes := by
  simp [State.drainCheck]

@[simp] theorem State.modes_tokenLeft (s : State) (k id : Nat) : (s.tokenLeft k id).modes = s.modes := by
  simp [State.tokenLeft]

@[simp] theorem State.modes_setPlacement (s : State) (e : Nat) (p : Placement) : (s.setPlacement e p).modes = s.modes :=
  State.modes_congr rfl rfl rfl

@[simp] theorem State.modes_setMig (s : State) (m : Migration) : (s.setMig m).modes = s.modes :=
  State.modes_congr rfl rfl rfl

@[simp] theorem State.modes_fencePkt (s : State) (m : Migration) (p : Pkt) : (s.fencePkt m p).modes = s.modes :=
  State.modes_congr rfl rfl rfl

@[simp] theorem State.modes_migLate (s : State) (p : Pkt) : (s.migLate p).modes = s.modes := by
  simp [State.migLate]

@[simp] theorem State.modes_redirect (s : State) (pl : Placement) (p : Pkt) : (s.redirect pl p).modes = s.modes := by
  simp [State.redirect]

@[simp] theorem State.modes_routeLeaf (s : State) (p : Pkt) : (s.routeLeaf p).modes = s.modes := by
  unfold State.routeLeaf
  dsimp only
  (repeat' split) <;> simp

@[simp] theorem State.modes_enqueuePkt (s : State) (p : Pkt) : (s.enqueuePkt p).modes = s.modes := by
  unfold State.enqueuePkt
  simp
  (repeat' split) <;> simp

@[simp] theorem State.modes_openMig (s : State) (m : Migration) (state tkind target : Nat) : (s.openMig m state tkind target).modes = s.modes := by
  simp [State.openMig]

@[simp] theorem State.modes_endMig (s : State) (m : Migration) (code : Nat) : (s.endMig m code).modes = s.modes := by
  simp [State.endMig]

@[simp] theorem State.modes_endLocal (s : State) (m : Migration) : (s.endLocal m).modes = s.modes := by
  simp [State.endLocal]

/-- So does the beginning of a migration. -/
@[simp] theorem State.modes_migrate (s : State) (seq kind : Nat) {body : OpenCmd → Nat → State → State}
    (h : ∀ c i t, (body c i t).modes = t.modes) : (s.migrate seq kind body).modes = s.modes := by
  refine State.modes_runCmd _ _ _ fun c t => ?_
  dsimp only
  split
  · rfl
  · split
    · exact State.modes_refuse ..
    · split
      · exact State.modes_refuse ..
      · split
        · exact State.modes_refuse ..
        · exact h ..

@[simp] theorem State.modes_sendMarkers (s : State) (e device : Nat) (moved : List Pkt) : (s.sendMarkers e device moved).modes = s.modes := by
  simp [State.sendMarkers]

@[simp] theorem State.modes_markerSent (s : State) (e c : Nat) : (s.markerSent e c).modes = s.modes := by
  unfold State.markerSent
  split
  · exact State.modes_set ..
  · rfl

@[simp] theorem State.modes_endMarked (s : State) (e : Nat) : (s.endMarked e).modes = s.modes := by
  unfold State.endMarked
  simp
  (repeat' split) <;> simp

@[simp] theorem State.modes_markerIn (s : State) (device e c : Nat) : (s.markerIn device e c).modes = s.modes := by
  unfold State.markerIn
  simp
  (repeat' split) <;> simp

@[simp] theorem State.modes_mapPkts (s : State) (f : Pkt → Pkt) : (s.mapPkts f).modes = s.modes :=
  State.modes_congr rfl rfl rfl

@[simp] theorem State.modes_discardRest (s : State) (id : Nat) : (s.discardRest id).modes = s.modes :=
  State.modes_congr rfl rfl rfl

@[simp] theorem State.modes_verdictDrop (s : State) (r : Nat) (p : Pkt) : (s.verdictDrop r p).modes = s.modes := by
  simp [State.verdictDrop]

@[simp] theorem State.modes_renameChain (s : State) (o : Nat) (p : Pkt) : (s.renameChain o p).1.modes = s.modes := by
  unfold State.renameChain
  simp
  (repeat' split) <;> simp

@[simp] theorem State.modes_divert (s : State) (prism r : Nat) (v : Vect) (p : Pkt) : (s.divert prism r v p).modes = s.modes := by
  simp [State.divert]

@[simp] theorem State.modes_refit (s : State) (p : Pkt) (len : Nat) : (s.refit p len).1.modes = s.modes := by
  unfold State.refit
  dsimp only
  split <;> simp

@[simp] theorem State.modes_resize (s : State) (p : Pkt) (len : Nat) : (s.resize p len).1.modes = s.modes := by
  unfold State.resize
  split
  · rfl
  · exact State.modes_refit ..

@[simp] theorem State.modes_inScope (s : State) (p : Pkt) : (s.inScope p).2.modes = s.modes := by
  unfold State.inScope
  simp
  (repeat' split) <;> simp

@[simp] theorem State.modes_aim (s : State) (p : Pkt) (kind dev q : Nat) (sel : Option Nat) (ep : Nat) : (s.aim p kind dev q sel ep).2.modes = s.modes := by
  unfold State.aim
  dsimp only
  (repeat' split) <;> simp

@[simp] theorem State.modes_members (s : State) (fuel i : Nat) : (s.members fuel i).2.modes = s.modes := by
  induction fuel generalizing s i with
  | zero => exact State.modes_sat ..
  | succ fuel ih =>
    unfold State.members
    split <;> rename_i h
    · exact State.modes_of_directLine h
    · dsimp only
      split
      · exact State.modes_of_directLine h
      · exact (ih _ _).trans (State.modes_of_directLine h)

@[simp] theorem State.modes_aimMember (s : State) (p : Pkt) (m : Member) : (s.aimMember p m).2.modes = s.modes := by
  unfold State.aimMember
  split
  · exact State.modes_aim ..
  · split
    · exact State.modes_sat ..
    · exact State.modes_aim ..

@[simp] theorem State.modes_memberLost (s : State) (p : Pkt) : (s.memberLost p).modes = s.modes :=
  State.modes_congr rfl rfl rfl

@[simp] theorem State.modes_aimMembers (s : State) (p : Pkt) (ms : List Member) : (s.aimMembers p ms).1.modes = s.modes := by
  refine foldl_keeps (g := fun x : State × List MemberAim => x.1.modes) (fun x m => ?_) ms (s, [])
  have haim := x.1.modes_aimMember p m
  split <;> rename_i h <;> rw [h] at haim
  · exact haim
  · dsimp only
    split
    · exact haim
    · exact (State.modes_memberLost ..).trans haim

@[simp] theorem State.modes_aimGroup (s : State) (p : Pkt) (q : Nat) : (s.aimGroup p q).2.modes = s.modes := by
  have hmembers := s.modes_members 64 (s.get (R.SWC_DQ.TARGET q))
  unfold State.aimGroup
  split
  · rename_i h
    rwa [h] at hmembers
  · rename_i m rest s1 h
    rw [h] at hmembers
    have haim := s1.modes_aimMember p m
    split <;> rename_i h <;> rw [h] at haim <;> exact haim.trans hmembers

@[simp] theorem State.modes_wakePattern (s : State) (f : Nat) (frame : List Byte) (fuel k : Nat) :
    (s.wakePattern f frame fuel k).2.modes = s.modes := by
  induction fuel generalizing s k with
  | zero => rfl
  | succ fuel ih =>
    unfold State.wakePattern
    dsimp only
    split
    · rename_i h
      exact (ih _ _).trans (State.modes_of_directLine h)
    · rename_i h1
      split
      · rename_i h2
        exact (ih _ _).trans ((State.modes_of_directLine h2).trans (State.modes_of_directLine h1))
      · rename_i h2
        split
        · rename_i h3
          exact (ih _ _).trans ((State.modes_of_directLine h3).trans ((State.modes_of_directLine h2).trans (State.modes_of_directLine h1)))
        · rename_i h3
          have h := (State.modes_of_directLine h3).trans ((State.modes_of_directLine h2).trans (State.modes_of_directLine h1))
          split
          · exact h
          · exact (ih _ _).trans h

@[simp] theorem State.modes_wakeTest (s : State) (q : Nat) (frame : List Byte) : (s.wakeTest q frame).modes = s.modes := by
  unfold State.wakeTest
  simp only []
  split
  · rfl
  · have hwake := s.modes_wakePattern (s.get (R.HOST_Q.FUNC q) - 4096) frame 8 0
    generalize s.wakePattern (s.get (R.HOST_Q.FUNC q) - 4096) frame 8 0 = r at hwake ⊢
    obtain ⟨_ | k, s1⟩ := r
    · exact hwake
    · simp only []
      split
      · exact hwake
      · exact (State.modes_toHost ..).trans ((State.modes_wrap ..).trans ((State.modes_setBit ..).trans ((State.modes_host ..).trans hwake)))

@[simp] theorem State.modes_freshId (s : State) : (s.freshId).2.modes = s.modes :=
  State.modes_congr rfl rfl rfl

@[simp] theorem State.modes_handCopy (s : State) (p : Pkt) : (s.handCopy p).modes = s.modes :=
  State.modes_congr rfl rfl rfl

theorem State.modes_of_privateChain {s t : State} {p : Pkt} {owner : Option Nat} {c len : Nat} {r : Option (List Nat)}
    (h : s.privateChain p owner c len = (t, r)) : t.modes = s.modes := by
  rw [← s.modes_privateChain p owner c len, h]

@[simp] theorem State.modes_copyCpu (s : State) (r : Nat) (p : Pkt) (received : List Byte) : (s.copyCpu r p received).modes = s.modes := by
  unfold State.copyCpu
  dsimp only
  split
  · rfl
  · split
    · exact State.modes_wrap ..
    · split <;> rename_i h
      · exact (State.modes_wrap ..).trans (State.modes_of_privateChain h)
      · exact (State.modes_handCopy ..).trans (State.modes_of_privateChain h)

@[simp] theorem State.modes_mirrorChain (s : State) (p : Pkt) (c : Pkt) : (s.mirrorChain p c).1.modes = s.modes := by
  simp [State.mirrorChain]

theorem State.modes_of_mirrorChain {s t : State} {p c : Pkt} {r : Option (List Nat)} (h : s.mirrorChain p c = (t, r)) : t.modes = s.modes := by
  rw [← s.modes_mirrorChain p c, h]

@[simp] theorem State.modes_mirror (s : State) (m : Nat) (p : Pkt) (received : List Byte) : (s.mirror m p received).modes = s.modes := by
  unfold State.mirror
  dsimp only
  split
  · rfl
  · split
    · exact State.modes_cnt ..
    · split
      · split
        · split <;> rename_i h
          · exact (State.modes_handCopy ..).trans ((State.modes_of_privateChain h).trans (State.modes_cnt ..))
          · exact (State.modes_countAt ..).trans ((State.modes_of_privateChain h).trans (State.modes_cnt ..))
        · split
          · split <;> rename_i h
            · exact (State.modes_handCopy ..).trans ((State.modes_of_mirrorChain h).trans (State.modes_cnt ..))
            · exact (State.modes_countAt ..).trans ((State.modes_of_mirrorChain h).trans (State.modes_cnt ..))
          · exact (State.modes_countAt ..).trans (State.modes_cnt ..)
      · split <;> rename_i h
        · exact (State.modes_handCopy ..).trans ((State.modes_of_mirrorChain h).trans (State.modes_cnt ..))
        · exact (State.modes_countAt ..).trans ((State.modes_of_mirrorChain h).trans (State.modes_cnt ..))
      · split <;> rename_i h
        · exact (State.modes_cnt ..).trans ((State.modes_of_privateChain h).trans (State.modes_cnt ..))
        · exact (State.modes_countAt ..).trans ((State.modes_of_privateChain h).trans (State.modes_cnt ..))
      · exact (State.modes_countAt ..).trans (State.modes_cnt ..)

@[simp] theorem State.modes_copies (s : State) (vd : Verdict) (p : Pkt) (received : List Byte) : (s.copies vd p received).modes = s.modes := by
  unfold State.copies
  dsimp only
  split <;> simp

theorem State.modes_of_applyEdits {s t : State} {prism list r : Nat} {v : Vect} {bytes out : List Byte}
    (h : s.applyEdits prism v list bytes = (r, out, t)) : t.modes = s.modes := by
  rw [← s.modes_applyEdits prism v list bytes, h]

@[simp] theorem State.modes_arriveGroup (s : State) (p : Pkt) : (s.arriveGroup p).2.modes = s.modes := by
  unfold State.arriveGroup
  extract_lets q
  have haim := s.modes_aimGroup q q.groupQ
  split <;> rename_i h <;> rw [h] at haim
  · exact haim
  · split <;> rename_i h
    · have hedit := (State.modes_of_applyEdits h).trans haim
      dsimp only
      split
      · exact hedit
      · exact (State.modes_resize ..).trans ((State.modes_aimMembers ..).trans hedit)
    · exact (State.modes_of_applyEdits h).trans haim

@[simp] theorem State.modes_forwardAim (s : State) (p : Pkt) (v : Vect) (vd : Verdict) : (s.forwardAim p v vd).2.modes = s.modes := by
  unfold State.forwardAim
  dsimp only
  split
  · have haim := s.modes_aimGroup p vd.dstQ
    split <;> rename_i h <;> rw [h] at haim <;> exact haim
  · have haim := s.modes_aim p vd.dstKind vd.dstDev vd.dstQ vd.dstEp (vget v 616 5)
    split <;> rename_i h <;> rw [h] at haim <;> exact haim

@[simp] theorem State.modes_forward (s : State) (prism : Nat) (p : Pkt) (v : Vect) (vd : Verdict) : (s.forward prism p v vd).2.modes = s.modes := by
  have haim := s.modes_forwardAim p v vd
  unfold State.forward
  split <;> rename_i h <;> rw [h] at haim
  · exact haim
  · split <;> rename_i h
    · have hedit := (State.modes_of_applyEdits h).trans haim
      split
      · exact (State.modes_captureEdit ..).trans hedit
      · split
        · exact (State.modes_wakeTest ..).trans hedit
        · split
          · exact (State.modes_countAt ..).trans hedit
          · exact (State.modes_resize ..).trans ((State.modes_aimMembers ..).trans hedit)
    · exact (State.modes_of_applyEdits h).trans haim

@[simp] theorem State.modes_takeVerdict (s : State) (prism : Nat) (p : Pkt) (v : Vect) (vd : Verdict) :
    (s.takeVerdict prism p v vd).2.modes = s.modes := by
  unfold State.takeVerdict
  split
  · have hforward := s.modes_forward prism p v vd
    split <;> rename_i h <;> rw [h] at hforward
    · exact (State.modes_copies ..).trans ((State.modes_renameChain ..).trans hforward)
    · exact (State.modes_verdictDrop ..).trans ((State.modes_copies ..).trans hforward)
    · exact (State.modes_divert ..).trans ((State.modes_copies ..).trans hforward)
  · exact (State.modes_verdictDrop ..).trans (State.modes_copies ..)
  · exact (State.modes_divert ..).trans (State.modes_copies ..)
  · exact (State.modes_verdictDrop ..).trans (State.modes_copies ..)

@[simp] theorem State.modes_handOver (s : State) (p : Pkt) : (s.handOver p).modes = s.modes :=
  State.modes_congr rfl rfl rfl

@[simp] theorem State.modes_setStream (s : State) (d c : Nat) (x : Option Stream) : (s.setStream d c x).modes = s.modes :=
  State.modes_congr rfl rfl rfl

@[simp] theorem State.modes_dropMem (s : State) (m : Option Nat) : (s.dropMem m).modes = s.modes := by
  cases m with
  | none => rfl
  | some i => exact State.modes_dropCell ..

@[simp] theorem State.modes_loseParts (s : State) (d : Nat) (parts : List (FCell × Option Nat)) : (s.loseParts d parts).modes = s.modes := by
  unfold State.loseParts
  dsimp only
  (repeat' split) <;> simp

@[simp] theorem State.modes_rebuilt (s : State) (d : Nat) (parts : List (FCell × Option Nat)) : (s.rebuilt d parts).1.modes = s.modes := by
  simp [State.rebuilt]

@[simp] theorem State.modes_releasePacket (s : State) (d : Nat) (x : Stream) (parts : List (FCell × Option Nat)) (firstSeq : Nat) :
    (s.releasePacket d x parts firstSeq).modes = s.modes := by
  have hrebuilt := s.modes_rebuilt d parts
  unfold State.releasePacket
  dsimp only
  split
  · exact State.modes_loseParts ..
  · split
    · have harrive := (s.rebuilt d parts).1.modes_arriveGroup (s.rebuilt d parts).2
      split <;> rename_i h <;> rw [h] at harrive
      · exact (State.modes_verdictDrop ..).trans (harrive.trans hrebuilt)
      · exact (State.modes_handOver ..).trans (harrive.trans hrebuilt)
    · exact (State.modes_handOver ..).trans hrebuilt

@[simp] theorem State.modes_releaseCellIn (s : State) (d cls : Nat) (x : Stream) (c : FCell) (m : Option Nat) : (s.releaseCellIn d cls x c m).1.modes = s.modes := by
  unfold State.releaseCellIn
  dsimp only
  (repeat' split) <;> simp

@[simp] theorem State.modes_releaseRun (s : State) (d cls : Nat) (x : Stream) (fuel : Nat) : (s.releaseRun d cls x fuel).1.modes = s.modes := by
  induction fuel generalizing s x with
  | zero => rfl
  | succ fuel ih =>
    unfold State.releaseRun
    split
    · rfl
    · exact (ih _ _).trans (State.modes_releaseCellIn ..)

@[simp] theorem State.modes_passCells (s : State) (d cls : Nat) (x : Stream) (n : Nat) : (s.passCells d cls x n).1.modes = s.modes := by
  induction n generalizing s x with
  | zero => rfl
  | succ n ih =>
    unfold State.passCells
    split
    · exact (ih _ _).trans (State.modes_releaseCellIn ..)
    · exact (ih _ _).trans (State.modes_loseParts ..)

@[simp] theorem State.modes_closeGap (s : State) (d cls : Nat) : (s.closeGap d cls).modes = s.modes := by
  unfold State.closeGap
  dsimp only
  split <;> simp

@[simp] theorem State.modes_endStream (s : State) (d cls fuel : Nat) : (s.endStream d cls fuel).modes = s.modes := by
  induction fuel generalizing s with
  | zero => exact (State.modes_setStream ..).trans (State.modes_loseParts ..)
  | succ fuel ih =>
    unfold State.endStream
    exact ite_keeps ((State.modes_setStream ..).trans (State.modes_loseParts ..)) ((ih _).trans (State.modes_closeGap ..))

@[simp] theorem State.modes_place (s : State) (c : FCell) (m : Option Nat) : (s.place c m).modes = s.modes := by
  unfold State.place
  dsimp only
  (repeat' split) <;> simp

@[simp] theorem State.modes_relay (s : State) (i : Nat) (c : FCell) (m : Option Nat) : (s.relay i c m).modes = s.modes := by
  simp [State.relay]

@[simp] theorem State.modes_networkIn (s : State) (i : Nat) (c : FCell) (m : Option Nat) : (s.networkIn i c m).modes = s.modes := by
  simp [State.networkIn]

@[simp] theorem State.modes_linkScoped (s : State) (i : Nat) (pl : List Byte) : (s.linkScoped i pl).modes = s.modes := by
  unfold State.linkScoped
  dsimp only
  split <;> simp

@[simp] theorem State.modes_creditNow (s : State) (i : Nat) : (s.creditNow i).modes = s.modes :=
  State.modes_congr rfl rfl rfl

@[simp] theorem State.modes_acceptCell (s : State) (i : Nat) (c : FCell) : (s.acceptCell i c).modes = s.modes := by
  unfold State.acceptCell
  dsimp only
  (repeat' split) <;> simp

@[simp] theorem State.modes_cellIn (s : State) (i : Nat) (bs : List Byte) : (s.cellIn i bs).modes = s.modes := by
  simp [State.cellIn]

@[simp] theorem State.modes_chargeShaper (s : State) (k lc : Nat) : (s.chargeShaper k lc).modes = s.modes := by
  simp [State.chargeShaper]

@[simp] theorem State.modes_landChange (s : State) (k rate burst : Nat) (weight : Option Nat) (compat : Nat) : (s.landChange k rate burst weight compat).modes = s.modes :=
  State.modes_congr rfl rfl rfl

@[simp] theorem State.modes_shaperLand (s : State) (c : OpenCmd) : (s.shaperLand c).modes = s.modes := by
  unfold State.shaperLand
  dsimp only
  split <;> simp

@[simp] theorem State.modes_setRound (s : State) (k n : Nat) : (s.setRound k n).modes = s.modes :=
  State.modes_congr rfl rfl rfl

theorem State.modes_roundPick {s t : State} {o c e : Nat} {ls : List Nat} (h : s.roundPick o c ls = some (e, t)) : t.modes = s.modes := by
  unfold State.roundPick at h
  dsimp only at h
  split at h
  · cases h
  · split at h
    · cases h
    · cases h
      simp

@[simp] theorem State.modes_chargePath (s : State) (o c l lc : Nat) : (s.chargePath o c l lc).modes = s.modes := by
  unfold State.chargePath
  dsimp only
  (repeat' split) <;> simp

@[simp] theorem State.modes_endShort (s : State) (o c : Nat) : (s.endShort o c).modes = s.modes := by
  unfold State.endShort
  dsimp only
  (repeat' split) <;> simp

@[simp] theorem State.modes_unqueue (s : State) (l : Nat) : (s.unqueue l).modes = s.modes := by
  simp [State.unqueue]

@[simp] theorem State.modes_nextSeq (s : State) (d c : Nat) : (s.nextSeq d c).2.modes = s.modes :=
  State.modes_congr rfl rfl rfl

@[simp] theorem State.modes_sendFabric (s : State) (l : Nat) (p : Pkt) : (s.sendFabric l p).modes = s.modes := by
  simp [State.sendFabric]

@[simp] theorem State.modes_deliver (s : State) (o c l : Nat) (p : Pkt) : (s.deliver o c l p).modes = s.modes := by
  unfold State.deliver
  dsimp only
  (repeat' split) <;> simp

@[simp] theorem modes_release (x : Choice) (o : Nat) (bad : List Nat) : (State.release x o bad).modes = x.state.modes := by
  unfold State.release
  dsimp only
  split
  · split
    · exact State.modes_exhaust ..
    · split <;> split <;> simp
  · rfl

@[simp] theorem State.modes_breachWhere (s : State) (l : Nat) (cause : Pkt → Option Nat) : (s.breachWhere l cause).modes = s.modes := by
  simp [State.breachWhere]

@[simp] theorem State.modes_linkBreaches (s : State) (n : Nat) : (s.linkBreaches n).modes = s.modes := by
  simp [State.linkBreaches]

@[simp] theorem State.modes_linkRises (s : State) (n : Nat) : (s.linkRises n).modes = s.modes := by
  simp [State.linkRises]

@[simp] theorem State.modes_moverRead (s : State) (req : HostReq) (ep addr len : Nat) (ns ro : Bool) : (s.moverRead req ep addr len ns ro).modes = s.modes := by
  simp [State.moverRead]

@[simp] theorem State.modes_setDma (s : State) (ready : List (Nat × List Byte)) (retries : Nat × Nat) : (s.setDma ready retries).modes = s.modes :=
  State.modes_congr rfl rfl rfl

@[simp] theorem State.modes_dmaFetch (s : State) : (s.dmaFetch).modes = s.modes := by
  simp [State.dmaFetch]

@[simp] theorem State.modes_dmaStop (s : State) (code : Nat) : (s.dmaStop code).modes = s.modes :=
  State.modes_congr rfl rfl rfl

@[simp] theorem State.modes_dmaDescriptorsIn (s : State) (data : List Byte) (poison : Bool) : (s.dmaDescriptorsIn data poison).modes = s.modes := by
  unfold State.dmaDescriptorsIn
  dsimp only
  (repeat' split) <;> simp

@[simp] theorem State.modes_dmaRereads (s : State) : (s.dmaRereads).modes = s.modes := by
  simp [State.dmaRereads]

@[simp] theorem State.modes_dmaCapture (s : State) (reason number : Nat) : (s.dmaCapture reason number).modes = s.modes := by
  simp [State.dmaCapture]

@[simp] theorem State.modes_dmaPulse (s : State) (d : List Byte) (error : Bool) : (s.dmaPulse d error).modes = s.modes := by
  simp [State.dmaPulse]

@[simp] theorem State.modes_setRuns (s : State) (l : List DmaRun) : (s.setRuns l).modes = s.modes :=
  State.modes_congr rfl rfl rfl

@[simp] theorem State.modes_dmaFarRead (s : State) (who a lines : Nat) : (s.dmaFarRead who a lines).modes = s.modes := by
  simp [State.dmaFarRead]

@[simp] theorem State.modes_putRun (s : State) (r : DmaRun) : (s.putRun r).modes = s.modes :=
  State.modes_congr rfl rfl rfl

@[simp] theorem State.modes_dmaIssued (s : State) (r : DmaRun) : (s.dmaIssued r).modes = s.modes := by
  simp [State.dmaIssued]

@[simp] theorem State.modes_dmaStart (s : State) : (s.dmaStart).modes = s.modes := by
  unfold State.dmaStart
  dsimp only
  (repeat' split) <;> simp

@[simp] theorem State.modes_dropGot (s : State) (who : Nat) : (s.dropGot who).modes = s.modes :=
  State.modes_congr rfl rfl rfl

@[simp] theorem State.modes_dmaWrite (s : State) (r : DmaRun) (off : Nat) (bytes : List Byte) (bad : Nat → Bool) : (s.dmaWrite r off bytes bad).modes = s.modes := by
  unfold State.dmaWrite
  dsimp only
  split <;> simp

@[simp] theorem State.modes_dmaTake (s : State) (r : DmaRun) (hs : List HostRead) (data : List Byte) (sts : List Nat) :
    (s.dmaTake r hs data sts).1.modes = s.modes := by
  induction hs generalizing s r data sts with
  | nil => rfl
  | cons h hs ih =>
    unfold State.dmaTake
    dsimp only
    rw [ih]
    split <;> split <;> simp

@[simp] theorem State.modes_dmaData (s : State) (r : DmaRun) (data : List Byte) (sts : List Nat) : (s.dmaData r data sts).modes = s.modes := by
  simp [State.dmaData]

@[simp] theorem State.modes_dmaLines (s : State) (r : DmaRun) : (s.dmaLines r).modes = s.modes := by
  simp [State.dmaLines]

@[simp] theorem State.modes_tellFailed (s : State) (req : HostReq) : (s.tellFailed req).modes = s.modes := by
  unfold State.tellFailed
  dsimp only
  (repeat' split) <;> simp

@[simp] theorem State.modes_requestFails (s : State) (r : HostRead) : (s.requestFails r).modes = s.modes := by
  simp [State.requestFails]

@[simp] theorem State.modes_perst (s : State) (ep : Nat) (level : Bool) : (s.perst ep level).modes = s.modes := by
  simp [State.perst]

@[simp] theorem State.modes_serveHost (s : State) : (s.serveHost).modes = s.modes := by
  simp [State.serveHost]

@[simp] theorem State.modes_parkCmd (s : State) (seq code : Nat) (wants : Bool) {body : Nat → State → State}
    (h : ∀ e t, (body e t).modes = t.modes) : (s.parkCmd seq code wants body).modes = s.modes := by
  refine State.modes_runCmd _ _ _ fun c t => ?_
  dsimp only
  split
  · exact State.modes_refuse ..
  · split
    · exact State.modes_refuse ..
    · split
      · exact State.modes_refuse ..
      · exact h ..

@[simp] theorem State.modes_expose (s : State) (seq : Nat) : (s.expose seq).modes = s.modes := by
  simp [State.expose]

@[simp] theorem State.modes_seal (s0 : State) (e0 : Exposure) (partly : Bool) : (s0.seal e0 partly).modes = s0.modes := by
  simp [State.seal]

@[simp] theorem State.modes_clearRegs (s : State) (wrapOnly : Bool) (offs : List Nat) : (s.clearRegs wrapOnly offs).modes = s.modes := by
  simp [State.clearRegs]

@[simp] theorem State.modes_clearPairs (s : State) (wrapOnly : Bool) (first n : Nat) : (s.clearPairs wrapOnly first n).modes = s.modes :=
  State.modes_congr rfl rfl rfl

theorem State.modes_clearScope {s t : State} {c : OpenCmd} {n : Nat} (h : s.clearScope c = some (t, n)) : t.modes = s.modes := by
  unfold State.clearScope at h
  dsimp only at h
  split at h
  · split at h <;> simp only [reduceCtorEq, Option.some.injEq, Prod.mk.injEq] at h
    exact h.1 ▸ State.modes_clearPairs ..
  · split at h <;> simp only [reduceCtorEq, Option.some.injEq, Prod.mk.injEq] at h
    exact h.1 ▸ State.modes_clearRegs ..
  · simp only [Option.some.injEq, Prod.mk.injEq] at h
    exact h.1 ▸ State.modes_clearRegs ..
  · simp only [Option.some.injEq, Prod.mk.injEq] at h
    exact h.1 ▸ (State.modes_clearPairs ..).trans (State.modes_clearRegs ..)
  · cases h

@[simp] theorem State.modes_exportWords (s : State) (kind : Nat) (words : List Nat) : (s.exportWords kind words).modes = s.modes :=
  State.modes_congr rfl rfl rfl

@[simp] theorem State.modes_popLoupe (s : State) : (s.popLoupe).modes = s.modes :=
  State.modes_congr rfl rfl rfl

@[simp] theorem State.modes_popBreach (s : State) : (s.popBreach).modes = s.modes :=
  State.modes_congr rfl rfl rfl

@[simp] theorem State.modes_ringWrite (s : State) (k off : Nat) (bytes : List Byte) : (s.ringWrite k off bytes).modes = s.modes :=
  State.modes_congr rfl rfl rfl

@[simp] theorem State.modes_captured (s : State) (k frame : Nat) (p : Pkt) : (s.captured k frame p).modes = s.modes := by
  simp [State.captured]

@[simp] theorem State.modes_captureNext (s : State) (written : Bool) : (s.captureNext written).modes = s.modes := by
  unfold State.captureNext
  dsimp only
  split <;> simp

@[simp] theorem State.modes_beginPlan (s : State) (p : Nat) : (s.beginPlan p).modes = s.modes :=
  State.modes_congr rfl rfl rfl

@[simp] theorem State.modes_destroy (s : State) (u : Nat) : (s.destroy u).modes = s.modes :=
  State.modes_congr rfl rfl rfl

@[simp] theorem State.modes_putSave (s : State) (v : UnitSave) : (s.putSave v).modes = s.modes :=
  State.modes_congr rfl rfl rfl

@[simp] theorem State.modes_restoreUnit (s : State) (u : Nat) (whole : Bool) : (s.restoreUnit u whole).modes = s.modes := by
  simp [State.restoreUnit]

@[simp] theorem State.modes_emptyMemories (s : State) : (s.emptyMemories).modes = s.modes :=
  State.modes_congr rfl rfl rfl

@[simp] theorem State.modes_beginUnit (s : State) (u : Nat) : (s.beginUnit u).modes = s.modes := by
  simp [State.beginUnit]

@[simp] theorem State.modes_setGroup (s : State) (g : Nat) (us : List Nat) : (s.setGroup g us).modes = s.modes := by
  unfold State.setGroup
  dsimp only
  split <;> simp

@[simp] theorem State.modes_unitDone (s : State) (g sig : Nat) (restored : Bool) : (s.unitDone g sig restored).modes = s.modes := by
  unfold State.unitDone
  dsimp only
  split <;> simp

@[simp] theorem State.modes_endSelfTest (s : State) : (s.endSelfTest).modes = s.modes := by
  simp [State.endSelfTest]

@[simp] theorem State.modes_drainIris (s : State) (i : Nat) : (s.drainIris i).modes = s.modes := by
  simp [State.drainIris]

@[simp] theorem State.modes_openWindow (s : State) : (s.openWindow).modes = s.modes := by
  simp [State.openWindow]

@[simp] theorem State.modes_restoreIris (s : State) (i : Nat) (enabled : Bool) : (s.restoreIris i enabled).modes = s.modes := by
  simp [State.restoreIris]

@[simp] theorem State.modes_closeWindow (s : State) : (s.closeWindow).modes = s.modes := by
  simp [State.closeWindow]

@[simp] theorem State.modes_startPlan (s : State) (p : Nat) : (s.startPlan p).modes = s.modes := by
  simp [State.startPlan]

@[simp] theorem State.modes_bistCtrl (s : State) (v : Nat) : (s.bistCtrl v).1.modes = s.modes := by
  simp [State.bistCtrl]

@[simp] theorem State.modes_resetField (s : State) (off lo : Nat) : (s.resetField off lo).modes = s.modes := by
  unfold State.resetField
  split
  · exact State.modes_set ..
  · rfl

@[simp] theorem State.modes_unloadFields (s : State) : (s.unloadFields).modes = s.modes := by
  simp [State.unloadFields]

@[simp] theorem State.modes_lowerRails (s : State) : (s.lowerRails).modes = s.modes :=
  State.modes_congr rfl rfl rfl

@[simp] theorem State.modes_startRails (s : State) : (s.startRails).modes = s.modes := by
  simp [State.startRails]

@[simp] theorem State.modes_groupGood (s : State) (g : Nat) : (s.groupGood g).modes = s.modes := by
  simp [State.groupGood]

@[simp] theorem State.modes_groupFail (s : State) (g good : Nat) : (s.groupFail g good).modes = s.modes := by
  simp [State.groupFail]

@[simp] theorem State.modes_sampleStraps (s : State) : (s.sampleStraps).modes = s.modes :=
  State.modes_congr rfl rfl rfl

@[simp] theorem State.modes_closeEntry (s : State) (cause : Nat) : (s.closeEntry cause).modes = s.modes := by
  simp [State.closeEntry]

@[simp] theorem State.modes_keeperMv (s : State) (mainMv auxMv : Nat) : (s.keeperMv mainMv auxMv).modes = s.modes :=
  State.modes_congr rfl rfl rfl

@[simp] theorem State.modes_mainTimer (s : State) : (s.mainTimer).modes = s.modes :=
  State.modes_congr rfl rfl rfl

@[simp] theorem State.modes_keeperSwitch (s : State) (mainMv auxMv : Nat) : (s.keeperSwitch mainMv auxMv).modes = s.modes := by
  simp [State.keeperSwitch]

@[simp] theorem State.modes_returnMain (s : State) (mainMv auxMv dip : Nat) : (s.returnMain mainMv auxMv dip).modes = s.modes := by
  simp [State.returnMain]

@[simp] theorem State.modes_modeRequest (s : State) (seq op : Nat) : (s.modeRequest seq op).modes = s.modes := by
  simp [State.modeRequest]

@[simp] theorem State.modes_voidReads (s : State) (p : HostReq → Bool) : (s.voidReads p).modes = s.modes :=
  State.modes_congr rfl rfl rfl

@[simp] theorem State.modes_ringStarts (s : State) (off : Nat) : (s.ringStarts off).modes = s.modes := by
  simp [State.ringStarts]

@[simp] theorem State.modes_ringStops (s : State) (off : Nat) : (s.ringStops off).modes = s.modes := by
  simp [State.ringStops]

@[simp] theorem State.modes_msecMoved (s : State) (n : Nat) (old : Nat) : (s.msecMoved n old).modes = s.modes := by
  simp [State.msecMoved]

@[simp] theorem State.modes_probe (s : State) : s.probe.modes = s.modes := by
  unfold State.probe
  split
  · rw [State.modes_setWord, State.modes_setBit, State.modes_setBit]
  · exact State.modes_setBit ..

@[simp] theorem State.modes_written (s : State) (off old v : Nat) : (s.written off old v).modes = s.modes := by
  unfold State.written
  dsimp only
  (repeat' split) <;> simp

@[simp] theorem State.modes_storeWord (s : State) (src : HostSrc) (off v : Nat) (fs : List WField) : (s.storeWord src off v fs).modes = s.modes := by
  simp [State.storeWord]

@[simp] theorem State.modes_heldWrite (s : State) (src : HostSrc) (off v : Nat) (fs : List WField) (l : Loc) : (s.heldWrite src off v fs l).modes = s.modes := by
  simp [State.heldWrite]

@[simp] theorem State.modes_msaRun (s : State) : (s.msaRun).modes = s.modes := by
  unfold State.msaRun
  dsimp only
  (repeat' split) <;> simp

@[simp] theorem State.modes_clearFaults (s : State) (w v : Nat) : (s.clearFaults w v).modes = s.modes := by
  simp [State.clearFaults]

@[simp] theorem State.modes_forceFaults (s : State) (w v : Nat) : (s.forceFaults w v).modes = s.modes := by
  simp [State.forceFaults]

@[simp] theorem State.modes_dmaDoorbell (s : State) (v : Nat) : (s.dmaDoorbell v).modes = s.modes := by
  unfold State.dmaDoorbell
  dsimp only
  (repeat' split) <;> simp

@[simp] theorem State.modes_slotWord (s : State) (src : HostSrc) (off v : Nat) : (s.slotWord src off v).modes = s.modes := by
  simp [State.slotWord]

@[simp] theorem State.modes_bar2Word (s : State) (src : HostSrc) (off v : Nat) : (s.bar2Word src off v).modes = s.modes := by
  simp [State.bar2Word]

@[simp] theorem State.modes_tickTime (s : State) : (s.tickTime).modes = s.modes :=
  State.modes_congr rfl rfl rfl

@[simp] theorem State.modes_tickDay (s : State) : s.tickDay.modes = s.modes := by
  unfold State.tickDay
  dsimp only
  split
  · exact State.modes_congr rfl rfl rfl
  · exact (State.modes_wrap ..).trans (State.modes_congr rfl rfl rfl)

@[simp] theorem State.modes_tickStep (s : State) : (s.tickStep).modes = s.modes := by
  simp [State.tickStep]

@[simp] theorem State.modes_tick (s : State) : (s.tick).modes = s.modes := by
  simp [State.tick]

@[simp] theorem State.modes_flood (s : State) (but : Option Nat) (payload : List Byte) : (s.flood but payload).modes = s.modes := by
  simp [State.flood]

@[simp] theorem State.modes_storeAdvert (s : State) (a : Advert) : (s.storeAdvert a).modes = s.modes :=
  State.modes_congr rfl rfl rfl

@[simp] theorem State.modes_advertise (s : State) : (s.advertise).modes = s.modes := by
  simp [State.advertise]

@[simp] theorem State.modes_restartStreams (s : State) (d : Nat) : (s.restartStreams d).modes = s.modes := by
  simp [State.restartStreams]

@[simp] theorem State.modes_restartAll (s : State) : (s.restartAll).modes = s.modes := by
  simp [State.restartAll]

@[simp] theorem State.modes_setAddress (s : State) (state addr : Nat) (claimed : Bool) : (s.setAddress state addr claimed).modes = s.modes := by
  simp [State.setAddress]

@[simp] theorem State.modes_claim (s : State) : s.claim.modes = s.modes := by
  unfold State.claim
  split
  · exact State.modes_setAddress ..
  · exact (State.modes_setAddress s 1 _ false :)

@[simp] theorem State.modes_conflict (s : State) (a : Advert) : (s.conflict a).modes = s.modes := by
  simp [State.conflict]

@[simp] theorem State.modes_fragmentIn (s : State) (i : Nat) (a : Advert) (pl : List Byte) : (s.fragmentIn i a pl).modes = s.modes := by
  unfold State.fragmentIn
  dsimp only
  split <;> simp

@[simp] theorem State.modes_advertIn (s : State) (i : Nat) (pl : List Byte) : (s.advertIn i pl).modes = s.modes := by
  simp [State.advertIn]

@[simp] theorem State.modes_fabAddress (s : State) (seq op : Nat) {body : OpenCmd → State → State} (h : ∀ c t, (body c t).modes = t.modes) :
    (s.fabAddress seq op body).modes = s.modes := by
  refine State.modes_runCmd _ _ _ fun c t => ?_
  dsimp only
  split
  · rfl
  · split
    · exact State.modes_refuse ..
    · exact h ..

@[simp] theorem State.modes_routeTo (s : State) (adj : List (Nat × List Nat)) (mine links : List (Nat × Nat)) (d : Nat) : (s.routeTo adj mine links d).modes = s.modes := by
  simp [State.routeTo]

@[simp] theorem State.modes_timeRole (s : State) (adj : List (Nat × List Nat)) (mine links : List (Nat × Nat)) : (s.timeRole adj mine links).modes = s.modes := by
  unfold State.timeRole
  dsimp only
  (repeat' split) <;> simp

@[simp] theorem State.modes_routes (s : State) : (s.routes).modes = s.modes := by
  simp [State.routes]

@[simp] theorem State.modes_exchange (s : State) (offset : Int) (absolute : Nat) : (s.exchange offset absolute).modes = s.modes := by
  simp [State.exchange]

@[simp] theorem State.modes_fetchWord (s : State) (f b a : Nat) : (s.fetchWord f b a).2.modes = s.modes := by
  unfold State.fetchWord
  dsimp only
  split <;> simp

@[simp] theorem State.modes_badWord (s : State) (f : Nat) : (s.badWord f).modes = s.modes := by
  simp [State.badWord]

@[simp] theorem State.modes_captureExc (s : State) (f cause b sp addr orig : Nat) : (s.captureExc f cause b sp addr orig).modes = s.modes := by
  simp [State.captureExc]

@[simp] theorem State.modes_guardMiss (s : State) (k i : Nat) (p : Pkt) (f : Flight) (m : Nat) : (s.guardMiss k i p f m).modes = s.modes := by
  simp [State.guardMiss]

@[simp] theorem State.modes_pipeException (s : State) (k i : Nat) (p : Pkt) (f : Flight) (cause addr : Nat) : (s.pipeException k i p f cause addr).modes = s.modes := by
  simp [State.pipeException]

@[simp] theorem State.modes_edgeDrop (s : State) (k i : Nat) (p : Pkt) : (s.edgeDrop k i p).modes = s.modes := by
  simp [State.edgeDrop]

@[simp] theorem State.modes_learnRead (s : State) (j key : Nat) (v : Vect) : (s.learnRead j key v).2.modes = s.modes := by
  simp [State.learnRead]

@[simp] theorem State.modes_blockedRead (s : State) (p : Nat) : (s.blockedRead p).2.modes = s.modes :=
  State.modes_congr rfl rfl rfl

@[simp] theorem State.modes_readAt (s : State) (p k j key ver rep lk : Nat) (who : Nat) : (s.readAt p k j key ver rep lk who).2.modes = s.modes := by
  unfold State.readAt
  dsimp only
  (repeat' split) <;> simp

@[simp] theorem State.modes_tableLook (s : State) (p k j key ver : Nat) (win : Nat) (st who : Nat) : (s.tableLook p k j key ver win st who).2.modes = s.modes := by
  unfold State.tableLook
  dsimp only
  (repeat' split) <;> simp

@[simp] theorem State.modes_meterLook (s : State) (e len : Nat) : (s.meterLook e len).2.modes = s.modes :=
  State.modes_congr rfl rfl rfl

@[simp] theorem State.modes_answerLook (s : State) (p port j keyAddr win ver who : Nat) (v : Vect) : (s.answerLook p port j keyAddr win ver who v).2.modes = s.modes := by
  unfold State.answerLook
  dsimp only
  (repeat' split) <;> simp

@[simp] theorem State.modes_issueLook (s : State) (k b age ver m : Nat) (w : Work) : (s.issueLook k b age ver m w).1.modes = s.modes := by
  unfold State.issueLook
  dsimp only
  split <;> simp

@[simp] theorem State.modes_meterCharge (s : State) (e len : Nat) : (s.meterCharge e len).modes = s.modes :=
  State.modes_congr rfl rfl rfl

@[simp] theorem State.modes_cntIndex (s : State) (j : Nat) (v : Vect) : (s.cntIndex j v).2.modes = s.modes := by
  unfold State.cntIndex
  split
  case h_8 => exact State.modes_draw _
  all_goals rfl

@[simp] theorem State.modes_cntUpdate (s : State) (v : Vect) (t m : Nat) : (s.cntUpdate v t m).modes = s.modes := by
  simp [State.cntUpdate]

@[simp] theorem State.modes_postSamples (s : State) (u : Nat) (l : List Sample) : (s.postSamples u l).modes = s.modes := by
  simp [State.postSamples]

@[simp] theorem State.modes_endWord (s : State) (k i : Nat) (p : Pkt) (f : Flight) (r : WordRun) (open_ : Bool) : (s.endWord k i p f r open_).1.modes = s.modes := by
  unfold State.endWord
  dsimp only
  split <;> simp

@[simp] theorem State.modes_issueWord (s : State) (k i : Nat) (p : Pkt) (f : Flight) (open_ : Bool) : (s.issueWord k i p f open_).s.modes = s.modes := by
  have hfetch := s.modes_fetchWord (30 * k + i) f.bank f.work.upc
  unfold State.issueWord
  extract_lets a
  split <;> rename_i h <;> rw [h] at hfetch
  · exact (State.modes_badWord ..).trans ((State.modes_pipeException ..).trans hfetch)
  · rename_i m s1
    split
    · exact (State.modes_pipeException ..).trans hfetch
    · split
      · split
        · exact (State.modes_pipeException ..).trans hfetch
        · exact (State.modes_guardMiss ..).trans hfetch
      · extract_lets holds x w smp
        have hx : x.1.modes = s.modes := by
          unfold x
          split
          · exact (State.modes_issueLook ..).trans ((State.modes_cntUpdate ..).trans hfetch)
          · exact hfetch
        split
        · exact (State.modes_edgeDrop ..).trans hfetch
        · split
          · split
            · exact (State.modes_endWord ..).trans hx
            · exact hx
          · exact hx

@[simp] theorem State.modes_facetStep (s : State) (k i j : Nat) (p : Pkt) (f : Flight) (open_ : Bool) : (s.facetStep k i j p f open_).s.modes = s.modes := by
  unfold State.facetStep
  split
  · exact State.modes_verdictDrop ..
  · extract_lets g
    split
    · dsimp only
      split
      · exact State.modes_endWord ..
      · rfl
    · split
      · rfl
      · exact State.modes_issueWord ..

@[simp] theorem State.modes_deepCheck (s : State) (k i : Nat) (p : Pkt) (r : Stepped) : (s.deepCheck k i p r).s.modes = r.s.modes := by
  unfold State.deepCheck
  dsimp only
  split
  · exact (State.modes_countAt ..).trans ((State.modes_divert ..).trans (State.modes_copies ..))
  · rfl

@[simp] theorem State.modes_packetStep (s : State) (k : Nat) (p : Pkt) (f : Flight) (open_ : Bool) : (s.packetStep k p f open_).s.modes = s.modes := by
  unfold State.packetStep
  extract_lets g
  split
  · have htake := s.modes_takeVerdict k p g.work.vec g.work.verdict
    split <;> rename_i h <;> rw [h] at htake <;> exact htake
  · split
    · dsimp only
      split
      · exact (State.modes_deepCheck ..).trans (State.modes_facetStep ..)
      · exact State.modes_facetStep ..
    · rfl

@[simp] theorem State.modes_leaveSlot (s : State) (k : Nat) (f : Flight) : (s.leaveSlot k f).modes = s.modes := by
  unfold State.leaveSlot
  dsimp only
  split <;> simp

@[simp] theorem State.modes_slotStep (s : State) (k : Nat) (f : Flight) (open_ : Bool) : (s.slotStep k f open_).1.modes = s.modes := by
  unfold State.slotStep
  split
  · exact State.modes_leaveSlot ..
  · split
    · split
      · rfl
      · exact State.modes_packetStep ..
    · rfl

@[simp] theorem State.modes_slotSteps (s : State) (k : Nat) (open_ : Bool) (fs : List Flight) : (s.slotSteps k open_ fs).1.modes = s.modes := by
  induction fs generalizing s with
  | nil => rfl
  | cons f fs ih => exact (ih _).trans (State.modes_slotStep ..)

@[simp] theorem State.modes_enterSlot (s : State) (k : Nat) : (s.enterSlot k).1.modes = s.modes := by
  unfold State.enterSlot
  dsimp only
  split <;> simp

@[simp] theorem State.modes_beginWait (s : State) (k : Nat) : (s.beginWait k).modes = s.modes := by
  simp [State.beginWait]

@[simp] theorem State.modes_endStall (s : State) (k : Nat) : (s.endStall k).modes = s.modes := by
  unfold State.endStall
  dsimp only
  split <;> simp

@[simp] theorem State.modes_advancePrism (s : State) (k : Nat) (open_ : Bool) : (s.advancePrism k open_).modes = s.modes := by
  unfold State.advancePrism
  dsimp only
  rw [State.modes_postSamples, State.modes_setPrism, State.modes_slotSteps]
  split
  · exact (State.modes_enterSlot ..).trans (State.modes_setPrism ..)
  · exact State.modes_setPrism ..

@[simp] theorem State.modes_prismStep (s0 : State) (k : Nat) (late : Bool) : (s0.prismStep k late).modes = s0.modes := by
  unfold State.prismStep
  dsimp only
  (repeat' split) <;> simp

@[simp] theorem State.modes_nextSegment (s : State) (id : Nat) : (s.nextSegment id).modes = s.modes :=
  State.modes_congr rfl rfl rfl

@[simp] theorem State.modes_takeOut (s : State) (k id : Nat) : (s.takeOut k id).modes = s.modes :=
  State.modes_congr rfl rfl rfl

@[simp] theorem State.modes_cutOut (s : State) (k id : Nat) : (s.cutOut k id).modes = s.modes := by
  simp [State.cutOut]

@[simp] theorem State.modes_windowDone (s : State) (k id status : Nat) (data : List Byte) : (s.windowDone k id status data).modes = s.modes := by
  unfold State.windowDone
  dsimp only
  split <;> simp

@[simp] theorem State.modes_farDone (s : State) (f id status latency : Nat) (data : List Byte) : (s.farDone f id status latency data).modes = s.modes := by
  unfold State.farDone
  dsimp only
  (repeat' split) <;> simp

@[simp] theorem State.modes_discardSpills (s : State) (f : Nat) : (s.discardSpills f).modes = s.modes := by
  refine foldl_keeps (g := State.modes) (fun t e => (State.modes_setLeafQ ..).trans ?_) _ s
  refine foldl_keeps (g := fun x : State × List Pkt => x.1.modes) (fun x p => ?_) _ (t, [])
  dsimp only
  split
  · exact State.modes_cancelSpill ..
  · rfl

@[simp] theorem State.modes_failExtents (s : State) (f : Nat) : (s.failExtents f).modes = s.modes :=
  State.modes_congr rfl rfl rfl

@[simp] theorem State.modes_farDown (s : State) (f : Nat) : (s.farDown f).modes = s.modes := by
  simp [State.farDown]

@[simp] theorem State.modes_scrubForward (s : State) (g line : Nat) : (s.scrubForward g line).modes = s.modes := by
  unfold State.scrubForward
  dsimp only
  split <;> simp

@[simp] theorem State.modes_scrubPass (s : State) (g : Nat) : (s.scrubPass g).modes = s.modes := by
  simp [State.scrubPass]

@[simp] theorem State.modes_scrub (s : State) (q line errors : Nat) : (s.scrub q line errors).modes = s.modes := by
  unfold State.scrub
  dsimp only
  split <;> simp

@[simp] theorem State.modes_syncService (s : State) (sf : Nat) : (s.syncService sf).modes = s.modes := by
  unfold State.syncService
  dsimp only
  split <;> simp

@[simp] theorem State.modes_startBest (s : State) (sf : Nat) : (s.startBest sf).modes = s.modes := by
  unfold State.startBest
  dsimp only
  split <;> simp

@[simp] theorem State.modes_resume (s : State) (sf : Nat) : (s.resume sf).modes = s.modes := by
  unfold State.resume
  dsimp only
  split <;> simp

@[simp] theorem State.modes_serviceFar (s : State) (a : Nat) : (s.serviceFar a).2.modes = s.modes := by
  simp [State.serviceFar]

@[simp] theorem State.modes_serviceHbm (s : State) (sf j key lk : Nat) : (s.serviceHbm sf j key lk).2.modes = s.modes := by
  simp [State.serviceHbm]

@[simp] theorem State.modes_serviceLook (s : State) (sf : Nat) (i : Item) (m : Nat) : (s.serviceLook sf i m).2.modes = s.modes := by
  unfold State.serviceLook
  dsimp only
  (repeat' split) <;> simp

@[simp] theorem State.modes_serviceIssue (s : State) (sf : Nat) (i : Item) (m : Nat) : (s.serviceIssue sf i m).1.modes = s.modes := by
  unfold State.serviceIssue
  dsimp only
  split <;> simp

@[simp] theorem State.modes_setRunning (s : State) (sf : Nat) (i : Item) : (s.setRunning sf i).modes = s.modes :=
  State.modes_congr rfl rfl rfl

@[simp] theorem State.modes_returnQueue (s : State) (sf : Nat) : (s.returnQueue sf).modes = s.modes :=
  State.modes_congr rfl rfl rfl

@[simp] theorem State.modes_parkService (s : State) (sf : Nat) : (s.parkService sf).modes = s.modes :=
  State.modes_congr rfl rfl rfl

@[simp] theorem State.modes_serviceException (s : State) (sf : Nat) (i : Item) (cause addr : Nat) : (s.serviceException sf i cause addr).modes = s.modes := by
  simp [State.serviceException]

@[simp] theorem State.modes_itemDone (s : State) (sf : Nat) (i : Item) : (s.itemDone sf i).modes = s.modes := by
  unfold State.itemDone
  extract_lets v s1 s2
  have h1 : s1.modes = s.modes := State.modes_setService ..
  have h2 : s2.modes = s.modes := by
    unfold s2
    split
    · rename_i p _
      have htake := s1.modes_takeVerdict i.origin p i.work.vec i.work.verdict
      split <;> rename_i h <;> rw [h] at htake
      · exact (State.modes_handOver ..).trans (htake.trans h1)
      · exact htake.trans h1
    · exact h1
  exact (State.modes_drainCheck ..).trans ((State.modes_resume ..).trans h2)

@[simp] theorem State.modes_serviceSample (s : State) (sf : Nat) (i : Item) (m : Nat) : (s.serviceSample sf i m).modes = s.modes := by
  simp [State.serviceSample]

@[simp] theorem State.modes_runWord (s : State) (sf : Nat) (i : Item) (m : Nat) : (s.runWord sf i m).modes = s.modes := by
  unfold State.runWord
  dsimp only
  (repeat' split) <;> simp

@[simp] theorem State.modes_serviceStep (s : State) (sf : Nat) : (s.serviceStep sf).modes = s.modes := by
  unfold State.serviceStep
  dsimp only
  split
  · rfl
  · rename_i i _
    have hfetch := s.modes_fetchWord (svcFacet sf) i.bank i.work.upc
    split <;> rename_i h <;> rw [h] at hfetch
    · exact (State.modes_badWord ..).trans ((State.modes_serviceException ..).trans hfetch)
    · split
      · exact (State.modes_startBest ..).trans hfetch
      · split
        · exact (State.modes_serviceException ..).trans hfetch
        · split
          · exact (State.modes_setService ..).trans hfetch
          · exact (State.modes_runWord ..).trans hfetch

@[simp] theorem State.modes_blockOut (s : State) (b : Nat) : (s.blockOut b).modes = s.modes :=
  State.modes_congr rfl rfl rfl

@[simp] theorem State.modes_resetPrism (s : State) (k : Nat) : (s.resetPrism k).modes = s.modes := by
  simp [State.resetPrism]

@[simp] theorem State.modes_loseItem (s : State) (sf : Nat) (i : Item) : (s.loseItem sf i).modes = s.modes := by
  unfold State.loseItem
  split
  · split
    · exact State.modes_finish ..
    · rfl
  · exact (State.modes_flush ..).trans (State.modes_dropPkt ..)
  · exact State.modes_sat ..

@[simp] theorem State.modes_resetService (s : State) (sf : Nat) : (s.resetService sf).modes = s.modes := by
  unfold State.resetService
  dsimp only
  rw [State.modes_startBest, State.modes_drainCheck, foldl_keeps (g := State.modes) fun t i => State.modes_loseItem .., State.modes_setService]

@[simp] theorem State.modes_bankEdges (s : State) (b : Nat) : (s.bankEdges b).modes = s.modes := by
  simp [State.bankEdges]

@[simp] theorem State.modes_schedRegs (s : State) : (s.schedRegs).modes = s.modes := by
  simp [State.schedRegs]

@[simp] theorem State.modes_clearBank (s : State) (b : Nat) : (s.clearBank b).modes = s.modes :=
  State.modes_congr rfl rfl rfl

@[simp] theorem State.modes_putWord (s : State) (f b a w : Nat) : (s.putWord f b a w).modes = s.modes :=
  State.modes_congr rfl rfl rfl

@[simp] theorem State.modes_putFacet (s : State) (sec : List Byte) (f b off pool : Nat) : (s.putFacet sec f b off pool).modes = s.modes := by
  simp [State.putFacet]

@[simp] theorem State.modes_putPrismRec (s : State) (sec : List Byte) (p b off pool : Nat) : (s.putPrismRec sec p b off pool).modes = s.modes := by
  simp [State.putPrismRec]

@[simp] theorem State.modes_putSection (s : State) (sec : List Byte) (b : Nat) : (s.putSection sec b).modes = s.modes := by
  simp [State.putSection]

@[simp] theorem State.modes_copyBank (s : State) (b : Nat) : (s.copyBank b).modes = s.modes := by
  simp [State.copyBank]

@[simp] theorem State.modes_patchWord (s : State) (f b a w : Nat) : (s.patchWord f b a w).modes = s.modes := by
  simp [State.patchWord]

@[simp] theorem State.modes_putPatch (s : State) (patch : List Byte) (b : Nat) : (s.putPatch patch b).modes = s.modes := by
  simp [State.putPatch]

theorem State.modes_allocLines {s u : State} {t tier n c : Nat} (h : s.allocLines t tier n = some (c, u)) : u.modes = s.modes := by
  unfold State.allocLines at h
  dsimp only at h
  split at h
  · cases h
  · cases h
    rfl

theorem modes_buildNode {t : Nat} {ps : List Prefix} {levels : List (Nat × Nat)} {old lo bits line : Nat} {s u : State}
    (h : buildNode t ps levels old lo bits s = some (line, u)) : u.modes = s.modes := by
  induction levels generalizing old lo bits line s u with
  | nil =>
    cases h
    rfl
  | cons level levels ih =>
    unfold buildNode at h
    split at h
    · cases h
      rfl
    · split at h
      · cases h
      · dsimp only at h
        split at h
        · cases h
        · rename_i ls v hkids
          have hv : v.modes = s.modes := by
            refine foldl_some_keeps (g := State.modes) (fun _ => rfl) (fun x i y hy => ?_) _ hkids
            dsimp only at hy
            split at hy
            · rename_i hkid
              cases hy
              exact ih hkid
            · cases hy
          split at h
          · cases h
            exact hv
          · split at h
            · cases h
            · rename_i hlines
              cases h
              exact (foldl_keeps (fun w i => w.modes_setTline ..) _ _).trans ((State.modes_allocLines hlines).trans hv)

theorem State.modes_rewriteBelow {t : Nat} {ps : List Prefix} {levels : List (Nat × Nat)} {k lo bits : Nat} {s u : State}
    (h : State.rewriteBelow t ps levels k lo bits s = some u) : u.modes = s.modes := by
  induction levels generalizing k lo bits s u with
  | nil =>
    cases h
    exact ite_keeps rfl (s.modes_setTline ..)
  | cons level levels ih =>
    have hhere : ∀ {x : Option (Nat × State)} {v : State}, x = buildNode t ps (level :: levels) (nodeOrLeaf (s.tline k)) lo bits s →
        (match x with
          | some (line, w) => some (if line = nodeOrLeaf (s.tline k) then s else w.setTline k line)
          | none => none) = some v → v.modes = s.modes := by
      intro x v hx hv
      split at hv
      · cases hv
        exact ite_keeps rfl ((State.modes_setTline ..).trans (modes_buildNode hx.symm))
      · cases hv
    unfold State.rewriteBelow at h
    dsimp only at h
    split at h
    · exact hhere rfl h
    · split at h
      · cases h
      · split at h
        · split at h
          · cases h
            rfl
          · split at h
            · exact ih h
            · exact hhere rfl h
          · exact hhere rfl h
        · exact hhere rfl h

theorem State.modes_rebuildRoot {s u : State} {t i : Nat} {old : List Nat} (h : s.rebuildRoot t i = some (old, u)) : u.modes = s.modes := by
  unfold State.rebuildRoot at h
  dsimp only at h
  split at h
  · rename_i hroot
    cases h
    exact State.modes_rewriteBelow hroot
  · cases h

theorem State.modes_rebuild {s u : State} {t : Nat} {p : Prefix} (h : s.rebuild t p = some u) : u.modes = s.modes := by
  have hroots : ∀ {y}, ((s.rootsOf t p).foldl (fun (acc : Option (List Nat × State)) i =>
      match acc with
      | none => none
      | some (old, v) =>
        match v.rebuildRoot t i with
        | some (o, w) => some (old ++ o, w)
        | none => none) (some ([], s))) = some y → y.2.modes = s.modes := by
    intro y hy
    refine foldl_some_keeps (g := State.modes) (fun _ => rfl) (fun x i z hz => ?_) _ hy
    dsimp only at hz
    split at hz
    · rename_i hroot
      cases hz
      exact State.modes_rebuildRoot hroot
    · cases hz
  unfold State.rebuild at h
  dsimp only at h
  split at h
  · cases h
  · rename_i hfold
    cases h
    exact hroots hfold
  · rename_i v _ hfold
    split at h
    · cases h
      exact hroots hfold
    · have hround := v.modes_startRound (List.range 16) false
      generalize v.startRound (List.range 16) false = round at h hround
      cases h
      exact hround.trans (hroots hfold)

@[simp] theorem State.modes_countPrefixes (s : State) (t : Nat) (was now : Nat) : (s.countPrefixes t was now).modes = s.modes :=
  State.modes_congr rfl rfl rfl

@[simp] theorem State.modes_prefixTraffic (s : State) (ps : List Prefix) (p : Prefix) : (s.prefixTraffic ps p).modes = s.modes := by
  simp [State.prefixTraffic]

theorem State.modes_changePrefix {s u : State} {t : Nat} {p : Prefix} (h : s.changePrefix t p = .inr u) : u.modes = s.modes := by
  unfold State.changePrefix at h
  dsimp only at h
  split at h
  · cases h
  · split at h
    · cases h
    · split at h
      · cases h
      · rename_i hbuilt
        cases h
        exact (State.modes_prefixTraffic ..).trans ((State.modes_countPrefixes ..).trans ((State.modes_rebuild hbuilt).trans (State.modes_tbl ..)))

@[simp] theorem State.modes_sweepTries (s : State) (fp : Prefix → Prefix) (fl : Nat → Nat) : (s.sweepTries fp fl).modes = s.modes := by
  simp [State.sweepTries]

@[simp] theorem State.modes_putEntry (s : State) (t b w : Nat) (e : Entry) : (s.putEntry t b w e).modes = s.modes := by
  simp [State.putEntry]

@[simp] theorem State.modes_putHit (s : State) (t b w : Nat) (hit : Bool) : (s.putHit t b w hit).modes = s.modes := by
  simp [State.putHit]

@[simp] theorem State.modes_forgetEntry (s : State) (t b w : Nat) : (s.forgetEntry t b w).modes = s.modes :=
  State.modes_congr rfl rfl rfl

@[simp] theorem State.modes_clearEntry (s : State) (t b w : Nat) : (s.clearEntry t b w).modes = s.modes := by
  simp [State.clearEntry]

theorem State.modes_fillWay {s u : State} {t b w : Nat} {e : Entry} (h : s.fillWay t b w e = some u) : u.modes = s.modes := by
  unfold State.fillWay at h
  split at h
  · split at h
    · cases h
      exact (State.modes_setTline ..).trans (State.modes_setTline ..)
    · cases h
  · cases h
    exact State.modes_setTline ..

@[simp] theorem State.modes_moveMarks (s : State) (t b w b1 w1 : Nat) : (s.moveMarks t b w b1 w1).modes = s.modes :=
  State.modes_congr rfl rfl rfl

@[simp] theorem State.modes_moveEntry (s0 : State) (t b w b1 w1 : Nat) : (s0.moveEntry t b w b1 w1).modes = s0.modes := by
  simp [State.moveEntry]

@[simp] theorem State.modes_runChain (s : State) (t : Nat) (path : List (Nat × Nat)) (dst : Nat) : (s.runChain t path dst).modes = s.modes := by
  induction path generalizing s dst with
  | nil => rfl
  | cons x path ih =>
    unfold State.runChain
    split
    · exact (ih _ _).trans (State.modes_moveEntry ..)
    · rfl

theorem State.modes_insertEntry {s u : State} {t : Nat} {e : Entry} (h : s.insertEntry t e = some u) : u.modes = s.modes := by
  unfold State.insertEntry at h
  dsimp only at h
  split at h
  · rename_i b w v hplace
    have hv : v.modes = s.modes := by
      split at hplace
      · cases hplace
        rfl
      · cases hplace
        rfl
      · split at hplace
        · obtain ⟨x, -, hx⟩ := Option.map_eq_some_iff.mp hplace
          cases hx
          exact s.modes_runChain ..
        · cases hplace
    obtain ⟨y, hy, rfl⟩ := Option.map_eq_some_iff.mp h
    exact (State.modes_set ..).trans ((State.modes_fillWay hy).trans hv)
  · cases h

@[simp] theorem State.modes_learnOne (s : State) (e : LearnEvent) : (s.learnOne e).modes = s.modes := by
  unfold State.learnOne
  split
  · rfl
  · split
    · exact State.modes_sat ..
    · split
      · rename_i h
        exact (State.modes_tbl ..).trans (State.modes_insertEntry h)
      · exact State.modes_sat ..

@[simp] theorem State.modes_hitLands (s : State) (t slot key : Nat) : (s.hitLands t slot key).modes = s.modes := by
  simp [State.hitLands]

@[simp] theorem State.modes_ageEntry (s : State) (t pos : Nat) (e : Entry) : (s.ageEntry t pos e).modes = s.modes := by
  simp [State.ageEntry]

@[simp] theorem State.modes_visit (s : State) (t n pos : Nat) (e : Entry) : (s.visit t n pos e).modes = s.modes := by
  simp [State.visit]

@[simp] theorem State.modes_ageNext (s : State) (t : Nat) : (s.ageNext t).modes = s.modes := by
  unfold State.ageNext
  dsimp only
  split <;> simp

@[simp] theorem State.modes_markDying (s : State) (t : Nat) (x : Nat × Nat) (v : Nat) : (s.markDying t x v).modes = s.modes := by
  simp [State.markDying]

theorem State.modes_insertExact {s u : State} {t : Nat} {img : List Byte} {replace static : Bool} {ver : Option Nat}
    (h : s.insertExact t img replace static ver = .inr u) : u.modes = s.modes := by
  unfold State.insertExact at h
  dsimp only at h
  split at h
  · split at h
    · cases h
    · split at h
      · cases h
        exact State.modes_putEntry ..
      · split at h
        · rename_i hin
          split at h <;> cases h <;> exact (State.modes_markDying ..).trans (State.modes_insertEntry hin)
        · cases h
  · split at h
    · rename_i hin
      cases h
      exact State.modes_insertEntry hin
    · cases h

theorem State.modes_insertPrefix {s u : State} {t : Nat} {img : List Byte} {replace : Bool} {ver : Option Nat}
    (h : s.insertPrefix t img replace ver = .inr u) : u.modes = s.modes := by
  obtain ⟨-, h⟩ | ⟨-, h⟩ := ite_eq_iff.mp h
  · cases h
  · exact State.modes_changePrefix h

theorem State.modes_insertImage {s u : State} {t flags : Nat} {img : List Byte} (h : s.insertImage t img flags = .inr u) : u.modes = s.modes := by
  unfold State.insertImage at h
  dsimp only at h
  split at h
  · cases h
  · split at h
    · cases h
    · split at h
      · exact State.modes_insertPrefix h
      · split at h
        · exact State.modes_insertExact h
        · cases h
          exact State.modes_setTline ..

theorem State.modes_deleteImage {s u : State} {t flags : Nat} {img : List Byte} (h : s.deleteImage t img flags = .inr u) : u.modes = s.modes := by
  unfold State.deleteImage at h
  dsimp only at h
  split at h
  · cases h
  · split at h
    · cases h
    · split at h
      · split at h
        · cases h
        · split at h
          · split at h
            · cases h
            · exact State.modes_changePrefix h
          · exact State.modes_changePrefix h
      · split at h
        · split at h
          · cases h
          · cases h
            exact State.modes_markDying ..
          · cases h
            exact State.modes_clearEntry ..
        · cases h
          exact State.modes_setTline ..

theorem modes_applyImages {f : State → List Byte → Nat ⊕ State} (hf : ∀ s img u, f s img = .inr u → u.modes = s.modes)
    (images : List (List Byte)) (n : Nat) (s : State) : (applyImages f images n s).2.2.modes = s.modes := by
  induction images generalizing n s with
  | nil => rfl
  | cons img images ih =>
    unfold applyImages
    split
    · rfl
    · rename_i h
      exact (ih _ _).trans (hf _ _ _ h)

/-- A table command leaves what its images leave. -/
theorem State.modes_tblChange {s : State} {seq code mask : Nat} {images : List Byte} {f : Nat → Nat → State → List Byte → Nat ⊕ State}
    (hf : ∀ t flags s img u, f t flags s img = .inr u → u.modes = s.modes) : (s.tblChange seq code mask images f).modes = s.modes := by
  refine State.modes_runCmd _ _ _ fun c t => ?_
  dsimp only
  split
  · exact State.modes_refuseAt ..
  · have hall : ∀ g l n, (∀ s img u, g s img = .inr u → u.modes = s.modes) → ∀ e, (applyImages g l n (t.emitAll e)).2.2.modes = t.modes :=
      fun g l n hg e => (modes_applyImages hg l n _).trans (State.modes_emitAll ..)
    split
    · rw [State.modes_done]
      split
      · exact (State.modes_noteStaged ..).trans (hall _ _ _ (hf _ _) _)
      · exact hall _ _ _ (hf _ _) _
    · rw [State.modes_finish]
      split
      · exact (State.modes_noteStaged ..).trans (hall _ _ _ (hf _ _) _)
      · exact hall _ _ _ (hf _ _) _

@[simp] theorem State.modes_spared (s : State) (t key : Nat) : (s.spared t key).2.modes = s.modes := by
  unfold State.spared
  dsimp only
  split <;> simp

@[simp] theorem State.modes_flushEntry (s : State) (t owner : Nat) (static : Bool) (ver : Option Nat) (pos : Nat) (e : Entry) : (s.flushEntry t owner static ver pos e).2.modes = s.modes := by
  unfold State.flushEntry
  dsimp only
  (repeat' split) <;> simp

@[simp] theorem State.modes_flushTable (s : State) (t owner : Nat) (static : Bool) (ver : Option Nat) (n : Nat) :
    (s.flushTable t owner static ver n).2.modes = s.modes := by
  unfold State.flushTable
  refine foldl_keeps (g := fun x : Nat × State => x.2.modes) (fun x e => ?_) _ _
  exact x.2.modes_flushEntry ..

/-- What a load leaves where it succeeds. -/
def Load.keeps (s : State) (l : Load) : Prop := ∀ t, l = .inr t → t.modes = s.modes

theorem Load.keeps_inl (s : State) (e : LoadFail) : Load.keeps s (.inl e) := fun _ h => nomatch h

theorem Load.keeps_inr {s t : State} (h : t.modes = s.modes) : Load.keeps s (.inr t) := fun _ hu => Sum.inr.inj hu ▸ h

theorem Load.keeps.bind {s : State} {x : Load} {f : State → Load} (hx : Load.keeps s x) (hf : ∀ t, Load.keeps t (f t)) :
    Load.keeps s (x.bind f) := fun u hu => by
  cases x with
  | inl e => cases hu
  | inr t => exact (hf t u hu).trans (hx t rfl)

theorem modes_loadAll {α : Type} {f : State → α → Load} (hf : ∀ t a, Load.keeps t (f t a)) (l : List α) (s : State) :
    Load.keeps s (loadAll f l s) := fun u hu => by
  induction l generalizing s with
  | nil => exact Load.keeps_inr rfl _ hu
  | cons a l ih =>
    unfold loadAll at hu
    split at hu
    · cases hu
    · rename_i t h
      exact (ih t hu).trans (hf s a t h)

@[simp] theorem State.modes_putRecord (s : State) (off v : Nat) : (s.putRecord off v).modes = s.modes :=
  State.modes_congr rfl rfl rfl

@[simp] theorem State.modes_putClass (s : State) (c bound pause hops : Nat) (bounded : Bool) (yclass block : Nat) : (s.putClass c bound pause hops bounded yclass block).modes = s.modes := by
  simp [State.putClass]

@[simp] theorem State.modes_putClassDefault (s : State) (c : Nat) : (s.putClassDefault c).modes = s.modes := by
  simp [State.putClassDefault]

theorem State.modes_putAprHalf {s t : State} {e : Nat} {bs : List Byte} (h : s.putAprHalf e bs = .inl t) : t.modes = s.modes := by
  unfold State.putAprHalf at h
  split at h
  · cases h
    rfl
  · dsimp only at h
    split at h
    · cases h
      exact State.modes_setAprRec ..
    · cases h

theorem State.modes_putAprLine {s t : State} {e : Nat} {bs : List Byte} (h : s.putAprLine e bs = .inl t) : t.modes = s.modes := by
  unfold State.putAprLine at h
  split at h
  · rename_i hfirst
    exact (State.modes_putAprHalf h).trans (State.modes_putAprHalf hfirst)
  · cases h

@[simp] theorem State.modes_putPairLine (s : State) (i : Nat) (bs : List Byte) : (s.putPairLine i bs).modes = s.modes :=
  State.modes_congr rfl rfl rfl

theorem State.modes_putSramLine {s t : State} {apr line : Nat} {bs : List Byte} (h : s.putSramLine apr line bs = .inl t) : t.modes = s.modes := by
  unfold State.putSramLine at h
  dsimp only at h
  split at h
  · exact State.modes_putAprLine h
  · split at h
    · cases h
      exact State.modes_putPairLine ..
    · cases h
      exact State.modes_setTline ..

@[simp] theorem State.modes_allClassDefaults (s : State) : (s.allClassDefaults).modes = s.modes := by
  simp [State.allClassDefaults]

@[simp] theorem State.modes_untouched (s : State) (l : Loc) (v : Nat) : (s.untouched l v).modes = s.modes := by
  simp [State.untouched]

@[simp] theorem State.modes_imageDefaults (s : State) : (s.imageDefaults).modes = s.modes := by
  simp [State.imageDefaults]

@[simp] theorem State.modes_startShaper (s : State) (k rate burst weight : Nat) : (s.startShaper k rate burst weight).modes = s.modes :=
  State.modes_congr rfl rfl rfl

@[simp] theorem State.modes_outShapers (s : State) (o : Nat) : (s.outShapers o).modes = s.modes := by
  simp [State.outShapers]

@[simp] theorem State.modes_applyPlan (s : State) (p : ImagePlan) : (s.applyPlan p).modes = s.modes := by
  simp [State.applyPlan]

@[simp] theorem State.modes_applyShapers (s : State) (p : ImagePlan) : (s.applyShapers p).modes = s.modes := by
  simp [State.applyShapers]

@[simp] theorem State.modes_computed (s : State) (img : List Byte) : (s.computed img).modes = s.modes := by
  unfold State.computed
  dsimp only
  rw [State.modes_boot, foldl_keeps (g := State.modes) fun t r => State.modes_setBit .., State.modes_set, State.modes_set, State.modes_set, State.modes_set]

@[simp] theorem State.modes_unload (s : State) : (s.unload).modes = s.modes := by
  simp [State.unload]

@[simp] theorem State.modes_slotReason (s : State) (slot : Nat) (e : LoadFail) : (s.slotReason slot e).modes = s.modes := by
  unfold State.slotReason
  dsimp only
  split <;> simp

@[simp] theorem State.modes_enumerate (s : State) (f : Nat) (x : Nat × Nat × Nat) : (s.enumerate f x).modes = s.modes := by
  simp [State.enumerate]

@[simp] theorem State.modes_farStep (s : State) (ports : List (Nat × Nat × Nat)) : (s.farStep ports).modes = s.modes := by
  simp [State.farStep]

theorem State.modes_scanEntry (a : State × Scan) (seq : Nat) : (State.scanEntry a seq).1.modes = a.1.modes := by
  unfold State.scanEntry
  dsimp only
  split
  · rfl
  · split
    · rfl
    · rfl
    · exact (State.modes_boot ..).trans ((State.modes_writeOutcome ..).trans (State.modes_raise ..))
    · split
      · rfl
      · exact (State.modes_boot ..).trans (State.modes_writeOutcome ..)

@[simp] theorem State.modes_scanStat (s : State) (c : Scan) : (s.scanStat c).modes = s.modes :=
  State.modes_congr rfl rfl rfl

@[simp] theorem State.modes_journalScan (s : State) (g : GoodSlot) (fails : Nat) : (s.journalScan g fails).modes = s.modes := by
  have hput : ∀ (t : State) (p : PowerState) (c : CmdState) (b : BootState),
      ({ t with power := p, cmd := c, boot := b } : State).modes = t.modes := fun _ _ _ _ => rfl
  have hscan : (s.scanned.foldl State.scanEntry (s, ({} : Scan))).1.modes = s.modes :=
    foldl_keeps (g := fun x : State × Scan => x.1.modes) State.modes_scanEntry _ _
  unfold State.journalScan
  split
  · rfl
  · dsimp only
    split
    · rw [hput, State.modes_scanStat, State.modes_set, State.modes_set, State.modes_writeOutcome, State.modes_writeEntry, hscan]
    · exact (State.modes_journalFail ..).trans ((State.modes_writeEntry ..).trans hscan)

@[simp] theorem State.modes_rxOverrun (s : State) (f : RxFrame) : (s.rxOverrun f).modes = s.modes := by
  simp [State.rxOverrun]

@[simp] theorem State.modes_endStallOf (s : State) (id : Nat) : (s.endStallOf id).modes = s.modes := by
  simp [State.endStallOf]

@[simp] theorem State.modes_takenCell (s : State) (f : RxFrame) (i : Nat) : (s.takenCell f i).modes = s.modes := by
  unfold State.takenCell
  dsimp only
  split <;> simp

@[simp] theorem State.modes_cellWrite (s : State) (src bank : Nat) : (s.cellWrite src bank).modes = s.modes := by
  unfold State.cellWrite
  split
  · rename_i f i _ _
    extract_lets t
    have ht : t.modes = s.modes := by
      unfold t
      split
      · exact State.modes_takenCell ..
      · split
        · rename_i h
          exact (State.modes_landed ..).trans ((State.modes_putRx ..).trans (State.modes_landCell h))
        · split
          · exact State.modes_rxOverrun ..
          · rfl
    split
    · exact (State.modes_endStallOf ..).trans ht
    · exact ht
  · rfl

@[simp] theorem State.modes_dropRx (s : State) (id : Nat) : (s.dropRx id).modes = s.modes :=
  State.modes_congr rfl rfl rfl

@[simp] theorem State.modes_correct (s : State) (f : RxFrame) (len : Nat) : (s.correct f len).modes = s.modes := by
  simp [State.correct]

@[simp] theorem State.modes_trim (s : State) (p : Pkt) : (s.trim p).modes = s.modes := by
  simp [State.trim]

@[simp] theorem State.modes_cutLeaves (s : State) (stomp : Bool) (o : Nat) (p : Pkt) : (s.cutLeaves stomp o p).modes = s.modes := by
  simp [State.cutLeaves]

@[simp] theorem State.modes_cutDone (s : State) (n : Nat) (stomp : Bool) : (s.cutDone n stomp).modes = s.modes := by
  simp [State.cutDone]

@[simp] theorem State.modes_resizeHeld (s : State) (id : Nat) : (s.resizeHeld id).modes = s.modes := by
  unfold State.resizeHeld
  dsimp only
  split <;> simp

@[simp] theorem State.modes_goodTaken (s : State) (n : Nat) (f : RxFrame) : (s.goodTaken n f).modes = s.modes := by
  simp [State.goodTaken]

@[simp] theorem State.modes_discardCut (s : State) (n : Nat) (id : Nat) : (s.discardCut n id).modes = s.modes := by
  simp [State.discardCut]

@[simp] theorem State.modes_goodRefused (s : State) (n : Nat) (f : RxFrame) : (s.goodRefused n f).modes = s.modes := by
  simp [State.goodRefused]

@[simp] theorem State.modes_frameEnd (s : State) (n : Nat) : (s.frameEnd n).modes = s.modes := by
  unfold State.frameEnd
  dsimp only
  (repeat' split) <;> simp

theorem State.modes_of_copyChain {s t : State} {p : Pkt} {c len : Nat} {share : Nat → Bool} {r : Option (List Nat)}
    (h : s.copyChain p c len share = (t, r)) : t.modes = s.modes := by
  rw [← s.modes_copyChain p c len share, h]

@[simp] theorem State.modes_memberCopy (s : State) (p : Pkt) (m : MemberAim) : (s.memberCopy p m).modes = s.modes := by
  unfold State.memberCopy
  extract_lets p1
  split <;> rename_i h
  · have h1 := State.modes_of_applyEdits h
    split
    · exact (State.modes_memberLost ..).trans h1
    · split
      · exact (State.modes_memberLost ..).trans ((State.modes_wakeTest ..).trans h1)
      · dsimp only
        split <;> rename_i h
        · exact (State.modes_memberLost ..).trans ((State.modes_of_copyChain h).trans h1)
        · exact (State.modes_enqueuePkt ..).trans ((State.modes_freshId ..).trans ((State.modes_of_copyChain h).trans h1))
  · exact (State.modes_memberLost ..).trans (State.modes_of_applyEdits h)

@[simp] theorem State.modes_enqueueGroup (s : State) (p : Pkt) : (s.enqueueGroup p).modes = s.modes := by
  simp [State.enqueueGroup]

@[simp] theorem State.modes_enqueueNext (s : State) : (s.enqueueNext).modes = s.modes := by
  unfold State.enqueueNext
  dsimp only
  split <;> simp

@[simp] theorem State.modes_measure (s : State) (n slowest : Nat) : (s.measure n slowest).modes = s.modes := by
  simp [State.measure]

@[simp] theorem State.modes_setBeatDeficit (s : State) (d : Nat) : (s.setBeatDeficit d).modes = s.modes := by
  simp [State.setBeatDeficit]

@[simp] theorem State.modes_clearRun (s : State) (n : Nat) (lost : Bool) : (s.clearRun n lost).modes = s.modes := by
  simp [State.clearRun]

@[simp] theorem State.modes_requestCode (s : State) (code : Nat) : (s.requestCode code).modes = s.modes := by
  simp [State.requestCode]

@[simp] theorem State.modes_voltageRequest (s : State) (n : Nat) : (s.voltageRequest n).modes = s.modes := by
  simp [State.voltageRequest]

@[simp] theorem State.modes_govern (s : State) (n : Nat) : (s.govern n).modes = s.modes := by
  simp [State.govern]

@[simp] theorem State.modes_windowEnd (s : State) (counts : List Nat) : (s.windowEnd counts).modes = s.modes := by
  simp [State.windowEnd]

@[simp] theorem State.modes_setVgood (s : State) (level : Bool) : (s.setVgood level).modes = s.modes :=
  State.modes_congr rfl rfl rfl

@[simp] theorem State.modes_readEffect (s : State) (off : Nat) : (s.readEffect off).modes = s.modes := by
  simp [State.readEffect]

@[simp] theorem State.modes_readWord (s : State) (src : HostSrc) (bar off : Nat) : (s.readWord src bar off).1.modes = s.modes := by
  simp [State.readWord]

@[simp] theorem State.modes_readWords (s : State) (src : HostSrc) (bar n off : Nat) : (s.readWords src bar n off).1.modes = s.modes := by
  induction n generalizing s off with
  | zero => rfl
  | succ n ih =>
    unfold State.readWords
    dsimp only
    rw [ih]
    split
    · exact State.modes_readWord ..
    · rfl

@[simp] theorem State.modes_barRead (s : State) (src : HostSrc) (bar off : Nat) (form : ReadForm) : (s.barRead src bar off form).modes = s.modes := by
  unfold State.barRead
  split
  · exact State.modes_emit ..
  · split
    · exact State.modes_emit ..
    · exact State.modes_emit ..
    · exact (State.modes_emit ..).trans (State.modes_readWord ..)
    · exact (State.modes_emit ..).trans (State.modes_readWords ..)

@[simp] theorem State.modes_hostRead (s : State) (src : HostSrc) (off : Nat) (form : ReadForm) : (s.hostRead src off form).modes = s.modes := by
  simp [State.hostRead]

@[simp] theorem State.modes_deviceControl (s : State) (func reg value : Nat) : (s.deviceControl func reg value).modes = s.modes := by
  simp [State.deviceControl]

@[simp] theorem State.modes_config (s : State) (src : HostSrc) (reg : Nat) (write : Bool) (value : Nat) : (s.config src reg write value).modes = s.modes := by
  simp [State.config]

@[simp] theorem State.modes_journalBlock (s : State) : (s.journalBlock).modes = s.modes :=
  State.modes_congr rfl rfl rfl

@[simp] theorem State.modes_sweepEntries (s : State) (f : Entry → Option Entry) : (s.sweepEntries f).modes = s.modes := by
  refine foldl_keeps (g := State.modes) (fun t n => foldl_keeps (g := State.modes) (fun u x => ?_) _ t) _ s
  split
  · exact State.modes_clearEntry ..
  · split
    · rfl
    · exact State.modes_putEntry ..

@[simp] theorem State.modes_versionStage (s : State) (seq op : Nat) {body : State → State} (h : ∀ t, (body t).modes = t.modes) :
    (s.versionStage seq op body).modes = s.modes := by
  refine State.modes_runCmd _ _ _ fun c t => ?_
  dsimp only
  split
  · rfl
  · split
    · exact State.modes_refuse ..
    · exact h t

@[simp] theorem State.modes_abandonSweep (s : State) (v : Nat) : (s.abandonSweep v).modes = s.modes := by
  simp [State.abandonSweep]

@[simp] theorem State.modes_commitVersion (s : State) (id : Nat) : (s.commitVersion id).modes = s.modes :=
  State.modes_congr rfl rfl rfl

@[simp] theorem State.modes_commitSwitch (s : State) (id : Nat) : (s.commitSwitch id).modes = s.modes := by
  have hput : ∀ (t : State) (v : VerState) (a : AprState), ({ t with ver := v, apr := a } : State).modes = t.modes := fun _ _ _ => rfl
  unfold State.commitSwitch
  dsimp only
  rw [hput, State.modes_schedRegs, State.modes_setBit, State.modes_set]

@[simp] theorem State.modes_takeover (s : State) (c : OpenCmd) : (s.takeover c).modes = s.modes := by
  simp [State.takeover]

@[simp] theorem State.modes_settlePass (s : State) (a : Nat) : (s.settlePass a).modes = s.modes := by
  simp [State.settlePass]

@[simp] theorem State.modes_withFetchWord (s : State) (nbits w : Nat) : (s.withFetchWord nbits w).modes = s.modes :=
  State.modes_congr rfl rfl rfl

end Sys2Proof.Machine
end

section
/-! SUPPORT. The modes: what a load, a schedule and a patch that succeed leave of them (R493 to R498). -/
namespace Sys2Proof.Machine

theorem State.keeps_applyRecord (s : State) (d : Section) (at_ off v : Nat) : Load.keeps s (s.applyRecord d at_ off v) := by
  unfold State.applyRecord
  split
  · exact Load.keeps_inr (State.modes_putRecord ..)
  · exact Load.keeps_inl _ _

theorem State.keeps_applyRegisters (s : State) (d : Section) (bs : List Byte) : Load.keeps s (s.applyRegisters d bs) := by
  refine Load.keeps.bind (modes_loadAll (fun t i => ?_) _ s) fun t => ?_
  · dsimp only
    split
    · exact Load.keeps_inl _ _
    · exact t.keeps_applyRecord _ _ _ _
  · split
    · exact Load.keeps_inr rfl
    · exact Load.keeps_inl _ _

theorem State.keeps_applyFaults (s : State) (d : Section) (bs : List Byte) : Load.keeps s (s.applyFaults d bs) := by
  unfold State.applyFaults
  split
  · exact Load.keeps_inl _ _
  · refine modes_loadAll (fun t i => ?_) _ s
    dsimp only
    split
    · split
      · exact Load.keeps_inr rfl
      · exact Load.keeps_inl _ _
    · exact t.keeps_applyRecord _ _ _ _

theorem State.keeps_applyClasses (s : State) (d : Section) (bs : List Byte) : Load.keeps s (s.applyClasses d bs) := by
  unfold State.applyClasses
  split
  · exact Load.keeps_inl _ _
  · refine modes_loadAll (fun t c => ?_) _ s
    dsimp only
    split
    · exact Load.keeps_inl _ _
    · split
      · exact Load.keeps_inr (State.modes_putClass ..)
      · exact Load.keeps_inr (State.modes_putClassDefault ..)

theorem State.keeps_applySeeds (s : State) (d : Section) (bs : List Byte) : Load.keeps s (s.applySeeds d bs) := by
  unfold State.applySeeds
  split
  · exact Load.keeps_inl _ _
  · split
    · exact Load.keeps_inl _ _
    · exact Load.keeps_inr (State.modes_congr rfl rfl rfl)

theorem State.keeps_applyMemory (s : State) (p : ImagePlan) (d : Section) (bs : List Byte) : Load.keeps s (s.applyMemory p d bs) := by
  unfold State.applyMemory
  dsimp only
  split
  · exact Load.keeps_inl _ _
  · split
    · split
      · exact Load.keeps_inl _ _
      · refine modes_loadAll (fun t x => ?_) _ s
        split
        · rename_i h
          exact Load.keeps_inr (State.modes_putSramLine h)
        · exact Load.keeps_inl _ _
    · split
      · exact Load.keeps_inl _ _
      · exact Load.keeps_inr (foldl_keeps (g := State.modes) (fun t x => t.modes_setDynLine ..) _ s)
    · split
      · exact Load.keeps_inr (State.modes_emit ..)
      · exact Load.keeps_inl _ _
    · exact Load.keeps_inl _ _

theorem State.keeps_applyTable (s : State) (d : Section) (bs : List Byte) : Load.keeps s (s.applyTable d bs) := by
  refine Load.keeps.bind (modes_loadAll (fun t i => ?_) _ s) fun t => ?_
  · split
    · exact Load.keeps_inl _ _
    · rename_i h
      exact Load.keeps_inr (State.modes_insertImage h)
  · split
    · exact Load.keeps_inr rfl
    · exact Load.keeps_inl _ _

theorem State.keeps_applyLens (s : State) (d : Section) (bs : List Byte) : Load.keeps s (s.applyLens d bs) := by
  refine Load.keeps.bind (modes_loadAll (fun t i => ?_) _ s) fun t => ?_
  · dsimp only
    split
    · exact Load.keeps_inl _ _
    · exact Load.keeps_inr (State.modes_lensApply ..)
  · split
    · exact Load.keeps_inr rfl
    · exact Load.keeps_inl _ _

theorem State.keeps_applySection (s : State) (img : List Byte) (p : ImagePlan) (d : Section) : Load.keeps s (s.applySection img p d) := by
  unfold State.applySection
  dsimp only
  split
  · split
    · exact Load.keeps_inl _ _
    · exact Load.keeps_inr (State.modes_boot ..)
  · exact s.keeps_applyRegisters _ _
  · exact s.keeps_applyRegisters _ _
  · exact s.keeps_applyClasses _ _
  · exact s.keeps_applySeeds _ _
  · exact s.keeps_applyMemory _ _ _
  · exact s.keeps_applyTable _ _
  · exact s.keeps_applyLens _ _
  · exact s.keeps_applyFaults _ _
  · exact Load.keeps_inr rfl

theorem State.keeps_applySections (s : State) (img : List Byte) (p : ImagePlan) : Load.keeps s (s.applySections img p) := by
  have hrun : ∀ (t : State) l, Load.keeps t (loadAll (fun (u : State) d => u.applySection img p d) l t) := fun t l =>
    modes_loadAll (fun u d => u.keeps_applySection img p d) l t
  refine Load.keeps.bind (Load.keeps.bind (hrun s _) fun t => Load.keeps_inr ?_) fun t => hrun t _
  split
  · exact State.modes_allClassDefaults ..
  · rfl

theorem State.keeps_applyImage (s : State) (img : List Byte) (p : ImagePlan) : Load.keeps s (s.applyImage img p) := fun u hu => by
  refine (Load.keeps.bind (s := s.applyPlan p) ((s.applyPlan p).keeps_applySections img p) (fun t => ?_) u hu).trans (State.modes_applyPlan ..)
  dsimp only
  split
  · exact Load.keeps_inl _ _
  · exact Load.keeps_inl _ _
  · exact Load.keeps_inr ((State.modes_lens ..).trans ((State.modes_applyShapers ..).trans ((State.modes_computed ..).trans
      (State.modes_imageDefaults ..))))

theorem State.modes_loadSection {s t : State} {sec : List Byte} {b : Nat} (h : s.loadSection sec b = .inr t) : t.modes = s.modes := by
  unfold State.loadSection at h
  split at h
  · cases h
  · dsimp only at h
    split at h
    · cases h
    · cases h
      exact (State.modes_schedRegs ..).trans ((State.modes_bankEdges ..).trans (State.modes_putSection ..))

theorem State.modes_patchBank {s t : State} {b : Nat} {copy : Bool} {patch : List Byte} (h : s.patchBank b copy patch = .inr t) :
    t.modes = s.modes := by
  rw [State.patchBank_inr h, State.patched]
  rw [State.modes_schedRegs, State.modes_bankEdges, State.modes_set, State.modes_putPatch]
  exact ite_keeps (State.modes_copyBank ..) rfl

theorem State.modes_loadBanks {s t : State} {l : List (Nat × List Byte)} (h : State.loadBanks l s = .inr t) : t.modes = s.modes := by
  induction l generalizing s with
  | nil => exact Sum.inr.inj h ▸ rfl
  | cons x l ih =>
    unfold State.loadBanks at h
    split at h
    · cases h
    · rename_i hfirst
      exact (ih h).trans (State.modes_loadSection hfirst)

end Sys2Proof.Machine
end

section
/-! SUPPORT. The modes: the commands that leave them as they were (R503). -/
namespace Sys2Proof.Machine

/-- The outcome leaves the modes as they were. -/
def State.stays (s : State) (o : Out State) : Prop := ∀ t, o = .next t → t.modes = s.modes

theorem State.stays_complete {ok : Bool} {s t : State} (h : t.modes = s.modes) : s.stays (complete ok s t) := by
  intro u hu
  obtain ⟨-, rfl⟩ | ⟨-, rfl⟩ := complete_next.mp hu
  · exact (State.modes_settle t).trans h
  · exact State.modes_settle s

theorem State.modes_chooseIn {s : State} {o c : Nat} {excess : Bool} {cand : List (Nat × Nat)} {x : Choice}
    (h : s.chooseIn o c excess cand = some x) : x.state.modes = s.modes := by
  unfold State.chooseIn at h
  dsimp only at h
  split at h
  · cases h
    rfl
  · split at h
    · cases h
      rfl
    · obtain ⟨r, hr, rfl⟩ := Option.map_eq_some_iff.mp h
      exact State.modes_roundPick hr

theorem State.modes_excessAt {s : State} {o c : Nat} {cand : List (Nat × Nat)} {x : Choice} (h : s.excessAt o c cand = some x) :
    x.state.modes = s.modes := by
  unfold State.excessAt at h
  split at h
  · cases h
  · dsimp only at h
    split at h
    · cases h
      rfl
    · exact State.modes_chooseIn h

theorem State.modes_choose {s : State} {o : Nat} {x : Choice} (h : s.choose o = some x) : x.state.modes = s.modes := by
  unfold State.choose at h
  dsimp only at h
  split at h
  · rename_i hres
    cases h
    obtain ⟨c, -, hc⟩ := List.exists_of_findSome?_eq_some hres
    split at hc
    · exact State.modes_chooseIn hc
    · cases hc
  · obtain ⟨c, -, hc⟩ := List.exists_of_findSome?_eq_some h
    exact State.modes_excessAt hc

theorem State.modes_takeWork {s t : State} {kind : Nat} {w : Nat × Nat × List Byte} (h : s.takeWork kind = some (w, t)) :
    t.modes = s.modes := by
  unfold State.takeWork at h
  split at h
  · cases h
  · cases h
    exact State.modes_fab ..

theorem State.modes_arrival {s t : State} {sf role : Nat} {i : Item} (h : s.arrival sf role = some (i, t)) : t.modes = s.modes := by
  unfold State.arrival at h
  dsimp only at h
  split at h
  · obtain ⟨c, -, hc⟩ := Option.map_eq_some_iff.mp h
    cases hc
    rfl
  · split at h
    · cases h
    · cases h
      rfl
  · split at h
    · cases h
      rfl
    · split at h
      · cases h
        rfl
      · cases h
  · cases h
    rfl

theorem State.stays_execEpMigrateLocal (seq : Nat) (s : State) : s.stays (execEpMigrateLocal seq s) := by
  refine State.stays_complete (State.modes_migrate _ _ _ fun c i t => ?_)
  extract_lets e target old deep pl new r m g u apr t1 t2 mig t3
  have hr : r.2.modes = t.modes := by
    clear_value old
    cases old with
    | none => rfl
    | some k =>
      dsimp -zeta only [r]
      split
      · exact State.modes_startRound ..
      · rfl
  have h1 : t1.modes = t.modes := by
    unfold t1
    split
    · exact hr
    · exact (State.modes_congr rfl rfl rfl).trans hr
  have h2 : t2.modes = t.modes := (State.modes_setPlacement ..).trans h1
  have h3 : t3.modes = t.modes := (State.modes_congr (s := t2) rfl rfl rfl).trans h2
  split
  · exact State.modes_refuse ..
  · exact (State.modes_openMig ..).trans h3

theorem State.stays_execCollimatorSelect (o : Nat) (bad : List Nat) (s : State) : s.stays (execCollimatorSelect o bad s) := by
  refine State.stays_complete ?_
  split
  · rfl
  · split
    · rename_i h
      exact (modes_release ..).trans (State.modes_choose h)
    · rfl

theorem State.stays_execCounterClear (seq : Nat) (s : State) : s.stays (execCounterClear seq s) := by
  refine State.stays_complete (ite_keeps rfl (State.modes_runCmd _ _ _ fun c t => ?_))
  split
  · exact State.modes_refuse ..
  · split
    · exact State.modes_refuse ..
    · rename_i h
      exact (State.modes_done ..).trans (State.modes_clearScope h)

theorem State.stays_execFabAddressClaim (seq : Nat) (s : State) : s.stays (execFabAddressClaim seq s) :=
  State.stays_complete (State.modes_fabAddress _ _ _ fun _ _ =>
    (State.modes_fab ..).trans ((State.modes_begun ..).trans ((State.modes_setAddress ..).trans (State.modes_setBit ..))))

theorem State.stays_execAdvertReceive (s : State) : s.stays (execAdvertReceive s) := by
  refine State.stays_complete ?_
  split
  · rename_i h
    split at h
    · exact (State.modes_advertIn ..).trans (State.modes_takeWork h)
    · cases h
  · rfl

theorem State.stays_execTreplyReceive (s : State) : s.stays (execTreplyReceive s) := by
  refine State.stays_complete ?_
  split
  · rfl
  · rename_i w t h
    have ht : t.modes = s.modes := by
      split at h
      · exact State.modes_takeWork h
      · cases h
    simp only []
    split
    · exact (State.modes_exchange ..).trans ht
    · exact ht

theorem State.stays_execServiceWorkArrival (sf role : Nat) (s : State) : s.stays (execServiceWorkArrival sf role s) := by
  refine State.stays_complete ?_
  split
  · rfl
  · split
    · rfl
    · rename_i h
      rw [State.modes_syncService, modes_ite, State.modes_startBest, ite_self, State.modes_setService]
      exact State.modes_arrival h

theorem State.stays_execMcodePatch (seq : Nat) (patch : List Byte) (s : State) : s.stays (execMcodePatch seq patch s) := by
  refine State.stays_complete (State.modes_runCmd _ _ _ fun c t => ?_)
  split
  · rfl
  · split
    · exact State.modes_refuseAt ..
    · dsimp only
      split
      · exact (State.modes_refuseAt ..).trans (State.modes_emitAll ..)
      · rename_i h
        exact (State.modes_done ..).trans ((State.modes_patchBank h).trans (State.modes_emitAll ..))

theorem State.stays_execTblInsert (seq : Nat) (images : List Byte) (s : State) : s.stays (execTblInsert seq images s) :=
  State.stays_complete (State.modes_tblChange fun _ _ _ _ _ h => State.modes_insertImage h)

theorem State.stays_execTblDelete (seq : Nat) (images : List Byte) (s : State) : s.stays (execTblDelete seq images s) :=
  State.stays_complete (State.modes_tblChange fun _ _ _ _ _ h => State.modes_deleteImage h)

theorem State.stays_execTblSearch (seq : Nat) (image : List Byte) (s : State) : s.stays (execTblSearch seq image s) := by
  refine State.stays_complete (State.modes_runCmd _ _ _ fun c t => ?_)
  dsimp only
  split
  · exact State.modes_refuse ..
  · split
    · exact State.modes_refuse ..
    · split
      · exact (State.modes_refuse ..).trans (State.modes_emitAll ..)
      · split <;> simp

theorem State.stays_execTblFlushPort (seq : Nat) (s : State) : s.stays (execTblFlushPort seq s) := by
  refine State.stays_complete (State.modes_runCmd _ _ _ fun c t => ?_)
  extract_lets tb fl all odd ver ts r
  have hr : r.2.modes = t.modes := foldl_keeps (g := fun x : Nat × State => x.2.modes) (fun x k => x.2.modes_flushTable ..) ts (0, t)
  split
  · exact State.modes_refuse ..
  · split
    · exact State.modes_refuse ..
    · split
      · exact (State.modes_told ..).trans hr
      · exact (State.modes_done ..).trans (ite_keeps ((State.modes_noteStaged ..).trans hr) hr)

theorem State.stays_execVersionCommit (seq : Nat) (s : State) : s.stays (execVersionCommit seq s) := by
  refine State.stays_complete (State.modes_runCmd _ _ _ fun c t => ?_)
  split
  · rfl
  · split
    · exact State.modes_setBit ..
    · split
      · exact (State.modes_refuse ..).trans (State.modes_setBit ..)
      · exact State.modes_congr rfl rfl rfl

theorem State.stays_execCmdDoorbell (src : HostSrc) (ring value : Nat) (s : State) : s.stays (execCmdDoorbell src ring value s) := by
  refine State.stays_complete ?_
  simp

theorem State.stays_execCommandAccept (fails : Nat) (s : State) : s.stays (execCommandAccept fails s) := by
  refine State.stays_complete ?_
  simp

theorem State.stays_execNop (seq : Nat) (s : State) : s.stays (execNop seq s) := by
  refine State.stays_complete ?_
  simp

theorem State.stays_execUnknownCode (seq : Nat) (s : State) : s.stays (execUnknownCode seq s) := by
  refine State.stays_complete ?_
  split <;> simp

theorem State.stays_execGatePulse (s : State) : s.stays (execGatePulse s) := by
  refine State.stays_complete ?_
  simp

theorem State.stays_execGateTimeout (seq : Nat) (s : State) : s.stays (execGateTimeout seq s) := by
  refine State.stays_complete ?_
  split <;> simp

theorem State.stays_execCommandComplete (seq fails : Nat) (s : State) : s.stays (execCommandComplete seq fails s) := by
  refine State.stays_complete ?_
  simp

theorem State.stays_execCellFree (cell requester : Nat) (asOwner : Bool) (s : State) : s.stays (execCellFree cell requester asOwner s) := by
  refine State.stays_complete ?_
  simp

theorem State.stays_execChainHandoff (cell requester owner : Nat) (s : State) : s.stays (execChainHandoff cell requester owner s) := by
  refine State.stays_complete ?_
  simp

theorem State.stays_execDynamicRequest (q bank : Nat) (s : State) : s.stays (execDynamicRequest q bank s) := by
  refine State.stays_complete ?_
  simp

theorem State.stays_execOpenRowTimeout (q bank : Nat) (s : State) : s.stays (execOpenRowTimeout q bank s) := by
  refine State.stays_complete ?_
  simp

theorem State.stays_execHbmRefresh (q bank : Nat) (begins : Bool) (s : State) : s.stays (execHbmRefresh q bank begins s) := by
  refine State.stays_complete ?_
  simp

theorem State.stays_execHbmRetrainStart (m : Nat) (s : State) : s.stays (execHbmRetrainStart m s) := by
  refine State.stays_complete ?_
  simp

theorem State.stays_execHbmRetrainComplete (m : Nat) (s : State) : s.stays (execHbmRetrainComplete m s) := by
  refine State.stays_complete ?_
  simp

theorem State.stays_execHbmRetrain (m : Nat) (s : State) : s.stays (execHbmRetrain m s) := by
  refine State.stays_complete ?_
  simp

theorem State.stays_execSkewWindow (s : State) : s.stays (execSkewWindow s) := by
  refine State.stays_complete ?_
  simp

theorem State.stays_execLensWrite (seq : Nat) (block : List Byte) (s : State) : s.stays (execLensWrite seq block s) := by
  refine State.stays_complete ?_
  simp

theorem State.stays_execLensDeath (seq : Nat) (block : List Byte) (s : State) : s.stays (execLensDeath seq block s) := by
  refine State.stays_complete ?_
  simp

theorem State.stays_execLensRevive (seq : Nat) (block : List Byte) (s : State) : s.stays (execLensRevive seq block s) := by
  refine State.stays_complete ?_
  simp

theorem State.stays_execLensInvalidate (seq : Nat) (s : State) : s.stays (execLensInvalidate seq s) := by
  refine State.stays_complete ?_
  simp

theorem State.stays_execLensCompare (a : Nat) (shadowLost : Bool) (s : State) : s.stays (execLensCompare a shadowLost s) := by
  refine State.stays_complete ?_
  (repeat' split) <;> simp

theorem State.stays_execApertureDecision (src : Nat) (s : State) : s.stays (execApertureDecision src s) := by
  refine State.stays_complete ?_
  simp

theorem State.stays_execMeterSet (seq : Nat) (s : State) : s.stays (execMeterSet seq s) := by
  refine State.stays_complete ?_
  simp

theorem State.stays_execMacLink (n : Nat) (aligned localFault remoteFault : Bool) (s : State) : s.stays (execMacLink n aligned localFault remoteFault s) := by
  refine State.stays_complete ?_
  simp

theorem State.stays_execPauseFrame (n quanta : Nat) (s : State) : s.stays (execPauseFrame n quanta s) := by
  refine State.stays_complete ?_
  simp

theorem State.stays_execPriorityPauseFrame (n enable : Nat) (quanta : List Nat) (s : State) : s.stays (execPriorityPauseFrame n enable quanta s) := by
  refine State.stays_complete ?_
  simp

theorem State.stays_execPauseExpiry (n prio : Nat) (s : State) : s.stays (execPauseExpiry n prio s) := by
  refine State.stays_complete ?_
  simp

theorem State.stays_execPauseRefresh (n : Nat) (s : State) : s.stays (execPauseRefresh n s) := by
  refine State.stays_complete ?_
  simp

theorem State.stays_execXoffInChange (i : Nat) (level : Bool) (s : State) : s.stays (execXoffInChange i level s) := by
  refine State.stays_complete ?_
  simp

theorem State.stays_execVerifyTimer (n : Nat) (answered : Bool) (s : State) : s.stays (execVerifyTimer n answered s) := by
  refine State.stays_complete ?_
  simp

theorem State.stays_execFrameReceive (n : Nat) (bytes : List Byte) (firstNs : Nat) (fcs : Bool) (kind : Nat) (preemptable : Bool) (s : State) : s.stays (execFrameReceive n bytes firstNs fcs kind preemptable s) := by
  refine State.stays_complete ?_
  simp

theorem State.stays_execMsixModeration (func vec : Nat) (s : State) : s.stays (execMsixModeration func vec s) := by
  refine State.stays_complete ?_
  simp

theorem State.stays_execTxDescriptor (q : Nat) (data : List Byte) (poison : Bool) (s : State) : s.stays (execTxDescriptor q data poison s) := by
  refine State.stays_complete ?_
  simp

theorem State.stays_execFunctionLevelReset (src : HostSrc) (s : State) : s.stays (execFunctionLevelReset src s) := by
  refine State.stays_complete ?_
  simp

theorem State.stays_execHostLinkTrained (ep : Nat) (half : Bool) (rate width : Nat) (s : State) : s.stays (execHostLinkTrained ep half rate width s) := by
  refine State.stays_complete ?_
  simp

theorem State.stays_execQueueDoorbell (src : HostSrc) (q value : Nat) (s : State) : s.stays (execQueueDoorbell src q value s) := by
  refine State.stays_complete ?_
  simp

theorem State.stays_execGateTransition (o : Nat) (s : State) : s.stays (execGateTransition o s) := by
  refine State.stays_complete ?_
  simp

theorem State.stays_execGateChange (o : Nat) (s : State) : s.stays (execGateChange o s) := by
  refine State.stays_complete ?_
  split <;> simp

theorem State.stays_execSetAndHoldMac (o : Nat) (s : State) : s.stays (execSetAndHoldMac o s) := by
  refine State.stays_complete ?_
  simp

theorem State.stays_execGateListStop (seq : Nat) (s : State) : s.stays (execGateListStop seq s) := by
  refine State.stays_complete ?_
  simp

theorem State.stays_execGateListSet (seq : Nat) (entries : List Byte) (s : State) : s.stays (execGateListSet seq entries s) := by
  refine State.stays_complete ?_
  simp

theorem State.stays_execSpillWriteComplete (l : Nat) (s : State) : s.stays (execSpillWriteComplete l s) := by
  refine State.stays_complete ?_
  split <;> simp

theorem State.stays_execSpillBlockFlush (block : Nat) (far : Bool) (s : State) : s.stays (execSpillBlockFlush block far s) := by
  refine State.stays_complete ?_
  simp

theorem State.stays_execRefillStart (l : Nat) (s : State) : s.stays (execRefillStart l s) := by
  refine State.stays_complete ?_
  split <;> simp

theorem State.stays_execRefillComplete (l failures : Nat) (s : State) : s.stays (execRefillComplete l failures s) := by
  refine State.stays_complete ?_
  split <;> simp

theorem State.stays_execSpillRateWindow (s : State) : s.stays (execSpillRateWindow s) := by
  refine State.stays_complete ?_
  simp

theorem State.stays_execIrisCtrlSend (i : Nat) (s : State) : s.stays (execIrisCtrlSend i s) := by
  refine State.stays_complete ?_
  simp

theorem State.stays_execAckTimeout (i : Nat) (s : State) : s.stays (execAckTimeout i s) := by
  refine State.stays_complete ?_
  simp

theorem State.stays_execRetryBudget (i : Nat) (s : State) : s.stays (execRetryBudget i s) := by
  refine State.stays_complete ?_
  split <;> simp

theorem State.stays_execLaneLockLoss (i lane : Nat) (s : State) : s.stays (execLaneLockLoss i lane s) := by
  refine State.stays_complete ?_
  simp

theorem State.stays_execCallSend (i : Nat) (s : State) : s.stays (execCallSend i s) := by
  refine State.stays_complete ?_
  simp

theorem State.stays_execEchoMissed (i : Nat) (s : State) : s.stays (execEchoMissed i s) := by
  refine State.stays_complete ?_
  simp
  (repeat' split) <;> simp

theorem State.stays_execIrisTrained (i width lanes : Nat) (s : State) : s.stays (execIrisTrained i width lanes s) := by
  refine State.stays_complete ?_
  (repeat' split) <;> simp

theorem State.stays_execRtReadySend (i : Nat) (s : State) : s.stays (execRtReadySend i s) := by
  refine State.stays_complete ?_
  simp
  (repeat' split) <;> simp

theorem State.stays_execRetrainComplete (i : Nat) (s : State) : s.stays (execRetrainComplete i s) := by
  refine State.stays_complete ?_
  split <;> simp

theorem State.stays_execRetrainTimeout (i : Nat) (s : State) : s.stays (execRetrainTimeout i s) := by
  refine State.stays_complete ?_
  split <;> simp

theorem State.stays_execRtReqRepeat (i : Nat) (s : State) : s.stays (execRtReqRepeat i s) := by
  refine State.stays_complete ?_
  split <;> simp

theorem State.stays_execLaneThreshold (i lane rate : Nat) (s : State) : s.stays (execLaneThreshold i lane rate s) := by
  refine State.stays_complete ?_
  simp
  (repeat' split) <;> simp

theorem State.stays_execGaspRepeat (i : Nat) (s : State) : s.stays (execGaspRepeat i s) := by
  refine State.stays_complete ?_
  simp

theorem State.stays_execFabLinkDisable (seq : Nat) (s : State) : s.stays (execFabLinkDisable seq s) := by
  refine State.stays_complete ?_
  simp

theorem State.stays_execFabLinkEnable (seq : Nat) (s : State) : s.stays (execFabLinkEnable seq s) := by
  refine State.stays_complete ?_
  simp

theorem State.stays_execFabLinkRetrain (seq : Nat) (s : State) : s.stays (execFabLinkRetrain seq s) := by
  refine State.stays_complete ?_
  simp

theorem State.stays_execFabLinkWidth (seq : Nat) (s : State) : s.stays (execFabLinkWidth seq s) := by
  refine State.stays_complete ?_
  simp

theorem State.stays_execFabLinkAutoOff (seq : Nat) (s : State) : s.stays (execFabLinkAutoOff seq s) := by
  refine State.stays_complete ?_
  simp

theorem State.stays_execFabLinkAutoOn (seq : Nat) (s : State) : s.stays (execFabLinkAutoOn seq s) := by
  refine State.stays_complete ?_
  simp

theorem State.stays_execEpMigrateOut (seq : Nat) (s : State) : s.stays (execEpMigrateOut seq s) := by
  refine State.stays_complete ?_
  simp

theorem State.stays_execEpMigrateIn (seq : Nat) (s : State) : s.stays (execEpMigrateIn seq s) := by
  refine State.stays_complete ?_
  simp

theorem State.stays_execMigTokenArrival (i : Nat) (s : State) : s.stays (execMigTokenArrival i s) := by
  refine State.stays_complete ?_
  split <;> simp

theorem State.stays_execFenceLimitExpiry (i : Nat) (s : State) : s.stays (execFenceLimitExpiry i s) := by
  refine State.stays_complete ?_
  split <;> simp

theorem State.stays_execTailWindowEnd (i : Nat) (s : State) : s.stays (execTailWindowEnd i s) := by
  refine State.stays_complete ?_
  split <;> simp

theorem State.stays_execMarkerLimitExpiry (i : Nat) (s : State) : s.stays (execMarkerLimitExpiry i s) := by
  refine State.stays_complete ?_
  split <;> simp

theorem State.stays_execReorderTimeout (d cls : Nat) (s : State) : s.stays (execReorderTimeout d cls s) := by
  refine State.stays_complete ?_
  simp

theorem State.stays_execGapLimit (d cls : Nat) (s : State) : s.stays (execGapLimit d cls s) := by
  refine State.stays_complete ?_
  simp

theorem State.stays_execIrisCellReceive (i : Nat) (bytes : List Byte) (s : State) : s.stays (execIrisCellReceive i bytes s) := by
  refine State.stays_complete ?_
  simp

theorem State.stays_execIrisDeadline (d cls : Nat) (s : State) : s.stays (execIrisDeadline d cls s) := by
  refine State.stays_complete ?_
  simp

theorem State.stays_execShaperTick (k : Nat) (s : State) : s.stays (execShaperTick k s) := by
  refine State.stays_complete ?_
  simp

theorem State.stays_execShaperSet (seq : Nat) (s : State) : s.stays (execShaperSet seq s) := by
  refine State.stays_complete ?_
  simp

theorem State.stays_execShaperQuery (seq : Nat) (s : State) : s.stays (execShaperQuery seq s) := by
  refine State.stays_complete ?_
  simp

theorem State.stays_execStarve (l : Nat) (s : State) : s.stays (execStarve l s) := by
  refine State.stays_complete ?_
  split <;> simp

theorem State.stays_execBreachLink (l : Nat) (s : State) : s.stays (execBreachLink l s) := by
  refine State.stays_complete ?_
  split <;> simp

theorem State.stays_execBreachPause (l : Nat) (s : State) : s.stays (execBreachPause l s) := by
  refine State.stays_complete ?_
  split <;> simp

theorem State.stays_execLinkUp (n : Nat) (s : State) : s.stays (execLinkUp n s) := by
  refine State.stays_complete ?_
  simp

theorem State.stays_execSwitchCutStart (cut : CutStart) (s : State) : s.stays (execSwitchCutStart cut s) := by
  refine State.stays_complete ?_
  (repeat' split) <;> simp

theorem State.stays_execDescriptorReadComplete (q : Nat) (data : List Byte) (poison : Bool) (s : State) : s.stays (execDescriptorReadComplete q data poison s) := by
  refine State.stays_complete ?_
  simp

theorem State.stays_execDescriptorReread (q : Nat) (s : State) : s.stays (execDescriptorReread q s) := by
  refine State.stays_complete ?_
  simp

theorem State.stays_execDmaDescriptorStart (s : State) : s.stays (execDmaDescriptorStart s) := by
  refine State.stays_complete ?_
  simp

theorem State.stays_execDmaPulse (number : Nat) (data : List Byte) (status : List Nat) (arrived : Bool) (s : State) : s.stays (execDmaPulse number data status arrived s) := by
  refine State.stays_complete ?_
  split <;> simp

theorem State.stays_execCompletionTimeout (i : Nat) (answered : Bool) (s : State) : s.stays (execCompletionTimeout i answered s) := by
  refine State.stays_complete ?_
  split <;> simp

theorem State.stays_execHxPerstN (ep : Nat) (level : Bool) (s : State) : s.stays (execHxPerstN ep level s) := by
  refine State.stays_complete ?_
  simp

theorem State.stays_execEpPark (seq : Nat) (s : State) : s.stays (execEpPark seq s) := by
  refine State.stays_complete ?_
  simp

theorem State.stays_execEpUnpark (seq : Nat) (s : State) : s.stays (execEpUnpark seq s) := by
  refine State.stays_complete ?_
  simp

theorem State.stays_execParkComplete (e : Nat) (s : State) : s.stays (execParkComplete e s) := by
  refine State.stays_complete ?_
  split <;> simp

theorem State.stays_execExpose (seq : Nat) (s : State) : s.stays (execExpose seq s) := by
  refine State.stays_complete ?_
  simp

theorem State.stays_execExposureSeal (s : State) : s.stays (execExposureSeal s) := by
  refine State.stays_complete ?_
  split <;> simp

theorem State.stays_execExposureTimeout (s : State) : s.stays (execExposureTimeout s) := by
  refine State.stays_complete ?_
  split <;> simp

theorem State.stays_execMirrorSet (seq : Nat) (s : State) : s.stays (execMirrorSet seq s) := by
  refine State.stays_complete ?_
  simp

theorem State.stays_execExportRecord (loupe : Bool) (s : State) : s.stays (execExportRecord loupe s) := by
  refine State.stays_complete ?_
  (repeat' split) <;> simp

theorem State.stays_execCaptureWrite (written : Bool) (s : State) : s.stays (execCaptureWrite written s) := by
  refine State.stays_complete ?_
  simp

theorem State.stays_execBistGroupStart (g : Nat) (s : State) : s.stays (execBistGroupStart g s) := by
  refine State.stays_complete ?_
  split <;> simp

theorem State.stays_execBistUnitComplete (g sig : Nat) (restored : Bool) (s : State) : s.stays (execBistUnitComplete g sig restored s) := by
  refine State.stays_complete ?_
  simp

theorem State.stays_execBistWindowReady (s : State) : s.stays (execBistWindowReady s) := by
  refine State.stays_complete ?_
  simp

theorem State.stays_execRailSequenceStart (s : State) : s.stays (execRailSequenceStart s) := by
  refine State.stays_complete ?_
  simp

theorem State.stays_execRailGroupGood (g : Nat) (s : State) : s.stays (execRailGroupGood g s) := by
  refine State.stays_complete ?_
  simp

theorem State.stays_execRailFail (g good : Nat) (s : State) : s.stays (execRailFail g good s) := by
  refine State.stays_complete ?_
  simp

theorem State.stays_execRailRetry (s : State) : s.stays (execRailRetry s) := by
  refine State.stays_complete ?_
  simp

theorem State.stays_execResetNHigh (s : State) : s.stays (execResetNHigh s) := by
  refine State.stays_complete ?_
  simp

theorem State.stays_execPwrfailNHigh (s : State) : s.stays (execPwrfailNHigh s) := by
  refine State.stays_complete ?_
  simp

theorem State.stays_execHoldUpIsolation (s : State) : s.stays (execHoldUpIsolation s) := by
  refine State.stays_complete ?_
  simp

theorem State.stays_execKeeperStart (mainMv auxMv : Nat) (s : State) : s.stays (execKeeperStart mainMv auxMv s) := by
  refine State.stays_complete ?_
  simp

theorem State.stays_execKeeperSwitch (mainMv auxMv : Nat) (s : State) : s.stays (execKeeperSwitch mainMv auxMv s) := by
  refine State.stays_complete ?_
  simp

theorem State.stays_execKeeperReturnMain (mainMv auxMv dipNs : Nat) (s : State) : s.stays (execKeeperReturnMain mainMv auxMv dipNs s) := by
  refine State.stays_complete ?_
  simp

theorem State.stays_execModeRequestQuery (seq : Nat) (s : State) : s.stays (execModeRequestQuery seq s) := by
  refine State.stays_complete ?_
  simp

theorem State.stays_execModeRequestRestart (seq : Nat) (s : State) : s.stays (execModeRequestRestart seq s) := by
  refine State.stays_complete ?_
  simp

theorem State.stays_execModeRequestSafe (seq : Nat) (s : State) : s.stays (execModeRequestSafe seq s) := by
  refine State.stays_complete ?_
  simp

theorem State.stays_execAdvertSend (s : State) : s.stays (execAdvertSend s) := by
  refine State.stays_complete ?_
  simp

theorem State.stays_execAddressClaim (s : State) : s.stays (execAddressClaim s) := by
  refine State.stays_complete ?_
  simp

theorem State.stays_execClaimHoldEnd (s : State) : s.stays (execClaimHoldEnd s) := by
  refine State.stays_complete ?_
  simp

theorem State.stays_execAdvertExpiry (s : State) : s.stays (execAdvertExpiry s) := by
  refine State.stays_complete ?_
  simp

theorem State.stays_execPreviousAddressExpiry (s : State) : s.stays (execPreviousAddressExpiry s) := by
  refine State.stays_complete ?_
  simp

theorem State.stays_execFabAddressQuery (seq : Nat) (s : State) : s.stays (execFabAddressQuery seq s) := by
  refine State.stays_complete ?_
  simp

theorem State.stays_execFabAddressSet (seq : Nat) (s : State) : s.stays (execFabAddressSet seq s) := by
  refine State.stays_complete ?_
  simp

theorem State.stays_execClaimTimeout (seq : Nat) (s : State) : s.stays (execClaimTimeout seq s) := by
  refine State.stays_complete ?_
  simp

theorem State.stays_execRouteCompute (s : State) : s.stays (execRouteCompute s) := by
  refine State.stays_complete ?_
  simp

theorem State.stays_execSprayEpoch (s : State) : s.stays (execSprayEpoch s) := by
  refine State.stays_complete ?_
  simp

theorem State.stays_execTsyncSend (s : State) : s.stays (execTsyncSend s) := by
  refine State.stays_complete ?_
  simp

theorem State.stays_execFabTimeLost (s : State) : s.stays (execFabTimeLost s) := by
  refine State.stays_complete ?_
  simp

theorem State.stays_execPrismStep (k : Nat) (late : Bool) (s : State) : s.stays (execPrismStep k late s) := by
  refine State.stays_complete ?_
  simp

theorem State.stays_execReturnReady (k : Nat) (s : State) : s.stays (execReturnReady k s) := by
  refine State.stays_complete ?_
  simp

theorem State.stays_execFarLate (k : Nat) (s : State) : s.stays (execFarLate k s) := by
  refine State.stays_complete ?_
  split <;> simp

theorem State.stays_execCutSegmentPresent (n : Nat) (s : State) : s.stays (execCutSegmentPresent n s) := by
  refine State.stays_complete ?_
  split <;> simp

theorem State.stays_execParseCut (k : Nat) (s : State) : s.stays (execParseCut k s) := by
  refine State.stays_complete ?_
  (repeat' split) <;> simp

theorem State.stays_execFarCompletion (f id status latency : Nat) (data : List Byte) (s : State) : s.stays (execFarCompletion f id status latency data s) := by
  refine State.stays_complete ?_
  simp

theorem State.stays_execFarLink (f : Nat) (s : State) : s.stays (execFarLink f s) := by
  refine State.stays_complete ?_
  simp

theorem State.stays_execHbmScrub (q line errors : Nat) (s : State) : s.stays (execHbmScrub q line errors s) := by
  refine State.stays_complete ?_
  simp

theorem State.stays_execServiceWordIssue (sf : Nat) (s : State) : s.stays (execServiceWordIssue sf s) := by
  refine State.stays_complete ?_
  simp

theorem State.stays_execServiceResult (sf : Nat) (data : List Byte) (s : State) : s.stays (execServiceResult sf data s) := by
  refine State.stays_complete ?_
  (repeat' split) <;> simp

theorem State.stays_execBlockResetComplete (b : Nat) (s : State) : s.stays (execBlockResetComplete b s) := by
  refine State.stays_complete ?_
  simp

theorem State.stays_execBlockResetFail (b : Nat) (s : State) : s.stays (execBlockResetFail b s) := by
  refine State.stays_complete ?_
  simp

theorem State.stays_execLearnInsert (s : State) : s.stays (execLearnInsert s) := by
  refine State.stays_complete ?_
  split <;> simp

theorem State.stays_execHitWrite (s : State) : s.stays (execHitWrite s) := by
  refine State.stays_complete ?_
  split <;> simp

theorem State.stays_execAgingVisit (t : Nat) (s : State) : s.stays (execAgingVisit t s) := by
  refine State.stays_complete ?_
  simp

theorem State.stays_execTblNext (seq : Nat) (s : State) : s.stays (execTblNext seq s) := by
  refine State.stays_complete ?_
  simp

theorem State.stays_execFarPortEnumerate (ports : List (Nat × Nat × Nat)) (s : State) : s.stays (execFarPortEnumerate ports s) := by
  refine State.stays_complete ?_
  simp

theorem State.stays_execJournalScan (fails : Nat) (s : State) : s.stays (execJournalScan fails s) := by
  refine State.stays_complete ?_
  split <;> simp

theorem State.stays_execPpsOut (s : State) : s.stays (execPpsOut s) := by
  refine State.stays_complete ?_
  simp

theorem State.stays_execCellWrite (src bank : Nat) (s : State) : s.stays (execCellWrite src bank s) := by
  refine State.stays_complete ?_
  simp

theorem State.stays_execFrameEndReport (n : Nat) (s : State) : s.stays (execFrameEndReport n s) := by
  refine State.stays_complete ?_
  simp

theorem State.stays_execEnqueue (s : State) : s.stays (execEnqueue s) := by
  refine State.stays_complete ?_
  simp

theorem State.stays_execPaceWindowEnd (first : Nat) (others : List Nat) (s : State) : s.stays (execPaceWindowEnd first others s) := by
  refine State.stays_complete ?_
  simp

theorem State.stays_execPaceVgood (level : Bool) (s : State) : s.stays (execPaceVgood level s) := by
  refine State.stays_complete ?_
  simp

theorem State.stays_execPaceVmaxN (level : Bool) (s : State) : s.stays (execPaceVmaxN level s) := by
  refine State.stays_complete ?_
  simp

theorem State.stays_execVgoodTimeout (s : State) : s.stays (execVgoodTimeout s) := by
  refine State.stays_complete ?_
  simp

theorem State.stays_execAprBqRead (src : HostSrc) (form : ReadForm) (s : State) : s.stays (execAprBqRead src form s) := by
  refine State.stays_complete ?_
  simp

theorem State.stays_execFltEvqRead (src : HostSrc) (form : ReadForm) (s : State) : s.stays (execFltEvqRead src form s) := by
  refine State.stays_complete ?_
  simp

theorem State.stays_execCntLoupeRead (src : HostSrc) (form : ReadForm) (s : State) : s.stays (execCntLoupeRead src form s) := by
  refine State.stays_complete ?_
  simp

theorem State.stays_execMacPtpTsRead (src : HostSrc) (n : Nat) (form : ReadForm) (s : State) : s.stays (execMacPtpTsRead src n form s) := by
  refine State.stays_complete ?_
  simp

theorem State.stays_execConfigRequest (src : HostSrc) (reg : Nat) (write : Bool) (value : Nat) (s : State) : s.stays (execConfigRequest src reg write value s) := by
  refine State.stays_complete ?_
  simp

theorem State.stays_execVersionStageOpen (seq : Nat) (s : State) : s.stays (execVersionStageOpen seq s) := by
  refine State.stays_complete ?_
  simp

theorem State.stays_execVersionStageAbandon (seq : Nat) (s : State) : s.stays (execVersionStageAbandon seq s) := by
  refine State.stays_complete ?_
  simp

theorem State.stays_execAbandonSweepComplete (s : State) : s.stays (execAbandonSweepComplete s) := by
  refine State.stays_complete ?_
  simp

theorem State.stays_execCommitTakeover (s : State) : s.stays (execCommitTakeover s) := by
  refine State.stays_complete ?_
  (repeat' split) <;> simp

theorem State.stays_execVersionRetire (s : State) : s.stays (execVersionRetire s) := by
  refine State.stays_complete ?_
  simp

theorem State.stays_execSettlePassComplete (a : Nat) (s : State) : s.stays (execSettlePassComplete a s) := by
  refine State.stays_complete ?_
  simp

end Sys2Proof.Machine
end

section
/-! SUPPORT. The modes: the transitions of the table of R503, and the statement about every step (R503 to R506, R525, R526, R529). -/
namespace Sys2Proof.Machine

/-! ### The moves -/

/-- Which modes the table of R503 lets follow the mode of `s`. -/
def State.leads (s : State) : Mode → Prop
  | .dormant => True
  | .prove => s.mode = .dormant ∧ s.power.resetN = true ∧ s.power.pwrfailN = true ∧ s.power.railsGood = true
  | .load => s.mode = .prove
  | .serve => s.mode = .load ∧ s.boot.epochWritten = true
  | .holdUp => s.powered
  | .safe => s.fault.chipReset = true ∨ s.powered

/-- What `Obligations.ModesChangeAsListed` says of one step from `s` to `t`. -/
def State.moves (s t : State) : Prop :=
  (t.mode = .serve → s.mode = .serve ∨ (s.mode = .load ∧ s.boot.epochWritten = true)) ∧ (t.mode = .load → s.mode = .load ∨ s.mode = .prove) ∧
    (t.mode = .prove → s.mode = .prove ∨
      (s.mode = .dormant ∧ s.power.resetN = true ∧ s.power.pwrfailN = true ∧ s.power.railsGood = true)) ∧
    (t.mode = .holdUp → s.mode = .holdUp ∨ s.powered) ∧ (t.mode ≠ s.mode → t.prev = s.mode) ∧
    ((s.fault.chipReset = true → s.mode = .prove ∨ s.mode = .load ∨ s.mode = .serve) →
      (t.fault.chipReset = true → t.mode = .prove ∨ t.mode = .load ∨ t.mode = .serve) ∧
        (t.mode = .safe → s.powered) ∧ (s.mode = .holdUp → t.mode = .holdUp ∨ t.mode = .dormant) ∧
        (s.mode = .dormant → t.mode = .dormant ∨ t.mode = .prove))

theorem State.modes_inj {s : State} {m p : Mode} {c : Bool} (h : s.modes = (m, p, c)) :
    s.mode = m ∧ s.prev = p ∧ (s.fault.chipReset && !s.mode.runs) = c := by
  simpa only [State.modes, Prod.mk.injEq] using h

theorem State.mode_of_modes {s t : State} (h : t.modes = s.modes) : t.mode = s.mode := (State.modes_inj h).1

theorem Mode.runs_iff (m : Mode) : m.runs = true ↔ m = .prove ∨ m = .load ∨ m = .serve := by
  cases m <;> decide

/-- No chip reset waits outside the modes in which one may. -/
theorem State.chipReset_runs_iff (s : State) :
    (s.fault.chipReset && !s.mode.runs) = false ↔ (s.fault.chipReset = true → s.mode = .prove ∨ s.mode = .load ∨ s.mode = .serve) := by
  rw [← Mode.runs_iff]
  cases s.fault.chipReset <;> simp

theorem State.moves_of_modes {s t : State} (h : t.modes = s.modes) : s.moves t := by
  obtain ⟨hm, -, hc⟩ := State.modes_inj h
  refine ⟨fun ht => .inl (hm ▸ ht), fun ht => .inl (hm ▸ ht), fun ht => .inl (hm ▸ ht), fun ht => .inl (hm ▸ ht), fun ht => absurd hm ht, fun hs => ?_⟩
  refine ⟨t.chipReset_runs_iff.mp (hc.trans (s.chipReset_runs_iff.mpr hs)), fun ht => ?_, fun h => .inl (hm.trans h), fun h => .inl (hm.trans h)⟩
  exact .inr (.inr (.inr (hm ▸ ht)))

theorem State.moves_congr {s t u : State} (h : u.modes = t.modes) (ht : s.moves t) : s.moves u := by
  obtain ⟨hm, hp, hc⟩ := State.modes_inj h
  unfold State.moves at ht ⊢
  rw [← State.chipReset_runs_iff t] at ht
  rw [← State.chipReset_runs_iff u, hm, hp, ← hm, hc, hm]
  exact ht

/-- A mode that the table allows is entered with the mode before it shown, and no chip reset waits where none may. -/
theorem State.moves_enter {s t : State} {m : Mode} (h : t.modes = (m, s.mode, false)) (hl : s.leads m) : s.moves t := by
  obtain ⟨hm, hp, hc⟩ := State.modes_inj h
  unfold State.moves
  rw [← State.chipReset_runs_iff t, hm, hp]
  rw [hm] at hc
  cases m with
  | dormant => simp [hc]
  | prove =>
    obtain ⟨hd, hpins⟩ := hl
    simp [hc, hd, hpins]
  | load => simp [hc, show s.mode = .prove from hl]
  | serve =>
    obtain ⟨hd, he⟩ := hl
    simp [hc, hd, he]
  | holdUp =>
    obtain hs | hs | hs | hs := show s.powered from hl <;> simp [State.powered, hc, hs]
  | safe =>
    obtain hs | hs := show s.fault.chipReset = true ∨ s.powered from hl
    · refine ⟨nofun, nofun, nofun, nofun, fun _ => rfl, fun hw => ?_⟩
      obtain hs | hs | hs := hw hs <;> simp [State.powered, hc, hs]
    · obtain hs | hs | hs | hs := hs <;> simp [State.powered, hc, hs]

/-- The keeper's state, when the device is dormant already: the mode before stays what it was. -/
theorem State.moves_dormant {s t : State} {p : Mode} (h : t.modes = (.dormant, p, false)) (hp : s.mode = .dormant ∨ p = s.mode) : s.moves t := by
  obtain hs | rfl := hp
  · obtain ⟨hm, -, hc⟩ := State.modes_inj h
    unfold State.moves
    rw [← State.chipReset_runs_iff t, hc, hm, hs]
    simp
  · exact State.moves_enter h trivial

/-! ### One lemma per transition -/

theorem State.modes_dormantCore (s : State) : s.dormantCore.modes = (.dormant, s.mode, false) := rfl

theorem State.modes_restart (s : State) : s.restart.modes = (.dormant, s.mode, false) := rfl

theorem State.modes_toSafe (s : State) (cause : Nat) : (s.toSafe cause).modes = (.safe, s.mode, false) :=
  (State.modes_emit ..).trans ((State.modes_emit ..).trans rfl)

theorem State.modes_afterHoldUp (s d : State) : (s.afterHoldUp d).modes = d.modes := by
  unfold State.afterHoldUp
  split
  · exact (State.modes_power ..).trans (State.modes_lowerRails ..)
  · rfl

theorem State.moves_restart (s : State) : s.moves s.restart := State.moves_enter s.modes_restart trivial

theorem State.moves_toSafe {s u : State} (h : u.modes = s.modes) (hs : s.fault.chipReset = true ∨ s.powered) (cause : Nat) :
    s.moves (u.toSafe cause) :=
  State.moves_enter (m := .safe) ((u.modes_toSafe cause).trans (by rw [State.mode_of_modes h])) hs

theorem State.moves_resetLow (s : State) : s.moves s.resetLow := by
  unfold State.resetLow
  dsimp only
  split
  · exact State.moves_of_modes (State.modes_power ..)
  · exact State.moves_enter ((State.modes_power ..).trans (s.modes_afterHoldUp _)) trivial

theorem State.moves_dormantExit (s : State) : s.moves s.dormantExit := by
  unfold State.dormantExit
  split
  · rename_i h
    simp only [Bool.and_eq_true, beq_iff_eq] at h
    obtain ⟨⟨⟨⟨hd, hr⟩, hp⟩, hg⟩, -⟩ := h
    refine State.moves_enter (m := .prove) ?_ ⟨hd, hr, hp, hg⟩
    rw [hd, State.modes_emit, State.modes_set, State.modes_set, State.modes_sampleStraps]
    rfl
  · exact State.moves_of_modes rfl

theorem State.modes_enterHoldUp {s : State} {cause : Nat} (h : s.powered) : (s.enterHoldUp cause).modes = (.holdUp, s.mode, false) := by
  obtain h | h | h | h := h <;> unfold State.enterHoldUp <;> rw [h] <;> dsimp only <;>
    refine ite_keeps ((State.modes_closeEntry ..).trans ?_) ?_ <;> exact (State.modes_gaspAll _).trans (State.modes_endSelfTest _)

theorem State.moves_enterHoldUp {s u : State} (h : u.modes = s.modes) (cause : Nat) : s.moves (u.enterHoldUp cause) := by
  have hm := State.mode_of_modes h
  by_cases hs : s.powered
  · exact State.moves_enter (m := .holdUp) ((State.modes_enterHoldUp (by unfold State.powered; rwa [hm])).trans (by rw [hm])) hs
  · refine State.moves_of_modes (Eq.trans ?_ h)
    unfold State.enterHoldUp
    cases hmode : u.mode with
    | dormant | holdUp => rfl
    | prove | load | serve | safe => simp [State.powered, ← hm, hmode] at hs

theorem State.moves_brownout (s : State) (mainMv auxMv : Nat) : s.moves (s.brownout mainMv auxMv) := by
  unfold State.brownout
  extract_lets sel other
  split
  · refine State.moves_dormant (p := if s.mode == Mode.dormant then s.prev else s.mode) ?_ ?_
    · rw [State.modes_keeperMv, State.modes_set, State.modes_setWord, State.modes_set, State.modes_setWord, State.modes_setWord, State.modes_sat]
      rfl
    · by_cases hd : s.mode = .dormant
      · exact .inl hd
      · exact .inr (if_neg (by simpa using hd))
  · exact State.moves_of_modes rfl

theorem State.moves_thermal (s : State) (temps : List Nat) : s.moves (s.thermal temps) := by
  unfold State.thermal
  extract_lets h warn trip s1 f s2 s3 s4
  have h2 : s2.modes = s.modes := by
    refine (State.modes_congr (s := s1) rfl rfl rfl).trans ?_
    simp [s1]
  have h3 : s3.modes = s.modes := (ite_keeps (State.modes_raise ..) rfl).trans h2
  have h4 : s4.modes = s.modes := (ite_keeps (State.modes_raise ..) rfl).trans h3
  split
  · refine State.moves_congr ((State.modes_power ..).trans (State.modes_lowerRails _)) ?_
    split
    · exact State.moves_of_modes h4
    · exact State.moves_enter (m := .dormant) (s4.modes_dormantCore.trans (by rw [State.mode_of_modes h4])) trivial
  · exact State.moves_of_modes h4

/-! ### Host writes: in SAFE alone one restarts the device, once (R506) -/

/-- The modes as they were, or DORMANT out of SAFE. -/
def State.rests (s t : State) : Prop := t.modes = s.modes ∨ (s.mode = .safe ∧ t.modes = (.dormant, .safe, false))

theorem State.moves_of_rests {s t : State} (h : s.rests t) : s.moves t := by
  obtain h | ⟨hs, h⟩ := h
  · exact State.moves_of_modes h
  · exact State.moves_enter (m := .dormant) (hs ▸ h) trivial

theorem State.rests_trans {s t u : State} (h : s.rests t) (hu : t.rests u) : s.rests u := by
  obtain h | ⟨hs, h⟩ := h
  · obtain hu | ⟨hs, hu⟩ := hu
    · exact .inl (hu.trans h)
    · exact .inr ⟨State.mode_of_modes h ▸ hs, hu⟩
  · obtain hu | ⟨ht, -⟩ := hu
    · exact .inr ⟨hs, hu.trans h⟩
    · rw [(State.modes_inj h).1] at ht
      cases ht

theorem State.rests_modeReqWrite (s : State) (src : HostSrc) (v : Nat) : s.rests (s.modeReqWrite src v) := by
  unfold State.modeReqWrite
  split
  · exact .inl (State.modes_regLog ..)
  · rename_i h
    have hs : s.mode = .safe := by simpa using h
    split
    · exact .inr ⟨hs, hs ▸ s.modes_restart⟩
    · exact .inl (State.modes_regLog ..)

theorem State.rests_regWord (s : State) (src : HostSrc) (off v : Nat) (fs : List WField) : s.rests (s.regWord src off v fs) := by
  unfold State.regWord
  split
  · exact s.rests_modeReqWrite ..
  · left
    dsimp only
    (repeat' split) <;> simp

theorem State.rests_bar0Word (s : State) (src : HostSrc) (off v : Nat) : s.rests (s.bar0Word src off v) := by
  unfold State.bar0Word
  split
  · exact .inl (State.modes_regLog ..)
  · split
    · exact .inl (State.modes_regLog ..)
    · split
      · exact s.rests_regWord ..
      · exact .inl (State.modes_regLog ..)

theorem State.rests_bar0 (s : State) (src : HostSrc) (off v : Nat) : s.rests (s.bar0 src off v) := by
  unfold State.bar0
  split
  · exact s.rests_bar0Word ..
  · exact .inl (State.modes_emit ..)

theorem State.rests_hostWord (s : State) (src : HostSrc) (bar off v be : Nat) : s.rests (s.hostWord src bar off v be) := by
  unfold State.hostWord
  split
  · exact .inl rfl
  · split
    · exact .inl (State.modes_regLog ..)
    · split
      · exact s.rests_bar0Word ..
      · exact .inl (State.modes_bar2Word ..)
      · exact .inl (State.modes_regLog ..)

theorem State.rests_hostWords (s : State) (src : HostSrc) (bar off : Nat) (ws : List (Nat × Nat)) : s.rests (s.hostWords src bar off ws) := by
  induction ws generalizing s off with
  | nil => exact .inl rfl
  | cons w ws ih =>
    unfold State.hostWords
    split
    · exact State.rests_trans (s.rests_hostWord ..) (ih ..)
    · exact .inl rfl

theorem State.rests_hostWrite (s : State) (src : HostSrc) (bar off : Nat) (words : List (Nat × Nat)) :
    s.rests (s.hostWrite src bar off words) := by
  unfold State.hostWrite
  split
  · exact s.rests_hostWords ..
  · exact .inl (State.modes_emit ..)

/-! ### SMBus -/

theorem State.moves_smb {s : State} {body : State → State} (h : s.moves (body s)) (code : Nat) (tx : SmbTx) : s.moves (s.smb code tx body) := by
  unfold State.smb
  split
  · exact State.moves_of_modes rfl
  · split
    · exact State.moves_of_modes (State.modes_emit ..)
    · split
      · exact State.moves_of_modes (State.modes_emit ..)
      · split
        · exact State.moves_of_modes rfl
        · exact h

theorem State.moves_smbMode {s : State} {body : State → State} (h : s.powered → s.moves (body s)) (tx : SmbTx) (op : Nat) :
    s.moves (s.smbMode tx op body) := by
  refine State.moves_smb ?_ _ _
  split
  · rename_i hc
    simp only [Bool.and_eq_true, Bool.or_eq_true, beq_iff_eq] at hc
    refine h ?_
    obtain ⟨((hm | hm) | hm) | hm, -⟩ := hc <;> simp [State.powered, hm]
  · exact State.moves_of_modes rfl

/-! ### Boot -/

theorem State.powered_of_loading {s : State} (h : s.loading = true) : s.powered := by
  simp only [State.loading, Bool.and_eq_true, Bool.or_eq_true, beq_iff_eq] at h
  obtain ⟨hm | hm, -⟩ := h <;> simp [State.powered, hm]

theorem State.moves_failSlot {s u : State} (h : u.modes = s.modes) (hs : s.powered) (slot : Nat) (e : LoadFail) : s.moves (u.failSlot slot e) := by
  unfold State.failSlot
  extract_lets s1 s2
  have h2 : s2.modes = s.modes := (ite_keeps (State.modes_raise ..) rfl).trans ((State.modes_slotReason ..).trans h)
  split
  · exact State.moves_of_modes h2
  · split
    · exact State.moves_of_modes ((State.modes_set ..).trans ((State.modes_set ..).trans
        ((State.modes_boot ..).trans ((State.modes_unload _).trans h2))))
    · exact State.moves_toSafe ((State.modes_set ..).trans h2) (.inr hs) 2

theorem State.moves_discover {s : State} (hs : s.powered) (sfdpValid octal : Bool) (densityMib : Nat) :
    s.moves (s.discover sfdpValid octal densityMib) := by
  unfold State.discover
  split
  · refine State.moves_of_modes ?_
    dsimp only
    rw [State.modes_set]
    refine (ite_keeps (State.modes_set ..) rfl).trans ((State.modes_boot ..).trans ?_)
    simp
  · exact State.moves_toSafe (by simp) (.inr hs) 2

theorem State.moves_enterLoad {s u : State} (h : u.modes = s.modes) (hs : s.mode = .prove ∨ s.mode = .load) : s.moves u.enterLoad := by
  have hm := State.mode_of_modes h
  unfold State.enterLoad
  refine State.moves_congr (State.modes_set ..) ?_
  obtain hs | hs := hs
  · rw [if_neg (by simp [hm, hs])]
    exact State.moves_enter (m := .load) (by simp [hs, Mode.runs]) hs
  · rw [if_pos (by simp [hm, hs])]
    exact State.moves_of_modes h

theorem State.proving_of_loading {s : State} (h : s.loading = true) : s.mode = .prove ∨ s.mode = .load := by
  simp only [State.loading, Bool.and_eq_true, Bool.or_eq_true, beq_iff_eq] at h
  exact h.1

theorem State.moves_authenticate {s : State} (hs : s.loading = true) (img : List Byte) : s.moves (s.authenticate img) := by
  unfold State.authenticate
  extract_lets slot u u1
  have hu : u.modes = s.modes := State.modes_emit ..
  have hu1 : u1.modes = s.modes := (State.modes_set ..).trans hu
  split
  · exact State.moves_failSlot hu (State.powered_of_loading hs) ..
  · split
    · exact State.moves_failSlot hu1 (State.powered_of_loading hs) ..
    · unfold State.authenticated
      extract_lets sec g b u2 u3
      have hu2 : u2.modes = s.modes := (State.modes_set ..).trans ((State.modes_boot ..).trans hu1)
      split
      · exact State.moves_enterLoad hu2 (State.proving_of_loading hs)
      · refine State.moves_of_modes ((State.modes_set ..).trans ((State.modes_set ..).trans ((State.modes_beginPlan ..).trans ?_)))
        exact (State.modes_congr (s := u2) rfl rfl rfl).trans hu2

theorem State.moves_planEnd {s : State} (hs : s.mode = .serve ∨ s.loading = true) : s.moves s.planEnd := by
  unfold State.planEnd
  extract_lets fails bist s1
  have h1 : s1.modes = s.modes := by
    refine (State.modes_set ..).trans ((State.modes_set ..).trans (State.modes_congr rfl rfl rfl))
  split
  · exact State.moves_of_modes h1
  · rename_i hne
    have hl : s.loading = true := hs.resolve_left (by simpa using hne)
    split
    · exact State.moves_enterLoad ((State.modes_boot ..).trans ((State.modes_emptyMemories _).trans h1)) (State.proving_of_loading hl)
    · exact State.moves_toSafe h1 (.inr (State.powered_of_loading hl)) 1

theorem State.moves_loadApply {s : State} (hs : s.powered) (g : GoodSlot) (img : List Byte) (p : ImagePlan) : s.moves (s.loadApply g img p) := by
  unfold State.loadApply
  extract_lets u
  have hu : u.modes = s.modes := State.modes_emit ..
  split
  · exact State.moves_failSlot hu hs ..
  · split
    · exact State.moves_failSlot hu hs ..
    · rename_i h
      exact State.moves_of_modes ((State.modes_set ..).trans ((State.modes_boot ..).trans ((State.keeps_applyImage _ _ _ _ h).trans hu)))

theorem State.moves_loadSched {s : State} (hs : s.powered) (g : GoodSlot) : s.moves (s.loadSched g) := by
  unfold State.loadSched
  split
  · exact State.moves_failSlot (State.modes_draw s) hs ..
  · rename_i h
    have ht := State.modes_loadBanks h
    split
    · exact State.moves_failSlot ht hs ..
    · split
      · exact State.moves_failSlot ht hs ..
      · split
        · exact State.moves_failSlot ht hs ..
        · exact State.moves_of_modes ((State.modes_set ..).trans ((State.modes_boot ..).trans ht))

theorem State.moves_enterServe {s : State} (hm : s.mode = .load) (he : s.boot.epochWritten = true) (fails : Nat) : s.moves (s.enterServe fails) := by
  refine State.moves_enter (m := .serve) ?_ ⟨hm, he⟩
  unfold State.enterServe
  extract_lets s1 s2 s3 s4 fab s5
  have h1 : s1.modes = (.serve, s.mode, false) := by
    rw [hm]
    refine (State.modes_emit ..).trans ((State.modes_set ..).trans ?_)
    simp [Mode.runs]
  have h2 : s2.modes = s1.modes := State.modes_set ..
  have h3 : s3.modes = s2.modes := ite_keeps (State.modes_setAddress ..) rfl
  have h4 : s4.modes = s3.modes := modes_foldl (fun t i => ite_keeps (State.modes_set ..) rfl) _ _
  have h5 : s5.modes = s4.modes := State.modes_fab ..
  rw [State.modes_reexecuteNext, h5, h4, h3, h2, h1]

/-! ### Every command -/

/-- The outcome changes the mode along the table alone. -/
def State.goes (s : State) (o : Out State) : Prop := ∀ t, o = .next t → s.moves t

theorem State.goes_of_stays {s : State} {o : Out State} (h : s.stays o) : s.goes o := fun t ht => State.moves_of_modes (h t ht)

theorem State.goes_complete {ok : Bool} {s t : State} (h : s.moves t) : s.goes (complete ok s t) := by
  intro u hu
  obtain ⟨-, rfl⟩ | ⟨-, rfl⟩ := complete_next.mp hu
  · exact State.moves_congr (State.modes_settle t) h
  · exact State.moves_of_modes (State.modes_settle s)

theorem State.moves_refl (s : State) : s.moves s := State.moves_of_modes rfl

/-- A command that acts only where `c` holds. -/
theorem State.moves_ite {s t : State} {c : Prop} [Decidable c] (h : c → s.moves t) : s.moves (if c then t else s) := by
  split
  · rename_i hc
    exact h hc
  · exact s.moves_refl

theorem State.goes_captureRearm (src : HostSrc) (off value : Nat) (s : State) : s.goes (execCaptureRearm src off value s) :=
  State.goes_complete (State.moves_ite fun _ => State.moves_of_rests (State.rests_bar0 ..))

theorem State.goes_holdUpExit (s : State) : s.goes (execHoldUpExit s) :=
  State.goes_complete (State.moves_ite fun _ => State.moves_enter (m := .dormant) (s.modes_afterHoldUp _) trivial)

theorem State.goes_chipResetComplete (s : State) : s.goes (execChipResetComplete s) :=
  State.goes_complete (State.moves_ite fun h => State.moves_toSafe rfl (.inl h) 3)

theorem State.goes_modeRequestTakeover (s : State) : s.goes (execModeRequestTakeover s) := by
  refine State.goes_complete ?_
  split
  · exact State.moves_ite fun _ => s.moves_restart
  · rename_i hm _
    exact State.moves_ite fun _ => State.moves_toSafe rfl (.inr (.inr (.inr (.inl hm)))) 4
  · exact s.moves_refl

theorem State.goes_smbModeSafe (tx : SmbTx) (s : State) : s.goes (execSmbModeSafe tx s) := by
  refine State.goes_complete (State.moves_smbMode (fun hs => ?_) ..)
  split
  · exact s.moves_refl
  · exact State.moves_toSafe rfl (.inr hs) 4

theorem State.goes_flashDiscovery (sfdpValid octal : Bool) (densityMib : Nat) (s : State) :
    s.goes (execFlashDiscovery sfdpValid octal densityMib s) := by
  refine State.goes_complete (State.moves_ite fun h => State.moves_discover ?_ ..)
  simp only [Bool.and_eq_true, beq_iff_eq] at h
  exact .inl h.1.1.1

theorem State.goes_slotAuthenticate (image : List Byte) (s : State) : s.goes (execSlotAuthenticate image s) := by
  refine State.goes_complete (State.moves_ite fun h => State.moves_authenticate ?_ _)
  simp only [Bool.and_eq_true] at h
  exact h.1.1.1.1

theorem State.goes_bistPlanEnd (s : State) : s.goes (execBistPlanEnd s) := by
  refine State.goes_complete (State.moves_ite fun h => State.moves_planEnd ?_)
  simp only [Bool.and_eq_true, Bool.or_eq_true, beq_iff_eq] at h
  exact h.1.symm

theorem State.goes_loadApply (image : List Byte) (plan : ImagePlan) (s : State) : s.goes (execLoadApply image plan s) := by
  refine State.goes_complete ?_
  split
  · refine State.moves_ite fun h => State.moves_loadApply ?_ ..
    simp only [Bool.and_eq_true, beq_iff_eq] at h
    exact .inr (.inl h.1.1.1)
  · exact s.moves_refl

theorem State.goes_loadSched (s : State) : s.goes (execLoadSched s) := by
  refine State.goes_complete ?_
  split
  · refine State.moves_ite fun h => State.moves_loadSched ?_ _
    simp only [Bool.and_eq_true, beq_iff_eq] at h
    exact .inr (.inl h.1.1.1)
  · exact s.moves_refl

theorem State.goes_serveEntry (fails : Nat) (s : State) : s.goes (execServeEntry fails s) := by
  refine State.goes_complete (State.moves_ite fun h => ?_)
  simp only [Bool.and_eq_true, beq_iff_eq] at h
  obtain ⟨⟨hm, -⟩, he⟩ := h
  exact State.moves_enterServe hm he fails

theorem State.goes_exec (c : Instr) (s : State) : s.goes (exec c s) := by
  cases c with
  | cmdDoorbell => exact State.goes_of_stays (State.stays_execCmdDoorbell _ _ _ _)
  | commandAccept => exact State.goes_of_stays (State.stays_execCommandAccept _ _)
  | commandComplete => exact State.goes_of_stays (State.stays_execCommandComplete _ _ _)
  | gatePulse => exact State.goes_of_stays (State.stays_execGatePulse _)
  | gateTimeout => exact State.goes_of_stays (State.stays_execGateTimeout _ _)
  | tblInsert => exact State.goes_of_stays (State.stays_execTblInsert _ _ _)
  | tblDelete => exact State.goes_of_stays (State.stays_execTblDelete _ _ _)
  | tblSearch => exact State.goes_of_stays (State.stays_execTblSearch _ _ _)
  | tblNext => exact State.goes_of_stays (State.stays_execTblNext _ _)
  | tblFlushPort => exact State.goes_of_stays (State.stays_execTblFlushPort _ _)
  | lensWrite => exact State.goes_of_stays (State.stays_execLensWrite _ _ _)
  | lensDeath => exact State.goes_of_stays (State.stays_execLensDeath _ _ _)
  | lensRevive => exact State.goes_of_stays (State.stays_execLensRevive _ _ _)
  | lensInvalidate => exact State.goes_of_stays (State.stays_execLensInvalidate _ _)
  | versionStageOpen => exact State.goes_of_stays (State.stays_execVersionStageOpen _ _)
  | versionStageAbandon => exact State.goes_of_stays (State.stays_execVersionStageAbandon _ _)
  | abandonSweepComplete => exact State.goes_of_stays (State.stays_execAbandonSweepComplete _)
  | versionCommit => exact State.goes_of_stays (State.stays_execVersionCommit _ _)
  | commitTakeover => exact State.goes_of_stays (State.stays_execCommitTakeover _)
  | mcodePatch => exact State.goes_of_stays (State.stays_execMcodePatch _ _ _)
  | shaperSet => exact State.goes_of_stays (State.stays_execShaperSet _ _)
  | shaperQuery => exact State.goes_of_stays (State.stays_execShaperQuery _ _)
  | gateListSet => exact State.goes_of_stays (State.stays_execGateListSet _ _ _)
  | gateListStop => exact State.goes_of_stays (State.stays_execGateListStop _ _)
  | meterSet => exact State.goes_of_stays (State.stays_execMeterSet _ _)
  | epMigrateLocal => exact State.goes_of_stays (State.stays_execEpMigrateLocal _ _)
  | epMigrateOut => exact State.goes_of_stays (State.stays_execEpMigrateOut _ _)
  | epMigrateIn => exact State.goes_of_stays (State.stays_execEpMigrateIn _ _)
  | migTokenArrival => exact State.goes_of_stays (State.stays_execMigTokenArrival _ _)
  | fenceLimitExpiry => exact State.goes_of_stays (State.stays_execFenceLimitExpiry _ _)
  | tailWindowEnd => exact State.goes_of_stays (State.stays_execTailWindowEnd _ _)
  | markerLimitExpiry => exact State.goes_of_stays (State.stays_execMarkerLimitExpiry _ _)
  | epPark => exact State.goes_of_stays (State.stays_execEpPark _ _)
  | parkComplete => exact State.goes_of_stays (State.stays_execParkComplete _ _)
  | epUnpark => exact State.goes_of_stays (State.stays_execEpUnpark _ _)
  | expose => exact State.goes_of_stays (State.stays_execExpose _ _)
  | exposureSeal => exact State.goes_of_stays (State.stays_execExposureSeal _)
  | exposureTimeout => exact State.goes_of_stays (State.stays_execExposureTimeout _)
  | counterClear => exact State.goes_of_stays (State.stays_execCounterClear _ _)
  | mirrorSet => exact State.goes_of_stays (State.stays_execMirrorSet _ _)
  | fabAddressQuery => exact State.goes_of_stays (State.stays_execFabAddressQuery _ _)
  | fabAddressSet => exact State.goes_of_stays (State.stays_execFabAddressSet _ _)
  | fabAddressClaim => exact State.goes_of_stays (State.stays_execFabAddressClaim _ _)
  | claimTimeout => exact State.goes_of_stays (State.stays_execClaimTimeout _ _)
  | fabLinkDisable => exact State.goes_of_stays (State.stays_execFabLinkDisable _ _)
  | fabLinkEnable => exact State.goes_of_stays (State.stays_execFabLinkEnable _ _)
  | fabLinkRetrain => exact State.goes_of_stays (State.stays_execFabLinkRetrain _ _)
  | fabLinkWidth => exact State.goes_of_stays (State.stays_execFabLinkWidth _ _)
  | fabLinkAutoOff => exact State.goes_of_stays (State.stays_execFabLinkAutoOff _ _)
  | fabLinkAutoOn => exact State.goes_of_stays (State.stays_execFabLinkAutoOn _ _)
  | modeRequestQuery => exact State.goes_of_stays (State.stays_execModeRequestQuery _ _)
  | modeRequestRestart => exact State.goes_of_stays (State.stays_execModeRequestRestart _ _)
  | modeRequestSafe => exact State.goes_of_stays (State.stays_execModeRequestSafe _ _)
  | modeRequestTakeover => exact State.goes_modeRequestTakeover s
  | nop => exact State.goes_of_stays (State.stays_execNop _ _)
  | unknownCode => exact State.goes_of_stays (State.stays_execUnknownCode _ _)
  | registerWrite => exact State.goes_complete (State.moves_of_rests (State.rests_hostWrite ..))
  | paceTargetWrite => exact State.goes_complete (State.moves_of_rests (State.rests_bar0 ..))
  | paceXoffInWrite => exact State.goes_complete (State.moves_of_rests (State.rests_bar0 ..))
  | paceXoffOutWrite => exact State.goes_complete (State.moves_of_rests (State.rests_bar0 ..))
  | bufWmWrite => exact State.goes_complete (State.moves_of_rests (State.rests_bar0 ..))
  | aprResWrite => exact State.goes_complete (State.moves_of_rests (State.rests_bar0 ..))
  | swcDqWrite => exact State.goes_complete (State.moves_of_rests (State.rests_bar0 ..))
  | hostQWrite => exact State.goes_complete (State.moves_of_rests (State.rests_bar0 ..))
  | hostQbaseWrite => exact State.goes_complete (State.moves_of_rests (State.rests_bar0 ..))
  | queueDoorbell => exact State.goes_of_stays (State.stays_execQueueDoorbell _ _ _ _)
  | dmaRingWrite => exact State.goes_complete (State.moves_of_rests (State.rests_bar0 ..))
  | dmaDoorbell => exact State.goes_complete (State.moves_of_rests (State.rests_bar0 ..))
  | cmdRingWrite => exact State.goes_complete (State.moves_of_rests (State.rests_bar0 ..))
  | cmdPostWrite => exact State.goes_complete (State.moves_of_rests (State.rests_bar0 ..))
  | timeAdjWrite => exact State.goes_complete (State.moves_of_rests (State.rests_bar0 ..))
  | timeOffsetWrite => exact State.goes_complete (State.moves_of_rests (State.rests_bar0 ..))
  | msaInstall => exact State.goes_complete (State.moves_of_rests (State.rests_bar0 ..))
  | msaInvalidate => exact State.goes_complete (State.moves_of_rests (State.rests_bar0 ..))
  | msaReadPn => exact State.goes_complete (State.moves_of_rests (State.rests_bar0 ..))
  | msecPortWrite => exact State.goes_complete (State.moves_of_rests (State.rests_bar0 ..))
  | macPreemptWrite => exact State.goes_complete (State.moves_of_rests (State.rests_bar0 ..))
  | cntProbeWrite => exact State.goes_complete (State.moves_of_rests (State.rests_bar0 ..))
  | bistWindowOpen => exact State.goes_complete (State.moves_of_rests (State.rests_bar0 ..))
  | bistWindowReady => exact State.goes_of_stays (State.stays_execBistWindowReady _)
  | bistStart => exact State.goes_complete (State.moves_of_rests (State.rests_bar0 ..))
  | bistWindowClose => exact State.goes_complete (State.moves_of_rests (State.rests_bar0 ..))
  | fltForceWrite => exact State.goes_complete (State.moves_of_rests (State.rests_bar0 ..))
  | fltStatusClear => exact State.goes_complete (State.moves_of_rests (State.rests_bar0 ..))
  | topModeReqRestart => exact State.goes_complete (State.moves_of_rests (State.rests_bar0 ..))
  | keepTodWrite => exact State.goes_complete (State.moves_of_rests (State.rests_bar0 ..))
  | hostWakeClear => exact State.goes_complete (State.moves_of_rests (State.rests_bar0 ..))
  | captureRearm => exact State.goes_captureRearm _ _ _ _
  | cntXringWrite => exact State.goes_complete (State.moves_of_rests (State.rests_bar0 ..))
  | aprBqRead => exact State.goes_of_stays (State.stays_execAprBqRead _ _ _)
  | fltEvqRead => exact State.goes_of_stays (State.stays_execFltEvqRead _ _ _)
  | cntLoupeRead => exact State.goes_of_stays (State.stays_execCntLoupeRead _ _ _)
  | macPtpTsRead => exact State.goes_of_stays (State.stays_execMacPtpTsRead _ _ _ _)
  | configRequest => exact State.goes_of_stays (State.stays_execConfigRequest _ _ _ _ _)
  | smbJrnPointer => exact State.goes_complete (State.moves_smb (State.moves_of_modes (State.modes_cmd ..)) ..)
  | smbJrnRead => exact State.goes_complete (State.moves_smb (State.moves_of_modes (State.modes_journalBlock s)) ..)
  | smbJrnStatus => exact State.goes_complete (State.moves_smb (State.moves_of_modes (State.modes_emit ..)) ..)
  | smbLogPointer => exact State.goes_complete (State.moves_smb (State.moves_of_modes (State.modes_congr rfl rfl rfl)) ..)
  | smbLogRead => exact State.goes_complete (State.moves_smb (State.moves_of_modes (State.modes_congr rfl rfl rfl)) ..)
  | smbModeQuery => exact State.goes_complete (State.moves_smbMode (fun _ => State.moves_of_modes rfl) ..)
  | smbModeRestart => exact State.goes_complete (State.moves_smbMode (fun _ => s.moves_restart) ..)
  | smbModeSafe => exact State.goes_smbModeSafe _ _
  | smbUnlistedCommand => exact State.goes_complete (State.moves_smb (State.moves_of_modes rfl) ..)
  | frameReceive => exact State.goes_of_stays (State.stays_execFrameReceive _ _ _ _ _ _ _)
  | cellWrite => exact State.goes_of_stays (State.stays_execCellWrite _ _ _)
  | pauseRefresh => exact State.goes_of_stays (State.stays_execPauseRefresh _ _)
  | pauseFrame => exact State.goes_of_stays (State.stays_execPauseFrame _ _ _)
  | priorityPauseFrame => exact State.goes_of_stays (State.stays_execPriorityPauseFrame _ _ _ _)
  | pauseExpiry => exact State.goes_of_stays (State.stays_execPauseExpiry _ _ _)
  | xoffInChange => exact State.goes_of_stays (State.stays_execXoffInChange _ _ _)
  | cutSegmentPresent => exact State.goes_of_stays (State.stays_execCutSegmentPresent _ _)
  | parseCut => exact State.goes_of_stays (State.stays_execParseCut _ _)
  | frameEndReport => exact State.goes_of_stays (State.stays_execFrameEndReport _ _)
  | apertureDecision => exact State.goes_of_stays (State.stays_execApertureDecision _ _)
  | prismStep => exact State.goes_of_stays (State.stays_execPrismStep _ _ _)
  | returnReady => exact State.goes_of_stays (State.stays_execReturnReady _ _)
  | farLate => exact State.goes_of_stays (State.stays_execFarLate _ _)
  | enqueue => exact State.goes_of_stays (State.stays_execEnqueue _)
  | switchCutStart => exact State.goes_of_stays (State.stays_execSwitchCutStart _ _)
  | spillWriteComplete => exact State.goes_of_stays (State.stays_execSpillWriteComplete _ _)
  | spillBlockFlush => exact State.goes_of_stays (State.stays_execSpillBlockFlush _ _ _)
  | refillStart => exact State.goes_of_stays (State.stays_execRefillStart _ _)
  | refillComplete => exact State.goes_of_stays (State.stays_execRefillComplete _ _ _)
  | collimatorSelect => exact State.goes_of_stays (State.stays_execCollimatorSelect _ _ _)
  | shaperTick => exact State.goes_of_stays (State.stays_execShaperTick _ _)
  | starve => exact State.goes_of_stays (State.stays_execStarve _ _)
  | gateTransition => exact State.goes_of_stays (State.stays_execGateTransition _ _)
  | gateChange => exact State.goes_of_stays (State.stays_execGateChange _ _)
  | linkUp => exact State.goes_of_stays (State.stays_execLinkUp _ _)
  | macLink => exact State.goes_of_stays (State.stays_execMacLink _ _ _ _ _)
  | breachLink => exact State.goes_of_stays (State.stays_execBreachLink _ _)
  | breachPause => exact State.goes_of_stays (State.stays_execBreachPause _ _)
  | cellFree => exact State.goes_of_stays (State.stays_execCellFree _ _ _ _)
  | chainHandoff => exact State.goes_of_stays (State.stays_execChainHandoff _ _ _ _)
  | verifyTimer => exact State.goes_of_stays (State.stays_execVerifyTimer _ _ _)
  | versionRetire => exact State.goes_of_stays (State.stays_execVersionRetire _)
  | settlePassComplete => exact State.goes_of_stays (State.stays_execSettlePassComplete _ _)
  | paceWindowEnd => exact State.goes_of_stays (State.stays_execPaceWindowEnd _ _ _)
  | paceVgood => exact State.goes_of_stays (State.stays_execPaceVgood _ _)
  | paceVmaxN => exact State.goes_of_stays (State.stays_execPaceVmaxN _ _)
  | vgoodTimeout => exact State.goes_of_stays (State.stays_execVgoodTimeout _)
  | serviceWorkArrival => exact State.goes_of_stays (State.stays_execServiceWorkArrival _ _ _)
  | serviceWordIssue => exact State.goes_of_stays (State.stays_execServiceWordIssue _ _)
  | serviceResult => exact State.goes_of_stays (State.stays_execServiceResult _ _ _)
  | blockResetComplete => exact State.goes_of_stays (State.stays_execBlockResetComplete _ _)
  | blockResetFail => exact State.goes_of_stays (State.stays_execBlockResetFail _ _)
  | learnInsert => exact State.goes_of_stays (State.stays_execLearnInsert _)
  | agingVisit => exact State.goes_of_stays (State.stays_execAgingVisit _ _)
  | hitWrite => exact State.goes_of_stays (State.stays_execHitWrite _)
  | lensCompare => exact State.goes_of_stays (State.stays_execLensCompare _ _ _)
  | irisCellReceive => exact State.goes_of_stays (State.stays_execIrisCellReceive _ _ _)
  | rtReadySend => exact State.goes_of_stays (State.stays_execRtReadySend _ _)
  | irisCtrlSend => exact State.goes_of_stays (State.stays_execIrisCtrlSend _ _)
  | ackTimeout => exact State.goes_of_stays (State.stays_execAckTimeout _ _)
  | retryBudget => exact State.goes_of_stays (State.stays_execRetryBudget _ _)
  | callSend => exact State.goes_of_stays (State.stays_execCallSend _ _)
  | echoMissed => exact State.goes_of_stays (State.stays_execEchoMissed _ _)
  | irisTrained => exact State.goes_of_stays (State.stays_execIrisTrained _ _ _ _)
  | laneLockLoss => exact State.goes_of_stays (State.stays_execLaneLockLoss _ _ _)
  | laneThreshold => exact State.goes_of_stays (State.stays_execLaneThreshold _ _ _ _)
  | rtReqRepeat => exact State.goes_of_stays (State.stays_execRtReqRepeat _ _)
  | retrainComplete => exact State.goes_of_stays (State.stays_execRetrainComplete _ _)
  | retrainTimeout => exact State.goes_of_stays (State.stays_execRetrainTimeout _ _)
  | gaspRepeat => exact State.goes_of_stays (State.stays_execGaspRepeat _ _)
  | advertReceive => exact State.goes_of_stays (State.stays_execAdvertReceive _)
  | advertSend => exact State.goes_of_stays (State.stays_execAdvertSend _)
  | advertExpiry => exact State.goes_of_stays (State.stays_execAdvertExpiry _)
  | addressClaim => exact State.goes_of_stays (State.stays_execAddressClaim _)
  | claimHoldEnd => exact State.goes_of_stays (State.stays_execClaimHoldEnd _)
  | routeCompute => exact State.goes_of_stays (State.stays_execRouteCompute _)
  | sprayEpoch => exact State.goes_of_stays (State.stays_execSprayEpoch _)
  | reorderTimeout => exact State.goes_of_stays (State.stays_execReorderTimeout _ _ _)
  | gapLimit => exact State.goes_of_stays (State.stays_execGapLimit _ _ _)
  | irisDeadline => exact State.goes_of_stays (State.stays_execIrisDeadline _ _ _)
  | tsyncSend => exact State.goes_of_stays (State.stays_execTsyncSend _)
  | treplyReceive => exact State.goes_of_stays (State.stays_execTreplyReceive _)
  | fabTimeLost => exact State.goes_of_stays (State.stays_execFabTimeLost _)
  | dynamicRequest => exact State.goes_of_stays (State.stays_execDynamicRequest _ _ _)
  | hbmRefresh => exact State.goes_of_stays (State.stays_execHbmRefresh _ _ _ _)
  | hbmScrub => exact State.goes_of_stays (State.stays_execHbmScrub _ _ _ _)
  | hbmRetrainStart => exact State.goes_of_stays (State.stays_execHbmRetrainStart _ _)
  | hbmRetrainComplete => exact State.goes_of_stays (State.stays_execHbmRetrainComplete _ _)
  | hbmRetrain => exact State.goes_of_stays (State.stays_execHbmRetrain _ _)
  | skewWindow => exact State.goes_of_stays (State.stays_execSkewWindow _)
  | farCompletion => exact State.goes_of_stays (State.stays_execFarCompletion _ _ _ _ _ _)
  | farLink => exact State.goes_of_stays (State.stays_execFarLink _ _)
  | descriptorReadComplete => exact State.goes_of_stays (State.stays_execDescriptorReadComplete _ _ _ _)
  | descriptorReread => exact State.goes_of_stays (State.stays_execDescriptorReread _ _)
  | txDescriptor => exact State.goes_of_stays (State.stays_execTxDescriptor _ _ _ _)
  | completionTimeout => exact State.goes_of_stays (State.stays_execCompletionTimeout _ _ _)
  | msixModeration => exact State.goes_of_stays (State.stays_execMsixModeration _ _ _)
  | functionLevelReset => exact State.goes_of_stays (State.stays_execFunctionLevelReset _ _)
  | hxPerstN => exact State.goes_of_stays (State.stays_execHxPerstN _ _ _)
  | dmaDescriptorStart => exact State.goes_of_stays (State.stays_execDmaDescriptorStart _)
  | dmaPulse => exact State.goes_of_stays (State.stays_execDmaPulse _ _ _ _ _)
  | exportRecord => exact State.goes_of_stays (State.stays_execExportRecord _ _)
  | captureWrite => exact State.goes_of_stays (State.stays_execCaptureWrite _ _)
  | ppsOut => exact State.goes_of_stays (State.stays_execPpsOut _)
  | chipResetComplete => exact State.goes_chipResetComplete s
  | resetNLow => exact State.goes_complete s.moves_resetLow
  | dormantExit => exact State.goes_complete s.moves_dormantExit
  | railGroupGood => exact State.goes_of_stays (State.stays_execRailGroupGood _ _)
  | railFail => exact State.goes_of_stays (State.stays_execRailFail _ _ _)
  | railRetry => exact State.goes_of_stays (State.stays_execRailRetry _)
  | pwrfailN => exact State.goes_complete (State.moves_enterHoldUp (State.modes_power ..) 0)
  | coreSupplyLost => exact State.goes_complete (State.moves_enterHoldUp rfl 1)
  | holdUpIsolation => exact State.goes_of_stays (State.stays_execHoldUpIsolation _)
  | holdUpExit => exact State.goes_holdUpExit s
  | keeperSwitch => exact State.goes_of_stays (State.stays_execKeeperSwitch _ _ _)
  | keeperReturnMain => exact State.goes_of_stays (State.stays_execKeeperReturnMain _ _ _ _)
  | keeperBrownout => exact State.goes_complete (s.moves_brownout ..)
  | thermalSample => exact State.goes_complete (State.moves_ite fun _ => s.moves_thermal ..)
  | flashDiscovery => exact State.goes_flashDiscovery _ _ _ _
  | slotAuthenticate => exact State.goes_slotAuthenticate _ _
  | bistUnitComplete => exact State.goes_of_stays (State.stays_execBistUnitComplete _ _ _ _)
  | bistPlanEnd => exact State.goes_bistPlanEnd s
  | farPortEnumerate => exact State.goes_of_stays (State.stays_execFarPortEnumerate _ _)
  | loadApply => exact State.goes_loadApply _ _ _
  | loadSched => exact State.goes_loadSched s
  | journalScan => exact State.goes_of_stays (State.stays_execJournalScan _ _)
  | serveEntry => exact State.goes_serveEntry _ _
  | keeperStart => exact State.goes_of_stays (State.stays_execKeeperStart _ _ _)
  | railSequenceStart => exact State.goes_of_stays (State.stays_execRailSequenceStart _)
  | resetNHigh => exact State.goes_of_stays (State.stays_execResetNHigh _)
  | pwrfailNHigh => exact State.goes_of_stays (State.stays_execPwrfailNHigh _)
  | bistGroupStart => exact State.goes_of_stays (State.stays_execBistGroupStart _ _)
  | previousAddressExpiry => exact State.goes_of_stays (State.stays_execPreviousAddressExpiry _)
  | openRowTimeout => exact State.goes_of_stays (State.stays_execOpenRowTimeout _ _ _)
  | setAndHoldMac => exact State.goes_of_stays (State.stays_execSetAndHoldMac _ _)
  | spillRateWindow => exact State.goes_of_stays (State.stays_execSpillRateWindow _)
  | hostLinkTrained => exact State.goes_of_stays (State.stays_execHostLinkTrained _ _ _ _ _)

/-- Settles O58: each command leaves the modes as they were or makes one of the transitions above, and a cycle of the clock changes no mode. -/
theorem modesChangeAsListed : Obligations.ModesChangeAsListed := by
  intro s t h
  unfold step at h
  split at h
  · rw [← Host.Outcome.next.inj h]
    exact State.moves_of_modes (State.modes_tick s)
  · rename_i c rest _
    exact (({ s with pending := rest } : State).goes_exec c) t h

end Sys2Proof.Machine
end

section
/-! SUPPORT. A step runs the front of the queue. -/
namespace Sys2Proof.Machine

/-- Settles O53: `step` is defined by this case. -/
theorem stepRunsTheFront : Obligations.StepRunsTheFront := fun _ _ _ => rfl

end Sys2Proof.Machine
end

section
/-! SUPPORT. The state after reset (R19, R400, R503, R524, R547; log 3). -/
namespace Sys2Proof.Machine

theorem State.reset_word (k : Nat) : State.reset.word k = resetWord k := rfl

/-- Reset writes no register of a watermark. -/
theorem State.reset_not_configured (n : Nat) : n ∉ State.reset.configured := nofun

theorem State.reset_wm {n : Nat} (hn : n < 1024) : State.reset.wm n = false := by
  simp [State.wm, State.bit, State.get, R.BUF_WM.STATE, State.reset_word, resetWord_wm hn, bitsGet]

/-- The default reaction of the table of R524: an interrupt, and no chip reset, for the sources of the ports and the irises. -/
theorem State.reset_reaction {n : Nat} (h64 : 64 ≤ n) (h240 : n < 240) :
    State.reset.bit (R.FLT_REACT.IRQ n) = true ∧ State.reset.bit (R.FLT_REACT.CHIP n) = false := by
  have hword : State.reset.word (0x201000 + 8 * n) = 1 := by
    rw [State.reset_word, resetWord, if_pos (by omega), show (0x201000 + 8 * n - 0x201000) / 8 = n by omega]
    unfold defaultReaction
    split
    iterate 18 omega
    rw [if_neg (by omega), if_pos ⟨h64, h240⟩]
    rfl
  simp [State.bit, State.get, R.FLT_REACT.IRQ, R.FLT_REACT.CHIP, hword, bitsGet]

/-- No pause runs and no XOFF_IN pin is high. -/
theorem State.reset_held (n c : Nat) : State.reset.held n c = false := by
  have hpause (p : Nat) : State.reset.pauseRuns n p = false := rfl
  have hpin : ∀ i ∈ List.range 8, State.reset.pace.xoffIn.getD i false = false := by decide
  simp only [State.held, State.pauseHeld, State.xoffHeld, hpause, Bool.false_or, Bool.false_and, List.any_eq_false, Bool.or_eq_false_iff]
  exact ⟨fun _ _ => nofun, fun i hi => by rw [hpin i hi]; simp⟩

theorem State.reset_sound : State.reset.sound := by
  refine ⟨fun n hn => ?_, fun n c _ _ => ?_, (by decide +kernel : _ = _), rfl⟩
  · obtain ⟨hwm, hnext⟩ := State.wmNext_of_not_configured hn (State.reset_not_configured n)
    rw [hwm, hnext]
  · rw [State.reset_held]
    exact iff_of_false (fun h => h rfl) nofun

/-- Settles O55: the register map is empty at reset, so each word is its reset value. -/
theorem resetHolds : Obligations.ResetHolds := by
  refine ⟨rfl, rfl, rfl, rfl, rfl, State.reset_word, ?_⟩
  have hvalues : State.reset.get R.PACE_CTRL.SETTLE = 4 ∧ State.reset.get R.PACE_DEFICIT.LIMIT = 16 ∧
    State.reset.get R.PACE_TARGET.GUARD = 2200 ∧ State.reset.get R.PACE_TARGET.TARGET = 2250 ∧ State.reset.get R.BUF_POOL.FREE = 786432 ∧
    State.reset.get R.COL_STARVE_LIMIT.LIMIT = 500 := by decide +kernel
  have hgates : ∀ o, o < 96 → State.reset.get (R.COL_GATE.STATE o) = 255 := by decide +kernel
  have hrest : State.reset.get R.HBM_CFG.AGE_LIMIT = 20 ∧ State.reset.get R.HBM_SKEW_CFG.THRESH = 512 ∧
    State.reset.get R.CMD_CFG.GATE_TIMEOUT = 1000 ∧ State.reset.get R.KEEP_THERM.TRIP = 108 ∧
    State.reset.bit (R.FLT_REACT.HOLD 0) = true ∧ State.reset.bit (R.FLT_REACT.IRQ 0) = true := by decide +kernel
  obtain ⟨h1, h2, h3, h4, h5, h6⟩ := hvalues
  obtain ⟨h7, h8, h9, h10, h11, h12⟩ := hrest
  exact ⟨h1, h2, h3, h4, h5, h6, hgates, h7, h8, h9, h10, h11, h12, fun _ => State.reset_reaction, fun _ => State.reset_wm, State.reset_sound,
    by decide⟩

end Sys2Proof.Machine
end

section
/-! SUPPORT. The rail sequencer: what its commands leave, and the statement about the rails (R510, R512). -/
namespace Sys2Proof.Machine

/-! ### What commands of the supplies leave -/

/-- The frame of a command that changes the supplies. -/
theorem State.kept_power {s x : State} {outs : List Emit} {but : Nat → Prop} (hs : ({ x with power := s.power } : State).still = s.still)
    (hout : x.out = s.out ++ outs) (hw : ∀ k, ¬ but k → x.word k = s.word k) : s.kept { x.settle with power := s.power } outs but :=
  State.kept_sent (g := fun y => { y with power := s.power }) (fun _ => rfl) (fun _ => rfl) (fun _ => rfl) hs hout hw

/-- A command that sets the supplies alone. -/
theorem State.kept_power_only (s : State) (p : PowerState) :
    s.kept { ({ s with power := p } : State).settle with power := s.power } [] fun _ => False :=
  State.kept_power rfl (List.append_nil _).symm fun _ _ => rfl

/-- A command that finds nothing to do. -/
theorem idle_of_eq {ok : Bool} {s t : State} (h : t = s) : ∃ u, complete ok s t = .next u ∧ s.kept u [] fun _ => False :=
  ⟨s.settle, by cases ok <;> simp [complete, h], s.kept_settle⟩

/-- A log entry counts in FLT_LOG.HEAD (R536). -/
theorem State.logFault_head (s : State) (source info : Nat) (f e c : Bool) (time : Nat) :
    (s.logFault source info f e c time).get R.FLT_LOG.HEAD = (s.get R.FLT_LOG.HEAD + 1) % 2 ^ 32 := by
  unfold State.logFault
  dsimp only
  rw [State.get_set_same _ _ _ (by decide)]
  simp [wrapAdd, R.FLT_LOG.HEAD]

/-- With the core held in reset, source 4 or 5 is logged and nothing else (R527). -/
theorem State.raise_keeper_head {s : State} {n info : Nat} (hn : n = 4 ∨ n = 5) (hc : s.coreUp = false) :
    (s.raise n info).get R.FLT_LOG.HEAD = (s.get R.FLT_LOG.HEAD + 1) % 2 ^ 32 := by
  have hl : sourceListed n = true := by rcases hn with rfl | rfl <;> decide
  rw [State.raise, State.raiseAs, if_neg (by simp [hl]), if_pos (by simp [hc]), if_pos hn, State.logFault_head]

/-! ### The rails (R510) -/

/-- The sequencer starts where the keeper runs, nothing holds it, and PWRFAIL_N has been high for its time. -/
theorem State.startRails_of {s : State} (hk : s.power.keeper = true) (hl : s.power.latched = false) (hr : s.power.retryWait = false)
    (hp : s.power.needHigh = false ∨ (s.power.pwrfailN = true ∧ s.power.highNs + 100000000 ≤ s.power.clock))
    (hh : s.bit R.KEEP_RAIL.HOLD_OFF = false) (he : s.power.en = 0) :
    s.startRails = ({ s with power := { s.power with en := 1, needHigh := false, enNs := s.power.clock } } : State).emit (.railEn 0 true) := by
  unfold State.startRails
  exact if_pos (by simpa [hk, hl, hr, hh, he] using hp)

theorem State.startRails_not {s : State} (h : s.power.keeper = false ∨ s.power.latched = true ∨ s.power.retryWait = true ∨
    s.bit R.KEEP_RAIL.HOLD_OFF = true ∨ s.power.en ≠ 0 ∨
    (s.power.needHigh = true ∧ (s.power.pwrfailN = false ∨ s.power.clock < s.power.highNs + 100000000))) : s.startRails = s := by
  unfold State.startRails
  refine if_neg ?_
  rcases h with h | h | h | h | h | ⟨hn, h⟩
  iterate 5 simp [h]
  simp only [hn, Bool.not_true, Bool.false_or, Bool.and_eq_true, decide_eq_true_eq]
  rintro ⟨⟨⟨-, hp, hc⟩, -⟩, -⟩
  rcases h with h | h
  · simp [h] at hp
  · omega

theorem Instr.wf_railGroupGood {g : Nat} (h : g < 4) : Instr.wf (.railGroupGood g) = true := decide_eq_true h

theorem Instr.wf_railFail {g good : Nat} (h : g < 4) (hg : good < 256) : Instr.wf (.railFail g good) = true := by
  simp [Instr.wf, h, hg]

theorem State.lowerRails_out (s : State) :
    s.lowerRails.out = s.out ++ [.railEn 3 false, .railEn 2 false, .railEn 1 false, .railEn 0 false] := by
  simp [State.lowerRails, State.emit]

/-- The failed attempt of group `g`, before the enables fall (R510 step 4). -/
def State.railFailed (s : State) (g : Nat) : State :=
  let s1 : State := { s with power := { s.power with
    tries := s.power.tries + 1, latched := decide (3 ≤ s.power.tries + 1), retryWait := decide (s.power.tries + 1 < 3)
    failNs := s.power.clock } }
  (if s.get R.KEEP_RAIL.ATTEMPTS == 0 then s1.set R.KEEP_RAIL.FAIL_GROUP g else s1).sat R.KEEP_RAIL.ATTEMPTS 1

theorem State.groupFail_of {s : State} {g good : Nat} (hk : s.power.keeper = true) (he : s.power.en = 2 ^ (g + 1) - 1)
    (hr : s.power.railsGood = false) (hg : good &&& groupRails g ≠ groupRails g) (hc : s.power.enNs + 20000000 ≤ s.power.clock) :
    s.groupFail g good = (s.railFailed g).lowerRails.raise 5 0 := by
  unfold State.groupFail
  exact if_pos (by simp [hk, he, hr, hg, hc])

theorem State.railFailed_attempts (s : State) (g : Nat) :
    (s.railFailed g).get R.KEEP_RAIL.ATTEMPTS = min (s.get R.KEEP_RAIL.ATTEMPTS + 1) 3 := by
  unfold State.railFailed
  rw [State.get_sat_same _ _ _ (by decide)]
  split
  · rw [State.get_set_of_bits (by decide) (by decide)]
    rfl
  · rfl

theorem State.railFailed_group (s : State) {g : Nat} (hg : g < 4) :
    (s.railFailed g).get R.KEEP_RAIL.FAIL_GROUP = if s.get R.KEEP_RAIL.ATTEMPTS = 0 then g else s.get R.KEEP_RAIL.FAIL_GROUP := by
  unfold State.railFailed State.sat
  rw [State.get_set_of_bits (by decide) (by decide)]
  by_cases h : s.get R.KEEP_RAIL.ATTEMPTS = 0
  · rw [if_pos h, if_pos (by simp [h]), State.get_set_same _ _ _ (by decide)]
    exact Nat.mod_eq_of_lt hg
  · rw [if_neg h, if_neg (by simp [h])]
    rfl

theorem State.lowerRails_get (s : State) (l : Loc) : s.lowerRails.get l = s.get l := rfl

theorem State.railFailed_mode (s : State) (g : Nat) : (s.railFailed g).mode = s.mode := by
  unfold State.railFailed
  dsimp only
  split <;> rfl

theorem State.railFailed_out (s : State) (g : Nat) : (s.railFailed g).out = s.out := by
  unfold State.railFailed
  dsimp only
  split <;> rfl

theorem State.railFailed_isolated (s : State) (g : Nat) : (s.railFailed g).power.isolated = s.power.isolated := by
  unfold State.railFailed
  dsimp only
  split <;> rfl

theorem State.coreUp_congr {s t : State} (hm : t.mode = s.mode) (hp : t.power.isolated = s.power.isolated) : t.coreUp = s.coreUp := by
  unfold State.coreUp
  rw [hm, hp]

theorem State.railFailed_core (s : State) (g : Nat) : (s.railFailed g).lowerRails.coreUp = s.coreUp :=
  State.coreUp_congr (s.railFailed_mode g) (s.railFailed_isolated g)

theorem State.railFailed_head (s : State) (g : Nat) : (s.railFailed g).get R.FLT_LOG.HEAD = s.get R.FLT_LOG.HEAD := by
  unfold State.railFailed State.sat
  rw [State.get_set_of_off (by decide)]
  split
  · rw [State.get_set_of_off (by decide)]
    rfl
  · rfl

theorem State.railFailed_power (s : State) (g : Nat) : (s.railFailed g).power = { s.power with
    tries := s.power.tries + 1, latched := decide (3 ≤ s.power.tries + 1), retryWait := decide (s.power.tries + 1 < 3)
    failNs := s.power.clock } := by
  unfold State.railFailed
  dsimp only
  split <;> rfl

theorem State.raise_power (s : State) (n info : Nat) :
    (s.raise n info).power = { s.power with ranChip := (s.raise n info).power.ranChip } := by
  have h := (raises s n info none false).eq
  exact congrArg State.power h

/-- A failed attempt: the enables fall, it is counted, its group named, KEEP_RAIL raised (R510 step 4). -/
theorem State.railFail_spec (s : State) {g good : Nat} (hg4 : g < 4) (hg : good < 256) (hk : s.power.keeper = true)
    (he : s.power.en = 2 ^ (g + 1) - 1) (hr : s.power.railsGood = false) (hgood : good &&& groupRails g ≠ groupRails g)
    (hc : s.power.enNs + 20000000 ≤ s.power.clock) :
    ∃ t, exec (.railFail g good) s = .next t ∧ t.power.en = 0 ∧ t.power.good = 0 ∧ t.power.tries = s.power.tries + 1 ∧
      t.power.failNs = s.power.clock ∧
      t.power.latched = decide (3 ≤ s.power.tries + 1) ∧ t.power.retryWait = decide (s.power.tries + 1 < 3) ∧
      t.get R.KEEP_RAIL.ATTEMPTS = min (s.get R.KEEP_RAIL.ATTEMPTS + 1) 3 ∧
      (s.get R.KEEP_RAIL.ATTEMPTS = 0 → t.get R.KEEP_RAIL.FAIL_GROUP = g) ∧
      (s.get R.KEEP_RAIL.ATTEMPTS ≠ 0 → t.get R.KEEP_RAIL.FAIL_GROUP = s.get R.KEEP_RAIL.FAIL_GROUP) ∧
      (s.coreUp = true → t.bit (faultBit 5) = true) ∧
      (s.coreUp = false → t.get R.FLT_LOG.HEAD = (s.get R.FLT_LOG.HEAD + 1) % 2 ^ 32) ∧
      s.emits t [.railEn 3 false, .railEn 2 false, .railEn 1 false, .railEn 0 false] := by
  have hcore := s.railFailed_core g
  have hpow : ((s.railFailed g).lowerRails.raise 5 0).settle.power = { s.power with
      tries := s.power.tries + 1, latched := decide (3 ≤ s.power.tries + 1), retryWait := decide (s.power.tries + 1 < 3)
      failNs := s.power.clock, en := 0, good := 0, railsGood := false
      ranChip := ((s.railFailed g).lowerRails.raise 5 0).power.ranChip } := by
    rw [State.settle_power, State.raise_power]
    simp only [State.lowerRails, State.emit, State.railFailed_power]
  have hget : ∀ l : Loc, ¬ raiseReg l.off → ¬ followReg l.off →
      ((s.railFailed g).lowerRails.raise 5 0).settle.get l = (s.railFailed g).get l := fun l h h' => by
    rw [State.settle_get _ h', State.raise_get _ _ _ h, State.lowerRails_get]
  have hgroup := s.railFailed_group hg4
  refine ⟨_, complete_of_eq (Instr.wf_railFail hg4 hg) (State.groupFail_of hk he hr hgood hc), ?_⟩
  rw [hpow, hget _ (by decide) (by decide), hget _ (by decide) (by decide), s.railFailed_attempts]
  refine ⟨rfl, rfl, rfl, rfl, rfl, rfl, rfl, fun h => by rw [hgroup, if_pos h], fun h => by rw [hgroup, if_neg h], fun h => ?_, fun h => ?_, ?_⟩
  · rw [State.settle_latch _ (by decide)]
    exact State.raise_latches _ _ _ (by decide) (hcore.trans h)
  · rw [State.settle_get _ (by decide), State.raise_keeper_head (.inr rfl) (hcore.trans h), State.lowerRails_get, s.railFailed_head]
  · obtain ⟨l, hl⟩ := (raises (s.railFailed g).lowerRails 5 0 none false).out
    obtain ⟨k, hk, -⟩ := (settles ((s.railFailed g).lowerRails.raise 5 0)).out
    refine ⟨l ++ k, hk.trans ?_⟩
    rw [State.raise, hl, State.lowerRails_out, s.railFailed_out]
    simp

/-- Settles O44: each clause is the branch of the sequencer that its premises select. -/
theorem railsSequence : Obligations.RailsSequence := by
  refine ⟨fun s hk hl hr hp hh he => ?_, fun s h => idle_of_eq (State.startRails_not h), fun s g hg hk he hr hc => ?_,
    fun s hk he hr hc => ?_, fun s g good hg4 hg hk he hr hgood hc => s.railFail_spec hg4 hg hk he hr hgood hc,
    fun s g good hg4 hg => ⟨fun hc => ?_, fun hc => ?_⟩, fun s hr hf hk hl hn hh he => ?_⟩
  · refine ⟨_, complete_of_eq rfl (State.startRails_of hk hl hr hp hh he), ?_, State.kept_power rfl rfl fun _ _ => rfl⟩
    rw [State.settle_power]
    rfl
  · have hgood : s.groupGood g = ({ s with power := { s.power with
        good := s.power.good ||| groupRails g, en := 2 ^ (g + 2) - 1, enNs := s.power.clock } } : State).emit (.railEn (g + 1) true) := by
      unfold State.groupGood
      rw [if_pos (by simp [hk, he, hr, goodAfter, hg, hc]), if_pos hg]
    refine ⟨_, complete_of_eq (Instr.wf_railGroupGood (by omega)) hgood, ?_, State.kept_power rfl rfl fun _ _ => rfl⟩
    rw [State.settle_power]
    rfl
  · have hgood : s.groupGood 3 = ({ s with power := { s.power with
        good := s.power.good ||| 0x80, railsGood := true, tries := 0 } } : State).set R.KEEP_RAIL.ATTEMPTS 0 := by
      unfold State.groupGood
      rw [if_pos (by simp [hk, he, hr, goodAfter, hc]), if_neg (by decide)]
      rfl
    refine ⟨_, complete_of_eq (Instr.wf_railGroupGood (by decide)) hgood, ?_, ?_,
      State.kept_power rfl (List.append_nil _).symm fun k hk => State.word_set_other _ hk⟩
    · rw [State.settle_power]
      rfl
    · rw [State.settle_get _ (by decide), State.get_set_same _ _ _ (by decide)]
      rfl
  · refine idle_of_eq (if_neg ?_)
    simp only [Bool.and_eq_true, decide_eq_true_eq]
    omega
  · refine idle_of_eq (if_neg ?_)
    simp only [Bool.and_eq_true, decide_eq_true_eq]
    omega
  · have hretry : ({ s with power := { s.power with retryWait := false } } : State).startRails =
        ({ s with power := { s.power with retryWait := false, en := 1, enNs := s.power.clock } } : State).emit (.railEn 0 true) := by
      refine (State.startRails_of (s := { s with power := { s.power with retryWait := false } }) hk hl rfl (.inl hn) hh he).trans ?_
      simp only [hn]
    refine ⟨_, complete_of_eq rfl ((if_pos (by simp [hr, hf])).trans hretry), ?_, State.kept_power rfl rfl fun _ _ => rfl⟩
    rw [State.settle_power]
    rfl

end Sys2Proof.Machine
end

section
/-! SUPPORT. What follows a command in a core with nothing to do, and what DORMANT leaves of the registers (R503, R514). -/
namespace Sys2Proof.Machine

/-! ### What follows a command in a core with nothing to do -/

/-- What decides whether anything shows after a command: the registers, the outputs, the buffers and the frames of the MACs. -/
def State.shown (s : State) : SMap Word × List Emit × BufState × SMap (Option Sending) × SMap (List (List Byte)) :=
  (s.regs, s.out, s.buf, s.mac.sending, s.mac.control)

theorem State.shown_holdSync (s : State) (n c : Nat) : (s.holdSync n c).shown = s.shown := by
  unfold State.holdSync
  dsimp only
  split
  · split <;> rfl
  · split <;> rfl

theorem State.shown_holdClocks (s : State) : s.holdClocks.shown = s.shown :=
  foldl_keeps (g := State.shown) (fun t n => foldl_keeps (g := State.shown) (fun u c => u.shown_holdSync n c) _ t) _ s

/-- A core that holds no packet, sends no frame and has no watermark set: nothing shows after a command. -/
structure State.quiet (s : State) : Prop where
  wm : ∀ n, wmListed n = true → s.word (0x1B04000 + 8 * n) = 0
  hold : s.word 0x1C00010 = 0
  buf : s.buf = {}
  sending : s.mac.sending = []
  control : s.mac.control = []

theorem State.quiet_of_shown {s t : State} (h : t.shown = s.shown) (hs : s.quiet) : t.quiet := by
  simp only [State.shown, Prod.mk.injEq] at h
  obtain ⟨hr, -, hb, hse, hc⟩ := h
  exact ⟨fun n hn => (State.word_of_regs hr _).trans (hs.wm n hn), (State.word_of_regs hr _).trans hs.hold, hb.trans hs.buf,
    hse.trans hs.sending, hc.trans hs.control⟩

theorem State.quiet.wmNext {s : State} (h : s.quiet) {n : Nat} (hn : wmListed n = true) : s.wm n = false ∧ s.wmNext n = false := by
  have hw := h.wm n hn
  constructor <;> simp [State.wm, State.wmNext, State.bit, State.get, R.BUF_WM.STATE, R.BUF_WM.HIGH, hw, bitsGet]

theorem State.configured_listed {s : State} {n : Nat} (h : n ∈ s.configured) : wmListed n = true := (List.mem_filter.mp h).2

/-- A field of a register that reads 0 is written 0. -/
theorem State.word_set_zero {s : State} {l : Loc} (h : s.word l.off = 0) (k : Nat) : (s.set l 0).word k = s.word k := by
  by_cases hk : k = l.off
  · subst hk
    have hzero : bitsSet 0 l.lo l.w 0 = 0 := by simp [bitsSet]
    rw [State.set, h, State.word_setWord_same, show (0 : Word).toNat = 0 from rfl, hzero]
    rfl
  · exact State.word_set_other s hk

theorem State.quiet.crossings {s : State} (h : s.quiet) : s.crossings = s := by
  unfold State.crossings
  have hid : ∀ (ns : List Nat) (t : State), (∀ n ∈ ns, wmListed n = true) → ns.foldl (fun t n =>
      if n < 96 ∧ s.wmNext n ≠ s.wm n then t.sendPause n (if s.wmNext n then s.get (R.MAC_FC.QUANTA n) else 0) else t) t = t := by
    intro ns
    induction ns with
    | nil => exact fun _ _ => rfl
    | cons n ns ih =>
      intro t hns
      obtain ⟨hwm, hnext⟩ := h.wmNext (hns n (.head _))
      rw [List.foldl_cons, if_neg (by simp [hwm, hnext])]
      exact ih t fun m hm => hns m (.tail _ hm)
  exact hid _ s fun n hn => State.configured_listed hn

/-- The watermarks are written as they are. -/
theorem State.quiet.watermarks {s : State} (h : s.quiet) : (∀ k, s.watermarks.word k = s.word k) ∧
    ∃ rs, s.watermarks = { s with regs := rs } := by
  unfold State.watermarks
  have hrun : ∀ (ns : List Nat) (t : State), (∀ n ∈ ns, wmListed n = true) → (∀ k, t.word k = s.word k) → (∃ rs, t = { s with regs := rs }) →
      (∀ k, (ns.foldl (fun t n => t.setBit (R.BUF_WM.STATE n) (s.wmNext n)) t).word k = s.word k) ∧
        ∃ rs, ns.foldl (fun t n => t.setBit (R.BUF_WM.STATE n) (s.wmNext n)) t = { s with regs := rs } := by
    intro ns
    induction ns with
    | nil => exact fun _ _ hw hr => ⟨hw, hr⟩
    | cons n ns ih =>
      intro t hns hw hr
      have hn := hns n (.head _)
      refine ih _ (fun m hm => hns m (.tail _ hm)) (fun k => ?_) ?_
      · dsimp only
        rw [(h.wmNext hn).2]
        exact (State.word_set_zero ((hw _).trans (h.wm n hn)) k).trans (hw k)
      · obtain ⟨rs, rfl⟩ := hr
        exact ⟨_, rfl⟩
  exact hrun _ s (fun n hn => State.configured_listed hn) (fun _ => rfl) ⟨_, rfl⟩

theorem State.quiet.holdFragments {s : State} (h : s.quiet) : s.holdFragments = s := by
  unfold State.holdFragments
  have hnone (n : Nat) : s.sending n = none := by
    rw [State.sending, h.sending]
    rfl
  refine List.foldlRecOn (motive := fun t => t = s) _ _ rfl fun t ht e _ => ?_
  subst ht
  split
  · rw [State.holdFragment, hnone]
  · rfl

theorem State.quiet.syncHold {s : State} (h : s.quiet) (k : Nat) : s.syncHold.word k = s.word k := by
  have hn : ((s.buf.handoff ++ s.buf.cutting.map (·.2)).filter fun p => p.cut && p.copy == 0).length = 0 := by rw [h.buf]; rfl
  unfold State.syncHold
  rw [hn]
  exact State.word_set_zero h.hold k

/-- Nothing shows after a command that leaves a quiet core. -/
theorem State.quiet.settle {s : State} (h : s.quiet) : s.settle.out = s.out ∧ ∀ k, s.settle.word k = s.word k := by
  have hclocks : s.holdClocks.quiet := State.quiet_of_shown s.shown_holdClocks h
  have helig : s.holdClocks.eligClocks = s.holdClocks := by
    unfold State.eligClocks
    rw [hclocks.buf]
    rfl
  have hshown : s.holdClocks.eligClocks.endTurns.shown = s.shown := by
    rw [helig]
    exact s.shown_holdClocks
  have hq : s.holdClocks.eligClocks.endTurns.quiet := State.quiet_of_shown hshown h
  simp only [State.shown, Prod.mk.injEq] at hshown
  obtain ⟨hregs, hout, -, -, -⟩ := hshown
  rw [State.settle_eq, hq.crossings]
  generalize s.holdClocks.eligClocks.endTurns = u at *
  obtain ⟨hw, rs, hrs⟩ := hq.watermarks
  have hq2 : u.watermarks.quiet := by
    refine ⟨fun n hn => (hw _).trans (hq.wm n hn), (hw _).trans hq.hold, ?_, ?_, ?_⟩ <;> rw [hrs]
    · exact hq.buf
    · exact hq.sending
    · exact hq.control
  have hsend : u.watermarks.send = u.watermarks.syncHold.endFreed := by
    rw [State.send, hq2.holdFragments]
    have hcontrol : u.watermarks.startControls = u.watermarks := by
      rw [State.startControls, hq2.control]
      rfl
    rw [hcontrol, State.resumePorts, hq2.sending]
    rfl
  rw [hsend]
  refine ⟨?_, fun k => (hq2.syncHold k).trans ((hw k).trans (State.word_of_regs hregs k))⟩
  have hwout : u.watermarks.out = u.out := by rw [hrs]
  show u.watermarks.syncHold.out = s.out
  have hsync : u.watermarks.syncHold.out = u.watermarks.out := by
    unfold State.syncHold State.peak
    dsimp only
    split <;> rfl
  rw [hsync, hwout, hout]

/-! ### What DORMANT leaves of the registers (R514) -/

theorem State.word_keepKeys (s : State) (p : Nat → Bool) (k : Nat) :
    SMap.find resetWord (keepKeys p s.regs) k = if p k then s.word k else resetWord k := by
  unfold keepKeys
  split
  · rename_i h
    exact SMap.find_filter _ _ _ _ h
  · rename_i h
    refine SMap.find_none _ _ _ fun e he hk => ?_
    obtain ⟨-, hp⟩ := List.mem_filter.mp he
    exact h (hk ▸ hp)

theorem State.word_dormantCore (s : State) (k : Nat) : s.dormantCore.word k = if keeperOff k then s.word k else resetWord k :=
  s.word_keepKeys keeperOff k

theorem keeperOff_of_followReg {k : Nat} (h : followReg k) : keeperOff k = false := by
  simp only [keeperOff, Bool.or_eq_false_iff, decide_eq_false_iff_not, beq_eq_false_iff_ne]
  omega

/-- A core in reset, whose registers in `followReg` read their reset values, shows nothing after a command. -/
theorem State.quiet_of_reset {s : State} (hw : ∀ k, followReg k → s.word k = resetWord k) (hb : s.buf = {}) (hm : s.mac = {}) : s.quiet := by
  refine ⟨fun n hn => ?_, ?_, hb, by rw [hm], by rw [hm]⟩
  · have hlt := wmListed_lt hn
    rw [hw _ (by unfold followReg; omega), resetWord_wm (by omega)]
  · rw [hw _ (by unfold followReg; omega)]
    decide +kernel

end Sys2Proof.Machine
end

section
/-! SUPPORT. The keeper and its inputs (R513 to R515, R600). -/
namespace Sys2Proof.Machine

/-! ### The keeper's inputs (R513, R600) -/

theorem State.keeperMv_power (s : State) (m a : Nat) : (s.keeperMv m a).power = s.power.mainAt m := rfl

theorem State.keeperMv_get (s : State) (m a : Nat) {l : Loc} (hl : l.lo + l.w ≤ 64) (h : l.lo + l.w ≤ 24 ∨ 48 ≤ l.lo) :
    (s.keeperMv m a).get l = s.get l := by
  have haux : R.KEEP_SUPPLY.AUX_MV.lo + R.KEEP_SUPPLY.AUX_MV.w ≤ l.lo ∨ l.lo + l.w ≤ R.KEEP_SUPPLY.AUX_MV.lo := by
    simp only [R.KEEP_SUPPLY.AUX_MV]
    omega
  have hmain : R.KEEP_SUPPLY.MAIN_MV.lo + R.KEEP_SUPPLY.MAIN_MV.w ≤ l.lo ∨ l.lo + l.w ≤ R.KEEP_SUPPLY.MAIN_MV.lo := by
    simp only [R.KEEP_SUPPLY.MAIN_MV]
    omega
  rw [State.keeperMv, State.get_set_of_bits hl haux, State.get_set_of_bits hl hmain]
  rfl

theorem State.keeperMv_aux (s : State) (m : Nat) {a : Nat} (h : a < 4096) : (s.keeperMv m a).get R.KEEP_SUPPLY.AUX_MV = a := by
  rw [State.keeperMv, State.get_set_same _ _ _ (by decide)]
  exact Nat.mod_eq_of_lt h

theorem State.keeperMv_main (s : State) {m : Nat} (a : Nat) (h : m < 4096) : (s.keeperMv m a).get R.KEEP_SUPPLY.MAIN_MV = m := by
  rw [State.keeperMv, State.get_set_of_bits (by decide) (by decide), State.get_set_same _ _ _ (by decide)]
  exact Nat.mod_eq_of_lt h

theorem State.keeperMv_word (s : State) (m a : Nat) {k : Nat} (h : k ≠ R.KEEP_SUPPLY.SEL.off) : (s.keeperMv m a).word k = s.word k := by
  have haux : k ≠ R.KEEP_SUPPLY.AUX_MV.off := h
  have hmain : k ≠ R.KEEP_SUPPLY.MAIN_MV.off := h
  rw [State.keeperMv, State.word_set_other _ haux, State.word_set_other _ hmain]
  rfl

/-- Of KEEP_SUPPLY, a write of SEL changes SEL alone. -/
theorem State.get_set_sel {s : State} {v : Nat} {l : Loc} (hl : l.lo + l.w ≤ 64) (h : 1 ≤ l.lo) :
    (s.set R.KEEP_SUPPLY.SEL v).get l = s.get l := State.get_set_of_bits hl (.inl h)

theorem State.get_sel_same (s : State) (v : Nat) : (s.set R.KEEP_SUPPLY.SEL v).get R.KEEP_SUPPLY.SEL = v % 2 :=
  State.get_set_same _ _ _ (by decide)

theorem PowerState.mainAt_dip (p : PowerState) (m : Nat) : (p.mainAt m).dipNs = none ↔ 1700 ≤ m := by
  unfold PowerState.mainAt
  split
  · simp; omega
  · split <;> simp_all

theorem PowerState.mainAt_clock (p : PowerState) (m : Nat) : (p.mainAt m).clock = p.clock := by
  unfold PowerState.mainAt
  split
  · rfl
  · split <;> rfl

/-- The 10 ms go on unless a dip of 1 µs or more has ended. -/
theorem PowerState.mainAt_mainNs {p : PowerState} (m : Nat) :
    (p.mainAt m).mainNs = if 1700 ≤ m ∧ (∃ d, p.dipNs = some d ∧ d + 1000 ≤ p.clock) then p.clock else p.mainNs := by
  unfold PowerState.mainAt
  by_cases hm : m < 1700
  · rw [if_pos hm, if_neg (by omega)]
  · rw [if_neg hm]
    cases hd : p.dipNs with
    | none => simp
    | some d =>
      have hm' : 1700 ≤ m := by omega
      simp only [Option.some.injEq, exists_eq_left', hm', true_and]
      by_cases hc : p.clock < d + 1000
      · rw [if_pos hc, if_neg (by omega)]
      · rw [if_neg hc, if_pos (by omega)]

theorem Instr.wf_keeper {m a : Nat} (hm : m < 4096) (ha : a < 4096) (dip : Nat) :
    Instr.wf (.keeperStart m a) = true ∧ Instr.wf (.keeperSwitch m a) = true ∧ Instr.wf (.keeperReturnMain m a dip) = true ∧
      Instr.wf (.keeperBrownout m a) = true := by
  simp [Instr.wf, hm, ha]

/-- The keeper's inputs as a command measures them, then SEL written. -/
theorem State.kept_supply {s x : State} (hx : x = { s with regs := x.regs, power := x.power })
    (hw : ∀ k, k ≠ R.KEEP_SUPPLY.SEL.off → x.word k = s.word k) :
    s.kept { x.settle with power := s.power } [] fun k => k = R.KEEP_SUPPLY.SEL.off := by
  refine State.kept_power ?_ ?_ hw
  · rw [hx]
    rfl
  · rw [hx]
    exact (List.append_nil _).symm

/-- The keeper starts on MAIN where that is above 1.70 V, else on AUX. -/
theorem State.keeperStart_spec (s : State) {m a : Nat} (hm : m < 4096) (ha : a < 4096) (hk : s.power.keeper = false) (h : 1700 < m ∨ 1700 < a) :
    ∃ t, exec (.keeperStart m a) s = .next t ∧
      t.power = { s.power with keeper := true, mainNs := s.power.clock, dipNs := if m < 1700 then some s.power.clock else none } ∧ t.get R.KEEP_SUPPLY.MAIN_MV = m ∧
      t.get R.KEEP_SUPPLY.AUX_MV = a ∧ t.bit R.KEEP_SUPPLY.SEL = decide (m ≤ 1700) ∧
      s.kept { t with power := s.power } [] fun k => k = R.KEEP_SUPPLY.SEL.off := by
  refine ⟨_, complete_of_eq (Instr.wf_keeper hm ha 0).1 (if_pos (by simpa [hk] using h)), ?_, ?_, ?_, ?_, State.kept_supply ?_ fun k hk => ?_⟩
  · rw [State.settle_power]
    show PowerState.mainAt { s.power with keeper := true, dipNs := none, mainNs := s.power.clock } m = _
    unfold PowerState.mainAt
    split <;> rfl
  · rw [State.settle_get _ (by decide), State.setBit, State.get_set_sel (by decide) (by decide), State.keeperMv_main _ _ hm]
  · rw [State.settle_get _ (by decide), State.setBit, State.get_set_sel (by decide) (by decide), State.keeperMv_aux _ _ ha]
  · rw [State.settle_bit _ (by decide), State.bit_setBit_same _ _ _ rfl (by decide)]
    by_cases h1 : 1700 < m
    · simp [h1]
    · simp [h1, Nat.not_lt.mp h1]
  · rfl
  · exact (State.word_set_other _ hk).trans (State.keeperMv_word _ _ _ hk)

theorem PowerState.mainAt_isolated (p : PowerState) (m : Nat) : (p.mainAt m).isolated = p.isolated := by
  unfold PowerState.mainAt
  split
  · rfl
  · split <;> rfl

theorem State.mainTimer_get (s : State) (l : Loc) : s.mainTimer.get l = s.get l := rfl

theorem State.keeperMv_sel (s : State) (m a : Nat) : (s.keeperMv m a).get R.KEEP_SUPPLY.SEL = s.get R.KEEP_SUPPLY.SEL :=
  s.keeperMv_get m a (by decide) (by decide)

/-- Below 1.62 V on MAIN the keeper goes over to AUX and says so. -/
theorem State.keeperSwitch_aux (s : State) {m a : Nat} (hm : m < 4096) (ha : a < 4096) (hk : s.power.keeper = true)
    (hs : s.get R.KEEP_SUPPLY.SEL = 0) (hlow : m < 1620) (hhigh : 1620 < a) :
    ∃ t, exec (.keeperSwitch m a) s = .next t ∧ t.get R.KEEP_SUPPLY.SEL = 1 ∧
      t.get R.KEEP_SUPPLY.SWITCHES = min (s.get R.KEEP_SUPPLY.SWITCHES + 1) 65535 ∧ t.get R.KEEP_SUPPLY.MAIN_MV = m ∧
      t.get R.KEEP_SUPPLY.AUX_MV = a ∧ t.power.mainNs = s.power.clock ∧ (s.coreUp = true → t.bit (faultBit 4) = true) ∧
      (s.coreUp = false → t.get R.FLT_LOG.HEAD = (s.get R.FLT_LOG.HEAD + 1) % 2 ^ 32) := by
  have heff : s.keeperSwitch m a =
      (((s.keeperMv m a).mainTimer.set R.KEEP_SUPPLY.SEL 1).sat R.KEEP_SUPPLY.SWITCHES 1).raise 4 0 := by
    unfold State.keeperSwitch
    rw [if_neg (by simp [hk]), if_pos ((s.keeperMv_sel m a).trans hs), if_pos ⟨hlow, hhigh⟩]
  have hpow : (((s.keeperMv m a).mainTimer.set R.KEEP_SUPPLY.SEL 1).sat R.KEEP_SUPPLY.SWITCHES 1).power =
      { s.power.mainAt m with mainNs := (s.power.mainAt m).clock } := rfl
  have hcore : (((s.keeperMv m a).mainTimer.set R.KEEP_SUPPLY.SEL 1).sat R.KEEP_SUPPLY.SWITCHES 1).coreUp = s.coreUp := by
    refine State.coreUp_congr rfl ?_
    rw [hpow]
    exact s.power.mainAt_isolated m
  refine ⟨_, complete_of_eq (Instr.wf_keeper hm ha 0).2.1 heff, ?_, ?_, ?_, ?_, ?_, fun h => ?_, fun h => ?_⟩
  · rw [State.settle_get _ (by decide), State.raise_get _ _ _ (by decide), State.sat, State.get_set_of_bits (by decide) (by decide),
      State.get_sel_same]
  · rw [State.settle_get _ (by decide), State.raise_get _ _ _ (by decide), State.get_sat_same _ _ _ (by decide),
      State.get_set_sel (by decide) (by decide), State.mainTimer_get, State.keeperMv_get _ _ _ (by decide) (by decide)]
    rfl
  · rw [State.settle_get _ (by decide), State.raise_get _ _ _ (by decide), State.sat, State.get_set_of_bits (by decide) (by decide),
      State.get_set_sel (by decide) (by decide), State.mainTimer_get, State.keeperMv_main _ _ hm]
  · rw [State.settle_get _ (by decide), State.raise_get _ _ _ (by decide), State.sat, State.get_set_of_bits (by decide) (by decide),
      State.get_set_sel (by decide) (by decide), State.mainTimer_get, State.keeperMv_aux _ _ ha]
  · rw [State.settle_power, State.raise_power, hpow]
    exact s.power.mainAt_clock m
  · rw [State.settle_latch _ (by decide)]
    exact State.raise_latches _ _ _ (by decide) (hcore.trans h)
  · have hhead : (((s.keeperMv m a).mainTimer.set R.KEEP_SUPPLY.SEL 1).sat R.KEEP_SUPPLY.SWITCHES 1).get R.FLT_LOG.HEAD =
        s.get R.FLT_LOG.HEAD := by
      rw [State.sat, State.get_set_of_off (by decide), State.get_set_of_off (by decide), State.mainTimer_get, State.keeperMv, State.get_set_of_off (by decide),
        State.get_set_of_off (by decide)]
      rfl
    rw [State.settle_get _ (by decide), State.raise_keeper_head (.inl rfl) (hcore.trans h), hhead]

/-- In every other case the measured inputs show, and AUX below 1.62 V gives way to MAIN. -/
theorem State.keeperSwitch_rest (s : State) {m a : Nat} (hm : m < 4096) (ha : a < 4096) (hk : s.power.keeper = true)
    (h : (s.get R.KEEP_SUPPLY.SEL = 0 ∧ (1620 ≤ m ∨ a ≤ 1620)) ∨ s.get R.KEEP_SUPPLY.SEL = 1) :
    ∃ t, exec (.keeperSwitch m a) s = .next t ∧
      t.get R.KEEP_SUPPLY.SEL = (if s.get R.KEEP_SUPPLY.SEL = 1 ∧ a < 1620 ∧ 1620 ≤ m then 0 else s.get R.KEEP_SUPPLY.SEL) ∧
      t.get R.KEEP_SUPPLY.MAIN_MV = m ∧ t.get R.KEEP_SUPPLY.AUX_MV = a ∧ t.power = s.power.mainAt m ∧
      s.kept { t with power := s.power } [] fun k => k = R.KEEP_SUPPLY.SEL.off := by
  by_cases hback : s.get R.KEEP_SUPPLY.SEL = 1 ∧ a < 1620 ∧ 1620 ≤ m
  · obtain ⟨h1, haux, hmain⟩ := hback
    have heff : s.keeperSwitch m a = (s.keeperMv m a).set R.KEEP_SUPPLY.SEL 0 := by
      unfold State.keeperSwitch
      rw [if_neg (by simp [hk]), if_neg (by simp [s.keeperMv_sel, h1]), if_pos ⟨haux, hmain⟩]
    refine ⟨_, complete_of_eq (Instr.wf_keeper hm ha 0).2.1 heff, ?_, ?_, ?_, State.settle_power _, State.kept_supply rfl fun k hk => ?_⟩
    · rw [State.settle_get _ (by decide), State.get_sel_same, if_pos ⟨h1, haux, hmain⟩]
    · rw [State.settle_get _ (by decide), State.get_set_sel (by decide) (by decide), State.keeperMv_main _ _ hm]
    · rw [State.settle_get _ (by decide), State.get_set_sel (by decide) (by decide), State.keeperMv_aux _ _ ha]
    · exact (State.word_set_other _ hk).trans (State.keeperMv_word _ _ _ hk)
  · have heff : s.keeperSwitch m a = s.keeperMv m a := by
      unfold State.keeperSwitch
      rw [if_neg (by simp [hk])]
      dsimp only
      rw [s.keeperMv_sel]
      rcases h with ⟨h0, h⟩ | h1
      · rw [if_pos h0, if_neg (by omega)]
      · rw [if_neg (by omega), if_neg fun h => hback ⟨h1, h⟩]
    refine ⟨_, complete_of_eq (Instr.wf_keeper hm ha 0).2.1 heff, ?_, ?_, ?_, State.settle_power _, State.kept_supply rfl fun k hk => ?_⟩
    · rw [State.settle_get _ (by decide), s.keeperMv_sel, if_neg hback]
    · rw [State.settle_get _ (by decide), State.keeperMv_main _ _ hm]
    · rw [State.settle_get _ (by decide), State.keeperMv_aux _ _ ha]
    · exact State.keeperMv_word _ _ _ hk

/-- `x` is `s` but for registers and the supplies. -/
def State.supplied (s x : State) : Prop := x = { s with regs := x.regs, power := x.power }

theorem State.supplied.set {s x : State} (h : s.supplied x) (l : Loc) (v : Nat) : s.supplied (x.set l v) := by
  unfold State.supplied at h
  generalize x.regs = r, x.power = p at h
  subst h
  rfl

theorem State.supplied.setPower {s x : State} (h : s.supplied x) (p : PowerState) : s.supplied { x with power := p } := by
  unfold State.supplied at h
  generalize x.regs = r, x.power = q at h
  subst h
  rfl

theorem State.supplied.keeperMv {s x : State} (h : s.supplied x) (m a : Nat) : s.supplied (x.keeperMv m a) :=
  ((h.setPower _).set _ _).set _ _

/-- The supplies after a dip of the given length (R513). -/
def PowerState.dipped (p : PowerState) (dip : Nat) : PowerState := if 1000 ≤ dip then { p with mainNs := p.clock } else p

theorem PowerState.dipped_clock (p : PowerState) (dip : Nat) : (p.dipped dip).clock = p.clock := by
  unfold PowerState.dipped
  split <;> rfl

theorem PowerState.dipped_dipNs (p : PowerState) (dip : Nat) : (p.dipped dip).dipNs = p.dipNs := by
  unfold PowerState.dipped
  split <;> rfl

/-- The state with the 10 ms begun anew where MAIN dipped. -/
def State.dipped (s : State) (dip : Nat) : State := if 1000 ≤ dip then s.mainTimer else s

theorem State.dipped_power (s : State) (dip : Nat) : (s.dipped dip).power = s.power.dipped dip := by
  unfold State.dipped PowerState.dipped
  split <;> rfl

theorem State.dipped_word (s : State) (dip k : Nat) : (s.dipped dip).word k = s.word k := by
  unfold State.dipped
  split <;> rfl

theorem State.supplied_dipped (s : State) (dip : Nat) : s.supplied (s.dipped dip) := by
  unfold State.dipped
  split <;> rfl

theorem State.returnMain_eq {s : State} (hk : s.power.keeper = true) (m a dip : Nat) :
    s.returnMain m a dip = if s.get R.KEEP_SUPPLY.SEL = 1 ∧ 1700 ≤ m ∧ ((s.power.dipped dip).mainAt m).mainNs + 10000000 ≤ s.power.clock then
      ((s.dipped dip).keeperMv m a).set R.KEEP_SUPPLY.SEL 0 else (s.dipped dip).keeperMv m a := by
  have hsel : ((s.dipped dip).keeperMv m a).get R.KEEP_SUPPLY.SEL = s.get R.KEEP_SUPPLY.SEL := by
    rw [State.keeperMv_sel, State.get, State.get, State.dipped_word]
  unfold State.returnMain
  rw [if_neg (by simp [hk])]
  refine if_congr ?_ rfl rfl
  change ((s.dipped dip).keeperMv m a).get _ = 1 ∧ ((s.dipped dip).keeperMv m a).power.dipNs = none ∧
    ((s.dipped dip).keeperMv m a).power.mainNs + 10000000 ≤ ((s.dipped dip).keeperMv m a).power.clock ↔ _
  rw [hsel, State.keeperMv_power, State.dipped_power, PowerState.mainAt_dip, PowerState.mainAt_clock, PowerState.dipped_clock]

/-- The keeper returns to MAIN once the 10 ms have passed. -/
theorem State.returnMain_spec (s : State) {m a : Nat} (dip : Nat) (hm : m < 4096) (ha : a < 4096) (hk : s.power.keeper = true) :
    ∃ t, exec (.keeperReturnMain m a dip) s = .next t ∧ t.power = (s.power.dipped dip).mainAt m ∧ t.get R.KEEP_SUPPLY.MAIN_MV = m ∧
      t.get R.KEEP_SUPPLY.AUX_MV = a ∧ t.get R.KEEP_SUPPLY.SEL =
        (if s.get R.KEEP_SUPPLY.SEL = 1 ∧ 1700 ≤ m ∧ ((s.power.dipped dip).mainAt m).mainNs + 10000000 ≤ s.power.clock then 0
          else s.get R.KEEP_SUPPLY.SEL) ∧
      s.kept { t with power := s.power } [] fun k => k = R.KEEP_SUPPLY.SEL.off := by
  have hpow : ((s.dipped dip).keeperMv m a).power = (s.power.dipped dip).mainAt m := by rw [State.keeperMv_power, State.dipped_power]
  have hword (k : Nat) (hk : k ≠ R.KEEP_SUPPLY.SEL.off) : ((s.dipped dip).keeperMv m a).word k = s.word k :=
    (State.keeperMv_word _ _ _ hk).trans (s.dipped_word dip k)
  refine ⟨_, complete_of_eq (Instr.wf_keeper hm ha dip).2.2.1 (State.returnMain_eq hk m a dip), ?_⟩
  split
  · refine ⟨by rw [State.settle_power, State.set_power, hpow], ?_, ?_, ?_, State.kept_supply ((s.supplied_dipped dip).keeperMv m a |>.set _ _) fun k hk => ?_⟩
    · rw [State.settle_get _ (by decide), State.get_set_sel (by decide) (by decide), State.keeperMv_main _ _ hm]
    · rw [State.settle_get _ (by decide), State.get_set_sel (by decide) (by decide), State.keeperMv_aux _ _ ha]
    · rw [State.settle_get _ (by decide), State.get_sel_same]
    · exact (State.word_set_other _ hk).trans (hword k hk)
  · refine ⟨(State.settle_power _).trans hpow, ?_, ?_, ?_, State.kept_supply ((s.supplied_dipped dip).keeperMv m a) hword⟩
    · rw [State.settle_get _ (by decide), State.keeperMv_main _ _ hm]
    · rw [State.settle_get _ (by decide), State.keeperMv_aux _ _ ha]
    · rw [State.settle_get _ (by decide), State.keeperMv_sel, State.get, State.get, State.dipped_word]

/-! ### The brown-out (R514, R515) -/

/-- DORMANT as a brown-out leaves it, before the keeper's registers are written. -/
def State.brownedOut (s : State) : State :=
  { s.dormantCore with
    prev := if s.mode == Mode.dormant then s.prev else s.mode
    fault := {}
    cmd := { s.dormantCore.cmd with jptr := 0 }
    power := { s.dormantCore.power with
      keeper := false, en := 0, good := 0, railsGood := false, retryWait := false, latched := false, tries := 0
      clock := 0, enNs := 0, failNs := 0, highNs := 0, todNs := 0, mainNs := 0, dipNs := none
      needHigh := s.power.needHigh || s.mode == Mode.holdUp } }

/-- The keeper's registers as a brown-out leaves them: the failed group and the count of brown-outs stay (R514). -/
def State.keeperCleared (s : State) (group : Nat) : State :=
  (((((s.sat R.KEEP_SUPPLY.BROWNOUTS 1).setWord R.KEEP_TOD.SECONDS.off 0).setWord R.KEEP_RAIL.EN.off 0).set
    R.KEEP_RAIL.FAIL_GROUP group).setWord R.KEEP_THERM.TJ.off (resetWord R.KEEP_THERM.TJ.off)).set R.KEEP_SUPPLY.SEL 0

theorem State.brownout_of {s : State} {m a : Nat} (hk : s.power.keeper = true)
    (h : (s.get R.KEEP_SUPPLY.SEL = 0 ∧ m < 1550 ∧ a < 1620) ∨ (s.get R.KEEP_SUPPLY.SEL = 1 ∧ a < 1550 ∧ m < 1620)) :
    s.brownout m a = (s.brownedOut.keeperCleared (s.get R.KEEP_RAIL.FAIL_GROUP)).keeperMv m a := by
  unfold State.brownout
  refine if_pos ?_
  rcases h with ⟨h0, hm, ha⟩ | ⟨h1, ha, hm⟩
  · simp [hk, h0, hm, ha]
  · simp [hk, h1, hm, ha]

theorem State.word_brownedOut (s : State) (k : Nat) : s.brownedOut.word k = if keeperOff k then s.word k else resetWord k :=
  s.word_dormantCore k

theorem State.get_brownedOut {s : State} {l : Loc} (h : keeperOff l.off = true) : s.brownedOut.get l = s.get l := by
  rw [State.get, State.word_brownedOut, if_pos h, State.get]

theorem State.word_keeperCleared (s : State) (group : Nat) {k : Nat} (h : ¬ (0x100000 ≤ k ∧ k < 0x100028)) :
    (s.keeperCleared group).word k = s.word k := by
  have hne : ∀ j, 0x100000 ≤ j ∧ j < 0x100028 → k ≠ j := fun j hj e => h (e ▸ hj)
  rw [State.keeperCleared, State.word_set_other _ (hne _ (by decide)), State.word_setWord_other _ _ (hne _ (by decide)),
    State.word_set_other _ (hne _ (by decide)), State.word_setWord_other _ _ (hne _ (by decide)),
    State.word_setWord_other _ _ (hne _ (by decide)), State.sat, State.word_set_other _ (hne _ (by decide))]

/-- Of the keeper's words a write of another one changes nothing. -/
theorem State.get_setWord_other {s : State} {l : Loc} {off : Nat} (v : Word) (h : l.off ≠ off) : (s.setWord off v).get l = s.get l := by
  rw [State.get, State.word_setWord_other _ _ h, State.get]

theorem State.keeperCleared_brownouts (s : State) (group : Nat) :
    (s.keeperCleared group).get R.KEEP_SUPPLY.BROWNOUTS = min (s.get R.KEEP_SUPPLY.BROWNOUTS + 1) 255 := by
  rw [State.keeperCleared, State.get_set_sel (by decide) (by decide), State.get_setWord_other _ (by decide),
    State.get_set_of_off (by decide), State.get_setWord_other _ (by decide), State.get_setWord_other _ (by decide),
    State.get_sat_same _ _ _ (by decide)]
  rfl

theorem State.keeperCleared_group (s : State) {group : Nat} (h : group < 4) : (s.keeperCleared group).get R.KEEP_RAIL.FAIL_GROUP = group := by
  rw [State.keeperCleared, State.get_set_of_off (by decide), State.get_setWord_other _ (by decide), State.get_set_same _ _ _ (by decide)]
  exact Nat.mod_eq_of_lt h

theorem State.keeperCleared_tod (s : State) (group : Nat) : (s.keeperCleared group).word R.KEEP_TOD.SECONDS.off = 0 := by
  rw [State.keeperCleared, State.word_set_other _ (by decide), State.word_setWord_other _ _ (by decide), State.word_set_other _ (by decide),
    State.word_setWord_other _ _ (by decide), State.word_setWord_same]

/-- A brown-out leaves a quiet core. -/
theorem State.quiet_brownout (s : State) (group m a : Nat) : ((s.brownedOut.keeperCleared group).keeperMv m a).quiet := by
  refine State.quiet_of_reset (fun k hk => ?_) rfl rfl
  have hne : k ≠ R.KEEP_SUPPLY.SEL.off := by
    simp only [R.KEEP_SUPPLY.SEL]
    omega
  rw [State.keeperMv_word _ _ _ hne, State.word_keeperCleared _ _ (by omega), State.word_brownedOut, keeperOff_of_followReg hk]
  rfl

/-- A brown-out stops the keeper and its sequencer, and the core is in DORMANT. -/
theorem State.brownout_spec (s : State) {m a : Nat} (hm : m < 4096) (ha : a < 4096) (hk : s.power.keeper = true)
    (h : (s.get R.KEEP_SUPPLY.SEL = 0 ∧ m < 1550 ∧ a < 1620) ∨ (s.get R.KEEP_SUPPLY.SEL = 1 ∧ a < 1550 ∧ m < 1620)) :
    ∃ t, exec (.keeperBrownout m a) s = .next t ∧ t.mode = .dormant ∧ t.power.keeper = false ∧ t.power.en = 0 ∧
      t.power.railsGood = false ∧ t.power.todNs = 0 ∧ (s.mode = .holdUp → t.power.needHigh = true) ∧ t.get R.KEEP_SUPPLY.BROWNOUTS = min (s.get R.KEEP_SUPPLY.BROWNOUTS + 1) 255 ∧
      t.get R.KEEP_SUPPLY.SEL = 0 ∧ t.word R.KEEP_TOD.SECONDS.off = 0 ∧ t.get R.KEEP_RAIL.FAIL_GROUP = s.get R.KEEP_RAIL.FAIL_GROUP ∧
      ∀ k, ¬ (0x100000 ≤ k ∧ k < 0x100028) → t.word k = if keeperOff k then s.word k else resetWord k := by
  have hpow : ((s.brownedOut.keeperCleared (s.get R.KEEP_RAIL.FAIL_GROUP)).keeperMv m a).power = s.brownedOut.power.mainAt m := rfl
  have hmain : ∀ p : PowerState, (p.mainAt m).keeper = p.keeper ∧ (p.mainAt m).en = p.en ∧ (p.mainAt m).railsGood = p.railsGood ∧
      (p.mainAt m).todNs = p.todNs ∧ (p.mainAt m).needHigh = p.needHigh := fun p => by
    unfold PowerState.mainAt
    split
    · exact ⟨rfl, rfl, rfl, rfl, rfl⟩
    · split <;> exact ⟨rfl, rfl, rfl, rfl, rfl⟩
  obtain ⟨hkeep, hen, hgood, htod, hneed⟩ := hmain s.brownedOut.power
  refine ⟨_, complete_of_eq (Instr.wf_keeper hm ha 0).2.2.2 (State.brownout_of hk h), (State.settle_mode _).trans rfl, ?_⟩
  rw [State.settle_power, hpow, hkeep, hen, hgood, htod, hneed, State.settle_get _ (by decide), State.settle_get _ (by decide),
    State.settle_get _ (by decide), State.settle_word _ (by decide)]
  refine ⟨rfl, rfl, rfl, rfl, fun hh => ?_, ?_, ?_, ?_, ?_, fun k hk => ?_⟩
  · show (s.power.needHigh || s.mode == Mode.holdUp) = true
    simp [hh]
  · rw [State.keeperMv_get _ _ _ (by decide) (by decide), State.keeperCleared_brownouts, State.get_brownedOut (by decide)]
  · rw [State.keeperMv_sel, State.keeperCleared, State.get_sel_same]
  · rw [State.keeperMv_word _ _ _ (by decide), State.keeperCleared_tod]
  · have hne : (R.KEEP_RAIL.FAIL_GROUP).off ≠ (R.KEEP_SUPPLY.SEL).off := by decide
    rw [State.get, State.keeperMv_word _ _ _ hne]
    exact State.keeperCleared_group _ (State.get_lt ..)
  · have hne : k ≠ R.KEEP_SUPPLY.SEL.off := by
      simp only [R.KEEP_SUPPLY.SEL]
      omega
    rw [(s.quiet_brownout ..).settle.2, State.keeperMv_word _ _ _ hne, State.word_keeperCleared _ _ hk, State.word_brownedOut]

/-- The 10 ms start anew after a dip of 1 µs or more, and only then (R513, R600). -/
theorem PowerState.dipped_mainNs (p : PowerState) (m dip : Nat) :
    (1000 ≤ dip → ((p.dipped dip).mainAt m).mainNs = p.clock) ∧
      (dip < 1000 → (∀ d, p.dipNs = some d → p.clock < d + 1000) → ((p.dipped dip).mainAt m).mainNs = p.mainNs) ∧
      ∀ d, p.dipNs = some d → d + 1000 ≤ p.clock → 1700 ≤ m → ((p.dipped dip).mainAt m).mainNs = p.clock := by
  rw [PowerState.mainAt_mainNs, PowerState.dipped_clock, PowerState.dipped_dipNs]
  refine ⟨fun hd => ?_, fun hd hshort => ?_, fun d hd hc hm => if_pos ⟨hm, d, hd, hc⟩⟩
  · have hns : (p.dipped dip).mainNs = p.clock := by rw [PowerState.dipped, if_pos hd]
    rw [hns, ite_self]
  · have hns : (p.dipped dip).mainNs = p.mainNs := by rw [PowerState.dipped, if_neg (by omega)]
    rw [hns]
    refine if_neg ?_
    rintro ⟨-, d, hd', hc⟩
    have := hshort d hd'
    omega

/-- Settles O47: each clause is the branch of the keeper's operation that its premises select. -/
theorem keeperFollowsItsInputs : Obligations.KeeperFollowsItsInputs := by
  refine ⟨fun s m a hm ha hk h => s.keeperStart_spec hm ha hk h, fun s m a hm ha hk hs hlow hhigh => s.keeperSwitch_aux hm ha hk hs hlow hhigh,
    fun s m a hm ha hk h => s.keeperSwitch_rest hm ha hk h, fun s m a dip p hm ha hk hp => ?_, fun s m a dip hm ha hk => ?_,
    fun s m a hm ha hk h => s.brownout_spec hm ha hk h⟩
  · subst hp
    obtain ⟨t, ht, hpow, hmain, haux, hsel, hkept⟩ := s.returnMain_spec dip hm ha hk
    obtain ⟨hlong, hshort, hends⟩ := s.power.dipped_mainNs m dip
    exact ⟨t, ht, hpow, hmain, haux, hsel, hlong, hshort, hends, hkept⟩
  · exact idle_of_eq (by rw [State.returnMain, if_pos (by simp [hk])])

end Sys2Proof.Machine
end

section
/-! SUPPORT. The temperature (R521). -/
namespace Sys2Proof.Machine

/-! ### One latch, and the others (R527) -/

/-- A word of the latches. -/
abbrev latchWord (k : Nat) : Prop := 0x200000 ≤ k ∧ k < 0x200020

/-- What a raise writes after its latch is no latch. -/
theorem State.raise_latchWords {s : State} {n info : Nat} (hn : sourceListed n = true) (hc : s.coreUp = true) :
    State.wordsBut (fun k => ¬ latchWord k) (s.setBit (faultBit n) true) (s.raise n info) := by
  have hmono : ∀ {a b : State}, State.wordsBut (raiseWord 256) a b → State.wordsBut (fun k => ¬ latchWord k) a b := fun h =>
    h.mono fun k hk => by
      simp only [raiseWord, faultBit, R.FLT_REACT.COUNT, List.mem_cons, List.not_mem_nil, or_false] at hk
      omega
  have hlt := sourceListed_lt hn
  have hcount : ∀ t : State, State.wordsBut (fun k => ¬ latchWord k) t (t.sat (R.FLT_REACT.COUNT n) 1) := fun t =>
    .of_set _ _ (by simp only [R.FLT_REACT.COUNT]; omega)
  unfold State.raise State.raiseAs
  rw [if_neg (by simp [hn]), if_neg (by simp [hc])]
  dsimp only
  split
  · exact (hcount _).trans (hmono ((State.postFault_words _ 256 _).trans (State.nmiChip_words _ 256 n info _ _ _ _)))
  · refine (hcount _).trans (hmono ?_)
    refine .trans ?_ (State.nmiChip_words _ 256 n info _ _ _ _)
    refine .trans ?_ (.ite (State.toHost_words _ _ _ _) (.of_regs rfl))
    exact (State.postFault_words _ 256 _).trans (.ite (State.admitHold_words _ 256) (.of_regs rfl))

/-- A raise latches its own source alone. -/
theorem State.raise_latch_other (s : State) {n m info : Nat} (h4 : n ≠ 4) (h5 : n ≠ 5) (hm : m < 256) (hne : m ≠ n) :
    (s.raise n info).bit (faultBit m) = s.bit (faultBit m) := by
  have hoff : latchWord (faultBit m).off := by simp only [faultBit]; omega
  by_cases hl : sourceListed n = true
  swap
  · rw [State.raise, State.raiseAs, if_pos (by simp [hl])]
  by_cases hc : s.coreUp = true
  swap
  · rw [State.raise, State.raiseAs, if_neg (by simp [hl]), if_pos (by simp [hc]), if_neg (by omega)]
  · have hw := State.raise_latchWords (info := info) hl hc _ (not_not_intro hoff)
    have hset : (s.setBit (faultBit n) true).get (faultBit m) = s.get (faultBit m) := by
      by_cases hword : (faultBit m).off = (faultBit n).off
      · refine State.get_set_of_bits (by simp only [faultBit]; omega) ?_
        simp only [faultBit] at hword ⊢
        omega
      · exact State.get_set_of_off hword
    rw [State.bit, State.get, hw]
    show ((s.setBit (faultBit n) true).get (faultBit m) == 1) = _
    rw [hset, State.bit]

/-! ### A temperature sample (R521) -/

theorem hottest_lt {temps : List Nat} (hlt : ∀ t ∈ temps, t < 256) (i : Nat) : (hottest i temps).1 < 256 := by
  induction temps generalizing i with
  | nil => exact Nat.zero_lt_succ _
  | cons t ts ih =>
    unfold hottest
    dsimp only
    split
    · exact hlt t (.head _)
    · exact ih (fun x hx => hlt x (.tail _ hx)) (i + 1)

/-- The sensor is one of those sampled. -/
theorem hottest_sensor {temps : List Nat} (hne : temps ≠ []) (i : Nat) : (hottest i temps).2 < i + temps.length := by
  induction temps generalizing i with
  | nil => exact absurd rfl hne
  | cons t ts ih =>
    unfold hottest
    dsimp only
    split
    · simp
    · rename_i h
      have hts : ts ≠ [] := fun e => h (by simp [e, hottest])
      have := ih hts (i + 1)
      simp only [List.length_cons]
      omega

theorem Instr.wf_thermalSample {temps : List Nat} (h : Instr.wf (.thermalSample temps) = true) {tj i : Nat} (hh : hottest 0 temps = (tj, i)) :
    tj < 256 ∧ i < 32 := by
  simp only [Instr.wf, Bool.and_eq_true, decide_eq_true_eq, List.all_eq_true] at h
  obtain ⟨hlen, hall⟩ := h
  have htj := hottest_lt hall 0
  have hi := hottest_sensor (temps := temps) (by rintro rfl; simp at hlen) 0
  rw [hh] at htj hi
  exact ⟨htj, by simpa [hlen] using hi⟩

/-- The sample as KEEP_THERM shows it, with WARN and TRIP armed or not. -/
def State.sampled (s : State) (tj i : Nat) : State :=
  let s1 := ((s.set R.KEEP_THERM.TJ tj).set R.KEEP_THERM.SENSOR i).peak R.KEEP_THERM.PEAK tj
  { s1 with fault := { s1.fault with
    warnArmed := thermArm s.fault.warnArmed (s.get R.KEEP_THERM.WARN) tj
    tripArmed := thermArm s.fault.tripArmed (s.get R.KEEP_THERM.TRIP) tj } }

/-- The sample with WARN and TRIP raised where it reaches a limit that is armed. -/
def State.warned (s : State) (tj i : Nat) : State :=
  let s3 := if s.fault.warnArmed && decide (s.get R.KEEP_THERM.WARN ≤ tj) then (s.sampled tj i).raise 2 0 else s.sampled tj i
  if s.fault.tripArmed && decide (s.get R.KEEP_THERM.TRIP ≤ tj) then s3.raise 3 0 else s3

theorem State.thermal_cool {s : State} {temps : List Nat} {tj i : Nat} (hh : hottest 0 temps = (tj, i)) (h : tj < 115) :
    s.thermal temps = s.warned tj i := by
  unfold State.thermal
  rw [hh]
  exact if_neg (by omega)

theorem State.thermal_hot {s : State} {temps : List Nat} {tj i : Nat} (hh : hottest 0 temps = (tj, i)) (h : 115 ≤ tj) :
    s.thermal temps = { (if (s.warned tj i).mode == Mode.dormant then s.warned tj i else (s.warned tj i).dormantCore).lowerRails with
      power := { (if (s.warned tj i).mode == Mode.dormant then s.warned tj i else (s.warned tj i).dormantCore).lowerRails.power with
        latched := true
        needHigh := (if (s.warned tj i).mode == Mode.dormant then s.warned tj i else (s.warned tj i).dormantCore).lowerRails.power.needHigh ||
          s.mode == Mode.holdUp } } := by
  unfold State.thermal
  rw [hh]
  exact if_pos h

/-- A raise where a limit is reached. -/
theorem raises_ite (s : State) (c : Prop) [Decidable c] (n : Nat) : Raises s (if c then s.raise n 0 else s) :=
  .ite (raises s n 0 none false) (.refl s)

theorem State.raises_warned (s : State) (tj i : Nat) : Raises (s.sampled tj i) (s.warned tj i) :=
  (raises_ite _ _ 2).trans (raises_ite _ _ 3)

theorem State.get_peak_same (s : State) {l : Loc} {v : Nat} (hl : l.lo + l.w ≤ 64) (hv : v < 2 ^ l.w) :
    (s.peak l v).get l = max (s.get l) v := by
  unfold State.peak
  split
  · rename_i h
    rw [State.get_set_same _ _ _ hl, Nat.min_eq_left (by omega), Nat.mod_eq_of_lt hv, Nat.max_eq_right h.le]
  · omega

theorem State.get_peak_other {s : State} {l m : Loc} {v : Nat} (hm : m.lo + m.w ≤ 64) (h : l.lo + l.w ≤ m.lo ∨ m.lo + m.w ≤ l.lo) :
    (s.peak l v).get m = s.get m := ite_keeps (g := fun t : State => t.get m) (State.get_set_of_bits hm h) rfl

theorem State.sampled_get (s : State) {tj i : Nat} (htj : tj < 256) (hi : i < 32) :
    (s.sampled tj i).get R.KEEP_THERM.TJ = tj ∧ (s.sampled tj i).get R.KEEP_THERM.SENSOR = i ∧
      (s.sampled tj i).get R.KEEP_THERM.PEAK = max (s.get R.KEEP_THERM.PEAK) tj := by
  have hget (l : Loc) : (s.sampled tj i).get l = (((s.set R.KEEP_THERM.TJ tj).set R.KEEP_THERM.SENSOR i).peak R.KEEP_THERM.PEAK tj).get l := rfl
  rw [hget, hget, hget, State.get_peak_other (by decide) (by decide), State.get_peak_other (by decide) (by decide),
    State.get_peak_same _ (by decide) htj, State.get_set_of_bits (by decide) (by decide), State.get_set_same _ _ _ (by decide),
    State.get_set_same _ _ _ (by decide), State.get_set_of_bits (by decide) (by decide), State.get_set_of_bits (by decide) (by decide)]
  exact ⟨Nat.mod_eq_of_lt htj, Nat.mod_eq_of_lt hi, rfl⟩

theorem State.sampled_word (s : State) (tj i : Nat) {k : Nat} (h : k ≠ R.KEEP_THERM.TJ.off) : (s.sampled tj i).word k = s.word k := by
  have hs : k ≠ R.KEEP_THERM.SENSOR.off := h
  have hp : k ≠ R.KEEP_THERM.PEAK.off := h
  show (State.peak _ R.KEEP_THERM.PEAK tj).word k = _
  unfold State.peak
  split
  · rw [State.word_set_other _ hp, State.word_set_other _ hs, State.word_set_other _ h]
  · rw [State.word_set_other _ hs, State.word_set_other _ h]

theorem thermArm_spec (armed : Bool) (limit tj : Nat) : (limit ≤ tj → thermArm armed limit tj = false) ∧
    (tj < limit - 5 → thermArm armed limit tj = true) ∧ (limit - 5 ≤ tj → tj < limit → thermArm armed limit tj = armed) := by
  unfold thermArm
  refine ⟨fun h => if_pos h, fun h => ?_, fun h h' => ?_⟩
  · rw [if_neg (by omega), if_pos h]
  · rw [if_neg (by omega), if_neg (by omega)]

theorem State.sampled_armed (s : State) (tj i : Nat) :
    (s.sampled tj i).fault.warnArmed = thermArm s.fault.warnArmed (s.get R.KEEP_THERM.WARN) tj ∧
      (s.sampled tj i).fault.tripArmed = thermArm s.fault.tripArmed (s.get R.KEEP_THERM.TRIP) tj := ⟨rfl, rfl⟩

theorem Raises.armed {s t : State} (h : Raises s t) : t.fault.warnArmed = s.fault.warnArmed ∧ t.fault.tripArmed = s.fault.tripArmed := by
  rw [h.eq]
  exact ⟨rfl, rfl⟩

theorem Raises.mode {s t : State} (h : Raises s t) : t.mode = s.mode := by rw [h.eq]

theorem Raises.coreUp {s t : State} (h : Raises s t) : t.coreUp = s.coreUp := by
  rw [h.eq]
  rfl

theorem Raises.get {s t : State} (h : Raises s t) {l : Loc} (hl : ¬ raiseReg l.off) : t.get l = s.get l := by
  rw [State.get, h.regs _ hl, State.get]

theorem State.sampled_eq (s : State) (tj i : Nat) :
    s.sampled tj i = { s with regs := (s.sampled tj i).regs, fault := (s.sampled tj i).fault } := by
  unfold State.sampled State.peak
  dsimp only
  split <;> rfl

theorem State.sampled_latch (s : State) (tj i n : Nat) : (s.sampled tj i).bit (faultBit n) = s.bit (faultBit n) := by
  rw [State.bit, State.get, State.sampled_word _ _ _ (by simp only [faultBit, R.KEEP_THERM.TJ]; omega), State.bit, State.get]

/-- The frame of a command that changes the fault collector. -/
theorem State.kept_collector {s x : State} {outs : List Emit} {but : Nat → Prop} (hs : ({ x with fault := s.fault } : State).still = s.still)
    (hout : x.out = s.out ++ outs) (hw : ∀ k, ¬ but k → x.word k = s.word k) : s.kept { x.settle with fault := s.fault } outs but :=
  State.kept_sent (g := fun y => { y with fault := s.fault }) (fun _ => rfl) (fun _ => rfl) (fun _ => rfl) hs hout hw

theorem State.kept_sampled (s : State) (tj i : Nat) :
    s.kept { (s.sampled tj i).settle with fault := s.fault } [] fun k => k = R.KEEP_THERM.TJ.off := by
  have hstill : ({ s.sampled tj i with fault := s.fault } : State).still = s.still := by
    rw [s.sampled_eq]
    rfl
  have hout : (s.sampled tj i).out = s.out ++ [] := by
    rw [s.sampled_eq]
    exact (List.append_nil s.out).symm
  exact State.kept_collector hstill hout fun k hk => s.sampled_word tj i hk

/-- WARN and TRIP latch where they are armed and reached, and not otherwise. -/
theorem State.warned_latches (s : State) (tj i : Nat) :
    (s.fault.warnArmed = true → s.get R.KEEP_THERM.WARN ≤ tj → s.coreUp = true → (s.warned tj i).bit (faultBit 2) = true) ∧
      (s.fault.tripArmed = true → s.get R.KEEP_THERM.TRIP ≤ tj → s.coreUp = true → (s.warned tj i).bit (faultBit 3) = true) ∧
      (s.fault.warnArmed = false → (s.warned tj i).bit (faultBit 2) = s.bit (faultBit 2)) ∧
      (s.fault.tripArmed = false → (s.warned tj i).bit (faultBit 3) = s.bit (faultBit 3)) := by
  have hcore : (s.sampled tj i).coreUp = s.coreUp := by
    rw [s.sampled_eq]
    rfl
  unfold State.warned
  refine ⟨fun ha hl hc => ?_, fun ha hl hc => ?_, fun ha => ?_, fun ha => ?_⟩
  · rw [if_pos (c := (s.fault.warnArmed && _) = true) (by simp [ha, hl])]
    exact (raises_ite _ _ 3).latch 2 (by decide) (State.raise_latches _ _ _ (by decide) (hcore.trans hc))
  · dsimp only
    rw [if_pos (c := (s.fault.tripArmed && _) = true) (by simp [ha, hl])]
    exact State.raise_latches _ _ _ (by decide) ((raises_ite _ _ 2).coreUp.trans (hcore.trans hc))
  · rw [if_neg (c := (s.fault.warnArmed && _) = true) (by simp [ha])]
    refine (ite_keeps (g := fun t : State => t.bit (faultBit 2)) ?_ rfl).trans (s.sampled_latch tj i _)
    exact State.raise_latch_other _ (by decide) (by decide) (by decide) (by decide)
  · dsimp only
    rw [if_neg (c := (s.fault.tripArmed && _) = true) (by simp [ha])]
    refine (ite_keeps (g := fun t : State => t.bit (faultBit 3)) ?_ rfl).trans (s.sampled_latch tj i _)
    exact State.raise_latch_other _ (by decide) (by decide) (by decide) (by decide)

/-- Below a limit, or where it is not armed, nothing is raised. -/
theorem State.warned_quiet {s : State} {tj : Nat} (i : Nat) (hw : s.fault.warnArmed = false ∨ tj < s.get R.KEEP_THERM.WARN)
    (ht : s.fault.tripArmed = false ∨ tj < s.get R.KEEP_THERM.TRIP) : s.warned tj i = s.sampled tj i := by
  unfold State.warned
  rw [if_neg (c := (s.fault.warnArmed && _) = true) (by rcases hw with h | h <;> simp [h]),
    if_neg (by rcases ht with h | h <;> simp [h])]

theorem exec_thermalSample {temps : List Nat} (hwf : Instr.wf (.thermalSample temps) = true) {s : State} (hk : s.power.keeper = true) :
    exec (.thermalSample temps) s = .next (s.thermal temps).settle := complete_of_eq hwf (if_pos hk)

/-- Settles O48: below 115 °C a sample is read, and raised where a limit is reached; from 115 °C on the enables fall as well. -/
theorem temperatureActs : Obligations.TemperatureActs := by
  refine ⟨fun s temps tj i hwf hk hh hcool => ?_, fun s temps tj i hwf hk hh hhot => ?_⟩
  · obtain ⟨htj, hi⟩ := Instr.wf_thermalSample hwf hh
    have hr := s.raises_warned tj i
    obtain ⟨htjs, his, hpeak⟩ := s.sampled_get htj hi
    obtain ⟨hwarn, htrip⟩ := hr.armed
    obtain ⟨hw, htr⟩ := s.sampled_armed tj i
    rw [hw] at hwarn
    rw [htr] at htrip
    obtain ⟨hwlow, hwarm, hwkeep⟩ := thermArm_spec s.fault.warnArmed (s.get R.KEEP_THERM.WARN) tj
    obtain ⟨htlow, htarm, htkeep⟩ := thermArm_spec s.fault.tripArmed (s.get R.KEEP_THERM.TRIP) tj
    obtain ⟨hlw, hlt, hnw, hnt⟩ := s.warned_latches tj i
    refine ⟨_, (exec_thermalSample hwf hk).trans (by rw [State.thermal_cool hh hcool]), ?_⟩
    have hget (l : Loc) (hl : ¬ raiseReg l.off) (hf : ¬ followReg l.off) : (s.warned tj i).settle.get l = (s.sampled tj i).get l :=
      (State.settle_get _ hf).trans (hr.get hl)
    have hlatch (n : Nat) (hn : n < 256) : (s.warned tj i).settle.bit (faultBit n) = (s.warned tj i).bit (faultBit n) := State.settle_latch _ hn
    have hmode : (s.warned tj i).settle.mode = s.mode := by rw [State.settle_mode, hr.mode, s.sampled_eq]
    have hkept : s.fault.warnArmed = false ∨ tj < s.get R.KEEP_THERM.WARN → s.fault.tripArmed = false ∨ tj < s.get R.KEEP_THERM.TRIP →
        s.kept { (s.warned tj i).settle with fault := s.fault } [] fun k => k = R.KEEP_THERM.TJ.off := fun hw ht => by
      rw [State.warned_quiet i hw ht]
      exact s.kept_sampled tj i
    rw [← State.settle_fault] at hwarn htrip
    rw [← hlatch 2 (by decide)] at hlw hnw
    rw [← hlatch 3 (by decide)] at hlt hnt
    exact ⟨(hget _ (by decide) (by decide)).trans htjs, (hget _ (by decide) (by decide)).trans his,
      (hget _ (by decide) (by decide)).trans hpeak, hmode, fun h => ⟨hwarn.trans (hwlow h), fun ha => hlw ha h⟩,
      fun h => ⟨htrip.trans (htlow h), fun ha => hlt ha h⟩, fun h => hwarn.trans (hwarm h), fun h => htrip.trans (htarm h),
      fun h h' => hwarn.trans (hwkeep h h'), fun h h' => htrip.trans (htkeep h h'), hnw, hnt, hkept⟩
  · obtain ⟨htj, hi⟩ := Instr.wf_thermalSample hwf hh
    have hr := s.raises_warned tj i
    obtain ⟨htjs, -, -⟩ := s.sampled_get htj hi
    refine ⟨_, (exec_thermalSample hwf hk).trans (by rw [State.thermal_hot hh hhot]), ?_⟩
    have hmode : (if (s.warned tj i).mode == Mode.dormant then s.warned tj i else (s.warned tj i).dormantCore).mode = .dormant := by
      split
      · rename_i h
        simpa using h
      · rfl
    have hget : (if (s.warned tj i).mode == Mode.dormant then s.warned tj i else (s.warned tj i).dormantCore).get R.KEEP_THERM.TJ = tj := by
      have hwarned := (hr.get (l := R.KEEP_THERM.TJ) (by decide)).trans htjs
      split
      · exact hwarned
      · rw [State.get, State.word_dormantCore, if_pos (by decide)]
        exact hwarned
    generalize (if (s.warned tj i).mode == Mode.dormant then s.warned tj i else (s.warned tj i).dormantCore) = d at hmode hget ⊢
    rw [State.settle_mode, State.settle_power, State.settle_get _ (by decide)]
    exact ⟨hmode, rfl, rfl, rfl, hget⟩

end Sys2Proof.Machine
end

section
/-! SUPPORT. Pin resets, DORMANT exit and chip reset (R503, R511, R512, R521, R529). -/
namespace Sys2Proof.Machine

/-! ### Pin resets (R503, R511, R512) -/

/-- A core in DORMANT of whatever supplies, with the enables lowered or not, is quiet. -/
theorem State.quiet_dormantCore (s : State) : s.dormantCore.quiet :=
  State.quiet_of_reset (fun k hk => by rw [State.word_dormantCore, keeperOff_of_followReg hk]; rfl) rfl rfl

/-- The supplies and the outputs are no part of that. -/
theorem State.quiet.outside {s t : State} (h : s.quiet) (hr : t.regs = s.regs) (hb : t.buf = s.buf) (hm : t.mac = s.mac) : t.quiet :=
  ⟨fun n hn => (State.word_of_regs hr _).trans (h.wm n hn), (State.word_of_regs hr _).trans h.hold, hb.trans h.buf,
    by rw [hm, h.sending], by rw [hm, h.control]⟩

/-- What a reset pin leaves where the device was not in DORMANT. -/
def State.pinReset (s : State) : State :=
  let d := s.afterHoldUp ({ s with power := { s.power with resetN := false } } : State).dormantCore
  { d with power := { d.power with ranReset := true } }

theorem State.resetLow_of {s : State} (h : s.mode ≠ .dormant) : s.resetLow = s.pinReset := by
  unfold State.resetLow
  exact if_neg (by simpa using h)

theorem State.afterHoldUp_of {s : State} (h : s.mode = .holdUp) (d : State) :
    s.afterHoldUp d = { d.lowerRails with power := { d.lowerRails.power with needHigh := true } } := if_pos (by simp [h])

theorem State.afterHoldUp_not {s : State} (h : s.mode ≠ .holdUp) (d : State) : s.afterHoldUp d = d := if_neg (by simpa using h)

/-- The exit of HOLD-UP, whatever ends it, reaches the supplies and the outputs alone. -/
theorem State.afterHoldUp_core (s d : State) : (s.afterHoldUp d).regs = d.regs ∧ (s.afterHoldUp d).buf = d.buf ∧ (s.afterHoldUp d).mac = d.mac ∧
    (s.afterHoldUp d).mode = d.mode ∧ (s.afterHoldUp d).prev = d.prev := by
  unfold State.afterHoldUp
  split <;> exact ⟨rfl, rfl, rfl, rfl, rfl⟩

theorem State.pinReset_core (s : State) : s.pinReset.quiet ∧ s.pinReset.mode = .dormant ∧ s.pinReset.prev = s.mode ∧
    ∀ k, s.pinReset.word k = if keeperOff k then s.word k else resetWord k := by
  obtain ⟨hr, hb, hm, hmode, hprev⟩ := s.afterHoldUp_core ({ s with power := { s.power with resetN := false } } : State).dormantCore
  have hword (k : Nat) : ({ s with power := { s.power with resetN := false } } : State).dormantCore.word k =
      if keeperOff k then s.word k else resetWord k := State.word_dormantCore _ k
  have hregs : s.pinReset.regs = ({ s with power := { s.power with resetN := false } } : State).dormantCore.regs := hr
  have hquiet : s.pinReset.quiet := (State.quiet_dormantCore _).outside hregs hb hm
  have hdormant : s.pinReset.mode = .dormant := by
    unfold State.pinReset
    exact hmode.trans rfl
  have hfrom : s.pinReset.prev = s.mode := by
    unfold State.pinReset
    exact hprev.trans rfl
  exact ⟨hquiet, hdormant, hfrom, fun k => (State.word_of_regs hregs k).trans (hword k)⟩

theorem exec_resetNLow (s : State) : exec .resetNLow s = .next s.resetLow.settle := complete_of_eq rfl rfl

theorem State.resetNLow_spec {s : State} (h : s.mode ≠ .dormant) :
    ∃ t, exec .resetNLow s = .next t ∧ t.mode = .dormant ∧ t.prev = s.mode ∧
      (∀ k, t.word k = if keeperOff k then s.word k else resetWord k) ∧
      (s.mode ≠ .holdUp → t.out = s.out ∧
        t.power = { s.power with resetN := false, ranReset := true, isolated := false, farPerstN := false, ppsNs := none }) ∧
      (s.mode = .holdUp → t.power.en = 0 ∧ t.power.good = 0 ∧ t.power.railsGood = false ∧ t.power.needHigh = true ∧ t.power.resetN = false ∧
        t.power.ranReset = true ∧ t.out = s.out ++ [.railEn 3 false, .railEn 2 false, .railEn 1 false, .railEn 0 false]) := by
  obtain ⟨hq, hmode, hprev, hword⟩ := s.pinReset_core
  obtain ⟨hout, hwords⟩ := hq.settle
  refine ⟨_, (exec_resetNLow s).trans (by rw [State.resetLow_of h]), ?_⟩
  rw [State.settle_mode, State.settle_prev, State.settle_power, hout]
  refine ⟨hmode, hprev, fun k => (hwords k).trans (hword k), fun hh => ?_, fun hh => ?_⟩ <;> unfold State.pinReset
  · rw [State.afterHoldUp_not hh]
    exact ⟨rfl, rfl⟩
  · rw [State.afterHoldUp_of hh]
    exact ⟨rfl, rfl, rfl, rfl, rfl, rfl, State.lowerRails_out _⟩

/-! ### DORMANT exit (R400, R484, R503, R521) -/

/-- PROVE as DORMANT exit begins it. -/
def State.proving (s : State) : State :=
  ((({ s.dormantCore with mode := .prove, prev := .dormant } : State).sampleStraps.set R.KEEP_THERM.TRIP 108).set
    R.KEEP_THERM.WARN 100).emit .flashReset

theorem State.dormantExit_of {s : State} (hd : s.mode = .dormant) (hr : s.power.resetN = true) (hp : s.power.pwrfailN = true)
    (hg : s.power.railsGood = true) (hk : s.power.keeper = true) : s.dormantExit = s.proving := if_pos (by simp [hd, hr, hp, hg, hk])

theorem State.dormantExit_not {s : State} (h : s.mode ≠ .dormant ∨ s.power.resetN = false ∨ s.power.pwrfailN = false ∨
    s.power.railsGood = false ∨ s.power.keeper = false) : s.dormantExit = s := by
  refine if_neg ?_
  rcases h with h | h | h | h | h <;> simp [h]

theorem State.proving_word (s : State) {k : Nat} (h : k ≠ R.KEEP_THERM.TRIP.off) :
    s.proving.word k = if keeperOff k then s.word k else resetWord k := by
  have hwarn : k ≠ R.KEEP_THERM.WARN.off := h
  show ((State.set _ R.KEEP_THERM.TRIP 108).set R.KEEP_THERM.WARN 100).word k = _
  rw [State.word_set_other _ hwarn, State.word_set_other _ h]
  exact s.word_dormantCore k

theorem State.quiet_proving (s : State) : s.proving.quiet := by
  refine State.quiet_of_reset (fun k hk => ?_) rfl rfl
  have hne : k ≠ R.KEEP_THERM.TRIP.off := by
    simp only [R.KEEP_THERM.TRIP]
    omega
  rw [State.proving_word _ hne, keeperOff_of_followReg hk]
  rfl

theorem State.dormantExit_spec {s : State} (hd : s.mode = .dormant) (hr : s.power.resetN = true) (hp : s.power.pwrfailN = true)
    (hg : s.power.railsGood = true) (hk : s.power.keeper = true) :
    ∃ t, exec .dormantExit s = .next t ∧ t.mode = .prove ∧ t.prev = .dormant ∧ t.tb = 0 ∧ t.get R.KEEP_THERM.TRIP = 108 ∧
      t.get R.KEEP_THERM.WARN = 100 ∧ t.power.hxBif.length = 2 ∧ t.power.smbAddr < 4 ∧
      t.power = { s.power with isolated := false, farPerstN := false, ppsNs := none, hxBif := t.power.hxBif, smbAddr := t.power.smbAddr } ∧
      t.out = s.out ++ [.flashReset] ∧
      ∀ k, k ≠ R.KEEP_THERM.TRIP.off → t.word k = if keeperOff k then s.word k else resetWord k := by
  obtain ⟨hout, hwords⟩ := s.quiet_proving.settle
  refine ⟨_, complete_of_eq rfl (State.dormantExit_of hd hr hp hg hk), ?_⟩
  rw [State.settle_mode, State.settle_prev, State.settle_tb, State.settle_power, hout, State.settle_get _ (by decide), State.settle_get _ (by decide)]
  have htrip : s.proving.get R.KEEP_THERM.TRIP = 108 := by
    show ((State.set _ R.KEEP_THERM.TRIP 108).set R.KEEP_THERM.WARN 100).get _ = _
    rw [State.get_set_of_bits (by decide) (by decide), State.get_set_same _ _ _ (by decide)]
    rfl
  have hwarn : s.proving.get R.KEEP_THERM.WARN = 100 := by
    show ((State.set _ R.KEEP_THERM.TRIP 108).set R.KEEP_THERM.WARN 100).get _ = _
    rw [State.get_set_same _ _ _ (by decide)]
    rfl
  exact ⟨rfl, rfl, rfl, htrip, hwarn, rfl, Nat.mod_lt _ (by decide), rfl, rfl, fun k hne => (hwords k).trans (s.proving_word hne)⟩

/-! ### Chip reset (R529) -/

theorem safeOff_of_followReg {k : Nat} (h : followReg k) : safeOff k = false := by
  simp only [safeOff, Bool.or_eq_false_iff, decide_eq_false_iff_not]
  omega

/-- What SAFE keeps of the registers: as they were, or with the loader's fields reset before (R496, R529). -/
theorem State.word_toSafe (s : State) (cause k : Nat) : (s.toSafe cause).word k =
    if safeOff k then (match s.mode with | .prove | .load => s.unloadFields | _ => s).word k else resetWord k := by
  have h : (s.toSafe cause).regs = keepKeys safeOff (match s.mode with | .prove | .load => s.unloadFields | _ => s).regs := by
    show keepKeys safeOff _ = _
    cases s.mode <;> rfl
  rw [State.word, h]
  exact State.word_keepKeys ..

theorem State.quiet_toSafe (s : State) (cause : Nat) : (s.toSafe cause).quiet :=
  State.quiet_of_reset (fun k hk => by rw [State.word_toSafe, safeOff_of_followReg hk]; rfl) rfl rfl

theorem State.toSafe_out (s : State) (cause : Nat) : (s.toSafe cause).out = s.out ++ [.flashReleased, .farPerst false] := by
  simp [State.toSafe, State.emit]

theorem State.chipResetComplete_spec {s : State} (h : s.fault.chipReset = true) :
    ∃ t, exec .chipResetComplete s = .next t ∧ t.mode = .safe ∧ t.prev = s.mode ∧ t.safeCause = 3 ∧ t.fault.chipReset = false ∧
      t.fault.blocks = [] ∧ t.tb = s.tb ∧ t.cmd.open_ = [] ∧ t.host = s.host.endpoints ∧
      (s.mode ≠ .prove → s.mode ≠ .load → ∀ k, t.word k = if safeOff k then s.word k else resetWord k) ∧
      t.out = s.out ++ [.flashReleased, .farPerst false] := by
  obtain ⟨hout, hwords⟩ := (s.quiet_toSafe 3).settle
  refine ⟨_, complete_of_eq rfl (if_pos h), (State.settle_mode _).trans rfl, (State.settle_prev _).trans rfl, (State.settle_safeCause _).trans rfl, ?_⟩
  rw [State.settle_fault, State.settle_tb, State.settle_cmd, State.settle_host, hout]
  refine ⟨rfl, rfl, rfl, rfl, rfl, fun hp hl k => ?_, s.toSafe_out 3⟩
  rw [hwords, State.word_toSafe]
  cases hm : s.mode with
  | prove => exact absurd hm hp
  | load => exact absurd hm hl
  | dormant | serve | holdUp | safe => rfl

/-- Settles O45: the pins and the chip reset end in their modes with the registers they keep, and nothing follows in a core so reset. -/
theorem resetsEndInTheirModes : Obligations.ResetsEndInTheirModes := by
  refine ⟨fun s h => State.resetNLow_spec h, fun s h => ?_, fun s => ?_, fun s hd hr hp hg hk => State.dormantExit_spec hd hr hp hg hk,
    fun s h => idle_of_eq (State.dormantExit_not h), fun s h => State.chipResetComplete_spec h, fun s h => idle_of_eq (if_neg (by simp [h]))⟩
  · have hlow : s.resetLow = { s with power := { s.power with resetN := false } } := if_pos (by simp [h])
    exact ⟨_, (exec_resetNLow s).trans (by rw [hlow]), State.settle_power _, s.kept_power_only _⟩
  · refine ⟨_, complete_of_eq rfl rfl, ?_, fun h => ?_, fun h => ?_, s.kept_power_only _⟩ <;> rw [State.settle_power]
    · exact if_neg (by simp [h])
    · generalize s.power = p at h
      cases p
      cases h
      simp

end Sys2Proof.Machine
end

section
/-! SUPPORT. HOLD-UP: the close entry, and its entry, isolation and exit (R476, R503, R504, R512, R516, R519). -/
namespace Sys2Proof.Machine

/-! ### No exposure opens after a command (R557) -/

/-- No exposure is open. -/
def State.unexposed (s : State) : Bool := s.cnt.exposure.isNone

theorem State.unexposed_countAt (s : State) (l : Loc) (k t : Nat) : (s.countAt l k t).unexposed = s.unexposed := by
  simp [State.unexposed, State.countAt]

theorem State.unexposed_startSending (s : State) (n : Nat) (p : Bool) (len x : Nat) : (s.startSending n p len x).unexposed = s.unexposed := by
  unfold State.startSending
  exact ite_keeps (g := State.unexposed) (s.unexposed_countAt ..) rfl

theorem State.unexposed_eligSync (s : State) (l : Nat) : (s.eligSync l).unexposed = s.unexposed := by
  unfold State.eligSync
  dsimp only
  split
  · exact ite_keeps rfl rfl
  · exact ite_keeps rfl rfl

theorem State.unexposed_holdSync (s : State) (n c : Nat) : (s.holdSync n c).unexposed = s.unexposed := by
  unfold State.holdSync
  dsimp only
  split
  · exact ite_keeps rfl rfl
  · exact ite_keeps rfl rfl

theorem State.unexposed_startControl (s : State) (n : Nat) : (s.startControl n).unexposed = s.unexposed := by
  unfold State.startControl
  split
  · rfl
  · rename_i f _ _
    exact ite_keeps rfl ((State.unexposed_startSending _ n false (f.length + 4) s.ns).trans (State.unexposed_countAt ..))

theorem State.unexposed_holdFragment (s : State) (n : Nat) : (s.holdFragment n).unexposed = s.unexposed := by
  unfold State.holdFragment
  split
  · exact ite_keeps (State.unexposed_countAt ..) rfl
  · rfl

theorem State.unexposed_resumePort (s : State) (n : Nat) : (s.resumePort n).unexposed = s.unexposed := by
  unfold State.resumePort
  split
  · rfl
  · exact ite_keeps rfl (ite_keeps rfl rfl)

theorem State.unexposed_sendPause (s : State) (n q : Nat) : (s.sendPause n q).unexposed = s.unexposed := by
  unfold State.sendPause
  exact ite_keeps rfl rfl

theorem State.unexposed_watermarks (s : State) : s.watermarks.unexposed = s.unexposed := by
  unfold State.watermarks
  refine foldl_keeps (g := State.unexposed) (fun t n => ?_) _ s
  rfl

theorem State.unexposed_crossings (s : State) : s.crossings.unexposed = s.unexposed := by
  unfold State.crossings
  exact foldl_keeps (g := State.unexposed) (fun t n => ite_keeps (t.unexposed_sendPause ..) rfl) _ s

theorem State.unexposed_eligClocks (s : State) : s.eligClocks.unexposed = s.unexposed := by
  unfold State.eligClocks
  exact foldl_keeps (g := State.unexposed) (fun t e => t.unexposed_eligSync _) _ s

theorem State.unexposed_holdFragments (s : State) : s.holdFragments.unexposed = s.unexposed := by
  unfold State.holdFragments
  exact foldl_keeps (g := State.unexposed) (fun t e => ite_keeps (t.unexposed_holdFragment _) rfl) _ s

theorem State.unexposed_startControls (s : State) : s.startControls.unexposed = s.unexposed := by
  unfold State.startControls
  exact foldl_keeps (g := State.unexposed) (fun t e => ite_keeps (t.unexposed_startControl _) rfl) _ s

theorem State.unexposed_resumePorts (s : State) : s.resumePorts.unexposed = s.unexposed := by
  unfold State.resumePorts
  exact foldl_keeps (g := State.unexposed) (fun t e => t.unexposed_resumePort _) _ s

/-- What follows a command opens no exposure and ends none. -/
theorem State.unexposed_settle (s : State) : s.settle.unexposed = s.unexposed := by
  rw [State.settle_eq]
  have hclocks : s.holdClocks.unexposed = s.unexposed :=
    foldl_keeps (g := State.unexposed) (fun t n => foldl_keeps (g := State.unexposed) (fun u c => u.unexposed_holdSync n c) _ t) _ s
  have hsync : ∀ t : State, t.syncHold.endFreed.unexposed = t.unexposed := fun t => ite_keeps (g := State.unexposed) rfl rfl
  rw [State.send, hsync, State.unexposed_resumePorts, State.unexposed_startControls, State.unexposed_holdFragments,
    State.unexposed_watermarks, State.unexposed_crossings]
  exact (State.unexposed_eligClocks _).trans hclocks

/-! ### The slot of the next journal entry (R468) -/

theorem State.slotHeld_congr {s t : State} (hj : t.cmd.journal = s.cmd.journal) (hp : t.cmd.spoilt = s.cmd.spoilt)
    (hh : t.get R.JRN_HEAD.HEAD = s.get R.JRN_HEAD.HEAD) (hl : t.get R.JRN_LAST_EPOCH.SEQ = s.get R.JRN_LAST_EPOCH.SEQ)
    (hg : t.get R.JRN_ACK.GUARD = s.get R.JRN_ACK.GUARD) (ha : t.get R.JRN_ACK.ACK = s.get R.JRN_ACK.ACK) : t.slotHeld = s.slotHeld := by
  have hseq : ∀ p, t.jseq p = s.jseq p := fun p => by simp only [State.jseq, State.jword, hj]
  have hentry : ∀ p, t.entryValid p = s.entryValid p := fun p => by
    simp only [State.entryValid, State.committed, State.crcGood, State.jseq, State.jbytes, State.jword, hj]
  have houtcome : ∀ p, t.outcomeValid p = s.outcomeValid p := fun p => by
    simp only [State.outcomeValid, State.jseq, State.jbytes, State.jword, hj]
  rw [State.slotHeld, State.slotHeld, State.bit, State.bit, hh, hl, hg, ha, hseq, hentry, houtcome, hp]

/-- Journal words are written to the journal alone. -/
theorem State.setJbytes_eq (s : State) (seq w : Nat) (bs : List Byte) :
    s.setJbytes seq w bs = { s with cmd := { s.cmd with journal := (s.setJbytes seq w bs).cmd.journal } } := by
  unfold State.setJbytes
  exact List.foldlRecOn (motive := fun t : State => t = { s with cmd := { s.cmd with journal := t.cmd.journal } }) _ _ rfl
    fun t ht i _ => by rw [State.setJword, ht]

/-- `x` is `s` but for the journal and its pointers. -/
def State.journaled (s x : State) : Prop :=
  x = { s with regs := x.regs, cmd := { s.cmd with journal := x.cmd.journal } }

theorem State.journaled.word {s x y : State} (h : s.journaled x) (hy : y = { x with cmd := { x.cmd with journal := y.cmd.journal } }) :
    s.journaled y := by
  unfold State.journaled at h ⊢
  rw [hy, h]

theorem State.writeEntry_good (s : State) (ring flags : Nat) (cmd : List Byte) (orig : Nat) : s.journaled (s.writeEntry ring flags cmd orig 0).1 := by
  have h1 : s.journaled s.advanceHead := rfl
  have h2 := h1.word (State.setJbytes_eq s.advanceHead (s.get R.JRN_HEAD.HEAD) 0 (entryBytes (s.get R.JRN_HEAD.HEAD) ring flags s.now cmd orig))
  exact h2.word (y := State.setJword _ _ 31 _) rfl

theorem State.writeOutcome_eq (s : State) (seq : Nat) (outcome : List Byte) :
    s.writeOutcome seq outcome = { s with cmd := { s.cmd with journal := (s.writeOutcome seq outcome).cmd.journal } } := by
  unfold State.writeOutcome
  rw [State.setJword, State.setJbytes_eq]

/-- The 64 B of a close entry (R479). -/
def State.closeBody (s : State) (cause : Nat) : List Byte :=
  record 64 [(0, 1, cause), (8, 6, s.power.holdNs), (16, 6, s.cmd.lastSeq), (24, 2, s.cmd.open_.length)]

theorem State.closeEntry_eq (s : State) (cause : Nat) : s.closeEntry cause =
    (s.writeEntry 0xFF 2 (s.closeBody cause) 0 0).1.writeOutcome (s.get R.JRN_HEAD.HEAD) (outcomeArea 0 0 0 0 []) := rfl

theorem State.closeEntry_journaled (s : State) (cause : Nat) : s.journaled (s.closeEntry cause) := by
  rw [State.closeEntry_eq]
  generalize s.closeBody cause = body
  exact (s.writeEntry_good 0xFF 2 body 0).word (State.writeOutcome_eq ..)

theorem State.advanceHead_get (s : State) {l : Loc} (hh : l.off ≠ R.JRN_HEAD.HEAD.off) (ht : l.off ≠ R.JRN_TAIL.TAIL.off) :
    s.advanceHead.get l = s.get l := by
  rw [State.advanceHead, State.get_set_of_off ht, State.get_set_of_off hh]

theorem State.get_of_journal {s t : State} (h : t = { s with cmd := { s.cmd with journal := t.cmd.journal } }) (l : Loc) : t.get l = s.get l := by
  rw [h]
  rfl

theorem State.writeEntry_get (s : State) (ring flags : Nat) (cmd : List Byte) (orig : Nat) (l : Loc) :
    (s.writeEntry ring flags cmd orig 0).1.get l = s.advanceHead.get l :=
  State.get_of_journal (State.setJbytes_eq s.advanceHead (s.get R.JRN_HEAD.HEAD) 0 (entryBytes (s.get R.JRN_HEAD.HEAD) ring flags s.now cmd orig)) l

theorem State.closeEntry_get (s : State) (cause : Nat) (l : Loc) : (s.closeEntry cause).get l = s.advanceHead.get l := by
  rw [State.closeEntry_eq, State.get_of_journal (State.writeOutcome_eq ..), State.writeEntry_get]

theorem State.advanceHead_head (s : State) : s.advanceHead.get R.JRN_HEAD.HEAD = (s.get R.JRN_HEAD.HEAD + 1) % 2 ^ 48 := by
  rw [State.advanceHead, State.get_set_of_off (by decide), State.get_set_same _ _ _ (by decide)]
  rfl

/-! ### Entry to HOLD-UP (R476, R504, R516, R519) -/

/-- HOLD-UP with its record, before the self-test ends and the irises gasp. -/
def State.holdEntry (s : State) (cause : Nat) : State :=
  { ((s.set R.KEEP_EVENT.CAUSE cause).set R.KEEP_EVENT.TIME s.now).set R.CNT_EXPOSE.BUSY 0 with
    mode := .holdUp
    prev := s.mode
    power := { s.power with holdFrom := s.mode, holdNs := s.ns, isolated := false }
    fault := { s.fault with heldPin := s.faultPin, chipReset := false }
    cmd := { s.cmd with modeReq := none }
    cnt := { s.cnt with exposure := none } }

/-- HOLD-UP up to the close entry. -/
def State.holdBegun (s : State) (cause : Nat) : State := (s.holdEntry cause).endSelfTest.gaspAll

theorem State.enterHoldUp_of {s : State} (h : s.powered) (cause : Nat) : s.enterHoldUp cause =
    if (s.mode == .serve || (s.mode == .load && s.boot.epochWritten)) && !(s.holdBegun cause).slotHeld then (s.holdBegun cause).closeEntry cause
    else s.holdBegun cause := by
  unfold State.enterHoldUp State.holdBegun State.holdEntry
  obtain h | h | h | h := h <;> rw [h] <;> rfl

/-- The parts of the state that HOLD-UP's record reads. -/
def State.recorded (s : State) : Mode × Mode × PowerState × FaultState × CmdState × CntState × BistState × SMap Word :=
  (s.mode, s.prev, s.power, s.fault, s.cmd, s.cnt, s.bist, s.regs)

theorem State.recorded_gaspAll (s : State) : s.gaspAll.recorded = s.recorded := by
  unfold State.gaspAll
  refine foldl_keeps (g := State.recorded) (fun t i => ?_) _ s
  exact ite_keeps rfl rfl

/-- The registers that the entry to HOLD-UP writes. -/
abbrev holdReg (k : Nat) : Prop :=
  k = R.KEEP_EVENT.CAUSE.off ∨ k = R.CNT_EXPOSE.BUSY.off ∨ k = R.BIST_STATUS.STATE.off ∨ k = R.BIST_CTRL.START.off

theorem State.holdEntry_regs (s : State) (cause : Nat) : (s.holdEntry cause).regs =
    (((s.set R.KEEP_EVENT.CAUSE cause).set R.KEEP_EVENT.TIME s.now).set R.CNT_EXPOSE.BUSY 0).regs := rfl

theorem State.holdEntry_word (s : State) (cause : Nat) {k : Nat} (h : ¬ holdReg k) : (s.holdEntry cause).word k = s.word k := by
  simp only [holdReg, not_or] at h
  obtain ⟨hevent, hbusy, -, -⟩ := h
  have htime : k ≠ R.KEEP_EVENT.TIME.off := hevent
  rw [State.word_of_regs (s.holdEntry_regs cause), State.word_set_other _ hbusy, State.word_set_other _ htime, State.word_set_other _ hevent]

/-- A self-test that has ended: its plan, its registers, and nothing else. -/
theorem State.endSelfTest_spec (s : State) : s.endSelfTest.bist.plan = none ∧
    s.endSelfTest = { s with regs := s.endSelfTest.regs, bist := s.endSelfTest.bist } ∧
    ∀ k, k ≠ R.BIST_STATUS.STATE.off → k ≠ R.BIST_CTRL.START.off → s.endSelfTest.word k = s.word k := by
  unfold State.endSelfTest
  split
  · rename_i h
    exact ⟨by simpa using h, rfl, fun _ _ _ => rfl⟩
  · refine ⟨rfl, rfl, fun k hstate hstart => ?_⟩
    rw [State.word_set_other _ hstart, State.word_set_other _ hstate]
    rfl

theorem State.holdBegun_word (s : State) (cause : Nat) {k : Nat} (h : ¬ holdReg k) : (s.holdBegun cause).word k = s.word k := by
  have hregs : (s.holdBegun cause).regs = (s.holdEntry cause).endSelfTest.regs :=
    congrArg (fun x => x.2.2.2.2.2.2.2) (State.recorded_gaspAll (s.holdEntry cause).endSelfTest)
  have hentry := s.holdEntry_word cause h
  simp only [holdReg, not_or] at h
  obtain ⟨-, -, hstate, hstart⟩ := h
  exact (State.word_of_regs hregs k).trans (((s.holdEntry cause).endSelfTest_spec.2.2 k hstate hstart).trans hentry)

theorem State.holdBegun_get (s : State) (cause : Nat) {l : Loc} (h : ¬ holdReg l.off) : (s.holdBegun cause).get l = s.get l := by
  rw [State.get, s.holdBegun_word cause h, State.get]

theorem State.holdBegun_event (s : State) {cause : Nat} (hc : cause < 4) : (s.holdBegun cause).get R.KEEP_EVENT.CAUSE = cause ∧
    (s.holdBegun cause).get R.KEEP_EVENT.TIME = s.now ∧ (s.holdBegun cause).bit R.CNT_EXPOSE.BUSY = false := by
  have hregs : (s.holdBegun cause).regs = (s.holdEntry cause).endSelfTest.regs :=
    congrArg (fun x => x.2.2.2.2.2.2.2) (State.recorded_gaspAll (s.holdEntry cause).endSelfTest)
  have hget (l : Loc) (hstate : l.off ≠ R.BIST_STATUS.STATE.off) (hstart : l.off ≠ R.BIST_CTRL.START.off) : (s.holdBegun cause).get l =
      (((s.set R.KEEP_EVENT.CAUSE cause).set R.KEEP_EVENT.TIME s.now).set R.CNT_EXPOSE.BUSY 0).get l := by
    rw [State.get, State.word_of_regs hregs, (s.holdEntry cause).endSelfTest_spec.2.2 _ hstate hstart,
      State.word_of_regs (s.holdEntry_regs cause), State.get]
  rw [State.bit, hget _ (by decide) (by decide), hget _ (by decide) (by decide), hget _ (by decide) (by decide),
    State.get_set_of_off (by decide), State.get_set_of_bits (by decide) (by decide), State.get_set_same _ _ _ (by decide),
    State.get_set_of_off (by decide), State.get_set_same _ _ _ (by decide), State.get_set_same _ _ _ (by decide)]
  exact ⟨Nat.mod_eq_of_lt hc, Nat.mod_eq_of_lt (Nat.mod_lt _ (by decide)), rfl⟩

/-- The record of HOLD-UP's entry beside the registers. -/
theorem State.holdBegun_parts (s : State) (cause : Nat) : (s.holdBegun cause).mode = .holdUp ∧ (s.holdBegun cause).prev = s.mode ∧
    (s.holdBegun cause).power = { s.power with holdFrom := s.mode, holdNs := s.ns, isolated := false } ∧
    (s.holdBegun cause).fault.chipReset = false ∧ (s.holdBegun cause).cmd = { s.cmd with modeReq := none } ∧
    (s.holdBegun cause).cnt.exposure = none ∧ (s.holdBegun cause).bist.plan = none := by
  have hrec := State.recorded_gaspAll (s.holdEntry cause).endSelfTest
  obtain ⟨hplan, heq, -⟩ := (s.holdEntry cause).endSelfTest_spec
  simp only [State.recorded, Prod.mk.injEq] at hrec
  obtain ⟨hmode, hprev, hpower, hfault, hcmd, hcnt, hbist, -⟩ := hrec
  have hfault' := hfault.trans (congrArg State.fault heq)
  have hcnt' := hcnt.trans (congrArg State.cnt heq)
  exact ⟨hmode.trans (congrArg State.mode heq), hprev.trans (congrArg State.prev heq), hpower.trans (congrArg State.power heq),
    congrArg FaultState.chipReset hfault', hcmd.trans (congrArg State.cmd heq), congrArg CntState.exposure hcnt',
    (congrArg BistState.plan hbist).trans hplan⟩

theorem State.holdBegun_slotHeld (s : State) (cause : Nat) : (s.holdBegun cause).slotHeld = s.slotHeld := by
  obtain ⟨-, -, -, -, hcmd, -, -⟩ := s.holdBegun_parts cause
  exact State.slotHeld_congr (by rw [hcmd]) (by rw [hcmd]) (s.holdBegun_get cause (by decide)) (s.holdBegun_get cause (by decide))
    (s.holdBegun_get cause (by decide)) (s.holdBegun_get cause (by decide))

/-- A journaled state has the record of the state before. -/
theorem State.journaled.parts {s x : State} (h : s.journaled x) : x.mode = s.mode ∧ x.prev = s.prev ∧ x.power = s.power ∧ x.fault = s.fault ∧
    x.cmd.modeReq = s.cmd.modeReq ∧ x.cnt = s.cnt ∧ x.bist = s.bist := by
  unfold State.journaled at h
  rw [h]
  exact ⟨rfl, rfl, rfl, rfl, rfl, rfl, rfl⟩

theorem State.heldUp_enter {s : State} (h : s.powered) {cause : Nat} (hc : cause < 4) : s.heldUp (s.enterHoldUp cause).settle cause := by
  obtain ⟨hmode, hprev, hpower, hfault, hcmd, hcnt, hbist⟩ := s.holdBegun_parts cause
  obtain ⟨hevent, htime, hbusy⟩ := s.holdBegun_event hc
  have hhead : (s.holdBegun cause).get R.JRN_HEAD.HEAD = s.get R.JRN_HEAD.HEAD := s.holdBegun_get cause (by decide)
  have hruns : ((s.mode == .serve || (s.mode == .load && s.boot.epochWritten)) && !(s.holdBegun cause).slotHeld) = true ↔
      (s.mode = .serve ∨ (s.mode = .load ∧ s.boot.epochWritten = true)) ∧ s.slotHeld = false := by
    simp [State.holdBegun_slotHeld]
  have hnone (x : State) (hx : x.cnt = (s.holdBegun cause).cnt) : x.settle.cnt.exposure = none := by
    have := State.unexposed_settle x
    rw [State.unexposed, State.unexposed, hx, hcnt] at this
    exact Option.isNone_iff_eq_none.mp this
  rw [State.enterHoldUp_of h]
  unfold State.heldUp
  by_cases hr : (s.mode = .serve ∨ (s.mode = .load ∧ s.boot.epochWritten = true)) ∧ s.slotHeld = false
  · rw [if_pos (hruns.mpr hr), if_pos hr]
    obtain ⟨pmode, pprev, ppower, pfault, pcmd, pcnt, pbist⟩ := ((s.holdBegun cause).closeEntry_journaled cause).parts
    have hget (l : Loc) (hf : ¬ followReg l.off) (hh : l.off ≠ R.JRN_HEAD.HEAD.off) (ht : l.off ≠ R.JRN_TAIL.TAIL.off) :
        ((s.holdBegun cause).closeEntry cause).settle.get l = (s.holdBegun cause).get l := by
      rw [State.settle_get _ hf, State.closeEntry_get, State.advanceHead_get _ hh ht]
    refine ⟨?_, ?_, ?_, ?_, ?_, (hget _ (by decide) (by decide) (by decide)).trans hevent,
      (hget _ (by decide) (by decide) (by decide)).trans htime, ?_, ?_, hnone _ pcnt, ?_, ?_, ?_⟩
    · rw [State.settle_mode, pmode, hmode]
    · rw [State.settle_prev, pprev, hprev]
    · rw [State.settle_power, ppower, hpower]
    · rw [State.settle_power, ppower, hpower]
    · rw [State.settle_power, ppower, hpower]
    · rw [State.settle_fault, pfault, hfault]
    · rw [State.settle_cmd, pcmd, hcmd]
    · rw [State.bit, hget _ (by decide) (by decide) (by decide)]
      exact hbusy
    · rw [State.settle_bist, pbist, hbist]
    · rw [State.settle_get _ (by decide), State.closeEntry_get, State.advanceHead_head, hhead]
  · rw [if_neg (hruns.not.mpr hr), if_neg hr]
    have hget (l : Loc) (hf : ¬ followReg l.off) : (s.holdBegun cause).settle.get l = (s.holdBegun cause).get l := State.settle_get _ hf
    refine ⟨?_, ?_, ?_, ?_, ?_, (hget _ (by decide)).trans hevent, (hget _ (by decide)).trans htime, ?_, ?_, hnone _ rfl, ?_, ?_, ?_⟩
    · rw [State.settle_mode, hmode]
    · rw [State.settle_prev, hprev]
    · rw [State.settle_power, hpower]
    · rw [State.settle_power, hpower]
    · rw [State.settle_power, hpower]
    · rw [State.settle_fault, hfault]
    · rw [State.settle_cmd, hcmd]
    · rw [State.bit, hget _ (by decide)]
      exact hbusy
    · rw [State.settle_bist, hbist]
    · rw [hget _ (by decide), hhead]

theorem State.enterHoldUp_pwrfail {s : State} (h : s.powered) (cause : Nat) : (s.enterHoldUp cause).settle.power.pwrfailN = s.power.pwrfailN := by
  obtain ⟨-, -, hpower, -, -, -, -⟩ := s.holdBegun_parts cause
  rw [State.settle_power, State.enterHoldUp_of h]
  split
  · obtain ⟨-, -, ppower, -, -, -, -⟩ := ((s.holdBegun cause).closeEntry_journaled cause).parts
    rw [ppower, hpower]
  · rw [hpower]

theorem State.enterHoldUp_not {s : State} (h : s.mode = .dormant ∨ s.mode = .holdUp) (cause : Nat) : s.enterHoldUp cause = s := by
  unfold State.enterHoldUp
  rcases h with h | h <;> rw [h]

/-- The entry reads nothing of the supplies. -/
theorem State.heldUp_of_power {s t : State} {p : PowerState} {cause : Nat} (h : ({ s with power := p } : State).heldUp t cause) :
    s.heldUp t cause := by
  have hslot : ({ s with power := p } : State).slotHeld = s.slotHeld := State.slotHeld_congr rfl rfl rfl rfl rfl rfl
  have hhead : ({ s with power := p } : State).get R.JRN_HEAD.HEAD = s.get R.JRN_HEAD.HEAD := rfl
  unfold State.heldUp at h ⊢
  rw [hslot, hhead] at h
  exact h

/-! ### The exit of HOLD-UP (R503, R512) -/

/-- DORMANT as HOLD-UP ends in it: the enables low, and held so until PWRFAIL_N has been high. -/
theorem State.holdUpExit_spec {s : State} (h : s.mode = .holdUp) :
    ∃ t, exec .holdUpExit s = .next t ∧ t.mode = .dormant ∧ t.prev = .holdUp ∧ t.power.en = 0 ∧ t.power.needHigh = true ∧
      t.power.good = 0 ∧ t.power.railsGood = false ∧ (∀ k, t.word k = if keeperOff k then s.word k else resetWord k) ∧
      t.out = s.out ++ [.railEn 3 false, .railEn 2 false, .railEn 1 false, .railEn 0 false] := by
  have heff : (if s.mode == .holdUp then s.afterHoldUp s.dormantCore else s) = s.afterHoldUp s.dormantCore := if_pos (by simp [h])
  obtain ⟨hr, hb, hm, hmode, hprev⟩ := s.afterHoldUp_core s.dormantCore
  obtain ⟨hout, hwords⟩ := (s.quiet_dormantCore.outside hr hb hm).settle
  refine ⟨_, complete_of_eq rfl heff, (State.settle_mode _).trans hmode, ((State.settle_prev _).trans hprev).trans h, ?_⟩
  rw [State.settle_power, hout]
  have hx := State.afterHoldUp_of h s.dormantCore
  have hpower := congrArg State.power hx
  exact ⟨congrArg PowerState.en hpower, congrArg PowerState.needHigh hpower, congrArg PowerState.good hpower, congrArg PowerState.railsGood hpower,
    fun k => (hwords k).trans ((State.word_of_regs hr k).trans (s.word_dormantCore k)), (congrArg State.out hx).trans (State.lowerRails_out _)⟩

/-- The state with PWRFAIL_N low. -/
def State.failing (s : State) : State := { s with power := { s.power with pwrfailN := false } }

theorem State.heldUp_of_failing {s t : State} {cause : Nat} (h : s.failing.heldUp t cause) : s.heldUp t cause := State.heldUp_of_power h

theorem execPwrfailN_eq (s : State) : exec .pwrfailN s = .next (s.failing.enterHoldUp 0).settle := complete_of_eq rfl rfl

/-- Settles O46: HOLD-UP begins with its record, isolates itself, and ends in DORMANT. -/
theorem holdUpRuns : Obligations.HoldUpRuns := by
  refine ⟨fun s h => ⟨?_, ?_⟩, fun s h => ⟨?_, idle_of_eq (State.enterHoldUp_not h 1)⟩, fun s => ⟨_, complete_of_eq rfl rfl, State.settle_power _, s.kept_power_only _⟩,
    fun s h hn => ?_, fun s h => State.holdUpExit_spec h, fun s h => ⟨idle_of_eq (if_neg (by simp [h])), idle_of_eq (if_neg (by simp [h]))⟩⟩
  · have hp : s.failing.powered := h
    exact ⟨_, execPwrfailN_eq s, State.heldUp_of_failing (State.heldUp_enter hp (by decide)), State.enterHoldUp_pwrfail hp 0⟩
  · exact ⟨_, complete_of_eq rfl rfl, State.heldUp_enter h (by decide), State.enterHoldUp_pwrfail h 1⟩
  · have hp : s.failing.mode = .dormant ∨ s.failing.mode = .holdUp := h
    exact ⟨_, complete_of_eq rfl (State.enterHoldUp_not hp 0), State.settle_power _, s.kept_power_only _⟩
  · refine ⟨_, complete_of_eq rfl (if_pos (by simp [h, hn])), State.settle_power _, ?_, s.kept_power_only _⟩
    rw [State.settle_coreUp, State.coreUp]
    simp [h]

end Sys2Proof.Machine
end

section
/-! SUPPORT. Command rings: what a doorbell, an acceptance and a completion leave (R459, R461, R464, R466, R471). -/
namespace Sys2Proof.Machine

/-! ### Bytes -/

@[simp] theorem leBytes_length (n x : Nat) : (leBytes n x).length = n := by
  induction n generalizing x with
  | zero => rfl
  | succ n ih => simp [leBytes, ih]

/-- The bytes of the number that bytes stand for are those bytes. -/
theorem leBytes_leVal (bs : List Byte) : leBytes bs.length (leVal bs) = bs := by
  induction bs with
  | nil => rfl
  | cons b bs ih =>
    have hb : b.toNat < 256 := b.isLt
    have hhead : BitVec.ofNat 8 (b.toNat + 256 * leVal bs) = b := BitVec.eq_of_toNat_eq (by rw [BitVec.toNat_ofNat]; omega)
    have htail : (b.toNat + 256 * leVal bs) / 256 = leVal bs := by omega
    rw [leVal, List.length_cons, leBytes, hhead, htail, ih]

/-- Eight bytes stand for a word. -/
theorem leVal_lt (bs : List Byte) : leVal bs < 256 ^ bs.length := by
  induction bs with
  | nil => exact Nat.one_pos
  | cons b bs ih =>
    have hb : b.toNat < 256 := b.isLt
    rw [leVal, List.length_cons, Nat.pow_succ]
    omega

@[simp] theorem slice_length (bs : List Byte) (off n : Nat) : (slice bs off n).length = n := by
  simp [slice]

/-- A slice of as many bytes as there are is those bytes. -/
theorem slice_all (bs : List Byte) : slice bs 0 bs.length = bs := by simp [slice]

/-- The words of a list of bytes, written out again. -/
theorem words_bytes (bs : List Byte) {n : Nat} (h : 8 * n ≤ bs.length) :
    ((List.range n).flatMap fun i => leBytes 8 (leAt bs (8 * i) 8)) = bs.take (8 * n) := by
  induction n with
  | zero => simp
  | succ n ih =>
    have hlen : ((bs.drop (8 * n)).take 8).length = 8 := by rw [List.length_take, List.length_drop]; omega
    have hword : leBytes 8 (leAt bs (8 * n) 8) = (bs.drop (8 * n)).take 8 := by
      have := leBytes_leVal ((bs.drop (8 * n)).take 8)
      rwa [hlen] at this
    rw [List.range_succ, List.flatMap_append, ih (by omega), List.flatMap_singleton, hword, ← List.take_add]
    rfl

theorem leAt_lt (bs : List Byte) (off n : Nat) : leAt bs off n < 256 ^ n :=
  (leVal_lt _).trans_le (Nat.pow_le_pow_right (by decide) (List.length_take_le ..))

/-! ### The words of the journal (R464, R466) -/

theorem State.jword_setJword_same (s : State) (q w x : Nat) : (s.setJword q w x).jword q w = x % 2 ^ 64 := SMap.find_put_same ..

/-- The words that bytes are written to, and those beside. -/
theorem State.jword_setJbytes (s : State) (q w : Nat) (bs : List Byte) (v : Nat) : (s.setJbytes q w bs).jword q v =
    if w ≤ v ∧ v < w + bs.length / 8 then leAt bs (8 * (v - w)) 8 else s.jword q v := by
  unfold State.setJbytes
  generalize bs.length / 8 = n
  induction n with
  | zero => simp
  | succ n ih =>
    rw [List.range_succ, List.foldl_append, List.foldl_cons, List.foldl_nil]
    by_cases hv : v = w + n
    · subst hv
      have hlt : leAt bs (8 * n) 8 < 2 ^ 64 := leAt_lt bs (8 * n) 8
      rw [State.jword_setJword_same, if_pos (by omega), Nat.mod_eq_of_lt hlt, Nat.add_sub_cancel_left]
    · rw [State.jword_setJword_other _ _ (by omega), ih]
      exact if_congr (by omega) rfl rfl

/-- What is written to the journal reads back. -/
theorem State.jbytes_setJbytes (s : State) (q w : Nat) {bs : List Byte} {n : Nat} (h : bs.length = 8 * n) :
    (s.setJbytes q w bs).jbytes q w n = bs := by
  have hword : ∀ i ∈ List.range n, leBytes 8 ((s.setJbytes q w bs).jword q (w + i)) = leBytes 8 (leAt bs (8 * i) 8) := fun i hi => by
    have := List.mem_range.mp hi
    rw [State.jword_setJbytes, if_pos (by omega), Nat.add_sub_cancel_left]
  rw [State.jbytes, List.flatMap_congr hword, words_bytes bs (by omega), ← h, List.take_length]

/-- A word beside the bytes leaves them. -/
theorem State.jbytes_setJword_beside (s : State) (q : Nat) {w n v : Nat} (x : Nat) (h : v < w ∨ w + n ≤ v) :
    (s.setJword q v x).jbytes q w n = s.jbytes q w n := by
  rw [State.jbytes, State.jbytes]
  exact List.flatMap_congr fun i hi => by
    have := List.mem_range.mp hi
    rw [State.jword_setJword_other _ _ (by omega)]

theorem State.jbytes_congr {s t : State} (h : t.cmd.journal = s.cmd.journal) (q w n : Nat) : t.jbytes q w n = s.jbytes q w n := by
  simp only [State.jbytes, State.jword, h]

/-- The outcome that is written is the one that the entry holds (R466). -/
theorem State.writeOutcome_jbytes (s : State) (seq : Nat) (o : List Byte) : (s.writeOutcome seq o).jbytes seq 24 6 = slice o 0 48 := by
  rw [State.writeOutcome, State.jbytes_setJword_beside _ _ _ (by decide), State.jbytes_setJbytes]
  exact slice_length ..

theorem outcomeArea_length (code reason index takeover : Nat) (data : List (Nat × Nat × Nat)) :
    (outcomeArea code reason index takeover data).length = 48 := leBytes_length ..

theorem slice_outcomeArea (code reason index takeover : Nat) (data : List (Nat × Nat × Nat)) :
    slice (outcomeArea code reason index takeover data) 0 48 = outcomeArea code reason index takeover data := by
  have := slice_all (outcomeArea code reason index takeover data)
  rwa [outcomeArea_length] at this

theorem leAt_leBytes_zero (n x : Nat) : leAt (leBytes (n + 1) x) 0 1 = x % 256 := by
  rw [leBytes, leAt, List.drop_zero, List.take_succ_cons, List.take_zero, leVal, leVal, BitVec.toNat_ofNat]
  omega

/-- The number that the fields of a record make up (R12). -/
def fieldsVal (fields : List (Nat × Nat × Nat)) (v : Nat) : Nat :=
  fields.foldl (fun acc f => acc + (f.2.2 % 2 ^ (8 * f.2.1)) * 2 ^ (8 * f.1)) v

/-- Fields past the first byte leave it. -/
theorem fieldsVal_mod {fields : List (Nat × Nat × Nat)} (h : ∀ f ∈ fields, 1 ≤ f.1) (v : Nat) : fieldsVal fields v % 256 = v % 256 := by
  unfold fieldsVal
  refine List.foldlRecOn (motive := fun x => x % 256 = v % 256) _ _ rfl fun x hx f hf => ?_
  obtain ⟨k, hk⟩ := Nat.exists_eq_add_of_le (h f hf)
  have hpow : 2 ^ (8 * f.1) = 256 * 2 ^ (8 * k) := by rw [hk, Nat.mul_add, Nat.pow_add]
  rw [hpow, Nat.mul_left_comm, Nat.add_mul_mod_self_left, hx]

/-- The first byte of an outcome is its code. -/
theorem outcomeArea_code (code reason index takeover : Nat) : leAt (outcomeArea code reason index takeover []) 0 1 = code % 256 := by
  have hrec : outcomeArea code reason index takeover [] =
      leBytes (47 + 1) (fieldsVal [(1, 1, reason), (2, 2, index), (8, 6, takeover)] (0 + code % 2 ^ (8 * 1) * 2 ^ (8 * 0))) := rfl
  rw [hrec, leAt_leBytes_zero, fieldsVal_mod (by simp)]
  simp

/-! ### What a command ring's steps leave (R459, R461, R466) -/

/-- What goes to a function turns on neither the registers nor the commands. -/
theorem State.pfWrites_congr {s t : State} (hp : t.power = s.power) (hh : t.host = s.host) (pf addr : Nat) (bs : List Byte) :
    t.pfWrites pf addr bs = s.pfWrites pf addr bs := by
  unfold State.pfWrites State.hostOut State.hostUp State.epUp State.linkOfPf State.maxPayload
  rw [hp, hh]

/-- The registers of the command rings follow no command. -/
theorem not_followReg_ring {off r : Nat} (hr : r < 64) (h : 0x400000 ≤ off ∧ off ≤ 0x400010) : ¬ followReg (off + 0x20 * r) := by
  simp only [followReg]
  omega

section
variable {s : State} {r : Nat}

theorem State.settle_get_ring (s : State) {l : Loc} (hr : r < 64) {off : Nat} (hl : l.off = off + 0x20 * r) (h : 0x400000 ≤ off ∧ off ≤ 0x400010) :
    s.settle.get l = s.get l := State.settle_get _ (hl ▸ not_followReg_ring hr h)

theorem doorbellTarget_of {t c size v : Nat} (ht : t < 65536) (hv : v < 65536) (h1 : (v + 65536 - t) % 65536 ≤ 2 ^ size)
    (h2 : (v + 65536 - c) % 65536 ≤ 2 ^ size) : doorbellTarget t c size v = some v := by
  unfold doorbellTarget
  dsimp only
  by_cases h : (v + 65536 - t) % 65536 = 0
  · rw [if_pos h, show t = v by omega]
  · rw [if_neg h, if_pos ⟨h1, h2⟩]

/-- A doorbell within the ring moves the target sequence (R459). -/
theorem State.cmdDoorbell_of {src : HostSrc} {v : Nat} (hreach : s.reach src = true) (hpf : src.func = s.get (R.CMD_RING.PF r))
    (hm : s.mode = .serve) (he : s.bit (R.CMD_RING.ENABLE r) = true) (hv : v < 65536)
    (ht : (v + 65536 - s.get (R.CMD_STAT.T r)) % 65536 ≤ 2 ^ s.get (R.CMD_RING.SIZE r))
    (hc : (v + 65536 - s.get (R.CMD_STAT.C r)) % 65536 ≤ 2 ^ s.get (R.CMD_RING.SIZE r)) :
    s.cmdDoorbell src r v = s.set (R.CMD_STAT.T r) v := by
  have htarget := doorbellTarget_of (State.get_lt s (R.CMD_STAT.T r)) hv ht hc
  have hclosed : ¬ (s.mode != .serve || !s.bit (R.CMD_RING.ENABLE r) || decide (65536 ≤ v)) = true := by simp [hm, he, hv]
  have hother : ¬ (src.func != s.ringPf r) = true := by simp [hpf, State.ringPf]
  unfold State.cmdDoorbell
  rw [if_neg (by simp [hreach])]
  dsimp only
  rw [if_neg hother, if_neg hclosed, htarget]

/-! ### Acceptance (R466) -/

/-- A written entry whose read-back succeeds in time. -/
theorem State.writeEntry_lt (s : State) (ring flags : Nat) (cmd : List Byte) (orig : Nat) {fails : Nat} (h : fails < 2) :
    s.writeEntry ring flags cmd orig fails = ((s.writeEntry ring flags cmd orig 0).1, true) := by
  unfold State.writeEntry
  simp only []
  rw [if_pos h, if_pos (by decide)]

theorem State.writeEntry_regs (s : State) (ring flags : Nat) (cmd : List Byte) (orig : Nat) :
    (s.writeEntry ring flags cmd orig 0).1.regs = s.advanceHead.regs :=
  (congrArg State.regs (State.setJbytes_eq s.advanceHead (s.get R.JRN_HEAD.HEAD) 0 (entryBytes (s.get R.JRN_HEAD.HEAD) ring flags s.now cmd orig)) :)

/-- Ring `r` is served and its next number is due. -/
def State.entering (s : State) (r : Nat) : State :=
  ({ s with cmd := { s.cmd with lastRing := r } } : State).set (R.CMD_STAT.C r) (wrapAdd 16 (s.get (R.CMD_STAT.C r)) 1)

/-- The entry of the next command of ring `r` is written. -/
def State.entered (s : State) (r : Nat) : State := ((s.entering r).writeEntry r 0 (s.nextSlot r) 0 0).1

/-- The next command of ring `r` is taken. -/
def State.taken (s : State) (r : Nat) : State :=
  (((s.entered r).post r (s.get (R.CMD_STAT.C r)) 1 (s.get R.JRN_HEAD.HEAD) []).sat (R.CMD_STAT.OPEN r) 1).openCmd
    ⟨s.get R.JRN_HEAD.HEAD, r, s.get (R.CMD_STAT.C r), s.nextSlot r, (leAt (s.nextSlot r) 4 1).testBit 7, (s.entered r).ns, none, false, none, 0⟩

theorem State.entered_eq (s : State) (r : Nat) :
    s.entered r = { s.entering r with regs := (s.entered r).regs, cmd := { (s.entering r).cmd with journal := (s.entered r).cmd.journal } } :=
  State.writeEntry_good ..

theorem State.nextRing_lt (h : s.nextRing = some r) : r < 64 := by
  have hmem := List.mem_of_find?_eq_some h
  obtain ⟨i, -, rfl⟩ := List.mem_map.mp hmem
  exact Nat.mod_lt _ (by decide)

theorem State.acceptNext_of (h : s.accepts r) (fails : Nat) : s.acceptNext fails = s.takeCommand r fails := by
  obtain ⟨hmay, hring, hheld, -⟩ := h
  have hreexec : s.reexecWaits = false := by
    simp only [State.mayAccept, Bool.and_eq_true] at hmay
    obtain ⟨⟨-, hempty⟩, -⟩ := hmay
    simp [State.reexecWaits, hempty]
  rw [State.acceptNext, if_neg (by simp [hreexec]), if_neg (by simp [hmay]), hring]
  exact if_neg (by simp [hheld])

/-- A RESTART or SAFE that has been accepted stops acceptance (R505). -/
def State.holding (s : State) (op : Option Nat) : State :=
  match op with
  | some op => { s with cmd := { s.cmd with modeReq := some (op, none) } }
  | none => s

theorem State.holding_parts (s : State) (op : Option Nat) : (s.holding op).regs = s.regs ∧ (s.holding op).bare = s.bare ∧
    (s.holding op).irises = s.irises ∧ (s.holding op).cmd.open_ = s.cmd.open_ ∧ (s.holding op).cmd.lastSeq = s.cmd.lastSeq := by
  cases op <;> exact ⟨rfl, rfl, rfl, rfl, rfl⟩

/-- What follows an entry with its read-back: a command accepted, or not (R466). -/
def State.entryRead (s : State) (r : Nat) (w : State × Bool) : State :=
  if w.2 then
    State.holding (((w.1.post r (s.get (R.CMD_STAT.C r)) 1 (s.get R.JRN_HEAD.HEAD) []).sat (R.CMD_STAT.OPEN r) 1).openCmd
      ⟨s.get R.JRN_HEAD.HEAD, r, s.get (R.CMD_STAT.C r), s.nextSlot r, (leAt (s.nextSlot r) 4 1).testBit 7, w.1.ns, none, false, none, 0⟩) (modeOp (s.nextSlot r))
  else ((w.1.journalFail r).sat R.CMD_ERR.NOT_ACCEPTED 1).post r (s.get (R.CMD_STAT.C r)) 3 (s.get R.JRN_HEAD.HEAD) []

theorem State.takeCommand_of (h : s.accepts r) {fails : Nat} (hf : fails < 2) : s.takeCommand r fails =
    (s.taken r).holding (modeOp (s.nextSlot r)) := by
  obtain ⟨-, -, -, hnum⟩ := h
  have hnot : ¬ leAt (s.slotBytes r (s.get (R.CMD_STAT.C r) % 2 ^ s.get (R.CMD_RING.SIZE r))) 2 2 ≠ s.get (R.CMD_STAT.C r) := not_not.mpr hnum
  have hentry : (s.entering r).writeEntry r 0 (s.nextSlot r) 0 fails = (s.entered r, true) := State.writeEntry_lt _ _ _ _ _ hf
  have hread : s.takeCommand r fails = s.entryRead r ((s.entering r).writeEntry r 0 (s.nextSlot r) 0 fails) := if_neg hnot
  rw [hread, hentry]
  exact if_pos rfl


theorem State.post_eq (s : State) (r n st seq : Nat) (o : List Byte) : s.post r n st seq o = s.emitAll (s.posts r n st seq o) := rfl

theorem State.openCmd_open (s : State) (c : OpenCmd) : (s.openCmd c).cmd.open_ = s.cmd.open_ ++ [c] := rfl
theorem State.openCmd_lastSeq (s : State) (c : OpenCmd) : (s.openCmd c).cmd.lastSeq = c.seq := rfl
theorem State.openCmd_bare (s : State) (c : OpenCmd) : (s.openCmd c).bare = s.bare := rfl
theorem State.openCmd_regs (s : State) (c : OpenCmd) : (s.openCmd c).regs = s.regs := rfl
theorem State.openCmd_irises (s : State) (c : OpenCmd) : (s.openCmd c).irises = s.irises := rfl
theorem State.sat_emitAll_regs (s : State) (es : List Emit) (l : Loc) (k : Nat) : ((s.emitAll es).sat l k).regs = (s.sat l k).regs := rfl

/-- The post leaves the registers. -/
theorem State.taken_regs (s : State) (r : Nat) : (s.taken r).regs = ((s.entered r).sat (R.CMD_STAT.OPEN r) 1).regs := by
  rw [State.taken, State.post_eq, State.openCmd_regs, State.sat_emitAll_regs]

theorem State.taken_irises (s : State) (r : Nat) : (s.taken r).irises = s.irises := by
  rw [State.taken, State.openCmd_irises, State.sat_irises, State.post_eq, State.emitAll_irises]
  exact (congrArg State.irises (s.entered_eq r) :)

theorem State.taken_cmd (s : State) (r : Nat) : (s.taken r).cmd.open_ = s.cmd.open_ ++ [⟨s.get R.JRN_HEAD.HEAD, r, s.get (R.CMD_STAT.C r),
      s.nextSlot r, (leAt (s.nextSlot r) 4 1).testBit 7, s.ns, none, false, none, 0⟩] ∧ (s.taken r).cmd.lastSeq = s.get R.JRN_HEAD.HEAD := by
  have hj := s.entered_eq r
  have hopen : (s.entered r).cmd.open_ = s.cmd.open_ := (congrArg (fun x : State => x.cmd.open_) hj :)
  have hns : (s.entered r).ns = s.ns := (congrArg State.ns hj :)
  exact ⟨by rw [State.taken, State.openCmd_open, State.sat_cmd, State.post_eq, State.emitAll_cmd, hopen, hns],
    by rw [State.taken, State.openCmd_lastSeq]⟩

/-- What acceptance leaves (R466). -/
theorem State.taken_bare (s : State) (r : Nat) :
    (s.taken r).bare = (s.emitAll (s.posts r (s.get (R.CMD_STAT.C r)) 1 (s.get R.JRN_HEAD.HEAD) [])).bare := by
  have hj := s.entered_eq r
  have hbare : (s.entered r).bare = s.bare := (congrArg State.bare hj :)
  have hget (l : Loc) (h1 : l.off ≠ R.JRN_HEAD.HEAD.off) (h2 : l.off ≠ R.JRN_TAIL.TAIL.off) (h3 : l.off ≠ (R.CMD_STAT.C r).off) :
      (s.entered r).get l = s.get l := by
    rw [State.entered, State.writeEntry_get, State.advanceHead_get _ h1 h2, State.entering, State.get_set_of_off h3]
    rfl
  have hposts : (s.entered r).posts r (s.get (R.CMD_STAT.C r)) 1 (s.get R.JRN_HEAD.HEAD) [] =
      s.posts r (s.get (R.CMD_STAT.C r)) 1 (s.get R.JRN_HEAD.HEAD) [] := by
    unfold State.posts
    rw [hget (R.CMD_RING.PF r), hget (R.CMD_RING.SIZE r), hget (R.CMD_POST.BASE r)]
    · exact State.pfWrites_congr (congrArg State.power hj :) (congrArg State.host hj :) ..
    all_goals simp only [R.CMD_RING.PF, R.CMD_RING.SIZE, R.CMD_POST.BASE, R.JRN_HEAD.HEAD, R.JRN_TAIL.TAIL, R.CMD_STAT.C]; omega
  rw [State.taken, State.openCmd_bare, State.bare_sat, State.post_eq, hposts]
  exact State.bare_emitAll hbare _

/-- The sequences that acceptance moves, and what it leaves of the registers. -/
theorem State.taken_get (s : State) (r : Nat) : (s.taken r).get (R.CMD_STAT.C r) = (s.get (R.CMD_STAT.C r) + 1) % 65536 ∧
    (s.taken r).get R.JRN_HEAD.HEAD = (s.get R.JRN_HEAD.HEAD + 1) % 2 ^ 48 ∧
    ∀ k, ¬ (k = R.JRN_HEAD.HEAD.off ∨ k = R.JRN_TAIL.TAIL.off ∨ k = (R.CMD_STAT.C r).off) → (s.taken r).word k = s.word k := by
  have hopen (l : Loc) : (s.taken r).get l = ((s.entered r).sat (R.CMD_STAT.OPEN r) 1).get l := State.get_of_regs (s.taken_regs r) l
  have hC : (R.CMD_STAT.C r).off ≠ R.JRN_HEAD.HEAD.off ∧ (R.CMD_STAT.C r).off ≠ R.JRN_TAIL.TAIL.off := by
    simp only [R.JRN_HEAD.HEAD, R.JRN_TAIL.TAIL, R.CMD_STAT.C]; omega
  obtain ⟨hC1, hC2⟩ := hC
  have hnext : (s.entering r).get (R.CMD_STAT.C r) = (s.get (R.CMD_STAT.C r) + 1) % 65536 := by
    rw [State.entering, State.get_set_same _ _ _ (of_decide_eq_true rfl)]
    generalize s.get (R.CMD_STAT.C r) = c
    simp [wrapAdd, R.CMD_STAT.C]
  have hhead : (s.entering r).get R.JRN_HEAD.HEAD = s.get R.JRN_HEAD.HEAD := State.get_set_of_off hC1.symm
  refine ⟨?_, ?_, fun k hk => ?_⟩
  · rw [hopen, State.sat, State.get_set_of_bits (of_decide_eq_true rfl) (.inl (of_decide_eq_true rfl)), State.entered, State.writeEntry_get,
      State.advanceHead_get _ hC1 hC2, hnext]
  · rw [hopen, State.sat, State.get_set_of_off (m := R.JRN_HEAD.HEAD) (l := R.CMD_STAT.OPEN r) hC1.symm, State.entered, State.writeEntry_get,
      State.advanceHead_head, hhead]
  · push Not at hk
    obtain ⟨h1, h2, h3⟩ := hk
    have hword : (s.taken r).word k = ((s.entered r).sat (R.CMD_STAT.OPEN r) 1).word k :=
      State.word_of_regs (s.taken_regs r) k
    have h4 : k ≠ (R.CMD_STAT.OPEN r).off := h3
    have hadv : (s.entered r).word k = (s.entering r).advanceHead.word k :=
      State.word_of_regs (State.writeEntry_regs ..) k
    rw [hword, State.sat, State.word_set_other _ h4, hadv, State.advanceHead, State.word_set_other _ h2, State.word_set_other _ h1, State.entering,
      State.word_set_other _ h3]
    rfl

end

/-! ### Completion (R466, R471) -/

theorem State.toHost_eq (s : State) (link : Nat) (e : Emit) : s.toHost link e = s.emitAll (s.hostOut link [e]) := by
  unfold State.toHost State.hostOut
  split
  · rfl
  · exact s.emitAll_nil.symm

/-- The outcome of the command is written, and it is open no more. -/
def State.closed (s : State) (seq : Nat) (o : List Byte) : State :=
  { s.writeOutcome seq o with cmd := { (s.writeOutcome seq o).cmd with open_ := (s.writeOutcome seq o).cmd.open_.filter fun d => d.seq != seq } }

/-- What the completion of a command sends: the post, and the message that IRQ = 1 asks for. -/
def State.completionOut (s : State) (seq : Nat) (c : OpenCmd) (o : List Byte) : List Emit :=
  s.posts c.ring c.num 2 seq o ++ (if c.irq then s.hostOut (s.linkOfPf (s.get (R.CMD_RING.PF c.ring)))
    [.msix (s.get (R.CMD_RING.PF c.ring)) (s.get (R.CMD_RING.VEC c.ring))] else [])

/-- The command has left its ring. -/
def State.completed (s : State) (seq : Nat) (c : OpenCmd) (o : List Byte) : State :=
  ((s.closed seq o).dec (R.CMD_STAT.OPEN c.ring) 1).emitAll (s.completionOut seq c o)

section
variable {s : State} {seq : Nat} {c : OpenCmd} {o : List Byte}

theorem State.closed_eq (s : State) (seq : Nat) (o : List Byte) : s.closed seq o = { s with
    cmd := { s.cmd with open_ := s.cmd.open_.filter fun d => d.seq != seq, journal := (s.writeOutcome seq o).cmd.journal } } := by
  have h := s.writeOutcome_eq seq o
  rw [State.closed]
  generalize s.writeOutcome seq o = w at h ⊢
  rw [h]

theorem State.completionOut_congr {t : State} (hp : t.power = s.power) (hh : t.host = s.host)
    (hget : ∀ l : Loc, l = R.CMD_RING.PF c.ring ∨ l = R.CMD_RING.SIZE c.ring ∨ l = R.CMD_RING.VEC c.ring ∨ l = R.CMD_POST.BASE c.ring →
      t.get l = s.get l) : t.completionOut seq c o = s.completionOut seq c o := by
  have hposts : t.posts c.ring c.num 2 seq o = s.posts c.ring c.num 2 seq o := by
    unfold State.posts
    rw [hget _ (.inl rfl), hget _ (.inr (.inl rfl)), hget _ (.inr (.inr (.inr rfl)))]
    exact State.pfWrites_congr hp hh ..
  unfold State.completionOut
  rw [hposts, hget _ (.inl rfl), hget _ (.inr (.inr (.inl rfl)))]
  unfold State.hostOut State.hostUp State.epUp State.linkOfPf
  rw [hp]

/-- COMPLETED is posted, with the message that IRQ = 1 asks for. -/
def State.announced (t : State) (seq : Nat) (c : OpenCmd) (o : List Byte) : State :=
  let p := t.post c.ring c.num 2 seq o
  if c.irq then p.toHost (p.linkOfPf (p.ringPf c.ring)) (.msix (p.ringPf c.ring) (p.get (R.CMD_RING.VEC c.ring))) else p

theorem State.announced_eq (t : State) (seq : Nat) (c : OpenCmd) (o : List Byte) :
    t.announced seq c o = t.emitAll (t.completionOut seq c o) := by
  rw [State.announced, State.post_eq, State.completionOut]
  generalize t.posts c.ring c.num 2 seq o = posts
  split
  · rw [State.toHost_eq, ← State.emitAll_emitAll]
    rfl
  · rw [List.append_nil]

/-- The takeover time that a RESTART or SAFE takes as it completes (R505). -/
def State.timed (s : State) (c : OpenCmd) (o : List Byte) : State :=
  match s.cmd.modeReq, modeOp c.bytes with
  | some (op, none), some _ => if leAt o 0 1 = 0 then { s with cmd := { s.cmd with modeReq := some (op, some (s.ns + 100000)) } } else s
  | _, _ => s

/-- A command whose execution has ended completes (R466, R471). -/
theorem State.completeCmd_of (h : s.findCmd seq = some c) (ho : c.outcome = some o) (hr : c.ring < 64) {fails : Nat} (hf : fails < 2) :
    s.completeCmd seq fails = (s.completed seq c (s.finalOutcome c o)).timed c (s.finalOutcome c o) := by
  have hclosed : s.completeCmd seq fails =
      (((s.closed seq (s.finalOutcome c o)).dec (R.CMD_STAT.OPEN c.ring) 1).announced seq c (s.finalOutcome c o)).timed c (s.finalOutcome c o) := by
    unfold State.completeCmd
    simp only [h, ho]
    rw [if_pos hf, if_pos hr]
    rfl
  have heq := s.closed_eq seq (s.finalOutcome c o)
  have hget (l : Loc) (hl : l.off ≠ (R.CMD_STAT.OPEN c.ring).off) :
      ((s.closed seq (s.finalOutcome c o)).dec (R.CMD_STAT.OPEN c.ring) 1).get l = s.get l := by
    rw [State.dec, State.get_set_of_off hl]
    exact State.get_of_regs (congrArg State.regs heq :) l
  have hout := State.completionOut_congr (s := s) (t := (s.closed seq (s.finalOutcome c o)).dec (R.CMD_STAT.OPEN c.ring) 1) (seq := seq) (c := c)
    (o := s.finalOutcome c o) (congrArg State.power heq :) (congrArg State.host heq :) fun l hl => hget l (by
      rcases hl with rfl | rfl | rfl | rfl <;> simp only [R.CMD_RING.PF, R.CMD_RING.SIZE, R.CMD_RING.VEC, R.CMD_POST.BASE, R.CMD_STAT.OPEN] <;> omega)
  rw [hclosed, State.announced_eq, hout, State.completed]

/-- What completion leaves, and the outcome that it writes. -/
theorem State.completed_spec (s : State) (seq : Nat) (c : OpenCmd) (o : List Byte) :
    (s.completed seq c o).cmd.open_ = s.cmd.open_.filter (fun d => d.seq != seq) ∧ (s.completed seq c o).cmd.modeReq = s.cmd.modeReq ∧
      (s.completed seq c o).jbytes seq 24 6 = slice o 0 48 ∧
      (s.completed seq c o).get (R.CMD_STAT.OPEN c.ring) = s.get (R.CMD_STAT.OPEN c.ring) - 1 ∧
      (s.completed seq c o).bare = (s.emitAll (s.completionOut seq c o)).bare ∧
      ∀ k, k ≠ (R.CMD_STAT.OPEN c.ring).off → (s.completed seq c o).word k = s.word k := by
  have heq := s.closed_eq seq o
  have hcmd : (s.completed seq c o).cmd = (s.closed seq o).cmd := by rw [State.completed, State.emitAll_cmd]; rfl
  have hregs : (s.completed seq c o).regs = ((s.closed seq o).dec (R.CMD_STAT.OPEN c.ring) 1).regs := by rw [State.completed, State.emitAll_regs]
  have hcl : (s.closed seq o).regs = s.regs := (congrArg State.regs heq :)
  have hj : (s.completed seq c o).cmd.journal = (s.writeOutcome seq o).cmd.journal := by rw [hcmd, heq]
  have hopen : s.get (R.CMD_STAT.OPEN c.ring) - 1 < 2 ^ (R.CMD_STAT.OPEN c.ring).w :=
    (Nat.sub_le ..).trans_lt (State.get_lt s _)
  refine ⟨?_, ?_, ?_, ?_, ?_, fun k hk => ?_⟩
  · rw [hcmd, heq]
  · rw [hcmd, heq]
  · rw [State.jbytes_congr hj, State.writeOutcome_jbytes]
  · rw [State.get_of_regs hregs, State.dec, State.get_set_same _ _ _ (of_decide_eq_true rfl), State.get_of_regs hcl, Nat.mod_eq_of_lt hopen]
  · rw [State.completed]
    exact State.bare_emitAll (congrArg State.bare heq :) _
  · rw [State.word_of_regs hregs, State.dec, State.word_set_other _ hk, State.word_of_regs hcl]

end

theorem exec_commandAccept {s : State} {r fails : Nat} (h : s.accepts r) (hf : fails < 2) :
    exec (.commandAccept fails) s = .next ((s.taken r).holding (modeOp (s.nextSlot r))).settle :=
  complete_of_eq rfl ((State.acceptNext_of h fails).trans (State.takeCommand_of h hf))

theorem exec_commandComplete {s : State} {seq fails : Nat} {c : OpenCmd} {o : List Byte} (hm : s.mode = .serve) (hchip : s.fault.chipReset = false)
    (hfind : s.findCmd seq = some c) (ho : c.outcome = some o) (hr : c.ring < 64) (hf : fails < 2) :
    exec (.commandComplete seq fails) s = .next ((s.completed seq c (s.finalOutcome c o)).timed c (s.finalOutcome c o)).settle :=
  complete_of_eq rfl ((if_pos (by simp [State.coreUp, hm, hchip])).trans (State.completeCmd_of hfind ho hr hf))

/-- A doorbell within the ring (R459). -/
theorem State.doorbell_spec {s : State} {r v : Nat} (hr : r < 64) (hv : v < 65536) :
    (s.set (R.CMD_STAT.T r) v).settle.get (R.CMD_STAT.T r) = v ∧ (s.set (R.CMD_STAT.T r) v).settle.get (R.CMD_STAT.C r) = s.get (R.CMD_STAT.C r) ∧
      s.kept (s.set (R.CMD_STAT.T r) v).settle [] fun off => off = (R.CMD_STAT.T r).off := by
  have hget (l : Loc) (hl : l.off = 0x400010 + 0x20 * r) : (s.set (R.CMD_STAT.T r) v).settle.get l = (s.set (R.CMD_STAT.T r) v).get l :=
    State.settle_get_ring _ hr hl (by decide)
  refine ⟨?_, ?_, State.kept_registers (s.bare_set _ _) rfl rfl fun k hk => State.word_set_other _ hk⟩
  · rw [hget _ rfl, State.get_set_same _ _ _ (of_decide_eq_true rfl)]
    exact Nat.mod_eq_of_lt hv
  · rw [hget _ rfl, State.get_set_of_bits (of_decide_eq_true rfl) (.inr (of_decide_eq_true rfl))]

/-- The next command is taken (R466). -/
theorem State.accepted_spec {s : State} {r : Nat} (hr : r < 64) (op : Option Nat) :
    ((s.taken r).holding op).settle.get (R.CMD_STAT.C r) = (s.get (R.CMD_STAT.C r) + 1) % 65536 ∧
      ((s.taken r).holding op).settle.get R.JRN_HEAD.HEAD = (s.get R.JRN_HEAD.HEAD + 1) % 2 ^ 48 ∧
      s.kept { ((s.taken r).holding op).settle with cmd := s.cmd } (s.posts r (s.get (R.CMD_STAT.C r)) 1 (s.get R.JRN_HEAD.HEAD) [])
        fun off => off = R.JRN_HEAD.HEAD.off ∨ off = R.JRN_TAIL.TAIL.off ∨ off = (R.CMD_STAT.C r).off := by
  obtain ⟨hregs, hbare, hirises, -, -⟩ := (s.taken r).holding_parts op
  obtain ⟨hC, hhead, hwords⟩ := s.taken_get r
  refine ⟨?_, ?_, State.kept_cmd_of_irises ?_ (State.kept_link_sent (hbare.trans (s.taken_bare r)) fun k hk => ?_)⟩
  · rw [State.settle_get_ring _ hr rfl (by decide), State.get_of_regs hregs, hC]
  · rw [State.settle_get _ (by decide), State.get_of_regs hregs, hhead]
  · rw [State.settle_irises, hirises, State.taken_irises]
  · rw [State.word_of_regs hregs, hwords k hk]

/-- A command that has ended leaves its ring (R466, R471). -/
theorem State.completed_kept {s : State} {seq : Nat} {c : OpenCmd} {o : List Byte} (hr : c.ring < 64) :
    (s.completed seq c o).settle.jbytes seq 24 6 = slice o 0 48 ∧
      (s.completed seq c o).settle.get (R.CMD_STAT.OPEN c.ring) = s.get (R.CMD_STAT.OPEN c.ring) - 1 ∧
      s.kept { (s.completed seq c o).settle with cmd := s.cmd } (s.completionOut seq c o) fun off => off = (R.CMD_STAT.OPEN c.ring).off := by
  obtain ⟨-, -, hbytes, hcount, hbare, hwords⟩ := s.completed_spec seq c o
  refine ⟨(State.jbytes_congr (congrArg CmdState.journal (State.settle_cmd _)) ..).trans hbytes, ?_,
    State.kept_cmd_of_irises ?_ (State.kept_link_sent hbare hwords)⟩
  · rw [State.settle_get_ring _ hr rfl (by decide), hcount]
  · rw [State.settle_irises, State.completed, State.emitAll_irises]
    exact (congrArg State.irises (s.closed_eq seq o) :)

/-- A command that is no mode request takes no takeover time as it completes. -/
theorem State.timed_plain {s : State} {c : OpenCmd} {o : List Byte} (h : modeOp c.bytes = none) : s.timed c o = s := by
  unfold State.timed
  split
  · simp_all
  · rfl

/-- Settles O1: a doorbell, an acceptance and a completion, from what each leaves. -/
theorem commandRingsRun : Obligations.CommandRingsRun := by
  refine ⟨fun s src r v hwf hreach hpf hm he hv ht hc => ?_, fun s r fails h hf => ?_, fun s seq fails c o hm hchip hfind ho hr hmode hf => ?_⟩
  · have hr : r < 64 := by
      simp only [Instr.wf, Bool.and_eq_true, decide_eq_true_eq] at hwf
      obtain ⟨⟨-, hr⟩, -⟩ := hwf
      exact hr
    exact ⟨_, complete_of_eq hwf (State.cmdDoorbell_of hreach hpf hm he hv ht hc), State.doorbell_spec hr hv⟩
  · obtain ⟨-, -, -, hopen, hlast⟩ := (s.taken r).holding_parts (modeOp (s.nextSlot r))
    obtain ⟨hlist, hseq⟩ := s.taken_cmd r
    obtain ⟨hC, hhead, hkept⟩ := State.accepted_spec (s := s) (State.nextRing_lt h.2.1) (modeOp (s.nextSlot r))
    exact ⟨_, exec_commandAccept h hf, hC, hhead, (congrArg CmdState.open_ (State.settle_cmd _)).trans (hopen.trans hlist),
      (congrArg CmdState.lastSeq (State.settle_cmd _)).trans (hlast.trans hseq), hkept⟩
  · have hfinal : s.finalOutcome c o = o := by rw [State.finalOutcome, hmode]
    obtain ⟨hopen, -⟩ := s.completed_spec seq c o
    have heq := exec_commandComplete hm hchip hfind ho hr hf
    rw [hfinal, State.timed_plain hmode] at heq
    exact ⟨_, heq, (congrArg CmdState.open_ (State.settle_cmd _)).trans hopen, State.completed_kept hr⟩

end Sys2Proof.Machine
end

section
/-! SUPPORT. Gates, plain commands and mode requests (R457, R463, R474, R505). -/
namespace Sys2Proof.Machine

/-! ### Gates, and commands that end at once (R457, R463, R474, R505) -/

/-- A command that changes the commands alone. -/
theorem State.kept_cmd_only {s x : State} (h : x = { s with cmd := x.cmd }) : s.kept { x.settle with cmd := s.cmd } [] fun _ => False :=
  State.kept_commands (h ▸ rfl) (h ▸ rfl) fun k _ => State.word_of_regs (h ▸ rfl) k

theorem State.settle_outcomeOf_of {x : State} {seq : Nat} {o : Option (List Byte)} (h : x.outcomeOf seq = o) : x.settle.outcomeOf seq = o := by
  rw [State.settle_outcomeOf, h]

section
variable {s : State} {seq code : Nat} {c : OpenCmd}

/-- An execution that ends in an outcome and changes nothing else. -/
theorem State.finished {i : Instr} {a b k n : Nat} {d : List (Nat × Nat × Nat)} (hc : s.findCmd seq = some c)
    (h : exec i s = .next (s.finish seq a b k n d).settle) :
    ∃ t, exec i s = .next t ∧ t.outcomeOf seq = some (outcomeArea a b k n d) ∧ s.kept { t with cmd := s.cmd } [] fun _ => False :=
  ⟨_, h, State.settle_outcomeOf_of (State.outcomeOf_finish hc a b k n d), State.kept_cmd_only rfl⟩

/-- A command that ends unrun, with its outcome. -/
theorem State.endUnrun_spec (hc : s.findCmd c.seq = some c) (a b : Nat) :
    (s.endUnrun c a b).outcomeOf c.seq = some (outcomeArea a b 0 0 []) ∧ s.endUnrun c a b = { s with cmd := (s.endUnrun c a b).cmd } ∧
      (s.endUnrun c a b).cmd.pulses = s.cmd.pulses := by
  have hfind : (s.updCmd c.seq fun d => { d with waiting := false, started := true, outcome := some (outcomeArea a b 0 0 []) }).outcomeOf c.seq =
      some (outcomeArea a b 0 0 []) := by
    have h := State.findCmd_updCmd s c.seq (fun d => { d with waiting := false, started := true, outcome := some (outcomeArea a b 0 0 []) }) fun _ => rfl
    rw [State.outcomeOf, h, hc]
    rfl
  unfold State.endUnrun
  simp only []
  split
  · exact ⟨hfind, rfl, rfl⟩
  · exact ⟨hfind, rfl, rfl⟩

/-- The oldest pulse is taken. -/
def State.pulsed (s : State) : State := { s with cmd := { s.cmd with pulses := s.cmd.pulses.tail } }

theorem State.gatePulse_of {g : Nat} {err : Bool} {rest : List (Nat × Bool)} (hp : s.cmd.pulses = (g, err) :: rest)
    (hw : (s.cmd.open_.find? fun c => c.waiting && c.gate == g) = some c) :
    s.gatePulse = if err then s.pulsed.endUnrun c 1 0x12 else s.pulsed.updCmd c.seq fun d => { d with waiting := false } := by
  unfold State.gatePulse State.pulsed
  rw [hp]
  simp only [List.tail_cons]
  rw [hw]

theorem State.gatePulse_none {g : Nat} {err : Bool} {rest : List (Nat × Bool)} (hp : s.cmd.pulses = (g, err) :: rest)
    (hw : (s.cmd.open_.find? fun c => c.waiting && c.gate == g) = none) : s.gatePulse = s.pulsed := by
  unfold State.gatePulse State.pulsed
  rw [hp]
  simp only [List.tail_cons]
  rw [hw]

/-- A pulse of a gate on which a command waits (R457, R474). -/
theorem State.gatePulse_spec {g : Nat} {err : Bool} {rest : List (Nat × Bool)} (hm : s.mode ≠ .holdUp) (hp : s.cmd.pulses = (g, err) :: rest)
    (hw : (s.cmd.open_.find? fun c => c.waiting && c.gate == g) = some c) (hc : s.findCmd c.seq = some c) :
    ∃ t, exec .gatePulse s = .next t ∧ t.cmd.pulses = rest ∧ s.kept { t with cmd := s.cmd } [] (fun _ => False) ∧
      (err = false → t.findCmd c.seq = some { c with waiting := false }) ∧ (err = true → t.outcomeOf c.seq = some (outcomeArea 1 0x12 0 0 [])) := by
  have hexec : exec .gatePulse s = .next s.gatePulse.settle := complete_of_eq rfl (if_neg (by simpa using hm))
  have hrest : s.pulsed.cmd.pulses = rest := by rw [State.pulsed, hp]; rfl
  have hfind : s.pulsed.findCmd c.seq = some c := hc
  have heq := State.gatePulse_of hp hw
  cases err with
  | false =>
    have hstart : s.gatePulse = s.pulsed.updCmd c.seq fun d => { d with waiting := false } := heq
    have hfound := State.findCmd_updCmd s.pulsed c.seq (fun d => { d with waiting := false }) fun _ => rfl
    rw [hfind] at hfound
    rw [hstart] at hexec
    refine ⟨_, hexec, ?_, State.kept_cmd_only rfl, fun _ => ?_, nofun⟩
    · rw [State.settle_cmd]
      exact hrest
    · rw [State.settle_findCmd, hfound]
      rfl
  | true =>
    have hend : s.gatePulse = s.pulsed.endUnrun c 1 0x12 := heq
    obtain ⟨hout, hcmd, hpulses⟩ := State.endUnrun_spec hfind 1 0x12
    have honly : s.pulsed.endUnrun c 1 0x12 = { s with cmd := (s.pulsed.endUnrun c 1 0x12).cmd } := hcmd
    rw [hend] at hexec
    refine ⟨_, hexec, ?_, State.kept_cmd_only honly, nofun, fun _ => State.settle_outcomeOf_of hout⟩
    rw [State.settle_cmd, hpulses, hrest]

/-- A command that has waited too long (R474). -/
theorem State.gateTimeout_spec (hm : s.mode ≠ .holdUp) (hc : s.findCmd seq = some c) (hw : c.waiting = true)
    (hd : c.acceptedNs + s.get R.CMD_CFG.GATE_TIMEOUT * 1000000 ≤ s.ns) (hseq : c.seq = seq) :
    ∃ t, exec (.gateTimeout seq) s = .next t ∧ t.outcomeOf seq = some (outcomeArea 3 0 0 0 []) ∧ s.kept { t with cmd := s.cmd } [] fun _ => False := by
  subst hseq
  have heff : (match s.findCmd c.seq with
      | none => s
      | some c => if s.mode != .holdUp && c.waiting && decide (c.acceptedNs + s.get R.CMD_CFG.GATE_TIMEOUT * 1000000 ≤ s.ns) then
          s.endUnrun c 3 0 else s) = s.endUnrun c 3 0 := by
    rw [hc]
    exact if_pos (by simp [hm, hw, hd])
  obtain ⟨hout, hcmd, -⟩ := State.endUnrun_spec hc 3 0
  exact ⟨_, complete_of_eq rfl heff, State.settle_outcomeOf_of hout, State.kept_cmd_only hcmd⟩

/-! ### Codes (R463, R505) -/

theorem State.nop_spec (h : s.begins seq 0x7F c) : ∃ t, exec (.nop seq) s = .next t ∧
    t.outcomeOf seq = some (outcomeArea (if c.formed [(16, 48)] then 0 else 1) (if c.formed [(16, 48)] then 0 else 1) 0 0 []) ∧
    s.kept { t with cmd := s.cmd } [] fun _ => False := by
  have heff : s.nop seq = s.finish seq (if c.formed [(16, 48)] then 0 else 1) (if c.formed [(16, 48)] then 0 else 1) 0 0 [] := by
    rw [State.nop, State.runCmd_of h]
    split <;> rfl
  exact State.finished h.1 (complete_of_eq rfl heff)

theorem State.unknownCode_spec (h : s.begins seq code c) (hcode : codeListed code = false) : ∃ t, exec (.unknownCode seq) s = .next t ∧
    t.outcomeOf seq = some (outcomeArea 1 0x13 0 0 []) ∧ s.kept { t with cmd := s.cmd } [] fun _ => False := by
  obtain ⟨hc, rfl, hm, hchip, hrole, hmay⟩ := h
  have heff : (match s.findCmd seq with
      | none => s
      | some c => if !codeListed c.code && s.mode == .serve && !s.fault.chipReset && s.roleUp 0 && s.mayBegin c then s.refuse seq 0x13 else s) =
      s.finish seq 1 0x13 0 0 [] := by
    rw [hc]
    exact if_pos (by simp [hcode, hm, hchip, hrole, hmay])
  exact State.finished hc (complete_of_eq rfl heff)

theorem exec_modeRequestQuery (h : s.begins seq 0x7E c) : exec (.modeRequestQuery seq) s = .next (if c.op 16 1 = 1 ∨ c.op 16 1 = 2 then
      (if c.formed [(17, 47)] then s else s.refuse seq 1)
    else if c.op 16 1 = 0 ∧ c.formed [(17, 47)] = true then s.told seq [(16, 8, s.mode.code + 16 * s.prev.code + 256 * s.safeCause)]
    else s.refuse seq 1).settle := complete_of_eq rfl (State.runCmd_of h _)

theorem State.query_told (h : s.begins seq 0x7E c) (hf : c.formed [(17, 47)] = true) (hop : c.op 16 1 = 0) :
    exec (.modeRequestQuery seq) s = .next (s.finish seq 0 0 0 0 [(16, 8, s.mode.code + 16 * s.prev.code + 256 * s.safeCause)]).settle := by
  rw [exec_modeRequestQuery h, if_neg (by simp [hop]), if_pos ⟨hop, hf⟩]
  rfl

theorem State.query_refused (h : s.begins seq 0x7E c) (hf : c.formed [(17, 47)] = false ∨ 2 < c.op 16 1) :
    exec (.modeRequestQuery seq) s = .next (s.finish seq 1 1 0 0 []).settle := by
  rw [exec_modeRequestQuery h]
  by_cases hop : c.op 16 1 = 1 ∨ c.op 16 1 = 2
  · have hformed : c.formed [(17, 47)] = false := hf.resolve_right (by omega)
    rw [if_pos hop, if_neg (by simp [hformed])]
    rfl
  · have hzero : ¬ (c.op 16 1 = 0 ∧ c.formed [(17, 47)] = true) := fun ⟨h0, h1⟩ => by
      rcases hf with hf | hf
      · rw [hf] at h1
        exact Bool.noConfusion h1
      · omega
    rw [if_neg hop, if_neg hzero]
    rfl

theorem State.modeRequest_of (h : s.begins seq 0x7E c) {op : Nat} (hop : modeOp c.bytes = some op) :
    s.modeRequest seq op = s.finish seq 0 0 0 0 [] := by
  rw [State.modeRequest, State.runCmd_of h]
  exact if_pos hop

/-! ### RESTART and SAFE as they are accepted, complete and are taken (R505) -/

theorem State.mayAccept_holding (s : State) (r op : Nat) : ((s.taken r).holding (some op)).settle.cmd.modeReq = some (op, none) ∧
    ((s.taken r).holding (some op)).settle.mayAccept = false := by
  have hreq : ((s.taken r).holding (some op)).settle.cmd.modeReq = some (op, none) := by
    rw [State.settle_cmd]
    rfl
  refine ⟨hreq, ?_⟩
  rw [State.mayAccept, hreq]
  simp

/-- What a command has sent stays the first that is sent. -/
theorem State.emits_settle {s x : State} {outs l : List Emit} (h : x.out = s.out ++ outs ++ l) : s.emits x.settle outs := by
  obtain ⟨m, hm, -⟩ := (settles x).out
  refine ⟨l ++ m, ?_⟩
  rw [hm, h, List.append_nil, List.append_assoc (s.out ++ outs)]

/-- The mode request takes its takeover time (R505). -/
def State.dueAt (s : State) (op : Nat) : State := { s with cmd := { s.cmd with modeReq := some (op, some (s.ns + 100000)) } }

theorem State.dueAt_modeReq (s : State) (op : Nat) : (s.dueAt op).cmd.modeReq = some (op, some (s.ns + 100000)) := rfl
theorem State.dueAt_journal (s : State) (op : Nat) : (s.dueAt op).cmd.journal = s.cmd.journal := rfl
theorem State.dueAt_out (s : State) (op : Nat) : (s.dueAt op).out = s.out := rfl

theorem State.timed_mode {op op' : Nat} {o : List Byte} (hreq : s.cmd.modeReq = some (op, none)) (hop : modeOp c.bytes = some op')
    (ho : leAt o 0 1 = 0) : s.timed c o = s.dueAt op := by
  unfold State.timed
  rw [hreq, hop]
  exact if_pos ho

theorem State.tb_of_bare {x y : State} (h : x.bare = y.bare) : x.tb = y.tb := (congrArg State.tb h :)
theorem State.out_of_bare {x y : State} (h : x.bare = y.bare) : x.out = y.out := (congrArg State.out h :)

theorem State.modeComplete_spec {fails op : Nat} {o : List Byte} (hm : s.mode = .serve) (hchip : s.fault.chipReset = false)
    (hc : s.findCmd seq = some c) (ho : c.outcome = some o) (hdone : leAt o 0 1 = 0) (hr : c.ring < 64) (hop : modeOp c.bytes = some op)
    (hreq : s.cmd.modeReq = some (op, none)) (hf : fails < 2) :
    ∃ t, exec (.commandComplete seq fails) s = .next t ∧ t.cmd.modeReq = some (op, some (s.ns + 100000)) ∧
      t.jbytes seq 24 6 = outcomeArea 0 0 0 (s.now + 100000) [] ∧
      s.emits t (s.posts c.ring c.num 2 seq (outcomeArea 0 0 0 (s.now + 100000) [])) := by
  have hfinal : s.finalOutcome c o = outcomeArea 0 0 0 (s.now + 100000) [] := by
    rw [State.finalOutcome, hop]
    exact if_pos hdone
  have hexec := exec_commandComplete hm hchip hc ho hr hf
  rw [hfinal] at hexec
  generalize hout : outcomeArea 0 0 0 (s.now + 100000) [] = out at hexec ⊢
  obtain ⟨-, hmode, hbytes, -, hbare, -⟩ := s.completed_spec seq c out
  have hcode : leAt out 0 1 = 0 := by rw [← hout, outcomeArea_code]
  have hslice : slice out 0 48 = out := by rw [← hout, slice_outcomeArea]
  have htb : (s.completed seq c out).tb = s.tb := (State.tb_of_bare hbare).trans rfl
  have hns : (s.completed seq c out).ns = s.ns := by rw [State.ns, htb, State.ns]
  have hsent : (s.completed seq c out).out = s.out ++ s.completionOut seq c out :=
    (State.out_of_bare hbare).trans (State.emitAll_out ..)
  rw [State.timed_mode (hmode.trans hreq) hop hcode] at hexec
  refine ⟨_, hexec, ?_, ?_, ?_⟩
  · rw [State.settle_cmd, State.dueAt_modeReq, hns]
  · rw [State.jbytes_congr (s := s.completed seq c out) (by rw [State.settle_cmd, State.dueAt_journal]), hbytes, hslice]
  · rw [State.completionOut, ← List.append_assoc] at hsent
    exact State.emits_settle ((State.dueAt_out ..).trans hsent)

theorem State.takeover_spec {op due : Nat} (hm : s.mode = .serve) (hreq : s.cmd.modeReq = some (op, some due)) (hop : op = 1 ∨ op = 2) :
    (due ≤ s.ns → ∃ t, exec .modeRequestTakeover s = .next t ∧ t.prev = .serve ∧
      (op = 1 → t.mode = .dormant ∧ t.power.ranRestart = true) ∧ (op = 2 → t.mode = .safe ∧ t.safeCause = 4)) ∧
    (s.ns < due → ∃ t, exec .modeRequestTakeover s = .next t ∧ s.kept t [] fun _ => False) := by
  have hexec {x : State} (h : (match s.mode, s.cmd.modeReq with
      | .serve, some (1, some due) => if due ≤ s.ns then s.restart else s
      | .serve, some (2, some due) => if due ≤ s.ns then s.toSafe 4 else s
      | _, _ => s) = x) : exec .modeRequestTakeover s = .next x.settle := complete_of_eq rfl h
  rw [hm, hreq] at hexec
  rcases hop with rfl | rfl
  · refine ⟨fun hd => ⟨_, hexec (if_pos hd), ?_, fun _ => ⟨?_, ?_⟩, nofun⟩, fun hd => ⟨_, hexec (if_neg (by omega)), s.kept_settle⟩⟩
    · rw [State.settle_prev]
      exact hm
    · rw [State.settle_mode]
      rfl
    · rw [State.settle_power]
      rfl
  · obtain ⟨hmode, hprev, -⟩ := State.modes_inj (s.modes_toSafe 4)
    refine ⟨fun hd => ⟨_, hexec (if_pos hd), ?_, nofun, fun _ => ⟨?_, ?_⟩⟩, fun hd => ⟨_, hexec (if_neg (by omega)), s.kept_settle⟩⟩
    · rw [State.settle_prev, hprev, hm]
    · rw [State.settle_mode, hmode]
    · rw [State.settle_safeCause]
      rfl

end

/-- Settles O2: gates and plain commands, and mode requests from acceptance to takeover. -/
theorem gatesAndPlainCommandsEnd : Obligations.GatesAndPlainCommandsEnd := by
  refine ⟨fun s g err rest hm hp => ⟨fun c hw hc => State.gatePulse_spec hm hp hw hc, fun hw => ?_⟩,
    fun s seq c hm hc hw hd hseq => State.gateTimeout_spec hm hc hw hd hseq, fun s seq c h => State.nop_spec h,
    fun s seq code c h hcode => State.unknownCode_spec h hcode, fun s seq c h => ⟨fun hf hop => ?_, fun hf => ?_, fun hop => ?_, fun hop => ?_⟩,
    fun s r fails op h hf hop => ?_, fun s seq fails op c o hm hchip hc ho hdone hr hop hreq hf =>
      State.modeComplete_spec hm hchip hc ho hdone hr hop hreq hf, fun s op due hm hreq hop => State.takeover_spec hm hreq hop⟩
  · have hcmd : s.pulsed.settle.cmd = { s.cmd with pulses := rest } := by
      rw [State.settle_cmd, State.pulsed, hp]
      rfl
    exact ⟨_, complete_of_eq rfl ((if_neg (by simpa using hm)).trans (State.gatePulse_none hp hw)), hcmd, State.kept_cmd_only rfl⟩
  · exact State.finished h.1 (State.query_told h hf hop)
  · exact State.finished h.1 (State.query_refused h hf)
  · exact State.finished h.1 (complete_of_eq rfl (State.modeRequest_of h hop))
  · exact State.finished h.1 (complete_of_eq rfl (State.modeRequest_of h hop))
  · have hexec := exec_commandAccept h hf
    rw [hop] at hexec
    exact ⟨_, hexec, s.mayAccept_holding r op⟩

end Sys2Proof.Machine
end

section
/-! SUPPORT. States in which a number that is no queue, class or account of the device has found its way into the state: what such a number reaches. -/
namespace Sys2Proof.Machine

/-! ### States for counterexamples -/

/-- SERVE with every role at a service facet, and every register at its reset value but those given. -/
def serveWith (regs : List (Nat × Word)) : State :=
  { State.reset with mode := .serve, prev := .load, code := { roles := [(0, 63)] }, regs := regs }

/-- The outcome is a next state with the property. -/
def holdsNext (o : Out State) (p : State → Bool) : Bool :=
  match o with
  | .next t => p t
  | _ => false

theorem holdsNext_next {o : Out State} {t : State} {p : State → Bool} (ho : o = .next t) (h : holdsNext o p = true) : p t = true := by
  rw [ho] at h
  exact h

/-- The bulk mover runs and reads its descriptor 0, while a reset of the number 65538 is pending: the register of the state of a queue of
that number would be DMA_STAT. -/
def moverResetting : State :=
  { serveWith [(0x2800000, 512)] with
    host := { State.reset.host with reads := [⟨.dmaDescriptors 0 1, 0, 0, 0, 32⟩], flr := [65538] } }

theorem moverResetting_reads : moverResetting.dmaFetching = some ⟨.dmaDescriptors 0 1, 0, 0, 0, 32⟩ ∧ moverResetting.forwarding = true ∧
    moverResetting.dmaRuns = true ∧ 0 = moverResetting.dmaNext ∧
    (moverResetting.host.waits.any fun w => w.req == .dmaDescriptors 0 1) = false ∧
    takeDescriptors 32 24 (moverResetting.partsOf (.dmaDescriptors 0 1) ++ List.replicate 32 0) 1 0 = ([(0, List.replicate 32 0)], false) := by
  decide +kernel

/-- The end of the read ends that reset too, which stops the bulk mover, so that no descriptor is made ready. -/
theorem moverResetting_takes_none :
    holdsNext (exec (.descriptorReadComplete 16384 (List.replicate 32 0) false) moverResetting) (fun t => t.host.dmaReady.isEmpty) = true := by
  decide +kernel

/-- Refutes O19: a pending reset of a number that is no queue's, and whose state register would be the bulk mover's, stops the bulk mover
as its descriptors arrive, so that the descriptors that arrived are not ready. -/
theorem not_hostReadsAndPulsesEnd : ¬ Obligations.HostReadsAndPulsesEnd := by
  unfold Obligations.HostReadsAndPulsesEnd
  rintro ⟨-, -, hmover, -⟩
  obtain ⟨hread, hfwd, hruns, hnext, hwaits, htake⟩ := moverResetting_reads
  obtain ⟨t, ht, hready, -⟩ := hmover moverResetting 0 1 _ _ _ hfwd hread rfl hruns hnext hwaits htake
  have hnone := holdsNext_next ht moverResetting_takes_none
  simp [hready] at hnone

/-- A FAB_ADDRESS that sets the address 5. -/
def setFive : OpenCmd := ⟨7, 0, 0, record 64 [(0, 1, 0x70), (16, 1, 1), (18, 2, 5)], false, 0, none, false, none, 0⟩

/-- A stream from device 0 holds part of a packet whose class is no class: its count of breaches would be the register FAB_CFG. -/
def strayStream : State :=
  { serveWith [(0x1EBFF00, 1#64 <<< 63)] with
    cmd := { State.reset.cmd with open_ := [setFive] }
    fab := { State.reset.fab with streams := [(0, some { parts := [({ cls := 0x37FD8 }, none)] })] } }

theorem strayStream_begins : strayStream.begins 7 0x70 setFive ∧ setFive.formed [(17, 1), (20, 44)] = true ∧ setFive.op 16 1 = 1 ∧
    setFive.op 18 2 = 5 ∧
    (strayStream.fab.adverts.any fun x => x.uid != strayStream.uid && x.addr == 5 && (x.valid || x.claim)) = false := by
  decide +kernel

/-- The packet lost with the stream is counted as a breach, which adds one to the address just set. -/
theorem strayStream_set_six : holdsNext (exec (.fabAddressSet 7) strayStream) (fun t => t.get R.FAB_CFG.ADDR == 6) = true := by
  decide +kernel

/-- Refutes O21: where a stream holds part of a packet whose class is no class, the breach counted as the stream ends adds one to the
address that SET has stored. -/
theorem not_addressesMove : ¬ Obligations.AddressesMove := by
  unfold Obligations.AddressesMove
  rintro ⟨-, hset, -⟩
  obtain ⟨hbegins, hformed, hop, haddr, hfree⟩ := strayStream_begins
  obtain ⟨t, ht, hcfg, -⟩ := hset strayStream 7 setFive hbegins hformed hop (haddr ▸ by decide) (haddr ▸ hfree)
  have hsix := holdsNext_next ht strayStream_set_six
  simp [hcfg, haddr] at hsix

/-- A packet that was due at a port whose link is down; its account is no account, and its shared cells of class 1 would be counted in the
low half of the state register of port 0. -/
def strayPacket : Pkt := { id := 0, src := 0, bytes := [], acct := 0x13E00, xShar := 32, stamp := { cls := 1 }, accepted := true }

/-- Port 0 is on and its link down, and the packet waits in a leaf queue of that port. -/
def strayWaits : State :=
  { serveWith [(0x2000000, 0x400000)] with
    col := { State.reset.col with epGroup := [(7, 1)], groupOut := [(0, 1)] }
    buf := { State.reset.buf with leaves := [(7, [strayPacket])] } }

theorem strayWaits_runs : strayWaits.macsRun = true ∧ strayWaits.portOn 0 = true := by decide +kernel

/-- The breach of the packet takes 32 off the low half of the register, where ALIGNED has just been set. -/
theorem strayWaits_unaligned : holdsNext (exec (.linkUp 0) strayWaits) (fun t => !t.bit (R.MAC_STATUS.ALIGNED 0)) = true := by
  decide +kernel

/-- Refutes O30: a packet whose account is no account, discarded as the link of its port rises, gives cells back in the state register of
that port and so clears ALIGNED. -/
theorem not_portLinksMove : ¬ Obligations.PortLinksMove := by
  unfold Obligations.PortLinksMove
  rintro ⟨-, hrise, -⟩
  obtain ⟨hruns, hon⟩ := strayWaits_runs
  obtain ⟨t, ht, haligned, -⟩ := hrise strayWaits 0 (by omega) hruns hon
  have hlow := holdsNext_next ht strayWaits_unaligned
  simp [haligned] at hlow

end Sys2Proof.Machine
end

section
/-! SUPPORT. The flash: what the return of a load to reset values leaves, a slot that fails, discovery and authentication (R484, R486, R491, R494, R496, R506). -/
namespace Sys2Proof.Machine

/-! ### What the return to reset values of a load leaves -/

theorem State.word_resetField_of_nil (s : State) (off lo : Nat) {k : Nat} (hk : loadFields k = []) : (s.resetField off lo).word k = s.word k := by
  by_cases h : off = k
  · subst h
    simp [State.resetField, hk]
  · unfold State.resetField
    split
    · exact State.word_set_other s (Ne.symm h)
    · rfl

/-- A register without a field that a load writes stays (R494, R506). -/
theorem State.word_unloadFields_of_nil (s : State) {k : Nat} (hk : loadFields k = []) : s.unloadFields.word k = s.word k :=
  foldl_keeps (g := fun u : State => u.word k) (f := fun (u : State) (x : Nat × Nat) => u.resetField x.1 x.2) (fun u x => u.word_resetField_of_nil x.1 x.2 hk) s.boot.touched s

/-- So does one that SAFE keeps. -/
theorem State.word_toSafe_of_nil (s : State) (cause : Nat) {k : Nat} (hsafe : safeOff k = true) (hk : loadFields k = []) :
    (s.toSafe cause).word k = s.word k := by
  rw [State.word_toSafe, if_pos hsafe]
  split
  · exact s.word_unloadFields_of_nil hk
  · exact s.word_unloadFields_of_nil hk
  · rfl

theorem State.word_unload_of_nil (s : State) {k : Nat} (hkeep : unloadKeeps k = true) (hk : loadFields k = []) : s.unload.word k = s.word k := by
  have h : s.unload.word k = SMap.find resetWord (keepKeys unloadKeeps s.unloadFields.regs) k := rfl
  rw [h, State.word_keepKeys, if_pos hkeep, s.word_unloadFields_of_nil hk]

theorem loadFields_bootSlot {slot : Nat} (h : slot < 2) : loadFields (0x500010 + 0x10 * slot) = [] := by
  obtain rfl | rfl : slot = 0 ∨ slot = 1 := by omega
  · decide +kernel
  · decide +kernel

/-! ### A slot that fails -/

/-- A field of a register apart from the one that is set reads as before. -/
theorem State.get_set_apart {s : State} {l m : Loc} {v : Nat}
    (h : m.off ≠ l.off ∨ (m.lo + m.w ≤ 64 ∧ (l.lo + l.w ≤ m.lo ∨ m.lo + m.w ≤ l.lo))) : (s.set l v).get m = s.get m := by
  obtain h | ⟨hm, hl⟩ := h
  · exact State.get_set_of_off h
  · exact State.get_set_of_bits hm hl

/-- Where the check that failed stands does not show in REASON. -/
theorem State.get_reason_of_place (s : State) (slot a b c : Nat) :
    (((s.set (R.BOOT_SLOT.SECTION slot) a).set (R.BOOT_SLOT.INSTANCE slot) b).set (R.BOOT_SLOT_OFF.OFFSET slot) c).get (R.BOOT_SLOT.REASON slot) =
      s.get (R.BOOT_SLOT.REASON slot) := by
  rw [State.get_set_apart (.inl (by simp [R.BOOT_SLOT.REASON, R.BOOT_SLOT_OFF.OFFSET])), State.get_set_apart (.inr (of_decide_eq_true rfl)),
    State.get_set_apart (.inr (of_decide_eq_true rfl))]

theorem State.slotReason_reason (s : State) (slot : Nat) (e : LoadFail) :
    (s.slotReason slot e).get (R.BOOT_SLOT.REASON slot) = e.reason % 16 := by
  have hset : ((s.set (R.BOOT_SLOT.REASON slot) e.reason).set (R.BOOT_SLOT.CHECK slot) e.check).get (R.BOOT_SLOT.REASON slot) = e.reason % 16 := by
    rw [State.get_set_apart (.inr (of_decide_eq_true rfl)), State.get_set_same _ _ _ (of_decide_eq_true rfl)]
    rfl
  unfold State.slotReason
  dsimp only
  split
  · rw [State.get_reason_of_place, hset]
  · rw [State.get_reason_of_place]
    exact hset

theorem State.get_version_of_place (s : State) (slot a b c : Nat) :
    (((s.set (R.BOOT_SLOT.SECTION slot) a).set (R.BOOT_SLOT.INSTANCE slot) b).set (R.BOOT_SLOT_OFF.OFFSET slot) c).get (R.BOOT_SLOT.VERSION slot) =
      s.get (R.BOOT_SLOT.VERSION slot) := by
  rw [State.get_set_apart (.inl (by simp [R.BOOT_SLOT.VERSION, R.BOOT_SLOT_OFF.OFFSET])), State.get_set_apart (.inr (of_decide_eq_true rfl)),
    State.get_set_apart (.inr (of_decide_eq_true rfl))]

theorem State.slotReason_version (s : State) (slot : Nat) (e : LoadFail) :
    (s.slotReason slot e).get (R.BOOT_SLOT.VERSION slot) = s.get (R.BOOT_SLOT.VERSION slot) := by
  have hset : ((s.set (R.BOOT_SLOT.REASON slot) e.reason).set (R.BOOT_SLOT.CHECK slot) e.check).get (R.BOOT_SLOT.VERSION slot) =
      s.get (R.BOOT_SLOT.VERSION slot) := by
    rw [State.get_set_apart (.inr (of_decide_eq_true rfl)), State.get_set_apart (.inr (of_decide_eq_true rfl))]
  unfold State.slotReason
  dsimp only
  split
  · rw [State.get_version_of_place, hset]
  · rw [State.get_version_of_place]
    exact hset

@[simp] theorem State.slotReason_mode (s : State) (slot : Nat) (e : LoadFail) : (s.slotReason slot e).mode = s.mode :=
  State.mode_of_modes (s.modes_slotReason slot e)

@[simp] theorem State.slotReason_boot (s : State) (slot : Nat) (e : LoadFail) : (s.slotReason slot e).boot = s.boot := by
  unfold State.slotReason
  dsimp only
  split <;> simp

@[simp] theorem State.slotReason_out (s : State) (slot : Nat) (e : LoadFail) : (s.slotReason slot e).out = s.out := by
  unfold State.slotReason
  dsimp only
  split <;> simp

/-- The reason written, and the fault that reason 9 raises. -/
def State.slotFaulted (s : State) (slot : Nat) (e : LoadFail) : State :=
  if e.reason = 9 then (s.slotReason slot e).raise 12 0 else s.slotReason slot e

theorem State.slotFaulted_get (s : State) (slot : Nat) (e : LoadFail) {l : Loc} (h : ¬ raiseReg l.off) :
    (s.slotFaulted slot e).get l = (s.slotReason slot e).get l := by
  unfold State.slotFaulted
  split
  · exact State.raise_get _ _ _ h
  · rfl

theorem State.slotFaulted_mode (s : State) (slot : Nat) (e : LoadFail) : (s.slotFaulted slot e).mode = s.mode := by
  unfold State.slotFaulted
  split <;> simp

theorem State.slotFaulted_boot (s : State) (slot : Nat) (e : LoadFail) : (s.slotFaulted slot e).boot = s.boot := by
  unfold State.slotFaulted
  split <;> simp

theorem State.slotFaulted_out (s : State) (slot : Nat) (e : LoadFail) : ∃ l, (s.slotFaulted slot e).out = s.out ++ l := by
  unfold State.slotFaulted
  split
  · obtain ⟨l, hl⟩ := (raises (s.slotReason slot e) 12 0 none false).out
    exact ⟨l, by rw [State.raise, hl, State.slotReason_out]⟩
  · exact ⟨[], by rw [State.slotReason_out, List.append_nil]⟩

/-- Slot B is next. -/
def State.turnsToB (s : State) : State :=
  (({ s.unload with boot := { s.unload.boot with next := 1 } } : State).set R.BOOT_STATUS.SLOT 3).set R.BOOT_STATUS.STEP 2

theorem State.turnsToB_mode (s : State) : s.turnsToB.mode = s.mode := State.mode_of_modes s.modes_unloadFields

theorem State.failSlot_eq (s : State) (slot : Nat) (e : LoadFail) : s.failSlot slot e =
    if (s.slotFaulted slot e).fault.chipReset then s.slotFaulted slot e
    else if slot = 0 ∧ s.boot.hasB = true then (s.slotFaulted slot e).turnsToB
    else ((s.slotFaulted slot e).set R.BOOT_STATUS.SLOT 3).toSafe 2 := by
  rw [← s.slotFaulted_boot slot e]
  rfl

/-- A register of the slots reads after a failure as the reason was written. -/
theorem State.failSlot_get (s : State) {slot : Nat} (e : LoadFail) {l : Loc} (hslot : slot < 2) (hl : l.off = 0x500010 + 0x10 * slot) :
    (s.failSlot slot e).settle.get l = (s.slotReason slot e).get l := by
  have hnil : loadFields l.off = [] := hl ▸ loadFields_bootSlot hslot
  have hstatus : l.off ≠ 0x500000 := by omega
  rw [State.settle_get _ (by simp only [followReg]; omega), ← s.slotFaulted_get slot e (by simp only [raiseReg]; omega), State.failSlot_eq]
  split
  · rfl
  split
  · refine (State.get_set_of_off hstatus).trans ((State.get_set_of_off hstatus).trans ?_)
    exact State.get_of_word (State.word_unload_of_nil _ (by simp [unloadKeeps, safeOff]; omega) hnil)
  · exact (State.get_of_word (State.word_toSafe_of_nil _ _ (by simp [safeOff]; omega) hnil)).trans (State.get_set_of_off hstatus)

/-- A slot that fails fails as R494, R496 and R506 say. -/
theorem State.slotFailed_failSlot (s : State) {slot : Nat} (e : LoadFail) (hslot : slot < 2) :
    s.slotFailed (s.failSlot slot e).settle slot (e.reason % 16) := by
  refine ⟨(s.failSlot_get e hslot rfl).trans (s.slotReason_reason slot e), ?_⟩
  rw [State.settle_fault, State.settle_mode, State.settle_boot, State.settle_prev, State.settle_safeCause, State.settle_get _ (by decide),
    State.failSlot_eq]
  intro hchip
  split at hchip
  · rename_i h
    rw [h] at hchip
    cases hchip
  rename_i h
  rw [if_neg h]
  constructor
  · intro hb
    rw [if_pos hb]
    refine ⟨(State.turnsToB_mode _).trans (s.slotFaulted_mode slot e), rfl, rfl, ?_⟩
    exact State.get_set_same _ _ _ (by decide)
  · intro hb
    rw [if_neg hb]
    exact ⟨rfl, s.slotFaulted_mode slot e, rfl⟩

/-! ### The flash: discovery and authentication -/

/-- BOOT_FLASH shows a flash. -/
def State.flashShown (s : State) (mib mode freq : Nat) : State :=
  ((s.set R.BOOT_FLASH.DENSITY mib).set R.BOOT_FLASH.MODE mode).set R.BOOT_FLASH.FREQ freq

theorem State.word_flashShown (s : State) (mib mode freq : Nat) {k : Nat} (h : k ≠ R.BOOT_FLASH.MODE.off) :
    (s.flashShown mib mode freq).word k = s.word k := by
  have hset : ∀ (t : State) (l : Loc) (v : Nat), l.off = R.BOOT_FLASH.MODE.off → (t.set l v).word k = t.word k := fun t l v hl =>
    State.word_set_other t (hl ▸ h)
  rw [State.flashShown, hset _ R.BOOT_FLASH.FREQ _ rfl, hset _ R.BOOT_FLASH.MODE _ rfl, hset _ R.BOOT_FLASH.DENSITY _ rfl]

theorem State.flashShown_shows (s : State) {mib mode freq : Nat} (hmib : mib < 2 ^ 16) (hmode : mode < 4) (hfreq : freq < 256) :
    (s.flashShown mib mode freq).get R.BOOT_FLASH.DENSITY = mib ∧ (s.flashShown mib mode freq).get R.BOOT_FLASH.MODE = mode ∧
      (s.flashShown mib mode freq).get R.BOOT_FLASH.FREQ = freq := by
  unfold State.flashShown
  refine ⟨?_, ?_, ?_⟩
  · rw [State.get_set_of_bits (by decide) (by decide), State.get_set_of_bits (by decide) (by decide), State.get_set_same _ _ _ (by decide)]
    exact Nat.mod_eq_of_lt hmib
  · rw [State.get_set_of_bits (by decide) (by decide), State.get_set_same _ _ _ (by decide)]
    exact Nat.mod_eq_of_lt hmode
  · rw [State.get_set_same _ _ _ (by decide)]
    exact Nat.mod_eq_of_lt hfreq

/-- A flash of less than 512 Mib holds no slot B. -/
def State.slotBShown (s : State) (mib : Nat) : State := if mib < 512 then s.set (R.BOOT_SLOT.REASON 1) 1 else s

theorem State.word_slotBShown (s : State) (mib : Nat) {k : Nat} (h : k ≠ (R.BOOT_SLOT.REASON 1).off) : (s.slotBShown mib).word k = s.word k := by
  unfold State.slotBShown
  split
  · exact State.word_set_other _ h
  · rfl

theorem State.slotBShown_reason (s : State) {mib : Nat} (h : mib < 512) : (s.slotBShown mib).get (R.BOOT_SLOT.REASON 1) = 1 := by
  rw [State.slotBShown, if_pos h, State.get_set_same _ _ _ (by decide)]
  rfl

/-- What no register write changes, it leaves. -/
theorem State.slotBShown_keeps {α : Type} (g : State → α) (hg : ∀ u l v, g (State.set u l v) = g u) (s : State) (mib : Nat) :
    g (s.slotBShown mib) = g s := by
  unfold State.slotBShown
  split
  · exact hg _ _ _
  · rfl

/-- The flash is found. -/
def State.flashFound (s : State) (mib : Nat) : State := { s with boot := { s.boot with found := true, hasB := decide (512 ≤ mib) } }

/-- A discovery that finds SFDP tables (R484, R486). -/
theorem State.discover_found (s : State) (octal : Bool) (mib : Nat) : s.discover true octal mib =
    (((((s.emitAll (if octal then [.flashSfdp, .flashOctal] else [.flashSfdp])).flashShown mib (if octal then 2 else 1)
      (if octal then 200 else 50)).flashFound mib).slotBShown mib).set R.BOOT_STATUS.STEP 2) := rfl

section
variable (s : State) (outs : List Emit) (mib mode freq : Nat)

/-- What such a discovery leaves. -/
def State.flashKnown : State := ((((s.emitAll outs).flashShown mib mode freq).flashFound mib).slotBShown mib).set R.BOOT_STATUS.STEP 2

/-- What neither a register write, nor an output, nor the finding of the flash changes, it leaves. -/
theorem State.flashKnown_keeps {α : Type} (g : State → α) (hset : ∀ u l v, g (State.set u l v) = g u) (hfound : ∀ u n, g (State.flashFound u n) = g u) :
    g (s.flashKnown outs mib mode freq) = g (s.emitAll outs) := by
  rw [State.flashKnown, hset, State.slotBShown_keeps g hset, hfound, State.flashShown, hset, hset, hset]

theorem State.flashKnown_still : ({ s.flashKnown outs mib mode freq with boot := s.boot } : State).still = s.still :=
  s.flashKnown_keeps outs mib mode freq (fun u => ({ u with boot := s.boot } : State).still) (fun _ _ _ => rfl) fun _ _ => rfl

theorem State.flashKnown_out : (s.flashKnown outs mib mode freq).out = s.out ++ outs :=
  s.flashKnown_keeps outs mib mode freq (fun u => u.out) (fun _ _ _ => rfl) fun _ _ => rfl

theorem State.flashKnown_boot : (s.flashKnown outs mib mode freq).boot = { s.boot with found := true, hasB := decide (512 ≤ mib) } := by
  have h := State.slotBShown_keeps (fun u : State => u.boot) (fun _ _ _ => rfl) (((s.emitAll outs).flashShown mib mode freq).flashFound mib) mib
  rw [State.flashKnown, State.set_boot, h]
  rfl

theorem State.word_flashKnown {k : Nat} (hk : ¬ (k = R.BOOT_FLASH.MODE.off ∨ k = R.BOOT_STATUS.STEP.off ∨ k = (R.BOOT_SLOT.REASON 1).off)) :
    (s.flashKnown outs mib mode freq).word k = s.word k := by
  simp only [not_or] at hk
  obtain ⟨hmode, hstep, hreason⟩ := hk
  have hfound : ∀ u : State, (u.flashFound mib).word k = u.word k := fun u => State.word_of_regs rfl k
  have hsent : (s.emitAll outs).word k = s.word k := State.word_of_regs rfl k
  rw [State.flashKnown, State.word_set_other (l := R.BOOT_STATUS.STEP) _ hstep, State.word_slotBShown _ _ hreason, hfound,
    State.word_flashShown _ _ _ _ hmode, hsent]

/-- The frame of a discovery. -/
theorem State.kept_flashKnown : s.kept { (s.flashKnown outs mib mode freq).settle with boot := s.boot } outs fun k =>
    k = R.BOOT_FLASH.MODE.off ∨ k = R.BOOT_STATUS.STEP.off ∨ k = (R.BOOT_SLOT.REASON 1).off :=
  State.kept_sent (g := fun y => { y with boot := s.boot }) (fun _ => rfl) (fun _ => rfl) (fun _ => rfl) (s.flashKnown_still outs mib mode freq)
    (s.flashKnown_out outs mib mode freq) fun _ hk => s.word_flashKnown outs mib mode freq hk

theorem State.flashKnown_flash {l : Loc} (hl : l.off = R.BOOT_FLASH.MODE.off) :
    (s.flashKnown outs mib mode freq).get l = ((s.emitAll outs).flashShown mib mode freq).get l := by
  have hstep : l.off ≠ R.BOOT_STATUS.STEP.off := hl ▸ by decide
  have hreason : l.off ≠ (R.BOOT_SLOT.REASON 1).off := hl ▸ by decide
  have hfound : ∀ u : State, (u.flashFound mib).get l = u.get l := fun u => State.get_of_regs rfl l
  have hb : ∀ u : State, (u.slotBShown mib).get l = u.get l := fun u => State.get_of_word (State.word_slotBShown u mib hreason)
  rw [State.flashKnown, State.get_set_of_off hstep, hb, hfound]

theorem State.flashKnown_reason (h : mib < 512) : (s.flashKnown outs mib mode freq).get (R.BOOT_SLOT.REASON 1) = 1 := by
  rw [State.flashKnown, State.get_set_of_off (by decide), State.slotBShown_reason _ h]

end

/-- SAFE of a flash without SFDP tables shows reason 1 for both slots (R484). -/
theorem State.discover_unfound (s : State) (octal : Bool) (mib : Nat) :
    s.discover false octal mib = (((s.emit .flashSfdp).set (R.BOOT_SLOT.REASON 0) 1).set (R.BOOT_SLOT.REASON 1) 1).toSafe 2 := rfl

theorem safeOff_bootSlot {slot : Nat} (h : slot < 2) : safeOff (0x500010 + 0x10 * slot) = true := by
  have hlow : 0x500000 ≤ 0x500010 + 0x10 * slot ∧ 0x500010 + 0x10 * slot < 0x800000 := by omega
  simp [safeOff, hlow]

theorem State.toSafe_reason (s : State) {slot : Nat} (h : slot < 2) : (s.toSafe 2).get (R.BOOT_SLOT.REASON slot) = s.get (R.BOOT_SLOT.REASON slot) :=
  State.get_of_word (State.word_toSafe_of_nil _ _
    (safeOff_bootSlot h) (loadFields_bootSlot h))

/-! ### A slot that authenticates -/

theorem State.enterLoad_mode (s : State) : s.enterLoad.mode = .load := by
  unfold State.enterLoad
  split
  · rename_i h
    simpa using h
  · rfl

theorem State.enterLoad_boot (s : State) : s.enterLoad.boot = s.boot := by
  unfold State.enterLoad
  split <;> rfl

theorem State.enterLoad_out (s : State) : s.enterLoad.out = s.out := by
  unfold State.enterLoad
  split <;> rfl

theorem State.enterLoad_step (s : State) : s.enterLoad.get R.BOOT_STATUS.STEP = 4 := by
  unfold State.enterLoad
  exact State.get_set_same _ _ _ (by decide)

theorem State.enterLoad_version (s : State) (slot : Nat) : s.enterLoad.get (R.BOOT_SLOT.VERSION slot) = s.get (R.BOOT_SLOT.VERSION slot) := by
  unfold State.enterLoad
  rw [State.get_set_of_off (by simp only [R.BOOT_SLOT.VERSION, R.BOOT_STATUS.STEP]; omega)]
  split <;> rfl

/-- The slot that an image gives. -/
def goodSlotOf (slot : Nat) (img : List Byte) : GoodSlot :=
  ⟨slot, Config.sha384 (slice img 0 (imgLength img)), imgPublicKey img, sectionOf img 9 0, imgVersion img⟩

/-- The slot is good, and BOOT_STATUS names it. -/
def State.slotFound (s : State) (g : GoodSlot) : State := ({ s with boot := { s.boot with good := some g } } : State).set R.BOOT_STATUS.SLOT g.slot

/-- The slot's BIST plan begins. -/
def State.slotTested (s : State) (sec : List Byte) : State :=
  ((({ s with bist := { s.bist with section_ := sec } } : State).beginPlan 0).set R.BIST_STATUS.STATE 1).set R.BOOT_STATUS.STEP 3

theorem State.authenticated_eq (s : State) (slot : Nat) (img : List Byte) : s.authenticated slot img =
    if s.boot.bistDone = some (sectionOf img 9 0) then (s.slotFound (goodSlotOf slot img)).enterLoad
    else (s.slotFound (goodSlotOf slot img)).slotTested (sectionOf img 9 0) := rfl

theorem State.slotTested_get (s : State) (sec : List Byte) {l : Loc}
    (h : l.off ≠ R.BIST_STATUS.FAILS.off ∧ l.off ≠ R.BIST_STATUS.STATE.off ∧ l.off ≠ R.BOOT_STATUS.STEP.off) :
    (s.slotTested sec).get l = s.get l := by
  obtain ⟨hfails, hstate, hstep⟩ := h
  rw [State.slotTested, State.get_set_of_off hstep, State.get_set_of_off hstate]
  exact State.get_set_of_off hfails

theorem State.slotTested_shows (s : State) (sec : List Byte) :
    (s.slotTested sec).get R.BOOT_STATUS.STEP = 3 ∧ (s.slotTested sec).get R.BIST_STATUS.STATE = 1 := by
  unfold State.slotTested
  refine ⟨State.get_set_same _ _ _ (by decide), ?_⟩
  rw [State.get_set_of_off (by decide)]
  exact State.get_set_same _ _ _ (by decide)

theorem State.slotTested_mode (s : State) (sec : List Byte) : (s.slotTested sec).mode = s.mode := rfl

theorem State.slotTested_bist (s : State) (sec : List Byte) :
    (s.slotTested sec).bist.plan = some 0 ∧ (s.slotTested sec).bist.section_ = sec ∧ (s.slotTested sec).bist.toStart = List.range 8 :=
  ⟨rfl, rfl, rfl⟩

theorem State.slotFound_mode (s : State) (g : GoodSlot) : (s.slotFound g).mode = s.mode := rfl

theorem State.authenticated_out (s : State) (slot : Nat) (img : List Byte) : (s.authenticated slot img).out = s.out := by
  rw [State.authenticated_eq]
  split
  · rw [State.enterLoad_out]
    rfl
  · rfl

theorem State.authenticated_good (s : State) (slot : Nat) (img : List Byte) : (s.authenticated slot img).boot.good = some (goodSlotOf slot img) := by
  rw [State.authenticated_eq]
  split
  · rw [State.enterLoad_boot]
    rfl
  · rfl

theorem State.authenticated_version (s : State) (slot : Nat) (img : List Byte) :
    (s.authenticated slot img).get (R.BOOT_SLOT.VERSION slot) = s.get (R.BOOT_SLOT.VERSION slot) := by
  have h : (s.slotFound (goodSlotOf slot img)).get (R.BOOT_SLOT.VERSION slot) = s.get (R.BOOT_SLOT.VERSION slot) := by
    rw [State.slotFound, State.get_set_of_off (by simp only [R.BOOT_SLOT.VERSION, R.BOOT_STATUS.SLOT]; omega)]
    rfl
  rw [State.authenticated_eq]
  split
  · rw [State.enterLoad_version, h]
  · rw [State.slotTested_get _ _ (by simp only [R.BOOT_SLOT.VERSION, R.BIST_STATUS.FAILS, R.BIST_STATUS.STATE, R.BOOT_STATUS.STEP]; omega), h]

/-! ### What an authentication sends -/

theorem State.failSlot_out (s : State) (slot : Nat) (e : LoadFail) : ∃ l, (s.failSlot slot e).out = s.out ++ l := by
  obtain ⟨l, hl⟩ := s.slotFaulted_out slot e
  rw [State.failSlot_eq]
  split
  · exact ⟨l, hl⟩
  split
  · refine ⟨l, ?_⟩
    have h : ∀ u : State, u.turnsToB.out = u.out := fun u =>
      foldl_keeps (g := fun v : State => v.out) (f := fun (v : State) (x : Nat × Nat) => v.resetField x.1 x.2)
        (fun v x => by unfold State.resetField; split <;> rfl) u.boot.touched u
    rw [h, hl]
  · rw [State.toSafe_out]
    exact ⟨l ++ [.flashReleased, .farPerst false], by rw [State.set_out, hl, List.append_assoc]⟩

theorem State.authenticate_out (s : State) (img : List Byte) : ∃ l, (s.authenticate img).out = s.out ++ [.flashRead (slotBase s.boot.next)] ++ l := by
  unfold State.authenticate
  dsimp only
  split
  · exact State.failSlot_out _ _ _
  split
  · exact State.failSlot_out _ _ _
  · exact ⟨[], by rw [State.authenticated_out, List.append_nil]; rfl⟩

/-- The slot read, its version shown. -/
def State.slotRead (s : State) (img : List Byte) : State := (s.emit (.flashRead (slotBase s.boot.next))).set (R.BOOT_SLOT.VERSION s.boot.next) (imgVersion img)

theorem State.slotRead_version (s : State) (img : List Byte) : (s.slotRead img).get (R.BOOT_SLOT.VERSION s.boot.next) = imgVersion img := by
  rw [State.slotRead, State.get_set_same _ _ _ (of_decide_eq_true rfl)]
  exact Nat.mod_eq_of_lt (leAt_lt img 8 4)

theorem State.authenticate_unformed (s : State) {img : List Byte} (h : headerFormed img = false) :
    s.authenticate img = (s.emit (.flashRead (slotBase s.boot.next))).failSlot s.boot.next ⟨2, some (0, 0, 0), 0⟩ := by
  simp only [State.authenticate, h, Bool.not_false, if_true]

theorem State.authenticate_formed (s : State) {img : List Byte} (h : headerFormed img = true) : s.authenticate img =
    match imageReason img with
    | some (r, ty, i) => (s.slotRead img).failSlot s.boot.next ⟨r, some (ty, i, 0), 0⟩
    | none => (s.slotRead img).authenticated s.boot.next img := by
  simp only [State.authenticate, h, Bool.not_true, Bool.false_eq_true, if_false]
  rfl

/-- A slot failed for a state that has read its version has failed for the state before it. -/
theorem State.slotFailed_of {s u t : State} {slot reason : Nat} (hboot : u.boot.hasB = s.boot.hasB) (hmode : u.mode = s.mode)
    (h : u.slotFailed t slot reason) : s.slotFailed t slot reason := by
  unfold State.slotFailed at h ⊢
  rw [← hboot, ← hmode]
  exact h

/-- Settles O50, by what a discovery and an authentication leave and the return of the registers without a field that a load writes. -/
theorem flashIsRead : Obligations.FlashIsRead := by
  unfold Obligations.FlashIsRead
  refine ⟨?_, ?_, ?_, ?_⟩
  · intro s octal mib hmib hmode hchip hfound hns
    have hif : (s.mode == .prove && !s.fault.chipReset && !s.boot.found && decide (1010000 ≤ s.ns)) = true := by simp [hmode, hchip, hfound, hns]
    constructor
    · obtain ⟨hdensity, hspeed, hfreq⟩ := (s.emitAll (if octal then [.flashSfdp, .flashOctal] else [.flashSfdp])).flashShown_shows hmib
        (mode := if octal then 2 else 1) (freq := if octal then 200 else 50) (by split <;> decide) (by split <;> decide)
      refine ⟨_, complete_of_eq (by simpa [Instr.wf] using hmib) (if_pos hif), ?_⟩
      rw [State.discover_found, ← State.flashKnown]
      refine ⟨?_, ?_, ?_, ?_, ?_, ?_, State.kept_flashKnown _ _ _ _ _⟩
      · rw [State.settle_get _ (by decide), State.flashKnown_flash _ _ _ _ _ (l := R.BOOT_FLASH.DENSITY) rfl, hdensity]
      · rw [State.settle_get _ (by decide), State.flashKnown_flash _ _ _ _ _ (l := R.BOOT_FLASH.MODE) rfl, hspeed]
      · rw [State.settle_get _ (by decide), State.flashKnown_flash _ _ _ _ _ (l := R.BOOT_FLASH.FREQ) rfl, hfreq]
      · rw [State.settle_boot, State.flashKnown_boot]
      · rw [State.settle_get _ (by decide), State.flashKnown, State.get_set_same _ _ _ (by decide)]
        rfl
      · intro h
        rw [State.settle_get _ (by decide), State.flashKnown_reason _ _ _ _ _ h]
    · refine ⟨_, complete_of_eq (by simpa [Instr.wf] using hmib) (if_pos hif), ?_⟩
      rw [State.discover_unfound]
      refine ⟨?_, ?_, ?_, ?_, ?_⟩
      · exact State.emits_settle (l := [.flashReleased, .farPerst false]) (State.toSafe_out _ _)
      · exact State.settle_mode _
      · exact State.settle_safeCause _
      · rw [State.settle_get _ (by decide), State.toSafe_reason _ (by decide), State.get_set_of_off (by decide), State.get_set_same _ _ _ (by decide)]
        rfl
      · rw [State.settle_get _ (by decide), State.toSafe_reason _ (by decide), State.get_set_same _ _ _ (by decide)]
        rfl
  · intro s v octal mib hmib h
    have hif : ¬ (s.mode == .prove && !s.fault.chipReset && !s.boot.found && decide (1010000 ≤ s.ns)) = true := by
      simp only [Bool.and_eq_true, beq_iff_eq, Bool.not_eq_true', decide_eq_true_eq]
      rintro ⟨⟨⟨hmode, -⟩, hfound⟩, hns⟩
      obtain h | h | h := h
      · exact h hmode
      · rw [h] at hfound
        cases hfound
      · omega
    exact ⟨_, complete_of_eq (by simpa [Instr.wf] using hmib) (if_neg hif), s.kept_settle⟩
  · intro s img hloading hfound hgood hplan hnext
    have hif : (s.loading && s.boot.found && s.boot.good.isNone && s.bist.plan.isNone && decide (s.boot.next < 2)) = true := by
      simp [hloading, hfound, hgood, hplan, hnext]
    obtain ⟨l, hl⟩ := s.authenticate_out img
    refine ⟨_, complete_of_eq rfl (if_pos hif), State.emits_settle hl, ?_, ?_⟩
    · intro h
      rw [State.authenticate_unformed s h]
      exact State.slotFailed_of (u := s.emit _) rfl rfl (State.slotFailed_failSlot _ _ hnext)
    · intro h
      rw [State.authenticate_formed s h]
      cases hreason : imageReason img with
      | some x =>
        obtain ⟨r, ty, i⟩ := x
        exact ⟨(State.failSlot_get _ _ hnext rfl).trans ((State.slotReason_version _ _ _).trans (s.slotRead_version img)),
          State.slotFailed_of (u := s.slotRead img) rfl rfl (State.slotFailed_failSlot _ _ hnext)⟩
      | none =>
        dsimp only
        refine ⟨?_, ?_, ?_, ?_⟩
        · rw [State.settle_get _ (by simp only [R.BOOT_SLOT.VERSION, followReg]; omega), State.authenticated_version, State.slotRead_version]
        · rw [State.settle_boot, State.authenticated_good]
          simp [goodSlotOf]
        · intro hdone
          rw [State.settle_mode, State.settle_get _ (by decide), State.authenticated_eq, if_pos (show (s.slotRead img).boot.bistDone = _ from hdone)]
          exact ⟨State.enterLoad_mode _, State.enterLoad_step _⟩
        · intro hdone
          rw [State.settle_mode, State.settle_get _ (by decide), State.settle_get _ (by decide), State.settle_bist, State.authenticated_eq,
            if_neg (show ¬ (s.slotRead img).boot.bistDone = _ from hdone)]
          obtain ⟨hstep, hstate⟩ := ((s.slotRead img).slotFound (goodSlotOf s.boot.next img)).slotTested_shows (sectionOf img 9 0)
          obtain ⟨hplan, hsection, hstart⟩ := ((s.slotRead img).slotFound (goodSlotOf s.boot.next img)).slotTested_bist (sectionOf img 9 0)
          rw [State.slotTested_mode, State.slotFound_mode]
          exact ⟨rfl, hstep, hplan, hsection, hstart, hstate⟩
  · intro s img h
    have hif : ¬ (s.loading && s.boot.found && s.boot.good.isNone && s.bist.plan.isNone && decide (s.boot.next < 2)) = true := by
      simp only [Bool.and_eq_true, decide_eq_true_eq, Option.isNone_iff_eq_none]
      rintro ⟨⟨⟨⟨hloading, hfound⟩, hgood⟩, hplan⟩, hnext⟩
      obtain h | h | h | h | h := h
      · rw [h] at hloading
        cases hloading
      · rw [h] at hfound
        cases hfound
      · exact h hgood
      · exact h hplan
      · omega
    exact ⟨_, complete_of_eq rfl (if_neg hif), s.kept_settle⟩

end Sys2Proof.Machine
end

section
/-! SUPPORT. The steps of LOAD: far ports, sections, schedules and the journal (R428, R466, R468, R477, R479, R492, R493, R497). -/
namespace Sys2Proof.Machine

theorem State.bit_of_get {s t : State} {l : Loc} (h : t.get l = s.get l) : t.bit l = s.bit l := by rw [State.bit, h, State.bit]

/-! ### Far ports -/

section
variable (s : State) (f : Nat) (x : Nat × Nat × Nat)

/-- The registers of a far port that trains. -/
def State.farTrained (w r c : Nat) : State :=
  (((s.setBit (R.FAR_PORT.UP f) true).set (R.FAR_PORT.WIDTH f) w).set (R.FAR_PORT.RATE f) r).set (R.FAR_PORT.CAPACITY f) c

/-- Those of one that does not. -/
def State.farUntrained : State :=
  (((s.setBit (R.FAR_PORT.UP f) false).set (R.FAR_PORT.WIDTH f) 0).set (R.FAR_PORT.RATE f) 0).set (R.FAR_PORT.CAPACITY f) 0

theorem State.enumerate_eq : s.enumerate f x =
    if farLinkGood x.1 x.2.1 ∧ 0 < x.2.2 then (s.farTrained f x.1 x.2.1 (min x.2.2 2048)).emit (.farDecoder f (min x.2.2 2048))
    else (s.farUntrained f).raise (224 + f) f := rfl

theorem State.farTrained_get_other (w r c : Nat) {l : Loc} (h : l.off ≠ 0x2600000 + 0x1000 * f) : (s.farTrained f w r c).get l = s.get l := by
  rw [State.farTrained, State.get_set_of_off (l := R.FAR_PORT.CAPACITY f) h, State.get_set_of_off (l := R.FAR_PORT.RATE f) h,
    State.get_set_of_off (l := R.FAR_PORT.WIDTH f) h]
  exact State.get_set_of_off (l := R.FAR_PORT.UP f) h

theorem State.farUntrained_get_other {l : Loc} (h : l.off ≠ 0x2600000 + 0x1000 * f) : (s.farUntrained f).get l = s.get l := by
  rw [State.farUntrained, State.get_set_of_off (l := R.FAR_PORT.CAPACITY f) h, State.get_set_of_off (l := R.FAR_PORT.RATE f) h,
    State.get_set_of_off (l := R.FAR_PORT.WIDTH f) h]
  exact State.get_set_of_off (l := R.FAR_PORT.UP f) h

theorem State.farTrained_shows {w r c : Nat} (hw : w < 16) (hr : r < 4) (hc : c < 4096) :
    (s.farTrained f w r c).bit (R.FAR_PORT.UP f) = true ∧ (s.farTrained f w r c).get (R.FAR_PORT.WIDTH f) = w ∧
      (s.farTrained f w r c).get (R.FAR_PORT.RATE f) = r ∧ (s.farTrained f w r c).get (R.FAR_PORT.CAPACITY f) = c := by
  unfold State.farTrained
  refine ⟨?_, ?_, ?_, ?_⟩
  · have hup : ∀ t : State, t.bit (R.FAR_PORT.UP f) = (t.get (R.FAR_PORT.UP f) == 1) := fun _ => rfl
    rw [hup, State.get_set_of_bits (of_decide_eq_true rfl) (of_decide_eq_true rfl), State.get_set_of_bits (of_decide_eq_true rfl) (of_decide_eq_true rfl),
      State.get_set_of_bits (of_decide_eq_true rfl) (of_decide_eq_true rfl), ← hup]
    exact State.bit_setBit_same _ _ _ rfl (of_decide_eq_true rfl)
  · rw [State.get_set_of_bits (of_decide_eq_true rfl) (of_decide_eq_true rfl), State.get_set_of_bits (of_decide_eq_true rfl) (of_decide_eq_true rfl),
      State.get_set_same _ _ _ (of_decide_eq_true rfl)]
    exact Nat.mod_eq_of_lt hw
  · rw [State.get_set_of_bits (of_decide_eq_true rfl) (of_decide_eq_true rfl), State.get_set_same _ _ _ (of_decide_eq_true rfl)]
    exact Nat.mod_eq_of_lt hr
  · rw [State.get_set_same _ _ _ (of_decide_eq_true rfl)]
    exact Nat.mod_eq_of_lt hc

theorem State.farUntrained_up : (s.farUntrained f).bit (R.FAR_PORT.UP f) = false := by
  have hup : ∀ t : State, t.bit (R.FAR_PORT.UP f) = (t.get (R.FAR_PORT.UP f) == 1) := fun _ => rfl
  rw [State.farUntrained, hup, State.get_set_of_bits (of_decide_eq_true rfl) (of_decide_eq_true rfl),
    State.get_set_of_bits (of_decide_eq_true rfl) (of_decide_eq_true rfl), State.get_set_of_bits (of_decide_eq_true rfl) (of_decide_eq_true rfl), ← hup]
  exact State.bit_setBit_same _ _ _ rfl (of_decide_eq_true rfl)

/-- One port's enumeration leaves what no register write, no output and no raise changes. -/
theorem State.enumerate_keeps {α : Type} (g : State → α) (hset : ∀ u l v, g (State.set u l v) = g u)
    (hbit : ∀ u l b, g (State.setBit u l b) = g u) (hemit : ∀ u e, g (State.emit u e) = g u) (hraise : ∀ u n i, g (State.raise u n i) = g u) :
    g (s.enumerate f x) = g s := by
  rw [State.enumerate_eq]
  split
  · rw [hemit, State.farTrained, hset, hset, hset, hbit]
  · rw [hraise, State.farUntrained, hset, hset, hset, hbit]

theorem State.enumerate_mode : (s.enumerate f x).mode = s.mode :=
  s.enumerate_keeps f x (fun u => u.mode) (fun _ _ _ => rfl) (fun _ _ _ => rfl) (fun _ _ => rfl) fun u n i => u.raise_mode n i

theorem State.enumerate_mem : (s.enumerate f x).mem = s.mem :=
  s.enumerate_keeps f x (fun u => u.mem) (fun _ _ _ => rfl) (fun _ _ _ => rfl) (fun _ _ => rfl) fun u n i => u.raise_mem n i

theorem State.enumerate_perst : (s.enumerate f x).power.farPerstN = s.power.farPerstN :=
  s.enumerate_keeps f x (fun u => u.power.farPerstN) (fun _ _ _ => rfl) (fun _ _ _ => rfl) (fun _ _ => rfl) fun u n i => by rw [u.raise_power n i]

/-- The registers of the other ports stay. -/
theorem State.enumerate_get_other {l : Loc} (h : l.off ≠ 0x2600000 + 0x1000 * f) (hr : ¬ raiseReg l.off) : (s.enumerate f x).get l = s.get l := by
  rw [State.enumerate_eq]
  split
  · rw [State.get_emit, s.farTrained_get_other f _ _ _ h]
  · rw [State.raise_get _ _ _ hr, State.farUntrained_get_other _ _ h]

/-- A latch that is set stays set. -/
theorem State.enumerate_latch {n : Nat} (hn : n < 256) (h : s.bit (faultBit n) = true) : (s.enumerate f x).bit (faultBit n) = true := by
  have hfar : (faultBit n).off ≠ 0x2600000 + 0x1000 * f := by
    simp only [faultBit]
    omega
  rw [State.enumerate_eq]
  split
  · rw [State.bit_emit, State.bit_of_get (s.farTrained_get_other f _ _ _ hfar), h]
  · exact (raises _ _ _ _ _).latch n hn ((State.bit_of_get (s.farUntrained_get_other f hfar)).trans h)

theorem State.enumerate_trained (hgood : farLinkGood x.1 x.2.1 = true) (hc : 0 < x.2.2) :
    (s.enumerate f x).bit (R.FAR_PORT.UP f) = true ∧ (s.enumerate f x).get (R.FAR_PORT.WIDTH f) = x.1 ∧
      (s.enumerate f x).get (R.FAR_PORT.RATE f) = x.2.1 ∧ (s.enumerate f x).get (R.FAR_PORT.CAPACITY f) = min x.2.2 2048 ∧
      .farDecoder f (min x.2.2 2048) ∈ (s.enumerate f x).out := by
  have hform : x.1 < 16 ∧ x.2.1 < 4 := by
    simp only [farLinkGood, Bool.or_eq_true, Bool.and_eq_true, beq_iff_eq] at hgood
    omega
  obtain ⟨hup, hw, hr, hcap⟩ := s.farTrained_shows f hform.1 hform.2 (c := min x.2.2 2048) (by omega)
  rw [State.enumerate_eq, if_pos ⟨hgood, hc⟩]
  rw [State.bit_emit, State.get_emit, State.get_emit, State.get_emit, State.emit_out]
  exact ⟨hup, hw, hr, hcap, List.mem_append_right _ (List.mem_singleton.mpr rfl)⟩

theorem State.enumerate_untrained (hf : f < 16) (hcore : s.mode = .load) (h : ¬ (farLinkGood x.1 x.2.1 = true ∧ 0 < x.2.2)) :
    (s.enumerate f x).bit (R.FAR_PORT.UP f) = false ∧ (s.enumerate f x).bit (faultBit (224 + f)) = true := by
  rw [State.enumerate_eq, if_neg h]
  refine ⟨(State.bit_of_get (State.raise_get _ _ _ ?_)).trans (s.farUntrained_up f), State.raise_latches _ _ _ ?_ ?_⟩
  · simp only [R.FAR_PORT.UP, raiseReg]
    omega
  · simp only [sourceListed, Bool.or_eq_true, decide_eq_true_eq]
    omega
  · have hmode : (s.farUntrained f).mode = .load := hcore
    simp [State.coreUp, hmode]

theorem State.enumerate_out : ∃ l, (s.enumerate f x).out = s.out ++ l := by
  rw [State.enumerate_eq]
  split
  · exact ⟨_, rfl⟩
  · exact (raises _ _ _ _ _).out

end

/-- HBM is cleared and the far ports leave their reset. -/
def State.farCleared (s : State) : State :=
  ({ s with
    power := { s.power with farPerstN := true }
    mem := { s.mem with hbm := [], bad := [] } } : State).emit (.farPerst true)

/-- Every far port is enumerated. -/
def State.farEnumerated (s : State) (ports : List (Nat × Nat × Nat)) : State :=
  (List.range 16).foldl (fun (t : State) f => t.enumerate f (ports.getD f (0, 0, 0))) s

/-- The far ports are done. -/
def State.farEnded (s : State) : State := ({ s with boot := { s.boot with farDone := true } } : State).set R.BOOT_STATUS.STEP 5

theorem State.farStep_eq (s : State) (ports : List (Nat × Nat × Nat)) : s.farStep ports = (s.farCleared.farEnumerated ports).farEnded := rfl

theorem State.farEnded_get (s : State) {l : Loc} (h : l.off ≠ 0x500000) : s.farEnded.get l = s.get l := State.get_set_of_off h

theorem State.farEnumerated_keeps {α : Type} (g : State → α) (hg : ∀ u f x, g (State.enumerate u f x) = g u) (s : State)
    (ports : List (Nat × Nat × Nat)) : g (s.farEnumerated ports) = g s :=
  foldl_keeps (g := g) (f := fun (t : State) f => t.enumerate f (ports.getD f (0, 0, 0))) (fun _ _ => hg _ _ _) _ s

/-- What the enumeration of a port establishes in LOAD, and that of another port keeps, holds in the end. -/
theorem State.farEnumerated_establishes {P : State → Prop} {f : Nat} (hf : f < 16) (ports : List (Nat × Nat × Nat))
    (hset : ∀ u : State, u.mode = .load → P (u.enumerate f (ports.getD f (0, 0, 0))))
    (hkeep : ∀ (u : State) k x, k ≠ f → P u → P (u.enumerate k x)) {s : State} (hs : s.mode = .load) : P (s.farEnumerated ports) := by
  have h : ∀ u : State, (u.farEnumerated ports).mode = .load → P (u.farEnumerated ports) := fun u => by
    refine foldl_establishes (P := fun t : State => t.mode = .load → P t) (a := f) (fun t ht => ?_) (List.mem_range.mpr hf) (fun k _ t hP ht => ?_) u
    · exact hset t ((t.enumerate_mode f _).symm.trans ht)
    · have hmode : t.mode = .load := (t.enumerate_mode k _).symm.trans ht
      by_cases hk : k = f
      · subst hk
        exact hset t hmode
      · exact hkeep t k _ hk (hP hmode)
  exact h s ((State.farEnumerated_keeps (fun u => u.mode) State.enumerate_mode s ports).trans hs)

theorem farPort_not_raised {f : Nat} : ¬ raiseReg (0x2600000 + 0x1000 * f) := by
  simp only [raiseReg]
  omega

theorem farPort_apart {k f : Nat} (h : k ≠ f) : 0x2600000 + 0x1000 * f ≠ 0x2600000 + 0x1000 * k := by omega

section
variable {s : State} {ports : List (Nat × Nat × Nat)} {f w r c : Nat} (hf : f < 16) (hs : s.mode = .load) (hport : ports.getD f (0, 0, 0) = (w, r, c))
include hf hs hport

/-- A port that trains is up, as it trains (R428, R497). -/
theorem State.farEnumerated_trained (hgood : farLinkGood w r = true) (hc : 0 < c) :
    (s.farEnumerated ports).bit (R.FAR_PORT.UP f) = true ∧ (s.farEnumerated ports).get (R.FAR_PORT.WIDTH f) = w ∧
      (s.farEnumerated ports).get (R.FAR_PORT.RATE f) = r ∧ (s.farEnumerated ports).get (R.FAR_PORT.CAPACITY f) = min c 2048 ∧
      .farDecoder f (min c 2048) ∈ (s.farEnumerated ports).out := by
  refine State.farEnumerated_establishes (P := fun t : State => t.bit (R.FAR_PORT.UP f) = true ∧ t.get (R.FAR_PORT.WIDTH f) = w ∧
    t.get (R.FAR_PORT.RATE f) = r ∧ t.get (R.FAR_PORT.CAPACITY f) = min c 2048 ∧ .farDecoder f (min c 2048) ∈ t.out) hf ports (fun u _ => ?_)
    (fun u k x hk hP => ?_) hs
  · rw [hport]
    exact u.enumerate_trained f (w, r, c) hgood hc
  · obtain ⟨hup, hw, hr, hcap, hout⟩ := hP
    obtain ⟨l, hl⟩ := u.enumerate_out k x
    have hget : ∀ m : Loc, m.off = 0x2600000 + 0x1000 * f → (u.enumerate k x).get m = u.get m := fun m hm =>
      u.enumerate_get_other k x (hm ▸ farPort_apart hk) (hm ▸ farPort_not_raised)
    exact ⟨(State.bit_of_get (hget (R.FAR_PORT.UP f) rfl)).trans hup, (hget (R.FAR_PORT.WIDTH f) rfl).trans hw,
      (hget (R.FAR_PORT.RATE f) rfl).trans hr, (hget (R.FAR_PORT.CAPACITY f) rfl).trans hcap, hl ▸ List.mem_append_left _ hout⟩

/-- A port that does not is down, and its fault is raised. -/
theorem State.farEnumerated_untrained (h : ¬ (farLinkGood w r = true ∧ 0 < c)) :
    (s.farEnumerated ports).bit (R.FAR_PORT.UP f) = false ∧ (s.farEnumerated ports).bit (faultBit (224 + f)) = true := by
  refine State.farEnumerated_establishes (P := fun t : State => t.bit (R.FAR_PORT.UP f) = false ∧ t.bit (faultBit (224 + f)) = true) hf ports
    (fun u hu => ?_) (fun u k x hk hP => ?_) hs
  · rw [hport]
    exact u.enumerate_untrained f (w, r, c) hf hu h
  · obtain ⟨hup, hfault⟩ := hP
    exact ⟨(State.bit_of_get (l := R.FAR_PORT.UP f) (u.enumerate_get_other k x (farPort_apart hk) farPort_not_raised)).trans hup,
      u.enumerate_latch k x (by omega) hfault⟩

end

/-! ### Schedules -/

theorem State.putFacet_boot (s : State) (sec : List Byte) (f b off pool : Nat) : (s.putFacet sec f b off pool).boot = s.boot :=
  foldl_keeps (g := fun u : State => u.boot) (f := fun (t : State) i => t.putWord f b i (leAt sec (pool + 24 * (leAt sec off 4 + i)) 24))
    (fun _ _ => rfl) _ s

theorem State.putPrismRec_boot (s : State) (sec : List Byte) (p b off pool : Nat) : (s.putPrismRec sec p b off pool).boot = s.boot := by
  have hcode : ∀ (u : State) (c : CodeState), ({ u with code := c } : State).boot = u.boot := fun _ _ => rfl
  unfold State.putPrismRec
  dsimp only
  rw [foldl_keeps (g := fun u : State => u.boot) (fun _ _ => State.putFacet_boot ..), hcode, State.set_boot, State.set_boot, State.set_boot]

theorem State.putSection_boot (s : State) (sec : List Byte) (b : Nat) : (s.putSection sec b).boot = s.boot := by
  unfold State.putSection
  dsimp only
  rw [State.setBit_boot, State.set_boot, State.set_boot, foldl_keeps (g := fun u : State => u.boot) (fun _ _ => State.putFacet_boot ..),
    foldl_keeps (g := fun u : State => u.boot) (fun _ _ => State.putPrismRec_boot ..)]
  rfl

theorem State.schedRegs_boot (s : State) : s.schedRegs.boot = s.boot := by
  unfold State.schedRegs
  rw [foldl_keeps (g := fun u : State => u.boot) fun u p => by simp]

theorem State.bankEdges_boot (s : State) (b : Nat) : (s.bankEdges b).boot = s.boot := by
  simp only [State.bankEdges]

theorem State.loadSection_boot {s t : State} {sec : List Byte} {b : Nat} (h : s.loadSection sec b = .inr t) : t.boot = s.boot := by
  unfold State.loadSection at h
  split at h
  · cases h
  dsimp only at h
  split at h
  · cases h
  cases h
  rw [State.schedRegs_boot, State.bankEdges_boot, State.putSection_boot]

theorem State.loadBanks_boot {s t : State} {l : List (Nat × List Byte)} (h : State.loadBanks l s = .inr t) : t.boot = s.boot := by
  induction l generalizing s with
  | nil => exact Sum.inr.inj h ▸ rfl
  | cons x l ih =>
    unfold State.loadBanks at h
    split at h
    · cases h
    · rename_i hfirst
      exact (ih h).trans (State.loadSection_boot hfirst)

/-! ### The scan of the journal -/

/-- What a scan leaves, beside the journal: JRN_HEAD, the count of epochs, the mode and whether the epoch entry is written. -/
def State.scanKept (s : State) : Nat × Nat × Mode × Bool := (s.get R.JRN_HEAD.HEAD, s.get R.JRN_EPOCH.COUNT, s.mode, s.boot.epochWritten)

theorem State.scanKept_writeOutcome (s : State) (seq : Nat) (o : List Byte) : (s.writeOutcome seq o).scanKept = s.scanKept := by
  rw [State.writeOutcome_eq]
  rfl

theorem State.scanKept_raise (s : State) (n info : Nat) : (s.raise n info).scanKept = s.scanKept := by
  rw [State.scanKept, State.raise_get _ _ _ (by decide), State.raise_get _ _ _ (by decide), State.raise_mode, State.raise_boot]
  rfl

theorem State.scanKept_indet (s : State) (l : List Nat) : ({ s with boot := { s.boot with indet := l } } : State).scanKept = s.scanKept := rfl

theorem State.scanKept_scanEntry (a : State × Scan) (seq : Nat) : (State.scanEntry a seq).1.scanKept = a.1.scanKept := by
  unfold State.scanEntry
  dsimp only
  split
  · rfl
  · split
    · rfl
    · rfl
    · exact (State.scanKept_indet ..).trans ((State.scanKept_writeOutcome ..).trans (State.scanKept_raise ..))
    · split
      · rfl
      · exact (State.scanKept_indet ..).trans (State.scanKept_writeOutcome ..)

/-- An entry whose read-back fails twice has advanced the head all the same, and is not counted as written (R468). -/
theorem State.writeEntry_ge (s : State) (ring flags : Nat) (cmd : List Byte) (orig : Nat) {fails : Nat} (h : ¬ fails < 2) :
    (s.writeEntry ring flags cmd orig fails).2 = false ∧ (s.writeEntry ring flags cmd orig fails).1.regs = s.advanceHead.regs ∧
      (s.writeEntry ring flags cmd orig fails).1.boot = s.boot ∧ (s.writeEntry ring flags cmd orig fails).1.mode = s.mode := by
  unfold State.writeEntry
  dsimp only
  rw [if_neg h, State.setJbytes_eq]
  refine ⟨rfl, rfl, rfl, rfl⟩

theorem State.journalFail_get (s : State) (ring : Nat) {l : Loc} (hl : l.off ≠ 0x300028) (hr : ¬ raiseReg l.off) : (s.journalFail ring).get l = s.get l := by
  rw [State.journalFail, State.raise_get _ _ _ hr]
  exact State.get_set_of_off hl

theorem State.journalFail_boot (s : State) (ring : Nat) : (s.journalFail ring).boot = s.boot := by
  rw [State.journalFail, State.raise_boot, State.sat_boot]

theorem State.journalFail_latches (s : State) (ring : Nat) (h : s.mode = .load) : (s.journalFail ring).bit (faultBit 34) = true := by
  rw [State.journalFail]
  refine State.raise_latches _ _ _ (by decide) ?_
  simp [State.coreUp, h]

/-! ### The epoch entry -/

/-- The state after a scan, and what it has found. -/
def State.scannedAll (s : State) : State × Scan := s.scanned.foldl State.scanEntry (s, ({} : Scan))

theorem State.scannedAll_kept (s : State) : s.scannedAll.1.scanKept = s.scanKept :=
  foldl_keeps (g := fun x : State × Scan => x.1.scanKept) State.scanKept_scanEntry _ _

/-- The registers of an epoch entry that is written (R479). -/
def State.epochRegs (s : State) (seq count : Nat) : State :=
  ((s.writeOutcome seq (outcomeArea 0 0 0 0 [])).set R.JRN_LAST_EPOCH.SEQ seq).set R.JRN_EPOCH.COUNT (count + 1)

/-- The run begins with the epoch entry written. -/
def State.epochBegun (s : State) (c : Scan) : State :=
  { s.scanStat c with
    power := { s.power with ranChip := false, ranRestart := false, ranReset := false, started := true }
    cmd := { s.cmd with reexec := c.reexec, lastSeq := s.cmd.lastSeq }
    boot := { s.boot with epochWritten := true } }

/-- The epoch entry, opened after the scan. -/
def State.epochEntry (s : State) (g : GoodSlot) (fails : Nat) : State × Bool :=
  s.scannedAll.1.writeEntry 0xFF 1 (s.scannedAll.1.epochBody g s.scannedAll.2 (s.lastClose.getD (2 ^ 48 - 1)) s.runEnd) 0 fails

theorem State.journalScan_eq (s : State) (g : GoodSlot) (fails : Nat) : s.journalScan g fails =
    if s.slotHeld then s else if (s.epochEntry g fails).2 then
      (((s.epochEntry g fails).1.epochRegs (s.scannedAll.1.get R.JRN_HEAD.HEAD) (s.scannedAll.1.get R.JRN_EPOCH.COUNT)).epochBegun
        s.scannedAll.2)
    else (s.epochEntry g fails).1.journalFail 0xFF := rfl

theorem State.scanStat_get (s : State) (c : Scan) {l : Loc} (h : l.off ≠ 0x300028) : (s.scanStat c).get l = s.get l := by
  rw [State.scanStat, State.get_set_of_off (l := R.JRN_STAT.INDET) h, State.get_set_of_off (l := R.JRN_STAT.REEXEC) h,
    State.get_set_of_off (l := R.JRN_STAT.UNKNOWN) h]

theorem State.epochBegun_get (s : State) (c : Scan) {l : Loc} (h : l.off ≠ 0x300028) : (s.epochBegun c).get l = s.get l := by
  have hregs : (s.epochBegun c).regs = (s.scanStat c).regs := by simp only [State.epochBegun]
  rw [State.get_of_regs hregs, State.scanStat_get _ _ h]

theorem State.writeOutcome_get (s : State) (seq : Nat) (o : List Byte) (l : Loc) : (s.writeOutcome seq o).get l = s.get l := by
  rw [State.writeOutcome_eq]
  rfl

/-- The registers of the epoch entry: the head stays as the entry left it, JRN_LAST_EPOCH names the entry and JRN_EPOCH counts it. -/
theorem State.epochRegs_get (s : State) (seq count : Nat) : (s.epochRegs seq count).get R.JRN_HEAD.HEAD = s.get R.JRN_HEAD.HEAD ∧
    (s.epochRegs seq count).get R.JRN_LAST_EPOCH.SEQ = seq % 2 ^ 48 ∧ (s.epochRegs seq count).get R.JRN_EPOCH.COUNT = (count + 1) % 2 ^ 48 := by
  unfold State.epochRegs
  refine ⟨?_, ?_, ?_⟩
  · rw [State.get_set_of_off (by decide), State.get_set_of_off (by decide), State.writeOutcome_get]
  · rw [State.get_set_of_off (by decide), State.get_set_same _ _ _ (by decide)]
    rfl
  · rw [State.get_set_same _ _ _ (by decide)]
    rfl

section
variable (s : State) (g : GoodSlot) (fails : Nat)

/-- The scan leaves JRN_HEAD, the count of epochs, the mode and whether the epoch entry is written. -/
theorem State.scannedAll_parts : s.scannedAll.1.get R.JRN_HEAD.HEAD = s.get R.JRN_HEAD.HEAD ∧
    s.scannedAll.1.get R.JRN_EPOCH.COUNT = s.get R.JRN_EPOCH.COUNT ∧ s.scannedAll.1.mode = s.mode ∧
    s.scannedAll.1.boot.epochWritten = s.boot.epochWritten := by
  have h := s.scannedAll_kept
  simp only [State.scanKept, Prod.mk.injEq] at h
  exact h

/-- The epoch entry advances the head, however its read-back goes (R466, R468). -/
theorem State.epochEntry_head : (s.epochEntry g fails).1.get R.JRN_HEAD.HEAD = (s.get R.JRN_HEAD.HEAD + 1) % 2 ^ 48 := by
  obtain ⟨hhead, -⟩ := s.scannedAll_parts
  rw [← hhead, ← State.advanceHead_head, State.epochEntry]
  by_cases h : fails < 2
  · rw [State.writeEntry_lt _ _ _ _ _ h]
    exact State.writeEntry_get _ _ _ _ _ _
  · obtain ⟨-, hregs, -⟩ := s.scannedAll.1.writeEntry_ge 0xFF 1
      (s.scannedAll.1.epochBody g s.scannedAll.2 (s.lastClose.getD (2 ^ 48 - 1)) s.runEnd) 0 h
    exact State.get_of_regs hregs _

variable {fails}

/-- An epoch entry that is written (R477, R479). -/
theorem State.journalScan_written (hheld : s.slotHeld = false) (h : fails < 2) :
    (s.journalScan g fails).get R.JRN_HEAD.HEAD = (s.get R.JRN_HEAD.HEAD + 1) % 2 ^ 48 ∧ (s.journalScan g fails).boot.epochWritten = true ∧
      (s.journalScan g fails).get R.JRN_LAST_EPOCH.SEQ = s.get R.JRN_HEAD.HEAD ∧
      (s.journalScan g fails).get R.JRN_EPOCH.COUNT = (s.get R.JRN_EPOCH.COUNT + 1) % 2 ^ 48 ∧ (s.journalScan g fails).power.started = true ∧
      (s.journalScan g fails).power.ranChip = false ∧ (s.journalScan g fails).power.ranRestart = false ∧
      (s.journalScan g fails).power.ranReset = false := by
  have hwritten : (s.epochEntry g fails).2 = true := by rw [State.epochEntry, State.writeEntry_lt _ _ _ _ _ h]
  obtain ⟨hhead, hcount, -⟩ := s.scannedAll_parts
  obtain ⟨hregs, hlast, hepoch⟩ := (s.epochEntry g fails).1.epochRegs_get (s.scannedAll.1.get R.JRN_HEAD.HEAD) (s.scannedAll.1.get R.JRN_EPOCH.COUNT)
  rw [State.journalScan_eq, if_neg (by simp [hheld]), if_pos hwritten, State.epochBegun_get _ _ (by decide), State.epochBegun_get _ _ (by decide),
    State.epochBegun_get _ _ (by decide), hregs, hlast, hepoch, hhead, hcount, State.epochEntry_head]
  have hfit : s.get R.JRN_HEAD.HEAD % 2 ^ 48 = s.get R.JRN_HEAD.HEAD := Nat.mod_eq_of_lt (State.get_lt s R.JRN_HEAD.HEAD)
  exact ⟨rfl, rfl, hfit, rfl, rfl, rfl, rfl, rfl⟩

/-- One whose read-back fails twice (R468). -/
theorem State.journalScan_failed (hmode : s.mode = .load) (hheld : s.slotHeld = false) (h : ¬ fails < 2) :
    (s.journalScan g fails).get R.JRN_HEAD.HEAD = (s.get R.JRN_HEAD.HEAD + 1) % 2 ^ 48 ∧
      (s.journalScan g fails).boot.epochWritten = s.boot.epochWritten ∧ (s.journalScan g fails).bit (faultBit 34) = true := by
  obtain ⟨-, -, hscan, hepoch⟩ := s.scannedAll_parts
  obtain ⟨hwritten, -, hboot, hrun⟩ := s.scannedAll.1.writeEntry_ge 0xFF 1
    (s.scannedAll.1.epochBody g s.scannedAll.2 (s.lastClose.getD (2 ^ 48 - 1)) s.runEnd) 0 h
  rw [← State.epochEntry] at hwritten hboot hrun
  rw [State.journalScan_eq, if_neg (by simp [hheld]), if_neg (by simp [hwritten]), State.journalFail_get _ _ (by decide) (by decide),
    State.epochEntry_head, State.journalFail_boot, hboot, hepoch]
  exact ⟨rfl, rfl, State.journalFail_latches _ _ (hrun.trans (hscan.trans hmode))⟩

end

/-- A step of LOAD does nothing outside LOAD. -/
theorem State.complete_idle {ok : Bool} {s t : State} (hok : ok = true) (h : t = s) : ∃ u, complete ok s t = .next u ∧ s.kept u [] fun _ => False :=
  ⟨_, complete_of_eq hok h, s.kept_settle⟩

/-- A step of LOAD that ends well changes BOOT_STATUS alone. -/
theorem State.kept_stepped (u : State) (b : BootState) (n : Nat) :
    u.kept { (({ u with boot := b } : State).set R.BOOT_STATUS.STEP n).settle with boot := u.boot } [] fun k => k = R.BOOT_STATUS.STEP.off :=
  State.kept_sent (g := fun y => { y with boot := u.boot }) (x := ({ u with boot := b } : State).set R.BOOT_STATUS.STEP n) (fun _ => rfl) (fun _ => rfl)
    (fun _ => rfl) rfl (List.append_nil _).symm fun _ hk => State.word_set_other (l := R.BOOT_STATUS.STEP) _ hk

/-- The far ports end in their registers (R428, R497). -/
theorem State.farStep_port (s : State) {ports : List (Nat × Nat × Nat)} (hmode : s.mode = .load) {f w r c : Nat} (hf : f < 16)
    (hport : ports.getD f (0, 0, 0) = (w, r, c)) :
    (farLinkGood w r = true → 0 < c → (s.farStep ports).settle.bit (R.FAR_PORT.UP f) = true ∧ (s.farStep ports).settle.get (R.FAR_PORT.WIDTH f) = w ∧
      (s.farStep ports).settle.get (R.FAR_PORT.RATE f) = r ∧ (s.farStep ports).settle.get (R.FAR_PORT.CAPACITY f) = min c 2048 ∧
      .farDecoder f (min c 2048) ∈ (s.farStep ports).settle.out) ∧
    (farLinkGood w r = false ∨ c = 0 → (s.farStep ports).settle.bit (R.FAR_PORT.UP f) = false ∧
      (s.farStep ports).settle.bit (faultBit (224 + f)) = true) := by
  have hclear : s.farCleared.mode = .load := hmode
  rw [State.farStep_eq]
  have hget : ∀ l : Loc, l.off = 0x2600000 + 0x1000 * f →
      (s.farCleared.farEnumerated ports).farEnded.settle.get l = (s.farCleared.farEnumerated ports).get l := fun l hl => by
    rw [State.settle_get _ (by simp only [followReg]; omega), State.farEnded_get _ (by omega)]
  refine ⟨fun hform hc => ?_, fun h => ?_⟩
  · obtain ⟨hup, hw, hr, hcap, hout⟩ := State.farEnumerated_trained hf hclear hport hform hc
    refine ⟨(State.bit_of_get (hget (R.FAR_PORT.UP f) rfl)).trans hup, (hget (R.FAR_PORT.WIDTH f) rfl).trans hw,
      (hget (R.FAR_PORT.RATE f) rfl).trans hr, (hget (R.FAR_PORT.CAPACITY f) rfl).trans hcap, ?_⟩
    obtain ⟨l, hl, -⟩ := (settles (s.farCleared.farEnumerated ports).farEnded).out
    exact hl ▸ List.mem_append_left _ (List.mem_append_left _ hout)
  · obtain ⟨hup, hfault⟩ := State.farEnumerated_untrained hf hclear hport (by
      rintro ⟨hform, hc⟩
      obtain h | h := h
      · rw [h] at hform
        cases hform
      · omega)
    have hlatch : (s.farCleared.farEnumerated ports).farEnded.settle.bit (faultBit (224 + f)) =
        (s.farCleared.farEnumerated ports).bit (faultBit (224 + f)) := by
      refine State.bit_of_get ((State.settle_get _ ?_).trans (State.farEnded_get _ ?_))
      · simp only [faultBit, followReg]
        omega
      · simp only [faultBit]
        omega
    exact ⟨(State.bit_of_get (hget (R.FAR_PORT.UP f) rfl)).trans hup, hlatch.trans hfault⟩

/-- What else that step leaves. -/
theorem State.farStep_done (s : State) (ports : List (Nat × Nat × Nat)) : (s.farStep ports).settle.boot.farDone = true ∧
    (s.farStep ports).settle.get R.BOOT_STATUS.STEP = 5 ∧ (s.farStep ports).settle.power.farPerstN = true ∧ (s.farStep ports).settle.mem.hbm = [] := by
  have hperst : (s.farCleared.farEnumerated ports).power.farPerstN = s.farCleared.power.farPerstN :=
    State.farEnumerated_keeps (fun u => u.power.farPerstN) State.enumerate_perst s.farCleared ports
  have hmem : (s.farCleared.farEnumerated ports).mem = s.farCleared.mem := State.farEnumerated_keeps (fun u => u.mem) State.enumerate_mem s.farCleared ports
  have hended : ∀ u : State, u.farEnded.boot.farDone = true ∧ u.farEnded.get R.BOOT_STATUS.STEP = 5 ∧ u.farEnded.power = u.power ∧
      u.farEnded.mem = u.mem := fun _ => ⟨rfl, State.get_set_same _ _ _ (by decide), rfl, rfl⟩
  obtain ⟨hdone, hstep, hpower, hlines⟩ := hended (s.farCleared.farEnumerated ports)
  rw [State.farStep_eq, State.settle_boot, State.settle_get _ (by decide), State.settle_power, State.settle_mem, hpower, hlines, hperst, hmem]
  exact ⟨hdone, hstep, rfl, rfl⟩

/-- The second read and the sections (R492, R493). -/
theorem State.loadApply_ends (s : State) {g : GoodSlot} (hslot : g.slot < 2) (img : List Byte) (plan : ImagePlan) :
    match secondRead g img with
    | some e => s.slotFailed (s.loadApply g img plan).settle g.slot (e.reason % 16)
    | none => match (s.emit (.flashRead (slotBase g.slot))).applyImage img plan with
      | .inl e => s.slotFailed (s.loadApply g img plan).settle g.slot (e.reason % 16)
      | .inr u => (s.loadApply g img plan).settle.boot.applied = true ∧ (s.loadApply g img plan).settle.get R.BOOT_STATUS.STEP = 6 ∧
        u.kept { (s.loadApply g img plan).settle with boot := u.boot } [] fun k => k = R.BOOT_STATUS.STEP.off := by
  have hfails : ∀ e : LoadFail, s.slotFailed ((s.emit (.flashRead (slotBase g.slot))).failSlot g.slot e).settle g.slot (e.reason % 16) := fun e =>
    State.slotFailed_of (u := s.emit (.flashRead (slotBase g.slot))) rfl rfl (State.slotFailed_failSlot _ e hslot)
  cases hread : secondRead g img with
  | some e =>
    have h : s.loadApply g img plan = (s.emit (.flashRead (slotBase g.slot))).failSlot g.slot e := by simp only [State.loadApply, hread]
    rw [h]
    exact hfails e
  | none =>
    dsimp only
    cases happly : (s.emit (.flashRead (slotBase g.slot))).applyImage img plan with
    | inl e =>
      have h : s.loadApply g img plan = (s.emit (.flashRead (slotBase g.slot))).failSlot g.slot e := by simp only [State.loadApply, hread, happly]
      rw [h]
      exact hfails e
    | inr u =>
      have h : s.loadApply g img plan = ({ u with boot := { u.boot with applied := true } } : State).set R.BOOT_STATUS.STEP 6 := by
        simp only [State.loadApply, hread, happly]
      rw [h]
      refine ⟨by rw [State.settle_boot, State.set_boot], ?_, u.kept_stepped _ 6⟩
      rw [State.settle_get _ (by decide), State.get_set_same _ _ _ (by decide)]
      rfl

/-- The schedules (R85, R98, R304, R324). -/
theorem State.loadSched_ends (s : State) {g : GoodSlot} (hslot : g.slot < 2) :
    match State.loadBanks s.boot.scheds s with
    | .inl _ => s.slotFailed (s.loadSched g).settle g.slot 9
    | .inr u => (bankCount < u.buf.wheel.sum ∨ u.ratesGood = false → s.slotFailed (s.loadSched g).settle g.slot 9) ∧
      (u.buf.wheel.sum ≤ bankCount → u.ratesGood = true → u.reservesGood = false → s.slotFailed (s.loadSched g).settle g.slot 8) ∧
      (u.buf.wheel.sum ≤ bankCount → u.ratesGood = true → u.reservesGood = true →
        (s.loadSched g).settle.boot.checked = true ∧ (s.loadSched g).settle.get R.BOOT_STATUS.STEP = 7) := by
  unfold State.loadSched
  split
  · rename_i b c hbad
    rw [hbad]
    exact State.slotFailed_of (u := s.draw.2) rfl rfl (State.slotFailed_failSlot _ _ hslot)
  · rename_i u hu
    rw [hu]
    dsimp only
    have hboot := State.loadBanks_boot hu
    have hrun := State.mode_of_modes (State.modes_loadBanks hu)
    have hfails : ∀ e : LoadFail, s.slotFailed (u.failSlot g.slot e).settle g.slot (e.reason % 16) := fun e =>
      State.slotFailed_of (by rw [hboot]) hrun (State.slotFailed_failSlot u e hslot)
    refine ⟨fun h => ?_, fun hwheel hrates hres => ?_, fun hwheel hrates hres => ?_⟩
    · split
      · exact hfails ⟨9, none, 1⟩
      · rename_i hwheel
        rw [if_pos (by simpa using h.resolve_left hwheel)]
        exact hfails ⟨9, none, 6⟩
    · rw [if_neg (by omega), if_neg (by simp [hrates]), if_pos (by simp [hres])]
      exact hfails ⟨8, none, 0⟩
    · rw [if_neg (by omega), if_neg (by simp [hrates]), if_neg (by simp [hres]), State.settle_boot, State.settle_get _ (by decide), State.set_boot]
      exact ⟨rfl, State.get_set_same _ _ _ (by decide)⟩

/-- Settles O51, by the lemmas about each step of LOAD and about a slot that fails. -/
theorem loadProceeds : Obligations.LoadProceeds := by
  unfold Obligations.LoadProceeds
  refine ⟨?_, ?_, ?_, ?_, ?_⟩
  · intro s ports hwf hmode hchip hgood hplan hdone
    obtain ⟨hfar, hstep, hperst, hhbm⟩ := s.farStep_done ports
    exact ⟨_, complete_of_eq hwf (if_pos (by simp [hmode, hchip, hgood, hplan, hdone])), hfar, hstep, hperst, hhbm,
      fun _ _ _ _ hf hport => s.farStep_port hmode hf hport⟩
  · intro s img plan g hgood hslot hmode hchip hdone happlied
    exact ⟨_, complete_of_eq rfl (by rw [hgood]; exact if_pos (by simp [hmode, hchip, hdone, happlied])), s.loadApply_ends hslot img plan⟩
  · intro s g hgood hslot hmode hchip happlied hchecked
    exact ⟨_, complete_of_eq rfl (by rw [hgood]; exact if_pos (by simp [hmode, hchip, happlied, hchecked])), s.loadSched_ends hslot⟩
  · intro s fails hgood hmode hchip hchecked hepoch
    obtain ⟨g, hg⟩ := Option.isSome_iff_exists.mp hgood
    have hrun : exec (.journalScan fails) s = .next (s.journalScan g fails).settle :=
      complete_of_eq rfl (by rw [hg]; exact if_pos (by simp [hmode, hchip, hchecked, hepoch]))
    refine ⟨fun hheld => ⟨_, hrun, ?_⟩, fun hheld => ⟨_, hrun, ?_⟩⟩
    · rw [State.journalScan_eq, if_pos hheld]
      exact s.kept_settle
    · rw [State.settle_get _ (by decide), State.settle_boot, State.settle_get _ (by decide), State.settle_get _ (by decide), State.settle_power,
        State.settle_bit _ (by decide)]
      by_cases h : fails < 2
      · obtain ⟨hhead, hrest⟩ := s.journalScan_written g hheld h
        exact ⟨hhead, fun _ => hrest, fun h2 => absurd h (by omega)⟩
      · obtain ⟨hhead, hboot, hfault⟩ := s.journalScan_failed g hmode hheld h
        exact ⟨hhead, fun h2 => absurd h2 h, fun _ => ⟨hboot.trans hepoch, hfault⟩⟩
  · intro s img plan ports fails hmode hwf
    have hload : (s.mode == .load) = false := by simpa using hmode
    refine ⟨State.complete_idle hwf ?_, State.complete_idle rfl ?_, State.complete_idle rfl ?_, State.complete_idle rfl ?_,
      State.complete_idle rfl ?_⟩
    · simp [hload]
    · split <;> simp [hload]
    · split <;> simp [hload]
    · split <;> simp [hload]
    · simp [hload]

end Sys2Proof.Machine
end

section
/-! SUPPORT. The banks of HBM: requests and refresh (R418, R421 to R423, R425). -/
namespace Sys2Proof.Machine

/-! ### What a bank serves -/

/-- The frame of a command that changes the memories alone, with the part put back that `g` puts back. -/
theorem State.kept_memory {s x : State} {g : MemState → MemState} (hx : x = { s with mem := x.mem }) (hg : g x.mem = s.mem) :
    s.kept { x.settle with mem := g x.mem } [] fun _ => False := by
  rw [← State.settle_mem x]
  have hstill : ∀ m : MemState, g m = s.mem → ({ ({ s with mem := m } : State) with mem := g ({ s with mem := m } : State).mem } : State).still = s.still :=
    fun m hm => by
      have h : ({ s with mem := g m } : State) = s := by rw [hm]
      exact congrArg State.still h
  refine State.kept_sent (g := fun y : State => { y with mem := g y.mem }) (fun _ => rfl) (fun _ => rfl) (fun _ => rfl) (hx ▸ hstill _ hg) ?_ ?_
  · rw [hx, List.append_nil]
  · intro k _
    rw [hx]
    rfl

theorem State.lineFails_mem (s : State) (q line cls who : Nat) : (s.lineFails q line cls who).mem =
    { s.mem with
      lost := if cls = 0 then s.mem.lost ++ [(who, 2 ^ 25 * q + line, 1)] else s.mem.lost
      failed := if who = 0 then s.mem.failed else who :: s.mem.failed } := by
  have hraise : (if line < s.get R.HBM_CFG.FWD_LINES then s else (s.sat (R.HBM_ECC.UNCORRECTED (q / 32)) 1).raise 31 (q / 32)).mem = s.mem := by
    split
    · rfl
    · rw [State.raise_mem, State.sat_mem]
  have hfail : ∀ u : State, (u.failWho who).mem = { u.mem with failed := if who = 0 then u.mem.failed else who :: u.mem.failed } := fun u => by
    unfold State.failWho
    split <;> rfl
  have hlose : ∀ u : State, (if cls = 0 then u.loseLine who (2 ^ 25 * q + line) 1 else u).mem =
      { u.mem with lost := if cls = 0 then u.mem.lost ++ [(who, 2 ^ 25 * q + line, 1)] else u.mem.lost } := fun u => by
    split <;> rfl
  unfold State.lineFails
  dsimp only
  rw [hfail, hlose, hraise]

/-- Beside the memories, a line of the dynamic area that is lost is counted and raised (R423). -/
theorem State.lineFails_regs (s : State) {q line : Nat} (cls who : Nat) (h : s.get R.HBM_CFG.FWD_LINES ≤ line) :
    (s.lineFails q line cls who).regs = ((s.sat (R.HBM_ECC.UNCORRECTED (q / 32)) 1).raise 31 (q / 32)).regs := by
  have hfail : ∀ u : State, (u.failWho who).regs = u.regs := fun u => ite_keeps (g := State.regs) rfl rfl
  have hlose : ∀ u : State, (if cls = 0 then u.loseLine who (2 ^ 25 * q + line) 1 else u).regs = u.regs := fun u => ite_keeps (g := State.regs) rfl rfl
  unfold State.lineFails
  dsimp only
  rw [hfail, hlose, if_neg (by omega)]

/-- The request leaves the queue. -/
def State.unqueueReq (s : State) (r : MemReq) : State := { s with mem := { s.mem with queue := s.mem.queue.erase r } }

/-- The key of the line that a request names. -/
abbrev MemReq.key (r : MemReq) : Nat := 2 ^ 25 * r.q + r.line

theorem State.serveReq_eq (s : State) (r : MemReq) : s.serveReq r =
    if r.line < s.get R.HBM_CFG.FWD_LINES then s.unqueueReq r
    else if r.write then (s.unqueueReq r).setDynLine r.q r.line r.data
    else if s.mem.bad.contains r.key then (s.unqueueReq r).lineFails r.q r.line r.cls r.who
    else (s.unqueueReq r).keepRead r.who r.cls r.key (s.dynLine r.q r.line) := rfl

/-- What serving a request leaves of the memories, whatever it does. -/
def MemState.served (m : MemState) : SMap Nat × SMap Nat × SMap Nat × List MemReq := (m.rows, m.accesses, m.touched, m.queue)

theorem State.serveReq_served (s : State) (r : MemReq) : (s.serveReq r).mem.served = (s.unqueueReq r).mem.served := by
  rw [State.serveReq_eq]
  split
  · rfl
  split
  · rfl
  split
  · rw [State.lineFails_mem]
    rfl
  · unfold State.keepRead
    split <;> rfl

/-- Only a write of the dynamic area changes a line, and only its own. -/
theorem State.serveReq_hbm (s : State) (r : MemReq) : (s.serveReq r).mem.hbm =
    if ¬ r.line < s.get R.HBM_CFG.FWD_LINES ∧ r.write = true then s.mem.hbm.put (fun _ => 0) r.key r.data else s.mem.hbm := by
  rw [State.serveReq_eq]
  by_cases hline : r.line < s.get R.HBM_CFG.FWD_LINES
  · rw [if_pos hline, if_neg (fun h => h.1 hline)]
    rfl
  by_cases hwrite : r.write = true
  · rw [if_neg hline, if_pos hwrite, if_pos ⟨hline, hwrite⟩]
    rfl
  have hno : ¬ (¬ r.line < s.get R.HBM_CFG.FWD_LINES ∧ r.write = true) := fun h => hwrite h.2
  rw [if_neg hline, if_neg hwrite, if_neg hno]
  split
  · rw [State.lineFails_mem]
    rfl
  · unfold State.keepRead
    split <;> rfl

/-- A request that does not fail changes the memories alone. -/
theorem State.serveReq_quiet (s : State) {r : MemReq}
    (h : r.write = false → s.get R.HBM_CFG.FWD_LINES ≤ r.line → s.mem.bad.contains r.key = false) :
    s.serveReq r = { s with mem := (s.serveReq r).mem } := by
  rw [State.serveReq_eq]
  split
  · rfl
  rename_i hline
  split
  · rfl
  rename_i hwrite
  rw [if_neg (by rw [h (by simpa using hwrite) (by omega)]; decide)]
  unfold State.keepRead
  split <;> rfl

/-- A read of the bulk mover returns the line. -/
theorem State.serveReq_got (s : State) {r : MemReq} (hwrite : r.write = false) (hline : s.get R.HBM_CFG.FWD_LINES ≤ r.line)
    (hbad : s.mem.bad.contains r.key = false) (hcls : r.cls = 0) :
    (s.serveReq r).mem.got = s.mem.got ++ [(r.who, r.key, s.dynLine r.q r.line)] := by
  rw [State.serveReq_eq, if_neg (by omega), if_neg (by simp [hwrite]), if_neg (by rw [hbad]; decide), State.keepRead, if_pos hcls]
  rfl

theorem State.serveReq_fails (s : State) {r : MemReq} (hwrite : r.write = false) (hline : s.get R.HBM_CFG.FWD_LINES ≤ r.line)
    (hbad : s.mem.bad.contains r.key = true) : s.serveReq r = (s.unqueueReq r).lineFails r.q r.line r.cls r.who := by
  rw [State.serveReq_eq, if_neg (by omega), if_neg (by simp [hwrite]), if_pos hbad]

theorem State.openRow_setRow (s : State) (q bank : Nat) (r : Option Nat) : (s.setRow q bank r).openRow q bank = r := by
  unfold State.openRow State.setRow
  dsimp only
  rw [SMap.find_put_same]
  cases r <;> rfl

theorem State.openRow_settle (s : State) (q bank : Nat) : s.settle.openRow q bank = s.openRow q bank := by
  rw [State.openRow, State.settle_mem, State.openRow]

/-! ### The request that a bank takes -/

theorem bankHeads_group {q bank : Nat} {l seen : List MemReq} {r : MemReq} (h : r ∈ bankHeads q bank seen l) : r.q = q := by
  induction l generalizing seen with
  | nil => simp [bankHeads] at h
  | cons x l ih =>
    unfold bankHeads at h
    split at h
    · rename_i hx
      obtain rfl | h := List.mem_cons.mp h
      · exact hx.1
      · exact ih h
    · exact ih h

theorem State.chooseReq_group {s : State} {q bank : Nat} {r : MemReq} (h : s.chooseReq q bank = some r) : r.q = q := by
  unfold State.chooseReq at h
  dsimp only at h
  refine bankHeads_group (bank := bank) (seen := []) (l := s.mem.queue) ?_
  split at h
  · rename_i x l hl
    cases h
    exact (List.mem_filter.mp (hl ▸ List.mem_cons_self)).1
  split at h
  · rename_i x hx
    cases h
    exact (List.mem_filter.mp (List.mem_of_find?_eq_some hx)).1
  · exact (List.mem_filter.mp (List.mem_of_head? h)).1

/-! ### Refresh -/

theorem State.refreshing_settle (s : State) (q : Nat) : s.settle.refreshing q = s.refreshing q := by
  rw [State.refreshing, State.settle_mem, State.refreshing]

theorem State.beginRefresh_shows (s : State) (q bank : Nat) : (s.beginRefresh q bank).refreshing q = bank + 1 ∧
    (s.beginRefresh q bank).openRow q bank = none ∧ SMap.find (fun _ => 0) (s.beginRefresh q bank).mem.refreshTb q = s.tb + 1 ∧
    (s.beginRefresh q bank).mem.due = s.mem.due :=
  ⟨SMap.find_put_same _ _ _ _, State.openRow_setRow _ _ _ _, SMap.find_put_same _ _ _ _, rfl⟩

theorem State.beginRefresh_other (s : State) {q p : Nat} (bank : Nat) (h : p ≠ q) : (s.beginRefresh q bank).refreshing p = s.refreshing p :=
  SMap.find_put_other _ _ _ _ _ h

theorem partnerPc_ne (q : Nat) : partnerPc q ≠ q := by
  unfold partnerPc partner
  omega

theorem partnerPc_partnerPc {q : Nat} (h : q < 256) : partnerPc (partnerPc q) = q := by
  unfold partnerPc partner
  omega

theorem State.mayRefresh_iff (s : State) (q : Nat) : s.mayRefresh q = true ↔
    s.refreshing q = 0 ∧ s.refreshing (partnerPc q) = 0 ∧ s.get (R.HBM_STACK.STATE (partner (q / 32))) ≠ 1 := by
  unfold State.mayRefresh
  rw [Bool.and_eq_true, Bool.and_eq_true, beq_iff_eq, beq_iff_eq, bne_iff_ne, and_assoc]

/-- A bank's refresh is over. -/
def State.endRefresh (s : State) (q : Nat) : State := { s with mem := { s.mem with refresh := s.mem.refresh.put (fun _ => 0) q 0 } }

theorem State.endRefresh_same (s : State) (q : Nat) : (s.endRefresh q).refreshing q = 0 := SMap.find_put_same _ _ _ _

theorem State.endRefresh_other (s : State) {q p : Nat} (h : p ≠ q) : (s.endRefresh q).refreshing p = s.refreshing p := SMap.find_put_other _ _ _ _ _ h

/-- A bank due has left the queue of those that wait. -/
def State.undue (s : State) (d : Nat × Nat) : State := { s with mem := { s.mem with due := s.mem.due.erase d } }

theorem State.startDue_none {s : State} {q : Nat} (h : (s.mem.due.find? fun d => d.1 == q) = none) : s.startDue q = s := by
  simp only [State.startDue, h]

theorem State.startDue_some {s : State} {q : Nat} {d : Nat × Nat} (h : (s.mem.due.find? fun d => d.1 == q) = some d) (hmay : s.mayRefresh q = true) :
    s.startDue q = (s.undue d).beginRefresh q d.2 := by
  simp only [State.startDue, h, hmay, if_true]
  rfl

/-- Nothing begins where it may not. -/
theorem State.startDue_idle {s : State} {q : Nat} (hmay : s.mayRefresh q = false) : s.startDue q = s := by
  unfold State.startDue
  split
  · rw [hmay]
    rfl
  · rfl

/-- No bank of the pair is due: the end of a refresh begins none. -/
theorem State.startPair_none {s : State} {q : Nat} (h : ∀ d ∈ s.mem.due, d.1 ≠ q ∧ d.1 ≠ partnerPc q) : s.startPair q = s := by
  have hnone : ∀ a, a = q ∨ a = partnerPc q → (s.mem.due.find? fun d => d.1 == a) = none := fun a ha => by
    refine List.find?_eq_none.mpr fun d hd hda => ?_
    have hda := beq_iff_eq.mp hda
    obtain ⟨hq, hp⟩ := h d hd
    obtain rfl | rfl := ha
    · exact hq hda
    · exact hp hda
  unfold State.startPair
  rw [State.startDue_none (hnone _ (by omega)), State.startDue_none (hnone _ (by omega))]

/-- A bank of the lower-numbered group that is due begins, and then none of its partner's can (R422, R425). -/
theorem State.startPair_some {s : State} {q : Nat} (hq : q < 256) {d : Nat × Nat} (hown : s.refreshing q = 0) (hpartner : s.refreshing (partnerPc q) = 0)
    (hdue : (s.mem.due.find? fun x => x.1 == min q (partnerPc q)) = some d)
    (hstack : s.get (R.HBM_STACK.STATE (partner (min q (partnerPc q) / 32))) ≠ 1) :
    s.startPair q = (s.undue d).beginRefresh (min q (partnerPc q)) d.2 := by
  have hback := partnerPc_partnerPc hq
  have hother : partnerPc (max q (partnerPc q)) = min q (partnerPc q) ∧ partnerPc (min q (partnerPc q)) = max q (partnerPc q) := by
    by_cases h : q ≤ partnerPc q
    · rw [Nat.min_eq_left h, Nat.max_eq_right h]
      exact ⟨hback, rfl⟩
    · rw [Nat.min_eq_right (by omega), Nat.max_eq_left (by omega)]
      exact ⟨rfl, hback⟩
  have hidle : ∀ a, a = q ∨ a = partnerPc q → s.refreshing a = 0 := by
    rintro a (rfl | rfl)
    · exact hown
    · exact hpartner
  have hmay : s.mayRefresh (min q (partnerPc q)) = true :=
    (s.mayRefresh_iff _).mpr ⟨hidle _ (by omega), hother.2 ▸ hidle _ (by omega), hstack⟩
  unfold State.startPair
  rw [State.startDue_some hdue hmay]
  refine State.startDue_idle (Bool.eq_false_iff.mpr fun h => ?_)
  obtain ⟨-, hzero, -⟩ := (State.mayRefresh_iff _ _).mp h
  rw [hother.1, ((s.undue d).beginRefresh_shows _ _).1] at hzero
  omega

theorem State.fallsDue_may {s : State} {q : Nat} (bank : Nat) (h : s.mayRefresh q = true) : s.fallsDue q bank = s.beginRefresh q bank := by
  simp only [State.fallsDue, h, if_true]

/-- The condition under which a bank of the lower-numbered group goes before one that has begun at the same time (R422). -/
def State.goesFirst (s : State) (q : Nat) : Prop :=
  q < partnerPc q ∧ s.refreshing q = 0 ∧ s.refreshing (partnerPc q) ≠ 0 ∧ SMap.find (fun _ => 0) s.mem.refreshTb (partnerPc q) = s.tb + 1 ∧
    s.get (R.HBM_STACK.STATE (partner (q / 32))) ≠ 1

/-- The bank that had begun waits again. -/
def State.displaced (s : State) (p : Nat) : State :=
  { s with mem := { s.mem with due := (p, s.refreshing p - 1) :: s.mem.due, refresh := s.mem.refresh.put (fun _ => 0) p 0 } }

theorem State.displaced_refreshing (s : State) (p : Nat) : (s.displaced p).refreshing p = 0 := SMap.find_put_same _ _ _ _

theorem State.displaced_due (s : State) (p : Nat) : (s.displaced p).mem.due = (p, s.refreshing p - 1) :: s.mem.due := rfl

theorem State.fallsDue_first {s : State} {q : Nat} (bank : Nat) (h : s.goesFirst q) :
    s.fallsDue q bank = (s.displaced (partnerPc q)).beginRefresh q bank := by
  have hmay : s.mayRefresh q = false := Bool.eq_false_iff.mpr fun hm => h.2.2.1 ((s.mayRefresh_iff q).mp hm).2.1
  unfold State.fallsDue
  dsimp only
  rw [hmay, if_neg (by decide)]
  exact if_pos h

/-- A bank that falls due waits for its turn. -/
def State.waitsDue (s : State) (q bank : Nat) : State := { s with mem := { s.mem with due := s.mem.due ++ [(q, bank)] } }

theorem State.fallsDue_waits {s : State} {q : Nat} (bank : Nat) (hmay : s.mayRefresh q = false) (h : ¬ s.goesFirst q) :
    s.fallsDue q bank = s.waitsDue q bank := by
  unfold State.fallsDue
  dsimp only
  rw [hmay, if_neg (by decide)]
  exact if_neg h

/-! ### The obligation -/

theorem State.lineFails_tb (s : State) (q line cls who : Nat) : (s.lineFails q line cls who).tb = s.tb := by
  have hfail : ∀ u : State, (u.failWho who).tb = u.tb := fun u => ite_keeps (g := State.tb) rfl rfl
  have hlose : ∀ u : State, (if cls = 0 then u.loseLine who (2 ^ 25 * q + line) 1 else u).tb = u.tb := fun u => ite_keeps (g := State.tb) rfl rfl
  unfold State.lineFails
  dsimp only
  rw [hfail, hlose]
  split
  · rfl
  · rw [State.raise_tb, State.sat_tb]

theorem State.serveReq_tb (s : State) (r : MemReq) : (s.serveReq r).tb = s.tb := by
  rw [State.serveReq_eq]
  split
  · rfl
  split
  · rfl
  split
  · rw [State.lineFails_tb]
    rfl
  · unfold State.keepRead
    split <;> rfl

/-- A bank takes a request: the request is served, and the access counts. -/
def State.bankServed (s : State) (q bank : Nat) (r : MemReq) : State := (s.serveReq r).access q bank r.line r.hintOpen

/-- The memories after a bank has served its request. -/
theorem State.bankServed_memories (s : State) (q bank : Nat) (r : MemReq) : (s.bankServed q bank r).mem.queue = s.mem.queue.erase r ∧
    (s.bankServed q bank r).openRow q bank = (if r.hintOpen then some (Config.hbmRow r.line) else none) ∧
    SMap.find (fun _ => 0) (s.bankServed q bank r).mem.accesses q = SMap.find (fun _ => 0) s.mem.accesses q + 1 ∧
    SMap.find (fun _ => 0) (s.bankServed q bank r).mem.touched (64 * q + bank) = s.tb + 1 := by
  have hserved := s.serveReq_served r
  simp only [MemState.served, Prod.mk.injEq] at hserved
  obtain ⟨-, haccesses, -, hqueue⟩ := hserved
  have hcount : SMap.find (fun _ => 0) (s.bankServed q bank r).mem.accesses q = SMap.find (fun _ => 0) (s.serveReq r).mem.accesses q + 1 :=
    SMap.find_put_same _ _ _ _
  have htouched : SMap.find (fun _ => 0) (s.bankServed q bank r).mem.touched (64 * q + bank) = (s.serveReq r).tb + 1 := SMap.find_put_same _ _ _ _
  refine ⟨hqueue, State.openRow_setRow _ _ _ _, ?_, htouched.trans (by rw [State.serveReq_tb])⟩
  rw [hcount, haccesses]
  rfl

/-- Its lines. -/
theorem State.bankServed_lines {s : State} {q : Nat} (bank : Nat) {r : MemReq} (hq : r.q = q) :
    (∀ k, k ≠ 2 ^ 25 * q + r.line → SMap.find (fun _ => 0) (s.bankServed q bank r).mem.hbm k = SMap.find (fun _ => 0) s.mem.hbm k) ∧
    (r.write = true → s.get R.HBM_CFG.FWD_LINES ≤ r.line → (s.bankServed q bank r).dynLine q r.line = r.data) ∧
    (r.write = false → (s.bankServed q bank r).mem.hbm = s.mem.hbm) := by
  have hkey : r.key = 2 ^ 25 * q + r.line := by rw [MemReq.key, hq]
  have hhbm : (s.bankServed q bank r).mem.hbm = (s.serveReq r).mem.hbm := rfl
  rw [State.dynLine, hhbm, State.serveReq_hbm, hkey]
  refine ⟨fun k hk => ?_, fun hwrite hline => ?_, fun hwrite => ?_⟩
  · split
    · exact SMap.find_put_other _ _ _ _ _ hk
    · rfl
  · rw [if_pos ⟨by omega, hwrite⟩, SMap.find_put_same]
  · rw [if_neg (by simp [hwrite])]

/-- A read of a bad line ends as an uncorrectable error (R423). -/
theorem State.bankServed_fails {s : State} {q : Nat} (bank : Nat) {r : MemReq} (hq : r.q = q) (hcore : s.coreUp = true) (hwrite : r.write = false)
    (hline : s.get R.HBM_CFG.FWD_LINES ≤ r.line) (hbad : s.mem.bad.contains (2 ^ 25 * q + r.line) = true) :
    (s.bankServed q bank r).get (R.HBM_ECC.UNCORRECTED (q / 32)) = min (s.get (R.HBM_ECC.UNCORRECTED (q / 32)) + 1) 65535 ∧
      (s.bankServed q bank r).bit (faultBit 31) = true ∧ (r.who ≠ 0 → r.who ∈ (s.bankServed q bank r).mem.failed) := by
  have hkey : s.mem.bad.contains r.key = true := by rw [MemReq.key, hq, hbad]
  have hregs : (s.bankServed q bank r).regs = (((s.unqueueReq r).sat (R.HBM_ECC.UNCORRECTED (q / 32)) 1).raise 31 (q / 32)).regs := by
    rw [← hq, ← State.lineFails_regs (s.unqueueReq r) r.cls r.who hline, ← State.serveReq_fails s hwrite hline hkey]
    rfl
  have hfailed : (s.bankServed q bank r).mem.failed = (s.serveReq r).mem.failed := rfl
  refine ⟨?_, ?_, fun hwho => ?_⟩
  · rw [State.get_of_regs hregs, State.raise_get _ _ _ (by simp only [R.HBM_ECC.UNCORRECTED, raiseReg]; omega),
      State.get_sat_same _ _ _ (of_decide_eq_true rfl)]
    rfl
  · rw [State.bit_of_get (State.get_of_regs hregs _)]
    exact State.raise_latches _ _ _ (by decide) hcore
  · rw [hfailed, State.serveReq_fails s hwrite hline hkey, State.lineFails_mem]
    dsimp only
    rw [if_neg hwho]
    exact List.mem_cons_self

/-- A request that does not fail changes the memories alone, and a read of the bulk mover returns the line. -/
theorem State.bankServed_quiet {s : State} {q : Nat} (bank : Nat) {r : MemReq} (hq : r.q = q)
    (h : r.write = false → s.get R.HBM_CFG.FWD_LINES ≤ r.line → s.mem.bad.contains (2 ^ 25 * q + r.line) = false) :
    (r.write = false → s.get R.HBM_CFG.FWD_LINES ≤ r.line → r.cls = 0 →
      (s.bankServed q bank r).mem.got = s.mem.got ++ [(r.who, 2 ^ 25 * q + r.line, s.dynLine q r.line)]) ∧
    s.bankServed q bank r = { s with mem := (s.bankServed q bank r).mem } := by
  subst hq
  have hgot : (s.bankServed r.q bank r).mem.got = (s.serveReq r).mem.got := rfl
  refine ⟨fun hwrite hline hcls => hgot.trans (s.serveReq_got hwrite hline (h hwrite hline) hcls), ?_⟩
  have haccess : ∀ m : MemState, ({ s with mem := m } : State).access r.q bank r.line r.hintOpen =
      { s with mem := (({ s with mem := m } : State).access r.q bank r.line r.hintOpen).mem } := fun _ => rfl
  rw [State.bankServed, s.serveReq_quiet h]
  exact haccess _

theorem State.dynService_idle {s : State} {q bank : Nat} (h : s.get (R.HBM_STACK.STATE (q / 32)) ≠ 0 ∨
    SMap.find (fun _ => 0) s.mem.refresh q = bank + 1 ∨ (s.chooseReq q bank).isNone = true) : s.dynService q bank = s := by
  unfold State.dynService
  split
  · rfl
  rename_i hno
  have hnone : s.chooseReq q bank = none := by simpa using (not_or.mp hno).2 |> (h.resolve_left (not_or.mp hno).1).resolve_left
  rw [hnone]

theorem wf_bank {q bank : Nat} (hq : q < 256) (hb : bank < 64) : (decide (q < 256) && decide (bank < 64)) = true := by simp [hq, hb]

theorem State.kept_setRow (s : State) (q bank : Nat) (r : Option Nat) :
    s.kept { (s.setRow q bank r).settle with mem := { (s.setRow q bank r).mem with rows := s.mem.rows } } [] fun _ => False :=
  State.kept_memory (x := s.setRow q bank r) (g := fun m => { m with rows := s.mem.rows }) rfl rfl

theorem State.kept_beginRefresh (s : State) (q bank : Nat) :
    s.kept { (s.beginRefresh q bank).settle with mem := { (s.beginRefresh q bank).mem with
      refresh := s.mem.refresh, refreshTb := s.mem.refreshTb, rows := s.mem.rows } } [] fun _ => False :=
  State.kept_memory (x := s.beginRefresh q bank)
    (g := fun m => { m with refresh := s.mem.refresh, refreshTb := s.mem.refreshTb, rows := s.mem.rows }) rfl rfl

theorem State.kept_endRefresh (s : State) (q : Nat) :
    s.kept { (s.endRefresh q).settle with mem := { (s.endRefresh q).mem with refresh := s.mem.refresh } } [] fun _ => False :=
  State.kept_memory (x := s.endRefresh q) (g := fun m => { m with refresh := s.mem.refresh }) rfl rfl

theorem State.kept_waitsDue (s : State) (q bank : Nat) :
    s.kept { (s.waitsDue q bank).settle with mem := { (s.waitsDue q bank).mem with due := s.mem.due } } [] fun _ => False :=
  State.kept_memory (x := s.waitsDue q bank) (g := fun m => { m with due := s.mem.due }) rfl rfl

/-- Settles O36, by what serving a request leaves and by the rules about the refreshes of a pair of pseudo-channels. -/
theorem banksServe : Obligations.BanksServe := by
  unfold Obligations.BanksServe
  refine ⟨?_, ?_, ?_, ?_, ?_⟩
  · intro s q bank r hq hb hcore hstack hrefresh hr
    have hgroup := State.chooseReq_group hr
    have hrun : (if s.coreUp then s.dynService q bank else s) = s.bankServed q bank r := by
      rw [if_pos hcore, State.dynService, if_neg (not_or.mpr ⟨not_not.mpr hstack, hrefresh⟩), hr]
      rfl
    refine ⟨_, complete_of_eq (wf_bank hq hb) hrun, ?_⟩
    obtain ⟨hqueue, hrow, haccesses, htouched⟩ := s.bankServed_memories q bank r
    obtain ⟨hother, hwrite, hread⟩ := State.bankServed_lines (s := s) bank hgroup
    rw [State.openRow_settle, State.dynLine, State.settle_mem]
    refine ⟨hqueue, hrow, haccesses, htouched, hother, hwrite, hread, fun hw hl hbad => ?_, fun h => ?_⟩
    · obtain ⟨hcount, hfault, hfailed⟩ := State.bankServed_fails bank hgroup hcore hw hl hbad
      rw [State.settle_get _ (by simp only [R.HBM_ECC.UNCORRECTED, followReg]; omega), State.settle_bit _ (by decide)]
      exact ⟨hcount, hfault, hfailed⟩
    · obtain ⟨hgot, hquiet⟩ := State.bankServed_quiet bank hgroup h
      refine ⟨hgot, ?_⟩
      exact State.kept_memory (g := fun _ => s.mem) hquiet rfl
  · intro s q bank hq hb h
    exact ⟨_, complete_of_eq (wf_bank hq hb) ((ite_congr rfl (fun _ => State.dynService_idle h) fun _ => rfl).trans (ite_self s)), s.kept_settle⟩
  · intro s q bank hq hb hcore
    refine ⟨fun hidle => ?_, fun hidle => ?_⟩
    · refine ⟨_, complete_of_eq (wf_bank hq hb) (if_pos (by rw [hcore, hidle]; rfl)), ?_⟩
      rw [State.openRow_settle, State.settle_mem]
      refine ⟨State.openRow_setRow _ _ _ _, fun k hk => SMap.find_put_other _ _ _ _ _ hk, ?_⟩
      exact s.kept_setRow q bank none
    · exact ⟨_, complete_of_eq (wf_bank hq hb) (if_neg (by rw [hidle, Bool.and_false]; decide)), s.kept_settle⟩
  · rintro s q bank _ hq hb hcore rfl
    have hrun : (if s.coreUp then s.refreshBank q bank true else s) = s.fallsDue q bank := if_pos hcore
    refine ⟨fun hmay => ?_, fun hlow hown hpartner htb hstack => ?_, fun hmay hnot => ?_⟩
    · obtain ⟨hnow, hrow, htb, -⟩ := s.beginRefresh_shows q bank
      refine ⟨_, complete_of_eq (wf_bank hq hb) (hrun.trans (State.fallsDue_may bank hmay)), ?_⟩
      rw [State.refreshing_settle, State.openRow_settle, State.settle_mem]
      exact ⟨hnow, hrow, htb, s.kept_beginRefresh q bank⟩
    · obtain ⟨hnow, -, -, hdue⟩ := (s.displaced (partnerPc q)).beginRefresh_shows q bank
      refine ⟨_, complete_of_eq (wf_bank hq hb) (hrun.trans (State.fallsDue_first bank ⟨hlow, hown, hpartner, htb, hstack⟩)), ?_⟩
      rw [State.refreshing_settle, State.refreshing_settle, State.settle_mem, State.beginRefresh_other _ _ (partnerPc_ne q)]
      exact ⟨hnow, s.displaced_refreshing _, hdue.trans (s.displaced_due _)⟩
    · refine ⟨_, complete_of_eq (wf_bank hq hb) (hrun.trans (State.fallsDue_waits bank hmay fun h => ?_)), ?_⟩
      · obtain ⟨hlow, hown, hpartner, htb, hstack⟩ := h
        exact hstack (hnot hlow hown hpartner htb)
      · rw [State.settle_mem]
        exact ⟨rfl, s.kept_waitsDue q bank⟩
  · intro s q bank hq hb hcore
    have hrun : (if s.coreUp then s.refreshBank q bank false else s) = if s.refreshing q = bank + 1 then (s.endRefresh q).startPair q else s := if_pos hcore
    refine ⟨fun hown hdue => ?_, fun a d hown hpartner ha hd hstack => ?_, fun hown => ?_⟩
    · refine ⟨_, complete_of_eq (wf_bank hq hb) (hrun.trans ((if_pos hown).trans (State.startPair_none hdue))), ?_⟩
      rw [State.refreshing_settle, State.settle_mem]
      exact ⟨s.endRefresh_same q, s.kept_endRefresh q⟩
    · subst ha
      have hpair := State.startPair_some (s := s.endRefresh q) hq (s.endRefresh_same q) ((s.endRefresh_other (partnerPc_ne q)).trans hpartner) hd hstack
      obtain ⟨hnow, hrow, -, hdue⟩ := ((s.endRefresh q).undue d).beginRefresh_shows (min q (partnerPc q)) d.2
      refine ⟨_, complete_of_eq (wf_bank hq hb) (hrun.trans ((if_pos hown).trans hpair)), ?_⟩
      rw [State.refreshing_settle, State.openRow_settle, State.settle_mem]
      exact ⟨hnow, hrow, hdue⟩
    · exact ⟨_, complete_of_eq (wf_bank hq hb) (hrun.trans (if_neg hown)), s.kept_settle⟩

end Sys2Proof.Machine
end

section
/-! SUPPORT. The retraining of HBM stacks (R424, R425, R601). -/
namespace Sys2Proof.Machine

/-! ### What the refreshes that a retrain postponed leave -/

/-- `t` is `s` with other refreshes, and rows, of the banks. -/
def State.refreshesOnly (s t : State) : Prop :=
  t = { s with mem := { s.mem with refresh := t.mem.refresh, refreshTb := t.mem.refreshTb, rows := t.mem.rows, due := t.mem.due } }

theorem State.refreshesOnly.refl (s : State) : s.refreshesOnly s := rfl

theorem State.refreshesOnly.trans {s t u : State} (h : s.refreshesOnly t) (h' : t.refreshesOnly u) : s.refreshesOnly u := by
  rw [State.refreshesOnly] at h h' ⊢
  rw [h] at h'
  exact h'

theorem State.refreshesOnly_startDue (s : State) (q : Nat) : s.refreshesOnly (s.startDue q) := by
  unfold State.startDue
  split
  · split
    · rfl
    · rfl
  · rfl

theorem State.refreshesOnly_startPair (s : State) (q : Nat) : s.refreshesOnly (s.startPair q) :=
  (s.refreshesOnly_startDue _).trans (State.refreshesOnly_startDue _ _)

theorem State.refreshesOnly_startPostponed (s : State) (m : Nat) : s.refreshesOnly (s.startPostponed m) :=
  List.foldlRecOn _ _ (motive := fun t : State => s.refreshesOnly t) (.refl s) fun _ h _ _ => h.trans (State.refreshesOnly_startPair _ _)

/-- What they do not touch. -/
theorem State.refreshesOnly.parts {s t : State} (h : s.refreshesOnly t) : t.regs = s.regs ∧ t.out = s.out ∧ t.mem.queue = s.mem.queue ∧
    t.mem.failed = s.mem.failed ∧ t.mem.winRetrain = s.mem.winRetrain := by
  rw [h]
  exact ⟨rfl, rfl, rfl, rfl, rfl⟩

theorem State.startPostponed_none {s : State} {m : Nat} (h : ∀ d ∈ s.mem.due, d.1 / 32 ≠ partner m) : s.startPostponed m = s := by
  have hnone : (s.mem.due.filter fun d => d.1 / 32 == partner m) = [] := List.filter_eq_nil_iff.mpr fun d hd => by simpa using h d hd
  rw [State.startPostponed, hnone, List.foldl_nil]

/-! ### A retrain begins -/

/-- When a stack that is due may begin (R424, R425, R601). -/
def State.mayRetrain (s : State) (m : Nat) : Prop :=
  s.retrainDue m = true ∧ s.get (R.HBM_STACK.STATE m) = 0 ∧ s.get (R.HBM_STACK.STATE (partner m)) = 0 ∧
    ((∀ i, i < 32 → s.refreshing (32 * partner m + i) = 0) ∧ ∀ d ∈ s.mem.due, d.1 / 32 ≠ partner m) ∧
    ∀ e ∈ s.mem.trained, e.1 = m ∨ e.2 = 0 ∨ e.2 - 1 + 1000000 ≤ s.ns

/-- The state after the begin. -/
def State.retraining (s : State) (m : Nat) : State :=
  { (s.set (R.HBM_STACK.STATE m) 1) with mem := { s.mem with
    retrains := s.mem.retrains.put (fun _ => 0) m (s.ns + 1)
    trained := s.mem.trained.put (fun _ => 0) m (s.ns + 1)
    corrected := s.mem.corrected.put (fun _ => []) m [] } }

theorem State.clear_iff (s : State) (m : Nat) : (((List.range 32).all fun i => s.refreshing (32 * partner m + i) == 0) &&
    s.mem.due.all fun d => d.1 / 32 != partner m) = true ↔
    (∀ i, i < 32 → s.refreshing (32 * partner m + i) = 0) ∧ ∀ d ∈ s.mem.due, d.1 / 32 ≠ partner m := by
  simp only [Bool.and_eq_true, List.all_eq_true, List.mem_range, beq_iff_eq, bne_iff_ne]

theorem State.apart_iff (s : State) (m : Nat) : (s.mem.trained.all fun e => e.1 == m || e.2 == 0 || decide (e.2 - 1 + 1000000 ≤ s.ns)) = true ↔
    ∀ e ∈ s.mem.trained, e.1 = m ∨ e.2 = 0 ∨ e.2 - 1 + 1000000 ≤ s.ns := by
  simp only [List.all_eq_true, Bool.or_eq_true, beq_iff_eq, decide_eq_true_eq, or_assoc]

theorem State.retrainStart_may {s : State} {m : Nat} (h : s.mayRetrain m) : s.retrainStart m = s.retraining m := by
  obtain ⟨hdue, hown, hpartner, hclear, hapart⟩ := h
  exact if_pos ⟨hdue, hown, hpartner, (s.clear_iff m).mpr hclear, (s.apart_iff m).mpr hapart⟩

theorem State.retrainStart_mayNot {s : State} {m : Nat} (h : ¬ s.mayRetrain m) : s.retrainStart m = s :=
  if_neg fun ⟨hdue, hown, hpartner, hclear, hapart⟩ => h ⟨hdue, hown, hpartner, (s.clear_iff m).mp hclear, (s.apart_iff m).mp hapart⟩

theorem State.retraining_state (s : State) (m : Nat) : (s.retraining m).get (R.HBM_STACK.STATE m) = 1 :=
  State.get_set_same _ _ _ (of_decide_eq_true rfl)

theorem State.retraining_mem (s : State) (m : Nat) : SMap.find (fun _ => 0) (s.retraining m).mem.retrains m = s.ns + 1 ∧
    SMap.find (fun _ => 0) (s.retraining m).mem.trained m = s.ns + 1 ∧ SMap.find (fun _ => []) (s.retraining m).mem.corrected m = [] :=
  ⟨SMap.find_put_same _ _ _ _, SMap.find_put_same _ _ _ _, SMap.find_put_same _ _ _ _⟩

theorem State.kept_retraining (s : State) (m : Nat) : s.kept { (s.retraining m).settle with mem := { (s.retraining m).settle.mem with
    retrains := s.mem.retrains, trained := s.mem.trained, corrected := s.mem.corrected } } [] fun k => k = (R.HBM_STACK.STATE m).off :=
  State.kept_sent (g := fun y : State => { y with mem := { y.mem with
      retrains := s.mem.retrains, trained := s.mem.trained, corrected := s.mem.corrected } }) (x := s.retraining m)
    (fun _ => rfl) (fun _ => rfl) (fun _ => rfl) rfl (List.append_nil _).symm fun _ hk => State.word_set_other (l := R.HBM_STACK.STATE m) s hk

/-! ### A retrain ends -/

/-- The registers of a retrain that has completed. -/
def State.stackRetrained (s : State) (m : Nat) : State :=
  ((s.set (R.HBM_STACK.STATE m) 0).sat (R.HBM_STACK.RETRAINS m) 1).set (R.HBM_STACK.LAST m) (s.retrainNs m / 10)

/-- The memories then. -/
def State.windowLeft (s : State) (m : Nat) (w : Bool) : State :=
  { s with mem := { s.mem with retrains := s.mem.retrains.put (fun _ => 0) m 0, winRetrain := s.mem.winRetrain || w } }

theorem State.retrainDone_eq {s : State} {m : Nat} (h : s.get (R.HBM_STACK.STATE m) = 1 ∧ s.retrainNs m ≤ 20000) :
    s.retrainDone m = ((s.stackRetrained m).windowLeft m (decide (s.mem.winNs + 1000 < s.ns))).startPostponed m := if_pos h

theorem State.stackRetrained_shows (s : State) {m : Nat} (h : s.retrainNs m ≤ 20000) : (s.stackRetrained m).get (R.HBM_STACK.STATE m) = 0 ∧
    (s.stackRetrained m).get (R.HBM_STACK.RETRAINS m) = min (s.get (R.HBM_STACK.RETRAINS m) + 1) 65535 ∧
    (s.stackRetrained m).get (R.HBM_STACK.LAST m) = s.retrainNs m / 10 := by
  unfold State.stackRetrained
  refine ⟨?_, ?_, ?_⟩
  · rw [State.get_set_of_bits (of_decide_eq_true rfl) (of_decide_eq_true rfl), State.sat, State.get_set_of_bits (of_decide_eq_true rfl) (of_decide_eq_true rfl),
      State.get_set_same _ _ _ (of_decide_eq_true rfl)]
    exact Nat.zero_mod _
  · rw [State.get_set_of_bits (of_decide_eq_true rfl) (of_decide_eq_true rfl), State.get_sat_same _ _ _ (of_decide_eq_true rfl),
      State.get_set_of_bits (of_decide_eq_true rfl) (of_decide_eq_true rfl)]
    rfl
  · rw [State.get_set_same _ _ _ (of_decide_eq_true rfl)]
    exact Nat.mod_eq_of_lt (show s.retrainNs m / 10 < 65536 by omega)

theorem State.word_stackRetrained (s : State) (m : Nat) {k : Nat} (hk : k ≠ (R.HBM_STACK.STATE m).off) : (s.stackRetrained m).word k = s.word k := by
  rw [State.stackRetrained, State.word_set_other (l := R.HBM_STACK.LAST m) _ hk, State.sat, State.word_set_other (l := R.HBM_STACK.RETRAINS m) _ hk,
    State.word_set_other (l := R.HBM_STACK.STATE m) _ hk]

/-! ### The requests of a failed stack -/

theorem State.lineFails_allRegs (s : State) (q line cls who : Nat) : (s.lineFails q line cls who).regs =
    (if line < s.get R.HBM_CFG.FWD_LINES then s else (s.sat (R.HBM_ECC.UNCORRECTED (q / 32)) 1).raise 31 (q / 32)).regs := by
  have hfail : ∀ u : State, (u.failWho who).regs = u.regs := fun u => ite_keeps (g := State.regs) rfl rfl
  have hlose : ∀ u : State, (if cls = 0 then u.loseLine who (2 ^ 25 * q + line) 1 else u).regs = u.regs := fun u => ite_keeps (g := State.regs) rfl rfl
  unfold State.lineFails
  dsimp only
  rw [hfail, hlose]

theorem State.lineFails_get (s : State) {q line cls who : Nat} {l : Loc} (hl : l.off ≠ 0x2500200 + 8 * (q / 32)) (hr : ¬ raiseReg l.off) :
    (s.lineFails q line cls who).get l = s.get l := by
  rw [State.get_of_regs (s.lineFails_allRegs q line cls who)]
  split
  · rfl
  · rw [State.raise_get _ _ _ hr]
    exact State.get_set_of_off (l := R.HBM_ECC.UNCORRECTED (q / 32)) hl

/-- Whether a line lies in the dynamic area. -/
def State.dynamic (s : State) (line : Nat) : Bool := decide (s.get R.HBM_CFG.FWD_LINES ≤ line)

theorem State.lineFails_count (s : State) (q line cls who : Nat) : (s.lineFails q line cls who).get (R.HBM_ECC.UNCORRECTED (q / 32)) =
    min (s.get (R.HBM_ECC.UNCORRECTED (q / 32)) + b2n (s.dynamic line)) 65535 := by
  have hlt : s.get (R.HBM_ECC.UNCORRECTED (q / 32)) < 65536 := State.get_lt s _
  by_cases h : s.get R.HBM_CFG.FWD_LINES ≤ line
  · rw [State.get_of_regs (s.lineFails_regs cls who h), State.raise_get _ _ _ (by simp only [R.HBM_ECC.UNCORRECTED, raiseReg]; omega),
      State.get_sat_same _ _ _ (of_decide_eq_true rfl), State.dynamic, decide_eq_true h]
    rfl
  · have hzero : b2n false = 0 := rfl
    rw [State.get_of_regs (s.lineFails_allRegs q line cls who), if_pos (by omega), State.dynamic, decide_eq_false h, hzero]
    omega

theorem State.lineFails_mode (s : State) (q line cls who : Nat) : (s.lineFails q line cls who).coreUp = s.coreUp := by
  have hfail : ∀ u : State, (u.failWho who).coreUp = u.coreUp := fun u => ite_keeps (g := State.coreUp) rfl rfl
  have hlose : ∀ u : State, (if cls = 0 then u.loseLine who (2 ^ 25 * q + line) 1 else u).coreUp = u.coreUp := fun u =>
    ite_keeps (g := State.coreUp) rfl rfl
  unfold State.lineFails
  dsimp only
  rw [hfail, hlose]
  split
  · rfl
  · rw [State.coreUp, State.raise_mode, State.raise_power]
    rfl

/-- Every request of a list ends as an uncorrectable error. -/
def State.allFail (s : State) (l : List MemReq) : State := l.foldl (fun (t : State) r => t.lineFails r.q r.line r.cls r.who) s

theorem State.allFail_keeps {α : Type} (g : State → α) (hg : ∀ u q line cls who, g (State.lineFails u q line cls who) = g u) (s : State) (l : List MemReq) :
    g (s.allFail l) = g s := foldl_keeps (g := g) (fun _ _ => hg _ _ _ _ _) l s

/-- Registers apart from the counts of one stack stay. -/
theorem State.allFail_get {m : Nat} (l : Loc) (hl : l.off ≠ 0x2500200 + 8 * m) (hr : ¬ raiseReg l.off) {rs : List MemReq} (hrs : ∀ r ∈ rs, r.q / 32 = m)
    (s : State) : (s.allFail rs).get l = s.get l :=
  List.foldlRecOn rs _ (motive := fun t : State => t.get l = s.get l) rfl fun t ht r hmem =>
    (t.lineFails_get (by rw [hrs r hmem]; exact hl) hr).trans ht

theorem min_succ_sat (a n : Nat) : min (min (a + 1) 65535 + n) 65535 = min (a + (n + 1)) 65535 := by omega

/-- Each request of the dynamic area is counted. -/
theorem State.allFail_count {m : Nat} {rs : List MemReq} (hrs : ∀ r ∈ rs, r.q / 32 = m) (s : State) :
    (s.allFail rs).get (R.HBM_ECC.UNCORRECTED m) = min (s.get (R.HBM_ECC.UNCORRECTED m) + (rs.filter fun r => s.dynamic r.line).length) 65535 := by
  induction rs generalizing s with
  | nil =>
    have hlt : s.get (R.HBM_ECC.UNCORRECTED m) < 65536 := State.get_lt s _
    have hnone : ([] : List MemReq).filter (fun r => s.dynamic r.line) = [] := List.filter_nil
    rw [hnone, List.length_nil, Nat.add_zero, Nat.min_eq_left (by omega)]
    rfl
  | cons r rs ih =>
    have hm : r.q / 32 = m := hrs r List.mem_cons_self
    have hdynamic : (fun x : MemReq => (s.lineFails r.q r.line r.cls r.who).dynamic x.line) = fun x => s.dynamic x.line := by
      funext x
      have hcfg : (R.HBM_CFG.FWD_LINES).off ≠ 0x2500200 + 8 * (r.q / 32) := by
        simp only [R.HBM_CFG.FWD_LINES]
        omega
      rw [State.dynamic, State.lineFails_get s hcfg (by decide), State.dynamic]
    have hstep : s.allFail (r :: rs) = (s.lineFails r.q r.line r.cls r.who).allFail rs := rfl
    have hcount := s.lineFails_count r.q r.line r.cls r.who
    rw [hm] at hcount
    rw [hstep, ih (fun x hx => hrs x (List.mem_cons_of_mem _ hx)), hcount, hdynamic, List.filter_cons]
    have hzero : b2n false = 0 := rfl
    have hone : b2n true = 1 := rfl
    cases s.dynamic r.line with
    | false =>
      rw [hzero, if_neg (by decide), Nat.add_zero, Nat.min_eq_left (Nat.le_of_lt_succ (State.get_lt s (R.HBM_ECC.UNCORRECTED m)))]
    | true =>
      rw [hone, if_pos rfl, List.length_cons]
      exact min_succ_sat _ _

/-- Each transfer that a request belongs to has failed. -/
theorem State.allFail_failed (s : State) (rs : List MemReq) {r : MemReq} (h : r ∈ rs) (hwho : r.who ≠ 0) : r.who ∈ (s.allFail rs).mem.failed := by
  refine foldl_establishes (P := fun t : State => r.who ∈ t.mem.failed) (a := r) (fun t => ?_) h (fun x _ t ht => ?_) s
  · rw [State.lineFails_mem]
    dsimp only
    rw [if_neg hwho]
    exact List.mem_cons_self
  · rw [State.lineFails_mem]
    dsimp only
    split
    · exact ht
    · exact List.mem_cons_of_mem _ ht

/-- A stack has failed: its requests leave the queue. -/
def State.stackGone (s : State) (m : Nat) : State :=
  { s.set (R.HBM_STACK.STATE m) 2 with mem := { s.mem with
    queue := s.mem.queue.filter fun r => r.q / 32 != m
    winRetrain := true
    retrains := s.mem.retrains.put (fun _ => 0) m 0 } }

/-- The requests of a stack. -/
def State.requestsOf (s : State) (m : Nat) : List MemReq := s.mem.queue.filter fun r => r.q / 32 == m

theorem State.requestsOf_stack {s : State} {m : Nat} {r : MemReq} (h : r ∈ s.requestsOf m) : r.q / 32 = m :=
  beq_iff_eq.mp (List.mem_filter.mp h).2

theorem State.retrainFail_eq {s : State} {m : Nat} (h : s.get (R.HBM_STACK.STATE m) = 1 ∧ 20000 < s.retrainNs m) :
    s.retrainFail m = ((((s.stackGone m).allFail (s.requestsOf m)).raise (240 + m) m).startPostponed m) := if_pos h

/-- The state before the postponed refreshes begin. -/
def State.stackLost (s : State) (m : Nat) : State := ((s.stackGone m).allFail (s.requestsOf m)).raise (240 + m) m

theorem State.stackLost_get {s : State} {m : Nat} {l : Loc} (hl : l.off ≠ 0x2500200 + 8 * m) (hr : ¬ raiseReg l.off) :
    (s.stackLost m).get l = (s.stackGone m).get l := by
  rw [State.stackLost, State.raise_get _ _ _ hr, State.allFail_get l hl hr fun _ => State.requestsOf_stack]

theorem State.stackGone_get (s : State) (m : Nat) (l : Loc) : (s.stackGone m).get l = (s.set (R.HBM_STACK.STATE m) 2).get l := rfl

theorem State.stackGone_mem (s : State) (m : Nat) : (s.stackGone m).mem.queue = s.mem.queue.filter (fun r => r.q / 32 != m) ∧
    (s.stackGone m).mem.winRetrain = true := ⟨rfl, rfl⟩

theorem State.stackGone_core (s : State) (m : Nat) : (s.stackGone m).coreUp = s.coreUp := rfl

/-- What a stack that fails leaves (R424). -/
theorem State.stackLost_shows {s : State} {m : Nat} (hm : m < 8) (hcore : s.coreUp = true) : (s.stackLost m).get (R.HBM_STACK.STATE m) = 2 ∧
    (s.stackLost m).bit (faultBit (240 + m)) = true ∧ (s.stackLost m).mem.queue = s.mem.queue.filter (fun r => r.q / 32 != m) ∧
    (s.stackLost m).mem.winRetrain = true ∧ (∀ r ∈ s.mem.queue, r.q / 32 = m → r.who ≠ 0 → r.who ∈ (s.stackLost m).mem.failed) ∧
    (s.stackLost m).get (R.HBM_ECC.UNCORRECTED m) = min (s.get (R.HBM_ECC.UNCORRECTED m) +
      (s.mem.queue.filter fun r => r.q / 32 == m && decide (s.get R.HBM_CFG.FWD_LINES ≤ r.line)).length) 65535 := by
  have hmem : (s.stackLost m).mem = ((s.stackGone m).allFail (s.requestsOf m)).mem := State.raise_mem _ _ _
  have hqueue : ((s.stackGone m).allFail (s.requestsOf m)).mem.queue = (s.stackGone m).mem.queue :=
    State.allFail_keeps (fun u => u.mem.queue) (fun u _ _ _ _ => by rw [State.lineFails_mem]) _ _
  have hwindow : ((s.stackGone m).allFail (s.requestsOf m)).mem.winRetrain = (s.stackGone m).mem.winRetrain :=
    State.allFail_keeps (fun u => u.mem.winRetrain) (fun u _ _ _ _ => by rw [State.lineFails_mem]) _ _
  have hup : ((s.stackGone m).allFail (s.requestsOf m)).coreUp = (s.stackGone m).coreUp := State.allFail_keeps (fun u => u.coreUp) State.lineFails_mode _ _
  rw [hmem]
  obtain ⟨hleft, hcounted⟩ := s.stackGone_mem m
  refine ⟨?_, ?_, hqueue.trans hleft, hwindow.trans hcounted, fun r hr hrm hwho => ?_, ?_⟩
  · rw [State.stackLost_get (by simp only [R.HBM_STACK.STATE]; omega) (by simp only [R.HBM_STACK.STATE, raiseReg]; omega),
      State.stackGone_get, State.get_set_same _ _ _ (of_decide_eq_true rfl)]
    rfl
  · refine State.raise_latches _ _ _ ?_ (hup.trans ((s.stackGone_core m).trans hcore))
    simp only [sourceListed, Bool.or_eq_true, decide_eq_true_eq]
    omega
  · exact State.allFail_failed _ _ (List.mem_filter.mpr ⟨hr, beq_iff_eq.mpr hrm⟩) hwho
  · have hcfg : (s.stackGone m).get R.HBM_CFG.FWD_LINES = s.get R.HBM_CFG.FWD_LINES := by
      rw [State.stackGone_get]
      exact State.get_set_of_off (l := R.HBM_STACK.STATE m) (by simp only [R.HBM_CFG.FWD_LINES, R.HBM_STACK.STATE]; omega)
    have hbefore : (s.stackGone m).get (R.HBM_ECC.UNCORRECTED m) = s.get (R.HBM_ECC.UNCORRECTED m) := by
      rw [State.stackGone_get]
      exact State.get_set_of_off (l := R.HBM_STACK.STATE m) (by simp only [R.HBM_ECC.UNCORRECTED, R.HBM_STACK.STATE]; omega)
    have hfilter : (s.requestsOf m).filter (fun r => (s.stackGone m).dynamic r.line) =
        s.mem.queue.filter fun r => r.q / 32 == m && decide (s.get R.HBM_CFG.FWD_LINES ≤ r.line) := by
      rw [State.requestsOf, List.filter_filter]
      refine List.filter_congr fun r _ => ?_
      rw [State.dynamic, hcfg, Bool.and_comm]
    rw [State.stackLost, State.raise_get _ _ _ (by simp only [R.HBM_ECC.UNCORRECTED, raiseReg]; omega),
      State.allFail_count fun _ => State.requestsOf_stack, hbefore, hfilter]

/-! ### The obligation -/

theorem State.windowLeft_regs (s : State) (m : Nat) (w : Bool) : (s.windowLeft m w).regs = s.regs := rfl

theorem State.windowLeft_mem (s : State) (m : Nat) (w : Bool) : (s.windowLeft m w).mem.winRetrain = (s.mem.winRetrain || w) ∧
    (s.windowLeft m w).mem.refresh = s.mem.refresh ∧ (s.windowLeft m w).mem.due = s.mem.due := ⟨rfl, rfl, rfl⟩

theorem State.stackRetrained_mem (s : State) (m : Nat) : (s.stackRetrained m).mem = s.mem := rfl

/-- The refreshes that follow a retrain are in the frame of it. -/
theorem State.kept_retrainDone (s : State) (m : Nat) (w : Bool) :
    s.kept { (((s.stackRetrained m).windowLeft m w).startPostponed m).settle with mem := s.mem } [] fun k => k = (R.HBM_STACK.STATE m).off := by
  have hlater := ((s.stackRetrained m).windowLeft m w).refreshesOnly_startPostponed m
  obtain ⟨hregs, hout, -⟩ := hlater.parts
  refine State.kept_sent (g := fun y : State => { y with mem := s.mem }) (fun _ => rfl) (fun _ => rfl) (fun _ => rfl) ?_ ?_ fun k hk => ?_
  · rw [hlater]
    rfl
  · rw [hout, List.append_nil]
    rfl
  · exact (State.word_of_regs (hregs.trans (State.windowLeft_regs _ _ _)) k).trans (s.word_stackRetrained m hk)

/-- What a retrain that completes leaves (R424, R601). -/
theorem State.retrainDone_shows (s : State) {m : Nat} (hns : s.retrainNs m ≤ 20000) (w : Bool) :
    let t := (((s.stackRetrained m).windowLeft m w).startPostponed m).settle
    t.get (R.HBM_STACK.STATE m) = 0 ∧ t.get (R.HBM_STACK.RETRAINS m) = min (s.get (R.HBM_STACK.RETRAINS m) + 1) 65535 ∧
      t.get (R.HBM_STACK.LAST m) = s.retrainNs m / 10 ∧ t.mem.winRetrain = (s.mem.winRetrain || w) ∧
      ((∀ d ∈ s.mem.due, d.1 / 32 ≠ partner m) → t.mem.refresh = s.mem.refresh ∧ t.mem.due = s.mem.due) := by
  obtain ⟨hregs, -, -, -, hwindow⟩ := (((s.stackRetrained m).windowLeft m w).refreshesOnly_startPostponed m).parts
  obtain ⟨hzero, hcount, hlast⟩ := s.stackRetrained_shows hns
  obtain ⟨hleft, hrefresh, hdue⟩ := (s.stackRetrained m).windowLeft_mem m w
  have hget : ∀ l : Loc, l.off = (R.HBM_STACK.STATE m).off →
      (((s.stackRetrained m).windowLeft m w).startPostponed m).settle.get l = (s.stackRetrained m).get l := fun l hl => by
    rw [State.settle_get _ (by rw [hl]; simp only [R.HBM_STACK.STATE, followReg]; omega),
      State.get_of_regs (hregs.trans (State.windowLeft_regs _ _ _))]
  dsimp only
  rw [hget _ rfl, hget (R.HBM_STACK.RETRAINS m) rfl, hget (R.HBM_STACK.LAST m) rfl, State.settle_mem, hwindow, hleft, State.stackRetrained_mem]
  refine ⟨hzero, hcount, hlast, rfl, fun h => ?_⟩
  rw [State.startPostponed_none (s := (s.stackRetrained m).windowLeft m w) (by rw [hdue, State.stackRetrained_mem]; exact h), hrefresh, hdue,
    State.stackRetrained_mem]
  exact ⟨rfl, rfl⟩

theorem wf_stack {m : Nat} (h : m < 8) : decide (m < 8) = true := by simp [h]

/-- Settles O37, by what the beginning and the two ends of a retrain leave, and by what the postponed refreshes do not touch. -/
theorem stacksRetrain : Obligations.StacksRetrain := by
  unfold Obligations.StacksRetrain
  refine ⟨?_, ?_, ?_, ?_⟩
  · intro s m hm hcore hown hpartner hclear hdue hretrain hapart
    obtain ⟨hretrains, htrained, hcorrected⟩ := s.retraining_mem m
    refine ⟨_, complete_of_eq (wf_stack hm) ((if_pos hcore).trans (State.retrainStart_may ⟨hretrain, hown, hpartner, ⟨hclear, hdue⟩, hapart⟩)), ?_, ?_, ?_, ?_,
      s.kept_retraining m⟩
    · rw [State.settle_get _ (by simp only [R.HBM_STACK.STATE, followReg]; omega), State.retraining_state]
    · rw [State.settle_mem, hretrains]
    · rw [State.settle_mem, htrained]
    · rw [State.settle_mem, hcorrected]
  · intro s m hm h
    have hno : ¬ s.mayRetrain m := by
      rintro ⟨hretrain, hown, hpartner, ⟨hclear, hdue⟩, hapart⟩
      obtain h | h | h | ⟨i, hi, h⟩ | ⟨d, hd, h⟩ | ⟨e, he, h1, h2, h3⟩ := h
      · exact h hown
      · exact h hpartner
      · rw [h] at hretrain
        cases hretrain
      · exact h (hclear i hi)
      · exact hdue d hd h
      · obtain h | h | h := hapart e he
        · exact h1 h
        · exact h2 h
        · omega
    exact ⟨_, complete_of_eq (wf_stack hm) ((ite_congr rfl (fun _ => State.retrainStart_mayNot hno) fun _ => rfl).trans (ite_self s)), s.kept_settle⟩
  · intro s m hm hcore hstate hns
    refine ⟨⟨_, complete_of_eq (wf_stack hm) ((if_pos hcore).trans (State.retrainDone_eq ⟨hstate, hns⟩)), ?_⟩,
      _, complete_of_eq (wf_stack hm) ((if_pos hcore).trans (if_neg fun h => absurd h.2 (by omega))), s.kept_settle⟩
    obtain ⟨hzero, hcount, hlast, hwindow, hrefresh⟩ := s.retrainDone_shows hns (decide (s.mem.winNs + 1000 < s.ns))
    exact ⟨hzero, hcount, hlast, hwindow, hrefresh, s.kept_retrainDone m _⟩
  · intro s m hm hcore hstate hns
    refine ⟨⟨_, complete_of_eq (wf_stack hm) ((if_pos hcore).trans (State.retrainFail_eq ⟨hstate, hns⟩)), ?_⟩,
      _, complete_of_eq (wf_stack hm) ((if_pos hcore).trans (if_neg fun h => absurd h.2 (by omega))), s.kept_settle⟩
    obtain ⟨hregs, -, hqueue, hfailed, hwindow⟩ := ((s.stackLost m).refreshesOnly_startPostponed m).parts
    have hget : ∀ l : Loc, ¬ followReg l.off → ((s.stackLost m).startPostponed m).settle.get l = (s.stackLost m).get l := fun l hl => by
      rw [State.settle_get _ hl, State.get_of_regs hregs]
    rw [← State.stackLost, hget _ (by simp only [R.HBM_STACK.STATE, followReg]; omega), hget _ (by simp only [R.HBM_ECC.UNCORRECTED, followReg]; omega),
      State.bit_of_get (hget (faultBit (240 + m)) (by simp only [faultBit, followReg]; omega)), State.settle_mem, hqueue, hwindow, hfailed]
    exact State.stackLost_shows hm hcore

end Sys2Proof.Machine
end

section
/-! SUPPORT. The skew windows of HBM and the scrubber (R193, R417, R423, R426). -/
namespace Sys2Proof.Machine

/-! ### The skew window -/

/-- The first window after. -/
def State.windowBegun (s : State) : State := { s with mem := { s.mem with winNs := s.ns, winRetrain := false, accesses := [] } }

theorem State.skewWindow_retrained {s : State} (h : s.mem.winRetrain = true) : s.skewWindow = s.windowBegun := by
  unfold State.skewWindow
  dsimp only
  rw [h, Bool.true_or, if_pos rfl]
  rfl

/-- The most loaded pseudo-channel is one of the 256. -/
theorem State.mostLoaded_lt (s : State) : s.mostLoaded.1 < 256 :=
  List.foldlRecOn (List.range 256) _ (motive := fun best : Nat × Nat => best.1 < 256) (by decide) fun best hbest q hq => by
    dsimp only
    split
    · exact List.mem_range.mp hq
    · exact hbest

/-- The window is shown. -/
def State.skewShown (s : State) (pc ratio : Nat) : State := (s.set R.HBM_SKEW_STAT.PC pc).set R.HBM_SKEW_STAT.RATIO (min ratio 65535)

/-- The windows above and below the threshold. -/
def State.windowsCounted (s : State) (above below : Nat) : State := { s with mem := { s.mem with above := above, below := below } }

/-- The counts after a window, high or not. -/
def State.windowCounts (s : State) (high : Bool) : Nat × Nat := (if high then s.mem.above + 1 else 0, if high then 0 else s.mem.below + 1)

/-- The skew starts, with its fault, or stops. -/
def State.skewJudged (s : State) (starts stops : Prop) [Decidable starts] [Decidable stops] : State :=
  if starts then (s.setBit R.HBM_SKEW_STAT.ACTIVE true).raise 30 0 else if stops then s.setBit R.HBM_SKEW_STAT.ACTIVE false else s

/-- What a judgement leaves. -/
theorem State.skewJudged_keeps {α : Type} (g : State → α) (hbit : ∀ u b, g (State.setBit u R.HBM_SKEW_STAT.ACTIVE b) = g u)
    (hraise : ∀ u, g (State.raise u 30 0) = g u) (s : State) (starts stops : Prop) [Decidable starts] [Decidable stops] :
    g (s.skewJudged starts stops) = g s := by
  unfold State.skewJudged
  split
  · rw [hraise, hbit]
  split
  · exact hbit _ _
  · rfl

/-- Whether the window lies at or above the threshold. -/
def State.skewHigh (s : State) (ratio : Nat) : Bool := decide (s.get R.HBM_SKEW_CFG.THRESH ≤ ratio)

/-- The window is shown and counted in `k.2`, which a draw may have changed; its skew is `k.1`. -/
def State.skewNotedIn (s : State) (k : Nat × State) : State :=
  (k.2.skewShown s.mostLoaded.1 k.1).windowsCounted (s.windowCounts (s.skewHigh k.1)).1 (s.windowCounts (s.skewHigh k.1)).2

theorem State.skewCounted_of_skew (s : State) : s.skewCounted = (s.skewNotedIn s.skew).skewJudged
    (s.skewHigh s.skew.1 ∧ s.get R.HBM_SKEW_CFG.WINDOWS ≤ (s.windowCounts (s.skewHigh s.skew.1)).1 ∧ s.bit R.HBM_SKEW_STAT.ACTIVE = false)
    (!s.skewHigh s.skew.1 ∧ s.get R.HBM_SKEW_CFG.WINDOWS ≤ (s.windowCounts (s.skewHigh s.skew.1)).2) := rfl

/-- The window is shown and counted. -/
def State.skewNoted (s : State) (ratio : Nat) : State := s.skewNotedIn (ratio, s)

theorem State.skewCounted_eq {s : State} {total ratio : Nat} (htotal : total = (s.mem.accesses.map fun e => e.2).sum) (hpos : 0 < total)
    (hratio : ratio = s.mostLoaded.2 * 65536 / total) : s.skewCounted = (s.skewNoted ratio).skewJudged
      (s.skewHigh ratio ∧ s.get R.HBM_SKEW_CFG.WINDOWS ≤ (s.windowCounts (s.skewHigh ratio)).1 ∧ s.bit R.HBM_SKEW_STAT.ACTIVE = false)
      (!s.skewHigh ratio ∧ s.get R.HBM_SKEW_CFG.WINDOWS ≤ (s.windowCounts (s.skewHigh ratio)).2) := by
  have hskew : s.skew = (ratio, s) := by
    unfold State.skew
    dsimp only
    rw [← htotal, if_neg (by omega), hratio]
  simp only [State.skewCounted_of_skew, hskew, State.skewNoted]

theorem State.skewWindow_counted {s : State} (h : s.mem.winRetrain = false) (hstacks : ∀ m, m < 8 → s.get (R.HBM_STACK.STATE m) ≠ 1)
    (htb : s.skewCounted.tb = s.tb) : s.skewWindow = s.skewCounted.windowBegun := by
  have hidle : ((List.range 8).any fun m => s.get (R.HBM_STACK.STATE m) == 1) = false :=
    List.any_eq_false.mpr fun m hm => by simpa using hstacks m (List.mem_range.mp hm)
  have hns : s.skewCounted.ns = s.ns := by rw [State.ns, htb, State.ns]
  unfold State.skewWindow State.windowBegun
  dsimp only
  rw [h, hidle, Bool.false_or, if_neg (by decide), hns]

theorem State.windowsCounted_get (s : State) (above below : Nat) (l : Loc) : (s.windowsCounted above below).get l = s.get l := rfl

theorem State.skewNoted_eq (s : State) (ratio : Nat) : s.skewNoted ratio =
    (s.skewShown s.mostLoaded.1 ratio).windowsCounted (s.windowCounts (s.skewHigh ratio)).1 (s.windowCounts (s.skewHigh ratio)).2 := rfl

theorem State.skewNoted_tb (s : State) (ratio : Nat) : (s.skewNoted ratio).tb = s.tb := rfl

theorem State.skewNoted_shows (s : State) (ratio : Nat) : (s.skewNoted ratio).get R.HBM_SKEW_STAT.PC = s.mostLoaded.1 ∧
    (s.skewNoted ratio).get R.HBM_SKEW_STAT.RATIO = min ratio 65535 ∧
    (s.skewNoted ratio).bit R.HBM_SKEW_STAT.ACTIVE = s.bit R.HBM_SKEW_STAT.ACTIVE := by
  have hget : ∀ l, (s.skewNoted ratio).get l = (s.skewShown s.mostLoaded.1 ratio).get l := fun l => by
    rw [State.skewNoted_eq, State.windowsCounted_get]
  have hpc := s.mostLoaded_lt
  refine ⟨?_, ?_, State.bit_of_get ?_⟩
  · rw [hget, State.skewShown, State.get_set_of_bits (by decide) (by decide), State.get_set_same _ _ _ (by decide)]
    exact Nat.mod_eq_of_lt hpc
  · rw [hget, State.skewShown, State.get_set_same _ _ _ (by decide)]
    exact Nat.mod_eq_of_lt (show min ratio 65535 < 65536 by omega)
  · rw [hget, State.skewShown, State.get_set_of_bits (by decide) (by decide), State.get_set_of_bits (by decide) (by decide)]

theorem State.skewNoted_mem (s : State) (ratio : Nat) : (s.skewNoted ratio).mem.above = (s.windowCounts (s.skewHigh ratio)).1 ∧
    (s.skewNoted ratio).mem.below = (s.windowCounts (s.skewHigh ratio)).2 := ⟨rfl, rfl⟩

/-- The window after a judgement: what the judgement does not touch. -/
theorem State.skewJudged_get {s : State} {starts stops : Prop} [Decidable starts] [Decidable stops] {l : Loc} (hr : ¬ raiseReg l.off)
    (hl : l.off ≠ R.HBM_SKEW_STAT.ACTIVE.off ∨ (l.lo + l.w ≤ 64 ∧ (R.HBM_SKEW_STAT.ACTIVE.lo + R.HBM_SKEW_STAT.ACTIVE.w ≤ l.lo ∨ l.lo + l.w ≤ R.HBM_SKEW_STAT.ACTIVE.lo))) :
    (s.skewJudged starts stops).get l = s.get l :=
  State.skewJudged_keeps (fun u => u.get l) (fun _ _ => State.get_set_apart hl) (fun _ => State.raise_get _ _ _ hr) s starts stops

theorem State.skewJudged_starts {s : State} {starts stops : Prop} [Decidable starts] [Decidable stops] (hcore : s.coreUp = true) (h : starts) :
    (s.skewJudged starts stops).bit R.HBM_SKEW_STAT.ACTIVE = true ∧ (s.skewJudged starts stops).bit (faultBit 30) = true := by
  rw [State.skewJudged, if_pos h]
  refine ⟨?_, State.raise_latches _ _ _ (by decide) hcore⟩
  rw [State.bit_of_get (State.raise_get _ _ _ (by decide))]
  exact State.bit_setBit_same _ _ _ rfl (by decide)

theorem State.skewJudged_stops {s : State} {starts stops : Prop} [Decidable starts] [Decidable stops] (hno : ¬ starts) (h : stops) :
    (s.skewJudged starts stops).bit R.HBM_SKEW_STAT.ACTIVE = false := by
  rw [State.skewJudged, if_neg hno, if_pos h]
  exact State.bit_setBit_same _ _ _ rfl (by decide)

theorem State.skewJudged_neither {s : State} {starts stops : Prop} [Decidable starts] [Decidable stops] (hno : ¬ starts) (hgo : ¬ stops) :
    s.skewJudged starts stops = s := by
  rw [State.skewJudged, if_neg hno, if_neg hgo]

/-! ### The scrubber -/

/-- 1 + the ns at which the pass that reads the next line of a group began. -/
def State.passBegan (s : State) (g : Nat) : Nat := if (s.scrubbed g).1 = 0 then s.ns + 1 else (s.scrubbed g).2

/-- The pass of a group stands at `x`. -/
def State.passAt (s : State) (g : Nat) (x : Nat × Nat) : State :=
  { s with mem := { s.mem with scrubs := s.mem.scrubs.put (fun _ => (0, 0)) g x } }

/-- A line of a group's pass is read, and the pass is not over. -/
def State.scrubNoted (s : State) (g : Nat) : State := s.passAt g ((s.scrubbed g).1 + 1, s.passBegan g)

/-- The pass is over. -/
def State.scrubEnded (s : State) (g : Nat) : State := (s.passAt g (0, s.passBegan g)).sat (R.HBM_ECC.PASSES g) 1

theorem State.scrubPass_notes {s : State} {g : Nat} (h : (s.scrubbed g).1 + 1 < groupLines) : s.scrubPass g = s.scrubNoted g := by
  unfold State.scrubPass State.scrubNoted State.passAt State.passBegan
  dsimp only
  rw [decide_eq_false (by omega), if_neg (by decide), if_neg (by decide)]

theorem State.scrubPass_ends {s : State} {g : Nat} (h : groupLines ≤ (s.scrubbed g).1 + 1) : s.scrubPass g = s.scrubEnded g := by
  unfold State.scrubPass State.scrubEnded State.passAt State.passBegan
  dsimp only
  rw [decide_eq_true h, if_pos rfl, if_pos rfl]

theorem State.scrubNoted_regs (s : State) (g : Nat) : (s.scrubNoted g).regs = s.regs := rfl

theorem State.scrubNoted_mem (s : State) (g : Nat) : (s.scrubNoted g).mem.bad = s.mem.bad ∧ (s.scrubNoted g).mem.corrected = s.mem.corrected ∧
    (s.scrubNoted g).mem.rows = s.mem.rows ∧ (s.scrubNoted g).mem.accesses = s.mem.accesses := ⟨rfl, rfl, rfl, rfl⟩

theorem State.scrubNoted_scrubbed (s : State) (g : Nat) : (s.scrubNoted g).scrubbed g =
    ((s.scrubbed g).1 + 1, if (s.scrubbed g).1 = 0 then s.ns + 1 else (s.scrubbed g).2) := SMap.find_put_same _ _ _ _

theorem State.scrubEnded_scrubbed (s : State) (g : Nat) : ((s.scrubEnded g).scrubbed g).1 = 0 :=
  congrArg Prod.fst (SMap.find_put_same (fun _ => (0, 0)) s.mem.scrubs g (0, s.passBegan g))

/-- The scrub read is an access that closes the row. -/
def State.scrubAccess (s : State) (q line : Nat) : State := s.access q (Config.hbmBank line % 64) line false

theorem State.scrubAccess_parts (s : State) (q line : Nat) : (s.scrubAccess q line).openRow q (Config.hbmBank line % 64) = none ∧
    SMap.find (fun _ => 0) (s.scrubAccess q line).mem.accesses q = SMap.find (fun _ => 0) s.mem.accesses q + 1 :=
  ⟨State.openRow_setRow _ _ _ _, SMap.find_put_same _ _ _ _⟩

theorem State.scrubAccess_other (s : State) (q line : Nat) : (s.scrubAccess q line).mem.scrubs = s.mem.scrubs ∧
    (s.scrubAccess q line).mem.corrected = s.mem.corrected ∧ (s.scrubAccess q line).mem.bad = s.mem.bad ∧ (s.scrubAccess q line).regs = s.regs ∧
    (s.scrubAccess q line).tb = s.tb := ⟨rfl, rfl, rfl, rfl, rfl⟩

/-- An uncorrectable line of the dynamic area comes to hold the pattern. -/
def State.scrubLost (s : State) (q line : Nat) : State :=
  { s.lineFails q line 1 0 with mem := { (s.lineFails q line 1 0).mem with bad := (2 ^ 25 * q + line) :: (s.lineFails q line 1 0).mem.bad } }

section
variable (s : State) (q line : Nat)

theorem State.scrub_good : s.scrub q line 0 = (s.scrubAccess q line).scrubPass (q / 32) := rfl

theorem State.scrub_corrected :
    s.scrub q line 1 = (((s.scrubAccess q line).wrap (R.HBM_ECC.CORRECTED (q / 32)) 1).noteCorrected (q / 32)).scrubPass (q / 32) := rfl

theorem State.scrub_lost (h : s.get R.HBM_CFG.FWD_LINES ≤ line) : s.scrub q line 2 = ((s.scrubAccess q line).scrubLost q line).scrubPass (q / 32) := by
  unfold State.scrub
  dsimp only
  rw [if_neg (by omega)]
  rfl

theorem State.scrub_forward (h : line < s.get R.HBM_CFG.FWD_LINES) :
    s.scrub q line 2 = ((s.scrubAccess q line).scrubForward (q / 32) (32 * line + q % 32)).scrubPass (q / 32) := by
  unfold State.scrub
  dsimp only
  rw [if_pos h]
  rfl

end

/-! ### What a bad entry counts -/

theorem State.captureTbl_get (s : State) (t rep kind k : Nat) {l : Loc} (h : l.off ≠ 0x1A03208) : (s.captureTbl t rep kind k).get l = s.get l := by
  have hset : ∀ (u : State) (m : Loc) (v : Nat), m.off = 0x1A03208 → (u.set m v).get l = u.get l := fun u m v hm => State.get_set_of_off (hm ▸ h)
  have hword : (s.setWord 0x1A03208 0).get l = s.get l := State.get_of_word (State.word_setWord_other _ _ h)
  unfold State.captureTbl
  split
  · rfl
  · rw [hset _ R.TBL_PARITY_CAP.LINE _ rfl, hset _ R.TBL_PARITY_CAP.KIND _ rfl, hset _ R.TBL_PARITY_CAP.TABLE _ rfl, hset _ R.TBL_PARITY_CAP.REPLICA _ rfl,
      hset _ R.TBL_PARITY_CAP.TIER _ rfl, hset _ R.TBL_PARITY_CAP.VALID _ rfl, hword]

theorem State.captureTbl_core (s : State) (t rep kind k : Nat) : (s.captureTbl t rep kind k).coreUp = s.coreUp := by
  unfold State.captureTbl
  split
  · rfl
  · simp only [State.coreUp, State.set_mode, State.set_power, State.setWord_mode, State.setWord_power]

theorem State.wrap_get_same (s : State) (l : Loc) (h : l.lo + l.w ≤ 64) : (s.wrap l 1).get l = (s.get l + 1) % 2 ^ l.w := by
  rw [State.wrap, State.get_set_same _ _ _ h, wrapAdd, Nat.mod_mod]

/-- One bad word of a table is counted, captured and raised (R193). -/
theorem State.meetBad_one (s : State) {t : Nat} (ht : t < 256) (rep kind k : Nat) (hcore : s.coreUp = true) :
    (s.meetBad t rep kind k 1).get (R.TBL_ERRC.PARITY t) = (s.get (R.TBL_ERRC.PARITY t) + 1) % 2 ^ 32 ∧
      (s.meetBad t rep kind k 1).bit (faultBit 19) = true := by
  have hone : s.meetBad t rep kind k 1 = ((s.wrap (R.TBL_ERRC.PARITY t) 1).captureTbl t rep kind k).raise 19 t := rfl
  rw [hone]
  refine ⟨?_, State.raise_latches _ _ _ (by decide) ((State.captureTbl_core _ _ _ _ _).trans hcore)⟩
  rw [State.raise_get _ _ _ (by simp only [R.TBL_ERRC.PARITY, raiseReg]; omega),
    State.captureTbl_get _ _ _ _ _ (by simp only [R.TBL_ERRC.PARITY]; omega), State.wrap_get_same _ _ (of_decide_eq_true rfl)]
  rfl

theorem State.lineFails_latch (s : State) {q line cls who n : Nat} (hn : n < 256) (h : s.bit (faultBit n) = true) :
    (s.lineFails q line cls who).bit (faultBit n) = true := by
  rw [State.bit_of_get (State.get_of_regs (s.lineFails_allRegs q line cls who) _)]
  split
  · exact h
  · refine (raises _ _ _ _ _).latch n hn ?_
    rw [← h]
    exact State.bit_of_get (State.get_set_of_off (l := R.HBM_ECC.UNCORRECTED (q / 32)) (by simp only [faultBit, R.HBM_ECC.UNCORRECTED]; omega))

/-- A write that reaches a controller touches the count of lost lines, and raises, at most. -/
theorem State.memRequest_word (s : State) (r : MemReq) (hw : r.write = true) : (s.memRequest r).regs = s.regs ∨
    s.memRequest r = s.lineFails r.q r.line r.cls r.who := by
  unfold State.memRequest
  dsimp only
  split
  · exact .inr rfl
  · exact .inl rfl

theorem State.forwardWrite_one (s : State) (g line : Nat) : s.forwardWrite [g] line =
    s.memRequest ⟨32 * g + line % 32, line / 32, 3, false, true, 0, s.ns, 0⟩ := rfl

/-- The repair of one replica leaves the counts of tables. -/
theorem State.forwardWrite_get (s : State) (g line : Nat) {l : Loc} (hl : l.off < 0x2500200) (hr : ¬ raiseReg l.off) :
    (s.forwardWrite [g] line).get l = s.get l := by
  rw [State.forwardWrite_one]
  obtain h | h := s.memRequest_word ⟨32 * g + line % 32, line / 32, 3, false, true, 0, s.ns, 0⟩ rfl
  · exact State.get_of_regs h l
  · rw [h]
    exact s.lineFails_get (by omega) hr

theorem State.forwardWrite_latch (s : State) (g line : Nat) {n : Nat} (hn : n < 256) (h : s.bit (faultBit n) = true) :
    (s.forwardWrite [g] line).bit (faultBit n) = true := by
  rw [State.forwardWrite_one]
  obtain hregs | hfails := s.memRequest_word ⟨32 * g + line % 32, line / 32, 3, false, true, 0, s.ns, 0⟩ rfl
  · exact (State.bit_of_get (State.get_of_regs hregs _)).trans h
  · rw [hfails]
    exact s.lineFails_latch hn h

/-- The repair of a replica, or its refusal, leaves the count of bad words and every latch. -/
theorem State.badEntry_one (s : State) {t : Nat} (ht : t < 256) (rep k : Nat) (hcore : s.coreUp = true) :
    (s.badEntry t rep 0 k 1).get (R.TBL_ERRC.PARITY t) = (s.get (R.TBL_ERRC.PARITY t) + 1) % 2 ^ 32 ∧
      (s.badEntry t rep 0 k 1).bit (faultBit 19) = true := by
  obtain ⟨hcount, hfault⟩ := s.meetBad_one ht rep 0 k hcore
  have hsat : ∀ (u : State) (m : Loc), m.off = 0x1A00018 + 0x20 * t → m.lo + m.w ≤ 32 →
      (u.sat m 1).get (R.TBL_ERRC.PARITY t) = u.get (R.TBL_ERRC.PARITY t) ∧ (u.sat m 1).bit (faultBit 19) = u.bit (faultBit 19) := fun u m hm hw =>
    ⟨State.get_set_of_bits (of_decide_eq_true rfl) (.inl hw), State.bit_of_get (State.get_set_of_off (by rw [hm]; simp only [faultBit]; omega))⟩
  have htbl : ∀ (u : State) (x : TblState) (l : Loc), ({ u with tbl := x } : State).get l = u.get l := fun _ _ _ => rfl
  unfold State.badEntry
  dsimp only
  rw [if_neg (by decide)]
  split
  · obtain ⟨hparity, hlatch⟩ := hsat (s.meetBad t rep 0 k 1) (R.TBL_ERRC.REPAIRED t) rfl (of_decide_eq_true rfl)
    refine ⟨?_, ?_⟩
    · rw [htbl, State.forwardWrite_get _ _ _ (by simp only [R.TBL_ERRC.PARITY]; omega) (by simp only [R.TBL_ERRC.PARITY, raiseReg]; omega), hparity, hcount]
    · rw [State.bit_of_get (htbl _ _ _)]
      exact State.forwardWrite_latch _ _ _ (by decide) (hlatch.trans hfault)
  · obtain ⟨hparity, hlatch⟩ := hsat (s.meetBad t rep 0 k 1) (R.TBL_ERRC.UNREPAIRED t) rfl (of_decide_eq_true rfl)
    exact ⟨hparity.trans hcount, hlatch.trans hfault⟩

theorem State.hbmTable_lt {s : State} {g line k : Nat} (h : s.hbmTable g line = some k) : k < 256 :=
  List.mem_range.mp (List.mem_of_find?_eq_some h)

/-! ### The obligation -/

theorem State.windowBegun_shows (s : State) : s.windowBegun.mem.winNs = s.ns ∧ s.windowBegun.mem.accesses = [] ∧
    s.windowBegun.mem.above = s.mem.above ∧ s.windowBegun.mem.below = s.mem.below := ⟨rfl, rfl, rfl, rfl⟩

theorem State.windowBegun_regs (s : State) : s.windowBegun.regs = s.regs := rfl

theorem State.kept_windowBegun (s : State) : s.kept { s.windowBegun.settle with mem := s.mem } [] fun _ => False :=
  State.kept_memory (x := s.windowBegun) (g := fun _ => s.mem) rfl rfl

/-- A window that is counted (R426). -/
theorem State.skewWindow_shows {s : State} {total ratio : Nat} (hcore : s.coreUp = true) (hwindow : s.mem.winRetrain = false)
    (hstacks : ∀ m, m < 8 → s.get (R.HBM_STACK.STATE m) ≠ 1) (htotal : total = (s.mem.accesses.map fun e => e.2).sum) (hpos : 0 < total)
    (hratio : ratio = s.mostLoaded.2 * 65536 / total) :
    let t := s.skewWindow
    t.mem.winNs = s.ns ∧ t.mem.accesses = [] ∧ t.get R.HBM_SKEW_STAT.PC = s.mostLoaded.1 ∧ t.get R.HBM_SKEW_STAT.RATIO = min ratio 65535 ∧
      (s.get R.HBM_SKEW_CFG.THRESH ≤ ratio → t.mem.above = s.mem.above + 1 ∧ t.mem.below = 0 ∧
        (s.get R.HBM_SKEW_CFG.WINDOWS ≤ s.mem.above + 1 → t.bit R.HBM_SKEW_STAT.ACTIVE = true ∧
          (s.bit R.HBM_SKEW_STAT.ACTIVE = false → t.bit (faultBit 30) = true))) ∧
      (ratio < s.get R.HBM_SKEW_CFG.THRESH → t.mem.below = s.mem.below + 1 ∧ t.mem.above = 0 ∧
        (s.get R.HBM_SKEW_CFG.WINDOWS ≤ s.mem.below + 1 → t.bit R.HBM_SKEW_STAT.ACTIVE = false)) := by
  dsimp only
  have hcounted := State.skewCounted_eq htotal hpos hratio
  have hmem : s.skewCounted.mem = (s.skewNoted ratio).mem := by
    rw [hcounted]
    exact State.skewJudged_keeps (fun u => u.mem) (fun _ _ => rfl) (fun u => u.raise_mem 30 0) _ _ _
  have htb : s.skewCounted.tb = s.tb := by
    rw [hcounted, ← s.skewNoted_tb ratio]
    exact State.skewJudged_keeps (fun u => u.tb) (fun _ _ => rfl) (fun u => u.raise_tb 30 0) _ _ _
  have hns : s.skewCounted.ns = s.ns := by rw [State.ns, htb, State.ns]
  obtain ⟨hbegan, hnone, habove, hbelow⟩ := s.skewCounted.windowBegun_shows
  obtain ⟨hpc, hshare, hactive⟩ := s.skewNoted_shows ratio
  obtain ⟨hup, hdown⟩ := s.skewNoted_mem ratio
  rw [State.skewWindow_counted hwindow hstacks htb, hbegan, hnone, habove, hbelow, hmem, hup, hdown, hns,
    State.get_of_regs s.skewCounted.windowBegun_regs, State.get_of_regs s.skewCounted.windowBegun_regs,
    State.bit_of_get (State.get_of_regs s.skewCounted.windowBegun_regs _), State.bit_of_get (State.get_of_regs s.skewCounted.windowBegun_regs _), hcounted,
    State.skewJudged_get (by decide) (.inr (by decide)), State.skewJudged_get (by decide) (.inr (by decide)), hpc, hshare]
  refine ⟨rfl, rfl, rfl, rfl, fun hhigh => ?_, fun hlow => ?_⟩
  · have h : s.skewHigh ratio = true := decide_eq_true hhigh
    rw [h]
    refine ⟨rfl, rfl, fun hw => ?_⟩
    by_cases ha : s.bit R.HBM_SKEW_STAT.ACTIVE = false
    · obtain ⟨hon, hfault⟩ := State.skewJudged_starts (s := s.skewNoted ratio) (stops := (!true) = true ∧ s.get R.HBM_SKEW_CFG.WINDOWS ≤ (s.windowCounts true).2)
        hcore (show (true = true ∧ s.get R.HBM_SKEW_CFG.WINDOWS ≤ (s.windowCounts true).1 ∧ s.bit R.HBM_SKEW_STAT.ACTIVE = false) from ⟨rfl, hw, ha⟩)
      exact ⟨hon, fun _ => hfault⟩
    · rw [State.skewJudged_neither (fun hs => ha hs.2.2) (fun hs => absurd hs.1 (by decide)), hactive]
      exact ⟨by simpa using ha, fun hoff => absurd hoff ha⟩
  · have h : s.skewHigh ratio = false := decide_eq_false (by omega)
    rw [h]
    refine ⟨rfl, rfl, fun hw => ?_⟩
    exact State.skewJudged_stops (fun hs => absurd hs.1 (by decide)) ⟨rfl, hw⟩

section
variable (s : State) (q line : Nat)

theorem State.kept_scrubGood : s.kept { ((s.scrubAccess q line).scrubNoted (q / 32)).settle with mem := s.mem } [] fun _ => False :=
  State.kept_memory (x := (s.scrubAccess q line).scrubNoted (q / 32)) (g := fun _ => s.mem) rfl rfl

/-- A line with a corrected error. -/
def State.scrubCorrected : State :=
  (((s.scrubAccess q line).wrap (R.HBM_ECC.CORRECTED (q / 32)) 1).noteCorrected (q / 32)).scrubNoted (q / 32)

theorem State.scrubCorrected_regs : (s.scrubCorrected q line).regs = ((s.scrubAccess q line).wrap (R.HBM_ECC.CORRECTED (q / 32)) 1).regs := rfl

/-- What neither an access, nor the notes of the scrubber, nor a register write changes, it leaves. -/
theorem State.scrubCorrected_keeps {α : Type} (g : State → α) (hset : ∀ u l v, g (State.set u l v) = g u)
    (hmem : ∀ (u : State) (m : MemState), g { u with mem := m } = g u) : g (s.scrubCorrected q line) = g s := by
  unfold State.scrubCorrected State.scrubNoted State.passAt State.noteCorrected State.wrap
  dsimp only
  rw [hmem, hmem, hset]
  exact hmem s _

theorem State.kept_scrubCorrected : s.kept { (s.scrubCorrected q line).settle with mem := s.mem } [] fun k => k = (R.HBM_ECC.CORRECTED (q / 32)).off := by
  have haccess : (s.scrubAccess q line).regs = s.regs := (s.scrubAccess_other q line).2.2.2.1
  refine State.kept_sent (g := fun y : State => { y with mem := s.mem }) (fun _ => rfl) (fun _ => rfl) (fun _ => rfl) ?_ ?_ fun k hk => ?_
  · exact s.scrubCorrected_keeps q line (fun u => ({ u with mem := s.mem } : State).still) (fun _ _ _ => rfl) fun _ _ => rfl
  · rw [List.append_nil]
    exact s.scrubCorrected_keeps q line (fun u => u.out) (fun _ _ _ => rfl) fun _ _ => rfl
  · rw [State.word_of_regs (s.scrubCorrected_regs q line), State.wrap, State.word_set_other (l := R.HBM_ECC.CORRECTED (q / 32)) _ hk,
      State.word_of_regs haccess]

theorem State.scrubCorrected_shows : (s.scrubCorrected q line).get (R.HBM_ECC.CORRECTED (q / 32)) =
      (s.get (R.HBM_ECC.CORRECTED (q / 32)) + 1) % 2 ^ 32 ∧
    SMap.find (fun _ => []) (s.scrubCorrected q line).mem.corrected (q / 32) =
      (SMap.find (fun _ => []) s.mem.corrected (q / 32)).filter (fun x => decide (s.ns < x + 1000000)) ++ [s.ns] := by
  have hregs := s.scrubCorrected_regs q line
  have haccess : (s.scrubAccess q line).regs = s.regs := (s.scrubAccess_other q line).2.2.2.1
  refine ⟨?_, SMap.find_put_same _ _ _ _⟩
  rw [State.get_of_regs hregs, State.wrap_get_same _ _ (of_decide_eq_true rfl), State.get_of_regs haccess]
  rfl

variable {s}

/-- A line of the dynamic area that is lost (R423). -/
theorem State.scrubLost_shows (hcore : s.coreUp = true) (hline : s.get R.HBM_CFG.FWD_LINES ≤ line) :
    ((s.scrubAccess q line).scrubLost q line).get (R.HBM_ECC.UNCORRECTED (q / 32)) = min (s.get (R.HBM_ECC.UNCORRECTED (q / 32)) + 1) 65535 ∧
      ((s.scrubAccess q line).scrubLost q line).bit (faultBit 31) = true ∧
      ((s.scrubAccess q line).scrubLost q line).mem.bad = (2 ^ 25 * q + line) :: s.mem.bad := by
  have haccess : (s.scrubAccess q line).regs = s.regs := (s.scrubAccess_other q line).2.2.2.1
  have hfwd : (s.scrubAccess q line).get R.HBM_CFG.FWD_LINES ≤ line := by rw [State.get_of_regs haccess]; exact hline
  have hregs : ((s.scrubAccess q line).scrubLost q line).regs =
      (((s.scrubAccess q line).sat (R.HBM_ECC.UNCORRECTED (q / 32)) 1).raise 31 (q / 32)).regs := State.lineFails_regs _ 1 0 hfwd
  have hbad : ((s.scrubAccess q line).scrubLost q line).mem.bad = (2 ^ 25 * q + line) :: ((s.scrubAccess q line).lineFails q line 1 0).mem.bad := rfl
  refine ⟨?_, ?_, ?_⟩
  · rw [State.get_of_regs hregs, State.raise_get _ _ _ (by simp only [R.HBM_ECC.UNCORRECTED, raiseReg]; omega),
      State.get_sat_same _ _ _ (of_decide_eq_true rfl), State.get_of_regs haccess]
    rfl
  · rw [State.bit_of_get (State.get_of_regs hregs _)]
    exact State.raise_latches _ _ _ (by decide) hcore
  · rw [hbad, State.lineFails_mem, (s.scrubAccess_other q line).2.2.1]

/-- A forwarding line that is lost is its table's bad entry (R193). -/
theorem State.scrubForward_shows {k g l : Nat} (hcore : s.coreUp = true) (hk : s.hbmTable g l = some k) :
    (s.scrubForward g l).bit (faultBit 19) = true ∧ (s.scrubForward g l).get (R.TBL_ERRC.PARITY k) = (s.get (R.TBL_ERRC.PARITY k) + 1) % 2 ^ 32 := by
  have hcong : ∀ (u : State) (n : Nat), u.coreUp = true → u.regs = s.regs → (u.badEntry k g 0 n 1).bit (faultBit 19) = true ∧
      (u.badEntry k g 0 n 1).get (R.TBL_ERRC.PARITY k) = (s.get (R.TBL_ERRC.PARITY k) + 1) % 2 ^ 32 := fun u n hu hregs => by
    obtain ⟨hcount, hfault⟩ := u.badEntry_one (State.hbmTable_lt hk) g n hu
    exact ⟨hfault, hcount.trans (by rw [State.get_of_regs hregs])⟩
  unfold State.scrubForward
  rw [hk]
  exact hcong _ _ hcore rfl

end

theorem State.passAt_get (s : State) (g : Nat) (x : Nat × Nat) (l : Loc) : (s.passAt g x).get l = s.get l := rfl

theorem State.scrubPass_get (s : State) (g : Nat) {l : Loc} (h : l.off < 0x2500200) : (s.scrubPass g).get l = s.get l := by
  by_cases hpass : (s.scrubbed g).1 + 1 < groupLines
  · rw [State.scrubPass_notes hpass, State.get_of_regs (State.scrubNoted_regs _ _)]
  · rw [State.scrubPass_ends (by omega), State.scrubEnded]
    exact (State.get_set_of_off (l := R.HBM_ECC.PASSES g) (by simp only [R.HBM_ECC.PASSES]; omega)).trans (State.passAt_get _ _ _ _)

theorem wf_scrub {q line e : Nat} (hq : q < 256) (hl : line < pcLines) (he : e < 3) :
    (decide (q < 256) && decide (line < 18874368) && decide (e < 3)) = true := by
  have hl : line < 18874368 := hl
  simp [hq, hl, he]

/-- Settles O38, by what a window, and each kind of line that the scrubber meets, leave. -/
theorem skewAndScrubReport : Obligations.SkewAndScrubReport := by
  unfold Obligations.SkewAndScrubReport
  refine ⟨?_, ?_, ?_, ?_⟩
  · intro s hcore hns hwindow
    refine ⟨_, complete_of_eq rfl ((if_pos (by rw [hcore, decide_eq_true hns]; rfl)).trans (State.skewWindow_retrained hwindow)), ?_, s.kept_windowBegun⟩
    exact State.settle_mem _
  · intro s total ratio hcore hns hwindow hstacks htotal hpos hratio
    refine ⟨_, complete_of_eq rfl (if_pos (by rw [hcore, decide_eq_true hns]; rfl)), ?_⟩
    rw [State.settle_mem, State.settle_get _ (by decide), State.settle_get _ (by decide), State.settle_bit _ (by decide), State.settle_bit _ (by decide)]
    exact State.skewWindow_shows hcore hwindow hstacks htotal hpos hratio
  · intro s q line bank hq hl hcore hbank hturn hpass
    subst hbank
    have hif : (s.coreUp && s.scrubTurn q line) = true := by rw [hcore, hturn]; rfl
    have hpass' : ((s.scrubAccess q line).scrubbed (q / 32)).1 + 1 < groupLines := hpass
    obtain ⟨hrow, haccesses⟩ := s.scrubAccess_parts q line
    refine ⟨?_, ?_, fun hfwd => ?_, fun hfwd k hk => ?_⟩
    · refine ⟨_, complete_of_eq (wf_scrub hq hl (by decide)) ((if_pos hif).trans ((s.scrub_good q line).trans (State.scrubPass_notes hpass'))), ?_⟩
      rw [State.openRow_settle, State.settle_mem, State.scrubbed, State.settle_mem]
      exact ⟨hrow, haccesses, State.scrubNoted_scrubbed _ _, s.kept_scrubGood q line⟩
    · obtain ⟨hcount, hnoted⟩ := s.scrubCorrected_shows q line
      refine ⟨_, complete_of_eq (wf_scrub hq hl (by decide)) ((if_pos hif).trans ((s.scrub_corrected q line).trans (State.scrubPass_notes hpass'))), ?_⟩
      rw [State.settle_get _ (by simp only [R.HBM_ECC.CORRECTED, followReg]; omega), State.settle_mem]
      exact ⟨hcount, hnoted, s.kept_scrubCorrected q line⟩
    · obtain ⟨hcount, hfault, hbad⟩ := State.scrubLost_shows q line hcore hfwd
      have hlost : (((s.scrubAccess q line).scrubLost q line).scrubbed (q / 32)).1 + 1 < groupLines := by
        have hscrubs : ((s.scrubAccess q line).scrubLost q line).mem.scrubs = s.mem.scrubs := by
          have h : ((s.scrubAccess q line).scrubLost q line).mem.scrubs = ((s.scrubAccess q line).lineFails q line 1 0).mem.scrubs := rfl
          rw [h, State.lineFails_mem]
          rfl
        rw [State.scrubbed, hscrubs]
        exact hpass
      refine ⟨_, complete_of_eq (wf_scrub hq hl (by decide)) ((if_pos hif).trans ((s.scrub_lost q line hfwd).trans (State.scrubPass_notes hlost))), ?_⟩
      rw [State.settle_get _ (by simp only [R.HBM_ECC.UNCORRECTED, followReg]; omega), State.settle_bit _ (by decide), State.settle_mem,
        State.get_of_regs (State.scrubNoted_regs _ _), State.bit_of_get (State.get_of_regs (State.scrubNoted_regs _ _) _), (State.scrubNoted_mem _ _).1]
      exact ⟨hcount, hfault, hbad⟩
    · obtain ⟨hfault, hcount⟩ := State.scrubForward_shows (s := s.scrubAccess q line) hcore hk
      have hk256 := State.hbmTable_lt hk
      have hkeeps : ∀ (u : State) (l : Loc), l.off < 0x1B00000 → (u.scrubPass (q / 32)).settle.get l = u.get l := fun u l hl => by
        rw [State.settle_get _ (by simp only [followReg]; omega), State.scrubPass_get _ _ (by omega)]
      refine ⟨_, complete_of_eq (wf_scrub hq hl (by decide)) ((if_pos hif).trans (s.scrub_forward q line hfwd)), ?_⟩
      exact ⟨(State.bit_of_get (hkeeps _ (faultBit 19) (by decide))).trans hfault,
        (hkeeps _ (R.TBL_ERRC.PARITY k) (by simp only [R.TBL_ERRC.PARITY]; omega)).trans hcount⟩
  · intro s q line hq hl hcore
    refine ⟨fun hturn hpass => ?_, fun hturn e he => ?_⟩
    · have hif : (s.coreUp && s.scrubTurn q line) = true := by rw [hcore, hturn]; rfl
      have haccess : (s.scrubAccess q line).regs = s.regs := (s.scrubAccess_other q line).2.2.2.1
      refine ⟨_, complete_of_eq (wf_scrub hq hl (by decide)) ((if_pos hif).trans ((s.scrub_good q line).trans
        (State.scrubPass_ends (s := s.scrubAccess q line) hpass))), ?_, ?_⟩
      · rw [State.settle_get _ (by simp only [R.HBM_ECC.PASSES, followReg]; omega), State.scrubEnded, State.get_sat_same _ _ _ (of_decide_eq_true rfl),
          State.passAt_get, State.get_of_regs haccess]
        rfl
      · rw [State.scrubbed, State.settle_mem]
        exact State.scrubEnded_scrubbed _ _
    · exact ⟨_, complete_of_eq (wf_scrub hq hl he) (if_neg (by rw [hturn, Bool.and_false]; decide)), s.kept_settle⟩

end Sys2Proof.Machine
end

section
/-! SUPPORT. Far-memory requests and links (R430 to R432). -/
namespace Sys2Proof.Machine

/-! ### A far request ends -/

/-- `t` is `s` but for the memories and the registers of far port `f` that count its requests. -/
def State.farOnly (f : Nat) (s t : State) : Prop :=
  t = { s with regs := t.regs, mem := t.mem } ∧
    ∀ k, ¬ (k = (R.FAR_TAGS.TOTAL f).off ∨ k = (R.FAR_ERR.POISON f).off ∨ k = (R.FAR_LAT.MEAN f).off) → t.word k = s.word k

theorem State.farOnly.refl (f : Nat) (s : State) : State.farOnly f s s := ⟨rfl, fun _ _ => rfl⟩

theorem State.farOnly.trans {f : Nat} {s t u : State} (h : State.farOnly f s t) (h' : State.farOnly f t u) : State.farOnly f s u := by
  obtain ⟨heq, hword⟩ := h
  obtain ⟨heq', hword'⟩ := h'
  refine ⟨?_, fun k hk => (hword' k hk).trans (hword k hk)⟩
  rw [heq] at heq'
  exact heq'

theorem State.farOnly.of_set {f : Nat} (s : State) (l : Loc) (v : Nat)
    (hl : l.off = (R.FAR_TAGS.TOTAL f).off ∨ l.off = (R.FAR_ERR.POISON f).off ∨ l.off = (R.FAR_LAT.MEAN f).off) : State.farOnly f s (s.set l v) :=
  ⟨rfl, fun _ hk => State.word_set_other s fun h => hk (h ▸ hl)⟩

theorem State.farOnly.of_mem {f : Nat} {s t : State} (h : t = { s with mem := t.mem }) : State.farOnly f s t := by
  refine ⟨?_, fun k _ => ?_⟩
  · rw [h]
  · rw [h]
    rfl

/-- The frame of a far request's end. -/
theorem State.farOnly.kept {f : Nat} {s t : State} (h : State.farOnly f s t) : s.kept { t.settle with mem := s.mem } [] fun k =>
    k = (R.FAR_TAGS.TOTAL f).off ∨ k = (R.FAR_ERR.POISON f).off ∨ k = (R.FAR_LAT.MEAN f).off := by
  obtain ⟨heq, hword⟩ := h
  refine State.kept_sent (g := fun y : State => { y with mem := s.mem }) (fun _ => rfl) (fun _ => rfl) (fun _ => rfl) ?_ ?_ hword
  · rw [heq]
    rfl
  · rw [heq, List.append_nil]

section
variable (s : State) {f : Nat} {r : FarReq} {w : Nat} (hport : r.port = f) (hkind : r.kind.who = some w)
include hport hkind

/-- A request that is no window read gives its tag back (R430). -/
theorem State.farRetire_eq : s.farRetire r =
    { s.dec (R.FAR_TAGS.TOTAL f) 1 with mem := { s.mem with far := s.mem.far.erase r } } := by
  obtain ⟨port, id, kind, ns, addr⟩ := r
  subst hport
  cases kind with
  | window k i => cases hkind
  | refill _ => rfl
  | spill _ => rfl
  | service _ => rfl
  | table => cases hkind
  | moverRead _ => rfl
  | moverWrite _ => rfl

theorem State.farOnly_farRetire : State.farOnly f s (s.farRetire r) := by
  rw [s.farRetire_eq hport hkind]
  exact (State.farOnly.of_set s (R.FAR_TAGS.TOTAL f) _ (.inl rfl)).trans (.of_mem rfl)

theorem State.farRetire_get {l : Loc} (hl : l.off ≠ (R.FAR_TAGS.TOTAL f).off) : (s.farRetire r).get l = s.get l := by
  have h : (s.farRetire r).regs = (s.dec (R.FAR_TAGS.TOTAL f) 1).regs := by rw [s.farRetire_eq hport hkind]
  rw [State.get_of_regs h]
  exact State.get_set_of_off hl

theorem State.farRetire_total : (s.farRetire r).get (R.FAR_TAGS.TOTAL f) = s.get (R.FAR_TAGS.TOTAL f) - 1 := by
  have h : (s.farRetire r).regs = (s.dec (R.FAR_TAGS.TOTAL f) 1).regs := by rw [s.farRetire_eq hport hkind]
  have hlt : s.get (R.FAR_TAGS.TOTAL f) < 2 ^ 13 := State.get_lt s _
  rw [State.get_of_regs h, State.dec, State.get_set_same _ _ _ (of_decide_eq_true rfl)]
  exact Nat.mod_eq_of_lt (Nat.lt_of_le_of_lt (Nat.sub_le _ _) hlt)

theorem State.farRetire_mem : (s.farRetire r).mem = { s.mem with far := s.mem.far.erase r } := by rw [s.farRetire_eq hport hkind]

end

section
variable (s : State) (f lat : Nat)

theorem State.farOnly_farLatency : State.farOnly f s (s.farLatency f lat) := by
  have hmem : ∀ m : MemState, State.farOnly f s { s with mem := m } := fun _ => .of_mem rfl
  have hset : ∀ (u : State) (l : Loc) (v : Nat), l.off = (R.FAR_LAT.MEAN f).off → State.farOnly f u (u.set l v) := fun u l v hl =>
    .of_set u l v (.inr (.inr hl))
  unfold State.farLatency State.peak
  dsimp only
  split
  · exact ((hmem _).trans (hset _ (R.FAR_LAT.MEAN f) _ rfl)).trans (hset _ (R.FAR_LAT.PEAK f) _ rfl)
  · exact (hmem _).trans (hset _ (R.FAR_LAT.MEAN f) _ rfl)

theorem State.farLatency_get {l : Loc} (hl : l.off ≠ (R.FAR_LAT.MEAN f).off) : (s.farLatency f lat).get l = s.get l := by
  have hmem : ∀ m : MemState, ({ s with mem := m } : State).get l = s.get l := fun _ => rfl
  have hmean : ∀ (u : State) (v : Nat), (u.set (R.FAR_LAT.MEAN f) v).get l = u.get l := fun _ _ => State.get_set_of_off hl
  have hpeak : ∀ (u : State) (v : Nat), (u.set (R.FAR_LAT.PEAK f) v).get l = u.get l := fun _ _ => State.get_set_of_off (l := R.FAR_LAT.PEAK f) hl
  unfold State.farLatency State.peak
  dsimp only
  split
  · rw [hpeak, hmean, hmem]
  · rw [hmean, hmem]

theorem State.farLatency_mem : (s.farLatency f lat).mem = { s.mem with lats := (s.farLatency f lat).mem.lats } := by
  unfold State.farLatency State.peak
  dsimp only
  split <;> rfl

end

/-- Poison or failure is counted (R432). -/
def State.farCounted (s : State) (f status : Nat) : State :=
  if status = 1 then s.sat (R.FAR_ERR.POISON f) 1 else if status = 2 then s.sat (R.FAR_ERR.FAILED f) 1 else s

theorem State.farOnly_farCounted (s : State) (f status : Nat) : State.farOnly f s (s.farCounted f status) := by
  unfold State.farCounted
  split
  · exact .of_set s (R.FAR_ERR.POISON f) _ (.inr (.inl rfl))
  split
  · exact .of_set s (R.FAR_ERR.FAILED f) _ (.inr (.inl rfl))
  · exact .refl f s

theorem State.farCounted_mem (s : State) (f status : Nat) : (s.farCounted f status).mem = s.mem := by
  unfold State.farCounted
  split
  · rfl
  split <;> rfl

theorem State.farCounted_get (s : State) (f status : Nat) {l : Loc} (hl : l.off ≠ (R.FAR_ERR.POISON f).off) : (s.farCounted f status).get l = s.get l := by
  unfold State.farCounted
  split
  · exact State.get_set_of_off hl
  split
  · exact State.get_set_of_off (l := R.FAR_ERR.FAILED f) hl
  · rfl

theorem State.farCounted_shows (s : State) (f status : Nat) :
    (s.farCounted f status).get (R.FAR_ERR.POISON f) =
      (if status = 1 then min (s.get (R.FAR_ERR.POISON f) + 1) 65535 else s.get (R.FAR_ERR.POISON f)) ∧
    (s.farCounted f status).get (R.FAR_ERR.FAILED f) =
      (if status = 2 then min (s.get (R.FAR_ERR.FAILED f) + 1) 65535 else s.get (R.FAR_ERR.FAILED f)) := by
  unfold State.farCounted
  by_cases h1 : status = 1
  · rw [if_pos h1, if_pos h1, if_neg (by omega), State.get_sat_same _ _ _ (of_decide_eq_true rfl)]
    exact ⟨rfl, State.get_set_of_bits (of_decide_eq_true rfl) (of_decide_eq_true rfl)⟩
  rw [if_neg h1, if_neg h1]
  by_cases h2 : status = 2
  · rw [if_pos h2, if_pos h2, State.get_sat_same _ (R.FAR_ERR.FAILED f) _ (of_decide_eq_true rfl)]
    exact ⟨State.get_set_of_bits (of_decide_eq_true rfl) (of_decide_eq_true rfl), rfl⟩
  · rw [if_neg h2, if_neg h2]
    exact ⟨rfl, rfl⟩

/-! ### What the requester is told -/

/-- What a request of a transfer leaves in the memories as it ends. -/
def State.farTold (s : State) (r : FarReq) (status : Nat) (data : List Byte) : State :=
  match r.kind with
  | .moverRead w =>
    if status = 0 then { s with mem := { s.mem with got := s.mem.got ++ [(w, 2 ^ 33 + r.addr / 64, leVal (slice data 0 64))] } }
    else s.failKind r.kind r.addr status
  | kind => if status = 0 then s else s.failKind kind r.addr status

theorem State.failWho_only (s : State) (who : Nat) : s.failWho who = { s with mem := (s.failWho who).mem } := by
  unfold State.failWho
  split <;> rfl

theorem State.failKind_only (s : State) (kind : FarKind) (a status : Nat) : s.failKind kind a status = { s with mem := (s.failKind kind a status).mem } := by
  cases kind with
  | window k i => rfl
  | table => rfl
  | refill w => exact s.failWho_only w
  | spill w => exact s.failWho_only w
  | service w => exact s.failWho_only w
  | moverRead w => rfl
  | moverWrite w => exact s.failWho_only w

theorem State.farTold_only (s : State) (r : FarReq) (status : Nat) (data : List Byte) : s.farTold r status data = { s with mem := (s.farTold r status data).mem } := by
  unfold State.farTold
  split
  · split
    · rfl
    · exact s.failKind_only _ _ _
  · split
    · rfl
    · exact s.failKind_only _ _ _

theorem State.failWho_mem (s : State) (who : Nat) : (s.failWho who).mem = { s.mem with failed := if who = 0 then s.mem.failed else who :: s.mem.failed } := by
  unfold State.failWho
  split <;> rfl

theorem State.farTold_far (s : State) (r : FarReq) (status : Nat) (data : List Byte) : (s.farTold r status data).mem.far = s.mem.far ∧
    (s.farTold r status data).mem.farWait = s.mem.farWait := by
  have hfail : ∀ kind, (s.failKind kind r.addr status).mem.far = s.mem.far ∧ (s.failKind kind r.addr status).mem.farWait = s.mem.farWait := fun kind => by
    unfold State.failKind
    split
    · exact ⟨rfl, rfl⟩
    split
    · rw [State.failWho_mem]
      exact ⟨rfl, rfl⟩
    · exact ⟨rfl, rfl⟩
  unfold State.farTold
  split
  · split
    · exact ⟨rfl, rfl⟩
    · exact hfail _
  · split
    · exact ⟨rfl, rfl⟩
    · exact hfail _

/-- Every other transfer is marked failed unless its request was good. -/
theorem State.farTold_failed (s : State) {r : FarReq} {w : Nat} (status : Nat) (data : List Byte) (hkind : r.kind.who = some w)
    (hmover : ∀ v, r.kind ≠ .moverRead v) : (s.farTold r status data).mem.failed = if status = 0 ∨ w = 0 then s.mem.failed else w :: s.mem.failed := by
  have htold : s.farTold r status data = if status = 0 then s else s.failWho w := by
    obtain ⟨port, id, kind, ns, addr⟩ := r
    cases kind with
    | window k i => cases hkind
    | table => cases hkind
    | moverRead v => exact absurd rfl (hmover v)
    | refill v => cases hkind; rfl
    | spill v => cases hkind; rfl
    | service v => cases hkind; rfl
    | moverWrite v => cases hkind; rfl
  rw [htold]
  by_cases h : status = 0
  · rw [if_pos h, if_pos (.inl h)]
  · rw [if_neg h, State.failWho_mem]
    simp [h]

/-- A read of the bulk mover returns its line or loses it. -/
theorem State.farTold_mover (s : State) {r : FarReq} {w : Nat} (status : Nat) (data : List Byte) (hkind : r.kind = .moverRead w) :
    (status = 0 → (s.farTold r status data).mem.got = s.mem.got ++ [(w, 2 ^ 33 + r.addr / 64, leVal (slice data 0 64))] ∧
      (s.farTold r status data).mem.lost = s.mem.lost) ∧
    (status ≠ 0 → (s.farTold r status data).mem.lost = s.mem.lost ++ [(w, 2 ^ 33 + r.addr / 64, status)] ∧
      (s.farTold r status data).mem.got = s.mem.got) := by
  obtain ⟨port, id, kind, ns, addr⟩ := r
  subst hkind
  unfold State.farTold
  dsimp only
  refine ⟨fun h => ?_, fun h => ?_⟩
  · rw [if_pos h]
    exact ⟨rfl, rfl⟩
  · rw [if_neg h]
    exact ⟨rfl, rfl⟩

/-- No request waits at a port: none is sent. -/
theorem farHeads_none {f : Nat} {l seen : List FarWait} (h : ∀ x ∈ l, x.port ≠ f) : farHeads f seen l = [] := by
  induction l generalizing seen with
  | nil => rfl
  | cons x l ih =>
    rw [farHeads, if_neg (fun hx => h x List.mem_cons_self hx.1)]
    exact ih fun y hy => h y (List.mem_cons_of_mem _ hy)

theorem State.farDrain_none {s : State} {f : Nat} (h : ∀ x ∈ s.mem.farWait, x.port ≠ f) : s.farDrain f = s := by
  have hnext : s.nextWait f = none := by
    unfold State.nextWait
    dsimp only
    rw [farHeads_none h]
    rfl
  unfold State.farDrain
  cases s.mem.farWait.length with
  | zero => rfl
  | succ n =>
    unfold State.sendWaits
    rw [hnext, ite_self]

/-- The latency of a read shows (R431). -/
def State.farTimed (s : State) (f lat : Nat) (r : FarReq) : State := if r.kind.reads then s.farLatency f lat else s

theorem State.farOnly_farTimed (s : State) (f lat : Nat) (r : FarReq) : State.farOnly f s (s.farTimed f lat r) := by
  unfold State.farTimed
  split
  · exact s.farOnly_farLatency f lat
  · exact .refl f s

theorem State.farTimed_get (s : State) (f lat : Nat) (r : FarReq) {l : Loc} (hl : l.off ≠ (R.FAR_LAT.MEAN f).off) : (s.farTimed f lat r).get l = s.get l := by
  unfold State.farTimed
  split
  · exact s.farLatency_get f lat hl
  · rfl

theorem State.farTimed_mem (s : State) (f lat : Nat) (r : FarReq) : (s.farTimed f lat r).mem = { s.mem with lats := (s.farTimed f lat r).mem.lats } := by
  unfold State.farTimed
  split
  · exact s.farLatency_mem f lat
  · rfl

/-- The state after a request of a transfer has ended. -/
def State.farAnswered (s : State) (f status lat : Nat) (data : List Byte) (r : FarReq) : State :=
  (((s.farRetire r).farTimed f lat r).farCounted f status).farTold r status data

theorem State.farDone_eq {s : State} {f id status lat w : Nat} {data : List Byte} {r : FarReq}
    (hfind : (s.mem.far.find? fun x => x.port == f && x.id == id) = some r) (hkind : r.kind.who = some w) :
    s.farDone f id status lat data = (s.farAnswered f status lat data r).farDrain f := by
  unfold State.farDone
  rw [hfind]
  obtain ⟨port, rid, kind, ns, addr⟩ := r
  cases kind with
  | window k i => cases hkind
  | table => cases hkind
  | refill v => rfl
  | spill v => rfl
  | service v => rfl
  | moverRead v => rfl
  | moverWrite v => rfl

section
variable {s : State} {f status lat w : Nat} {data : List Byte} {r : FarReq} (hport : r.port = f) (hkind : r.kind.who = some w)
include hport hkind

theorem State.farOnly_farAnswered : State.farOnly f s (s.farAnswered f status lat data r) :=
  (((s.farOnly_farRetire hport hkind).trans (State.farOnly_farTimed _ _ _ _)).trans (State.farOnly_farCounted _ _ _)).trans
    (.of_mem (State.farTold_only _ _ _ _))

/-- The memories before the requester is told. -/
theorem State.farCounted_lists : ∃ lats, (((s.farRetire r).farTimed f lat r).farCounted f status).mem = { s.mem with far := s.mem.far.erase r, lats := lats } := by
  rw [State.farCounted_mem, State.farTimed_mem, s.farRetire_mem hport hkind]
  exact ⟨_, rfl⟩

theorem State.farAnswered_far : (s.farAnswered f status lat data r).mem.far = s.mem.far.erase r ∧
    (s.farAnswered f status lat data r).mem.farWait = s.mem.farWait := by
  obtain ⟨lats, hmem⟩ := State.farCounted_lists (s := s) (status := status) (lat := lat) hport hkind
  obtain ⟨hfar, hwait⟩ := (((s.farRetire r).farTimed f lat r).farCounted f status).farTold_far r status data
  rw [State.farAnswered, hfar, hwait, hmem]
  exact ⟨rfl, rfl⟩

/-- The registers of the port (R430, R432). -/
theorem State.farAnswered_regs : (s.farAnswered f status lat data r).get (R.FAR_TAGS.TOTAL f) = s.get (R.FAR_TAGS.TOTAL f) - 1 ∧
    (s.farAnswered f status lat data r).get (R.FAR_ERR.POISON f) =
      (if status = 1 then min (s.get (R.FAR_ERR.POISON f) + 1) 65535 else s.get (R.FAR_ERR.POISON f)) ∧
    (s.farAnswered f status lat data r).get (R.FAR_ERR.FAILED f) =
      (if status = 2 then min (s.get (R.FAR_ERR.FAILED f) + 1) 65535 else s.get (R.FAR_ERR.FAILED f)) := by
  have htold : ∀ (u : State) (l : Loc), (u.farTold r status data).get l = u.get l := fun u l => by
    rw [u.farTold_only r status data]
    rfl
  have hbefore : ∀ l : Loc, l.off = (R.FAR_ERR.POISON f).off → ((s.farRetire r).farTimed f lat r).get l = s.get l := fun l hl => by
    rw [State.farTimed_get _ _ _ _ (by rw [hl]; simp only [R.FAR_ERR.POISON, R.FAR_LAT.MEAN]; omega),
      s.farRetire_get hport hkind (by rw [hl]; simp only [R.FAR_ERR.POISON, R.FAR_TAGS.TOTAL]; omega)]
  obtain ⟨hpoison, hfailed⟩ := ((s.farRetire r).farTimed f lat r).farCounted_shows f status
  rw [State.farAnswered, htold, htold, htold]
  refine ⟨?_, hpoison.trans (by rw [hbefore _ rfl]), hfailed.trans (by rw [hbefore (R.FAR_ERR.FAILED f) rfl])⟩
  rw [State.farCounted_get _ _ _ (by simp only [R.FAR_ERR.POISON, R.FAR_TAGS.TOTAL]; omega),
    State.farTimed_get _ _ _ _ (by simp only [R.FAR_LAT.MEAN, R.FAR_TAGS.TOTAL]; omega), s.farRetire_total hport hkind]

theorem State.farAnswered_failed (hmover : ∀ v, r.kind ≠ .moverRead v) : (s.farAnswered f status lat data r).mem.failed =
    if status = 0 ∨ w = 0 then s.mem.failed else w :: s.mem.failed := by
  obtain ⟨lats, hmem⟩ := State.farCounted_lists (s := s) (status := status) (lat := lat) hport hkind
  rw [State.farAnswered, State.farTold_failed _ status data hkind hmover, hmem]

theorem State.farAnswered_mover (hmover : r.kind = .moverRead w) :
    (status = 0 → (s.farAnswered f status lat data r).mem.got = s.mem.got ++ [(w, 2 ^ 33 + r.addr / 64, leVal (slice data 0 64))] ∧
      (s.farAnswered f status lat data r).mem.lost = s.mem.lost) ∧
    (status ≠ 0 → (s.farAnswered f status lat data r).mem.lost = s.mem.lost ++ [(w, 2 ^ 33 + r.addr / 64, status)] ∧
      (s.farAnswered f status lat data r).mem.got = s.mem.got) := by
  obtain ⟨lats, hmem⟩ := State.farCounted_lists (s := s) (status := status) (lat := lat) hport hkind
  have h := (((s.farRetire r).farTimed f lat r).farCounted f status).farTold_mover status data hmover
  rw [hmem] at h
  exact h

end

/-! ### A far link falls -/

/-- What the end of requests leaves of the registers of a port's link, of the latches and of the mode. -/
def State.linkView (s : State) (f : Nat) : Nat × Nat × Bool := (s.get (R.FAR_PORT.UP f), s.get (R.FAR_ERR.DOWNS f), s.coreUp)

theorem State.linkView_of_mem {s t : State} (f : Nat) (h : t = { s with mem := t.mem }) : t.linkView f = s.linkView f := by
  rw [h]
  rfl

theorem State.linkView_failKind (s : State) (kind : FarKind) (a status f : Nat) : (s.failKind kind a status).linkView f = s.linkView f :=
  State.linkView_of_mem f (s.failKind_only kind a status)

theorem State.linkView_set (s : State) (f : Nat) (l : Loc) (v : Nat) (hu : l.off ≠ 0x2600000 + 0x1000 * f) (hd : l.off ≠ 0x2600018 + 0x1000 * f) :
    (s.set l v).linkView f = s.linkView f := by
  have hup : (s.set l v).get (R.FAR_PORT.UP f) = s.get (R.FAR_PORT.UP f) := State.get_set_of_off (Ne.symm hu)
  have hdowns : (s.set l v).get (R.FAR_ERR.DOWNS f) = s.get (R.FAR_ERR.DOWNS f) := State.get_set_of_off (Ne.symm hd)
  rw [State.linkView, hup, hdowns]
  rfl

theorem State.linkView_farRetire (s : State) (r : FarReq) (f : Nat) (hr : r.port = f) : (s.farRetire r).linkView f = s.linkView f := by
  have hdec : ∀ (u : State) (l : Loc) (k : Nat), l.off = 0x2600020 + 0x1000 * f → (u.dec l k).linkView f = u.linkView f := fun u l k hl =>
    u.linkView_set f l _ (by omega) (by omega)
  have hmem : ∀ (u : State) (m : MemState), ({ u with mem := m } : State).linkView f = u.linkView f := fun u m => State.linkView_of_mem f rfl
  subst hr
  unfold State.farRetire
  dsimp only
  rw [hmem]
  split
  · rw [hdec _ _ _ rfl, hdec _ _ _ rfl]
  · exact hdec _ _ _ rfl

/-- The end of a request takes it off the outstanding ones, and adds nothing. -/
theorem State.farRetire_lists (s : State) (r : FarReq) : (s.farRetire r).mem = { s.mem with far := s.mem.far.erase r } := by
  unfold State.farRetire
  dsimp only
  split <;> rfl

theorem State.failKind_lists (s : State) (kind : FarKind) (a status : Nat) : (s.failKind kind a status).mem.far = s.mem.far ∧
    (s.failKind kind a status).mem.farWait = s.mem.farWait := by
  unfold State.failKind
  split
  · exact ⟨rfl, rfl⟩
  split
  · rw [State.failWho_mem]
    exact ⟨rfl, rfl⟩
  · exact ⟨rfl, rfl⟩

/-- Every outstanding request of a list ends as failed. -/
def State.farEndAll (s : State) (l : List FarReq) : State := l.foldl (fun (t : State) r => (t.farRetire r).failKind r.kind r.addr 2) s

theorem State.farEndAll_far (s : State) (l : List FarReq) : (s.farEndAll l).mem.far = s.mem.far.diff l := by
  induction l generalizing s with
  | nil => rfl
  | cons r l ih =>
    have hstep : s.farEndAll (r :: l) = ((s.farRetire r).failKind r.kind r.addr 2).farEndAll l := rfl
    rw [hstep, ih, (State.failKind_lists _ _ _ _).1, State.farRetire_lists, List.diff_cons]

theorem State.farEndAll_linkView (s : State) {l : List FarReq} {f : Nat} (hl : ∀ r ∈ l, r.port = f) : (s.farEndAll l).linkView f = s.linkView f :=
  List.foldlRecOn l _ (motive := fun t : State => t.linkView f = s.linkView f) rfl fun t ht r hr =>
    (State.linkView_failKind _ _ _ _ _).trans ((t.linkView_farRetire r f (hl r hr)).trans ht)

/-- Every request that waits ends as failed. -/
def State.farFailAll (s : State) (l : List FarWait) : State := l.foldl (fun (t : State) w => t.failKind w.kind w.addr 2) s

theorem State.farFailAll_keeps {α : Type} (g : State → α) (hg : ∀ u kind a st, g (State.failKind u kind a st) = g u) (s : State) (l : List FarWait) :
    g (s.farFailAll l) = g s := foldl_keeps (g := g) (fun _ _ => hg _ _ _ _) l s

/-- The requests that wait at a port leave the queue. -/
def State.farUnwait (s : State) (f : Nat) : State := { s with mem := { s.mem with farWait := s.mem.farWait.filter fun w => w.port != f } }

theorem State.farDown_eq {s : State} {f : Nat} (h : s.bit (R.FAR_PORT.UP f) = true) : s.farDown f =
    let s1 := (s.setBit (R.FAR_PORT.UP f) false).sat (R.FAR_ERR.DOWNS f) 1
    let s2 := s1.farEndAll (s.mem.far.filter fun r => r.port == f)
    let s4 := (((s2.farUnwait f).farFailAll (s2.mem.farWait.filter fun w => w.port == f)).failExtents f).discardSpills f
    (s4.setSpills (s4.buf.spills.filter fun b => b.isOpen || decide (0 < b.live))).raise (224 + f) f := by
  unfold State.farDown
  rw [h]
  rfl

/-- Nothing of far port `f` is left: no request, none that waits, no extent that takes cells. -/
def State.portEmpty (s : State) (f : Nat) : Prop :=
  (∀ r ∈ s.mem.far, r.port ≠ f) ∧ (∀ x ∈ s.mem.farWait, x.port ≠ f) ∧ ∀ b ∈ s.buf.spills, b.onPort f = true → b.isOpen = false

theorem State.linkView_setSpills (s : State) (l : List Spill) (f : Nat) : (s.setSpills l).linkView f = s.linkView f := by
  have hbuf : ∀ b : BufState, ({ s with buf := b } : State).linkView f = s.linkView f := fun _ => rfl
  unfold State.setSpills State.syncSpill
  rw [State.linkView_set _ _ _ _ (by simp only [R.BUF_SPILL_USED.FAR_EXTENTS]; omega) (by simp only [R.BUF_SPILL_USED.FAR_EXTENTS]; omega),
    State.linkView_set _ _ _ _ (by simp only [R.BUF_SPILL_USED.HBM_BLOCKS]; omega) (by simp only [R.BUF_SPILL_USED.HBM_BLOCKS]; omega), hbuf]

/-- Fewer extents, or the same with other cells, leave a port empty. -/
theorem State.portEmpty_setSpills {s : State} {l : List Spill} {f : Nat} (h : s.portEmpty f) (hl : ∀ b ∈ l, b.onPort f = true → b.isOpen = false) :
    (s.setSpills l).portEmpty f := by
  obtain ⟨hfar, hwait, -⟩ := h
  exact ⟨hfar, hwait, hl⟩

/-- Cells given back do not open an extent. -/
theorem closed_updFirst {l : List Spill} {f : Nat} {p : Spill → Bool} (h : ∀ b ∈ l, b.onPort f = true → b.isOpen = false) :
    ∀ b ∈ updFirst p (fun b => { b with live := b.live - 1 }) l, b.onPort f = true → b.isOpen = false := by
  induction l with
  | nil => exact fun b hb => nomatch hb
  | cons a l ih =>
    unfold updFirst
    have hrest := fun b hb => h b (List.mem_cons_of_mem a hb)
    split
    · intro b hb
      obtain rfl | hb := List.mem_cons.mp hb
      · exact h a List.mem_cons_self
      · exact hrest b hb
    · intro b hb
      obtain rfl | hb := List.mem_cons.mp hb
      · exact h b List.mem_cons_self
      · exact ih hrest b hb

theorem State.portEmpty_releaseSpots {s : State} {f : Nat} (far : Bool) (spots : List Nat) (h : s.portEmpty f) : (s.releaseSpots far spots).portEmpty f := by
  refine State.portEmpty_setSpills h fun b hb => ?_
  refine List.foldlRecOn spots _ (motive := fun l : List Spill => ∀ b ∈ l, b.onPort f = true → b.isOpen = false) h.2.2 (fun l hl x _ => ?_) b
    (List.mem_filter.mp hb).1
  exact closed_updFirst hl

theorem State.portEmpty_cancelSpill {s : State} {f : Nat} (p : Pkt) (h : s.portEmpty f) :
    (s.cancelSpill p).1.portEmpty f ∧ (s.cancelSpill p).1.linkView f = s.linkView f := by
  obtain ⟨hfar, hwait, hspills⟩ := h
  refine ⟨State.portEmpty_releaseSpots _ _ ⟨hfar, fun x hx => hwait x (List.mem_filter.mp hx).1, hspills⟩, ?_⟩
  exact (State.linkView_setSpills _ _ f).trans (State.linkView_of_mem f rfl)

/-- The spill writes to a port are discarded, and nothing of the port comes back. -/
theorem State.portEmpty_discardSpills {s : State} {f : Nat} (h : s.portEmpty f) :
    (s.discardSpills f).portEmpty f ∧ (s.discardSpills f).linkView f = s.linkView f := by
  refine List.foldlRecOn s.buf.leaves _ (motive := fun t : State => t.portEmpty f ∧ t.linkView f = s.linkView f) ⟨h, rfl⟩ fun t ht e _ => ?_
  have hleaf : ∀ (u : State) (q : List Pkt), u.portEmpty f ∧ u.linkView f = s.linkView f →
      (u.setLeafQ e.1 q).portEmpty f ∧ (u.setLeafQ e.1 q).linkView f = s.linkView f := fun _ _ hu => hu
  refine hleaf _ _ (List.foldlRecOn e.2 _ (motive := fun x : State × List Pkt => x.1.portEmpty f ∧ x.1.linkView f = s.linkView f) ht fun x hx p _ => ?_)
  dsimp only
  split
  · obtain ⟨hempty, hview⟩ := State.portEmpty_cancelSpill p hx.1
    exact ⟨hempty, hview.trans hx.2⟩
  · exact hx

/-- Failed extents take no more cells. -/
theorem State.portEmpty_failExtents {s : State} {f : Nat} (hfar : ∀ r ∈ s.mem.far, r.port ≠ f) (hwait : ∀ x ∈ s.mem.farWait, x.port ≠ f) :
    (s.failExtents f).portEmpty f := by
  refine ⟨hfar, hwait, fun b hb hon => ?_⟩
  obtain ⟨a, -, ha⟩ := List.mem_map.mp hb
  by_cases h : a.onPort f = true
  · rw [if_pos h] at ha
    rw [← ha]
  · rw [if_neg h] at ha
    rw [← ha] at hon
    exact absurd hon h

/-- What is left of a list from which each element of a kind was taken. -/
theorem mem_diff_filter {l : List FarReq} {f : Nat} {r : FarReq} (h : r ∈ l.diff (l.filter fun x => x.port == f)) : r.port ≠ f := by
  intro hr
  have hcount := List.count_pos_iff.mpr h
  rw [List.count_diff, List.count_filter (by simpa using hr), Nat.sub_self] at hcount
  exact absurd hcount (by decide)

/-- The registers as the link falls. -/
def State.farFallen (s : State) (f : Nat) : State := (s.setBit (R.FAR_PORT.UP f) false).sat (R.FAR_ERR.DOWNS f) 1

theorem State.farFallen_linkView (s : State) (f : Nat) : (s.farFallen f).linkView f = (0, min (s.get (R.FAR_ERR.DOWNS f) + 1) 65535, s.coreUp) := by
  have hup : (s.farFallen f).get (R.FAR_PORT.UP f) = 0 :=
    (State.get_set_of_off (l := R.FAR_ERR.DOWNS f) (by simp only [R.FAR_PORT.UP, R.FAR_ERR.DOWNS]; omega)).trans
      ((State.get_set_same _ (R.FAR_PORT.UP f) _ (of_decide_eq_true rfl)).trans rfl)
  have hdowns : (s.farFallen f).get (R.FAR_ERR.DOWNS f) = min (s.get (R.FAR_ERR.DOWNS f) + 1) 65535 := by
    have hbefore : (s.setBit (R.FAR_PORT.UP f) false).get (R.FAR_ERR.DOWNS f) = s.get (R.FAR_ERR.DOWNS f) :=
      State.get_set_of_off (l := R.FAR_PORT.UP f) (by simp only [R.FAR_PORT.UP, R.FAR_ERR.DOWNS]; omega)
    rw [State.farFallen, State.get_sat_same _ _ _ (of_decide_eq_true rfl), hbefore]
    rfl
  rw [State.linkView, hup, hdowns]
  rfl

/-- The port emptied of its requests. -/
def State.farEmptied (s : State) (f : Nat) : State :=
  let s2 := (s.farFallen f).farEndAll (s.mem.far.filter fun r => r.port == f)
  let s4 := (((s2.farUnwait f).farFailAll (s2.mem.farWait.filter fun w => w.port == f)).failExtents f).discardSpills f
  s4.setSpills (s4.buf.spills.filter fun b => b.isOpen || decide (0 < b.live))

theorem State.farEmptied_shows (s : State) (f : Nat) : (s.farEmptied f).portEmpty f ∧
    (s.farEmptied f).linkView f = (0, min (s.get (R.FAR_ERR.DOWNS f) + 1) 65535, s.coreUp) := by
  unfold State.farEmptied
  dsimp only
  generalize hs2 : (s.farFallen f).farEndAll (s.mem.far.filter fun r => r.port == f) = s2
  generalize hs3 : (s2.farUnwait f).farFailAll (s2.mem.farWait.filter fun w => w.port == f) = s3
  have hfar2 : s2.mem.far = s.mem.far.diff (s.mem.far.filter fun r => r.port == f) := hs2 ▸ State.farEndAll_far _ _
  have hview2 : s2.linkView f = (s.farFallen f).linkView f := hs2 ▸ State.farEndAll_linkView _ fun r hr => beq_iff_eq.mp (List.mem_filter.mp hr).2
  have hfar3 : s3.mem.far = s2.mem.far := hs3 ▸ State.farFailAll_keeps (fun u => u.mem.far) (fun u _ _ _ => (u.failKind_lists _ _ _).1) _ _
  have hwait3 : s3.mem.farWait = s2.mem.farWait.filter fun w => w.port != f :=
    hs3 ▸ State.farFailAll_keeps (fun u => u.mem.farWait) (fun u _ _ _ => (u.failKind_lists _ _ _).2) _ _
  have hview3 : s3.linkView f = s2.linkView f :=
    hs3 ▸ State.farFailAll_keeps (fun u => u.linkView f) (fun u _ _ _ => u.linkView_failKind _ _ _ f) _ _
  have hempty : (s3.failExtents f).portEmpty f := by
    refine State.portEmpty_failExtents (fun r hr => ?_) fun x hx => ?_
    · rw [hfar3, hfar2] at hr
      exact mem_diff_filter hr
    · rw [hwait3] at hx
      exact bne_iff_ne.mp (List.mem_filter.mp hx).2
  obtain ⟨hdone, hview⟩ := State.portEmpty_discardSpills hempty
  refine ⟨State.portEmpty_setSpills hdone fun b hb => hdone.2.2 b (List.mem_filter.mp hb).1, ?_⟩
  rw [State.linkView_setSpills, hview, State.failExtents, State.linkView_setSpills, hview3, hview2, State.farFallen_linkView]

theorem State.farDown_up {s : State} {f : Nat} (h : s.bit (R.FAR_PORT.UP f) = true) : s.farDown f = (s.farEmptied f).raise (224 + f) f := State.farDown_eq h

/-- Settles O39, by what the end of a request leaves, and by what is left of a port whose link has fallen. -/
theorem farRequestsEnd : Obligations.FarRequestsEnd := by
  unfold Obligations.FarRequestsEnd
  refine ⟨?_, ?_, ?_, ?_⟩
  · intro s f id status lat w data r hf hstatus hcore hfind hkind hwait
    have hport : r.port = f := by
      have h := List.find?_some hfind
      rw [Bool.and_eq_true, beq_iff_eq] at h
      exact h.1
    obtain ⟨hfar, hwaits⟩ := State.farAnswered_far (s := s) (status := status) (lat := lat) (data := data) hport hkind
    obtain ⟨htotal, hpoison, hfailed⟩ := State.farAnswered_regs (s := s) (status := status) (lat := lat) (data := data) hport hkind
    have hrun : s.farDone f id status lat data = s.farAnswered f status lat data r :=
      (State.farDone_eq hfind hkind).trans (State.farDrain_none (by rw [hwaits]; exact hwait))
    refine ⟨_, complete_of_eq (by simp [Instr.wf, hf, hstatus]) ((if_pos hcore).trans hrun), ?_⟩
    rw [State.settle_mem, State.settle_get _ (by simp only [R.FAR_TAGS.TOTAL, followReg]; omega),
      State.settle_get _ (by simp only [R.FAR_ERR.POISON, followReg]; omega), State.settle_get _ (by simp only [R.FAR_ERR.FAILED, followReg]; omega)]
    exact ⟨hfar, htotal, hpoison, hfailed, State.farAnswered_failed hport hkind, State.farAnswered_mover hport hkind,
      (State.farOnly_farAnswered hport hkind).kept⟩
  · intro s f id status lat data hf hstatus hnone
    have hfind : (s.mem.far.find? fun x => x.port == f && x.id == id) = none :=
      List.find?_eq_none.mpr fun x hx h => by
        rw [Bool.and_eq_true, beq_iff_eq, beq_iff_eq] at h
        exact hnone x hx h.1 h.2
    have hrun : s.farDone f id status lat data = s := by
      unfold State.farDone
      rw [hfind]
    exact ⟨_, complete_of_eq (by simp [Instr.wf, hf, hstatus]) ((ite_congr rfl (fun _ => hrun) fun _ => rfl).trans (ite_self s)), s.kept_settle⟩
  · intro s f hf hcore hup
    obtain ⟨⟨hfar, hwait, hspills⟩, hview⟩ := s.farEmptied_shows f
    simp only [State.linkView, Prod.mk.injEq] at hview
    obtain ⟨hdown, hdowns, hrun⟩ := hview
    have hget : ∀ l : Loc, 0x2600000 ≤ l.off → ((s.farEmptied f).raise (224 + f) f).settle.get l = (s.farEmptied f).get l := fun l hl => by
      rw [State.settle_get _ (by simp only [followReg]; omega), State.raise_get _ _ _ (by simp only [raiseReg]; omega)]
    refine ⟨_, complete_of_eq (by simp [Instr.wf, hf]) ((if_pos hcore).trans (State.farDown_up hup)), ?_⟩
    rw [State.settle_mem, State.settle_buf, State.raise_mem, State.raise_buf, hget (R.FAR_ERR.DOWNS f) (by simp only [R.FAR_ERR.DOWNS]; omega), hdowns]
    refine ⟨?_, ?_, rfl, hfar, hwait, hspills⟩
    · rw [State.bit, hget (R.FAR_PORT.UP f) (by simp only [R.FAR_PORT.UP]; omega), hdown]
      rfl
    · rw [State.settle_bit _ (by simp only [faultBit, followReg]; omega)]
      refine State.raise_latches _ _ _ ?_ (hrun.trans hcore)
      simp only [sourceListed, Bool.or_eq_true, decide_eq_true_eq]
      omega
  · intro s f hf hup
    have hrun : s.farDown f = s := by
      unfold State.farDown
      rw [hup]
      rfl
    exact ⟨_, complete_of_eq (by simp [Instr.wf, hf]) ((ite_congr rfl (fun _ => hrun) fun _ => rfl).trans (ite_self s)), s.kept_settle⟩

end Sys2Proof.Machine
end

section
/-! SUPPORT. The doorbells of queues and of the bulk mover (R443, R444, R454). -/
namespace Sys2Proof.Machine

/-! ### What lasts through the requests of the host -/

/-- `P` lasts through the requests of the host: it speaks of nothing that a request or its tag changes. -/
structure HostLasts (P : State → Prop) : Prop where
  out : ∀ (s : State) (es : List Emit), P s → P { s with out := es }
  host : ∀ (s : State) (h : HostState), h.flr = s.host.flr → h.vfs = s.host.vfs → P s → P { s with host := h }
  tags : ∀ (s : State) (l : Loc) (v : Nat), l.off = 0x2700008 → P s → P (s.set l v)

/-- `P` lasts through the work of queue `q` while it runs. -/
structure QueueLasts (q : Nat) (P : State → Prop) : Prop extends HostLasts P where
  consumed : ∀ (s : State) (v : Nat), P s → P (s.set (R.HOST_QSTAT.C q) v)
  busy : ∀ (s : State) (v : Nat), P s → P (s.set (R.HOST_QSTAT.BUSY q) v)

theorem State.toHost_host (s : State) (link : Nat) (e : Emit) : (s.toHost link e).host = s.host := ite_keeps rfl rfl

section
variable {P : State → Prop} (h : HostLasts P) {s : State}
include h

theorem HostLasts.toHost (link : Nat) (e : Emit) (hs : P s) : P (s.toHost link e) := by
  unfold State.toHost
  split
  · exact h.out s _ hs
  · exact hs

theorem HostLasts.syncTags (hs : P s) : P s.syncTags := by
  unfold State.syncTags State.peak
  dsimp only
  split
  · exact h.tags _ R.HOST_TAGS.PEAK _ rfl (h.tags _ R.HOST_TAGS.IN_USE _ rfl hs)
  · exact h.tags _ R.HOST_TAGS.IN_USE _ rfl hs

theorem HostLasts.sendPiece (w : HostWait) (hs : P s) : P (s.sendPiece w) :=
  h.syncTags (h.host _ _ rfl rfl (h.toHost _ _ hs))

theorem HostLasts.serveTags (fuel : Nat) (hs : P s) : P (s.serveTags fuel) := by
  induction fuel generalizing s with
  | zero => exact hs
  | succ n ih =>
    unfold State.serveTags
    split
    · exact hs
    · exact ih (h.sendPiece _ hs)

theorem HostLasts.sendRead (req : HostReq) (func link addr len : Nat) (ns ro : Bool) (hs : P s) : P (s.sendRead req func link addr len ns ro) :=
  h.serveTags _ (h.host _ _ rfl rfl hs)

theorem HostLasts.queueWrite (q addr : Nat) (bytes : List Byte) (ns ro : Bool) (hs : P s) : P (s.queueWrite q addr bytes ns ro) := h.out s _ hs

theorem HostLasts.sendMsix (func vec : Nat) (hs : P s) : P (s.sendMsix func vec) := h.host _ _ (by rw [State.toHost_host]) (by rw [State.toHost_host]) (h.toHost _ _ hs)

theorem HostLasts.countCompletion (q : Nat) (hs : P s) : P (s.countCompletion q) := by
  unfold State.countCompletion
  dsimp only
  split
  · exact h.sendMsix _ _ hs
  · exact h.host _ _ rfl rfl hs

theorem HostLasts.dmaFetch (hs : P s) : P s.dmaFetch := by
  unfold State.dmaFetch
  dsimp only
  split
  · exact hs
  · exact h.sendRead _ _ _ _ _ _ _ hs

end

section
variable {P : State → Prop} {q : Nat} (h : QueueLasts q P) {s : State}
include h

theorem QueueLasts.syncBusy (hs : P s) : P (s.syncBusy q) := h.busy s _ hs

theorem QueueLasts.fetchQueue (hs : P s) : P (s.fetchQueue q) := by
  unfold State.fetchQueue
  dsimp only
  split
  · exact h.syncBusy hs
  · exact h.syncBusy (h.toHostLasts.sendRead _ _ _ _ _ _ _ hs)

theorem QueueLasts.txDone (number status : Nat) (hs : P s) : P (s.txDone q number status) :=
  h.toHostLasts.countCompletion _ (h.toHostLasts.queueWrite _ _ _ _ _ (h.consumed _ _ (h.host _ _ rfl rfl hs)))

theorem QueueLasts.startTx (fuel : Nat) (hs : P s) : P (s.startTx q fuel) := by
  induction fuel generalizing s with
  | zero => exact hs
  | succ n ih =>
    unfold State.startTx
    split
    · exact hs
    split
    · exact hs
    dsimp only
    split
    · exact ih (h.txDone _ _ hs)
    · exact h.toHostLasts.sendRead _ _ _ _ _ _ _ hs

theorem QueueLasts.runQueue (hs : P s) : P (s.runQueue q) := h.fetchQueue (h.startTx _ hs)

end

theorem HostLasts.of_get {l : Loc} (v : Nat) (hl : l.off ≠ 0x2700008) : HostLasts fun s : State => s.get l = v where
  out _ _ hs := hs
  host _ _ _ _ hs := hs
  tags _ _ _ hm hs := (State.get_set_of_off (hm ▸ hl)).trans hs

theorem QueueLasts.of_get {q : Nat} {l : Loc} (v : Nat) (hl : l.off ≠ 0x2700008) (hq : l.off ≠ 0x2780000 + 0x8 * q) :
    QueueLasts q fun s : State => s.get l = v where
  toHostLasts := .of_get v hl
  consumed _ _ hs := (State.get_set_of_off (l := R.HOST_QSTAT.C q) hq).trans hs
  busy _ _ hs := (State.get_set_of_off (l := R.HOST_QSTAT.BUSY q) hq).trans hs

theorem QueueLasts.target (q v : Nat) : QueueLasts q fun s : State => s.get (R.HOST_QSTAT.T q) = v where
  toHostLasts := .of_get v (by simp only [R.HOST_QSTAT.T]; omega)
  consumed _ _ hs := (State.get_set_of_bits (of_decide_eq_true rfl) (of_decide_eq_true rfl)).trans hs
  busy _ _ hs := (State.get_set_of_bits (of_decide_eq_true rfl) (of_decide_eq_true rfl)).trans hs

/-! ### A read that one request asks for -/

/-- The read `s` asks for finds no read before it, a tag, and fits one request. -/
structure State.sendsAtOnce (s : State) (req : HostReq) (func len : Nat) : Prop where
  waits : s.host.waits = []
  tag : s.tagFree req = true
  fits : len ≤ s.maxRead func

theorem State.tagFree_congr {s t : State} {req : HostReq} (hreads : t.host.reads = s.host.reads)
    (hmax : t.get R.HOST_TAGS.DMA_MAX = s.get R.HOST_TAGS.DMA_MAX) : t.tagFree req = s.tagFree req := by
  unfold State.tagFree State.tagsOf
  rw [hreads, hmax]

/-- The state after one request for the whole of a read. -/
def State.askedOnce (s : State) (req : HostReq) (link addr len : Nat) (ns ro : Bool) : State :=
  let t := s.toHost link (.hostRead link addr len ns ro)
  { t with host := { s.host with reads := s.host.reads ++ [⟨req, link, s.ns, 0, len⟩], waits := [] } }

/-- A read that waits for nothing. -/
def State.readWaits (s : State) (req : HostReq) (func link addr len : Nat) (ns ro : Bool) : State :=
  { s with host := { s.host with waits := [⟨req, link, addr, 0, len, s.maxRead func, ns, ro⟩] } }

theorem State.syncTags_host (s : State) : s.syncTags.host = s.host := by
  unfold State.syncTags State.peak
  dsimp only
  split <;> rfl

theorem State.serveTags_idle {s : State} (h : s.host.waits = []) (n : Nat) : s.serveTags n = s := by
  cases n with
  | zero => rfl
  | succ n => simp only [State.serveTags, h, List.find?_nil]

section
variable {s : State} {req : HostReq} {func link addr len : Nat} {ns ro : Bool} (h : s.sendsAtOnce req func len)
include h

theorem State.sendPiece_eq : (s.readWaits req func link addr len ns ro).sendPiece ⟨req, link, addr, 0, len, s.maxRead func, ns, ro⟩ =
    (s.askedOnce req link addr len ns ro).syncTags := by
  obtain ⟨-, -, hfits⟩ := h
  have hpiece : ∀ u : State, u.sendPiece ⟨req, link, addr, 0, len, s.maxRead func, ns, ro⟩ =
      ({ u.toHost link (.hostRead link addr len ns ro) with host := { u.host with
        reads := u.host.reads ++ [⟨req, link, u.ns, 0, len⟩]
        waits := u.host.waits.erase ⟨req, link, addr, 0, len, s.maxRead func, ns, ro⟩ } } : State).syncTags := by
    intro u
    simp only [State.sendPiece, Nat.add_zero, Nat.min_eq_left hfits, if_pos hfits, State.toHost_host]
  have hto : (s.readWaits req func link addr len ns ro).toHost link (.hostRead link addr len ns ro) =
      { s.toHost link (.hostRead link addr len ns ro) with host := (s.readWaits req func link addr len ns ro).host } := by
    by_cases hu : s.hostUp link = true
    · exact (if_pos hu).trans (by rw [State.toHost, if_pos hu]; rfl)
    · exact (if_neg hu).trans (by rw [State.toHost, if_neg hu]; rfl)
  rw [hpiece, hto]
  have herase : (s.readWaits req func link addr len ns ro).host.waits.erase ⟨req, link, addr, 0, len, s.maxRead func, ns, ro⟩ = [] :=
    List.erase_cons_head ..
  rw [herase]
  rfl

/-- One request asks for the whole read. -/
theorem State.sendRead_eq : s.sendRead req func link addr len ns ro = (s.askedOnce req link addr len ns ro).syncTags := by
  obtain ⟨hwaits, htag, -⟩ := id h
  have hw : s.sendRead req func link addr len ns ro = (s.readWaits req func link addr len ns ro).serveTags (16383 + 1) := by
    unfold State.sendRead State.serve State.readWaits
    rw [hwaits, List.nil_append]
  have htag' : (s.readWaits req func link addr len ns ro).tagFree req = true := (State.tagFree_congr rfl rfl).trans htag
  have hfind : (s.readWaits req func link addr len ns ro).host.waits.find?
      (fun w => (s.readWaits req func link addr len ns ro).tagFree w.req) = some ⟨req, link, addr, 0, len, s.maxRead func, ns, ro⟩ :=
    List.find?_cons_of_pos htag'
  rw [hw, State.serveTags, hfind]
  dsimp only
  rw [State.sendPiece_eq h]
  exact State.serveTags_idle (by rw [State.syncTags_host]; rfl) _

theorem State.sendRead_reads : (s.sendRead req func link addr len ns ro).host.reads = s.host.reads ++ [⟨req, link, s.ns, 0, len⟩] := by
  rw [State.sendRead_eq h, State.syncTags_host]
  rfl

theorem State.sendRead_out : (s.sendRead req func link addr len ns ro).out = s.out ++ s.hostOut link [.hostRead link addr len ns ro] := by
  have hsync : ∀ u : State, u.syncTags.out = u.out := fun u => by
    unfold State.syncTags State.peak
    dsimp only
    split <;> rfl
  rw [State.sendRead_eq h, hsync]
  exact congrArg State.out (State.toHost_eq s link _)

end

/-! ### Doorbells (R443, R444, R454) -/

theorem doorbellTarget_lt {t c size v t' : Nat} (ht : t < 65536) (hv : v < 65536) (h : doorbellTarget t c size v = some t') : t' < 65536 := by
  unfold doorbellTarget at h
  dsimp only at h
  split at h
  · cases h; exact ht
  split at h
  · cases h; exact hv
  · cases h

/-- A dropped doorbell is counted (R443). -/
theorem State.dropped_kept (s : State) : (s.sat R.HOST_ERR.DOORBELL 1).settle.get R.HOST_ERR.DOORBELL =
      min (s.get R.HOST_ERR.DOORBELL + 1) 65535 ∧
    s.kept (s.sat R.HOST_ERR.DOORBELL 1).settle [] fun k => k = R.HOST_ERR.DOORBELL.off := by
  refine ⟨?_, State.kept_registers rfl rfl rfl fun k hk => State.word_set_other s hk⟩
  rw [State.settle_get _ (by decide), State.get_sat_same _ _ _ (by decide)]
  rfl

section
variable {s : State} {q : Nat}

/-- A queue that does not run asks for nothing. -/
theorem State.runQueue_stopped (h : s.queueRuns q = false) : s.runQueue q = s.syncBusy q := by
  have htx : s.startTx q ((s.ready q).length + 1) = s := by simp [State.startTx, h]
  rw [State.runQueue, htx, State.fetchQueue]
  simp [h]

/-- A queue with no descriptors at hand only reads more. -/
theorem State.runQueue_empty (h : s.ready q = []) : s.runQueue q = s.fetchQueue q := by
  have htx : s.startTx q ((s.ready q).length + 1) = s := by
    simp only [State.startTx, h, ite_self]
  rw [State.runQueue, htx]

end

section
variable {s : State} {q t' : Nat} (hq : q < 16384)
include hq

theorem State.queueWord_target {l : Loc} (hl : l.off = 0x2740000 + 0x10 * q ∨ l.off = 0x2740008 + 0x10 * q) :
    (s.set (R.HOST_QSTAT.T q) t').get l = s.get l := by
  refine State.get_set_of_off fun he => ?_
  have hoff : (R.HOST_QSTAT.T q).off = 0x2780000 + 0x8 * q := rfl
  omega

theorem State.queueRuns_target : (s.set (R.HOST_QSTAT.T q) t').queueRuns q = s.queueRuns q := by
  have hen : (s.set (R.HOST_QSTAT.T q) t').get (R.HOST_Q.ENABLE q) = s.get (R.HOST_Q.ENABLE q) :=
    State.queueWord_target hq (.inl rfl)
  have hst : (s.set (R.HOST_QSTAT.T q) t').get (R.HOST_QSTAT.STOPPED q) = s.get (R.HOST_QSTAT.STOPPED q) :=
    State.get_set_of_bits (of_decide_eq_true rfl) (of_decide_eq_true rfl)
  have hhost : (s.set (R.HOST_QSTAT.T q) t').host = s.host := rfl
  simp only [State.queueRuns, State.bit_of_get hen, State.bit_of_get hst, hhost]

theorem State.doorbell_idle_kept (h : s.queueRuns q = false) :
    s.kept ((s.set (R.HOST_QSTAT.T q) t').runQueue q).settle [] fun k => k = (R.HOST_QSTAT.T q).off := by
  rw [State.runQueue_stopped ((State.queueRuns_target hq).trans h)]
  have hw : ∀ (u : State) (b : Bool) (k : Nat), ¬ k = (R.HOST_QSTAT.T q).off → (u.setBit (R.HOST_QSTAT.BUSY q) b).word k = u.word k := fun u b k hk =>
    State.word_set_other (l := R.HOST_QSTAT.BUSY q) u hk
  exact State.kept_registers rfl rfl rfl fun k hk => (hw _ _ k hk).trans (State.word_set_other s hk)

/-- The registers by which a queue reads its descriptors do not show its target. -/
theorem State.queueRead_target (n : Nat) : (s.set (R.HOST_QSTAT.T q) t').queueLink q = s.queueLink q ∧
    (s.set (R.HOST_QSTAT.T q) t').slotAddr q n = s.slotAddr q n := by
  have hget : ∀ l : Loc, l.off = 0x2740000 + 0x10 * q ∨ l.off = 0x2740008 + 0x10 * q → (s.set (R.HOST_QSTAT.T q) t').get l = s.get l := fun l hl =>
    State.queueWord_target hq hl
  have hpf : ∀ f, (s.set (R.HOST_QSTAT.T q) t').pfOf f = s.pfOf f := fun _ => rfl
  have hpower : (s.set (R.HOST_QSTAT.T q) t').power = s.power := rfl
  constructor
  · simp only [State.queueLink, hget (R.HOST_Q.EP q) (.inl rfl), hget (R.HOST_Q.FUNC q) (.inl rfl), hpf, hpower]
  · simp only [State.slotAddr, hget (R.HOST_QBASE.BASE q) (.inr rfl), hget (R.HOST_Q.SIZE q) (.inl rfl)]

end

/-- What the next descriptors of a queue are, and how many. -/
structure State.fetches (s : State) (q n count : Nat) : Prop where
  number : n = s.get (R.HOST_QSTAT.C q)
  count_eq : count = min (min 64 ((s.get (R.HOST_QSTAT.T q) + 65536 - n) % 65536)) (2 ^ s.get (R.HOST_Q.SIZE q) - n % 2 ^ s.get (R.HOST_Q.SIZE q))
  count_pos : count ≠ 0
  runs : s.queueRuns q = true
  ready : s.ready q = []
  reading : s.reading (HostReq.ofRing q) = false
  retry : s.retryOf q = (0, 0)
  sends : s.sendsAtOnce (.descriptors q n count) (s.get (R.HOST_Q.FUNC q)) (16 * count)

section
variable {s : State} {q n count : Nat} (h : s.fetches q n count)
include h

theorem State.runQueue_fetches : s.runQueue q =
    (s.queueRead q (.descriptors q n count) (s.slotAddr q n) (16 * count) false false).syncBusy q := by
  obtain ⟨hn, hcount, hpos, hruns, hready, hreading, hretry, -⟩ := h
  have hlt : s.get (R.HOST_QSTAT.C q) < 65536 := State.get_lt s _
  have hnext : s.nextNumber q = n := by
    rw [State.nextNumber, hready, hn]
    exact Nat.mod_eq_of_lt hlt
  rw [State.runQueue_empty hready, State.fetchQueue, hnext, ← hcount]
  simp [hruns, hpos, hreading, hretry]

theorem State.fetched_reads : (s.runQueue q).host.reads = s.host.reads ++ [⟨.descriptors q n count, s.queueLink q, s.ns, 0, 16 * count⟩] := by
  rw [State.runQueue_fetches h]
  exact State.sendRead_reads h.sends

theorem State.fetched_busy : (s.runQueue q).get (R.HOST_QSTAT.BUSY q) = 1 := by
  have hreading : (s.queueRead q (.descriptors q n count) (s.slotAddr q n) (16 * count) false false).reading (HostReq.ofQueue q) = true := by
    unfold State.reading State.queueRead
    rw [State.sendRead_reads h.sends]
    simp [HostReq.ofQueue, HostReq.ofRing]
  rw [State.runQueue_fetches h, State.syncBusy, hreading, Bool.true_or, State.setBit, State.get_set_same _ _ _ (of_decide_eq_true rfl)]
  rfl

theorem State.fetched_out : (s.runQueue q).out =
    s.out ++ s.hostOut (s.queueLink q) [.hostRead (s.queueLink q) (s.slotAddr q n) (16 * count) false false] := by
  rw [State.runQueue_fetches h]
  exact State.sendRead_out h.sends

end

/-! ### The doorbell of a queue -/

section
variable {s : State} {src : HostSrc} {q value t' : Nat}

theorem execQueueDoorbell_eq (hwf : Instr.wf (.queueDoorbell src q value) = true) :
    exec (.queueDoorbell src q value) s = .next (s.queueDoorbell src q value).settle := complete_of_eq hwf rfl

theorem queueDoorbell_lt (hwf : Instr.wf (.queueDoorbell src q value) = true) : q < 16384 := by
  simp only [Instr.wf, Bool.and_eq_true, decide_eq_true_eq] at hwf
  exact hwf.1.2

theorem State.queueDoorbell_accepted (hreach : s.reach src = true) (hmode : s.accessMode = .serve) (hfunc : src.func = s.get (R.HOST_Q.FUNC q))
    (hen : s.bit (R.HOST_Q.ENABLE q) = true) (hv : value < 65536)
    (ht : doorbellTarget (s.get (R.HOST_QSTAT.T q)) (s.get (R.HOST_QSTAT.C q)) (s.get (R.HOST_Q.SIZE q)) value = some t') :
    s.queueDoorbell src q value = (s.set (R.HOST_QSTAT.T q) t').runQueue q := by
  simp [State.queueDoorbell, hreach, hmode, hfunc, hen, hv, ht]

theorem State.queueDoorbell_dropped (hreach : s.reach src = true)
    (h : s.accessMode ≠ .serve ∨ src.func ≠ s.get (R.HOST_Q.FUNC q) ∨ s.bit (R.HOST_Q.ENABLE q) = false ∨ 65536 ≤ value ∨
      doorbellTarget (s.get (R.HOST_QSTAT.T q)) (s.get (R.HOST_QSTAT.C q)) (s.get (R.HOST_Q.SIZE q)) value = none) :
    s.queueDoorbell src q value = s.sat R.HOST_ERR.DOORBELL 1 := by
  unfold State.queueDoorbell
  rw [hreach]
  rcases h with h | h | h | h | h
  · simp [h]
  · simp [h]
  · simp [h]
  · simp [h]
  · simp [h]

/-- The next descriptors of a queue once its target has moved to `t'`. -/
theorem State.fetches_target (hq : q < 16384) (htlt : t' < 65536) {n count : Nat} (hn : n = s.get (R.HOST_QSTAT.C q))
    (hcount : count = min (min 64 ((t' + 65536 - n) % 65536)) (2 ^ s.get (R.HOST_Q.SIZE q) - n % 2 ^ s.get (R.HOST_Q.SIZE q))) (hpos : count ≠ 0)
    (hruns : s.queueRuns q = true) (hready : s.ready q = []) (hreading : s.reading (HostReq.ofRing q) = false) (hretry : s.retryOf q = (0, 0))
    (hwaits : s.host.waits = []) (htag : s.tagFree (.descriptors q n count) = true) (hfits : 16 * count ≤ s.maxRead (s.get (R.HOST_Q.FUNC q))) :
    (s.set (R.HOST_QSTAT.T q) t').fetches q n count := by
  have hC : (s.set (R.HOST_QSTAT.T q) t').get (R.HOST_QSTAT.C q) = s.get (R.HOST_QSTAT.C q) :=
    State.get_set_of_bits (of_decide_eq_true rfl) (of_decide_eq_true rfl)
  have hT : (s.set (R.HOST_QSTAT.T q) t').get (R.HOST_QSTAT.T q) = t' :=
    (State.get_set_same _ _ _ (of_decide_eq_true rfl)).trans (Nat.mod_eq_of_lt htlt)
  have hS : (s.set (R.HOST_QSTAT.T q) t').get (R.HOST_Q.SIZE q) = s.get (R.HOST_Q.SIZE q) := State.queueWord_target hq (.inl rfl)
  have hF : (s.set (R.HOST_QSTAT.T q) t').get (R.HOST_Q.FUNC q) = s.get (R.HOST_Q.FUNC q) := State.queueWord_target hq (.inl rfl)
  have hoff : R.HOST_TAGS.DMA_MAX.off ≠ (R.HOST_QSTAT.T q).off := by simp only [R.HOST_TAGS.DMA_MAX, R.HOST_QSTAT.T]; omega
  have hmax : (s.set (R.HOST_QSTAT.T q) t').get R.HOST_TAGS.DMA_MAX = s.get R.HOST_TAGS.DMA_MAX := State.get_set_of_off hoff
  have htag' : (s.set (R.HOST_QSTAT.T q) t').tagFree (.descriptors q n count) = s.tagFree (.descriptors q n count) := State.tagFree_congr rfl hmax
  exact {
    number := hn.trans hC.symm
    count_eq := by rw [hT, hS, hcount]
    count_pos := hpos
    runs := (State.queueRuns_target hq).trans hruns
    ready := hready
    reading := hreading
    retry := hretry
    sends := { waits := hwaits, tag := htag'.trans htag
               fits := by rw [hF]; exact hfits } }

end

/-! ### The doorbell of the bulk mover -/

/-- A management function's write in SERVE of a register that has a writable field. -/
theorem State.bar0_regWord {s : State} {src : HostSrc} {off : Nat} {d : RegDef} (hm : s.manages src) (hd : regAt off = some d)
    (hw : (d.fields.any fun f => f.acc.isSome) = true) (v : Nat) : s.bar0 src off v = s.regWord src off v d.fields := by
  obtain ⟨hmode, hreach, hman, -⟩ := hm
  have ha : s.accessMode = .serve := by simp [State.accessMode, hmode]
  simp [State.bar0, State.bar0Word, hreach, hman, ha, hd, hw]

section
variable {s : State} {src : HostSrc} {value t' : Nat}

theorem execDmaDoorbell_eq (hwf : Instr.wf (.dmaDoorbell src value) = true) (hm : s.manages src) :
    exec (.dmaDoorbell src value) s = .next (s.dmaDoorbell value).settle := by
  refine complete_of_eq hwf ?_
  rw [State.bar0_regWord hm (d := ⟨0x2800008, [], [⟨0, 16, some .wo, 0, 65535, false⟩]⟩) (by decide) (by decide)]
  simp [State.regWord]

theorem State.dmaDoorbell_accepted (hen : s.bit R.DMA_RING.ENABLE = true) (hv : value < 65536)
    (ht : doorbellTarget (s.get R.DMA_STAT.T) (s.get R.DMA_STAT.C) (s.get R.DMA_RING.SIZE) value = some t') :
    s.dmaDoorbell value = (s.set R.DMA_STAT.T t').dmaFetch := by
  simp [State.dmaDoorbell, hen, hv, ht]

theorem State.dmaDoorbell_dropped (h : s.bit R.DMA_RING.ENABLE = false ∨ 65536 ≤ value ∨
      doorbellTarget (s.get R.DMA_STAT.T) (s.get R.DMA_STAT.C) (s.get R.DMA_RING.SIZE) value = none) :
    s.dmaDoorbell value = s.sat R.HOST_ERR.DOORBELL 1 := by
  unfold State.dmaDoorbell
  rcases h with h | h | h
  · simp [h]
  · simp [h]
  · simp [h]

/-- What the move of the target leaves of the ring's registers. -/
theorem State.moverReg_target {l : Loc} (hl : l.off ≠ R.DMA_STAT.T.off ∨ (l.lo + l.w ≤ 64 ∧ (32 ≤ l.lo ∨ l.lo + l.w ≤ 16))) :
    (s.set R.DMA_STAT.T t').get l = s.get l := by
  refine State.get_set_apart (hl.imp id fun ⟨h64, h⟩ => ⟨h64, ?_⟩)
  simp only [R.DMA_STAT.T]
  omega

theorem State.dmaRuns_target : (s.set R.DMA_STAT.T t').dmaRuns = s.dmaRuns := by
  have hen : (s.set R.DMA_STAT.T t').bit R.DMA_RING.ENABLE = s.bit R.DMA_RING.ENABLE := State.bit_of_get (State.moverReg_target (by decide))
  have hst : (s.set R.DMA_STAT.T t').bit R.DMA_STAT.STOPPED = s.bit R.DMA_STAT.STOPPED := State.bit_of_get (State.moverReg_target (by decide))
  rw [State.dmaRuns, hen, hst, State.dmaRuns]

theorem State.dmaFetch_stopped (h : s.dmaRuns = false) : s.dmaFetch = s := by
  unfold State.dmaFetch
  simp [h]

/-- The ring's next descriptors once its target has moved to `t'`: one request asks for them. -/
theorem State.dmaFetch_target (htlt : t' < 65536) {n count : Nat} (hn : n = s.get R.DMA_STAT.C)
    (hcount : count = min (min 64 ((t' + 65536 - n) % 65536)) (2 ^ s.get R.DMA_RING.SIZE - n % 2 ^ s.get R.DMA_RING.SIZE)) (hpos : count ≠ 0)
    (hruns : s.dmaRuns = true) (hready : s.host.dmaReady = []) (hreading : s.reading HostReq.ofMover = false) (hretry : s.host.dmaRetries = (0, 0))
    (hep : s.epUp (s.get R.DMA_RING.EP) = true) :
    (s.set R.DMA_STAT.T t').dmaFetch =
      (s.set R.DMA_STAT.T t').moverRead (.dmaDescriptors n count) (s.get R.DMA_RING.EP) (s.dmaSlot n) (32 * count) false false := by
  have hlt : s.get R.DMA_STAT.C < 65536 := State.get_lt s _
  have hC : (s.set R.DMA_STAT.T t').get R.DMA_STAT.C = s.get R.DMA_STAT.C := State.moverReg_target (by decide)
  have hT : (s.set R.DMA_STAT.T t').get R.DMA_STAT.T = t' := (State.get_set_same _ _ _ (by decide)).trans (Nat.mod_eq_of_lt htlt)
  have hS : (s.set R.DMA_STAT.T t').get R.DMA_RING.SIZE = s.get R.DMA_RING.SIZE := State.moverReg_target (by decide)
  have hE : (s.set R.DMA_STAT.T t').get R.DMA_RING.EP = s.get R.DMA_RING.EP := State.moverReg_target (by decide)
  have hB : (s.set R.DMA_STAT.T t').get R.DMA_RING.BASE = s.get R.DMA_RING.BASE := State.moverReg_target (by decide)
  have hslot : (s.set R.DMA_STAT.T t').dmaSlot n = s.dmaSlot n := by simp only [State.dmaSlot, hS, hB]
  have hhost : (s.set R.DMA_STAT.T t').host = s.host := rfl
  have hreading' : (s.set R.DMA_STAT.T t').reading HostReq.ofMover = false := hreading
  have hep' : (s.set R.DMA_STAT.T t').epUp (s.get R.DMA_RING.EP) = true := hep
  have hnext : (s.set R.DMA_STAT.T t').dmaNext = n := by
    rw [State.dmaNext, hC, hhost, hready, hn]
    exact Nat.mod_eq_of_lt hlt
  unfold State.dmaFetch
  dsimp only
  rw [hnext, hT, hS, hE, ← hcount, hslot, State.dmaRuns_target, hruns, hreading', hep', hhost, hretry]
  simp [hpos]

end

/-- The mover's read finds no read before it, a tag, and fits one request. -/
theorem State.moverRead_at_once {s : State} {n count ep : Nat} (hwaits : s.host.waits = []) (htag : s.tagFree (.dmaDescriptors n count) = true)
    (hfits : 32 * count ≤ s.maxRead (4 * ep)) (t' : Nat) :
    (s.set R.DMA_STAT.T t').sendsAtOnce (.dmaDescriptors n count) (4 * ep) (32 * count) := by
  have hmax : (s.set R.DMA_STAT.T t').get R.HOST_TAGS.DMA_MAX = s.get R.HOST_TAGS.DMA_MAX := State.get_set_of_off (by decide)
  have htag' : (s.set R.DMA_STAT.T t').tagFree (.dmaDescriptors n count) = s.tagFree (.dmaDescriptors n count) := State.tagFree_congr rfl hmax
  exact ⟨hwaits, htag'.trans htag, hfits⟩

/-- The first function of an endpoint is on the endpoint's first link (R433). -/
theorem State.linkOfPf_first (s : State) {ep : Nat} (h : ep < 2) : s.linkOfPf (4 * ep) = ep := by
  have hpf : 4 * ep / 4 = ep := by omega
  have hmod : 4 * ep % 4 = 0 := by omega
  unfold State.linkOfPf
  rw [if_neg (by omega), hpf, hmod]
  simp

/-- What a state has sent before it settles, and then nothing but pause frames. -/
theorem State.sends_settle {s x : State} {outs : List Emit} (h : x.out = s.out ++ outs) : s.sends x.settle outs := by
  obtain ⟨l, hl, hframes⟩ := (settles x).out
  exact ⟨l, by rw [hl, h, List.append_nil], hframes⟩

/-- Settles O18: an accepted doorbell moves its target and then the queue or the ring runs, which leaves the target alone and, where nothing
waits, asks for the next descriptors in one request; a dropped one is counted. -/
theorem doorbellsMoveTargets : Obligations.DoorbellsMoveTargets := by
  refine ⟨?_, ?_, ?_, ?_⟩
  · intro s src q value t' hwf hreach hmode hfunc hen hv ht
    have hq := queueDoorbell_lt hwf
    have htlt : t' < 65536 := doorbellTarget_lt (State.get_lt s _) hv ht
    refine ⟨_, (execQueueDoorbell_eq hwf).trans (by rw [State.queueDoorbell_accepted hreach hmode hfunc hen hv ht]), ?_, ?_,
      State.doorbell_idle_kept hq, ?_⟩
    · rw [State.settle_get _ (by simp only [R.HOST_QSTAT.T, followReg]; omega)]
      exact (QueueLasts.target q t').runQueue ((State.get_set_same _ _ _ (of_decide_eq_true rfl)).trans (Nat.mod_eq_of_lt htlt))
    · rw [State.settle_get _ (by decide)]
      refine (QueueLasts.of_get (l := R.HOST_ERR.DOORBELL) _ (by decide) (by simp only [R.HOST_ERR.DOORBELL]; omega)).runQueue ?_
      exact State.get_set_of_off (by simp only [R.HOST_ERR.DOORBELL, R.HOST_QSTAT.T]; omega)
    · intro n count hn hcount hpos hruns hready hreading hretry hwaits htag hfits
      have hf := State.fetches_target hq htlt hn hcount hpos hruns hready hreading hretry hwaits htag hfits
      obtain ⟨hlink, hslot⟩ := State.queueRead_target (s := s) (t' := t') hq n
      refine ⟨?_, ?_, ?_⟩
      · rw [State.settle_host, State.fetched_reads hf, hlink]
        rfl
      · rw [State.settle_bit _ (by simp only [R.HOST_QSTAT.BUSY, followReg]; omega), State.bit, State.fetched_busy hf]
        rfl
      · refine State.sends_settle ?_
        rw [State.fetched_out hf, hlink, hslot]
        rfl
  · intro s src q value hwf hreach h
    exact ⟨_, (execQueueDoorbell_eq hwf).trans (by rw [State.queueDoorbell_dropped hreach h]), s.dropped_kept⟩
  · intro s src value t' hwf hm hen hv ht
    have htlt : t' < 65536 := doorbellTarget_lt (State.get_lt s _) hv ht
    refine ⟨_, (execDmaDoorbell_eq hwf hm).trans (by rw [State.dmaDoorbell_accepted hen hv ht]), ?_, ?_, ?_, fun hruns => ?_, ?_⟩
    · rw [State.settle_get _ (by decide)]
      exact (HostLasts.of_get (l := R.DMA_STAT.T) t' (by decide)).dmaFetch ((State.get_set_same _ _ _ (by decide)).trans (Nat.mod_eq_of_lt htlt))
    · rw [State.settle_get _ (by decide)]
      exact (HostLasts.of_get (l := R.DMA_STAT.C) _ (by decide)).dmaFetch (State.moverReg_target (by decide))
    · rw [State.settle_get _ (by decide)]
      exact (HostLasts.of_get (l := R.HOST_ERR.DOORBELL) _ (by decide)).dmaFetch (State.moverReg_target (by decide))
    · rw [State.dmaFetch_stopped (State.dmaRuns_target.trans hruns)]
      exact State.kept_registers rfl rfl rfl fun k hk => State.word_set_other s hk
    · intro n count hn hcount hpos hruns hready hreading hretry hwaits htag hep hfits
      have hfetch := State.dmaFetch_target htlt hn hcount hpos hruns hready hreading hretry hep
      have honce := State.moverRead_at_once hwaits htag hfits t'
      have hlt : s.get R.DMA_RING.EP < 2 := State.get_lt s _
      have hlink : (s.set R.DMA_STAT.T t').linkOfPf (4 * s.get R.DMA_RING.EP) = s.get R.DMA_RING.EP := State.linkOfPf_first _ hlt
      have hup : s.hostUp (s.get R.DMA_RING.EP) = true := by
        rw [State.hostUp, Nat.mod_eq_of_lt hlt, hep, Bool.and_true]
        exact decide_eq_true (by omega)
      rw [hfetch, State.moverRead, hlink]
      constructor
      · rw [State.settle_host, State.sendRead_reads honce]
        rfl
      · refine State.sends_settle ?_
        rw [State.sendRead_out honce]
        exact congrArg (s.out ++ ·) (if_pos hup)
  · intro s src value hwf hm h
    exact ⟨_, (execDmaDoorbell_eq hwf hm).trans (by rw [State.dmaDoorbell_dropped h]), s.dropped_kept⟩

end Sys2Proof.Machine
end

section
/-! SUPPORT. Resets of functions and endpoints, moderated messages and host links (R433, R435, R449, R586). -/
namespace Sys2Proof.Machine

/-! ### What lasts through resets of functions and endpoints (R435, R586) -/

/-- `P` lasts through the resets of queues and what the requesters of failed reads do. -/
structure ResetLasts (P : State → Prop) : Prop extends HostLasts P where
  consumed : ∀ (s : State) (q v : Nat), P s → P (s.set (R.HOST_QSTAT.C q) v)
  busy : ∀ (s : State) (q v : Nat), P s → P (s.set (R.HOST_QSTAT.BUSY q) v)
  stopped : ∀ (s : State) (q : Nat), P s → P (s.setBit (R.HOST_QSTAT.STOPPED q) true)
  error : ∀ (s : State) (q v : Nat), P s → P (s.set (R.HOST_QSTAT.ERROR q) v)
  ended : ∀ (s : State) (q : Nat), P s → P (s.endReset q)
  begun : ∀ (s : State) (q : Nat), P s →
    P { s with host := { s.host with flr := (s.host.flr.filter fun x => x != q) ++ [q] } }
  mover : ∀ (s : State) (l : Loc) (v : Nat), 0x2800000 ≤ l.off → P s → P (s.set l v)
  cmd : ∀ (s : State) (c : CmdState), P s → P { s with cmd := c }

section
variable {P : State → Prop} (h : ResetLasts P) {s : State}
include h

theorem ResetLasts.queue (q : Nat) : QueueLasts q P := ⟨h.toHostLasts, fun s => h.consumed s q, fun s => h.busy s q⟩

theorem ResetLasts.stopQueue (q code : Nat) (hs : P s) : P (s.stopQueue q code) :=
  (h.queue q).syncBusy (h.host _ _ rfl rfl (h.error _ q code (h.stopped s q hs)))

theorem ResetLasts.dropRead (p : HostReq → Bool) (hs : P s) : P (s.dropRead p) := h.host _ _ rfl rfl hs

theorem ResetLasts.startReset (q : Nat) (hs : P s) : P (s.startReset q) := by
  unfold State.startReset
  dsimp only
  split
  · exact h.host _ _ rfl rfl (h.host _ _ rfl rfl (h.begun _ q (h.dropRead _ hs)))
  · exact h.ended _ q (h.dropRead _ hs)

theorem ResetLasts.endReads (p : HostRead → Bool) (hs : P s) : P (s.endReads p) := by
  unfold State.endReads State.serve
  dsimp only
  have hsync : ∀ u : State, P u → P u.syncTags := fun u hu => h.toHostLasts.syncTags hu
  exact h.toHostLasts.serveTags _ (List.foldlRecOn _ _ (hsync _ (h.host _ _ rfl rfl hs)) fun t ht q _ => h.ended t q ht)

theorem ResetLasts.setRuns (l : List DmaRun) (hs : P s) : P (s.setRuns l) :=
  h.mover _ R.DMA_STAT.RUNNING _ (by decide) (h.host _ _ rfl rfl hs)

theorem ResetLasts.dmaCapture (reason number : Nat) (hs : P s) : P (s.dmaCapture reason number) := by
  unfold State.dmaCapture
  split
  · exact hs
  · exact h.mover _ R.DMA_CAP.NUMBER _ (by decide) (h.mover _ R.DMA_CAP.REASON _ (by decide) (h.mover _ R.DMA_CAP.VALID _ (by decide) hs))

theorem ResetLasts.dmaPulse (d : List Byte) (error : Bool) (hs : P s) : P (s.dmaPulse d error) := by
  unfold State.dmaPulse
  dsimp only
  split
  · exact h.cmd _ _ hs
  · exact hs

theorem ResetLasts.dmaIssued (r : DmaRun) (hs : P s) : P (s.dmaIssued r) := by
  unfold State.dmaIssued
  dsimp only
  have hrun : P (s.putRun { r with issued := true }) := h.setRuns _ hs
  split
  · exact h.dmaPulse _ _ hrun
  split
  · exact h.toHostLasts.sendRead _ _ _ _ _ _ _ hrun
  · exact hrun

theorem ResetLasts.dmaStop (code : Nat) (hs : P s) : P (s.dmaStop code) :=
  h.host _ _ rfl rfl (h.mover _ R.DMA_STAT.ERROR _ (by decide) (h.mover _ R.DMA_STAT.STOPPED _ (by decide) hs))

/-- The descriptors of queue `q` whose read failed. -/
theorem ResetLasts.ringFailed (q number : Nat) (hs : P s) : P (if s.host.flr.contains q || !s.queueRuns q || number != s.nextNumber q then
    (s.dropRead (HostReq.ofRing q)).syncBusy q else (s.dropRead (HostReq.ofRing q)).stopQueue q 2) := by
  split
  · exact (h.queue q).syncBusy (h.dropRead _ hs)
  · exact h.stopQueue _ _ (h.dropRead _ hs)

theorem ResetLasts.moverFailed (n : Nat) (hs : P s) :
    P (if n = 65536 then s.dropRead HostReq.ofMover else (s.dropRead HostReq.ofMover).dmaStop 2) := by
  split
  · exact h.dropRead _ hs
  · exact h.dmaStop _ (h.dropRead _ hs)

theorem ResetLasts.tellFailed (req : HostReq) (hs : P s) : P (s.tellFailed req) := by
  cases req with
  | descriptors q n c => exact h.ringFailed q _ hs
  | reread q n => exact h.ringFailed q _ hs
  | txData q n =>
    unfold State.tellFailed
    dsimp only
    split
    · exact (h.queue q).syncBusy (h.dropRead _ hs)
    · exact (h.queue q).runQueue ((h.queue q).txDone _ _ (h.dropRead _ hs))
  | dmaDescriptors n c => exact h.moverFailed n hs
  | dmaReread n => exact h.moverFailed n hs
  | dmaData n =>
    unfold State.tellFailed
    dsimp only
    split
    · exact hs
    · rename_i r _
      have hrun : P ((s.dmaCapture 4 n).putRun { r with error := true }) := h.setRuns _ (h.dmaCapture _ _ hs)
      split
      · exact hrun
      · exact h.dmaIssued _ hrun
  | dmaFlush n => exact h.setRuns _ hs

end

theorem ResetLasts.of_get {l : Loc} (v : Nat) (hl : l.off ≠ 0x2700008) (hq : l.off < 0x2780000) : ResetLasts fun s : State => s.get l = v := by
  have hset : ∀ (s : State) (m : Loc) (w : Nat), 0x2780000 ≤ m.off → s.get l = v → (s.set m w).get l = v := fun s m w hm hs =>
    (State.get_set_of_off (by omega)).trans hs
  have hC : ∀ q, 0x2780000 ≤ (R.HOST_QSTAT.C q).off := fun q => by simp only [R.HOST_QSTAT.C]; omega
  have hT : ∀ q, 0x2780000 ≤ (R.HOST_QSTAT.T q).off := fun q => by simp only [R.HOST_QSTAT.T]; omega
  have hB : ∀ q, 0x2780000 ≤ (R.HOST_QSTAT.BUSY q).off := fun q => by simp only [R.HOST_QSTAT.BUSY]; omega
  have hS : ∀ q, 0x2780000 ≤ (R.HOST_QSTAT.STOPPED q).off := fun q => by simp only [R.HOST_QSTAT.STOPPED]; omega
  have hE : ∀ q, 0x2780000 ≤ (R.HOST_QSTAT.ERROR q).off := fun q => by simp only [R.HOST_QSTAT.ERROR]; omega
  have hready : ∀ (s : State) (q : Nat) (d : List (Nat × List Byte)), s.get l = v → (s.setReady q d).get l = v := fun _ _ _ hs => hs
  have hretry : ∀ (s : State) (q : Nat) (r : Nat × Nat), s.get l = v → (s.setRetry q r).get l = v := fun _ _ _ hs => hs
  exact {
    toHostLasts := .of_get v hl
    consumed := fun s q w hs => hset s (R.HOST_QSTAT.C q) w (hC q) hs
    busy := fun s q w hs => hset s (R.HOST_QSTAT.BUSY q) w (hB q) hs
    stopped := fun s q hs => hset s (R.HOST_QSTAT.STOPPED q) _ (hS q) hs
    error := fun s q w hs => hset s (R.HOST_QSTAT.ERROR q) w (hE q) hs
    ended := fun s q hs => hset _ (R.HOST_QSTAT.BUSY q) _ (hB q) (hretry _ q _ (hset _ (R.HOST_QSTAT.ERROR q) 3 (hE q)
      (hset _ (R.HOST_QSTAT.STOPPED q) _ (hS q) (hset _ (R.HOST_QSTAT.T q) _ (hT q) (hready _ q _ hs)))))
    begun := fun _ _ hs => hs
    mover := fun s m w hm hs => hset s m w (by omega) hs
    cmd := fun _ _ hs => hs }

/-! ### A queue that takes nothing more -/

/-- Queue `q` is stopped, or under the Function Level Reset of its function. -/
def State.halted (q : Nat) (s : State) : Prop := s.get (R.HOST_QSTAT.STOPPED q) = 1 ∨ q ∈ s.host.flr

theorem State.halted.queueRuns {q : Nat} {s : State} (h : s.halted q) : s.queueRuns q = false := by
  rcases h with h | h
  · simp [State.queueRuns, State.bit, h]
  · simp [State.queueRuns, h]

theorem State.halted.of_eq {q : Nat} {s t : State} (hget : t.get (R.HOST_QSTAT.STOPPED q) = s.get (R.HOST_QSTAT.STOPPED q))
    (hflr : t.host.flr = s.host.flr) (h : s.halted q) : t.halted q := by
  unfold State.halted
  rw [hget, hflr]
  exact h

/-- Another field of a queue's status leaves STOPPED as it is. -/
theorem State.stopped_set_field (s : State) (q : Nat) {l : Loc} (v : Nat) (hb : l.lo + l.w ≤ 63) :
    (s.set l v).get (R.HOST_QSTAT.STOPPED q) = s.get (R.HOST_QSTAT.STOPPED q) :=
  State.get_set_of_bits (of_decide_eq_true rfl) (.inl hb)

theorem State.stopped_set_other (s : State) {q : Nat} {l : Loc} (v : Nat) (hl : l.off ≠ 0x2780000 + 0x8 * q) :
    (s.set l v).get (R.HOST_QSTAT.STOPPED q) = s.get (R.HOST_QSTAT.STOPPED q) :=
  State.get_set_of_off fun h => hl h.symm

theorem State.stopped_stop (s : State) (q p : Nat) :
    (s.setBit (R.HOST_QSTAT.STOPPED p) true).get (R.HOST_QSTAT.STOPPED q) = if p = q then 1 else s.get (R.HOST_QSTAT.STOPPED q) := by
  split
  · rename_i h
    subst h
    exact State.get_set_same _ _ _ (of_decide_eq_true rfl)
  · rename_i h
    refine State.stopped_set_other _ _ ?_
    simp only [R.HOST_QSTAT.STOPPED]
    omega

theorem State.stopped_endReset (s : State) (q p : Nat) :
    (s.endReset p).get (R.HOST_QSTAT.STOPPED q) = if p = q then 1 else s.get (R.HOST_QSTAT.STOPPED q) := by
  have hB : ∀ (u : State) (v : Nat), (u.set (R.HOST_QSTAT.BUSY p) v).get (R.HOST_QSTAT.STOPPED q) = u.get (R.HOST_QSTAT.STOPPED q) := fun u v =>
    u.stopped_set_field q v (of_decide_eq_true rfl)
  have hE : ∀ (u : State) (v : Nat), (u.set (R.HOST_QSTAT.ERROR p) v).get (R.HOST_QSTAT.STOPPED q) = u.get (R.HOST_QSTAT.STOPPED q) := fun u v =>
    u.stopped_set_field q v (of_decide_eq_true rfl)
  have hT : ∀ (u : State) (v : Nat), (u.set (R.HOST_QSTAT.T p) v).get (R.HOST_QSTAT.STOPPED q) = u.get (R.HOST_QSTAT.STOPPED q) := fun u v =>
    u.stopped_set_field q v (of_decide_eq_true rfl)
  have hR : ∀ (u : State) (r : Nat × Nat), (u.setRetry p r).get (R.HOST_QSTAT.STOPPED q) = u.get (R.HOST_QSTAT.STOPPED q) := fun _ _ => rfl
  have hD : ∀ (u : State) (d : List (Nat × List Byte)), (u.setReady p d).get (R.HOST_QSTAT.STOPPED q) = u.get (R.HOST_QSTAT.STOPPED q) := fun _ _ => rfl
  have hH : ∀ (u : State) (h : HostState), ({ u with host := h } : State).get (R.HOST_QSTAT.STOPPED q) = u.get (R.HOST_QSTAT.STOPPED q) := fun _ _ => rfl
  unfold State.endReset State.stopQueue State.syncBusy
  dsimp only
  rw [State.setBit, hB, hR, hE, State.stopped_stop, hT, hD, hH]

theorem State.flr_endReset (s : State) (p : Nat) : (s.endReset p).host.flr = s.host.flr.filter fun x => x != p := rfl

/-- A queue that takes nothing more takes nothing more through any reset. -/
theorem ResetLasts.halted {q : Nat} (hq : q < 16384) : ResetLasts (State.halted q) := by
  have hfield : ∀ (s : State) (l : Loc) (v : Nat), l.lo + l.w ≤ 63 → s.halted q → (s.set l v).halted q := fun s l v hb =>
    State.halted.of_eq (s.stopped_set_field q v hb) rfl
  have hother : ∀ (s : State) (l : Loc) (v : Nat), l.off ≠ 0x2780000 + 0x8 * q → s.halted q → (s.set l v).halted q := fun s l v hl =>
    State.halted.of_eq (s.stopped_set_other v hl) rfl
  exact {
    out := fun _ _ => State.halted.of_eq rfl rfl
    host := fun _ _ hflr _ => State.halted.of_eq rfl hflr
    tags := fun s l v hl => hother s l v (by omega)
    consumed := fun s p v => hfield s (R.HOST_QSTAT.C p) v (of_decide_eq_true rfl)
    busy := fun s p v => hfield s (R.HOST_QSTAT.BUSY p) v (of_decide_eq_true rfl)
    error := fun s p v => hfield s (R.HOST_QSTAT.ERROR p) v (of_decide_eq_true rfl)
    mover := fun s l v hl => hother s l v (by omega)
    cmd := fun _ _ => State.halted.of_eq rfl rfl
    stopped := fun s p h => by
      refine h.imp (fun h => ?_) fun h => h
      rw [State.stopped_stop, h, ite_self]
    ended := fun s p h => by
      unfold State.halted
      rw [State.stopped_endReset, State.flr_endReset]
      by_cases hp : p = q
      · exact .inl (if_pos hp)
      · rw [if_neg hp]
        exact h.imp id fun h => List.mem_filter.mpr ⟨h, by simpa using Ne.symm hp⟩
    begun := fun s p h => by
      refine h.imp (fun h => h) fun h => ?_
      by_cases hp : p = q
      · simp [hp]
      · exact List.mem_append_left _ (List.mem_filter.mpr ⟨h, by simpa using Ne.symm hp⟩) }

/-! ### A queue that its function's reset has reached (R435) -/

/-- A read of queue `q` is in flight. -/
def State.readInFlight (s : State) (q : Nat) : Bool := s.host.reads.any fun r => r.req.ofQueue q

/-- Queue `q` has given up its descriptors, and has stopped or stops as its reads in flight complete. -/
structure State.resetReached (q : Nat) (s : State) : Prop where
  ready : s.ready q = []
  waits : s.readInFlight q = true → q ∈ s.host.flr
  stops : s.readInFlight q = false → s.get (R.HOST_QSTAT.STOPPED q) = 1 ∧ s.get (R.HOST_QSTAT.ERROR q) = 3 ∧
    s.get (R.HOST_QSTAT.T q) = s.get (R.HOST_QSTAT.C q)

theorem State.readInFlight_false {s : State} {q : Nat} (hf : s.fetching q = none) (hd : s.dataRead q = none) : s.readInFlight q = false := by
  unfold State.fetching at hf
  unfold State.dataRead at hd
  rw [List.find?_eq_none] at hf hd
  refine List.any_eq_false.mpr fun r hr => ?_
  simp only [HostReq.ofQueue, Bool.or_eq_true, not_or]
  exact ⟨hf r hr, hd r hr⟩

theorem State.readInFlight_true {s : State} {q : Nat} (h : s.fetching q ≠ none ∨ s.dataRead q ≠ none) : s.readInFlight q = true := by
  refine List.any_eq_true.mpr ?_
  rcases h with h | h
  · obtain ⟨r, hr⟩ := Option.ne_none_iff_exists'.mp h
    exact ⟨r, List.mem_of_find?_eq_some hr, by simp [HostReq.ofQueue, List.find?_some hr]⟩
  · obtain ⟨r, hr⟩ := Option.ne_none_iff_exists'.mp h
    exact ⟨r, List.mem_of_find?_eq_some hr, by simp [HostReq.ofQueue, List.find?_some hr]⟩

theorem State.resetReached.halted {q : Nat} {s : State} (h : s.resetReached q) : s.halted q := by
  cases hf : s.readInFlight q with
  | true => exact .inr (h.waits hf)
  | false => exact .inl (h.stops hf).1

theorem State.reading_dropRead (s : State) (q : Nat) : (s.dropRead (HostReq.ofQueue q)).reading (HostReq.ofQueue q) = s.readInFlight q := by
  have hwaits : ((s.host.waits.filter fun w => !HostReq.ofQueue q w.req).any fun w => HostReq.ofQueue q w.req) = false := by
    simp
  unfold State.reading State.readInFlight State.dropRead
  dsimp only
  rw [hwaits, Bool.or_false]

/-- The statuses of a queue that has stopped under its function's reset. -/
theorem State.status_endReset (s : State) (q : Nat) : (s.endReset q).get (R.HOST_QSTAT.ERROR q) = 3 ∧
    (s.endReset q).get (R.HOST_QSTAT.T q) = (s.endReset q).get (R.HOST_QSTAT.C q) := by
  have hapart : ∀ (u : State) (l m : Loc) (v : Nat), m.lo + m.w ≤ 64 → l.lo + l.w ≤ m.lo ∨ m.lo + m.w ≤ l.lo → (u.set l v).get m = u.get m :=
    fun _ _ _ _ hm h => State.get_set_of_bits hm h
  have hR : ∀ (u : State) (r : Nat × Nat) (l : Loc), (u.setRetry q r).get l = u.get l := fun _ _ _ => rfl
  have hD : ∀ (u : State) (d : List (Nat × List Byte)) (l : Loc), (u.setReady q d).get l = u.get l := fun _ _ _ => rfl
  have hH : ∀ (u : State) (h : HostState) (l : Loc), ({ u with host := h } : State).get l = u.get l := fun _ _ _ => rfl
  have hE : ∀ (u : State), (u.stopQueue q 3).get (R.HOST_QSTAT.ERROR q) = 3 := fun u => by
    rw [State.stopQueue, State.syncBusy, State.setBit, hapart _ (R.HOST_QSTAT.BUSY q) _ _ (of_decide_eq_true rfl) (of_decide_eq_true rfl), hR,
      State.get_set_same _ _ _ (of_decide_eq_true rfl)]
    rfl
  have hkeep : ∀ (u : State) (m : Loc), m.lo + m.w ≤ 60 → (u.stopQueue q 3).get m = u.get m := fun u m hm => by
    rw [State.stopQueue, State.syncBusy, State.setBit, hapart _ (R.HOST_QSTAT.BUSY q) _ _ (by omega) (.inr (Nat.le_trans hm (of_decide_eq_true rfl))), hR,
      hapart _ (R.HOST_QSTAT.ERROR q) _ _ (by omega) (.inr hm), State.setBit,
      hapart _ (R.HOST_QSTAT.STOPPED q) _ _ (by omega) (.inr (Nat.le_trans hm (of_decide_eq_true rfl)))]
  unfold State.endReset
  dsimp only
  refine ⟨hE _, ?_⟩
  rw [hkeep _ _ (of_decide_eq_true rfl), hkeep _ _ (of_decide_eq_true rfl), State.get_set_same _ _ _ (of_decide_eq_true rfl),
    hapart _ (R.HOST_QSTAT.T q) (R.HOST_QSTAT.C q) _ (of_decide_eq_true rfl) (of_decide_eq_true rfl)]
  exact Nat.mod_eq_of_lt (State.get_lt _ (R.HOST_QSTAT.C q))

theorem State.status_endReset_other (s : State) {q p : Nat} (hp : p ≠ q) {l : Loc} (hl : l.off = 0x2780000 + 0x8 * q) :
    (s.endReset p).get l = s.get l := by
  have hset : ∀ (u : State) (m : Loc) (v : Nat), m.off = 0x2780000 + 0x8 * p → (u.set m v).get l = u.get l := fun u m v hm =>
    State.get_set_of_off (by omega)
  have hR : ∀ (u : State) (r : Nat × Nat), (u.setRetry p r).get l = u.get l := fun _ _ => rfl
  have hD : ∀ (u : State) (d : List (Nat × List Byte)), (u.setReady p d).get l = u.get l := fun _ _ => rfl
  have hH : ∀ (u : State) (h : HostState), ({ u with host := h } : State).get l = u.get l := fun _ _ => rfl
  unfold State.endReset State.stopQueue State.syncBusy State.setBit
  dsimp only
  rw [hset _ (R.HOST_QSTAT.BUSY p) _ rfl, hR, hset _ (R.HOST_QSTAT.ERROR p) _ rfl, hset _ (R.HOST_QSTAT.STOPPED p) _ rfl,
    hset _ (R.HOST_QSTAT.T p) _ rfl, hD, hH]

theorem State.reads_endReset (s : State) (p : Nat) : (s.endReset p).host.reads = s.host.reads := rfl

theorem State.ready_endReset (s : State) (q p : Nat) : (s.endReset p).ready q = if p = q then [] else s.ready q := by
  have h : (s.endReset p).host.ready = s.host.ready.put (fun _ => []) p [] := rfl
  rw [State.ready, h, SMap.find_put]
  simp only [eq_comm (a := q) (b := p), State.ready]

theorem State.resetReached_endReset (s : State) (q : Nat) (h : s.readInFlight q = false) : (s.endReset q).resetReached q := by
  have hnone : (s.endReset q).readInFlight q = false := by rw [State.readInFlight, State.reads_endReset]; exact h
  refine ⟨(s.ready_endReset q q).trans (if_pos rfl), fun hc => ?_, fun _ => ⟨(s.stopped_endReset q q).trans (if_pos rfl), s.status_endReset q⟩⟩
  rw [hnone] at hc
  cases hc

/-- The reset of a queue whose reads in flight have not completed. -/
def State.resetBegins (s : State) (q : Nat) : State :=
  (({ s with host := { s.host with flr := (s.host.flr.filter fun x => x != q) ++ [q] } }).setReady q []).setRetry q (0, 0)

theorem State.startReset_eq (s : State) (q : Nat) : s.startReset q =
    if s.readInFlight q then (s.dropRead (HostReq.ofQueue q)).resetBegins q else (s.dropRead (HostReq.ofQueue q)).endReset q := by
  unfold State.startReset
  dsimp only
  rw [State.reading_dropRead]
  rfl

theorem State.resetReached_startReset (s : State) (q : Nat) : (s.startReset q).resetReached q := by
  rw [State.startReset_eq]
  by_cases h : s.readInFlight q = true
  · rw [if_pos h]
    have hready : ((s.dropRead (HostReq.ofQueue q)).resetBegins q).ready q = [] := SMap.find_put_same ..
    have hflr : ((s.dropRead (HostReq.ofQueue q)).resetBegins q).host.flr = (s.host.flr.filter fun x => x != q) ++ [q] := rfl
    have hin : ((s.dropRead (HostReq.ofQueue q)).resetBegins q).readInFlight q = true := h
    refine ⟨hready, fun _ => ?_, fun hc => ?_⟩
    · rw [hflr]
      exact List.mem_append_right _ (List.mem_singleton_self q)
    · rw [hin] at hc
      cases hc
  · rw [if_neg h]
    have hin : (s.dropRead (HostReq.ofQueue q)).readInFlight q = false := Bool.eq_false_iff.mpr h
    exact State.resetReached_endReset _ q hin

theorem State.resetReached.of_eq {q : Nat} {s t : State} (hready : t.ready q = s.ready q) (hreads : t.host.reads = s.host.reads)
    (hflr : q ∈ s.host.flr → q ∈ t.host.flr) (hget : ∀ l : Loc, l.off = 0x2780000 + 0x8 * q → t.get l = s.get l) (h : s.resetReached q) :
    t.resetReached q := by
  obtain ⟨h1, h2, h3⟩ := h
  have hin : t.readInFlight q = s.readInFlight q := by rw [State.readInFlight, hreads, State.readInFlight]
  refine ⟨hready.trans h1, fun hc => hflr (h2 (hin ▸ hc)), fun hc => ?_⟩
  rw [hget (R.HOST_QSTAT.STOPPED q) rfl, hget (R.HOST_QSTAT.ERROR q) rfl, hget (R.HOST_QSTAT.T q) rfl, hget (R.HOST_QSTAT.C q) rfl]
  exact h3 (hin ▸ hc)

theorem State.resetReached.resetBegins {u : State} {q p : Nat} (hp : p ≠ q) (h : u.resetReached q) : (u.resetBegins p).resetReached q := by
  have hready : (u.resetBegins p).ready q = u.ready q := SMap.find_put_other _ _ _ _ _ (Ne.symm hp)
  have hflr : (u.resetBegins p).host.flr = (u.host.flr.filter fun x => x != p) ++ [p] := rfl
  refine State.resetReached.of_eq hready rfl (fun hq => ?_) (fun _ _ => rfl) h
  rw [hflr]
  exact List.mem_append_left _ (List.mem_filter.mpr ⟨hq, by simpa using Ne.symm hp⟩)

theorem State.resetReached.endReset {u : State} {q p : Nat} (hp : p ≠ q) (h : u.resetReached q) : (u.endReset p).resetReached q := by
  refine State.resetReached.of_eq ?_ (u.reads_endReset p) (fun hq => ?_) (fun l hl => u.status_endReset_other hp hl) h
  · rw [State.ready_endReset, if_neg hp]
  · rw [State.flr_endReset]
    exact List.mem_filter.mpr ⟨hq, by simpa using Ne.symm hp⟩

theorem State.resetReached_other {s : State} {q p : Nat} (hp : p ≠ q) (h : s.resetReached q) : (s.startReset p).resetReached q := by
  have hdrop : (s.dropRead (HostReq.ofQueue p)).resetReached q := State.resetReached.of_eq (s := s) rfl rfl (fun hq => hq) (fun _ _ => rfl) h
  rw [State.startReset_eq]
  split
  · exact hdrop.resetBegins hp
  · exact hdrop.endReset hp

/-- The reset of a function reaches each of its queues. -/
theorem State.resetReached_all {l : List Nat} {q : Nat} (hq : q ∈ l) (s : State) : (l.foldl (fun (t : State) p => t.startReset p) s).resetReached q :=
  foldl_establishes (fun t => t.resetReached_startReset q) hq (fun p _ t ht => by
    by_cases hp : p = q
    · exact hp ▸ t.resetReached_startReset p
    · exact State.resetReached_other hp ht) s

/-! ### The queues of a function -/

/-- At reset every queue belongs to PF0. -/
theorem resetWord_func {q : Nat} (hq : q < 16384) : bitsGet (resetWord (R.HOST_Q.FUNC q).off).toNat 46 13 = 0 := by
  have hrows : ∀ r ∈ resetTable, r.1 + dimsEnd r.2.1 ≤ 0x2740000 ∨ 0x2780000 ≤ r.1 ∨ bitsGet (BitVec.ofNat 64 r.2.2).toNat 46 13 = 0 := by decide +kernel
  have hoff : (R.HOST_Q.FUNC q).off = 0x2740000 + 0x10 * q := rfl
  unfold resetWord
  iterate 4 rw [if_neg (by omega)]
  split
  · rename_i r hr
    have hmem := List.mem_of_find?_eq_some hr
    have hhit := List.find?_some hr
    simp only [Bool.and_eq_true, decide_eq_true_eq] at hhit
    have hend := lt_dimsEnd hhit.2
    rcases hrows r hmem with h | h | h
    · omega
    · omega
    · exact h
  · decide

theorem State.mem_queuesOf {s : State} {p : Nat → Bool} {q : Nat} (hq : q < 16384) (h : p (s.get (R.HOST_Q.FUNC q)) = true) : q ∈ s.queuesOf p := by
  refine List.mem_filter.mpr ⟨?_, h⟩
  split
  · exact List.mem_range.mpr hq
  · rename_i hp
    by_contra hused
    have hnone : ∀ e ∈ s.regs, e.1 ≠ 0x2740000 + 0x10 * q := by
      intro e he heq
      refine hused (List.mem_map.mpr ⟨e, List.mem_filter.mpr ⟨he, ?_⟩, by omega⟩)
      simp only [Bool.and_eq_true, decide_eq_true_eq, beq_iff_eq]
      omega
    have hword : s.word (R.HOST_Q.FUNC q).off = resetWord (R.HOST_Q.FUNC q).off := SMap.find_none _ _ _ hnone
    have hget : s.get (R.HOST_Q.FUNC q) = 0 := by
      rw [State.get, hword]
      exact resetWord_func hq
    exact hp (hget ▸ h)

/-! ### A host link that trains (R433) -/

theorem execHostLinkTrained_half {s : State} {ep rate width : Nat} (hwf : Instr.wf (.hostLinkTrained ep true rate width) = true) (hcore : s.coreUp = true)
    (hup : s.epUp ep = true) (hbif : s.power.hxBif.getD ep false = true) (hw : width ≤ 8) :
    exec (.hostLinkTrained ep true rate width) s = .next ((s.set (R.HOST_LINK.RATE_B ep) rate).set (R.HOST_LINK.WIDTH_B ep) width).settle := by
  refine complete_of_eq hwf ?_
  have hlanes : ¬ s.hostLanes ep < width := by
    rw [State.hostLanes, if_pos hbif]
    omega
  simp only [hcore, hup, hlanes, hbif, Bool.not_true, decide_false, Bool.or_self, Bool.false_eq_true, if_false, Bool.and_self, if_true]

theorem execHostLinkTrained_whole {s : State} {ep rate width : Nat} (hwf : Instr.wf (.hostLinkTrained ep false rate width) = true) (hcore : s.coreUp = true)
    (hup : s.epUp ep = true) (hw : width ≤ s.hostLanes ep) :
    exec (.hostLinkTrained ep false rate width) s = .next ((s.set (R.HOST_LINK.RATE_A ep) rate).set (R.HOST_LINKW.WIDTH_A ep) width).settle := by
  refine complete_of_eq hwf ?_
  simp [hcore, hup, Nat.not_lt.mpr hw]

theorem hostLinkTrained_bounds {ep rate width : Nat} {half : Bool} (hwf : Instr.wf (.hostLinkTrained ep half rate width) = true) :
    ep < 2 ∧ rate < 8 ∧ width < 32 := by
  simp only [Instr.wf, Bool.and_eq_true, decide_eq_true_eq] at hwf
  omega

/-! ### The reset pin of an endpoint (R586) -/

/-- The links of an endpoint in reset. -/
def State.linksReset (s : State) (ep : Nat) : State :=
  (((s.set (R.HOST_LINK.RATE_A ep) 0).set (R.HOST_LINK.RATE_B ep) 0).set (R.HOST_LINK.WIDTH_B ep) 0).set (R.HOST_LINKW.WIDTH_A ep) 0

/-- The requesters of what an endpoint in reset discards are told. -/
def State.tellAll (s : State) (gone : List HostReq) : State := gone.eraseDups.foldl (fun (t : State) r => t.tellFailed r) s

/-- The endpoint's pin is low, its links are in reset, and what its crossing held is discarded. -/
def State.pinLow (s : State) (ep : Nat) : State :=
  (({ s with power := { s.power with perstN := s.power.perstN.set ep false } } : State).discardItems (fun x => x == 432 + ep) (264 + ep)).linksReset ep

/-- The reads over an endpoint's links. -/
def State.readsOver (s : State) (ep : Nat) : List HostReq :=
  ((s.host.reads.filter fun r => r.link % 2 == ep).map (·.req)) ++ ((s.host.waits.filter fun w => w.link % 2 == ep).map (·.req))

/-- What the host side holds once the reads over an endpoint's links are given up and its functions' configuration spaces are reset. -/
def State.hostWithout (s u : State) (ep : Nat) : HostState :=
  { u.host with
    waits := u.host.waits.filter fun w => !(w.link % 2 == ep)
    parts := u.host.parts.filter fun x => !(s.readsOver ep).contains x.1
    sizes := u.host.sizes.filter fun e => s.epOfFunc e.1 != ep }

/-- The reads over the links of an endpoint whose pin is low have ended. -/
def State.pinReads (s : State) (ep : Nat) : State :=
  ({ s.pinLow ep with host := s.hostWithout (s.pinLow ep) ep } : State).endReads fun r => r.link % 2 == ep

theorem State.perst_low (s : State) (ep : Nat) : s.perst ep false =
    (((s.pinReads ep).queuesOf fun f => (s.pinReads ep).epOfFunc f == ep).foldl (fun (t : State) q => t.startReset q) (s.pinReads ep)).tellAll
      (s.readsOver ep) := rfl

theorem ResetLasts.pinReads {P : State → Prop} (h : ResetLasts P) {s : State} {ep : Nat} (hs : P (s.pinLow ep)) : P (s.pinReads ep) :=
  h.endReads _ (h.host (s.pinLow ep) (s.hostWithout (s.pinLow ep) ep) rfl rfl hs)

theorem ResetLasts.tellAll {P : State → Prop} (h : ResetLasts P) {s : State} (gone : List HostReq) (hs : P s) : P (s.tellAll gone) :=
  List.foldlRecOn _ _ hs fun _ ht r _ => h.tellFailed r ht

theorem ResetLasts.startResets {P : State → Prop} (h : ResetLasts P) {s : State} (l : List Nat) (hs : P s) :
    P (l.foldl (fun (t : State) q => t.startReset q) s) :=
  List.foldlRecOn _ _ hs fun _ ht q _ => h.startReset q ht

theorem ResetLasts.perst {P : State → Prop} (h : ResetLasts P) {s : State} {ep : Nat} (hs : P (s.pinLow ep)) : P (s.perst ep false) := by
  rw [State.perst_low]
  exact h.tellAll _ (h.startResets _ (h.pinReads hs))

theorem State.power_endReset (s : State) (q : Nat) : (s.endReset q).power = s.power := by
  simp only [State.endReset, State.stopQueue, State.syncBusy, State.setRetry, State.setReady, State.setBit, State.set, State.setWord]

theorem ResetLasts.power (p : PowerState) : ResetLasts fun s : State => s.power = p where
  out _ _ h := h
  host _ _ _ _ h := h
  tags _ _ _ _ h := h
  consumed _ _ _ h := h
  busy _ _ _ h := h
  stopped _ _ h := h
  error _ _ _ h := h
  ended s q h := (s.power_endReset q).trans h
  begun _ _ h := h
  mover _ _ _ _ h := h
  cmd _ _ h := h

theorem State.vfs_endReset (s : State) (q : Nat) : (s.endReset q).host.vfs = s.host.vfs := rfl

theorem ResetLasts.vfs (l : List Nat) : ResetLasts fun s : State => s.host.vfs = l where
  out _ _ h := h
  host _ _ _ hv h := hv.trans h
  tags _ _ _ _ h := h
  consumed _ _ _ h := h
  busy _ _ _ h := h
  stopped _ _ h := h
  error _ _ _ h := h
  ended s q h := (s.vfs_endReset q).trans h
  begun _ _ h := h
  mover _ _ _ _ h := h
  cmd _ _ h := h

section
variable {s : State} {ep : Nat}

theorem State.pinLow_get {l : Loc} (ha : l.off ≠ 0x2700010 + 0x8 * ep) (hb : l.off ≠ 0x2700020 + 0x8 * ep) : (s.pinLow ep).get l = s.get l := by
  have h1 : ∀ (u : State) (m : Loc), m.off = 0x2700010 + 0x8 * ep → (u.set m 0).get l = u.get l := fun u m hm => State.get_set_of_off (hm ▸ ha)
  have h2 : ∀ (u : State) (m : Loc), m.off = 0x2700020 + 0x8 * ep → (u.set m 0).get l = u.get l := fun u m hm => State.get_set_of_off (hm ▸ hb)
  have hp : ∀ (u : State) (p : PowerState), ({ u with power := p } : State).get l = u.get l := fun _ _ => rfl
  have hd : ∀ (u : State) (p : Nat → Bool) (c : Nat), (u.discardItems p c).get l = u.get l := fun _ _ _ => rfl
  unfold State.pinLow State.linksReset
  rw [h2 _ (R.HOST_LINKW.WIDTH_A ep) rfl, h1 _ (R.HOST_LINK.WIDTH_B ep) rfl, h1 _ (R.HOST_LINK.RATE_B ep) rfl, h1 _ (R.HOST_LINK.RATE_A ep) rfl, hd, hp]

theorem State.linksReset_shows (u : State) : (u.linksReset ep).get (R.HOST_LINK.RATE_A ep) = 0 ∧ (u.linksReset ep).get (R.HOST_LINK.RATE_B ep) = 0 ∧
    (u.linksReset ep).get (R.HOST_LINK.WIDTH_B ep) = 0 ∧ (u.linksReset ep).get (R.HOST_LINKW.WIDTH_A ep) = 0 := by
  have hword : ∀ (u : State) (l : Loc) (v : Nat), l.off = 0x2700010 + 0x8 * ep → (u.set (R.HOST_LINKW.WIDTH_A ep) v).get l = u.get l := fun u l v hl =>
    State.get_set_of_off (by simp only [R.HOST_LINKW.WIDTH_A]; omega)
  have hsame : ∀ (u : State) (l : Loc), l.lo + l.w ≤ 64 → (u.set l 0).get l = 0 := fun u l hl => (State.get_set_same _ _ _ hl).trans (Nat.zero_mod _)
  have hapart : ∀ (u : State) (l m : Loc) (v : Nat), m.lo + m.w ≤ 64 → l.lo + l.w ≤ m.lo ∨ m.lo + m.w ≤ l.lo → (u.set l v).get m = u.get m :=
    fun _ _ _ _ hm h => State.get_set_of_bits hm h
  unfold State.linksReset
  refine ⟨?_, ?_, ?_, hsame _ _ (of_decide_eq_true rfl)⟩
  · rw [hword _ _ _ rfl, hapart _ (R.HOST_LINK.WIDTH_B ep) (R.HOST_LINK.RATE_A ep) _ (of_decide_eq_true rfl) (of_decide_eq_true rfl),
      hapart _ (R.HOST_LINK.RATE_B ep) (R.HOST_LINK.RATE_A ep) _ (of_decide_eq_true rfl) (of_decide_eq_true rfl), hsame _ _ (of_decide_eq_true rfl)]
  · rw [hword _ _ _ rfl, hapart _ (R.HOST_LINK.WIDTH_B ep) (R.HOST_LINK.RATE_B ep) _ (of_decide_eq_true rfl) (of_decide_eq_true rfl),
      hsame _ _ (of_decide_eq_true rfl)]
  · rw [hword _ _ _ rfl, hsame _ _ (of_decide_eq_true rfl)]

/-- A low pin leaves every queue of the endpoint's functions halted. -/
theorem State.perst_halts {q : Nat} (hq : q < 16384) (hep : ep < 2) (hfunc : s.epOfFunc (s.get (R.HOST_Q.FUNC q)) = ep) : (s.perst ep false).halted q := by
  have hvfs : (s.pinReads ep).host.vfs = s.host.vfs := (ResetLasts.vfs _).pinReads rfl
  have hf : (s.pinReads ep).get (R.HOST_Q.FUNC q) = s.get (R.HOST_Q.FUNC q) := by
    refine (ResetLasts.of_get (l := R.HOST_Q.FUNC q) _ ?_ ?_).pinReads (State.pinLow_get ?_ ?_)
    all_goals simp only [R.HOST_Q.FUNC]; omega
  have hmem : q ∈ (s.pinReads ep).queuesOf fun f => (s.pinReads ep).epOfFunc f == ep := by
    refine State.mem_queuesOf hq ?_
    rw [hf, State.epOfFunc, State.pfOf, hvfs]
    exact beq_iff_eq.mpr hfunc
  rw [State.perst_low]
  exact (ResetLasts.halted hq).tellAll _ (State.resetReached_all hmem _).halted

end

/-! ### Messages, resets and links of the host (R433, R435, R449, R586) -/

theorem State.reads_startReset (s : State) (q : Nat) : (s.startReset q).host.reads = s.host.reads := by
  rw [State.startReset_eq]
  split
  · rfl
  · rw [State.reads_endReset]
    rfl

theorem execMsixModeration_due {s : State} {func vec : Nat} (hwf : Instr.wf (.msixModeration func vec) = true) (hcore : s.coreUp = true)
    (hpos : 0 < (SMap.find (fun _ => (0, 0)) s.host.moder (2048 * func + vec)).1)
    (hdue : (SMap.find (fun _ => (0, 0)) s.host.moder (2048 * func + vec)).2 ≤ s.ns) :
    exec (.msixModeration func vec) s = .next (s.sendMsix func vec).settle :=
  complete_of_eq hwf (if_pos (by rw [hcore, decide_eq_true hpos, decide_eq_true hdue]; rfl))

theorem State.sendMsix_kept (s : State) (func vec : Nat) :
    s.kept { (s.sendMsix func vec).settle with host := s.host } (s.hostOut (s.linkOf func) [.msix func vec]) fun _ => False := by
  have hmsg : ∃ h : HostState, s.sendMsix func vec = { s.emitAll (s.hostOut (s.linkOf func) [.msix func vec]) with host := h } :=
    ⟨_, by rw [State.sendMsix, State.toHost_eq]⟩
  obtain ⟨h, hmsg⟩ := hmsg
  rw [hmsg]
  exact State.kept_sent (g := fun y : State => { y with host := s.host }) (fun _ => rfl) (fun _ => rfl) (fun _ => rfl) rfl rfl fun _ _ => rfl

theorem execHxPerstN_eq {s : State} {ep : Nat} {level : Bool} (h : ep < 2) : exec (.hxPerstN ep level) s = .next (s.perst ep level).settle :=
  complete_of_eq (decide_eq_true h) rfl

/-- At the rise of the pin the ring of the bulk mover goes on. -/
theorem State.perst_high (s : State) (ep : Nat) : s.perst ep true =
    if s.forwarding then ({ s with power := { s.power with perstN := s.power.perstN.set ep true } } : State).dmaFetch
    else { s with power := { s.power with perstN := s.power.perstN.set ep true } } := rfl

/-- Settles O20: the reset of a function reaches each of its queues and none of the others undoes it; a low pin ends the reads over its links,
resets the queues of its functions, and tells the requesters, which leave every halted queue halted. -/
theorem hostLinksAndResets : Obligations.HostLinksAndResets := by
  refine ⟨?_, ?_, ?_, ?_, ?_, ?_⟩
  · intro s func vec hwf hcore hpos hdue
    refine ⟨_, execMsixModeration_due hwf hcore hpos hdue, ?_, s.sendMsix_kept func vec⟩
    rw [State.settle_host]
    exact SMap.find_put_same _ _ _ _
  · intro s src hwf hmode
    refine ⟨_, complete_of_eq (u := (s.queuesOf fun f => f == src.func).foldl (fun (t : State) q => t.startReset q) s) hwf
      (if_pos (by rw [hmode]; rfl)), fun q hq hfunc => ?_⟩
    have hreach : State.resetReached q ((s.queuesOf fun f => f == src.func).foldl (fun (t : State) q => t.startReset q) s) :=
      State.resetReached_all (State.mem_queuesOf (p := fun f => f == src.func) hq (beq_iff_eq.mpr hfunc)) s
    have hreads : ((s.queuesOf fun f => f == src.func).foldl (fun (t : State) q => t.startReset q) s).readInFlight q = s.readInFlight q := by
      rw [State.readInFlight, foldl_keeps (g := fun t : State => t.host.reads) State.reads_startReset, State.readInFlight]
    have hget : ∀ (u : State) (l : Loc), l.off = 0x2780000 + 0x8 * q → u.settle.get l = u.get l := fun u l hl =>
      State.settle_get u (by rw [hl]; simp only [followReg]; omega)
    generalize (s.queuesOf fun f => f == src.func).foldl (fun (t : State) q => t.startReset q) s = u at hreach hreads
    refine ⟨?_, ?_, fun hf hd => ?_, fun h => ?_⟩
    · rw [State.ready, State.settle_host]
      exact hreach.ready
    · exact (State.halted.of_eq (hget u (R.HOST_QSTAT.STOPPED q) rfl) (congrArg HostState.flr u.settle_host) hreach.halted).queueRuns
    · obtain ⟨hs, he, ht⟩ := hreach.stops (hreads.trans (State.readInFlight_false hf hd))
      rw [hget u (R.HOST_QSTAT.ERROR q) rfl, hget u (R.HOST_QSTAT.T q) rfl, hget u (R.HOST_QSTAT.C q) rfl, State.bit, hget u (R.HOST_QSTAT.STOPPED q) rfl, hs]
      exact ⟨rfl, he, ht⟩
    · rw [State.settle_host]
      exact hreach.waits (hreads.trans (State.readInFlight_true h))
  · intro s ep hep
    refine ⟨_, execHxPerstN_eq hep, ?_, fun h => ?_⟩
    · rw [State.settle_power]
      rw [State.perst_high]
      split
      · exact congrArg PowerState.perstN ((ResetLasts.power { s.power with perstN := s.power.perstN.set ep true }).toHostLasts.dmaFetch rfl)
      · rfl
    · have hidle : s.perst ep true = { s with power := { s.power with perstN := s.power.perstN.set ep true } } := by
        rw [State.perst_high]
        rcases h with h | h
        · exact if_neg (by simp [h])
        · split
          · exact State.dmaFetch_stopped h
          · rfl
      rw [hidle]
      exact s.kept_power_only _
  · intro s ep hep
    obtain ⟨hra, hrb, hwb, hwa⟩ := State.linksReset_shows (ep := ep)
      (({ s with power := { s.power with perstN := s.power.perstN.set ep false } } : State).discardItems (fun x => x == 432 + ep) (264 + ep))
    have hget : ∀ l : Loc, l.off = 0x2700010 + 0x8 * ep ∨ l.off = 0x2700020 + 0x8 * ep → (s.pinLow ep).get l = 0 →
        (s.perst ep false).settle.get l = 0 := fun l hl h => by
      rw [State.settle_get _ (by simp only [followReg]; omega)]
      exact (ResetLasts.of_get 0 (by omega) (by omega)).perst h
    refine ⟨_, execHxPerstN_eq hep, ?_, hget _ (.inl rfl) hra, hget _ (.inl rfl) hrb, hget _ (.inl rfl) hwb, hget _ (.inr rfl) hwa, fun q hq hfunc => ?_⟩
    · rw [State.settle_power]
      exact congrArg PowerState.perstN ((ResetLasts.power { s.power with perstN := s.power.perstN.set ep false }).perst rfl)
    · have hstat : (s.perst ep false).settle.get (R.HOST_QSTAT.STOPPED q) = (s.perst ep false).get (R.HOST_QSTAT.STOPPED q) :=
        State.settle_get _ (by simp only [R.HOST_QSTAT.STOPPED, followReg]; omega)
      exact (State.halted.of_eq hstat (congrArg HostState.flr (State.settle_host _)) (State.perst_halts hq hep hfunc)).queueRuns
  · intro s ep rate width hwf hcore hup hw
    obtain ⟨hep, hrate, hwidth⟩ := hostLinkTrained_bounds hwf
    refine ⟨_, execHostLinkTrained_whole hwf hcore hup hw, ?_, ?_, State.kept_registers rfl rfl rfl fun k hk => ?_⟩
    · rw [State.settle_get _ (by simp only [R.HOST_LINK.RATE_A, followReg]; omega),
        State.get_set_of_off (by simp only [R.HOST_LINK.RATE_A, R.HOST_LINKW.WIDTH_A]; omega), State.get_set_same _ _ _ (of_decide_eq_true rfl)]
      exact Nat.mod_eq_of_lt hrate
    · rw [State.settle_get _ (by simp only [R.HOST_LINKW.WIDTH_A, followReg]; omega), State.get_set_same _ _ _ (of_decide_eq_true rfl)]
      exact Nat.mod_eq_of_lt hwidth
    · rw [State.word_set_other _ fun h => hk (.inr h), State.word_set_other _ fun h => hk (.inl h)]
  · intro s ep rate width hwf hcore hup hbif hw
    obtain ⟨hep, hrate, hwidth⟩ := hostLinkTrained_bounds hwf
    refine ⟨_, execHostLinkTrained_half hwf hcore hup hbif hw, ?_, ?_, State.kept_registers rfl rfl rfl fun k hk => ?_⟩
    · rw [State.settle_get _ (by simp only [R.HOST_LINK.RATE_B, followReg]; omega),
        State.get_set_of_bits (of_decide_eq_true rfl) (of_decide_eq_true rfl), State.get_set_same _ _ _ (of_decide_eq_true rfl)]
      exact Nat.mod_eq_of_lt hrate
    · rw [State.settle_get _ (by simp only [R.HOST_LINK.WIDTH_B, followReg]; omega), State.get_set_same _ _ _ (of_decide_eq_true rfl)]
      exact Nat.mod_eq_of_lt hwidth
    · rw [State.word_set_other (l := R.HOST_LINK.WIDTH_B ep) _ hk, State.word_set_other (l := R.HOST_LINK.RATE_B ep) _ hk]

end Sys2Proof.Machine
end

section
/-! SUPPORT. Pauses and the frames that carry them (R69, R389 to R391). -/
namespace Sys2Proof.Machine

/-! ### Frames that a port counts (R383, R556) -/

section
variable (s : State) (n len : Nat)

/-- The registers in which a good frame shows. -/
abbrev goodReg (n k : Nat) : Prop := k = (R.MAC_CNT.COUNT n 0).off ∨ k = (R.MAC_CNT.COUNT n 1).off

theorem countReg_ne {n i j : Nat} (h : i ≠ j) : (R.MAC_CNT.COUNT n i).off ≠ (R.MAC_CNT.COUNT n j).off := by
  simp only [R.MAC_CNT.COUNT]
  omega

theorem State.countAt_word_same (s : State) (l : Loc) (k t : Nat) : (s.countAt l k t).word l.off = s.word l.off + BitVec.ofNat 64 k := by
  have h : (s.countAt l k t).word l.off = BitVec.ofNat 64 (counterAdd (s.word l.off).toNat k).1 := State.word_setWord_same s l.off _
  rw [h]
  refine BitVec.eq_of_toNat_eq ?_
  simp only [counterAdd, BitVec.toNat_ofNat, BitVec.toNat_add]
  omega

theorem State.countGood_words (s : State) (n len : Nat) :
    (s.countGood n len).word (R.MAC_CNT.COUNT n 0).off = s.word (R.MAC_CNT.COUNT n 0).off + 1 ∧
    (s.countGood n len).word (R.MAC_CNT.COUNT n 1).off = s.word (R.MAC_CNT.COUNT n 1).off + BitVec.ofNat 64 len ∧
    ∀ k, ¬ goodReg n k → (s.countGood n len).word k = s.word k := by
  unfold State.countGood State.countGoodAt
  refine ⟨?_, ?_, fun k hk => ?_⟩
  · rw [State.countAt_word_other _ (countReg_ne (by decide)), State.countAt_one]
  · rw [State.countAt_word_same, State.countAt_word_other _ (countReg_ne (by decide))]
  · rw [State.countAt_word_other _ fun h => hk (.inr h), State.countAt_word_other _ fun h => hk (.inl h)]

theorem State.countGood_still : (s.countGood n len).still = s.still := (State.countAt_still ..).trans (State.countAt_still ..)
theorem State.countGood_out : (s.countGood n len).out = s.out := (State.countAt_out ..).trans (State.countAt_out ..)
theorem State.countGood_tb : (s.countGood n len).tb = s.tb := rfl

/-- What a good frame leaves of the registers of the port. -/
theorem State.countGood_get {l : Loc} (h : ¬ goodReg n l.off) : (s.countGood n len).get l = s.get l := by
  rw [State.get, (s.countGood_words n len).2.2 _ h, State.get]

end

/-! ### Hold timers (R389) -/

/-- The frame of a command that moves hold timers and counts a control frame. -/
theorem State.holds_kept {s x : State} {but : Nat → Prop} (hs : ({ x with mac := { x.mac with holds := s.mac.holds } } : State).still = s.still)
    (hout : x.out = s.out) (hw : ∀ k, ¬ but k → x.word k = s.word k) :
    s.kept { x.settle with mac := { x.settle.mac with holds := s.mac.holds } } [] but :=
  State.kept_sent (g := fun y : State => { y with mac := { y.mac with holds := s.mac.holds } }) (fun _ => rfl) (fun _ => rfl) (fun _ => rfl) hs
    (hout.trans (List.append_nil _).symm) hw

/-- The state of the port's pause and priority holds after a pause frame of `q` quanta. -/
theorem State.pauseReceived_words (s : State) (n q : Nat) :
    (s.pauseReceived n q).word (R.MAC_CNT.COUNT n 7).off = s.word (R.MAC_CNT.COUNT n 7).off + 1 ∧
    ∀ k, k ≠ (R.MAC_CNT.COUNT n 7).off → (s.pauseReceived n q).word k = s.word k :=
  ⟨State.countAt_one .., fun _ hk => State.count_word_other _ hk⟩

theorem State.pauseReceived_mac (s : State) (n q : Nat) : (s.pauseReceived n q).mac =
    { s.mac with holds := s.mac.holds.put (fun _ => 0) (16 * n + 8) (s.holdEnd n q) } := rfl

/-- The priorities below `k` hold their queues as the frame says. -/
def State.prioHolds (s : State) (n enable : Nat) (quanta : List Nat) (k : Nat) : State :=
  (List.range k).foldl (fun t p => if enable.testBit p then t.setHold n p (t.holdEnd n (quanta.getD p 0)) else t) s

theorem State.prioHolds_succ (s : State) (n enable : Nat) (quanta : List Nat) (k : Nat) : s.prioHolds n enable quanta (k + 1) =
    if enable.testBit k then (s.prioHolds n enable quanta k).setHold n k ((s.prioHolds n enable quanta k).holdEnd n (quanta.getD k 0))
    else s.prioHolds n enable quanta k := by
  rw [State.prioHolds, List.range_succ, List.foldl_append]
  rfl

/-- Only hold timers have moved. -/
theorem State.prioHolds_eq (s : State) (n enable : Nat) (quanta : List Nat) (k : Nat) :
    ∃ h, s.prioHolds n enable quanta k = { s with mac := { s.mac with holds := h } } := by
  induction k with
  | zero => exact ⟨s.mac.holds, rfl⟩
  | succ k ih =>
    obtain ⟨h, heq⟩ := ih
    rw [State.prioHolds_succ, heq]
    split
    · exact ⟨_, rfl⟩
    · exact ⟨h, rfl⟩

theorem State.prioHolds_holdEnd (s : State) (n enable : Nat) (quanta : List Nat) (k q : Nat) :
    (s.prioHolds n enable quanta k).holdEnd n q = s.holdEnd n q := by
  obtain ⟨h, heq⟩ := s.prioHolds_eq n enable quanta k
  rw [heq]
  rfl

theorem State.prioHolds_find (s : State) (n enable : Nat) (quanta : List Nat) (k p : Nat) :
    SMap.find (fun _ => 0) (s.prioHolds n enable quanta k).mac.holds (16 * n + p) =
      if p < k ∧ enable.testBit p = true then s.holdEnd n (quanta.getD p 0) else SMap.find (fun _ => 0) s.mac.holds (16 * n + p) := by
  induction k with
  | zero => rfl
  | succ k ih =>
    rw [State.prioHolds_succ]
    by_cases hp : p = k
    · subst hp
      by_cases hb : enable.testBit p = true
      · rw [if_pos hb, if_pos ⟨p.lt_succ_self, hb⟩, State.prioHolds_holdEnd]
        exact SMap.find_put_same _ _ _ _
      · rw [if_neg hb, if_neg fun h => hb h.2, ih, if_neg fun h => hb h.2]
    · have hlt : p < k + 1 ↔ p < k := by omega
      simp only [hlt]
      rw [← ih]
      split
      · exact SMap.find_put_other _ _ _ _ _ (by omega)
      · rfl

/-! ### A pause frame that starts at once (R390, R391) -/

/-- A step of a run that keeps `I`, after which `D` holds and lasts. -/
theorem foldl_reaches {σ α : Type} {I D : σ → Prop} {f : σ → α → σ} {a : α} {l : List α} (ha : a ∈ l) (hinv : ∀ s b, I s → I (f s b) ∨ D (f s b))
    (hmake : ∀ s, I s → D (f s a)) (hkeep : ∀ s b, D s → D (f s b)) {s : σ} (hs : I s) : D (l.foldl f s) := by
  obtain ⟨l₁, l₂, rfl⟩ := List.append_of_mem ha
  rw [List.foldl_append, List.foldl_cons]
  have hfirst : I (l₁.foldl f s) ∨ D (l₁.foldl f s) :=
    List.foldlRecOn (motive := fun t => I t ∨ D t) l₁ f (.inl hs) fun t ht b _ => ht.elim (hinv t b) fun h => .inr (hkeep t b h)
  have hnext : D (f (l₁.foldl f s) a) := hfirst.elim (hmake _) (hkeep _ a)
  exact List.foldlRecOn (motive := D) l₂ f hnext fun t ht b _ => hkeep t b ht

/-- What the ports hold to send and are sending. -/
def State.ports (s : State) : SMap (List (List Byte)) × SMap (Option Sending) × SMap Nat := (s.mac.control, s.mac.sending, s.mac.pauseSent)

theorem State.ports_holdClocks (s : State) : s.holdClocks.ports = s.ports := by
  refine foldl_keeps (g := State.ports) (fun t n => foldl_keeps (g := State.ports) (fun u c => ?_) _ _) _ _
  unfold State.holdSync
  dsimp only
  split
  · exact ite_keeps rfl rfl
  · exact ite_keeps rfl rfl

theorem State.ports_eligClocks (s : State) : s.eligClocks.ports = s.ports := by
  refine foldl_keeps (g := State.ports) (fun t e => ?_) _ _
  unfold State.eligSync
  dsimp only
  split
  · exact ite_keeps rfl rfl
  · exact ite_keeps rfl rfl

theorem State.ports_watermarks (s : State) : s.watermarks.ports = s.ports :=
  foldl_keeps (g := State.ports) (f := fun t n => t.setBit (R.BUF_WM.STATE n) (s.wmNext n)) (fun _ _ => rfl) _ _

section
variable (s : State) (n : Nat) (f : List Byte)

/-- Frame `f` is the first that port `n` has to send, and the port sends nothing. -/
structure State.pauseDue (u : State) : Prop where
  since : Settles s u
  idle : u.sending n = none
  first : ∃ rest, SMap.find (fun _ => []) u.mac.control n = f :: rest

/-- Port `n` has begun to send `f` now. -/
structure State.pauseBegun (u : State) : Prop where
  since : Settles s u
  sent : SMap.find (fun _ => 0) u.mac.pauseSent n = s.ns + 1
  framed : ∃ l, u.out = s.out ++ l ∧ Emit.frame n (f ++ leBytes 4 (frameCheck f)) true ∈ l

end

section
variable {s u t : State} {n : Nat} {f : List Byte}

theorem Settles.tb (h : Settles s u) : u.tb = s.tb := by rw [h.eq]

theorem Settles.ns (h : Settles s u) : u.ns = s.ns := by rw [State.ns, h.tb, State.ns]

theorem State.pauseDue.of_ports (h : State.pauseDue s n f u) (hs : Settles u t) (hp : t.ports = u.ports) : State.pauseDue s n f t := by
  obtain ⟨hsince, hidle, rest, hfirst⟩ := h
  have hc : t.mac.control = u.mac.control := congrArg (·.1) hp
  have hsend : t.mac.sending = u.mac.sending := congrArg (·.2.1) hp
  refine ⟨hsince.trans hs, ?_, rest, by rw [hc, hfirst]⟩
  rw [State.sending, hsend, hs.tb]
  exact hidle

theorem State.pauseBegun.of_settles (h : State.pauseBegun s n f u) (hs : Settles u t)
    (hp : SMap.find (fun _ => 0) t.mac.pauseSent n = SMap.find (fun _ => 0) u.mac.pauseSent n) : State.pauseBegun s n f t := by
  obtain ⟨hsince, hsent, l, hl, hmem⟩ := h
  obtain ⟨k, hk, -⟩ := hs.out
  exact ⟨hsince.trans hs, hp.trans hsent, l ++ k, by rw [hk, hl, List.append_nil, List.append_assoc], List.mem_append_left _ hmem⟩

theorem State.pauseDue.crossing (h : State.pauseDue s n f u) (m q : Nat) : State.pauseDue s n f (u.sendPause m q) := by
  have hs := settles_sendPause u m q
  obtain ⟨hsince, hidle, rest, hfirst⟩ := h
  unfold State.sendPause at hs ⊢
  split
  · exact ⟨hsince, hidle, rest, hfirst⟩
  · rename_i hmode
    rw [if_neg hmode] at hs
    refine ⟨hsince.trans hs, hidle, ?_⟩
    by_cases hm : n = m
    · subst hm
      exact ⟨rest ++ [u.pauseFrame n q], by simp [hfirst]⟩
    · exact ⟨rest, (SMap.find_put_other _ _ _ _ _ hm).trans hfirst⟩

theorem State.pauseDue.crossings (h : State.pauseDue s n f u) : State.pauseDue s n f u.crossings :=
  List.foldlRecOn (motive := State.pauseDue s n f) _ _ h fun t ht m _ => by
    split
    · exact ht.crossing _ _
    · exact ht

/-- A port that sends nothing has no frame in progress that could be held. -/
theorem State.pauseDue.holdFragment (h : State.pauseDue s n f u) {m : Nat} (hm : m < 96) : State.pauseDue s n f (u.holdFragment m) := by
  have hs := settles_holdFragment u m hm
  obtain ⟨hsince, hidle, rest, hfirst⟩ := h
  by_cases hmn : m = n
  · subst hmn
    unfold State.holdFragment
    rw [hidle]
    exact ⟨hsince, hidle, rest, hfirst⟩
  · have hfind : SMap.find (fun _ => none) (u.holdFragment m).mac.sending n = SMap.find (fun _ => none) u.mac.sending n := by
      unfold State.holdFragment
      split
      · split
        · exact SMap.find_put_other _ _ _ _ _ (Ne.symm hmn)
        · rfl
      · rfl
    have hcontrol : (u.holdFragment m).mac.control = u.mac.control := by
      unfold State.holdFragment
      split
      · split <;> rfl
      · rfl
    refine ⟨hsince.trans hs, ?_, rest, by rw [hcontrol, hfirst]⟩
    rw [State.sending, hfind, hs.tb]
    exact hidle

theorem State.pauseDue.holdFragments (h : State.pauseDue s n f u) : State.pauseDue s n f u.holdFragments :=
  List.foldlRecOn (motive := State.pauseDue s n f) _ _ h fun t ht e _ => by
    split
    · rename_i he
      exact ht.holdFragment he.2
    · exact ht

/-- The start of a frame on port `m` leaves the control frames and what the other ports send. -/
theorem State.startSending_ports (u : State) (m : Nat) (b : Bool) (len x : Nat) : (u.startSending m b len x).mac.control = u.mac.control ∧
    (u.startSending m b len x).mac.pauseSent = u.mac.pauseSent ∧ (u.startSending m b len x).out = u.out ∧
    ∀ k, k ≠ m → SMap.find (fun _ => none) (u.startSending m b len x).mac.sending k = SMap.find (fun _ => none) u.mac.sending k := by
  have hput : ∀ (v : State) (w : Sending) (k : Nat), k ≠ m →
      SMap.find (fun _ => none) (v.setSending m w).mac.sending k = SMap.find (fun _ => none) v.mac.sending k := fun _ _ _ hk =>
    SMap.find_put_other _ _ _ _ _ hk
  unfold State.startSending
  dsimp only
  split
  · exact ⟨rfl, rfl, rfl, hput _ _⟩
  · exact ⟨rfl, rfl, rfl, hput _ _⟩

/-- A control frame that starts is the port's first, and is sent now. -/
theorem State.startControl_open {m : Nat} {g : List Byte} {rest : List (List Byte)} (hc : SMap.find (fun _ => []) u.mac.control m = g :: rest)
    (ho : u.portOpen m true = true) : (u.startControl m).mac.control = u.mac.control.put (fun _ => []) m rest ∧
      (u.startControl m).mac.pauseSent = u.mac.pauseSent.put (fun _ => 0) m (u.ns + 1) ∧
      (u.startControl m).out = u.out ++ [.frame m (g ++ leBytes 4 (frameCheck g)) true] ∧
      ∀ k, k ≠ m → SMap.find (fun _ => none) (u.startControl m).mac.sending k = SMap.find (fun _ => none) u.mac.sending k := by
  obtain ⟨h1, h2, h3, h4⟩ := State.startSending_ports ((u.emit (.frame m (g ++ leBytes 4 (frameCheck g)) true)).count (R.MAC_CNT.COUNT m 13) 1) m false
    (g.length + 4) u.ns
  unfold State.startControl
  rw [hc]
  dsimp only
  rw [ho]
  exact ⟨congrArg (fun c => SMap.put (fun _ => []) c m rest) h1, congrArg (fun c => SMap.put (fun _ => 0) c m (u.ns + 1)) h2, h3, h4⟩

/-- A port with no control frame to send, or closed to it, starts none. -/
theorem State.startControl_closed {m : Nat} (h : SMap.find (fun _ => []) u.mac.control m = [] ∨ u.portOpen m true = false) : u.startControl m = u := by
  unfold State.startControl
  split
  · rfl
  · rename_i g rest hc
    rcases h with h | h
    · rw [h] at hc
      cases hc
    · rw [h]
      rfl

theorem State.startControl_cases (u : State) (m : Nat) : u.startControl m = u ∨
    ∃ g rest, SMap.find (fun _ => []) u.mac.control m = g :: rest ∧ u.portOpen m true = true := by
  cases hc : SMap.find (fun _ => []) u.mac.control m with
  | nil => exact .inl (State.startControl_closed (.inl hc))
  | cons g rest =>
    cases ho : u.portOpen m true with
    | false => exact .inl (State.startControl_closed (.inr ho))
    | true => exact .inr ⟨g, rest, rfl, rfl⟩

theorem State.pauseDue.startControl_other (h : State.pauseDue s n f u) {m : Nat} (hm : m < 96) (hmn : m ≠ n) :
    State.pauseDue s n f (u.startControl m) := by
  have hs := settles_startControl u m hm
  rcases u.startControl_cases m with heq | ⟨g, rest', hc, ho⟩
  · rw [heq]
    exact h
  · obtain ⟨hsince, hidle, rest, hfirst⟩ := h
    obtain ⟨hcontrol, -, -, hsend⟩ := State.startControl_open hc ho
    refine ⟨hsince.trans hs, ?_, rest, ?_⟩
    · rw [State.sending, hsend n (Ne.symm hmn), hs.tb]
      exact hidle
    · rw [hcontrol]
      exact (SMap.find_put_other _ _ _ _ _ (Ne.symm hmn)).trans hfirst

theorem State.pauseDue.startControl_same (h : State.pauseDue s n f u) (hn : n < 96) : State.pauseBegun s n f (u.startControl n) := by
  have hs := settles_startControl u n hn
  obtain ⟨hsince, hidle, rest, hfirst⟩ := h
  have ho : u.portOpen n true = true := by
    rw [State.portOpen, hidle]
    rfl
  obtain ⟨-, hsent, hout, -⟩ := State.startControl_open hfirst ho
  obtain ⟨l, hl, -⟩ := hsince.out
  refine ⟨hsince.trans hs, ?_, l ++ [.frame n (f ++ leBytes 4 (frameCheck f)) true], ?_, List.mem_append_right _ (List.mem_singleton_self _)⟩
  · rw [hsent, ← hsince.ns]
    exact SMap.find_put_same _ _ _ _
  · rw [hout, hl, List.append_nil, List.append_assoc]

theorem State.pauseBegun.startControl (h : State.pauseBegun s n f u) {m : Nat} (hm : m < 96) : State.pauseBegun s n f (u.startControl m) := by
  have hs := settles_startControl u m hm
  rcases u.startControl_cases m with heq | ⟨g, rest, hc, ho⟩
  · rw [heq]
    exact h
  · obtain ⟨-, hsent, -, -⟩ := State.startControl_open hc ho
    refine h.of_settles hs ?_
    rw [hsent]
    by_cases hmn : n = m
    · subst hmn
      exact (SMap.find_put_same _ _ _ _).trans (h.since.ns ▸ h.sent.symm)
    · exact SMap.find_put_other _ _ _ _ _ hmn

theorem State.pauseDue.startControls (h : State.pauseDue s n f u) (hn : n < 96) : State.pauseBegun s n f u.startControls := by
  obtain ⟨rest, hfirst⟩ := h.first
  obtain ⟨e, he, hkey⟩ : ∃ e ∈ u.mac.control, e.1 = n := by
    by_contra hno
    push Not at hno
    rw [SMap.find_none _ _ _ hno] at hfirst
    cases hfirst
  refine foldl_reaches (I := State.pauseDue s n f) (D := State.pauseBegun s n f) he (fun t b ht => ?_) (fun t ht => ?_) (fun t b ht => ?_) h
  · split
    · rename_i hb
      by_cases hbn : b.1 = n
      · exact .inr (hbn ▸ ht.startControl_same hn)
      · exact .inl (ht.startControl_other hb hbn)
    · exact .inl ht
  · rw [hkey, if_pos hn]
    exact ht.startControl_same hn
  · split
    · rename_i hb
      exact ht.startControl hb
    · exact ht

theorem State.pauseSent_resumePorts (u : State) : u.resumePorts.mac.pauseSent = u.mac.pauseSent := by
  refine foldl_keeps (g := fun t : State => t.mac.pauseSent) (fun t e => ?_) _ _
  unfold State.resumePort
  split
  · rfl
  · split
    · rfl
    split <;> rfl

theorem State.pauseSent_syncHold (u : State) : u.syncHold.mac.pauseSent = u.mac.pauseSent := by
  unfold State.syncHold State.peak
  dsimp only
  split <;> rfl

theorem State.settles_clocks (u : State) : Settles u u.holdClocks.eligClocks :=
  (Settles.foldl _ (fun t m => Settles.foldl _ (fun v c => settles_holdSync v m c) _ t) _ u).trans
    (Settles.foldl _ (fun t e => settles_eligSync t (Prod.fst e)) _ _)

/-- A pause frame that a free port has to send starts in the same step (R390, R391). -/
theorem State.pauseDue.settle (h : State.pauseDue s n f u) (hn : n < 96) : State.pauseBegun s n f u.settle := by
  unfold State.settle
  have h2 := h.of_ports u.settles_clocks ((State.ports_eligClocks _).trans u.ports_holdClocks)
  have h3 := (h2.of_ports (settles_endTurns _) rfl).crossings
  have h4 := (h3.of_ports (settles_watermarks _) (State.ports_watermarks _)).holdFragments.startControls hn
  have h5 := h4.of_settles (settles_resumePorts _) (by rw [State.pauseSent_resumePorts])
  have h6 := h5.of_settles (settles_syncHold _) (by rw [State.pauseSent_syncHold])
  have hend : ∀ v : State, v.endFreed.mac = v.mac := fun _ => rfl
  exact h6.of_settles (settles_endFreed _) (by rw [hend])

end

/-! ### Pauses and their timers (R69, R389, R390) -/

section
variable {s : State} {n : Nat}

theorem pauseFrame_lt {quanta : Nat} (hwf : Instr.wf (.pauseFrame n quanta) = true) : n < 96 := by
  simp only [Instr.wf, Bool.and_eq_true, decide_eq_true_eq] at hwf
  exact hwf.1

theorem priorityPauseFrame_lt {enable : Nat} {quanta : List Nat} (hwf : Instr.wf (.priorityPauseFrame n enable quanta) = true) : n < 96 := by
  simp only [Instr.wf, Bool.and_eq_true, decide_eq_true_eq] at hwf
  exact hwf.1.1.1

theorem execPauseFrame_mode1 {quanta : Nat} (hwf : Instr.wf (.pauseFrame n quanta) = true) (hrec : s.receives n = true)
    (hmode : s.get (R.MAC_FC.MODE n) = 1) : exec (.pauseFrame n quanta) s = .next ((s.countGood n 64).pauseReceived n quanta).settle := by
  refine complete_of_eq hwf ?_
  rw [hrec, hmode]
  rfl

theorem execPriorityPauseFrame_mode2 {enable : Nat} {quanta : List Nat} (hwf : Instr.wf (.priorityPauseFrame n enable quanta) = true)
    (hrec : s.receives n = true) (hmode : s.get (R.MAC_FC.MODE n) = 2) :
    exec (.priorityPauseFrame n enable quanta) s = .next ((s.countGood n 64).prioReceived n enable quanta).settle := by
  refine complete_of_eq hwf ?_
  rw [hrec, hmode]
  rfl

/-- A frame's quanta last what they lasted before it was counted. -/
theorem State.holdEnd_countGood (s : State) (n len q : Nat) : (s.countGood n len).holdEnd n q = s.holdEnd n q := by
  have hspeed : (s.countGood n len).get (R.MAC_CFG.SPEED n) = s.get (R.MAC_CFG.SPEED n) :=
    s.countGood_get n len (by simp only [goodReg, R.MAC_CFG.SPEED, R.MAC_CNT.COUNT]; omega)
  rw [State.holdEnd, State.holdEnd, State.wireTb, State.portMbps, hspeed, s.countGood_tb]
  rfl

/-- Nothing but the timers moves, and counts. -/
theorem State.pauseReceived_still (u : State) (n q : Nat) :
    ({ u.pauseReceived n q with mac := { (u.pauseReceived n q).mac with holds := u.mac.holds } } : State).still = u.still := rfl

theorem State.pauseReceived_out (u : State) (n q : Nat) : (u.pauseReceived n q).out = u.out := rfl

/-- A state whose hold timers have moved. -/
def State.withHolds (u : State) (h : SMap Nat) : State := { u with mac := { u.mac with holds := h } }

theorem State.withHolds_still (u : State) (h : SMap Nat) : ((u.withHolds h).withHolds u.mac.holds).still = u.still := rfl

theorem State.withHolds_count_out (u : State) (h : SMap Nat) (l : Loc) (k : Nat) : ((u.withHolds h).count l k).out = u.out := rfl

theorem State.setHold_eq (u : State) (n p v : Nat) : u.setHold n p v = u.withHolds (u.mac.holds.put (fun _ => 0) (16 * n + p) v) := rfl

theorem State.withHolds_count_still (u : State) (h : SMap Nat) (l : Loc) (k : Nat) :
    (((u.withHolds h).count l k).withHolds u.mac.holds).still = u.still := by
  have hg : ∀ y : State, (y.withHolds u.mac.holds).still = y.still.withHolds u.mac.holds := fun _ => rfl
  rw [hg, State.count, State.countAt_still, ← hg, State.withHolds_still]

/-- What follows a command counts none of the frames that a port received. -/
theorem countReg_unfollowed (hn : n < 96) {i : Nat} (hi : i < 13) : ¬ followReg (R.MAC_CNT.COUNT n i).off := by
  simp only [R.MAC_CNT.COUNT, followReg]
  omega

end

/-- Settles O29: each received pause moves its hold timers and its counters only; a refresh sends its frame as what follows the command finds the
port free. -/
theorem pausesHold : Obligations.PausesHold := by
  refine ⟨?_, ?_, ?_, ?_, ?_⟩
  · intro s n quanta hwf hrec hmode
    have hn : n < 96 := pauseFrame_lt hwf
    obtain ⟨h7, hother⟩ := (s.countGood n 64).pauseReceived_words n quanta
    obtain ⟨h0, -, hkeep⟩ := s.countGood_words n 64
    have hmac := (s.countGood n 64).pauseReceived_mac n quanta
    refine ⟨_, execPauseFrame_mode1 hwf hrec hmode, ?_, ?_, ?_, fun j hj => ?_,
      State.holds_kept (((s.countGood n 64).pauseReceived_still n quanta).trans (s.countGood_still n 64))
        (((s.countGood n 64).pauseReceived_out n quanta).trans (s.countGood_out n 64)) fun k hk => ?_⟩
    · rw [State.settle_mac_holds, hmac, State.holdEnd_countGood]
      exact SMap.find_put_same _ _ _ _
    · rw [State.settle_word _ (countReg_unfollowed hn (by decide)), h7, hkeep _ (by simp [countReg_ne])]
    · rw [State.settle_word _ (countReg_unfollowed hn (by decide)), hother _ (countReg_ne (by decide)), h0]
    · rw [State.settle_mac_holds, hmac]
      exact SMap.find_put_other _ _ _ _ _ hj
    · rw [hother k fun h => hk (.inr (.inr h)), hkeep k fun h => hk (h.elim .inl fun h => .inr (.inl h))]
  · intro s n enable quanta hwf hrec hmode
    have hn : n < 96 := priorityPauseFrame_lt hwf
    obtain ⟨h, heq⟩ := (s.countGood n 64).prioHolds_eq n enable quanta 8
    have hprio : (s.countGood n 64).prioReceived n enable quanta =
        ((s.countGood n 64).withHolds h).count (R.MAC_CNT.COUNT n 7) 1 := by
      rw [State.withHolds, ← heq]
      rfl
    obtain ⟨-, -, hkeep⟩ := s.countGood_words n 64
    have hfind := fun p => (s.countGood n 64).prioHolds_find n enable quanta 8 p
    rw [heq] at hfind
    have hexec := execPriorityPauseFrame_mode2 hwf hrec hmode
    rw [hprio] at hexec
    refine ⟨_, hexec, fun p hp => ?_, ?_, State.holds_kept
      (((s.countGood n 64).withHolds_count_still h (R.MAC_CNT.COUNT n 7) 1).trans (s.countGood_still n 64))
      (((s.countGood n 64).withHolds_count_out h (R.MAC_CNT.COUNT n 7) 1).trans (s.countGood_out n 64)) fun k hk => ?_⟩
    · rw [State.settle_mac_holds]
      refine (hfind p).trans ?_
      rw [State.holdEnd_countGood]
      simp only [hp, true_and]
      rfl
    · rw [State.settle_word _ (countReg_unfollowed hn (by decide)), State.count, State.countAt_one]
      exact congrArg (· + 1) (hkeep _ (by simp [countReg_ne]))
    · rw [State.count_word_other _ fun h => hk (.inr (.inr h))]
      exact hkeep k fun h => hk (h.elim .inl fun h => .inr (.inl h))
  · intro s n p hwf hpos hdue
    refine ⟨_, complete_of_eq hwf ((if_pos ⟨hpos, hdue⟩).trans (s.setHold_eq n p 0)), ?_, State.holds_kept (s.withHolds_still _) rfl fun _ _ => rfl⟩
    rw [State.settle_mac_holds]
    exact SMap.find_put_same _ _ _ _
  · intro s n hn hrun hwm hdue hctl hmode hlink hsend
    have hexec : exec (.pauseRefresh n) s = .next (s.sendPause n (s.get (R.MAC_FC.QUANTA n))).settle :=
      complete_of_eq (decide_eq_true hn) (if_pos (by rw [hrun, hwm, hdue, hctl]; rfl))
    have hsp : s.sendPause n (s.get (R.MAC_FC.QUANTA n)) = { s with mac := { s.mac with
        control := s.mac.control.put (fun _ => []) n [s.pauseFrame n (s.get (R.MAC_FC.QUANTA n))] } } := by
      rw [State.sendPause, if_neg (by simp [hmode, hlink]), hctl]
      rfl
    have hpause : State.pauseDue s n (s.pauseFrame n (s.get (R.MAC_FC.QUANTA n))) (s.sendPause n (s.get (R.MAC_FC.QUANTA n))) := by
      refine ⟨settles_sendPause s n _, ?_, [], ?_⟩
      · rw [hsp]
        exact hsend
      · rw [hsp]
        exact SMap.find_put_same _ _ _ _
    obtain ⟨-, hsent, hframed⟩ := hpause.settle hn
    exact ⟨_, hexec, hsent, hframed⟩
  · intro s i level hi
    refine ⟨_, complete_of_eq (decide_eq_true hi) rfl, ?_, ?_⟩
    · rw [State.settle_pace]
    · exact State.kept_sent (g := fun y : State => { y with pace := s.pace }) (fun _ => rfl) (fun _ => rfl) (fun _ => rfl) rfl (List.append_nil _).symm
        fun _ _ => rfl

end Sys2Proof.Machine
end

section
/-! SUPPORT. Frames that a port receives (R383, R392, R395, R403). -/
namespace Sys2Proof.Machine

/-! ### A frame that arrives (R383, R392, R395, R403) -/

theorem execFrameReceive_eq {s : State} {n firstNs kind : Nat} {bytes : List Byte} {fcs pre : Bool}
    (hwf : Instr.wf (.frameReceive n bytes firstNs fcs kind pre) = true) (hrec : s.receives n = true) :
    exec (.frameReceive n bytes firstNs fcs kind pre) s = .next (s.frameIn n bytes firstNs fcs kind pre).settle :=
  complete_of_eq hwf (if_pos hrec)

theorem frameReceive_lt {n firstNs kind : Nat} {bytes : List Byte} {fcs pre : Bool}
    (hwf : Instr.wf (.frameReceive n bytes firstNs fcs kind pre) = true) : n < 96 := by
  simp only [Instr.wf, Bool.and_eq_true, decide_eq_true_eq] at hwf
  exact hwf.1.1

/-- A counter of the port shows one frame more, and nothing else has changed. -/
theorem State.counted_kept (s : State) {n j : Nat} (hn : n < 96) (hj : j < 13) :
    (s.count (R.MAC_CNT.COUNT n j) 1).settle.word (R.MAC_CNT.COUNT n j).off = s.word (R.MAC_CNT.COUNT n j).off + 1 ∧
    s.kept (s.count (R.MAC_CNT.COUNT n j) 1).settle [] fun k => k = (R.MAC_CNT.COUNT n j).off := by
  constructor
  · rw [State.settle_word _ (countReg_unfollowed hn hj)]
    exact State.countAt_one ..
  · exact State.kept_sent (g := fun y => y) (fun _ => rfl) (fun _ => rfl) (fun _ => rfl) (State.countAt_still ..)
      ((State.countAt_out ..).trans (List.append_nil _).symm) fun k hk => State.count_word_other s hk

/-- A frame is counted on arrival unless it is parsed as it comes. -/
def State.countsUnless (s : State) (n len : Nat) (cut : Bool) : State := if cut then s else s.countGood n len

section
variable {s : State} {n firstNs : Nat} {bytes : List Byte} {fcs pre : Bool}

theorem State.frameIn_verify (hen : s.bit (R.MAC_PREEMPT.EN n) = true) (hspeed : s.get (R.MAC_CFG.SPEED n) ≠ 7) :
    s.frameIn n bytes firstNs fcs 2 pre = s.emit (.verify n true) :=
  if_pos (by rw [hen]; simpa using hspeed)

/-- A frame that fails its test is counted, unless it is parsed as it comes. -/
theorem State.frameIn_failed {j : Nat} (ht : s.frameTest n (bytes.length + 4) fcs = some j) : s.frameIn n bytes firstNs fcs 0 pre =
    if s.takesCut n pre && !macControl bytes then
      s.newRx (s.toMemory n bytes firstNs).1 ((s.toMemory n bytes firstNs).1.bytes.length + 4) (some j) true (s.toMemory n bytes firstNs).2 none
        (bytes.length + 4)
    else s.count (R.MAC_CNT.COUNT n j) 1 := by
  unfold State.frameIn
  simp only [ht]
  rfl

theorem frameTest_lt {len j : Nat} (ht : s.frameTest n len fcs = some j) : j < 13 := by
  unfold State.frameTest at ht
  split at ht
  · cases ht; decide
  split at ht
  · cases ht; decide
  split at ht
  · cases ht; decide
  · cases ht

theorem State.frameIn_unsecured (ht : s.frameTest n (bytes.length + 4) fcs = none) (hen : s.bit (R.SEC_MSEC_PORT.EN n) = true)
    (hplain : plainFrame bytes = false) (htag : beAt bytes 12 2 ≠ 0x88E5) :
    s.frameIn n bytes firstNs fcs 0 pre = s.count (R.MAC_CNT.COUNT n 10) 1 := by
  have hmac : macControl bytes = false := (Bool.or_eq_false_iff.mp hplain).2
  have hrec : s.macsecReceive n bytes = (.discard 10, none) := by
    unfold State.macsecReceive
    simp [hen, hplain, htag]
  unfold State.frameIn
  simp [ht, hmac, hrec]

theorem State.frameIn_good (ht : s.frameTest n (bytes.length + 4) fcs = none) (hmac : macControl bytes = false)
    (hen : s.bit (R.SEC_MSEC_PORT.EN n) = false) : s.frameIn n bytes firstNs fcs 0 pre =
      (s.countsUnless n (bytes.length + 4) (s.takesCut n pre)).newRx (s.toMemory n bytes firstNs).1
        ((s.toMemory n bytes firstNs).1.bytes.length + 4) none (s.takesCut n pre) (s.toMemory n bytes firstNs).2 none (bytes.length + 4) := by
  have hrec : s.macsecReceive n bytes = (.pass bytes, none) := by
    unfold State.macsecReceive
    simp [hen]
  unfold State.frameIn
  simp only [ht, hmac, hrec]
  rfl

end

/-! ### A frame that packet memory takes -/

/-- A frame from port `n` on its way into packet memory. -/
structure RxFrame.arrives (f : RxFrame) (id src wire : Nat) (bytes : List Byte) (bad : Option Nat) (cut : Bool) : Prop where
  id : f.pkt.id = id
  src : f.pkt.src = src
  bytes : f.pkt.bytes = bytes
  bad : f.bad = bad
  cut : f.cut = cut
  wire : f.wire = wire
  taken : f.taken = false

theorem State.newRx_spec (s : State) (p : Pkt) (len : Nat) (bad : Option Nat) (cut : Bool) (tag : Option Nat) (wb : Option (Nat × Nat)) (wire : Nat) :
    ∃ f : RxFrame, f.arrives s.buf.nextId p.src wire p.bytes bad cut ∧
      s.newRx p len bad cut tag wb wire = { s with buf := { s.buf with rx := s.buf.rx ++ [f], nextId := s.buf.nextId + 1 } } :=
  ⟨_, ⟨rfl, rfl, rfl, rfl, rfl, rfl, rfl⟩, rfl⟩

/-- The frame of a step that changes only what packet memory holds, behind what it counts. -/
theorem State.rx_kept {s x : State} (b : BufState) {but : Nat → Prop} (hs : x.still = s.still) (hb : x.buf = s.buf) (ho : x.out = s.out)
    (hw : ∀ k, ¬ but k → x.word k = s.word k) : s.kept { ({ x with buf := b } : State).settle with buf := s.buf } [] but := by
  refine State.kept_sent (g := fun y : State => { y with buf := s.buf }) (fun _ => rfl) (fun _ => rfl) (fun _ => rfl) ?_
    (ho.trans (List.append_nil _).symm) hw
  have hback : ∀ y : State, ({ ({ y with buf := b } : State) with buf := y.buf } : State).still = y.still := fun _ => rfl
  exact hb ▸ (hback x).trans hs

theorem State.countsUnless_spec (s : State) (n len : Nat) (cut : Bool) : (s.countsUnless n len cut).still = s.still ∧
    (s.countsUnless n len cut).buf = s.buf ∧ (s.countsUnless n len cut).out = s.out ∧
    ∀ k, ¬ goodReg n k → (s.countsUnless n len cut).word k = s.word k := by
  unfold State.countsUnless
  split
  · exact ⟨rfl, rfl, rfl, fun _ _ => rfl⟩
  · exact ⟨s.countGood_still n len, rfl, s.countGood_out n len, (s.countGood_words n len).2.2⟩

/-- Settles O28: what each outcome of the MAC's tests leaves. -/
theorem framesAreReceived : Obligations.FramesAreReceived := by
  refine ⟨?_, ?_, ?_, ?_, ?_⟩
  · intro s n bytes firstNs fcs pre hwf hrec
    exact ⟨_, execFrameReceive_eq hwf hrec, s.counted_kept (frameReceive_lt hwf) (by decide)⟩
  · intro s n bytes firstNs fcs pre hwf hrec hen hspeed
    refine ⟨_, execFrameReceive_eq hwf hrec, ?_⟩
    rw [State.frameIn_verify hen hspeed]
    exact State.kept_sent (g := fun y => y) (fun _ => rfl) (fun _ => rfl) (fun _ => rfl) rfl rfl fun _ _ => rfl
  · intro s n j bytes firstNs fcs pre hwf hrec ht
    refine ⟨fun h => ⟨_, execFrameReceive_eq hwf hrec, ?_⟩, fun hcut hmac => ?_⟩
    · rw [State.frameIn_failed ht, if_neg (by rcases h with h | h <;> simp [h])]
      exact s.counted_kept (frameReceive_lt hwf) (frameTest_lt ht)
    · obtain ⟨f, hf, heq⟩ := s.newRx_spec (s.toMemory n bytes firstNs).1 ((s.toMemory n bytes firstNs).1.bytes.length + 4) (some j) true
        (s.toMemory n bytes firstNs).2 none (bytes.length + 4)
      have hexec := execFrameReceive_eq hwf hrec
      rw [State.frameIn_failed ht, if_pos (by simp [hcut, hmac]), heq] at hexec
      refine ⟨_, f, hexec, ?_, hf.bad, hf.cut, hf.wire, hf.src, State.rx_kept (s := s) _ rfl rfl rfl fun _ _ => rfl⟩
      rw [State.settle_buf]
  · intro s n bytes firstNs fcs pre hwf hrec ht hen hplain htag
    refine ⟨_, execFrameReceive_eq hwf hrec, ?_⟩
    rw [State.frameIn_unsecured ht hen hplain htag]
    exact s.counted_kept (frameReceive_lt hwf) (by decide)
  · intro s n bytes firstNs fcs pre hwf hrec ht hmac hen
    have hn := frameReceive_lt hwf
    obtain ⟨h0, h1, hkeep⟩ := s.countGood_words n (bytes.length + 4)
    have hexec := execFrameReceive_eq hwf hrec
    rw [State.frameIn_good ht hmac hen] at hexec
    obtain ⟨hstill, hbuf, hout, hword⟩ := s.countsUnless_spec n (bytes.length + 4) (s.takesCut n pre)
    have hcut : s.takesCut n pre = false → s.countsUnless n (bytes.length + 4) (s.takesCut n pre) = s.countGood n (bytes.length + 4) := fun h =>
      if_neg (by simp [h])
    generalize s.countsUnless n (bytes.length + 4) (s.takesCut n pre) = u at hstill hbuf hout hword hcut hexec
    obtain ⟨f, hf, heq⟩ := u.newRx_spec (s.toMemory n bytes firstNs).1 ((s.toMemory n bytes firstNs).1.bytes.length + 4) none (s.takesCut n pre)
      (s.toMemory n bytes firstNs).2 none (bytes.length + 4)
    rw [heq] at hexec
    refine ⟨_, f, hexec, ?_, ?_, hbuf ▸ hf.id, hf.src, hf.bytes, hf.cut, hf.taken, hf.wire, hf.bad, fun h => ?_,
      State.rx_kept _ hstill hbuf hout hword⟩
    · rw [State.settle_buf, hbuf]
    · rw [State.settle_buf, hbuf]
    · have hw : ∀ k, ¬ followReg k → ({ u with buf := { u.buf with rx := u.buf.rx ++ [f], nextId := u.buf.nextId + 1 } } : State).settle.word k =
          (s.countGood n (bytes.length + 4)).word k := fun k hk => by
        rw [State.settle_word _ hk, ← hcut h]
        rfl
      exact ⟨(hw _ (countReg_unfollowed hn (by decide))).trans h0, (hw _ (countReg_unfollowed hn (by decide))).trans h1⟩

end Sys2Proof.Machine
end

section
/-! SUPPORT. The route role: advertisements, routes, spray epochs and fabric time (R356 to R358, R362, R363, R368, R377, R378). -/
namespace Sys2Proof.Machine

/-! ### What a link-scoped cell changes (R340, R354) -/

/-- Between `s` and `t` only irises of `P` have sent cells: what shows is their state, their credit and their retransmit queues. -/
structure LinkSends (P : Nat → Prop) (s t : State) : Prop where
  eq : t = { s with irises := t.irises, out := t.out, regs := t.regs }
  word : ∀ k, (∀ i, P i → k ≠ (R.IRIS_CREDIT.AVAIL i).off ∧ k ≠ (R.IRIS_RETRY.QUEUED i).off) → t.word k = s.word k
  iris : ∀ i, ¬ P i → t.iris i = s.iris i

theorem LinkSends.refl (P : Nat → Prop) (s : State) : LinkSends P s s := ⟨rfl, fun _ _ => rfl, fun _ _ => rfl⟩

theorem LinkSends.trans {P : Nat → Prop} {s t u : State} (h : LinkSends P s t) (h' : LinkSends P t u) : LinkSends P s u := by
  obtain ⟨heq, hword, hiris⟩ := h
  obtain ⟨heq', hword', hiris'⟩ := h'
  refine ⟨?_, fun k hk => (hword' k hk).trans (hword k hk), fun i hi => (hiris' i hi).trans (hiris i hi)⟩
  rw [heq] at heq'
  exact heq'

theorem LinkSends.of_setIris {P : Nat → Prop} {i : Nat} (hi : P i) (s : State) (v : Iris) : LinkSends P s (s.setIris i v) :=
  ⟨rfl, fun _ _ => rfl, fun _ hj => SMap.find_put_other _ _ _ _ _ fun h => hj (h ▸ hi)⟩

theorem LinkSends.of_emit {P : Nat → Prop} (s : State) (e : Emit) : LinkSends P s (s.emit e) := ⟨rfl, fun _ _ => rfl, fun _ _ => rfl⟩

section
variable {P : Nat → Prop} {i : Nat} (hi : P i) (s : State)
include hi

theorem LinkSends.syncIris : LinkSends P s (s.syncIris i) := by
  have hset : ∀ (u : State) (l : Loc) (v : Nat), l.off = (R.IRIS_CREDIT.AVAIL i).off ∨ l.off = (R.IRIS_RETRY.QUEUED i).off → LinkSends P u (u.set l v) :=
    fun u l v hl => ⟨rfl, fun k hk => State.word_set_other u fun h => by
      obtain ⟨ha, hq⟩ := hk i hi
      exact hl.elim (fun hl => ha (h.trans hl)) fun hl => hq (h.trans hl), fun _ _ => rfl⟩
  exact (hset s (R.IRIS_CREDIT.AVAIL i) _ (.inl rfl)).trans (hset _ (R.IRIS_RETRY.QUEUED i) _ (.inr rfl))

theorem LinkSends.sendOn (c : FCell) (mem relayFrom firstNs : Option Nat) : LinkSends P s (s.sendOn i c mem relayFrom firstNs) :=
  ((of_setIris hi s _).trans (of_emit _ _)).trans (.syncIris hi _)

theorem LinkSends.drainLink (fuel : Nat) : LinkSends P s (s.drainLink i fuel) := by
  induction fuel generalizing s with
  | zero => exact .refl P s
  | succ n ih =>
    unfold State.drainLink
    split
    · exact .refl P s
    split
    · exact ((of_setIris hi s _).trans (.sendOn hi _ _ _ _ _)).trans (ih _)
    · exact .refl P s

theorem LinkSends.sendLink (payload : List Byte) : LinkSends P s (s.sendLink i payload) := (of_setIris hi s _).trans (.drainLink hi _ _)

end

theorem LinkSends.flood (s : State) (but : Option Nat) (payload : List Byte) : LinkSends (· < 64) s (s.flood but payload) := by
  refine List.foldlRecOn (motive := LinkSends (· < 64) s) _ _ (.refl _ s) fun t ht i hi => ht.trans (.sendLink ?_ t payload)
  exact List.mem_range.mp (List.mem_filter.mp (List.mem_filter.mp hi).1).1

section
variable {P : Nat → Prop} {s t : State} (h : LinkSends P s t)
include h

theorem LinkSends.fab : t.fab = s.fab := by rw [h.eq]
theorem LinkSends.cmd : t.cmd = s.cmd := by rw [h.eq]
theorem LinkSends.tb : t.tb = s.tb := by rw [h.eq]

/-- Sending cells on irises of the device touches no register outside theirs. -/
theorem LinkSends.get (hP : ∀ i, P i → i < 64) {l : Loc} (hl : ¬ (0x2300000 ≤ l.off ∧ l.off < 0x2400000)) : t.get l = s.get l := by
  refine State.get_of_word (h.word _ fun i hi => ?_)
  have := hP i hi
  simp only [R.IRIS_CREDIT.AVAIL, R.IRIS_RETRY.QUEUED]
  omega

end

theorem State.raise_fab (s : State) (n info : Nat) : (s.raise n info).fab = s.fab := by
  rw [State.raise, (raises s n info none false).eq]

/-! ### Advertisements (R356 to R358, R362) -/

/-- The advertisement that the device makes of itself. -/
def ownAdvert (frags : List (Nat × List Byte)) (ns : Nat) : Advert :=
  match frags with
  | (_, pl) :: _ => { advertHead pl ns with frags := frags }
  | [] => advertHead [] ns

/-- A new advertisement is the device's own. -/
def State.renewed (s : State) : State :=
  { s with fab := { s.fab with advSeq := wrapAdd 32 s.fab.advSeq 1, advNs := some s.ns, advDue := false } }

/-- The new advertisement is stored and sent on every UP iris. -/
def State.advertised (s : State) : State :=
  s.renewed.ownFrags.foldl (fun (t : State) f => t.flood none f.2) (s.renewed.storeAdvert (ownAdvert s.renewed.ownFrags s.ns))

/-- The SETs whose address an advertisement shows as valid are done. -/
def State.endSets (s : State) : State :=
  let t := s.fab.setCmds.foldl (fun (t : State) q => t.finish q 0 0 0 (t.takeoverOf q) [(16, 8, (t.word R.FAB_ADDR.STATE.off).toNat)]) s
  { t with fab := { t.fab with setCmds := [] } }

theorem State.advertise_eq (s : State) : s.advertise = if s.advertised.get R.FAB_ADDR.STATE = 2 then s.advertised.endSets else s.advertised := rfl

section
variable (s : State)

theorem State.advertised_sends : LinkSends (· < 64) (s.renewed.storeAdvert (ownAdvert s.renewed.ownFrags s.ns)) s.advertised :=
  List.foldlRecOn (motive := LinkSends (· < 64) _) _ _ (.refl _ _) fun t ht f _ => ht.trans (.flood t none f.2)

theorem State.advertised_fab : s.advertised.fab = (s.renewed.storeAdvert (ownAdvert s.renewed.ownFrags s.ns)).fab := s.advertised_sends.fab

theorem State.advertised_cmd : s.advertised.cmd = s.cmd := s.advertised_sends.cmd

theorem State.advertised_get {l : Loc} (hl : ¬ (0x2300000 ≤ l.off ∧ l.off < 0x2400000)) : s.advertised.get l = s.get l :=
  s.advertised_sends.get (fun _ h => h) hl

theorem State.fab_endSets : s.endSets.fab = { s.fab with setCmds := [] } := by
  have hfold : (s.fab.setCmds.foldl (fun (t : State) q => t.finish q 0 0 0 (t.takeoverOf q) [(16, 8, (t.word R.FAB_ADDR.STATE.off).toNat)]) s).fab =
      s.fab := List.foldlRecOn (motive := fun t : State => t.fab = s.fab) _ _ rfl fun _ ht _ _ => ht
  rw [State.endSets]
  dsimp only
  rw [hfold]

/-- The one SET that waits is done with the address as advertised. -/
theorem State.endSets_outcome {q : Nat} {c : OpenCmd} (hq : s.fab.setCmds = [q]) (hc : s.findCmd q = some c) :
    s.endSets.outcomeOf q = some (outcomeArea 0 0 0 c.takeNs [(16, 8, (s.word R.FAB_ADDR.STATE.off).toNat)]) := by
  have htake : s.takeoverOf q = c.takeNs := by rw [State.takeoverOf, hc]
  have hcmd : s.endSets.cmd = (s.finish q 0 0 0 c.takeNs [(16, 8, (s.word R.FAB_ADDR.STATE.off).toNat)]).cmd := by
    rw [State.endSets, hq, ← htake]
    rfl
  rw [State.outcomeOf, State.findCmd_congr hcmd]
  exact State.outcomeOf_finish hc ..

theorem State.advertise_fab : s.advertise.fab.advSeq = wrapAdd 32 s.fab.advSeq 1 ∧ s.advertise.fab.advNs = some s.ns ∧
    s.advertise.fab.advDue = false := by
  rw [State.advertise_eq]
  split
  · rw [State.fab_endSets, State.advertised_fab]
    exact ⟨rfl, rfl, rfl⟩
  · rw [State.advertised_fab]
    exact ⟨rfl, rfl, rfl⟩

theorem State.advertise_valid (h : s.get R.FAB_ADDR.STATE = 2) : s.advertise = s.advertised.endSets := by
  rw [State.advertise_eq, if_pos ((s.advertised_get (by decide)).trans h)]

theorem execAdvertSend_due (hrun : s.irisesRun = true)
    (hdue : s.fab.advNs = none ∨ ∃ t0, s.fab.advNs = some t0 ∧ t0 + 10000 ≤ s.ns ∧ (s.fab.advDue = true ∨ t0 + 100000000 ≤ s.ns)) :
    exec .advertSend s = .next s.advertise.settle := by
  refine complete_of_eq rfl (if_pos ?_)
  rw [hrun]
  rcases hdue with h | ⟨t0, h, hlong, hdue⟩
  · rw [h]
    rfl
  · rw [h]
    rcases hdue with hd | hd
    · simp [hlong, hd]
    · simp [hlong, hd]

end

/-! ### A fragment of an advertisement (R357) -/

theorem State.takeWork_eq {s u : State} {w : Nat × Nat × List Byte} {kind : Nat} (h : s.takeWork kind = some (w, u)) :
    u = { s with fab := { s.fab with work := s.fab.work.erase w } } := by
  unfold State.takeWork at h
  split at h
  · cases h
  · simp only [Option.some.injEq, Prod.mk.injEq] at h
    obtain ⟨rfl, rfl⟩ := h
    rfl

/-- What of the fabric a conflict of addresses leaves: all but the claim, the passed addresses, the previous ones and whether an
advertisement is due. -/
def FabState.heard (f : FabState) : List Advert × List (Nat × Nat × List Byte) × Nat × Nat := (f.adverts, f.work, f.advSeq, f.quietNs)

/-- A device that leaves its address, or does not have one yet, starts no stream anew. -/
theorem State.setAddress_heard (s : State) {state : Nat} (h : state ≠ 2) (addr : Nat) (claimed : Bool) :
    (s.setAddress state addr claimed).fab.heard = s.fab.heard ∧ (s.setAddress state addr claimed).tb = s.tb := by
  unfold State.setAddress
  simp only [h, false_and, if_false]
  exact ⟨rfl, rfl⟩

theorem State.claim_heard (s : State) : s.claim.fab.heard = s.fab.heard ∧ s.claim.tb = s.tb := by
  unfold State.claim
  split
  · exact s.setAddress_heard (by decide) _ _
  · exact s.setAddress_heard (by decide) _ _

theorem State.conflict_heard (s : State) (a : Advert) : (s.conflict a).fab.heard = s.fab.heard ∧ (s.conflict a).tb = s.tb := by
  unfold State.conflict
  dsimp only
  split
  · exact ⟨rfl, rfl⟩
  split
  · exact State.claim_heard _
  split
  · split
    · split
      · rw [State.raise_fab, State.raise_tb]
        exact s.setAddress_heard (by decide) _ _
      · exact s.setAddress_heard (by decide) _ _
    · exact ⟨rfl, rfl⟩
  · exact ⟨rfl, rfl⟩

/-- Fragment `pl` is kept with advertisement `b`, and sent on; a conflict of addresses with `a` is resolved. -/
def State.keepFragment (s : State) (i : Nat) (a b : Advert) (pl : List Byte) : State := ((s.storeAdvert (b.withFrag pl)).flood (some i) pl).conflict a

/-- The fabric has just heard of a newer advertisement. -/
def State.quieted (s : State) : State := { s with fab := { s.fab with quietNs := s.ns } }

theorem State.keepFragment_heard (s : State) (i : Nat) (a b : Advert) (pl : List Byte) :
    (s.keepFragment i a b pl).fab.heard = (s.storeAdvert (b.withFrag pl)).fab.heard ∧ (s.keepFragment i a b pl).tb = s.tb := by
  obtain ⟨h1, h2⟩ := ((s.storeAdvert (b.withFrag pl)).flood (some i) pl).conflict_heard a
  have hflood := LinkSends.flood (s.storeAdvert (b.withFrag pl)) (some i) pl
  exact ⟨h1.trans (by rw [hflood.fab]), h2.trans hflood.tb⟩

/-- What of the fabric a fragment leaves in every case. -/
theorem State.fragmentIn_keeps (s : State) (i : Nat) (a : Advert) (pl : List Byte) :
    (s.fragmentIn i a pl).fab.work = s.fab.work ∧ (s.fragmentIn i a pl).fab.advSeq = s.fab.advSeq := by
  have hkeep : ∀ b : Advert, (s.keepFragment i a b pl).fab.work = s.fab.work ∧ (s.keepFragment i a b pl).fab.advSeq = s.fab.advSeq := fun b => by
    have h := (s.keepFragment_heard i a b pl).1
    exact ⟨congrArg (·.2.1) h, congrArg (·.2.2.1) h⟩
  unfold State.fragmentIn
  split
  · exact hkeep a
  split
  · exact hkeep a
  split
  · split
    · exact ⟨rfl, rfl⟩
    · exact hkeep _
  · rename_i b _ _ _
    have hsends : LinkSends (· = i) s (b.frags.foldl (fun (t : State) f => t.sendLink i f.2) s) :=
      List.foldlRecOn (motive := LinkSends (· = i) s) _ _ (.refl _ s) fun t ht f _ => ht.trans (.sendLink (P := (· = i)) rfl t f.2)
    rw [hsends.fab]
    exact ⟨rfl, rfl⟩

/-- The first fragment of an originator is stored. -/
theorem State.fragmentIn_new {s : State} {i : Nat} {a : Advert} {pl : List Byte} (h : s.advertOf a.uid = none) :
    (s.fragmentIn i a pl).fab.quietNs = s.ns ∧ (s.fragmentIn i a pl).advertOf a.uid = some (a.withFrag pl) := by
  have heq : s.fragmentIn i a pl = (s.keepFragment i a a pl).quieted := by
    unfold State.fragmentIn
    rw [h]
    rfl
  obtain ⟨hheard, htb⟩ := s.keepFragment_heard i a a pl
  have hadverts : (s.keepFragment i a a pl).fab.adverts = (s.fab.adverts.filter fun b => b.uid != a.uid) ++ [a.withFrag pl] := congrArg (·.1) hheard
  have huid : (a.withFrag pl).uid = a.uid := rfl
  rw [heq]
  constructor
  · exact congrArg (fun tb => tb / 2 ^ 40) htb
  · have hq : (s.keepFragment i a a pl).quieted.fab.adverts = (s.keepFragment i a a pl).fab.adverts := rfl
    have hnone : (s.fab.adverts.filter fun b => b.uid != a.uid).find? (fun b => b.uid == a.uid) = none := by
      rw [List.find?_eq_none]
      intro b hb
      simpa using (List.mem_filter.mp hb).2
    rw [State.advertOf, hq, hadverts, List.find?_append, hnone, Option.none_or, List.find?_cons_of_pos (by rw [huid]; simp)]

theorem State.advertIn_keeps (s : State) (i : Nat) (pl : List Byte) : (s.advertIn i pl).fab.work = s.fab.work := by
  obtain ⟨hwork, -⟩ := s.fragmentIn_keeps i (advertHead pl s.ns) pl
  unfold State.advertIn
  dsimp only
  split
  · exact hwork
  · exact hwork

/-- A newer advertisement of its own makes the device advertise past it. -/
theorem State.advertIn_own {s : State} {i : Nat} {pl : List Byte} (huid : (advertHead pl s.ns).uid = s.uid)
    (hnew : newer (advertHead pl s.ns).epoch (advertHead pl s.ns).seq (s.get R.FAB_TOPO.EPOCH) s.fab.advSeq = true) :
    (s.advertIn i pl).fab.advSeq = max s.fab.advSeq (advertHead pl s.ns).seq ∧ (s.advertIn i pl).fab.advDue = true := by
  obtain ⟨-, hseq⟩ := s.fragmentIn_keeps i (advertHead pl s.ns) pl
  unfold State.advertIn
  dsimp only
  rw [if_pos ⟨huid, hnew⟩, ← hseq]
  exact ⟨rfl, rfl⟩

theorem State.advertIn_new {s : State} {i : Nat} {pl : List Byte} (h : s.advertOf (advertHead pl s.ns).uid = none) :
    (s.advertIn i pl).fab.quietNs = s.ns ∧ (s.advertIn i pl).advertOf (advertHead pl s.ns).uid = some ((advertHead pl s.ns).withFrag pl) := by
  have hfrag := State.fragmentIn_new (i := i) (pl := pl) h
  unfold State.advertIn
  dsimp only
  split
  · exact hfrag
  · exact hfrag

/-! ### Routes (R363) -/

/-- No cell waits and no stream is open. -/
def State.streamless (s : State) : Prop := s.fab.waiting = [] ∧ s.fab.streams = []

theorem State.streamless.of_fab {s t : State} (h : s.streamless) (hf : t.fab = s.fab) : t.streamless := by
  unfold State.streamless
  rw [hf]
  exact h

theorem State.streamless.restartStreams {s : State} (h : s.streamless) (d : Nat) : (s.restartStreams d).streamless := by
  refine List.foldlRecOn (motive := State.streamless) _ _ h fun t ht c _ => ?_
  have hnone : SMap.find (fun _ => none) t.fab.streams (streamKey d c) = none := by rw [ht.2]; rfl
  rw [hnone]
  exact ht

/-- The device at an address is another than the one last routed to. -/
def State.peered (s : State) (d : Nat) (id : Option (Nat × Nat)) : State :=
  if SMap.find (fun _ => none) s.fab.peers d = id then s else
    let t := s.restartStreams d
    { t with fab := { t.fab with peers := t.fab.peers.put (fun _ => none) d id } }

/-- The route of an address in its registers. -/
def State.routed (s : State) (d : Nat) (reach : Bool) (hops count epoch mask : Nat) : State :=
  let t := (((s.setBit (R.FAB_DEST.REACH d) reach).set (R.FAB_DEST.HOPS d) hops).set (R.FAB_DEST.COUNT d) count).set (R.FAB_DEST.EPOCH d) epoch
  if t.get (R.FAB_NH.MASK d) = mask then t else (t.set (R.FAB_NH.MASK d) mask).redraw d

theorem State.routeTo_eq (s : State) (adj : List (Nat × List Nat)) (mine links : List (Nat × Nat)) (d : Nat) :
    ∃ id reach hops count epoch mask, s.routeTo adj mine links d = (s.peered d id).routed d reach hops count epoch mask :=
  ⟨_, _, _, _, _, _, rfl⟩

theorem State.fab_redraw (s : State) (d : Nat) : (s.redraw d).fab = s.fab := by
  unfold State.redraw
  dsimp only
  split <;> rfl

theorem State.fab_routed (s : State) (d : Nat) (reach : Bool) (hops count epoch mask : Nat) : (s.routed d reach hops count epoch mask).fab = s.fab := by
  have hset : ∀ (u : State) (l : Loc) (v : Nat), (u.set l v).fab = u.fab := fun _ _ _ => rfl
  unfold State.routed State.setBit
  dsimp only
  split
  · rw [hset, hset, hset, hset]
  · rw [State.fab_redraw, hset, hset, hset, hset, hset]

theorem State.streamless.peered {s : State} (h : s.streamless) (d : Nat) (id : Option (Nat × Nat)) : (s.peered d id).streamless := by
  obtain ⟨hwait, hstream⟩ := h.restartStreams d
  unfold State.peered
  dsimp only
  generalize s.restartStreams d = t at hwait hstream
  split
  · exact h
  · exact ⟨hwait, hstream⟩

/-- What the routes and the time role leave of the fabric. -/
theorem State.fab_timeRole (s : State) (adj : List (Nat × List Nat)) (mine links : List (Nat × Nat)) : (s.timeRole adj mine links).fab = s.fab ∧
    (s.timeRole adj mine links).get R.FAB_TOPO.REACHABLE = s.get R.FAB_TOPO.REACHABLE := by
  have hset : ∀ (u : State) (l : Loc) (v : Nat), l.off = 0x2400028 → (u.set l v).get R.FAB_TOPO.REACHABLE = u.get R.FAB_TOPO.REACHABLE :=
    fun u l v hl => State.get_set_of_off (by rw [hl]; decide)
  unfold State.timeRole
  dsimp only
  split
  · exact ⟨rfl, by rw [hset _ _ _ rfl, hset _ _ _ rfl, hset _ _ _ rfl]⟩
  split
  · exact ⟨rfl, by rw [hset _ _ _ rfl, hset _ _ _ rfl, hset _ _ _ rfl]⟩
  split
  · exact ⟨rfl, by rw [hset _ _ _ rfl, hset _ _ _ rfl, hset _ _ _ rfl]⟩
  · exact ⟨rfl, by rw [hset _ _ _ rfl, hset _ _ _ rfl, hset _ _ _ rfl]⟩

/-- With nothing to send the route role counts the devices that it reaches. -/
theorem State.routes_reach {s : State} (h : s.streamless) :
    s.routes.get R.FAB_TOPO.REACHABLE = (s.routes.fab.peers.filter fun e => e.2.isSome).length % 2 ^ 13 := by
  have hfold : ∀ l : List Nat, (l.foldl (fun t d => t.routeTo s.adjacency (hopsFrom s.adjacency s.uid) s.localLinks d) s).streamless := fun l =>
    List.foldlRecOn (motive := State.streamless) _ _ h fun t ht d _ => by
      obtain ⟨id, reach, hops, count, epoch, mask, heq⟩ := t.routeTo_eq s.adjacency (hopsFrom s.adjacency s.uid) s.localLinks d
      rw [heq]
      exact (ht.peered d id).of_fab (State.fab_routed ..)
  have hall := hfold s.knownAddresses
  unfold State.routes
  dsimp only
  generalize s.knownAddresses.foldl (fun t d => t.routeTo s.adjacency (hopsFrom s.adjacency s.uid) s.localLinks d) s = u at hall ⊢
  obtain ⟨hfab, hreach⟩ := ((u.set R.FAB_TOPO.REACHABLE (u.fab.peers.filter fun e => e.2.isSome).length).sat R.FAB_TOPO.CHANGES 1).fab_timeRole
    s.adjacency (hopsFrom s.adjacency s.uid) s.localLinks
  rw [State.drainWaiting_of_none (by rw [hfab]; exact hall.1), hfab, hreach, State.sat,
    State.get_set_of_bits (by decide) (by decide), State.get_set_same _ _ _ (by decide)]
  rfl

/-! ### Spray epochs (R368) -/

/-- Only the pointers are drawn anew. -/
theorem State.redraw_pointer (s : State) {d : Nat} (hd : d < 4096) : (∃ f r, s.redraw d = { s with free := f, regs := r }) ∧
    ∀ k, ¬ (0x2410000 ≤ k ∧ k < 0x2418000 ∧ k % 8 = 0) → (s.redraw d).word k = s.word k := by
  have hword : ∀ (u : State) (v k : Nat), ¬ (0x2410000 ≤ k ∧ k < 0x2418000 ∧ k % 8 = 0) → (u.set (R.FAB_DEST.PTR d) v).word k = u.word k :=
    fun u v k hk => State.word_set_other u fun h => hk (by rw [h]; simp only [R.FAB_DEST.PTR]; omega)
  unfold State.redraw
  dsimp only
  split
  · exact ⟨⟨_, _, rfl⟩, hword s 0⟩
  · exact ⟨⟨_, _, rfl⟩, fun k hk => (hword _ _ k hk).trans rfl⟩

/-- The registers in which the pointers stand. -/
abbrev pointerReg (k : Nat) : Prop := 0x2410000 ≤ k ∧ k < 0x2418000 ∧ k % 8 = 0

/-- The state as a spray epoch begins. -/
def State.sprayBegun (s : State) : State := { s with fab := { s.fab with epochNs := s.ns } }

/-- Every pointer drawn anew. -/
def State.respray (s : State) : State :=
  (s.regs.filter fun e => decide (0x2408000 ≤ e.1 ∧ e.1 < 0x2410000)).foldl (fun (t : State) e => t.redraw ((e.1 - 0x2408000) / 8)) s.sprayBegun

theorem State.respray_spec (s : State) : (∃ f r, s.respray = { s.sprayBegun with free := f, regs := r }) ∧
    ∀ k, ¬ pointerReg k → s.respray.word k = s.word k := by
  refine List.foldlRecOn (motive := fun t : State => (∃ f r, t = { s.sprayBegun with free := f, regs := r }) ∧ ∀ k, ¬ pointerReg k → t.word k = s.word k)
    _ _ ⟨⟨_, _, rfl⟩, fun _ _ => rfl⟩ fun t ht e he => ?_
  obtain ⟨⟨f, r, heq⟩, hword⟩ := ht
  have hoff := of_decide_eq_true (List.mem_filter.mp he).2
  obtain ⟨⟨f', r', heq'⟩, hword'⟩ := t.redraw_pointer (d := (e.1 - 0x2408000) / 8) (by omega)
  refine ⟨⟨f', r', ?_⟩, fun k hk => (hword' k hk).trans (hword k hk)⟩
  rw [heq', heq]

/-! ### Fabric time (R377, R378) -/

theorem execTsyncSend_due {s : State} (hrun : s.irisesRun = true) (hparent : s.hasParent = true) (hup : s.irisState (s.get R.FAB_TIME.PARENT) = 2)
    (hdue : s.fab.syncNs + 100000 ≤ s.ns) :
    exec .tsyncSend s = .next (({ s with fab := { s.fab with tag := wrapAdd 16 s.fab.tag 1, syncNs := s.ns } } : State).sendLink
      (s.get R.FAB_TIME.PARENT) (record 256 [(0, 1, 2), (2, 2, wrapAdd 16 s.fab.tag 1)])).settle :=
  complete_of_eq rfl (if_pos (by rw [hrun, hparent, hup, decide_eq_true hdue]; rfl))

/-- The state of an exchange before LOCKED is decided, with `good` exchanges near the parent's time. -/
def State.exchanged (s : State) (offset : Int) (absolute good : Nat) : State :=
  let t := (s.set R.FAB_TIME.OFFSET (twos 32 (offset * 1000 / 65536))).setWord R.TIME_OFFSET.OFFSET.off (BitVec.ofNat 64 absolute)
  { t with slew := offset * 2 ^ 24, fabSlew := true, fab := { t.fab with good := good, replyNs := t.ns } }

theorem State.exchange_eq (s : State) (offset : Int) (absolute : Nat) : ∃ good, s.exchange offset absolute =
    if 655360 < offset.natAbs then (s.exchanged offset absolute good).setBit R.FAB_TIME.LOCKED false
    else if 16 ≤ good then (s.exchanged offset absolute good).setBit R.FAB_TIME.LOCKED true else s.exchanged offset absolute good := by
  refine ⟨if offset.natAbs ≤ 163840 then s.fab.good + 1 else 0, ?_⟩
  unfold State.exchange
  simp only [decide_eq_true_eq]
  rfl

/-- `t` is `s` after an exchange with the parent. -/
structure State.exchangedTo (s t : State) (offset : Int) (absolute : Nat) : Prop where
  eq : ∃ r good, t = { s with regs := r, slew := offset * 2 ^ 24, fabSlew := true, fab := { s.fab with good := good, replyNs := s.ns } }
  word : ∀ k, ¬ (k = R.FAB_TIME.OFFSET.off ∨ k = R.TIME_OFFSET.OFFSET.off) → t.word k = s.word k
  absolute : t.word R.TIME_OFFSET.OFFSET.off = BitVec.ofNat 64 absolute

theorem State.exchangedTo.of_exchanged (s : State) (offset : Int) (absolute good : Nat) :
    s.exchangedTo (s.exchanged offset absolute good) offset absolute where
  eq := ⟨_, good, rfl⟩
  word _ hk := (State.word_setWord_other _ _ fun h => hk (.inr h)).trans (State.word_set_other s fun h => hk (.inl h))
  absolute := State.word_setWord_same _ _ _

theorem State.exchangedTo.locks {s t : State} {offset : Int} {absolute : Nat} (h : s.exchangedTo t offset absolute) (b : Bool) :
    s.exchangedTo (t.setBit R.FAB_TIME.LOCKED b) offset absolute := by
  obtain ⟨⟨r, good, heq⟩, hword, habs⟩ := h
  refine ⟨⟨(t.setBit R.FAB_TIME.LOCKED b).regs, good, ?_⟩, fun k hk => ?_, ?_⟩
  · rw [heq]
    rfl
  · exact (State.word_set_other (l := R.FAB_TIME.LOCKED) t fun h => hk (.inl h)).trans (hword k hk)
  · exact (State.word_set_other (l := R.FAB_TIME.LOCKED) t (by decide)).trans habs

theorem State.exchange_spec (s : State) (offset : Int) (absolute : Nat) : s.exchangedTo (s.exchange offset absolute) offset absolute ∧
    (655360 < offset.natAbs → (s.exchange offset absolute).bit R.FAB_TIME.LOCKED = false) := by
  obtain ⟨good, heq⟩ := s.exchange_eq offset absolute
  have hdone := State.exchangedTo.of_exchanged s offset absolute good
  rw [heq]
  split
  · exact ⟨hdone.locks false, fun _ => State.bit_setBit_same _ _ _ rfl (by decide)⟩
  · rename_i hfar
    refine ⟨?_, fun h => absurd h hfar⟩
    split
    · exact hdone.locks true
    · exact hdone

/-- The frame of an exchange. -/
theorem State.exchangedTo.kept {s t : State} {offset : Int} {absolute : Nat} {f : FabState}
    (h : ({ s with fab := f } : State).exchangedTo t offset absolute) :
    s.kept { t.settle with fab := s.fab, slew := s.slew, fabSlew := s.fabSlew } [] fun k => k = R.FAB_TIME.OFFSET.off ∨ k = R.TIME_OFFSET.OFFSET.off := by
  obtain ⟨⟨r, good, heq⟩, hword, -⟩ := h
  refine State.kept_sent (g := fun y : State => { y with fab := s.fab, slew := s.slew, fabSlew := s.fabSlew }) (fun _ => rfl) (fun _ => rfl)
    (fun _ => rfl) ?_ ?_ hword
  · rw [heq]
    rfl
  · rw [heq]
    exact (List.append_nil _).symm

theorem execFabTimeLost_due {s : State} (hrun : s.irisesRun = true) (hparent : s.hasParent = true ∨ s.bit R.FAB_TIME.LOCKED = true)
    (hdue : s.fab.replyNs + 1000000 ≤ s.ns) : ∃ u : State, u.get R.FAB_TIME.LOCKED = 0 ∧ u.fab.good = 0 ∧ u.fab.replyNs = s.ns ∧
      u.coreUp = s.coreUp ∧ exec .fabTimeLost s = .next (u.raise 26 0).settle := by
  refine ⟨_, ?_, ?_, ?_, ?_, complete_of_eq rfl (if_pos (by rw [hrun, decide_eq_true hdue]; rcases hparent with h | h <;> simp [h]))⟩
  · exact State.get_set_same _ _ _ (by decide)
  · rfl
  · rfl
  · rfl

theorem State.coreUp_of_irisesRun {s : State} (h : s.irisesRun = true) : s.coreUp = true := by
  simp only [State.irisesRun, Bool.or_eq_true, beq_iff_eq, Bool.and_eq_true] at h
  rcases h with h | ⟨h, hiso⟩
  · simp [State.coreUp, h]
  · simp only [State.coreUp, h, hiso]

theorem execTreplyReceive_parent {s u : State} {w : Nat × Nat × List Byte} (hrun : s.irisesRun = true) (hrole : s.roleUp 4 = true)
    (hwork : s.takeWork 3 = some (w, u)) (hparent : s.hasParent = true) (hiris : w.1 = s.get R.FAB_TIME.PARENT) (htag : leAt w.2.2 2 2 = s.fab.tag) :
    exec .treplyReceive s = .next ((({ s with fab := { s.fab with work := s.fab.work.erase w } } : State)).exchange
      ((stampDiff (leAt w.2.2 16 8) (leAt w.2.2 8 8) - stampDiff (w.2.1 / 2 ^ 24 % 2 ^ 64) (leAt w.2.2 24 8)) / 2) (leAt w.2.2 32 8)).settle := by
  have hu := State.takeWork_eq hwork
  have hp : u.hasParent = true := by rw [hu]; exact hparent
  have hi : w.1 = u.get R.FAB_TIME.PARENT := by rw [hu]; exact hiris
  have ht : leAt w.2.2 2 2 = u.fab.tag := by rw [hu]; exact htag
  refine complete_of_eq rfl ?_
  rw [hrun, hrole, Bool.and_self, if_pos rfl, hwork]
  dsimp only
  rw [if_pos (by simp [hp, ← hi, ← ht]), hu]

theorem execAdvertReceive_taken {s u : State} {w : Nat × Nat × List Byte} (hrun : s.irisesRun = true) (hrole : s.roleUp 4 = true)
    (hwork : s.takeWork 1 = some (w, u)) :
    exec .advertReceive s = .next (({ s with fab := { s.fab with work := s.fab.work.erase w } } : State).advertIn w.1 w.2.2).settle := by
  refine complete_of_eq rfl ?_
  rw [hrun, hrole, Bool.and_self, if_pos rfl, hwork, ← State.takeWork_eq hwork]

/-- Settles O22: what each operation of the route role leaves of the fabric's state; cells that irises send leave all but their registers. -/
theorem routesAndFabricTimeFollow : Obligations.RoutesAndFabricTimeFollow := by
  refine ⟨?_, ?_, ?_, ?_, ?_, ?_, ?_, ?_⟩
  · intro s hrun hdue
    obtain ⟨hseq, hns, hnot⟩ := s.advertise_fab
    refine ⟨_, execAdvertSend_due s hrun hdue, ?_, ?_, ?_, fun hstate => ?_, fun q c hstate hq hc => ?_⟩
    · rw [State.settle_fab]; exact hseq
    · rw [State.settle_fab]; exact hns
    · rw [State.settle_fab]; exact hnot
    · rw [State.settle_fab, s.advertise_valid hstate, State.fab_endSets]
    · rw [State.settle_outcomeOf, s.advertise_valid hstate]
      have hsets : s.advertised.fab.setCmds = [q] := by rw [State.advertised_fab]; exact hq
      have hword : s.advertised.word R.FAB_ADDR.STATE.off = s.word R.FAB_ADDR.STATE.off := s.advertised_sends.word _ fun i hi => by
        simp only [R.FAB_ADDR.STATE, R.IRIS_CREDIT.AVAIL, R.IRIS_RETRY.QUEUED]
        omega
      rw [State.endSets_outcome _ hsets ((State.findCmd_congr s.advertised_cmd q).trans hc), hword]
  · intro s u w hrun hrole hwork
    refine ⟨_, execAdvertReceive_taken hrun hrole hwork, ?_, fun huid hnew => ?_, fun hnone => ?_⟩
    · rw [State.settle_fab]
      exact State.advertIn_keeps ..
    · rw [State.settle_fab]
      exact State.advertIn_own (s := { s with fab := { s.fab with work := s.fab.work.erase w } }) huid hnew
    · obtain ⟨hquiet, hof⟩ := State.advertIn_new (s := { s with fab := { s.fab with work := s.fab.work.erase w } }) (i := w.1) hnone
      rw [State.advertOf, State.settle_fab]
      exact ⟨hquiet, hof⟩
  · intro s hrun
    refine ⟨_, complete_of_eq rfl (if_pos hrun), ?_, ?_⟩
    · rw [State.settle_fab]
    · exact State.kept_sent (g := fun y : State => { y with fab := { y.fab with adverts := s.fab.adverts } }) (fun _ => rfl) (fun _ => rfl) (fun _ => rfl)
        rfl (List.append_nil _).symm fun _ _ => rfl
  · intro s hrun hrole
    refine ⟨_, complete_of_eq rfl (if_pos (by rw [hrun, hrole]; rfl)), fun hwait hstreams => ?_⟩
    rw [State.settle_fab, State.settle_get _ (by decide)]
    exact State.routes_reach ⟨hwait, hstreams⟩
  · intro s hrun hdue
    obtain ⟨⟨f, r, heq⟩, hword⟩ := s.respray_spec
    refine ⟨_, complete_of_eq (u := s.respray) rfl (if_pos (by rw [hrun, decide_eq_true hdue]; rfl)), ?_, ?_⟩
    · rw [State.settle_fab, heq]
      rfl
    · refine State.kept_sent (g := fun y : State => { y with free := s.free, fab := s.fab }) (fun _ => rfl) (fun _ => rfl) (fun _ => rfl) ?_ ?_ hword
      · rw [heq]
        rfl
      · rw [heq]
        exact (List.append_nil _).symm
  · intro s hrun hparent hup hdue
    have hsend := LinkSends.sendLink (P := (· = s.get R.FAB_TIME.PARENT)) rfl
      ({ s with fab := { s.fab with tag := wrapAdd 16 s.fab.tag 1, syncNs := s.ns } } : State) (record 256 [(0, 1, 2), (2, 2, wrapAdd 16 s.fab.tag 1)])
    refine ⟨_, execTsyncSend_due hrun hparent hup hdue, ?_, ?_, fun i hi => ?_, fun k hk ha hq => ?_⟩
    · rw [State.settle_fab, hsend.fab]
      rfl
    · rw [State.settle_fab, hsend.fab]
    · rw [State.iris, State.settle_irises]
      exact hsend.iris i hi
    · rw [State.settle_word _ hk]
      exact hsend.word k fun i hi => hi ▸ ⟨ha, hq⟩
  · intro s u w hrun hrole hwork hparent hiris htag
    obtain ⟨hdone, hfar⟩ := ({ s with fab := { s.fab with work := s.fab.work.erase w } } : State).exchange_spec
      ((stampDiff (leAt w.2.2 16 8) (leAt w.2.2 8 8) - stampDiff (w.2.1 / 2 ^ 24 % 2 ^ 64) (leAt w.2.2 24 8)) / 2) (leAt w.2.2 32 8)
    obtain ⟨⟨r, good, heq⟩, -, habs⟩ := id hdone
    refine ⟨_, execTreplyReceive_parent hrun hrole hwork hparent hiris htag, ?_, ?_, ?_, ?_, ?_, fun h => ?_, hdone.kept⟩
    · rw [State.settle_fab, heq]
    · rw [State.settle_fab, heq]
      rfl
    · rw [State.settle_fabSlew, heq]
    · rw [State.settle_slew, heq]
    · rw [State.settle_word _ (by decide)]
      exact habs
    · rw [State.settle_bit _ (by decide)]
      exact hfar h
  · intro s hrun hparent hdue
    obtain ⟨u, hlocked, hgood, hreply, hcore, hexec⟩ := execFabTimeLost_due hrun hparent hdue
    refine ⟨_, hexec, ?_, ?_, ?_, ?_⟩
    · rw [State.settle_bit _ (by decide), State.bit, State.raise_get _ _ _ (by decide), hlocked]
      rfl
    · rw [State.settle_fab, State.raise_fab, hgood]
    · rw [State.settle_fab, State.raise_fab, hreply]
    · rw [State.settle_latch _ (by decide)]
      exact State.raise_latches u 26 0 (by decide) (hcore.trans (State.coreUp_of_irisesRun hrun))

end Sys2Proof.Machine
end

section
/-! SUPPORT. The SMBus management port (R481, R506, R536, R584). -/
namespace Sys2Proof.Machine

/-! ### How the management port answers (R506, R584) -/

section
variable {s : State} {code : Nat} {tx : SmbTx} {body : State → State}

theorem State.smb_elsewhere (h : tx.addr ≠ 0x58 + s.power.smbAddr) : s.smb code tx body = s := by
  unfold State.smb
  rw [if_pos]
  simp [h]

theorem State.smb_heard (h : s.hears tx) : s.smb code tx body = match smbListed code with
    | none => s.emit .smbusNack
    | some (k, n) => if tx.kind != k then s.emit .smbusNack
      else if !tx.pecGood || (k == .blockWrite && tx.data.length != n) then s else body s := by
  obtain ⟨hkeeper, haddr⟩ := h
  exact if_neg (by simp [hkeeper, haddr])

theorem State.smb_write {n : Nat} (h : s.hears tx) (hk : tx.kind = .blockWrite) (hl : smbListed code = some (.blockWrite, n)) (hp : tx.pecGood = true)
    (hn : tx.data.length = n) : s.smb code tx body = body s := by
  rw [State.smb_heard h, hl]
  simp [hk, hp, hn]

theorem State.smb_read {n : Nat} (h : s.hears tx) (hk : tx.kind = .blockRead) (hl : smbListed code = some (.blockRead, n)) (hp : tx.pecGood = true) :
    s.smb code tx body = body s := by
  rw [State.smb_heard h, hl]
  simp [hk, hp]

theorem State.smb_write_ignored {n : Nat} (h : s.hears tx) (hk : tx.kind = .blockWrite) (hl : smbListed code = some (.blockWrite, n))
    (hbad : tx.pecGood = false ∨ tx.data.length ≠ n) : s.smb code tx body = s := by
  rw [State.smb_heard h, hl]
  rcases hbad with hp | hn
  · simp [hk, hp]
  · simp [hk, hn]

theorem State.smb_read_ignored {n : Nat} (h : s.hears tx) (hk : tx.kind = .blockRead) (hl : smbListed code = some (.blockRead, n))
    (hp : tx.pecGood = false) : s.smb code tx body = s := by
  rw [State.smb_heard h, hl]
  simp [hk, hp]

theorem State.smb_unlisted (h : s.hears tx) (hbad : smbListed code = none ∨ ∃ k n, smbListed code = some (k, n) ∧ tx.kind ≠ k) :
    s.smb code tx body = s.emit .smbusNack := by
  rw [State.smb_heard h]
  rcases hbad with hl | ⟨k, n, hl, hk⟩
  · rw [hl]
  · rw [hl]
    exact if_pos (bne_iff_ne.mpr hk)

end

/-- A step that only sends is the state's own frame. -/
theorem State.kept_emit (s : State) (e : Emit) : s.kept (s.emit e).settle [e] fun _ => False :=
  State.kept_sent (g := fun y => y) (fun _ => rfl) (fun _ => rfl) (fun _ => rfl) rfl rfl fun _ _ => rfl

/-! ### The pointers of the port (R481, R536) -/

/-- The journal pointer, and that of the fault log, at another place. -/
def State.withJptr (s : State) (p : Nat) : State := { s with cmd := { s.cmd with jptr := p } }
def State.withLogPtr (s : State) (p : Nat) : State := { s with fault := { s.fault with logPtr := p } }

section
variable (s : State) (e : Emit) (p : Nat)

theorem State.kept_withJptr : s.kept { (s.withJptr p).settle with cmd := s.cmd } [] fun _ => False :=
  State.kept_sent (g := fun y => { y with cmd := s.cmd }) (fun _ => rfl) (fun _ => rfl) (fun _ => rfl) rfl (List.append_nil _).symm fun _ _ => rfl

theorem State.kept_emit_withJptr : s.kept { ((s.emit e).withJptr p).settle with cmd := s.cmd } [e] fun _ => False :=
  State.kept_sent (g := fun y => { y with cmd := s.cmd }) (fun _ => rfl) (fun _ => rfl) (fun _ => rfl) rfl rfl fun _ _ => rfl

theorem State.kept_withLogPtr : s.kept { (s.withLogPtr p).settle with fault := s.fault } [] fun _ => False :=
  State.kept_sent (g := fun y => { y with fault := s.fault }) (fun _ => rfl) (fun _ => rfl) (fun _ => rfl) rfl (List.append_nil _).symm fun _ _ => rfl

theorem State.kept_emit_withLogPtr : s.kept { ((s.emit e).withLogPtr p).settle with fault := s.fault } [e] fun _ => False :=
  State.kept_sent (g := fun y => { y with fault := s.fault }) (fun _ => rfl) (fun _ => rfl) (fun _ => rfl) rfl rfl fun _ _ => rfl

end

section
variable {s : State} {tx : SmbTx} (hears : s.hears tx) (hp : tx.pecGood = true)
include hears hp

theorem execSmbJrnPointer_taken (hk : tx.kind = .blockWrite) (hn : tx.data.length = 6) :
    exec (.smbJrnPointer tx) s = .next (s.withJptr (256 * leAt tx.data 0 6)).settle := complete_of_eq rfl (State.smb_write hears hk rfl hp hn)

theorem execSmbJrnRead_taken (hk : tx.kind = .blockRead) : exec (.smbJrnRead tx) s =
    .next ((s.emit (.smbus (slice (s.jbytes (s.cmd.jptr / 256) 0 32) (s.cmd.jptr % 256) 32))).withJptr
      (256 * (s.cmd.jptr / 256) + (s.cmd.jptr % 256 + 32) % 256)).settle := complete_of_eq rfl (State.smb_read hears hk rfl hp)

theorem execSmbLogPointer_taken (hk : tx.kind = .blockWrite) (hn : tx.data.length = 4) :
    exec (.smbLogPointer tx) s = .next (s.withLogPtr (leAt tx.data 0 4)).settle := complete_of_eq rfl (State.smb_write hears hk rfl hp hn)

theorem execSmbLogRead_taken (hk : tx.kind = .blockRead) : exec (.smbLogRead tx) s =
    .next ((s.emit (.smbus (s.logBytes s.fault.logPtr))).withLogPtr (wrapAdd 32 s.fault.logPtr 1)).settle :=
  complete_of_eq rfl (State.smb_read hears hk rfl hp)

end

/-! ### Mode requests over the port (R506) -/

section
variable {s : State} {tx : SmbTx}

theorem State.smbMode_request {op : Nat} {body : State → State} (h : s.hears tx) (hk : tx.kind = .blockWrite) (hp : tx.pecGood = true)
    (hn : tx.data.length = 1) (hop : leAt tx.data 0 1 = op) (hmode : s.mode = .prove ∨ s.mode = .load ∨ s.mode = .serve ∨ s.mode = .safe) :
    s.smbMode tx op body = body s := by
  unfold State.smbMode
  rw [State.smb_write h hk rfl hp hn]
  rcases hmode with hm | hm | hm | hm <;> simp [hm, hop]

theorem State.smbMode_ignored {op : Nat} {body : State → State} (h : s.hears tx) (hk : tx.kind = .blockWrite)
    (hbad : tx.pecGood = false ∨ tx.data.length ≠ 1) : s.smbMode tx op body = s := State.smb_write_ignored h hk rfl hbad

theorem State.smbMode_id {op : Nat} (h : s.hears tx) (hk : tx.kind = .blockWrite) (hp : tx.pecGood = true)
    (hn : tx.data.length = 1) : s.smbMode tx op id = s := by
  unfold State.smbMode
  rw [State.smb_write h hk rfl hp hn]
  exact ite_self s

/-- RESTART takes the device to DORMANT with the keeper's registers as they were. -/
theorem State.restart_shows (s : State) : s.restart.settle.mode = .dormant ∧ s.restart.settle.prev = s.mode ∧
    s.restart.settle.power.ranRestart = true ∧ ∀ k, keeperOff k = true → s.restart.settle.word k = s.word k := by
  have hword : ∀ k, s.restart.word k = s.dormantCore.word k := fun _ => rfl
  refine ⟨?_, ?_, ?_, fun k hk => ?_⟩
  · rw [State.settle_mode]; rfl
  · rw [State.settle_prev]; rfl
  · rw [State.settle_power]; rfl
  · have hf : ¬ followReg k := by
      simp only [keeperOff, Bool.or_eq_true, decide_eq_true_eq, beq_iff_eq] at hk
      simp only [followReg]
      omega
    rw [State.settle_word _ hf, hword, State.word_dormantCore, if_pos hk]

/-- What the loader has not set stays as its fields return to their reset values. -/
theorem State.word_unloadFields_untouched {k : Nat} (h : ∀ x ∈ s.boot.touched, x.1 ≠ k) : s.unloadFields.word k = s.word k := by
  refine List.foldlRecOn (motive := fun t : State => t.word k = s.word k) _ _ rfl fun t ht x hx => ?_
  unfold State.resetField
  split
  · rename_i f _
    exact (State.word_set_other (l := ⟨x.1, x.2, f.w⟩) t fun he => h x hx he.symm).trans ht
  · exact ht

/-- SAFE is entered with the registers that a chip reset keeps as they were, but for what the loader has set. -/
theorem State.toSafe_shows (cause : Nat) : (s.toSafe cause).settle.mode = .safe ∧ (s.toSafe cause).settle.prev = s.mode ∧
    (s.toSafe cause).settle.safeCause = cause ∧
    ∀ k, safeOff k = true → (s.mode = .serve ∨ ∀ x ∈ s.boot.touched, x.1 ≠ k) → (s.toSafe cause).settle.word k = s.word k := by
  refine ⟨?_, ?_, ?_, fun k hk htouched => ?_⟩
  · rw [State.settle_mode]; rfl
  · rw [State.settle_prev]; rfl
  · rw [State.settle_safeCause]; rfl
  · have hf : ¬ followReg k := fun h => by
      rw [safeOff_of_followReg h] at hk
      cases hk
    rw [State.settle_word _ hf, State.word_toSafe, if_pos hk]
    rcases htouched with hserve | htouched
    · rw [hserve]
    · split
      · exact State.word_unloadFields_untouched htouched
      · exact State.word_unloadFields_untouched htouched
      · rfl

end

/-- A transaction that the port ignores leaves everything. -/
theorem State.ignores {s u : State} (h : u = s) : ∃ t, complete true s u = .next t ∧ s.kept t [] fun _ => False := State.complete_idle rfl h

/-- Settles O27: each listed command in its own transfer runs its operation; anything else leaves the state, or is not acknowledged. -/
theorem smbusAnswers : Obligations.SMBusAnswers := by
  refine ⟨?_, ?_, ?_, ?_, ?_, ?_, ?_, ?_⟩
  · intro s tx hears hk
    refine ⟨fun hp hn => ⟨_, execSmbJrnPointer_taken hears hp hk hn, ?_, s.kept_withJptr _⟩, fun hbad =>
      State.ignores (State.smb_write_ignored hears hk rfl hbad)⟩
    rw [State.settle_cmd]
    rfl
  · intro s tx hears hk
    refine ⟨fun hp => ⟨_, execSmbJrnRead_taken hears hp hk, ?_, s.kept_emit_withJptr _ _⟩, fun hp =>
      State.ignores (State.smb_read_ignored hears hk rfl hp)⟩
    rw [State.settle_cmd]
    rfl
  · intro s tx hears hk
    refine ⟨fun hp => ⟨_, complete_of_eq rfl (State.smb_read hears hk rfl hp), ?_⟩, fun hp =>
      State.ignores (State.smb_read_ignored hears hk rfl hp)⟩
    have h := s.kept_emit (.smbus ([0x300000, 0x300008, 0x300018, 0x300010].flatMap fun o => leBytes 8 (s.word o).toNat))
    simpa only [List.flatMap_cons, List.flatMap_nil, List.append_nil, List.append_assoc] using h
  · intro s tx hears hk
    refine ⟨fun hp hn => ⟨_, execSmbLogPointer_taken hears hp hk hn, ?_, s.kept_withLogPtr _⟩, fun hbad =>
      State.ignores (State.smb_write_ignored hears hk rfl hbad)⟩
    rw [State.settle_fault]
    rfl
  · intro s tx hears hk
    refine ⟨fun hp => ⟨_, execSmbLogRead_taken hears hp hk, ?_, s.kept_emit_withLogPtr _ _⟩, fun hp =>
      State.ignores (State.smb_read_ignored hears hk rfl hp)⟩
    rw [State.settle_fault]
    rfl
  · intro s tx hears hk
    refine ⟨fun hp hn _ => State.ignores (State.smbMode_id hears hk hp hn), fun hp hn hop hmode => ?_, fun hp hn hop => ⟨fun hmode => ?_, fun hmode => ?_⟩,
      fun hbad c hc => ?_⟩
    · exact ⟨_, complete_of_eq rfl (State.smbMode_request hears hk hp hn hop hmode), s.restart_shows⟩
    · have hne : (s.mode == .safe) = false := by rcases hmode with hm | hm | hm <;> rw [hm] <;> rfl
      have hany : s.mode = .prove ∨ s.mode = .load ∨ s.mode = .serve ∨ s.mode = .safe := by
        rcases hmode with hm | hm | hm
        · exact .inl hm
        · exact .inr (.inl hm)
        · exact .inr (.inr (.inl hm))
      exact ⟨_, complete_of_eq rfl ((State.smbMode_request hears hk hp hn hop hany).trans (if_neg (by simp [hne]))), State.toSafe_shows 4⟩
    · exact State.ignores ((State.smbMode_request hears hk hp hn hop (.inr (.inr (.inr hmode)))).trans (if_pos (by rw [hmode]; rfl)))
    · simp only [List.mem_cons, List.not_mem_nil, or_false] at hc
      rcases hc with rfl | rfl | rfl
      · exact State.ignores (State.smbMode_ignored hears hk hbad)
      · exact State.ignores (State.smbMode_ignored hears hk hbad)
      · exact State.ignores (State.smbMode_ignored hears hk hbad)
  · intro s code tx hcode hears hbad
    exact ⟨_, complete_of_eq (decide_eq_true hcode) (State.smb_unlisted hears hbad), s.kept_emit _⟩
  · intro s code tx hcode haddr c hc
    simp only [List.mem_cons, List.not_mem_nil, or_false] at hc
    rcases hc with rfl | rfl | rfl | rfl | rfl | rfl | rfl | rfl | rfl
    · exact State.ignores (State.smb_elsewhere haddr)
    · exact State.ignores (State.smb_elsewhere haddr)
    · exact State.ignores (State.smb_elsewhere haddr)
    · exact State.ignores (State.smb_elsewhere haddr)
    · exact State.ignores (State.smb_elsewhere haddr)
    · exact State.ignores (State.smb_elsewhere haddr)
    · exact State.ignores (State.smb_elsewhere haddr)
    · exact State.ignores (State.smb_elsewhere haddr)
    · exact State.complete_idle (decide_eq_true hcode) (State.smb_elsewhere haddr)

end Sys2Proof.Machine
end

section
/-! SUPPORT. Reads of the record queues, and configuration requests (R434, R435, R571). -/
namespace Sys2Proof.Machine

/-! ### Reads in their forms (R571) -/

section
variable {s : State} {src : HostSrc} {off : Nat} (hm : s.manages src) (hoff : off < 2 ^ 26)
include hm hoff

/-- A management function's read in SERVE reaches the registers of BAR0. -/
theorem State.readBar_of_manages : (s.reach src && decide (off < barSize src 0)) = true ∧ s.accessMode = .serve ∧
    s.readBar src 0 off = s.readReg off := by
  obtain ⟨hmode, hreach, hman, -⟩ := hm
  have ha : s.accessMode = .serve := by simp [State.accessMode, hmode]
  have hsize : off < barSize src 0 := by simpa [barSize, hman] using hoff
  exact ⟨by simp [hreach, hsize], ha, by simp [State.readBar, ha]⟩

theorem State.hostRead_lo32 : s.hostRead src off .lo32 = s.emit (.readData [s.readReg off % 2 ^ 32]) := by
  obtain ⟨hup, -, hread⟩ := State.readBar_of_manages hm hoff
  simp [State.hostRead, State.barRead, hup, hread]

theorem State.hostRead_hi32 : s.hostRead src off .hi32 = s.emit (.readData [s.readReg off / 2 ^ 32]) := by
  obtain ⟨hup, -, hread⟩ := State.readBar_of_manages hm hoff
  simp [State.hostRead, State.barRead, hup, hread]

theorem State.hostRead_full : s.hostRead src off .full = (s.readEffect off).emit (.readData [s.readReg off]) := by
  obtain ⟨hup, ha, hread⟩ := State.readBar_of_manages hm hoff
  simp [State.hostRead, State.barRead, State.readWord, hup, ha, hread]

end

/-! ### Longer reads -/

theorem State.readEffect_out (s : State) (off : Nat) : (s.readEffect off).out = s.out := by
  unfold State.readEffect
  split_ifs <;> rfl

theorem State.readWord_out (s : State) (src : HostSrc) (bar off : Nat) : (s.readWord src bar off).1.out = s.out := by
  unfold State.readWord
  dsimp only
  split
  · exact s.readEffect_out off
  · rfl

/-- A longer read reads as many words as it has, and sends nothing while it does. -/
theorem State.readWords_spec (src : HostSrc) (bar n : Nat) :
    ∀ (s : State) (off : Nat), (s.readWords src bar n off).1.out = s.out ∧ (s.readWords src bar n off).2.length = n := by
  induction n with
  | zero => exact fun s off => ⟨rfl, rfl⟩
  | succ n ih =>
    intro s off
    obtain ⟨hout, hlen⟩ := ih (if off < barSize src bar then s.readWord src bar off else (s, 0)).1 (off + 8)
    refine ⟨hout.trans ?_, congrArg (· + 1) hlen⟩
    split
    · exact s.readWord_out src bar off
    · rfl

theorem longWords_length (covers : Bool) (ws : List Nat) : (longWords covers ws).length = ws.length := by
  cases ws with
  | nil => rfl
  | cons w rest => cases covers <;> simp [longWords]

/-- A longer read answers with as many words as it covers (KL-12). -/
theorem State.hostRead_long {s : State} {src : HostSrc} {off : Nat} (hm : s.manages src) (hoff : off < 2 ^ 26) (before words : Nat) :
    ∃ l, l.length = words ∧ s.sends (s.hostRead src off (.long before words)).settle [.readData l] := by
  obtain ⟨hup, -, -⟩ := State.readBar_of_manages hm hoff
  obtain ⟨hout, hlen⟩ := State.readWords_spec src 0 words s (off - 8 * before)
  have hread : ∃ covers, s.hostRead src off (.long before words) =
      (s.readWords src 0 words (off - 8 * before)).1.emit (.readData (longWords covers (s.readWords src 0 words (off - 8 * before)).2)) :=
    ⟨_, if_neg (by simp [hup])⟩
  obtain ⟨covers, hread⟩ := hread
  rw [hread]
  exact ⟨_, (longWords_length ..).trans hlen, State.sends_settle (congrArg (· ++ _) hout)⟩

/-! ### The registers at the heads of the queues -/

theorem regAt_evq : (regAt 0x200058).isNone = false := by decide +kernel
theorem regAt_breachQueue : (regAt 0x1D00608).isNone = false := by decide +kernel
theorem regAt_loupe : (regAt 0x2902018).isNone = false := by decide +kernel

theorem regAt_timestamps {n : Nat} (hn : n < 96) : (regAt (0x2000048 + 0x4000 * n)).isNone = false := by
  have hstands : RegDef.standsAt (0x2000048 + 0x4000 * n) ⟨0x2000040, [(96, 0x4000), (2, 0x8)], []⟩ = true := by
    have hdiv : (0x2000048 + 0x4000 * n - 0x2000040) / 0x4000 = n := by omega
    have hmod : (0x2000048 + 0x4000 * n - 0x2000040) % 0x4000 = 8 := by omega
    have hle : 0x2000040 ≤ 0x2000048 + 0x4000 * n := by omega
    simp [RegDef.standsAt, dimsHit, hdiv, hmod, hn, hle]
  rw [regAt_eq, ← Option.not_isSome, List.find?_isSome.mpr ⟨_, (by decide +kernel), hstands⟩]
  rfl

theorem macOff_timestamps {n : Nat} (hn : n < 96) : macOff (0x2000048 + 0x4000 * n) 0x48 = true ∧ macOff (0x2000048 + 0x4000 * n) 0x40 = false ∧
    (0x2000048 + 0x4000 * n - 0x2000000) / 0x4000 = n := by
  have hdiv : (0x2000048 + 0x4000 * n - 0x2000000) / 0x4000 = n := by omega
  have hmod : (0x2000048 + 0x4000 * n - 0x2000000) % 0x4000 = 0x48 := by omega
  have hin : 0x2000000 ≤ 0x2000048 + 0x4000 * n ∧ 0x2000048 + 0x4000 * n < 0x2180000 := by omega
  simp [macOff, hin, hmod, hdiv]

section
variable (s : State)

theorem State.readReg_evq : s.readReg 0x200058 = s.evqWord 1 := by
  simp [State.readReg, regAt_evq]

theorem State.readReg_breachQueue : s.readReg 0x1D00608 = s.bqWord 1 := by
  simp [State.readReg, regAt_breachQueue]

theorem State.readReg_loupe : s.readReg 0x2902018 = s.loupeWord 2 := by
  simp [State.readReg, regAt_loupe, macOff]

theorem State.readReg_timestamps {n : Nat} (hn : n < 96) : s.readReg (0x2000048 + 0x4000 * n) = s.ptpWord n 1 := by
  obtain ⟨hsecond, hfirst, hdiv⟩ := macOff_timestamps hn
  have hreg := regAt_timestamps hn
  unfold State.readReg
  dsimp only
  rw [if_neg (by simp [hreg])]
  iterate 10 rw [if_neg (by omega)]
  rw [if_neg (by simp [hfirst]), if_pos hsecond, hdiv]

end

/-! ### A record leaves its queue (R571) -/

/-- The event queue, and the timestamps of a port, with other records. -/
def State.withEvents (s : State) (q : List FaultEvent) : State := { s with fault := { s.fault with queue := q } }
def State.withTimestamps (s : State) (n : Nat) (q : List (Nat × Nat)) : State :=
  { s with mac := { s.mac with ptp := s.mac.ptp.put (fun _ => []) n q } }

section
variable {s : State} {src : HostSrc} (hm : s.manages src)
include hm

theorem State.fltEvqRead_takes {e : FaultEvent} {rest : List FaultEvent} (hq : s.fault.queue = e :: rest) :
    s.hostRead src 0x200058 .full = (s.withEvents rest).emit (.readData [(faultWords e).2]) := by
  have heffect : s.readEffect 0x200058 = s.withEvents rest := by simp [State.readEffect, State.withEvents, hq]
  have hword : s.evqWord 1 = (faultWords e).2 := by simp [State.evqWord, hq]
  rw [State.hostRead_full hm (by omega), heffect, s.readReg_evq, hword]

theorem State.aprBqRead_takes {b : Nat × Nat} {rest : List (Nat × Nat)} (hen : s.bit R.CNT_XRING.EN = false) (hq : s.apr.breaches = b :: rest) :
    s.hostRead src 0x1D00608 .full = s.popBreach.emit (.readData [b.2]) := by
  have heffect : s.readEffect 0x1D00608 = s.popBreach := by simp [State.readEffect, hen, hq]
  have hword : s.bqWord 1 = b.2 := by simp [State.bqWord, hen, hq]
  rw [State.hostRead_full hm (by omega), heffect, s.readReg_breachQueue, hword]

theorem State.cntLoupeRead_takes {x : Sample} {rest : List Sample} (hen : s.bit R.CNT_XRING.EN = false) (hq : s.cnt.loupe = x :: rest) :
    s.hostRead src 0x2902018 .full = s.popLoupe.emit (.readData [x.w2]) := by
  have heffect : s.readEffect 0x2902018 = s.popLoupe := by simp [State.readEffect, hen, hq]
  have hword : s.loupeWord 2 = x.w2 := by simp [State.loupeWord, hen, hq]
  rw [State.hostRead_full hm (by omega), heffect, s.readReg_loupe, hword]

theorem State.macPtpTsRead_takes {n : Nat} (hn : n < 96) {x : Nat × Nat} {rest : List (Nat × Nat)}
    (hq : SMap.find (fun _ => []) s.mac.ptp n = x :: rest) :
    s.hostRead src (0x2000048 + 0x4000 * n) .full = (s.withTimestamps n rest).emit (.readData [x.2]) := by
  obtain ⟨hsecond, -, hdiv⟩ := macOff_timestamps hn
  have heffect : s.readEffect (0x2000048 + 0x4000 * n) = s.withTimestamps n rest := by
    unfold State.readEffect
    rw [if_neg (by omega), if_neg (by omega), if_neg (by omega), if_pos hsecond]
    dsimp only
    rw [hdiv, hq]
    rfl
  have hword : s.ptpWord n 1 = x.2 := by simp [State.ptpWord, hq]
  rw [State.hostRead_full hm (by omega), heffect, s.readReg_timestamps hn, hword]

end

section
variable (s : State) (e : Emit)

theorem State.kept_withEvents (q : List FaultEvent) :
    s.kept { ((s.withEvents q).emit e).settle with fault := s.fault } [e] fun _ => False :=
  State.kept_sent (g := fun y => { y with fault := s.fault }) (fun _ => rfl) (fun _ => rfl) (fun _ => rfl) rfl rfl fun _ _ => rfl

theorem State.kept_popBreach : s.kept { (s.popBreach.emit e).settle with apr := s.apr } [e] fun k => k = R.APR_BQ_STAT.DEPTH.off :=
  State.kept_sent (g := fun y => { y with apr := s.apr }) (fun _ => rfl) (fun _ => rfl) (fun _ => rfl) rfl rfl
    fun _ hk => State.word_set_other (l := R.APR_BQ_STAT.DEPTH) _ hk

/-- The counters put back, of which a settled state keeps the carries and the exposure aside. -/
theorem State.still_withCnt (y : State) (c : CntState) :
    ({ y with cnt := c } : State).still = { y.still with cnt := { c with wraps := [], exposure := none } } := rfl

theorem State.kept_popLoupe : s.kept { (s.popLoupe.emit e).settle with cnt := s.cnt } [e] fun k => k = R.CNT_LOUPE_STAT.DEPTH.off := by
  have hw : ∀ k, ¬ k = R.CNT_LOUPE_STAT.DEPTH.off → (s.popLoupe.emit e).word k = s.word k :=
    fun _ hk => State.word_set_other (l := R.CNT_LOUPE_STAT.DEPTH) _ hk
  have hstill : ({ s.popLoupe.emit e with cnt := s.cnt } : State).still = s.still := rfl
  have hregs : ∀ y : State, ({ y with cnt := s.cnt } : State).regs = y.regs := fun _ => rfl
  have hout : ∀ y : State, ({ y with cnt := s.cnt } : State).out = y.out := fun _ => rfl
  refine State.kept_of (x := s.popLoupe.emit e) ?_ (hregs _) (hout _) hw rfl
  rw [State.still_withCnt, State.settle_still, ← State.still_withCnt, hstill]

theorem State.kept_withTimestamps (n : Nat) (q : List (Nat × Nat)) :
    s.kept { ((s.withTimestamps n q).emit e).settle with mac := { ((s.withTimestamps n q).emit e).settle.mac with ptp := s.mac.ptp } } [e]
      fun _ => False :=
  State.kept_sent (g := fun y => { y with mac := { y.mac with ptp := s.mac.ptp } }) (fun _ => rfl) (fun _ => rfl) (fun _ => rfl) rfl rfl
    fun _ _ => rfl

end

/-! ### Configuration requests (R434, R435) -/

/-- The sizes that a function's Device Control register has set. -/
def State.withSizes (s : State) (func : Nat) (x : Nat × Nat) : State :=
  { s with host := { s.host with sizes := s.host.sizes.put (fun _ => (0, 2)) func x } }

section
variable {s : State} {src : HostSrc} {reg value : Nat} {write : Bool}

theorem State.config_answered (hmode : s.mode = .serve) (hep : s.epUp src.ep = true) :
    s.config src reg write value = (if write then s.deviceControl src.func reg value else s).emit .cfgAnswer := by
  simp [State.config, State.coreUp, State.barUp, State.accessMode, hmode, hep]

theorem State.config_retried (hmode : s.mode = .prove ∨ s.mode = .load) (hep : s.epUp src.ep = true) :
    s.config src reg write value = s.emit .cfgRetry := by
  rcases hmode with hmode | hmode
  · simp [State.config, State.coreUp, State.barUp, State.accessMode, hmode, hep]
  · simp [State.config, State.coreUp, State.barUp, State.accessMode, hmode, hep]

theorem State.kept_withSizes (s : State) (e : Emit) (func : Nat) (x : Nat × Nat) :
    s.kept { ((s.withSizes func x).emit e).settle with host := s.host } [e] fun _ => False :=
  State.kept_sent (g := fun y => { y with host := s.host }) (fun _ => rfl) (fun _ => rfl) (fun _ => rfl) rfl rfl fun _ _ => rfl

theorem State.kept_emit_host (s : State) (e : Emit) : s.kept { (s.emit e).settle with host := s.host } [e] fun _ => False :=
  State.kept_sent (g := fun y => { y with host := s.host }) (fun _ => rfl) (fun _ => rfl) (fun _ => rfl) rfl rfl fun _ _ => rfl

/-- A configuration request in SERVE is answered; one that writes Device Control sets the sizes of its function. -/
theorem configRequest_serve (hwf : Instr.wf (.configRequest src reg write value) = true) (hep : s.epUp src.ep = true) (hmode : s.mode = .serve) :
    ∃ t, exec (.configRequest src reg write value) s = .next t ∧ s.kept { t with host := s.host } [.cfgAnswer] (fun _ => False) ∧
      (write = false ∨ reg ≠ Config.deviceControl.val → t.host = s.host) ∧
      (write = true → reg = Config.deviceControl.val →
        t.maxPayload src.func = 128 * 2 ^ min 2 (bitsGet value 5 3) ∧ t.maxRead src.func = 128 * 2 ^ min 5 (bitsGet value 12 3)) := by
  have hanswer := State.config_answered (reg := reg) (write := write) (value := value) hmode hep
  by_cases h : write = true ∧ reg = Config.deviceControl.val
  · obtain ⟨hwrite, hreg⟩ := h
    have hsizes : s.config src reg write value = (s.withSizes src.func (bitsGet value 5 3, bitsGet value 12 3)).emit .cfgAnswer := by
      rw [hanswer, if_pos hwrite, State.deviceControl, if_pos hreg]
      rfl
    refine ⟨_, complete_of_eq hwf hsizes, s.kept_withSizes .., fun hno => ?_, fun _ _ => ?_⟩
    · exact absurd hreg (hno.resolve_left (by simp [hwrite]))
    · simp [State.maxPayload, State.maxRead, State.emit, State.withSizes]
  · have hnone : s.config src reg write value = s.emit .cfgAnswer := by
      rw [hanswer]
      by_cases hwrite : write = true
      · rw [if_pos hwrite, State.deviceControl, if_neg fun hreg => h ⟨hwrite, hreg⟩]
      · rw [if_neg hwrite]
    refine ⟨_, complete_of_eq hwf hnone, s.kept_emit_host _, fun _ => ?_, fun hwrite hreg => absurd ⟨hwrite, hreg⟩ h⟩
    rw [State.settle_host]
    rfl

end

/-! ### All forms of the reads -/

/-- A part of a word takes nothing, and a longer read answers with its words, at any register that a read instruction names. -/
theorem State.readForms {s : State} {src : HostSrc} (hm : s.manages src) {c : ReadForm → Instr} {off : Nat} (hoff : off < 2 ^ 26)
    (hc : ∀ form, exec (c form) s = .next (s.hostRead src off form).settle) :
    (∃ t, exec (c .lo32) s = .next t ∧ s.kept t [.readData [s.readReg off % 2 ^ 32]] fun _ => False) ∧
      (∃ t, exec (c .hi32) s = .next t ∧ s.kept t [.readData [s.readReg off / 2 ^ 32]] fun _ => False) ∧
      (∀ before words, ∃ t l, exec (c (.long before words)) s = .next t ∧ l.length = words ∧ s.sends t [.readData l]) := by
  refine ⟨⟨_, hc _, ?_⟩, ⟨_, hc _, ?_⟩, fun before words => ?_⟩
  · rw [State.hostRead_lo32 hm hoff]
    exact s.kept_emit _
  · rw [State.hostRead_hi32 hm hoff]
    exact s.kept_emit _
  · obtain ⟨l, hlen, hsends⟩ := State.hostRead_long hm hoff before words
    exact ⟨_, l, hc _, hlen, hsends⟩

/-- Settles O9: the four registers whose 64-bit read takes a record, the other forms of their reads, and configuration requests. -/
theorem readsTakeRecords : Obligations.ReadsTakeRecords := by
  refine ⟨fun s src hm => ?_, fun s src reg value write hwf hep => ⟨configRequest_serve hwf hep, fun hmode => ?_⟩⟩
  · have hwf : src.wf = true := hm.2.2.2
    refine ⟨fun e rest hq => ?_, fun b rest hen hq => ?_, fun x rest hen hq => ?_, fun n x rest hn hq => ?_, fun n hn c off hc => ?_⟩
    · refine ⟨_, complete_of_eq hwf (State.fltEvqRead_takes hm hq), ?_, s.kept_withEvents ..⟩
      rw [State.settle_fault]
      rfl
    · refine ⟨_, complete_of_eq hwf (State.aprBqRead_takes hm hen hq), ?_, s.kept_popBreach _⟩
      rw [State.settle_apr]
      exact congrArg (List.drop 1) hq
    · refine ⟨_, complete_of_eq hwf (State.cntLoupeRead_takes hm hen hq), ?_, s.kept_popLoupe _⟩
      rw [State.settle_cnt_loupe]
      exact congrArg (List.drop 1) hq
    · refine ⟨_, complete_of_eq (by simp [Instr.wf, hwf, hn]) (State.macPtpTsRead_takes hm hn hq), ?_, s.kept_withTimestamps ..⟩
      rw [State.settle_mac_ptp]
      exact SMap.find_put_same ..
    · simp only [List.mem_cons, Prod.mk.injEq, List.not_mem_nil, or_false] at hc
      obtain ⟨rfl, rfl⟩ | ⟨rfl, rfl⟩ | ⟨rfl, rfl⟩ | ⟨rfl, rfl⟩ := hc
      · exact State.readForms hm (by omega) fun form => complete_of_eq hwf rfl
      · exact State.readForms hm (by omega) fun form => complete_of_eq hwf rfl
      · exact State.readForms hm (by omega) fun form => complete_of_eq hwf rfl
      · exact State.readForms hm (by omega) fun form => complete_of_eq (by simp [Instr.wf, hwf, hn]) rfl
  · exact ⟨_, complete_of_eq hwf (State.config_retried hmode hep), s.kept_emit _⟩

end Sys2Proof.Machine
end

section
/-! SUPPORT. More states in which a number that is no class or account has found its way into the state. -/
namespace Sys2Proof.Machine

/-- The accepted packet of a class that is no class, due at a port whose link is down: its count of breaches would be the MACsec register of
port 0. -/
def strayClassPacket : Pkt := { id := 0, src := 0, bytes := [], stamp := { cls := 0x27FD8 }, bounded := true, accepted := true }

/-- Port 0 is held down for want of packet numbers, with association 1 installed; the reserved bits of its MACsec register hold ones. -/
def strayClassWaits : State :=
  { serveWith [(0x2000008, 0x20), (0x2200000, BitVec.ofNat 64 (2 ^ 58 - 1))] with
    power := { State.reset.power with perstN := [true, true] }
    col := { State.reset.col with epGroup := [(7, 1)], groupOut := [(0, 1)] }
    mac := { State.reset.mac with exhausted := [(0, true)], assocs := [(msaKey 0 0 0 1, some ⟨[], 0, 0, 1, 0, 0⟩)] }
    buf := { State.reset.buf with leaves := [(7, [strayClassPacket])] } }

theorem strayClassWaits_manages : strayClassWaits.manages ⟨0, 0⟩ := by
  unfold State.manages
  decide +kernel

/-- Moving TX_AN to 1 lets the link rise; the breach counted then carries out of the reserved bits, and TX_AN is 2. -/
theorem strayClassWaits_moves_two :
    holdsNext (exec (.msecPortWrite ⟨0, 0⟩ 0 (2 ^ 58)) strayClassWaits) (fun t => t.get (R.SEC_MSEC_PORT.TX_AN 0) == 2) = true := by
  decide +kernel

/-- Refutes O7: the write of a MACsec register that moves TX_AN to an installed association lets the link rise, and where a packet whose
class is no class was due at that port, the breach counted adds one to the register just written. -/
theorem not_registerOperationsAct : ¬ Obligations.RegisterOperationsAct := by
  unfold Obligations.RegisterOperationsAct
  rintro ⟨-, -, -, -, -, -, -, hports, -⟩
  obtain ⟨⟨t, ht, -, -, -, -, htxan, -⟩, -⟩ :=
    hports strayClassWaits ⟨0, 0⟩ 0 (2 ^ 58) strayClassWaits_manages (by omega) (by omega)
  have htwo := holdsNext_next ht strayClassWaits_moves_two
  simp [htxan, bitsGet] at htwo

/-- A cell without a route waits for an iris; its class is no class, and would be bounded by the register at 0x203FF00: its count of
breaches would be BIST_CTRL. -/
def strayCellWaits : WaitCell := { kind := 1, cell := { cls := 0x67FD8 }, mem := none, relayFrom := none, firstNs := none }

/-- The maintenance window is open, the bits of BIST_CTRL below WINDOW hold ones, and iris 0, which was disabled, trains. -/
def windowWithStrayCell : State :=
  { serveWith [(0x2A00000, 0x1FF), (0x2300008, 1 <<< 37), (0x203FF00, 1 <<< 63)] with
    bist := { State.reset.bist with saved := [(0, false)] }
    fab := { State.reset.fab with waiting := [strayCellWaits] } }

theorem windowWithStrayCell_manages : windowWithStrayCell.manages ⟨0, 0⟩ := by
  unfold State.manages
  decide +kernel

theorem windowWithStrayCell_open : windowWithStrayCell.bit R.BIST_CTRL.WINDOW = true := by decide +kernel

/-- The window closes, iris 0 goes down, the cell is lost, and its breach carries into WINDOW. -/
theorem windowWithStrayCell_stays_open :
    holdsNext (exec (.bistWindowClose ⟨0, 0⟩ 0) windowWithStrayCell) (fun t => t.bit R.BIST_CTRL.WINDOW) = true := by
  decide +kernel

/-- Refutes O8: as the window closes, an iris that software has enabled in it goes down, and a waiting cell without a route is lost; where the
class of that cell is no class, the breach counted carries into the field WINDOW just cleared. -/
theorem not_faultAndTestRegistersAct : ¬ Obligations.FaultAndTestRegistersAct := by
  unfold Obligations.FaultAndTestRegistersAct
  rintro ⟨-, -, -, hwindow, -⟩
  obtain ⟨-, hclose⟩ := hwindow windowWithStrayCell ⟨0, 0⟩ 0 windowWithStrayCell_manages (by omega) (by decide)
  obtain ⟨t, ht, hclosed, -⟩ := hclose windowWithStrayCell_open
  have hopen := holdsNext_next ht windowWithStrayCell_stays_open
  simp [hclosed] at hopen

/-- The copy of a mirror session that is captured; its account is no account, and its reserved cell would be counted in the lost copies of
session 0. -/
def strayCapture : Pkt := { id := 0, src := 0, bytes := [], acct := 0x7FE01, xResv := 1, copy := 512 }

/-- Session 0 has lost 2^20 copies, and the capture waits for its ring. -/
def captureWithStrayAccount : State :=
  { serveWith [(0x1F00008, 1 <<< 20)] with cnt := { State.reset.cnt with captures := [(0, 0, strayCapture)] } }

theorem captureWithStrayAccount_waits : captureWithStrayAccount.coreUp = true ∧
    (captureWithStrayAccount.cnt.captures.find? fun e => !e.2.2.cut) = some (0, 0, strayCapture) ∧
    captureWithStrayAccount.word (R.MIR_LOST.COUNT 0).off = 0x100000 := by
  decide +kernel

/-- The lost copy is counted, and the cell given back takes 2^20 off that count. -/
theorem captureWithStrayAccount_counts_one :
    holdsNext (exec (.captureWrite false) captureWithStrayAccount) (fun t => decide (t.word (R.MIR_LOST.COUNT 0).off = 1)) = true := by
  decide +kernel

/-- Refutes O15: a captured copy whose account is no account gives its cell back in the very register that has just counted it as lost. -/
theorem not_countersAndMirrorsAct : ¬ Obligations.CountersAndMirrorsAct := by
  unfold Obligations.CountersAndMirrorsAct
  rintro ⟨-, -, -, -, -, hcapture⟩
  obtain ⟨hup, hfirst, hword⟩ := captureWithStrayAccount_waits
  obtain ⟨t, ht, -, hlost⟩ := hcapture captureWithStrayAccount 0 0 strayCapture false hup hfirst (by omega) (by decide) (by decide)
  have hone := of_decide_eq_true (holdsNext_next ht captureWithStrayAccount_counts_one)
  have hmany : t.word (R.MIR_LOST.COUNT 0).off = 0x100000 + 1 := by rw [← hword]; exact hlost
  exact absurd (hone.symm.trans hmany) (by decide)

end Sys2Proof.Machine
end

section
/-! SUPPORT. Self-test: groups, units and the end of a plan (R537 to R546). -/
namespace Sys2Proof.Machine

/-! ### Runs of a map (R538, R544) -/

/-- Outside its run, a map with that run replaced reads as before. -/
theorem find_replaceRun_outside {α : Type} {d : Nat → α} {r : Nat × Nat} {new m : SMap α} {k : Nat} (hk : ¬ (r.1 ≤ k ∧ k < r.1 + r.2))
    (hnew : ∀ e ∈ new, r.1 ≤ e.1 ∧ e.1 < r.1 + r.2) : SMap.find d (replaceRun r new m) k = SMap.find d m k := by
  have hno : ∀ e ∈ new, e.1 ≠ k := fun e he hek => hk (hek ▸ hnew e he)
  unfold replaceRun
  rw [List.append_assoc]
  refine SMap.find_append_filter d m (fun j => decide (j < r.1)) _ k ?_ fun hlow e he => ?_
  · by_cases hlow : k < r.1
    · exact .inr (decide_eq_true hlow)
    · have hpast : decide (r.1 ≤ k ∧ r.1 + r.2 ≤ k) = true := decide_eq_true ⟨by omega, by omega⟩
      left
      rw [SMap.find_append d _ _ k hno, SMap.find_filter d m (fun j => decide (r.1 ≤ j ∧ r.1 + r.2 ≤ j)) k hpast]
      exact (SMap.find_filter d m (fun j => !decide (j < r.1)) k (by simpa using hlow)).symm
  · rcases List.mem_append.mp he with he | he
    · exact hno e he
    · have hpast := of_decide_eq_true (List.mem_filter.mp he).2
      have hbelow := of_decide_eq_true hlow
      omega

theorem openRun_inside {α : Type} [DecidableEq α] {n : Nat} {r : Nat × Nat} {unlisted : α} {f : Nat → α} :
    ∀ e ∈ openRun n r unlisted f, r.1 ≤ e.1 ∧ e.1 < r.1 + r.2 := by
  intro e he
  obtain ⟨i, hi, rfl⟩ := List.mem_map.mp (List.mem_of_mem_filter he)
  have := List.mem_range.mp hi
  exact ⟨by simp, by simpa using this⟩

/-! ### The test of a unit begins (R544) -/

/-- The save region holds one more save. -/
def State.withSave (s : State) (v : UnitSave) : State := { s with bist := { s.bist with saves := v :: s.bist.saves } }

/-- UNIT shows the unit, and SERVE has saved what it holds. -/
def State.unitSavedFirst (s : State) (u : Nat) : State :=
  if s.mode == .serve then (s.set R.BIST_STATUS.UNIT u).withSave (s.saveOf u) else s.set R.BIST_STATUS.UNIT u

/-- The unit's contents are destroyed, where it holds any. -/
def State.unitDestroyed (s : State) (u : Nat) : State := if u < 96 ∨ 201 ≤ u then s else s.destroy u

/-- The links of a unit of port lanes are down. -/
def State.lanesDown (s : State) (u : Nat) : State :=
  if 201 ≤ u ∧ u < 225 then (List.range 4).foldl (fun (t : State) i => t.linkFalls (4 * (u - 201) + i)) s else s

theorem State.beginUnit_eq (s : State) (u : Nat) : s.beginUnit u = ((s.unitSavedFirst u).unitDestroyed u).lanesDown u := rfl

/-! What destroying a unit leaves. -/

section
variable (s : State) (u : Nat)

theorem State.unitDestroyed_word (k : Nat) : (s.unitDestroyed u).word k = s.word k := by
  unfold State.unitDestroyed
  split <;> rfl

theorem State.unitDestroyed_bist : (s.unitDestroyed u).bist = s.bist := by
  unfold State.unitDestroyed
  split <;> rfl

theorem State.unitDestroyed_lines {k : Nat} (hk : ¬ ((lineRun u).1 ≤ k ∧ k < (lineRun u).1 + (lineRun u).2)) :
    SMap.find (fun _ => 0) (s.unitDestroyed u).tbl.lines k = SMap.find (fun _ => 0) s.tbl.lines k := by
  unfold State.unitDestroyed
  split
  · rfl
  · exact find_replaceRun_outside hk openRun_inside

theorem State.unitDestroyed_store {k : Nat} (hk : ¬ ((wordRun u).1 ≤ k ∧ k < (wordRun u).1 + (wordRun u).2)) :
    SMap.find (fun _ => 0) (s.unitDestroyed u).code.store k = SMap.find (fun _ => 0) s.code.store k := by
  unfold State.unitDestroyed
  split
  · rfl
  · exact find_replaceRun_outside hk openRun_inside

theorem State.unitDestroyed_hbm {k : Nat} (hk : ¬ ((stackRun u).1 ≤ k ∧ k < (stackRun u).1 + (stackRun u).2)) :
    SMap.find (fun _ => 0) (s.unitDestroyed u).mem.hbm k = SMap.find (fun _ => 0) s.mem.hbm k := by
  unfold State.unitDestroyed
  split
  · rfl
  · exact find_replaceRun_outside hk openRun_inside

/-! UNIT and the save. -/

theorem State.unitSavedFirst_regs : (s.unitSavedFirst u).regs = (s.set R.BIST_STATUS.UNIT u).regs := by
  unfold State.unitSavedFirst
  split <;> rfl

theorem State.unitSavedFirst_memories : (s.unitSavedFirst u).tbl = s.tbl ∧ (s.unitSavedFirst u).code = s.code ∧ (s.unitSavedFirst u).mem = s.mem := by
  unfold State.unitSavedFirst
  split <;> exact ⟨rfl, rfl, rfl⟩

theorem State.unitSavedFirst_running : (s.unitSavedFirst u).bist.running = s.bist.running ∧ (s.unitSavedFirst u).bist.toStart = s.bist.toStart := by
  unfold State.unitSavedFirst
  split <;> exact ⟨rfl, rfl⟩

theorem State.unitSavedFirst_saves (h : s.mode = .serve) : (s.unitSavedFirst u).bist.saves = s.saveOf u :: s.bist.saves := by
  simp [State.unitSavedFirst, State.withSave, h, State.set, State.setWord]

end

/-! ### Links that go down -/

/-- `t` is `s` but for what the fall of links may change: their state registers, what waits at their MACs, and what the faults raised touch. -/
structure FallsTo (s t : State) : Prop where
  bist : t.bist = s.bist
  tbl : t.tbl = s.tbl
  code : t.code = s.code
  mem : t.mem = s.mem
  words : ∀ k, ¬ raiseReg k → ¬ (0x2000000 ≤ k ∧ k < 0x2180000) → t.word k = s.word k
  latch : ∀ n, n < 256 → s.bit (faultBit n) = true → t.bit (faultBit n) = true
  down : ∀ m, m < 96 → s.linkUp m = false → t.linkUp m = false

theorem FallsTo.refl (s : State) : FallsTo s s := ⟨rfl, rfl, rfl, rfl, fun _ _ _ => rfl, fun _ _ h => h, fun _ _ h => h⟩

theorem FallsTo.trans {s t u : State} (h : FallsTo s t) (g : FallsTo t u) : FallsTo s u :=
  ⟨g.bist.trans h.bist, g.tbl.trans h.tbl, g.code.trans h.code, g.mem.trans h.mem, fun k hr hm => (g.words k hr hm).trans (h.words k hr hm),
    fun n hn hb => g.latch n hn (h.latch n hn hb), fun m hm hd => g.down m hm (h.down m hm hd)⟩

theorem Raises.fallsTo {s t : State} (h : Raises s t) : FallsTo s t := by
  refine ⟨by rw [h.eq], by rw [h.eq], by rw [h.eq], by rw [h.eq], fun k hr _ => h.regs k hr, h.latch, fun m hm hd => ?_⟩
  rw [State.linkUp, State.bit, h.get (by simp only [R.MAC_STATUS.LINK, raiseReg]; omega)]
  exact hd

/-- The registers of the link say that it is down, and how often it has fallen. -/
def State.linkLow (s : State) (n : Nat) : State := (s.setBit (R.MAC_STATUS.LINK n) false).sat (R.MAC_STATUS.DOWNS n) 1

/-- What a port drops as its link falls at a time: its control frames, and the frames still arriving. -/
def State.linkCut (s : State) (n fell : Nat) : State :=
  { s with
    mac := { s.mac with fellNs := s.mac.fellNs.put (fun _ => 0) n fell, control := s.mac.control.put (fun _ => []) n [] }
    buf := { s.buf with rx := s.buf.rx.map fun (f : RxFrame) => if f.pkt.src = n ∧ f.cut = true ∧ f.bad = none then { f with bad := some 2 } else f } }

theorem State.linkFalls_of_up {s : State} {n : Nat} (h : s.linkUp n = true) :
    s.linkFalls n = ((s.linkLow n).linkCut n (s.ns + 1)).raise (128 + n) n := by
  unfold State.linkFalls State.linkLow
  rw [if_neg (by simp [h])]
  generalize (s.setBit (R.MAC_STATUS.LINK n) false).sat (R.MAC_STATUS.DOWNS n) 1 = low
  rfl

theorem FallsTo.of_linkCut (s : State) (n fell : Nat) : FallsTo s (s.linkCut n fell) :=
  ⟨rfl, rfl, rfl, rfl, fun _ _ _ => rfl, fun _ _ h => h, fun _ _ h => h⟩

theorem State.linkLow_linkUp (s : State) (n : Nat) : (s.linkLow n).linkUp n = false := by
  unfold State.linkUp State.linkLow
  rw [State.bit, State.sat, State.get_set_apart (.inr ⟨by simp [R.MAC_STATUS.LINK], by simp [R.MAC_STATUS.LINK, R.MAC_STATUS.DOWNS]⟩)]
  exact State.bit_setBit_same s (R.MAC_STATUS.LINK n) false rfl (by simp only [R.MAC_STATUS.LINK]; omega)

section
variable (s : State) {n : Nat} (hn : n < 96)
include hn

theorem FallsTo.of_linkLow : FallsTo s (s.linkLow n) := by
  have hword : ∀ k, k ≠ 0x2000008 + 0x4000 * n → (s.linkLow n).word k = s.word k := fun k hk =>
    (State.word_set_other (l := R.MAC_STATUS.DOWNS n) _ hk).trans (State.word_set_other (l := R.MAC_STATUS.LINK n) _ hk)
  refine ⟨rfl, rfl, rfl, rfl, fun k _ hm => hword k (by omega), fun m hm hb => ?_, fun m hm hd => ?_⟩
  · rw [State.bit, State.get_of_word (hword _ (by simp only [faultBit]; omega))]
    exact hb
  · by_cases hmn : m = n
    · exact hmn ▸ s.linkLow_linkUp n
    · rw [State.linkUp, State.bit, State.get_of_word (hword _ (by simp only [R.MAC_STATUS.LINK]; omega))]
      exact hd

/-- A link that falls is down, and nothing else of the device changes but what a fault touches. -/
theorem State.linkFalls_falls : FallsTo s (s.linkFalls n) ∧ (s.linkFalls n).linkUp n = false := by
  by_cases hup : s.linkUp n = true
  · have hcut := FallsTo.of_linkCut (s.linkLow n) n (s.ns + 1)
    have hraise := (raises ((s.linkLow n).linkCut n (s.ns + 1)) (128 + n) n none false).fallsTo
    rw [State.linkFalls_of_up hup]
    exact ⟨((FallsTo.of_linkLow s hn).trans hcut).trans hraise, hraise.down n hn (hcut.down n hn (s.linkLow_linkUp n))⟩
  · have hdown : s.linkUp n = false := by simpa using hup
    have hsame : s.linkFalls n = s := by simp [State.linkFalls, hdown]
    rw [hsame]
    exact ⟨.refl s, hdown⟩

end

/-- Links that fall one after another. -/
theorem FallsTo.of_foldl {f : Nat → Nat} : ∀ (l : List Nat) (s : State), (∀ i ∈ l, f i < 96) →
    FallsTo s (l.foldl (fun (t : State) i => t.linkFalls (f i)) s) ∧
      ∀ i ∈ l, (l.foldl (fun (t : State) i => t.linkFalls (f i)) s).linkUp (f i) = false
  | [], s, _ => ⟨.refl s, nofun⟩
  | i :: l, s, h => by
    obtain ⟨hfirst, hdown⟩ := s.linkFalls_falls (h i (List.mem_cons_self ..))
    obtain ⟨hrest, hall⟩ := FallsTo.of_foldl l (s.linkFalls (f i)) fun j hj => h j (List.mem_cons_of_mem _ hj)
    refine ⟨hfirst.trans hrest, fun j hj => ?_⟩
    rcases List.mem_cons.mp hj with rfl | hj
    · exact hrest.down _ (h _ (List.mem_cons_self ..)) hdown
    · exact hall j hj

theorem State.lanesDown_falls (s : State) (u : Nat) : FallsTo s (s.lanesDown u) ∧
    (201 ≤ u → u < 225 → ∀ i, i < 4 → (s.lanesDown u).linkUp (4 * (u - 201) + i) = false) := by
  unfold State.lanesDown
  split
  case isTrue h =>
    obtain ⟨hfalls, hdown⟩ := FallsTo.of_foldl (f := fun i => 4 * (u - 201) + i) (List.range 4) s fun i hi => by
      have := List.mem_range.mp hi
      omega
    exact ⟨hfalls, fun _ _ i hi => hdown i (List.mem_range.mpr hi)⟩
  case isFalse h => exact ⟨.refl s, fun hlo hhi => absurd ⟨hlo, hhi⟩ h⟩

theorem State.lanesDown_none (s : State) {u : Nat} (h : u < 201 ∨ 225 ≤ u) : s.lanesDown u = s := if_neg (by omega)

/-! ### The next unit of a group (R539) -/

/-- The groups that run, and since when. -/
def State.withGroups (s : State) (running : List (Nat × List Nat)) (since : List (Nat × Nat)) : State :=
  { s with bist := { s.bist with running := running, since := since } }

/-- The groups that run, where one has just ended. -/
def State.withoutGroup (s : State) (running : List (Nat × List Nat)) (since : List (Nat × Nat)) : State :=
  { s with bist := { s.bist with running := running, since := since, endNs := s.ns } }

section
variable (s : State) (g : Nat)

theorem State.setGroup_nil : s.setGroup g [] = s.withoutGroup (s.bist.running.filter fun x => x.1 != g) (s.bist.since.filter fun x => x.1 != g) := rfl

theorem State.setGroup_cons (u : Nat) (us : List Nat) : s.setGroup g (u :: us) =
    (s.withGroups ((s.bist.running.filter fun x => x.1 != g) ++ [(g, u :: us)]) ((s.bist.since.filter fun x => x.1 != g) ++ [(g, s.ns)])).beginUnit u :=
  rfl

end

/-- As the test of a unit begins, the registers outside UNIT and the links stay, and so do the latches. -/
theorem State.beginUnit_regs (s : State) (u : Nat) :
    (∀ l : Loc, ¬ raiseReg l.off → ¬ (0x2000000 ≤ l.off ∧ l.off < 0x2180000) →
      (l.off ≠ R.BIST_STATUS.UNIT.off ∨ (l.lo + l.w ≤ 64 ∧ (32 ≤ l.lo ∨ l.lo + l.w ≤ 16))) → (s.beginUnit u).get l = s.get l) ∧
    (s.beginUnit u).get R.BIST_STATUS.UNIT = u % 65536 ∧
    (∀ n, n < 256 → s.bit (faultBit n) = true → (s.beginUnit u).bit (faultBit n) = true) ∧
    (201 ≤ u → u < 225 → ∀ i, i < 4 → (s.beginUnit u).linkUp (4 * (u - 201) + i) = false) := by
  obtain ⟨hfalls, hdown⟩ := ((s.unitSavedFirst u).unitDestroyed u).lanesDown_falls u
  have hword : ∀ k, ((s.unitSavedFirst u).unitDestroyed u).word k = (s.set R.BIST_STATUS.UNIT u).word k := fun k =>
    (State.unitDestroyed_word ..).trans (State.word_of_regs (s.unitSavedFirst_regs u) k)
  have hget : ∀ l : Loc, ¬ raiseReg l.off → ¬ (0x2000000 ≤ l.off ∧ l.off < 0x2180000) →
      (s.beginUnit u).get l = (s.set R.BIST_STATUS.UNIT u).get l := fun l hr hm =>
    (State.get_of_word (hfalls.words _ hr hm)).trans (State.get_of_word (hword _))
  refine ⟨fun l hr hm hl => ?_, ?_, fun n hn hb => hfalls.latch n hn ?_, hdown⟩
  · exact (hget l hr hm).trans (State.get_set_apart (hl.imp id fun ⟨h64, h⟩ => ⟨h64, by simp only [R.BIST_STATUS.UNIT]; omega⟩))
  · rw [hget _ (by decide) (by decide), State.get_set_same _ _ _ (by decide)]
    rfl
  · rw [State.bit, State.get_of_word (hword _), State.get_set_of_off (by simp only [faultBit, R.BIST_STATUS.UNIT]; omega)]
    exact hb

/-- As the test of a unit begins, the groups stay, SERVE has one more save, and of the memories only what the unit holds changes. -/
theorem State.beginUnit_contents (s : State) (u : Nat) :
    (s.beginUnit u).bist.running = s.bist.running ∧ (s.beginUnit u).bist.toStart = s.bist.toStart ∧
    (s.mode = .serve → (s.beginUnit u).bist.saves = s.saveOf u :: s.bist.saves) ∧
    (∀ k, ¬ ((lineRun u).1 ≤ k ∧ k < (lineRun u).1 + (lineRun u).2) →
      SMap.find (fun _ => 0) (s.beginUnit u).tbl.lines k = SMap.find (fun _ => 0) s.tbl.lines k) ∧
    (∀ k, ¬ ((wordRun u).1 ≤ k ∧ k < (wordRun u).1 + (wordRun u).2) →
      SMap.find (fun _ => 0) (s.beginUnit u).code.store k = SMap.find (fun _ => 0) s.code.store k) ∧
    (∀ k, ¬ ((stackRun u).1 ≤ k ∧ k < (stackRun u).1 + (stackRun u).2) →
      SMap.find (fun _ => 0) (s.beginUnit u).mem.hbm k = SMap.find (fun _ => 0) s.mem.hbm k) := by
  have hfalls := (((s.unitSavedFirst u).unitDestroyed u).lanesDown_falls u).1
  have hbist : (s.beginUnit u).bist = (s.unitSavedFirst u).bist := hfalls.bist.trans (State.unitDestroyed_bist ..)
  obtain ⟨hrunning, hstart⟩ := s.unitSavedFirst_running u
  obtain ⟨htbl, hcode, hmem⟩ := s.unitSavedFirst_memories u
  refine ⟨by rw [hbist, hrunning], by rw [hbist, hstart], fun h => by rw [hbist, s.unitSavedFirst_saves u h], fun k hk => ?_, fun k hk => ?_,
    fun k hk => ?_⟩
  · rw [s.beginUnit_eq, hfalls.tbl, State.unitDestroyed_lines _ _ hk, htbl]
  · rw [s.beginUnit_eq, hfalls.code, State.unitDestroyed_store _ _ hk, hcode]
  · rw [s.beginUnit_eq, hfalls.mem, State.unitDestroyed_hbm _ _ hk, hmem]

/-- A unit of logic or of irises holds nothing and has no port: UNIT and the save are all that its test begins with. -/
theorem State.beginUnit_plain (s : State) {u : Nat} (h : u < 96 ∨ 225 ≤ u) : s.beginUnit u = s.unitSavedFirst u := by
  have hnone : (s.unitSavedFirst u).unitDestroyed u = s.unitSavedFirst u := if_pos (by omega)
  rw [s.beginUnit_eq, hnone, State.lanesDown_none _ (by omega)]

/-! ### A group starts (R539) -/

/-- The groups still to start. -/
def State.withToStart (s : State) (l : List Nat) : State := { s with bist := { s.bist with toStart := l } }

section
variable {s : State} {g : Nat}

theorem State.bistGroupStart_starts {p : Nat} (hg : g < 8) (hc : s.coreUp = true) (hp : s.bist.plan = some p)
    (hs : s.bist.toStart.contains g = true) (ht : s.bist.startNs + 250000 * g ≤ s.ns) :
    exec (.bistGroupStart g) s =
      .next ((s.withToStart (s.bist.toStart.filter fun x => x != g)).setGroup g (groupUnits s.bist.section_ p g)).settle := by
  refine complete_of_eq (by simp [Instr.wf, hg]) ?_
  rw [hp]
  dsimp only
  rw [if_pos (by simp [hc, List.contains_iff_mem.mp hs, ht])]
  rfl

theorem State.bistGroupStart_waits (hg : g < 8)
    (h : s.bist.plan = none ∨ s.bist.toStart.contains g = false ∨ s.ns < s.bist.startNs + 250000 * g) :
    exec (.bistGroupStart g) s = .next s.settle := by
  refine complete_of_eq (by simp [Instr.wf, hg]) ?_
  cases hp : s.bist.plan with
  | none => rfl
  | some p =>
    refine if_neg fun hgo => ?_
    simp only [Bool.and_eq_true, decide_eq_true_eq] at hgo
    obtain ⟨⟨-, hin⟩, hdue⟩ := hgo
    rcases h with h | h | h
    · simp [hp] at h
    · exact absurd hin (by simp only [h]; simp)
    · omega

end

/-! What a group shows as its next unit begins, or as it ends. -/

section
variable (s : State) (g : Nat) (us : List Nat)

theorem State.setGroup_running :
    (s.setGroup g us).bist.running = (s.bist.running.filter fun x => x.1 != g) ++ (if us.isEmpty then [] else [(g, us)]) := by
  cases us with
  | nil => exact (List.append_nil _).symm
  | cons u us => exact ((State.beginUnit_contents _ u).1 :)

theorem State.setGroup_toStart : (s.setGroup g us).bist.toStart = s.bist.toStart := by
  cases us with
  | nil => rfl
  | cons u us => exact ((State.beginUnit_contents _ u).2.1 :)

end

theorem State.saveOf_withGroups (s : State) (a : List (Nat × List Nat)) (b : List (Nat × Nat)) (u : Nat) :
    (s.withGroups a b).saveOf u = s.saveOf u := rfl

theorem State.saveOf_withToStart (s : State) (l : List Nat) (u : Nat) : (s.withToStart l).saveOf u = s.saveOf u := rfl

/-- A step that changes the self-test's own state and UNIT alone. -/
theorem State.kept_selfTest {s x : State} (hs : ({ x with bist := s.bist } : State).still = s.still) (ho : x.out = s.out)
    (hw : ∀ k, ¬ k = R.BIST_STATUS.UNIT.off → x.word k = s.word k) :
    s.kept { x.settle with bist := s.bist } [] fun k => k = R.BIST_STATUS.UNIT.off :=
  State.kept_of_masked (g := fun y => { y with bist := s.bist }) (fun _ => rfl) (fun _ => rfl) (fun _ => rfl) rfl hs ho hw

theorem State.unitSavedFirst_still (s : State) (u : Nat) (b : BistState) :
    ({ s.unitSavedFirst u with bist := b } : State).still = ({ s with bist := b } : State).still := by
  unfold State.unitSavedFirst
  split <;> rfl

theorem State.unitSavedFirst_out (s : State) (u : Nat) : (s.unitSavedFirst u).out = s.out := by
  unfold State.unitSavedFirst
  split <;> rfl

/-- The registers but UNIT are as before where the units of port lanes are none of the group. -/
theorem State.setGroup_kept {s : State} {g : Nat} {us l : List Nat} (h : ∀ u ∈ us.head?, u < 96 ∨ 225 ≤ u) :
    s.kept { ((s.withToStart l).setGroup g us).settle with bist := s.bist } [] fun k => k = R.BIST_STATUS.UNIT.off := by
  cases us with
  | nil => exact State.kept_selfTest rfl rfl fun _ _ => rfl
  | cons u us =>
    rw [State.setGroup_cons, State.beginUnit_plain _ (h u rfl)]
    refine State.kept_selfTest (State.unitSavedFirst_still ..) (State.unitSavedFirst_out ..) fun k hk => ?_
    exact (State.word_of_regs (State.unitSavedFirst_regs ..) k).trans (State.word_set_other (l := R.BIST_STATUS.UNIT) _ hk)

/-- The registers of the results of a self-test are neither those that a fault touches, nor those of a MAC, nor UNIT. -/
abbrev selfTestField (l : Loc) : Prop :=
  ¬ raiseReg l.off ∧ ¬ (0x2000000 ≤ l.off ∧ l.off < 0x2180000) ∧
    (l.off ≠ R.BIST_STATUS.UNIT.off ∨ (l.lo + l.w ≤ 64 ∧ (32 ≤ l.lo ∨ l.lo + l.w ≤ 16)))

theorem State.setGroup_get (s : State) (g : Nat) (us : List Nat) {l : Loc} (h : selfTestField l) : (s.setGroup g us).get l = s.get l := by
  obtain ⟨hraise, hmac, hunit⟩ := h
  cases us with
  | nil => rfl
  | cons u us => exact ((State.beginUnit_regs _ u).1 l hraise hmac hunit :)

theorem State.setGroup_latch (s : State) (g : Nat) (us : List Nat) {n : Nat} (hn : n < 256) (h : s.bit (faultBit n) = true) :
    (s.setGroup g us).bit (faultBit n) = true := by
  cases us with
  | nil => exact h
  | cons u us => exact (State.beginUnit_regs _ u).2.2.1 n hn h

/-- A group that is due starts with the first of its units. -/
theorem bistGroupStart_spec {s : State} {g p : Nat} {us : List Nat} (hg : g < 8) (hc : s.coreUp = true) (hp : s.bist.plan = some p)
    (hs : s.bist.toStart.contains g = true) (ht : s.bist.startNs + 250000 * g ≤ s.ns) (hus : groupUnits s.bist.section_ p g = us) :
    ∃ t, exec (.bistGroupStart g) s = .next t ∧ t.bist.toStart = s.bist.toStart.filter (fun x => x != g) ∧
      t.bist.running = (s.bist.running.filter fun x => x.1 != g) ++ (if us.isEmpty then [] else [(g, us)]) ∧
      (∀ u ∈ us.head?, t.get R.BIST_STATUS.UNIT = u % 65536 ∧
        (201 ≤ u → u < 225 → ∀ i, i < 4 → t.linkUp (4 * (u - 201) + i) = false) ∧
        (s.mode = .serve → t.bist.saves = s.saveOf u :: s.bist.saves) ∧
        (∀ k, ¬ ((lineRun u).1 ≤ k ∧ k < (lineRun u).1 + (lineRun u).2) →
          SMap.find (fun _ => 0) t.tbl.lines k = SMap.find (fun _ => 0) s.tbl.lines k) ∧
        (∀ k, ¬ ((wordRun u).1 ≤ k ∧ k < (wordRun u).1 + (wordRun u).2) →
          SMap.find (fun _ => 0) t.code.store k = SMap.find (fun _ => 0) s.code.store k) ∧
        (∀ k, ¬ ((stackRun u).1 ≤ k ∧ k < (stackRun u).1 + (stackRun u).2) →
          SMap.find (fun _ => 0) t.mem.hbm k = SMap.find (fun _ => 0) s.mem.hbm k)) ∧
      ((∀ u ∈ us.head?, u < 96 ∨ 225 ≤ u) → s.kept { t with bist := s.bist } [] fun k => k = R.BIST_STATUS.UNIT.off) := by
  have hexec := State.bistGroupStart_starts hg hc hp hs ht
  rw [hus] at hexec
  refine ⟨_, hexec, ?_, ?_, fun u hu => ?_, State.setGroup_kept⟩
  · rw [State.settle_bist, State.setGroup_toStart]
    rfl
  · rw [State.settle_bist, State.setGroup_running]
    rfl
  · cases us with
    | nil => simp at hu
    | cons v us =>
      obtain rfl : v = u := by simpa using hu
      rw [State.setGroup_cons]
      generalize hx : (s.withToStart _).withGroups _ _ = x
      obtain ⟨-, hunit, -, hdown⟩ := x.beginUnit_regs v
      obtain ⟨-, -, hsaves, hlines, hstore, hhbm⟩ := x.beginUnit_contents v
      refine ⟨?_, fun hlo hhi i hi => ?_, fun hm => ?_, fun k hk => ?_, fun k hk => ?_, fun k hk => ?_⟩
      · rw [State.settle_get _ (by decide), hunit]
      · rw [State.linkUp, State.settle_bit _ (by simp only [R.MAC_STATUS.LINK, followReg]; omega)]
        exact hdown hlo hhi i hi
      · rw [State.settle_bist, hsaves (by rw [← hx]; exact hm), ← hx, State.saveOf_withGroups, State.saveOf_withToStart]
        rfl
      · rw [State.settle_tbl, hlines k hk, ← hx]
        rfl
      · rw [State.settle_code, hstore k hk, ← hx]
        rfl
      · rw [State.settle_mem, hhbm k hk, ← hx]
        rfl

/-! ### The end of a unit's test (R541, R544, R545) -/

/-- The result, the run and the signature of a unit. -/
def State.unitRecorded (s : State) (u result sig : Nat) : State :=
  ((s.set (R.BIST_RESULT.RESULT u) result).sat (R.BIST_RESULT.RUNS u) 1).set (R.BIST_SIG.SIG u) sig

/-- What SERVE puts back of a unit. -/
def State.unitBack (s : State) (u : Nat) (restored : Bool) : State := if s.mode == .serve then s.restoreUnit u restored else s

/-- A signature that is wrong is counted and raised, and so are contents that did not come back. -/
def State.unitJudged (s : State) (u : Nat) (pass : Bool) : State := if pass then s else (s.sat R.BIST_STATUS.FAILS 1).raise 36 u
def State.unitWhole (s : State) (u : Nat) (lost : Bool) : State := if lost then s.raise 37 u else s

/-- What is left of a unit's test before the group's next unit. -/
def State.unitEnded (s : State) (u sig : Nat) (restored : Bool) : State :=
  (((s.unitRecorded u (if sig == unitSig s.bist.section_ u then 1 else 2) sig).unitBack u restored).unitJudged u
    (sig == unitSig s.bist.section_ u)).unitWhole u (s.mode == .serve && unitSaved u && !restored)

theorem State.unitDone_over {s : State} {g u sig : Nat} {us : List Nat} {restored : Bool}
    (hr : (s.bist.running.find? fun x => x.1 == g) = some (g, u :: us)) (ho : s.unitOver g u = true) :
    s.unitDone g sig restored = (s.unitEnded u sig restored).setGroup g us := by
  unfold State.unitDone
  rw [hr]
  dsimp only
  rw [if_neg (by simp [ho])]
  rfl

theorem State.unitDone_early {s : State} {g u sig : Nat} {us : List Nat} {restored : Bool}
    (hr : (s.bist.running.find? fun x => x.1 == g) = some (g, u :: us)) (ho : s.unitOver g u = false) : s.unitDone g sig restored = s := by
  unfold State.unitDone
  rw [hr]
  exact if_pos (by simp [ho])

section
variable (s : State) {u : Nat}

theorem State.unitRecorded_get (hu : u < 277) (result : Nat) {sig : Nat} (hsig : sig < 2 ^ 64) :
    (s.unitRecorded u result sig).get (R.BIST_RESULT.RESULT u) = result % 4 ∧
    (s.unitRecorded u result sig).get (R.BIST_RESULT.RUNS u) = min (s.get (R.BIST_RESULT.RUNS u) + 1) 255 ∧
    (s.unitRecorded u result sig).get (R.BIST_SIG.SIG u) = sig ∧
    (s.unitRecorded u result sig).get R.BIST_STATUS.FAILS = s.get R.BIST_STATUS.FAILS := by
  have hresult : (R.BIST_RESULT.RESULT u).off ≠ (R.BIST_SIG.SIG u).off := by simp only [R.BIST_RESULT.RESULT, R.BIST_SIG.SIG]; omega
  have hruns : (R.BIST_RESULT.RUNS u).off ≠ (R.BIST_SIG.SIG u).off := hresult
  have hapart : ∀ a : Nat, 0x2A01000 ≤ a → R.BIST_STATUS.FAILS.off ≠ a := by simp only [R.BIST_STATUS.FAILS]; omega
  unfold State.unitRecorded
  refine ⟨?_, ?_, ?_, ?_⟩
  · rw [State.get_set_of_off hresult, State.sat, State.get_set_apart (.inr ⟨by simp [R.BIST_RESULT.RESULT], by simp [R.BIST_RESULT.RESULT, R.BIST_RESULT.RUNS]⟩),
      State.get_set_same _ _ _ (by simp [R.BIST_RESULT.RESULT])]
    rfl
  · rw [State.get_set_of_off hruns, State.get_sat_same _ _ _ (by simp [R.BIST_RESULT.RUNS]),
      State.get_set_apart (.inr ⟨by simp [R.BIST_RESULT.RUNS], by simp [R.BIST_RESULT.RESULT, R.BIST_RESULT.RUNS]⟩)]
    rfl
  · rw [State.get_set_same _ _ _ (by simp [R.BIST_SIG.SIG])]
    exact Nat.mod_eq_of_lt hsig
  · rw [State.get_set_of_off (hapart _ (by simp only [R.BIST_SIG.SIG]; omega)), State.sat,
      State.get_set_of_off (hapart _ (by simp only [R.BIST_RESULT.RUNS]; omega)),
      State.get_set_of_off (hapart _ (by simp only [R.BIST_RESULT.RESULT]; omega))]

end

/-! ### What SERVE puts back (R537, R544) -/

/-- What putting a save back leaves alone. -/
def State.unsaved (s : State) : SMap Word × Mode × PowerState × FaultState × BistState × LensState := (s.regs, s.mode, s.power, s.fault, s.bist, s.lens)

/-- The lens array of the unit from its shadow, and no save of the unit left. -/
def State.fromShadow (s : State) (u : Nat) : State :=
  { s with
    lens := { s.lens with rows := replaceRun (rowRun u) (ofRun (rowRun u) s.lens.shadows) s.lens.rows }
    bist := { s.bist with saves := s.bist.saves.filter fun v => v.unit != u } }

section
variable (s : State) (u : Nat) (restored : Bool)

theorem State.unsaved_restoreUnit : (s.restoreUnit u restored).unsaved = (s.fromShadow u).unsaved := by
  unfold State.restoreUnit
  refine ite_keeps ?_ rfl
  exact foldl_keeps (g := State.unsaved) (f := State.putSave) (fun _ _ => rfl) _ _

theorem State.unitBack_word (k : Nat) : (s.unitBack u restored).word k = s.word k :=
  State.word_of_regs (ite_keeps (congrArg (fun x => x.1) (s.unsaved_restoreUnit u restored)) rfl) k

theorem State.unitBack_coreUp : (s.unitBack u restored).coreUp = s.coreUp := by
  have hmode : (s.unitBack u restored).mode = s.mode := ite_keeps (congrArg (fun x => x.2.1) (s.unsaved_restoreUnit u restored)) rfl
  have hpower : (s.unitBack u restored).power = s.power := ite_keeps (congrArg (fun x => x.2.2.1) (s.unsaved_restoreUnit u restored)) rfl
  rw [State.coreUp, hmode, hpower, State.coreUp]

theorem State.unitBack_running : (s.unitBack u restored).bist.running = s.bist.running :=
  ite_keeps (g := fun t : State => t.bist.running) (congrArg (fun x => x.2.2.2.2.1.running) (s.unsaved_restoreUnit u restored) :) rfl

theorem State.unitBack_serve (h : s.mode = .serve) : s.unitBack u restored = s.restoreUnit u restored := if_pos (by simp [h])

theorem State.restoreUnit_rows :
    (s.restoreUnit u restored).lens.rows = replaceRun (rowRun u) (ofRun (rowRun u) s.lens.shadows) s.lens.rows :=
  congrArg (fun x => x.2.2.2.2.2.rows) (s.unsaved_restoreUnit u restored)

theorem State.restoreUnit_saves : (s.restoreUnit u restored).bist.saves = s.bist.saves.filter fun v => v.unit != u :=
  congrArg (fun x => x.2.2.2.2.1.saves) (s.unsaved_restoreUnit u restored)

/-- The one save of a unit comes back whole, or not at all. -/
theorem State.restoreUnit_contents {v : UnitSave} (hv : s.bist.saves = [v]) (hu : v.unit = u) :
    s.restoreUnit u restored = if restored then (s.fromShadow u).putSave v else s.fromShadow u := by
  unfold State.restoreUnit
  simp only [hv, hu, List.filter_cons, beq_self_eq_true, if_true, List.filter_nil, List.foldl_cons, List.foldl_nil]
  cases restored
  · simp [State.fromShadow, hv, hu]
  · simp [State.fromShadow, hv, hu]

end

/-! ### A unit's faults (R541, R544) -/

section
variable (s : State) (u : Nat) (pass lost : Bool)

/-- What the faults that a unit raises leave alone. -/
theorem State.unitFaults_raise : Raises (if pass then s else s.sat R.BIST_STATUS.FAILS 1) ((s.unitJudged u pass).unitWhole u lost) := by
  have hjudged : Raises (if pass then s else s.sat R.BIST_STATUS.FAILS 1) (s.unitJudged u pass) := by
    cases pass
    · exact raises (s.sat R.BIST_STATUS.FAILS 1) 36 u none false
    · exact .refl s
  refine hjudged.trans ?_
  cases lost
  · exact .refl _
  · exact raises _ 37 u none false

theorem State.unitFaults_get {l : Loc} (h : ¬ raiseReg l.off) (hl : l.off ≠ R.BIST_STATUS.FAILS.off) :
    ((s.unitJudged u pass).unitWhole u lost).get l = s.get l := by
  rw [(s.unitFaults_raise u pass lost).get h]
  exact ite_keeps (g := fun t : State => t.get l) rfl (State.get_set_of_off hl)

theorem State.unitFaults_fails : ((s.unitJudged u pass).unitWhole u lost).get R.BIST_STATUS.FAILS =
    if pass then s.get R.BIST_STATUS.FAILS else min (s.get R.BIST_STATUS.FAILS + 1) 65535 := by
  rw [(s.unitFaults_raise u pass lost).get (by decide)]
  cases pass
  · exact State.get_sat_same _ _ _ (by decide)
  · rfl

theorem State.unitFaults_mismatch (hc : s.coreUp = true) : ((s.unitJudged u false).unitWhole u lost).bit (faultBit 36) = true := by
  have hraised : (s.unitJudged u false).bit (faultBit 36) = true := State.raise_latches _ 36 u (by decide) hc
  cases lost
  · exact hraised
  · exact (raises _ 37 u none false).latch 36 (by omega) hraised

theorem State.unitFaults_lost (hc : s.coreUp = true) : ((s.unitJudged u pass).unitWhole u true).bit (faultBit 37) = true := by
  have hjudged : (s.unitJudged u pass).coreUp = true := by
    cases pass
    · exact ((raises (s.sat R.BIST_STATUS.FAILS 1) 36 u none false).coreUp).trans hc
    · exact hc
  exact State.raise_latches _ 37 u (by decide) hjudged

theorem State.unitFaults_contents : ((s.unitJudged u pass).unitWhole u lost).bist = s.bist ∧
    ((s.unitJudged u pass).unitWhole u lost).tbl = s.tbl ∧ ((s.unitJudged u pass).unitWhole u lost).code = s.code ∧
    ((s.unitJudged u pass).unitWhole u lost).lens = s.lens := by
  have h := s.unitFaults_raise u pass lost
  have hsame : (if pass then s else s.sat R.BIST_STATUS.FAILS 1).bist = s.bist ∧ (if pass then s else s.sat R.BIST_STATUS.FAILS 1).tbl = s.tbl ∧
      (if pass then s else s.sat R.BIST_STATUS.FAILS 1).code = s.code ∧ (if pass then s else s.sat R.BIST_STATUS.FAILS 1).lens = s.lens := by
    cases pass <;> exact ⟨rfl, rfl, rfl, rfl⟩
  obtain ⟨hbist, htbl, hcode, hlens⟩ := hsame
  exact ⟨by rw [h.eq]; exact hbist, by rw [h.eq]; exact htbl, by rw [h.eq]; exact hcode, by rw [h.eq]; exact hlens⟩

end

/-! ### A unit that has lasted its time -/

section
variable (s : State) (u sig : Nat) (restored : Bool)

/-- The state with the result recorded and the contents put back, before any fault is raised. -/
def State.unitScored : State :=
  (s.unitRecorded u (if sig == unitSig s.bist.section_ u then 1 else 2) sig).unitBack u restored

theorem State.unitEnded_eq : s.unitEnded u sig restored = ((s.unitScored u sig restored).unitJudged u (sig == unitSig s.bist.section_ u)).unitWhole u
    (s.mode == .serve && unitSaved u && !restored) := rfl

theorem State.unitScored_get (l : Loc) : (s.unitScored u sig restored).get l =
    (s.unitRecorded u (if sig == unitSig s.bist.section_ u then 1 else 2) sig).get l := State.get_of_word (State.unitBack_word ..)

theorem State.unitScored_coreUp : (s.unitScored u sig restored).coreUp = s.coreUp := State.unitBack_coreUp ..

theorem State.unitScored_running : (s.unitScored u sig restored).bist.running = s.bist.running := State.unitBack_running ..

theorem State.unitEnded_get {l : Loc} (h : ¬ raiseReg l.off) (hl : l.off ≠ R.BIST_STATUS.FAILS.off) :
    (s.unitEnded u sig restored).get l = (s.unitRecorded u (if sig == unitSig s.bist.section_ u then 1 else 2) sig).get l := by
  rw [State.unitEnded_eq, State.unitFaults_get _ _ _ _ h hl, State.unitScored_get]

theorem State.unitEnded_contents : (s.unitEnded u sig restored).bist = (s.unitScored u sig restored).bist ∧
    (s.unitEnded u sig restored).tbl = (s.unitScored u sig restored).tbl ∧ (s.unitEnded u sig restored).code = (s.unitScored u sig restored).code ∧
    (s.unitEnded u sig restored).lens = (s.unitScored u sig restored).lens := State.unitFaults_contents ..

variable {u sig} (hu : u < 277) (hsig : sig < 2 ^ 64)
include hu hsig

theorem State.unitEnded_results :
    (s.unitEnded u sig restored).get (R.BIST_RESULT.RESULT u) = (if sig = unitSig s.bist.section_ u then 1 else 2) ∧
    (s.unitEnded u sig restored).get (R.BIST_RESULT.RUNS u) = min (s.get (R.BIST_RESULT.RUNS u) + 1) 255 ∧
    (s.unitEnded u sig restored).get (R.BIST_SIG.SIG u) = sig := by
  obtain ⟨hresult, hruns, hsigned, -⟩ := s.unitRecorded_get hu (if sig == unitSig s.bist.section_ u then 1 else 2) hsig
  refine ⟨?_, ?_, ?_⟩
  · rw [State.unitEnded_get, hresult]
    · by_cases h : sig = unitSig s.bist.section_ u <;> simp [h]
    · simp only [R.BIST_RESULT.RESULT, raiseReg]; omega
    · simp only [R.BIST_RESULT.RESULT, R.BIST_STATUS.FAILS]; omega
  · rw [State.unitEnded_get, hruns]
    · simp only [R.BIST_RESULT.RUNS, raiseReg]; omega
    · simp only [R.BIST_RESULT.RUNS, R.BIST_STATUS.FAILS]; omega
  · rw [State.unitEnded_get, hsigned]
    · simp only [R.BIST_SIG.SIG, raiseReg]; omega
    · simp only [R.BIST_SIG.SIG, R.BIST_STATUS.FAILS]; omega

theorem State.unitEnded_fails : (s.unitEnded u sig restored).get R.BIST_STATUS.FAILS =
    if sig == unitSig s.bist.section_ u then s.get R.BIST_STATUS.FAILS else min (s.get R.BIST_STATUS.FAILS + 1) 65535 := by
  obtain ⟨-, -, -, hfails⟩ := s.unitRecorded_get hu (if sig == unitSig s.bist.section_ u then 1 else 2) hsig
  rw [State.unitEnded_eq, State.unitFaults_fails, State.unitScored_get, hfails]

omit hu hsig in
/-- The faults of a unit whose signature is wrong, and of one whose contents did not come back. -/
theorem State.unitEnded_latches (hc : s.coreUp = true) :
    (sig ≠ unitSig s.bist.section_ u → (s.unitEnded u sig restored).bit (faultBit 36) = true) ∧
    (s.mode = .serve → unitSaved u = true → restored = false → (s.unitEnded u sig restored).bit (faultBit 37) = true) := by
  have hscored : (s.unitScored u sig restored).coreUp = true := (State.unitScored_coreUp ..).trans hc
  refine ⟨fun hne => ?_, fun hm hs hr => ?_⟩
  · rw [State.unitEnded_eq, beq_eq_false_iff_ne.mpr hne]
    exact State.unitFaults_mismatch _ _ _ hscored
  · have hlost : (s.mode == .serve && unitSaved u && !restored) = true := by simp [hm, hs, hr]
    rw [State.unitEnded_eq, hlost]
    exact State.unitFaults_lost _ _ _ hscored

omit hu hsig in
/-- In SERVE a lens array is as its shadow, and the one save of the unit has come back where its contents are whole. -/
theorem State.unitEnded_restored (hm : s.mode = .serve) :
    (s.unitEnded u sig restored).lens.rows = replaceRun (rowRun u) (ofRun (rowRun u) s.lens.shadows) s.lens.rows ∧
    ∀ v, s.bist.saves = [v] → v.unit = u → (s.unitEnded u sig restored).bist.saves = [] ∧
      (restored = true → (s.unitEnded u sig restored).tbl.lines = replaceRun (lineRun u) v.lines s.tbl.lines ∧
        (s.unitEnded u sig restored).code.store = replaceRun (wordRun u) v.words s.code.store) ∧
      (restored = false → (s.unitEnded u sig restored).tbl.lines = s.tbl.lines ∧ (s.unitEnded u sig restored).code.store = s.code.store) := by
  obtain ⟨hbist, htbl, hcode, hlens⟩ := s.unitEnded_contents u sig restored
  have hback : s.unitScored u sig restored = (s.unitRecorded u (if sig == unitSig s.bist.section_ u then 1 else 2) sig).restoreUnit u restored :=
    State.unitBack_serve _ _ _ hm
  have hsaves : (s.unitRecorded u (if sig == unitSig s.bist.section_ u then 1 else 2) sig).bist.saves = s.bist.saves := rfl
  rw [hbist, htbl, hcode, hlens, hback]
  refine ⟨State.restoreUnit_rows .., fun v hv hvu => ⟨?_, fun h => ?_, fun h => ?_⟩⟩
  · rw [State.restoreUnit_saves, hsaves, hv]
    simp [hvu]
  · rw [State.restoreUnit_contents _ _ _ (hsaves.trans hv) hvu, if_pos h, ← hvu]
    exact ⟨rfl, rfl⟩
  · rw [State.restoreUnit_contents _ _ _ (hsaves.trans hv) hvu, if_neg (by simp [h])]
    exact ⟨rfl, rfl⟩

end

/-- The result of a unit that has lasted its time, and the group's next unit. -/
theorem bistUnitComplete_spec {s : State} {g sig u : Nat} {us : List Nat} {restored : Bool} (hg : g < 8) (hsig : sig < 2 ^ 64)
    (hc : s.coreUp = true) (hp : s.bist.plan.isSome = true) (hr : (s.bist.running.find? fun x => x.1 == g) = some (g, u :: us))
    (hu : u < 277) (ho : s.unitOver g u = true) :
    ∃ t, exec (.bistUnitComplete g sig restored) s = .next t ∧
      t.get (R.BIST_RESULT.RESULT u) = (if sig = unitSig s.bist.section_ u then 1 else 2) ∧
      t.get (R.BIST_RESULT.RUNS u) = min (s.get (R.BIST_RESULT.RUNS u) + 1) 255 ∧ t.get (R.BIST_SIG.SIG u) = sig ∧
      t.bist.running = (s.bist.running.filter fun x => x.1 != g) ++ (if us.isEmpty then [] else [(g, us)]) ∧
      (sig ≠ unitSig s.bist.section_ u →
        t.get R.BIST_STATUS.FAILS = min (s.get R.BIST_STATUS.FAILS + 1) 65535 ∧ t.bit (faultBit 36) = true) ∧
      (sig = unitSig s.bist.section_ u → t.get R.BIST_STATUS.FAILS = s.get R.BIST_STATUS.FAILS) ∧
      (s.mode = .serve → unitSaved u = true → restored = false → t.bit (faultBit 37) = true) ∧
      (s.mode = .serve → us = [] → t.lens.rows = replaceRun (rowRun u) (ofRun (rowRun u) s.lens.shadows) s.lens.rows ∧
        ∀ v, s.bist.saves = [v] → v.unit = u → t.bist.saves = [] ∧
          (restored = true → t.tbl.lines = replaceRun (lineRun u) v.lines s.tbl.lines ∧ t.code.store = replaceRun (wordRun u) v.words s.code.store) ∧
          (restored = false → t.tbl.lines = s.tbl.lines ∧ t.code.store = s.code.store)) := by
  have hexec : exec (.bistUnitComplete g sig restored) s = .next ((s.unitEnded u sig restored).setGroup g us).settle := by
    refine complete_of_eq (by simp only [Instr.wf, hg, hsig, decide_true, Bool.and_self]) ?_
    rw [if_pos (by simp [hc, hp]), State.unitDone_over hr ho]
  have hget : ∀ l : Loc, ¬ followReg l.off → selfTestField l →
      ((s.unitEnded u sig restored).setGroup g us).settle.get l = (s.unitEnded u sig restored).get l := fun l hf hl =>
    (State.settle_get _ hf).trans (State.setGroup_get _ _ _ hl)
  have hlatch : ∀ n, n < 256 → (s.unitEnded u sig restored).bit (faultBit n) = true →
      ((s.unitEnded u sig restored).setGroup g us).settle.bit (faultBit n) = true := fun n hn hb =>
    (State.settle_latch _ hn).trans (State.setGroup_latch _ _ _ hn hb)
  obtain ⟨hresult, hruns, hsigned⟩ := s.unitEnded_results restored hu hsig
  obtain ⟨hmismatch, hlost⟩ := s.unitEnded_latches restored (u := u) (sig := sig) hc
  have hfails := (hget R.BIST_STATUS.FAILS (by decide) (by decide)).trans (s.unitEnded_fails restored hu hsig)
  refine ⟨_, hexec, ?_, ?_, ?_, ?_, fun hne => ⟨?_, hlatch 36 (by omega) (hmismatch hne)⟩, fun he => ?_,
    fun hm hs hr => hlatch 37 (by omega) (hlost hm hs hr), fun hm hus => ?_⟩
  · rw [hget _ (by simp only [R.BIST_RESULT.RESULT, followReg]; omega) (by simp only [selfTestField, R.BIST_RESULT.RESULT, raiseReg, R.BIST_STATUS.UNIT]; omega), hresult]
  · rw [hget _ (by simp only [R.BIST_RESULT.RUNS, followReg]; omega) (by simp only [selfTestField, R.BIST_RESULT.RUNS, raiseReg, R.BIST_STATUS.UNIT]; omega), hruns]
  · rw [hget _ (by simp only [R.BIST_SIG.SIG, followReg]; omega) (by simp only [selfTestField, R.BIST_SIG.SIG, raiseReg, R.BIST_STATUS.UNIT]; omega), hsigned]
  · rw [State.settle_bist, State.setGroup_running, (s.unitEnded_contents u sig restored).1, State.unitScored_running]
  · rw [hfails, if_neg (by simpa using hne)]
  · rw [hfails, if_pos (by simpa using he)]
  · subst hus
    rw [State.settle_lens, State.settle_bist, State.settle_tbl, State.settle_code, State.setGroup_nil]
    exact s.unitEnded_restored restored hm

theorem bistUnitComplete_early {s : State} {g sig u : Nat} {us : List Nat} {restored : Bool} (hg : g < 8) (hsig : sig < 2 ^ 64)
    (hr : (s.bist.running.find? fun x => x.1 == g) = some (g, u :: us)) (ho : s.unitOver g u = false) :
    ∃ t, exec (.bistUnitComplete g sig restored) s = .next t ∧ s.kept t [] fun _ => False := by
  refine ⟨_, complete_of_eq (by simp only [Instr.wf, hg, hsig, decide_true, Bool.and_self]) ?_, s.kept_settle⟩
  rw [State.unitDone_early hr ho, ite_self]

/-! ### The end of a plan (R541) -/

/-- No plan runs, and STATE shows how it ended. -/
def State.planShown (s : State) : State :=
  ({ s with bist := { s.bist with plan := none } }.set R.BIST_STATUS.STATE (if s.get R.BIST_STATUS.FAILS = 0 then 5 else 6)).set R.BIST_CTRL.START 0

/-- The memories hold nothing, and the section that has passed is known. -/
def State.planPassed (s : State) (sec : List Byte) : State := { s.emptyMemories with boot := { s.boot with bistDone := some sec } }

theorem State.planEnd_eq (s : State) : s.planEnd =
    if s.mode == .serve then s.planShown
    else if s.get R.BIST_STATUS.FAILS = 0 then (s.planShown.planPassed s.bist.section_).enterLoad else s.planShown.toSafe 1 := rfl

theorem execBistPlanEnd_over {s : State} (hm : (s.loading || s.mode == .serve) = true) (ho : s.planOver = true) :
    exec .bistPlanEnd s = .next s.planEnd.settle := complete_of_eq rfl (if_pos (by rw [hm, ho]; rfl))

/-- In SERVE the end of a plan shows in STATE, and START falls. -/
theorem bistPlanEnd_serve {s : State} (hm : s.mode = .serve) (ho : s.planOver = true) :
    ∃ t, exec .bistPlanEnd s = .next t ∧ t.bist = { s.bist with plan := none } ∧
      t.get R.BIST_STATUS.STATE = (if s.get R.BIST_STATUS.FAILS = 0 then 5 else 6) ∧ t.bit R.BIST_CTRL.START = false ∧
      s.kept { t with bist := s.bist } [] fun k => k = R.BIST_STATUS.STATE.off ∨ k = R.BIST_CTRL.START.off := by
  have hexec := execBistPlanEnd_over (s := s) (by simp [hm]) ho
  rw [State.planEnd_eq, if_pos (by simp [hm])] at hexec
  refine ⟨_, hexec, ?_, ?_, ?_, ?_⟩
  · rw [State.settle_bist]
    rfl
  · rw [State.settle_get _ (by decide), State.planShown, State.get_set_of_off (by decide), State.get_set_same _ _ _ (by decide)]
    split <;> rfl
  · rw [State.settle_bit _ (by decide), State.bit, State.planShown, State.get_set_same _ _ _ (by decide)]
    rfl
  · refine State.kept_of_masked (g := fun y => { y with bist := s.bist }) (fun _ => rfl) (fun _ => rfl) (fun _ => rfl) rfl rfl rfl fun k hk => ?_
    obtain ⟨hstate, hstart⟩ := not_or.mp hk
    exact (State.word_set_other (l := R.BIST_CTRL.START) _ hstart).trans (State.word_set_other (l := R.BIST_STATUS.STATE) _ hstate)

theorem State.enterLoad_memories (s : State) : s.enterLoad.tbl = s.tbl ∧ s.enterLoad.code = s.code ∧ s.enterLoad.lens = s.lens ∧
    s.enterLoad.mem = s.mem ∧ s.enterLoad.bist = s.bist := by
  unfold State.enterLoad
  split <;> exact ⟨rfl, rfl, rfl, rfl, rfl⟩

theorem State.toSafe_ends_plan (s : State) (cause : Nat) : (s.toSafe cause).bist.plan = none ∧ (s.toSafe cause).safeCause = cause := ⟨rfl, rfl⟩

/-- Before SERVE a plan that has passed leads to LOAD, the tested memories empty, and one that has not to SAFE. -/
theorem bistPlanEnd_loading {s : State} (hm : s.mode = .prove ∨ s.mode = .load) (hchip : s.fault.chipReset = false) (ho : s.planOver = true) :
    ∃ t, exec .bistPlanEnd s = .next t ∧ t.bist.plan = none ∧
      (s.get R.BIST_STATUS.FAILS = 0 → t.mode = .load ∧ t.get R.BOOT_STATUS.STEP = 4 ∧ t.boot.bistDone = some s.bist.section_ ∧
        t.tbl.lines = [] ∧ t.code.store = [] ∧ t.lens.rows = [] ∧ t.mem.hbm = []) ∧
      (s.get R.BIST_STATUS.FAILS ≠ 0 → t.mode = .safe ∧ t.prev = s.mode ∧ t.safeCause = 1) := by
  have hload : (s.loading || s.mode == .serve) = true := by
    rcases hm with hm | hm
    · simp [State.loading, hm, hchip]
    · simp [State.loading, hm, hchip]
  have hserve : ¬ (s.mode == .serve) = true := by
    rcases hm with hm | hm
    · simp [hm]
    · simp [hm]
  have hexec := execBistPlanEnd_over hload ho
  rw [State.planEnd_eq, if_neg hserve] at hexec
  by_cases hfails : s.get R.BIST_STATUS.FAILS = 0
  · rw [if_pos hfails] at hexec
    obtain ⟨htbl, hcode, hlens, hmem, hbist⟩ := (s.planShown.planPassed s.bist.section_).enterLoad_memories
    refine ⟨_, hexec, ?_, fun _ => ⟨?_, ?_, ?_, ?_, ?_, ?_, ?_⟩, fun h => absurd hfails h⟩
    · rw [State.settle_bist, hbist]
      rfl
    · rw [State.settle_mode, State.enterLoad_mode]
    · rw [State.settle_get _ (by decide), State.enterLoad_step]
    · rw [State.settle_boot, State.enterLoad_boot]
      rfl
    · rw [State.settle_tbl, htbl]
      rfl
    · rw [State.settle_code, hcode]
      rfl
    · rw [State.settle_lens, hlens]
      rfl
    · rw [State.settle_mem, hmem]
      rfl
  · rw [if_neg hfails] at hexec
    obtain ⟨hplan, hcause⟩ := s.planShown.toSafe_ends_plan 1
    obtain ⟨hmode, hprev, -⟩ := State.modes_inj (s.planShown.modes_toSafe 1)
    refine ⟨_, hexec, ?_, fun h => absurd h hfails, fun _ => ⟨?_, ?_, ?_⟩⟩
    · rw [State.settle_bist, hplan]
    · rw [State.settle_mode, hmode]
    · rw [State.settle_prev, hprev]
      rfl
    · rw [State.settle_safeCause, hcause]

theorem bistPlanEnd_running {s : State} (ho : s.planOver = false) : ∃ t, exec .bistPlanEnd s = .next t ∧ s.kept t [] fun _ => False :=
  ⟨_, complete_of_eq rfl (if_neg (by simp [ho])), s.kept_settle⟩

/-- Settles O49: a group's start, a unit's end, and the end of a plan. -/
theorem selfTestRuns : Obligations.SelfTestRuns :=
  ⟨fun _ _ _ _ hg hc hp hs ht hus => bistGroupStart_spec hg hc hp hs ht hus,
    fun s _ hg h => ⟨_, State.bistGroupStart_waits hg h, s.kept_settle⟩,
    fun _ _ _ _ _ _ hg hsig hc hp hr hu ho => bistUnitComplete_spec hg hsig hc hp hr hu ho,
    fun _ _ _ _ _ _ hg hsig hr ho => bistUnitComplete_early hg hsig hr ho, fun _ hm ho => bistPlanEnd_serve hm ho,
    fun _ hm hchip ho => bistPlanEnd_loading hm hchip ho, fun _ ho => bistPlanEnd_running ho⟩

end Sys2Proof.Machine
end
